-- ==== Sys2Proof/Word.lean ====
section
/-! DEFINITION. Word.lean: the word types of the LN512 and the plain types of the commands' operands (who sends an access, which
timer, which fabric, the contents of a host descriptor, what an element or a slot shows at a block boundary). -/

namespace Sys2Proof

/-- A byte of the little-endian device address space (R5). -/
abbrev Byte := BitVec 8
/-- A register word or an engine word. -/
abbrev Word := BitVec 32

/-- Who makes a device access (R223): the host over the Redra link, a pontoon peer, one of the 96 engines, or the boot ROM. -/
inductive Initiator where
  | host
  | peer (p : Fin 4)
  | engine (g : Fin 96)
  | bootRom
  deriving DecidableEq, Repr

/-- Completion status of a device access or of a transaction (Table 12.5); decode is the DENIED of an access that breaks R5, which
an engine sees as ACCESS with status DECODE (R415). -/
inductive Status where
  | ok | cancelled | alreadyComplete | poisoned | denied | dozing | linkReset | failedRetry | busy | decode
  deriving DecidableEq, Repr

/-- The code of a status (Table 12.5). -/
def Status.code : Status → Nat
  | .ok => 0 | .cancelled => 1 | .alreadyComplete => 2 | .poisoned => 3 | .denied => 4 | .dozing => 5 | .linkReset => 6
  | .failedRetry => 7 | .busy => 8 | .decode => 4

/-- One of the count-down or wide timers (R275, R283). -/
inductive TimerRef where
  | hub (n : Fin 16)
  | tile (t : Fin 8) (n : Fin 4)
  | wide (m : Fin 4)
  deriving DecidableEq, Repr

/-- An event fabric: the hub's or a tile's (R262). -/
inductive Fabric where
  | hub
  | tile (t : Fin 8)
  deriving DecidableEq, Repr

/-- How the timetable names a crossing that is not fetched yet: a descriptor of the live image in this or the following cycle, or
an accepted pushed crossing held for its fetch. -/
inductive XRef where
  | image (index : Nat) (nextCycle : Bool)
  | held (index : Nat)
  deriving DecidableEq, Repr

/-- A receive-landing descriptor as the module reads it (Table 12.8). -/
structure LandDesc where
  addr : Nat
  cap : Nat
  tag : Nat
  deriving DecidableEq, Repr

/-- A transmit descriptor as the module reads it (Table 12.8), with the payload bytes its buffer holds and the host's answer to the read of
them: OK, DENIED or POISONED (R364). -/
structure TxDesc where
  read : Status
  buf : Nat
  len : Nat
  nbr : Nat
  cls : Nat
  cipherBypass : Bool
  crcBypass : Bool
  once : Bool
  tag : Nat
  data : List Byte
  deriving DecidableEq, Repr

/-- A command-landing descriptor (Table 12.8): the opcode, the once bit, the tag, the length and its sixteen argument bytes. -/
structure CmdDesc where
  buf : Nat
  len : Nat
  opcode : Nat
  once : Bool
  tag : Nat
  args : List Byte
  deriving DecidableEq, Repr

/-- What one block that has just closed showed, on one element or one slot: the analogue and radio side of a block boundary, which
no register determines. -/
inductive BlockObs where
  /-- mean transmit output of an element over the block, in 1/1000 dBm (R50) -/
  | pdet (e : Fin 512) (mdbm : Int)
  /-- mean of an element's ADC samples over the block, in 1/16 ADC LSB, ahead of the fine loop (R44) -/
  | dcMean (e : Fin 512) (i q : Int)
  /-- one sample instant on receive: ADC codes of the elements of a tile set, seen by one slot (R69 to R74) -/
  | rxSamples (slot : Fin 16) (samples : List (Nat × Int × Int))
  /-- one sample instant on transmit: the PHY's 12-bit stream value of each transmitting slot (R76, R77) -/
  | txSamples (x : List (Nat × Int × Int))
  /-- a receive sweep's block: its equalised data symbols, derotated, in one unit; input power code (R102, R137) -/
  | sweep (slot : Fin 16) (y : List (Int × Int)) (powerCode : Nat)
  /-- the block was block k of a frame's lead on the slot (R74) -/
  | agc (slot : Fin 16) (k : Fin 4)
  deriving DecidableEq, Repr

/-- What a lead detector measured (R120, R121): correlation with the unicast and the broadcast code in 1/256, the lead start in
1/16 tick, the carrier frequency offset in kHz, and the equalised data symbols of the lead blocks 0 to 3, derotated, in one unit (R137). -/
structure LeadMeas where
  corrUni : Nat
  corrBc : Nat
  start : Nat
  cfoKhz : Int
  y : List (List (Int × Int))
  deriving DecidableEq, Repr

/-- The analogue side of one exported block (Table 4.8): its equalised guard symbols, derotated, noise variance, channel taps and symbols as bytes,
and the receive descriptor that the module reads if the record opens one. -/
structure SoftBlock where
  guard : List (Int × Int)
  noise : Nat
  taps : List Byte
  symbols : List Byte
  desc : Option LandDesc
  deriving DecidableEq, Repr

/-- A drift of one element found by a tension solve (R109): phases in 1/1000 degree, gains in 1/1000 dB. -/
structure Drift where
  elem : Nat
  rxPhase : Rat
  rxGain : Rat
  txPhase : Rat
  txGain : Rat
  deriving DecidableEq, Repr

/-- The outcome of one word read from a protected memory, as its decoder sees it (R421, R374). guard matters in flash alone: the bit that the
guard row holds at the word's column and that bit line (R397). -/
inductive EccSeen where
  | clean
  | corrected (bitLine syndrome : Nat) (guard : Bool)
  | uncorrectable (syndrome : Nat)
  deriving DecidableEq, Repr

/-- The engine that runs a word, and what the decoders show for the words of its local memory that the word reads (R198, R421). -/
structure EngSeen where
  g : Fin 96
  ecc : List (Nat × EccSeen)
  deriving DecidableEq, Repr

/-- The slot whose preload a tile has copied, and what the decoders showed for the words read (R88, R97). -/
structure CopySeen where
  slot : Fin 16
  ecc : List (Nat × EccSeen)
  deriving DecidableEq, Repr

/-- A reading of an element's receive detector, in 1/1000 dBm (R52). -/
structure OvlSeen where
  elem : Fin 512
  mdbm : Int
  deriving DecidableEq, Repr

/-- The crossing for which tiles are warmed, and the coarse DC codes that their elements find: element, LNA step, I and Q (R43, R151). -/
structure WarmSeen where
  x : XRef
  dcCodes : List (Nat × Nat × Int × Int)
  deriving DecidableEq, Repr

/-- The domain whose rise ends, and the coarse DC codes that the elements of a tile find: element, LNA step, I and Q (R43). -/
structure RiseSeen where
  d : Fin 16
  dcCodes : List (Nat × Nat × Int × Int)
  deriving DecidableEq, Repr

/-- How a flit came in: whether its CRC is right, and what the FEC decoder found in the codewords that ended since the flit before: symbols
corrected, and codewords it could not correct (R345, Table 12.11). -/
structure FlitSeen where
  crcOk : Bool
  fixed : Fin 256
  lost : Fin 16
  deriving DecidableEq, Repr

/-- What a boot meets that no register determines: the BOOT_SEL straps (R329), and the flash words that its reads find uncorrectable, with
their syndromes (Table 14.6). -/
structure BootSeen where
  bootSel : Nat
  bad : List (Nat × Nat)
  deriving DecidableEq, Repr

/-- How a link training came out (R342, R347, R367): the lanes that trained on both sides as a mask, what the far end reported, whether the module's
resume sequence lies within the far end's replay buffer, and the one-way delay measured (R368). -/
structure TrainSeen where
  lanes : Nat
  peerEpoch : Nat
  peerResume : Nat
  peerIndex : Nat
  inBuffer : Bool
  delay : Nat
  deriving DecidableEq, Repr

/-- A received bell, bits 32 to 103 (Table 10.9). -/
structure Bell where
  target : Nat
  command : Nat
  time : Nat
  tag : Nat
  crc : Nat
  deriving DecidableEq, Repr

/-- Fields of a received pontoon beacon (Table 12.9) and the local mesh time at its first flit. -/
structure BeaconSeen where
  digest : Nat
  minor : Nat
  major : Nat
  claims : List Nat
  time : Nat
  cycle : Nat
  arrival : Nat
  deriving DecidableEq, Repr

/-- A Redra packet header as received (Table 12.3), the target of RD, WR, WRP, FENCE and CANCEL. -/
structure Packet where
  once : Bool
  tag : Nat
  addr : Nat
  len : Nat
  deriving DecidableEq, Repr

end Sys2Proof
end

