-- ==== Sys2Proof/Syntax.lean ====
section
/-! DEFINITION. Syntax.lean: the commands of the LN512, one constructor per row of spec/opcode_table.json, in the order of their rules.
A command is an access from outside, an event on a pin, an engine word, or a step of one of the module's own sequencers. -/

namespace Sys2Proof

/-- A command of the module. The docstring of a constructor is its row's mnemonic and rule. -/
inductive Instr where
  /-- REGISTER_WRITE (R7). -/
  | registerWrite (ini : Initiator) (posted : Bool) (addr : Word) (size : Nat) (data : Word)
  /-- LANE_FAIL (R12). -/
  | laneFail (t : Fin 8) (toTile : Bool) (lane : Fin 48)
  /-- RX_FRAME_LANDING (R16). -/
  | rxFrameLanding (n : Fin 64) (descs : List LandDesc)
  /-- HL_REFCLK_DETECTED (R19). -/
  | hlRefclkDetected
  /-- KEEPER_CALIBRATION (R22). -/
  | keeperCalibration (count : Nat)
  /-- WINDOW_BOUNDARY (R24). -/
  | windowBoundary (dcCodes : List (Nat × Nat × Int × Int))
  /-- CYCLE_BOUNDARY (R24). -/
  | cycleBoundary
  /-- HUB_FUNC_MODE_WRITE (R28). -/
  | hubFuncModeWrite (ini : Initiator) (data : Word)
  /-- HUB_GCOMMIT_WRITE (R33). -/
  | hubGcommitWrite (ini : Initiator) (data : Word)
  /-- RX_OVL (R52). -/
  | rxOvl (r : OvlSeen)
  /-- ADC_SATURATION (R52). -/
  | adcSaturation (e : Fin 512)
  /-- LO_LOCK (R59). -/
  | loLock (t : Fin 8) (synB : Bool)
  /-- RF_CHAN_WRITE (R60). -/
  | rfChanWrite (ini : Initiator) (data : Word)
  /-- LO_UNLOCK (R60). -/
  | loUnlock (t : Fin 8) (synB : Bool)
  /-- FRAGMENT_WRITE (R82). -/
  | fragmentWrite (ini : Initiator) (t : Fin 8) (sw : Fin 2048) (k : Fin 64) (data : Word)
  /-- DIRECTORY_WRITE (R82). -/
  | directoryWrite (ini : Initiator) (sw : Fin 2048) (w : Fin 4) (data : Word)
  /-- TILE_COMMIT (R83). -/
  | tileCommit (ini : Initiator) (t : Fin 8) (data : Word)
  /-- BF_COMMIT (R84). -/
  | bfCommit (ini : Initiator) (data : Word)
  /-- PRELOAD (R88). -/
  | preload (ini : Initiator) (data : Word)
  /-- PRELOAD_REPORT (R88). -/
  | preloadReport (t : Fin 8) (c : CopySeen)
  /-- SWAP_REQUEST (R90). -/
  | swapRequest (ini : Initiator) (data : Word)
  /-- ARM_CUTOFF (R91). -/
  | armCutoff (slot : Fin 16)
  /-- BANK_SWAP (R92). -/
  | bankSwap (slot : Fin 16)
  /-- CAPTURE_ARM (R104). -/
  | captureArm (ini : Initiator) (data : Word)
  /-- CAPTURE_TICK (R104). -/
  | captureTick (samples : List (Nat × List Nat))
  /-- CAPTURE_DONE (R106). -/
  | captureDone
  /-- TENSION_TRIGGER (R107). -/
  | tensionTrigger (t : Fin 8) (byTemp : Bool)
  /-- TENSION_GO (R107). -/
  | tensionGo (ini : Initiator) (data : Word)
  /-- TENSION_COMPLETE (R110). -/
  | tensionComplete (t : Fin 8) (couplings seams : List (Nat × Nat × Int × Int))
  /-- TENSION_TIMEOUT (R111). -/
  | tensionTimeout (t : Fin 8)
  /-- BLOCK_BOUNDARY (R113). -/
  | blockBoundary (obs : List BlockObs)
  /-- LEAD_DETECT (R120). -/
  | leadDetect (slot : Fin 16) (m : LeadMeas)
  /-- LEAD_MISS (R120). -/
  | leadMiss (slot : Fin 16)
  /-- HEADER_DECODE (R124). -/
  | headerDecode (slot : Fin 16) (bytes : List Byte)
  /-- DECODER_START (R130). -/
  | decoderStart (d : Fin 16)
  /-- CODEWORD_DECODED (R132). -/
  | codewordDecoded (d : Fin 16) (iters : Nat) (bits : List Bool)
  /-- TX_LEAD_START (R134). -/
  | txLeadStart (slot : Fin 16)
  /-- CODEWORD_ENCODED (R134). -/
  | codewordEncoded (enc : Fin 16)
  /-- TX_UNDERRUN (R134). -/
  | txUnderrun (slot : Fin 16)
  /-- BLOCK_EQUALISED (R135). -/
  | blockEqualised (slot : Fin 16) (b : SoftBlock)
  /-- PHY_SOFT_BEAMS_WRITE (R140). -/
  | phySoftBeamsWrite (ini : Initiator) (data : Word)
  /-- XNG_COMMIT (R145). -/
  | xngCommit (ini : Initiator) (data : Word)
  /-- XNG_ENABLE (R147). -/
  | xngEnable (ini : Initiator) (data : Word)
  /-- CROSSING_FETCH (R150). -/
  | crossingFetch
  /-- TILE_WARM_COMMAND (R151). -/
  | tileWarmCommand (w : WarmSeen)
  /-- TURN_COMMAND (R151). -/
  | turnCommand (slot : Fin 16)
  /-- CROSSING_START (R151). -/
  | crossingStart (slot : Fin 16)
  /-- READINESS_CHECK (R153). -/
  | readinessCheck (slot : Fin 16) (cxGnt : Bool)
  /-- VOTE_SCAN (R155). -/
  | voteScan (x : XRef)
  /-- CROSSING_END (R156). -/
  | crossingEnd (slot : Fin 16) (cxGnt : Bool)
  /-- XNG_PUSH_PTR_WRITE (R158). -/
  | xngPushPtrWrite (ini : Initiator) (data : Word)
  /-- PUSH_ENTRY_READ (R159). -/
  | pushEntryRead
  /-- TX_DESCRIPTOR_READ (R168). -/
  | txDescriptorRead (n : Fin 64) (desc : TxDesc)
  /-- ACK_DEADLINE (R170). -/
  | ackDeadline (n : Fin 64)
  /-- HORIZON_EXPIRY (R171). -/
  | horizonExpiry (n : Fin 64) (tag : Nat)
  /-- COND_REPLY_DECISION (R173). -/
  | condReplyDecision (slot : Fin 16)
  /-- PARENT_SILENT (R178). -/
  | parentSilent
  /-- TIME_STEP (R179). -/
  | timeStep
  /-- MAC_NBR_COMMIT (R182). -/
  | macNbrCommit (ini : Initiator) (data : Word)
  /-- NEIGHBOUR_COPY (R182). -/
  | neighbourCopy (n : Fin 64)
  /-- MFS (R189). -/
  | mfs (g : Fin 96) (d a b : Fin 16) (arg : BitVec 8)
  /-- MTS (R189). -/
  | mts (g : Fin 96) (d a b : Fin 16) (arg : BitVec 8)
  /-- ADD (R192). -/
  | add (g : Fin 96) (d a b : Fin 16) (u : BitVec 8)
  /-- SUB (R192). -/
  | sub (g : Fin 96) (d a b : Fin 16) (u : BitVec 8)
  /-- AND (R192). -/
  | and (g : Fin 96) (d a b : Fin 16) (u : BitVec 8)
  /-- OR (R192). -/
  | or (g : Fin 96) (d a b : Fin 16) (u : BitVec 8)
  /-- XOR (R192). -/
  | xor (g : Fin 96) (d a b : Fin 16) (u : BitVec 8)
  /-- SHL (R192). -/
  | shl (g : Fin 96) (d a b : Fin 16) (u : BitVec 8)
  /-- SHR (R192). -/
  | shr (g : Fin 96) (d a b : Fin 16) (u : BitVec 8)
  /-- SRA (R192). -/
  | sra (g : Fin 96) (d a b : Fin 16) (u : BitVec 8)
  /-- ROR (R192). -/
  | ror (g : Fin 96) (d a b : Fin 16) (u : BitVec 8)
  /-- MUL (R192). -/
  | mul (g : Fin 96) (d a b : Fin 16) (u : BitVec 8)
  /-- MULHU (R192). -/
  | mulhu (g : Fin 96) (d a b : Fin 16) (u : BitVec 8)
  /-- MULHS (R192). -/
  | mulhs (g : Fin 96) (d a b : Fin 16) (u : BitVec 8)
  /-- SLT (R192). -/
  | slt (g : Fin 96) (d a b : Fin 16) (u : BitVec 8)
  /-- SLTU (R192). -/
  | sltu (g : Fin 96) (d a b : Fin 16) (u : BitVec 8)
  /-- MIN (R192). -/
  | min (g : Fin 96) (d a b : Fin 16) (u : BitVec 8)
  /-- MAX (R192). -/
  | max (g : Fin 96) (d a b : Fin 16) (u : BitVec 8)
  /-- PAR (R192). -/
  | par (g : Fin 96) (d a b : Fin 16) (u : BitVec 8)
  /-- PARB (R192). -/
  | parb (g : Fin 96) (d a b : Fin 16) (u : BitVec 8)
  /-- BREV (R192). -/
  | brev (g : Fin 96) (d a b : Fin 16) (u : BitVec 8)
  /-- BREVB (R192). -/
  | brevb (g : Fin 96) (d a b : Fin 16) (u : BitVec 8)
  /-- BSWAP (R192). -/
  | bswap (g : Fin 96) (d a b : Fin 16) (u : BitVec 8)
  /-- CLZ (R192). -/
  | clz (g : Fin 96) (d a b : Fin 16) (u : BitVec 8)
  /-- POPC (R192). -/
  | popc (g : Fin 96) (d a b : Fin 16) (u : BitVec 8)
  /-- VMOV (R192). -/
  | vmov (g : Fin 96) (d a b : Fin 16) (u : BitVec 8)
  /-- VSPLAT (R192). -/
  | vsplat (g : Fin 96) (d a b : Fin 16) (u : BitVec 8)
  /-- VGET (R192). -/
  | vget (g : Fin 96) (d a b : Fin 16) (u : BitVec 8)
  /-- VPUT (R192). -/
  | vput (g : Fin 96) (d a b : Fin 16) (u : BitVec 8)
  /-- ADDI (R192). -/
  | addi (g : Fin 96) (d a : Fin 16) (imm : BitVec 17)
  /-- SLTI (R192). -/
  | slti (g : Fin 96) (d a : Fin 16) (imm : BitVec 17)
  /-- ANDI (R192). -/
  | andi (g : Fin 96) (d a : Fin 16) (imm : BitVec 17)
  /-- ORI (R192). -/
  | ori (g : Fin 96) (d a : Fin 16) (imm : BitVec 17)
  /-- XORI (R192). -/
  | xori (g : Fin 96) (d a : Fin 16) (imm : BitVec 17)
  /-- SHLI (R192). -/
  | shli (g : Fin 96) (d a : Fin 16) (imm : BitVec 17)
  /-- SHRI (R192). -/
  | shri (g : Fin 96) (d a : Fin 16) (imm : BitVec 17)
  /-- SRAI (R192). -/
  | srai (g : Fin 96) (d a : Fin 16) (imm : BitVec 17)
  /-- LUI (R192). -/
  | lui (g : Fin 96) (d a : Fin 16) (imm : BitVec 17)
  /-- NOP (R192). -/
  | nop (g : Fin 96) (inB : Bool) (d b : Fin 16) (other : BitVec 15) (low : Bool)
  /-- S_MOV (R192). -/
  | sMov (g : Fin 96) (inB : Bool) (d b : Fin 16) (other : BitVec 15) (low : Bool)
  /-- S_MOV_IMM_ZX (R192). -/
  | sMovImmZx (g : Fin 96) (inB : Bool) (d b : Fin 16) (other : BitVec 15) (low : Bool)
  /-- S_MOV_IMM_SX (R192). -/
  | sMovImmSx (g : Fin 96) (inB : Bool) (d b : Fin 16) (other : BitVec 15) (low : Bool)
  /-- S_ADD (R192). -/
  | sAdd (g : Fin 96) (inB : Bool) (d b : Fin 16) (other : BitVec 15) (low : Bool)
  /-- S_SUB (R192). -/
  | sSub (g : Fin 96) (inB : Bool) (d b : Fin 16) (other : BitVec 15) (low : Bool)
  /-- S_AND (R192). -/
  | sAnd (g : Fin 96) (inB : Bool) (d b : Fin 16) (other : BitVec 15) (low : Bool)
  /-- S_OR (R192). -/
  | sOr (g : Fin 96) (inB : Bool) (d b : Fin 16) (other : BitVec 15) (low : Bool)
  /-- S_XOR (R192). -/
  | sXor (g : Fin 96) (inB : Bool) (d b : Fin 16) (other : BitVec 15) (low : Bool)
  /-- S_SHL (R192). -/
  | sShl (g : Fin 96) (inB : Bool) (d b : Fin 16) (other : BitVec 15) (low : Bool)
  /-- S_SHR (R192). -/
  | sShr (g : Fin 96) (inB : Bool) (d b : Fin 16) (other : BitVec 15) (low : Bool)
  /-- S_SRA (R192). -/
  | sSra (g : Fin 96) (inB : Bool) (d b : Fin 16) (other : BitVec 15) (low : Bool)
  /-- S_ADD_IMM4 (R192). -/
  | sAddImm4 (g : Fin 96) (inB : Bool) (d b : Fin 16) (other : BitVec 15) (low : Bool)
  /-- S_SUB_IMM4 (R192). -/
  | sSubImm4 (g : Fin 96) (inB : Bool) (d b : Fin 16) (other : BitVec 15) (low : Bool)
  /-- S_SHL_IMM4 (R192). -/
  | sShlImm4 (g : Fin 96) (inB : Bool) (d b : Fin 16) (other : BitVec 15) (low : Bool)
  /-- S_SHR_IMM4 (R192). -/
  | sShrImm4 (g : Fin 96) (inB : Bool) (d b : Fin 16) (other : BitVec 15) (low : Bool)
  /-- S_SEQ (R192). -/
  | sSeq (g : Fin 96) (inB : Bool) (d b : Fin 16) (other : BitVec 15) (low : Bool)
  /-- S_SNE (R192). -/
  | sSne (g : Fin 96) (inB : Bool) (d b : Fin 16) (other : BitVec 15) (low : Bool)
  /-- S_SLT (R192). -/
  | sSlt (g : Fin 96) (inB : Bool) (d b : Fin 16) (other : BitVec 15) (low : Bool)
  /-- S_SLTU (R192). -/
  | sSltu (g : Fin 96) (inB : Bool) (d b : Fin 16) (other : BitVec 15) (low : Bool)
  /-- S_MUL (R192). -/
  | sMul (g : Fin 96) (inB : Bool) (d b : Fin 16) (other : BitVec 15) (low : Bool)
  /-- S_PAR (R192). -/
  | sPar (g : Fin 96) (inB : Bool) (d b : Fin 16) (other : BitVec 15) (low : Bool)
  /-- S_PARB (R192). -/
  | sParb (g : Fin 96) (inB : Bool) (d b : Fin 16) (other : BitVec 15) (low : Bool)
  /-- S_BREV (R192). -/
  | sBrev (g : Fin 96) (inB : Bool) (d b : Fin 16) (other : BitVec 15) (low : Bool)
  /-- S_BSWAP (R192). -/
  | sBswap (g : Fin 96) (inB : Bool) (d b : Fin 16) (other : BitVec 15) (low : Bool)
  /-- S_BREVB (R192). -/
  | sBrevb (g : Fin 96) (inB : Bool) (d b : Fin 16) (other : BitVec 15) (low : Bool)
  /-- LDL_B (R192). -/
  | ldlB (e : EngSeen) (inB : Bool) (d b : Fin 16) (other : BitVec 15) (low : Bool)
  /-- LDL_H (R192). -/
  | ldlH (e : EngSeen) (inB : Bool) (d b : Fin 16) (other : BitVec 15) (low : Bool)
  /-- LDL_W (R192). -/
  | ldlW (e : EngSeen) (inB : Bool) (d b : Fin 16) (other : BitVec 15) (low : Bool)
  /-- STL_B (R192). -/
  | stlB (g : Fin 96) (inB : Bool) (d b : Fin 16) (other : BitVec 15) (low : Bool)
  /-- STL_H (R192). -/
  | stlH (g : Fin 96) (inB : Bool) (d b : Fin 16) (other : BitVec 15) (low : Bool)
  /-- STL_W (R192). -/
  | stlW (g : Fin 96) (inB : Bool) (d b : Fin 16) (other : BitVec 15) (low : Bool)
  /-- LD (R195). -/
  | ld (g : Fin 96) (d a : Fin 16) (dev : Bool) (size : Fin 4) (off : BitVec 14) (ecc : List (Nat × EccSeen))
  /-- LDS (R195). -/
  | lds (g : Fin 96) (d a : Fin 16) (dev : Bool) (size : Fin 4) (off : BitVec 14) (ecc : List (Nat × EccSeen))
  /-- ST (R195). -/
  | st (g : Fin 96) (d a : Fin 16) (dev : Bool) (size : Fin 4) (off : BitVec 14)
  /-- VLD (R195). -/
  | vld (g : Fin 96) (d a : Fin 16) (dev : Bool) (size : Fin 4) (off : BitVec 14) (ecc : List (Nat × EccSeen))
  /-- VST (R195). -/
  | vst (g : Fin 96) (d a : Fin 16) (dev : Bool) (size : Fin 4) (off : BitVec 14)
  /-- DEVICE_COMPLETION (R196). -/
  | deviceCompletion (g : Fin 96) (ecc : List (Nat × EccSeen))
  /-- FENCE (R197). -/
  | fence (g : Fin 96) (d a b : Fin 16) (arg : BitVec 8)
  /-- STP (R197). -/
  | stp (g : Fin 96) (d a : Fin 16) (dev : Bool) (size : Fin 4) (off : BitVec 14)
  /-- POSTED_FAULT (R197). -/
  | postedFault (g : Fin 96)
  /-- BEQ (R199). -/
  | beq (g : Fin 96) (a b : Fin 16) (off : BitVec 17)
  /-- BNE (R199). -/
  | bne (g : Fin 96) (a b : Fin 16) (off : BitVec 17)
  /-- BLT (R199). -/
  | blt (g : Fin 96) (a b : Fin 16) (off : BitVec 17)
  /-- BGE (R199). -/
  | bge (g : Fin 96) (a b : Fin 16) (off : BitVec 17)
  /-- BLTU (R199). -/
  | bltu (g : Fin 96) (a b : Fin 16) (off : BitVec 17)
  /-- BGEU (R199). -/
  | bgeu (g : Fin 96) (a b : Fin 16) (off : BitVec 17)
  /-- J (R199). -/
  | j (g : Fin 96) (a b : Fin 16) (off : BitVec 17)
  /-- JR (R199). -/
  | jr (g : Fin 96) (a b : Fin 16) (off : BitVec 17)
  /-- RSSAVE (R201). -/
  | rssave (g : Fin 96) (d a b : Fin 16) (arg : BitVec 8)
  /-- RSLOAD (R201). -/
  | rsload (e : EngSeen) (d a b : Fin 16) (arg : BitVec 8)
  /-- CALL (R201). -/
  | call (g : Fin 96) (a b : Fin 16) (off : BitVec 17)
  /-- CALLR (R201). -/
  | callr (g : Fin 96) (a b : Fin 16) (off : BitVec 17)
  /-- RET (R201). -/
  | ret (g : Fin 96) (a b : Fin 16) (off : BitVec 17)
  /-- LOOP (R202). -/
  | loop (g : Fin 96) (a b : Fin 16) (off : BitVec 17)
  /-- SETMODE (R206). -/
  | setmode (g : Fin 96) (d a b : Fin 16) (arg : BitVec 8)
  /-- TIMED_OVERRUN (R208). -/
  | timedOverrun (g : Fin 96)
  /-- CRC_B (R209). -/
  | crcB (g : Fin 96) (d a b : Fin 16) (u : BitVec 8)
  /-- CRC_H (R209). -/
  | crcH (g : Fin 96) (d a b : Fin 16) (u : BitVec 8)
  /-- CRC_W (R209). -/
  | crcW (g : Fin 96) (d a b : Fin 16) (u : BitVec 8)
  /-- S_CRC_B (R209). -/
  | sCrcB (g : Fin 96) (inB : Bool) (d b : Fin 16) (other : BitVec 15) (low : Bool)
  /-- S_CRC_H (R209). -/
  | sCrcH (g : Fin 96) (inB : Bool) (d b : Fin 16) (other : BitVec 15) (low : Bool)
  /-- S_CRC_W (R209). -/
  | sCrcW (g : Fin 96) (inB : Bool) (d b : Fin 16) (other : BitVec 15) (low : Bool)
  /-- HADD (R210). -/
  | hadd (g : Fin 96) (d a b : Fin 16) (u : BitVec 8)
  /-- HSUB (R210). -/
  | hsub (g : Fin 96) (d a b : Fin 16) (u : BitVec 8)
  /-- HMUL (R210). -/
  | hmul (g : Fin 96) (d a b : Fin 16) (u : BitVec 8)
  /-- CMUL (R210). -/
  | cmul (g : Fin 96) (d a b : Fin 16) (u : BitVec 8)
  /-- CFMA (R210). -/
  | cfma (g : Fin 96) (d a b : Fin 16) (u : BitVec 8)
  /-- CVTQ (R212). -/
  | cvtq (g : Fin 96) (d a b : Fin 16) (u : BitVec 8)
  /-- CVTH (R212). -/
  | cvth (g : Fin 96) (d a b : Fin 16) (u : BitVec 8)
  /-- GATHER (R213). -/
  | gather (e : EngSeen) (d a b : Fin 16) (func : BitVec 13)
  /-- MSEND (R215). -/
  | msend (g : Fin 96) (d a b : Fin 16) (arg : BitVec 8)
  /-- MRECV (R215). -/
  | mrecv (g : Fin 96) (d a b : Fin 16) (arg : BitVec 8)
  /-- MTIME (R216). -/
  | mtime (g : Fin 96) (d a b : Fin 16) (arg : BitVec 8)
  /-- ERET (R217). -/
  | eret (g : Fin 96) (d a b : Fin 16) (arg : BitVec 8)
  /-- BRK (R218). -/
  | brk (g : Fin 96) (d a b : Fin 16) (arg : BitVec 8)
  /-- SYSC (R218). -/
  | sysc (g : Fin 96) (d a b : Fin 16) (arg : BitVec 8)
  /-- WFI (R220). -/
  | wfi (g : Fin 96) (d a b : Fin 16) (arg : BitVec 8)
  /-- WFI_WAKE (R220). -/
  | wfiWake (g : Fin 96)
  /-- INTERRUPT_TAKEN (R220). -/
  | interruptTaken (g : Fin 96)
  /-- ENGINE_RUN (R222). -/
  | engineRun (ini : Initiator) (g : Fin 96) (data : Word)
  /-- ENGINE_HALT (R222). -/
  | engineHalt (ini : Initiator) (g : Fin 96) (data : Word)
  /-- ENG_LM_DATA_ACCESS (R222). -/
  | engLmDataAccess (ini : Initiator) (g : Fin 96) (data : Option Word)
  /-- KEEL_VOTE_WRITE (R227). -/
  | keelVoteWrite (ini : Initiator) (data : Word)
  /-- VCORE_LOSS (R230). -/
  | vcoreLoss
  /-- PIPE_ENTRY (R232). -/
  | pipeEntry (rx : Bool) (slot : Fin 16)
  /-- TAG_VERIFIED (R236). -/
  | tagVerified (p : Fin 8)
  /-- KEY_SLOT_APPLY (R238). -/
  | keySlotApply
  /-- SEC_KEY_LOAD (R239). -/
  | secKeyLoad (ini : Initiator) (data : Word)
  /-- SEC_KEY_ERASE (R239). -/
  | secKeyErase (ini : Initiator) (data : Word)
  /-- SEC_KEY_BAD_OP (R239). -/
  | secKeyBadOp (ini : Initiator) (data : Word)
  /-- ENTROPY_BIT (R243). -/
  | entropyBit (b : Bool)
  /-- RNG_RESTART (R244). -/
  | rngRestart (ini : Initiator) (data : Word)
  /-- RNG_DATA_READ (R246). -/
  | rngDataRead (ini : Initiator)
  /-- OTP_PROGRAM (R250). -/
  | otpProgram (ini : Initiator) (data : Word)
  /-- OTP_PROGRAM_DONE (R250). -/
  | otpProgramDone (miss : Word)
  /-- BELL_KEY_WRITE (R251). -/
  | bellKeyWrite (ini : Initiator) (k : Fin 4) (data : Word)
  /-- CRC_FEED_B (R259). -/
  | crcFeedB (ini : Initiator) (u : Fin 8) (data : Word)
  /-- CRC_FEED_H (R259). -/
  | crcFeedH (ini : Initiator) (u : Fin 8) (data : Word)
  /-- CRC_FEED_W (R259). -/
  | crcFeedW (ini : Initiator) (u : Fin 8) (data : Word)
  /-- CRC_STATE_WRITE (R260). -/
  | crcStateWrite (ini : Initiator) (u : Fin 8) (data : Word)
  /-- CRC_CFG_WRITE (R260). -/
  | crcCfgWrite (ini : Initiator) (u : Fin 8) (data : Word)
  /-- YARN_IMPORT_DELIVERY (R268). -/
  | yarnImportDelivery (toHub : Bool) (k : Fin 64)
  /-- YRN_FIRE (R269). -/
  | yrnFire (ini : Initiator) (f : Fabric) (w : Fin 4) (data : Word)
  /-- STITCH_FILTER_SETTLE (R270). -/
  | stitchFilterSettle (k : Fin 96)
  /-- YRN_CELL_CTRL_WRITE (R272). -/
  | yrnCellCtrlWrite (ini : Initiator) (k : Fin 96) (data : Word)
  /-- GP_INPUT_EDGE (R273). -/
  | gpInputEdge (g : Fin 16) (level : Bool)
  /-- GP_PULSE_END (R273). -/
  | gpPulseEnd (g : Fin 16)
  /-- TIMER_NOCLK (R276). -/
  | timerNoclk (r : TimerRef)
  /-- TIMER_ENABLE (R277). -/
  | timerEnable (ini : Initiator) (r : TimerRef) (data : Word)
  /-- TIMER_WRAP (R277). -/
  | timerWrap (r : TimerRef)
  /-- TIMER_MATCH (R277). -/
  | timerMatch (r : TimerRef)
  /-- TIMER_COUNTED_EDGE (R277). -/
  | timerCountedEdge (r : TimerRef)
  /-- TIMER_TRIGGER (R279). -/
  | timerTrigger (r : TimerRef)
  /-- TIMER_CAPTURE (R280). -/
  | timerCapture (r : TimerRef)
  /-- TIMER_CAP_READ (R280). -/
  | timerCapRead (ini : Initiator) (r : TimerRef)
  /-- TIMER_DISABLE (R281). -/
  | timerDisable (ini : Initiator) (r : TimerRef) (data : Word)
  /-- WIDE_ALARM (R284). -/
  | wideAlarm (m : Fin 4)
  /-- TS_IN_EDGE (R286). -/
  | tsInEdge
  /-- TSI_READ (R286). -/
  | tsiRead (ini : Initiator)
  /-- TS_OUT_PULSE (R287). -/
  | tsOutPulse
  /-- TS_OUT_PULSE_END (R287). -/
  | tsOutPulseEnd
  /-- WAKE_N_FALL (R288). -/
  | wakeNFall
  /-- PNT_SYNC_EDGE (R288). -/
  | pntSyncEdge
  /-- IRQ_SET (R290). -/
  | irqSet (ini : Initiator) (data : Word)
  /-- IRQ_DELIVERY (R290). -/
  | irqDelivery
  /-- IRQ_EOI (R291). -/
  | irqEoi (ini : Initiator) (data : Word)
  /-- IRQ_PEND_CLEAR (R291). -/
  | irqPendClear (ini : Initiator) (w : Fin 16) (data : Word)
  /-- INTERRUPT (R292). -/
  | interrupt
  /-- HOLDOFF_END (R293). -/
  | holdoffEnd (g : Fin 32)
  /-- DOMAIN_RISE_COMPLETE (R295). -/
  | domainRiseComplete (r : RiseSeen)
  /-- PWR_VOTE_SET (R296). -/
  | pwrVoteSet (ini : Initiator) (d : Fin 16) (data : Word)
  /-- PWR_VOTE_CLR (R296). -/
  | pwrVoteClr (ini : Initiator) (d : Fin 16) (data : Word)
  /-- LINGER_END (R296). -/
  | lingerEnd (d: Fin 16)
  /-- RF_RAIL_OFF (R298). -/
  | rfRailOff
  /-- TIMETABLE_WAKE (R300). -/
  | timetableWake
  /-- PWR_FORCE_OFF_WRITE (R301). -/
  | pwrForceOffWrite (ini : Initiator) (data : Word)
  /-- PWR_CLK_GATE_WRITE (R302). -/
  | pwrClkGateWrite (ini : Initiator) (data : Word)
  /-- WOT_TIMEOUT (R305). -/
  | wotTimeout (d: Fin 16)
  /-- WAKE_SOURCE_EDGE (R306). -/
  | wakeSourceEdge (rise fall : Word)
  /-- AON_TIMER (R308). -/
  | aonTimer
  /-- ENTER_OFF (R310). -/
  | enterOff
  /-- WK_RX_ENABLE (R312). -/
  | wkRxEnable (ini : Initiator) (data : Word)
  /-- SNIFF (R312). -/
  | sniff (r : Fin 4) (energy : Fin 256)
  /-- DETECT_TIMEOUT (R312). -/
  | detectTimeout (r : Fin 4)
  /-- BELL_RECEIVED (R314). -/
  | bellReceived (r : Fin 4) (bell : Bell) (syncBefore : Bool)
  /-- WAKE_N_PULSE_END (R315). -/
  | wakeNPulseEnd
  /-- KEEPER_SLEW_END (R316). -/
  | keeperSlewEnd
  /-- BELL_RAW_READ (R317). -/
  | bellRawRead (ini : Initiator)
  /-- BELL_TX_REQUEST (R318). -/
  | bellTxRequest (ini : Initiator) (data : Word)
  /-- BELL_TX_START (R318). -/
  | bellTxStart (cxGnt : Bool)
  /-- BELL_TX_END (R318). -/
  | bellTxEnd
  /-- COEX_REQUEST (R320). -/
  | coexRequest (slot : Fin 16)
  /-- CXI_REQ_RISE (R321). -/
  | cxiReqRise (pri : Bool)
  /-- CXI_REQ_FALL (R321). -/
  | cxiReqFall
  /-- TCXO_READY (R323). -/
  | tcxoReady
  /-- PLL_LOCK (R323). -/
  | pllLock (seen : BootSeen)
  /-- CRYSTAL_STABLE (R324). -/
  | crystalStable
  /-- CRYSTAL_TIMEOUT (R324). -/
  | crystalTimeout
  /-- PWR_GOOD_DROP (R326). -/
  | pwrGoodDrop (k : Fin 4)
  /-- RAIL_FAILURE (R326). -/
  | railFailure (k : Fin 4)
  /-- RAIL_RETRY (R326). -/
  | railRetry
  /-- BOOT_TIMEOUT (R330). -/
  | bootTimeout
  /-- POR (R331). -/
  | por (pntId : Fin 4)
  /-- PIN_RESET (R331). -/
  | pinReset
  /-- WARM_RESET (R332). -/
  | warmReset (ini : Initiator)
  /-- RESET_CMD_NONE (R332). -/
  | resetCmdNone (ini : Initiator) (target : Fin 128)
  /-- WDOG_KICK (R333). -/
  | wdogKick (ini : Initiator) (data : Word)
  /-- WDOG_WARNING (R333). -/
  | wdogWarning
  /-- WDOG_EXPIRY (R333). -/
  | wdogExpiry
  /-- TILE_RESET (R334). -/
  | tileReset (ini : Initiator) (target : Fin 128)
  /-- TILE_RESET_RELEASE (R334). -/
  | tileResetRelease (t : Fin 8)
  /-- ENGINE_RESET (R335). -/
  | engineReset (ini : Initiator) (target : Fin 128)
  /-- FLIT_RECEIVE (R345). -/
  | flitReceive (l : Fin 5) (seq : Fin 4096) (vc : Fin 3) (f : FlitSeen)
  /-- ACK (R345). -/
  | ack (l : Fin 5) (seq : Fin 4096) (f0 f1 f2 : Fin 65536)
  /-- NAK (R345). -/
  | nak (l : Fin 5) (seq : Fin 4096) (f0 f1 f2 : Fin 65536)
  /-- RETRAIN_START (R346). -/
  | retrainStart (l : Fin 5)
  /-- LINK_TRAINED (R347). -/
  | linkTrained (l : Fin 5) (seen : TrainSeen)
  /-- RD (R350). -/
  | rd (l : Fin 5) (p : Packet) (ecc : List (Nat × EccSeen))
  /-- WR (R350). -/
  | wr (l : Fin 5) (p : Packet) (data : List Byte)
  /-- CPL (R351). -/
  | cpl (l : Fin 5) (tag : Fin 1024) (status : Status)
  /-- CPLD (R351). -/
  | cpld (l : Fin 5) (tag : Fin 1024) (status : Status) (data : List Byte)
  /-- CANCEL (R358). -/
  | cancel (l : Fin 5) (tag : Fin 1024) (once : Bool) (target : Fin 65536) (tx : Bool) (landing : Fin 256)
  /-- WRP (R359). -/
  | wrp (l : Fin 5) (p : Packet) (data : List Byte)
  /-- LATE_FAULT (R359). -/
  | lateFault (l : Fin 5)
  /-- REDRA_FENCE (R360). -/
  | redraFence (l : Fin 5) (tag : Fin 1024) (once : Bool)
  /-- HOST_LATE_FAULT (R361). -/
  | hostLateFault (l : Fin 5) (seq : Fin 65536) (status : Status) (addr : Word)
  /-- LNK_LND_TAIL_WRITE (R362). -/
  | lnkLndTailWrite (ini : Initiator) (n : Fin 74) (data : Word)
  /-- LNK_LND_HEAD_WRITE (R362). -/
  | lnkLndHeadWrite (ini : Initiator) (data : Word)
  /-- COMMAND_DESCRIPTOR_READ (R362). -/
  | commandDescriptorRead (desc : CmdDesc)
  /-- COMPLETION_ENTRY_WRITE (R363). -/
  | completionEntryWrite
  /-- STANDBY_REQ (R365). -/
  | standbyReq (l : Fin 5)
  /-- STANDBY_ACK (R365). -/
  | standbyAck (l : Fin 5)
  /-- LINK_IDLE (R365). -/
  | linkIdle (l : Fin 5)
  /-- WAKE_ORDERED_SET (R365). -/
  | wakeOrderedSet (l : Fin 5)
  /-- STANDBY_EXIT (R365). -/
  | standbyExit (l : Fin 5)
  /-- HOST_LANE_SIGNAL (R366). -/
  | hostLaneSignal
  /-- BEACON (R370). -/
  | beacon (p : Fin 4) (b : BeaconSeen)
  /-- PRIMARY_SILENT (R370). -/
  | primarySilent
  /-- PONTOON_PEER_LOST (R370). -/
  | pontoonPeerLost (p : Fin 4)
  /-- FLASH_READ (R374). -/
  | flashRead (ini : Initiator) (addr : Word) (size : Nat) (ecc : List (Nat × EccSeen))
  /-- FLASH_UNLOCK1 (R377). -/
  | flashUnlock1 (ini : Initiator) (posted : Bool) (k : Fin 4)
  /-- FLASH_UNLOCK2 (R377). -/
  | flashUnlock2 (ini : Initiator) (posted : Bool) (k : Fin 4)
  /-- SEQUENCE_TIMEOUT (R377). -/
  | sequenceTimeout (k : Fin 4)
  /-- PAGE_PROGRAM (R379). -/
  | pageProgram (ini : Initiator) (posted : Bool) (k : Fin 4) (block : Fin 64)
  /-- BLOCK_ERASE (R379). -/
  | blockErase (ini : Initiator) (posted : Bool) (k : Fin 4) (block : Fin 64)
  /-- FLASH_STATUS (R379). -/
  | flashStatus (ini : Initiator) (posted : Bool) (k : Fin 4)
  /-- FLASH_EXIT (R379). -/
  | flashExit (ini : Initiator) (posted : Bool) (k : Fin 4)
  /-- FLASH_RESET (R379). -/
  | flashReset (ini : Initiator) (posted : Bool) (k : Fin 4)
  /-- PAGE_BUFFER_WRITE (R379). -/
  | pageBufferWrite (ini : Initiator) (posted : Bool) (addr : Word) (data : List Byte)
  /-- FLASH_OP_DONE (R379). -/
  | flashOpDone (k : Fin 4) (fail : Bool) (unc : Nat)
  /-- FLASH_STRAY_WRITE (R381). -/
  | flashStrayWrite (ini : Initiator) (posted : Bool) (addr : Word) (data : List Byte)
  /-- HOLDUP_COMPARE (R386). -/
  | holdupCompare (code : Fin 4096)
  /-- SPARE_FILL (R399). -/
  | spareFill (ini : Initiator) (n : Fin 16) (data : Word)
  /-- IMAGE_BEGIN (R402). -/
  | imageBegin (manifest : List Byte) (relayed : Nat × Nat)
  /-- IMAGE_BLOCK (R403). -/
  | imageBlock (data : List Byte) (fails : Nat) (relayed : Nat × Nat)
  /-- HOLDUP_RETRY (R403). -/
  | holdupRetry (fails : Nat)
  /-- IMAGE_COMMIT (R404). -/
  | imageCommit (bad : List (Nat × Nat)) (relayed : Nat × Nat)
  /-- IMAGE_STATUS (R405). -/
  | imageStatus (relayed : List Byte)
  /-- ERR_UNIT_CLEAR (R416). -/
  | errUnitClear (ini : Initiator) (u : Fin 166) (data : Word)
  /-- UNIT_RESET_END (R417). -/
  | unitResetEnd (u : Fin 166)
  /-- LANE_RETRAINED (R419). -/
  | laneRetrained (t : Fin 8) (toTile : Bool) (lane : Fin 48)
  /-- SCRUB_WORD (R420). -/
  | scrubWord (m : Fin 5) (ecc : EccSeen)
  /-- FLASH_SCRUB (R423). -/
  | flashScrub (seen : List (Nat × EccSeen))
  /-- BLACK_BOX_CLEAR (R428). -/
  | blackBoxClear (ini : Initiator) (data : Word)
  /-- PMC_OVERFLOW (R430). -/
  | pmcOverflow (k : Fin 32) (a : BitVec 16)
  /-- PMC_SNAPSHOT (R431). -/
  | pmcSnapshot (ini : Initiator) (data : Word)
  /-- MARKER_SAMPLE (R432). -/
  | markerSample (g : Fin 96) (a : BitVec 16) (word : Word) (suppressed : Bool)
  /-- PWR_GOOD_RISE (R436). -/
  | pwrGoodRise (k : Fin 4)
  /-- DOMAIN_FALL_COMPLETE (R438). -/
  | domainFallComplete (d: Fin 16)
  /-- ENABLE_LOW_HOLD_END (R438). -/
  | enableLowHoldEnd (k : Fin 4)
  /-- TEMP_SAMPLE (R445). -/
  | tempSample (sensor : Fin 10) (temp : Int)
  /-- THERMAL_RECOVERY (R446). -/
  | thermalRecovery
  /-- THERM_N_LOW (R446). -/
  | thermNLow
  /-- MGMT_WRITE (R452). -/
  | mgmtWrite (ini : Initiator) (data : Word)
  /-- MGMT_READ (R452). -/
  | mgmtRead (ini : Initiator) (data : Word)
  /-- MGMT_DONE (R452). -/
  | mgmtDone (nack : Bool) (rdata : Fin 256)
  /-- MGMT_TIMEOUT (R452). -/
  | mgmtTimeout
  /-- HUB_READY (R456). -/
  | hubReady
  deriving DecidableEq, Repr

end Sys2Proof
end

