-- ==== Sys2Proof/Decode.lean ====
section
/-! DEFINITION. Decode.lean: the command that a word of spec/opcode_table.json spells (no row of the table gives bits, so none does), and the
instruction words of the Ikidal engines (R191, R192, Tables 6.4 to 6.7). -/

namespace Sys2Proof

/-- The command of a word by the table's bits: none of its rows has any. -/
def decodeTableWord (_nbits _w : Nat) : Option Instr := none

/-! ### Engine words (R191, R192) -/

/-- The four-bit field of an engine word that ends at bit lo. -/
def wordField (w : BitVec 32) (lo : Nat) : Fin 16 := ⟨(w.extractLsb' lo 4).toNat, (w.extractLsb' lo 4).isLt⟩

/-- The long operations of opcode 0x00 by func[4:0] (Table 6.6). -/
def decodeAlu (g : Fin 96) (fn : Nat) (d a b : Fin 16) (u : BitVec 8) : Option Instr :=
  match fn with
  | 0 => some (.add g d a b u)
  | 1 => some (.sub g d a b u)
  | 2 => some (.and g d a b u)
  | 3 => some (.or g d a b u)
  | 4 => some (.xor g d a b u)
  | 5 => some (.shl g d a b u)
  | 6 => some (.shr g d a b u)
  | 7 => some (.sra g d a b u)
  | 8 => some (.ror g d a b u)
  | 9 => some (.mul g d a b u)
  | 10 => some (.mulhu g d a b u)
  | 11 => some (.mulhs g d a b u)
  | 12 => some (.slt g d a b u)
  | 13 => some (.sltu g d a b u)
  | 14 => some (.min g d a b u)
  | 15 => some (.max g d a b u)
  | _ => none

/-- The operations of opcode 0x01 (Table 6.6). -/
def decodeBit (g : Fin 96) (fn : Nat) (d a b : Fin 16) (u : BitVec 8) : Option Instr :=
  match fn with
  | 0 => some (.par g d a b u)
  | 1 => some (.parb g d a b u)
  | 2 => some (.brev g d a b u)
  | 3 => some (.brevb g d a b u)
  | 4 => some (.bswap g d a b u)
  | 5 => some (.clz g d a b u)
  | 6 => some (.popc g d a b u)
  | 7 => some (.crcB g d a b u)
  | 8 => some (.crcH g d a b u)
  | 9 => some (.crcW g d a b u)
  | _ => none

/-- The operations of opcode 0x02 (Table 6.6). -/
def decodeVec (g : Fin 96) (fn : Nat) (d a b : Fin 16) (u : BitVec 8) : Option Instr :=
  match fn with
  | 0 => some (.hadd g d a b u)
  | 1 => some (.hsub g d a b u)
  | 2 => some (.hmul g d a b u)
  | 3 => some (.cmul g d a b u)
  | 4 => some (.cfma g d a b u)
  | 5 => some (.cvtq g d a b u)
  | 6 => some (.cvth g d a b u)
  | 7 => some (.vmov g d a b u)
  | 8 => some (.vsplat g d a b u)
  | 9 => some (.vget g d a b u)
  | 10 => some (.vput g d a b u)
  | _ => none

/-- The operations of opcode 0x04; func[12:5] is the argument (Table 6.6). -/
def decodeSys (g : Fin 96) (fn : Nat) (d a b : Fin 16) (arg : BitVec 8) (ecc : List (Nat × EccSeen)) : Option Instr :=
  match fn with
  | 0 => some (.mfs g d a b arg)
  | 1 => some (.mts g d a b arg)
  | 2 => some (.mtime g d a b arg)
  | 3 => some (.rssave g d a b arg)
  | 4 => some (.rsload ⟨g, ecc⟩ d a b arg)
  | 5 => some (.msend g d a b arg)
  | 6 => some (.mrecv g d a b arg)
  | 7 => some (.eret g d a b arg)
  | 8 => some (.setmode g d a b arg)
  | 9 => some (.brk g d a b arg)
  | 10 => some (.sysc g d a b arg)
  | 11 => some (.wfi g d a b arg)
  | 12 => some (.fence g d a b arg)
  | _ => none

/-- A word with bit 31 = 0: one long operation in the format of its opcode (Tables 6.4, 6.5). -/
def decodeLong (g : Fin 96) (w : BitVec 32) (ecc : List (Nat × EccSeen)) : Option Instr :=
  let d := wordField w 21
  let a := wordField w 17
  let b := wordField w 13
  let fn := (w.extractLsb' 0 5).toNat
  let u := w.extractLsb' 5 8
  let imm := w.extractLsb' 0 17
  let dev := w.getLsbD 16
  let size : Fin 4 := ⟨(w.extractLsb' 14 2).toNat, (w.extractLsb' 14 2).isLt⟩
  let off := w.extractLsb' 0 14
  match (w.extractLsb' 25 6).toNat with
  | 0x00 => decodeAlu g fn d a b u
  | 0x01 => decodeBit g fn d a b u
  | 0x02 => decodeVec g fn d a b u
  | 0x03 => some (.gather ⟨g, ecc⟩ d a b (w.extractLsb' 0 13))
  | 0x04 => decodeSys g fn d a b u ecc
  | 0x08 => some (.addi g d a imm)
  | 0x09 => some (.andi g d a imm)
  | 0x0A => some (.ori g d a imm)
  | 0x0B => some (.xori g d a imm)
  | 0x0C => some (.slti g d a imm)
  | 0x0D => some (.shli g d a imm)
  | 0x0E => some (.shri g d a imm)
  | 0x0F => some (.srai g d a imm)
  | 0x10 => some (.lui g d a imm)
  | 0x18 => some (.ld g d a dev size off ecc)
  | 0x19 => some (.lds g d a dev size off ecc)
  | 0x1A => some (.st g d a dev size off)
  | 0x1B => some (.stp g d a dev size off)
  | 0x1C => some (.vld g d a dev size off ecc)
  | 0x1D => some (.vst g d a dev size off)
  | 0x20 => some (.beq g d a imm)
  | 0x21 => some (.bne g d a imm)
  | 0x22 => some (.blt g d a imm)
  | 0x23 => some (.bge g d a imm)
  | 0x24 => some (.bltu g d a imm)
  | 0x25 => some (.bgeu g d a imm)
  | 0x26 => some (.j g d a imm)
  | 0x27 => some (.call g d a imm)
  | 0x28 => some (.jr g d a imm)
  | 0x29 => some (.callr g d a imm)
  | 0x2A => some (.ret g d a imm)
  | 0x2B => some (.loop g d a imm)
  | _ => none

/-- A pair word whose slot A, or with inB slot B, holds a named short operation; other is the other slot and low is bit 0 (Table 6.7). -/
def decodeShort (g : Fin 96) (inB : Bool) (v other : BitVec 15) (low : Bool) (ecc : List (Nat × EccSeen)) : Option Instr :=
  let d : Fin 16 := ⟨(v.extractLsb' 6 4).toNat, (v.extractLsb' 6 4).isLt⟩
  let b : Fin 16 := ⟨(v.extractLsb' 2 4).toNat, (v.extractLsb' 2 4).isLt⟩
  match (v.extractLsb' 10 5).toNat, (v.extractLsb' 0 2).toNat with
  | 0, 0 => some (.nop g inB d b other low)
  | 1, 0 => some (.sMov g inB d b other low)
  | 1, 1 => some (.sMovImmZx g inB d b other low)
  | 1, 2 => some (.sMovImmSx g inB d b other low)
  | 2, 0 => some (.sAdd g inB d b other low)
  | 2, 1 => some (.sSub g inB d b other low)
  | 2, 2 => some (.sAnd g inB d b other low)
  | 2, 3 => some (.sOr g inB d b other low)
  | 3, 0 => some (.sXor g inB d b other low)
  | 3, 1 => some (.sShl g inB d b other low)
  | 3, 2 => some (.sShr g inB d b other low)
  | 3, 3 => some (.sSra g inB d b other low)
  | 4, 0 => some (.sAddImm4 g inB d b other low)
  | 4, 1 => some (.sSubImm4 g inB d b other low)
  | 4, 2 => some (.sShlImm4 g inB d b other low)
  | 4, 3 => some (.sShrImm4 g inB d b other low)
  | 5, 0 => some (.sSeq g inB d b other low)
  | 5, 1 => some (.sSne g inB d b other low)
  | 5, 2 => some (.sSlt g inB d b other low)
  | 5, 3 => some (.sSltu g inB d b other low)
  | 6, 0 => some (.sMul g inB d b other low)
  | 7, 0 => some (.sPar g inB d b other low)
  | 7, 1 => some (.sParb g inB d b other low)
  | 7, 2 => some (.sBrev g inB d b other low)
  | 7, 3 => some (.sBswap g inB d b other low)
  | 8, 0 => some (.sCrcB g inB d b other low)
  | 8, 1 => some (.sCrcH g inB d b other low)
  | 8, 2 => some (.sCrcW g inB d b other low)
  | 8, 3 => some (.sBrevb g inB d b other low)
  | 9, 0 => some (.ldlB ⟨g, ecc⟩ inB d b other low)
  | 9, 1 => some (.ldlH ⟨g, ecc⟩ inB d b other low)
  | 9, 2 => some (.ldlW ⟨g, ecc⟩ inB d b other low)
  | 10, 0 => some (.stlB g inB d b other low)
  | 10, 1 => some (.stlH g inB d b other low)
  | 10, 2 => some (.stlW g inB d b other low)
  | _, _ => none

/-- The command of an instruction word that engine g fetches, with what the decoders show for the local words it reads: none where the encoding is
reserved. A pair word is given by its slot A, or by slot B where slot A is reserved. -/
def decodeEngine (g : Fin 96) (w : BitVec 32) (ecc : List (Nat × EccSeen)) : Option Instr :=
  if !w.getLsbD 31 then decodeLong g w ecc
  else
    let a := w.extractLsb' 16 15
    let b := w.extractLsb' 1 15
    match decodeShort g false a b (w.getLsbD 0) ecc with
    | some c => some c
    | none => decodeShort g true b a (w.getLsbD 0) ecc

end Sys2Proof
end

