-- ==== Sys2Proof/Config.lean ====
section
/-! DEFINITION. Config.lean: the free values that the spec leaves open, constants with no body: no proof can see what
they are. Each docstring names its log entry. -/

namespace Sys2Proof
namespace Config

/-- What the decoders show for the local words that an engine's word reads, by a running count: local address and outcome, a word not listed is clean
(R198, R421; log 148). -/
opaque lmSeen : Nat → List (Nat × EccSeen)
/-- What an image's body loads, by image kind: unit, address in its memory, bytes. The specification gives bodies no layout (R187, Table 11.1; log
62). -/
opaque imageLoads : (kind : Nat) → (body : List (BitVec 8)) → List (Nat × Nat × List (BitVec 8))
/-- Nonce and personalisation string of the DRBG's instantiation, which follow the start-up bits (R245; log 2). -/
opaque drbgInput : List (BitVec 8)
/-- Blocks that the DRBG delivers for one frame's dummy key and shuffle seed (R245; log 2). -/
opaque maskBlocks : Nat
/-- The masking LFSR's state after one frame's or one marker's draws (R247, R432; log 38). -/
opaque lfsrRun : BitVec 64 → BitVec 64
/-- A byte read from a unit that an interrupted flash operation left undefined, by a running count (R387; log 3). -/
opaque undefinedFlashByte : Nat → BitVec 8
/-- A data byte of a packet, or of a frame, that follows a poisoned word, by a running count (Table 14.6; log 4). -/
opaque poisonedByte : Nat → BitVec 8
/-- What the decoder and the pipeline's cycle counts give a marker record: cycles from issue to retirement and longest stall
(Table 14.9; log 7). -/
opaque markerCycles : Nat → Nat
/-- A syndrome or a raw array value the spec does not fix (guard words, page spares; log 8). -/
opaque rawFlashWord : Nat → BitVec 64
/-- The bell resynchronisation's detection latency error, at most 8 microseconds either way (R316; log 9). -/
opaque latencyError : Nat → Int
/-- Whether TILE_TENSION_STATUS.residual rounds up a residual that lies between two codes: the spec gives the unit of the code and no rounding (log
14). -/
opaque residualUp : Nat → Bool

/-- The order in which the seven bits of a seed become the scrambler's first state, as a number in the factorial base: the spec names the seed and not
which of its bits is which state (R126; log 15). -/
opaque seedOrder : Nat
/-- A quotient that is no integer, stored in an integer field: the spec gives no rounding (R176, R177, R178; log 16). -/
opaque roundedQuotient : Int → Nat → Int
/-- Sign and low nine fraction bits of the quiet NaN that an operation on quiet NaN components gives: IEEE 754 asks for a quiet NaN and leaves
them open (R210; log 24). -/
opaque quietNan : List Nat → Nat
/-- Lane i of the message in which the loader hands a kind 1 command to H30: the spec gives it no layout (R408; log 30). -/
opaque handOver : Nat → BitVec 32

end Config
end Sys2Proof
end

