-- ==== Sys2Proof/Machine/RegFile.lean ====
section
/-! DEFINITION. Machine/RegFile.lean: the register file as a sparse map from register fields to values.
A field that is not listed reads as its reset value; the list is kept in one canonical form (keys strictly rising, no entry equal
to the field's reset value), so that equal register files are equal data. Table 0.1's access codes act in Machine/Device.lean. -/

namespace Sys2Proof.Machine

/-- What a register belongs to: it fixes how the owner number turns into an address (Tables 1.6, 1.7, R183, R62, R181). -/
inductive Owner where
  | hub | tile | elem | nbr | nbrShadow | cell | timer | capRegion
  deriving DecidableEq, Repr

/-- Access codes of Table 0.1 (R7). KO is rw here: keel ownership is a matter of the address (R224). -/
inductive Acc where
  | rw | ro | wo | w1c | w1s | rc | rwl
  deriving DecidableEq, Repr

/-- The Kept in column (R8, R9). blockUnit is the entry of timers and stitch cells: MOOR, TILE on the hub and MOOR, ENGINE on a
tile. none is the dash of fields that hold nothing. -/
inductive Keep where
  | moorTile | moorWarm | moorEngine | moorNone | runNone | offPin | porOnly | offPor | none | blockUnit
  deriving DecidableEq, Repr

/-- One row of a register table: where the field stands, how it is accessed, its reset value and where it is kept. -/
structure Row where
  reg : String
  fld : String
  owner : Owner
  base : Nat
  stride : Nat
  count : Nat
  lo : Nat
  width : Nat
  acc : Acc
  rst : Nat
  keep : Keep
  deriving DecidableEq, Repr

/-- One register field: row of the table, owner number, index within the owner, width in bits and reset value. -/
structure Field where
  row : Nat
  own : Nat
  idx : Nat
  width : Nat
  rst : Nat
  deriving DecidableEq, Repr

/-- The key of a stored field value. -/
structure RegKey where
  row : Nat
  own : Nat
  idx : Nat
  deriving DecidableEq, Repr

/-- Lexicographic order of keys. -/
def RegKey.lt (a b : RegKey) : Bool :=
  a.row < b.row || (a.row == b.row && (a.own < b.own || (a.own == b.own && a.idx < b.idx)))

abbrev Field.key (f : Field) : RegKey := ⟨f.row, f.own, f.idx⟩

/-- The register file: field values that differ from their reset value. -/
abbrev RegFile := List (RegKey × Nat)

/-- The stored value under a key, if one is listed. -/
def RegFile.find : RegFile → RegKey → Option Nat
  | [], _ => none
  | (k, v) :: rest, q => if k = q then some v else RegFile.find rest q

/-- List v under key q, keeping the keys rising. -/
def RegFile.put : RegFile → RegKey → Nat → RegFile
  | [], q, v => [(q, v)]
  | (k, w) :: rest, q, v =>
    if k = q then (q, v) :: rest
    else if q.lt k then (q, v) :: (k, w) :: rest
    else (k, w) :: RegFile.put rest q v

/-- Unlist key q. -/
def RegFile.drop : RegFile → RegKey → RegFile
  | [], _ => []
  | (k, w) :: rest, q => if k = q then RegFile.drop rest q else (k, w) :: RegFile.drop rest q

/-- The value of a field. -/
def RegFile.read (r : RegFile) (f : Field) : Nat := (r.find f.key).getD f.rst

/-- Give a field a value, cut to its width. -/
def RegFile.write (r : RegFile) (f : Field) (v : Nat) : RegFile :=
  if v % 2 ^ f.width = f.rst then r.drop f.key else r.put f.key (v % 2 ^ f.width)

/-- The keys rise strictly. -/
def RegFile.sorted : RegFile → Bool
  | [] => true
  | [_] => true
  | (a, _) :: (b, w) :: rest => a.lt b && RegFile.sorted ((b, w) :: rest)

end Sys2Proof.Machine
end

