-- ==== Sys2Proof/Machine/RegTable.lean ====
section
/-! DEFINITION. Machine/RegTable.lean: the rows of the spec's register tables (address, bits, access code of Table 0.1,
reset value, Kept in), in pieces, one piece per block of Table 1.6. The row of a field of Machine/RegNames.lean is its position in
regTable. Engine control blocks are not here: their registers live in the engine's own record. -/

namespace Sys2Proof.Machine

/-- Block HUB (spec/01_module_organisation.md), part 0. -/
def rowsHUB0 : List Row := [
  ⟨"HUB_ID", "pontoon_index", .hub, 0x2000000, 0, 1, 24, 2, .ro, 0, .porOnly⟩,
  ⟨"HUB_ID", "part", .hub, 0x2000000, 0, 1, 8, 16, .ro, 1298, .porOnly⟩,
  ⟨"HUB_ID", "silicon_rev", .hub, 0x2000000, 0, 1, 0, 8, .ro, 176, .porOnly⟩,
  ⟨"HUB_FUNC_MODE", "bits", .hub, 0x2000020, 0, 1, 0, 8, .rw, 0, .moorTile⟩,
  ⟨"HUB_FUNC_STATUS", "pending", .hub, 0x2000024, 0, 1, 8, 8, .ro, 0, .moorTile⟩,
  ⟨"HUB_FUNC_STATUS", "effective", .hub, 0x2000024, 0, 1, 0, 8, .ro, 0, .moorTile⟩,
  ⟨"HUB_GCOMMIT", "busy", .hub, 0x2000030, 0, 1, 31, 1, .ro, 0, .runNone⟩,
  ⟨"HUB_GCOMMIT", "skipped", .hub, 0x2000030, 0, 1, 16, 8, .w1c, 0, .moorTile⟩,
  ⟨"HUB_GCOMMIT", "mac_nbr", .hub, 0x2000030, 0, 1, 10, 1, .wo, 0, .none⟩,
  ⟨"HUB_GCOMMIT", "xng", .hub, 0x2000030, 0, 1, 9, 1, .wo, 0, .none⟩,
  ⟨"HUB_GCOMMIT", "bf", .hub, 0x2000030, 0, 1, 8, 1, .wo, 0, .none⟩,
  ⟨"HUB_GCOMMIT", "tiles", .hub, 0x2000030, 0, 1, 0, 8, .wo, 0, .none⟩,
  ⟨"HUB_RETAIN", "banks", .hub, 0x2000040, 0, 1, 0, 12, .rw, 3, .moorTile⟩,
  ⟨"HUB_RESET_CMD", "key", .hub, 0x2000010, 0, 1, 24, 8, .wo, 0, .none⟩,
  ⟨"HUB_RESET_CMD", "kind", .hub, 0x2000010, 0, 1, 16, 2, .wo, 0, .none⟩,
  ⟨"HUB_RESET_CMD", "target", .hub, 0x2000010, 0, 1, 0, 7, .wo, 0, .none⟩,
  ⟨"HUB_RESET_CAUSE", "boots", .hub, 0x2000014, 0, 1, 24, 8, .ro, 0, .moorWarm⟩,
  ⟨"HUB_RESET_CAUSE", "cause", .hub, 0x2000014, 0, 1, 0, 4, .ro, 0, .moorWarm⟩,
  ⟨"HUB_BOOT_STATUS", "stage", .hub, 0x2000018, 0, 1, 30, 2, .ro, 0, .moorTile⟩,
  ⟨"HUB_BOOT_STATUS", "boot_sel", .hub, 0x2000018, 0, 1, 24, 2, .ro, 0, .moorTile⟩,
  ⟨"HUB_BOOT_STATUS", "kind", .hub, 0x2000018, 0, 1, 16, 3, .ro, 0, .moorTile⟩,
  ⟨"HUB_BOOT_STATUS", "result", .hub, 0x2000018, 0, 1, 0, 4, .ro, 0, .moorTile⟩,
  ⟨"HUB_WDOG_CTRL", "lock", .hub, 0x2000050, 0, 1, 31, 1, .w1s, 0, .moorTile⟩,
  ⟨"HUB_WDOG_CTRL", "en", .hub, 0x2000050, 0, 1, 16, 1, .rwl, 0, .moorTile⟩,
  ⟨"HUB_WDOG_CTRL", "ms", .hub, 0x2000050, 0, 1, 0, 16, .rwl, 1000, .moorTile⟩,
  ⟨"HUB_WDOG_KICK", "kick", .hub, 0x2000054, 0, 1, 0, 32, .wo, 0, .none⟩]

/-- Block PWR (spec/10_power_states_and_wake_plane.md), part 0. -/
def rowsPWR0 : List Row := [
  ⟨"PWR_VOTE", "votes", .hub, 0x2010000, 16, 16, 0, 32, .ro, 0, .moorTile⟩,
  ⟨"PWR_VOTE_SET", "set", .hub, 0x2010004, 16, 16, 0, 24, .w1s, 0, .none⟩,
  ⟨"PWR_VOTE_CLR", "clear", .hub, 0x2010008, 16, 16, 0, 25, .wo, 0, .none⟩,
  ⟨"PWR_LINGER", "us", .hub, 0x201000C, 16, 16, 0, 10, .rw, 0, .moorTile⟩,
  ⟨"PWR_STATE", "state", .hub, 0x2010100, 0, 1, 29, 3, .ro, 0, .runNone⟩,
  ⟨"PWR_STATE", "up", .hub, 0x2010100, 0, 1, 0, 16, .ro, 1, .runNone⟩,
  ⟨"PWR_TRANS", "changing", .hub, 0x2010104, 0, 1, 0, 16, .ro, 0, .runNone⟩,
  ⟨"PWR_FORCE_OFF", "force", .hub, 0x2010110, 0, 1, 1, 14, .rw, 0, .moorTile⟩,
  ⟨"PWR_CLK_GATE", "gate", .hub, 0x2010114, 0, 1, 1, 13, .rw, 0, .moorTile⟩,
  ⟨"PWR_WOT", "wot", .hub, 0x2010118, 0, 1, 1, 13, .rw, 0, .moorTile⟩,
  ⟨"PWR_CFG", "rf_in_doze", .hub, 0x2010120, 0, 1, 1, 1, .rw, 1, .moorTile⟩,
  ⟨"PWR_CFG", "tt_wake", .hub, 0x2010120, 0, 1, 0, 1, .rw, 1, .moorTile⟩,
  ⟨"PWR_UNPOWERED_CNT", "count", .hub, 0x2010200, 4, 16, 0, 32, .rc, 0, .moorTile⟩,
  ⟨"COEX_CFG", "bell_pri", .hub, 0x2010A00, 0, 1, 4, 1, .rw, 0, .moorTile⟩,
  ⟨"COEX_CFG", "cxi_en", .hub, 0x2010A00, 0, 1, 3, 1, .rw, 0, .moorTile⟩,
  ⟨"COEX_CFG", "bell", .hub, 0x2010A00, 0, 1, 2, 1, .rw, 0, .moorTile⟩,
  ⟨"COEX_CFG", "rx_xng", .hub, 0x2010A00, 0, 1, 1, 1, .rw, 0, .moorTile⟩,
  ⟨"COEX_CFG", "tx_xng", .hub, 0x2010A00, 0, 1, 0, 1, .rw, 0, .moorTile⟩,
  ⟨"COEX_STATUS", "bell_defer", .hub, 0x2010A04, 0, 1, 24, 8, .rc, 0, .moorTile⟩,
  ⟨"COEX_STATUS", "cut", .hub, 0x2010A04, 0, 1, 16, 8, .rc, 0, .moorTile⟩,
  ⟨"COEX_STATUS", "revoked", .hub, 0x2010A04, 0, 1, 8, 8, .rc, 0, .moorTile⟩,
  ⟨"MGMT_CTRL", "fast", .hub, 0x2010C00, 0, 1, 8, 1, .rw, 0, .moorTile⟩,
  ⟨"MGMT_CTRL", "en", .hub, 0x2010C00, 0, 1, 0, 1, .rw, 0, .moorTile⟩,
  ⟨"MGMT_CMD", "go", .hub, 0x2010C04, 0, 1, 31, 1, .w1s, 0, .runNone⟩,
  ⟨"MGMT_CMD", "read", .hub, 0x2010C04, 0, 1, 24, 1, .rw, 0, .moorTile⟩,
  ⟨"MGMT_CMD", "dev", .hub, 0x2010C04, 0, 1, 16, 7, .rw, 0, .moorTile⟩,
  ⟨"MGMT_CMD", "reg", .hub, 0x2010C04, 0, 1, 8, 8, .rw, 0, .moorTile⟩,
  ⟨"MGMT_CMD", "wdata", .hub, 0x2010C04, 0, 1, 0, 8, .rw, 0, .moorTile⟩,
  ⟨"MGMT_STATUS", "busy", .hub, 0x2010C08, 0, 1, 31, 1, .ro, 0, .runNone⟩,
  ⟨"MGMT_STATUS", "rdata", .hub, 0x2010C08, 0, 1, 8, 8, .ro, 0, .moorTile⟩,
  ⟨"MGMT_STATUS", "timeout", .hub, 0x2010C08, 0, 1, 1, 1, .w1c, 0, .moorTile⟩,
  ⟨"MGMT_STATUS", "nack", .hub, 0x2010C08, 0, 1, 0, 1, .w1c, 0, .moorTile⟩,
  ⟨"TEMP", "valid", .hub, 0x2010D00, 4, 10, 31, 1, .ro, 0, .runNone⟩,
  ⟨"TEMP", "alert", .hub, 0x2010D00, 4, 10, 30, 1, .w1c, 0, .moorTile⟩,
  ⟨"TEMP", "temp", .hub, 0x2010D00, 4, 10, 16, 12, .ro, 0, .runNone⟩,
  ⟨"TEMP", "thresh", .hub, 0x2010D00, 4, 10, 0, 12, .rw, 1000, .moorTile⟩,
  ⟨"PWR_THERM", "shut", .hub, 0x2010D40, 0, 1, 31, 1, .ro, 0, .runNone⟩,
  ⟨"PWR_THERM", "ext", .hub, 0x2010D40, 0, 1, 8, 1, .w1c, 0, .moorTile⟩,
  ⟨"PWR_THERM", "sensor", .hub, 0x2010D40, 0, 1, 0, 4, .ro, 0, .moorTile⟩,
  ⟨"PWR_KEEL_VOTE", "vote", .hub, 0x2010F00, 0, 1, 0, 16, .rw, 0, .moorWarm⟩]

/-- Block PWR (spec/10_power_states_and_wake_plane.md), part 1. -/
def rowsPWR1 : List Row := [
  ⟨"PWR_KEEL_DEFER", "deferred", .hub, 0x2010F04, 0, 1, 0, 16, .ro, 0, .moorWarm⟩]

/-- Block IRQ (spec/09_timers_and_interrupts.md), part 0. -/
def rowsIRQ0 : List Row := [
  ⟨"IRQ_ROUTE", "en", .hub, 0x2020000, 4, 512, 31, 1, .rw, 0, .moorTile⟩,
  ⟨"IRQ_ROUTE", "kind", .hub, 0x2020000, 4, 512, 24, 2, .rw, 0, .moorTile⟩,
  ⟨"IRQ_ROUTE", "engine", .hub, 0x2020000, 4, 512, 16, 7, .rw, 0, .moorTile⟩,
  ⟨"IRQ_ROUTE", "line", .hub, 0x2020000, 4, 512, 8, 3, .rw, 0, .moorTile⟩,
  ⟨"IRQ_ROUTE", "vector", .hub, 0x2020000, 4, 512, 0, 6, .rw, 0, .moorTile⟩,
  ⟨"IRQ_PEND", "pend", .hub, 0x2020800, 4, 16, 0, 32, .w1c, 0, .moorTile⟩,
  ⟨"IRQ_ACTIVE", "active", .hub, 0x2020840, 4, 16, 0, 32, .ro, 0, .moorTile⟩,
  ⟨"IRQ_SET", "source", .hub, 0x2020880, 0, 1, 0, 9, .wo, 0, .none⟩,
  ⟨"IRQ_EOI", "source", .hub, 0x2020884, 0, 1, 0, 9, .wo, 0, .none⟩,
  ⟨"IRQ_SPURIOUS_EOI", "count", .hub, 0x2020888, 0, 1, 0, 32, .rc, 0, .moorTile⟩,
  ⟨"IRQ_HOLDOFF", "running", .hub, 0x2020900, 4, 32, 31, 1, .ro, 0, .moorTile⟩,
  ⟨"IRQ_HOLDOFF", "us", .hub, 0x2020900, 4, 32, 0, 16, .rw, 0, .moorTile⟩,
  ⟨"IRQ_YSEL", "sel", .hub, 0x2020980, 4, 16, 0, 8, .rw, 255, .moorTile⟩]

/-- Block YRN (spec/08_check_values_and_yarns.md), part 0. -/
def rowsYRN0 : List Row := [
  ⟨"YRN_SEEN", "seen", .hub, 0x2030000, 4, 4, 0, 32, .w1c, 0, .moorTile⟩,
  ⟨"YRN_FIRE", "fire", .hub, 0x2030010, 4, 4, 0, 32, .wo, 0, .none⟩,
  ⟨"YRN_IMPORT", "ovr", .hub, 0x2030040, 4, 16, 31, 1, .w1c, 0, .moorTile⟩,
  ⟨"YRN_IMPORT", "tile", .hub, 0x2030040, 4, 16, 8, 3, .rw, 0, .moorTile⟩,
  ⟨"YRN_IMPORT", "sel", .hub, 0x2030040, 4, 16, 0, 8, .rw, 255, .moorTile⟩,
  ⟨"YRN_CELL_IN", "d", .cell, 0x0, 0, 1, 24, 8, .rw, 255, .blockUnit⟩,
  ⟨"YRN_CELL_IN", "c", .cell, 0x0, 0, 1, 16, 8, .rw, 255, .blockUnit⟩,
  ⟨"YRN_CELL_IN", "b", .cell, 0x0, 0, 1, 8, 8, .rw, 255, .blockUnit⟩,
  ⟨"YRN_CELL_IN", "a", .cell, 0x0, 0, 1, 0, 8, .rw, 255, .blockUnit⟩,
  ⟨"YRN_CELL_CFG", "lut", .cell, 0x4, 0, 1, 16, 16, .rw, 0, .blockUnit⟩,
  ⟨"YRN_CELL_CFG", "clk", .cell, 0x4, 0, 1, 8, 8, .rw, 255, .blockUnit⟩,
  ⟨"YRN_CELL_CFG", "edge", .cell, 0x4, 0, 1, 6, 2, .rw, 0, .blockUnit⟩,
  ⟨"YRN_CELL_CFG", "filt", .cell, 0x4, 0, 1, 0, 5, .rw, 0, .blockUnit⟩,
  ⟨"YRN_CELL_CTRL", "en", .cell, 0x8, 0, 1, 0, 1, .rw, 0, .blockUnit⟩,
  ⟨"YRN_CELL_STAT", "s", .cell, 0xC, 0, 1, 1, 1, .ro, 0, .runNone⟩,
  ⟨"YRN_CELL_STAT", "level", .cell, 0xC, 0, 1, 0, 1, .ro, 0, .runNone⟩,
  ⟨"YRN_GP", "pin", .hub, 0x2030400, 4, 16, 31, 1, .ro, 0, .runNone⟩,
  ⟨"YRN_GP", "ovr", .hub, 0x2030400, 4, 16, 30, 1, .w1c, 0, .moorTile⟩,
  ⟨"YRN_GP", "out_val", .hub, 0x2030400, 4, 16, 24, 1, .rw, 0, .moorTile⟩,
  ⟨"YRN_GP", "sel", .hub, 0x2030400, 4, 16, 16, 8, .rw, 255, .moorTile⟩,
  ⟨"YRN_GP", "out_src", .hub, 0x2030400, 4, 16, 12, 3, .rw, 0, .moorTile⟩,
  ⟨"YRN_GP", "edge", .hub, 0x2030400, 4, 16, 2, 2, .rw, 0, .moorTile⟩,
  ⟨"YRN_GP", "dir", .hub, 0x2030400, 4, 16, 0, 2, .rw, 0, .moorTile⟩]

/-- Block TMR (spec/09_timers_and_interrupts.md), part 0. -/
def rowsTMR0 : List Row := [
  ⟨"TMR_CTRL", "clk", .timer, 0x0, 0, 1, 8, 2, .rw, 1, .blockUnit⟩,
  ⟨"TMR_CTRL", "evt", .timer, 0x0, 0, 1, 4, 2, .rw, 0, .blockUnit⟩,
  ⟨"TMR_CTRL", "oneshot", .timer, 0x0, 0, 1, 1, 1, .rw, 0, .blockUnit⟩,
  ⟨"TMR_CTRL", "en", .timer, 0x0, 0, 1, 0, 1, .rw, 0, .blockUnit⟩,
  ⟨"TMR_SEL", "cap_sel", .timer, 0x4, 0, 1, 16, 8, .rw, 255, .blockUnit⟩,
  ⟨"TMR_SEL", "trig_sel", .timer, 0x4, 0, 1, 8, 8, .rw, 255, .blockUnit⟩,
  ⟨"TMR_SEL", "clk_sel", .timer, 0x4, 0, 1, 0, 8, .rw, 255, .blockUnit⟩,
  ⟨"TMR_RELOAD", "reload", .timer, 0x8, 0, 1, 0, 32, .rw, 0, .blockUnit⟩,
  ⟨"TMR_CMP_PRE", "cmp", .timer, 0xC, 0, 1, 0, 32, .rw, 4294967295, .blockUnit⟩,
  ⟨"TMR_COUNT", "count", .timer, 0x10, 0, 1, 0, 32, .ro, 0, .blockUnit⟩,
  ⟨"TMR_CMP", "cmp", .timer, 0x14, 0, 1, 0, 32, .ro, 4294967295, .blockUnit⟩,
  ⟨"TMR_CAP", "cap", .timer, 0x18, 0, 1, 0, 32, .ro, 0, .blockUnit⟩,
  ⟨"TMR_STATUS", "noclk", .timer, 0x1C, 0, 1, 3, 1, .ro, 0, .runNone⟩,
  ⟨"TMR_STATUS", "cap_ovr", .timer, 0x1C, 0, 1, 2, 1, .w1c, 0, .blockUnit⟩,
  ⟨"TMR_STATUS", "cap_full", .timer, 0x1C, 0, 1, 1, 1, .ro, 0, .blockUnit⟩,
  ⟨"TMR_W_CTRL", "mode", .hub, 0x2040400, 64, 4, 12, 1, .rw, 0, .moorTile⟩,
  ⟨"TMR_W_CTRL", "clk", .hub, 0x2040400, 64, 4, 8, 2, .rw, 1, .moorTile⟩,
  ⟨"TMR_W_CTRL", "evt", .hub, 0x2040400, 64, 4, 4, 2, .rw, 0, .moorTile⟩,
  ⟨"TMR_W_CTRL", "oneshot", .hub, 0x2040400, 64, 4, 1, 1, .rw, 0, .moorTile⟩,
  ⟨"TMR_W_CTRL", "en", .hub, 0x2040400, 64, 4, 0, 1, .rw, 0, .moorTile⟩,
  ⟨"TMR_W_SEL", "cap_sel", .hub, 0x2040404, 64, 4, 16, 8, .rw, 255, .moorTile⟩,
  ⟨"TMR_W_SEL", "trig_sel", .hub, 0x2040404, 64, 4, 8, 8, .rw, 255, .moorTile⟩,
  ⟨"TMR_W_SEL", "clk_sel", .hub, 0x2040404, 64, 4, 0, 8, .rw, 255, .moorTile⟩,
  ⟨"TMR_W_RELOAD_LO", "reload", .hub, 0x2040408, 64, 4, 0, 32, .rw, 0, .moorTile⟩,
  ⟨"TMR_W_RELOAD_HI", "reload", .hub, 0x204040C, 64, 4, 0, 16, .rw, 0, .moorTile⟩,
  ⟨"TMR_W_CMP_PRE_LO", "cmp", .hub, 0x2040410, 64, 4, 0, 32, .rw, 4294967295, .moorTile⟩,
  ⟨"TMR_W_CMP_PRE_HI", "cmp", .hub, 0x2040414, 64, 4, 0, 16, .rw, 65535, .moorTile⟩,
  ⟨"TMR_W_COUNT_LO", "count", .hub, 0x2040418, 64, 4, 0, 32, .ro, 0, .moorTile⟩,
  ⟨"TMR_W_COUNT_HI", "count", .hub, 0x204041C, 64, 4, 0, 16, .ro, 0, .moorTile⟩,
  ⟨"TMR_W_CMP_LO", "cmp", .hub, 0x2040420, 64, 4, 0, 32, .ro, 4294967295, .moorTile⟩,
  ⟨"TMR_W_CMP_HI", "cmp", .hub, 0x2040424, 64, 4, 0, 16, .ro, 65535, .moorTile⟩,
  ⟨"TMR_W_CAP_LO", "cap", .hub, 0x2040428, 64, 4, 0, 32, .ro, 0, .moorTile⟩,
  ⟨"TMR_W_CAP_HI", "cap", .hub, 0x204042C, 64, 4, 0, 16, .ro, 0, .moorTile⟩,
  ⟨"TMR_W_STATUS", "noclk", .hub, 0x2040430, 64, 4, 3, 1, .ro, 0, .runNone⟩,
  ⟨"TMR_W_STATUS", "cap_ovr", .hub, 0x2040430, 64, 4, 2, 1, .w1c, 0, .moorTile⟩,
  ⟨"TMR_W_STATUS", "cap_full", .hub, 0x2040430, 64, 4, 1, 1, .ro, 0, .moorTile⟩,
  ⟨"TMR_TSI_LO", "ticks", .hub, 0x2040810, 0, 1, 0, 32, .ro, 0, .moorTile⟩,
  ⟨"TMR_TSI_HI", "ticks", .hub, 0x2040814, 0, 1, 0, 32, .ro, 0, .moorTile⟩,
  ⟨"TMR_TSI_STAT", "ovw", .hub, 0x2040818, 0, 1, 1, 1, .w1c, 0, .moorTile⟩,
  ⟨"TMR_TSI_STAT", "full", .hub, 0x2040818, 0, 1, 0, 1, .ro, 0, .moorTile⟩]

/-- Block TMR (spec/09_timers_and_interrupts.md), part 1. -/
def rowsTMR1 : List Row := [
  ⟨"TMR_TSO_CTRL", "width", .hub, 0x2040820, 0, 1, 8, 8, .rw, 100, .moorTile⟩,
  ⟨"TMR_TSO_CTRL", "en", .hub, 0x2040820, 0, 1, 0, 1, .rw, 0, .moorTile⟩]

/-- Block CRC (spec/08_check_values_and_yarns.md), part 0. -/
def rowsCRC0 : List Row := [
  ⟨"CRC_INL_FAIL", "count", .hub, 0x2050000, 4, 8, 0, 32, .rc, 0, .moorTile⟩,
  ⟨"CRC_CFG", "busy", .hub, 0x2050100, 64, 8, 31, 1, .ro, 0, .runNone⟩,
  ⟨"CRC_CFG", "poly8", .hub, 0x2050100, 64, 8, 8, 8, .rw, 7, .moorTile⟩,
  ⟨"CRC_CFG", "poly", .hub, 0x2050100, 64, 8, 0, 2, .rw, 0, .moorTile⟩,
  ⟨"CRC_STATE", "state", .hub, 0x2050104, 64, 8, 0, 32, .rw, 4294967295, .moorTile⟩,
  ⟨"CRC_XOROUT", "xorout", .hub, 0x2050108, 64, 8, 0, 32, .rw, 4294967295, .moorTile⟩,
  ⟨"CRC_RESULT", "result", .hub, 0x205010C, 64, 8, 0, 32, .ro, 0, .moorTile⟩,
  ⟨"CRC_FEED_B", "data", .hub, 0x2050110, 64, 8, 0, 8, .wo, 0, .none⟩,
  ⟨"CRC_FEED_H", "data", .hub, 0x2050114, 64, 8, 0, 16, .wo, 0, .none⟩,
  ⟨"CRC_FEED_W", "data", .hub, 0x2050118, 64, 8, 0, 32, .wo, 0, .none⟩]

/-- Block SEC (spec/07_security_keel_and_cipher.md), part 0. -/
def rowsSEC0 : List Row := [
  ⟨"SEC_STATUS", "cipher_hold", .hub, 0x2060000, 0, 1, 4, 1, .ro, 0, .moorTile⟩,
  ⟨"SEC_STATUS", "reduced_masking", .hub, 0x2060000, 0, 1, 3, 1, .ro, 1, .moorTile⟩,
  ⟨"SEC_STATUS", "rng", .hub, 0x2060000, 0, 1, 0, 3, .ro, 0, .moorTile⟩,
  ⟨"SEC_DENY_COUNT", "count", .hub, 0x2060004, 0, 1, 0, 32, .rc, 0, .moorTile⟩,
  ⟨"SEC_DENY_LAST", "addr", .hub, 0x2060008, 0, 1, 0, 32, .ro, 0, .moorTile⟩,
  ⟨"SEC_POLICY", "lock", .hub, 0x2060100, 0, 1, 31, 1, .w1s, 0, .moorTile⟩,
  ⟨"SEC_POLICY", "cipher_hold_until_rng", .hub, 0x2060100, 0, 1, 8, 1, .rwl, 0, .moorTile⟩,
  ⟨"SEC_POLICY", "cm_level", .hub, 0x2060100, 0, 1, 0, 2, .rw, 3, .moorTile⟩,
  ⟨"SEC_KEY_DATA", "key", .hub, 0x2060200, 4, 8, 0, 32, .wo, 0, .runNone⟩,
  ⟨"SEC_KEY_SALT", "salt", .hub, 0x2060220, 0, 1, 0, 32, .wo, 0, .runNone⟩,
  ⟨"SEC_KEY_LIMIT", "limit_m1", .hub, 0x2060224, 0, 1, 0, 32, .rw, 4294967295, .moorTile⟩,
  ⟨"SEC_KEY_WARN", "warn", .hub, 0x2060228, 0, 1, 0, 32, .rw, 4026531840, .moorTile⟩,
  ⟨"SEC_KEY_CMD", "op", .hub, 0x2060230, 0, 1, 16, 2, .wo, 0, .none⟩,
  ⟨"SEC_KEY_CMD", "len256", .hub, 0x2060230, 0, 1, 15, 1, .wo, 0, .none⟩,
  ⟨"SEC_KEY_CMD", "slot", .hub, 0x2060230, 0, 1, 0, 8, .wo, 0, .none⟩,
  ⟨"SEC_KEY_CMD_ID", "key_id", .hub, 0x2060238, 0, 1, 0, 8, .rw, 0, .moorTile⟩,
  ⟨"SEC_KEY_STATUS", "busy", .hub, 0x2060234, 0, 1, 31, 1, .ro, 0, .runNone⟩,
  ⟨"SEC_KEY_STATUS", "result", .hub, 0x2060234, 0, 1, 0, 2, .ro, 0, .moorTile⟩,
  ⟨"SEC_KEY_EVT_WARN", "warn", .hub, 0x2060300, 4, 8, 0, 32, .w1c, 0, .moorTile⟩,
  ⟨"SEC_KEY_EVT_SPENT", "spent", .hub, 0x2060320, 4, 8, 0, 32, .w1c, 0, .moorTile⟩,
  ⟨"SEC_SLOT0", "len256", .hub, 0x2061000, 8, 256, 18, 1, .ro, 0, .moorTile⟩,
  ⟨"SEC_SLOT0", "state", .hub, 0x2061000, 8, 256, 16, 2, .ro, 0, .moorTile⟩,
  ⟨"SEC_SLOT0", "key_id", .hub, 0x2061000, 8, 256, 0, 8, .ro, 0, .moorTile⟩,
  ⟨"SEC_SLOT1", "count", .hub, 0x2061004, 8, 256, 0, 32, .ro, 0, .moorTile⟩,
  ⟨"SEC_RNG_CTRL", "restart", .hub, 0x2062000, 0, 1, 0, 1, .wo, 0, .none⟩,
  ⟨"SEC_RNG_FAILS", "count", .hub, 0x206200C, 0, 1, 0, 16, .rc, 0, .moorTile⟩]

/-- Block PHY (spec/04_vuavo_phy.md), part 0. -/
def rowsPHY0 : List Row := [
  ⟨"PHY_LEAD_CFG", "salt", .hub, 0x2070010, 0, 1, 24, 4, .rw, 0, .moorTile⟩,
  ⟨"PHY_LEAD_CFG", "search", .hub, 0x2070010, 0, 1, 16, 8, .rw, 40, .moorTile⟩,
  ⟨"PHY_LEAD_CFG", "thresh", .hub, 0x2070010, 0, 1, 0, 8, .rw, 96, .moorTile⟩,
  ⟨"PHY_DEC_CFG", "press", .hub, 0x2070014, 0, 1, 8, 6, .rw, 16, .moorTile⟩,
  ⟨"PHY_DEC_CFG", "max_iter", .hub, 0x2070014, 0, 1, 0, 5, .rw, 12, .moorTile⟩,
  ⟨"PHY_POOL_STATUS", "capped", .hub, 0x2070018, 0, 1, 16, 16, .rc, 0, .moorTile⟩,
  ⟨"PHY_POOL_STATUS", "peak", .hub, 0x2070018, 0, 1, 8, 7, .rc, 0, .moorTile⟩,
  ⟨"PHY_POOL_STATUS", "depth", .hub, 0x2070018, 0, 1, 0, 7, .ro, 0, .runNone⟩,
  ⟨"PHY_SOFT_BEAMS", "slots", .hub, 0x2070020, 0, 1, 0, 16, .rw, 0, .moorTile⟩,
  ⟨"PHY_SOFT_CFG", "class", .hub, 0x2070024, 0, 1, 0, 3, .rw, 7, .moorTile⟩,
  ⟨"PHY_SOFT_STATUS", "bad_mask", .hub, 0x2070028, 0, 1, 31, 1, .w1c, 0, .moorTile⟩,
  ⟨"PHY_SOFT_STATUS", "drop", .hub, 0x2070028, 0, 1, 0, 16, .rc, 0, .moorTile⟩,
  ⟨"PHY_RPT_PTR", "ovf", .hub, 0x2070030, 0, 1, 31, 1, .w1c, 0, .moorTile⟩,
  ⟨"PHY_RPT_PTR", "rd", .hub, 0x2070030, 0, 1, 16, 8, .rw, 0, .moorTile⟩,
  ⟨"PHY_RPT_PTR", "wr", .hub, 0x2070030, 0, 1, 0, 8, .ro, 0, .moorTile⟩,
  ⟨"PHY_CNT", "count", .hub, 0x2070100, 4, 11, 0, 32, .rc, 0, .moorTile⟩]

/-- Block XNG (spec/05_timetable_crossings_neighbours.md), part 0. -/
def rowsXNG0 : List Row := [
  ⟨"XNG_CTRL", "vote_lead", .hub, 0x2080000, 0, 1, 16, 10, .rw, 200, .moorTile⟩,
  ⟨"XNG_CTRL", "auto_preload", .hub, 0x2080000, 0, 1, 1, 1, .rw, 1, .moorTile⟩,
  ⟨"XNG_CTRL", "enable", .hub, 0x2080000, 0, 1, 0, 1, .rw, 0, .moorTile⟩,
  ⟨"XNG_COMMIT", "pending", .hub, 0x2080004, 0, 1, 31, 1, .ro, 0, .runNone⟩,
  ⟨"XNG_COMMIT", "live", .hub, 0x2080004, 0, 1, 30, 1, .ro, 0, .moorTile⟩,
  ⟨"XNG_COMMIT", "image", .hub, 0x2080004, 0, 1, 8, 1, .wo, 0, .none⟩,
  ⟨"XNG_COMMIT", "go", .hub, 0x2080004, 0, 1, 0, 1, .wo, 0, .none⟩,
  ⟨"XNG_STATUS", "window", .hub, 0x2080008, 0, 1, 20, 12, .ro, 0, .runNone⟩,
  ⟨"XNG_STATUS", "cycle", .hub, 0x2080008, 0, 1, 0, 16, .ro, 0, .runNone⟩,
  ⟨"XNG_WINDOW_BASE", "base", .hub, 0x2080010, 8, 2, 4, 28, .rw, 0, .moorTile⟩,
  ⟨"XNG_WINDOW_COUNT", "count", .hub, 0x2080014, 8, 2, 0, 17, .rw, 0, .moorTile⟩,
  ⟨"XNG_PUSH_BASE", "base", .hub, 0x2080020, 0, 1, 5, 27, .rw, 0, .moorTile⟩,
  ⟨"XNG_PUSH_PTR", "refused", .hub, 0x2080024, 0, 1, 31, 1, .w1c, 0, .moorTile⟩,
  ⟨"XNG_PUSH_PTR", "wr", .hub, 0x2080024, 0, 1, 16, 8, .rw, 0, .moorTile⟩,
  ⟨"XNG_PUSH_PTR", "rd", .hub, 0x2080024, 0, 1, 0, 8, .ro, 0, .moorTile⟩,
  ⟨"XNG_SKIP_PTR", "ovf", .hub, 0x2080030, 0, 1, 31, 1, .w1c, 0, .moorTile⟩,
  ⟨"XNG_SKIP_PTR", "rd", .hub, 0x2080030, 0, 1, 16, 8, .rw, 0, .moorTile⟩,
  ⟨"XNG_SKIP_PTR", "wr", .hub, 0x2080030, 0, 1, 0, 8, .ro, 0, .moorTile⟩,
  ⟨"XNG_SKIP_CNT", "count", .hub, 0x2080100, 4, 16, 0, 32, .rc, 0, .moorTile⟩]

/-- Block MAC (spec/05_timetable_crossings_neighbours.md), part 0. -/
def rowsMAC0 : List Row := [
  ⟨"MAC_NBR_COMMIT", "pending", .hub, 0x2090000, 0, 1, 31, 1, .ro, 0, .runNone⟩,
  ⟨"MAC_NBR_COMMIT", "go", .hub, 0x2090000, 0, 1, 0, 1, .wo, 0, .none⟩,
  ⟨"MAC_NBR_SEL", "nbrs", .hub, 0x2090004, 4, 2, 0, 32, .rw, 0, .moorTile⟩,
  ⟨"MAC_CFG", "short", .hub, 0x2090010, 0, 1, 0, 16, .rw, 0, .moorTile⟩,
  ⟨"MAC_NODE_ID_LO", "node_id", .hub, 0x2090014, 0, 1, 0, 32, .rw, 0, .moorTile⟩,
  ⟨"MAC_NODE_ID_HI", "node_id", .hub, 0x2090018, 0, 1, 0, 16, .rw, 0, .moorTile⟩,
  ⟨"MAC_TIME_CTRL", "tau", .hub, 0x2090020, 0, 1, 28, 4, .rw, 4, .moorTile⟩,
  ⟨"MAC_TIME_CTRL", "p", .hub, 0x2090020, 0, 1, 24, 4, .rw, 4, .moorTile⟩,
  ⟨"MAC_TIME_CTRL", "b", .hub, 0x2090020, 0, 1, 20, 4, .rw, 6, .moorTile⟩,
  ⟨"MAC_TIME_CTRL", "a", .hub, 0x2090020, 0, 1, 16, 4, .rw, 3, .moorTile⟩,
  ⟨"MAC_TIME_CTRL", "step_ok", .hub, 0x2090020, 0, 1, 8, 1, .w1s, 0, .moorTile⟩,
  ⟨"MAC_TIME_CTRL", "src_pps", .hub, 0x2090020, 0, 1, 7, 1, .rw, 0, .moorTile⟩,
  ⟨"MAC_TIME_CTRL", "parent_en", .hub, 0x2090020, 0, 1, 6, 1, .rw, 0, .moorTile⟩,
  ⟨"MAC_TIME_CTRL", "parent", .hub, 0x2090020, 0, 1, 0, 6, .rw, 0, .moorTile⟩,
  ⟨"MAC_TIME_SLEW", "ppb", .hub, 0x2090024, 0, 1, 0, 32, .ro, 0, .moorTile⟩,
  ⟨"MAC_TIME_STEP", "ticks", .hub, 0x2090028, 4, 2, 0, 32, .rw, 0, .moorTile⟩,
  ⟨"MAC_TIME_STATUS", "locked", .hub, 0x2090030, 0, 1, 31, 1, .ro, 0, .moorTile⟩,
  ⟨"MAC_TIME_STATUS", "ahead", .hub, 0x2090030, 0, 1, 30, 1, .w1c, 0, .moorTile⟩,
  ⟨"MAC_TIME_STATUS", "stepped", .hub, 0x2090030, 0, 1, 29, 1, .w1c, 0, .moorTile⟩,
  ⟨"MAC_TIME_STATUS", "off_p", .hub, 0x2090030, 0, 1, 0, 16, .ro, 0, .moorTile⟩,
  ⟨"MAC_EVT_LOST", "nbrs", .hub, 0x2090040, 4, 2, 0, 32, .w1c, 0, .moorTile⟩,
  ⟨"MAC_EVT_FOUND", "nbrs", .hub, 0x2090048, 4, 2, 0, 32, .w1c, 0, .moorTile⟩]

/-- Block BF (spec/03_beamforming_and_swatches.md), part 0. -/
def rowsBF0 : List Row := [
  ⟨"BF_COMMIT", "pending", .hub, 0x20A0000, 0, 1, 31, 1, .ro, 0, .runNone⟩,
  ⟨"BF_COMMIT", "go", .hub, 0x20A0000, 0, 1, 0, 1, .wo, 0, .none⟩,
  ⟨"BF_MUTE", "poison", .hub, 0x20A0008, 0, 1, 0, 16, .ro, 0, .moorTile⟩,
  ⟨"BF_SWAP_UNREADY", "late", .hub, 0x20A000C, 0, 1, 16, 16, .w1c, 0, .moorTile⟩,
  ⟨"BF_SWAP_UNREADY", "unready", .hub, 0x20A000C, 0, 1, 0, 16, .w1c, 0, .moorTile⟩,
  ⟨"BF_SAT", "agc", .hub, 0x20A0020, 0, 1, 16, 16, .w1c, 0, .moorTile⟩,
  ⟨"BF_SAT", "sum", .hub, 0x20A0020, 0, 1, 0, 16, .w1c, 0, .moorTile⟩,
  ⟨"BF_PRELOAD", "go", .hub, 0x20A0010, 0, 1, 31, 1, .wo, 0, .none⟩,
  ⟨"BF_PRELOAD", "dir", .hub, 0x20A0010, 0, 1, 24, 1, .wo, 0, .none⟩,
  ⟨"BF_PRELOAD", "slot", .hub, 0x20A0010, 0, 1, 16, 4, .wo, 0, .none⟩,
  ⟨"BF_PRELOAD", "swatch", .hub, 0x20A0010, 0, 1, 0, 11, .wo, 0, .none⟩,
  ⟨"BF_SWAP_AT", "delay", .hub, 0x20A0018, 0, 1, 16, 9, .rw, 0, .moorTile⟩,
  ⟨"BF_SWAP_AT", "block", .hub, 0x20A0018, 0, 1, 12, 3, .rw, 0, .moorTile⟩,
  ⟨"BF_SWAP_AT", "window", .hub, 0x20A0018, 0, 1, 0, 12, .rw, 0, .moorTile⟩,
  ⟨"BF_SWAP", "slots", .hub, 0x20A001C, 0, 1, 0, 16, .wo, 0, .none⟩,
  ⟨"BF_AGC_CFG", "lead_blocks", .hub, 0x20A0024, 0, 1, 16, 3, .rw, 2, .moorTile⟩,
  ⟨"BF_AGC_CFG", "target", .hub, 0x20A0024, 0, 1, 0, 12, .rw, 512, .moorTile⟩,
  ⟨"BF_BANK", "state", .hub, 0x20A0040, 4, 16, 30, 2, .ro, 0, .runNone⟩,
  ⟨"BF_BANK", "reason", .hub, 0x20A0040, 4, 16, 26, 4, .ro, 0, .runNone⟩,
  ⟨"BF_BANK", "armed", .hub, 0x20A0040, 4, 16, 25, 1, .ro, 0, .runNone⟩,
  ⟨"BF_BANK", "dir", .hub, 0x20A0040, 4, 16, 24, 1, .ro, 0, .runNone⟩,
  ⟨"BF_BANK", "active_valid", .hub, 0x20A0040, 4, 16, 23, 1, .ro, 0, .runNone⟩,
  ⟨"BF_BANK", "shadow_swatch", .hub, 0x20A0040, 4, 16, 11, 11, .ro, 0, .runNone⟩,
  ⟨"BF_BANK", "active_swatch", .hub, 0x20A0040, 4, 16, 0, 11, .ro, 0, .runNone⟩,
  ⟨"BF_SLOT", "tx_scale", .hub, 0x20A0100, 8, 16, 20, 12, .rw, 0, .moorTile⟩,
  ⟨"BF_SLOT", "agc_fixed", .hub, 0x20A0100, 8, 16, 19, 1, .rw, 0, .moorTile⟩,
  ⟨"BF_SLOT", "agc_g", .hub, 0x20A0100, 8, 16, 12, 7, .rw, 48, .moorTile⟩,
  ⟨"BF_SLOT_LIVE", "tx_scale", .hub, 0x20A0104, 8, 16, 20, 12, .ro, 0, .moorTile⟩,
  ⟨"BF_SLOT_LIVE", "agc_fixed", .hub, 0x20A0104, 8, 16, 19, 1, .ro, 0, .moorTile⟩,
  ⟨"BF_SLOT_LIVE", "agc_g", .hub, 0x20A0104, 8, 16, 12, 7, .ro, 48, .moorTile⟩,
  ⟨"BF_CAP_CTRL", "done", .hub, 0x20A0200, 0, 1, 31, 1, .w1c, 0, .moorTile⟩,
  ⟨"BF_CAP_CTRL", "arm", .hub, 0x20A0200, 0, 1, 9, 1, .w1s, 0, .runNone⟩,
  ⟨"BF_CAP_CTRL", "point", .hub, 0x20A0200, 0, 1, 8, 1, .rw, 0, .moorTile⟩,
  ⟨"BF_CAP_CTRL", "tiles", .hub, 0x20A0200, 0, 1, 0, 8, .rw, 255, .moorTile⟩,
  ⟨"BF_CAP_TIME", "tick", .hub, 0x20A0204, 4, 2, 0, 32, .rw, 0, .moorTile⟩,
  ⟨"BF_SWEEP_PTR", "ovf", .hub, 0x20A0300, 0, 1, 31, 1, .w1c, 0, .moorTile⟩,
  ⟨"BF_SWEEP_PTR", "rd", .hub, 0x20A0300, 0, 1, 16, 8, .rw, 0, .moorTile⟩,
  ⟨"BF_SWEEP_PTR", "wr", .hub, 0x20A0300, 0, 1, 0, 8, .ro, 0, .moorTile⟩,
  ⟨"BF_CLIP_COUNT", "count", .hub, 0x20A0340, 4, 16, 0, 16, .rc, 0, .moorTile⟩,
  ⟨"BF_TENSION_CTRL", "apply", .hub, 0x20A0400, 0, 1, 24, 1, .rw, 1, .moorTile⟩]

/-- Block BF (spec/03_beamforming_and_swatches.md), part 1. -/
def rowsBF1 : List Row := [
  ⟨"BF_TENSION_CTRL", "dtemp", .hub, 0x20A0400, 0, 1, 16, 8, .rw, 8, .moorTile⟩,
  ⟨"BF_TENSION_CTRL", "period", .hub, 0x20A0400, 0, 1, 8, 8, .rw, 60, .moorTile⟩,
  ⟨"BF_TENSION_CTRL", "go", .hub, 0x20A0400, 0, 1, 0, 8, .w1s, 0, .runNone⟩,
  ⟨"DIR0", "sealed", .hub, 0x20A8000, 16, 2048, 31, 1, .ro, 0, .moorTile⟩,
  ⟨"DIR0", "poisoned", .hub, 0x20A8000, 16, 2048, 30, 1, .ro, 0, .moorTile⟩,
  ⟨"DIR0", "open", .hub, 0x20A8000, 16, 2048, 29, 1, .ro, 0, .moorTile⟩,
  ⟨"DIR0", "use", .hub, 0x20A8000, 16, 2048, 24, 2, .rw, 0, .moorTile⟩,
  ⟨"DIR0", "tiles", .hub, 0x20A8000, 16, 2048, 16, 8, .rw, 0, .moorTile⟩,
  ⟨"DIR0", "gen", .hub, 0x20A8000, 16, 2048, 0, 16, .rw, 0, .moorTile⟩,
  ⟨"DIR1", "e_sw", .hub, 0x20A8004, 16, 2048, 0, 16, .rw, 0, .moorTile⟩,
  ⟨"DIR2", "rx_shifts", .hub, 0x20A8008, 16, 2048, 0, 32, .rw, 0, .moorTile⟩,
  ⟨"DIR3", "tag", .hub, 0x20A800C, 16, 2048, 24, 8, .rw, 0, .moorTile⟩,
  ⟨"DIR3", "tx_shifts", .hub, 0x20A800C, 16, 2048, 0, 24, .rw, 0, .moorTile⟩]

/-- Block RF (spec/02_element_transceivers.md), part 0. -/
def rowsRF0 : List Row := [
  ⟨"RF_CHAN", "ch_b", .hub, 0x20A0800, 0, 1, 16, 5, .rw, 0, .moorTile⟩,
  ⟨"RF_CHAN", "ch_a", .hub, 0x20A0800, 0, 1, 8, 5, .rw, 0, .moorTile⟩,
  ⟨"RF_CHAN", "sel", .hub, 0x20A0800, 0, 1, 0, 1, .rw, 0, .moorTile⟩,
  ⟨"RF_CHAN_STATUS", "sel_pending", .hub, 0x20A0804, 0, 1, 31, 1, .ro, 0, .moorTile⟩,
  ⟨"RF_CHAN_STATUS", "bad_ch", .hub, 0x20A0804, 0, 1, 8, 1, .w1c, 0, .moorTile⟩,
  ⟨"RF_CHAN_STATUS", "live_sel", .hub, 0x20A0804, 0, 1, 4, 1, .ro, 0, .moorTile⟩,
  ⟨"RF_CHAN_STATUS", "lock_b", .hub, 0x20A0804, 0, 1, 1, 1, .ro, 0, .runNone⟩,
  ⟨"RF_CHAN_STATUS", "lock_a", .hub, 0x20A0804, 0, 1, 0, 1, .ro, 0, .runNone⟩,
  ⟨"EIRP_CTRL", "lock", .hub, 0x20A0810, 0, 1, 31, 1, .w1s, 0, .moorTile⟩,
  ⟨"EIRP_CTRL", "region", .hub, 0x20A0810, 0, 1, 0, 2, .rwl, 0, .moorTile⟩,
  ⟨"EIRP_ADJ", "adj", .hub, 0x20A0814, 0, 1, 0, 11, .rw, 0, .moorTile⟩,
  ⟨"EIRP_STATUS", "mute", .hub, 0x20A0818, 0, 1, 16, 16, .w1c, 0, .moorTile⟩,
  ⟨"EIRP_STATUS", "clip", .hub, 0x20A0818, 0, 1, 0, 16, .w1c, 0, .moorTile⟩,
  ⟨"EIRP_SLOT", "muted", .hub, 0x20A0840, 4, 16, 31, 1, .ro, 0, .moorTile⟩,
  ⟨"EIRP_SLOT", "backoff", .hub, 0x20A0840, 4, 16, 23, 8, .ro, 0, .moorTile⟩,
  ⟨"EIRP_SLOT", "eirp", .hub, 0x20A0840, 4, 16, 15, 8, .ro, 0, .moorTile⟩,
  ⟨"EIRP_SLOT", "mask_loss", .hub, 0x20A0840, 4, 16, 0, 12, .ro, 0, .moorTile⟩,
  ⟨"EIRP_CAP", "agg", .capRegion, 0x20A0900, 4, 11, 8, 8, .rwl, 255, .moorTile⟩,
  ⟨"EIRP_CAP", "beam", .capRegion, 0x20A0900, 4, 11, 0, 8, .rwl, 255, .moorTile⟩]

/-- Block ELEM (spec/02_element_transceivers.md), part 0. -/
def rowsELEM0 : List Row := [
  ⟨"ELEM_CTRL", "auto_mask_dc", .elem, 0x0, 0, 1, 1, 1, .rw, 0, .moorEngine⟩,
  ⟨"ELEM_CTRL", "mask", .elem, 0x0, 0, 1, 0, 1, .rw, 1, .moorEngine⟩,
  ⟨"ELEM_STATUS", "armed", .elem, 0x4, 0, 1, 31, 1, .ro, 0, .moorEngine⟩,
  ⟨"ELEM_STATUS", "masked", .elem, 0x4, 0, 1, 30, 1, .ro, 1, .moorEngine⟩,
  ⟨"ELEM_STATUS", "state", .elem, 0x4, 0, 1, 28, 2, .ro, 0, .moorEngine⟩,
  ⟨"ELEM_STATUS", "pdet_sat", .elem, 0x4, 0, 1, 7, 1, .w1c, 0, .moorEngine⟩,
  ⟨"ELEM_STATUS", "rx_ovl", .elem, 0x4, 0, 1, 6, 1, .w1c, 0, .moorEngine⟩,
  ⟨"ELEM_STATUS", "dc_rail", .elem, 0x4, 0, 1, 5, 1, .w1c, 0, .moorEngine⟩,
  ⟨"ELEM_STATUS", "pa_trip", .elem, 0x4, 0, 1, 4, 1, .w1c, 0, .moorEngine⟩,
  ⟨"ELEM_RX_GAIN", "lna", .elem, 0x8, 0, 1, 5, 2, .ro, 2, .moorEngine⟩,
  ⟨"ELEM_RX_GAIN", "vga", .elem, 0x8, 0, 1, 0, 5, .ro, 12, .moorEngine⟩,
  ⟨"ELEM_RX_GAIN_SH", "lna", .elem, 0xC, 0, 1, 5, 2, .rw, 2, .moorEngine⟩,
  ⟨"ELEM_RX_GAIN_SH", "vga", .elem, 0xC, 0, 1, 0, 5, .rw, 12, .moorEngine⟩,
  ⟨"ELEM_CAL_RX", "phase", .elem, 0x10, 0, 1, 8, 8, .rw, 0, .moorEngine⟩,
  ⟨"ELEM_CAL_RX", "gain", .elem, 0x10, 0, 1, 0, 6, .rw, 0, .moorEngine⟩,
  ⟨"ELEM_CAL_TX", "phase", .elem, 0x14, 0, 1, 8, 8, .rw, 0, .moorEngine⟩,
  ⟨"ELEM_CAL_TX", "gain", .elem, 0x14, 0, 1, 0, 6, .rw, 0, .moorEngine⟩,
  ⟨"ELEM_DC_COARSE", "q", .elem, 0x20, 4, 4, 8, 7, .rw, 0, .moorEngine⟩,
  ⟨"ELEM_DC_COARSE", "i", .elem, 0x20, 4, 4, 0, 7, .rw, 0, .moorEngine⟩,
  ⟨"ELEM_DC_TX", "q", .elem, 0x30, 0, 1, 8, 7, .rw, 0, .moorEngine⟩,
  ⟨"ELEM_DC_TX", "i", .elem, 0x30, 0, 1, 0, 7, .rw, 0, .moorEngine⟩,
  ⟨"ELEM_DC_FINE", "q", .elem, 0x40, 4, 4, 16, 12, .rw, 0, .moorEngine⟩,
  ⟨"ELEM_DC_FINE", "i", .elem, 0x40, 4, 4, 0, 12, .rw, 0, .moorEngine⟩,
  ⟨"ELEM_DC_CTRL", "freeze", .elem, 0x50, 0, 1, 8, 1, .rw, 1, .moorEngine⟩,
  ⟨"ELEM_DC_CTRL", "k", .elem, 0x50, 0, 1, 0, 5, .rw, 12, .moorEngine⟩,
  ⟨"ELEM_PDET_TX", "peak", .elem, 0x60, 0, 1, 8, 8, .rc, 0, .moorEngine⟩,
  ⟨"ELEM_PDET_TX", "last", .elem, 0x60, 0, 1, 0, 8, .ro, 0, .moorEngine⟩,
  ⟨"ELEM_PDET_RX", "sat_count", .elem, 0x64, 0, 1, 0, 16, .rc, 0, .moorEngine⟩,
  ⟨"ELEM_PDET_CFG", "ovl", .elem, 0x68, 0, 1, 8, 8, .rw, 120, .moorEngine⟩,
  ⟨"ELEM_PDET_CFG", "trip", .elem, 0x68, 0, 1, 0, 8, .rw, 100, .moorEngine⟩]

/-- Block TILE (spec/03_beamforming_and_swatches.md), part 0. -/
def rowsTILE0 : List Row := [
  ⟨"TILE_COMMIT", "gc_pending", .tile, 0x0, 0, 1, 31, 1, .ro, 0, .runNone⟩,
  ⟨"TILE_COMMIT", "go", .tile, 0x0, 0, 1, 0, 1, .wo, 0, .none⟩,
  ⟨"TILE_STATUS", "poison", .tile, 0x4, 0, 1, 17, 1, .w1c, 0, .moorEngine⟩,
  ⟨"TILE_STATUS", "swap_unready", .tile, 0x4, 0, 1, 0, 16, .w1c, 0, .moorEngine⟩,
  ⟨"TILE_OPEN", "count", .tile, 0x8, 0, 1, 0, 12, .ro, 0, .moorEngine⟩,
  ⟨"TILE_SAT_COUNT", "tx", .tile, 0xC, 0, 1, 16, 16, .rc, 0, .moorEngine⟩,
  ⟨"TILE_SAT_COUNT", "rx", .tile, 0xC, 0, 1, 0, 16, .rc, 0, .moorEngine⟩,
  ⟨"TILE_RETAIN", "banks", .tile, 0x10, 0, 1, 0, 8, .rw, 0, .moorEngine⟩,
  ⟨"TILE_CAP_BASE", "base", .tile, 0x100, 0, 1, 0, 12, .rw, 0, .moorEngine⟩,
  ⟨"TILE_CAP_STATUS", "reason", .tile, 0x104, 0, 1, 2, 2, .ro, 0, .moorEngine⟩,
  ⟨"TILE_CAP_STATUS", "fail", .tile, 0x104, 0, 1, 1, 1, .w1c, 0, .moorEngine⟩,
  ⟨"TILE_CAP_STATUS", "done", .tile, 0x104, 0, 1, 0, 1, .w1c, 0, .moorEngine⟩,
  ⟨"TILE_TENSION_STATUS", "busy", .tile, 0x200, 0, 1, 31, 1, .ro, 0, .runNone⟩,
  ⟨"TILE_TENSION_STATUS", "reject", .tile, 0x200, 0, 1, 30, 1, .w1c, 0, .moorEngine⟩,
  ⟨"TILE_TENSION_STATUS", "residual", .tile, 0x200, 0, 1, 16, 8, .ro, 0, .moorEngine⟩,
  ⟨"TILE_TENSION_STATUS", "cycles", .tile, 0x200, 0, 1, 0, 16, .ro, 0, .moorEngine⟩,
  ⟨"TILE_TENSION_SUSPECT", "elems", .tile, 0x204, 4, 2, 0, 32, .w1c, 0, .moorEngine⟩,
  ⟨"TILE_SEAL_MAP", "sealed", .tile, 0x400, 4, 64, 0, 32, .ro, 0, .moorEngine⟩,
  ⟨"TILE_POISON_MAP", "poisoned", .tile, 0x500, 4, 64, 0, 32, .ro, 0, .moorEngine⟩,
  ⟨"TILE_YRN_SEEN", "seen", .tile, 0x800, 0, 1, 0, 32, .w1c, 0, .moorEngine⟩,
  ⟨"TILE_YRN_FIRE", "fire", .tile, 0x804, 0, 1, 0, 32, .wo, 0, .none⟩,
  ⟨"TILE_YRN_IMPORT", "ovr", .tile, 0x810, 4, 8, 31, 1, .w1c, 0, .moorEngine⟩,
  ⟨"TILE_YRN_IMPORT", "sel", .tile, 0x810, 4, 8, 0, 8, .rw, 255, .moorEngine⟩,
  ⟨"TILE_IRQ_YSEL", "sel", .tile, 0xB00, 4, 4, 0, 8, .rw, 255, .moorEngine⟩]

/-- Block NBR (spec/05_timetable_crossings_neighbours.md), part 0. -/
def rowsNBR0 : List Row := [
  ⟨"NBR_NODE_LO", "node_id_lo", .nbr, 0x0, 0, 1, 0, 32, .ro, 0, .moorWarm⟩,
  ⟨"NBR_ADDR", "short", .nbr, 0x4, 0, 1, 16, 16, .ro, 0, .moorWarm⟩,
  ⟨"NBR_ADDR", "node_id_hi", .nbr, 0x4, 0, 1, 0, 16, .ro, 0, .moorWarm⟩,
  ⟨"NBR_CFG", "rx_next_ok", .nbr, 0x8, 0, 1, 21, 1, .ro, 0, .moorWarm⟩,
  ⟨"NBR_CFG", "tx_key_next", .nbr, 0x8, 0, 1, 20, 1, .ro, 0, .moorWarm⟩,
  ⟨"NBR_CFG", "cipher_mode", .nbr, 0x8, 0, 1, 16, 4, .ro, 0, .moorWarm⟩,
  ⟨"NBR_CFG", "lost_after", .nbr, 0x8, 0, 1, 8, 8, .ro, 8, .moorWarm⟩,
  ⟨"NBR_CFG", "retry_limit", .nbr, 0x8, 0, 1, 4, 3, .ro, 3, .moorWarm⟩,
  ⟨"NBR_CFG", "tx_when_lost", .nbr, 0x8, 0, 1, 3, 1, .ro, 0, .moorWarm⟩,
  ⟨"NBR_CFG", "crc_bypass", .nbr, 0x8, 0, 1, 2, 1, .ro, 0, .moorWarm⟩,
  ⟨"NBR_CFG", "cipher_bypass", .nbr, 0x8, 0, 1, 1, 1, .ro, 0, .moorWarm⟩,
  ⟨"NBR_CFG", "enabled", .nbr, 0x8, 0, 1, 0, 1, .ro, 0, .moorWarm⟩,
  ⟨"NBR_SEED", "seed_valid", .nbr, 0xC, 0, 1, 31, 1, .ro, 0, .moorWarm⟩,
  ⟨"NBR_SEED", "prop_seed", .nbr, 0xC, 0, 1, 0, 20, .ro, 0, .moorWarm⟩,
  ⟨"NBR_LIVE", "held", .nbr, 0x40, 0, 1, 16, 7, .ro, 0, .moorWarm⟩,
  ⟨"NBR_LIVE", "streak", .nbr, 0x40, 0, 1, 8, 8, .ro, 0, .moorWarm⟩,
  ⟨"NBR_LIVE", "time_valid", .nbr, 0x40, 0, 1, 7, 1, .ro, 0, .moorWarm⟩,
  ⟨"NBR_LIVE", "rx_any", .nbr, 0x40, 0, 1, 6, 1, .ro, 0, .moorWarm⟩,
  ⟨"NBR_LIVE", "ack_owed", .nbr, 0x40, 0, 1, 5, 1, .ro, 0, .moorWarm⟩,
  ⟨"NBR_LIVE", "spent_rx", .nbr, 0x40, 0, 1, 4, 1, .ro, 0, .moorWarm⟩,
  ⟨"NBR_LIVE", "spent_tx", .nbr, 0x40, 0, 1, 3, 1, .ro, 0, .moorWarm⟩,
  ⟨"NBR_LIVE", "state", .nbr, 0x40, 0, 1, 0, 3, .ro, 0, .moorWarm⟩,
  ⟨"NBR_TX_NEXT", "seq", .nbr, 0x44, 0, 1, 0, 32, .ro, 0, .moorWarm⟩,
  ⟨"NBR_RX_HIGH", "h", .nbr, 0x48, 0, 1, 0, 32, .ro, 0, .moorWarm⟩,
  ⟨"NBR_RX_MAP", "map", .nbr, 0x4C, 4, 2, 0, 32, .ro, 0, .moorWarm⟩,
  ⟨"NBR_LAST_TX_SEQ", "seq", .nbr, 0x54, 0, 1, 0, 32, .ro, 0, .moorWarm⟩,
  ⟨"NBR_LAST_TX_LEAD", "ticks", .nbr, 0x58, 4, 2, 0, 32, .ro, 0, .moorWarm⟩,
  ⟨"NBR_OFFSET", "off", .nbr, 0x60, 4, 2, 0, 32, .ro, 0, .moorWarm⟩,
  ⟨"NBR_DRIFT", "drift", .nbr, 0x68, 0, 1, 0, 32, .ro, 0, .moorWarm⟩,
  ⟨"NBR_PROP", "prop_valid", .nbr, 0x6C, 0, 1, 31, 1, .ro, 0, .moorWarm⟩,
  ⟨"NBR_PROP", "prop", .nbr, 0x6C, 0, 1, 0, 24, .ro, 0, .moorWarm⟩,
  ⟨"NBR_L_LAST", "l", .nbr, 0x70, 4, 2, 0, 32, .ro, 0, .moorWarm⟩,
  ⟨"NBR_STAT", "count", .nbr, 0x80, 4, 16, 0, 32, .ro, 0, .moorWarm⟩,
  ⟨"NBR_BC_HIGH", "h", .nbr, 0xC0, 0, 1, 0, 32, .ro, 0, .moorWarm⟩,
  ⟨"NBR_BC_MAP", "map", .nbr, 0xC4, 4, 2, 0, 32, .ro, 0, .moorWarm⟩,
  ⟨"NBR_REF", "swatch", .nbr, 0xD0, 4, 4, 0, 11, .rw, 0, .moorWarm⟩,
  ⟨"SH_NODE_LO", "node_id_lo", .nbrShadow, 0x0, 0, 1, 0, 32, .rw, 0, .moorWarm⟩,
  ⟨"SH_ADDR", "short", .nbrShadow, 0x4, 0, 1, 16, 16, .rw, 0, .moorWarm⟩,
  ⟨"SH_ADDR", "node_id_hi", .nbrShadow, 0x4, 0, 1, 0, 16, .rw, 0, .moorWarm⟩,
  ⟨"SH_CFG", "rx_next_ok", .nbrShadow, 0x8, 0, 1, 21, 1, .rw, 0, .moorWarm⟩]

/-- Block NBR (spec/05_timetable_crossings_neighbours.md), part 1. -/
def rowsNBR1 : List Row := [
  ⟨"SH_CFG", "tx_key_next", .nbrShadow, 0x8, 0, 1, 20, 1, .rw, 0, .moorWarm⟩,
  ⟨"SH_CFG", "cipher_mode", .nbrShadow, 0x8, 0, 1, 16, 4, .rw, 0, .moorWarm⟩,
  ⟨"SH_CFG", "lost_after", .nbrShadow, 0x8, 0, 1, 8, 8, .rw, 8, .moorWarm⟩,
  ⟨"SH_CFG", "retry_limit", .nbrShadow, 0x8, 0, 1, 4, 3, .rw, 3, .moorWarm⟩,
  ⟨"SH_CFG", "tx_when_lost", .nbrShadow, 0x8, 0, 1, 3, 1, .rw, 0, .moorWarm⟩,
  ⟨"SH_CFG", "crc_bypass", .nbrShadow, 0x8, 0, 1, 2, 1, .rw, 0, .moorWarm⟩,
  ⟨"SH_CFG", "cipher_bypass", .nbrShadow, 0x8, 0, 1, 1, 1, .rw, 0, .moorWarm⟩,
  ⟨"SH_CFG", "enabled", .nbrShadow, 0x8, 0, 1, 0, 1, .rw, 0, .moorWarm⟩,
  ⟨"SH_SEED", "seed_valid", .nbrShadow, 0xC, 0, 1, 31, 1, .rw, 0, .moorWarm⟩,
  ⟨"SH_SEED", "prop_seed", .nbrShadow, 0xC, 0, 1, 0, 20, .rw, 0, .moorWarm⟩]

/-- Block LNK (spec/12_redra_link_and_pontoon.md), part 0. -/
def rowsLNK0 : List Row := [
  ⟨"LNK_CFG", "reach", .hub, 0x20B0000, 0, 1, 24, 1, .rw, 0, .moorWarm⟩,
  ⟨"LNK_CFG", "max_width", .hub, 0x20B0000, 0, 1, 16, 5, .rw, 16, .moorWarm⟩,
  ⟨"LNK_CFG", "auto_up", .hub, 0x20B0000, 0, 1, 13, 1, .rw, 1, .moorWarm⟩,
  ⟨"LNK_CFG", "down_ok", .hub, 0x20B0000, 0, 1, 12, 1, .rw, 0, .moorWarm⟩,
  ⟨"LNK_CFG", "idle_us", .hub, 0x20B0000, 0, 1, 0, 8, .rw, 10, .moorWarm⟩,
  ⟨"LNK_STATUS", "state", .hub, 0x20B0004, 0, 1, 29, 3, .ro, 0, .runNone⟩,
  ⟨"LNK_STATUS", "width", .hub, 0x20B0004, 0, 1, 16, 5, .ro, 0, .runNone⟩,
  ⟨"LNK_STATUS", "lanes", .hub, 0x20B0004, 0, 1, 0, 16, .ro, 0, .runNone⟩,
  ⟨"LNK_ERR_CNT", "count", .hub, 0x20B0010, 4, 6, 0, 32, .rc, 0, .moorTile⟩,
  ⟨"LNK_LATE_PTR", "rd", .hub, 0x20B0040, 0, 1, 16, 8, .rw, 0, .moorTile⟩,
  ⟨"LNK_LATE_PTR", "wr", .hub, 0x20B0040, 0, 1, 0, 8, .ro, 0, .moorTile⟩,
  ⟨"LNK_LATE_STAT", "lost", .hub, 0x20B0044, 0, 1, 0, 16, .rc, 0, .moorTile⟩,
  ⟨"LNK_LATE_FAULT0", "dir", .hub, 0x20B0100, 16, 32, 31, 1, .ro, 0, .moorTile⟩,
  ⟨"LNK_LATE_FAULT0", "link", .hub, 0x20B0100, 16, 32, 28, 3, .ro, 0, .moorTile⟩,
  ⟨"LNK_LATE_FAULT0", "status", .hub, 0x20B0100, 16, 32, 20, 4, .ro, 0, .moorTile⟩,
  ⟨"LNK_LATE_FAULT0", "seq", .hub, 0x20B0100, 16, 32, 0, 16, .ro, 0, .moorTile⟩,
  ⟨"LNK_LATE_FAULT1", "addr", .hub, 0x20B0104, 16, 32, 0, 32, .ro, 0, .moorTile⟩,
  ⟨"LNK_LATE_FAULT2", "time", .hub, 0x20B0108, 16, 32, 0, 32, .ro, 0, .moorTile⟩,
  ⟨"LNK_LND_BASE_LO", "base", .hub, 0x20B1000, 32, 74, 6, 26, .rw, 0, .moorWarm⟩,
  ⟨"LNK_LND_BASE_HI", "base", .hub, 0x20B1004, 32, 74, 0, 32, .rw, 0, .moorWarm⟩,
  ⟨"LNK_LND_CFG", "en", .hub, 0x20B1008, 32, 74, 31, 1, .rw, 0, .moorWarm⟩,
  ⟨"LNK_LND_CFG", "size", .hub, 0x20B1008, 32, 74, 0, 4, .rw, 6, .moorWarm⟩,
  ⟨"LNK_LND_TAIL", "tail", .hub, 0x20B100C, 32, 74, 0, 12, .rw, 0, .moorWarm⟩,
  ⟨"LNK_LND_HEAD", "head", .hub, 0x20B1010, 32, 74, 0, 12, .rw, 0, .moorWarm⟩]

/-- Block PNT (spec/12_redra_link_and_pontoon.md), part 0. -/
def rowsPNT0 : List Row := [
  ⟨"PNT_CTRL", "reach", .hub, 0x20C0000, 0, 1, 24, 1, .rw, 0, .moorWarm⟩,
  ⟨"PNT_CTRL", "peers", .hub, 0x20C0000, 0, 1, 8, 4, .rw, 0, .moorWarm⟩,
  ⟨"PNT_CTRL", "en", .hub, 0x20C0000, 0, 1, 0, 1, .rw, 0, .moorWarm⟩,
  ⟨"PNT_STATUS", "primary", .hub, 0x20C0004, 0, 1, 31, 1, .ro, 0, .runNone⟩,
  ⟨"PNT_STATUS", "solo", .hub, 0x20C0004, 0, 1, 24, 4, .ro, 0, .runNone⟩,
  ⟨"PNT_STATUS", "peer", .hub, 0x20C0004, 0, 1, 0, 12, .ro, 0, .runNone⟩,
  ⟨"PNT_CFG_BASE", "base", .hub, 0x20C0010, 0, 1, 2, 30, .rw, 0, .moorTile⟩,
  ⟨"PNT_CFG_LEN", "len", .hub, 0x20C0014, 0, 1, 0, 15, .rw, 0, .moorTile⟩,
  ⟨"PNT_DIGEST", "digest", .hub, 0x20C0018, 4, 2, 0, 32, .ro, 0, .runNone⟩,
  ⟨"PNT_PEER_DIGEST", "digest", .hub, 0x20C0020, 4, 8, 0, 32, .ro, 0, .runNone⟩,
  ⟨"PNT_GEN", "major", .hub, 0x20C0040, 0, 1, 8, 8, .ro, 0, .moorWarm⟩,
  ⟨"PNT_GEN", "minor", .hub, 0x20C0040, 0, 1, 0, 8, .ro, 0, .moorWarm⟩,
  ⟨"PNT_DELAY", "ticks", .hub, 0x20C0050, 4, 4, 0, 16, .ro, 0, .runNone⟩,
  ⟨"PNT_TIME_OFF", "o", .hub, 0x20C0060, 0, 1, 0, 32, .ro, 0, .runNone⟩,
  ⟨"PNT_SHARED", "nbrs", .hub, 0x20C0070, 4, 2, 0, 32, .rw, 0, .moorTile⟩,
  ⟨"PNT_YIELD", "nbrs", .hub, 0x20C0078, 4, 2, 0, 32, .ro, 0, .runNone⟩]

/-- Block FLC (spec/13_flash_calibration_update.md), part 0. -/
def rowsFLC0 : List Row := [
  ⟨"FLC_STATUS", "no_table", .hub, 0x20D0000, 0, 1, 31, 1, .ro, 0, .moorTile⟩,
  ⟨"FLC_STATUS", "busy", .hub, 0x20D0000, 0, 1, 0, 4, .ro, 0, .runNone⟩,
  ⟨"FLC_BANK", "mark", .hub, 0x20D0010, 4, 4, 24, 8, .ro, 181, .runNone⟩,
  ⟨"FLC_BANK", "busy", .hub, 0x20D0010, 4, 4, 23, 1, .ro, 0, .runNone⟩,
  ⟨"FLC_BANK", "fail", .hub, 0x20D0010, 4, 4, 22, 1, .ro, 0, .runNone⟩,
  ⟨"FLC_BANK", "refused", .hub, 0x20D0010, 4, 4, 21, 1, .ro, 0, .runNone⟩,
  ⟨"FLC_BANK", "reason", .hub, 0x20D0010, 4, 4, 17, 4, .ro, 0, .runNone⟩,
  ⟨"FLC_BANK", "op", .hub, 0x20D0010, 4, 4, 15, 2, .ro, 0, .runNone⟩,
  ⟨"FLC_BANK", "block", .hub, 0x20D0010, 4, 4, 9, 6, .ro, 0, .runNone⟩,
  ⟨"FLC_BANK", "status_mode", .hub, 0x20D0010, 4, 4, 8, 1, .ro, 0, .runNone⟩,
  ⟨"FLC_BANK", "count", .hub, 0x20D0010, 4, 4, 0, 8, .ro, 0, .runNone⟩,
  ⟨"FLC_STRAY", "count", .hub, 0x20D0020, 0, 1, 0, 32, .rc, 0, .moorTile⟩,
  ⟨"FLC_CALWR", "count", .hub, 0x20D0024, 0, 1, 0, 32, .rc, 0, .moorTile⟩,
  ⟨"FLC_HOLDUP_CTRL", "check", .hub, 0x20D0040, 0, 1, 31, 1, .rw, 1, .moorTile⟩,
  ⟨"FLC_HOLDUP_CTRL", "margin", .hub, 0x20D0040, 0, 1, 8, 4, .rw, 8, .moorTile⟩,
  ⟨"FLC_HOLDUP_CAP", "uf", .hub, 0x20D0044, 0, 1, 0, 16, .rw, 0, .moorTile⟩,
  ⟨"FLC_HOLDUP_VMIN", "mv", .hub, 0x20D0048, 0, 1, 0, 16, .rw, 0, .moorTile⟩,
  ⟨"FLC_HOLDUP_SCALE", "scale", .hub, 0x20D004C, 0, 1, 0, 12, .rw, 64, .moorTile⟩,
  ⟨"FLC_HOLDUP_LAST", "code", .hub, 0x20D0050, 0, 1, 20, 12, .ro, 0, .moorTile⟩,
  ⟨"FLC_HOLDUP_LAST", "uj", .hub, 0x20D0050, 0, 1, 0, 20, .ro, 0, .moorTile⟩,
  ⟨"FLC_HOLDUP_REFUSED", "count", .hub, 0x20D0054, 0, 1, 0, 16, .rc, 0, .moorTile⟩,
  ⟨"FLC_INTERRUPTED", "valid", .hub, 0x20D0060, 0, 1, 31, 1, .w1c, 0, .moorTile⟩,
  ⟨"FLC_INTERRUPTED", "op", .hub, 0x20D0060, 0, 1, 24, 2, .ro, 0, .moorTile⟩,
  ⟨"FLC_INTERRUPTED", "block", .hub, 0x20D0060, 0, 1, 16, 8, .ro, 0, .moorTile⟩,
  ⟨"FLC_INTERRUPTED", "page", .hub, 0x20D0060, 0, 1, 0, 8, .ro, 0, .moorTile⟩,
  ⟨"FLC_BAD", "bad", .hub, 0x20D0100, 4, 8, 0, 32, .w1s, 0, .moorTile⟩,
  ⟨"FLC_SL_CFG", "rows", .hub, 0x20D0200, 0, 1, 0, 4, .rw, 4, .moorTile⟩,
  ⟨"FLC_SL_FAULT", "valid", .hub, 0x20D0210, 4, 4, 31, 1, .w1c, 0, .moorTile⟩,
  ⟨"FLC_SL_FAULT", "mapped", .hub, 0x20D0210, 4, 4, 30, 1, .ro, 0, .moorTile⟩,
  ⟨"FLC_SL_FAULT", "column", .hub, 0x20D0210, 4, 4, 16, 9, .ro, 0, .moorTile⟩,
  ⟨"FLC_SL_FAULT", "bit", .hub, 0x20D0210, 4, 4, 0, 7, .ro, 0, .moorTile⟩,
  ⟨"FLC_CORR_CNT", "count", .hub, 0x20D0220, 0, 1, 0, 32, .rc, 0, .moorTile⟩,
  ⟨"FLC_CELL_CNT", "count", .hub, 0x20D0224, 0, 1, 0, 32, .rc, 0, .moorTile⟩,
  ⟨"FLC_CELL_LAST", "bank", .hub, 0x20D0228, 0, 1, 30, 2, .ro, 0, .moorTile⟩,
  ⟨"FLC_CELL_LAST", "row", .hub, 0x20D0228, 0, 1, 20, 10, .ro, 0, .moorTile⟩,
  ⟨"FLC_CELL_LAST", "column", .hub, 0x20D0228, 0, 1, 11, 9, .ro, 0, .moorTile⟩,
  ⟨"FLC_CELL_LAST", "bit", .hub, 0x20D0228, 0, 1, 4, 7, .ro, 0, .moorTile⟩,
  ⟨"FLC_SPARE", "en", .hub, 0x20D0300, 4, 16, 31, 1, .rw, 0, .moorTile⟩,
  ⟨"FLC_SPARE", "fill", .hub, 0x20D0300, 4, 16, 30, 1, .w1s, 0, .runNone⟩,
  ⟨"FLC_SPARE", "state", .hub, 0x20D0300, 4, 16, 28, 2, .ro, 0, .moorTile⟩]

/-- Block FLC (spec/13_flash_calibration_update.md), part 1. -/
def rowsFLC1 : List Row := [
  ⟨"FLC_SPARE", "column", .hub, 0x20D0300, 4, 16, 16, 9, .rw, 0, .moorTile⟩,
  ⟨"FLC_SPARE", "bit", .hub, 0x20D0300, 4, 16, 0, 7, .rw, 0, .moorTile⟩,
  ⟨"FLC_SPARE_UNC", "words", .hub, 0x20D0340, 0, 1, 0, 11, .ro, 0, .moorTile⟩,
  ⟨"FLC_GUARD_ADDR", "bank", .hub, 0x20D0400, 0, 1, 16, 2, .rw, 0, .moorTile⟩,
  ⟨"FLC_GUARD_ADDR", "column", .hub, 0x20D0400, 0, 1, 0, 9, .rw, 0, .moorTile⟩,
  ⟨"FLC_PSPARE_ADDR", "page", .hub, 0x20D0410, 0, 1, 0, 16, .rw, 0, .moorTile⟩]

/-- Block ERR (spec/14_errors_scrubbing_counters.md), part 0. -/
def rowsERR0 : List Row := [
  ⟨"ERR_LOG_PTR", "ovf", .hub, 0x20E0004, 0, 1, 31, 1, .w1c, 0, .moorTile⟩,
  ⟨"ERR_LOG_PTR", "rd", .hub, 0x20E0004, 0, 1, 16, 6, .rw, 0, .moorTile⟩,
  ⟨"ERR_LOG_PTR", "wr", .hub, 0x20E0004, 0, 1, 0, 6, .ro, 0, .moorTile⟩,
  ⟨"ERR_LOG_LOST", "count", .hub, 0x20E0008, 0, 1, 0, 32, .rc, 0, .moorTile⟩,
  ⟨"ERR_CNT", "count", .hub, 0x20E0040, 4, 14, 0, 32, .rc, 0, .moorTile⟩,
  ⟨"ERR_POISON_HITS", "count", .hub, 0x20E0080, 0, 1, 0, 32, .rc, 0, .moorTile⟩,
  ⟨"ERR_UNIT", "active", .hub, 0x20E0400, 4, 166, 31, 1, .w1c, 0, .moorTile⟩,
  ⟨"ERR_UNIT", "ovf", .hub, 0x20E0400, 4, 166, 30, 1, .w1c, 0, .moorTile⟩,
  ⟨"ERR_UNIT", "pending", .hub, 0x20E0400, 4, 166, 16, 8, .ro, 0, .moorTile⟩,
  ⟨"ERR_UNIT", "escalations", .hub, 0x20E0400, 4, 166, 0, 8, .ro, 0, .moorTile⟩,
  ⟨"ERR_LANE", "degraded", .hub, 0x20E0800, 4, 8, 31, 1, .ro, 0, .runNone⟩,
  ⟨"ERR_LANE", "lane", .hub, 0x20E0800, 4, 8, 24, 6, .ro, 0, .moorTile⟩,
  ⟨"ERR_LANE", "retrains", .hub, 0x20E0800, 4, 8, 0, 16, .rc, 0, .moorTile⟩,
  ⟨"ERR_SCRUB_CTRL", "en", .hub, 0x20E0900, 0, 1, 0, 6, .rw, 63, .moorTile⟩,
  ⟨"ERR_SCRUB_PASS", "passes", .hub, 0x20E0910, 4, 6, 0, 32, .ro, 0, .moorTile⟩]

/-- Block PMC (spec/14_errors_scrubbing_counters.md), part 0. -/
def rowsPMC0 : List Row := [
  ⟨"PMC_CTRL", "freeze", .hub, 0x20F0000, 0, 1, 31, 1, .rw, 0, .moorTile⟩,
  ⟨"PMC_CTRL", "freeze_on_ovf", .hub, 0x20F0000, 0, 1, 30, 1, .rw, 0, .moorTile⟩,
  ⟨"PMC_CTRL", "snap", .hub, 0x20F0000, 0, 1, 16, 1, .w1s, 0, .runNone⟩,
  ⟨"PMC_CTRL", "snap_sel", .hub, 0x20F0000, 0, 1, 8, 8, .rw, 255, .moorTile⟩,
  ⟨"PMC_OVF", "ovf", .hub, 0x20F0004, 0, 1, 0, 32, .w1c, 0, .moorTile⟩,
  ⟨"PMC_CFG", "en", .hub, 0x20F0100, 8, 32, 31, 1, .rw, 0, .moorTile⟩,
  ⟨"PMC_CFG", "sat", .hub, 0x20F0100, 8, 32, 30, 1, .rw, 0, .moorTile⟩,
  ⟨"PMC_CFG", "chain", .hub, 0x20F0100, 8, 32, 29, 1, .rw, 0, .moorTile⟩,
  ⟨"PMC_CFG", "ovf_irq", .hub, 0x20F0100, 8, 32, 28, 1, .rw, 0, .moorTile⟩,
  ⟨"PMC_CFG", "any", .hub, 0x20F0100, 8, 32, 24, 1, .rw, 0, .moorTile⟩,
  ⟨"PMC_CFG", "filter", .hub, 0x20F0100, 8, 32, 16, 8, .rw, 0, .moorTile⟩,
  ⟨"PMC_CFG", "event", .hub, 0x20F0100, 8, 32, 0, 10, .rw, 0, .moorTile⟩,
  ⟨"PMC_CNT", "count", .hub, 0x20F0104, 8, 32, 0, 32, .rw, 0, .moorTile⟩,
  ⟨"PMC_SNAP", "count", .hub, 0x20F0200, 4, 32, 0, 32, .ro, 0, .moorTile⟩,
  ⟨"PMC_OVF_PC", "valid", .hub, 0x20F0280, 4, 32, 31, 1, .w1c, 0, .moorTile⟩,
  ⟨"PMC_OVF_PC", "engine", .hub, 0x20F0280, 4, 32, 16, 7, .ro, 0, .moorTile⟩,
  ⟨"PMC_OVF_PC", "pc", .hub, 0x20F0280, 4, 32, 0, 16, .ro, 0, .moorTile⟩,
  ⟨"PMC_MARK_CTRL", "en", .hub, 0x20F0400, 0, 1, 31, 1, .rw, 0, .moorTile⟩,
  ⟨"PMC_MARK_CTRL", "interval", .hub, 0x20F0400, 0, 1, 16, 4, .rw, 10, .moorTile⟩,
  ⟨"PMC_MARK_CTRL", "thresh", .hub, 0x20F0400, 0, 1, 8, 6, .rw, 32, .moorTile⟩,
  ⟨"PMC_MARK_SEL", "engines", .hub, 0x20F0404, 4, 3, 0, 32, .rw, 0, .moorTile⟩,
  ⟨"PMC_MARK_PTR", "ovf", .hub, 0x20F0410, 0, 1, 31, 1, .w1c, 0, .moorTile⟩,
  ⟨"PMC_MARK_PTR", "rd", .hub, 0x20F0410, 0, 1, 16, 6, .rw, 0, .moorTile⟩,
  ⟨"PMC_MARK_PTR", "wr", .hub, 0x20F0410, 0, 1, 0, 6, .ro, 0, .moorTile⟩]

/-- Block AON (spec/10_power_states_and_wake_plane.md), part 0. -/
def rowsAON0 : List Row := [
  ⟨"AON_PWR_CMD", "off_arm", .hub, 0x3000000, 0, 1, 0, 1, .w1s, 0, .offPin⟩,
  ⟨"AON_KEEP_CFG", "resync", .hub, 0x3000004, 0, 1, 16, 1, .rw, 1, .offPin⟩,
  ⟨"AON_KEEP_CFG", "vigil_bias", .hub, 0x3000004, 0, 1, 8, 4, .rw, 0, .offPin⟩,
  ⟨"AON_KEEP_CFG", "tcxo_in_moor", .hub, 0x3000004, 0, 1, 0, 1, .rw, 1, .offPin⟩,
  ⟨"AON_KEEP_STATUS", "slewing", .hub, 0x3000008, 0, 1, 1, 1, .ro, 0, .offPin⟩,
  ⟨"AON_KEEP_STATUS", "valid", .hub, 0x3000008, 0, 1, 0, 1, .w1s, 0, .offPin⟩,
  ⟨"AON_CLK_STATUS", "xtal_fail", .hub, 0x300000C, 0, 1, 1, 1, .ro, 0, .porOnly⟩,
  ⟨"AON_CLK_STATUS", "on_xtal", .hub, 0x300000C, 0, 1, 0, 1, .ro, 0, .porOnly⟩,
  ⟨"AON_WAKE_EN", "codes", .hub, 0x3000010, 0, 1, 1, 7, .rw, 4, .offPin⟩,
  ⟨"AON_LATCH_EN", "sources", .hub, 0x3000014, 0, 1, 0, 25, .rw, 0, .offPin⟩,
  ⟨"AON_WAKE_EDGE", "edges", .hub, 0x3000018, 0, 1, 0, 32, .rw, 0, .offPin⟩,
  ⟨"AON_WAKE_CFG", "pulse", .hub, 0x300001C, 0, 1, 8, 8, .rw, 1, .offPin⟩,
  ⟨"AON_WAKE_CFG", "pnt_edge", .hub, 0x300001C, 0, 1, 0, 2, .rw, 0, .offPin⟩,
  ⟨"AON_TIMER_CMP", "tick", .hub, 0x3000020, 4, 2, 0, 32, .rw, 0, .offPin⟩,
  ⟨"AON_TIMER_CTRL", "en", .hub, 0x3000028, 0, 1, 0, 1, .rw, 0, .offPin⟩,
  ⟨"AON_TT_WAKE", "tick", .hub, 0x3000030, 4, 2, 0, 32, .ro, 0, .offPin⟩,
  ⟨"AON_WAKE_LAST", "src", .hub, 0x3000040, 0, 1, 28, 4, .ro, 15, .offPin⟩,
  ⟨"AON_WAKE_LAST", "detail", .hub, 0x3000040, 0, 1, 24, 4, .ro, 0, .offPin⟩,
  ⟨"AON_WAKE_LAST", "coarse", .hub, 0x3000040, 0, 1, 8, 16, .ro, 0, .offPin⟩,
  ⟨"AON_WAKE_LAST", "count", .hub, 0x3000040, 0, 1, 0, 8, .ro, 0, .offPin⟩,
  ⟨"AON_WAKE_HIST", "record", .hub, 0x3000044, 4, 8, 0, 32, .ro, 0, .offPin⟩,
  ⟨"AON_WK_CFG", "lock", .hub, 0x3000080, 0, 1, 31, 1, .w1s, 0, .offPin⟩,
  ⟨"AON_WK_CFG", "bcast", .hub, 0x3000080, 0, 1, 9, 1, .rw, 1, .offPin⟩,
  ⟨"AON_WK_CFG", "band", .hub, 0x3000080, 0, 1, 8, 1, .rw, 0, .offPin⟩,
  ⟨"AON_WK_CFG", "thresh", .hub, 0x3000080, 0, 1, 0, 8, .rw, 64, .offPin⟩,
  ⟨"AON_WK_ADDR", "group", .hub, 0x3000084, 0, 1, 16, 16, .rw, 65535, .offPin⟩,
  ⟨"AON_WK_ADDR", "short", .hub, 0x3000084, 0, 1, 0, 16, .rw, 65535, .offPin⟩,
  ⟨"AON_WK_FREQ", "k_b", .hub, 0x3000088, 0, 1, 16, 16, .rw, 0, .offPin⟩,
  ⟨"AON_WK_FREQ", "k_a", .hub, 0x3000088, 0, 1, 0, 16, .rw, 0, .offPin⟩,
  ⟨"AON_WK_RX", "chan", .hub, 0x300008C, 0, 1, 4, 4, .rw, 0, .offPin⟩,
  ⟨"AON_WK_RX", "en", .hub, 0x300008C, 0, 1, 0, 4, .rw, 0, .offPin⟩,
  ⟨"AON_WK_STATE", "states", .hub, 0x3000090, 0, 1, 0, 8, .ro, 0, .runNone⟩,
  ⟨"AON_DUTY", "duty", .hub, 0x30000A0, 0, 1, 0, 14, .rwl, 100, .offPin⟩,
  ⟨"AON_DUTY_BUCKET", "ms", .hub, 0x30000A4, 0, 1, 0, 26, .ro, 36000, .offPin⟩,
  ⟨"AON_BELL_TX", "target", .hub, 0x30000B0, 0, 1, 16, 16, .rw, 0, .offPin⟩,
  ⟨"AON_BELL_TX", "command", .hub, 0x30000B0, 0, 1, 8, 8, .rw, 0, .offPin⟩,
  ⟨"AON_BELL_TX", "power", .hub, 0x30000B0, 0, 1, 4, 4, .rw, 14, .offPin⟩,
  ⟨"AON_BELL_TX", "nowait", .hub, 0x30000B0, 0, 1, 2, 1, .rw, 0, .offPin⟩,
  ⟨"AON_BELL_TX", "chan", .hub, 0x30000B0, 0, 1, 1, 1, .rw, 0, .offPin⟩,
  ⟨"AON_BELL_TX", "go", .hub, 0x30000B0, 0, 1, 0, 1, .w1s, 0, .runNone⟩]

/-- Block AON (spec/10_power_states_and_wake_plane.md), part 1. -/
def rowsAON1 : List Row := [
  ⟨"AON_BELL_TX_STATUS", "status", .hub, 0x30000B4, 0, 1, 0, 2, .ro, 0, .offPin⟩,
  ⟨"AON_BELL_LAST", "target", .hub, 0x30000C0, 0, 1, 16, 16, .ro, 0, .offPin⟩,
  ⟨"AON_BELL_LAST", "command", .hub, 0x30000C0, 0, 1, 8, 8, .ro, 0, .offPin⟩,
  ⟨"AON_BELL_LAST", "arg", .hub, 0x30000C0, 0, 1, 0, 6, .ro, 0, .offPin⟩,
  ⟨"AON_BELL_LAST2", "resynced", .hub, 0x30000C4, 0, 1, 24, 1, .ro, 0, .offPin⟩,
  ⟨"AON_BELL_LAST2", "receiver", .hub, 0x30000C4, 0, 1, 16, 2, .ro, 0, .offPin⟩,
  ⟨"AON_BELL_LAST2", "time", .hub, 0x30000C4, 0, 1, 0, 16, .ro, 0, .offPin⟩,
  ⟨"AON_BELL_REJ", "replay", .hub, 0x30000CC, 0, 1, 24, 8, .rc, 0, .offPin⟩,
  ⟨"AON_BELL_REJ", "time", .hub, 0x30000CC, 0, 1, 16, 8, .rc, 0, .offPin⟩,
  ⟨"AON_BELL_REJ", "auth", .hub, 0x30000CC, 0, 1, 8, 8, .rc, 0, .offPin⟩,
  ⟨"AON_BELL_REJ", "crc", .hub, 0x30000CC, 0, 1, 0, 8, .rc, 0, .offPin⟩,
  ⟨"AON_BELL_RAW0", "target", .hub, 0x30000D0, 0, 1, 16, 16, .ro, 0, .offPin⟩,
  ⟨"AON_BELL_RAW0", "command", .hub, 0x30000D0, 0, 1, 8, 8, .ro, 0, .offPin⟩,
  ⟨"AON_BELL_RAW1", "time", .hub, 0x30000D4, 0, 1, 16, 16, .ro, 0, .offPin⟩,
  ⟨"AON_BELL_RAW1", "tag", .hub, 0x30000D4, 0, 1, 0, 16, .ro, 0, .offPin⟩,
  ⟨"AON_BELL_RAW2", "crc", .hub, 0x30000D8, 0, 1, 16, 16, .ro, 0, .offPin⟩,
  ⟨"AON_BELL_RAW2", "ovw", .hub, 0x30000D8, 0, 1, 2, 1, .ro, 0, .offPin⟩,
  ⟨"AON_BELL_RAW2", "auth_ok", .hub, 0x30000D8, 0, 1, 1, 1, .ro, 0, .offPin⟩,
  ⟨"AON_BELL_RAW2", "crc_ok", .hub, 0x30000D8, 0, 1, 0, 1, .ro, 0, .offPin⟩,
  ⟨"AON_HOLDUP_THR", "code", .hub, 0x3000140, 0, 1, 0, 12, .rw, 0, .offPin⟩,
  ⟨"AON_FLASH_OP", "valid", .hub, 0x3000144, 0, 1, 31, 1, .ro, 0, .offPin⟩,
  ⟨"AON_FLASH_OP", "op", .hub, 0x3000144, 0, 1, 24, 2, .ro, 0, .offPin⟩,
  ⟨"AON_FLASH_OP", "block", .hub, 0x3000144, 0, 1, 16, 8, .ro, 0, .offPin⟩,
  ⟨"AON_FLASH_OP", "page", .hub, 0x3000144, 0, 1, 0, 8, .ro, 0, .offPin⟩,
  ⟨"AON_BB_CTRL", "key", .hub, 0x3000180, 0, 1, 24, 8, .wo, 0, .none⟩,
  ⟨"AON_BB_CTRL", "clear", .hub, 0x3000180, 0, 1, 0, 1, .wo, 0, .none⟩,
  ⟨"AON_SEC_EVENT", "key_loss", .hub, 0x3008000, 0, 1, 0, 1, .w1c, 0, .offPin⟩,
  ⟨"AON_BELL_KEY", "key", .hub, 0x3008010, 4, 4, 0, 32, .wo, 0, .offPin⟩,
  ⟨"AON_BELL_CTRL", "key_valid", .hub, 0x3008020, 0, 1, 31, 1, .ro, 0, .offPin⟩,
  ⟨"AON_BELL_CTRL", "ctx", .hub, 0x3008020, 0, 1, 0, 8, .rw, 0, .offPin⟩,
  ⟨"AON_OTP_PROG", "fail", .hub, 0x3008040, 0, 1, 31, 1, .ro, 0, .offPin⟩,
  ⟨"AON_OTP_PROG", "busy", .hub, 0x3008040, 0, 1, 30, 1, .ro, 0, .runNone⟩,
  ⟨"AON_OTP_PROG", "addr", .hub, 0x3008040, 0, 1, 0, 10, .rw, 0, .offPin⟩,
  ⟨"AON_OTP_DATA", "data", .hub, 0x3008044, 0, 1, 0, 32, .wo, 0, .none⟩,
  ⟨"BOOT_COUNT", "count", .hub, 0x3010000, 0, 1, 0, 32, .ro, 1, .offPor⟩,
  ⟨"BOOT_COUNT_CHECK", "check", .hub, 0x3010004, 0, 1, 0, 32, .ro, 4294967294, .offPor⟩,
  ⟨"BB_HDR", "index", .hub, 0x3010008, 0, 1, 16, 8, .ro, 0, .offPin⟩,
  ⟨"BB_HDR", "written", .hub, 0x3010008, 0, 1, 0, 16, .ro, 0, .offPin⟩]

/-- Every field row of the register tables, in order of row number. -/
def regTable : List Row :=
  rowsHUB0 ++ rowsPWR0 ++ rowsPWR1 ++ rowsIRQ0 ++ rowsYRN0 ++ rowsTMR0 ++ rowsTMR1 ++ rowsCRC0 ++ rowsSEC0 ++ rowsPHY0 ++ rowsXNG0 ++ rowsMAC0 ++ rowsBF0 ++ rowsBF1 ++ rowsRF0 ++ rowsELEM0 ++ rowsTILE0 ++ rowsNBR0 ++ rowsNBR1 ++ rowsLNK0 ++ rowsPNT0 ++ rowsFLC0 ++ rowsFLC1 ++ rowsERR0 ++ rowsPMC0 ++ rowsAON0 ++ rowsAON1

end Sys2Proof.Machine
end

