-- ==== Sys2Proof/Machine/RegNames.lean ====
section
/-! DEFINITION. Machine/RegNames.lean: one name per register field of the spec's register tables, R.<REGISTER>_<field>.
An argument o names the owner of the register (tile, element, neighbour, cell, timer, cap-table region) and i its index
within the owner. The numbers are those of the rows of Machine/RegTable.lean; width and reset are the tables' own. -/

namespace Sys2Proof.Machine
namespace R

/-! ### HUB: spec/01_module_organisation.md -/

/-- HUB_ID.pontoon_index (R1). -/
abbrev HUB_ID_pontoon_index : Field := ⟨0, 0, 0, 2, 0⟩
/-- HUB_ID.part (R1). -/
abbrev HUB_ID_part : Field := ⟨1, 0, 0, 16, 1298⟩
/-- HUB_ID.silicon_rev (R1). -/
abbrev HUB_ID_silicon_rev : Field := ⟨2, 0, 0, 8, 176⟩
/-- HUB_FUNC_MODE.bits (R28). -/
abbrev HUB_FUNC_MODE_bits : Field := ⟨3, 0, 0, 8, 0⟩
/-- HUB_FUNC_STATUS.pending (R31). -/
abbrev HUB_FUNC_STATUS_pending : Field := ⟨4, 0, 0, 8, 0⟩
/-- HUB_FUNC_STATUS.effective (R31). -/
abbrev HUB_FUNC_STATUS_effective : Field := ⟨5, 0, 0, 8, 0⟩
/-- HUB_GCOMMIT.busy (R33). -/
abbrev HUB_GCOMMIT_busy : Field := ⟨6, 0, 0, 1, 0⟩
/-- HUB_GCOMMIT.skipped (R33). -/
abbrev HUB_GCOMMIT_skipped : Field := ⟨7, 0, 0, 8, 0⟩
/-- HUB_GCOMMIT.mac_nbr (R33). -/
abbrev HUB_GCOMMIT_mac_nbr : Field := ⟨8, 0, 0, 1, 0⟩
/-- HUB_GCOMMIT.xng (R33). -/
abbrev HUB_GCOMMIT_xng : Field := ⟨9, 0, 0, 1, 0⟩
/-- HUB_GCOMMIT.bf (R33). -/
abbrev HUB_GCOMMIT_bf : Field := ⟨10, 0, 0, 1, 0⟩
/-- HUB_GCOMMIT.tiles (R33). -/
abbrev HUB_GCOMMIT_tiles : Field := ⟨11, 0, 0, 8, 0⟩
/-- HUB_RETAIN.banks (R303). -/
abbrev HUB_RETAIN_banks : Field := ⟨12, 0, 0, 12, 3⟩
/-- HUB_RESET_CMD.key (R332). -/
abbrev HUB_RESET_CMD_key : Field := ⟨13, 0, 0, 8, 0⟩
/-- HUB_RESET_CMD.kind (R332). -/
abbrev HUB_RESET_CMD_kind : Field := ⟨14, 0, 0, 2, 0⟩
/-- HUB_RESET_CMD.target (R332). -/
abbrev HUB_RESET_CMD_target : Field := ⟨15, 0, 0, 7, 0⟩
/-- HUB_RESET_CAUSE.boots (R331). -/
abbrev HUB_RESET_CAUSE_boots : Field := ⟨16, 0, 0, 8, 0⟩
/-- HUB_RESET_CAUSE.cause (R331). -/
abbrev HUB_RESET_CAUSE_cause : Field := ⟨17, 0, 0, 4, 0⟩
/-- HUB_BOOT_STATUS.stage (R330). -/
abbrev HUB_BOOT_STATUS_stage : Field := ⟨18, 0, 0, 2, 0⟩
/-- HUB_BOOT_STATUS.boot_sel (R330). -/
abbrev HUB_BOOT_STATUS_boot_sel : Field := ⟨19, 0, 0, 2, 0⟩
/-- HUB_BOOT_STATUS.kind (R330). -/
abbrev HUB_BOOT_STATUS_kind : Field := ⟨20, 0, 0, 3, 0⟩
/-- HUB_BOOT_STATUS.result (R330). -/
abbrev HUB_BOOT_STATUS_result : Field := ⟨21, 0, 0, 4, 0⟩
/-- HUB_WDOG_CTRL.lock (R333). -/
abbrev HUB_WDOG_CTRL_lock : Field := ⟨22, 0, 0, 1, 0⟩
/-- HUB_WDOG_CTRL.en (R333). -/
abbrev HUB_WDOG_CTRL_en : Field := ⟨23, 0, 0, 1, 0⟩
/-- HUB_WDOG_CTRL.ms (R333). -/
abbrev HUB_WDOG_CTRL_ms : Field := ⟨24, 0, 0, 16, 1000⟩
/-- HUB_WDOG_KICK.kick (R333). -/
abbrev HUB_WDOG_KICK_kick : Field := ⟨25, 0, 0, 32, 0⟩
/-! ### PWR: spec/10_power_states_and_wake_plane.md -/

/-- PWR_VOTE.votes (R296). -/
abbrev PWR_VOTE_votes (i : Nat) : Field := ⟨26, 0, i, 32, 0⟩
/-- PWR_VOTE_SET.set (R296). -/
abbrev PWR_VOTE_SET_set (i : Nat) : Field := ⟨27, 0, i, 24, 0⟩
/-- PWR_VOTE_CLR.clear (R296). -/
abbrev PWR_VOTE_CLR_clear (i : Nat) : Field := ⟨28, 0, i, 25, 0⟩
/-- PWR_LINGER.us (R296). -/
abbrev PWR_LINGER_us (i : Nat) : Field := ⟨29, 0, i, 10, 0⟩
/-- PWR_STATE.state (R297). -/
abbrev PWR_STATE_state : Field := ⟨30, 0, 0, 3, 0⟩
/-- PWR_STATE.up (R297). -/
abbrev PWR_STATE_up : Field := ⟨31, 0, 0, 16, 1⟩
/-- PWR_TRANS.changing (R297). -/
abbrev PWR_TRANS_changing : Field := ⟨32, 0, 0, 16, 0⟩
/-- PWR_FORCE_OFF.force (R301). -/
abbrev PWR_FORCE_OFF_force : Field := ⟨33, 0, 0, 14, 0⟩
/-- PWR_CLK_GATE.gate (R302). -/
abbrev PWR_CLK_GATE_gate : Field := ⟨34, 0, 0, 13, 0⟩
/-- PWR_WOT.wot (R305). -/
abbrev PWR_WOT_wot : Field := ⟨35, 0, 0, 13, 0⟩
/-- PWR_CFG.rf_in_doze (R298). -/
abbrev PWR_CFG_rf_in_doze : Field := ⟨36, 0, 0, 1, 1⟩
/-- PWR_CFG.tt_wake (R298). -/
abbrev PWR_CFG_tt_wake : Field := ⟨37, 0, 0, 1, 1⟩
/-- PWR_UNPOWERED_CNT.count (R304). -/
abbrev PWR_UNPOWERED_CNT_count (i : Nat) : Field := ⟨38, 0, i, 32, 0⟩
/-- COEX_CFG.bell_pri (R320). -/
abbrev COEX_CFG_bell_pri : Field := ⟨39, 0, 0, 1, 0⟩
/-- COEX_CFG.cxi_en (R320). -/
abbrev COEX_CFG_cxi_en : Field := ⟨40, 0, 0, 1, 0⟩
/-- COEX_CFG.bell (R320). -/
abbrev COEX_CFG_bell : Field := ⟨41, 0, 0, 1, 0⟩
/-- COEX_CFG.rx_xng (R320). -/
abbrev COEX_CFG_rx_xng : Field := ⟨42, 0, 0, 1, 0⟩
/-- COEX_CFG.tx_xng (R320). -/
abbrev COEX_CFG_tx_xng : Field := ⟨43, 0, 0, 1, 0⟩
/-- COEX_STATUS.bell_defer (R320). -/
abbrev COEX_STATUS_bell_defer : Field := ⟨44, 0, 0, 8, 0⟩
/-- COEX_STATUS.cut (R320). -/
abbrev COEX_STATUS_cut : Field := ⟨45, 0, 0, 8, 0⟩
/-- COEX_STATUS.revoked (R320). -/
abbrev COEX_STATUS_revoked : Field := ⟨46, 0, 0, 8, 0⟩
/-- MGMT_CTRL.fast (R452). -/
abbrev MGMT_CTRL_fast : Field := ⟨47, 0, 0, 1, 0⟩
/-- MGMT_CTRL.en (R452). -/
abbrev MGMT_CTRL_en : Field := ⟨48, 0, 0, 1, 0⟩
/-- MGMT_CMD.go (R452). -/
abbrev MGMT_CMD_go : Field := ⟨49, 0, 0, 1, 0⟩
/-- MGMT_CMD.read (R452). -/
abbrev MGMT_CMD_read : Field := ⟨50, 0, 0, 1, 0⟩
/-- MGMT_CMD.dev (R452). -/
abbrev MGMT_CMD_dev : Field := ⟨51, 0, 0, 7, 0⟩
/-- MGMT_CMD.reg (R452). -/
abbrev MGMT_CMD_reg : Field := ⟨52, 0, 0, 8, 0⟩
/-- MGMT_CMD.wdata (R452). -/
abbrev MGMT_CMD_wdata : Field := ⟨53, 0, 0, 8, 0⟩
/-- MGMT_STATUS.busy (R452). -/
abbrev MGMT_STATUS_busy : Field := ⟨54, 0, 0, 1, 0⟩
/-- MGMT_STATUS.rdata (R452). -/
abbrev MGMT_STATUS_rdata : Field := ⟨55, 0, 0, 8, 0⟩
/-- MGMT_STATUS.timeout (R452). -/
abbrev MGMT_STATUS_timeout : Field := ⟨56, 0, 0, 1, 0⟩
/-- MGMT_STATUS.nack (R452). -/
abbrev MGMT_STATUS_nack : Field := ⟨57, 0, 0, 1, 0⟩
/-- TEMP.valid (R445). -/
abbrev TEMP_valid (i : Nat) : Field := ⟨58, 0, i, 1, 0⟩
/-- TEMP.alert (R445). -/
abbrev TEMP_alert (i : Nat) : Field := ⟨59, 0, i, 1, 0⟩
/-- TEMP.temp (R445). -/
abbrev TEMP_temp (i : Nat) : Field := ⟨60, 0, i, 12, 0⟩
/-- TEMP.thresh (R445). -/
abbrev TEMP_thresh (i : Nat) : Field := ⟨61, 0, i, 12, 1000⟩
/-- PWR_THERM.shut (R446). -/
abbrev PWR_THERM_shut : Field := ⟨62, 0, 0, 1, 0⟩
/-- PWR_THERM.ext (R446). -/
abbrev PWR_THERM_ext : Field := ⟨63, 0, 0, 1, 0⟩
/-- PWR_THERM.sensor (R446). -/
abbrev PWR_THERM_sensor : Field := ⟨64, 0, 0, 4, 0⟩
/-- PWR_KEEL_VOTE.vote (R227). -/
abbrev PWR_KEEL_VOTE_vote : Field := ⟨65, 0, 0, 16, 0⟩
/-- PWR_KEEL_DEFER.deferred (R228). -/
abbrev PWR_KEEL_DEFER_deferred : Field := ⟨66, 0, 0, 16, 0⟩
/-! ### IRQ: spec/09_timers_and_interrupts.md -/

/-- IRQ_ROUTE.en (R292). -/
abbrev IRQ_ROUTE_en (i : Nat) : Field := ⟨67, 0, i, 1, 0⟩
/-- IRQ_ROUTE.kind (R292). -/
abbrev IRQ_ROUTE_kind (i : Nat) : Field := ⟨68, 0, i, 2, 0⟩
/-- IRQ_ROUTE.engine (R292). -/
abbrev IRQ_ROUTE_engine (i : Nat) : Field := ⟨69, 0, i, 7, 0⟩
/-- IRQ_ROUTE.line (R292). -/
abbrev IRQ_ROUTE_line (i : Nat) : Field := ⟨70, 0, i, 3, 0⟩
/-- IRQ_ROUTE.vector (R292). -/
abbrev IRQ_ROUTE_vector (i : Nat) : Field := ⟨71, 0, i, 6, 0⟩
/-- IRQ_PEND.pend (R290). -/
abbrev IRQ_PEND_pend (i : Nat) : Field := ⟨72, 0, i, 32, 0⟩
/-- IRQ_ACTIVE.active (R290). -/
abbrev IRQ_ACTIVE_active (i : Nat) : Field := ⟨73, 0, i, 32, 0⟩
/-- IRQ_SET.source (R290). -/
abbrev IRQ_SET_source : Field := ⟨74, 0, 0, 9, 0⟩
/-- IRQ_EOI.source (R291). -/
abbrev IRQ_EOI_source : Field := ⟨75, 0, 0, 9, 0⟩
/-- IRQ_SPURIOUS_EOI.count (R291). -/
abbrev IRQ_SPURIOUS_EOI_count : Field := ⟨76, 0, 0, 32, 0⟩
/-- IRQ_HOLDOFF.running (R293). -/
abbrev IRQ_HOLDOFF_running (i : Nat) : Field := ⟨77, 0, i, 1, 0⟩
/-- IRQ_HOLDOFF.us (R293). -/
abbrev IRQ_HOLDOFF_us (i : Nat) : Field := ⟨78, 0, i, 16, 0⟩
/-- IRQ_YSEL.sel (R288). -/
abbrev IRQ_YSEL_sel (i : Nat) : Field := ⟨79, 0, i, 8, 255⟩
/-! ### YRN: spec/08_check_values_and_yarns.md -/

/-- YRN_SEEN.seen (R269). -/
abbrev YRN_SEEN_seen (i : Nat) : Field := ⟨80, 0, i, 32, 0⟩
/-- YRN_FIRE.fire (R269). -/
abbrev YRN_FIRE_fire (i : Nat) : Field := ⟨81, 0, i, 32, 0⟩
/-- YRN_IMPORT.ovr (R268). -/
abbrev YRN_IMPORT_ovr (i : Nat) : Field := ⟨82, 0, i, 1, 0⟩
/-- YRN_IMPORT.tile (R268). -/
abbrev YRN_IMPORT_tile (i : Nat) : Field := ⟨83, 0, i, 3, 0⟩
/-- YRN_IMPORT.sel (R268). -/
abbrev YRN_IMPORT_sel (i : Nat) : Field := ⟨84, 0, i, 8, 255⟩
/-- YRN_CELL_IN.d (R271). -/
abbrev YRN_CELL_IN_d (o : Nat) : Field := ⟨85, o, 0, 8, 255⟩
/-- YRN_CELL_IN.c (R271). -/
abbrev YRN_CELL_IN_c (o : Nat) : Field := ⟨86, o, 0, 8, 255⟩
/-- YRN_CELL_IN.b (R271). -/
abbrev YRN_CELL_IN_b (o : Nat) : Field := ⟨87, o, 0, 8, 255⟩
/-- YRN_CELL_IN.a (R271). -/
abbrev YRN_CELL_IN_a (o : Nat) : Field := ⟨88, o, 0, 8, 255⟩
/-- YRN_CELL_CFG.lut (R270). -/
abbrev YRN_CELL_CFG_lut (o : Nat) : Field := ⟨89, o, 0, 16, 0⟩
/-- YRN_CELL_CFG.clk (R270). -/
abbrev YRN_CELL_CFG_clk (o : Nat) : Field := ⟨90, o, 0, 8, 255⟩
/-- YRN_CELL_CFG.edge (R270). -/
abbrev YRN_CELL_CFG_edge (o : Nat) : Field := ⟨91, o, 0, 2, 0⟩
/-- YRN_CELL_CFG.filt (R270). -/
abbrev YRN_CELL_CFG_filt (o : Nat) : Field := ⟨92, o, 0, 5, 0⟩
/-- YRN_CELL_CTRL.en (R272). -/
abbrev YRN_CELL_CTRL_en (o : Nat) : Field := ⟨93, o, 0, 1, 0⟩
/-- YRN_CELL_STAT.s (R270). -/
abbrev YRN_CELL_STAT_s (o : Nat) : Field := ⟨94, o, 0, 1, 0⟩
/-- YRN_CELL_STAT.level (R270). -/
abbrev YRN_CELL_STAT_level (o : Nat) : Field := ⟨95, o, 0, 1, 0⟩
/-- YRN_GP.pin (R273). -/
abbrev YRN_GP_pin (i : Nat) : Field := ⟨96, 0, i, 1, 0⟩
/-- YRN_GP.ovr (R273). -/
abbrev YRN_GP_ovr (i : Nat) : Field := ⟨97, 0, i, 1, 0⟩
/-- YRN_GP.out_val (R273). -/
abbrev YRN_GP_out_val (i : Nat) : Field := ⟨98, 0, i, 1, 0⟩
/-- YRN_GP.sel (R273). -/
abbrev YRN_GP_sel (i : Nat) : Field := ⟨99, 0, i, 8, 255⟩
/-- YRN_GP.out_src (R273). -/
abbrev YRN_GP_out_src (i : Nat) : Field := ⟨100, 0, i, 3, 0⟩
/-- YRN_GP.edge (R273). -/
abbrev YRN_GP_edge (i : Nat) : Field := ⟨101, 0, i, 2, 0⟩
/-- YRN_GP.dir (R273). -/
abbrev YRN_GP_dir (i : Nat) : Field := ⟨102, 0, i, 2, 0⟩
/-! ### TMR: spec/09_timers_and_interrupts.md -/

/-- TMR_CTRL.clk (R276). -/
abbrev TMR_CTRL_clk (o : Nat) : Field := ⟨103, o, 0, 2, 1⟩
/-- TMR_CTRL.evt (R276). -/
abbrev TMR_CTRL_evt (o : Nat) : Field := ⟨104, o, 0, 2, 0⟩
/-- TMR_CTRL.oneshot (R276). -/
abbrev TMR_CTRL_oneshot (o : Nat) : Field := ⟨105, o, 0, 1, 0⟩
/-- TMR_CTRL.en (R276). -/
abbrev TMR_CTRL_en (o : Nat) : Field := ⟨106, o, 0, 1, 0⟩
/-- TMR_SEL.cap_sel (R280). -/
abbrev TMR_SEL_cap_sel (o : Nat) : Field := ⟨107, o, 0, 8, 255⟩
/-- TMR_SEL.trig_sel (R280). -/
abbrev TMR_SEL_trig_sel (o : Nat) : Field := ⟨108, o, 0, 8, 255⟩
/-- TMR_SEL.clk_sel (R280). -/
abbrev TMR_SEL_clk_sel (o : Nat) : Field := ⟨109, o, 0, 8, 255⟩
/-- TMR_RELOAD.reload (R277). -/
abbrev TMR_RELOAD_reload (o : Nat) : Field := ⟨110, o, 0, 32, 0⟩
/-- TMR_CMP_PRE.cmp (R277). -/
abbrev TMR_CMP_PRE_cmp (o : Nat) : Field := ⟨111, o, 0, 32, 4294967295⟩
/-- TMR_COUNT.count (R277). -/
abbrev TMR_COUNT_count (o : Nat) : Field := ⟨112, o, 0, 32, 0⟩
/-- TMR_CMP.cmp (R277). -/
abbrev TMR_CMP_cmp (o : Nat) : Field := ⟨113, o, 0, 32, 4294967295⟩
/-- TMR_CAP.cap (R280). -/
abbrev TMR_CAP_cap (o : Nat) : Field := ⟨114, o, 0, 32, 0⟩
/-- TMR_STATUS.noclk (R276). -/
abbrev TMR_STATUS_noclk (o : Nat) : Field := ⟨115, o, 0, 1, 0⟩
/-- TMR_STATUS.cap_ovr (R276). -/
abbrev TMR_STATUS_cap_ovr (o : Nat) : Field := ⟨116, o, 0, 1, 0⟩
/-- TMR_STATUS.cap_full (R276). -/
abbrev TMR_STATUS_cap_full (o : Nat) : Field := ⟨117, o, 0, 1, 0⟩
/-- TMR_W_CTRL.mode (R283). -/
abbrev TMR_W_CTRL_mode (i : Nat) : Field := ⟨118, 0, i, 1, 0⟩
/-- TMR_W_CTRL.clk (R283). -/
abbrev TMR_W_CTRL_clk (i : Nat) : Field := ⟨119, 0, i, 2, 1⟩
/-- TMR_W_CTRL.evt (R283). -/
abbrev TMR_W_CTRL_evt (i : Nat) : Field := ⟨120, 0, i, 2, 0⟩
/-- TMR_W_CTRL.oneshot (R283). -/
abbrev TMR_W_CTRL_oneshot (i : Nat) : Field := ⟨121, 0, i, 1, 0⟩
/-- TMR_W_CTRL.en (R283). -/
abbrev TMR_W_CTRL_en (i : Nat) : Field := ⟨122, 0, i, 1, 0⟩
/-- TMR_W_SEL.cap_sel (R283). -/
abbrev TMR_W_SEL_cap_sel (i : Nat) : Field := ⟨123, 0, i, 8, 255⟩
/-- TMR_W_SEL.trig_sel (R283). -/
abbrev TMR_W_SEL_trig_sel (i : Nat) : Field := ⟨124, 0, i, 8, 255⟩
/-- TMR_W_SEL.clk_sel (R283). -/
abbrev TMR_W_SEL_clk_sel (i : Nat) : Field := ⟨125, 0, i, 8, 255⟩
/-- TMR_W_RELOAD_LO.reload (R283). -/
abbrev TMR_W_RELOAD_LO_reload (i : Nat) : Field := ⟨126, 0, i, 32, 0⟩
/-- TMR_W_RELOAD_HI.reload (R283). -/
abbrev TMR_W_RELOAD_HI_reload (i : Nat) : Field := ⟨127, 0, i, 16, 0⟩
/-- TMR_W_CMP_PRE_LO.cmp (R283). -/
abbrev TMR_W_CMP_PRE_LO_cmp (i : Nat) : Field := ⟨128, 0, i, 32, 4294967295⟩
/-- TMR_W_CMP_PRE_HI.cmp (R283). -/
abbrev TMR_W_CMP_PRE_HI_cmp (i : Nat) : Field := ⟨129, 0, i, 16, 65535⟩
/-- TMR_W_COUNT_LO.count (R283). -/
abbrev TMR_W_COUNT_LO_count (i : Nat) : Field := ⟨130, 0, i, 32, 0⟩
/-- TMR_W_COUNT_HI.count (R283). -/
abbrev TMR_W_COUNT_HI_count (i : Nat) : Field := ⟨131, 0, i, 16, 0⟩
/-- TMR_W_CMP_LO.cmp (R283). -/
abbrev TMR_W_CMP_LO_cmp (i : Nat) : Field := ⟨132, 0, i, 32, 4294967295⟩
/-- TMR_W_CMP_HI.cmp (R283). -/
abbrev TMR_W_CMP_HI_cmp (i : Nat) : Field := ⟨133, 0, i, 16, 65535⟩
/-- TMR_W_CAP_LO.cap (R283). -/
abbrev TMR_W_CAP_LO_cap (i : Nat) : Field := ⟨134, 0, i, 32, 0⟩
/-- TMR_W_CAP_HI.cap (R283). -/
abbrev TMR_W_CAP_HI_cap (i : Nat) : Field := ⟨135, 0, i, 16, 0⟩
/-- TMR_W_STATUS.noclk (R283). -/
abbrev TMR_W_STATUS_noclk (i : Nat) : Field := ⟨136, 0, i, 1, 0⟩
/-- TMR_W_STATUS.cap_ovr (R283). -/
abbrev TMR_W_STATUS_cap_ovr (i : Nat) : Field := ⟨137, 0, i, 1, 0⟩
/-- TMR_W_STATUS.cap_full (R283). -/
abbrev TMR_W_STATUS_cap_full (i : Nat) : Field := ⟨138, 0, i, 1, 0⟩
/-- TMR_TSI_LO.ticks (R286). -/
abbrev TMR_TSI_LO_ticks : Field := ⟨139, 0, 0, 32, 0⟩
/-- TMR_TSI_HI.ticks (R286). -/
abbrev TMR_TSI_HI_ticks : Field := ⟨140, 0, 0, 32, 0⟩
/-- TMR_TSI_STAT.ovw (R286). -/
abbrev TMR_TSI_STAT_ovw : Field := ⟨141, 0, 0, 1, 0⟩
/-- TMR_TSI_STAT.full (R286). -/
abbrev TMR_TSI_STAT_full : Field := ⟨142, 0, 0, 1, 0⟩
/-- TMR_TSO_CTRL.width (R287). -/
abbrev TMR_TSO_CTRL_width : Field := ⟨143, 0, 0, 8, 100⟩
/-- TMR_TSO_CTRL.en (R287). -/
abbrev TMR_TSO_CTRL_en : Field := ⟨144, 0, 0, 1, 0⟩
/-! ### CRC: spec/08_check_values_and_yarns.md -/

/-- CRC_INL_FAIL.count (R258). -/
abbrev CRC_INL_FAIL_count (i : Nat) : Field := ⟨145, 0, i, 32, 0⟩
/-- CRC_CFG.busy (R260). -/
abbrev CRC_CFG_busy (i : Nat) : Field := ⟨146, 0, i, 1, 0⟩
/-- CRC_CFG.poly8 (R260). -/
abbrev CRC_CFG_poly8 (i : Nat) : Field := ⟨147, 0, i, 8, 7⟩
/-- CRC_CFG.poly (R260). -/
abbrev CRC_CFG_poly (i : Nat) : Field := ⟨148, 0, i, 2, 0⟩
/-- CRC_STATE.state (R260). -/
abbrev CRC_STATE_state (i : Nat) : Field := ⟨149, 0, i, 32, 4294967295⟩
/-- CRC_XOROUT.xorout (R260). -/
abbrev CRC_XOROUT_xorout (i : Nat) : Field := ⟨150, 0, i, 32, 4294967295⟩
/-- CRC_RESULT.result (R260). -/
abbrev CRC_RESULT_result (i : Nat) : Field := ⟨151, 0, i, 32, 0⟩
/-- CRC_FEED_B.data (R259). -/
abbrev CRC_FEED_B_data (i : Nat) : Field := ⟨152, 0, i, 8, 0⟩
/-- CRC_FEED_H.data (R259). -/
abbrev CRC_FEED_H_data (i : Nat) : Field := ⟨153, 0, i, 16, 0⟩
/-- CRC_FEED_W.data (R259). -/
abbrev CRC_FEED_W_data (i : Nat) : Field := ⟨154, 0, i, 32, 0⟩
/-! ### SEC: spec/07_security_keel_and_cipher.md -/

/-- SEC_STATUS.cipher_hold (R244). -/
abbrev SEC_STATUS_cipher_hold : Field := ⟨155, 0, 0, 1, 0⟩
/-- SEC_STATUS.reduced_masking (R244). -/
abbrev SEC_STATUS_reduced_masking : Field := ⟨156, 0, 0, 1, 1⟩
/-- SEC_STATUS.rng (R244). -/
abbrev SEC_STATUS_rng : Field := ⟨157, 0, 0, 3, 0⟩
/-- SEC_DENY_COUNT.count (R225). -/
abbrev SEC_DENY_COUNT_count : Field := ⟨158, 0, 0, 32, 0⟩
/-- SEC_DENY_LAST.addr (R225). -/
abbrev SEC_DENY_LAST_addr : Field := ⟨159, 0, 0, 32, 0⟩
/-- SEC_POLICY.lock (R237). -/
abbrev SEC_POLICY_lock : Field := ⟨160, 0, 0, 1, 0⟩
/-- SEC_POLICY.cipher_hold_until_rng (R237). -/
abbrev SEC_POLICY_cipher_hold_until_rng : Field := ⟨161, 0, 0, 1, 0⟩
/-- SEC_POLICY.cm_level (R237). -/
abbrev SEC_POLICY_cm_level : Field := ⟨162, 0, 0, 2, 3⟩
/-- SEC_KEY_DATA.key (R239). -/
abbrev SEC_KEY_DATA_key (i : Nat) : Field := ⟨163, 0, i, 32, 0⟩
/-- SEC_KEY_SALT.salt (R239). -/
abbrev SEC_KEY_SALT_salt : Field := ⟨164, 0, 0, 32, 0⟩
/-- SEC_KEY_LIMIT.limit_m1 (R239). -/
abbrev SEC_KEY_LIMIT_limit_m1 : Field := ⟨165, 0, 0, 32, 4294967295⟩
/-- SEC_KEY_WARN.warn (R239). -/
abbrev SEC_KEY_WARN_warn : Field := ⟨166, 0, 0, 32, 4026531840⟩
/-- SEC_KEY_CMD.op (R239). -/
abbrev SEC_KEY_CMD_op : Field := ⟨167, 0, 0, 2, 0⟩
/-- SEC_KEY_CMD.len256 (R239). -/
abbrev SEC_KEY_CMD_len256 : Field := ⟨168, 0, 0, 1, 0⟩
/-- SEC_KEY_CMD.slot (R239). -/
abbrev SEC_KEY_CMD_slot : Field := ⟨169, 0, 0, 8, 0⟩
/-- SEC_KEY_CMD_ID.key_id (R239). -/
abbrev SEC_KEY_CMD_ID_key_id : Field := ⟨170, 0, 0, 8, 0⟩
/-- SEC_KEY_STATUS.busy (R239). -/
abbrev SEC_KEY_STATUS_busy : Field := ⟨171, 0, 0, 1, 0⟩
/-- SEC_KEY_STATUS.result (R239). -/
abbrev SEC_KEY_STATUS_result : Field := ⟨172, 0, 0, 2, 0⟩
/-- SEC_KEY_EVT_WARN.warn (R238). -/
abbrev SEC_KEY_EVT_WARN_warn (i : Nat) : Field := ⟨173, 0, i, 32, 0⟩
/-- SEC_KEY_EVT_SPENT.spent (R238). -/
abbrev SEC_KEY_EVT_SPENT_spent (i : Nat) : Field := ⟨174, 0, i, 32, 0⟩
/-- SEC_SLOT0.len256 (R238). -/
abbrev SEC_SLOT0_len256 (i : Nat) : Field := ⟨175, 0, i, 1, 0⟩
/-- SEC_SLOT0.state (R238). -/
abbrev SEC_SLOT0_state (i : Nat) : Field := ⟨176, 0, i, 2, 0⟩
/-- SEC_SLOT0.key_id (R238). -/
abbrev SEC_SLOT0_key_id (i : Nat) : Field := ⟨177, 0, i, 8, 0⟩
/-- SEC_SLOT1.count (R238). -/
abbrev SEC_SLOT1_count (i : Nat) : Field := ⟨178, 0, i, 32, 0⟩
/-- SEC_RNG_CTRL.restart (R244). -/
abbrev SEC_RNG_CTRL_restart : Field := ⟨179, 0, 0, 1, 0⟩
/-- SEC_RNG_FAILS.count (R244). -/
abbrev SEC_RNG_FAILS_count : Field := ⟨180, 0, 0, 16, 0⟩
/-! ### PHY: spec/04_vuavo_phy.md -/

/-- PHY_LEAD_CFG.salt (R120). -/
abbrev PHY_LEAD_CFG_salt : Field := ⟨181, 0, 0, 4, 0⟩
/-- PHY_LEAD_CFG.search (R120). -/
abbrev PHY_LEAD_CFG_search : Field := ⟨182, 0, 0, 8, 40⟩
/-- PHY_LEAD_CFG.thresh (R120). -/
abbrev PHY_LEAD_CFG_thresh : Field := ⟨183, 0, 0, 8, 96⟩
/-- PHY_DEC_CFG.press (R130). -/
abbrev PHY_DEC_CFG_press : Field := ⟨184, 0, 0, 6, 16⟩
/-- PHY_DEC_CFG.max_iter (R130). -/
abbrev PHY_DEC_CFG_max_iter : Field := ⟨185, 0, 0, 5, 12⟩
/-- PHY_POOL_STATUS.capped (R130). -/
abbrev PHY_POOL_STATUS_capped : Field := ⟨186, 0, 0, 16, 0⟩
/-- PHY_POOL_STATUS.peak (R130). -/
abbrev PHY_POOL_STATUS_peak : Field := ⟨187, 0, 0, 7, 0⟩
/-- PHY_POOL_STATUS.depth (R130). -/
abbrev PHY_POOL_STATUS_depth : Field := ⟨188, 0, 0, 7, 0⟩
/-- PHY_SOFT_BEAMS.slots (R140). -/
abbrev PHY_SOFT_BEAMS_slots : Field := ⟨189, 0, 0, 16, 0⟩
/-- PHY_SOFT_CFG.class (R141). -/
abbrev PHY_SOFT_CFG_class : Field := ⟨190, 0, 0, 3, 7⟩
/-- PHY_SOFT_STATUS.bad_mask (R142). -/
abbrev PHY_SOFT_STATUS_bad_mask : Field := ⟨191, 0, 0, 1, 0⟩
/-- PHY_SOFT_STATUS.drop (R142). -/
abbrev PHY_SOFT_STATUS_drop : Field := ⟨192, 0, 0, 16, 0⟩
/-- PHY_RPT_PTR.ovf (R138). -/
abbrev PHY_RPT_PTR_ovf : Field := ⟨193, 0, 0, 1, 0⟩
/-- PHY_RPT_PTR.rd (R138). -/
abbrev PHY_RPT_PTR_rd : Field := ⟨194, 0, 0, 8, 0⟩
/-- PHY_RPT_PTR.wr (R138). -/
abbrev PHY_RPT_PTR_wr : Field := ⟨195, 0, 0, 8, 0⟩
/-- PHY_CNT.count (R138). -/
abbrev PHY_CNT_count (i : Nat) : Field := ⟨196, 0, i, 32, 0⟩
/-! ### XNG: spec/05_timetable_crossings_neighbours.md -/

/-- XNG_CTRL.vote_lead (R147). -/
abbrev XNG_CTRL_vote_lead : Field := ⟨197, 0, 0, 10, 200⟩
/-- XNG_CTRL.auto_preload (R147). -/
abbrev XNG_CTRL_auto_preload : Field := ⟨198, 0, 0, 1, 1⟩
/-- XNG_CTRL.enable (R147). -/
abbrev XNG_CTRL_enable : Field := ⟨199, 0, 0, 1, 0⟩
/-- XNG_COMMIT.pending (R145). -/
abbrev XNG_COMMIT_pending : Field := ⟨200, 0, 0, 1, 0⟩
/-- XNG_COMMIT.live (R145). -/
abbrev XNG_COMMIT_live : Field := ⟨201, 0, 0, 1, 0⟩
/-- XNG_COMMIT.image (R145). -/
abbrev XNG_COMMIT_image : Field := ⟨202, 0, 0, 1, 0⟩
/-- XNG_COMMIT.go (R145). -/
abbrev XNG_COMMIT_go : Field := ⟨203, 0, 0, 1, 0⟩
/-- XNG_STATUS.window (R145). -/
abbrev XNG_STATUS_window : Field := ⟨204, 0, 0, 12, 0⟩
/-- XNG_STATUS.cycle (R145). -/
abbrev XNG_STATUS_cycle : Field := ⟨205, 0, 0, 16, 0⟩
/-- XNG_WINDOW_BASE.base (R144). -/
abbrev XNG_WINDOW_BASE_base (i : Nat) : Field := ⟨206, 0, i, 28, 0⟩
/-- XNG_WINDOW_COUNT.count (R144). -/
abbrev XNG_WINDOW_COUNT_count (i : Nat) : Field := ⟨207, 0, i, 17, 0⟩
/-- XNG_PUSH_BASE.base (R158). -/
abbrev XNG_PUSH_BASE_base : Field := ⟨208, 0, 0, 27, 0⟩
/-- XNG_PUSH_PTR.refused (R158). -/
abbrev XNG_PUSH_PTR_refused : Field := ⟨209, 0, 0, 1, 0⟩
/-- XNG_PUSH_PTR.wr (R158). -/
abbrev XNG_PUSH_PTR_wr : Field := ⟨210, 0, 0, 8, 0⟩
/-- XNG_PUSH_PTR.rd (R158). -/
abbrev XNG_PUSH_PTR_rd : Field := ⟨211, 0, 0, 8, 0⟩
/-- XNG_SKIP_PTR.ovf (R161). -/
abbrev XNG_SKIP_PTR_ovf : Field := ⟨212, 0, 0, 1, 0⟩
/-- XNG_SKIP_PTR.rd (R161). -/
abbrev XNG_SKIP_PTR_rd : Field := ⟨213, 0, 0, 8, 0⟩
/-- XNG_SKIP_PTR.wr (R161). -/
abbrev XNG_SKIP_PTR_wr : Field := ⟨214, 0, 0, 8, 0⟩
/-- XNG_SKIP_CNT.count (R161). -/
abbrev XNG_SKIP_CNT_count (i : Nat) : Field := ⟨215, 0, i, 32, 0⟩
/-! ### MAC: spec/05_timetable_crossings_neighbours.md -/

/-- MAC_NBR_COMMIT.pending (R182). -/
abbrev MAC_NBR_COMMIT_pending : Field := ⟨216, 0, 0, 1, 0⟩
/-- MAC_NBR_COMMIT.go (R182). -/
abbrev MAC_NBR_COMMIT_go : Field := ⟨217, 0, 0, 1, 0⟩
/-- MAC_NBR_SEL.nbrs (R182). -/
abbrev MAC_NBR_SEL_nbrs (i : Nat) : Field := ⟨218, 0, i, 32, 0⟩
/-- MAC_CFG.short (R166). -/
abbrev MAC_CFG_short : Field := ⟨219, 0, 0, 16, 0⟩
/-- MAC_NODE_ID_LO.node_id (R181). -/
abbrev MAC_NODE_ID_LO_node_id : Field := ⟨220, 0, 0, 32, 0⟩
/-- MAC_NODE_ID_HI.node_id (R181). -/
abbrev MAC_NODE_ID_HI_node_id : Field := ⟨221, 0, 0, 16, 0⟩
/-- MAC_TIME_CTRL.tau (R178). -/
abbrev MAC_TIME_CTRL_tau : Field := ⟨222, 0, 0, 4, 4⟩
/-- MAC_TIME_CTRL.p (R178). -/
abbrev MAC_TIME_CTRL_p : Field := ⟨223, 0, 0, 4, 4⟩
/-- MAC_TIME_CTRL.b (R178). -/
abbrev MAC_TIME_CTRL_b : Field := ⟨224, 0, 0, 4, 6⟩
/-- MAC_TIME_CTRL.a (R178). -/
abbrev MAC_TIME_CTRL_a : Field := ⟨225, 0, 0, 4, 3⟩
/-- MAC_TIME_CTRL.step_ok (R178). -/
abbrev MAC_TIME_CTRL_step_ok : Field := ⟨226, 0, 0, 1, 0⟩
/-- MAC_TIME_CTRL.src_pps (R178). -/
abbrev MAC_TIME_CTRL_src_pps : Field := ⟨227, 0, 0, 1, 0⟩
/-- MAC_TIME_CTRL.parent_en (R178). -/
abbrev MAC_TIME_CTRL_parent_en : Field := ⟨228, 0, 0, 1, 0⟩
/-- MAC_TIME_CTRL.parent (R178). -/
abbrev MAC_TIME_CTRL_parent : Field := ⟨229, 0, 0, 6, 0⟩
/-- MAC_TIME_SLEW.ppb (R178). -/
abbrev MAC_TIME_SLEW_ppb : Field := ⟨230, 0, 0, 32, 0⟩
/-- MAC_TIME_STEP.ticks (R180). -/
abbrev MAC_TIME_STEP_ticks (i : Nat) : Field := ⟨231, 0, i, 32, 0⟩
/-- MAC_TIME_STATUS.locked (R178). -/
abbrev MAC_TIME_STATUS_locked : Field := ⟨232, 0, 0, 1, 0⟩
/-- MAC_TIME_STATUS.ahead (R178). -/
abbrev MAC_TIME_STATUS_ahead : Field := ⟨233, 0, 0, 1, 0⟩
/-- MAC_TIME_STATUS.stepped (R178). -/
abbrev MAC_TIME_STATUS_stepped : Field := ⟨234, 0, 0, 1, 0⟩
/-- MAC_TIME_STATUS.off_p (R178). -/
abbrev MAC_TIME_STATUS_off_p : Field := ⟨235, 0, 0, 16, 0⟩
/-- MAC_EVT_LOST.nbrs (R174). -/
abbrev MAC_EVT_LOST_nbrs (i : Nat) : Field := ⟨236, 0, i, 32, 0⟩
/-- MAC_EVT_FOUND.nbrs (R174). -/
abbrev MAC_EVT_FOUND_nbrs (i : Nat) : Field := ⟨237, 0, i, 32, 0⟩
/-! ### BF: spec/03_beamforming_and_swatches.md -/

/-- BF_COMMIT.pending (R84). -/
abbrev BF_COMMIT_pending : Field := ⟨238, 0, 0, 1, 0⟩
/-- BF_COMMIT.go (R84). -/
abbrev BF_COMMIT_go : Field := ⟨239, 0, 0, 1, 0⟩
/-- BF_MUTE.poison (R97). -/
abbrev BF_MUTE_poison : Field := ⟨240, 0, 0, 16, 0⟩
/-- BF_SWAP_UNREADY.late (R91). -/
abbrev BF_SWAP_UNREADY_late : Field := ⟨241, 0, 0, 16, 0⟩
/-- BF_SWAP_UNREADY.unready (R91). -/
abbrev BF_SWAP_UNREADY_unready : Field := ⟨242, 0, 0, 16, 0⟩
/-- BF_SAT.agc (R72). -/
abbrev BF_SAT_agc : Field := ⟨243, 0, 0, 16, 0⟩
/-- BF_SAT.sum (R72). -/
abbrev BF_SAT_sum : Field := ⟨244, 0, 0, 16, 0⟩
/-- BF_PRELOAD.go (R88). -/
abbrev BF_PRELOAD_go : Field := ⟨245, 0, 0, 1, 0⟩
/-- BF_PRELOAD.dir (R88). -/
abbrev BF_PRELOAD_dir : Field := ⟨246, 0, 0, 1, 0⟩
/-- BF_PRELOAD.slot (R88). -/
abbrev BF_PRELOAD_slot : Field := ⟨247, 0, 0, 4, 0⟩
/-- BF_PRELOAD.swatch (R88). -/
abbrev BF_PRELOAD_swatch : Field := ⟨248, 0, 0, 11, 0⟩
/-- BF_SWAP_AT.delay (R90). -/
abbrev BF_SWAP_AT_delay : Field := ⟨249, 0, 0, 9, 0⟩
/-- BF_SWAP_AT.block (R90). -/
abbrev BF_SWAP_AT_block : Field := ⟨250, 0, 0, 3, 0⟩
/-- BF_SWAP_AT.window (R90). -/
abbrev BF_SWAP_AT_window : Field := ⟨251, 0, 0, 12, 0⟩
/-- BF_SWAP.slots (R90). -/
abbrev BF_SWAP_slots : Field := ⟨252, 0, 0, 16, 0⟩
/-- BF_AGC_CFG.lead_blocks (R74). -/
abbrev BF_AGC_CFG_lead_blocks : Field := ⟨253, 0, 0, 3, 2⟩
/-- BF_AGC_CFG.target (R74). -/
abbrev BF_AGC_CFG_target : Field := ⟨254, 0, 0, 12, 512⟩
/-- BF_BANK.state (R88). -/
abbrev BF_BANK_state (i : Nat) : Field := ⟨255, 0, i, 2, 0⟩
/-- BF_BANK.reason (R88). -/
abbrev BF_BANK_reason (i : Nat) : Field := ⟨256, 0, i, 4, 0⟩
/-- BF_BANK.armed (R88). -/
abbrev BF_BANK_armed (i : Nat) : Field := ⟨257, 0, i, 1, 0⟩
/-- BF_BANK.dir (R88). -/
abbrev BF_BANK_dir (i : Nat) : Field := ⟨258, 0, i, 1, 0⟩
/-- BF_BANK.active_valid (R88). -/
abbrev BF_BANK_active_valid (i : Nat) : Field := ⟨259, 0, i, 1, 0⟩
/-- BF_BANK.shadow_swatch (R88). -/
abbrev BF_BANK_shadow_swatch (i : Nat) : Field := ⟨260, 0, i, 11, 0⟩
/-- BF_BANK.active_swatch (R88). -/
abbrev BF_BANK_active_swatch (i : Nat) : Field := ⟨261, 0, i, 11, 0⟩
/-- BF_SLOT.tx_scale (R84). -/
abbrev BF_SLOT_tx_scale (i : Nat) : Field := ⟨262, 0, i, 12, 0⟩
/-- BF_SLOT.agc_fixed (R84). -/
abbrev BF_SLOT_agc_fixed (i : Nat) : Field := ⟨263, 0, i, 1, 0⟩
/-- BF_SLOT.agc_g (R84). -/
abbrev BF_SLOT_agc_g (i : Nat) : Field := ⟨264, 0, i, 7, 48⟩
/-- BF_SLOT_LIVE.tx_scale (R84). -/
abbrev BF_SLOT_LIVE_tx_scale (i : Nat) : Field := ⟨265, 0, i, 12, 0⟩
/-- BF_SLOT_LIVE.agc_fixed (R84). -/
abbrev BF_SLOT_LIVE_agc_fixed (i : Nat) : Field := ⟨266, 0, i, 1, 0⟩
/-- BF_SLOT_LIVE.agc_g (R84). -/
abbrev BF_SLOT_LIVE_agc_g (i : Nat) : Field := ⟨267, 0, i, 7, 48⟩
/-- BF_CAP_CTRL.done (R104). -/
abbrev BF_CAP_CTRL_done : Field := ⟨268, 0, 0, 1, 0⟩
/-- BF_CAP_CTRL.arm (R104). -/
abbrev BF_CAP_CTRL_arm : Field := ⟨269, 0, 0, 1, 0⟩
/-- BF_CAP_CTRL.point (R104). -/
abbrev BF_CAP_CTRL_point : Field := ⟨270, 0, 0, 1, 0⟩
/-- BF_CAP_CTRL.tiles (R104). -/
abbrev BF_CAP_CTRL_tiles : Field := ⟨271, 0, 0, 8, 255⟩
/-- BF_CAP_TIME.tick (R104). -/
abbrev BF_CAP_TIME_tick (i : Nat) : Field := ⟨272, 0, i, 32, 0⟩
/-- BF_SWEEP_PTR.ovf (R102). -/
abbrev BF_SWEEP_PTR_ovf : Field := ⟨273, 0, 0, 1, 0⟩
/-- BF_SWEEP_PTR.rd (R102). -/
abbrev BF_SWEEP_PTR_rd : Field := ⟨274, 0, 0, 8, 0⟩
/-- BF_SWEEP_PTR.wr (R102). -/
abbrev BF_SWEEP_PTR_wr : Field := ⟨275, 0, 0, 8, 0⟩
/-- BF_CLIP_COUNT.count (R99). -/
abbrev BF_CLIP_COUNT_count (i : Nat) : Field := ⟨276, 0, i, 16, 0⟩
/-- BF_TENSION_CTRL.apply (R107). -/
abbrev BF_TENSION_CTRL_apply : Field := ⟨277, 0, 0, 1, 1⟩
/-- BF_TENSION_CTRL.dtemp (R107). -/
abbrev BF_TENSION_CTRL_dtemp : Field := ⟨278, 0, 0, 8, 8⟩
/-- BF_TENSION_CTRL.period (R107). -/
abbrev BF_TENSION_CTRL_period : Field := ⟨279, 0, 0, 8, 60⟩
/-- BF_TENSION_CTRL.go (R107). -/
abbrev BF_TENSION_CTRL_go : Field := ⟨280, 0, 0, 8, 0⟩
/-- DIR0.sealed (R80). -/
abbrev DIR0_sealed (i : Nat) : Field := ⟨281, 0, i, 1, 0⟩
/-- DIR0.poisoned (R80). -/
abbrev DIR0_poisoned (i : Nat) : Field := ⟨282, 0, i, 1, 0⟩
/-- DIR0.open (R80). -/
abbrev DIR0_open (i : Nat) : Field := ⟨283, 0, i, 1, 0⟩
/-- DIR0.use (R80). -/
abbrev DIR0_use (i : Nat) : Field := ⟨284, 0, i, 2, 0⟩
/-- DIR0.tiles (R80). -/
abbrev DIR0_tiles (i : Nat) : Field := ⟨285, 0, i, 8, 0⟩
/-- DIR0.gen (R80). -/
abbrev DIR0_gen (i : Nat) : Field := ⟨286, 0, i, 16, 0⟩
/-- DIR1.e_sw (R80). -/
abbrev DIR1_e_sw (i : Nat) : Field := ⟨287, 0, i, 16, 0⟩
/-- DIR2.rx_shifts (R80). -/
abbrev DIR2_rx_shifts (i : Nat) : Field := ⟨288, 0, i, 32, 0⟩
/-- DIR3.tag (R80). -/
abbrev DIR3_tag (i : Nat) : Field := ⟨289, 0, i, 8, 0⟩
/-- DIR3.tx_shifts (R80). -/
abbrev DIR3_tx_shifts (i : Nat) : Field := ⟨290, 0, i, 24, 0⟩
/-! ### RF: spec/02_element_transceivers.md -/

/-- RF_CHAN.ch_b (R59). -/
abbrev RF_CHAN_ch_b : Field := ⟨291, 0, 0, 5, 0⟩
/-- RF_CHAN.ch_a (R59). -/
abbrev RF_CHAN_ch_a : Field := ⟨292, 0, 0, 5, 0⟩
/-- RF_CHAN.sel (R59). -/
abbrev RF_CHAN_sel : Field := ⟨293, 0, 0, 1, 0⟩
/-- RF_CHAN_STATUS.sel_pending (R59). -/
abbrev RF_CHAN_STATUS_sel_pending : Field := ⟨294, 0, 0, 1, 0⟩
/-- RF_CHAN_STATUS.bad_ch (R59). -/
abbrev RF_CHAN_STATUS_bad_ch : Field := ⟨295, 0, 0, 1, 0⟩
/-- RF_CHAN_STATUS.live_sel (R59). -/
abbrev RF_CHAN_STATUS_live_sel : Field := ⟨296, 0, 0, 1, 0⟩
/-- RF_CHAN_STATUS.lock_b (R59). -/
abbrev RF_CHAN_STATUS_lock_b : Field := ⟨297, 0, 0, 1, 0⟩
/-- RF_CHAN_STATUS.lock_a (R59). -/
abbrev RF_CHAN_STATUS_lock_a : Field := ⟨298, 0, 0, 1, 0⟩
/-- EIRP_CTRL.lock (R63). -/
abbrev EIRP_CTRL_lock : Field := ⟨299, 0, 0, 1, 0⟩
/-- EIRP_CTRL.region (R63). -/
abbrev EIRP_CTRL_region : Field := ⟨300, 0, 0, 2, 0⟩
/-- EIRP_ADJ.adj (R67). -/
abbrev EIRP_ADJ_adj : Field := ⟨301, 0, 0, 11, 0⟩
/-- EIRP_STATUS.mute (R65). -/
abbrev EIRP_STATUS_mute : Field := ⟨302, 0, 0, 16, 0⟩
/-- EIRP_STATUS.clip (R65). -/
abbrev EIRP_STATUS_clip : Field := ⟨303, 0, 0, 16, 0⟩
/-- EIRP_SLOT.muted (R65). -/
abbrev EIRP_SLOT_muted (i : Nat) : Field := ⟨304, 0, i, 1, 0⟩
/-- EIRP_SLOT.backoff (R65). -/
abbrev EIRP_SLOT_backoff (i : Nat) : Field := ⟨305, 0, i, 8, 0⟩
/-- EIRP_SLOT.eirp (R65). -/
abbrev EIRP_SLOT_eirp (i : Nat) : Field := ⟨306, 0, i, 8, 0⟩
/-- EIRP_SLOT.mask_loss (R65). -/
abbrev EIRP_SLOT_mask_loss (i : Nat) : Field := ⟨307, 0, i, 12, 0⟩
/-- EIRP_CAP.agg (R62). -/
abbrev EIRP_CAP_agg (o : Nat) (i : Nat) : Field := ⟨308, o, i, 8, 255⟩
/-- EIRP_CAP.beam (R62). -/
abbrev EIRP_CAP_beam (o : Nat) (i : Nat) : Field := ⟨309, o, i, 8, 255⟩
/-! ### ELEM: spec/02_element_transceivers.md -/

/-- ELEM_CTRL.auto_mask_dc (R39). -/
abbrev ELEM_CTRL_auto_mask_dc (o : Nat) : Field := ⟨310, o, 0, 1, 0⟩
/-- ELEM_CTRL.mask (R39). -/
abbrev ELEM_CTRL_mask (o : Nat) : Field := ⟨311, o, 0, 1, 1⟩
/-- ELEM_STATUS.armed (R53). -/
abbrev ELEM_STATUS_armed (o : Nat) : Field := ⟨312, o, 0, 1, 0⟩
/-- ELEM_STATUS.masked (R53). -/
abbrev ELEM_STATUS_masked (o : Nat) : Field := ⟨313, o, 0, 1, 1⟩
/-- ELEM_STATUS.state (R53). -/
abbrev ELEM_STATUS_state (o : Nat) : Field := ⟨314, o, 0, 2, 0⟩
/-- ELEM_STATUS.pdet_sat (R53). -/
abbrev ELEM_STATUS_pdet_sat (o : Nat) : Field := ⟨315, o, 0, 1, 0⟩
/-- ELEM_STATUS.rx_ovl (R53). -/
abbrev ELEM_STATUS_rx_ovl (o : Nat) : Field := ⟨316, o, 0, 1, 0⟩
/-- ELEM_STATUS.dc_rail (R53). -/
abbrev ELEM_STATUS_dc_rail (o : Nat) : Field := ⟨317, o, 0, 1, 0⟩
/-- ELEM_STATUS.pa_trip (R53). -/
abbrev ELEM_STATUS_pa_trip (o : Nat) : Field := ⟨318, o, 0, 1, 0⟩
/-- ELEM_RX_GAIN.lna (R39). -/
abbrev ELEM_RX_GAIN_lna (o : Nat) : Field := ⟨319, o, 0, 2, 2⟩
/-- ELEM_RX_GAIN.vga (R39). -/
abbrev ELEM_RX_GAIN_vga (o : Nat) : Field := ⟨320, o, 0, 5, 12⟩
/-- ELEM_RX_GAIN_SH.lna (R39). -/
abbrev ELEM_RX_GAIN_SH_lna (o : Nat) : Field := ⟨321, o, 0, 2, 2⟩
/-- ELEM_RX_GAIN_SH.vga (R39). -/
abbrev ELEM_RX_GAIN_SH_vga (o : Nat) : Field := ⟨322, o, 0, 5, 12⟩
/-- ELEM_CAL_RX.phase (R37). -/
abbrev ELEM_CAL_RX_phase (o : Nat) : Field := ⟨323, o, 0, 8, 0⟩
/-- ELEM_CAL_RX.gain (R37). -/
abbrev ELEM_CAL_RX_gain (o : Nat) : Field := ⟨324, o, 0, 6, 0⟩
/-- ELEM_CAL_TX.phase (R37). -/
abbrev ELEM_CAL_TX_phase (o : Nat) : Field := ⟨325, o, 0, 8, 0⟩
/-- ELEM_CAL_TX.gain (R37). -/
abbrev ELEM_CAL_TX_gain (o : Nat) : Field := ⟨326, o, 0, 6, 0⟩
/-- ELEM_DC_COARSE.q (R43). -/
abbrev ELEM_DC_COARSE_q (o : Nat) (i : Nat) : Field := ⟨327, o, i, 7, 0⟩
/-- ELEM_DC_COARSE.i (R43). -/
abbrev ELEM_DC_COARSE_i (o : Nat) (i : Nat) : Field := ⟨328, o, i, 7, 0⟩
/-- ELEM_DC_TX.q (R47). -/
abbrev ELEM_DC_TX_q (o : Nat) : Field := ⟨329, o, 0, 7, 0⟩
/-- ELEM_DC_TX.i (R47). -/
abbrev ELEM_DC_TX_i (o : Nat) : Field := ⟨330, o, 0, 7, 0⟩
/-- ELEM_DC_FINE.q (R45). -/
abbrev ELEM_DC_FINE_q (o : Nat) (i : Nat) : Field := ⟨331, o, i, 12, 0⟩
/-- ELEM_DC_FINE.i (R45). -/
abbrev ELEM_DC_FINE_i (o : Nat) (i : Nat) : Field := ⟨332, o, i, 12, 0⟩
/-- ELEM_DC_CTRL.freeze (R44). -/
abbrev ELEM_DC_CTRL_freeze (o : Nat) : Field := ⟨333, o, 0, 1, 1⟩
/-- ELEM_DC_CTRL.k (R44). -/
abbrev ELEM_DC_CTRL_k (o : Nat) : Field := ⟨334, o, 0, 5, 12⟩
/-- ELEM_PDET_TX.peak (R50). -/
abbrev ELEM_PDET_TX_peak (o : Nat) : Field := ⟨335, o, 0, 8, 0⟩
/-- ELEM_PDET_TX.last (R50). -/
abbrev ELEM_PDET_TX_last (o : Nat) : Field := ⟨336, o, 0, 8, 0⟩
/-- ELEM_PDET_RX.sat_count (R52). -/
abbrev ELEM_PDET_RX_sat_count (o : Nat) : Field := ⟨337, o, 0, 16, 0⟩
/-- ELEM_PDET_CFG.ovl (R51). -/
abbrev ELEM_PDET_CFG_ovl (o : Nat) : Field := ⟨338, o, 0, 8, 120⟩
/-- ELEM_PDET_CFG.trip (R51). -/
abbrev ELEM_PDET_CFG_trip (o : Nat) : Field := ⟨339, o, 0, 8, 100⟩
/-! ### TILE: spec/03_beamforming_and_swatches.md -/

/-- TILE_COMMIT.gc_pending (R83). -/
abbrev TILE_COMMIT_gc_pending (o : Nat) : Field := ⟨340, o, 0, 1, 0⟩
/-- TILE_COMMIT.go (R83). -/
abbrev TILE_COMMIT_go (o : Nat) : Field := ⟨341, o, 0, 1, 0⟩
/-- TILE_STATUS.poison (R91). -/
abbrev TILE_STATUS_poison (o : Nat) : Field := ⟨342, o, 0, 1, 0⟩
/-- TILE_STATUS.swap_unready (R91). -/
abbrev TILE_STATUS_swap_unready (o : Nat) : Field := ⟨343, o, 0, 16, 0⟩
/-- TILE_OPEN.count (R82). -/
abbrev TILE_OPEN_count (o : Nat) : Field := ⟨344, o, 0, 12, 0⟩
/-- TILE_SAT_COUNT.tx (R71). -/
abbrev TILE_SAT_COUNT_tx (o : Nat) : Field := ⟨345, o, 0, 16, 0⟩
/-- TILE_SAT_COUNT.rx (R71). -/
abbrev TILE_SAT_COUNT_rx (o : Nat) : Field := ⟨346, o, 0, 16, 0⟩
/-- TILE_RETAIN.banks (R303). -/
abbrev TILE_RETAIN_banks (o : Nat) : Field := ⟨347, o, 0, 8, 0⟩
/-- TILE_CAP_BASE.base (R105). -/
abbrev TILE_CAP_BASE_base (o : Nat) : Field := ⟨348, o, 0, 12, 0⟩
/-- TILE_CAP_STATUS.reason (R106). -/
abbrev TILE_CAP_STATUS_reason (o : Nat) : Field := ⟨349, o, 0, 2, 0⟩
/-- TILE_CAP_STATUS.fail (R106). -/
abbrev TILE_CAP_STATUS_fail (o : Nat) : Field := ⟨350, o, 0, 1, 0⟩
/-- TILE_CAP_STATUS.done (R106). -/
abbrev TILE_CAP_STATUS_done (o : Nat) : Field := ⟨351, o, 0, 1, 0⟩
/-- TILE_TENSION_STATUS.busy (R110). -/
abbrev TILE_TENSION_STATUS_busy (o : Nat) : Field := ⟨352, o, 0, 1, 0⟩
/-- TILE_TENSION_STATUS.reject (R110). -/
abbrev TILE_TENSION_STATUS_reject (o : Nat) : Field := ⟨353, o, 0, 1, 0⟩
/-- TILE_TENSION_STATUS.residual (R110). -/
abbrev TILE_TENSION_STATUS_residual (o : Nat) : Field := ⟨354, o, 0, 8, 0⟩
/-- TILE_TENSION_STATUS.cycles (R110). -/
abbrev TILE_TENSION_STATUS_cycles (o : Nat) : Field := ⟨355, o, 0, 16, 0⟩
/-- TILE_TENSION_SUSPECT.elems (R110). -/
abbrev TILE_TENSION_SUSPECT_elems (o : Nat) (i : Nat) : Field := ⟨356, o, i, 32, 0⟩
/-- TILE_SEAL_MAP.sealed (R82). -/
abbrev TILE_SEAL_MAP_sealed (o : Nat) (i : Nat) : Field := ⟨357, o, i, 32, 0⟩
/-- TILE_POISON_MAP.poisoned (R97). -/
abbrev TILE_POISON_MAP_poisoned (o : Nat) (i : Nat) : Field := ⟨358, o, i, 32, 0⟩
/-- TILE_YRN_SEEN.seen (R269). -/
abbrev TILE_YRN_SEEN_seen (o : Nat) : Field := ⟨359, o, 0, 32, 0⟩
/-- TILE_YRN_FIRE.fire (R269). -/
abbrev TILE_YRN_FIRE_fire (o : Nat) : Field := ⟨360, o, 0, 32, 0⟩
/-- TILE_YRN_IMPORT.ovr (R268). -/
abbrev TILE_YRN_IMPORT_ovr (o : Nat) (i : Nat) : Field := ⟨361, o, i, 1, 0⟩
/-- TILE_YRN_IMPORT.sel (R268). -/
abbrev TILE_YRN_IMPORT_sel (o : Nat) (i : Nat) : Field := ⟨362, o, i, 8, 255⟩
/-- TILE_IRQ_YSEL.sel (R288). -/
abbrev TILE_IRQ_YSEL_sel (o : Nat) (i : Nat) : Field := ⟨363, o, i, 8, 255⟩
/-! ### NBR: spec/05_timetable_crossings_neighbours.md -/

/-- NBR_NODE_LO.node_id_lo (R181). -/
abbrev NBR_NODE_LO_node_id_lo (o : Nat) : Field := ⟨364, o, 0, 32, 0⟩
/-- NBR_ADDR.short (R181). -/
abbrev NBR_ADDR_short (o : Nat) : Field := ⟨365, o, 0, 16, 0⟩
/-- NBR_ADDR.node_id_hi (R181). -/
abbrev NBR_ADDR_node_id_hi (o : Nat) : Field := ⟨366, o, 0, 16, 0⟩
/-- NBR_CFG.rx_next_ok (R181). -/
abbrev NBR_CFG_rx_next_ok (o : Nat) : Field := ⟨367, o, 0, 1, 0⟩
/-- NBR_CFG.tx_key_next (R181). -/
abbrev NBR_CFG_tx_key_next (o : Nat) : Field := ⟨368, o, 0, 1, 0⟩
/-- NBR_CFG.cipher_mode (R181). -/
abbrev NBR_CFG_cipher_mode (o : Nat) : Field := ⟨369, o, 0, 4, 0⟩
/-- NBR_CFG.lost_after (R181). -/
abbrev NBR_CFG_lost_after (o : Nat) : Field := ⟨370, o, 0, 8, 8⟩
/-- NBR_CFG.retry_limit (R181). -/
abbrev NBR_CFG_retry_limit (o : Nat) : Field := ⟨371, o, 0, 3, 3⟩
/-- NBR_CFG.tx_when_lost (R181). -/
abbrev NBR_CFG_tx_when_lost (o : Nat) : Field := ⟨372, o, 0, 1, 0⟩
/-- NBR_CFG.crc_bypass (R181). -/
abbrev NBR_CFG_crc_bypass (o : Nat) : Field := ⟨373, o, 0, 1, 0⟩
/-- NBR_CFG.cipher_bypass (R181). -/
abbrev NBR_CFG_cipher_bypass (o : Nat) : Field := ⟨374, o, 0, 1, 0⟩
/-- NBR_CFG.enabled (R181). -/
abbrev NBR_CFG_enabled (o : Nat) : Field := ⟨375, o, 0, 1, 0⟩
/-- NBR_SEED.seed_valid (R181). -/
abbrev NBR_SEED_seed_valid (o : Nat) : Field := ⟨376, o, 0, 1, 0⟩
/-- NBR_SEED.prop_seed (R181). -/
abbrev NBR_SEED_prop_seed (o : Nat) : Field := ⟨377, o, 0, 20, 0⟩
/-- NBR_LIVE.held (R181). -/
abbrev NBR_LIVE_held (o : Nat) : Field := ⟨378, o, 0, 7, 0⟩
/-- NBR_LIVE.streak (R181). -/
abbrev NBR_LIVE_streak (o : Nat) : Field := ⟨379, o, 0, 8, 0⟩
/-- NBR_LIVE.time_valid (R181). -/
abbrev NBR_LIVE_time_valid (o : Nat) : Field := ⟨380, o, 0, 1, 0⟩
/-- NBR_LIVE.rx_any (R181). -/
abbrev NBR_LIVE_rx_any (o : Nat) : Field := ⟨381, o, 0, 1, 0⟩
/-- NBR_LIVE.ack_owed (R181). -/
abbrev NBR_LIVE_ack_owed (o : Nat) : Field := ⟨382, o, 0, 1, 0⟩
/-- NBR_LIVE.spent_rx (R181). -/
abbrev NBR_LIVE_spent_rx (o : Nat) : Field := ⟨383, o, 0, 1, 0⟩
/-- NBR_LIVE.spent_tx (R181). -/
abbrev NBR_LIVE_spent_tx (o : Nat) : Field := ⟨384, o, 0, 1, 0⟩
/-- NBR_LIVE.state (R181). -/
abbrev NBR_LIVE_state (o : Nat) : Field := ⟨385, o, 0, 3, 0⟩
/-- NBR_TX_NEXT.seq (R169). -/
abbrev NBR_TX_NEXT_seq (o : Nat) : Field := ⟨386, o, 0, 32, 0⟩
/-- NBR_RX_HIGH.h (R167). -/
abbrev NBR_RX_HIGH_h (o : Nat) : Field := ⟨387, o, 0, 32, 0⟩
/-- NBR_RX_MAP.map (R167). -/
abbrev NBR_RX_MAP_map (o : Nat) (i : Nat) : Field := ⟨388, o, i, 32, 0⟩
/-- NBR_LAST_TX_SEQ.seq (R177). -/
abbrev NBR_LAST_TX_SEQ_seq (o : Nat) : Field := ⟨389, o, 0, 32, 0⟩
/-- NBR_LAST_TX_LEAD.ticks (R177). -/
abbrev NBR_LAST_TX_LEAD_ticks (o : Nat) (i : Nat) : Field := ⟨390, o, i, 32, 0⟩
/-- NBR_OFFSET.off (R176). -/
abbrev NBR_OFFSET_off (o : Nat) (i : Nat) : Field := ⟨391, o, i, 32, 0⟩
/-- NBR_DRIFT.drift (R176). -/
abbrev NBR_DRIFT_drift (o : Nat) : Field := ⟨392, o, 0, 32, 0⟩
/-- NBR_PROP.prop_valid (R177). -/
abbrev NBR_PROP_prop_valid (o : Nat) : Field := ⟨393, o, 0, 1, 0⟩
/-- NBR_PROP.prop (R177). -/
abbrev NBR_PROP_prop (o : Nat) : Field := ⟨394, o, 0, 24, 0⟩
/-- NBR_L_LAST.l (R176). -/
abbrev NBR_L_LAST_l (o : Nat) (i : Nat) : Field := ⟨395, o, i, 32, 0⟩
/-- NBR_STAT.count (R181). -/
abbrev NBR_STAT_count (o : Nat) (i : Nat) : Field := ⟨396, o, i, 32, 0⟩
/-- NBR_BC_HIGH.h (R167). -/
abbrev NBR_BC_HIGH_h (o : Nat) : Field := ⟨397, o, 0, 32, 0⟩
/-- NBR_BC_MAP.map (R167). -/
abbrev NBR_BC_MAP_map (o : Nat) (i : Nat) : Field := ⟨398, o, i, 32, 0⟩
/-- NBR_REF.swatch (R181). -/
abbrev NBR_REF_swatch (o : Nat) (i : Nat) : Field := ⟨399, o, i, 11, 0⟩
/-- SH_NODE_LO.node_id_lo (R181). -/
abbrev SH_NODE_LO_node_id_lo (o : Nat) : Field := ⟨400, o, 0, 32, 0⟩
/-- SH_ADDR.short (R181). -/
abbrev SH_ADDR_short (o : Nat) : Field := ⟨401, o, 0, 16, 0⟩
/-- SH_ADDR.node_id_hi (R181). -/
abbrev SH_ADDR_node_id_hi (o : Nat) : Field := ⟨402, o, 0, 16, 0⟩
/-- SH_CFG.rx_next_ok (R181). -/
abbrev SH_CFG_rx_next_ok (o : Nat) : Field := ⟨403, o, 0, 1, 0⟩
/-- SH_CFG.tx_key_next (R181). -/
abbrev SH_CFG_tx_key_next (o : Nat) : Field := ⟨404, o, 0, 1, 0⟩
/-- SH_CFG.cipher_mode (R181). -/
abbrev SH_CFG_cipher_mode (o : Nat) : Field := ⟨405, o, 0, 4, 0⟩
/-- SH_CFG.lost_after (R181). -/
abbrev SH_CFG_lost_after (o : Nat) : Field := ⟨406, o, 0, 8, 8⟩
/-- SH_CFG.retry_limit (R181). -/
abbrev SH_CFG_retry_limit (o : Nat) : Field := ⟨407, o, 0, 3, 3⟩
/-- SH_CFG.tx_when_lost (R181). -/
abbrev SH_CFG_tx_when_lost (o : Nat) : Field := ⟨408, o, 0, 1, 0⟩
/-- SH_CFG.crc_bypass (R181). -/
abbrev SH_CFG_crc_bypass (o : Nat) : Field := ⟨409, o, 0, 1, 0⟩
/-- SH_CFG.cipher_bypass (R181). -/
abbrev SH_CFG_cipher_bypass (o : Nat) : Field := ⟨410, o, 0, 1, 0⟩
/-- SH_CFG.enabled (R181). -/
abbrev SH_CFG_enabled (o : Nat) : Field := ⟨411, o, 0, 1, 0⟩
/-- SH_SEED.seed_valid (R181). -/
abbrev SH_SEED_seed_valid (o : Nat) : Field := ⟨412, o, 0, 1, 0⟩
/-- SH_SEED.prop_seed (R181). -/
abbrev SH_SEED_prop_seed (o : Nat) : Field := ⟨413, o, 0, 20, 0⟩
/-! ### LNK: spec/12_redra_link_and_pontoon.md -/

/-- LNK_CFG.reach (R341). -/
abbrev LNK_CFG_reach : Field := ⟨414, 0, 0, 1, 0⟩
/-- LNK_CFG.max_width (R341). -/
abbrev LNK_CFG_max_width : Field := ⟨415, 0, 0, 5, 16⟩
/-- LNK_CFG.auto_up (R341). -/
abbrev LNK_CFG_auto_up : Field := ⟨416, 0, 0, 1, 1⟩
/-- LNK_CFG.down_ok (R341). -/
abbrev LNK_CFG_down_ok : Field := ⟨417, 0, 0, 1, 0⟩
/-- LNK_CFG.idle_us (R341). -/
abbrev LNK_CFG_idle_us : Field := ⟨418, 0, 0, 8, 10⟩
/-- LNK_STATUS.state (R342). -/
abbrev LNK_STATUS_state : Field := ⟨419, 0, 0, 3, 0⟩
/-- LNK_STATUS.width (R342). -/
abbrev LNK_STATUS_width : Field := ⟨420, 0, 0, 5, 0⟩
/-- LNK_STATUS.lanes (R342). -/
abbrev LNK_STATUS_lanes : Field := ⟨421, 0, 0, 16, 0⟩
/-- LNK_ERR_CNT.count (R345). -/
abbrev LNK_ERR_CNT_count (i : Nat) : Field := ⟨422, 0, i, 32, 0⟩
/-- LNK_LATE_PTR.rd (R359). -/
abbrev LNK_LATE_PTR_rd : Field := ⟨423, 0, 0, 8, 0⟩
/-- LNK_LATE_PTR.wr (R359). -/
abbrev LNK_LATE_PTR_wr : Field := ⟨424, 0, 0, 8, 0⟩
/-- LNK_LATE_STAT.lost (R359). -/
abbrev LNK_LATE_STAT_lost : Field := ⟨425, 0, 0, 16, 0⟩
/-- LNK_LATE_FAULT0.dir (R359). -/
abbrev LNK_LATE_FAULT0_dir (i : Nat) : Field := ⟨426, 0, i, 1, 0⟩
/-- LNK_LATE_FAULT0.link (R359). -/
abbrev LNK_LATE_FAULT0_link (i : Nat) : Field := ⟨427, 0, i, 3, 0⟩
/-- LNK_LATE_FAULT0.status (R359). -/
abbrev LNK_LATE_FAULT0_status (i : Nat) : Field := ⟨428, 0, i, 4, 0⟩
/-- LNK_LATE_FAULT0.seq (R359). -/
abbrev LNK_LATE_FAULT0_seq (i : Nat) : Field := ⟨429, 0, i, 16, 0⟩
/-- LNK_LATE_FAULT1.addr (R359). -/
abbrev LNK_LATE_FAULT1_addr (i : Nat) : Field := ⟨430, 0, i, 32, 0⟩
/-- LNK_LATE_FAULT2.time (R359). -/
abbrev LNK_LATE_FAULT2_time (i : Nat) : Field := ⟨431, 0, i, 32, 0⟩
/-- LNK_LND_BASE_LO.base (R362). -/
abbrev LNK_LND_BASE_LO_base (i : Nat) : Field := ⟨432, 0, i, 26, 0⟩
/-- LNK_LND_BASE_HI.base (R362). -/
abbrev LNK_LND_BASE_HI_base (i : Nat) : Field := ⟨433, 0, i, 32, 0⟩
/-- LNK_LND_CFG.en (R362). -/
abbrev LNK_LND_CFG_en (i : Nat) : Field := ⟨434, 0, i, 1, 0⟩
/-- LNK_LND_CFG.size (R362). -/
abbrev LNK_LND_CFG_size (i : Nat) : Field := ⟨435, 0, i, 4, 6⟩
/-- LNK_LND_TAIL.tail (R362). -/
abbrev LNK_LND_TAIL_tail (i : Nat) : Field := ⟨436, 0, i, 12, 0⟩
/-- LNK_LND_HEAD.head (R362). -/
abbrev LNK_LND_HEAD_head (i : Nat) : Field := ⟨437, 0, i, 12, 0⟩
/-! ### PNT: spec/12_redra_link_and_pontoon.md -/

/-- PNT_CTRL.reach (R367). -/
abbrev PNT_CTRL_reach : Field := ⟨438, 0, 0, 1, 0⟩
/-- PNT_CTRL.peers (R367). -/
abbrev PNT_CTRL_peers : Field := ⟨439, 0, 0, 4, 0⟩
/-- PNT_CTRL.en (R367). -/
abbrev PNT_CTRL_en : Field := ⟨440, 0, 0, 1, 0⟩
/-- PNT_STATUS.primary (R367). -/
abbrev PNT_STATUS_primary : Field := ⟨441, 0, 0, 1, 0⟩
/-- PNT_STATUS.solo (R367). -/
abbrev PNT_STATUS_solo : Field := ⟨442, 0, 0, 4, 0⟩
/-- PNT_STATUS.peer (R367). -/
abbrev PNT_STATUS_peer : Field := ⟨443, 0, 0, 12, 0⟩
/-- PNT_CFG_BASE.base (R369). -/
abbrev PNT_CFG_BASE_base : Field := ⟨444, 0, 0, 30, 0⟩
/-- PNT_CFG_LEN.len (R369). -/
abbrev PNT_CFG_LEN_len : Field := ⟨445, 0, 0, 15, 0⟩
/-- PNT_DIGEST.digest (R369). -/
abbrev PNT_DIGEST_digest (i : Nat) : Field := ⟨446, 0, i, 32, 0⟩
/-- PNT_PEER_DIGEST.digest (R369). -/
abbrev PNT_PEER_DIGEST_digest (i : Nat) : Field := ⟨447, 0, i, 32, 0⟩
/-- PNT_GEN.major (R369). -/
abbrev PNT_GEN_major : Field := ⟨448, 0, 0, 8, 0⟩
/-- PNT_GEN.minor (R369). -/
abbrev PNT_GEN_minor : Field := ⟨449, 0, 0, 8, 0⟩
/-- PNT_DELAY.ticks (R368). -/
abbrev PNT_DELAY_ticks (i : Nat) : Field := ⟨450, 0, i, 16, 0⟩
/-- PNT_TIME_OFF.o (R371). -/
abbrev PNT_TIME_OFF_o : Field := ⟨451, 0, 0, 32, 0⟩
/-- PNT_SHARED.nbrs (R370). -/
abbrev PNT_SHARED_nbrs (i : Nat) : Field := ⟨452, 0, i, 32, 0⟩
/-- PNT_YIELD.nbrs (R372). -/
abbrev PNT_YIELD_nbrs (i : Nat) : Field := ⟨453, 0, i, 32, 0⟩
/-! ### FLC: spec/13_flash_calibration_update.md -/

/-- FLC_STATUS.no_table (R390). -/
abbrev FLC_STATUS_no_table : Field := ⟨454, 0, 0, 1, 0⟩
/-- FLC_STATUS.busy (R390). -/
abbrev FLC_STATUS_busy : Field := ⟨455, 0, 0, 4, 0⟩
/-- FLC_BANK.mark (R382). -/
abbrev FLC_BANK_mark (i : Nat) : Field := ⟨456, 0, i, 8, 181⟩
/-- FLC_BANK.busy (R382). -/
abbrev FLC_BANK_busy (i : Nat) : Field := ⟨457, 0, i, 1, 0⟩
/-- FLC_BANK.fail (R382). -/
abbrev FLC_BANK_fail (i : Nat) : Field := ⟨458, 0, i, 1, 0⟩
/-- FLC_BANK.refused (R382). -/
abbrev FLC_BANK_refused (i : Nat) : Field := ⟨459, 0, i, 1, 0⟩
/-- FLC_BANK.reason (R382). -/
abbrev FLC_BANK_reason (i : Nat) : Field := ⟨460, 0, i, 4, 0⟩
/-- FLC_BANK.op (R382). -/
abbrev FLC_BANK_op (i : Nat) : Field := ⟨461, 0, i, 2, 0⟩
/-- FLC_BANK.block (R382). -/
abbrev FLC_BANK_block (i : Nat) : Field := ⟨462, 0, i, 6, 0⟩
/-- FLC_BANK.status_mode (R382). -/
abbrev FLC_BANK_status_mode (i : Nat) : Field := ⟨463, 0, i, 1, 0⟩
/-- FLC_BANK.count (R382). -/
abbrev FLC_BANK_count (i : Nat) : Field := ⟨464, 0, i, 8, 0⟩
/-- FLC_STRAY.count (R381). -/
abbrev FLC_STRAY_count : Field := ⟨465, 0, 0, 32, 0⟩
/-- FLC_CALWR.count (R381). -/
abbrev FLC_CALWR_count : Field := ⟨466, 0, 0, 32, 0⟩
/-- FLC_HOLDUP_CTRL.check (R384). -/
abbrev FLC_HOLDUP_CTRL_check : Field := ⟨467, 0, 0, 1, 1⟩
/-- FLC_HOLDUP_CTRL.margin (R384). -/
abbrev FLC_HOLDUP_CTRL_margin : Field := ⟨468, 0, 0, 4, 8⟩
/-- FLC_HOLDUP_CAP.uf (R384). -/
abbrev FLC_HOLDUP_CAP_uf : Field := ⟨469, 0, 0, 16, 0⟩
/-- FLC_HOLDUP_VMIN.mv (R384). -/
abbrev FLC_HOLDUP_VMIN_mv : Field := ⟨470, 0, 0, 16, 0⟩
/-- FLC_HOLDUP_SCALE.scale (R384). -/
abbrev FLC_HOLDUP_SCALE_scale : Field := ⟨471, 0, 0, 12, 64⟩
/-- FLC_HOLDUP_LAST.code (R384). -/
abbrev FLC_HOLDUP_LAST_code : Field := ⟨472, 0, 0, 12, 0⟩
/-- FLC_HOLDUP_LAST.uj (R384). -/
abbrev FLC_HOLDUP_LAST_uj : Field := ⟨473, 0, 0, 20, 0⟩
/-- FLC_HOLDUP_REFUSED.count (R384). -/
abbrev FLC_HOLDUP_REFUSED_count : Field := ⟨474, 0, 0, 16, 0⟩
/-- FLC_INTERRUPTED.valid (R388). -/
abbrev FLC_INTERRUPTED_valid : Field := ⟨475, 0, 0, 1, 0⟩
/-- FLC_INTERRUPTED.op (R388). -/
abbrev FLC_INTERRUPTED_op : Field := ⟨476, 0, 0, 2, 0⟩
/-- FLC_INTERRUPTED.block (R388). -/
abbrev FLC_INTERRUPTED_block : Field := ⟨477, 0, 0, 8, 0⟩
/-- FLC_INTERRUPTED.page (R388). -/
abbrev FLC_INTERRUPTED_page : Field := ⟨478, 0, 0, 8, 0⟩
/-- FLC_BAD.bad (R390). -/
abbrev FLC_BAD_bad (i : Nat) : Field := ⟨479, 0, i, 32, 0⟩
/-- FLC_SL_CFG.rows (R397). -/
abbrev FLC_SL_CFG_rows : Field := ⟨480, 0, 0, 4, 4⟩
/-- FLC_SL_FAULT.valid (R397). -/
abbrev FLC_SL_FAULT_valid (i : Nat) : Field := ⟨481, 0, i, 1, 0⟩
/-- FLC_SL_FAULT.mapped (R397). -/
abbrev FLC_SL_FAULT_mapped (i : Nat) : Field := ⟨482, 0, i, 1, 0⟩
/-- FLC_SL_FAULT.column (R397). -/
abbrev FLC_SL_FAULT_column (i : Nat) : Field := ⟨483, 0, i, 9, 0⟩
/-- FLC_SL_FAULT.bit (R397). -/
abbrev FLC_SL_FAULT_bit (i : Nat) : Field := ⟨484, 0, i, 7, 0⟩
/-- FLC_CORR_CNT.count (R397). -/
abbrev FLC_CORR_CNT_count : Field := ⟨485, 0, 0, 32, 0⟩
/-- FLC_CELL_CNT.count (R397). -/
abbrev FLC_CELL_CNT_count : Field := ⟨486, 0, 0, 32, 0⟩
/-- FLC_CELL_LAST.bank (R397). -/
abbrev FLC_CELL_LAST_bank : Field := ⟨487, 0, 0, 2, 0⟩
/-- FLC_CELL_LAST.row (R397). -/
abbrev FLC_CELL_LAST_row : Field := ⟨488, 0, 0, 10, 0⟩
/-- FLC_CELL_LAST.column (R397). -/
abbrev FLC_CELL_LAST_column : Field := ⟨489, 0, 0, 9, 0⟩
/-- FLC_CELL_LAST.bit (R397). -/
abbrev FLC_CELL_LAST_bit : Field := ⟨490, 0, 0, 7, 0⟩
/-- FLC_SPARE.en (R399). -/
abbrev FLC_SPARE_en (i : Nat) : Field := ⟨491, 0, i, 1, 0⟩
/-- FLC_SPARE.fill (R399). -/
abbrev FLC_SPARE_fill (i : Nat) : Field := ⟨492, 0, i, 1, 0⟩
/-- FLC_SPARE.state (R399). -/
abbrev FLC_SPARE_state (i : Nat) : Field := ⟨493, 0, i, 2, 0⟩
/-- FLC_SPARE.column (R399). -/
abbrev FLC_SPARE_column (i : Nat) : Field := ⟨494, 0, i, 9, 0⟩
/-- FLC_SPARE.bit (R399). -/
abbrev FLC_SPARE_bit (i : Nat) : Field := ⟨495, 0, i, 7, 0⟩
/-- FLC_SPARE_UNC.words (R399). -/
abbrev FLC_SPARE_UNC_words : Field := ⟨496, 0, 0, 11, 0⟩
/-- FLC_GUARD_ADDR.bank (R397). -/
abbrev FLC_GUARD_ADDR_bank : Field := ⟨497, 0, 0, 2, 0⟩
/-- FLC_GUARD_ADDR.column (R397). -/
abbrev FLC_GUARD_ADDR_column : Field := ⟨498, 0, 0, 9, 0⟩
/-- FLC_PSPARE_ADDR.page (R389). -/
abbrev FLC_PSPARE_ADDR_page : Field := ⟨499, 0, 0, 16, 0⟩
/-! ### ERR: spec/14_errors_scrubbing_counters.md -/

/-- ERR_LOG_PTR.ovf (R414). -/
abbrev ERR_LOG_PTR_ovf : Field := ⟨500, 0, 0, 1, 0⟩
/-- ERR_LOG_PTR.rd (R414). -/
abbrev ERR_LOG_PTR_rd : Field := ⟨501, 0, 0, 6, 0⟩
/-- ERR_LOG_PTR.wr (R414). -/
abbrev ERR_LOG_PTR_wr : Field := ⟨502, 0, 0, 6, 0⟩
/-- ERR_LOG_LOST.count (R414). -/
abbrev ERR_LOG_LOST_count : Field := ⟨503, 0, 0, 32, 0⟩
/-- ERR_CNT.count (R414). -/
abbrev ERR_CNT_count (i : Nat) : Field := ⟨504, 0, i, 32, 0⟩
/-- ERR_POISON_HITS.count (R421). -/
abbrev ERR_POISON_HITS_count : Field := ⟨505, 0, 0, 32, 0⟩
/-- ERR_UNIT.active (R416). -/
abbrev ERR_UNIT_active (i : Nat) : Field := ⟨506, 0, i, 1, 0⟩
/-- ERR_UNIT.ovf (R416). -/
abbrev ERR_UNIT_ovf (i : Nat) : Field := ⟨507, 0, i, 1, 0⟩
/-- ERR_UNIT.pending (R416). -/
abbrev ERR_UNIT_pending (i : Nat) : Field := ⟨508, 0, i, 8, 0⟩
/-- ERR_UNIT.escalations (R416). -/
abbrev ERR_UNIT_escalations (i : Nat) : Field := ⟨509, 0, i, 8, 0⟩
/-- ERR_LANE.degraded (R419). -/
abbrev ERR_LANE_degraded (i : Nat) : Field := ⟨510, 0, i, 1, 0⟩
/-- ERR_LANE.lane (R419). -/
abbrev ERR_LANE_lane (i : Nat) : Field := ⟨511, 0, i, 6, 0⟩
/-- ERR_LANE.retrains (R419). -/
abbrev ERR_LANE_retrains (i : Nat) : Field := ⟨512, 0, i, 16, 0⟩
/-- ERR_SCRUB_CTRL.en (R420). -/
abbrev ERR_SCRUB_CTRL_en : Field := ⟨513, 0, 0, 6, 63⟩
/-- ERR_SCRUB_PASS.passes (R420). -/
abbrev ERR_SCRUB_PASS_passes (i : Nat) : Field := ⟨514, 0, i, 32, 0⟩
/-! ### PMC: spec/14_errors_scrubbing_counters.md -/

/-- PMC_CTRL.freeze (R431). -/
abbrev PMC_CTRL_freeze : Field := ⟨515, 0, 0, 1, 0⟩
/-- PMC_CTRL.freeze_on_ovf (R431). -/
abbrev PMC_CTRL_freeze_on_ovf : Field := ⟨516, 0, 0, 1, 0⟩
/-- PMC_CTRL.snap (R431). -/
abbrev PMC_CTRL_snap : Field := ⟨517, 0, 0, 1, 0⟩
/-- PMC_CTRL.snap_sel (R431). -/
abbrev PMC_CTRL_snap_sel : Field := ⟨518, 0, 0, 8, 255⟩
/-- PMC_OVF.ovf (R430). -/
abbrev PMC_OVF_ovf : Field := ⟨519, 0, 0, 32, 0⟩
/-- PMC_CFG.en (R429). -/
abbrev PMC_CFG_en (i : Nat) : Field := ⟨520, 0, i, 1, 0⟩
/-- PMC_CFG.sat (R429). -/
abbrev PMC_CFG_sat (i : Nat) : Field := ⟨521, 0, i, 1, 0⟩
/-- PMC_CFG.chain (R429). -/
abbrev PMC_CFG_chain (i : Nat) : Field := ⟨522, 0, i, 1, 0⟩
/-- PMC_CFG.ovf_irq (R429). -/
abbrev PMC_CFG_ovf_irq (i : Nat) : Field := ⟨523, 0, i, 1, 0⟩
/-- PMC_CFG.any (R429). -/
abbrev PMC_CFG_any (i : Nat) : Field := ⟨524, 0, i, 1, 0⟩
/-- PMC_CFG.filter (R429). -/
abbrev PMC_CFG_filter (i : Nat) : Field := ⟨525, 0, i, 8, 0⟩
/-- PMC_CFG.event (R429). -/
abbrev PMC_CFG_event (i : Nat) : Field := ⟨526, 0, i, 10, 0⟩
/-- PMC_CNT.count (R429). -/
abbrev PMC_CNT_count (i : Nat) : Field := ⟨527, 0, i, 32, 0⟩
/-- PMC_SNAP.count (R431). -/
abbrev PMC_SNAP_count (i : Nat) : Field := ⟨528, 0, i, 32, 0⟩
/-- PMC_OVF_PC.valid (R433). -/
abbrev PMC_OVF_PC_valid (i : Nat) : Field := ⟨529, 0, i, 1, 0⟩
/-- PMC_OVF_PC.engine (R433). -/
abbrev PMC_OVF_PC_engine (i : Nat) : Field := ⟨530, 0, i, 7, 0⟩
/-- PMC_OVF_PC.pc (R433). -/
abbrev PMC_OVF_PC_pc (i : Nat) : Field := ⟨531, 0, i, 16, 0⟩
/-- PMC_MARK_CTRL.en (R432). -/
abbrev PMC_MARK_CTRL_en : Field := ⟨532, 0, 0, 1, 0⟩
/-- PMC_MARK_CTRL.interval (R432). -/
abbrev PMC_MARK_CTRL_interval : Field := ⟨533, 0, 0, 4, 10⟩
/-- PMC_MARK_CTRL.thresh (R432). -/
abbrev PMC_MARK_CTRL_thresh : Field := ⟨534, 0, 0, 6, 32⟩
/-- PMC_MARK_SEL.engines (R432). -/
abbrev PMC_MARK_SEL_engines (i : Nat) : Field := ⟨535, 0, i, 32, 0⟩
/-- PMC_MARK_PTR.ovf (R432). -/
abbrev PMC_MARK_PTR_ovf : Field := ⟨536, 0, 0, 1, 0⟩
/-- PMC_MARK_PTR.rd (R432). -/
abbrev PMC_MARK_PTR_rd : Field := ⟨537, 0, 0, 6, 0⟩
/-- PMC_MARK_PTR.wr (R432). -/
abbrev PMC_MARK_PTR_wr : Field := ⟨538, 0, 0, 6, 0⟩
/-! ### AON: spec/10_power_states_and_wake_plane.md -/

/-- AON_PWR_CMD.off_arm (R310). -/
abbrev AON_PWR_CMD_off_arm : Field := ⟨539, 0, 0, 1, 0⟩
/-- AON_KEEP_CFG.resync (R311). -/
abbrev AON_KEEP_CFG_resync : Field := ⟨540, 0, 0, 1, 1⟩
/-- AON_KEEP_CFG.vigil_bias (R311). -/
abbrev AON_KEEP_CFG_vigil_bias : Field := ⟨541, 0, 0, 4, 0⟩
/-- AON_KEEP_CFG.tcxo_in_moor (R311). -/
abbrev AON_KEEP_CFG_tcxo_in_moor : Field := ⟨542, 0, 0, 1, 1⟩
/-- AON_KEEP_STATUS.slewing (R310). -/
abbrev AON_KEEP_STATUS_slewing : Field := ⟨543, 0, 0, 1, 0⟩
/-- AON_KEEP_STATUS.valid (R310). -/
abbrev AON_KEEP_STATUS_valid : Field := ⟨544, 0, 0, 1, 0⟩
/-- AON_CLK_STATUS.xtal_fail (R324). -/
abbrev AON_CLK_STATUS_xtal_fail : Field := ⟨545, 0, 0, 1, 0⟩
/-- AON_CLK_STATUS.on_xtal (R324). -/
abbrev AON_CLK_STATUS_on_xtal : Field := ⟨546, 0, 0, 1, 0⟩
/-- AON_WAKE_EN.codes (R306). -/
abbrev AON_WAKE_EN_codes : Field := ⟨547, 0, 0, 7, 4⟩
/-- AON_LATCH_EN.sources (R306). -/
abbrev AON_LATCH_EN_sources : Field := ⟨548, 0, 0, 25, 0⟩
/-- AON_WAKE_EDGE.edges (R306). -/
abbrev AON_WAKE_EDGE_edges : Field := ⟨549, 0, 0, 32, 0⟩
/-- AON_WAKE_CFG.pulse (R315). -/
abbrev AON_WAKE_CFG_pulse : Field := ⟨550, 0, 0, 8, 1⟩
/-- AON_WAKE_CFG.pnt_edge (R315). -/
abbrev AON_WAKE_CFG_pnt_edge : Field := ⟨551, 0, 0, 2, 0⟩
/-- AON_TIMER_CMP.tick (R308). -/
abbrev AON_TIMER_CMP_tick (i : Nat) : Field := ⟨552, 0, i, 32, 0⟩
/-- AON_TIMER_CTRL.en (R308). -/
abbrev AON_TIMER_CTRL_en : Field := ⟨553, 0, 0, 1, 0⟩
/-- AON_TT_WAKE.tick (R300). -/
abbrev AON_TT_WAKE_tick (i : Nat) : Field := ⟨554, 0, i, 32, 0⟩
/-- AON_WAKE_LAST.src (R307). -/
abbrev AON_WAKE_LAST_src : Field := ⟨555, 0, 0, 4, 15⟩
/-- AON_WAKE_LAST.detail (R307). -/
abbrev AON_WAKE_LAST_detail : Field := ⟨556, 0, 0, 4, 0⟩
/-- AON_WAKE_LAST.coarse (R307). -/
abbrev AON_WAKE_LAST_coarse : Field := ⟨557, 0, 0, 16, 0⟩
/-- AON_WAKE_LAST.count (R307). -/
abbrev AON_WAKE_LAST_count : Field := ⟨558, 0, 0, 8, 0⟩
/-- AON_WAKE_HIST.record (R307). -/
abbrev AON_WAKE_HIST_record (i : Nat) : Field := ⟨559, 0, i, 32, 0⟩
/-- AON_WK_CFG.lock (R312). -/
abbrev AON_WK_CFG_lock : Field := ⟨560, 0, 0, 1, 0⟩
/-- AON_WK_CFG.bcast (R312). -/
abbrev AON_WK_CFG_bcast : Field := ⟨561, 0, 0, 1, 1⟩
/-- AON_WK_CFG.band (R312). -/
abbrev AON_WK_CFG_band : Field := ⟨562, 0, 0, 1, 0⟩
/-- AON_WK_CFG.thresh (R312). -/
abbrev AON_WK_CFG_thresh : Field := ⟨563, 0, 0, 8, 64⟩
/-- AON_WK_ADDR.group (R314). -/
abbrev AON_WK_ADDR_group : Field := ⟨564, 0, 0, 16, 65535⟩
/-- AON_WK_ADDR.short (R314). -/
abbrev AON_WK_ADDR_short : Field := ⟨565, 0, 0, 16, 65535⟩
/-- AON_WK_FREQ.k_b (R312). -/
abbrev AON_WK_FREQ_k_b : Field := ⟨566, 0, 0, 16, 0⟩
/-- AON_WK_FREQ.k_a (R312). -/
abbrev AON_WK_FREQ_k_a : Field := ⟨567, 0, 0, 16, 0⟩
/-- AON_WK_RX.chan (R312). -/
abbrev AON_WK_RX_chan : Field := ⟨568, 0, 0, 4, 0⟩
/-- AON_WK_RX.en (R312). -/
abbrev AON_WK_RX_en : Field := ⟨569, 0, 0, 4, 0⟩
/-- AON_WK_STATE.states (R312). -/
abbrev AON_WK_STATE_states : Field := ⟨570, 0, 0, 8, 0⟩
/-- AON_DUTY.duty (R319). -/
abbrev AON_DUTY_duty : Field := ⟨571, 0, 0, 14, 100⟩
/-- AON_DUTY_BUCKET.ms (R319). -/
abbrev AON_DUTY_BUCKET_ms : Field := ⟨572, 0, 0, 26, 36000⟩
/-- AON_BELL_TX.target (R318). -/
abbrev AON_BELL_TX_target : Field := ⟨573, 0, 0, 16, 0⟩
/-- AON_BELL_TX.command (R318). -/
abbrev AON_BELL_TX_command : Field := ⟨574, 0, 0, 8, 0⟩
/-- AON_BELL_TX.power (R318). -/
abbrev AON_BELL_TX_power : Field := ⟨575, 0, 0, 4, 14⟩
/-- AON_BELL_TX.nowait (R318). -/
abbrev AON_BELL_TX_nowait : Field := ⟨576, 0, 0, 1, 0⟩
/-- AON_BELL_TX.chan (R318). -/
abbrev AON_BELL_TX_chan : Field := ⟨577, 0, 0, 1, 0⟩
/-- AON_BELL_TX.go (R318). -/
abbrev AON_BELL_TX_go : Field := ⟨578, 0, 0, 1, 0⟩
/-- AON_BELL_TX_STATUS.status (R318). -/
abbrev AON_BELL_TX_STATUS_status : Field := ⟨579, 0, 0, 2, 0⟩
/-- AON_BELL_LAST.target (R315). -/
abbrev AON_BELL_LAST_target : Field := ⟨580, 0, 0, 16, 0⟩
/-- AON_BELL_LAST.command (R315). -/
abbrev AON_BELL_LAST_command : Field := ⟨581, 0, 0, 8, 0⟩
/-- AON_BELL_LAST.arg (R315). -/
abbrev AON_BELL_LAST_arg : Field := ⟨582, 0, 0, 6, 0⟩
/-- AON_BELL_LAST2.resynced (R316). -/
abbrev AON_BELL_LAST2_resynced : Field := ⟨583, 0, 0, 1, 0⟩
/-- AON_BELL_LAST2.receiver (R316). -/
abbrev AON_BELL_LAST2_receiver : Field := ⟨584, 0, 0, 2, 0⟩
/-- AON_BELL_LAST2.time (R316). -/
abbrev AON_BELL_LAST2_time : Field := ⟨585, 0, 0, 16, 0⟩
/-- AON_BELL_REJ.replay (R314). -/
abbrev AON_BELL_REJ_replay : Field := ⟨586, 0, 0, 8, 0⟩
/-- AON_BELL_REJ.time (R314). -/
abbrev AON_BELL_REJ_time : Field := ⟨587, 0, 0, 8, 0⟩
/-- AON_BELL_REJ.auth (R314). -/
abbrev AON_BELL_REJ_auth : Field := ⟨588, 0, 0, 8, 0⟩
/-- AON_BELL_REJ.crc (R314). -/
abbrev AON_BELL_REJ_crc : Field := ⟨589, 0, 0, 8, 0⟩
/-- AON_BELL_RAW0.target (R317). -/
abbrev AON_BELL_RAW0_target : Field := ⟨590, 0, 0, 16, 0⟩
/-- AON_BELL_RAW0.command (R317). -/
abbrev AON_BELL_RAW0_command : Field := ⟨591, 0, 0, 8, 0⟩
/-- AON_BELL_RAW1.time (R317). -/
abbrev AON_BELL_RAW1_time : Field := ⟨592, 0, 0, 16, 0⟩
/-- AON_BELL_RAW1.tag (R317). -/
abbrev AON_BELL_RAW1_tag : Field := ⟨593, 0, 0, 16, 0⟩
/-- AON_BELL_RAW2.crc (R317). -/
abbrev AON_BELL_RAW2_crc : Field := ⟨594, 0, 0, 16, 0⟩
/-- AON_BELL_RAW2.ovw (R317). -/
abbrev AON_BELL_RAW2_ovw : Field := ⟨595, 0, 0, 1, 0⟩
/-- AON_BELL_RAW2.auth_ok (R317). -/
abbrev AON_BELL_RAW2_auth_ok : Field := ⟨596, 0, 0, 1, 0⟩
/-- AON_BELL_RAW2.crc_ok (R317). -/
abbrev AON_BELL_RAW2_crc_ok : Field := ⟨597, 0, 0, 1, 0⟩
/-- AON_HOLDUP_THR.code (R386). -/
abbrev AON_HOLDUP_THR_code : Field := ⟨598, 0, 0, 12, 0⟩
/-- AON_FLASH_OP.valid (R388). -/
abbrev AON_FLASH_OP_valid : Field := ⟨599, 0, 0, 1, 0⟩
/-- AON_FLASH_OP.op (R388). -/
abbrev AON_FLASH_OP_op : Field := ⟨600, 0, 0, 2, 0⟩
/-- AON_FLASH_OP.block (R388). -/
abbrev AON_FLASH_OP_block : Field := ⟨601, 0, 0, 8, 0⟩
/-- AON_FLASH_OP.page (R388). -/
abbrev AON_FLASH_OP_page : Field := ⟨602, 0, 0, 8, 0⟩
/-- AON_BB_CTRL.key (R428). -/
abbrev AON_BB_CTRL_key : Field := ⟨603, 0, 0, 8, 0⟩
/-- AON_BB_CTRL.clear (R428). -/
abbrev AON_BB_CTRL_clear : Field := ⟨604, 0, 0, 1, 0⟩
/-- AON_SEC_EVENT.key_loss (R230). -/
abbrev AON_SEC_EVENT_key_loss : Field := ⟨605, 0, 0, 1, 0⟩
/-- AON_BELL_KEY.key (R251). -/
abbrev AON_BELL_KEY_key (i : Nat) : Field := ⟨606, 0, i, 32, 0⟩
/-- AON_BELL_CTRL.key_valid (R251). -/
abbrev AON_BELL_CTRL_key_valid : Field := ⟨607, 0, 0, 1, 0⟩
/-- AON_BELL_CTRL.ctx (R251). -/
abbrev AON_BELL_CTRL_ctx : Field := ⟨608, 0, 0, 8, 0⟩
/-- AON_OTP_PROG.fail (R250). -/
abbrev AON_OTP_PROG_fail : Field := ⟨609, 0, 0, 1, 0⟩
/-- AON_OTP_PROG.busy (R250). -/
abbrev AON_OTP_PROG_busy : Field := ⟨610, 0, 0, 1, 0⟩
/-- AON_OTP_PROG.addr (R250). -/
abbrev AON_OTP_PROG_addr : Field := ⟨611, 0, 0, 10, 0⟩
/-- AON_OTP_DATA.data (R250). -/
abbrev AON_OTP_DATA_data : Field := ⟨612, 0, 0, 32, 0⟩
/-- BOOT_COUNT.count (R339). -/
abbrev BOOT_COUNT_count : Field := ⟨613, 0, 0, 32, 1⟩
/-- BOOT_COUNT_CHECK.check (R339). -/
abbrev BOOT_COUNT_CHECK_check : Field := ⟨614, 0, 0, 32, 4294967294⟩
/-- BB_HDR.index (R427). -/
abbrev BB_HDR_index : Field := ⟨615, 0, 0, 8, 0⟩
/-- BB_HDR.written (R427). -/
abbrev BB_HDR_written : Field := ⟨616, 0, 0, 16, 0⟩

end R
end Sys2Proof.Machine
end

