-- ==== Sys2Proof/Machine/State.lean ====
section
/-! DEFINITION. Machine/State.lean: everything the spec gives the module, as plain data. Registers live in regs (one home each,
named by Machine/RegNames.lean); the records below hold the state the chapters give beside the registers. pending is the model's
queue of waiting commands and freeCtr the model's own counter for free values. -/

namespace Sys2Proof.Machine

/-- Who advances mesh time (R21, R310). -/
inductive TimeHolder where
  | hub | keeper | stopped
  deriving DecidableEq, Repr

/-- Mesh time and the keeper (R20 to R23, R178, R311, R316, R325). -/
structure Clk where
  /-- mesh time in ticks of 0.8 ns -/
  mesh : Nat
  /-- fraction of a tick carried by the keeper, in 2^-32 tick -/
  frac : Nat
  /-- keeper increment per crystal edge, 32.32 fixed point (R21) -/
  incr : Nat
  holder : TimeHolder
  /-- slew accumulator in ppb of a tick (R178) -/
  slewAcc : Int
  /-- ticks the keeper still has to lose at 50 ppm (R316) -/
  keeperSlow : Nat
  /-- slew in force, in ppb (R178, R180) -/
  slew : Int
  /-- a forward step waiting for a window boundary with no crossing in progress: ticks, and who asked, 0 the parent's sample, 1 the host,
  2 the pontoon (R179, R180, R371) -/
  stepWait : Option (Nat × Nat)
  /-- mesh time of the last parent sample (R178) -/
  lastParent : Nat
  /-- parent samples in a row within 16 ticks (R178) -/
  lockRun : Nat
  /-- a re-alignment at −50,000 ppb is running (R371) -/
  realign : Bool
  /-- ticks of the last block, window and cycle boundary that has been acted on -/
  blockAt : Nat
  windowAt : Nat
  cycleAt : Nat
  deriving DecidableEq, Repr

/-- Where a power domain stands (R295, R296). -/
inductive DomPhase where
  | down | rising | up | linger | falling
  deriving DecidableEq, Repr

/-- Module states (Table 10.3). -/
inductive ModState where
  | run | doze | moor | vigil | off
  deriving DecidableEq, Repr

/-- The reset or wake that started the boot in progress (Table 11.2, HUB_RESET_CAUSE). -/
inductive StartKind where
  | por | pin | warm | wdog | vigilWake | offWake | bootTimeout | rail
  deriving DecidableEq, Repr

/-- Power domains, rails and the start-up sequence (chapters 10, 11, 15). -/
structure Pwr where
  dom : Vector DomPhase 16
  /-- a vote came while the domain was falling: it rises at once afterwards (R296) -/
  riseAgain : Nat
  /-- deferred deck force and gate requests (R228) -/
  deferForce : Nat
  deferGate : Nat
  mode : ModState
  pwrEn : Nat
  pwrGood : Nat
  tcxoEn : Bool
  tcxoReady : Bool
  pllLocked : Bool
  /-- rail failures in a row (R326) -/
  railFails : Nat
  /-- every rail off until WAKE_N falls or RESET_N is pulsed (R326) -/
  railsHeld : Bool
  /-- enables for which the 2 ms after they were lowered is running (R438), and those asked for within that span -/
  lowHold : Nat
  wakeHeld : Nat
  /-- the mesh tick at which the 2 ms of a lowered enable, or the 10 ms that a raised one gives its PWR_GOOD, are over; at which step 2 is tried again;
  and at which the RF rails may go low (R298, R326, R438) -/
  railEnd : Vector Nat 4
  retryAt : Nat
  rfOffAt : Nat
  xtalStable : Bool
  /-- HL_REFCLK has been detected (R19) -/
  refclk : Bool
  /-- mesh time at the last entry to DOZE (R20) -/
  dozeAt : Nat
  /-- the mesh tick at which each domain's present linger, rise or fall has lasted its time (R296, Table 10.1) -/
  spanEnd : Vector Nat 16
  deriving DecidableEq, Repr

/-- The boot in progress (chapter 11). step 0 stands for no boot running; ready for READY sent. -/
structure Boot where
  kind : StartKind
  step : Nat
  ready : Bool
  timeouts : Nat
  slipway : Bool
  /-- step 1 ended with the crystal not stable (R324) -/
  slow : Bool
  deriving DecidableEq, Repr

/-- Pins the module drives, and inputs it samples (chapters 10, 15). -/
structure Pins where
  pntId : Nat
  bootSel : Nat
  irqNLow : Bool
  thermNLow : Bool
  tsOut : Bool
  /-- the last multiple of 1 s that TS_OUT has acted on (R287) -/
  tsOutAt : Nat
  cxReq : Bool
  cxPri : Bool
  cxGnt : Bool
  cxiReq : Bool
  cxiPri : Bool
  cxiGnt : Bool
  wkTr : Bool
  /-- the mesh tick at which the present pulse of TS_OUT ends (R287) -/
  tsOutEnd : Nat
  /-- synchronised input levels and output registers of GP pins, and cycles left of each pin's pulse (R273) -/
  gpIn : Nat
  gpOut : Nat
  gpPulse : Vector Nat 16
  /-- levels F of the hub cells one cycle and two cycles ago, on their way to the pins that follow them (R273) -/
  gpCells : Nat × Nat
  holdupCode : Nat
  holdupBelow : Option Bool
  deriving DecidableEq, Repr

/-- Radio state of a tile (Table 5.5). -/
inductive Radio where
  | off | warm | idle | rx | tx
  deriving DecidableEq, Repr

/-- One weight bank of a beam slot on a tile (R87): 64 fragment words, shifts, swatch, direction and the sums of R56. -/
structure Bank where
  valid : Bool
  swatch : Nat
  /-- 0 receive, 1 transmit -/
  dir : Nat
  words : List Nat
  rxShift : Nat
  txShift : Nat
  sAll : Nat
  sLive : Nat
  deriving DecidableEq, Repr

/-- The empty bank (R96). -/
def Bank.empty : Bank := ⟨false, 0, 0, [], 0, 0, 0, 0⟩

/-- The active and the shadow bank of one slot on one tile (R87). -/
structure BankPair where
  active : Bank
  shadow : Bank
  deriving DecidableEq, Repr

/-- A tension cycle on a tile (R107 to R111). -/
structure Tension where
  /-- mesh time of its start -/
  start : Nat
  /-- passes finished, in the order of Table 3.8 -/
  passes : Nat
  /-- windows left of the pass in progress, if one runs -/
  left : Option Nat
  /-- a crossing has taken the tile since the last window boundary (R111) -/
  taken : Bool
  deriving DecidableEq, Repr

/-- One tile beyond its registers. -/
structure TileSt where
  radio : Radio
  lockA : Bool
  lockB : Bool
  /-- fragments in the open set (R82) -/
  opened : List Nat
  /-- sample and control lanes retraining (R12, R419) -/
  lanesDown : List Nat
  /-- offsets of tile sources whose messages wait for a control lane (R15, R289, R419) -/
  irqHeld : Nat
  /-- held in a TILE reset (R334) -/
  inReset : Bool
  banks : Vector BankPair 16
  /-- the tile's tension cycle; tensionWait: a cycle is to start in the next idle windows (R107, R111) -/
  tension : Option Tension
  tensionWait : Bool
  /-- mesh time and temperature (0.1 degree) of the last accepted cycle (R107) -/
  tensionLast : Nat
  tensionTemp : Int
  /-- the result store: the drifts of the last accepted cycle (R110) -/
  drifts : List Drift
  deriving DecidableEq, Repr

/-- One element beyond its registers (chapter 2). -/
structure ElemSt where
  /-- live mask taken under R39 -/
  liveMask : Bool
  /-- readings in a row above trip (R51) -/
  overs : Nat
  /-- live fine DC values in the loop as applied, 1/16 ADC LSB (R44, R45); the loop's own values with 20 more fraction bits; and the loop's values
  before its latest moves, newest first, with the tick of each move (R44) -/
  fineI : Int
  fineQ : Int
  accI : Int
  accQ : Int
  fineWas : List (Nat × Int × Int)
  /-- coarse DC codes in force on receive and ELEM_DC_TX in force on transmit, as last restored (R43, R47) -/
  coarse : Int × Int
  dcTx : Int × Int
  /-- last DAC code (R77) -/
  dac : Int × Int
  /-- trims in force: register contents of ELEM_CAL_RX and ELEM_CAL_TX as last applied (R37) -/
  calRx : Nat
  calTx : Nat
  deriving DecidableEq, Repr

/-- The hub's copy of a directory entry, taken at a preload (R87). -/
structure HubCopy where
  eSw : Int
  tiles : Nat
  rxShifts : Nat
  txShifts : Nat
  deriving DecidableEq, Repr

/-- A swap asked for or armed on a slot (R89, R90): its boundary B and its delay d, the crossing it belongs to (none for BF_SWAP), whether the hub
has armed it, and whether it is a later step of a sweep (R100). -/
structure SwapReq where
  tick : Nat
  delay : Nat
  crossing : Option Nat
  armed : Bool
  sweepStep : Bool
  deriving DecidableEq, Repr

/-- One transmit or receive frame in the PHY (chapter 4). -/
structure PhyFrame where
  nbr : Nat
  /-- its crossing's number, header blocks, extent end and ID -/
  crossing : Nat
  heads : Nat
  ends : Nat
  xid : Nat
  /-- the tiles left RX at this tick (R133) -/
  cut : Option Nat
  lead : Nat
  /-- lead start minus expected, 1/16 tick -/
  leadErr : Int
  broadcast : Bool
  cfo : Int
  snr : Nat
  agc : Nat
  /-- PHY_DEC_CFG as its slot sampled it (R143) -/
  press : Nat
  maxIter : Nat
  hdrDone : Bool
  mcs : Nat
  ncw : Nat
  lastBytes : Nat
  hdr : List Byte
  /-- blocks after the lead equalised so far, header blocks included, and codewords that have entered the queue -/
  blocks : Nat
  queued : Nat
  /-- decoded information bytes per codeword, in order of index -/
  words : List (Nat × List Byte)
  failed : Nat
  iters : Nat
  /-- exported as soft symbols; truncated; blocks held for the header; the descriptor in use: index, and records in it (R141, R142) -/
  soft : Bool
  softTrunc : Bool
  softHeld : List SoftBlock
  softDesc : Option (LandDesc × Nat × Nat)
  /-- transmit: codewords encoded, bytes handed to the PHY, the descriptor's tag, sequence, acknowledgement-only or broadcast -/
  encoded : Nat
  body : List Byte
  tag : Nat
  seq : Nat
  ackOnly : Bool
  /-- receive: the cipher pipe assigned at the header's acceptance (R232) -/
  pipe : Option Nat
  deriving DecidableEq, Repr

/-- One beam slot beyond its registers. -/
structure SlotSt where
  /-- hub copies of the directory entry of the active and the shadow bank (R87) -/
  active : Option HubCopy
  shadow : Option HubCopy
  /-- present tiles still to report for the preload in progress (R88) -/
  waiting : Nat
  /-- tiles on which a part of the swatch was written while the preload was copying it (R88, OPENED) -/
  opened : Nat
  /-- lowest failing tile so far and its reason -/
  failTile : Option (Nat × Nat)
  /-- direction of the shadow bank -/
  shadowDir : Nat
  swaps : List SwapReq
  /-- AGC code held; total power and number of samples of the sum in the block that runs, and over the lead blocks measured (R74) -/
  g : Nat
  power : Nat × Nat
  leadPower : Nat × Nat
  /-- backoff of the crossing in progress, 0.25 dB (R99) -/
  back : Nat
  /-- muted by the governor at its last evaluation (R64 step 4) -/
  muted : Bool
  /-- BF_SLOT shadow waits to go live (R84) -/
  shadowWait : Bool
  /-- poison found; the mute starts at the next block boundary (R97) -/
  muteWait : Bool
  /-- host-assisted weights and soft-symbol modes in force on this slot (R28) -/
  weightsHost : Bool
  phySoft : Bool
  /-- receive frames from their lead to their last codeword, oldest first, and the transmit frame -/
  rx : List PhyFrame
  tx : Option PhyFrame
  /-- the transmit frame whose last blocks and tail guard are still on the air, and its blocks before the tail guard (R115, R134) -/
  tail : Option (PhyFrame × Nat)
  /-- lead code in use: of the transmission in progress, or of the lead that was heard (R119, R143) -/
  code : Nat
  /-- PHY_LEAD_CFG and PHY_DEC_CFG as sampled at the expected lead start (R143) -/
  salt : Nat
  search : Nat
  thresh : Nat
  press : Nat
  maxIter : Nat
  /-- blocks of a sweep still to record, the block index and the swatch in force (R100, R102) -/
  sweepLeft : Nat
  sweepIdx : Nat
  /-- the lead of the sweep being received, reported when the sweep ends (R138) -/
  sweepLead : Option PhyFrame
  /-- last output of the beam AGC and the last beam sample sent to the tiles -/
  y : Int × Int
  xOut : Int × Int
  /-- the sum or the AGC output saturated in the block that closes (Table 3.7) -/
  sat : Bool
  deriving DecidableEq, Repr

/-- A crossing descriptor (Table 5.1). -/
structure Desc where
  valid : Bool
  mcs : Nat
  dir : Nat
  nbr : Nat
  slot : Nat
  start : Nat
  window : Nat
  hipri : Bool
  ret : Nat
  rclass : Nat
  pair : Bool
  cond : Bool
  sweep : Bool
  swatch : Nat
  len : Nat
  useRef : Bool
  ref : Nat
  xid : Nat
  user : Nat
  /-- its four words as read -/
  raw : List Nat
  deriving DecidableEq, Repr

/-- Where a crossing comes from: descriptor index of the image walked in a cycle, or a pushed crossing by its running number. -/
inductive XSrc where
  | image (cycle index : Nat)
  | pushed (num : Nat)
  deriving DecidableEq, Repr

/-- A crossing that has been fetched (Table 5.4). -/
structure Crossing where
  id : Nat
  src : XSrc
  d : Desc
  /-- mesh tick of its window start, of B0, and of the end of its extent (R149) -/
  winStart : Nat
  b0 : Nat
  ends : Nat
  /-- tiles it uses (R149) and its swatch after use_ref (R154) -/
  tiles : Nat
  swatch : Nat
  pushed : Bool
  checked : Bool
  started : Bool
  /-- transmit: tag and attempt chosen at the readiness check -/
  txTag : Option Nat
  ackOnly : Bool
  leadHeard : Bool
  searchEnded : Bool
  coexAsked : Bool
  coexHeld : Bool
  deriving DecidableEq, Repr

/-- A pushed crossing held until its fetch (R158, R159), with its running number. -/
structure Held where
  num : Nat
  d : Desc
  winStart : Nat
  deriving DecidableEq, Repr

/-- A crossing for which the timetable's vote stands (R155, R300). -/
structure XVote where
  src : XSrc
  b0 : Nat
  tiles : Nat
  /-- it needs a cipher pipe: a sweep carries no frame (R229) -/
  piped : Bool
  deriving DecidableEq, Repr

/-- The receive half of an exchange pair: expected lead start in 1/16 tick, lead detected, search ended (R173). -/
structure XPair where
  src : XSrc
  nbr : Nat
  expected : Nat
  heard : Bool
  ended : Bool
  deriving DecidableEq, Repr

/-- The crossing sequencer beyond its registers (chapter 5). -/
structure Xng where
  /-- next descriptor of the live image, the cycle it is fetched for, and the sort key of its predecessor (R144) -/
  walk : Nat
  walkCycle : Nat
  lastKey : Option (Nat × Nat × Nat)
  /-- first window start that may be fetched (R147, R179) -/
  fetchFrom : Nat
  nextId : Nat
  fetched : List Crossing
  held : List Held
  /-- committed images and the cycle boundaries they become live at, earliest first (R145) -/
  commit : List (Nat × Nat)
  votes : List XVote
  pairs : List XPair
  /-- scheduling mode in force (R28), value sampled at window 4095, and time mode likewise -/
  hostSched : Bool
  sampledSched : Bool
  hostTime : Bool
  sampledTime : Bool
  /-- MAC_TIME_SLEW and MAC_TIME_STEP as sampled at window 4095 (R180) -/
  sampledSlew : Int
  sampledStep : Nat
  /-- crossings ended at the latest end of an extent: end tick, tiles, return state (R156) -/
  lastEnds : List (Nat × Nat × Nat)
  /-- sweep sequence modulo 1,024 (Table 3.7) -/
  sweepSeq : Nat
  deriving DecidableEq, Repr

/-- Where a frame of a transmit landing stands (R168 to R171). -/
inductive FramePhase where
  | fresh | sent | awaitRetry
  deriving DecidableEq, Repr

/-- A transmit frame read and not finished (R168). -/
structure TxFrame where
  tag : Nat
  index : Nat
  cls : Nat
  once : Bool
  data : List Byte
  horizon : Nat
  /-- sequence, assigned at the first transmission (R169); transmissions made -/
  seq : Option Nat
  attempts : Nat
  phase : FramePhase
  /-- mesh tick at which the latest transmission ended, its tail guard included (R115, R170) -/
  lastTxEnd : Nat
  /-- descriptor indices of once descriptors that name its tag and complete with it (R364) -/
  twins : List Nat
  deriving DecidableEq, Repr

/-- A received frame that has been accepted and has not landed (R16). -/
structure RxFrame where
  cls : Nat
  seq : Nat
  lead : Nat
  snr : Nat
  synced : Bool
  broadcast : Bool
  data : List Byte
  /-- where it lies in the receive pool; none while it waits in its verify buffer, with the pipe and the segments it holds there -/
  pool : Option Nat
  pipe : Nat
  segs : Nat
  deriving DecidableEq, Repr

/-- One neighbour beyond its entry (chapter 5). -/
structure NbrSt where
  frames : List TxFrame
  /-- tags of the last 64 descriptors read, newest last, with status code and reason once finished (R364) -/
  tags : List (Nat × Option (Nat × Nat))
  /-- tags cancelled before they were read (R358) -/
  cancelAhead : List Nat
  /-- expected-lead tick of the latest receive crossing that has ended, for acknowledgement deadlines (R170) -/
  lastRxStart : Nat
  /-- latest accepted frame, for the acknowledgement block (Table 5.9) -/
  ackSeq : Nat
  ackTime : Nat
  rxQueue : List RxFrame
  /-- permissions sampled at the neighbour's last idle instant: HUB_FUNC_MODE bits 3 and 4 (R28, R29) -/
  permSec : Bool
  permCrc : Bool
  /-- the shadow configuration waits for an idle window boundary, this one the first (R182) -/
  copyWait : Bool
  copyFrom : Nat
  /-- a poisoned live entry treats the neighbour as disabled (Table 14.6) -/
  poisoned : Bool
  /-- a two-way sample has set the propagation estimate (R177) -/
  propSampled : Bool
  deriving DecidableEq, Repr

/-- One key slot's secret part (R238); state, count, key_id and len256 are registers. -/
structure KeySlot where
  key : List Byte
  salt : Nat
  limit : Nat
  warn : Nat
  /-- invocations; the register reads 0xFFFF_FFFF at 2^32 -/
  count : Nat
  deriving DecidableEq, Repr

/-- A frame in a cipher pipe (R232, R236). -/
structure PipeFrame where
  rx : Bool
  nbr : Nat
  slot : Nat
  segs : Nat
  keySlot : Option Nat
  /-- whole header and everything after it as received, or the frame to send -/
  hdr : List Byte
  body : List Byte
  lead : Nat
  snr : Nat
  xid : Nat
  /-- the offset sample has been applied at the header (R175) -/
  timed : Bool
  /-- receive: the outcome of the check value and the tag, once verified; the body is then the plaintext (R236, R257) -/
  ok : Option Bool
  /-- receive, while it waits: the pipe assigned to it (R232) -/
  pipe : Option Nat
  deriving DecidableEq, Repr

/-- One cipher pipe. -/
structure Pipe where
  frames : List PipeFrame
  /-- masking from the LFSR (R247) -/
  lfsr : Bool
  cmLevel : Nat
  inReset : Bool
  deriving DecidableEq, Repr

/-- Working state of CTR_DRBG: the AES-256 key, 32 bytes, and the counter block (R245). -/
structure DrbgState where
  key : List Nat
  v : Nat
  deriving DecidableEq, Repr

/-- The state before instantiation, and after zeroisation. -/
def DrbgState.zero : DrbgState := ⟨List.replicate 32 0, 0⟩

/-- Key store command, RNG and masking (chapter 7). -/
structure Sec where
  slots : List (Nat × KeySlot)
  /-- staged command: slot, and the key to load or none for ERASE -/
  staged : Option (Nat × Option (KeySlot × Nat × Bool))
  /-- raw bits held, the oldest first: those that passed since the source started, or since a reseed began to gather (R243, R245) -/
  bits : List Bool
  lastBit : Bool
  run : Nat
  /-- adaptive proportion window: bits seen and ones among them -/
  window : Nat
  ones : Nat
  /-- the source runs -/
  source : Bool
  lfsr : Nat
  requests : Nat
  reseed : Bool
  drbg : DrbgState
  /-- the OTP word being programmed -/
  otpBusy : Option (Nat × Nat)
  deriving DecidableEq, Repr

/-- A complete codeword of a received frame (R130). -/
structure Codeword where
  slot : Nat
  /-- number of its crossing -/
  crossing : Nat
  index : Nat
  mcs : Nat
  /-- PHY_DEC_CFG as sampled for its frame (R143) -/
  press : Nat
  maxIter : Nat
  limit : Nat
  /-- its limit was fixed under load (Table 4.9, capped) -/
  under : Bool
  deriving DecidableEq, Repr

/-- The codeword queue, the decoder and encoder pools (R130 to R134). -/
structure Phy where
  /-- frames decoded in full, in air order, waiting for a pipe (R232) -/
  waiting : List PipeFrame
  queue : List Codeword
  decoders : Vector (Option Codeword) 16
  encoders : Vector (Option (Nat × Nat)) 16
  decReset : Nat
  encReset : Nat
  /-- last codeword encoded (R126, R127) -/
  lastEncoded : List Bool
  /-- earlier choices of exported slots, newest first: the tick of a change and the slots before it (R28, R30, R140) -/
  softWas : List (Nat × Nat)
  deriving DecidableEq, Repr

/-- States of an engine (ENG_STATUS.state). -/
inductive EngState where
  | halted | running | waiting | stopped
  deriving DecidableEq, Repr

/-- What a waiting engine waits for. -/
inductive EngWait where
  /-- a device load: address, bytes, destination register, sign extension -/
  | load (addr size dst : Nat) (signed : Bool)
  /-- a device store: address, bytes, data -/
  | store (addr size data : Nat)
  | vload (addr dst : Nat)
  | vstore (addr : Nat) (data : List Byte)
  /-- a device GATHER: base address, destination and index vector -/
  | gather (base dst idx : Nat)
  | msend (src dst : Nat)
  | mrecv (dst : Nat)
  | wfi
  /-- FENCE: posted stores of the engine are on their way (R197) -/
  | fence
  deriving DecidableEq, Repr

/-- Where the next word of an engine stands: plain, in the delay slot of a branch, or in a mode-change shadow (R199, R207). -/
inductive EngCtx where
  | plain
  /-- the branch's address, its target if taken, and whether it pushes its return address, pops the return stack, or may leave loops (R200 to
  R204) -/
  | delaySlot (branch : Nat) (target : Option Nat) (push pop leaves : Bool)
  /-- SETMODE address, new MODE, word 1 or 2, local stores held -/
  | shadow (setmode newMode word : Nat) (held : List (Nat × List Byte))
  deriving DecidableEq, Repr

/-- The program-visible registers of an engine (R188, R189). -/
structure EngRegs where
  w : Vector Word 16
  v : Vector (Vector Word 16) 4
  pc : Nat
  mode : Nat
  estat : Nat
  epc : Nat
  ecause : Nat
  eaddr : Nat
  ien : Nat
  gdone : Nat
  crcPoly : Nat
  crcPoly8 : Nat
  fpctrl : Nat
  fpstat : Nat
  /-- loop starts, ends and counts: outer, inner -/
  ls : Nat × Nat
  le : Nat × Nat
  lc : Nat × Nat
  ldepth : Nat
  /-- return stack, oldest first -/
  rstack : List Nat
  scr : Nat × Nat
  deriving DecidableEq, Repr

/-- One Ikidal engine: every register of chapter 6, its control block included. -/
structure Engine where
  r : EngRegs
  /-- ENG_CTRL: run, rs_mode, task_dev, task_timed -/
  run : Bool
  rsMode : Bool
  taskDev : Bool
  taskTimed : Bool
  state : EngState
  stopCause : Nat
  /-- ENG_START.start, in words; ENG_VBASE.base, in KiB -/
  start : Nat
  /-- has run since its reset (R222) -/
  ran : Bool
  vbase : Nat
  rsWraps : Nat
  timedMax : Nat
  /-- the timed-mode limit has passed and TIMED_OVERRUN is due (R208) -/
  timedOver : Bool
  /-- ENG_LM_ADDR.addr, in words -/
  lmAddr : Nat
  /-- messages: sender, lanes 0 to 3, window start beside a sequencer's message (R215) -/
  mbox : List (Nat × List Word × Nat)
  mboxDropped : Nat
  wait : Option EngWait
  ctx : EngCtx
  /-- registers as they stood at a SETMODE whose group has not retired (R207) -/
  saved : Option EngRegs
  /-- failed posted store waiting for the next word boundary: address, status (R197) -/
  postedFault : Option (Nat × Nat)
  /-- writes from other agents waiting for the next word boundary (R222): register offset and value -/
  agentWrites : List (Nat × Nat)
  /-- a device access issued before a reset, which completes and whose completion is discarded (R335) -/
  discard : Option EngWait
  /-- results not yet usable: register, vector register i as 16 + i, and cycles left; cycles for which the CRC unit stays occupied (R190) -/
  results : List (Nat × Nat)
  crcLeft : Nat
  /-- ticks counted in timed mode (R208) -/
  timedTicks : Nat
  deriving DecidableEq, Repr

/-- One stitch cell beyond its registers: cycles for which S has held (R270). -/
structure Cell where
  held : Nat
  deriving DecidableEq, Repr

/-- The event fabric beyond its registers (chapter 8). -/
structure Yrn where
  cells : Vector Cell 96
  /-- events crossing on imports, oldest first, at most two each: cycles left and, toward the hub, the source tile (R268) -/
  hubImp : Vector (List (Nat × Nat)) 16
  tileImp : Vector (List Nat) 64
  /-- events on their way to their consumers: die (0 hub, 1 + t tile), yarn, cycles left (R266) -/
  flying : List (Nat × Nat × Nat)
  deriving DecidableEq, Repr

/-- The interrupt controller beyond its registers: where each active source was delivered (R291), vectors waiting for VC1 (R292), the mesh tick at
which each group's hold-off ends, or while the hub is down the ticks that remain of it (R293). -/
structure Irq where
  dest : List (Nat × Nat × Nat × Nat)
  waiting : List Nat
  holdEnd : Vector Nat 32
  deriving DecidableEq, Repr

/-- Where a bell transmission stands (R318). -/
inductive BellTxSt where
  | none | pending | onAir
  deriving DecidableEq, Repr

/-- The AON die beyond its registers (chapter 10). -/
structure Aon where
  latches : Nat
  /-- accepted bells of the last 8 units: target, command, time, unit of acceptance (R252) -/
  bells : List (Nat × Nat × Nat × Nat)
  bellTx : BellTxSt
  /-- bits 32 to 103 of the bell on the air, or of the last one sent (Table 10.9) -/
  bellOut : Option Bell
  /-- air time in the duty bucket in 1/10,000 tick, and the mesh time it was last brought up to (R319) -/
  bucket : Nat
  bucketAt : Nat
  rawUnread : Bool
  /-- WAKE_N is driven low, to the first tick; its input is ignored after the drive to the second (R315, R322) -/
  wakeDrive : Bool
  wakeEnd : Nat
  wakeQuiet : Nat
  /-- host-assisted wake mode as it was before the last change (R30) -/
  oldMode : Bool
  /-- a timetable wake is armed (R300) -/
  ttArmed : Bool
  /-- when each wake receiver entered DETECT, and when the bell on the air started (Tables 10.8, 10.10) -/
  detectAt : Vector Nat 4
  bellAt : Nat
  /-- no crystal edge has come since the last wake record (R307) -/
  wakeOpen : Bool
  deriving DecidableEq, Repr

/-- Where the outcome of a device access goes: to the access itself (resp), to a VC0 request of link l with its tag and its running number, to a
posted write of link l with its sequence, to the waiting engine g, to a posted store of engine g, or to the FENCEs that wait for a peer. -/
inductive AccSrc where
  | direct
  | link (l tag serial : Nat)
  | posted (l seq : Nat)
  | engine (g : Nat)
  | store (g : Nat)
  | fence
  deriving DecidableEq, Repr

/-- A packet the module has queued on a virtual channel of a link (Tables 12.3 to 12.7). write goes to host memory; request, posted and fence go to
a peer, with the origin of what is forwarded. -/
inductive OutPacket where
  | cpl (tag : Nat) (status : Status)
  | cpld (tag : Nat) (status : Status) (data : List Byte)
  | interrupt (vector : Nat)
  | ready (body : List Byte)
  | lateFault (seq : Nat) (status : Status) (addr : Nat)
  | linkUp (fresh : Bool) (width epoch : Nat)
  | beacon (body : List Byte)
  | write (addr : Nat) (data : List Byte)
  | request (wr : Bool) (tag addr len : Nat) (data : List Byte)
  | posted (addr : Nat) (data : List Byte) (src : AccSrc)
  | fence (tag : Nat)
  deriving DecidableEq, Repr

/-- State of a once entry (R357). -/
inductive OnceState where
  | running | open_ | delivered
  deriving DecidableEq, Repr

/-- A once entry of a host tag: CRC-32C of the request, its state, its completion, and the running number of the request (R357). -/
structure OnceEntry where
  tag : Nat
  crc : Nat
  state : OnceState
  status : Status
  data : List Byte
  serial : Nat
  deriving DecidableEq, Repr

/-- An access that waits, under wake-on-touch (R305) or for a control lane of a tile (R15, R419). An engine's own access stands in the engine; only
its domain counts here. -/
structure WotAccess where
  src : AccSrc
  ini : Initiator
  dom : Nat
  /-- it waits for a lane, not for power -/
  lane : Bool
  isWrite : Bool
  addr : Nat
  data : List Byte
  len : Nat
  deriving DecidableEq, Repr

/-- The answer to an access that waits for a control lane of a tile (R15, R419). -/
structure CtlAnswer where
  src : AccSrc
  ini : Initiator
  addr : Nat
  status : Status
  data : List Byte
  deriving DecidableEq, Repr

/-- A FENCE that has not completed: link, tag, last posted sequence it covers, running number (R360). -/
structure FenceWait where
  link : Nat
  tag : Nat
  seq : Nat
  serial : Nat
  deriving DecidableEq, Repr

/-- Link-layer states (LNK_STATUS.state, PNT_STATUS.peer). -/
inductive LinkState where
  | down | training | active | standby | retrain
  deriving DecidableEq, Repr

/-- One Redra link: 0 to 3 toward pontoon peers, 4 toward the host (chapter 12). -/
structure Link where
  state : LinkState
  epoch : Nat
  /-- epochs of the previous training: own and far end's -/
  prevOwn : Option Nat
  prevPeer : Option Nat
  /-- training results are kept -/
  kept : Bool
  rxNext : Nat
  txNext : Nat
  /-- unacknowledged data flits: sequence, virtual channel, packet (R345) -/
  replay : List (Nat × Nat × OutPacket)
  /-- NAKs sent for the flit now expected -/
  naks : Nat
  /-- berths held, per virtual channel; the far end's last counts of flits freed; and this end's (R344) -/
  berths : Nat × Nat × Nat
  farFreed : Nat × Nat × Nat
  freed : Nat × Nat × Nat
  /-- next posted sequence sent and expected (R359) -/
  postTx : Nat
  postRx : Nat
  /-- sequences of posted writes that have failed and that no FENCE has reported (R360) -/
  fails : List Nat
  /-- toward a peer: sequences of the late faults received since the last own FENCE there, and how many that FENCE announced that are still on their
  way, with the last sequence it covers -/
  lateGot : List Nat
  lateOwed : Option (Nat × Nat)
  /-- open requests of the far end: tag and running number -/
  openTags : List (Nat × Nat)
  /-- own requests in flight: tag and where the outcome goes; and forwarded posted writes: their sequence here, address there, and where a failure
  goes (R27, R359) -/
  ownReqs : List (Nat × AccSrc)
  fwdPosted : List (Nat × Nat × AccSrc)
  once : List OnceEntry
  vc0 : List OutPacket
  vc1 : List OutPacket
  vc2 : List OutPacket
  idleSince : Nat
  standbyAsked : Bool
  /-- in STANDBY: the tick, 4 µs after the wake ordered set, at which the link is ACTIVE again (R365) -/
  wakeAt : Option Nat
  deriving DecidableEq, Repr

/-- A completion-ring entry waiting for room (R363). -/
structure RingEntry where
  kind : Nat
  status : Nat
  tag : Nat
  ring : Nat
  reason : Nat
  index : Nat
  count : Nat
  result : List Nat
  deriving DecidableEq, Repr

/-- Links, late faults and landings (chapter 12). -/
structure Lnk where
  links : Vector Link 5
  /-- late faults logged and not yet sent: ring entry, link, sequence, status, address -/
  lateWait : List (Nat × Nat × Nat × Status × Nat)
  wot : List WotAccess
  ctlBack : List CtlAnswer
  /-- FENCEs and CANCELs that wait: a CANCEL by its link, its own tag and its target's (R358, R360) -/
  fences : List FenceWait
  cancels : List (Nat × Nat × Nat)
  /-- running number of the next access -/
  serial : Nat
  entries : List RingEntry
  /-- phase bit of ring 73 (R363) -/
  phase : Bool
  /-- command descriptors accepted and not completed: tag and descriptor index -/
  cmds : List (Nat × Nat)
  deriving DecidableEq, Repr

/-- The pontoon beyond its registers (R367 to R372). -/
structure Pnt where
  /-- beacons of the primary in a row with a differing, and with an equal digest; with an offset within 250 ticks; and since it was silent -/
  digestMiss : Nat
  digestHit : Nat
  timeHit : Nat
  beaconHit : Nat
  /-- mesh time of each peer's last beacon, and its interface generation there: major and minor -/
  lastPeer : Vector Nat 4
  gens : Vector (Nat × Nat) 4
  /-- claims heard from lower-indexed peers: peer, node ID, and its beacons since without the claim -/
  claims : List (Nat × Nat × Nat)
  /-- offset filter of the primary's beacons: offset and drift, last arrival in 1/16 tick, running (R371) -/
  off : Int
  drift : Int
  last : Nat
  valid : Bool
  deriving DecidableEq, Repr

/-- Where a bank's command sequence stands (Table 13.5). -/
inductive SeqState where
  | read | unlock1 | unlock2 | loading | busy
  deriving DecidableEq, Repr

/-- One flash bank beyond its status register (chapter 13). -/
structure FlashBank where
  seq : SeqState
  owner : Option Initiator
  /-- mesh tick of the owner's last write (R377) -/
  wroteAt : Nat
  /-- target block of the sequence, and the page base once a data write has named it -/
  target : Nat
  page : Option Nat
  /-- page buffer: offset and byte, in order written -/
  buffer : List (Nat × Nat)
  /-- operation running: 1 program, 2 erase, 3 fill; its unit -/
  op : Nat
  unit : Nat
  deriving DecidableEq, Repr

/-- The flash die and its controller beyond their registers. -/
structure Flc where
  banks : Vector FlashBank 4
  /-- undefined units: operation kind and unit (R387) -/
  undef : List (Nat × Nat)
  /-- sense-line classifier: bank, column, bit, last row, rows counted (R397) -/
  senses : List (Nat × Nat × Nat × Nat × Nat)
  scrubBlock : Nat
  scrubDue : Bool
  /-- blocks whose page spares an erase has set to all 1 (R375) -/
  spareErased : Nat
  deriving DecidableEq, Repr

/-- The update beyond its journal in flash (R402 to R405). -/
structure Upd where
  /-- the command being served -/
  cmd : Option CmdDesc
  /-- chunks staged in hub SRAM banks 10 and 11: offset and bytes -/
  chunks : List (Nat × List Byte)
  /-- erase block waiting for hold-up energy, and its refusals so far (R403) -/
  retry : Option (Nat × Nat)
  /-- a session that takes an image into hub SRAM, in stage ROM: its manifest (R329, R330) -/
  ram : Option (List Byte)
  /-- images that a host boot has taken so: kind, and manifest and body -/
  images : List (Nat × List Byte)
  deriving DecidableEq, Repr

/-- Error records beyond the ERR registers (chapter 14). -/
structure Err where
  seq : Nat
  /-- per key: class, key, mesh time of the last record, errors suppressed since (R413) -/
  keys : List (Nat × Nat × Nat × Nat)
  /-- scrubber positions: words read in the pass, per scrubber -/
  scrubPos : Vector Nat 6
  /-- units in the reset of an escalation, and the tick at which it ends (Table 14.4) -/
  resetEnds : List (Nat × Nat)
  deriving DecidableEq, Repr

/-- Watchdog, sensors, management bus (chapters 11, 15). -/
structure Sys where
  /-- period of the watchdog count in progress, and whether half of it has passed (R333) -/
  wdogMs : Nat
  wdogHalf : Bool
  /-- the mesh tick at which the watchdog's count ends, or while the hub is down the ticks that remain of it -/
  wdogEnd : Nat
  /-- sensors whose last reading was above 115.0 degrees, and the mesh tick 1 s after the last such reading (R446) -/
  hot : Nat
  coolAt : Nat
  /-- saturated performance counters that have overflowed (R430) -/
  pmcSat : Nat
  /-- cycles of work before each general check-value unit (R259) -/
  crcLeft : Vector Nat 8
  deriving DecidableEq, Repr

/-- What the initiator of the last device access sees: status and read data. -/
structure Resp where
  status : Status
  data : List Byte
  deriving DecidableEq, Repr

/-- What waits for the next block boundary: elements with a written trim (R37) and with a written fine DC value (R68); and the tiles of
an armed capture. -/
structure Front where
  calWait : List Nat
  fineWait : List Nat
  /-- tiles that still have to store the armed capture (R104, R106) -/
  capTiles : Nat
  /-- pairs measured across the seams: transmitter, receiver, phase and gain drift of the pair, 1/1000 degree and dB (R107, R109) -/
  seams : List (Nat × Nat × Rat × Rat)
  deriving DecidableEq, Repr

/-- The state of the module. -/
structure State where
  pending : List Instr
  regs : RegFile
  /-- memory bytes that differ from what an unlisted address reads as -/
  mem : List Host.Cell
  /-- ECC words of RAM whose poison bit is set (R421), rising -/
  poison : List Nat
  clk : Clk
  pwr : Pwr
  boot : Boot
  pins : Pins
  tiles : Vector TileSt 8
  elems : Vector ElemSt 512
  front : Front
  slots : Vector SlotSt 16
  xng : Xng
  nbrs : Vector NbrSt 64
  sec : Sec
  pipes : Vector Pipe 8
  phy : Phy
  engs : Vector Engine 96
  yrn : Yrn
  irq : Irq
  aon : Aon
  lnk : Lnk
  pnt : Pnt
  flc : Flc
  upd : Upd
  err : Err
  sys : Sys
  resp : Resp
  freeCtr : Nat
  deriving DecidableEq, Repr

/-- Why a step stops with a fault. No command of this model raises one: an access that the spec refuses is answered with its status,
and every event takes the effect the spec gives it (log 13). -/
inductive Fault where
  /-- The module has no supply: VAON is absent. No command reaches it, so no step answers it; safe. -/
  | noSupply
  deriving DecidableEq, Repr

/-- Why a step is refused. -/
inductive Refusal where
  /-- Raised by an arm of exec whose command has no meaning in this model yet, named by its mnemonic; safe. -/
  | notModelled (mnemonic : String)
  deriving DecidableEq, Repr

/-! ### The machine right after reset: POR released, start-up step 1 running (R323, R331, Table 11.6) -/

/-- The registers of an engine after a reset that reaches all of it (Tables 6.2, 6.12 to 6.14). -/
def EngRegs.initial : EngRegs :=
  { w := .replicate 16 0, v := .replicate 4 (.replicate 16 0), pc := 0, mode := 0, estat := 0, epc := 0, ecause := 0, eaddr := 0,
    ien := 0, gdone := 0, crcPoly := 0, crcPoly8 := 7, fpctrl := 0, fpstat := 0, ls := (0, 0), le := (0, 0), lc := (0, 0), ldepth := 0,
    rstack := [], scr := (0, 0) }

/-- An engine after such a reset. -/
def Engine.initial : Engine :=
  { r := EngRegs.initial, run := false, rsMode := false, taskDev := false, taskTimed := false, state := .halted, stopCause := 0, start := 0,
    ran := false, vbase := 0, rsWraps := 0, timedMax := 0, timedOver := false, lmAddr := 0, mbox := [], mboxDropped := 0, wait := none,
    ctx := .plain, saved := none, postedFault := none, agentWrites := [], discard := none, results := [], crcLeft := 0, timedTicks := 0 }

/-- A tile that has not risen: radio OFF, banks empty (R96). -/
def TileSt.initial : TileSt :=
  { radio := .off, lockA := false, lockB := false, opened := [], lanesDown := [], irqHeld := 0, inReset := false,
    banks := .replicate 16 ⟨Bank.empty, Bank.empty⟩, tension := none, tensionWait := false, tensionLast := 0, tensionTemp := 0, drifts := [] }

/-- A masked element with no DC value and no trim (R55). -/
def ElemSt.initial : ElemSt := { liveMask := true, overs := 0, fineI := 0, fineQ := 0, accI := 0, accQ := 0, fineWas := [], coarse := (0, 0), dcTx := (0, 0), dac := (0, 0), calRx := 0, calTx := 0 }

/-- A beam slot with nothing loaded (R96). -/
def SlotSt.initial : SlotSt :=
  { active := none, shadow := none, waiting := 0, opened := 0, failTile := none, shadowDir := 0, swaps := [], g := 48, power := (0, 0), leadPower := (0, 0), back := 0,
    muted := false, shadowWait := false, muteWait := false, weightsHost := false, phySoft := false, rx := [], tx := none, tail := none, code := 0, salt := 0,
    search := 40, thresh := 96, press := 16, maxIter := 12, sweepLeft := 0, sweepIdx := 0, sweepLead := none, y := (0, 0), xOut := (0, 0), sat := false }

/-- The sequencer with no crossing. -/
def Xng.initial : Xng :=
  { walk := 0, walkCycle := 0, lastKey := none, fetchFrom := 0, nextId := 0, fetched := [], held := [], commit := [], votes := [],
    pairs := [], hostSched := false, sampledSched := false, hostTime := false, sampledTime := false, sampledSlew := 0, sampledStep := 0,
    lastEnds := [], sweepSeq := 0 }

/-- A neighbour with no frame. -/
def NbrSt.initial : NbrSt :=
  { frames := [], tags := [], cancelAhead := [], lastRxStart := 0, ackSeq := 0, ackTime := 0, rxQueue := [], permSec := false,
    permCrc := false, copyWait := false, copyFrom := 0, poisoned := false, propSampled := false }

/-- A link that has never trained. -/
def Link.initial : Link :=
  { state := .down, epoch := 0, prevOwn := none, prevPeer := none, kept := false, rxNext := 0, txNext := 0, replay := [],
    naks := 0, berths := (0, 0, 0), farFreed := (0, 0, 0), freed := (0, 0, 0), postTx := 0, postRx := 0, fails := [], lateGot := [], lateOwed := none,
    openTags := [], ownReqs := [], fwdPosted := [], once := [], vc0 := [], vc1 := [], vc2 := [], idleSince := 0, standbyAsked := false, wakeAt := none }

/-- The machine right after power-on reset: start-up step 1 runs, every rail is off, the AON keeper counts mesh time from 0 on the RC
oscillator, every register holds its reset value, the boot votes stand on the hub core and the retention supply (R296, R323, R325). -/
def State.reset : State :=
  { pending := [],
    regs := [((R.PWR_VOTE_votes 0).key, 1), ((R.PWR_VOTE_votes 15).key, 1)],
    mem := [],
    poison := [],
    clk := { mesh := 0, frac := 0, incr := 167772160000000, holder := .keeper, slewAcc := 0, slew := 0, keeperSlow := 0, stepWait := none,
             lastParent := 0, lockRun := 0, realign := false, blockAt := 0, windowAt := 0, cycleAt := 0 },
    pwr := { dom := (Vector.replicate 16 .down).set 15 .up, riseAgain := 0, deferForce := 0, deferGate := 0, mode := .vigil, pwrEn := 0,
             pwrGood := 0, tcxoEn := false, tcxoReady := false, pllLocked := false, railFails := 0, railsHeld := false,
             lowHold := 0, wakeHeld := 0, railEnd := .replicate 4 0, retryAt := 0, rfOffAt := 0, xtalStable := false, refclk := false, dozeAt := 0, spanEnd := .replicate 16 0 },
    boot := { kind := .por, step := 1, ready := false, timeouts := 0, slipway := false, slow := false },
    pins := { pntId := 0, bootSel := 0, irqNLow := false, thermNLow := false, tsOut := false, tsOutAt := 0, cxReq := false,
              cxPri := false, cxGnt := false, cxiReq := false, cxiPri := false, cxiGnt := false, wkTr := false, tsOutEnd := 0, gpIn := 0, gpOut := 0,
              gpPulse := .replicate 16 0, gpCells := (0, 0), holdupCode := 0, holdupBelow := none },
    tiles := .replicate 8 TileSt.initial,
    elems := .replicate 512 ElemSt.initial,
    front := ⟨[], [], 0, []⟩,
    slots := .replicate 16 SlotSt.initial,
    xng := Xng.initial,
    nbrs := .replicate 64 NbrSt.initial,
    sec := { slots := [], staged := none, bits := [], lastBit := false, run := 0, window := 0, ones := 0, source := false, lfsr := 1,
             requests := 0, reseed := false, drbg := DrbgState.zero, otpBusy := none },
    pipes := .replicate 8 { frames := [], lfsr := true, cmLevel := 3, inReset := false },
    phy := { waiting := [], queue := [], decoders := .replicate 16 none, encoders := .replicate 16 none, decReset := 0, encReset := 0, lastEncoded := [], softWas := [] },
    engs := .replicate 96 Engine.initial,
    yrn := { cells := .replicate 96 ⟨0⟩, hubImp := .replicate 16 [], tileImp := .replicate 64 [], flying := [] },
    irq := { dest := [], waiting := [], holdEnd := .replicate 32 0 },
    aon := { latches := 0, bells := [], bellTx := .none, bellOut := none, bucket := 450000000000000, bucketAt := 0, rawUnread := false, wakeDrive := false, wakeEnd := 0,
             wakeQuiet := 0, oldMode := false, ttArmed := false, detectAt := .replicate 4 0, bellAt := 0, wakeOpen := false },
    lnk := { links := .replicate 5 Link.initial, lateWait := [], wot := [], ctlBack := [], fences := [], cancels := [], serial := 0, entries := [], phase := true, cmds := [] },
    pnt := { digestMiss := 0, digestHit := 0, timeHit := 0, beaconHit := 0, lastPeer := .replicate 4 0, gens := .replicate 4 (0, 0), claims := [], off := 0, drift := 0, last := 0, valid := false },
    flc := { banks := .replicate 4 { seq := .read, owner := none, wroteAt := 0, target := 0, page := none, buffer := [], op := 0, unit := 0 },
             undef := [], senses := [], scrubBlock := 0, scrubDue := false, spareErased := 0 },
    upd := { cmd := none, chunks := [], retry := none, ram := none, images := [] },
    err := { seq := 0, keys := [], scrubPos := .replicate 6 0, resetEnds := [] },
    sys := { wdogMs := 0, wdogHalf := false, wdogEnd := 0, hot := 0, coolAt := 0, pmcSat := 0, crcLeft := .replicate 8 0 },
    resp := ⟨.ok, []⟩,
    freeCtr := 0 }

end Sys2Proof.Machine
end

