-- ==== Sys2Proof/Machine/Ops.lean ====
section
/-! DEFINITION. Machine/Ops.lean: the named operations on register fields, bytes of memory, poison bits and the module's
numbered units, which every meaning is written with. -/

namespace Sys2Proof.Machine

open Sys2Proof

/-- The three outcomes of a command. -/
abbrev Out : Type := Host.Outcome State Fault Refusal

/-- Entry i of a vector, its index taken modulo the length. -/
abbrev vget {α : Type} {n : Nat} [NeZero n] (v : Vector α n) (i : Nat) : α :=
  v[i % n]'(Nat.mod_lt i (Nat.pos_of_neZero n))

/-- A vector with entry i replaced, its index taken modulo the length. -/
abbrev vset {α : Type} {n : Nat} [NeZero n] (v : Vector α n) (i : Nat) (x : α) : Vector α n :=
  v.set (i % n) x (Nat.mod_lt i (Nat.pos_of_neZero n))

/-! ### Register fields (R7) -/

/-- The value of a register field. -/
def State.get (s : State) (f : Field) : Nat := s.regs.read f

/-- Give a register field a value, cut to its width. -/
def State.set (s : State) (f : Field) (v : Nat) : State := { s with regs := s.regs.write f v }

/-- A one-bit field as a truth value. -/
def State.on (s : State) (f : Field) : Bool := s.get f != 0

/-- Bit k of a field. -/
def State.bit (s : State) (f : Field) (k : Nat) : Bool := (s.get f).testBit k

/-- Set bit k of a field. -/
def State.setBit (s : State) (f : Field) (k : Nat) : State := s.set f (s.get f ||| 2 ^ k)

/-- Clear bit k of a field. -/
def State.clrBit (s : State) (f : Field) (k : Nat) : State :=
  if s.bit f k then s.set f (s.get f - 2 ^ k) else s

/-- Give bit k of a field the value b. -/
def State.putBit (s : State) (f : Field) (k : Nat) (b : Bool) : State := if b then s.setBit f k else s.clrBit f k

/-- Add n to a counting field that stops at its largest value. -/
def State.add (s : State) (f : Field) (n : Nat) : State := s.set f (min (s.get f + n) (2 ^ f.width - 1))

/-- Add 1 to a counting field that stops at its largest value. -/
def State.bump (s : State) (f : Field) : State := s.add f 1

/-- Add 1 to a counting field that wraps. -/
def State.bumpWrap (s : State) (f : Field) : State := s.set f ((s.get f + 1) % 2 ^ f.width)

/-- The two's complement value of an n-bit number. -/
def signed (n v : Nat) : Int := if v % 2 ^ n < 2 ^ (n - 1) then (v % 2 ^ n : Nat) else ((v % 2 ^ n : Nat) : Int) - 2 ^ n

/-- The n-bit two's complement code of a number. -/
def unsigned (n : Nat) (v : Int) : Nat := (v % (2 ^ n : Int)).toNat

/-- A number held within bounds. -/
def clampI (lo hi v : Int) : Int := if v < lo then lo else if hi < v then hi else v

/-- The signed value of a field. -/
def State.getS (s : State) (f : Field) : Int := signed f.width (s.get f)

/-- Give a field the code of a signed value. -/
def State.setS (s : State) (f : Field) (v : Int) : State := s.set f (unsigned f.width v)

/-- A 64-bit value in two word fields, low word first. -/
def State.get2 (s : State) (f : Nat → Field) : Nat := s.get (f 0) + 2 ^ 32 * s.get (f 1)

/-- Write a 64-bit value to two word fields, low word first. -/
def State.set2 (s : State) (f : Nat → Field) (v : Nat) : State := (s.set (f 0) (v % 2 ^ 32)).set (f 1) (v / 2 ^ 32 % 2 ^ 32)

/-- Fields lo to hi of a number: v[hi:lo]. -/
def bits (v hi lo : Nat) : Nat := v / 2 ^ lo % 2 ^ (hi + 1 - lo)

/-- Do f for every number below n, in rising order. -/
def forAll {α : Type} (n : Nat) (f : Nat → α → α) (a : α) : α := (List.range n).foldl (fun a i => f i a) a

/-- Do f for every set bit of a mask of n bits, lowest first. -/
def forBits {α : Type} (n mask : Nat) (f : Nat → α → α) (a : α) : α :=
  (List.range n).foldl (fun a i => if mask.testBit i then f i a else a) a

/-- The bits below n at which p holds, as a mask. -/
def maskOf (n : Nat) (p : Nat → Bool) : Nat := (List.range n).foldl (fun m i => if p i then m + 2 ^ i else m) 0

/-- How many of the bits below n are set. -/
def popcount (n v : Nat) : Nat := ((List.range n).filter (fun i => v.testBit i)).length

/-! ### Memory: bytes by device address, in one canonical form -/

/-- What a byte that nothing has written reads as: an erased flash array (R373), the OTP bit of R250's factory word, and 0 in
every RAM (log 10). -/
def memDefault (a : Nat) : Byte :=
  if a < 0x1000000 then 0xFF#8 else if a = 0x030090B0 then 1#8 else 0#8

/-- The byte at an address. -/
def Memory.read : List Host.Cell → Nat → Byte
  | [], a => memDefault a
  | (k, b) :: rest, a => if k = a then b else Memory.read rest a

/-- Unlist an address. -/
def Memory.drop : List Host.Cell → Nat → List Host.Cell
  | [], _ => []
  | (k, b) :: rest, a => if k = a then Memory.drop rest a else (k, b) :: Memory.drop rest a

/-- List a byte at an address, keeping the addresses rising. -/
def Memory.put : List Host.Cell → Nat → Byte → List Host.Cell
  | [], a, v => [(a, v)]
  | (k, b) :: rest, a, v =>
    if k = a then (a, v) :: rest else if a < k then (a, v) :: (k, b) :: rest else (k, b) :: Memory.put rest a v

/-- Write one byte: the value an unlisted address reads as unlists it. -/
def Memory.write (m : List Host.Cell) (a : Nat) (v : Byte) : List Host.Cell :=
  if v = memDefault a then Memory.drop m a else Memory.put m a v

/-- The canonical form: addresses strictly rising, no entry equal to what an unlisted address reads as. -/
def Memory.wf : List Host.Cell → Bool
  | [] => true
  | [(a, v)] => v != memDefault a
  | (a, v) :: (b, w) :: rest => a < b && v != memDefault a && Memory.wf ((b, w) :: rest)

/-- Forget every byte of an address range, which then reads as unwritten. -/
def Memory.clear (m : List Host.Cell) (lo len : Nat) : List Host.Cell :=
  m.filter fun c => !(lo ≤ c.1 && c.1 < lo + len)

/-- The byte at a device address. -/
def State.byte (s : State) (a : Nat) : Byte := Memory.read s.mem a

/-- Store one byte. -/
def State.setByte (s : State) (a : Nat) (v : Byte) : State := { s with mem := Memory.write s.mem a v }

/-- Bytes in rising address order. -/
def State.bytes (s : State) (a len : Nat) : List Byte := (List.range len).map fun i => s.byte (a + i)

/-- Store bytes in rising address order. -/
def State.setBytes (s : State) (a : Nat) : List Byte → State
  | [] => s
  | b :: rest => (s.setByte a b).setBytes (a + 1) rest

/-- A little-endian number of bytes. -/
def ofBytes : List Byte → Nat
  | [] => 0
  | b :: rest => b.toNat + 256 * ofBytes rest

/-- The n low bytes of a number, low byte first. -/
def toBytes : Nat → Nat → List Byte
  | 0, _ => []
  | n + 1, v => BitVec.ofNat 8 v :: toBytes n (v / 256)

/-- The little-endian 32-bit word at an address (R5). -/
def State.word (s : State) (a : Nat) : Nat := ofBytes (s.bytes a 4)

/-- Store a 32-bit word, low byte first. -/
def State.setWord (s : State) (a v : Nat) : State := s.setBytes a (toBytes 4 v)

/-- Clear an address range. -/
def State.clearMem (s : State) (lo len : Nat) : State :=
  { s with mem := Memory.clear s.mem lo len, poison := s.poison.filter fun a => !(lo ≤ a && a < lo + len) }

/-! ### Poison bits (R421) -/

/-- First address of the ECC word that holds a RAM byte: 64 bits in hub SRAM, 32 bits elsewhere (Table 14.5). -/
def eccBase (a : Nat) : Nat := if 0x1000000 ≤ a && a < 0x1C00000 then a / 8 * 8 else a / 4 * 4

/-- Bytes of that ECC word. -/
def eccSize (a : Nat) : Nat := if 0x1000000 ≤ a && a < 0x1C00000 then 8 else 4

/-- The poison bit of the word holding an address is set. -/
def State.poisoned (s : State) (a : Nat) : Bool := s.poison.contains (eccBase a)

/-- Some word of a range is poisoned. -/
def State.poisonedIn (s : State) (a len : Nat) : Bool := s.poison.any fun p => p < a + len && a < p + eccSize p

/-- Insert into a rising list. -/
def insertRising (a : Nat) : List Nat → List Nat
  | [] => [a]
  | b :: rest => if a = b then b :: rest else if a < b then a :: b :: rest else b :: insertRising a rest

/-- Set the poison bit of a word. -/
def State.setPoison (s : State) (a : Nat) : State := { s with poison := insertRising (eccBase a) s.poison }

/-- Clear the poison bit of a word. -/
def State.clrPoison (s : State) (a : Nat) : State := { s with poison := s.poison.filter (· ≠ eccBase a) }

/-- A write covers the whole ECC word at p. -/
def covers (a len p : Nat) : Bool := a ≤ p && p + eccSize p ≤ a + len

/-- A hardware block stores bytes: words covered whole take new check bits and lose their poison (R421). -/
def State.store (s : State) (a : Nat) (data : List Byte) : State :=
  let s := s.setBytes a data
  { s with poison := s.poison.filter fun p => !covers a data.length p }

/-! ### Numbered units -/

def State.tile (s : State) (t : Nat) : TileSt := vget s.tiles t
def State.updTile (s : State) (t : Nat) (f : TileSt → TileSt) : State := { s with tiles := vset s.tiles t (f (s.tile t)) }
def State.elem (s : State) (e : Nat) : ElemSt := vget s.elems e
def State.updElem (s : State) (e : Nat) (f : ElemSt → ElemSt) : State := { s with elems := vset s.elems e (f (s.elem e)) }
def State.slot (s : State) (n : Nat) : SlotSt := vget s.slots n
def State.updSlot (s : State) (n : Nat) (f : SlotSt → SlotSt) : State := { s with slots := vset s.slots n (f (s.slot n)) }
def State.nbr (s : State) (n : Nat) : NbrSt := vget s.nbrs n
def State.updNbr (s : State) (n : Nat) (f : NbrSt → NbrSt) : State := { s with nbrs := vset s.nbrs n (f (s.nbr n)) }
def State.pipe (s : State) (p : Nat) : Pipe := vget s.pipes p
def State.updPipe (s : State) (p : Nat) (f : Pipe → Pipe) : State := { s with pipes := vset s.pipes p (f (s.pipe p)) }
def State.eng (s : State) (g : Nat) : Engine := vget s.engs g
def State.updEng (s : State) (g : Nat) (f : Engine → Engine) : State := { s with engs := vset s.engs g (f (s.eng g)) }
def State.link (s : State) (l : Nat) : Link := vget s.lnk.links l
def State.updLink (s : State) (l : Nat) (f : Link → Link) : State :=
  { s with lnk := { s.lnk with links := vset s.lnk.links l (f (s.link l)) } }
def State.fbank (s : State) (b : Nat) : FlashBank := vget s.flc.banks b
def State.updFbank (s : State) (b : Nat) (f : FlashBank → FlashBank) : State :=
  { s with flc := { s.flc with banks := vset s.flc.banks b (f (s.fbank b)) } }

/-- One weight bank pair of a tile. -/
def State.bank (s : State) (t n : Nat) : BankPair := vget (s.tile t).banks n
def State.updBank (s : State) (t n : Nat) (f : BankPair → BankPair) : State :=
  s.updTile t fun x => { x with banks := vset x.banks n (f (vget x.banks n)) }

/-! ### Die control channels (R11, R15, R25, R419) -/

/-- Number of a lane in a tile's list of lanes that retrain: lanes toward the tile count from 64. -/
def laneId (toTile : Bool) (lane : Nat) : Nat := lane + if toTile then 64 else 0

/-- A control lane of tile t in a direction retrains: messages there wait in their berths (R419; log 125). -/
def State.ctlDown (s : State) (t : Nat) (toTile : Bool) : Bool :=
  (s.tile t).lanesDown.any fun l => l == laneId toTile 46 || l == laneId toTile 47

/-- The tile whose die an initiator, or an address, belongs to. -/
def iniTile : Initiator → Option Nat
  | .engine g => if 32 ≤ g.val then some ((g.val - 32) / 8) else none
  | _ => none
def addrTile (a : Nat) : Option Nat := if 0x04000000 ≤ a && a < 0x08000000 then some ((a - 0x04000000) / 0x800000) else none

/-! ### Power domains and mesh time -/

/-- Where a domain stands (Table 10.1). -/
def State.dom (s : State) (d : Nat) : DomPhase := vget s.pwr.dom d
def State.setDom (s : State) (d : Nat) (p : DomPhase) : State := { s with pwr := { s.pwr with dom := vset s.pwr.dom d p } }

/-- The domain is powered: up, or up and lingering (R296). -/
def State.domUp (s : State) (d : Nat) : Bool := s.dom d == .up || s.dom d == .linger

/-- The hub core is up. -/
def State.hubUp (s : State) : Bool := s.domUp 0

/-- Tile t is powered. -/
def State.tileUp (s : State) (t : Nat) : Bool := s.domUp (t % 8 + 1)

/-- The domain is powered and neither forced off nor clock-gated: its window answers and its logic runs (R302, R304). The fields
hold bits 14:1 and 13:1 of their registers. -/
def State.domRuns (s : State) (d : Nat) : Bool :=
  s.domUp d && !(d != 0 && (s.bit R.PWR_FORCE_OFF_force (d - 1) || s.bit R.PWR_CLK_GATE_gate (d - 1) && d != 9 && d != 10))

/-- Tile t's logic runs, and no TILE reset holds it (R334). -/
def State.tileRuns (s : State) (t : Nat) : Bool := s.domRuns (t % 8 + 1) && !(s.tile t).inReset

/-- A message of an access crosses a die control channel that retrains: the request, or with back its answer. -/
def State.ctlBlocked (s : State) (ini : Initiator) (a : Nat) (back : Bool) : Bool :=
  let held (t : Option Nat) (toTile : Bool) : Bool := match t with | some t => s.domRuns (t + 1) && s.ctlDown t toTile | none => false
  iniTile ini != addrTile a && (held (iniTile ini) back || held (addrTile a) !back)

/-- Mesh time in ticks of 0.8 ns. -/
def State.now (s : State) : Nat := s.clk.mesh

/-- Mesh time as a read shows it: in DOZE it goes on by 4 ticks every 3.2 ns from where DOZE was entered (R20). -/
def State.meshRead (s : State) : Nat := if s.pwr.mode == .doze then s.now - (s.now - s.pwr.dozeAt) % 4 else s.now

/-- Mesh time has come to tick t: it moves forward to t, and never backward (R21). While the hub counts, the ticks passed enter the slew's
accumulator (R178). -/
def State.reach (s : State) (t : Nat) : State :=
  let acc := if s.clk.holder = .hub then s.clk.slewAcc + s.clk.slew * ((t - s.clk.mesh : Nat) : Int) else s.clk.slewAcc
  { s with clk := { s.clk with mesh := max s.clk.mesh t, slewAcc := acc } }

/-- Ticks of a cycle of the hub's clock: 4 in DOZE (R20). -/
def State.cycleLength (s : State) : Nat := if s.pwr.mode == .doze then 4 else 1

/-- Ticks of a window and of a timetable cycle (R24). -/
def windowTicks : Nat := 1280
def cycleTicks : Nat := 5242880

/-- The free value's running number: the model's own counter (log 1). -/
def State.tickFree (s : State) : State := { s with freeCtr := s.freeCtr + 1 }

/-- What the initiator of the access sees. -/
def State.reply (s : State) (st : Status) (data : List Byte := []) : State := { s with resp := ⟨st, data⟩ }

end Sys2Proof.Machine
end

