-- ==== Sys2Proof/Machine/Crypto.lean ====
section
/-! DEFINITION. Machine/Crypto.lean: the published algorithms that the specification names: AES (FIPS 197), GCM (SP 800-38D), CMAC (SP 800-38B), SHA-256
(FIPS 180-4), ECDSA P-256 verification (FIPS 186) and CTR_DRBG with AES-256 and a derivation function (SP 800-90A) (R231, R245, R249, R251, R369).
Bytes are numbers below 256 here; a block of 128 bits is a number, its first byte the most significant. -/

namespace Sys2Proof.Machine

open Sys2Proof

/-! ### Bytes, blocks and lists -/

/-- Exclusive or of two byte strings, as long as the shorter. -/
def xorBytes (a b : List Nat) : List Nat := List.zipWith (fun x y => x ^^^ y) a b

/-- A number as n bytes, the most significant first, and back. -/
def numBytes (n v : Nat) : List Nat := (List.range n).map fun i => v / 256 ^ (n - 1 - i) % 256
def bytesNum (l : List Nat) : Nat := l.foldl (fun a x => 256 * a + x) 0

/-- The k-th stretch of n bytes; short at the end of the string. -/
def piece (n k : Nat) (l : List Nat) : List Nat := (l.drop (n * k)).take n

/-- A string filled with zeros to a multiple of n bytes. -/
def fillTo (n : Nat) (l : List Nat) : List Nat := l ++ List.replicate ((n - l.length % n) % n) 0

/-! ### AES (FIPS 197) -/

/-- Product with x in GF(2^8), modulo x^8 + x^4 + x^3 + x + 1. -/
def gfDouble (a : Nat) : Nat := (2 * a % 256) ^^^ (if a.testBit 7 then 0x1B else 0)

/-- Product in GF(2^8). -/
def gfMul (a b : Nat) : Nat :=
  ((List.range 8).foldl (fun (p : Nat × Nat) i => (if b.testBit i then p.1 ^^^ p.2 else p.1, gfDouble p.2)) (0, a)).1

/-- The inverse in GF(2^8), 0 for 0: the 254th power. -/
def gfInv (a : Nat) : Nat :=
  let p := (List.range 6).foldl (fun p _ => gfMul (gfMul p p) a) a
  gfMul p p

/-- The substitution of one byte: the inverse, then the affine map with constant 0x63. -/
def aesSub (a : Nat) : Nat :=
  let b := gfInv a
  let rot (k : Nat) : Nat := (b * 2 ^ k % 256) ^^^ (b / 2 ^ (8 - k))
  b ^^^ rot 1 ^^^ rot 2 ^^^ rot 3 ^^^ rot 4 ^^^ 0x63

/-- The next word of the key schedule: i counts words, nk are the words of the key, ws the words so far. -/
def aesNextWord (nk i : Nat) (ws : List (List Nat)) : List Nat :=
  let prev := ws.getD (i - 1) []
  let t :=
    if i % nk = 0 then xorBytes ((prev.drop 1 ++ prev.take 1).map aesSub) [(List.range (i / nk - 1)).foldl (fun c _ => gfDouble c) 1, 0, 0, 0]
    else if 6 < nk && i % nk = 4 then prev.map aesSub
    else prev
  xorBytes (ws.getD (i - nk) []) t

/-- The round keys of a key of 16 or 32 bytes, 16 bytes each. -/
def aesKeys (key : List Nat) : List (List Nat) :=
  let nk := key.length / 4
  let first := (List.range nk).map fun i => piece 4 i key
  let ws := (List.range (3 * nk + 28)).foldl (fun ws i => ws ++ [aesNextWord nk (nk + i) ws]) first
  (List.range (nk + 7)).map fun r => (List.range 4).flatMap fun j => ws.getD (4 * r + j) []

/-- Rows of the state shifted: byte r + 4 c comes from column c + r. -/
def aesShift (s : List Nat) : List Nat := (List.range 16).map fun i => s.getD ((i + 4 * (i % 4)) % 16) 0

/-- Columns of the state mixed. -/
def aesMix (s : List Nat) : List Nat :=
  (List.range 16).map fun i =>
    let at_ (k : Nat) : Nat := s.getD (i / 4 * 4 + (i + k) % 4) 0
    gfDouble (at_ 0) ^^^ gfDouble (at_ 1) ^^^ at_ 1 ^^^ at_ 2 ^^^ at_ 3

/-- One block enciphered under round keys. -/
def aesRounds (keys : List (List Nat)) (block : List Nat) : List Nat :=
  let last := keys.length - 1
  let s := (List.range (last - 1)).foldl (fun s r => xorBytes (aesMix (aesShift (s.map aesSub))) (keys.getD (r + 1) [])) (xorBytes block (keys.getD 0 []))
  xorBytes (aesShift (s.map aesSub)) (keys.getD last [])

/-- One block enciphered under a key. -/
def aesBlock (key block : List Nat) : List Nat := aesRounds (aesKeys key) block

/-! ### GCM (SP 800-38D) -/

/-- Product of two blocks in GF(2^128), the most significant bit first. -/
def ghashMul (x y : Nat) : Nat :=
  ((List.range 128).foldl (fun (p : Nat × Nat) i =>
    (if x.testBit (127 - i) then p.1 ^^^ p.2 else p.1, p.2 / 2 ^^^ (if p.2 % 2 = 1 then 0xE1 * 2 ^ 120 else 0))) (0, y)).1

/-- The hash of a string of whole blocks under the hash key. -/
def ghash (h : Nat) (l : List Nat) : Nat :=
  (List.range (l.length / 16)).foldl (fun y k => ghashMul (y ^^^ bytesNum (piece 16 k l)) h) 0

/-- The counter block after j steps: its last 32 bits rise, modulo 2^32. -/
def counterBlock (start : List Nat) (j : Nat) : List Nat := start.take 12 ++ numBytes 4 ((bytesNum (start.drop 12) + j) % 2 ^ 32)

/-- A string enciphered with counters from a block on. -/
def aesCounter (keys : List (List Nat)) (start data : List Nat) : List Nat :=
  (List.range ((data.length + 15) / 16)).flatMap fun j => xorBytes (piece 16 j data) (aesRounds keys (counterBlock start j))

/-- Ciphertext for a 12-byte initial vector; the same function deciphers. -/
def gcmCrypt (key iv data : List Nat) : List Nat := aesCounter (aesKeys key) (iv ++ [0, 0, 0, 2]) data

/-- The 16-byte tag over additional data and ciphertext. -/
def gcmSeal (key iv aad cipher : List Nat) : List Nat :=
  let keys := aesKeys key
  let h := bytesNum (aesRounds keys (List.replicate 16 0))
  let text := fillTo 16 aad ++ fillTo 16 cipher ++ numBytes 8 (8 * aad.length) ++ numBytes 8 (8 * cipher.length)
  xorBytes (numBytes 16 (ghash h text)) (aesRounds keys (iv ++ [0, 0, 0, 1]))

/-! ### CMAC (SP 800-38B) -/

/-- A subkey: doubling in GF(2^128), the most significant bit first. -/
def cmacDouble (x : Nat) : Nat := (2 * x % 2 ^ 128) ^^^ (if x.testBit 127 then 0x87 else 0)

/-- AES-CMAC of a string. -/
def aesCmac (key msg : List Nat) : List Nat :=
  let keys := aesKeys key
  let k1 := cmacDouble (bytesNum (aesRounds keys (List.replicate 16 0)))
  let n := max 1 ((msg.length + 15) / 16)
  let tail := piece 16 (n - 1) msg
  let last := if tail.length = 16 then xorBytes tail (numBytes 16 k1) else xorBytes (fillTo 16 (tail ++ [0x80])) (numBytes 16 (cmacDouble k1))
  let c := (List.range (n - 1)).foldl (fun c k => aesRounds keys (xorBytes c (piece 16 k msg))) (List.replicate 16 0)
  aesRounds keys (xorBytes c last)

/-! ### SHA-256 (FIPS 180-4) -/

/-- The greatest r with r ^ k ≤ v, by its bits from 2^(n-1) down. -/
def rootFloor (k v : Nat) : Nat → Nat → Nat
  | 0, r => r
  | n + 1, r => if (r + 2 ^ n) ^ k ≤ v then rootFloor k v n (r + 2 ^ n) else rootFloor k v n r

/-- The first 64 primes: numbers from 2 to 311 with no divisor below them. -/
def primes64 : List Nat := ((List.range 312).filter fun n => 2 ≤ n && (List.range n).all fun d => d < 2 || n % d != 0)

/-- The first 32 bits of the fractional part of a prime's square or cube root. -/
def rootBits (k p : Nat) : Nat := rootFloor k (p * 2 ^ (32 * k)) 37 0 % 2 ^ 32

/-- Initial hash value and round constants. -/
def shaStart : List Nat := (primes64.take 8).map (rootBits 2)
def shaConst : List Nat := primes64.map (rootBits 3)

/-- 32-bit words: rotation right, sum. -/
def ror32 (x n : Nat) : Nat := x / 2 ^ n ||| (x * 2 ^ (32 - n) % 2 ^ 32)
def add32 (l : List Nat) : Nat := l.foldl (· + ·) 0 % 2 ^ 32

/-- The next word of the message schedule. -/
def shaNext (ws : List Nat) (i : Nat) : Nat :=
  let x := ws.getD (i - 15) 0
  let y := ws.getD (i - 2) 0
  add32 [ws.getD (i - 16) 0, ror32 x 7 ^^^ ror32 x 18 ^^^ x / 8, ws.getD (i - 7) 0, ror32 y 17 ^^^ ror32 y 19 ^^^ y / 1024]

/-- One round on the eight working words, with its constant and schedule word added up. -/
def shaRound (v : List Nat) (kw : Nat) : List Nat :=
  let e := v.getD 4 0
  let a := v.getD 0 0
  let ch := (e &&& v.getD 5 0) ^^^ ((2 ^ 32 - 1 - e) &&& v.getD 6 0)
  let maj := (a &&& v.getD 1 0) ^^^ (a &&& v.getD 2 0) ^^^ (v.getD 1 0 &&& v.getD 2 0)
  let t1 := add32 [v.getD 7 0, ror32 e 6 ^^^ ror32 e 11 ^^^ ror32 e 25, ch, kw]
  let t2 := add32 [ror32 a 2 ^^^ ror32 a 13 ^^^ ror32 a 22, maj]
  [add32 [t1, t2], a, v.getD 1 0, v.getD 2 0, add32 [v.getD 3 0, t1], e, v.getD 5 0, v.getD 6 0]

/-- One 64-byte block into the hash value. -/
def shaBlock (consts : List Nat) (h block : List Nat) : List Nat :=
  let first := (List.range 16).map fun i => bytesNum (piece 4 i block)
  let ws := (List.range 48).foldl (fun ws i => ws ++ [shaNext ws (16 + i)]) first
  let v := (List.range 64).foldl (fun v i => shaRound v (consts.getD i 0 + ws.getD i 0)) h
  List.zipWith (fun x y => (x + y) % 2 ^ 32) h v

/-- The padded message. -/
def shaPad (l : List Nat) : List Nat := l ++ [0x80] ++ List.replicate ((119 - l.length % 64) % 64) 0 ++ numBytes 8 (8 * l.length)

/-- The hash of a byte string, 32 bytes. -/
def sha256Nat (l : List Nat) : List Nat :=
  let m := shaPad l
  ((List.range (m.length / 64)).foldl (fun h k => shaBlock shaConst h (piece 64 k m)) shaStart).flatMap (numBytes 4)

/-! ### ECDSA on P-256 (FIPS 186) -/

/-- The field's prime, the curve's coefficient, its base point and the order of that point. -/
def p256P : Nat := 2 ^ 256 - 2 ^ 224 + 2 ^ 192 + 2 ^ 96 - 1
def p256B : Nat := 0x5AC635D8AA3A93E7B3EBBD55769886BC651D06B0CC53B0F63BCE3C3E27D2604B
def p256Gx : Nat := 0x6B17D1F2E12C4247F8BCE6E563A440F277037D812DEB33A0F4A13945D898C296
def p256Gy : Nat := 0x4FE342E2FE1A7F9B8EE7EB4A7C0F9E162BCE33576B315ECECBB6406837BF51F5
def p256N : Nat := 0xFFFFFFFF00000000FFFFFFFFFFFFFFFFBCE6FAADA7179E84F3B9CAC2FC632551

/-- Power modulo m, for exponents below 2^256. -/
def powMod (m b e : Nat) : Nat :=
  (List.range 256).foldl (fun a i => if e.testBit (255 - i) then a * a % m * b % m else a * a % m) 1

/-- Inverse modulo a prime. -/
def invMod (m a : Nat) : Nat := powMod m a (m - 2)

/-- A point in Jacobian coordinates; z = 0 is the point at infinity. -/
structure CurvePoint where
  x : Nat
  y : Nat
  z : Nat
  deriving DecidableEq, Repr

/-- Difference modulo the field's prime. -/
def subP (a b : Nat) : Nat := (a + p256P - b % p256P) % p256P

/-- Twice a point. -/
def CurvePoint.dbl (q : CurvePoint) : CurvePoint :=
  let p := p256P
  let zz := q.z * q.z % p
  let m := 3 * (subP q.x zz) * (q.x + zz) % p
  let yy := q.y * q.y % p
  let s := 4 * q.x * yy % p
  let x := subP (m * m) (2 * s)
  ⟨x, subP (m * subP s x) (8 * yy * yy), 2 * q.y * q.z % p⟩

/-- Sum of two points. -/
def CurvePoint.add (a b : CurvePoint) : CurvePoint :=
  if a.z = 0 then b
  else if b.z = 0 then a
  else
    let p := p256P
    let u1 := a.x * b.z % p * b.z % p
    let u2 := b.x * a.z % p * a.z % p
    let s1 := a.y * b.z % p * b.z % p * b.z % p
    let s2 := b.y * a.z % p * a.z % p * a.z % p
    if u1 = u2 then (if s1 = s2 then a.dbl else ⟨1, 1, 0⟩)
    else
      let h := subP u2 u1
      let r := subP s2 s1
      let hh := h * h % p
      let v := u1 * hh % p
      let x := subP (r * r) (h * hh + 2 * v)
      ⟨x, subP (r * subP v x) (s1 * (h * hh % p)), h * a.z % p * b.z % p⟩

/-- u1 times the base point plus u2 times q. -/
def twoTimes (u1 u2 : Nat) (q : CurvePoint) : CurvePoint :=
  (List.range 256).foldl (fun a i =>
    let a := a.dbl
    let a := if u1.testBit (255 - i) then a.add ⟨p256Gx, p256Gy, 1⟩ else a
    if u2.testBit (255 - i) then a.add q else a) ⟨1, 1, 0⟩

/-- The signature r, s over a message verifies under the public key of coordinates x, y. -/
def ecdsaGood (x y : Nat) (msg : List Nat) (r s : Nat) : Bool :=
  let onCurve := x < p256P && y < p256P && y * y % p256P == (x * x % p256P * x + p256P * 3 - 3 * x + p256B) % p256P
  let w := invMod p256N s
  let e := bytesNum (sha256Nat msg)
  let q := twoTimes (e * w % p256N) (r * w % p256N) ⟨x, y, 1⟩
  let zi := invMod p256P q.z
  onCurve && 1 ≤ r && r < p256N && 1 ≤ s && s < p256N && q.z != 0 && q.x * zi % p256P * zi % p256P % p256N == r

/-! ### CTR_DRBG (SP 800-90A) -/

/-- The next n blocks under a state's counter. -/
def DrbgState.blocks (d : DrbgState) (n : Nat) : List Nat :=
  (List.range n).flatMap fun i => aesBlock d.key (numBytes 16 ((d.v + 1 + i) % 2 ^ 128))

/-- The state updated with 48 bytes of provided data; n blocks have been drawn before. -/
def DrbgState.update (d : DrbgState) (n : Nat) (data : List Nat) : DrbgState :=
  let e : DrbgState := { d with v := (d.v + n) % 2 ^ 128 }
  let t := xorBytes (e.blocks 3) data
  ⟨t.take 32, bytesNum (t.drop 32)⟩

/-- Cipher block chaining of whole blocks, from a zero block. -/
def chain (keys : List (List Nat)) (l : List Nat) : List Nat :=
  (List.range (l.length / 16)).foldl (fun c k => aesRounds keys (xorBytes c (piece 16 k l))) (List.replicate 16 0)

/-- The derivation function: 48 bytes from an input string. -/
def drbgDerive (input : List Nat) : List Nat :=
  let s := fillTo 16 (numBytes 4 input.length ++ numBytes 4 48 ++ input ++ [0x80])
  let keys := aesKeys (List.range 32)
  let t := (List.range 3).flatMap fun i => chain keys (numBytes 4 i ++ List.replicate 12 0 ++ s)
  let keys := aesKeys (t.take 32)
  ((List.range 3).foldl (fun (p : List Nat × List Nat) _ =>
    let x := aesRounds keys p.2
    (p.1 ++ x, x)) ([], piece 16 2 t)).1

/-- Instantiation and reseeding from a seed string. -/
def DrbgState.instantiate (seed : List Nat) : DrbgState := DrbgState.zero.update 0 (drbgDerive seed)
def DrbgState.reseed (d : DrbgState) (seed : List Nat) : DrbgState := d.update 0 (drbgDerive seed)

/-- One request of n blocks: its bytes, and the state that follows. -/
def DrbgState.generate (d : DrbgState) (n : Nat) : List Nat × DrbgState := (d.blocks n, d.update n (List.replicate 48 0))

/-! ### The algorithms on the machine's bytes -/

/-- Bytes as numbers and back. -/
def natsOf (l : List Byte) : List Nat := l.map fun b => b.toNat
def bytesOf (l : List Nat) : List Byte := l.map fun n => BitVec.ofNat 8 n

/-- AES-GCM as the pipes use it: ciphertext of a plaintext, or plaintext of a ciphertext, and the tag (R231, R234). -/
def gcmText (key iv data : List Byte) : List Byte := bytesOf (gcmCrypt (natsOf key) (natsOf iv) (natsOf data))
def gcmTag (key iv aad cipher : List Byte) : List Byte := bytesOf (gcmSeal (natsOf key) (natsOf iv) (natsOf aad) (natsOf cipher))

/-- SHA-256 of a byte string. -/
def sha256 (l : List Byte) : List Byte := bytesOf (sha256Nat (natsOf l))

/-- The first 16 bits of AES-CMAC, its first byte the high one (R251). -/
def cmacTag (key msg : List Byte) : Nat := bytesNum ((aesCmac (natsOf key) (natsOf msg)).take 2)

/-- An ECDSA P-256 signature of 64 bytes over a message verifies under a public key of 64 bytes (R249, Table 7.7). -/
def ecdsaVerify (pubKey msg sig : List Byte) : Bool :=
  let k := natsOf pubKey
  let g := natsOf sig
  ecdsaGood (bytesNum (k.take 32)) (bytesNum (k.drop 32)) (natsOf msg) (bytesNum (g.take 32)) (bytesNum (g.drop 32))

end Sys2Proof.Machine
end

