-- ==== Sys2Proof/Machine/Flags.lean ====
section
/-! DEFINITION. Machine/Flags.lean: interrupt sources, performance counters and yarn events: what a producer's event does to the flags
of the interrupt controller, the PMC block and the event fabric. -/

namespace Sys2Proof.Machine

open Sys2Proof

/-! ### Interrupt sources (R288 to R291) -/

/-- Source n fires: its pending bit is set (R290). Tile sources of a tile that is down produce nothing (R289, R294). -/
def State.fire (s : State) (n : Nat) : State :=
  if s.hubUp && (n < 320 || 448 ≤ n || s.tileUp ((n - 320) / 16)) then s.setBit (R.IRQ_PEND_pend (n / 32)) (n % 32) else s

/-- Fire offset k of tile t's sources (Table 9.2); its message waits where the control channel retrains (R15, R289). -/
def State.fireTile (s : State) (t k : Nat) : State :=
  if s.tileUp t && s.ctlDown t false then s.updTile t fun x => { x with irqHeld := x.irqHeld ||| 2 ^ (k % 16) }
  else s.fire (320 + 16 * (t % 8) + k)

/-- The waiting source messages of a tile go through once its control lanes are back. -/
def State.fireHeld (s : State) (t : Nat) : State :=
  if s.ctlDown t false then s
  else
    let m := (s.tile t).irqHeld
    forBits 16 m (fun k s => s.fire (320 + 16 * (t % 8) + k)) (s.updTile t fun x => { x with irqHeld := 0 })

/-! ### Performance counters (R429 to R433) -/

/-- Counter i overflows: its bit is set, source 503 fires with ovf_irq, and freeze_on_ovf freezes the block (R430, R431). -/
def State.pmcOverflow (s : State) (i : Nat) : State :=
  let s := s.setBit R.PMC_OVF_ovf i
  let s := if s.on (R.PMC_CFG_ovf_irq i) then s.fire 503 else s
  if s.on R.PMC_CTRL_freeze_on_ovf then s.set R.PMC_CTRL_freeze 1 else s

/-- Chain is in force on counter i: odd counters only (R430). -/
def State.pmcChained (s : State) (i : Nat) : Bool := i % 2 == 1 && s.on (R.PMC_CFG_chain i)

/-- Add n to counter i by itself; the answer says whether it overflowed (R430). A saturated counter overflows once. -/
def State.pmcStep (s : State) (i n : Nat) : State × Bool :=
  let v := s.get (R.PMC_CNT_count i) + n
  if v < 2 ^ 32 then (s.set (R.PMC_CNT_count i) v, false)
  else if s.on (R.PMC_CFG_sat i) then
    ({ s.set (R.PMC_CNT_count i) (2 ^ 32 - 1) with sys := { s.sys with pmcSat := s.sys.pmcSat ||| 2 ^ i } }, !s.sys.pmcSat.testBit i)
  else (s.set (R.PMC_CNT_count i) (v - 2 ^ 32), true)

/-- Counter i counts n events of an engine word at pc, if the event names one: an overflow of a counter that its odd neighbour
counts goes there, any other sets the overflow flags and the attribution of R433. -/
def State.pmcAdd (s : State) (i n : Nat) (pc : Option (Nat × Nat)) : State :=
  let (s, o) := s.pmcStep i n
  if !o then s
  else if i % 2 == 0 && s.pmcChained (i + 1) then
    let (s, o) := s.pmcStep (i + 1) 1
    if o then s.pmcOverflow (i + 1) else s
  else
    let s := match pc with
      | some (g, a) => if s.on (R.PMC_CFG_any i) then s else
        ((s.set (R.PMC_OVF_PC_valid i) 1).set (R.PMC_OVF_PC_engine i) g).set (R.PMC_OVF_PC_pc i) a
      | none => s
    s.pmcOverflow i

/-- Events without a filter: hub cycles, and the codeword queue (Table 14.8). -/
def unfiltered (ev : Nat) : Bool := ev == 0x001 || ev == 0x066

/-- n events of code ev at instance inst: every counter that selects them counts (R429), unless the block is frozen (R431) or the
hub is down. -/
def State.pmcAt (s : State) (ev inst n : Nat) (pc : Option (Nat × Nat)) : State :=
  if !s.hubUp || s.on R.PMC_CTRL_freeze then s
  else (List.range 32).foldl (fun s' i =>
    if s.on (R.PMC_CFG_en i) && !s.pmcChained i && s.get (R.PMC_CFG_event i) == ev
        && (s.on (R.PMC_CFG_any i) || unfiltered ev || s.get (R.PMC_CFG_filter i) == inst) then s'.pmcAdd i n pc else s') s

/-- One event of code ev at instance inst (Table 14.8). -/
def State.pmc (s : State) (ev inst : Nat) : State := s.pmcAt ev inst 1 none

/-- All counters are copied into the snapshot registers (R431). -/
def State.pmcSnapshot (s : State) : State :=
  (forAll 32 (fun i s' => s'.set (R.PMC_SNAP_count i) (s.get (R.PMC_CNT_count i))) s).set R.PMC_CTRL_snap 0

/-! ### The event fabric (R262 to R274). Die 0 is the hub, die 1 + t tile t. -/

/-- The fabric of a die runs (R274). -/
def State.fabricRuns (s : State) (d : Nat) : Bool := if d == 0 then s.hubUp else s.tileRuns (d - 1)

/-- First cell and number of cells of a die. -/
def cellBase (d : Nat) : Nat := if d == 0 then 0 else 32 + 8 * (d - 1)
def cellCount (d : Nat) : Nat := if d == 0 then 32 else 8
/-- The yarn that cell n of a die drives (Tables 8.2, 8.3). -/
def cellYarn (d n : Nat) : Nat := if d == 0 then 64 + n else 8 + n

/-- The value of a cell input with select code c in a cycle with the given yarn pulses (R271). Levels of cells are read as they
stand before the cycle, which is F of the same cycle for a cell with its flip-flop in use and of the cycle before for one without. -/
def State.cellInput (s : State) (d : Nat) (pulses : List Nat) (c : Nat) : Bool :=
  if d == 0 then
    if c < 0x80 then pulses.contains c
    else if c < 0xA0 then s.on (R.YRN_CELL_STAT_level (c - 0x80))
    else if c < 0xB0 then s.pins.gpIn.testBit (c - 0xA0)
    else false
  else
    if c < 0x20 then pulses.contains c
    else if 0x80 ≤ c && c < 0x88 then s.on (R.YRN_CELL_STAT_level (cellBase d + (c - 0x80)))
    else false

/-- L of a cell in a cycle (R270 steps 1 and 2). -/
def State.cellLut (s : State) (d : Nat) (pulses : List Nat) (k : Nat) : Bool :=
  let v (c : Nat) : Nat := if s.cellInput d pulses c then 1 else 0
  (s.get (R.YRN_CELL_CFG_lut k)).testBit
    (v (s.get (R.YRN_CELL_IN_a k)) + 2 * v (s.get (R.YRN_CELL_IN_b k)) + 4 * v (s.get (R.YRN_CELL_IN_c k)) + 8 * v (s.get (R.YRN_CELL_IN_d k)))

/-- S of a cell after a cycle (R270 step 3). -/
def State.cellNextS (s : State) (d : Nat) (pulses : List Nat) (k : Nat) : Bool :=
  let clk := s.get (R.YRN_CELL_CFG_clk k)
  let limit := if d == 0 then 0x80 else 0x20
  if clk == 0xFE then s.cellLut d pulses k
  else if clk < limit then (if pulses.contains clk then s.cellLut d pulses k else s.on (R.YRN_CELL_STAT_s k))
  else s.cellLut d pulses k

/-- The filter length in force: above 16 taken as 16 (R270 step 4). -/
def State.cellFilt (s : State) (k : Nat) : Nat := min (s.get (R.YRN_CELL_CFG_filt k)) 16

/-- The output yarn fires for a level going from old to new (R270 step 5). -/
def edgeFires (edge : Nat) (old new : Bool) : Bool :=
  match edge with
  | 0 => new
  | 1 => !old && new
  | 2 => old && !new
  | _ => old != new

/-- An event is produced on a yarn of a die, to reach its consumers after that many cycles; events that meet on one yarn in one cycle are one (R262,
R266). A stopped fabric produces none (R274). -/
def State.produce (s : State) (d w delay : Nat) : State :=
  if s.fabricRuns d && !s.yrn.flying.contains (d, w, delay) then
    { s with yrn := { s.yrn with flying := s.yrn.flying ++ [(d, w, delay)] } }
  else s

/-- A hub yarn event: its consumers see it 2 cycles later (R266). -/
def State.yarn (s : State) (w : Nat) : State := s.produce 0 w 2
/-- A tile yarn event. -/
def State.tileYarn (s : State) (t w : Nat) : State := s.produce (t % 8 + 1) w 2

/-- The flip-flop of a cell is in use: clk is 0xFE or names a yarn of the die (R270). -/
def State.cellClocked (s : State) (d k : Nat) : Bool :=
  let clk := s.get (R.YRN_CELL_CFG_clk k)
  clk == 0xFE || clk < (if d == 0 then 0x80 else 0x20)

/-- One cell acts on one cycle: S, the filter count, F, and its output yarn on its way to its consumers, who see it 2 cycles after the cycle in which F
stands so: that is the next one where the flip-flop is in use (R270). -/
def State.cellStep (s0 : State) (d : Nat) (pulses : List Nat) (n : Nat) (s : State) : State :=
  let k := cellBase d + n
  if !s0.on (R.YRN_CELL_CTRL_en k) then s
  else
    let sNew := s0.cellNextS d pulses k
    let old := s0.on (R.YRN_CELL_STAT_level k)
    let held := if sNew == s0.on (R.YRN_CELL_STAT_s k) then min 16 ((vget s0.yrn.cells k).held + 1) else 1
    let f := if s0.cellFilt k < 2 || s0.cellFilt k ≤ held then sNew else old
    let s := (s.set (R.YRN_CELL_STAT_s k) sNew.toNat).set (R.YRN_CELL_STAT_level k) f.toNat
    let s := { s with yrn := { s.yrn with cells := vset s.yrn.cells k ⟨held⟩ } }
    if edgeFires (s0.get (R.YRN_CELL_CFG_edge k)) old f then s.produce d (cellYarn d n) (if s0.cellClocked d k then 3 else 2) else s

/-- Output register of a GP pin. -/
def State.gpDrive (s : State) (g : Nat) (level : Bool) : State :=
  if s.pins.gpOut.testBit g == level then s else { s with pins := { s.pins with gpOut := s.pins.gpOut ^^^ 2 ^ g } }

/-- The level that the module puts on a GP pin, by YRN_GP.dir: a push-pull output drives both levels, an open-drain output the low one; an input,
and dir 3, none (R273, Table 8.5). -/
def State.gpPad (s : State) (g : Nat) : Option Bool :=
  match s.get (R.YRN_GP_dir g) with
  | 1 => some (s.pins.gpOut.testBit g)
  | 2 => if s.pins.gpOut.testBit g then none else some false
  | _ => none

/-- One cycle of the output paths: a running pulse comes one cycle nearer to its end, and a pin with out_src 1 takes the level that its cell had two
cycles ago (R273). -/
def State.gpCycle (s : State) : State :=
  let levels := maskOf 32 fun n => s.on (R.YRN_CELL_STAT_level n)
  let due := s.pins.gpCells.2
  let s := { s with pins := { s.pins with gpCells := (levels, s.pins.gpCells.1) } }
  forAll 16 (fun g s =>
    let left := vget s.pins.gpPulse g
    let s := if left = 0 then s else { s with pins := { s.pins with gpPulse := vset s.pins.gpPulse g (left - 1) } }
    let s := if left = 1 then s.gpDrive g false else s
    if s.get (R.YRN_GP_out_src g) == 1 then s.gpDrive g (due.testBit (s.get (R.YRN_GP_sel g) % 32)) else s) s

/-- A yarn event reaches the GP pins that select it: an 8-cycle pulse, whose overlap is dropped with ovr, or a toggle (R273). -/
def State.gpEvent (s : State) (w : Nat) : State :=
  forAll 16 (fun g s =>
    if s.get (R.YRN_GP_sel g) != w then s
    else if s.get (R.YRN_GP_out_src g) == 2 then
      if vget s.pins.gpPulse g != 0 then (s.set (R.YRN_GP_ovr g) 1).fire 114
      else { s.gpDrive g true with pins := { (s.gpDrive g true).pins with gpPulse := vset s.pins.gpPulse g 8 } }
    else if s.get (R.YRN_GP_out_src g) == 3 then s.gpDrive g (!s.pins.gpOut.testBit g)
    else s) s

/-- An event enters a hub import from its tile, which holds two at most: a third is dropped and sets ovr (R268). -/
def State.hubImport (s : State) (k t : Nat) : State :=
  let q := vget s.yrn.hubImp k
  if q.length < 2 then { s with yrn := { s.yrn with hubImp := vset s.yrn.hubImp k (q ++ [(24, t)]) } }
  else (s.set (R.YRN_IMPORT_ovr k) 1).fire 113

/-- An event enters tile import 8 t + k; toward a tile that is not powered it is dropped without ovr (R268). -/
def State.tileImport (s : State) (k : Nat) : State :=
  let q := vget s.yrn.tileImp k
  if !s.tileUp (k / 8) then s
  else if q.length < 2 then { s with yrn := { s.yrn with tileImp := vset s.yrn.tileImp k (q ++ [24]) } }
  else (s.set (R.TILE_YRN_IMPORT_ovr (k / 8) (k % 8)) 1).fire 113

/-- The fabric of a die stops: what is on its way on it is lost, and so are the events that cross to and from a tile; its cells will start anew
(R268, R274, Table 8.5). -/
def State.fabricStop (s : State) (d : Nat) : State :=
  let ofTile (k : Nat) : Bool := 0 < d && k / 8 == d - 1
  let toHub (q : List (Nat × Nat)) : List (Nat × Nat) := q.filter fun (x : Nat × Nat) => 0 < d && x.2 != d - 1
  { s with yrn :=
    { cells := .ofFn fun k : Fin 96 => if cellBase d ≤ k.val && k.val < cellBase d + cellCount d then ⟨0⟩ else vget s.yrn.cells k.val,
      hubImp := s.yrn.hubImp.map toHub,
      tileImp := .ofFn fun k : Fin 64 => if d == 0 || ofTile k.val then [] else vget s.yrn.tileImp k.val,
      flying := s.yrn.flying.filter fun (x : Nat × Nat × Nat) => x.1 != d } }

/-- One yarn event on a die reaches its flag, the counter snapshot, the interrupt selects, the imports and the pins (R265 to R269, R288, R431). -/
def State.yarnFlags (s : State) (d w : Nat) : State :=
  if d == 0 then
    let s := if s.get R.PMC_CTRL_snap_sel == w then s.pmcSnapshot else s
    let s := s.setBit (R.YRN_SEEN_seen (w / 32)) (w % 32)
    let s := forAll 16 (fun k s => if s.get (R.IRQ_YSEL_sel k) == w then s.fire (32 + k) else s) s
    let s := forAll 64 (fun k s => if s.get (R.TILE_YRN_IMPORT_sel (k / 8) (k % 8)) == w then s.tileImport k else s) s
    s.gpEvent w
  else
    let t := d - 1
    let s := s.setBit (R.TILE_YRN_SEEN_seen t) w
    let s := forAll 4 (fun k s => if s.get (R.TILE_IRQ_YSEL_sel t k) == w then s.fireTile t (12 + k) else s) s
    forAll 16 (fun k s =>
      if s.get (R.YRN_IMPORT_tile k) == t && s.get (R.YRN_IMPORT_sel k) == w then s.hubImport k t else s) s

end Sys2Proof.Machine
end

