-- ==== Sys2Proof/Machine/Power.lean ====
section
/-! DEFINITION. Machine/Power.lean: votes on power domains, the rails a vote raises, and who holds the module up (chapter 10, R295 to
R298, R301, R446). The steps of chapter 10 themselves stand in Machine/PowerSteps.lean. -/

namespace Sys2Proof.Machine

open Sys2Proof

/-- The keel's vote on a domain (R227). -/
def State.keelVote (s : State) (d : Nat) : Bool := s.bit R.PWR_KEEL_VOTE_vote d

/-- PWR_FORCE_OFF acts on the domain (R301): bits 1 to 14. -/
def State.forcedOff (s : State) (d : Nat) : Bool := 1 ≤ d && d ≤ 14 && s.bit R.PWR_FORCE_OFF_force (d - 1)

/-- The domain is wanted up: a keel vote, or any vote while it is not forced off (R296, R301); a thermal shutdown forces every tile down
whatever votes (R446). -/
def State.wanted (s : State) (d : Nat) : Bool :=
  if 1 ≤ d && d ≤ 8 && s.on R.PWR_THERM_shut then false
  else s.keelVote d || (!s.forcedOff d && s.get (R.PWR_VOTE_votes d) != 0)

/-- The domain is up or rising, as R295 counts it for its dependency vote. -/
def State.domUpOrRising (s : State) (d : Nat) : Bool := s.domUp d || s.dom d == .rising

/-- Some tile domain is up or rising (Table 10.3). -/
def State.anyTile (s : State) : Bool := (List.range 8).any fun t => s.domUpOrRising (t + 1)

/-- The span of PWR_EN[k] that begins now lasts some milliseconds. -/
def State.railSpan (s : State) (k ms : Nat) : State :=
  let now := s.now
  { s with pwr := { s.pwr with railEnd := vset s.pwr.railEnd k (now + 1250000 * ms) } }

/-- Raise PWR_EN[k], at the end of the 2 ms for which it is held low if that span is running (R438). -/
def State.enableRail (s : State) (k : Nat) : State :=
  if s.pwr.lowHold.testBit k then { s with pwr := { s.pwr with wakeHeld := s.pwr.wakeHeld ||| 2 ^ k } }
  else if s.pwr.pwrEn.testBit k then s
  else { s.railSpan k 10 with pwr := { (s.railSpan k 10).pwr with pwrEn := s.pwr.pwrEn ||| 2 ^ k } }

/-- With the RF rails low, the first tile vote raises them, PWR_EN[2] on PWR_GOOD[1] and PWR_EN[3] on PWR_GOOD[2] (R298, R456); a thermal
shutdown keeps them low (R446). -/
def State.raiseRf (s : State) : State :=
  if s.on R.PWR_THERM_shut || !s.pwr.pwrGood.testBit 1 then s
  else if !s.pwr.pwrEn.testBit 2 then s.enableRail 2
  else if !s.pwr.pwrEn.testBit 3 && s.pwr.pwrGood.testBit 2 then s.enableRail 3
  else s

/-- Report the module state while the hub core is up (Table 10.3). The tick of an entry to DOZE is kept (R20). -/
def State.refreshMode (s : State) : State :=
  if !s.hubUp then s
  else if s.anyTile then { s with pwr := { s.pwr with mode := .run } }
  else
    let now := s.now
    { s with pwr := { s.pwr with mode := .doze, dozeAt := if s.pwr.mode = .doze then s.pwr.dozeAt else now } }

/-- Ticks of a domain's rise and of its fall (Table 10.1); the hub core's rise is the one from MOOR. -/
def riseTicks (d : Nat) : Nat :=
  1250 * (if d = 0 then 170 else if d ≤ 8 then 180 else if d ≤ 10 then 20 else if d ≤ 12 then 4 else if d = 13 then 50 else 200)
def State.fallTicks (s : State) (d : Nat) : Nat :=
  1250 * (if d = 0 then (if s.wanted 15 then 60 else 80) else if d ≤ 8 then 10 else if d ≤ 10 then 2 else if d = 13 then 5 else 1)

/-- A domain enters a phase that lasts for a while: its linger, its rise or its fall (R296, Table 10.1). -/
def State.beginDom (s : State) (d : Nat) (p : DomPhase) : State :=
  let span := match p with
    | .linger => 1250 * s.get (R.PWR_LINGER_us d)
    | .rising => riseTicks d
    | _ => s.fallTicks d
  let now := s.now
  { s.setDom d p with pwr := { (s.setDom d p).pwr with spanEnd := vset s.pwr.spanEnd d (now + span) } }

/-- The present phase of a domain has lasted its time. -/
def State.domSpan (s : State) (d : Nat) : State := s.reach (vget s.pwr.spanEnd d)

/-- After a change of votes on the hub core: a linger starts or ends, or a wish to rise again is noted (R296). -/
def State.settleHub (s : State) : State :=
  match s.dom 0, s.wanted 0 with
  | .linger, true => s.setDom 0 .up
  | .falling, b => { s with pwr := { s.pwr with riseAgain := if b then s.pwr.riseAgain ||| 1 else s.pwr.riseAgain / 2 * 2 } }
  | .up, false => s.beginDom 0 .linger
  | _, _ => s

/-- The dependency vote of the domains that need the hub core: 1 to 13 (R295). -/
def State.refreshDep (s : State) : State :=
  (s.putBit (R.PWR_VOTE_votes 0) 26 ((List.range 13).any fun d => s.domUpOrRising (d + 1))).settleHub

/-- The domain begins to rise (R295, R296); a tile rise calls for the RF rails (R298). -/
def State.riseDom (s : State) (d : Nat) : State :=
  let s := (s.beginDom d .rising).refreshDep
  (if 1 ≤ d && d ≤ 8 then s.raiseRf else s).refreshMode

/-- After a change of votes on domain d (R296). A domain that needs the hub core rises only while the core is up; the retain domain has no
rise of its own. -/
def State.settle (s : State) (d : Nat) : State :=
  if d == 0 then s.settleHub
  else
    match s.dom d, s.wanted d with
    | .down, true => if d == 15 then s.setDom 15 .up else if d == 14 || s.hubUp then s.riseDom d else s
    | .linger, true => s.setDom d .up
    | .falling, b => { s with pwr := { s.pwr with riseAgain :=
        if b then s.pwr.riseAgain ||| 2 ^ d else s.pwr.riseAgain - (if s.pwr.riseAgain.testBit d then 2 ^ d else 0) } }
    | .up, false => s.beginDom d .linger
    | _, _ => s

/-- A client sets its vote bit k on domain d. -/
def State.vote (s : State) (d k : Nat) : State := (s.setBit (R.PWR_VOTE_votes d) k).settle d

/-- A client withdraws its vote bit k on domain d. -/
def State.unvote (s : State) (d k : Nat) : State := (s.clrBit (R.PWR_VOTE_votes d) k).settle d

/-- Give vote bit k on domain d the value b. -/
def State.putVote (s : State) (d k : Nat) (b : Bool) : State := if b then s.vote d k else s.unvote d k

/-! ### Wake receivers (R312) -/

/-- State of wake receiver n: 0 SLEEP, 1 LISTEN, 2 DETECT, 3 BELL_TX. -/
def State.wkState (s : State) (n : Nat) : Nat := s.get R.AON_WK_STATE_states / 4 ^ n % 4

/-- Give wake receiver n a state. -/
def State.setWk (s : State) (n v : Nat) : State :=
  s.set R.AON_WK_STATE_states (s.get R.AON_WK_STATE_states - s.wkState n * 4 ^ n + v % 4 * 4 ^ n)

/-- The enabled receivers are blanked for a bell transmission, and resume after it (Table 10.8). -/
def State.wkBlank (s : State) : State := forAll 4 (fun n s => if s.wkState n = 0 then s else s.setWk n 3) s
def State.wkResume (s : State) : State := forAll 4 (fun n s => if s.wkState n = 3 then s.setWk n 1 else s) s

end Sys2Proof.Machine
end

