-- ==== Sys2Proof/Machine/CrcOps.lean ====
section
/-! DEFINITION. Machine/CrcOps.lean: the check values of R209 and their uses: the frame check value (R254), the MAC header CRC-16 (R162)
and the PHY field's crc8 (R122). -/

namespace Sys2Proof.Machine

open Sys2Proof

/-- One bit of a reflected polynomial. -/
def crcReflStep (poly reg : Nat) : Nat := if reg.testBit 0 then (reg >>> 1) ^^^ poly else reg >>> 1

/-- One bit of a polynomial of n bits, most significant bit first. -/
def crcStep (n poly reg : Nat) : Nat := if reg.testBit (n - 1) then (reg <<< 1) % 2 ^ n ^^^ poly else (reg <<< 1) % 2 ^ n

/-- Register width of a polynomial (R209). -/
def crcWidth (poly : Nat) : Nat := match poly with | 0 => 32 | 1 => 32 | 2 => 16 | _ => 8

/-- Advance a check value by one byte with the selected polynomial (R209). -/
def crcByte (poly poly8 : Nat) (reg : Nat) (b : Nat) : Nat :=
  let n := crcWidth poly
  let x := reg % 2 ^ n ^^^ (if poly < 2 then b % 256 else (b % 256) <<< (n - 8))
  (List.range 8).foldl (fun r _ =>
    match poly with
    | 0 => crcReflStep 0x82F63B78 r
    | 1 => crcReflStep 0xEDB88320 r
    | 2 => crcStep 16 0x1021 r
    | _ => crcStep 8 (poly8 % 256) r) x

/-- Advance a check value by the n low bytes of a number, low byte first. -/
def crcFeed (poly poly8 : Nat) : Nat → Nat → Nat → Nat
  | 0, _, reg => reg
  | n + 1, v, reg => crcFeed poly poly8 n (v / 256) (crcByte poly poly8 reg v)

/-- Advance a check value by a byte string. -/
def crcBytes (poly poly8 : Nat) (reg : Nat) (l : List Byte) : Nat := l.foldl (fun r b => crcByte poly poly8 r b.toNat) reg

/-- The header CRC-16 of R162. -/
def headerCrc (l : List Byte) : Nat := crcBytes 2 0 0xFFFF l

/-- The PHY field's crc8 of R122. -/
def phyCrc (l : List Byte) : Nat := crcBytes 3 7 0 l

/-- CRC-32C with initial value and final XOR 0xFFFF_FFFF. -/
def crc32c (l : List Byte) : Nat := crcBytes 0 0 0xFFFFFFFF l ^^^ 0xFFFFFFFF

/-- The fold of R254: dst, src, seq and the crossing's xid, each low byte first. -/
def fold (dst src seq xid : Nat) : List Byte := toBytes 2 dst ++ toBytes 2 src ++ toBytes 4 seq ++ toBytes 2 xid

/-- The frame check value over the fold and the bytes after the header (R254). -/
def frameCheck (dst src seq xid : Nat) (body : List Byte) : Nat := crc32c (fold dst src seq xid ++ body)

end Sys2Proof.Machine
end

