-- ==== Sys2Proof/Machine/Fixed.lean ====
section
/-! DEFINITION. Machine/Fixed.lean: rounding, saturation and the irrational factors of the arithmetic rules: roots by integer search, and powers,
turns, levels and angles held to 160 fraction bits (R36, R45, R73, R75, R109; log 6). -/

namespace Sys2Proof.Machine

open Sys2Proof

/-- The largest number of n bits above r, in its low bits, at which a falling property holds. -/
def bitSearch (p : Nat → Bool) : Nat → Nat → Nat
  | 0, r => r
  | n + 1, r => bitSearch p n (if p (r + 2 ^ n) then r + 2 ^ n else r)

/-- Round a quotient to the nearest integer, ties to even (R75). -/
def rne (a : Int) (b : Nat) : Int :=
  let q := a / (b : Int)
  let r := a % (b : Int)
  if 2 * r < b then q else if (b : Int) < 2 * r then q + 1 else if q % 2 = 0 then q else q + 1

/-- Saturate to n bits, two's complement. -/
def satI (n : Nat) (v : Int) : Int := clampI (-(2 ^ (n - 1) : Int)) (2 ^ (n - 1) - 1) v

/-- v times the p-th root of num/den, rounded to the nearest integer, ties to even, of at most 18 bits. -/
def scaleRoot (p num den : Nat) (v : Int) : Int :=
  let lhs (y : Nat) : Nat := (2 * y - 1) ^ p * den
  let rhs := (2 * v.natAbs) ^ p * num
  let y := bitSearch (fun y => y = 0 || lhs y < rhs || (lhs y == rhs && y % 2 == 0)) 18 0
  if v < 0 then -(y : Int) else y

/-! ### Complex numbers with 160 fraction bits -/

/-- One, with 160 fraction bits. -/
def fixOne : Int := 2 ^ 160

/-- The product of two complex numbers. -/
def fixMul (x y : Int × Int) : Int × Int := ((x.1 * y.1 - x.2 * y.2) / fixOne, (x.1 * y.2 + x.2 * y.1) / fixOne)

/-- The n-th power of a complex number, for n below 2^k. -/
def fixPow : (k : Nat) → Int × Int → Nat → Int × Int
  | 0, _, _ => (fixOne, 0)
  | k + 1, z, n =>
    let r := fixPow k (fixMul z z) (n / 2)
    if n % 2 = 1 then fixMul z r else r

/-- One phase step, 1.40625 degrees (Table 2.2). -/
def phaseStep : Int × Int := (1461061460362271929816850245108502424713109157523, 35867045668348165100330704748265615039698120606)

/-- One thousandth of a degree. -/
def milliDegree : Int × Int := (1461501637108303489320440670390565686952426185992, 25508015593417296358656354266826386705234047)

/-- 0.1 dB of gain, and its inverse (Table 2.2). -/
def gainStep : Int × Int := (1478425028691142910333798431422734812440384068696, 0)
def gainStepDown : Int × Int := (1444771966429647172307035939241580248622021125593, 0)

/-- The power ratio of 1/1000 dB. -/
def milliBel : Int × Int := (1461838199265891075326287487420195236580494862938, 0)

/-- The turn by a phase code; multiples of 90 degrees are exact. -/
def phaseTurn (code : Nat) : Int × Int :=
  let r := fixPow 6 phaseStep (code % 64)
  match code / 64 % 4 with
  | 0 => r
  | 1 => (-r.2, r.1)
  | 2 => (-r.1, -r.2)
  | _ => (r.2, -r.1)

/-- The complex factor of a trim register's contents, phase code times 256 plus signed gain code (R37, Tables 2.2, 2.10). -/
def trimFactor (trim : Nat) : Int × Int :=
  let g := signed 6 (trim % 64)
  fixMul (phaseTurn (trim / 256)) (fixPow 6 (if g < 0 then gainStepDown else gainStep) g.natAbs)

/-- A complex sample times a factor, over a divisor, each component rounded to the nearest, ties to even (R69, R75). -/
def timesOver (f x : Int × Int) (d : Nat) : Int × Int :=
  (rne (x.1 * f.1 - x.2 * f.2) (d * fixOne.toNat), rne (x.1 * f.2 + x.2 * f.1) (d * fixOne.toNat))

/-- The level of a complex number in 1/1000 dB, 20 log10 of its magnitude, rounded down (R109); 0 for zero. -/
def levelOf (z : Int × Int) : Int :=
  let m := z.1 * z.1 + z.2 * z.2
  bitSearch (fun k => (fixPow 21 milliBel k).1 ≤ m * fixOne) 21 0

/-- The angle of a complex number in 1/1000 degree, from 0 on, rounded down (R109); 0 for zero. -/
def angleOf (z : Int × Int) : Int :=
  let (quarter, x, y) : Int × Int × Int :=
    if 0 < z.1 && 0 ≤ z.2 then (0, z.1, z.2) else if z.1 ≤ 0 && 0 < z.2 then (1, z.2, -z.1)
    else if z.1 < 0 && z.2 ≤ 0 then (2, -z.1, -z.2) else (3, -z.2, z.1)
  let a := bitSearch (fun k => k < 90000 && let r := fixPow 17 milliDegree k; x * r.2 ≤ y * r.1) 17 0
  90000 * quarter + a

end Sys2Proof.Machine
end

