-- ==== Sys2Proof/Machine/Elements.lean ====
section
/-! DEFINITION. Machine/Elements.lean: element transceivers, their update points, masks and turns, the synthesisers and the EIRP
governor (chapter 2). -/

namespace Sys2Proof.Machine

open Sys2Proof

/-! ### Channels (R58 to R61) -/

/-- Channel numbers of Table 2.5. -/
def channelOk (c : Nat) : Bool := (1 ≤ c && c ≤ 6) || (9 ≤ c && c ≤ 13)

/-- Channel index i of the cap table (Table 2.5). -/
def channelIndex (c : Nat) : Nat := if c ≤ 6 then c - 1 else c - 3

/-- The channel of the synthesiser that feeds the elements. -/
def State.liveChannel (s : State) : Nat :=
  if s.on R.RF_CHAN_STATUS_live_sel then s.get R.RF_CHAN_ch_b else s.get R.RF_CHAN_ch_a

/-- The live channel is bonded (R112). With no channel the bonded grid is used (log 11). -/
def State.bonded (s : State) : Bool := s.liveChannel == 0 || 9 ≤ s.liveChannel

/-- Ticks of a block on the live channel (R113). -/
def State.blockTicks (s : State) : Nat := if s.bonded then 160 else 320

/-- Blocks of a window on the live channel (R113). -/
def State.blocksPerWindow (s : State) : Nat := if s.bonded then 8 else 4

/-- The tile's radio is in WARM or above. -/
def TileSt.warmUp (x : TileSt) : Bool := x.radio != .off

/-- RF_CHAN_STATUS.lock_a and lock_b follow the tiles in WARM or above (R59). -/
def State.refreshLocks (s : State) : State :=
  let warm := (List.range 8).filter fun t => (s.tile t).warmUp
  let a := !warm.isEmpty && warm.all fun t => (s.tile t).lockA
  let b := !warm.isEmpty && warm.all fun t => (s.tile t).lockB
  (s.set R.RF_CHAN_STATUS_lock_a a.toNat).set R.RF_CHAN_STATUS_lock_b b.toNat

/-- The synthesiser that feeds a tile's elements has a channel and is locked on it (R60). -/
def State.tileLocked (s : State) (t : Nat) : Bool :=
  s.liveChannel != 0 && (if s.on R.RF_CHAN_STATUS_live_sel then (s.tile t).lockB else (s.tile t).lockA)

/-! ### Crossings in progress -/

/-- Crossings that have started and not ended. -/
def State.inProgress (s : State) : List Crossing := s.xng.fetched.filter (·.started)

/-- Some crossing in progress uses tile t. -/
def State.tileBusy (s : State) (t : Nat) : Bool := s.inProgress.any fun c => c.tiles.testBit (t % 8)

/-- Slots with a transmit crossing in progress. -/
def State.txSlots (s : State) : List Nat := (s.inProgress.filter (·.d.dir == 1)).map (·.d.slot)

/-! ### Weight sums and masks (R53 to R56) -/

/-- Components of a fragment word as Q1.11 integers (Table 3.2). -/
def weightI (w : Nat) : Int := signed 12 w
def weightQ (w : Nat) : Int := signed 12 (w / 4096)

/-- The magnitude of a weight to 12 bits, rounded down (R56; log 12). -/
def weightMag (w : Nat) : Nat :=
  let m := (weightI w * weightI w + weightQ w * weightQ w).toNat
  bitSearch (fun r => r * r ≤ m) 12 0

/-- Sum of the weight magnitudes of the elements that p keeps (R56). -/
def magSum (p : Nat → Bool) : Nat → List Nat → Nat
  | _, [] => 0
  | j, w :: rest => (if p j then weightMag w else 0) + magSum p (j + 1) rest

/-- Element j of a tile is masked (ELEM_STATUS.masked). -/
def State.masked (s : State) (e : Nat) : Bool := s.on (R.ELEM_STATUS_masked e)

/-- The sums of a bank under the tile's present mask (R56). -/
def State.withSums (s : State) (t : Nat) (b : Bank) : Bank :=
  { b with sAll := magSum (fun _ => true) 0 b.words, sLive := magSum (fun j => !s.masked (64 * (t % 8) + j)) 0 b.words }

/-- The tile recomputes S_live of both banks of every slot (R56). -/
def State.recomputeLive (s : State) (t : Nat) : State :=
  s.updTile t fun x => { x with banks := x.banks.map fun p => ⟨s.withSums t p.active, s.withSums t p.shadow⟩ }

/-- A cause of masking holds (R53). -/
def State.maskCause (s : State) (e : Nat) : Bool :=
  (s.elem e).liveMask || s.on (R.ELEM_STATUS_pa_trip e)
    || (s.on (R.ELEM_STATUS_dc_rail e) && s.on (R.ELEM_CTRL_auto_mask_dc e))

/-- Mask an element at once: its DAC is forced to zero, and the tile's sums come up to date (R51, R53, R56). -/
def State.maskNow (s : State) (e : Nat) : State :=
  if s.masked e then s else ((s.set (R.ELEM_STATUS_masked e) 1).updElem e fun x => { x with dac := (0, 0) }).recomputeLive (e / 64)

/-- A fine DC value as applied reaches 96 LSB: dc_rail, and a mask where auto_mask_dc says so (R46). -/
def State.dcCheck (s : State) (e : Nat) : State :=
  if (s.elem e).fineI.natAbs < 1536 && (s.elem e).fineQ.natAbs < 1536 then s
  else
    let was := s.on (R.ELEM_STATUS_dc_rail e)
    let s := s.set (R.ELEM_STATUS_dc_rail e) 1
    let s := if was then s else s.fireTile (e / 64) 9
    if s.on (R.ELEM_CTRL_auto_mask_dc e) then s.maskNow e else s

/-- The fine loop of an element takes a value (R45, R47, R68). -/
def State.setFine (s : State) (e : Nat) (i q : Int) : State :=
  s.updElem e fun x => { x with fineI := i, fineQ := q, accI := i * 2 ^ 20, accQ := q * 2 ^ 20, fineWas := [] }

/-- A fine DC value referred to VGA 12 dB, as applied at a VGA gain: scaled by the gain ratio, within the loop's 12 bits (R44, R45, R75). -/
def fineApplied (vga : Nat) (v : Int) : Int := satI 12 (scaleRoot 20 (10 ^ (vga - 12)) (10 ^ (12 - vga)) v)

/-- A live fine DC value referred back to VGA 12 dB (R45). -/
def fineStored (vga : Nat) (v : Int) : Int := satI 12 (scaleRoot 20 (10 ^ (12 - vga)) (10 ^ (vga - 12)) v)

/-- Restore of a receiving element: the coarse code and the fine value of the live LNA step, the latter scaled to the live VGA gain (R45 to R47). -/
def State.restoreRx (s : State) (e : Nat) : State :=
  if s.masked e then s
  else
    let k := s.get (R.ELEM_RX_GAIN_lna e)
    let vga := s.get (R.ELEM_RX_GAIN_vga e)
    let code := (s.getS (R.ELEM_DC_COARSE_i e k), s.getS (R.ELEM_DC_COARSE_q e k))
    let s := s.setFine e (fineApplied vga (s.getS (R.ELEM_DC_FINE_i e k))) (fineApplied vga (s.getS (R.ELEM_DC_FINE_q e k)))
    (s.updElem e fun x => { x with coarse := code }).dcCheck e

/-- Restore of a transmitting element: ELEM_DC_TX (R47). The transmit trims in force are calTx. -/
def State.restoreTx (s : State) (e : Nat) : State :=
  if s.masked e then s
  else
    let code := (s.getS (R.ELEM_DC_TX_i e), s.getS (R.ELEM_DC_TX_q e))
    s.updElem e fun x => { x with dcTx := code }

/-- Every element of a tile restores its stored state for the direction that the tile is in (R47). -/
def State.restoreTile (s : State) (t : Nat) : State :=
  match (s.tile t).radio with
  | .rx => forAll 64 (fun j s => s.restoreRx (64 * (t % 8) + j)) s
  | .tx => forAll 64 (fun j s => s.restoreTx (64 * (t % 8) + j)) s
  | _ => s

/-- The element writes its live fine value back into the store of the live LNA step (R45). -/
def State.writeBackFine (s : State) (e : Nat) : State :=
  let k := s.get (R.ELEM_RX_GAIN_lna e)
  let vga := s.get (R.ELEM_RX_GAIN_vga e)
  (s.setS (R.ELEM_DC_FINE_i e k) (fineStored vga (s.elem e).fineI)).setS (R.ELEM_DC_FINE_q e k) (fineStored vga (s.elem e).fineQ)

/-- One element at an update point: an armed element takes its shadow gain and mask; a mask comes off only where no crossing in
progress uses the tile (R39, R54). -/
def State.elemUpdate (s : State) (e : Nat) (mayUnmask : Bool) : State :=
  let s := if s.on (R.ELEM_STATUS_armed e) then
      let s := ((s.set (R.ELEM_RX_GAIN_lna e) (s.get (R.ELEM_RX_GAIN_SH_lna e))).set (R.ELEM_RX_GAIN_vga e) (s.get (R.ELEM_RX_GAIN_SH_vga e))).set
        (R.ELEM_STATUS_armed e) 0
      let m := s.on (R.ELEM_CTRL_mask e)
      s.updElem e fun x => { x with liveMask := m }
    else s
  if s.maskCause e then s.set (R.ELEM_STATUS_masked e) 1
  else if mayUnmask then s.set (R.ELEM_STATUS_masked e) 0
  else s

/-- A commit arms the shadows of every element of the tile (R39). -/
def State.armTile (s : State) (t : Nat) : State :=
  forAll 64 (fun j s => s.set (R.ELEM_STATUS_armed (64 * (t % 8) + j)) 1) s

/-! ### The EIRP governor (R57, R62 to R67, R99) -/

/-- Round up to a multiple of 0.25 dB, in 1/64 dB. -/
def roundUpQ (v : Int) : Int := -((-v) / 16) * 16

/-- l_mask: the largest k with 10^(k/1280) at most S_all / S_live, at most 4,095 (R57). -/
def maskLoss (sAll sLive : Nat) : Nat :=
  bitSearch (fun k => 10 ^ k * sLive ^ 1280 ≤ sAll ^ 1280) 12 0

/-- 10^(1/640) in units of 2^-256, rounded down: one 1/64 dB step of power. -/
def powerStep : Nat := 116209435077322763758902751362902526147618338751899150615103294762070784150384

/-- 10^(x/640) in units of 2^-256, rounded down. -/
def powerOf (x : Nat) : Nat := powerStep ^ x * 2 ^ 256 / 2 ^ (256 * x)

/-- The sum of the beams' powers, levels in 1/64 dB, is at most the power of level cap (R64 step 2). The powers themselves are compared, not p_agg rounded
to 1/64 dB: the sums are held to 256 fraction bits, and a difference within their rounding counts as equal (log 134). -/
def powersWithin (levels : List Int) (cap : Int) : Bool :=
  let base := levels.foldl min cap
  (levels.map fun v => powerOf (v - base).toNat).foldl (· + ·) 0 ≤ powerOf (cap - base).toNat + 2 ^ 32

/-- The extra backoff of R64 step 2: the least multiple of 0.25 dB that brings the aggregate to the cap, searched upward. -/
def extraBackoff (levels : List Int) (cap : Int) : Nat → Int → Int
  | 0, q => q
  | n + 1, q => if powersWithin (levels.map (· - q)) cap then q else extraBackoff levels cap n (q + 16)

/-- What the governor knows of one transmitting slot. -/
structure Beam where
  slot : Nat
  loss : Nat
  live : Bool
  level : Int
  deriving DecidableEq, Repr

/-- The slot's beam: sums of the eight tiles, elements on a tile not in TX counted as masked (R56, R57), and its level e_b in 1/64 dBm
(R64). -/
def State.beamOf (s : State) (n : Nat) : Beam :=
  let sAll := (List.range 8).foldl (fun a t => a + (s.bank t n).active.sAll) 0
  let sLive := (List.range 8).foldl (fun a t => a + if (s.tile t).radio = .tx then (s.bank t n).active.sLive else 0) 0
  let loaded := s.on (R.BF_BANK_active_valid n) && s.on (R.BF_BANK_dir n)
  let loss := if sLive = 0 then 4095 else maskLoss sAll sLive
  let e := match (s.slot n).active with | some c => c.eSw | none => 0
  let adj := clampI (-128) 512 (s.getS R.EIRP_ADJ_adj)
  ⟨n, loss, loaded && sLive != 0, e - loss - (s.get (R.BF_SLOT_LIVE_tx_scale n) : Nat) + adj⟩

/-- One slot's registers after an evaluation: a backoff that rises raises EIRP_CLIP, muted or not; a mute sets its bit; and within a crossing no backoff
falls, so that one above 63.75 dB keeps its slot muted (R64, R65, R99). off: the slot is muted for another cause of step 4. -/
def State.applyBackoff (s : State) (b : Beam) (back : Nat) (off : Bool) : State :=
  let n := b.slot
  let prev := (s.slot n).back
  let hold := max prev back
  let muted := off || decide (255 < hold)
  let s := if prev < back then
      (((s.setBit R.EIRP_STATUS_clip n).bump (R.BF_CLIP_COUNT_count n)).yarn 34).fire 50 |>.pmc 0x044 n else s
  let s := if muted then (s.setBit R.EIRP_STATUS_mute n).fire 55 else s
  let s := s.updSlot n fun x => { x with back := hold, muted := muted }
  let applied : Int := b.level - 16 * (hold : Nat)
  let code := if muted || applied ≤ 0 then 0 else (roundUpQ applied / 16).toNat
  (((s.set (R.EIRP_SLOT_muted n) muted.toNat).set (R.EIRP_SLOT_backoff n) (if muted then 255 else hold)).set
    (R.EIRP_SLOT_eirp n) (min code 255)).set (R.EIRP_SLOT_mask_loss n) b.loss

/-- A governor evaluation over the transmitting slots (R64, R65). p_agg sums the slots that radiate: one muted because its active bank is empty or loaded
for receive, or because sum(s_live) is 0, is left out, though the pseudo-code mutes after the sum (log 135). extra is the least step of 0.25 dB that
brings the sum to the cap (log 134). -/
def State.govern (s : State) : State :=
  let region := s.get R.EIRP_CTRL_region
  let i := channelIndex s.liveChannel
  let capB := s.get (R.EIRP_CAP_beam region i)
  let capA := s.get (R.EIRP_CAP_agg region i)
  let barred := s.liveChannel = 0 || 241 ≤ capB || 241 ≤ capA
  let beams := s.txSlots.map s.beamOf
  let step1 (b : Beam) : Int := roundUpQ (max 0 (b.level - 16 * (capB : Int)))
  let on := beams.filter (·.live)
  let levels := on.map fun b => b.level - step1 b
  let extra : Int := if barred || powersWithin levels (16 * (capA : Int)) then 0 else extraBackoff levels (16 * (capA : Int)) 1024 16
  beams.foldl (fun s b =>
    let back := (step1 b + extra) / 16
    s.applyBackoff b back.toNat (barred || !b.live)) s

/-! ### Update points, radio states and turns of a tile (Table 5.5, R38, R44 to R49, R54) -/

/-- A crossing that started before now and has not ended uses tile t: crossings that start at this very point do not count (R54). -/
def State.tileHeld (s : State) (t : Nat) : Bool :=
  s.inProgress.any fun c => c.tiles.testBit (t % 8) && decide (c.b0 < s.now) && decide (s.now < c.ends)

/-- The element update point of a tile; where it unmasks an element and a transmit crossing that starts now uses the tile, the governor evaluates
(R38, R39, R54, R56, R65). -/
def State.updatePoint (s : State) (t : Nat) : State :=
  let may := !s.tileHeld t
  let was := maskOf 64 fun j => s.masked (64 * (t % 8) + j)
  let s := (forAll 64 (fun j s => s.elemUpdate (64 * (t % 8) + j) may) s).recomputeLive t
  let freed := (List.range 64).any fun j => was.testBit j && !s.masked (64 * (t % 8) + j)
  if freed && s.inProgress.any (fun c => c.d.dir == 1 && c.b0 == s.now && c.tiles.testBit (t % 8)) then s.govern else s

/-- The radio of a tile takes a state. Elements that leave RX write back their fine value, those that leave TX force their DAC to zero, and those that
enter RX or TX restore their stored state. -/
def State.tileRadio (s : State) (t : Nat) (r : Radio) : State :=
  let old := (s.tile t).radio
  if old = r then s
  else
    let s := if old = .rx then forAll 64 (fun j s => if s.masked (64 * (t % 8) + j) then s else s.writeBackFine (64 * (t % 8) + j)) s
      else if old = .tx then forAll 64 (fun j s => s.updElem (64 * (t % 8) + j) fun x => { x with dac := (0, 0) }) s
      else s
    let s := s.updTile t fun x => { x with radio := r }
    let turn := (old = .rx && r = .tx) || (old = .tx && r = .rx) || (old = .idle && (r = .rx || r = .tx))
    let s := if turn || (old = .warm && r = .idle) then s.updatePoint t else s
    let s := s.restoreTile t
    let s := if r = .off then s.updTile t fun x => { x with lockA := false, lockB := false } else s
    s.refreshLocks

/-- The tile arrives in WARM with every synthesiser that has a channel locked (R59, Table 5.5). -/
def State.tileToWarm (s : State) (t : Nat) : State :=
  let s := s.tileRadio t .warm
  (s.updTile t fun x => { x with lockA := s.get R.RF_CHAN_ch_a != 0, lockB := s.get R.RF_CHAN_ch_b != 0 }).refreshLocks

/-- What ELEM_STATUS.state reads: 0 off, 1 WARM or IDLE, 2 RX, 3 TX; a masked element reads 1 in RX and TX (R49, Table 2.8). -/
def State.elemState (s : State) (e : Nat) : Nat :=
  match (s.tile (e / 64)).radio with
  | .off => 0
  | .warm => 1
  | .idle => 1
  | .rx => if s.masked e then 1 else 2
  | .tx => if s.masked e then 1 else 3

/-! ### Detectors (R50 to R52) and DC offset (R43 to R46, R68) -/

/-- The transmit detector's code for a mean in 1/1000 dBm: (P + 20) × 4, rounded, a half upward; 0 below −20 dBm, 112 above +8 (R50). -/
def pdetCode (mdbm : Int) : Nat :=
  if mdbm < -20000 then 0 else if 8000 < mdbm then 112 else (((mdbm + 20000) * 8 + 1000) / 2000).toNat

/-- The loop's factor per block: 640 sample periods of a first-order loop with a time constant of 2^k of them, over 2^(640 k) (R44; log 136). -/
def loopGain (k : Nat) : Nat := 2 ^ (640 * k) - (2 ^ k - 1) ^ 640

/-- A loop value, with 20 fraction bits of a sixteenth of an LSB, after a block whose ADC samples had the given mean in 1/16 LSB (R44; log 136). -/
def loopStep (k : Nat) (acc mean : Int) : Int := acc + rne ((mean * 2 ^ 20 - acc) * loopGain k) (2 ^ (640 * k))

/-- The fine loop of an element tracks through a block (R44, R46). The values it leaves are kept for a lead that began before (log 136). -/
def State.dcTrack (s : State) (e : Nat) (i q : Int) : State :=
  let k := max 8 (min (s.get (R.ELEM_DC_CTRL_k e)) 20)
  let now := s.now
  (s.updElem e fun x =>
    let a := loopStep k x.accI i
    let b := loopStep k x.accQ q
    { x with fineI := satI 12 (rne a (2 ^ 20)), fineQ := satI 12 (rne b (2 ^ 20)), accI := clampI (-2 ^ 31) (2 ^ 31 - 1) a,
             accQ := clampI (-2 ^ 31) (2 ^ 31 - 1) b, fineWas := (now, x.accI, x.accQ) :: x.fineWas.take 15 }).dcCheck e

/-- A lead has been found that began at a tick: with freeze set the loops of the tiles' elements hold what they held there (R44; log 136). -/
def State.dcFreeze (s : State) (tiles tick : Nat) : State :=
  forBits 8 tiles (fun t s => forAll 64 (fun j s =>
    let e := 64 * (t % 8) + j
    let x := s.elem e
    match (x.fineWas.filter fun (w : Nat × Int × Int) => decide (tick < w.1)).getLast? with
    | some w => if s.on (R.ELEM_DC_CTRL_freeze e) && !s.masked e && (s.tile t).radio == .rx then
        s.updElem e fun x => { x with fineI := satI 12 (rne w.2.1 (2 ^ 20)), fineQ := satI 12 (rne w.2.2 (2 ^ 20)), accI := w.2.1, accQ := w.2.2,
                                      fineWas := x.fineWas.filter fun (w : Nat × Int × Int) => w.1 ≤ tick } else s
    | none => s) s) s

/-- A write of ELEM_CTRL.auto_mask_dc or a dc_rail that stands masks at once (R53). -/
def State.maskIfCaused (s : State) (e : Nat) : State := if s.maskCause e then s.maskNow e else s

/-- The register contents of a trim register. -/
def State.trimRx (s : State) (e : Nat) : Nat := s.get (R.ELEM_CAL_RX_phase e) * 256 + s.get (R.ELEM_CAL_RX_gain e)
def State.trimTx (s : State) (e : Nat) : Nat := s.get (R.ELEM_CAL_TX_phase e) * 256 + s.get (R.ELEM_CAL_TX_gain e)

/-- An element's trimmed sample F: DC cancelled, trimmed, rounded and saturated (R37, R69). -/
def State.frontEnd (s : State) (e : Nat) (i q : Int) : Int × Int :=
  let x := s.elem e
  let v := (16 * i - x.fineI, 16 * q - x.fineQ)
  let r := timesOver (trimFactor x.calRx) v 8
  (satI 12 r.1, satI 12 r.2)

/-- Written trims and fine values take effect at the block boundary (R37, R68). -/
def State.frontBoundary (s : State) : State :=
  let s := s.front.calWait.foldl (fun s e =>
    let r := s.trimRx e
    let x := s.trimTx e
    s.updElem e fun y => { y with calRx := r, calTx := x }) s
  let s := s.front.fineWait.foldl (fun s e => if (s.tile (e / 64)).radio = .rx then s.restoreRx e else s) s
  { s with front := { s.front with calWait := [], fineWait := [] } }

/-- A written trim waits for the block boundary (R37). -/
def State.calWritten (s : State) (e : Nat) : State := { s with front := { s.front with calWait := insertRising e s.front.calWait } }

/-- A write to ELEM_DC_FINE_k of the live step of an element in RX waits for the block boundary (R68). -/
def State.fineWritten (s : State) (e k : Nat) : State :=
  if (s.tile (e / 64)).radio = .rx && s.get (R.ELEM_RX_GAIN_lna e) = k then
    { s with front := { s.front with fineWait := insertRising e s.front.fineWait } } else s

/-! ### Synthesisers (R59 to R61) -/

/-- A write of RF_CHAN: BUSY where it would change the channel of the selected synthesiser; unknown channels are kept out with bad_ch; a
change of sel waits (R60, R61). -/
def State.writeRfChan (s : State) (v : Nat) : State × Status :=
  let a := bits v 12 8
  let b := bits v 20 16
  let sel := bits v 0 0
  let badA := a != 0 && !channelOk a
  let badB := b != 0 && !channelOk b
  let chA := !badA && a != s.get R.RF_CHAN_ch_a
  let chB := !badB && b != s.get R.RF_CHAN_ch_b
  let live := s.on R.RF_CHAN_STATUS_live_sel
  if (chA && !live) || (chB && live) then (s, .busy)
  else
    let s := if badA || badB then (s.set R.RF_CHAN_STATUS_bad_ch 1).fire 56 else s
    let s := if chA then s.set R.RF_CHAN_ch_a a else s
    let s := if chB then s.set R.RF_CHAN_ch_b b else s
    let s := forAll 8 (fun t s => s.updTile t fun x =>
      { x with lockA := x.lockA && !chA, lockB := x.lockB && !chB }) s
    let s := s.set R.RF_CHAN_sel sel
    let s := s.set R.RF_CHAN_STATUS_sel_pending (if (sel != 0) == live then 0 else 1)
    (s.refreshLocks, .ok)

/-- A pending change of sel takes effect at a window boundary with no crossing in progress and none starting in its first block, once the
newly selected synthesiser is locked (R61). -/
def State.selSwitch (s : State) : State :=
  let want := s.on R.RF_CHAN_sel
  let locked := if want then s.on R.RF_CHAN_STATUS_lock_b else s.on R.RF_CHAN_STATUS_lock_a
  let starts := s.xng.fetched.any fun c => !c.started && c.b0 < s.now + s.blockTicks
  if s.on R.RF_CHAN_STATUS_sel_pending && locked && s.inProgress.isEmpty && !starts then
    (s.set R.RF_CHAN_STATUS_live_sel want.toNat).set R.RF_CHAN_STATUS_sel_pending 0
  else s

end Sys2Proof.Machine
end

