-- ==== Sys2Proof/Machine/Leads.lean ====
section
/-! DEFINITION. Machine/Leads.lean: the Golay guard, the lead codes, and the correlation that gives the SNR of leads, sweep blocks and guards (chapter 4,
R114, R118, R119, R137). -/

namespace Sys2Proof.Machine

open Sys2Proof

/-! ### Guards and leads (R114, R118, R119) -/

/-- The Golay pair after n rounds of the recursion of R114. -/
def golay : Nat → List Int × List Int
  | 0 => ([1], [1])
  | n + 1 => let p := golay n; (p.1 ++ p.2, p.1 ++ p.2.map fun x => -x)

/-- Ga64 and Gb64. -/
def ga64 : List Int := (golay 6).1
def gb64 : List Int := (golay 6).2

/-- Entry m of row c of the Sylvester Hadamard matrix of order 16. -/
def hadamard (c m : Nat) : Int := if popcount 4 (c &&& m) % 2 = 1 then -1 else 1

/-- The lead code of index c. -/
def leadSeq (c : Nat) : List Int := (List.range 64).map fun k => gb64.getD k 0 * hadamard c (k / 4)

/-- A lead block's data field: seven lead codes, negated in block 3. -/
def leadField (c n : Nat) : List Int :=
  let f := (List.range 7).flatMap fun _ => leadSeq c
  if n = 3 then f.map fun x => -x else f

/-- Lead code index of a transmission from one short address to another (R119). -/
def leadCode (src dst salt : Nat) : Nat := (src % 16 ^^^ dst % 16) ^^^ salt % 16

/-! ### Signal to noise (R137) -/

/-- Sums over symbols y against known real symbols x: of x y on both axes, and of the squared magnitudes of y. -/
def correlate : List Int → List (Int × Int) → Int × Int × Nat
  | x :: xs, y :: ys =>
    let r := correlate xs ys
    (x * y.1 + r.1, x * y.2 + r.2.1, (y.1 * y.1 + y.2 * y.2).toNat + r.2.2)
  | _, _ => (0, 0, 0)

/-- The SNR code (SNR + 20) × 4 from correlation power and total power, rounded to the nearest, a half upward, held to 0 to 255. -/
def snrCode (corr total : Nat) : Nat :=
  let noise := total - corr
  if corr = 0 then 0
  else if noise = 0 then 255
  else bitSearch (fun k => k = 0 || 10 ^ (2 * k - 1) * noise ^ 80 ≤ corr ^ 80 * 10 ^ 160) 8 0

/-- The SNR code of equalised symbols whose contents are known: c and p_tot of R137, each times the square of the number of symbols. -/
def snrOf (x : List Int) (y : List (Int × Int)) : Nat :=
  let r := correlate x y
  snrCode (r.1 * r.1 + r.2.1 * r.2.1).toNat (min x.length y.length * r.2.2)

end Sys2Proof.Machine
end

