-- ==== Sys2Proof/Machine/Frames.lean ====
section
/-! DEFINITION. Machine/Frames.lean: what ends a frame: PHY reports, completion entries of transmit frames, frames cut short, and the
pieces of a slot, tile or neighbour that a reset or a link of the chain takes with it (R132 to R138, R168 to R171, R363). -/

namespace Sys2Proof.Machine

open Sys2Proof

/-- Reported measurements of a frame (Table 4.6). -/
structure Report where
  outcome : Nat
  mcs : Nat
  nbr : Nat
  agc : Nat
  leadErr : Int
  snr : Nat
  cfo : Int
  iters : Nat
  failed : Nat
  /-- lead start in 1/16 tick, 0 where unmeasured -/
  lead : Nat
  ncw : Nat
  deriving DecidableEq, Repr

/-- The four words of a report (Table 4.6). -/
def State.reportWords (s : State) (slot : Nat) (r : Report) : List Nat :=
  let tick := r.lead / 16
  [r.outcome * 2 ^ 28 + r.mcs % 16 * 2 ^ 24 + slot % 16 * 2 ^ 20 + r.nbr % 64 * 2 ^ 14 + r.agc % 128 * 2 ^ 7,
   unsigned 16 r.leadErr * 2 ^ 16 + r.snr % 256 * 2 ^ 8,
   unsigned 16 r.cfo * 2 ^ 16 + r.iters % 256 * 2 ^ 8 + min r.failed 255,
   tick / 1280 % 4096 * 2 ^ 20 + tick % 1280 / s.blockTicks % 8 * 2 ^ 17 + r.ncw % 512]

/-- Store words from an address on. -/
def State.setWords (s : State) (a : Nat) : List Nat → State
  | [] => s
  | w :: rest => (s.setWord a w).setWords (a + 4) rest

/-- The PHY writes a frame report, or drops it where wr would meet rd, and counts the outcome (R138). -/
def State.report (s : State) (slot : Nat) (r : Report) : State :=
  let s := s.bump (R.PHY_CNT_count r.outcome)
  let s := if r.outcome = 0 then s.pmc 0x061 slot else if r.outcome = 5 then s.pmc 0x062 slot else s
  let wr := s.get R.PHY_RPT_PTR_wr
  if (wr + 1) % 256 = s.get R.PHY_RPT_PTR_rd then (s.set R.PHY_RPT_PTR_ovf 1).fire 65
  else
    let s := (s.setWords (0x02071000 + 16 * wr) (s.reportWords slot r)).set R.PHY_RPT_PTR_wr ((wr + 1) % 256)
    (s.yarn 38).fire 64

/-- The report of a PHY frame with an outcome. -/
def PhyFrame.report (f : PhyFrame) (outcome : Nat) : Report :=
  { outcome := outcome, mcs := if f.hdrDone then f.mcs else 0, nbr := f.nbr, agc := f.agc, leadErr := f.leadErr, snr := f.snr,
    cfo := f.cfo, iters := f.iters, failed := f.failed, lead := f.lead, ncw := if f.hdrDone then f.ncw else 0 }

/-- Codewords of a frame leave the queue (R132). -/
def State.dropCodewords (s : State) (slot id : Nat) : State :=
  let q := s.phy.queue.filter fun w => !(w.slot == slot && w.crossing == id)
  ({ s with phy := { s.phy with queue := q } }).set R.PHY_POOL_STATUS_depth q.length

/-- Replace a receive frame of a slot. -/
def State.putRx (s : State) (slot : Nat) (f : PhyFrame) : State :=
  s.updSlot slot fun x => { x with rx := x.rx.map fun (g : PhyFrame) => if g.crossing = f.crossing then f else g }

/-- A receive frame leaves its slot. -/
def State.dropRx (s : State) (slot id : Nat) : State :=
  s.updSlot slot fun x => { x with rx := x.rx.filter fun (g : PhyFrame) => g.crossing != id }

/-- A receive frame ends with an outcome: report, and nothing of it is delivered (R132, R133). -/
def State.endRx (s : State) (slot : Nat) (f : PhyFrame) (outcome : Nat) : State :=
  ((s.dropCodewords slot f.crossing).report slot (f.report outcome)).dropRx slot f.crossing

/-- Add 1 to a neighbour statistic (Table 5.14); each wraps. -/
def State.nbrStat (s : State) (n i : Nat) : State := s.bumpWrap (R.NBR_STAT_count n i)

/-- A completion entry waits for room in the completion ring (R363). -/
def State.postEntry (s : State) (e : RingEntry) : State := { s with lnk := { s.lnk with entries := s.lnk.entries ++ [e] } }

/-- The entry of a transmit descriptor: kind 1, its ring n, index, transmissions made and MAC reason (Table 12.8). -/
def txEntry (n tag index count reason : Nat) (st : Status) : RingEntry :=
  { kind := 1, status := st.code, tag := tag, ring := n, reason := reason, index := index, count := count, result := [] }

/-- A frame of a neighbour is finished: it leaves the table, its tag keeps its outcome, its completion and those of once descriptors that wait
for it are posted (R168, R171, R364). -/
def State.finishFrame (s : State) (n tag : Nat) (st : Status) (reason : Nat) : State :=
  match (s.nbr n).frames.find? (·.tag == tag) with
  | none => s
  | some f =>
    let s := s.updNbr n fun x => { x with
      frames := x.frames.filter (·.tag != tag),
      tags := x.tags.map fun (p : Nat × Option (Nat × Nat)) => if p.1 = tag then (p.1, some (st.code, reason)) else p }
    let s := s.set (R.NBR_LIVE_held n) (s.nbr n).frames.length
    let s := if st = .failedRetry then (s.nbrStat n 11).pmc 0x084 n else s
    f.twins.foldl (fun s i => s.postEntry (txEntry n tag i 0 reason st)) (s.postEntry (txEntry n tag f.index f.attempts reason st))

/-- A frame whose transmissions have reached the retry limit is not sent again (R171). -/
def State.atLimit (s : State) (n : Nat) (f : TxFrame) : Bool := s.get (R.NBR_CFG_retry_limit n) + 1 ≤ f.attempts

/-- A sent frame becomes awaiting retry, or fails with LIMIT where it has no attempt left (R170, R171). -/
def State.frameToRetry (s : State) (n tag : Nat) : State :=
  match (s.nbr n).frames.find? (·.tag == tag) with
  | none => s
  | some f =>
    if s.atLimit n f then s.finishFrame n tag .failedRetry 1
    else s.updNbr n fun x => { x with
      frames := x.frames.map fun y => if y.tag = tag then { y with phase := .awaitRetry } else y }

/-- Ticks of a guard of 64 symbols (R112, R113). -/
def State.guardTicks (s : State) : Nat := s.blockTicks / 8

/-- The transmit frame of a slot has ended, in full or cut short after a number of blocks, of which the last may still be on the air; the tail guard
follows it (R115, R134). Its transmission counts, its pipe is free, and its data frame is sent, or awaits retry where it was cut short (R134, R161, R168 to R171). A broadcast frame is finished either way (R165). -/
def State.txEnd (s : State) (slot : Nat) (f : PhyFrame) (full : Bool) (blocks : Nat) : State :=
  let n := f.nbr
  let s := s.report slot (f.report (if full then 8 else 9))
  let s := s.updSlot slot fun x => { x with tx := none, tail := if blocks = 0 then none else some (f, blocks) }
  let s := { s with phy := { s.phy with encoders := s.phy.encoders.map fun e =>
    match e with | some (sl, k) => if sl = slot then none else some (sl, k) | none => none } }
  let s := forAll 8 (fun p s => s.updPipe p fun (y : Pipe) =>
    { y with frames := y.frames.filter fun (g : PipeFrame) => g.rx || g.slot != slot }) s
  let s := if f.hdr.isEmpty then s else (s.nbrStat n 9).pmc 0x082 n
  if f.ackOnly || f.hdr.isEmpty then s
  else
    match (s.nbr n).frames.find? (·.tag == f.tag) with
    | none => s
    | some g =>
      let s := if g.attempts = 0 then s else (s.nbrStat n 10).pmc 0x083 n
      let tail := f.lead / 16 + blocks * s.blockTicks + s.guardTicks
      let s := s.updNbr n fun x => { x with frames := x.frames.map fun (y : TxFrame) =>
        if y.tag = f.tag then { y with attempts := y.attempts + 1, phase := .sent, lastTxEnd := tail } else y }
      if s.get (R.NBR_ADDR_short n) = 0xFFFF then s.finishFrame n f.tag (if full then .ok else .failedRetry) (if full then 0 else 1)
      else if full then s else s.frameToRetry n f.tag

/-- A transmit frame ends cut short: TX_UNDERRUN (R134, R170). -/
def State.underrun (s : State) (slot : Nat) : State :=
  match (s.slot slot).tx with
  | none => s
  | some f => s.txEnd slot f false (if s.now < f.lead / 16 then 0 else (s.now - f.lead / 16) / s.blockTicks + 1)

/-- The tail guard of a slot's last frame lies behind: nothing of it is on the air (R115). -/
def State.tailOver (s : State) (slot : Nat) : State :=
  match (s.slot slot).tail with
  | some (f, k) => if f.lead / 16 + (k + 1) * s.blockTicks ≤ s.now then s.updSlot slot fun x => { x with tail := none } else s
  | none => s

/-- Coded bits per block cb (Table 4.3). -/
def mcsBlockBits (m : Nat) : Nat := [112, 448, 448, 896, 896, 896, 896, 1792, 1792, 1792, 1792, 2688, 2688, 2688, 2688].getD m 112

/-- Blocks F of a frame whose header is decoded (R128). -/
def frameLength (f : PhyFrame) : Nat := 4 + f.heads + (f.ncw * 2048 + mcsBlockBits f.mcs - 1) / mcsBlockBits f.mcs

/-- First tick after a frame's block number n, counted from its lead start. -/
def State.frameTick (s : State) (f : PhyFrame) (n : Nat) : Nat := (f.lead + 15) / 16 + n * s.blockTicks

/-- The slot's tiles leave RX now: a frame not received to its end is CUT, one whose header is still to be decoded keeps the instant (R133). -/
def State.cutRx (s : State) (slot id : Nat) : State :=
  match (s.slot slot).rx.find? fun (f : PhyFrame) => f.crossing == id with
  | none => s
  | some f =>
    if f.hdrDone then (if s.now < s.frameTick f (frameLength f) then s.endRx slot f 7 else s)
    else if s.now < s.frameTick f (4 + f.heads) then s.endRx slot f 7
    else
      let now := s.now
      s.putRx slot { f with cut := some now }

/-- Frames in progress on a tile end: a receive frame CUT, a transmit frame TX_UNDERRUN (R334, R446). -/
def State.cutTile (s : State) (t : Nat) : State :=
  s.inProgress.foldl (fun s c =>
    if c.tiles.testBit (t % 8) then (if c.d.dir = 0 then s.cutRx c.d.slot c.id else s.underrun c.d.slot) else s) s

/-- The hub sets the shadow state of every slot to empty, and the banks of the tile are empty (R96). -/
def State.loseBanks (s : State) (t : Nat) : State :=
  let s := s.updTile t fun x => { x with banks := .replicate 16 ⟨Bank.empty, Bank.empty⟩ }
  forAll 16 (fun n s =>
    let present := match (s.slot n).active with | some c => c.tiles.testBit (t % 8) | none => false
    let s := (s.set (R.BF_BANK_state n) 0).set (R.BF_BANK_reason n) 0
    let s := if present then s.set (R.BF_BANK_active_valid n) 0 else s
    s.updSlot n fun x => { x with shadow := none, waiting := 0, failTile := none }) s

/-! ### A neighbour's idle instant and the report of function modes (R28, R29, R31) -/

/-- The neighbour's cipher bypass acts: the permission sampled at its idle instant and its own bit (R29, R31). -/
def State.cipherBypass (s : State) (n : Nat) : Bool := (s.nbr n).permSec && s.on (R.NBR_CFG_cipher_bypass n)

/-- The neighbour's CRC bypass acts (R29, R31). -/
def State.crcBypass (s : State) (n : Nat) : Bool := (s.nbr n).permCrc && s.on (R.NBR_CFG_crc_bypass n)

/-- No crossing with the neighbour is in progress and none of its frames is in a pipe or a verify buffer (R29). -/
def State.nbrIdle (s : State) (n : Nat) : Bool :=
  !(s.inProgress.any fun c => c.d.nbr == n) && !((List.range 8).any fun p => (s.pipe p).frames.any fun f => f.nbr == n)
    && !(s.nbr n).rxQueue.any fun f => f.pool.isNone

/-- Slots whose received frames are exported as the registers now stand (R28, R140). -/
def State.softSlots (s : State) : Nat := if s.bit R.HUB_FUNC_MODE_bits 1 then s.get R.PHY_SOFT_BEAMS_slots else 0

/-- A slot, or a neighbour, that a function covers has not reached its point with the mode that HUB_FUNC_MODE asks for (R31). -/
def State.funcBehind (s : State) (b : Nat) : Bool :=
  let want := s.bit R.HUB_FUNC_MODE_bits b
  let nbrs := (List.range 64).filter fun n => s.on (R.NBR_CFG_enabled n)
  match b with
  | 0 => (List.range 16).any fun n => (s.slot n).weightsHost != want
  | 1 => (List.range 16).any fun n => (s.slot n).phySoft != s.softSlots.testBit n
  | 2 => s.xng.hostSched != want
  | 3 => nbrs.any fun n => s.on (R.NBR_CFG_cipher_bypass n) && (s.nbr n).permSec != want
  | 4 => nbrs.any fun n => s.on (R.NBR_CFG_crc_bypass n) && (s.nbr n).permCrc != want
  | 5 => s.xng.hostTime != want
  | _ => false

/-- Host-assisted mode is in force for a function on some slot or neighbour (R31, Table 1.11). -/
def State.funcActs (s : State) (b : Nat) : Bool :=
  let nbrs := (List.range 64).filter fun n => s.on (R.NBR_CFG_enabled n)
  match b with
  | 0 => (List.range 16).any fun n => (s.slot n).weightsHost
  | 1 => (List.range 16).any fun n => (s.slot n).phySoft
  | 2 => s.xng.hostSched
  | 3 => nbrs.any fun n => s.cipherBypass n
  | 4 => nbrs.any fun n => s.crcBypass n
  | 5 => s.xng.hostTime
  | b => s.bit R.HUB_FUNC_MODE_bits b

/-- HUB_FUNC_STATUS as the modes in force stand: pending falls where nothing is behind any more (R31). -/
def State.refreshFunc (s : State) : State :=
  let p := s.get R.HUB_FUNC_STATUS_pending
  (s.set R.HUB_FUNC_STATUS_pending (maskOf 8 fun b => p.testBit b && s.funcBehind b)).set R.HUB_FUNC_STATUS_effective (maskOf 8 s.funcActs)

/-- An idle neighbour takes the permissions that HUB_FUNC_MODE holds (R28, R29). -/
def State.nbrSample (s : State) (n : Nat) : State :=
  if !s.nbrIdle n then s
  else
    let sec := s.bit R.HUB_FUNC_MODE_bits 3
    let crc := s.bit R.HUB_FUNC_MODE_bits 4
    (s.updNbr n fun x => { x with permSec := sec, permCrc := crc }).refreshFunc

/-- Row of a stored register value. -/
def rowOf (k : RegKey) : Option Row := regTable[k.row]?

/-- Forget every stored value of the rows and owners that p names: they read as their reset values. -/
def State.dropRegs (s : State) (p : Row → Nat → Bool) : State :=
  { s with regs := s.regs.filter fun c => match rowOf c.1 with | some r => !p r c.1.own | none => true }

/-- A register belongs to tile t: tile and element registers, its timers and its stitch cells (Tables 1.7, 8.6, 9.5). -/
def rowOfTile (t : Nat) (r : Row) (own : Nat) : Bool :=
  match r.owner with
  | .tile => own == t
  | .elem => own / 64 == t
  | .timer => 16 + 4 * t ≤ own && own < 20 + 4 * t
  | .cell => 32 + 8 * t ≤ own && own < 40 + 8 * t
  | _ => false

/-- Base address of tile t's window (Table 1.6). -/
def tileBase (t : Nat) : Nat := 0x04000000 + t % 8 * 0x00800000

/-- First address of an engine's local memory: in the tile window, or in the model's own space above the device map for a hub engine
(R185). -/
def lmBase (g : Nat) : Nat :=
  if g < 32 then 0x100000000 + g * 0x10000 else tileBase ((g - 32) / 8) + 0x200000 + (g - 32) % 8 * 0x10000

/-- The registers of an engine after its reset, with the values that the reset keeps (Tables 6.12 to 6.14). -/
def Engine.fresh (start vbase timedMax : Nat) : Engine :=
  { Engine.initial with start := start, vbase := vbase, timedMax := timedMax }

/-- An ENGINE reset: the engine stops at once and its registers take their reset values; its local memory is kept, its mailbox emptied,
and the completion of an access already issued is discarded (R335, R187). The unit's error flags clear with it (R417). -/
def State.engineReset (s : State) (g : Nat) : State :=
  let s := s.updEng g fun x => { Engine.fresh x.start x.vbase x.timedMax with discard := match x.wait with
    | some (.msend _ _) => x.discard
    | some (.mrecv _) => x.discard
    | some .wfi => x.discard
    | some .fence => x.discard
    | some (.gather base _ idx) =>
      let lane := ((List.range 16).find? fun i => !x.r.gdone.testBit i).getD 0
      some (.load ((if base % 16 = 0 then 0 else vget x.r.w base) + vget (vget x.r.v idx) lane).toNat 4 0 false)
    | some w => some w
    | none => x.discard }
  ((s.set (R.ERR_UNIT_active g) 0).set (R.ERR_UNIT_ovf g) 0).set (R.ERR_UNIT_pending g) 0

/-- A TILE reset takes hold of a tile: frames in progress end, banks, registers, memories and engines return to their reset state, every
element is masked (R334, R55, R187). -/
def State.tileReset (s : State) (t : Nat) : State :=
  let s := (s.cutTile t).fabricStop (t % 8 + 1)
  let s := (s.loseBanks t).clearMem (tileBase t) 0x800000
  let s := s.dropRegs fun r own => rowOfTile (t % 8) r own && r.keep != .moorTile
  let s := forAll 8 (fun e s => s.updEng (32 + 8 * (t % 8) + e) fun _ => Engine.fresh 0 0 0) s
  let s := forAll 64 (fun j s => s.updElem (64 * (t % 8) + j) fun _ => ElemSt.initial) s
  let s := s.updTile t fun x => { x with
    radio := .off, lockA := false, lockB := false, opened := [], inReset := true, tension := none, tensionWait := false, drifts := [], irqHeld := 0 }
  let s := if s.domUp (t % 8 + 1) || s.dom (t % 8 + 1) == .rising then s.setDom (t % 8 + 1) .down else s
  let now := s.now
  let s := { s with pwr := { s.pwr with spanEnd := vset s.pwr.spanEnd (t % 8 + 1) (now + 12500) } }
  (((s.set (R.TEMP_valid (t % 8)) 0).clrBit (R.PWR_VOTE_votes (t % 8 + 1)) 28).refreshLocks).refreshDep

/-- A cipher pipe enters its 1 µs reset: receive frames in it are dropped as rx_auth_fail, transmit frames end TX_UNDERRUN (Table 14.4). -/
def State.pipeReset (s : State) (p : Nat) : State :=
  let gone := (s.pipe p).frames
  let s := gone.foldl (fun s f => if f.rx then s.nbrStat f.nbr 3 else s.underrun f.slot) s
  let s := s.updPipe p fun x => { x with frames := [], inReset := true }
  gone.foldl (fun s f => s.nbrSample f.nbr) s

/-- An LDPC decoder enters its reset: its codeword fails, and the frame ends CW_FAIL (Table 14.4). -/
def State.decoderReset (s : State) (d : Nat) : State :=
  let s := match vget s.phy.decoders d with
    | some c => match (s.slot c.slot).rx.find? fun (f : PhyFrame) => f.crossing == c.crossing with
      | some f => s.endRx c.slot { f with failed := f.failed + 1 } 5
      | none => s
    | none => s
  { s with phy := { s.phy with
    decoders := vset s.phy.decoders d none, decReset := s.phy.decReset ||| 2 ^ (d % 16) } }

/-- An LDPC encoder enters its reset: its frame ends TX_UNDERRUN (Table 14.4). -/
def State.encoderReset (s : State) (e : Nat) : State :=
  let s := match vget s.phy.encoders e with
    | some (slot, _) => s.underrun slot
    | none => s
  { s with phy := { s.phy with
    encoders := vset s.phy.encoders e none, encReset := s.phy.encReset ||| 2 ^ (e % 16) } }

end Sys2Proof.Machine
end

