-- ==== Sys2Proof/Machine/Errors.lean ====
section
/-! DEFINITION. Machine/Errors.lean: error records, the black box, nested errors and escalation, and poison (chapter 14, R97). -/

namespace Sys2Proof.Machine

open Sys2Proof

/-- What an error hands to the log: class (Table 14.2), unit (Table 14.3), address, detail word, initiator code and engine number, and the
key of R413 for classes of severity 0 and 1. -/
structure ErrIn where
  cls : Nat
  unit : Nat
  addr : Nat
  detail : Nat
  ini : Nat
  eng : Nat
  key : Nat
  deriving DecidableEq, Repr

/-- Severity of a class (Table 14.2). -/
def severity (c : Nat) : Nat :=
  if c = 1 || c = 11 then 1 else if c = 2 || c = 3 then 3 else if c = 4 || c = 5 || c = 6 || c = 17 then 0 else 2

/-- Interrupt source of a class (Table 14.2). -/
def classSource (c : Nat) : Nat :=
  match c with
  | 1 => 496 | 11 => 496 | 3 => 498 | 4 => 500 | 5 => 501 | 6 => 501 | _ => 497

/-- Initiator code of Table 14.1, word 3. -/
def Initiator.code : Initiator → Nat
  | .peer p => p.val
  | .host => 4
  | .engine _ => 5
  | .bootRom => 7

/-- Engine number of Table 14.1, word 3. -/
def Initiator.engNo : Initiator → Nat
  | .engine g => g.val
  | _ => 0

/-- The eight words of a record (Table 14.1). -/
def State.recordWords (s : State) (e : ErrIn) (esc ovf : Bool) (pending suppressed seq : Nat) : List Nat :=
  [2 ^ 31 + esc.toNat * 2 ^ 30 + ovf.toNat * 2 ^ 29 + e.cls * 2 ^ 24 + severity e.cls * 2 ^ 22 + e.unit * 2 ^ 8 + pending,
   e.addr % 2 ^ 32, e.detail % 2 ^ 32, e.ini + e.eng * 2 ^ 8, s.now % 2 ^ 32, s.now / 2 ^ 32 % 2 ^ 32, suppressed % 2 ^ 32,
   s.get R.BOOT_COUNT_count % 65536 * 65536 + seq % 65536]

/-- A record goes into the black box: records 0 to 15 after a clear are never overwritten, 16 to 255 form a ring (R427). -/
def State.blackBox (s : State) (ws : List Nat) : State :=
  let i := s.get R.BB_HDR_index
  let s := s.store (0x03010100 + 32 * i) (ws.flatMap (toBytes 4))
  (s.bump R.BB_HDR_written).set R.BB_HDR_index (if i = 255 then 16 else i + 1)

/-- A record of classes 14 to 17, for the black box alone (R411, R428): the hub's takes the next sequence value, and one that the AON die writes
while the hub is down carries 0xFFFF (R414). -/
def State.blackBoxOnly (s : State) (cls unit detail : Nat) : State :=
  let s' := s.blackBox (s.recordWords ⟨cls, unit, 0, detail, 7, 0, unit⟩ false false 0 0 (if s.hubUp then s.err.seq else 0xFFFF))
  if s.hubUp then { s' with err := { s'.err with seq := (s.err.seq + 1) % 65536 } } else s'

/-- The hub writes a record into the log ring, or drops it, and copies severe and escalated ones into the black box (R414, R428). -/
def State.writeRecord (s : State) (e : ErrIn) (esc ovf : Bool) (pending suppressed : Nat) : State :=
  let seq := s.err.seq
  let ws := s.recordWords e esc ovf pending suppressed seq
  let s := { s with err := { s.err with seq := (seq + 1) % 65536 } }
  let wr := s.get R.ERR_LOG_PTR_wr
  let s := if (wr + 1) % 64 = s.get R.ERR_LOG_PTR_rd then
      ((s.set R.ERR_LOG_PTR_ovf 1).bump R.ERR_LOG_LOST_count).fire 502
    else ((s.setWords (0x020E1000 + 32 * wr) ws).set R.ERR_LOG_PTR_wr ((wr + 1) % 64)).fire (if esc then 499 else classSource e.cls)
  if 2 ≤ severity e.cls || esc then s.blackBox ws else s

/-- Ticks of a unit's reset: 1 µs for a cipher pipe, 200 ns for a decoder or an encoder (Table 14.4). -/
def unitResetTicks (u : Nat) : Nat := if u < 0x7C then 1250 else 250

/-- The action of an escalation (Table 14.4). -/
def State.escalate (s : State) (u : Nat) : State :=
  let now := s.now
  let s := if 0x74 ≤ u && u < 0x9C then { s with err := { s.err with resetEnds := s.err.resetEnds ++ [(u, now + unitResetTicks u)] } } else s
  if u < 0x60 then s.engineReset u
  else if u < 0x68 then s.tileReset (u - 0x60)
  else if 0x74 ≤ u && u < 0x7C then s.pipeReset (u - 0x74)
  else if 0x7C ≤ u && u < 0x8C then s.decoderReset (u - 0x7C)
  else if 0x8C ≤ u && u < 0x9C then s.encoderReset (u - 0x8C)
  else s

/-- The unit is already held in reset (R418). -/
def State.unitInReset (s : State) (u : Nat) : Bool :=
  if 0x60 ≤ u && u < 0x68 then (s.tile (u - 0x60)).inReset
  else if 0x74 ≤ u && u < 0x7C then (s.pipe (u - 0x74)).inReset
  else if 0x7C ≤ u && u < 0x8C then s.phy.decReset.testBit (u - 0x7C)
  else if 0x8C ≤ u && u < 0x9C then s.phy.encReset.testBit (u - 0x8C)
  else false

/-- The span of R413: 1 ms of mesh time. -/
def limitSpan : Nat := 1250000

/-- An error of severity 0 or 1 on a unit that is not active: limited for its key (R413). -/
def State.limited (s : State) (e : ErrIn) : State :=
  match s.err.keys.find? (fun k => k.1 == e.cls && k.2.1 == e.key) with
  | some (_, _, t, n) =>
    if s.now < t + limitSpan then
      { s with err := { s.err with
        keys := s.err.keys.map fun (k : Nat × Nat × Nat × Nat) => if k.1 == e.cls && k.2.1 == e.key then (e.cls, e.key, t, n + 1) else k } }
    else
      let s := { s with err := { s.err with
        keys := s.err.keys.map fun (k : Nat × Nat × Nat × Nat) => if k.1 == e.cls && k.2.1 == e.key then (e.cls, e.key, s.now, 0) else k } }
      s.writeRecord e false false 0 n
  | none =>
    let s := { s with err := { s.err with keys := s.err.keys ++ [(e.cls, e.key, s.now, 0)] } }
    s.writeRecord e false false 0 0

/-- The hub takes one error: the class counts, a nested error is absorbed or escalates, any other writes its record (R411 to R418). -/
def State.logErr (s : State) (e : ErrIn) : State :=
  let u := e.unit
  let s := s.bump (R.ERR_CNT_count e.cls)
  if s.on (R.ERR_UNIT_active u) then
    if severity e.cls = 3 && !s.unitInReset u then
      let s := s.set (R.ERR_UNIT_ovf u) 1
      let s := s.writeRecord e true true (s.get (R.ERR_UNIT_pending u)) 0
      (s.bumpWrap (R.ERR_UNIT_escalations u)).escalate u
    else (s.set (R.ERR_UNIT_ovf u) 1).bump (R.ERR_UNIT_pending u)
  else if 2 ≤ severity e.cls then
    let s := s.set (R.ERR_UNIT_active u) 1
    s.writeRecord e false false 0 0
  else s.limited e

/-- A hardware block's error without an address. -/
def State.logHw (s : State) (cls unit detail : Nat) : State :=
  s.logErr { cls := cls, unit := unit, addr := 0, detail := detail, ini := 7, eng := 0, key := unit }

/-- The unit that holds an address (Table 14.3). -/
def unitOf (a : Nat) : Nat :=
  if 0x100000000 ≤ a then (a - 0x100000000) / 0x10000
  else if a < 0x1000000 then 0xA1
  else if a < 0x1C00000 then 0x68 + (a - 0x1000000) / 0x100000
  else if 0x03000000 ≤ a && a < 0x03014000 then 0xA2
  else if 0x04000000 ≤ a && a < 0x08000000 then
    let t := (a - 0x04000000) / 0x800000
    let o := (a - 0x04000000) % 0x800000
    if 0x200000 ≤ o && o < 0x280000 then 32 + 8 * t + (o - 0x200000) / 0x10000 else 0x60 + t
  else 0xA4

/-- Tile, swatch and word of a fragment address (R79). -/
def fragmentAt (a : Nat) : Option (Nat × Nat) :=
  if 0x04000000 ≤ a && a < 0x08000000 then
    let o := (a - 0x04000000) % 0x800000
    if 0x100000 ≤ o && o < 0x180000 then some ((a - 0x04000000) / 0x800000, (o - 0x100000) / 0x100) else none
  else none

/-- The hub mutes a slot for poison, from its next block boundary on; a slot already muted stays so (R97). -/
def State.poisonMute (s : State) (n : Nat) : State :=
  let was := s.bit R.BF_MUTE_poison n
  ((s.setBit R.BF_MUTE_poison n).fire 48).updSlot n fun x => { x with muteWait := x.muteWait || !was }

/-- The swatch held in a slot's shadow or active bank is poisoned: the shadow fails with POISONED, the active slot is muted from its next
block boundary (R97). -/
def State.poisonSwatch (s : State) (sw : Nat) (present : Nat → Bool) : State :=
  if !present sw then s
  else forAll 16 (fun n s =>
    let s := if s.get (R.BF_BANK_shadow_swatch n) = sw && s.get (R.BF_BANK_state n) != 0 then
        ((s.set (R.BF_BANK_state n) 3).set (R.BF_BANK_reason n) 2).updSlot n fun x => { x with waiting := 0 } else s
    if s.on (R.BF_BANK_active_valid n) && s.get (R.BF_BANK_active_swatch n) = sw then s.poisonMute n else s) s

/-- A fragment of swatch sw on tile t is found poisoned (R97). -/
def State.poisonFragment (s : State) (t sw : Nat) : State :=
  let s := (s.clrBit (R.TILE_SEAL_MAP_sealed t (sw / 32)) (sw % 32)).setBit (R.TILE_POISON_MAP_poisoned t (sw / 32)) (sw % 32)
  let s := (s.set (R.TILE_STATUS_poison t) 1).fireTile t 5
  s.poisonSwatch sw fun sw => (s.get (R.DIR0_tiles sw)).testBit t

/-- A directory entry is found poisoned (R97). -/
def State.poisonEntry (s : State) (sw : Nat) : State :=
  let s := (s.set (R.DIR0_sealed sw) 0).set (R.DIR0_poisoned sw) 1
  s.poisonSwatch sw fun _ => true

/-- A read of a RAM word finds an uncorrectable error: a word already poisoned counts a hit, any other is poisoned and logged as
UNCORRECTED, or POISON where a scrubber found it (R421); a fragment takes the consequences of R97. -/
def State.uncorrectable (s : State) (a syndrome : Nat) (scrub : Bool) (ini eng : Nat) : State :=
  if s.poisoned a then
    let s := s.bump R.ERR_POISON_HITS_count
    if scrub then s else s.pmc 0x0C2 (unitOf a)
  else
    let s := s.setPoison a
    let s := match fragmentAt a with
      | some (t, sw) => s.poisonFragment t sw
      | none => if 0x020A8000 ≤ a && a < 0x020B0000 then s.poisonEntry ((a - 0x020A8000) / 16)
        else if 0x1000000 ≤ a && a < 0x1004000 then s.updNbr ((a - 0x1000000) / 256) fun x => { x with poisoned := true } else s
    s.logErr { cls := if scrub then 3 else 2, unit := unitOf a, addr := a, detail := syndrome % 256, ini := ini, eng := eng, key := unitOf a }

/-- A read of a RAM word finds a single-bit error: it is corrected, written back and logged (R421, R455). -/
def State.corrected (s : State) (a line syndrome ini eng : Nat) : State :=
  (s.pmc 0x0C0 (unitOf a)).logErr
    { cls := 1, unit := unitOf a, addr := a, detail := line % 128 + syndrome % 256 * 256, ini := ini, eng := eng, key := unitOf a }

/-- What the decoders show for words read by an initiator, code and engine number given: corrections and new poison (R421). -/
def State.wordsSeen (s : State) (seen : List (Nat × EccSeen)) (ini eng : Nat) : State :=
  seen.foldl (fun s x => match x.2 with
    | .clean => s
    | .corrected line syn _ => if s.poisoned x.1 then s else s.corrected x.1 line syn ini eng
    | .uncorrectable syn => if s.poisoned x.1 then s else s.uncorrectable x.1 syn false ini eng) s

/-- A consumer's read of a byte range meets poisoned words: each counts a hit (R421). -/
def State.hitPoison (s : State) (a len : Nat) : State :=
  (s.poison.filter fun p => p < a + len && a < p + eccSize p).foldl
    (fun s p => (s.bump R.ERR_POISON_HITS_count).pmc 0x0C2 (unitOf p)) s

end Sys2Proof.Machine
end

