-- ==== Sys2Proof/Machine/Link.lean ====
section
/-! DEFINITION. Machine/Link.lean: packets on the virtual channels of the Redra links: their flits, berths and posted sequences, and what leaves when
(R344, R345, R349, R359; Tables 12.2, 12.3). -/

namespace Sys2Proof.Machine

open Sys2Proof

/-- The host link's number among the five links. -/
def hostLink : Nat := 4

/-- A link carries flits. -/
def State.hears (s : State) (l : Nat) : Bool := s.hubUp && (s.link l).state == .active

/-- Entry k of a triple. -/
def nth3 (t : Nat × Nat × Nat) (k : Nat) : Nat := if k = 0 then t.1 else if k = 1 then t.2.1 else t.2.2
def set3 (t : Nat × Nat × Nat) (k v : Nat) : Nat × Nat × Nat :=
  if k = 0 then (v, t.2) else if k = 1 then (t.1, v, t.2.2) else (t.1, t.2.1, v)

/-- Data bytes of a packet (Tables 12.4, 12.7). -/
def OutPacket.bytes : OutPacket → Nat
  | .cpld _ _ d => d.length
  | .ready b => b.length
  | .beacon b => b.length
  | .write _ d => d.length
  | .request _ _ _ _ d => d.length
  | .posted _ d _ => d.length
  | _ => 0

/-- Flits of a packet: 48 data bytes follow the header in the first, each later one carries 64 (R349). -/
def OutPacket.flits (p : OutPacket) : Nat := 1 + (p.bytes - 48 + 63) / 64

/-- Virtual channel of a packet (Table 12.4). -/
def OutPacket.vc : OutPacket → Nat
  | .request .. => 0
  | .fence _ => 0
  | .cpl .. => 2
  | .cpld .. => 2
  | _ => 1

/-- The replay buffer's flits (R345). -/
def replaySize : Nat := 512

/-- The packet's flits go out: they take their sequences and berths; a packet on VC1 takes the next posted sequence, and a forwarded write is
remembered under it. -/
def Link.sent (l : Link) (p : OutPacket) : Link :=
  let n := p.flits
  let k := p.vc
  let fwd := match p with
    | .posted a _ src => l.fwdPosted ++ [(l.postTx, a, src)]
    | _ => l.fwdPosted
  { l with
    txNext := (l.txNext + n) % 4096
    replay := l.replay ++ (List.range n).map fun i => ((l.txNext + i) % 4096, k, p)
    berths := set3 l.berths k (nth3 l.berths k - n)
    postTx := if k = 1 then (l.postTx + 1) % 65536 else l.postTx
    fwdPosted := fwd }

/-- The link can send a packet now: it is ACTIVE, and berths and replay buffer take all its flits. -/
def Link.canSend (l : Link) (p : OutPacket) : Bool :=
  l.state == .active && p.flits ≤ nth3 l.berths p.vc && l.replay.length + p.flits ≤ replaySize

/-- Send what can go of a channel's queue, in order; the rest stays. -/
def Link.sendAll (l : Link) : List OutPacket → Link × List OutPacket
  | [] => (l, [])
  | p :: rest => if l.canSend p then (l.sent p).sendAll rest else (l, p :: rest)

/-- Two accesses come from one initiator; an access from within the module counts with the host's posted ones. -/
def AccSrc.sameIni : AccSrc → AccSrc → Bool
  | .link l _ _, .posted k _ => l == k
  | .engine g, .store h => g == h
  | .direct, .posted _ _ => true
  | _, _ => false

/-- A request would overtake a posted write of the same initiator to the same block of 64 KiB that is still to be sent (R18, Table 1.4). -/
def Link.overtakes (l : Link) (waiting : List OutPacket) : OutPacket → Bool
  | .request _ tag a _ _ => match l.ownReqs.find? fun (r : Nat × AccSrc) => r.1 == tag with
    | some r => waiting.any fun (p : OutPacket) => match p with
      | .posted b _ src => b / 0x10000 == a / 0x10000 && r.2.sameIni src
      | _ => false
    | none => false
  | _ => false

/-- Send what can go of the requests, in order, those aside that would overtake a posted write. -/
def Link.sendRequests (l : Link) (waiting : List OutPacket) : List OutPacket → Link × List OutPacket
  | [] => (l, [])
  | p :: rest => if l.canSend p && !l.overtakes waiting p then (l.sent p).sendRequests waiting rest else (l, p :: rest)

/-- Each channel sends what it can, posted writes first (R18). -/
def Link.pump (l : Link) : Link :=
  let r1 := l.sendAll l.vc1
  let r0 := r1.1.sendRequests r1.2 l.vc0
  let r2 := r0.1.sendAll l.vc2
  { r2.1 with vc0 := r0.2, vc1 := r1.2, vc2 := r2.2 }

/-- A BEACON that waits carries the mesh time of the instant its first flit starts, bytes 12 to 19 (R368). -/
def OutPacket.stamped (now : Nat) : OutPacket → OutPacket
  | .beacon b => .beacon (b.take 12 ++ toBytes 8 now ++ b.drop 20)
  | p => p

/-- Link l sends what it can; each data flit counts (event 0x0E0). -/
def State.linkPump (s : State) (l : Nat) : State :=
  let n := (s.link l).replay.length
  let s := s.updLink l fun x => ({ x with vc1 := x.vc1.map (OutPacket.stamped s.now) } : Link).pump
  let k := (s.link l).replay.length - n
  if k = 0 then s else (s.updLink l fun x => { x with idleSince := s.now }).pmcAt 0x0E0 l k none

/-- A packet joins its channel of link l. -/
def Link.queue (l : Link) (p : OutPacket) : Link :=
  if p.vc = 0 then { l with vc0 := l.vc0 ++ [p] } else if p.vc = 1 then { l with vc1 := l.vc1 ++ [p] } else { l with vc2 := l.vc2 ++ [p] }

/-- A tag that no own request on a link holds. -/
def Link.freeTag (l : Link) : Option Nat := (List.range 1024).find? fun t => !l.ownReqs.any fun (r : Nat × AccSrc) => r.1 == t

/-- Ticks from the start of a wake ordered set, which lasts 36.6 ns, to a link that is ACTIVE (R365). -/
def wakeTicks : Nat := 5046

/-- In STANDBY this end sends the wake ordered set, unless one is on the lanes already. -/
def Link.wakes (l : Link) (now : Nat) : Link :=
  if l.state = .standby && l.wakeAt.isNone then { l with wakeAt := some (now + wakeTicks) } else l

/-- Queue a packet on link l; it leaves as soon as it can. -/
def State.linkSend (s : State) (l : Nat) (p : OutPacket) : State := (s.updLink l fun x => (x.queue p).wakes s.now).linkPump l

/-- A posted write of any length to host memory, in packets of at most 4,096 bytes (R349, R362). -/
def State.hostWrite (s : State) (addr : Nat) (data : List Byte) : State :=
  (List.range ((data.length + 4095) / 4096)).foldl (fun s i =>
    s.linkSend hostLink (.write (addr + 4096 * i) ((data.drop (4096 * i)).take 4096))) s

/-- CANCELs whose target is no longer open are answered (R358). -/
def State.settleCancels (s : State) : State :=
  let isOpen (c : Nat × Nat × Nat) : Bool :=
    (s.link c.1).openTags.any (fun (t : Nat × Nat) => t.1 == c.2.2) || (c.1 == hostLink && s.lnk.cmds.any fun (t : Nat × Nat) => t.1 == c.2.2)
  let ended := s.lnk.cancels.filter fun c => !isOpen c
  if ended.isEmpty then s
  else
    let s := { s with lnk := { s.lnk with cancels := s.lnk.cancels.filter isOpen } }
    ended.foldl (fun s (c : Nat × Nat × Nat) =>
      (s.updLink c.1 fun x => { x with
        openTags := x.openTags.filter fun (t : Nat × Nat) => t.1 != c.2.1
        once := x.once.map fun (o : OnceEntry) => if o.tag = c.2.1 && o.state = .running then { o with state := .delivered, status := .alreadyComplete } else o }).linkSend c.1
        (.cpl c.2.1 .alreadyComplete)) s

/-! ### Posted writes on their way (R197, R360) -/

/-- Posted sequence q is not after c, modulo 65,536. -/
def seqUpTo (q c : Nat) : Bool := (c + 65536 - q) % 65536 < 32768

/-- A FENCE covers a posted write with that source. -/
def FenceWait.covers (f : FenceWait) : AccSrc → Bool
  | .posted l q => l == f.link && seqUpTo q f.seq
  | _ => false

/-- A packet is a forwarded posted write of a source that p picks. -/
def OutPacket.postedOf (p : AccSrc → Bool) : OutPacket → Bool
  | .posted _ _ src => p src
  | _ => false

/-- Some posted write of a source that p picks has neither taken effect nor failed: it waits under wake-on-touch, or is on its way to a peer. -/
def State.postedOut (s : State) (p : AccSrc → Bool) : Bool :=
  s.lnk.wot.any (fun (w : WotAccess) => p w.src) || s.lnk.ctlBack.any (fun (b : CtlAnswer) => p b.src)
    || (List.range 4).any fun l =>
      (s.link l).fwdPosted.any (fun (x : Nat × Nat × AccSrc) => p x.2.2) || (s.link l).vc1.any (OutPacket.postedOf p)

end Sys2Proof.Machine
end

