-- ==== Sys2Proof/Machine/EngineCore.lean ====
section
/-! DEFINITION. Machine/EngineCore.lean: how an Ikidal engine issues a word: its registers and local memory, faults and their priorities,
exceptions, delay slots, mode-change groups, hardware loops and word boundaries (R183 to R208, R217 to R222). -/

namespace Sys2Proof.Machine

open Sys2Proof

/-! ### Registers -/

/-- General register i: w0 reads as zero (R188). -/
def EngRegs.get (r : EngRegs) (i : Nat) : Word := if i % 16 = 0 then 0 else vget r.w i

/-- Write general register i: a write to w0 is discarded (R188). -/
def EngRegs.put (r : EngRegs) (i : Nat) (x : Word) : EngRegs := if i % 16 = 0 then r else { r with w := vset r.w i x }

/-- Vector register i, and a write of it. -/
def EngRegs.vec (r : EngRegs) (i : Nat) : Vector Word 16 := vget r.v i
def EngRegs.putVec (r : EngRegs) (i : Nat) (x : Vector Word 16) : EngRegs := { r with v := vset r.v i x }

/-- MODE bits (Table 6.2). -/
def EngRegs.timed (r : EngRegs) : Bool := r.mode.testBit 0
def EngRegs.task (r : EngRegs) : Bool := r.mode.testBit 1
def EngRegs.exc (r : EngRegs) : Bool := r.mode.testBit 2

/-- The power domain of an engine: the hub core or its tile (R183, Table 10.1). -/
def engDomain (g : Nat) : Nat := if g < 32 then 0 else (g - 32) / 8 + 1

/-- The engine's domain is up and clocked, and its tile not held in reset (R186). -/
def State.engPowered (s : State) (g : Nat) : Bool :=
  if g < 32 then s.domRuns 0 else s.tileRuns ((g - 32) / 8)

/-- IPEND: lines on which a source delivered to the engine is active (R189, R292). -/
def State.ipend (s : State) (g : Nat) : Nat :=
  s.irq.dest.foldl (fun m (d : Nat × Nat × Nat × Nat) => if d.2.1 == 2 && d.2.2.1 == g then m ||| 2 ^ d.2.2.2 else m) 0

/-- An enabled line is asserted. -/
def State.lineReady (s : State) (g : Nat) : Bool := (s.eng g).r.ien &&& s.ipend g != 0

/-! ### Local memory (R185, R195, R198) -/

/-- A byte of an engine's local memory as its own word sees it: stores held in a mode-change shadow come first (R207). -/
def State.lmByte (s : State) (g a : Nat) : Byte :=
  let held := match (s.eng g).ctx with | .shadow _ _ _ h => h | _ => []
  match held.reverse.find? fun (p : Nat × List Byte) => p.1 ≤ a && a < p.1 + p.2.length with
  | some p => p.2.getD (a - p.1) 0
  | none => s.byte (lmBase g + a)

/-- n bytes of local memory as a little-endian number. -/
def State.lmRead (s : State) (g a n : Nat) : Nat := ofBytes ((List.range n).map fun i => s.lmByte g (a + i))

/-- Commit stores to local memory: each rewrites its word's data and ECC (R198). -/
def State.lmStore (s : State) (g : Nat) (stores : List (Nat × List Byte)) : State :=
  stores.foldl (fun s (p : Nat × List Byte) =>
    let s := s.setBytes (lmBase g + p.1) p.2
    (List.range p.2.length).foldl (fun s i => s.clrPoison (lmBase g + p.1 + i)) s) s

/-! ### Faults (R217, R218, Tables 6.9, 6.10) -/

/-- A cause that a word raises. -/
structure EFault where
  code : Nat
  addr : Nat
  status : Nat
  lane : Nat
  slotB : Bool
  /-- flags that FPSTAT receives although the word does not retire (R211) -/
  flags : Nat := 0
  deriving DecidableEq, Repr

/-- Cause codes of Table 6.10. -/
def exIllegal : Nat := 1
def exPair : Nat := 2
def exPriv : Nat := 3
def exFetch : Nat := 4
def exAlign : Nat := 5
def exAccess : Nat := 6
def exDozing : Nat := 7
def exPoison : Nat := 8
def exRsOver : Nat := 9
def exRsUnder : Nat := 10
def exLoopNest : Nat := 11
def exFp : Nat := 12
def exMbox : Nat := 13

/-- Priority of a cause within a word: the lowest number is reported (R218). -/
def excPriority (code : Nat) : Nat :=
  match code with
  | 4 => 1 | 1 => 2 | 2 => 3 | 3 => 4 | 11 => 5 | 9 => 5 | 10 => 5 | 13 => 6 | 5 => 7 | 6 => 8 | 7 => 8 | 8 => 8 | 12 => 9 | _ => 10

/-- A cause with neither address nor status. -/
def EFault.plain (code : Nat) : EFault := { code := code, addr := 0, status := 0, lane := 0, slotB := false }
/-- A cause at an address. -/
def EFault.at_ (code addr status : Nat) : EFault := { code := code, addr := addr, status := status, lane := 0, slotB := false }

/-- The cause that is reported among several; the first of equal priority wins (R218). -/
def worst : List (Option EFault) → Option EFault
  | [] => none
  | none :: rest => worst rest
  | some f :: rest =>
    match worst rest with
    | some g => if excPriority g.code < excPriority f.code then some g else some f
    | none => some f

/-- A cause where a condition holds. -/
def faultIf (b : Bool) (f : EFault) : Option EFault := if b then some f else none

/-- ILLEGAL where a condition holds. -/
def illegalIf (b : Bool) : Option EFault := faultIf b (EFault.plain exIllegal)

/-- The fault of a device access's completion status (R195, Tables 6.9, 6.10). -/
def statusFault (addr : Nat) : Status → Option EFault
  | .ok => none
  | .denied => some (EFault.at_ exAccess addr 1)
  | .dozing => some (EFault.at_ exDozing addr 2)
  | .poisoned => some (EFault.at_ exPoison addr 3)
  | .linkReset => some (EFault.at_ exAccess addr 4)
  | .busy => some (EFault.at_ exAccess addr 5)
  | .decode => some (EFault.at_ exAccess addr 6)
  | _ => some (EFault.at_ exAccess addr 1)

/-- What the decoders show for local words that a word reads, by local address: a word not listed is clean. -/
abbrev LmSeen := List (Nat × EccSeen)

/-- The local word at a shows an uncorrectable error. -/
def LmSeen.bad (seen : LmSeen) (a : Nat) : Bool :=
  match seen.find? fun (x : Nat × EccSeen) => x.1 == a with
  | some (_, .uncorrectable _) => true
  | _ => false

/-- Checks of a local access of n bytes aligned to al: ALIGN, then RANGE, then the poison of its words, found before or shown now, which a load and
a store narrower than a word meet (R195, R198, R421). -/
def State.localFault (s : State) (g a n al : Nat) (load : Bool) (seen : LmSeen := []) : Option EFault :=
  if a % al != 0 then some (EFault.at_ exAlign a 0)
  else if 0x10000 < a + n then some (EFault.at_ exAccess (max a 0x10000) 7)
  else if load || n < 4 then
    match (List.range n).find? fun i => s.poisoned (lmBase g + a + i) || LmSeen.bad seen ((a + i) / 4 * 4) with
    | some i => some (EFault.at_ exPoison ((a + i) / 4 * 4) 3)
    | none => none
  else none

/-- The words that a load of n bytes at a reads, the lowest first: none where it is misaligned or leaves local memory. -/
def loadWords (a n al : Nat) : List Nat :=
  if a % al != 0 || 0x10000 < a + n then [] else (List.range ((a % 4 + n + 3) / 4)).map fun i => a / 4 * 4 + 4 * i

/-! ### Hardware loops (R202 to R204) -/

/-- The address is the loop end of an active level. -/
def EngRegs.atLoopEnd (r : EngRegs) (a : Nat) : Bool := (1 ≤ r.ldepth && a == r.le.1) || (2 ≤ r.ldepth && a == r.le.2)

/-- One 32-bit count less. -/
def lcDec (n : Nat) : Nat := (n + 2 ^ 32 - 1) % 2 ^ 32

/-- The address after a. -/
def pcNext (a : Nat) : Nat := (a + 4) % 65536

/-- The outer level's count at the retirement of the word at its end, and the pc after it. -/
def EngRegs.outerEnd (r : EngRegs) (a : Nat) : EngRegs :=
  let n := lcDec r.lc.1
  if n != 0 then { r with lc := (n, r.lc.2), pc := r.ls.1 } else { r with lc := (0, r.lc.2), ldepth := 0, pc := pcNext a }

/-- The pc and the loop levels after the word at a retires (R203). -/
def EngRegs.retireAt (r : EngRegs) (a : Nat) : EngRegs :=
  if r.ldepth = 2 && a = r.le.2 then
    let n := lcDec r.lc.2
    if n != 0 then { r with lc := (r.lc.1, n), pc := r.ls.2 }
    else
      let r := { r with lc := (r.lc.1, 0), ldepth := 1 }
      if a = r.le.1 then r.outerEnd a else { r with pc := pcNext a }
  else if 1 ≤ r.ldepth && a = r.le.1 then r.outerEnd a
  else { r with pc := pcNext a }

/-- Levels that a taken jump to a target leaves are closed, the innermost first (R204). -/
def EngRegs.leaveLoops (r : EngRegs) (t : Nat) : EngRegs :=
  let inIn := r.ls.2 ≤ t && t ≤ r.le.2
  let inOut := r.ls.1 ≤ t && t ≤ r.le.1
  if r.ldepth = 2 then
    if inIn then r else if inOut then { r with ldepth := 1 } else { r with ldepth := 0 }
  else if r.ldepth = 1 then (if inOut then r else { r with ldepth := 0 })
  else r

/-! ### Word boundaries (R186, R222) -/

/-- One write of another agent takes effect (R222): ENG_VBASE, ENG_CRCSEL, ENG_GDONE, ENG_TIMED_MAX by their offsets. -/
def Engine.agentWrite (x : Engine) (w : Nat × Nat) : Engine :=
  match w.1 with
  | 0x0C => { x with vbase := bits w.2 15 10 }
  | 0x10 => { x with r := { x.r with crcPoly := bits w.2 1 0, crcPoly8 := bits w.2 15 8 } }
  | 0x14 => { x with r := { x.r with gdone := w.2 % 65536 } }
  | 0x1C => { x with timedMax := w.2 % 65536 }
  | _ => x

/-- The engine stands between two words that an interrupt may part. -/
def Engine.atBoundary (x : Engine) : Bool := x.ctx == .plain && x.wait.isNone

/-- A word boundary is reached: waiting writes of other agents take effect, and a cleared run bit halts the engine, once no posted store of its is
on its way (R186, R222). -/
def State.engBoundary (s : State) (g : Nat) : State :=
  if !(s.eng g).atBoundary then s
  else
    let out := s.postedOut fun src => src == .store g
    s.updEng g fun x =>
      let y := { (x.agentWrites.foldl Engine.agentWrite x) with agentWrites := [] }
      if !y.run && y.state == .running && !out then { y with state := .halted } else y

/-! ### Exceptions (R217, R219, R221) -/

/-- An engine stops: an exception came while one was being handled (R221). -/
def State.engStop (s : State) (g code : Nat) : State :=
  let first := (s.eng g).r.ecause % 64
  let s := s.updEng g fun x => { x with state := .stopped, stopCause := code, wait := none, ctx := .plain, saved := none }
  (s.logErr { cls := 8, unit := g, addr := 0, detail := first + code * 256, ini := 5, eng := g, key := g }).fire (128 + g)

/-- The engine enters an exception with the registers r: MODE, EPC, ECAUSE and EADDR are saved and the vector is fetched; with MODE.exc already 1
it stops (R217, R221). Its first word begins at a word boundary (R222). -/
def State.engEnter (s : State) (g : Nat) (r : EngRegs) (code epc cause eaddr : Nat) : State :=
  let s := (s.updEng g fun x => { x with r := r, wait := none, ctx := .plain, saved := none, state := .running }).pmcAt 0x016 g 1 none
  if r.exc then s.engStop g code
  else (s.updEng g fun x => { x with r := { r with
    estat := r.mode, epc := epc, ecause := cause, eaddr := eaddr, mode := 5, pc := (x.vbase * 1024 + 16 * code) % 65536 } }).engBoundary g

/-- EPC and the context flags of a fault in the word now at pc (Tables 6.9, 6.11). -/
def Engine.faultPlace (x : Engine) : Nat × Nat :=
  let loop := if x.r.atLoopEnd x.r.pc then 1024 else 0
  match x.ctx with
  | .plain => (x.r.pc, loop)
  | .delaySlot b _ _ _ _ => (b, loop + 256)
  | .shadow a _ _ _ => (a, loop + 512)

/-- A word faults; keep holds the registers that the fault leaves (R214 keeps finished lanes, R211 the flags). In a mode-change group nothing of the
group is kept (Table 6.11) but the flags of an FP trap, which FPSTAT receives all the same (R211). -/
def State.engFault (s : State) (g : Nat) (keep : EngRegs) (f : EFault) : State :=
  let x := s.eng g
  let place := x.faultPlace
  let r := match x.ctx, x.saved with | .shadow _ _ _ _, some q => { q with fpstat := q.fpstat ||| f.flags } | _, _ => keep
  s.engEnter g r f.code place.1 (f.code + place.2 + (if f.slotB then 2048 else 0) + f.lane * 4096 + f.status * 2 ^ 20) f.addr

/-! ### Interrupts at a boundary (R197, R208, R218, R220) -/

/-- The exception that is due before the next word: POSTED_FAULT, TIMED_OVERRUN, then the lowest enabled line (R218, R220). -/
def State.boundaryCause (s : State) (g : Nat) : Option (Nat × Nat × Nat) :=
  let x := s.eng g
  match x.postedFault with
  | some (a, st) => some (15, 15 + 2 ^ 16 + st * 2 ^ 20, a)
  | none =>
    if x.timedOver then some (14, 14, 0)
    else if x.r.timed || x.r.exc then none
    else ((List.range 8).find? fun l => (x.r.ien &&& s.ipend g).testBit l).map fun l => (24 + l, 24 + l, 0)

/-- Take the exception that is due at a word boundary, if one is. -/
def State.takeBoundary (s : State) (g : Nat) : State :=
  let x := s.eng g
  if !x.atBoundary || x.state != .running then s
  else match s.boundaryCause g with
  | none => s
  | some (code, cause, addr) =>
    let s := s.updEng g fun x => if code = 15 then { x with postedFault := none } else if code = 14 then { x with timedOver := false } else x
    let s := if 24 ≤ code then s.pmcAt 0x017 g 1 none else s
    s.engEnter g x.r code x.r.pc cause addr

/-! ### Issue and retirement (R190, R199, R200, R207) -/

/-- What a word is, as the rules on delay slots, shadows and loop ends tell words apart (R200, R203, R207). -/
inductive WordKind where
  | plain | device | branch | loop | setmode | eret | trap | wfi | mbox | rstack
  deriving DecidableEq, Repr

/-- What a word does once its operands are read. -/
inductive OpRes where
  /-- retires with these registers and local stores -/
  | ok (r : EngRegs) (stores : List (Nat × List Byte))
  /-- a long branch: its target if taken, and whether it pushes, pops or may leave loops -/
  | jump (target : Option Nat) (push pop leaves : Bool)
  /-- LOOP: the next pc and the registers -/
  | goto (r : EngRegs) (pc : Nat)
  | setmode (m : Nat)
  | eret
  /-- BRK or SYSC: an exception after the word retires -/
  | trap (code : Nat)
  | wait (w : EngWait)
  | fault (f : EFault) (keep : EngRegs)

/-- A word that the rules forbid where it stands: in a delay slot, in a shadow, or at a loop end (R200, R203, R207). -/
def Engine.placeFault (x : Engine) (k : WordKind) : Option EFault :=
  let inSlot := match x.ctx with | .delaySlot .. => true | _ => false
  let inShadow := match x.ctx with | .shadow .. => true | _ => false
  let slotBad := k == .branch || k == .loop || k == .setmode || k == .trap || k == .eret || k == .wfi
  let shadowBad := slotBad || k == .device || k == .mbox || k == .rstack
  let endBad := inSlot || inShadow || k == .branch || k == .loop || k == .setmode || k == .eret
  illegalIf ((inSlot && slotBad) || (inShadow && shadowBad) || (x.r.atLoopEnd x.r.pc && endBad))

/-- The fetch of the word at pc meets a poisoned word, found before or shown now (R198). -/
def State.fetchFault (s : State) (g : Nat) (seen : LmSeen := []) : Option EFault :=
  let pc := (s.eng g).r.pc
  faultIf (s.poisoned (lmBase g + pc) || LmSeen.bad seen pc) (EFault.at_ exFetch pc 3)

/-- A taken branch's push, pop and loop exits take effect when its delay slot retires (R200, R201, R204). -/
def Engine.branchDone (x : Engine) (r : EngRegs) (b : Nat) (target : Option Nat) (push pop leaves : Bool) : Engine :=
  let r := if pop then { r with rstack := r.rstack.dropLast } else r
  let full := 8 ≤ r.rstack.length
  let r2 := if push then { r with rstack := (if full then r.rstack.drop 1 else r.rstack) ++ [(b + 8) % 65536] } else r
  let wraps := if push && full then min (x.rsWraps + 1) 65535 else x.rsWraps
  let r3 := match target with
    | some t => { (if leaves then r2.leaveLoops t else r2) with pc := t }
    | none => { r2 with pc := (b + 8) % 65536 }
  { x with r := r3, rsWraps := wraps, ctx := .plain }

/-- A word retires with registers r and local stores (R190, R200, R203, R207). -/
def State.engRetire (s : State) (g : Nat) (pair : Bool) (r : EngRegs) (stores : List (Nat × List Byte)) : State :=
  let x := s.eng g
  let a := x.r.pc
  let count (s : State) (n : Nat) : State :=
    let s := s.pmcAt 0x010 g n (some (g, a))
    if pair then s.pmcAt 0x011 g 1 (some (g, a)) else s
  match x.ctx with
  | .plain =>
    (count ((s.lmStore g stores).updEng g fun x => { x with r := r.retireAt a, wait := none, state := .running }) 1).engBoundary g
  | .delaySlot b target push pop leaves =>
    (count ((s.lmStore g stores).updEng g fun x => { (x.branchDone r b target push pop leaves) with wait := none, state := .running }) 2).engBoundary g
  | .shadow sm m 1 held =>
    s.updEng g fun x => { x with r := { r with pc := pcNext a }, ctx := .shadow sm m 2 (held ++ stores) }
  | .shadow _ m _ held =>
    (count ((s.lmStore g (held ++ stores)).updEng g fun x =>
      { x with r := { r with pc := pcNext a, mode := m }, ctx := .plain, saved := none,
               timedOver := x.timedOver && !(m.testBit 0 && !r.timed),
               timedTicks := if m.testBit 0 && !r.timed then 0 else x.timedTicks }) 3).engBoundary g

/-- The engine can issue its next word: running, powered or finishing its group while its domain falls (R186), not waiting, and at a word boundary
with run still 1 (R222). -/
def State.engReady (s : State) (g : Nat) : Bool :=
  let x := s.eng g
  x.state == .running && x.wait.isNone && (x.run || x.ctx != .plain) && (s.engPowered g || (s.dom (engDomain g) == .falling && x.ctx != .plain))

/-- What the word does is carried out. -/
def State.engApply (s : State) (g : Nat) (pair : Bool) (res : OpRes) : State :=
  let x := s.eng g
  let a := x.r.pc
  match res with
  | .ok r stores => s.engRetire g pair r stores
  | .jump target push pop leaves =>
    s.updEng g fun x => { x with r := { x.r with pc := pcNext a }, ctx := .delaySlot a target push pop leaves }
  | .goto r pc => ((s.updEng g fun x => { x with r := { r with pc := pc } }).pmcAt 0x010 g 1 (some (g, a))).engBoundary g
  | .setmode m =>
    s.updEng g fun x => { x with r := { x.r with pc := pcNext a }, ctx := .shadow a m 1 [], saved := some x.r }
  | .eret =>
    ((s.updEng g fun x => { x with r := { x.r with mode := x.r.estat % 8, pc := x.r.epc % 65536 / 4 * 4 } }).pmcAt 0x010 g 1 (some (g, a))).engBoundary g
  | .trap code =>
    let s := s.pmcAt 0x010 g 1 (some (g, a))
    let r := x.r.retireAt a
    (s.engEnter g r code r.pc code 0)
  | .wait w => s.updEng g fun x => { x with wait := some w, state := .waiting }
  | .fault f keep => s.engFault g keep f

/-- What the decoders show for the words read is carried out: a corrected word is logged, a newly found uncorrectable one is poisoned and logged; a
word already poisoned counts a hit. Words after the one that faults are not read (R195, R198, R421). -/
def State.engEcc (s : State) (g : Nat) (seen : LmSeen) (words : List Nat) (f : Option EFault) : State :=
  let poison := match f with | some f => f.code = exPoison | none => False
  let upTo := match f with
    | none => words
    | some f => if f.code = exPoison then words.takeWhile (· != f.addr) else if f.code = exAlign || f.code = exAccess then words else []
  let s := upTo.foldl (fun s a => match seen.find? fun (x : Nat × EccSeen) => x.1 == a with
    | some (_, .corrected line syn _) => s.corrected (lmBase g + a) line syn 5 g
    | _ => s) s
  match f with
  | some f =>
    if poison || f.code = exFetch && f.status = 3 then
      match s.poisoned (lmBase g + f.addr), seen.find? fun (x : Nat × EccSeen) => x.1 == f.addr with
      | false, some (_, .uncorrectable syn) => s.uncorrectable (lmBase g + f.addr) syn false 5 g
      | _, _ => s.hitPoison (lmBase g + f.addr) 4
    else s
  | none => s

/-- The engine issues one word: an exception that is due comes first; a fault of its place or its fetch is weighed with those of the word itself
(R190, R218). after is what a retired word does outside the engine; seen is what the decoders show for the local words it reads. -/
def State.engIssue (s : State) (g : Nat) (kind : WordKind) (pair : Bool) (op : EngRegs → OpRes) (after : State → State := id)
    (seen : LmSeen := []) (reads : EngRegs → List Nat := fun _ => []) : State :=
  if !s.engReady g then s
  else if (s.eng g).atBoundary && (s.boundaryCause g).isSome then s.takeBoundary g
  else
    let x := s.eng g
    let res := op x.r
    let own := match res with | .fault f _ => some f | _ => none
    let worstOf := worst [s.fetchFault g seen, x.placeFault kind, own]
    let t := s.engEcc g seen (reads x.r) worstOf
    if (t.eng g).state != .running then t
    else
      match worstOf with
      | some f => t.engFault g (match res with | .fault h keep => if h = f then keep else x.r | _ => x.r) f
      | none => after (t.engApply g pair res)

/-! ### Mailboxes (R15, R215) -/

/-- Berths of a mailbox (Table 1.3). -/
def mboxBerths : Nat := 16

/-- A message of engine g to engine dst crosses a die control channel that retrains, and waits (R15, R419; log 125). -/
def State.mailHeld (s : State) (g dst : Nat) : Bool :=
  engDomain g != engDomain dst
    && (32 ≤ g && s.ctlDown ((g - 32) / 8) false || 32 ≤ dst && s.ctlDown ((dst - 32) / 8) true)

/-- What MRECV writes for a message: lanes 0 to 3, the sender, and beside a sequencer's message its window start (R215). -/
def mboxVector (m : Nat × List Word × Nat) : Vector Word 16 :=
  let lane (i : Nat) : Word :=
    if i < 4 then m.2.1.getD i 0
    else if i = 4 then BitVec.ofNat 32 m.1
    else if m.1 = 0x80 && i = 5 then BitVec.ofNat 32 m.2.2
    else if m.1 = 0x80 && i = 6 then BitVec.ofNat 32 (m.2.2 / 2 ^ 32)
    else 0
  Vector.ofFn fun (i : Fin 16) => lane i.val

/-- A waiting MRECV takes the oldest message and retires. -/
def State.mrecvWake (s : State) (g : Nat) : State :=
  match (s.eng g).wait, (s.eng g).mbox with
  | some (.mrecv d), m :: rest =>
    if !s.engPowered g then s
    else (s.updEng g fun x => { x with mbox := rest }).engRetire g false ((s.eng g).r.putVec d (mboxVector m)) []
  | _, _ => s

/-- A message arrives in a mailbox with a free berth: its source fires (Table 9.2), and a waiting MRECV takes it. -/
def State.mboxDeliver (s : State) (g : Nat) (m : Nat × List Word × Nat) : State :=
  ((s.updEng g fun x => { x with mbox := x.mbox ++ [m] }).fire (224 + g)).mrecvWake g

/-- The message that engine g sends from vector register a. -/
def State.mboxMessage (s : State) (g a : Nat) : Nat × List Word × Nat := (g, ((s.eng g).r.vec a).toList.take 4, 0)

/-- The engine that MSEND names in wb. -/
def State.msendTo (s : State) (g b : Nat) : Nat := ((s.eng g).r.get b).toNat

/-- A waiting MSEND whose receiver has a free berth sends and retires. -/
def State.msendWake (s : State) (g : Nat) : State :=
  match (s.eng g).wait with
  | some (.msend a b) =>
    let dst := s.msendTo g b
    if !s.engPowered g || !s.domUp (engDomain dst) || s.mailHeld g dst || mboxBerths ≤ (s.eng dst).mbox.length then s
    else (s.mboxDeliver dst (s.mboxMessage g a)).engRetire g false (s.eng g).r []
  | _ => s

/-- A berth of a mailbox has come free: the lowest engine that waits to send there goes on. -/
def State.berthFree (s : State) (dst : Nat) : State :=
  match (List.range 96).find? fun g => match (s.eng g).wait with | some (.msend _ b) => s.msendTo g b == dst && s.engPowered g | _ => false with
  | some g => s.msendWake g
  | none => s

end Sys2Proof.Machine
end

