-- ==== Sys2Proof/Machine/EngineAlu.lean ====
section
/-! DEFINITION. Machine/EngineAlu.lean: the engine's arithmetic, bit, immediate and short operations (Tables 6.5 to 6.7, R191 to R194, R209). -/

namespace Sys2Proof.Machine

open Sys2Proof

/-! ### Operations on words (Table 6.6) -/

def wShl (x y : Word) : Word := x <<< (y.toNat % 32)
def wShr (x y : Word) : Word := x >>> (y.toNat % 32)
def wSra (x y : Word) : Word := x.sshiftRight (y.toNat % 32)
def wRor (x y : Word) : Word := x.rotateRight (y.toNat % 32)
def wMulhu (x y : Word) : Word := BitVec.ofNat 32 (x.toNat * y.toNat / 2 ^ 32)
def wMulhs (x y : Word) : Word := BitVec.ofInt 32 (x.toInt * y.toInt / 2 ^ 32)
def wBool (b : Bool) : Word := if b then 1 else 0
def wSlt (x y : Word) : Word := wBool (decide (x.toInt < y.toInt))
def wSltu (x y : Word) : Word := wBool (decide (x.toNat < y.toNat))
def wMin (x y : Word) : Word := if x.toInt < y.toInt then x else y
def wMax (x y : Word) : Word := if x.toInt < y.toInt then y else x
/-- Parity of the n bits from bit lo on. -/
def parityOf (x : Word) (lo n : Nat) : Bool := (List.range n).foldl (fun p i => p != x.getLsbD (lo + i)) false
def wPar (x : Word) : Word := wBool (parityOf x 0 32)
def wParb (x : Word) : Word := BitVec.ofNat 32 (maskOf 4 fun i => parityOf x (8 * i) 8)
def wBrev (x : Word) : Word := BitVec.ofNat 32 (maskOf 32 fun i => x.getLsbD (31 - i))
def wBrevb (x : Word) : Word := BitVec.ofNat 32 (maskOf 32 fun i => x.getLsbD (i / 8 * 8 + (7 - i % 8)))
def wBswap (x : Word) : Word := BitVec.ofNat 32 (maskOf 32 fun i => x.getLsbD ((3 - i / 8) * 8 + i % 8))
def wClz (x : Word) : Word := BitVec.ofNat 32 (((List.range 32).find? fun i => x.getLsbD (31 - i)).getD 32)
def wPopc (x : Word) : Word := BitVec.ofNat 32 (popcount 32 x.toNat)

/-- The check value of a register's low n bytes, by the engine's polynomial (R209). -/
def EngRegs.crc (r : EngRegs) (n : Nat) (x y : Word) : Word := BitVec.ofNat 32 (crcFeed r.crcPoly r.crcPoly8 n y.toNat x.toNat)

/-! ### Long operations -/

/-- A word without memory access or jump: ILLEGAL where a check fails, else a register write. -/
def regOp (bad : Bool) (d : Nat) (f : EngRegs → Word) (r : EngRegs) : OpRes :=
  if bad then .fault (EFault.plain exIllegal) r else .ok (r.put d (f r)) []

/-- An ALU or BIT word: func[12:5] must be zero (R192). -/
def State.engAlu (s : State) (g : Nat) (u : BitVec 8) (f : Word → Word → Word) (d a b : Nat) : State :=
  s.engIssue g .plain false (regOp (u != 0) d fun r => f (r.get a) (r.get b))

/-- CRC.B, CRC.H and CRC.W of n bytes. -/
def State.engCrc (s : State) (g : Nat) (u : BitVec 8) (n d a b : Nat) : State :=
  s.engIssue g .plain false (regOp (u != 0) d fun r => r.crc n (r.get a) (r.get b))

/-- An immediate operation, the immediate sign- or zero-extended (Table 6.5). -/
def State.engImm (s : State) (g : Nat) (sx : Bool) (f : Word → Word → Word) (d a : Nat) (imm : BitVec 17) : State :=
  s.engIssue g .plain false (regOp false d fun r => f (r.get a) (if sx then imm.signExtend 32 else imm.zeroExtend 32))

/-- A shift by an immediate: imm17[16:5] must be 0. -/
def State.engShiftImm (s : State) (g : Nat) (f : Word → Word → Word) (d a : Nat) (imm : BitVec 17) : State :=
  s.engIssue g .plain false (regOp (32 ≤ imm.toNat) d fun r => f (r.get a) (imm.zeroExtend 32))

/-- LUI: a must be zero. -/
def State.engLui (s : State) (g d a : Nat) (imm : BitVec 17) : State :=
  s.engIssue g .plain false (regOp (a != 0) d fun _ => BitVec.ofNat 32 (imm.toNat * 2 ^ 15))

/-! ### Short operations and pairs (R191, R193, R194) -/

/-- A short operation's fields: opcode, d, s or imm4, sub. -/
structure ShortOp where
  opc : Nat
  d : Nat
  sv : Nat
  sub : Nat
  deriving DecidableEq, Repr

/-- The fields of a 15-bit slot. -/
def ShortOp.ofBits (v : Nat) : ShortOp := ⟨bits v 14 10, bits v 9 6, bits v 5 2, bits v 1 0⟩

/-- Reserved encodings (Table 6.7). -/
def ShortOp.reserved (o : ShortOp) : Bool :=
  match o.opc with
  | 0 => o.d != 0 || o.sv != 0 || o.sub != 0
  | 1 => o.sub == 3
  | 6 => o.sub != 0
  | 9 => o.sub == 3
  | 10 => o.sub == 3
  | n => 11 ≤ n

/-- Registers read and written (Table 6.7); w0 never counts (R193). -/
def ShortOp.reads (o : ShortOp) : List Nat :=
  (match o.opc with
  | 0 => []
  | 1 => if o.sub = 0 then [o.sv] else []
  | 4 => [o.d]
  | 7 => [o.sv]
  | 8 => if o.sub = 3 then [o.sv] else [o.d, o.sv]
  | 9 => [o.sv]
  | _ => [o.d, o.sv]).filter (· != 0)
def ShortOp.writes (o : ShortOp) : List Nat := if o.opc = 0 || o.opc = 10 || o.d = 0 then [] else [o.d]

/-- The operation accesses memory, or occupies the CRC unit. -/
def ShortOp.isMem (o : ShortOp) : Bool := o.opc == 9 || o.opc == 10
def ShortOp.isCrc (o : ShortOp) : Bool := o.opc == 8 && o.sub != 3

/-- The pair breaks R193. -/
def pairConflict (a b : ShortOp) : Bool :=
  a.writes.any (fun w => b.reads.contains w || b.writes.contains w) || b.writes.any (fun w => a.reads.contains w)
    || (a.isMem && b.isMem) || (a.isCrc && b.isCrc)

/-- Bytes that a short memory operation moves. -/
def ShortOp.bytes (o : ShortOp) : Nat := 2 ^ o.sub

/-- The local address of a short memory operation: LDL by s, STL by d (Table 6.7, Example 6.1). -/
def ShortOp.addr (o : ShortOp) (r : EngRegs) : Nat := (r.get (if o.opc = 9 then o.sv else o.d)).toNat

/-- The fault of a short memory operation in its slot. -/
def State.shortFault (s : State) (g : Nat) (o : ShortOp) (r : EngRegs) (slotB : Bool) (seen : LmSeen := []) : Option EFault :=
  if o.isMem then (s.localFault g (o.addr r) o.bytes o.bytes (o.opc == 9) seen).map fun f => { f with slotB := slotB } else none

/-- The value a short operation writes. -/
def State.shortValue (s : State) (g : Nat) (o : ShortOp) (r : EngRegs) : Word :=
  let d := r.get o.d
  let v := r.get o.sv
  let imm : Word := BitVec.ofNat 32 o.sv
  match o.opc, o.sub with
  | 1, 0 => v
  | 1, 1 => imm
  | 1, _ => (BitVec.ofNat 4 o.sv).signExtend 32
  | 2, 0 => d + v
  | 2, 1 => d - v
  | 2, 2 => d &&& v
  | 2, _ => d ||| v
  | 3, 0 => d ^^^ v
  | 3, 1 => wShl d v
  | 3, 2 => wShr d v
  | 3, _ => wSra d v
  | 4, 0 => d + imm
  | 4, 1 => d - imm
  | 4, 2 => wShl d imm
  | 4, _ => wShr d imm
  | 5, 0 => wBool (d == v)
  | 5, 1 => wBool (d != v)
  | 5, 2 => wSlt d v
  | 5, _ => wSltu d v
  | 6, _ => d * v
  | 7, 0 => wPar v
  | 7, 1 => wParb v
  | 7, 2 => wBrev v
  | 7, _ => wBswap v
  | 8, 3 => wBrevb v
  | 8, n => r.crc (2 ^ n) d v
  | 9, _ => BitVec.ofNat 32 (s.lmRead g (o.addr r) o.bytes)
  | _, _ => 0

/-- A short operation's register write, with the operands as read before either slot writes. -/
def State.shortPut (s : State) (g : Nat) (o : ShortOp) (old r : EngRegs) : EngRegs :=
  if o.writes.isEmpty then r else r.put o.d (s.shortValue g o old)

/-- A short operation's store. -/
def ShortOp.stores (o : ShortOp) (r : EngRegs) : List (Nat × List Byte) :=
  if o.opc = 10 then [(o.addr r, toBytes o.bytes (r.get o.sv).toNat)] else []

/-- A pair word: both slots or neither (R190, R193, R194). -/
def State.pairOp (s : State) (g : Nat) (a b : ShortOp) (low : Bool) (seen : LmSeen) (r : EngRegs) : OpRes :=
  let ill (x : Bool) (slotB : Bool) : Option EFault := faultIf x { EFault.plain exIllegal with slotB := slotB }
  match worst [ill (low || a.reserved) false, ill b.reserved true,
      faultIf (pairConflict a b) { EFault.plain exPair with slotB := true },
      s.shortFault g a r false seen, s.shortFault g b r true seen] with
  | some f => .fault f r
  | none => .ok (s.shortPut g b r (s.shortPut g a r r)) (a.stores r ++ b.stores r)

/-- The words that a short operation loads. -/
def ShortOp.loads (o : ShortOp) (r : EngRegs) : List Nat := if o.opc = 9 then loadWords (o.addr r) o.bytes o.bytes else []

/-- A pair word that holds the named short operation in slot A or B and the other slot's fifteen bits. -/
def State.engShort (s : State) (g opc sub : Nat) (inB : Bool) (d sv : Nat) (other : BitVec 15) (low : Bool) (seen : LmSeen := []) : State :=
  let o : ShortOp := ⟨opc, d, sv, sub⟩
  let p := ShortOp.ofBits other.toNat
  s.engIssue g .plain true (seen := seen) (reads := fun r => o.loads r ++ p.loads r)
    (if inB then s.pairOp g p o low seen else s.pairOp g o p low seen)

/-- ADD (Table 6.6). -/
def execAdd (g : Fin 96) (d a b : Fin 16) (u : BitVec 8) (s : State) : Out := .next (s.engAlu g.val u (fun x y => x + y) d.val a.val b.val)
/-- SUB (Table 6.6). -/
def execSub (g : Fin 96) (d a b : Fin 16) (u : BitVec 8) (s : State) : Out := .next (s.engAlu g.val u (fun x y => x - y) d.val a.val b.val)
/-- AND (Table 6.6). -/
def execAnd (g : Fin 96) (d a b : Fin 16) (u : BitVec 8) (s : State) : Out := .next (s.engAlu g.val u (fun x y => x &&& y) d.val a.val b.val)
/-- OR (Table 6.6). -/
def execOr (g : Fin 96) (d a b : Fin 16) (u : BitVec 8) (s : State) : Out := .next (s.engAlu g.val u (fun x y => x ||| y) d.val a.val b.val)
/-- XOR (Table 6.6). -/
def execXor (g : Fin 96) (d a b : Fin 16) (u : BitVec 8) (s : State) : Out := .next (s.engAlu g.val u (fun x y => x ^^^ y) d.val a.val b.val)
/-- SHL (Table 6.6). -/
def execShl (g : Fin 96) (d a b : Fin 16) (u : BitVec 8) (s : State) : Out := .next (s.engAlu g.val u (wShl) d.val a.val b.val)
/-- SHR (Table 6.6). -/
def execShr (g : Fin 96) (d a b : Fin 16) (u : BitVec 8) (s : State) : Out := .next (s.engAlu g.val u (wShr) d.val a.val b.val)
/-- SRA (Table 6.6). -/
def execSra (g : Fin 96) (d a b : Fin 16) (u : BitVec 8) (s : State) : Out := .next (s.engAlu g.val u (wSra) d.val a.val b.val)
/-- ROR (Table 6.6). -/
def execRor (g : Fin 96) (d a b : Fin 16) (u : BitVec 8) (s : State) : Out := .next (s.engAlu g.val u (wRor) d.val a.val b.val)
/-- MUL (Table 6.6). -/
def execMul (g : Fin 96) (d a b : Fin 16) (u : BitVec 8) (s : State) : Out := .next (s.engAlu g.val u (fun x y => x * y) d.val a.val b.val)
/-- MULHU (Table 6.6). -/
def execMulhu (g : Fin 96) (d a b : Fin 16) (u : BitVec 8) (s : State) : Out := .next (s.engAlu g.val u (wMulhu) d.val a.val b.val)
/-- MULHS (Table 6.6). -/
def execMulhs (g : Fin 96) (d a b : Fin 16) (u : BitVec 8) (s : State) : Out := .next (s.engAlu g.val u (wMulhs) d.val a.val b.val)
/-- SLT (Table 6.6). -/
def execSlt (g : Fin 96) (d a b : Fin 16) (u : BitVec 8) (s : State) : Out := .next (s.engAlu g.val u (wSlt) d.val a.val b.val)
/-- SLTU (Table 6.6). -/
def execSltu (g : Fin 96) (d a b : Fin 16) (u : BitVec 8) (s : State) : Out := .next (s.engAlu g.val u (wSltu) d.val a.val b.val)
/-- MIN (Table 6.6). -/
def execMin (g : Fin 96) (d a b : Fin 16) (u : BitVec 8) (s : State) : Out := .next (s.engAlu g.val u (wMin) d.val a.val b.val)
/-- MAX (Table 6.6). -/
def execMax (g : Fin 96) (d a b : Fin 16) (u : BitVec 8) (s : State) : Out := .next (s.engAlu g.val u (wMax) d.val a.val b.val)
/-- PAR (Table 6.6). -/
def execPar (g : Fin 96) (d a b : Fin 16) (u : BitVec 8) (s : State) : Out := .next (s.engAlu g.val u (fun x _ => wPar x) d.val a.val b.val)
/-- PARB (Table 6.6). -/
def execParb (g : Fin 96) (d a b : Fin 16) (u : BitVec 8) (s : State) : Out := .next (s.engAlu g.val u (fun x _ => wParb x) d.val a.val b.val)
/-- BREV (Table 6.6). -/
def execBrev (g : Fin 96) (d a b : Fin 16) (u : BitVec 8) (s : State) : Out := .next (s.engAlu g.val u (fun x _ => wBrev x) d.val a.val b.val)
/-- BREVB (Table 6.6). -/
def execBrevb (g : Fin 96) (d a b : Fin 16) (u : BitVec 8) (s : State) : Out := .next (s.engAlu g.val u (fun x _ => wBrevb x) d.val a.val b.val)
/-- BSWAP (Table 6.6). -/
def execBswap (g : Fin 96) (d a b : Fin 16) (u : BitVec 8) (s : State) : Out := .next (s.engAlu g.val u (fun x _ => wBswap x) d.val a.val b.val)
/-- CLZ (Table 6.6). -/
def execClz (g : Fin 96) (d a b : Fin 16) (u : BitVec 8) (s : State) : Out := .next (s.engAlu g.val u (fun x _ => wClz x) d.val a.val b.val)
/-- POPC (Table 6.6). -/
def execPopc (g : Fin 96) (d a b : Fin 16) (u : BitVec 8) (s : State) : Out := .next (s.engAlu g.val u (fun x _ => wPopc x) d.val a.val b.val)
/-- CRC.B (R209). -/
def execCrcB (g : Fin 96) (d a b : Fin 16) (u : BitVec 8) (s : State) : Out := .next (s.engCrc g.val u 1 d.val a.val b.val)
/-- CRC.H (R209). -/
def execCrcH (g : Fin 96) (d a b : Fin 16) (u : BitVec 8) (s : State) : Out := .next (s.engCrc g.val u 2 d.val a.val b.val)
/-- CRC.W (R209). -/
def execCrcW (g : Fin 96) (d a b : Fin 16) (u : BitVec 8) (s : State) : Out := .next (s.engCrc g.val u 4 d.val a.val b.val)
/-- ADDI (Table 6.5). -/
def execAddi (g : Fin 96) (d a : Fin 16) (imm : BitVec 17) (s : State) : Out := .next (s.engImm g.val true (fun x y => x + y) d.val a.val imm)
/-- SLTI (Table 6.5). -/
def execSlti (g : Fin 96) (d a : Fin 16) (imm : BitVec 17) (s : State) : Out := .next (s.engImm g.val true (wSlt) d.val a.val imm)
/-- ANDI (Table 6.5). -/
def execAndi (g : Fin 96) (d a : Fin 16) (imm : BitVec 17) (s : State) : Out := .next (s.engImm g.val false (fun x y => x &&& y) d.val a.val imm)
/-- ORI (Table 6.5). -/
def execOri (g : Fin 96) (d a : Fin 16) (imm : BitVec 17) (s : State) : Out := .next (s.engImm g.val false (fun x y => x ||| y) d.val a.val imm)
/-- XORI (Table 6.5). -/
def execXori (g : Fin 96) (d a : Fin 16) (imm : BitVec 17) (s : State) : Out := .next (s.engImm g.val false (fun x y => x ^^^ y) d.val a.val imm)
/-- SHLI (Table 6.5). -/
def execShli (g : Fin 96) (d a : Fin 16) (imm : BitVec 17) (s : State) : Out := .next (s.engShiftImm g.val wShl d.val a.val imm)
/-- SHRI (Table 6.5). -/
def execShri (g : Fin 96) (d a : Fin 16) (imm : BitVec 17) (s : State) : Out := .next (s.engShiftImm g.val wShr d.val a.val imm)
/-- SRAI (Table 6.5). -/
def execSrai (g : Fin 96) (d a : Fin 16) (imm : BitVec 17) (s : State) : Out := .next (s.engShiftImm g.val wSra d.val a.val imm)
/-- LUI (Table 6.5). -/
def execLui (g : Fin 96) (d a : Fin 16) (imm : BitVec 17) (s : State) : Out := .next (s.engLui g.val d.val a.val imm)
/-- NOP (Table 6.7). -/
def execNop (g : Fin 96) (inB : Bool) (d sv : Fin 16) (other : BitVec 15) (low : Bool) (s : State) : Out :=
  .next (s.engShort g.val 0 0 inB d.val sv.val other low)
/-- S_MOV (Table 6.7). -/
def execSMov (g : Fin 96) (inB : Bool) (d sv : Fin 16) (other : BitVec 15) (low : Bool) (s : State) : Out :=
  .next (s.engShort g.val 1 0 inB d.val sv.val other low)
/-- S_MOV_IMM_ZX (Table 6.7). -/
def execSMovImmZx (g : Fin 96) (inB : Bool) (d sv : Fin 16) (other : BitVec 15) (low : Bool) (s : State) : Out :=
  .next (s.engShort g.val 1 1 inB d.val sv.val other low)
/-- S_MOV_IMM_SX (Table 6.7). -/
def execSMovImmSx (g : Fin 96) (inB : Bool) (d sv : Fin 16) (other : BitVec 15) (low : Bool) (s : State) : Out :=
  .next (s.engShort g.val 1 2 inB d.val sv.val other low)
/-- S_ADD (Table 6.7). -/
def execSAdd (g : Fin 96) (inB : Bool) (d sv : Fin 16) (other : BitVec 15) (low : Bool) (s : State) : Out :=
  .next (s.engShort g.val 2 0 inB d.val sv.val other low)
/-- S_SUB (Table 6.7). -/
def execSSub (g : Fin 96) (inB : Bool) (d sv : Fin 16) (other : BitVec 15) (low : Bool) (s : State) : Out :=
  .next (s.engShort g.val 2 1 inB d.val sv.val other low)
/-- S_AND (Table 6.7). -/
def execSAnd (g : Fin 96) (inB : Bool) (d sv : Fin 16) (other : BitVec 15) (low : Bool) (s : State) : Out :=
  .next (s.engShort g.val 2 2 inB d.val sv.val other low)
/-- S_OR (Table 6.7). -/
def execSOr (g : Fin 96) (inB : Bool) (d sv : Fin 16) (other : BitVec 15) (low : Bool) (s : State) : Out :=
  .next (s.engShort g.val 2 3 inB d.val sv.val other low)
/-- S_XOR (Table 6.7). -/
def execSXor (g : Fin 96) (inB : Bool) (d sv : Fin 16) (other : BitVec 15) (low : Bool) (s : State) : Out :=
  .next (s.engShort g.val 3 0 inB d.val sv.val other low)
/-- S_SHL (Table 6.7). -/
def execSShl (g : Fin 96) (inB : Bool) (d sv : Fin 16) (other : BitVec 15) (low : Bool) (s : State) : Out :=
  .next (s.engShort g.val 3 1 inB d.val sv.val other low)
/-- S_SHR (Table 6.7). -/
def execSShr (g : Fin 96) (inB : Bool) (d sv : Fin 16) (other : BitVec 15) (low : Bool) (s : State) : Out :=
  .next (s.engShort g.val 3 2 inB d.val sv.val other low)
/-- S_SRA (Table 6.7). -/
def execSSra (g : Fin 96) (inB : Bool) (d sv : Fin 16) (other : BitVec 15) (low : Bool) (s : State) : Out :=
  .next (s.engShort g.val 3 3 inB d.val sv.val other low)
/-- S_ADD_IMM4 (Table 6.7). -/
def execSAddImm4 (g : Fin 96) (inB : Bool) (d sv : Fin 16) (other : BitVec 15) (low : Bool) (s : State) : Out :=
  .next (s.engShort g.val 4 0 inB d.val sv.val other low)
/-- S_SUB_IMM4 (Table 6.7). -/
def execSSubImm4 (g : Fin 96) (inB : Bool) (d sv : Fin 16) (other : BitVec 15) (low : Bool) (s : State) : Out :=
  .next (s.engShort g.val 4 1 inB d.val sv.val other low)
/-- S_SHL_IMM4 (Table 6.7). -/
def execSShlImm4 (g : Fin 96) (inB : Bool) (d sv : Fin 16) (other : BitVec 15) (low : Bool) (s : State) : Out :=
  .next (s.engShort g.val 4 2 inB d.val sv.val other low)
/-- S_SHR_IMM4 (Table 6.7). -/
def execSShrImm4 (g : Fin 96) (inB : Bool) (d sv : Fin 16) (other : BitVec 15) (low : Bool) (s : State) : Out :=
  .next (s.engShort g.val 4 3 inB d.val sv.val other low)
/-- S_SEQ (Table 6.7). -/
def execSSeq (g : Fin 96) (inB : Bool) (d sv : Fin 16) (other : BitVec 15) (low : Bool) (s : State) : Out :=
  .next (s.engShort g.val 5 0 inB d.val sv.val other low)
/-- S_SNE (Table 6.7). -/
def execSSne (g : Fin 96) (inB : Bool) (d sv : Fin 16) (other : BitVec 15) (low : Bool) (s : State) : Out :=
  .next (s.engShort g.val 5 1 inB d.val sv.val other low)
/-- S_SLT (Table 6.7). -/
def execSSlt (g : Fin 96) (inB : Bool) (d sv : Fin 16) (other : BitVec 15) (low : Bool) (s : State) : Out :=
  .next (s.engShort g.val 5 2 inB d.val sv.val other low)
/-- S_SLTU (Table 6.7). -/
def execSSltu (g : Fin 96) (inB : Bool) (d sv : Fin 16) (other : BitVec 15) (low : Bool) (s : State) : Out :=
  .next (s.engShort g.val 5 3 inB d.val sv.val other low)
/-- S_MUL (Table 6.7). -/
def execSMul (g : Fin 96) (inB : Bool) (d sv : Fin 16) (other : BitVec 15) (low : Bool) (s : State) : Out :=
  .next (s.engShort g.val 6 0 inB d.val sv.val other low)
/-- S_PAR (Table 6.7). -/
def execSPar (g : Fin 96) (inB : Bool) (d sv : Fin 16) (other : BitVec 15) (low : Bool) (s : State) : Out :=
  .next (s.engShort g.val 7 0 inB d.val sv.val other low)
/-- S_PARB (Table 6.7). -/
def execSParb (g : Fin 96) (inB : Bool) (d sv : Fin 16) (other : BitVec 15) (low : Bool) (s : State) : Out :=
  .next (s.engShort g.val 7 1 inB d.val sv.val other low)
/-- S_BREV (Table 6.7). -/
def execSBrev (g : Fin 96) (inB : Bool) (d sv : Fin 16) (other : BitVec 15) (low : Bool) (s : State) : Out :=
  .next (s.engShort g.val 7 2 inB d.val sv.val other low)
/-- S_BSWAP (Table 6.7). -/
def execSBswap (g : Fin 96) (inB : Bool) (d sv : Fin 16) (other : BitVec 15) (low : Bool) (s : State) : Out :=
  .next (s.engShort g.val 7 3 inB d.val sv.val other low)
/-- S_CRC_B (Table 6.7). -/
def execSCrcB (g : Fin 96) (inB : Bool) (d sv : Fin 16) (other : BitVec 15) (low : Bool) (s : State) : Out :=
  .next (s.engShort g.val 8 0 inB d.val sv.val other low)
/-- S_CRC_H (Table 6.7). -/
def execSCrcH (g : Fin 96) (inB : Bool) (d sv : Fin 16) (other : BitVec 15) (low : Bool) (s : State) : Out :=
  .next (s.engShort g.val 8 1 inB d.val sv.val other low)
/-- S_CRC_W (Table 6.7). -/
def execSCrcW (g : Fin 96) (inB : Bool) (d sv : Fin 16) (other : BitVec 15) (low : Bool) (s : State) : Out :=
  .next (s.engShort g.val 8 2 inB d.val sv.val other low)
/-- S_BREVB (Table 6.7). -/
def execSBrevb (g : Fin 96) (inB : Bool) (d sv : Fin 16) (other : BitVec 15) (low : Bool) (s : State) : Out :=
  .next (s.engShort g.val 8 3 inB d.val sv.val other low)
/-- LDL_B (Table 6.7). -/
def execLdlB (e : EngSeen) (inB : Bool) (d sv : Fin 16) (other : BitVec 15) (low : Bool) (s : State) : Out :=
  .next (s.engShort e.g.val 9 0 inB d.val sv.val other low e.ecc)
/-- LDL_H (Table 6.7). -/
def execLdlH (e : EngSeen) (inB : Bool) (d sv : Fin 16) (other : BitVec 15) (low : Bool) (s : State) : Out :=
  .next (s.engShort e.g.val 9 1 inB d.val sv.val other low e.ecc)
/-- LDL_W (Table 6.7). -/
def execLdlW (e : EngSeen) (inB : Bool) (d sv : Fin 16) (other : BitVec 15) (low : Bool) (s : State) : Out :=
  .next (s.engShort e.g.val 9 2 inB d.val sv.val other low e.ecc)
/-- STL_B (Table 6.7). -/
def execStlB (g : Fin 96) (inB : Bool) (d sv : Fin 16) (other : BitVec 15) (low : Bool) (s : State) : Out :=
  .next (s.engShort g.val 10 0 inB d.val sv.val other low)
/-- STL_H (Table 6.7). -/
def execStlH (g : Fin 96) (inB : Bool) (d sv : Fin 16) (other : BitVec 15) (low : Bool) (s : State) : Out :=
  .next (s.engShort g.val 10 1 inB d.val sv.val other low)
/-- STL_W (Table 6.7). -/
def execStlW (g : Fin 96) (inB : Bool) (d sv : Fin 16) (other : BitVec 15) (low : Bool) (s : State) : Out :=
  .next (s.engShort g.val 10 2 inB d.val sv.val other low)

end Sys2Proof.Machine
end

