-- ==== Sys2Proof/Machine/Half.lean ====
section
/-! DEFINITION. Machine/Half.lean: IEEE 754 binary16 arithmetic of the engines' vector lanes (R210 to R212, Table 6.8). A finite value is held as an
integer: one unit is 2^-24 for an operand and 2^-48 for a product or an exact sum. -/

namespace Sys2Proof.Machine

open Sys2Proof

/-- The four flags of FPSTAT, in the order the register lists them, bit 3 first (log 25). -/
def flInvalid : Nat := 8
def flOverflow : Nat := 4
def flUnderflow : Nat := 2
def flInexact : Nat := 1

/-- Kinds of a binary16 code. -/
inductive HalfKind where
  | finite | inf | quiet | signalling
  deriving DecidableEq, Repr

def halfKind (h : Nat) : HalfKind :=
  if h / 1024 % 32 != 31 then .finite
  else if h % 1024 = 0 then .inf
  else if h % 1024 < 512 then .signalling
  else .quiet

/-- Sign of a binary16 code. -/
def halfNeg (h : Nat) : Bool := h.testBit 15

/-- Magnitude of a finite code in units of 2^-24; with ftz a subnormal counts as zero (R210). -/
def halfMag (ftz : Bool) (h : Nat) : Nat :=
  let e := h / 1024 % 32
  if e = 0 then (if ftz then 0 else h % 1024) else (1024 + h % 1024) * 2 ^ (e - 1)

/-- Round a magnitude quotient to the nearest, ties to even. -/
def roundEven (a b : Nat) : Nat :=
  let q := a / b
  let r := a % b
  if 2 * r < b then q else if b < 2 * r then q + 1 else if q % 2 = 0 then q else q + 1

/-- A magnitude in units of 2^-48 rounded to binary16, with its flags: tininess is found before rounding, underflow only where inexact (R210). -/
def roundHalf (ftz sat neg : Bool) (m : Nat) : Nat × Nat :=
  let sign := if neg then 0x8000 else 0
  if m = 0 then (sign, 0)
  else
    let tiny := m < 2 ^ 34
    let q := if tiny then 24 else Nat.log2 m - 10
    let v := roundEven m (2 ^ q) * 2 ^ q
    let inexact := v != m
    if v < 2 ^ 34 then
      if ftz && v != 0 then (sign, flUnderflow + flInexact)
      else (sign + v / 2 ^ 24, if inexact then flUnderflow + flInexact else 0)
    else if 2 ^ 64 ≤ v then (if sat then sign + 0x7BFF else sign + 0x7C00, flOverflow + flInexact)
    else
      let e := Nat.log2 v
      (sign + (e - 33) * 1024 + (v / 2 ^ (e - 10) - 1024), if inexact then flInexact + (if tiny then flUnderflow else 0) else 0)

/-- One term of an exact sum: a product of two codes, negated where neg. -/
structure Term where
  a : Nat
  b : Nat
  neg : Bool
  deriving DecidableEq, Repr

/-- The code of 1, by which a single code enters a sum as a term. -/
def halfOne : Nat := 0x3C00

def Term.isNeg (t : Term) : Bool := (halfNeg t.a != halfNeg t.b) != t.neg
def Term.isInf (t : Term) : Bool := halfKind t.a == .inf || halfKind t.b == .inf
def Term.isQuiet (t : Term) : Bool := halfKind t.a == .quiet || halfKind t.b == .quiet
/-- A signalling NaN, or infinity times zero. -/
def Term.invalid (ftz : Bool) (t : Term) : Bool :=
  halfKind t.a == .signalling || halfKind t.b == .signalling
    || (halfKind t.a == .inf && halfKind t.b == .finite && halfMag ftz t.b == 0)
    || (halfKind t.b == .inf && halfKind t.a == .finite && halfMag ftz t.a == 0)
/-- Exact magnitude in units of 2^-48. -/
def Term.mag (ftz : Bool) (t : Term) : Nat := halfMag ftz t.a * halfMag ftz t.b
def Term.value (ftz : Bool) (t : Term) : Int := if t.isNeg then -(t.mag ftz : Int) else t.mag ftz

/-- An exact sum of products rounded once, with its flags (R210). An exact zero is negative only where every term is a negative zero. -/
def sumTerms (ftz sat : Bool) (ts : List Term) : Nat × Nat :=
  let infs := ts.filter (·.isInf)
  if ts.any (·.invalid ftz) || (!ts.any (·.isQuiet) && infs.any (·.isNeg) && infs.any fun t => !t.isNeg) then (0x7E00, flInvalid)
  else if ts.any (·.isQuiet) then
    let k := Config.quietNan (ts.flatMap fun t => [t.a, t.b])
    (0x7E00 + k % 512 + (if k / 512 % 2 = 1 then 0x8000 else 0), 0)
  else match infs with
  | t :: _ => (if t.isNeg then 0xFC00 else 0x7C00, 0)
  | [] =>
    let v := ts.foldl (fun (a : Int) t => a + t.value ftz) 0
    if v = 0 then (if ts.all fun t => t.isNeg && t.mag ftz == 0 then 0x8000 else 0, 0)
    else roundHalf ftz sat (decide (v < 0)) v.natAbs

/-- Components of a lane: I low, Q high (R188). -/
def laneI (x : Word) : Nat := x.toNat % 65536
def laneQ (x : Word) : Nat := x.toNat / 65536

/-- A lane of two components. -/
def laneOf (i q : Nat) : Word := BitVec.ofNat 32 (i % 65536 + q % 65536 * 65536)

/-- Apply a component operation to I and Q of two lanes. -/
def perHalf (f : Nat → Nat → Nat × Nat) (x y : Word) : Word × Nat :=
  let i := f (laneI x) (laneI y)
  let q := f (laneQ x) (laneQ y)
  (laneOf i.1 q.1, i.2 ||| q.2)

/-- HADD, HSUB and HMUL on one lane (Table 6.6). -/
def laneAdd (ftz sat : Bool) : Word → Word → Word × Nat :=
  perHalf fun a b => sumTerms ftz sat [⟨a, halfOne, false⟩, ⟨b, halfOne, false⟩]
def laneSub (ftz sat : Bool) : Word → Word → Word × Nat :=
  perHalf fun a b => sumTerms ftz sat [⟨a, halfOne, false⟩, ⟨b, halfOne, true⟩]
def laneMul (ftz sat : Bool) : Word → Word → Word × Nat := perHalf fun a b => sumTerms ftz sat [⟨a, b, false⟩]

/-- CMUL and CFMA on one lane: d is added before the one rounding (R210). -/
def laneCmul (ftz sat : Bool) (d : Option Word) (a b : Word) : Word × Nat :=
  let add (h : Word → Nat) : List Term := match d with | some x => [⟨h x, halfOne, false⟩] | none => []
  let re := sumTerms ftz sat (add laneI ++ [⟨laneI a, laneI b, false⟩, ⟨laneQ a, laneQ b, true⟩])
  let im := sumTerms ftz sat (add laneQ ++ [⟨laneI a, laneQ b, false⟩, ⟨laneQ a, laneI b, false⟩])
  (laneOf re.1 im.1, re.2 ||| im.2)

/-- CVTQ of one component: times 2,048, rounded and saturated to 12 bits (R212). -/
def toQ (ftz : Bool) (h : Nat) : Nat × Nat :=
  match halfKind h with
  | .quiet | .signalling => (0, flInvalid)
  | .inf => (if halfNeg h then 0x800 else 0x7FF, flOverflow)
  | .finite =>
    let m := halfMag ftz h
    let v : Int := if halfNeg h then -(roundEven m (2 ^ 13) : Int) else roundEven m (2 ^ 13)
    if v < -2048 then (0x800, flOverflow)
    else if 2047 < v then (0x7FF, flOverflow)
    else (unsigned 12 v, if m % 2 ^ 13 = 0 then 0 else flInexact)

/-- CVTQ of a lane: Q in [23:12], I in [11:0]. -/
def laneToQ (ftz : Bool) (x : Word) : Word × Nat :=
  let i := toQ ftz (laneI x)
  let q := toQ ftz (laneQ x)
  (BitVec.ofNat 32 (i.1 + q.1 * 4096), i.2 ||| q.2)

/-- CVTH of one component: always exact (R212). -/
def fromQ (v : Nat) : Nat :=
  let x := signed 12 v
  (roundHalf false false (decide (x < 0)) (x.natAbs * 2 ^ 37)).1

/-- CVTH of a lane. -/
def laneFromQ (x : Word) : Word := laneOf (fromQ (x.toNat % 4096)) (fromQ (x.toNat / 4096 % 4096))

end Sys2Proof.Machine
end

