-- ==== Sys2Proof/Machine/EngineVec.lean ====
section
/-! DEFINITION. Machine/EngineVec.lean: the engine's vector operations (Table 6.6, R192, R210 to R212). -/

namespace Sys2Proof.Machine

open Sys2Proof

/-- A vector operand's field: bits [3:2] must be zero (R192). -/
def badVec (l : List Nat) : Bool := l.any fun f => 4 ≤ f

/-- A vector operation on lanes, with flags: an enabled trap raises FP at its lowest lane and leaves vd, FPSTAT receives the flags (R211). -/
def vecResult (d : Nat) (lanes : Vector (Word × Nat) 16) (r : EngRegs) : OpRes :=
  let flags := lanes.toList.foldl (fun a p => a ||| p.2) 0
  let r1 := { r with fpstat := r.fpstat ||| flags }
  let traps := r.fpctrl / 256 % 16
  match (List.range 16).find? fun i => (vget lanes i).2 &&& traps != 0 with
  | some i => .fault { EFault.plain exFp with lane := i, flags := flags } r1
  | none => .ok (r1.putVec d (lanes.map (·.1))) []

/-- FPCTRL.ftz and FPCTRL.sat. -/
def EngRegs.ftz (r : EngRegs) : Bool := r.fpctrl.testBit 0
def EngRegs.fsat (r : EngRegs) : Bool := r.fpctrl.testBit 1

/-- A word whose operand fields vs name vectors, and whose func[12:5] must be zero. -/
def State.engVec (s : State) (g : Nat) (u : BitVec 8) (vs : List Nat) (op : EngRegs → OpRes) : State :=
  s.engIssue g .plain false fun r => if u != 0 || badVec vs then .fault (EFault.plain exIllegal) r else op r

/-- A lane-by-lane operation of two vectors. -/
def State.engVec2 (s : State) (g : Nat) (u : BitVec 8) (d a b : Nat) (f : Bool → Bool → Word → Word → Word × Nat) : State :=
  s.engVec g u [d, a, b] fun r =>
    vecResult d (Vector.ofFn fun (i : Fin 16) => f r.ftz r.fsat (vget (r.vec a) i.val) (vget (r.vec b) i.val)) r

/-- HADD. -/
def execHadd (g : Fin 96) (d a b : Fin 16) (u : BitVec 8) (s : State) : Out := .next (s.engVec2 g.val u d.val a.val b.val laneAdd)
/-- HSUB. -/
def execHsub (g : Fin 96) (d a b : Fin 16) (u : BitVec 8) (s : State) : Out := .next (s.engVec2 g.val u d.val a.val b.val laneSub)
/-- HMUL. -/
def execHmul (g : Fin 96) (d a b : Fin 16) (u : BitVec 8) (s : State) : Out := .next (s.engVec2 g.val u d.val a.val b.val laneMul)
/-- CMUL. -/
def execCmul (g : Fin 96) (d a b : Fin 16) (u : BitVec 8) (s : State) : Out :=
  .next (s.engVec2 g.val u d.val a.val b.val fun ftz sat x y => laneCmul ftz sat none x y)
/-- CFMA. -/
def execCfma (g : Fin 96) (d a b : Fin 16) (u : BitVec 8) (s : State) : Out :=
  .next (s.engVec g.val u [d.val, a.val, b.val] fun r =>
    vecResult d.val (Vector.ofFn fun (i : Fin 16) =>
      laneCmul r.ftz r.fsat (some (vget (r.vec d.val) i.val)) (vget (r.vec a.val) i.val) (vget (r.vec b.val) i.val)) r)
/-- CVTQ. -/
def execCvtq (g : Fin 96) (d a _b : Fin 16) (u : BitVec 8) (s : State) : Out :=
  .next (s.engVec g.val u [d.val, a.val] fun r => vecResult d.val ((r.vec a.val).map fun x => laneToQ r.ftz x) r)
/-- CVTH. -/
def execCvth (g : Fin 96) (d a _b : Fin 16) (u : BitVec 8) (s : State) : Out :=
  .next (s.engVec g.val u [d.val, a.val] fun r => .ok (r.putVec d.val ((r.vec a.val).map laneFromQ)) [])
/-- VMOV. -/
def execVmov (g : Fin 96) (d a _b : Fin 16) (u : BitVec 8) (s : State) : Out :=
  .next (s.engVec g.val u [d.val, a.val] fun r => .ok (r.putVec d.val (r.vec a.val)) [])
/-- VSPLAT. -/
def execVsplat (g : Fin 96) (d a _b : Fin 16) (u : BitVec 8) (s : State) : Out :=
  .next (s.engVec g.val u [d.val] fun r => .ok (r.putVec d.val (.replicate 16 (r.get a.val))) [])
/-- VGET. -/
def execVget (g : Fin 96) (d a b : Fin 16) (u : BitVec 8) (s : State) : Out :=
  .next (s.engVec g.val u [a.val] fun r => .ok (r.put d.val (vget (r.vec a.val) ((r.get b.val).toNat % 16))) [])
/-- VPUT. -/
def execVput (g : Fin 96) (d a b : Fin 16) (u : BitVec 8) (s : State) : Out :=
  .next (s.engVec g.val u [d.val] fun r => .ok (r.putVec d.val (vset (r.vec d.val) ((r.get b.val).toNat % 16) (r.get a.val))) [])

end Sys2Proof.Machine
end

