-- ==== Sys2Proof/Machine/EngineSys.lean ====
section
/-! DEFINITION. Machine/EngineSys.lean: the engine's loads and stores, branches, loops, special registers, mailboxes and modes, up to the point at
which a device access waits (R189, R195 to R208, R213 to R220). -/

namespace Sys2Proof.Machine

open Sys2Proof

/-! ### Memory (R195, R213, R214) -/

/-- A task-level access to device space without ENG_CTRL.task_dev is PRIV (Table 6.12). -/
def State.devPriv (s : State) (g : Nat) (dev : Bool) (r : EngRegs) : Option EFault :=
  faultIf (dev && r.task && !(s.eng g).taskDev) (EFault.plain exPriv)

/-- An LM address: wa + off14, signed. -/
def lmAddress (r : EngRegs) (a : Nat) (off : BitVec 14) : Nat := (r.get a + off.signExtend 32).toNat

/-- Kind of a memory word by its space. -/
def memKind (dev : Bool) : WordKind := if dev then .device else .plain

/-- The checks of a memory access of n bytes aligned to al, in either space; load says whether poison counts. -/
def State.memFault (s : State) (g a n al : Nat) (dev load : Bool) (seen : LmSeen := []) : Option EFault :=
  if dev then faultIf (a % al != 0) (EFault.at_ exAlign a 0) else s.localFault g a n al load seen

/-- Sign-extend the low n bytes of a loaded value. -/
def loadValue (n : Nat) (sx : Bool) (v : Nat) : Word := if sx then BitVec.ofInt 32 (signed (8 * n) v) else BitVec.ofNat 32 v

/-- LD and LDS. -/
def State.engLoad (s : State) (g d a : Nat) (dev sx : Bool) (size : Nat) (off : BitVec 14) (ecc : LmSeen) : State :=
  s.engIssue g (memKind dev) false (seen := ecc)
      (reads := fun r => if dev then [] else loadWords (lmAddress r a off) (2 ^ size) (2 ^ size)) fun r =>
    let addr := lmAddress r a off
    let n := 2 ^ size
    match worst [illegalIf (size == 3), s.devPriv g dev r, s.memFault g addr n n dev true ecc] with
    | some f => .fault f r
    | none => if dev then .wait (.load addr n d sx) else .ok (r.put d (loadValue n sx (s.lmRead g addr n))) []

/-- ST. -/
def State.engStore (s : State) (g d a : Nat) (dev : Bool) (size : Nat) (off : BitVec 14) : State :=
  s.engIssue g (memKind dev) false fun r =>
    let addr := lmAddress r a off
    let n := 2 ^ size
    match worst [illegalIf (size == 3), s.devPriv g dev r, s.memFault g addr n n dev false] with
    | some f => .fault f r
    | none => if dev then .wait (.store addr n (r.get d).toNat) else .ok r [(addr, toBytes n (r.get d).toNat)]

/-- The 16 lanes of a vector as 64 bytes, lane 0 first, and back (R195). -/
def vecBytes (v : Vector Word 16) : List Byte := v.toList.flatMap fun x => toBytes 4 x.toNat
def bytesVec (l : List Byte) : Vector Word 16 := Vector.ofFn fun (i : Fin 16) => BitVec.ofNat 32 (ofBytes ((l.drop (4 * i.val)).take 4))

/-- VLD and VST: size must be zero (R192). -/
def State.engVmem (s : State) (g d a : Nat) (load dev : Bool) (size : Nat) (off : BitVec 14) (ecc : LmSeen := []) : State :=
  s.engIssue g (memKind dev) false (seen := ecc)
      (reads := fun r => if load && !dev then loadWords (lmAddress r a off) 64 4 else []) fun r =>
    let addr := lmAddress r a off
    match worst [illegalIf (size != 0 || badVec [d]), s.devPriv g dev r, s.memFault g addr 64 4 dev load ecc] with
    | some f => .fault f r
    | none =>
      if dev then .wait (if load then .vload addr d else .vstore addr (vecBytes (r.vec d)))
      else if load then .ok (r.putVec d (bytesVec ((List.range 64).map fun i => s.lmByte g (addr + i)))) []
      else .ok r [(addr, vecBytes (r.vec d))]

/-- The address of a GATHER's lane. -/
def gatherAddr (r : EngRegs) (base idx i : Nat) : Nat := (r.get base + vget (r.vec idx) i).toNat

/-- The lanes of a local GATHER from i on: each finished lane is written and marked, the first that faults ends it (R213, R214). -/
def State.gatherLocal (s : State) (g d base idx : Nat) (seen : LmSeen) : Nat → Nat → EngRegs → OpRes
  | 0, _, r => .ok { r with gdone := 0 } []
  | n + 1, i, r =>
    if r.gdone.testBit i then s.gatherLocal g d base idx seen n (i + 1) r
    else
      let a := gatherAddr r base idx i
      match s.localFault g a 4 4 true seen with
      | some f => .fault { f with lane := i } r
      | none =>
        let r := { (r.putVec d (vset (r.vec d) i (BitVec.ofNat 32 (s.lmRead g a 4)))) with gdone := r.gdone ||| 2 ^ i }
        s.gatherLocal g d base idx seen n (i + 1) r

/-- The words that a local GATHER reads: those of its lanes still to do, up to the first that is misaligned or leaves local memory. -/
def gatherWords (r : EngRegs) (base idx : Nat) : List Nat :=
  ((((List.range 16).filter fun i => !r.gdone.testBit i).map (gatherAddr r base idx)).takeWhile fun a => a % 4 == 0 && a < 0x10000)

/-- The first lane of a GATHER that has not finished. -/
def gatherLane (r : EngRegs) : Nat := ((List.range 16).find? fun i => !r.gdone.testBit i).getD 16

/-- A device GATHER's next lane must be aligned before its access is issued (R195). -/
def gatherAlign (r : EngRegs) (base idx : Nat) : Option EFault :=
  let a := gatherAddr r base idx (gatherLane r)
  faultIf (a % 4 != 0) { EFault.at_ exAlign a 0 with lane := gatherLane r }

/-- GATHER: vd must differ from vb; func[0] is the space; with every lane marked in ENG_GDONE it accesses nothing (R213). -/
def State.engGather (s : State) (g d a b : Nat) (func : BitVec 13) (ecc : LmSeen := []) : State :=
  let dev := func.getLsbD 0
  s.engIssue g (memKind dev) false (seen := ecc) (reads := fun r => if dev then [] else gatherWords r a b) fun r =>
    match worst [illegalIf (badVec [d, b] || d == b), s.devPriv g dev r] with
    | some f => .fault f r
    | none =>
      if !dev then s.gatherLocal g d a b ecc 16 0 r
      else if 16 ≤ gatherLane r then .ok { r with gdone := 0 } []
      else match gatherAlign r a b with
        | some f => .fault f r
        | none => .wait (.gather a d b)

/-! ### Branches, loops and the return stack (R199 to R204) -/

/-- A target in words from the branch. -/
def branchTarget (r : EngRegs) (off : BitVec 17) : Int := (r.pc : Int) + 4 * off.toInt

/-- A target must be a multiple of 4 below 0x1_0000 (R199). -/
def targetFault (t : Int) : Option EFault :=
  faultIf (decide (t < 0 ∨ 65536 ≤ t) || t % 4 != 0) (EFault.at_ exFetch (unsigned 32 t) 0)

/-- A long branch with the given checks; a branch not taken has no target to check (log 27). -/
def branchRes (checks : List (Option EFault)) (target : Option Int) (push pop leaves : Bool) (r : EngRegs) : OpRes :=
  match worst ((match target with | some t => targetFault t | none => none) :: checks) with
  | some f => .fault f r
  | none => .jump (target.map Int.toNat) push pop leaves

/-- BEQ to BGEU. -/
def State.engBranch (s : State) (g a b : Nat) (off : BitVec 17) (p : Word → Word → Bool) : State :=
  s.engIssue g .branch false fun r =>
    branchRes [] (if p (r.get a) (r.get b) then some (branchTarget r off) else none) false false true r

/-- A push onto a full stack traps with rs_mode 1 (R201). -/
def State.pushFault (s : State) (g : Nat) (r : EngRegs) : Option EFault :=
  faultIf ((s.eng g).rsMode && 8 ≤ r.rstack.length) (EFault.plain exRsOver)

/-- J and CALL: a must be zero. -/
def State.engJump (s : State) (g a : Nat) (off : BitVec 17) (call : Bool) : State :=
  s.engIssue g .branch false fun r =>
    branchRes [illegalIf (a != 0), if call then s.pushFault g r else none] (some (branchTarget r off)) call false (!call) r

/-- JR and CALLR: b and off17 must be zero. -/
def State.engJumpReg (s : State) (g a b : Nat) (off : BitVec 17) (call : Bool) : State :=
  s.engIssue g .branch false fun r =>
    branchRes [illegalIf (b != 0 || off != 0), if call then s.pushFault g r else none] (some ((r.get a).toNat : Int)) call false (!call) r

/-- RET: a must be zero; an empty stack traps. -/
def State.engRet (s : State) (g a : Nat) : State :=
  s.engIssue g .branch false fun r =>
    match r.rstack.getLast? with
    | none => .fault ((worst [illegalIf (a != 0), some (EFault.plain exRsUnder)]).getD (EFault.plain exRsUnder)) r
    | some t => branchRes [illegalIf (a != 0)] (some (t : Int)) false true false r

/-- LOOP (R202): b must be zero, off17 at least 1. -/
def State.engLoop (s : State) (g a b : Nat) (off : BitVec 17) : State :=
  s.engIssue g .loop false fun r =>
    match worst [illegalIf (b != 0 || decide (off.toInt < 1)), faultIf (r.ldepth == 2) (EFault.plain exLoopNest)] with
    | some f => .fault f r
    | none =>
      let le := (r.pc + 4 * off.toNat) % 65536
      let ls := pcNext r.pc
      let n := (r.get a).toNat
      let r1 := if r.ldepth = 0 then { r with ls := (ls, r.ls.2), le := (le, r.le.2) } else { r with ls := (r.ls.1, ls), le := (r.le.1, le) }
      if n = 0 then .goto r1 (pcNext le)
      else .goto { r1 with lc := if r.ldepth = 0 then (n, r.lc.2) else (r.lc.1, n), ldepth := r.ldepth + 1 } ls

/-- RSSAVE and RSLOAD at local address wa (R201). -/
def State.engRsSave (s : State) (g a : Nat) : State :=
  s.engIssue g .rstack false fun r =>
    let addr := (r.get a).toNat
    match s.localFault g addr 36 4 false with
    | some f => .fault f r
    | none =>
      let ws := r.rstack.length :: (r.rstack ++ List.replicate (8 - r.rstack.length) 0)
      .ok { r with rstack := [] } [(addr, ws.flatMap fun x => toBytes 4 x)]
def State.engRsLoad (s : State) (g a : Nat) (ecc : LmSeen := []) : State :=
  s.engIssue g .rstack false (seen := ecc) (reads := fun r => loadWords (r.get a).toNat 36 4) fun r =>
    let addr := (r.get a).toNat
    match s.localFault g addr 36 4 true ecc with
    | some f => .fault f r
    | none =>
      let n := min (s.lmRead g addr 4) 8
      .ok { r with rstack := (List.range n).map fun i => s.lmRead g (addr + 4 + 4 * i) 4 % 65536 } []

/-! ### Special registers (R189, Table 6.2) -/

/-- Registers that task level may not touch, and those that only read. -/
def specialPriv (k : Nat) : Bool := k ≤ 3 || k == 5 || k == 6 || k == 20 || k == 21
def specialRo (k : Nat) : Bool := k == 4 || k == 6 || k == 18 || k == 19

/-- The value of special register k. -/
def State.special (s : State) (g k : Nat) : Nat :=
  let r := (s.eng g).r
  match k with
  | 0 => r.epc | 1 => r.ecause | 2 => r.eaddr | 3 => r.estat | 4 => r.mode | 5 => r.ien | 6 => s.ipend g | 7 => r.gdone
  | 8 => r.crcPoly8 * 256 + r.crcPoly | 9 => r.fpctrl | 10 => r.fpstat
  | 11 => r.ls.1 | 12 => r.le.1 | 13 => r.lc.1 | 14 => r.ls.2 | 15 => r.le.2 | 16 => r.lc.2
  | 17 => r.ldepth | 18 => r.rstack.length | 19 => g | 20 => r.scr.1 | 21 => r.scr.2 | _ => 0

/-- Write special register k: reserved bits stay zero, read-only registers keep their value (R6, R189). -/
def EngRegs.putSpecial (r : EngRegs) (k v : Nat) : EngRegs :=
  match k with
  | 0 => { r with epc := v % 65536 }
  | 1 => { r with ecause := v &&& 0x00F1FF3F }
  | 2 => { r with eaddr := v }
  | 3 => { r with estat := v % 8 }
  | 5 => { r with ien := v % 256 }
  | 7 => { r with gdone := v % 65536 }
  | 8 => { r with crcPoly := v % 4, crcPoly8 := v / 256 % 256 }
  | 9 => { r with fpctrl := v &&& 0xF03 }
  | 10 => { r with fpstat := v % 16 }
  | 11 => { r with ls := (v % 65536, r.ls.2) }
  | 12 => { r with le := (v % 65536, r.le.2) }
  | 13 => { r with lc := (v, r.lc.2) }
  | 14 => { r with ls := (r.ls.1, v % 65536) }
  | 15 => { r with le := (r.le.1, v % 65536) }
  | 16 => { r with lc := (r.lc.1, v) }
  | 17 => { r with ldepth := min v 2 }
  | 20 => { r with scr := (v, r.scr.2) }
  | 21 => { r with scr := (r.scr.1, v) }
  | _ => r

/-- MFS. -/
def State.engMfs (s : State) (g d : Nat) (k : BitVec 8) : State :=
  s.engIssue g .plain false fun r =>
    match worst [illegalIf (decide (21 < k.toNat)), faultIf (r.task && specialPriv k.toNat) (EFault.plain exPriv)] with
    | some f => .fault f r
    | none => .ok (r.put d (BitVec.ofNat 32 (s.special g k.toNat))) []

/-- MTS. -/
def State.engMts (s : State) (g a : Nat) (k : BitVec 8) : State :=
  s.engIssue g .plain false fun r =>
    match worst [illegalIf (decide (21 < k.toNat)), faultIf (r.task && specialPriv k.toNat) (EFault.plain exPriv)] with
    | some f => .fault f r
    | none => .ok (r.putSpecial k.toNat (r.get a).toNat) []

/-! ### Time, mailboxes and modes (R205 to R208, R215 to R217, R220) -/

/-- MTIME: d even, 2 to 14 (R216). -/
def State.engMtime (s : State) (g d : Nat) : State :=
  s.engIssue g .plain false fun r =>
    if d % 2 != 0 || d < 2 then .fault (EFault.plain exIllegal) r
    else .ok ((r.put d (BitVec.ofNat 32 s.meshRead)).put (d + 1) (BitVec.ofNat 32 (s.meshRead / 2 ^ 32))) []

/-- MSEND: lanes 0 to 3 of va to the engine in wb (R215). -/
def State.engMsend (s : State) (g a b : Nat) : State :=
  let dst := s.msendTo g b
  let free := dst < 96 && s.domUp (engDomain dst) && !s.mailHeld g dst && (s.eng dst).mbox.length < mboxBerths
  let m := s.mboxMessage g a
  s.engIssue g .mbox false
    (fun r =>
      match worst [illegalIf (badVec [a]), faultIf (decide (95 < dst)) (EFault.plain exMbox)] with
      | some f => .fault f r
      | none => if !s.domUp (engDomain dst) then .fault (EFault.at_ exDozing 0 2) r else if free then .ok r [] else .wait (.msend a b))
    (fun s => if free then s.mboxDeliver dst m else s)

/-- MRECV: the oldest message, a wait, or with nowait lane 4 all ones (R215). -/
def State.engMrecv (s : State) (g d : Nat) (arg : BitVec 8) : State :=
  match (s.eng g).mbox with
  | m :: rest =>
    s.engIssue g .mbox false
      (fun r => if badVec [d] then .fault (EFault.plain exIllegal) r else .ok (r.putVec d (mboxVector m)) [])
      (fun s => (s.updEng g fun x => { x with mbox := rest }).berthFree g)
  | [] =>
    s.engIssue g .mbox false fun r =>
      if badVec [d] then .fault (EFault.plain exIllegal) r
      else if arg.getLsbD 0 then .ok (r.putVec d (vset (.replicate 16 0) 4 0xFFFFFFFF)) []
      else .wait (.mrecv d)

/-- ERET: PRIV at task level (R217). -/
def State.engEret (s : State) (g : Nat) : State :=
  s.engIssue g .eret false fun r => if r.task then .fault (EFault.plain exPriv) r else .eret

/-- SETMODE: argument bits [7:3] zero; at task level only timed may change, and only with task_timed (R206). -/
def State.engSetmode (s : State) (g : Nat) (arg : BitVec 8) : State :=
  s.engIssue g .setmode false fun r =>
    let m := arg.toNat
    let change := m % 8 ^^^ r.mode
    match worst [illegalIf (decide (8 ≤ m)),
        faultIf (r.task && (change / 2 != 0 || (change != 0 && !(s.eng g).taskTimed))) (EFault.plain exPriv)] with
    | some f => .fault f r
    | none => .setmode m

/-- The timed-mode counter passes ENG_TIMED_MAX: TIMED_OVERRUN is due at the next word boundary (R208). -/
def State.timedOverrun (s : State) (g : Nat) : State :=
  let x := s.eng g
  if x.timedMax = 0 || !x.r.timed || x.r.exc || !s.engPowered g || x.state == .stopped || x.state == .halted then s
  else (s.updEng g fun x => { x with timedOver := true, timedTicks := max x.timedTicks (1250 * x.timedMax + 1) }).takeBoundary g

/-- The timed-mode counter counts ticks while timed is 1 and exc is 0; as it passes ENG_TIMED_MAX the overrun is due (R208). -/
def State.timedCount (s : State) (g ticks : Nat) : State :=
  s.updEng g fun x =>
    if x.timedMax = 0 || !x.r.timed || x.r.exc || x.state == .stopped || x.state == .halted then x
    else
      let n := x.timedTicks + ticks
      { x with timedTicks := n, timedOver := x.timedOver || (x.timedTicks ≤ 1250 * x.timedMax && 1250 * x.timedMax < n) }

/-- A waiting WFI ends: an enabled line is asserted, or a message has arrived (R215, R220). -/
def State.wfiWake (s : State) (g : Nat) : State :=
  if (s.eng g).wait == some .wfi && s.engPowered g && (s.lineReady g || !(s.eng g).mbox.isEmpty) then s.engRetire g false (s.eng g).r []
  else s

/-- LD (R195). -/
def execLd (g : Fin 96) (d a : Fin 16) (dev : Bool) (size : Fin 4) (off : BitVec 14) (ecc : LmSeen) (s : State) : Out := .next (s.engLoad g.val d.val a.val dev false size.val off ecc)
/-- LDS (R195). -/
def execLds (g : Fin 96) (d a : Fin 16) (dev : Bool) (size : Fin 4) (off : BitVec 14) (ecc : LmSeen) (s : State) : Out := .next (s.engLoad g.val d.val a.val dev true size.val off ecc)
/-- ST (R195). -/
def execSt (g : Fin 96) (d a : Fin 16) (dev : Bool) (size : Fin 4) (off : BitVec 14) (s : State) : Out := .next (s.engStore g.val d.val a.val dev size.val off)
/-- VLD (R195). -/
def execVld (g : Fin 96) (d a : Fin 16) (dev : Bool) (size : Fin 4) (off : BitVec 14) (ecc : LmSeen) (s : State) : Out := .next (s.engVmem g.val d.val a.val true dev size.val off ecc)
/-- VST (R195). -/
def execVst (g : Fin 96) (d a : Fin 16) (dev : Bool) (size : Fin 4) (off : BitVec 14) (s : State) : Out := .next (s.engVmem g.val d.val a.val false dev size.val off)
/-- GATHER (R213). -/
def execGather (e : EngSeen) (d a b : Fin 16) (func : BitVec 13) (s : State) : Out := .next (s.engGather e.g.val d.val a.val b.val func e.ecc)
/-- BEQ (R199). -/
def execBeq (g : Fin 96) (a b : Fin 16) (off : BitVec 17) (s : State) : Out := .next (s.engBranch g.val a.val b.val off fun x y => x == y)
/-- BNE (R199). -/
def execBne (g : Fin 96) (a b : Fin 16) (off : BitVec 17) (s : State) : Out := .next (s.engBranch g.val a.val b.val off fun x y => x != y)
/-- BLT (R199). -/
def execBlt (g : Fin 96) (a b : Fin 16) (off : BitVec 17) (s : State) : Out := .next (s.engBranch g.val a.val b.val off fun x y => decide (x.toInt < y.toInt))
/-- BGE (R199). -/
def execBge (g : Fin 96) (a b : Fin 16) (off : BitVec 17) (s : State) : Out := .next (s.engBranch g.val a.val b.val off fun x y => decide (y.toInt ≤ x.toInt))
/-- BLTU (R199). -/
def execBltu (g : Fin 96) (a b : Fin 16) (off : BitVec 17) (s : State) : Out := .next (s.engBranch g.val a.val b.val off fun x y => decide (x.toNat < y.toNat))
/-- BGEU (R199). -/
def execBgeu (g : Fin 96) (a b : Fin 16) (off : BitVec 17) (s : State) : Out := .next (s.engBranch g.val a.val b.val off fun x y => decide (y.toNat ≤ x.toNat))
/-- J (R199). -/
def execJ (g : Fin 96) (a _b : Fin 16) (off : BitVec 17) (s : State) : Out := .next (s.engJump g.val a.val off false)
/-- CALL (R201). -/
def execCall (g : Fin 96) (a _b : Fin 16) (off : BitVec 17) (s : State) : Out := .next (s.engJump g.val a.val off true)
/-- JR (R199). -/
def execJr (g : Fin 96) (a b : Fin 16) (off : BitVec 17) (s : State) : Out := .next (s.engJumpReg g.val a.val b.val off false)
/-- CALLR (R201). -/
def execCallr (g : Fin 96) (a b : Fin 16) (off : BitVec 17) (s : State) : Out := .next (s.engJumpReg g.val a.val b.val off true)
/-- RET (R201). -/
def execRet (g : Fin 96) (a _b : Fin 16) (_off : BitVec 17) (s : State) : Out := .next (s.engRet g.val a.val)
/-- LOOP (R202). -/
def execLoop (g : Fin 96) (a b : Fin 16) (off : BitVec 17) (s : State) : Out := .next (s.engLoop g.val a.val b.val off)
/-- MFS (R189). -/
def execMfs (g : Fin 96) (d _a _b : Fin 16) (arg : BitVec 8) (s : State) : Out := .next (s.engMfs g.val d.val arg)
/-- MTS (R189). -/
def execMts (g : Fin 96) (_d a _b : Fin 16) (arg : BitVec 8) (s : State) : Out := .next (s.engMts g.val a.val arg)
/-- MTIME (R216). -/
def execMtime (g : Fin 96) (d _a _b : Fin 16) (_arg : BitVec 8) (s : State) : Out := .next (s.engMtime g.val d.val)
/-- RSSAVE (R201). -/
def execRssave (g : Fin 96) (_d a _b : Fin 16) (_arg : BitVec 8) (s : State) : Out := .next (s.engRsSave g.val a.val)
/-- RSLOAD (R201). -/
def execRsload (e : EngSeen) (_d a _b : Fin 16) (_arg : BitVec 8) (s : State) : Out := .next (s.engRsLoad e.g.val a.val e.ecc)
/-- MSEND (R215). -/
def execMsend (g : Fin 96) (_d a b : Fin 16) (_arg : BitVec 8) (s : State) : Out := .next (s.engMsend g.val a.val b.val)
/-- MRECV (R215). -/
def execMrecv (g : Fin 96) (d _a _b : Fin 16) (arg : BitVec 8) (s : State) : Out := .next (s.engMrecv g.val d.val arg)
/-- ERET (R217). -/
def execEret (g : Fin 96) (_d _a _b : Fin 16) (_arg : BitVec 8) (s : State) : Out := .next (s.engEret g.val)
/-- SETMODE (R206). -/
def execSetmode (g : Fin 96) (_d _a _b : Fin 16) (arg : BitVec 8) (s : State) : Out := .next (s.engSetmode g.val arg)
/-- BRK (R218). -/
def execBrk (g : Fin 96) (_d _a _b : Fin 16) (_arg : BitVec 8) (s : State) : Out := .next (s.engIssue g.val .trap false fun _ => .trap 16)
/-- SYSC (R218). -/
def execSysc (g : Fin 96) (_d _a _b : Fin 16) (_arg : BitVec 8) (s : State) : Out := .next (s.engIssue g.val .trap false fun _ => .trap 17)
/-- WFI (R220). -/
def execWfi (g : Fin 96) (_d _a _b : Fin 16) (_arg : BitVec 8) (s : State) : Out := .next (s.engIssue g.val .wfi false fun _ => .wait .wfi)
/-- TIMED_OVERRUN (R208). -/
def execTimedOverrun (g : Fin 96) (s : State) : Out := .next (s.timedOverrun g.val)
/-- WFI_WAKE (R220). -/
def execWfiWake (g : Fin 96) (s : State) : Out := .next (s.wfiWake g.val)
/-- INTERRUPT_TAKEN (R220). -/
def execInterruptTaken (g : Fin 96) (s : State) : Out := .next (if s.engPowered g.val then s.takeBoundary g.val else s)

end Sys2Proof.Machine
end

