-- ==== Sys2Proof/Machine/Fabric.lean ====
section
/-! DEFINITION. Machine/Fabric.lean: the general check-value units, imports, stitch cells, yarn fires and GP pins as commands and register
writes meet them (chapter 8, R259 to R274). -/

namespace Sys2Proof.Machine

open Sys2Proof

/-! ### General check-value units (R259 to R261) -/

/-- A unit is processing feeds: CRC_CFG.busy (R259). -/
def State.crcBusy (s : State) (u : Nat) : Bool := vget s.sys.crcLeft u != 0

/-- A unit has n cycles of work before it (R259). -/
def State.crcWork (s : State) (u n : Nat) : State := { s with sys := { s.sys with crcLeft := vset s.sys.crcLeft u n } }

/-- The unit's earlier feeds have finished: an access whose answer waits for them ends then (R259, R260). -/
def State.crcDone (s : State) (u : Nat) : State :=
  if s.crcBusy u then (s.reach (s.now + vget s.sys.crcLeft u * s.cycleLength)).crcWork u 0 else s

/-- A unit takes n bytes of a word, low byte first, in as many cycles. It serves the feeds of every agent in the order in which they arrive (R259,
R261). -/
def State.crcFeedUnit (s : State) (u n data : Nat) : State :=
  (s.crcWork u (vget s.sys.crcLeft u + n)).set (R.CRC_STATE_state u)
    (crcFeed (s.get (R.CRC_CFG_poly u)) (s.get (R.CRC_CFG_poly8 u)) n data (s.get (R.CRC_STATE_state u)))

/-- A write to CRC_CFG: a change of poly cuts the register to the new width (R260). -/
def State.crcCfgWrite (s : State) (u data : Nat) : State :=
  let old := s.get (R.CRC_CFG_poly u)
  let new := bits data 1 0
  let s := (s.set (R.CRC_CFG_poly u) new).set (R.CRC_CFG_poly8 u) (bits data 15 8)
  if old = new then s else s.set (R.CRC_STATE_state u) (s.get (R.CRC_STATE_state u) % 2 ^ crcWidth new)

/-- CRC_RESULT: the register XOR the final value, masked to the polynomial's width (R260). -/
def State.crcResult (s : State) (u : Nat) : Nat :=
  (s.get (R.CRC_STATE_state u) ^^^ s.get (R.CRC_XOROUT_xorout u)) % 2 ^ crcWidth (s.get (R.CRC_CFG_poly u))

/-! ### Imports and fires (R268, R269) -/

/-- The oldest event on an import reaches the far die: on its yarn it is one more event of this cycle. Where the tile at either end is down it is
dropped (R268). Tile imports are numbered 8 t + k. -/
def State.importDeliver (s : State) (toHub : Bool) (k : Nat) : State :=
  if toHub then
    match vget s.yrn.hubImp k with
    | [] => s
    | (_, t) :: q =>
      let s := { s with yrn := { s.yrn with hubImp := vset s.yrn.hubImp k q } }
      if s.tileUp t then s.produce 0 (112 + k % 16) 0 else s
  else
    match vget s.yrn.tileImp k with
    | [] => s
    | _ :: q =>
      let s := { s with yrn := { s.yrn with tileImp := vset s.yrn.tileImp k q } }
      if s.tileUp (k / 8) then s.produce (k / 8 + 1) (24 + k % 8) 0 else s

/-- Import events that have crossed for 24 cycles reach their dies. -/
def State.importsDue (s : State) : State :=
  let s := forAll 16 (fun k s => if (vget s.yrn.hubImp k).any fun (x : Nat × Nat) => x.1 = 0 then s.importDeliver true k else s) s
  forAll 64 (fun k s => if (vget s.yrn.tileImp k).any fun n => n = 0 then s.importDeliver false k else s) s

/-- A cycle passes for everything on its way (R266, R268); on a die whose clocks are stopped nothing moves (R302). -/
def State.ageYarns (s : State) : State :=
  { s with yrn := { s.yrn with
    flying := s.yrn.flying.map fun (x : Nat × Nat × Nat) => if s.fabricRuns x.1 then (x.1, x.2.1, x.2.2 - 1) else x,
    hubImp := s.yrn.hubImp.map fun (q : List (Nat × Nat)) => q.map fun (x : Nat × Nat) => (x.1 - 1, x.2),
    tileImp := s.yrn.tileImp.map fun (q : List Nat) => q.map fun n => n - 1 } }

/-- YRN_FIRE word w on the hub, or TILE_YRN_FIRE: an event on every yarn whose bit is 1, in the cycle after the write (R269). -/
def State.yrnFire (s : State) (d w data : Nat) : State := forBits 32 data (fun i s => s.produce d (32 * w + i) 3) s

/-! ### Stitch cells (R270 to R272) -/

/-- Die and number on it of a cell: 0 to 31 on the hub, 32 + 8 t + n on tile t. -/
def cellDie (k : Nat) : Nat := if k < 32 then 0 else (k - 32) / 8 + 1
def cellNo (k : Nat) : Nat := if k < 32 then k else (k - 32) % 8

/-- A write to YRN_CELL_CTRL: a cleared or newly set en forces S and F to 0 and restarts the filter, without an edge (R272). -/
def State.cellCtrlWrite (s : State) (k data : Nat) : State :=
  let en := data.testBit 0
  if en == s.on (R.YRN_CELL_CTRL_en k) then s
  else
    let s := ((s.set (R.YRN_CELL_CTRL_en k) en.toNat).set (R.YRN_CELL_STAT_s k) 0).set (R.YRN_CELL_STAT_level k) 0
    { s with yrn := { s.yrn with cells := vset s.yrn.cells k ⟨0⟩ } }

/-! ### GP pins (R273) -/

/-- A synchronised level that has held for 4 cycles: cells that read the pin see it, and a selected edge fires yarn 96 + g and source
448 + g (R273, Table 9.2). -/
def State.gpEdge (s : State) (g : Nat) (level : Bool) : State :=
  if !s.hubUp then s
  else
    let old := s.pins.gpIn.testBit g
    let s := if old == level then s else { s with pins := { s.pins with gpIn := s.pins.gpIn ^^^ 2 ^ g } }
    let e := s.get (R.YRN_GP_edge g)
    let hit := (old != level) && (if level then e == 1 || e == 3 else e == 2 || e == 3)
    if hit then (s.fire (448 + g)).yarn (96 + g) else s

/-- The 8 cycles of a pulse are over (R273). -/
def State.gpPulseEnd (s : State) (g : Nat) : State :=
  let left := vget s.pins.gpPulse g
  if !s.hubUp || left = 0 then s
  else
    let s := (s.reach (s.now + left * s.cycleLength)).gpDrive g false
    { s with pins := { s.pins with gpPulse := vset s.pins.gpPulse g 0 } }

/-- After a write to YRN_GP_g: out_src 0 and 4 to 7 drive out_val; a pin that follows a cell takes its level in the cycles that come, and one that
follows a yarn keeps its own until an event (R273). -/
def State.gpWritten (s : State) (g : Nat) : State :=
  let src := s.get (R.YRN_GP_out_src g)
  let s := if src = 2 then s else { s with pins := { s.pins with gpPulse := vset s.pins.gpPulse g 0 } }
  if src = 0 || 4 ≤ src then s.gpDrive g (s.on (R.YRN_GP_out_val g)) else s

/-- YARN_IMPORT_DELIVERY (R268): hub import k, or tile import 8 t + k. -/
def execYarnImportDelivery (toHub : Bool) (k : Fin 64) (s : State) : Out := .next (s.importDeliver toHub k.val)
/-- GP_INPUT_EDGE (R273). -/
def execGpInputEdge (g : Fin 16) (level : Bool) (s : State) : Out := .next (s.gpEdge g.val level)
/-- GP_PULSE_END (R273). -/
def execGpPulseEnd (g : Fin 16) (s : State) : Out := .next (s.gpPulseEnd g.val)

end Sys2Proof.Machine
end

