-- ==== Sys2Proof/Machine/Keys.lean ====
section
/-! DEFINITION. Machine/Keys.lean: key slots as the pipes and the MAC see them, and the per-neighbour bypasses (R28, R29, R238 to R242,
R248). -/

namespace Sys2Proof.Machine

open Sys2Proof

/-- The neighbour's entry is in use. A poisoned live entry (Table 14.6), an entry yielded to a peer (R372) and, in solo, a shared entry
(R370) are treated as disabled. -/
def State.nbrEnabled (s : State) (n : Nat) : Bool :=
  s.on (R.NBR_CFG_enabled n) && !(s.nbr n).poisoned && !s.bit (R.PNT_YIELD_nbrs (n / 32)) (n % 32)
    && !(s.get R.PNT_STATUS_solo != 0 && s.bit (R.PNT_SHARED_nbrs (n / 32)) (n % 32))

/-- States of the RNG (SEC_STATUS.rng). -/
def State.rngReady (s : State) : Bool := s.get R.SEC_STATUS_rng == 2

/-- The hold of R248 is in force. -/
def State.cipherHold (s : State) : Bool := s.on R.SEC_POLICY_cipher_hold_until_rng && !s.rngReady

/-- SEC_STATUS.cipher_hold follows the policy and the RNG (R248). -/
def State.refreshHold (s : State) : State := s.set R.SEC_STATUS_cipher_hold s.cipherHold.toNat

/-- Slot k holds a key: LOADED, WARNED or SPENT. -/
def State.slotHolds (s : State) (k : Nat) : Bool := s.get (R.SEC_SLOT0_state k) != 0

/-- Slot k is usable for neighbour n: LOADED or WARNED, with the key length that cipher_mode asks for (R231). -/
def State.slotUsable (s : State) (n k : Nat) : Bool :=
  let st := s.get (R.SEC_SLOT0_state k)
  let mode := s.get (R.NBR_CFG_cipher_mode n)
  (st == 1 || st == 2) && ((mode == 1 && !s.on (R.SEC_SLOT0_len256 k)) || (mode == 2 && s.on (R.SEC_SLOT0_len256 k)))

/-- The neighbour's selected transmit slot (R240). -/
def State.txKeySlot (s : State) (n : Nat) : Nat := 4 * n + s.get (R.NBR_CFG_tx_key_next n)

/-- The receive slots a neighbour may use: current, and next where rx_next_ok is 1 (R240). -/
def State.rxKeySlots (s : State) (n : Nat) : List Nat := if s.on (R.NBR_CFG_rx_next_ok n) then [4 * n + 2, 4 * n + 3] else [4 * n + 2]

/-- The receive slot that a header's key_id selects: it holds a key and carries that key_id; the current slot wins (R240). -/
def State.rxKeySlot (s : State) (n keyId : Nat) : Option Nat :=
  (s.rxKeySlots n).find? fun k => s.slotHolds k && s.get (R.SEC_SLOT0_key_id k) == keyId

/-- spent_tx and spent_rx follow the slots: they are set at once, and clear only at an idle instant of the neighbour, or where the entry is
disabled or in cipher bypass (R242). A flag newly set fires source 82. -/
def State.refreshSpent (s : State) (n : Nat) (idle : Bool) : State :=
  let acts := s.nbrEnabled n && !s.cipherBypass n
  let tx := acts && !s.slotUsable n (s.txKeySlot n)
  let rx := acts && !(s.rxKeySlots n).any fun k => s.slotUsable n k
  let was := (s.on (R.NBR_LIVE_spent_tx n), s.on (R.NBR_LIVE_spent_rx n))
  let tx' := tx || (was.1 && acts && !idle)
  let rx' := rx || (was.2 && acts && !idle)
  let s := (s.set (R.NBR_LIVE_spent_tx n) tx'.toNat).set (R.NBR_LIVE_spent_rx n) rx'.toNat
  if (tx' && !was.1) || (rx' && !was.2) then s.fire 82 else s

end Sys2Proof.Machine
end

