-- ==== Sys2Proof/Machine/Crossings.lean ====
section
/-! DEFINITION. Machine/Crossings.lean: crossing descriptors, extents and tiles, the timetable's votes, return states, skips, a neighbour's
idle instant and the report of function modes (R28 to R31, R144, R148, R149, R155 to R157, R161). -/

namespace Sys2Proof.Machine

open Sys2Proof

/-! ### Descriptors (R148) -/

/-- The descriptor of four words (Table 5.1). -/
def Desc.ofWords (w0 w1 w2 w3 : Nat) : Desc :=
  { valid := bits w0 31 31 == 1, mcs := bits w0 30 27, dir := bits w0 26 26, nbr := bits w0 25 20, slot := bits w0 19 16,
    start := bits w0 14 12, window := bits w0 11 0, hipri := bits w1 30 30 == 1, ret := bits w1 29 28, rclass := bits w1 27 26,
    pair := bits w1 25 25 == 1, cond := bits w1 24 24 == 1, sweep := bits w1 23 23 == 1, swatch := bits w1 22 12, len := bits w1 11 0,
    useRef := bits w2 23 23 == 1, ref := bits w2 22 21, xid := bits w2 15 0, user := w3,
    raw := [w0, w1, w2, w3] }

/-- The descriptor stored at an address. -/
def State.descAt (s : State) (a : Nat) : Desc := Desc.ofWords (s.word a) (s.word (a + 4)) (s.word (a + 8)) (s.word (a + 12))

/-- A range lies wholly inside hub SRAM. -/
def inSram (a len : Nat) : Bool := 0x1000000 ≤ a && a + len ≤ 0x1C00000

/-- The image that is live in a timetable cycle: the one committed last for its cycle boundary or an earlier one (R145). -/
def State.imageIn (s : State) (cycle : Nat) : Nat :=
  s.xng.commit.foldl (fun k (x : Nat × Nat) => if x.2 ≤ cycle * cycleTicks then x.1 else k) (s.get R.XNG_COMMIT_live)

/-- Address of descriptor i of image k. -/
def State.imageAddr (s : State) (k i : Nat) : Nat := s.get (R.XNG_WINDOW_BASE_base k) * 16 + 16 * i

/-- Descriptors in image k; a count above 65,536 is taken as 65,536 (R144). -/
def State.imageCount (s : State) (k : Nat) : Nat := min (s.get (R.XNG_WINDOW_COUNT_count k)) 65536

/-- The neighbour's propagation estimate in 1/16 tick. -/
def State.prop (s : State) (n : Nat) : Nat := s.get (R.NBR_PROP_prop n)

/-- L' of R149: a sweep's length counts its sweep blocks only. -/
def Desc.blocks (d : Desc) : Nat := if d.sweep then d.len + 4 else d.len

/-- End of the extent of a crossing with first block boundary b0 (R149). -/
def State.extentEnd (s : State) (d : Desc) (b0 : Nat) : Nat :=
  let bt := s.blockTicks
  if d.dir = 1 then b0 + d.blocks * bt
  else (16 * (b0 + d.blocks * bt) + s.prop d.nbr + 16 * bt - 1) / (16 * bt) * bt

/-- The crossing's swatch: the descriptor's own, or the neighbour's live reference (R154). -/
def State.descSwatch (s : State) (d : Desc) : Nat := if d.useRef then s.get (R.NBR_REF_swatch d.nbr d.ref) else d.swatch

/-- Tiles present in a swatch's directory entry; a number above 2,047 names none. -/
def State.swatchTiles (s : State) (sw : Nat) : Nat := if sw < 2048 then s.get (R.DIR0_tiles sw) else 0

/-- Tiles that a crossing uses: those of its swatch, for a sweep those of any swatch of the run (R149). -/
def State.descTiles (s : State) (d : Desc) : Nat :=
  let sw := s.descSwatch d
  if d.sweep then (List.range (min d.len 64)).foldl (fun m i => m ||| s.swatchTiles (sw + i)) (s.swatchTiles sw) else s.swatchTiles sw

/-- First block boundary of a crossing (R149). -/
def State.descB0 (s : State) (d : Desc) (winStart : Nat) : Nat := winStart + d.start * s.blockTicks

/-- A crossing comes from the push ring. -/
def XSrc.isPushed : XSrc → Bool
  | .pushed _ => true
  | .image _ _ => false

/-- A crossing as it is fetched, with the next crossing number. -/
def State.crossingOf (s : State) (src : XSrc) (d : Desc) (winStart : Nat) : Crossing :=
  let b0 := s.descB0 d winStart
  { id := s.xng.nextId, src := src, d := d, winStart := winStart, b0 := b0, ends := s.extentEnd d b0, tiles := s.descTiles d,
    swatch := s.descSwatch d, pushed := src.isPushed, checked := false, started := false, txTag := none, ackOnly := false,
    leadHeard := false, searchEnded := false, coexAsked := false, coexHeld := false }

/-- Replace a fetched crossing. -/
def State.updCrossing (s : State) (id : Nat) (f : Crossing → Crossing) : State :=
  { s with xng := { s.xng with fetched := s.xng.fetched.map fun (c : Crossing) => if c.id = id then f c else c } }

/-- The crossing in progress on a slot. -/
def State.running (s : State) (slot : Nat) : Option Crossing := s.xng.fetched.find? fun c => c.d.slot == slot && c.started

/-- The fetched crossing of a slot that comes next among those p keeps. -/
def State.nextOn (s : State) (slot : Nat) (p : Crossing → Bool) : Option Crossing :=
  (s.xng.fetched.filter fun c => c.d.slot == slot && p c).foldl
    (fun best c => match best with | none => some c | some b => if c.b0 < b.b0 then some c else some b) none

/-! ### The walk of the image (R28, R144, R147, R148, R158, R179) -/

/-- Scheduling is host-assisted in a cycle: the mode in force for the current cycle, the register's for a later one, as sampled once window
4095 has begun (R28, R159). -/
def State.hostAt (s : State) (cycle : Nat) : Bool :=
  if cycle ≤ s.now / cycleTicks then s.xng.hostSched
  else if 4095 ≤ s.now / windowTicks % 4096 && cycle = s.now / cycleTicks + 1 then s.xng.sampledSched
  else s.bit R.HUB_FUNC_MODE_bits 2

/-- Sort key of a descriptor (R144). -/
def Desc.key (d : Desc) : Nat × Nat × Nat := (d.window, d.start, d.slot)

/-- Lexicographic order of sort keys. -/
def keyLt (a b : Nat × Nat × Nat) : Bool :=
  a.1 < b.1 || (a.1 == b.1 && (a.2.1 < b.2.1 || (a.2.1 == b.2.1 && a.2.2 < b.2.2)))

/-- A descriptor's words can be read: inside hub SRAM and not poisoned (R144, Table 14.6). -/
def State.descReadable (s : State) (a : Nat) : Bool := inSram a 16 && !s.poisonedIn a 16

/-- Window start of a descriptor in a cycle. -/
def Desc.startIn (d : Desc) (cycle : Nat) : Nat := cycle * cycleTicks + d.window * windowTicks

/-- What the walk of the image meets next: a descriptor to fetch with its window start, or one to skip as BAD_DESC, its words readable or not. -/
inductive WalkItem where
  | fetch (src : XSrc) (d : Desc) (winStart : Nat)
  | bad (src : XSrc) (d : Desc) (winStart : Nat)
  | unreadable (addr winStart : Nat)
  deriving DecidableEq, Repr

/-- The image walk goes on from where it stands to its next item, passing over invalid descriptors, those before the first window that may be
fetched, and every one while scheduling is host-assisted. -/
def State.walkNext (s : State) : Nat → State × Option WalkItem
  | 0 => (s, none)
  | n + 1 =>
    let x := s.xng
    let c := x.walkCycle
    let first := x.fetchFrom / cycleTicks
    if c < first then State.walkNext { s with xng := { x with walkCycle := first, walk := 0, lastKey := none } } n
    else if s.now / cycleTicks + 2 < c then (s, none)
    else
      let k := s.imageIn c
      if s.imageCount k ≤ x.walk || s.hostAt c then
        if s.now / cycleTicks < c then (s, none)
        else State.walkNext { s with xng := { x with walkCycle := c + 1, walk := 0, lastKey := none } } n
      else
        let a := s.imageAddr k x.walk
        if !s.descReadable a then (s, some (.unreadable a (c * cycleTicks)))
        else
          let d := s.descAt a
          let w := d.startIn c
          if !d.valid then State.walkNext { s with xng := { x with walk := x.walk + 1 } } n
          else if w < x.fetchFrom then
            State.walkNext { s with xng := { x with walk := x.walk + 1, lastKey := some d.key } } n
          else
            match x.lastKey with
            | some q => if keyLt d.key q then (s, some (.bad (.image c x.walk) d w)) else (s, some (.fetch (.image c x.walk) d w))
            | none => (s, some (.fetch (.image c x.walk) d w))

/-- Descriptors that one look ahead can pass: two images of 65,536, and the cycle boundaries between them. -/
def walkFuel : Nat := 131080

/-- First block boundary of the next crossing of the timetable image, as the walk meets it (R300). -/
def State.nextImageCrossing (s : State) : Option Nat :=
  match (s.walkNext walkFuel).2 with
  | some (.fetch _ d w) => some (s.descB0 d w)
  | some (.bad _ d w) => some (s.descB0 d w)
  | _ => none

/-! ### Votes (R155, R229, R300, Table 10.2) -/

/-- A receive frame, a transmit frame or a queued codeword occupies the coding pools. -/
def State.coding (s : State) : Bool :=
  !s.phy.queue.isEmpty || (List.range 16).any fun n => !(s.slot n).rx.isEmpty || (s.slot n).tx.isSome

/-- Some frame is in a cipher pipe or a verify buffer. -/
def State.piping (s : State) : Bool :=
  !s.phy.waiting.isEmpty || (List.range 8).any (fun p => !(s.pipe p).frames.isEmpty) || (List.range 64).any fun n => (s.nbr n).rxQueue.any fun f => f.pool.isNone

/-- Give a vote only where it changes. -/
def State.aimVote (s : State) (d k : Nat) (b : Bool) : State := if s.bit (R.PWR_VOTE_votes d) k == b then s else s.putVote d k b

/-- The vote lead in ticks; below 200 µs it is taken as 200 (R155). -/
def State.voteLead (s : State) : Nat := 1250 * max 200 (s.get R.XNG_CTRL_vote_lead)

/-- The next image crossing lies within the vote lead and 200 µs: the timetable holds the hub core (R300). -/
def State.hubAwaited (s : State) : Bool :=
  s.on R.XNG_CTRL_enable && s.hubUp && match s.nextImageCrossing with
    | some b0 => decide (b0 ≤ s.now + s.voteLead + 250000)
    | none => false

/-- The timetable's votes on tiles and on the hub core and the MAC's on the LDPC pool and the cipher domain, as the standing crossings,
frames and pipes ask (Table 10.2, R155, R229, R300). -/
def State.refreshVotes (s : State) : State :=
  let v := s.xng.votes
  let near := v.filter fun x => x.b0 ≤ s.now + s.voteLead
  let s := s.aimVote 0 31 (!v.isEmpty || s.hubAwaited)
  let s := forAll 8 (fun t s => s.aimVote (t + 1) 31 (v.any fun x => x.tiles.testBit t)) s
  let s := s.aimVote 11 30 (!near.isEmpty || s.coding)
  s.aimVote 12 30 (s.piping || near.any (·.piped))

/-- The timetable votes for a crossing (R155, R159). -/
def State.voteFor (s : State) (v : XVote) : State :=
  if s.xng.votes.any fun x => x.src == v.src then s
  else { s with xng := { s.xng with votes := s.xng.votes ++ [v] } }.refreshVotes

/-- The timetable's vote for a crossing is withdrawn (R155). -/
def State.unvoteFor (s : State) (src : XSrc) : State :=
  { s with xng := { s.xng with votes := s.xng.votes.filter fun v => v.src != src } }.refreshVotes

/-- The vote's crossing is fetched or held, or is one that the walk of the image has still to come to. -/
def State.voteStands (s : State) (v : XVote) : Bool :=
  s.xng.fetched.any (fun c => c.src == v.src) || match v.src with
    | .pushed n => s.xng.held.any fun h => h.num == n
    | .image c i =>
      let a := s.imageAddr (s.imageIn c) i
      let d := s.descAt a
      s.on R.XNG_CTRL_enable && !s.hostAt c && (s.xng.walkCycle < c || (c == s.xng.walkCycle && s.xng.walk ≤ i)) && i < s.imageCount (s.imageIn c)
        && s.descReadable a && d.valid && s.xng.fetchFrom ≤ d.startIn c && s.descB0 d (d.startIn c) == v.b0

/-- Votes whose crossing will not be fetched after all are withdrawn (R155, R300). -/
def State.pruneVotes (s : State) : State :=
  { s with xng := { s.xng with votes := s.xng.votes.filter s.voteStands } }.refreshVotes

/-! ### A neighbour's idle instant (R28, R29) -/

/-- An idle neighbour takes the permissions that HUB_FUNC_MODE holds (R28, R29), and its key flags come up to date (R242). -/
def State.nbrPoke (s : State) (n : Nat) : State :=
  if !s.nbrIdle n then s else ((s.nbrSample n).refreshSpent n true).refreshFunc

/-! ### Return states (R156, R157, Tables 5.3, 5.5) -/

/-- Depth of a return state: NEXT, IDLE, WARM, OFF (R156). -/
def retRank (ret : Nat) : Nat := if ret = 3 then 0 else ret + 1

/-- The next fetched crossing that uses tile t and has not started. -/
def State.nextOnTile (s : State) (t : Nat) : Option Crossing :=
  (s.xng.fetched.filter fun c => !c.started && c.tiles.testBit (t % 8)).foldl
    (fun best c => match best with | none => some c | some b => if c.b0 < b.b0 then some c else some b) none

/-- A tile enters RX or TX, where its synthesiser is locked (R60). -/
def State.tileTurn (s : State) (t : Nat) (tx : Bool) : State :=
  if s.tileLocked t then s.tileRadio t (if tx then .tx else .rx) else s

/-- A crossing needs its tiles in RX or TX now (Table 5.4). -/
def State.turnDue (s : State) (c : Crossing) : Bool := c.b0 ≤ s.now + if c.d.dir = 1 then 50 else 40

/-- Apply a return state to a tile, never deeper than what the next fetched crossing on it needs now (R157). -/
def State.returnTile (s : State) (t ret : Nat) : State :=
  let x := s.tile t
  if x.radio = .off || !s.tileRuns t then s
  else
    let shallow := (s.xng.lastEnds.filter fun e => e.1 == s.now && e.2.1.testBit (t % 8)).foldl
      (fun r e => if retRank e.2.2 < retRank r then e.2.2 else r) ret
    match s.nextOnTile t with
    | none => s.tileRadio t (if shallow = 3 || shallow = 0 then .idle else if shallow = 1 then .warm else .off)
    | some c =>
      if (shallow = 3 && (x.radio = .rx || x.radio = .tx)) || (c.checked && s.turnDue c && x.radio != .warm) then s.tileTurn t (c.d.dir == 1)
      else if shallow = 3 then s
      else if shallow = 0 || c.b0 ≤ s.now + 2560 then s.tileRadio t .idle
      else if shallow = 1 || c.b0 ≤ s.now + 80000 then s.tileRadio t .warm
      else s.tileRadio t .off

/-- Apply a crossing's return state to its tiles, but for those that another crossing in progress uses (R156). -/
def State.returnTiles (s : State) (tiles ret : Nat) : State :=
  forBits 8 tiles (fun t s => if s.tileBusy t then s else s.returnTile t ret) s

/-! ### Skips (R161) -/

/-- One skip record in the ring, and its reason's count (R161). -/
def State.skipRing (s : State) (d : Desc) (winStart : Nat) (pushed : Bool) (reason : Nat) : State :=
  let s := s.bump (R.XNG_SKIP_CNT_count reason)
  let wr := s.get R.XNG_SKIP_PTR_wr
  if (wr + 1) % 256 = s.get R.XNG_SKIP_PTR_rd then (s.set R.XNG_SKIP_PTR_ovf 1).fire 67
  else
    let w0 := reason * 2 ^ 28 + d.window * 2 ^ 16 + d.slot * 2 ^ 12 + d.nbr * 2 ^ 6 + d.dir * 32 + pushed.toNat * 16
    let w1 := d.xid * 2 ^ 16 + winStart / cycleTicks % 65536
    (((s.setWords (0x02081000 + 8 * wr) [w0, w1]).set R.XNG_SKIP_PTR_wr ((wr + 1) % 256)).yarn 39).fire 66

/-- One skip record, with its counts (R161). -/
def State.skipRecord (s : State) (d : Desc) (winStart : Nat) (pushed : Bool) (reason : Nat) : State :=
  ((s.nbrStat d.nbr 13).pmc 0x041 d.slot).skipRing d winStart pushed reason

/-- What is known of the receive half of an exchange pair (R173). -/
def State.notePair (s : State) (p : XPair) : State :=
  let keep := s.xng.pairs.filter fun q => q.src != p.src && 16 * s.now ≤ q.expected + 16 * 64 * windowTicks
  { s with xng := { s.xng with pairs := keep ++ [p] } }

/-- Expected lead start of a receive crossing in 1/16 tick (R120). -/
def State.expectedLead (s : State) (d : Desc) (b0 : Nat) : Nat := 16 * b0 + s.prop d.nbr

/-- Swaps asked for on behalf of a crossing are withdrawn, an armed one too. -/
def State.dropSwaps (s : State) (slot id : Nat) : State :=
  let s := s.updSlot slot fun x => { x with swaps := x.swaps.filter fun (r : SwapReq) => r.crossing != some id }
  if (s.slot slot).swaps.any (·.armed) then s else s.set (R.BF_BANK_armed slot) 0

/-- CX_REQ is high while a covered crossing holds a request, or a bell under coexistence is on the air; CX_PRI follows the crossing
that asks, or the bell's priority (R318, R320). -/
def State.refreshCx (s : State) : State :=
  let asks := s.xng.fetched.filter (·.coexAsked)
  let bell := s.aon.bellTx == .onAir && s.on R.COEX_CFG_bell
  { s with pins := { s.pins with
    cxReq := !asks.isEmpty || bell,
    cxPri := asks.any (·.d.hipri) || (bell && s.on R.COEX_CFG_bell_pri) } }

/-- A crossing is skipped: nothing of it stays with the slot, its record is written, its votes and swaps go, its tiles take its return state
(R157, R161). A frame chosen for it stays queued (R173). -/
def State.skipCrossing (s : State) (c : Crossing) (reason : Nat) : State :=
  let s := { s with xng := { s.xng with fetched := s.xng.fetched.filter fun (y : Crossing) => y.id != c.id } }
  let s := ((s.skipRecord c.d c.winStart c.pushed reason).dropSwaps c.d.slot c.id).refreshCx
  let s := if c.d.dir = 1 && c.checked then
      let s := s.updSlot c.d.slot fun x => { x with tx := none }
      forAll 8 (fun p s => s.updPipe p fun (y : Pipe) =>
        { y with frames := y.frames.filter fun (f : PipeFrame) => f.rx || f.slot != c.d.slot }) s
    else s
  let s := if c.d.pair && c.d.dir = 0 then s.notePair ⟨c.src, c.d.nbr, s.expectedLead c.d c.b0, false, true⟩ else s
  ((s.unvoteFor c.src).returnTiles c.tiles c.d.ret).nbrPoke c.d.nbr

end Sys2Proof.Machine
end

