-- ==== Sys2Proof/Machine/Beam.lean ====
section
/-! DEFINITION. Machine/Beam.lean: the swatch library, preloads, swaps, sweeps, captures and tension cycles (chapter 3, R79 to R111). -/

namespace Sys2Proof.Machine

open Sys2Proof

/-! ### Fragments and directory entries (R79 to R84) -/

/-- First address of the fragment of swatch sw on tile t (R79). -/
def fragAddr (t sw : Nat) : Nat := tileBase t + 0x100000 + sw % 2048 * 0x100

/-- Word k of a fragment. -/
def State.fragWord (s : State) (t sw k : Nat) : Nat := s.word (fragAddr t sw + 4 * k)

/-- Metadata byte k of a fragment (R79). -/
def State.fragMeta (s : State) (t sw k : Nat) : Nat := s.fragWord t sw k / 2 ^ 24

/-- Seal bit of a fragment. -/
def State.fragSealed (s : State) (t sw : Nat) : Bool := s.bit (R.TILE_SEAL_MAP_sealed t (sw / 32)) (sw % 32)

/-- The fragment holds a poisoned word. -/
def State.fragPoisoned (s : State) (t sw : Nat) : Bool := s.poisonedIn (fragAddr t sw) 256

/-- The tile's open set has n members (TILE_OPEN). -/
def State.setOpened (s : State) (t : Nat) (l : List Nat) : State :=
  (s.updTile t fun x => { x with opened := l }).set (R.TILE_OPEN_count t) l.length

/-- Parts of a swatch on some tiles are written: a preload that still copies it there has met an open part (R88). -/
def State.copyOpened (s : State) (sw tiles : Nat) : State :=
  forAll 16 (fun n s =>
    if s.get (R.BF_BANK_state n) = 1 && s.get (R.BF_BANK_shadow_swatch n) = sw then
      s.updSlot n fun x => { x with opened := x.opened ||| (x.waiting &&& tiles) } else s) s

/-- A word of a fragment has been written: the seal goes, the fragment is open, and a fragment left without poison loses its mark (R82,
R83). -/
def State.fragTouched (s : State) (t sw : Nat) : State :=
  let s := s.clrBit (R.TILE_SEAL_MAP_sealed t (sw / 32)) (sw % 32)
  let s := if s.fragPoisoned t sw then s else s.clrBit (R.TILE_POISON_MAP_poisoned t (sw / 32)) (sw % 32)
  (s.setOpened t (insertRising sw (s.tile t).opened)).copyOpened sw (2 ^ (t % 8))

/-- First address of directory entry sw (R80). -/
def dirAddr (sw : Nat) : Nat := 0x020A8000 + 16 * sw

/-- A word of directory entry sw has been written (R82); the write has cleared that word's poison. -/
def State.dirTouched (s : State) (sw : Nat) : State :=
  let s := ((s.set (R.DIR0_sealed sw) 0).set (R.DIR0_open sw) 1).copyOpened sw 255
  if s.poisonedIn (dirAddr sw) 16 then s else s.set (R.DIR0_poisoned sw) 0

/-- TILE_COMMIT: every open fragment without poison is sealed, and the element shadows are armed (R83, R39). -/
def State.tileCommitNow (s : State) (t : Nat) : State :=
  let (stay, go) := (s.tile t).opened.partition fun sw => s.fragPoisoned t sw
  let s := go.foldl (fun s sw => s.setBit (R.TILE_SEAL_MAP_sealed t (sw / 32)) (sw % 32)) s
  (s.setOpened t stay).armTile t

/-- Directory entries that are open. -/
def State.openEntries (s : State) : List Nat :=
  s.regs.filterMap fun c => if c.1.row = (R.DIR0_open 0).row && c.2 = 1 then some c.1.idx else none

/-- BF_COMMIT: open entries without poison are sealed at once; the slot shadows wait to go live (R84). -/
def State.bfCommitNow (s : State) : State :=
  let s := s.openEntries.foldl (fun s sw =>
    if s.poisonedIn (dirAddr sw) 16 then s else (s.set (R.DIR0_sealed sw) 1).set (R.DIR0_open sw) 0) s
  let s := forAll 16 (fun n s => s.updSlot n fun x => { x with shadowWait := true }) s
  s.set R.BF_COMMIT_pending 1

/-- BF_SLOT shadows go live at a window boundary; a slot with a transmit crossing in progress waits (R84). -/
def State.slotsLive (s : State) : State :=
  if !s.on R.BF_COMMIT_pending then s
  else
    let s := forAll 16 (fun n s =>
      if !(s.slot n).shadowWait || s.txSlots.contains n then s
      else
        let s := (s.set (R.BF_SLOT_LIVE_tx_scale n) (s.get (R.BF_SLOT_tx_scale n))).set (R.BF_SLOT_LIVE_agc_fixed n) (s.get (R.BF_SLOT_agc_fixed n))
        let s := s.set (R.BF_SLOT_LIVE_agc_g n) (min (s.get (R.BF_SLOT_agc_g n)) 95)
        s.updSlot n fun x => { x with shadowWait := false }) s
    if (List.range 16).any fun n => (s.slot n).shadowWait then s else (s.set R.BF_COMMIT_pending 0).fire 70

/-! ### Loadable swatches (R81) -/

/-- Receive and transmit shift of tile t in an entry's words 2 and 3. -/
def State.dirRxShift (s : State) (sw t : Nat) : Nat := s.get (R.DIR2_rx_shifts sw) / 16 ^ t % 16
def State.dirTxShift (s : State) (sw t : Nat) : Nat := s.get (R.DIR3_tx_shifts sw) / 8 ^ t % 8

/-- The reason that the entry's own conditions give, in the order of R88: poisoned, unsealed, wrong use; 0 where they hold. -/
def State.dirReason (s : State) (sw dir : Nat) : Nat :=
  if 2048 ≤ sw then 1
  else if s.on (R.DIR0_poisoned sw) then 2
  else if !s.on (R.DIR0_sealed sw) then 1
  else if !(s.get (R.DIR0_use sw)).testBit dir then 4
  else 0

/-- The fragment's generation, use and shifts equal the entry's (R81). -/
def State.fragMatches (s : State) (t sw : Nat) : Bool :=
  s.fragMeta t sw 2 + 256 * s.fragMeta t sw 3 == s.get (R.DIR0_gen sw)
    && s.fragMeta t sw 4 % 4 == s.get (R.DIR0_use sw)
    && s.fragMeta t sw 0 % 16 == s.dirRxShift sw t
    && s.fragMeta t sw 1 % 8 == s.dirTxShift sw t

/-- The reason that tile t's own checks give, in the order of R88; opened: a part was written while it was copied, so that an open seal is no longer
the fragment's own fault. -/
def State.fragReason (s : State) (t sw : Nat) (opened : Bool) : Nat :=
  if !s.tileRuns t then 5
  else if s.fragPoisoned t sw then 2
  else if !s.fragSealed t sw && !opened then 1
  else if !s.fragMatches t sw then 3
  else if opened then 6
  else 0

/-- The swatch is loadable for a direction (R81). -/
def State.loadable (s : State) (sw dir : Nat) : Bool :=
  s.dirReason sw dir == 0 && (List.range 8).all fun t =>
    !(s.get (R.DIR0_tiles sw)).testBit t || s.fragReason t sw false == 0

/-! ### Banks (R87, R88, R93) -/

/-- The bank that a tile loads for a swatch: its fragment's weights where it is present, zero weights where it is not (R81, R88). -/
def State.loadedBank (s : State) (t sw dir : Nat) (present : Bool) : Bank :=
  if present then
    s.withSums t { valid := true, swatch := sw, dir := dir, words := (List.range 64).map fun k => s.fragWord t sw k % 2 ^ 24,
                   rxShift := min (s.fragMeta t sw 0 % 16) 14, txShift := s.fragMeta t sw 1 % 8, sAll := 0, sLive := 0 }
  else { valid := true, swatch := sw, dir := dir, words := List.replicate 64 0, rxShift := 0, txShift := 0, sAll := 0, sLive := 0 }

/-- The hub's copy of the directory entry (R87). -/
def State.hubCopy (s : State) (sw : Nat) : HubCopy :=
  { eSw := signed 16 (s.get (R.DIR1_e_sw sw)), tiles := s.get (R.DIR0_tiles sw), rxShifts := s.get (R.DIR2_rx_shifts sw),
    txShifts := s.get (R.DIR3_tx_shifts sw) }

/-- The preload of a slot fails on tile t: the reason of the lowest failing tile is reported (R88). -/
def State.preloadFail (s : State) (slot t reason : Nat) : State :=
  let x := s.slot slot
  let best := match x.failTile with | some f => if f.1 < t then f else (t, reason) | none => (t, reason)
  ((s.updSlot slot fun x => { x with failTile := some best }).set (R.BF_BANK_state slot) 3).set (R.BF_BANK_reason slot) best.2

/-- The hub accepts a preload of a swatch into a slot's shadow for a direction, or refuses it with BUSY while a swap is armed there (R88,
R89). The tiles overwrite their shadow banks. reason shows 7 while a preload that replaced another is in progress, and is cleared when it is ready
(log 142). -/
def State.preload (s : State) (slot sw dir : Nat) : State × Status :=
  if s.on (R.BF_BANK_armed slot) then (s, .busy)
  else
    let superseded := s.get (R.BF_BANK_state slot) == 1
    let s := s.updSlot slot fun x => { x with waiting := 0, failTile := none }
    let r := s.dirReason sw dir
    if r != 0 then ((s.set (R.BF_BANK_state slot) 3).set (R.BF_BANK_reason slot) r, .ok)
    else
      let c := s.hubCopy sw
      let wait := maskOf 8 fun t => s.tileRuns t
      let s := s.updSlot slot fun x => { x with shadow := some c, waiting := wait, opened := 0, shadowDir := dir }
      let s := forBits 8 wait (fun t s => s.updBank t slot fun p => { p with shadow := Bank.empty }) s
      let s := ((s.set (R.BF_BANK_state slot) 1).set (R.BF_BANK_reason slot) (if superseded then 7 else 0)).set (R.BF_BANK_shadow_swatch slot) sw
      let s := forBits 8 c.tiles (fun t s => if s.tileRuns t then s else s.preloadFail slot t 5) s
      if wait = 0 && c.tiles = 0 then (s.set (R.BF_BANK_state slot) 2, .ok) else (s, .ok)

/-- Tile t reports on the preload of a slot: it loads its fragment, or zero weights, or fails (R88). The copy is a read of the fragment, by the hardware,
and finds what its words' decoders show (R97, R421). -/
def State.preloadReport (s : State) (t slot : Nat) (ecc : List (Nat × EccSeen)) : State :=
  let x := s.slot slot
  if !x.waiting.testBit t then s
  else
    let sw := s.get (R.BF_BANK_shadow_swatch slot)
    let present := match x.shadow with | some c => c.tiles.testBit t | none => false
    let s := s.updSlot slot fun x => { x with waiting := x.waiting - 2 ^ t }
    let s := if present then
        let s := if s.fragPoisoned t sw then s.hitPoison (fragAddr t sw) 256 else s
        s.wordsSeen (ecc.filter fun (y : Nat × EccSeen) => fragAddr t sw ≤ y.1 && y.1 < fragAddr t sw + 256 && y.1 % 4 == 0) 7 0
      else s
    let reason := if present then s.fragReason t sw (x.opened.testBit t) else 0
    if reason != 0 then s.preloadFail slot t reason
    else
      let b := s.loadedBank t sw x.shadowDir present
      let s := s.updBank t slot fun p => { p with shadow := b }
      if (s.slot slot).waiting = 0 && (s.slot slot).failTile.isNone then
        (s.set (R.BF_BANK_state slot) 2).set (R.BF_BANK_reason slot) 0
      else s

/-! ### Swaps (R89 to R95, R100, R101) -/

/-- The arm cut-off lies 320 ns, 400 ticks, before the swap instant (R91). -/
def armLead : Nat := 400

/-- A swap is refused or late: the event is counted, reported on yarn 37 and as source 49 (R91). -/
def State.swapEvent (s : State) (slot : Nat) : State := ((s.yarn 37).fire 49).pmc 0x043 slot

/-- The swap instant of a request: transmit swaps of BF_SWAP use d = 0 (R90). -/
def State.swapTick (s : State) (slot : Nat) (r : SwapReq) : Nat :=
  if r.crossing.isNone && !r.armed && (s.slot slot).shadowDir = 1 then r.tick else r.tick + r.delay

/-- Ask for a swap, or drop a request whose cut-off has passed as late (R90, R91). -/
def State.askSwap (s : State) (slot : Nat) (r : SwapReq) : State :=
  if s.swapTick slot r < s.now + armLead then (s.setBit R.BF_SWAP_UNREADY_late slot).swapEvent slot
  else s.updSlot slot fun x => { x with swaps := x.swaps ++ [r] }

/-- The boundary and the delay that BF_SWAP_AT names for a write accepted now (R90). -/
def State.swapAt (s : State) : Nat × Nat :=
  let cur := s.now / windowTicks
  let w := s.get R.BF_SWAP_AT_window
  let ahead := (w + 4096 - cur % 4096) % 4096
  let block := min (s.get R.BF_SWAP_AT_block) (s.blocksPerWindow - 1)
  let d := min (s.get R.BF_SWAP_AT_delay) (s.blockTicks - 1)
  ((cur + ahead) * windowTicks + block * s.blockTicks, d)

/-- A write to BF_SWAP (R90). -/
def State.swapRequest (s : State) (slots : Nat) : State :=
  let b := s.swapAt
  forBits 16 slots (fun n s => s.askSwap n ⟨b.1, b.2, none, false, false⟩) s

/-- The earliest swap of a slot among those p keeps. -/
def State.firstSwap (s : State) (slot : Nat) (p : SwapReq → Bool) : Option SwapReq :=
  ((s.slot slot).swaps.filter p).foldl
    (fun best r => match best with | none => some r | some b => if s.swapTick slot r < s.swapTick slot b then some r else some b) none

/-- The crossing a swap belongs to. -/
def State.swapCrossing (s : State) (r : SwapReq) : Option Crossing := s.xng.fetched.find? fun c => r.crossing == some c.id

/-- Every swatch of the crossing's run exists and is loadable (R101). -/
def State.runLoadable (s : State) (c : Crossing) : Bool :=
  c.swatch + c.d.len ≤ 2048 && (List.range c.d.len).all fun i => s.loadable (c.swatch + i) c.d.dir

/-- Tile t's own shadow of a slot is ready: it holds the slot's swatch, and its fragment is still loadable where it is present (R91; log 143). -/
def State.tileReady (s : State) (t slot : Nat) : Bool :=
  let b := (s.bank t slot).shadow
  let sw := s.get (R.BF_BANK_shadow_swatch slot)
  let present := match (s.slot slot).shadow with | some c => c.tiles.testBit (t % 8) | none => false
  b.valid && b.swatch == sw && (!present || s.fragReason t sw false == 0)

/-- A swap is refused at its cut-off: marked on every tile whose shadow is not ready and on the hub, and its crossing is skipped as
SWAP_UNREADY (R91, R101, R151). -/
def State.refuseSwap (s : State) (slot : Nat) (r : SwapReq) : State :=
  let s := s.updSlot slot fun x => { x with swaps := x.swaps.filter fun (y : SwapReq) => y != r }
  let s := forAll 8 (fun t s =>
    if s.tileRuns t && !s.tileReady t slot then (s.setBit (R.TILE_STATUS_swap_unready t) slot).fireTile t 6 else s) s
  let s := (s.setBit R.BF_SWAP_UNREADY_unready slot).swapEvent slot
  match s.swapCrossing r with
  | some c => s.skipCrossing c 6
  | none => s

/-- The slot's active bank already holds the crossing's swatch in its direction, and no preload is in progress (R154). -/
def State.holdsSwatch (s : State) (c : Crossing) : Bool :=
  s.on (R.BF_BANK_active_valid c.d.slot) && s.get (R.BF_BANK_active_swatch c.d.slot) == c.swatch && s.get (R.BF_BANK_dir c.d.slot) == c.d.dir
    && s.get (R.BF_BANK_state c.d.slot) != 1

/-- The later swaps of a sweep, one at each block boundary after the first sweep block (R100). -/
def State.sweepSwaps (s : State) (r : SwapReq) (c : Crossing) : List SwapReq :=
  if c.d.sweep then (List.range (c.d.len - 1)).map fun i => ⟨r.tick + (i + 5) * s.blockTicks, r.delay, r.crossing, true, true⟩ else []

/-- The arm cut-off of a slot's next swap (R91); for the first swap of a sweep the whole run is checked, and its later swaps are planned,
one for each following block (R100, R101). No swap is armed for a crossing whose swatch the active bank holds by then; a sweep still steps its run
(R154). -/
def State.armCutoff (s : State) (slot : Nat) : State :=
  match s.firstSwap slot (fun r => !r.armed && !r.sweepStep) with
  | none => s
  | some r =>
    let s := s.reach (s.swapTick slot r - armLead)
    let c := s.swapCrossing r
    let ready := s.get (R.BF_BANK_state slot) == 2 && s.loadable (s.get (R.BF_BANK_shadow_swatch slot)) (s.slot slot).shadowDir
    let runOk := match c with | some c => !c.d.sweep || s.runLoadable c | none => true
    let held := match c with | some c => s.holdsSwatch c | none => false
    let rest := (s.slot slot).swaps.filter fun (y : SwapReq) => y != r
    let steps := match c with | some c => s.sweepSwaps r c | none => []
    if held && runOk then
      let s := s.updSlot slot fun x => { x with swaps := rest ++ steps, sweepIdx := 0 }
      if steps.isEmpty then s else s.set (R.BF_BANK_armed slot) 1
    else if !(ready && runOk) then s.refuseSwap slot r
    else
      let armed : SwapReq := ⟨s.swapTick slot r, 0, r.crossing, true, false⟩
      (s.updSlot slot fun x => { x with swaps := rest ++ [armed] ++ steps }).set (R.BF_BANK_armed slot) 1

/-- The next fragment of a sweep goes into the shadow banks of the slot, unchecked (R100). -/
def State.loadSweep (s : State) (slot sw dir : Nat) : State :=
  let tiles := s.swatchTiles sw
  let s := forAll 8 (fun t s =>
    if s.tileRuns t then
      let b := s.loadedBank t sw dir (tiles.testBit t)
      s.updBank t slot fun p => { p with shadow := b }
    else s) s
  let c := s.hubCopy sw
  (s.updSlot slot fun x => { x with shadow := some c, shadowDir := dir }).set (R.BF_BANK_shadow_swatch slot) sw

/-- The swatch is poisoned: its entry, or a fragment of a tile present in it (R97). -/
def State.swatchPoisoned (s : State) (sw : Nat) : Bool :=
  s.on (R.DIR0_poisoned sw) || (List.range 8).any fun t => (s.get (R.DIR0_tiles sw)).testBit t && s.fragPoisoned t sw

/-- The slot's poison mute after a swap: lifted where the new swatch is loadable, and applied where the new swatch was poisoned after the cut-off
(R95, R97, R98). -/
def State.settleMute (s : State) (slot : Nat) : State :=
  let sw := s.get (R.BF_BANK_active_swatch slot)
  let dir := s.get (R.BF_BANK_dir slot)
  if s.loadable sw dir then
    (s.clrBit R.BF_MUTE_poison slot).updSlot slot fun x => { x with muteWait := false }
  else if s.swatchPoisoned sw && !s.bit R.BF_MUTE_poison slot then s.poisonMute slot
  else s

/-- The bank roles of a slot exchange on every powered tile; the old active contents become the shadow (R92, R93). -/
def State.exchange (s : State) (slot : Nat) : State :=
  let x := s.slot slot
  let oldValid := s.get (R.BF_BANK_active_valid slot)
  let oldSw := s.get (R.BF_BANK_active_swatch slot)
  let oldDir := s.get (R.BF_BANK_dir slot)
  let s := forAll 8 (fun t s => if s.tileRuns t then s.updBank t slot fun p => ⟨p.shadow, p.active⟩ else s) s
  let s := (s.set (R.BF_BANK_active_valid slot) 1).set (R.BF_BANK_active_swatch slot) (s.get (R.BF_BANK_shadow_swatch slot))
  let s := (s.set (R.BF_BANK_dir slot) x.shadowDir).set (R.BF_BANK_shadow_swatch slot) oldSw
  let s := (s.set (R.BF_BANK_state slot) (if oldValid = 1 then 2 else 0)).set (R.BF_BANK_reason slot) 0
  s.updSlot slot fun y => { y with active := x.shadow, shadow := x.active, shadowDir := oldDir }

/-- An armed swap takes place on a slot: banks, element update points and the restore of element state on every tile, the governor for a transmitting
slot, the yarn of each tile, and the weights mode sampled at the swap (R28, R38, R47, R65, R86, R92). -/
def State.bankSwap (s : State) (slot : Nat) : State :=
  match s.firstSwap slot (·.armed) with
  | none => s
  | some r =>
    let s := s.reach (s.swapTick slot r)
    let s := s.updSlot slot fun x => { x with swaps := x.swaps.filter fun (y : SwapReq) => y != r }
    let s := match s.swapCrossing r with
      | some c => if r.sweepStep then
          let i := (s.slot slot).sweepIdx + 1
          (s.loadSweep slot (c.swatch + i) c.d.dir).updSlot slot fun x => { x with sweepIdx := i }
        else s.updSlot slot fun x => { x with sweepIdx := 0 }
      | none => s
    let s := (s.exchange slot).settleMute slot
    let s := if (s.slot slot).swaps.any (·.armed) then s else s.set (R.BF_BANK_armed slot) 0
    let host := s.bit R.HUB_FUNC_MODE_bits 0
    let s := (s.updSlot slot fun x => { x with weightsHost := host }).refreshFunc
    let s := forAll 8 (fun t s => if s.tileRuns t then ((s.updatePoint t).restoreTile t).tileYarn t 4 else s) s
    let s := s.pmc 0x042 slot
    if s.txSlots.contains slot then s.govern else s

/-! ### Sweep records (R102, R103) -/

/-- A receive sweep ends, with the outcome for its lead's report: 0 OK where every block was recorded, 7 CUT where the extent ended first (R102,
R138, R263; log 144). -/
def State.sweepOver (s : State) (slot outcome : Nat) : State :=
  let s := match (s.slot slot).sweepLead with
    | some f => s.report slot (f.report outcome)
    | none => s
  let s := s.updSlot slot fun x => { x with sweepLeft := 0, sweepLead := none }
  ({ s with xng := { s.xng with sweepSeq := (s.xng.sweepSeq + 1) % 1024 } }.yarn 35).fire 51

/-- The receive sweep of a slot records a block; the ring drops a record that would meet rd (R102, R103). -/
def State.sweepRecord (s : State) (c : Crossing) (snr power : Nat) (saturated : Bool) : State :=
  let slot := c.d.slot
  let i := c.d.len - (s.slot slot).sweepLeft
  let w0 := s.xng.sweepSeq % 1024 * 2 ^ 22 + c.d.nbr * 2 ^ 15 + slot * 2 ^ 11 + (c.swatch + i) % 2048
  let w1 := 2 ^ 31 + saturated.toNat * 2 ^ 30 + snr % 256 * 2 ^ 18 + power % 1024 * 2 ^ 8 + i % 256
  let wr := s.get R.BF_SWEEP_PTR_wr
  let s := if (wr + 1) % 256 = s.get R.BF_SWEEP_PTR_rd then (s.set R.BF_SWEEP_PTR_ovf 1).fire 52
    else (s.setWords (0x020A1000 + 8 * wr) [w0, w1]).set R.BF_SWEEP_PTR_wr ((wr + 1) % 256)
  let left := (s.slot slot).sweepLeft - 1
  let s := s.updSlot slot fun x => { x with sweepLeft := left }
  if left = 0 then s.sweepOver slot 0 else s

/-! ### Element captures (R104 to R106) -/

/-- The capture tick that BF_CAP_TIME holds. -/
def State.captureTime (s : State) : Nat := s.get2 R.BF_CAP_TIME_tick

/-- A tile's capture fails with a reason (R106). -/
def State.captureFail (s : State) (t reason : Nat) : State :=
  (((s.set (R.TILE_CAP_STATUS_fail t) 1).set (R.TILE_CAP_STATUS_reason t) reason).tileYarn t 5).fireTile t 7

/-- BF_CAP_CTRL.arm: a tick less than 2 µs ahead ends the capture of every selected tile at once (R104, R106). -/
def State.captureArm (s : State) : State :=
  let tiles := s.get R.BF_CAP_CTRL_tiles
  let s := s.set R.BF_CAP_CTRL_arm 1
  if s.captureTime < s.now + 2500 then
    let s := { s with front := { s.front with capTiles := 0 } }
    forBits 8 tiles (fun t s => if s.tileRuns t then s.captureFail t 2 else s) s
  else { s with front := { s.front with capTiles := tiles } }

/-- The 640 bytes of one element's 256 samples, 20 bits each, as a little-endian bit stream (R105). -/
def packSamples (l : List Nat) : List Byte :=
  toBytes 640 ((List.range 256).foldl (fun a k => a + (l.getD k 0) % 2 ^ 20 * 2 ^ (20 * k)) 0)

/-- First byte of a tile's capture in its shared memory (R105). -/
def State.captureBase (s : State) (t : Nat) : Nat := tileBase t + 0x300000 + min (s.get (R.TILE_CAP_BASE_base t)) 3456 * 64

/-- A captured sample, ten bits of I below ten of Q: as the ADC gave it, or F rounded to ADC LSB (R69, R104, R105). -/
def State.captured (s : State) (e v : Nat) : Nat :=
  if !s.on R.BF_CAP_CTRL_point then v % 2 ^ 20
  else
    let f := s.frontEnd e (signed 10 v) (signed 10 (v / 1024))
    unsigned 10 (satI 10 (rne f.1 2)) + 1024 * unsigned 10 (satI 10 (rne f.2 2))

/-- The capture tick: each tile that still has to capture stores its elements' samples, masked ones as zeros, or fails where its radio is
not in RX (R104 to R106). A tile that is down stores and reports nothing. The tick is what BF_CAP_TIME holds at the capture (log 145). -/
def State.captureTick (s : State) (samples : List (Nat × List Nat)) : State :=
  if s.front.capTiles = 0 then s
  else
    let s := s.reach s.captureTime
    let tiles := s.front.capTiles
    let s := forBits 8 tiles (fun t s =>
      if !s.tileRuns t then s
      else if (s.tile t).radio != .rx then s.captureFail t 1
      else
        let base := s.captureBase t
        let s := forAll 64 (fun j s =>
          let e := 64 * t + j
          let l := if s.masked e then [] else ((samples.find? fun p => p.1 == e).map (·.2)).getD []
          s.store (base + 640 * j) (packSamples (l.map (s.captured e)))) s
        ((s.set (R.TILE_CAP_STATUS_done t) 1).tileYarn t 5).fireTile t 7) s
    { s with front := { s.front with capTiles := 0 } }

/-- The capture is complete on the hub (R106). -/
def State.captureDone (s : State) : State :=
  if !s.on R.BF_CAP_CTRL_arm || s.front.capTiles != 0 then s
  else (((s.set R.BF_CAP_CTRL_arm 0).set R.BF_CAP_CTRL_done 1).yarn 36).fire 53

/-! ### Tension cycles (R107 to R111) -/

/-- The tile is in WARM or IDLE and has no crossing (R107). -/
def State.tensionFree (s : State) (t : Nat) : Bool :=
  s.tileRuns t && ((s.tile t).radio == .warm || (s.tile t).radio == .idle) && !s.tileBusy t

/-- The tile is asked for a tension cycle; it starts in the next window that is free, after the one in progress if any (R107). -/
def State.tensionAsk (s : State) (t : Nat) : State := s.updTile t fun x => { x with tensionWait := true }

/-- The tiles across the seams that a tile's cycle measures: the one to its right and the one below it, which makes ten seams in all (R107; log
138). -/
def seamsOf (t : Nat) : List Nat := (if t % 4 < 3 then [t + 1] else []) ++ (if t < 4 then [t + 4] else [])

/-- Windows of pass k of tile t's cycle in the order of Table 3.8, its quiet window included: P0 to P3, DC, then the seams (log 138). -/
def passWindows (t k : Nat) : Option Nat := if k < 4 then some 2 else if k < 5 + (seamsOf t).length then some 3 else none

/-- Pass k of tile t's cycle may run: the tile is free, and for a seam the other tile too (R107). -/
def State.passFree (s : State) (t k : Nat) : Bool :=
  s.tensionFree t && (k < 5 || match (seamsOf t)[k - 5]? with | some u => s.tensionFree u | none => true)

/-- The pass that comes at or after k: a seam to a tile that is not powered is passed over (log 138). -/
def State.nextPass (s : State) (t k : Nat) : Nat :=
  (seamsOf t).zipIdx.foldl (fun k (x : Nat × Nat) => if k = 5 + x.2 && !s.tileRuns x.1 then k + 1 else k) k

/-- The tile's temperature as its sensor reads, 0.1 degree. -/
def State.tileTemp (s : State) (t : Nat) : Int := s.getS (R.TEMP_temp t)

/-- Coarse DC codes that a completed DC pass has found are written at once: element, LNA step, I and Q (R111). -/
def State.writeCoarse (s : State) (t : Nat) (codes : List (Nat × Nat × Int × Int)) : State :=
  (codes.filter fun (c : Nat × Nat × Int × Int) => c.1 / 64 == t % 8).foldl (fun s (c : Nat × Nat × Int × Int) =>
    (s.setS (R.ELEM_DC_COARSE_i c.1 (c.2.1 % 4)) c.2.2.1).setS (R.ELEM_DC_COARSE_q c.1 (c.2.1 % 4)) c.2.2.2) s

/-- A window boundary for a tile's tension cycle: a waiting cycle starts; a pass that ran through the last window goes on or is done, a pass
that a crossing took is abandoned, and the next pass starts in a free window (R107, R111). -/
def State.tensionWindow (s : State) (t : Nat) (codes : List (Nat × Nat × Int × Int)) : State :=
  match (s.tile t).tension with
  | none =>
    if (s.tile t).tensionWait && s.tensionFree t then
      let now := s.now
      let s := s.updTile t fun x => { x with tension := some ⟨now, 0, passWindows t 0, false⟩, tensionWait := false }
      ((s.clrBit R.BF_TENSION_CTRL_go t).set (R.TILE_TENSION_STATUS_busy t) 1).vote (t % 8 + 1) 28
    else s
  | some c =>
    let ran := s.passFree t c.passes && !c.taken
    let finished := ran && c.left == some 1
    let k := s.nextPass t (if finished then c.passes + 1 else c.passes)
    let left := match ran, c.left with
      | true, some (n + 2) => some (n + 1)
      | _, _ => if s.passFree t k then passWindows t k else none
    let s := s.updTile t fun x => { x with tension := some { c with passes := k, left := left, taken := false } }
    if finished && c.passes = 4 then s.writeCoarse t codes else s

/-- A crossing takes its tiles: a tension pass that runs there will be abandoned (R111). -/
def State.tensionTaken (s : State) (tiles : Nat) : State :=
  forBits 8 tiles (fun t s => s.updTile t fun x => { x with tension := x.tension.map fun (c : Tension) => { c with taken := true } }) s

/-- A cycle leaves its tile. -/
def State.tensionEnd (s : State) (t : Nat) : State :=
  ((s.updTile t fun x => { x with tension := none }).set (R.TILE_TENSION_STATUS_busy t) 0).unvote (t % 8 + 1) 28

/-- A cycle not completed within 100 ms of its start is discarded and starts again (R111). -/
def State.tensionTimeout (s : State) (t : Nat) : State :=
  match (s.tile t).tension with
  | none => s
  | some c =>
    let s := s.reach (c.start + 125000000)
    (s.tensionEnd t).tensionAsk t

/-- The period or temperature trigger of a tile, in hardware calibration mode (R107). -/
def State.tensionTrigger (s : State) (t : Nat) (byTemp : Bool) : State :=
  if s.bit R.HUB_FUNC_MODE_bits 6 || (s.tile t).tension.isSome then s
  else
    let period := s.get R.BF_TENSION_CTRL_period
    let dtemp := s.get R.BF_TENSION_CTRL_dtemp
    let moved := (s.tileTemp t - (s.tile t).tensionTemp).natAbs
    if byTemp then (if dtemp != 0 && 5 * dtemp < moved then s.tensionAsk t else s)
    else if period = 0 then s
    else (s.reach ((s.tile t).tensionLast + period * 1250000000)).tensionAsk t

end Sys2Proof.Machine
end

