-- ==== Sys2Proof/Machine/Landing.lean ====
section
/-! DEFINITION. Machine/Landing.lean: the landings in host memory as the module sees them: descriptors still posted, receive data,
write-backs, the receive pool and the completion ring (R16, R141, R142, R362, R363, Tables 12.8, 14.6). -/

namespace Sys2Proof.Machine

open Sys2Proof

/-- Entries of a ring (R362). -/
def State.ringSize (s : State) (n : Nat) : Nat := 2 ^ min (max (s.get (R.LNK_LND_CFG_size n)) 6) 12

/-- Host address of entry i of a ring, entries of the given size. -/
def State.ringAddr (s : State) (n i size : Nat) : Nat :=
  s.get (R.LNK_LND_BASE_LO_base n) * 64 + s.get (R.LNK_LND_BASE_HI_base n) * 2 ^ 32 + size * i

def State.ringHead (s : State) (n : Nat) : Nat := s.get (R.LNK_LND_HEAD_head n) % s.ringSize n
def State.ringTail (s : State) (n : Nat) : Nat := s.get (R.LNK_LND_TAIL_tail n) % s.ringSize n

/-- Descriptors of a ring that the host has posted and the module has not read; none while the ring is not enabled. -/
def State.ringPosted (s : State) (n : Nat) : Nat :=
  if s.on (R.LNK_LND_CFG_en n) then (s.ringTail n + s.ringSize n - s.ringHead n) % s.ringSize n else 0

/-- The module has read k descriptors: HEAD advances. -/
def State.ringTake (s : State) (n k : Nat) : State := s.set (R.LNK_LND_HEAD_head n) ((s.ringHead n + k) % s.ringSize n)

/-- What the module writes back to a receive descriptor, bytes 10 to 27 of Table 12.8, the host's tag kept. flags is byte 13. -/
def writeBack (len nbr flags tag seq lead snr : Nat) : List Byte :=
  toBytes 2 len ++ toBytes 1 (nbr % 64) ++ toBytes 1 flags ++ toBytes 2 tag ++ toBytes 4 seq ++ toBytes 6 lead ++ toBytes 2 (snr % 256)

/-! ### Landing a received frame (R16, R18, R362, R363) -/

/-- Descriptors that a frame of len bytes fills, of those offered in ring order: at least one; none where they hold too little. -/
def descsFor (len : Nat) : List LandDesc → Option (List LandDesc)
  | [] => none
  | d :: rest => if len ≤ d.cap then some [d] else (descsFor (len - d.cap) rest).map (d :: ·)

/-- The receive data goes to the descriptors' buffers. -/
def State.fillDescs (s : State) (data : List Byte) : List LandDesc → State
  | [] => s
  | d :: rest =>
    let s := if (data.take d.cap).isEmpty then s else s.hostWrite d.addr (data.take d.cap)
    s.fillDescs (data.drop d.cap) rest

/-- The write-backs of a frame's descriptors: i counts them from the ring's head, first is the head. -/
def State.backDescs (s : State) (n : Nat) (f : RxFrame) (head : Nat) : Nat → Nat → List LandDesc → State
  | _, _, [] => s
  | i, left, d :: rest =>
    let ring := 64 + f.cls
    let flags := f.cls + (if i = 0 then 16 else 0) + (if rest.isEmpty then 32 else 0) + f.synced.toNat * 64 + f.broadcast.toNat * 128
    let s := s.hostWrite (s.ringAddr ring ((head + i) % s.ringSize ring) 32 + 10)
      (writeBack (min left d.cap) n flags d.tag f.seq (f.lead / 16) f.snr)
    s.backDescs n f head (i + 1) (left - d.cap) rest

/-- First byte of the receive pool, and its size (R16). -/
def poolBase : Nat := 0x1100000
def poolSize : Nat := 0x100000

/-- The frame's bytes as the pool gives them back: undefined from the first poisoned word on (Table 14.6). -/
def State.poolBytes (s : State) (off len : Nat) : List Byte :=
  (List.range len).map fun i =>
    if (List.range (i + 1)).any fun j => s.poisoned (poolBase + off + j) then Config.poisonedByte (s.freeCtr + i) else s.byte (poolBase + off + i)

/-- Every frame in the pool: offset and bytes, rounded up to whole words. -/
def State.poolFrames (s : State) : List (Nat × Nat) :=
  (List.range 64).foldl (fun l n => l ++ (s.nbr n).rxQueue.filterMap fun f => f.pool.map fun o => (o, (f.data.length + 7) / 8 * 8)) []

/-- The lowest offset of the pool at which need bytes are free (log 17). -/
def State.poolPlace (s : State) (need : Nat) : Option Nat :=
  let fr := s.poolFrames
  let starts := 0 :: fr.map fun p => p.1 + p.2
  (starts.filter fun a => a + need ≤ poolSize && fr.all fun p => a + need ≤ p.1 || p.1 + p.2 ≤ a).foldl
    (fun best a => match best with | none => some a | some b => some (min a b)) none

/-- A frame in the pool at an offset. -/
def State.toPool (s : State) (off : Nat) (f : RxFrame) : State × RxFrame :=
  let s := s.setBytes (poolBase + off) f.data
  ({ s with poison := s.poison.filter fun a => !(poolBase + off ≤ a && a < poolBase + off + f.data.length) }, { f with pool := some off, segs := 0 })

/-- A frame counted as accepted is dropped for want of pool room: it is rx_no_berth, and its sequence leaves the replay map (R16, Table 5.10). -/
def State.dropAccepted (s : State) (n : Nat) (f : RxFrame) : State :=
  let h := s.get (if f.broadcast then R.NBR_BC_HIGH_h n else R.NBR_RX_HIGH_h n)
  let d := (h + 2 ^ 32 - f.seq) % 2 ^ 32
  let cut (m : Nat) : Nat := if m.testBit d then m - 2 ^ d else m
  let s := if f.broadcast then s.set2 (R.NBR_BC_MAP_map n) (cut (s.get2 (R.NBR_BC_MAP_map n)))
    else s.set2 (R.NBR_RX_MAP_map n) (cut (s.get2 (R.NBR_RX_MAP_map n)))
  (s.set (R.NBR_STAT_count n 0) ((s.get (R.NBR_STAT_count n 0) + 2 ^ 32 - 1) % 2 ^ 32)).nbrStat n 5

/-- The oldest accepted frame of a neighbour, which its ring's descriptors cannot take, leaves its verify buffer: for the pool, or dropped whole where
the pool cannot take it (R16). -/
def State.leaveBuffer (s : State) (n : Nat) (f : RxFrame) (rest : List RxFrame) : State :=
  let s := match s.poolPlace ((f.data.length + 7) / 8 * 8) with
    | some off =>
      let r := s.toPool off f
      r.1.updNbr n fun x => { x with rxQueue := r.2 :: rest }
    | none => (s.updNbr n fun x => { x with rxQueue := rest }).dropAccepted n f
  (s.refreshVotes).nbrPoke n

/-- The oldest accepted frame of a neighbour lands in descriptors of its class ring, of which descs are the next ones in ring order, with the
data, the write-backs and one completion entry (R362, R363). It waits behind an earlier frame still in a pipe (R18, R232). Where all
the free descriptors hold too little it leaves the verify buffer (R16). -/
def State.landFrame (s : State) (n : Nat) (descs : List LandDesc) : State :=
  match (s.nbr n).rxQueue with
  | [] => s
  | f :: rest =>
    let ring := 64 + f.cls
    let earlier := (List.range 8).any fun p => (s.pipe p).frames.any fun g => g.rx && g.nbr == n && g.lead < f.lead
    match descsFor f.data.length (descs.take (s.ringPosted ring)) with
    | none => if f.pool.isSome || descs.length < s.ringPosted ring then s else s.leaveBuffer n f rest
    | some used =>
      if earlier then s
      else
        let bad := match f.pool with | some off => s.poisonedIn (poolBase + off) f.data.length | none => false
        let data := match f.pool with | some off => s.poolBytes off f.data.length | none => f.data
        let s := match f.pool with
          | some off => if bad then { s.hitPoison (poolBase + off) f.data.length with freeCtr := s.freeCtr + f.data.length } else s
          | none => s
        let head := s.ringHead ring
        let s := (s.fillDescs data used).backDescs n f head 0 f.data.length used
        let s := (s.ringTake ring used.length).updNbr n fun x => { x with rxQueue := rest }
        let s := s.postEntry { kind := 2, status := (if bad then Status.poisoned else .ok).code,
                               tag := match used with | d :: _ => d.tag | [] => 0, ring := ring, reason := 0, index := head,
                               count := used.length, result := [] }
        (s.refreshVotes).nbrPoke n

/-- An accepted frame that finds no berth goes into the receive pool, or is refused where the pool cannot take it whole (R16). The answer
tells whether it was kept. -/
def State.holdFrame (s : State) (n : Nat) (f : RxFrame) : State × Bool :=
  let ring := 64 + f.cls
  if (s.nbr n).rxQueue.isEmpty && s.ringPosted ring != 0 then (s.updNbr n fun x => { x with rxQueue := x.rxQueue ++ [f] }, true)
  else match s.poolPlace ((f.data.length + 7) / 8 * 8) with
    | none => (s, false)
    | some off =>
      let r := s.toPool off f
      (r.1.updNbr n fun x => { x with rxQueue := x.rxQueue ++ [r.2] }, true)

/-! ### Soft-symbol records (R141, R142, Table 4.8) -/

/-- Records that a descriptor takes (R363). -/
def softRoom (d : LandDesc) : Nat := min 4 (d.cap / 1024)

/-- One block record. header and last mark a header block and the frame's last block; hdr is the 28 bytes of a header block. -/
def softRecord (k slot : Nat) (header last : Bool) (f : PhyFrame) (time : Nat) (b : SoftBlock) : List Byte :=
  toBytes 2 k ++ toBytes 1 (slot % 16 + header.toNat * 16 + last.toNat * 32) ++ toBytes 1 (f.nbr % 64) ++ toBytes 1 (f.mcs % 16)
    ++ toBytes 1 (f.agc % 128) ++ toBytes 1 (snrOf ga64 b.guard) ++ toBytes 1 0 ++ toBytes 8 time ++ toBytes 2 b.noise ++ toBytes 2 0
    ++ (if header then (f.hdr ++ List.replicate 28 0).take 28 else List.replicate 28 0) ++ List.replicate 16 0
    ++ (b.taps ++ List.replicate 64 0).take 64 ++ (b.symbols ++ List.replicate 896 0).take 896

/-- The soft landing's ring. PHY_SOFT_CFG.class is read as it stands at each record and each write-back: the spec names no sampling instant (log
126). -/
def State.softRing (s : State) : Nat := 64 + s.get R.PHY_SOFT_CFG_class

/-- The descriptor a soft frame fills is finished: its write-back and its completion entry (R363). -/
def State.softClose (s : State) (f : PhyFrame) (first last : Bool) (tm seq : Nat) (synced bc : Bool) : State :=
  match f.softDesc with
  | none => s
  | some (d, index, count) =>
    let ring := s.softRing
    let flags := s.get R.PHY_SOFT_CFG_class + 8 + first.toNat * 16 + last.toNat * 32 + synced.toNat * 64 + bc.toNat * 128
    (s.hostWrite (s.ringAddr ring index 32 + 10) (writeBack (1024 * count) f.nbr flags d.tag seq tm f.snr)).postEntry
      { kind := 2, status := 0, tag := d.tag, ring := ring, reason := 0, index := index, count := 1, result := [] }

/-- Fields of the received header (Table 5.7), after the 4-byte PHY field. -/
def hdrSeq (hdr : List Byte) : Nat := ofBytes ((hdr.drop 10).take 4)
def hdrDst (hdr : List Byte) : Nat := ofBytes ((hdr.drop 6).take 2)
def hdrSrc (hdr : List Byte) : Nat := ofBytes ((hdr.drop 8).take 2)
def hdrTime (hdr : List Byte) : Nat := ofBytes ((hdr.drop 14).take 8)
def hdrLen (hdr : List Byte) : Nat := ofBytes ((hdr.drop 22).take 2)
def hdrKey (hdr : List Byte) : Nat := ofBytes ((hdr.drop 24).take 1)
def hdrFlags (hdr : List Byte) : Nat := ofBytes ((hdr.drop 25).take 1)
def hdrCtl (hdr : List Byte) : Nat := ofBytes ((hdr.drop 4).take 2)

/-- Close the descriptor in use of a frame, as its records stand: k records written before this one. -/
def State.softEnd (s : State) (f : PhyFrame) (written : Nat) (last : Bool) : State :=
  let first := match f.softDesc with | some (_, _, c) => written == c | none => false
  s.softClose f first last (f.lead / 16) (hdrSeq f.hdr) ((hdrFlags f.hdr).testBit 6) (hdrDst f.hdr == 0xFFFF)

/-- Write record k of a frame of total blocks, of which heads are header blocks; the answer is the frame as it then stands. A record without a
descriptor truncates the frame (R142). -/
def State.softWrite (s : State) (slot : Nat) (f : PhyFrame) (k heads total : Nat) (b : SoftBlock) : State × PhyFrame :=
  if f.softTrunc then (s, f)
  else
    let ring := s.softRing
    let opened : Option (LandDesc × Nat × Nat × Bool) := match f.softDesc, b.desc with
      | some (d, i, c), _ => some (d, i, c, false)
      | none, some d => if s.ringPosted ring = 0 || softRoom d = 0 then none else some (d, s.ringHead ring, 0, true)
      | none, none => none
    match opened with
    | none => ((s.bump R.PHY_SOFT_STATUS_drop).fire 68, { f with softTrunc := true })
    | some (d, i, c, new) =>
      let s := if new then s.ringTake ring 1 else s
      let last := k + 1 == total
      let time := f.lead / 16 + (4 + k) * s.blockTicks
      let s := s.hostWrite (d.addr + 1024 * c) (softRecord k slot (k < heads) last f time b)
      let f := { f with softDesc := some (d, i, c + 1) }
      if last || softRoom d ≤ c + 1 then (s.softEnd f (k + 1) last, { f with softDesc := none }) else (s, f)

/-! ### The completion ring (R363) -/

/-- The 16 bytes of a completion entry (Table 12.8). -/
def ringBytes (e : RingEntry) (phase : Bool) : List Byte :=
  toBytes 1 (e.kind % 4 + phase.toNat * 128) ++ toBytes 1 (e.status % 16) ++ toBytes 2 e.tag ++ toBytes 1 e.ring ++ toBytes 1 e.reason
    ++ toBytes 2 e.index ++ toBytes 2 e.count ++ ((e.result.map (BitVec.ofNat 8)) ++ List.replicate 6 0).take 6

/-- The oldest waiting entry is written at TAIL of ring 73 where the ring is enabled and has room; one entry short of HEAD is full (log 18). A
command's entry ends its tag. The phase bit inverts on each wrap. -/
def State.entryWrite (s : State) : State :=
  match s.lnk.entries with
  | [] => s
  | e :: rest =>
    let size := s.ringSize 73
    let tail := s.ringTail 73
    if !s.on (R.LNK_LND_CFG_en 73) || (tail + 1) % size = s.ringHead 73 then s
    else
      let s := s.hostWrite (s.ringAddr 73 tail 16) (ringBytes e s.lnk.phase)
      let s := { s with lnk := { s.lnk with
        entries := rest, phase := if tail + 1 = size then !s.lnk.phase else s.lnk.phase,
        cmds := if e.kind = 3 then s.lnk.cmds.filter fun (c : Nat × Nat) => c.1 != e.tag else s.lnk.cmds } }
      let s := if e.kind = 3 then s.updLink hostLink fun l => { l with once := l.once.map fun (o : OnceEntry) =>
          if o.tag = e.tag && o.state = .running then { o with state := .delivered } else o } else s
      (s.set (R.LNK_LND_TAIL_tail 73) ((tail + 1) % size)).settleCancels

/-- COMPLETION_ENTRY_WRITE (R363). -/
def execCompletionEntryWrite (s : State) : Out := .next s.entryWrite


end Sys2Proof.Machine
end

