-- ==== Sys2Proof/Machine/MacTime.lean ====
section
/-! DEFINITION. Machine/MacTime.lean: neighbour states, offset and propagation samples, and the steering of mesh time toward its parent
(R173 to R180, R371). -/

namespace Sys2Proof.Machine

open Sys2Proof

/-! ### Neighbour states (R174, Table 5.12) -/

/-- A receive crossing with the neighbour ended LEAD_MISS: ABSENT, or LOST where the streak reaches lost_after. -/
def State.nbrAbsent (s : State) (n : Nat) : State :=
  let s := (s.nbrStat n 12).bump (R.NBR_LIVE_streak n)
  let limit := max 1 (s.get (R.NBR_CFG_lost_after n))
  let st := s.get (R.NBR_LIVE_state n)
  if st = 0 || st = 3 then s
  else if limit ≤ s.get (R.NBR_LIVE_streak n) then
    (((s.set (R.NBR_LIVE_state n) 3).setBit (R.MAC_EVT_LOST_nbrs (n / 32)) (n % 32)).yarn 40).fire 80
  else s.set (R.NBR_LIVE_state n) 2

/-- A header from the neighbour was accepted: the streak is 0, and a LOST neighbour is found again with its time filter restarted. -/
def State.nbrHeard (s : State) (n : Nat) : State :=
  let st := s.get (R.NBR_LIVE_state n)
  let s := s.set (R.NBR_LIVE_streak n) 0
  if st = 3 then
    ((((s.set (R.NBR_LIVE_state n) 1).set (R.NBR_LIVE_time_valid n) 0).setBit (R.MAC_EVT_FOUND_nbrs (n / 32)) (n % 32)).yarn 41).fire 81
  else if st = 2 then s.set (R.NBR_LIVE_state n) 1
  else s

/-! ### Samples (R175 to R177) -/

/-- A quotient stored in an integer field: exact where it is an integer (log 16). -/
def quotient (a : Int) (b : Nat) : Int := if a % (b : Int) = 0 then a / (b : Int) else Config.roundedQuotient a b

/-- Signed 64-bit registers held as two words. -/
def State.getS2 (s : State) (f : Nat → Field) : Int := signed 64 (s.get2 f)
def State.setS2 (s : State) (f : Nat → Field) (v : Int) : State := s.set2 f (unsigned 64 v)

/-- Offset and drift after a sample o at lead start l, from those before, the time of the last sample and the filter shifts; the last answer
says that the filter restarted (R176). A sample that is not later than the last leaves the drift (log 19). -/
def timeFilter (valid : Bool) (off drift : Int) (last l : Nat) (o : Int) (a b : Nat) : Int × Int × Bool :=
  if !valid then (o, 0, false)
  else
    let dt : Int := (l : Int) - last
    let err := o - (off + quotient (drift * dt) (2 ^ 32))
    if 20000 < err.natAbs then (o, drift, true)
    else
      (off + quotient (drift * dt) (2 ^ 32) + quotient err (2 ^ a),
       if 0 < dt then clampI (-429497) 429497 (drift + quotient (err * 2 ^ 32) (dt.toNat * 2 ^ b)) else drift, false)

/-- Every neighbour's offset, and the primary's in a pontoon, changes by a number of sixteenths of a tick (R178, R179, R371). -/
def State.shiftOffsets (s : State) (d : Int) : State :=
  let s := if s.pnt.valid then { s with pnt := { s.pnt with off := s.pnt.off + d } } else s
  forAll 64 (fun n s => if s.on (R.NBR_LIVE_time_valid n) then s.setS2 (R.NBR_OFFSET_off n) (s.getS2 (R.NBR_OFFSET_off n) + d) else s) s

/-- Ticks that the slew has added, or with a minus sign withheld, since they were last settled: one for every 10⁹ of tick times ppb (R178). -/
def State.slewDue (s : State) : Int := s.clk.slewAcc.tdiv 1000000000

/-- Each added tick is subtracted from every offset, each withheld one added (R178; log 127). -/
def State.slewSettle (s : State) : State :=
  let k := s.slewDue
  if k = 0 then s else ({ s with clk := { s.clk with slewAcc := s.clk.slewAcc - 1000000000 * k } }).shiftOffsets (-(16 * k))

/-- The slew in ppb that a parent's offset and drift call for (R178). -/
def State.slewFor (s : State) (off drift : Int) : Int :=
  let tau := max 1 (s.get R.MAC_TIME_CTRL_tau)
  let use : Int := if off.natAbs < 16 then 0 else off
  clampI (-50000) 50000 (quotient (drift * (20000000000 * tau) + use * 2 ^ 32) (2 ^ 32 * 20 * tau))

/-- Put a slew in force. In hardware time mode MAC_TIME_SLEW reads it. -/
def State.setSlew (s : State) (v : Int) : State :=
  let s := { s with clk := { s.clk with slew := clampI (-50000) 50000 v } }
  if s.xng.hostTime then s else s.setS R.MAC_TIME_SLEW_ppb s.clk.slew

/-- locked clears. -/
def State.timeUnlock (s : State) : State :=
  let s := { s with clk := { s.clk with lockRun := 0 } }
  if s.on R.MAC_TIME_STATUS_locked then (s.set R.MAC_TIME_STATUS_locked 0).fire 23 else s

/-- A sample of the time parent is applied: slew, lock, step and ahead (R178, R179). needOk: the step takes step_ok. -/
def State.parentSample (s : State) (off drift : Int) : State :=
  if s.xng.hostTime then s
  else
    let now := s.now
    let s := { s with clk := { s.clk with lastParent := now } }
    let s := s.setSlew (s.slewFor off drift)
    let s := s.setS R.MAC_TIME_STATUS_off_p (clampI (-32768) 32767 (quotient off 16))
    let s := if 1024 < off.natAbs then s.timeUnlock
      else if off.natAbs ≤ 256 then
        let run := s.clk.lockRun + 1
        let s := { s with clk := { s.clk with lockRun := run } }
        if 8 ≤ run then s.set R.MAC_TIME_STATUS_locked 1 else s
      else { s with clk := { s.clk with lockRun := 0 } }
    if 20000 < off && s.on R.MAC_TIME_CTRL_step_ok && s.clk.stepWait.isNone then
      { s with clk := { s.clk with stepWait := some ((off / 16).toNat, 0) } }
    else if off < -20000 then
      if s.on R.MAC_TIME_STATUS_ahead then s else (s.set R.MAC_TIME_STATUS_ahead 1).fire 24
    else s

/-- The module is a secondary of a pontoon that is on: its parent is the primary (R371). -/
def State.pontoonSecondary (s : State) : Bool := s.on R.PNT_CTRL_en && s.get R.HUB_ID_pontoon_index != 0

/-- Fields of an acknowledgement block (Table 5.9). -/
def ackHigh (b : List Byte) : Nat := ofBytes (b.take 4)
def ackMap (b : List Byte) : Nat := ofBytes ((b.drop 4).take 8)
def ackRxSeq (b : List Byte) : Nat := ofBytes ((b.drop 12).take 4)
def ackRxTime (b : List Byte) : Nat := ofBytes ((b.drop 16).take 8)

/-- The two-way sample of a frame that carries an acknowledgement block (R177). A negative span is no reply to that frame (log 20). -/
def State.propSample (s : State) (n hdrTime l : Nat) (ack : List Byte) : State :=
  let t1 : Int := 16 * (s.get2 (R.NBR_LAST_TX_LEAD_ticks n) : Int)
  let gap := signed 64 (unsigned 64 ((l : Int) - t1))
  if ack.isEmpty || ackRxSeq ack != s.get (R.NBR_LAST_TX_SEQ_seq n) || gap < 0 || 1048576 < gap then s
  else
    let d1 := signed 64 (unsigned 64 ((ackRxTime ack : Int) - t1))
    let d2 := signed 64 (unsigned 64 ((l : Int) - 16 * hdrTime))
    let sample := max 0 (quotient (d1 + d2) 2)
    let prop : Int := s.get (R.NBR_PROP_prop n)
    let v := if (s.nbr n).propSampled then prop + quotient (sample - prop) (2 ^ s.get R.MAC_TIME_CTRL_p) else sample
    ((s.updNbr n fun x => { x with propSampled := true }).set (R.NBR_PROP_prop n) (clampI 0 (2 ^ 24 - 1) v).toNat).set (R.NBR_PROP_prop_valid n) 1

/-- A frame of a neighbour yields a time sample: propagation, offset and drift, and the steering where the neighbour is the parent (R175 to
R178). l is the measured lead start in 1/16 tick, ack the acknowledgement block or empty. -/
def State.timeSample (s : State) (n hdrTime l : Nat) (ack : List Byte) : State :=
  let s := s.slewSettle.propSample n hdrTime l ack
  let o := signed 64 (unsigned 64 (16 * (hdrTime : Int) + s.get (R.NBR_PROP_prop n) - l))
  let valid := s.on (R.NBR_LIVE_time_valid n)
  let r := timeFilter valid (s.getS2 (R.NBR_OFFSET_off n)) (s.getS (R.NBR_DRIFT_drift n)) (s.get2 (R.NBR_L_LAST_l n)) l o
    (s.get R.MAC_TIME_CTRL_a) (s.get R.MAC_TIME_CTRL_b)
  let s := if r.2.2 then s.nbrStat n 15 else s
  let s := ((s.setS2 (R.NBR_OFFSET_off n) r.1).setS (R.NBR_DRIFT_drift n) r.2.1).set2 (R.NBR_L_LAST_l n) l
  let s := s.set (R.NBR_LIVE_time_valid n) 1
  if s.on R.MAC_TIME_CTRL_parent_en && !s.on R.MAC_TIME_CTRL_src_pps && s.get R.MAC_TIME_CTRL_parent = n && !s.pontoonSecondary then
    s.parentSample r.1 r.2.1
  else s

/-- No parent sample for two cycles: locked clears and the slew holds (R178). -/
def State.parentSilent (s : State) : State :=
  if s.xng.hostTime || !s.hubUp then s else (s.reach (s.clk.lastParent + 2 * cycleTicks)).timeUnlock

/-- Spans measured in mesh ticks last as long as before when mesh time steps forward by n: pulses, hold-offs, the watchdog, the phases of domains and
rails, resets of units, receivers and bells, links on their way out of STANDBY, and flash sequences. -/
def State.spansShift (s : State) (n : Nat) : State :=
  let later (v : Nat) : Nat := v + n
  let s := { s with
    pins := { s.pins with tsOutEnd := s.pins.tsOutEnd + n }, irq := { s.irq with holdEnd := s.irq.holdEnd.map later },
    sys := { s.sys with wdogEnd := s.sys.wdogEnd + n, coolAt := s.sys.coolAt + n } }
  let s := { s with
    pwr := { s.pwr with
      spanEnd := s.pwr.spanEnd.map later, railEnd := s.pwr.railEnd.map later, retryAt := s.pwr.retryAt + n, rfOffAt := s.pwr.rfOffAt + n }
    err := { s.err with resetEnds := s.err.resetEnds.map fun (x : Nat × Nat) => (x.1, x.2 + n) } }
  { s with
    aon := { s.aon with wakeEnd := s.aon.wakeEnd + n, detectAt := s.aon.detectAt.map later, bellAt := s.aon.bellAt + n },
    lnk := { s.lnk with links := s.lnk.links.map fun (l : Link) => { l with idleSince := l.idleSince + n, wakeAt := l.wakeAt.map later } },
    flc := { s.flc with banks := s.flc.banks.map fun (b : FlashBank) => { b with wroteAt := b.wroteAt + n } } }

/-- The crossings fetched or held for window starts from old on and before new are skipped as STEPPED, and image crossings there are passed over (R179). -/
def State.stepSkips (s : State) (old new : Nat) : State :=
  let passed (w : Nat) : Bool := old ≤ w && w < new
  let s := (s.xng.fetched.filter fun (c : Crossing) => passed c.winStart && !c.started).foldl (fun s c => s.skipCrossing c 15) s
  let gone := s.xng.held.filter fun (h : Held) => passed h.winStart
  let s := { s with xng := { s.xng with held := s.xng.held.filter fun (h : Held) => !passed h.winStart } }
  let s := gone.foldl (fun s (h : Held) =>
    ((s.skipRecord h.d h.winStart true 15).unvoteFor (.pushed h.num)).returnTiles (s.descTiles h.d) h.d.ret) s
  { s with xng := { s.xng with fetchFrom := max s.xng.fetchFrom ((new + windowTicks - 1) / windowTicks * windowTicks + 16 * windowTicks) } }

/-- A step that is taken ends its permission, or the host's request (R179, R180). -/
def State.stepTaken (s : State) (who : Nat) : State :=
  if who = 0 then s.set R.MAC_TIME_CTRL_step_ok 0
  else if who = 1 then
    let s := s.set2 R.MAC_TIME_STEP_ticks 0
    { s with xng := { s.xng with sampledStep := 0 } }
  else s

/-- A forward step of mesh time at a window boundary with no crossing in progress (R179, R180, R371): every offset falls by it. -/
def State.timeStep (s : State) : State :=
  match s.clk.stepWait with
  | none => s
  | some (ticks, who) =>
    if !s.hubUp || !s.inProgress.isEmpty || s.now % windowTicks != 0 then s
    else
      let old := s.now
      let new := old + ticks
      let s := ({ s with clk := { s.clk with stepWait := none, mesh := new } }).spansShift ticks
      let s := ((s.stepTaken who).stepSkips old new).pruneVotes.shiftOffsets (-(16 * (ticks : Int)))
      if s.on R.MAC_TIME_STATUS_stepped then s else (s.set R.MAC_TIME_STATUS_stepped 1).fire 22

/-- PARENT_SILENT (R178). -/
def execParentSilent (s : State) : Out := .next s.parentSilent

/-- TIME_STEP (R179). -/
def execTimeStep (s : State) : Out := .next s.timeStep

end Sys2Proof.Machine
end

