-- ==== Sys2Proof/Machine/Timers.lean ====
section
/-! DEFINITION. Machine/Timers.lean: count-down and wide timers, the alarm, TS_IN and TS_OUT (chapter 9, R275 to R287). -/

namespace Sys2Proof.Machine

open Sys2Proof

/-! ### One view of the 52 timers (R275, R283) -/

/-- The field of a timer, numbered 0 to 15 on the hub and 16 + 4 t + n on tile t: one for count-down timers, one for wide timers. -/
def tmPick (r : TimerRef) (f w : Nat → Field) : Field :=
  match r with
  | .wide m => w m.val
  | .hub n => f n.val
  | .tile t n => f (16 + 4 * t.val + n.val)

def tmEn (r : TimerRef) : Field := tmPick r R.TMR_CTRL_en R.TMR_W_CTRL_en
def tmClk (r : TimerRef) : Field := tmPick r R.TMR_CTRL_clk R.TMR_W_CTRL_clk
def tmEvt (r : TimerRef) : Field := tmPick r R.TMR_CTRL_evt R.TMR_W_CTRL_evt
def tmOneshot (r : TimerRef) : Field := tmPick r R.TMR_CTRL_oneshot R.TMR_W_CTRL_oneshot
def tmCapSel (r : TimerRef) : Field := tmPick r R.TMR_SEL_cap_sel R.TMR_W_SEL_cap_sel
def tmTrigSel (r : TimerRef) : Field := tmPick r R.TMR_SEL_trig_sel R.TMR_W_SEL_trig_sel
def tmClkSel (r : TimerRef) : Field := tmPick r R.TMR_SEL_clk_sel R.TMR_W_SEL_clk_sel
def tmNoclk (r : TimerRef) : Field := tmPick r R.TMR_STATUS_noclk R.TMR_W_STATUS_noclk
def tmCapOvr (r : TimerRef) : Field := tmPick r R.TMR_STATUS_cap_ovr R.TMR_W_STATUS_cap_ovr
def tmCapFull (r : TimerRef) : Field := tmPick r R.TMR_STATUS_cap_full R.TMR_W_STATUS_cap_full

/-- A value kept as one 32-bit register or as 32 and 16 bits. -/
def State.getWide (s : State) (r : TimerRef) (f lo hi : Nat → Field) : Nat :=
  match r with
  | .wide m => s.get (lo m.val) + 2 ^ 32 * s.get (hi m.val)
  | .hub n => s.get (f n.val)
  | .tile t n => s.get (f (16 + 4 * t.val + n.val))

/-- Write such a value. -/
def State.setWide (s : State) (r : TimerRef) (f lo hi : Nat → Field) (v : Nat) : State :=
  match r with
  | .wide m => (s.set (lo m.val) (v % 2 ^ 32)).set (hi m.val) (v / 2 ^ 32 % 2 ^ 16)
  | .hub n => s.set (f n.val) v
  | .tile t n => s.set (f (16 + 4 * t.val + n.val)) v

def State.tmrCount (s : State) (r : TimerRef) : Nat := s.getWide r R.TMR_COUNT_count R.TMR_W_COUNT_LO_count R.TMR_W_COUNT_HI_count
def State.setTmrCount (s : State) (r : TimerRef) (v : Nat) : State :=
  s.setWide r R.TMR_COUNT_count R.TMR_W_COUNT_LO_count R.TMR_W_COUNT_HI_count v
def State.tmrReload (s : State) (r : TimerRef) : Nat := s.getWide r R.TMR_RELOAD_reload R.TMR_W_RELOAD_LO_reload R.TMR_W_RELOAD_HI_reload
def State.tmrPre (s : State) (r : TimerRef) : Nat := s.getWide r R.TMR_CMP_PRE_cmp R.TMR_W_CMP_PRE_LO_cmp R.TMR_W_CMP_PRE_HI_cmp
def State.tmrCmp (s : State) (r : TimerRef) : Nat := s.getWide r R.TMR_CMP_cmp R.TMR_W_CMP_LO_cmp R.TMR_W_CMP_HI_cmp
def State.setTmrCmp (s : State) (r : TimerRef) (v : Nat) : State := s.setWide r R.TMR_CMP_cmp R.TMR_W_CMP_LO_cmp R.TMR_W_CMP_HI_cmp v
def State.setTmrCap (s : State) (r : TimerRef) (v : Nat) : State := s.setWide r R.TMR_CAP_cap R.TMR_W_CAP_LO_cap R.TMR_W_CAP_HI_cap v

/-- The timer is a wide timer in alarm mode (R284). -/
def State.isAlarm (s : State) : TimerRef → Bool
  | .wide m => s.on (R.TMR_W_CTRL_mode m.val)
  | _ => false

/-- The timer's clocks run: its die is up (R282). -/
def State.tmrRuns (s : State) : TimerRef → Bool
  | .tile t _ => s.tileRuns t.val
  | _ => s.hubUp

/-- The select code names a yarn of the timer's die (R265). -/
def tmSelects (r : TimerRef) (c : Nat) : Bool :=
  match r with
  | .tile _ _ => c < 0x20
  | _ => c < 0x80

/-- The timer's source 3 is a yarn (Table 9.1). -/
def State.tmrYarnClock (s : State) (r : TimerRef) : Bool := s.get (tmClk r) == 3

/-- Edges reach the counter: tile timers have no source 2, and a yarn source needs a yarn (R265, R276). -/
def State.tmrHasClock (s : State) (r : TimerRef) : Bool :=
  match r, s.get (tmClk r) with
  | .tile _ _, 2 => false
  | r, 3 => tmSelects r (s.get (tmClkSel r))
  | _, _ => true

/-- A timer event fires its yarn and its source (R278). -/
def State.tmrEvent (s : State) : TimerRef → State
  | .hub n => (s.fire n.val).yarn (48 + n.val)
  | .tile t n => (s.fireTile t.val n.val).tileYarn t.val n.val
  | .wide m => (s.fire (16 + m.val)).yarn (44 + m.val)

/-- Load the counter and the live compare, at an enable, a restart or a wrap (R277); an alarm ignores the reload (R284). -/
def State.tmrLoad (s : State) (r : TimerRef) : State :=
  let s := s.setTmrCmp r (s.tmrPre r)
  if s.isAlarm r then s else s.setTmrCount r (s.tmrReload r)

/-- What one counted edge does to a running count-down timer: the next state, whether it wraps, whether it matches (R277). -/
def State.tmrEdge (s : State) (r : TimerRef) : State × Bool × Bool :=
  let c := s.tmrCount r
  if c = 0 then
    if s.on (tmOneshot r) then (s.set (tmEn r) 0, true, false)
    else
      let s := s.tmrLoad r
      (s, true, s.tmrCount r == s.tmrCmp r)
  else (s.setTmrCount r (c - 1), false, c - 1 == s.tmrCmp r)

/-- A counted edge is possible: the timer counts down, runs and has a clock (R276, R277, R282). -/
def State.tmrCounts (s : State) (r : TimerRef) : Bool := s.tmrRuns r && s.on (tmEn r) && !s.isAlarm r && s.tmrHasClock r

/-- One counted edge: the counter, then one event if a wrap or match that evt selects occurred; noclk clears (R276 to R278). -/
def State.tmrCountEdge (s : State) (r : TimerRef) : State :=
  let s := s.set (tmNoclk r) 0
  let e := s.tmrEdge r
  let sel := s.get (tmEvt r)
  if (e.2.1 && sel.testBit 0) || (e.2.2 && sel.testBit 1) then e.1.tmrEvent r else e.1

/-- The edge finds the counter at 0. -/
def State.tmrAtZero (s : State) (r : TimerRef) : Bool := s.tmrCount r == 0
/-- The edge decrements the counter to the live compare. -/
def State.tmrMatches (s : State) (r : TimerRef) : Bool := s.tmrCount r != 0 && s.tmrCount r - 1 == s.tmrCmp r

/-- A clock source shows no edge for its span (R276). -/
def State.tmrNoClock (s : State) (r : TimerRef) : State :=
  if !s.tmrRuns r || s.isAlarm r || s.tmrYarnClock r then s else s.set (tmNoclk r) 1

/-- A trigger restarts a running count-down timer (R279); an alarm ignores it (R284). -/
def State.tmrTrigger (s : State) (r : TimerRef) : State :=
  if !s.tmrRuns r || !s.on (tmEn r) || s.isAlarm r || !tmSelects r (s.get (tmTrigSel r)) then s else s.tmrLoad r

/-- An event on the capture yarn (R280, R284). -/
def State.tmrCapture (s : State) (r : TimerRef) : State :=
  if !s.tmrRuns r || !tmSelects r (s.get (tmCapSel r)) then s
  else if s.on (tmCapFull r) then
    let s := s.set (tmCapOvr r) 1
    match r with
    | .tile _ _ => s
    | _ => s.fire 115
  else (s.setTmrCap r (if s.isAlarm r then s.meshRead % 2 ^ 48 else s.tmrCount r)).set (tmCapFull r) 1

/-- An edge of the clock source comes to a timer that does not count: noclk clears (R276). -/
def State.tmrIdleEdge (s : State) (r : TimerRef) : State :=
  if s.tmrRuns r && s.tmrHasClock r && !s.on (tmEn r) then s.set (tmNoclk r) 0 else s

/-- The timers of a die. -/
def timersOf (d : Nat) : List TimerRef :=
  if d = 0 then (List.finRange 16).map .hub ++ (List.finRange 4).map .wide
  else (List.finRange 4).map fun n => .tile ⟨(d - 1) % 8, Nat.mod_lt _ (by decide)⟩ n

/-- The yarn events that a timer sees in one cycle: the capture takes the counter as it stood before, the counting yarn gives one edge, and the restart
comes last (R276, R279, R280). -/
def State.tmrYarns (s : State) (ws : List Nat) (r : TimerRef) : State :=
  let s := if ws.contains (s.get (tmCapSel r)) then s.tmrCapture r else s
  let s := if s.tmrYarnClock r && ws.contains (s.get (tmClkSel r)) && s.tmrCounts r then s.tmrCountEdge r else s
  if ws.contains (s.get (tmTrigSel r)) then s.tmrTrigger r else s

/-- The fields of a TMR_CTRL word other than en: mode, clk, evt, oneshot. -/
def State.tmrSetup (s : State) (r : TimerRef) : Nat × Nat × Nat × Nat :=
  ((s.isAlarm r).toNat, s.get (tmClk r), s.get (tmEvt r), s.get (tmOneshot r))

/-- A write of a TMR_CTRL word: refused with BUSY where it changes another field of a running timer; a rising en loads the timer, a falling
one holds the counter (R277, R281). -/
def State.tmrCtrlWrite (s : State) (r : TimerRef) (data : Nat) : State × Status :=
  let wide := match r with
    | .wide _ => true
    | _ => false
  let new := (if wide then bits data 12 12 else 0, bits data 9 8, bits data 5 4, bits data 1 1)
  let was := s.on (tmEn r)
  if was && new != s.tmrSetup r then (s, .busy)
  else
    let s := match r with
      | .wide m => s.set (R.TMR_W_CTRL_mode m.val) new.1
      | _ => s
    let s := (((s.set (tmClk r) new.2.1).set (tmEvt r) new.2.2.1).set (tmOneshot r) new.2.2.2).set (tmEn r) (bits data 0 0)
    (if !was && data.testBit 0 then s.tmrLoad r else s, .ok)

/-! ### The alarm (R284) -/

/-- The alarm's compare has been reached or passed. -/
def State.alarmDue (s : State) (m : Nat) : Bool := (s.now + 2 ^ 48 - s.tmrCmp (.wide ⟨m % 4, Nat.mod_lt _ (by decide)⟩)) % 2 ^ 48 < 2 ^ 47

/-- The alarm fires once and clears en. -/
def State.alarm (s : State) (m : Fin 4) : State :=
  if !s.hubUp || !s.on (R.TMR_W_CTRL_mode m.val) || !s.on (R.TMR_W_CTRL_en m.val) || !s.alarmDue m.val then s
  else (s.set (R.TMR_W_CTRL_en m.val) 0).tmrEvent (.wide m)

/-! ### TS_IN and TS_OUT (R180, R286, R287) -/

/-- Ticks of one second. -/
def secondTicks : Nat := 1250000000

/-- The multiple of 1 s nearest to a tick. -/
def nearestSecond (t : Nat) : Nat := (t + secondTicks / 2) / secondTicks * secondTicks

/-- A rising edge of TS_IN captures mesh time; the pulse-per-second parent takes its sample from it (R180, R286). -/
def State.tsIn (s : State) : State :=
  if !s.hubUp then s
  else
    let t := s.meshRead
    let s := if s.on R.TMR_TSI_STAT_full then (s.set R.TMR_TSI_STAT_ovw 1).fire 116 else s
    let s := (((s.set R.TMR_TSI_LO_ticks (t % 2 ^ 32)).set R.TMR_TSI_HI_ticks (t / 2 ^ 32)).set R.TMR_TSI_STAT_full 1).fire 20
    let s := s.yarn 42
    if s.on R.MAC_TIME_CTRL_src_pps && s.on R.MAC_TIME_CTRL_parent_en then
      s.parentSample (16 * ((nearestSecond t : Int) - (t : Int))) 0
    else s

/-- The oldest multiple of 1 s that TS_OUT has not acted on: passed already, or still to come. -/
def State.nextSecond (s : State) : Nat :=
  if s.pins.tsOutAt < s.now / secondTicks * secondTicks then s.now / secondTicks * secondTicks
  else (s.pins.tsOutAt / secondTicks + 1) * secondTicks

/-- The ticks of a pulse of TS_OUT (Table 9.6). -/
def State.tsOutTicks (s : State) : Nat := 1250 * max 1 (s.get R.TMR_TSO_CTRL_width)

/-- TS_OUT rises at a multiple of 1 s, for the width that TMR_TSO_CTRL gives then (R287). -/
def State.tsOutRise (s : State) : State :=
  if !s.hubUp || !s.on R.TMR_TSO_CTRL_en then s
  else
    let m := s.nextSecond
    let s := s.reach m
    (({ s with pins := { s.pins with tsOut := true, tsOutAt := m, tsOutEnd := s.now + s.tsOutTicks } }).fire 21).yarn 43

/-- TS_OUT starts to watch: multiples of the past give no pulse (R287). -/
def State.tsOutArm (s : State) : State :=
  { s with pins := { s.pins with tsOutAt := max s.pins.tsOutAt (if s.now = 0 then 0 else (s.now - 1) / secondTicks * secondTicks) } }

/-- TS_OUT falls when its pulse has lasted its width (R287). -/
def State.tsOutFall (s : State) : State :=
  if s.pins.tsOut then
    let s := s.reach s.pins.tsOutEnd
    { s with pins := { s.pins with tsOut := false } }
  else s

/-- TIMER_NOCLK (R276). -/
def execTimerNoclk (r : TimerRef) (s : State) : Out := .next (s.tmrNoClock r)
/-- TIMER_WRAP (R277): a counted edge that finds the counter at 0. -/
def execTimerWrap (r : TimerRef) (s : State) : Out := .next (if s.tmrCounts r && s.tmrAtZero r then s.tmrCountEdge r else s)
/-- TIMER_MATCH (R277): a counted edge that brings the counter to the live compare. -/
def execTimerMatch (r : TimerRef) (s : State) : Out := .next (if s.tmrCounts r && s.tmrMatches r then s.tmrCountEdge r else s)
/-- TIMER_COUNTED_EDGE (R276, R277): an edge with neither. -/
def execTimerCountedEdge (r : TimerRef) (s : State) : Out :=
  .next (if s.tmrCounts r then (if !s.tmrAtZero r && !s.tmrMatches r then s.tmrCountEdge r else s) else s.tmrIdleEdge r)
/-- TIMER_TRIGGER (R279). -/
def execTimerTrigger (r : TimerRef) (s : State) : Out := .next (s.tmrTrigger r)
/-- TIMER_CAPTURE (R280). -/
def execTimerCapture (r : TimerRef) (s : State) : Out := .next (s.tmrCapture r)
/-- WIDE_ALARM (R284). -/
def execWideAlarm (m : Fin 4) (s : State) : Out := .next (s.alarm m)
/-- TS_IN_EDGE (R286). -/
def execTsInEdge (s : State) : Out := .next s.tsIn
/-- TS_OUT_PULSE (R287). -/
def execTsOutPulse (s : State) : Out := .next s.tsOutRise
/-- TS_OUT_PULSE_END (R287). -/
def execTsOutPulseEnd (s : State) : Out := .next s.tsOutFall

end Sys2Proof.Machine
end

