-- ==== Sys2Proof/Machine/Irq.lean ====
section
/-! DEFINITION. Machine/Irq.lean: the interrupt controller: delivery, end of interrupt, hold-off, and pin edges that fire sources while the
hub is up (chapter 9, R288 to R294). -/

namespace Sys2Proof.Machine

open Sys2Proof

/-- P and A of a source (R290). -/
def State.irqP (s : State) (n : Nat) : Bool := s.bit (R.IRQ_PEND_pend (n / 32)) (n % 32)
def State.irqA (s : State) (n : Nat) : Bool := s.bit (R.IRQ_ACTIVE_active (n / 32)) (n % 32)

/-- The engine a route names: above 95 taken as 95 (Table 9.4). -/
def State.routeEngine (s : State) (n : Nat) : Nat := min (s.get (R.IRQ_ROUTE_engine n)) 95

/-- The destination can take the source: an engine's domain is up; a host vector and IRQ_N always can (R292). -/
def State.irqDestReady (s : State) (n : Nat) : Bool :=
  match s.get (R.IRQ_ROUTE_kind n) with
  | 0 => false
  | 2 => s.domUp (engDomain (s.routeEngine n))
  | _ => true

/-- The source is delivered in this hub cycle (R290). -/
def State.irqDeliverable (s : State) (n : Nat) : Bool :=
  s.irqP n && !s.irqA n && s.on (R.IRQ_ROUTE_en n) && s.irqDestReady n && !s.on (R.IRQ_HOLDOFF_running (n / 16))

/-- IRQ_N is low while a source delivered to it is active (R292). -/
def State.refreshIrqN (s : State) : State :=
  { s with pins := { s.pins with irqNLow := s.irq.dest.any fun (d : Nat × Nat × Nat × Nat) => d.2.1 == 3 } }

/-- Delivery of one source: A is set, P clears, and its destination is noted (R290 to R292). -/
def State.irqDeliverOne (s : State) (n : Nat) : State :=
  let s := (s.clrBit (R.IRQ_PEND_pend (n / 32)) (n % 32)).setBit (R.IRQ_ACTIVE_active (n / 32)) (n % 32)
  match s.get (R.IRQ_ROUTE_kind n) with
  | 1 =>
    { s with irq := { s.irq with dest := s.irq.dest ++ [(n, 1, s.get (R.IRQ_ROUTE_vector n), 0)] } }
  | 2 => { s with irq := { s.irq with dest := s.irq.dest ++ [(n, 2, s.routeEngine n, s.get (R.IRQ_ROUTE_line n))] } }
  | _ => { s with irq := { s.irq with dest := s.irq.dest ++ [(n, 3, 0, 0)] } }

/-- The vectors of the host-vector deliveries among some sources, each once (R292). -/
def State.irqVectors (s : State) (ns : List Nat) : List Nat :=
  ((ns.filter fun n => s.get (R.IRQ_ROUTE_kind n) == 1).map fun n => s.get (R.IRQ_ROUTE_vector n)).eraseDups

/-- A group's hold-off starts, for the µs that IRQ_HOLDOFF gives now, where they are not 0 (R293). -/
def State.holdoff (s : State) (g : Nat) : State :=
  if s.get (R.IRQ_HOLDOFF_us g) = 0 then s
  else { s.set (R.IRQ_HOLDOFF_running g) 1 with irq := { s.irq with holdEnd := vset s.irq.holdEnd g (s.now + 1250 * s.get (R.IRQ_HOLDOFF_us g)) } }

/-- The groups of some sources start their hold-off (R293). -/
def State.startHoldoff (s : State) (ns : List Nat) : State := ns.foldl (fun s n => s.holdoff (n / 16)) s

/-- A hold-off ends (R293). -/
def State.holdoffEnd (s : State) (g : Nat) : State :=
  if s.hubUp && s.on (R.IRQ_HOLDOFF_running g) then (s.reach (vget s.irq.holdEnd g)).set (R.IRQ_HOLDOFF_running g) 0 else s

/-- Hold-offs and the watchdog stop with the hub: what remains of each is kept (R293, R333). -/
def State.spansPause (s : State) : State :=
  let now := s.now
  { s with irq := { s.irq with holdEnd := s.irq.holdEnd.map fun e => e - now }, sys := { s.sys with wdogEnd := s.sys.wdogEnd - now } }

/-- The remainders run on (R293, R333). -/
def State.spansResume (s : State) : State :=
  let now := s.now
  { s with irq := { s.irq with holdEnd := s.irq.holdEnd.map fun e => now + e }, sys := { s.sys with wdogEnd := now + s.sys.wdogEnd } }

/-- Host-vector messages wait for VC1, with the interrupt vote on the host SerDes domain (R292). -/
def State.queueVectors (s : State) (vs : List Nat) : State :=
  if vs.isEmpty then s else ({ s with irq := { s.irq with waiting := s.irq.waiting ++ vs } }).vote 9 29

/-- One hub cycle of the controller: every source that can be delivered is, lowest number first; its groups' hold-offs start once; each host
vector gets one message (R290, R292). -/
def State.irqDeliver (s : State) : State :=
  if !s.hubUp then s
  else
    let ns := (List.range 512).filter s.irqDeliverable
    let vs := s.irqVectors ns
    let s := ns.foldl State.irqDeliverOne s
    ((s.startHoldoff ns).queueVectors vs).refreshIrqN

/-- An end of interrupt (R291). -/
def State.irqEoi (s : State) (n : Nat) : State :=
  if s.irqA n then
    let s := s.clrBit (R.IRQ_ACTIVE_active (n / 32)) (n % 32)
    ({ s with irq := { s.irq with dest := s.irq.dest.filter fun (d : Nat × Nat × Nat × Nat) => d.1 != n } }).refreshIrqN
  else s.bump R.IRQ_SPURIOUS_EOI_count

/-- IRQ_SET: P of the source (R290). -/
def State.irqSet (s : State) (n : Nat) : State := s.setBit (R.IRQ_PEND_pend (n / 32)) (n % 32)

/-- IRQ_PEND: a 1 clears P without delivery (R291). -/
def State.irqPendClear (s : State) (w mask : Nat) : State :=
  forBits 32 mask (fun i s => s.clrBit (R.IRQ_PEND_pend w) i) s

/-- Each set AON latch sets P of its source once and clears (R294). -/
def State.latchesToPending (s : State) : State :=
  let s := forBits 25 s.aon.latches (fun i s => s.irqSet (448 + i)) s
  { s with aon := { s.aon with latches := 0 } }

/-- IRQ_DELIVERY (R290): one hub cycle of the interrupt controller. -/
def execIrqDelivery (s : State) : Out := .next s.irqDeliver
/-- HOLDOFF_END (R293). -/
def execHoldoffEnd (g : Fin 32) (s : State) : Out := .next (s.holdoffEnd g.val)
/-- WAKE_N_FALL (R288, R322): the input is ignored while the module drives the pin and for 10 µs after. -/
def execWakeNFall (s : State) : Out := .next (if s.aon.wakeDrive || s.now < s.aon.wakeQuiet then s else s.fire 464)
/-- PNT_SYNC_EDGE (R288). -/
def execPntSyncEdge (s : State) : Out := .next (s.fire 466)

end Sys2Proof.Machine
end

