-- ==== Sys2Proof/Machine/Phy.lean ====
section
/-! DEFINITION. Machine/Phy.lean: the physical layer: lead detection, headers, block equalisation, the codeword queue, decoders and encoders,
soft-symbol export (chapter 4). -/

namespace Sys2Proof.Machine

open Sys2Proof

/-! ### Schemes (R127 to R131, Tables 4.3, 4.4) -/

/-- Rows m of the base matrix of a scheme (R127). -/
def mcsRows (m : Nat) : Nat := [16, 16, 8, 16, 12, 8, 6, 16, 12, 8, 6, 12, 8, 6, 4].getD m 16

/-- Information bits k of a codeword (R127). -/
def mcsInfo (m : Nat) : Nat := 2048 - 64 * mcsRows m

/-- G, the iteration limit under load (Table 4.4). -/
def mcsLoadLimit (bonded : Bool) (m : Nat) : Nat :=
  if bonded then [90, 22, 44, 10, 14, 21, 28, 4, 6, 9, 13, 4, 6, 8, 12].getD m 0
  else [182, 44, 89, 22, 29, 44, 58, 10, 14, 21, 28, 9, 13, 18, 27].getD m 0

/-- Header blocks H of a crossing's scheme (R123). -/
def headerBlocks (crossingMcs : Nat) : Nat := if crossingMcs = 0 then 4 else 1

/-- Payload blocks N (R128). -/
def payloadBlocks (mcs ncw : Nat) : Nat := (ncw * 2048 + mcsBlockBits mcs - 1) / mcsBlockBits mcs

/-- Blocks F of a frame (R128). -/
def frameBlocks (mcs ncw : Nat) : Nat := 4 + headerBlocks mcs + payloadBlocks mcs ncw

/-- ncw and last_bytes of a payload (R126). -/
def splitPayload (mcs len : Nat) : Nat × Nat :=
  let kb := mcsInfo mcs / 8
  let n := (len + kb - 1) / kb
  (n, if n = 0 then 0 else len - (n - 1) * kb)

/-! ### The LDPC code (R127): a codeword as 64-bit blocks, bit r of a block its r-th bit in stream order -/

/-- A block multiplied by the 64 × 64 identity shifted right by n. -/
def rot64 (x n : Nat) : Nat := x / 2 ^ (n % 64) ^^^ (x * 2 ^ (64 - n % 64)) % 2 ^ 64

/-- Shift of the information part's entry (i, j). -/
def ldpcShift (i j : Nat) : Nat := (17 * i * j + 5 * i + 3 * j) % 64

/-- The information part's contribution to check row i. -/
def ldpcSyndrome (i : Nat) : Nat → List Nat → Nat
  | _, [] => 0
  | j, x :: rest => rot64 x (ldpcShift i j) ^^^ ldpcSyndrome i (j + 1) rest

/-- 64-bit blocks of a bit string in stream order. -/
def bitBlocks (l : List Bool) (n : Nat) : List Nat :=
  (List.range n).map fun j => maskOf 64 fun r => l.getD (64 * j + r) false

/-- Bits of blocks in stream order. -/
def blockBits (l : List Nat) : List Bool := l.flatMap fun x => (List.range 64).map fun r => x.testBit r

/-- The parity blocks of an information part with m rows. -/
def ldpcParity (m : Nat) (info : List Nat) : List Nat :=
  let syn := (List.range m).map fun i => ldpcSyndrome i 0 info
  let p0 := syn.foldl (· ^^^ ·) 0
  let row (i : Nat) : Nat := syn.getD i 0 ^^^ (if i = 0 || i + 1 = m then rot64 p0 1 else 0) ^^^ (if 2 * i = m then p0 else 0)
  let chain := (List.range (m - 1)).foldl (fun (acc : List Nat × Nat) i => (acc.1 ++ [row i ^^^ acc.2], row i ^^^ acc.2)) ([], 0)
  p0 :: chain.1

/-- Every parity check of a 32-block codeword holds. -/
def ldpcChecks (m : Nat) (word : List Nat) : Bool :=
  let info := word.take (32 - m)
  word.drop (32 - m) == ldpcParity m info

/-- The codeword of k information bits (R127). -/
def ldpcEncode (m : Nat) (info : List Bool) : List Bool :=
  let blocks := bitBlocks info (32 - m)
  blockBits (blocks ++ ldpcParity m blocks)

/-! ### The scrambler (R126) -/

/-- n scrambler bits from a 7-bit state, of which bit j is s(n − 1 − j). -/
def scramble : Nat → Nat → List Bool
  | 0, _ => []
  | n + 1, st =>
    let b := st.testBit 3 != st.testBit 6
    b :: scramble n ((2 * st + b.toNat) % 128)

/-- The list with its entries in the order that a number names, in the factorial base. -/
def arrange {α : Type} : Nat → Nat → List α → List α
  | 0, _, l => l
  | n + 1, k, l =>
    match l.drop (k % (n + 1)) with
    | [] => l
    | x :: after => x :: arrange n (k / (n + 1)) (l.take (k % (n + 1)) ++ after)

/-- The scrambler's first state for a seed: each of its bits is one bit of the seed, in the order that the spec does not give (R126; log 15). -/
def scramblerState (seed : Nat) : Nat :=
  let order := arrange 7 Config.seedOrder (List.range 7)
  maskOf 7 fun j => seed.testBit (order.getD j j)

/-- The scrambler's bits for a frame: seeded by the low seven bits of the sequence, 0x7F for zero. -/
def scrambleBits (seq n : Nat) : List Bool := scramble n (scramblerState (if seq % 128 = 0 then 0x7F else seq % 128))

/-- XOR of two bit strings. -/
def xorBits (a b : List Bool) : List Bool := (a.zip b).map fun p => p.1 != p.2

/-- Bits of bytes in stream order, least significant first, and back. -/
def bytesBits (l : List Byte) : List Bool := l.flatMap fun x => (List.range 8).map fun r => x.toNat.testBit r
def bitsBytes (l : List Bool) : List Byte :=
  (List.range (l.length / 8)).map fun i => BitVec.ofNat 8 (maskOf 8 fun r => l.getD (8 * i + r) false)

/-- Information bits of codeword i of a frame's body, fill and scrambling included (R126). -/
def codewordInfo (mcs seq ncw i : Nat) (body : List Byte) : List Bool :=
  let k := mcsInfo mcs
  let all := bytesBits body
  let info := (List.range k).map fun j => all.getD (k * i + j) false
  xorBits info ((scrambleBits seq (k * ncw)).drop (k * i))

/-- The bytes that a frame's decoded codewords deliver (R126). -/
def deliveredBytes (mcs seq ncw last : Nat) (words : List (Nat × List Byte)) : List Byte :=
  let k := mcsInfo mcs
  let bits := (List.range ncw).flatMap fun i =>
    ((words.find? fun (w : Nat × List Byte) => w.1 == i).map fun (w : Nat × List Byte) => bytesBits w.2).getD (List.replicate k false)
  (bitsBytes (xorBits bits (scrambleBits seq (k * ncw)))).take ((ncw - 1) * (k / 8) + last)

/-! ### Leads (R119, R120, R143) -/

/-- A slot samples PHY_LEAD_CFG and PHY_DEC_CFG (R143). -/
def State.phySample (s : State) (slot : Nat) : State :=
  let salt := s.get R.PHY_LEAD_CFG_salt
  let search := min (s.get R.PHY_LEAD_CFG_search) 160
  let thresh := s.get R.PHY_LEAD_CFG_thresh
  let press := min (s.get R.PHY_DEC_CFG_press) 32
  let iter := max 1 (s.get R.PHY_DEC_CFG_max_iter)
  s.updSlot slot fun x => { x with salt := salt, search := search, thresh := thresh, press := press, maxIter := iter }

/-- A write to PHY_LEAD_CFG or PHY_DEC_CFG reaches the slots whose expected lead start has not passed (R143). -/
def State.phyCfgWritten (s : State) : State :=
  (s.inProgress.filter fun c => c.d.dir = 0 && 16 * s.now < s.expectedLead c.d c.b0).foldl (fun s c => s.phySample c.d.slot) s

/-- Whether a slot's received frames were exported at a mesh tick (R28, R30, R140). -/
def State.softAt (s : State) (slot tick : Nat) : Bool :=
  ((s.phy.softWas.foldl (fun (m : Nat) (x : Nat × Nat) => if tick < x.1 then x.2 else m) s.softSlots)).testBit slot

/-- After a write that changes the exported slots, what they were before it is kept for the leads that began earlier (R28, R30): was is the choice before
the write. -/
def State.softChanged (s : State) (was : Nat) : State :=
  if s.softSlots = was then s
  else
    let keep := s.phy.softWas.filter fun (x : Nat × Nat) => s.now < x.1 + cycleTicks
    { s with phy := { s.phy with softWas := (s.now, was) :: keep } }

/-- The lead detector finds a lead for the receive crossing of a slot: either code at or above the threshold within the search span; the higher
correlation is taken, and coinciding codes count as one (R119, R120). The frame is exported as the mode stood at its lead start (R28, R30); its SNR is
that of its lead blocks (R137). -/
def State.leadDetect (s : State) (slot : Nat) (m : LeadMeas) : State :=
  match s.running slot with
  | none => s
  | some c =>
    let x := s.slot slot
    let e := s.expectedLead c.d c.b0
    let short := s.get R.MAC_CFG_short
    let src := s.get (R.NBR_ADDR_short c.d.nbr)
    let one := leadCode src short x.salt == leadCode src 0xFFFF x.salt
    let corr := if one then m.corrUni else max m.corrUni m.corrBc
    if c.d.dir = 1 || c.leadHeard || c.searchEnded || corr < x.thresh || 16 * x.search < ((m.start : Int) - e).natAbs then s
    else
      let s := (s.updCrossing c.id fun y => { y with leadHeard := true, searchEnded := true }).pmc 0x060 slot
      let s := if c.d.pair then s.notePair ⟨c.src, c.d.nbr, e, true, true⟩ else s
      let soft := s.softAt slot (m.start / 16)
      let bc := !one && m.corrUni < m.corrBc
      let code := leadCode src (if bc then 0xFFFF else short) x.salt
      let known := (List.range 4).flatMap fun n => if (m.y.getD n []).isEmpty then [] else leadField code n
      let seen := (List.range 4).flatMap fun n => if (m.y.getD n []).isEmpty then [] else (m.y.getD n [] ++ List.replicate 448 (0, 0)).take 448
      let f : PhyFrame := { nbr := c.d.nbr, crossing := c.id, heads := headerBlocks c.d.mcs, ends := c.ends, xid := c.d.xid, cut := none, lead := m.start, leadErr := (m.start : Int) - e,
                            broadcast := bc, cfo := m.cfoKhz, snr := snrOf known seen,
                            agc := x.g, press := x.press, maxIter := x.maxIter, hdrDone := false, mcs := 0, ncw := 0, lastBytes := 0, hdr := [], blocks := 0, queued := 0,
                            words := [], failed := 0, iters := 0, soft := soft, softTrunc := false, softHeld := [], softDesc := none,
                            encoded := 0, body := [], tag := 0, seq := 0, ackOnly := false, pipe := none }
      let s := (s.updSlot slot fun y => { y with phySoft := soft, code := code, rx := if c.d.sweep then y.rx else y.rx ++ [f],
                                                 sweepLead := if c.d.sweep then some f else none }).refreshFunc
      s.dcFreeze c.tiles (m.start / 16)

/-- The lead search of a receive crossing ends without a lead (R120, R174). -/
def State.leadMissed (s : State) (slot : Nat) (c : Crossing) : State :=
      let e := s.expectedLead c.d c.b0
      let s := s.updCrossing c.id fun y => { y with searchEnded := true }
      let s := if c.d.pair then s.notePair ⟨c.src, c.d.nbr, e, false, true⟩ else s
      (s.report slot { outcome := 1, mcs := 0, nbr := c.d.nbr, agc := 0, leadErr := 0, snr := 0, cfo := 0, iters := 0, failed := 0,
                       lead := 0, ncw := 0 }).nbrAbsent c.d.nbr

/-- A slot's crossing still searches for its lead. -/
def Crossing.searching (c : Crossing) : Bool := c.d.dir != 1 && !c.leadHeard && !c.searchEnded

/-- No lead by the end of the expected lead block 3 plus the search span: LEAD_MISS (R120, R174). -/
def State.leadMiss (s : State) (slot : Nat) : State :=
  match s.running slot with
  | none => s
  | some c =>
    if !c.searching then s
    else (s.reach ((s.expectedLead c.d c.b0 + 15) / 16 + 4 * s.blockTicks + (s.slot slot).search)).leadMissed slot c

/-! ### Headers (R122 to R125, R162, R166) -/

/-- Fields of the PHY field (Table 4.2). -/
def phyMcs (h : List Byte) : Nat := bits (ofBytes (h.take 3)) 3 0
def phyNcw (h : List Byte) : Nat := bits (ofBytes (h.take 3)) 12 4
def phyLast (h : List Byte) : Nat := bits (ofBytes (h.take 3)) 20 13

/-- The PHY field of a header. -/
def phyField (mcs ncw last : Nat) : List Byte :=
  let b := toBytes 3 (mcs % 16 + ncw % 512 * 16 + last % 256 * 2 ^ 13)
  b ++ toBytes 1 (phyCrc b)

/-- Both check values of a header hold (R124). -/
def headerCrcOk (h : List Byte) : Bool :=
  h.length == 28 && phyCrc (h.take 3) == ofBytes ((h.drop 3).take 1) && headerCrc ((h.drop 4).take 22) == ofBytes ((h.drop 26).take 2)

/-- The header is valid for a crossing of the given header blocks, 4 where its MCS is 0 (R123, R124). -/
def headerValid (heads : Nat) (h : List Byte) : Bool :=
  phyMcs h != 15 && ((phyMcs h == 0) == (heads == 4))
    && (if phyNcw h = 0 then phyLast h == 0 else 1 ≤ phyLast h && phyLast h ≤ mcsInfo (phyMcs h) / 8)

/-- The address check of R166 step 2. -/
def State.addrOk (s : State) (n : Nat) (h : List Byte) : Bool :=
  hdrSrc h == s.get (R.NBR_ADDR_short n) && (hdrDst h == s.get R.MAC_CFG_short || hdrDst h == 0xFFFF)

/-- The form check of R166 step 3. An acknowledgement-only frame is unicast and carries one block (R164, R165). -/
def State.formOk (s : State) (n : Nat) (h : List Byte) : Bool :=
  let type := hdrCtl h % 16
  type ≤ 1 && hdrCtl h / 16 % 16 == 1 && (hdrFlags h).testBit 4 == s.cipherBypass n && (hdrFlags h).testBit 5 == s.crcBypass n
    && (type == 0 || (hdrDst h != 0xFFFF && (hdrFlags h).testBit 3 && hdrLen h == 24))

/-! ### The codeword queue and the decoders (R130 to R132) -/

/-- The depth and peak of the codeword queue. -/
def State.queueDepth (s : State) : State :=
  let n := s.phy.queue.length
  (s.set R.PHY_POOL_STATUS_depth n).set R.PHY_POOL_STATUS_peak (max n (s.get R.PHY_POOL_STATUS_peak))

/-- Complete codewords of a frame enter the queue while it has room; none after the frame's first failure (R130, R132). -/
def State.enqueueFrame (s : State) (slot : Nat) (f : PhyFrame) : State :=
  let ready := min f.ncw ((f.blocks - f.heads) * mcsBlockBits f.mcs / 2048)
  let n := min (ready - f.queued) (64 - s.phy.queue.length)
  if !f.hdrDone || f.soft || f.failed != 0 || n = 0 then s
  else
    let new : List Codeword := (List.range n).map fun i => ⟨slot, f.crossing, f.queued + i, f.mcs, f.press, f.maxIter, 0, false⟩
    let s := { s with phy := { s.phy with queue := s.phy.queue ++ new } }
    (s.putRx slot { f with queued := f.queued + n }).queueDepth

/-- Every frame's complete codewords enter the queue, slot by slot. -/
def State.enqueueAll (s : State) : State := forAll 16 (fun n s => (s.slot n).rx.foldl (fun s f => s.enqueueFrame n f) s) s

/-! ### Pipes (R232, R236) -/

/-- Segments of 2 KiB that a received frame's plaintext takes (R236). -/
def PhyFrame.segs (f : PhyFrame) : Nat := (hdrLen f.hdr + 2047) / 2048

/-- Segments of a pipe's verify buffer that hold receive frames or are assigned to one. -/
def State.pipeUsed (s : State) (p : Nat) : Nat :=
  ((s.phy.waiting.filter fun (f : PipeFrame) => f.pipe == some p).map fun (f : PipeFrame) => f.segs).foldl (· + ·) 0 +
    ((List.range 16).flatMap fun k => ((s.slot k).rx.filter fun (f : PhyFrame) => f.pipe == some p).map PhyFrame.segs).foldl (· + ·) 0 +
  ((s.pipe p).frames.map fun (f : PipeFrame) => f.segs).foldl (· + ·) 0 +
    (List.range 64).foldl (fun a n => a + (((s.nbr n).rxQueue.filter fun (f : RxFrame) => f.pool.isNone && f.pipe == p).map
      fun (f : RxFrame) => f.segs).foldl (· + ·) 0) 0

/-- The lowest-numbered pipe with that many segments free (R232); without its clocks no pipe takes a frame (R302). -/
def State.pipeFor (s : State) (segs : Nat) : Option Nat :=
  (List.range 8).find? fun p => s.domRuns 12 && !(s.pipe p).inReset && s.pipeUsed p + segs ≤ 32

/-- An accepted receive frame is assigned to the lowest-numbered pipe whose free berths cover its whole plaintext; without one it waits (R232). -/
def State.assignPipe (s : State) (f : PhyFrame) : PhyFrame :=
  if f.soft || !s.addrOk f.nbr f.hdr || !s.formOk f.nbr f.hdr then f else { f with pipe := s.pipeFor f.segs }

/-- A frame has been decoded in full: OK; an accepted frame goes on to the pipes, any other to its counter (R132, R166). -/
def State.frameDecoded (s : State) (slot : Nat) (f : PhyFrame) : State :=
  let s := (s.report slot (f.report 0)).dropRx slot f.crossing
  if !s.addrOk f.nbr f.hdr then s.nbrStat f.nbr 6
  else if !s.formOk f.nbr f.hdr then s.nbrStat f.nbr 7
  else
    let timed := (hdrFlags f.hdr).testBit 4 && (hdrFlags f.hdr).testBit 5
    let g : PipeFrame := { rx := true, nbr := f.nbr, slot := slot, segs := f.segs, keySlot := none,
                           hdr := f.hdr, body := deliveredBytes f.mcs (hdrSeq f.hdr) f.ncw f.lastBytes f.words, lead := f.lead,
                           snr := f.snr, xid := f.xid, timed := timed, ok := none, pipe := f.pipe }
    { s with phy := { s.phy with waiting := s.phy.waiting ++ [g] } }.refreshVotes

/-- Soft blocks of a frame are written in order once the header is accepted; the last one ends the frame as SOFT (R141). -/
def State.softFlush (s : State) (slot : Nat) (f : PhyFrame) : Nat → List SoftBlock → State
  | _, [] => s.putRx slot f
  | k, b :: rest =>
    let total := f.heads + payloadBlocks f.mcs f.ncw
    let (s, f) := s.softWrite slot f k f.heads total b
    if k + 1 = total then
      let s := (s.report slot (f.report 6)).dropRx slot f.crossing
      if s.addrOk f.nbr f.hdr && s.formOk f.nbr f.hdr then s.nbrStat f.nbr 0
      else s.nbrStat f.nbr (if s.addrOk f.nbr f.hdr then 7 else 6)
    else s.softFlush slot f (k + 1) rest

/-- The header of a slot's oldest undecoded frame is decoded (R124, R133, R166, R174, R175). A header that fails the address check is not one from the
neighbour: the streak is kept (Table 5.10). The blocks left from the lead start to the end of the extent count whole blocks: a lead off the block grid
leaves its last part block out (R133; log 128). -/
def State.headerDecode (s : State) (slot : Nat) (h : List Byte) : State :=
  match (s.slot slot).rx.find? fun (f : PhyFrame) => !f.hdrDone with
  | none => s
  | some f =>
    if !headerCrcOk h then s.endRx slot f 2
    else
      let f := { f with hdrDone := true, mcs := phyMcs h, ncw := phyNcw h, lastBytes := phyLast h, hdr := h }
      if !headerValid f.heads h then s.endRx slot f 3
      else
        let s := s.putRx slot f
        let s := if s.addrOk f.nbr h then s.nbrHeard f.nbr else s
        if (16 * f.ends - f.lead) / (16 * s.blockTicks) < frameLength f + 1 then s.endRx slot f 4
        else if (match f.cut with | some t => decide (t < s.frameTick f (frameLength f)) | none => false) then s.endRx slot f 7
        else
          let alone := f.soft || (s.cipherBypass f.nbr && s.crcBypass f.nbr)
          let s := if s.addrOk f.nbr h && s.formOk f.nbr h && alone then s.timeSample f.nbr (hdrTime h) f.lead [] else s
          let f := s.assignPipe f
          let s := s.putRx slot f
          if f.soft then s.softFlush slot { f with softHeld := [] } 0 f.softHeld
          else if f.ncw = 0 then s.frameDecoded slot f
          else s.enqueueFrame slot f

/-- A received block of a slot finishes equalisation and demapping: it belongs to the oldest frame that still has blocks to come (R130, R135,
R141). -/
def State.blockEqualised (s : State) (slot : Nat) (b : SoftBlock) : State :=
  match (s.slot slot).rx.find? fun (f : PhyFrame) => !f.hdrDone || f.blocks < f.heads + payloadBlocks f.mcs f.ncw with
  | none => s
  | some f =>
    let k := f.blocks
    let f := { f with blocks := k + 1 }
    if f.soft then (if f.hdrDone then s.softFlush slot f k [b] else s.putRx slot { f with softHeld := f.softHeld ++ [b] })
    else (s.putRx slot f).enqueueFrame slot f

/-- A free decoder takes the oldest queued codeword and fixes its limit (R130, R131). -/
def State.decoderStart (s : State) (d : Nat) : State :=
  match vget s.phy.decoders d, s.phy.queue with
  | none, w :: rest =>
    if s.phy.decReset.testBit d || !s.domRuns 11 then s
    else
      let under := w.press < s.phy.queue.length
      let limit := if under then min w.maxIter (mcsLoadLimit s.bonded w.mcs) else w.maxIter
      let s := { s with phy := { s.phy with
        queue := rest, decoders := vset s.phy.decoders d (some { w with limit := limit, under := under }) } }
      s.queueDepth.enqueueAll
  | _, _ => s

/-- Some decoder or the queue still holds a codeword of a crossing's frame. -/
def State.decoding (s : State) (slot id : Nat) : Bool :=
  (List.range 16).any fun d => match vget s.phy.decoders d with | some w => w.slot == slot && w.crossing == id | none => false

/-- A decoder ends a codeword: decoded where every parity check holds within the limit, else failed (R130, R132). A frame with a failed codeword
ends CW_FAIL once no decoder holds one of its codewords. bits are the 2,048 hard decisions. -/
def State.codewordDecoded (s : State) (d iters : Nat) (word : List Bool) : State :=
  match vget s.phy.decoders d with
  | none => s
  | some w =>
    if !s.domRuns 11 then s else
    let n := min iters w.limit
    let s := { s with phy := { s.phy with decoders := vset s.phy.decoders d none } }
    let s := (s.pmc 0x063 d).pmcAt 0x064 d n none
    let s := if w.under then (s.bump R.PHY_POOL_STATUS_capped).pmc 0x065 d else s
    let m := mcsRows w.mcs
    let ok := iters ≤ w.limit && word.length == 2048 && ldpcChecks m (bitBlocks word 32)
    match (s.slot w.slot).rx.find? fun (f : PhyFrame) => f.crossing == w.crossing with
    | none => s
    | some f =>
      let info := bitsBytes (word.take (mcsInfo w.mcs))
      let f := { f with iters := max f.iters n, failed := if ok then f.failed else f.failed + 1,
                        words := if ok then f.words ++ [(w.index, info)] else f.words }
      let s := s.putRx w.slot f
      let s := if ok then s else s.dropCodewords w.slot w.crossing
      if f.failed != 0 then (if s.decoding w.slot w.crossing then s else s.endRx w.slot f 5)
      else if f.words.length = f.ncw then s.frameDecoded w.slot f
      else s

/-! ### Transmit (R126, R134) -/

/-- Codewords of a slot's transmit frame that the encoders hold. -/
def State.encodingOn (s : State) (slot : Nat) : Nat :=
  ((List.range 16).filter fun e => match vget s.phy.encoders e with | some w => w.1 == slot | none => false).length

/-- Free encoders take the next codewords of the transmit frames, lowest slot first. -/
def State.feedEncoders (s : State) : State :=
  forAll 16 (fun e s =>
    if (vget s.phy.encoders e).isSome || s.phy.encReset.testBit e || !s.domRuns 11 then s
    else
      match (List.range 16).find? fun n => match (s.slot n).tx with | some f => !f.hdr.isEmpty && f.encoded + s.encodingOn n < f.ncw | none => false with
      | none => s
      | some n =>
        let k := match (s.slot n).tx with | some f => f.encoded + s.encodingOn n | none => 0
        { s with phy := { s.phy with encoders := vset s.phy.encoders e (some (n, k)) } }) s

/-- An encoder finishes its codeword (R126, R127, R134). -/
def State.codewordEncoded (s : State) (e : Nat) : State :=
  match vget s.phy.encoders e with
  | none => s
  | some (slot, k) =>
    if !s.domRuns 11 then s else
    let s := { s with phy := { s.phy with encoders := vset s.phy.encoders e none } }
    match (s.slot slot).tx with
    | none => s.feedEncoders
    | some f =>
      let word := ldpcEncode (mcsRows f.mcs) (codewordInfo f.mcs f.seq f.ncw k f.body)
      let s := { s with phy := { s.phy with lastEncoded := word } }
      (s.updSlot slot fun x => { x with tx := some { f with encoded := f.encoded + 1 } }).feedEncoders

/-- The tick by which the information bits of the next codeword of a frame must be at the PHY: 256 ns before its first coded bit is due (R134). -/
def State.codewordDue (s : State) (slot : Nat) (f : PhyFrame) : Nat :=
  let k := f.encoded + s.encodingOn slot
  let cb := mcsBlockBits f.mcs
  let symbol := 64 + k * 2048 % cb * 448 / cb
  f.lead / 16 + (4 + f.heads + k * 2048 / cb) * s.blockTicks + symbol * s.blockTicks / 512 - 320

/-- A codeword of a slot's transmit frame is late: at its deadline its information bits are not at the PHY (R134). -/
def State.codewordLate (s : State) (slot : Nat) : State :=
  match (s.slot slot).tx with
  | some f => if f.ncw ≤ f.encoded + s.encodingOn slot then s else (s.reach (s.codewordDue slot f)).underrun slot
  | none => s

/-- A write to PHY_SOFT_BEAMS: more than four slots are refused with bad_mask (R140). -/
def State.softBeams (s : State) (v : Nat) : State :=
  if 4 < popcount 16 v then s.set R.PHY_SOFT_STATUS_bad_mask 1
  else ((s.set R.PHY_SOFT_BEAMS_slots (v % 65536)).softChanged s.softSlots).refreshFunc

/-- LEAD_DETECT (R120). -/
def execLeadDetect (slot : Fin 16) (m : LeadMeas) (s : State) : Out := .next (s.leadDetect slot.val m)
/-- LEAD_MISS (R120). -/
def execLeadMiss (slot : Fin 16) (s : State) : Out := .next (s.leadMiss slot.val)
/-- HEADER_DECODE (R124). -/
def execHeaderDecode (slot : Fin 16) (bytes : List Byte) (s : State) : Out := .next (s.headerDecode slot.val bytes)
/-- DECODER_START (R130). -/
def execDecoderStart (d : Fin 16) (s : State) : Out := .next (s.decoderStart d.val)
/-- CODEWORD_DECODED (R132). -/
def execCodewordDecoded (d : Fin 16) (iters : Nat) (bits : List Bool) (s : State) : Out := .next (s.codewordDecoded d.val iters bits)
/-- CODEWORD_ENCODED (R134). -/
def execCodewordEncoded (enc : Fin 16) (s : State) : Out := .next (s.codewordEncoded enc.val)
/-- BLOCK_EQUALISED (R135). -/
def execBlockEqualised (slot : Fin 16) (b : SoftBlock) (s : State) : Out := .next (s.blockEqualised slot.val b)
/-- TX_UNDERRUN (R134). -/
def execTxUnderrun (slot : Fin 16) (s : State) : Out := .next (s.codewordLate slot.val)

end Sys2Proof.Machine
end

