-- ==== Sys2Proof/Machine/Mac.lean ====
section
/-! DEFINITION. Machine/Mac.lean: cipher pipes, the frame check value, replay windows, acknowledgement, transmit frames and retry, neighbour
commits (R162 to R172, R181, R182, R231 to R248, R254 to R258, R364). -/

namespace Sys2Proof.Machine

open Sys2Proof

/-! ### Key invocations and masking (R237, R241, R247) -/

/-- The DRBG delivers n blocks. -/
def State.drbgDraw (s : State) (n : Nat) : State := { s with sec := { s.sec with drbg := (s.sec.drbg.generate n).2 } }

/-- One request to the DRBG for n blocks: the 65,536th since the last one begins to gather bits for a reseed (R245). -/
def State.drbgRequest (s : State) (n : Nat) : State :=
  let k := s.sec.requests + 1
  let s := { s with sec := { s.sec with requests := k % 65536, reseed := s.sec.reseed || k = 65536, bits := if k = 65536 then [] else s.sec.bits } }
  s.drbgDraw n

/-- The masking LFSR runs on by one draw (R247). -/
def State.lfsrDraw (s : State) : State := { s with sec := { s.sec with lfsr := (Config.lfsrRun (BitVec.ofNat 64 s.sec.lfsr)).toNat } }

/-- A draw of n blocks that is no request: from the DRBG once the RNG is READY, from the masking LFSR before (R245, R432; log 2). -/
def State.drawMask (s : State) (n : Nat) : State := if s.rngReady then s.drbgDraw n else s.lfsrDraw

/-- SEC_STATUS.reduced_masking: some pipe masks from the LFSR. -/
def State.refreshMasking (s : State) : State :=
  s.set R.SEC_STATUS_reduced_masking ((List.range 8).any fun p => (s.pipe p).lfsr).toNat

/-- A pipe begins a frame: countermeasure level and masking source as they now stand (R237, R247). A frame that runs with countermeasures, one that
passes the AES stage at a level above 0, draws its dummy key and shuffle seed (R245, R256, Table 7.4; log 38). -/
def State.pipeBegin (s : State) (p : Nat) (clear : Bool) : State :=
  let level := s.get R.SEC_POLICY_cm_level
  let s := s.updPipe p fun x => { x with lfsr := !s.rngReady, cmLevel := level }
  let s := if level = 0 || clear then s else if s.rngReady then s.drbgRequest Config.maskBlocks else s.lfsrDraw
  s.refreshMasking

/-- The secret part of a key slot. -/
def State.keySlot (s : State) (k : Nat) : Option KeySlot :=
  (s.sec.slots.find? fun (p : Nat × KeySlot) => p.1 == k).map fun (p : Nat × KeySlot) => p.2

/-- A GCM operation starts under slot k: its count rises, and the slot becomes WARNED or SPENT at its thresholds (R241, Table 7.5). -/
def State.invokeKey (s : State) (k : Nat) : State :=
  match s.keySlot k with
  | none => s
  | some key =>
    let c := key.count + 1
    let s := { s with sec := { s.sec with slots := s.sec.slots.map fun (p : Nat × KeySlot) => if p.1 = k then (k, { key with count := c }) else p } }
    let s := s.set (R.SEC_SLOT1_count k) (min c (2 ^ 32 - 1))
    let s := if c = key.warn && s.get (R.SEC_SLOT0_state k) = 1 then
        ((s.set (R.SEC_SLOT0_state k) 2).setBit (R.SEC_KEY_EVT_WARN_warn (k / 32)) (k % 32)).fire 96 else s
    if key.limit ≤ c then ((s.set (R.SEC_SLOT0_state k) 3).setBit (R.SEC_KEY_EVT_SPENT_spent (k / 32)) (k % 32)).fire 97 else s

/-! ### Pipes (R232, R236) -/

/-- The transmit crossing of a slot that has been checked and not ended. -/
def State.txCrossing (s : State) (slot : Nat) : Option Crossing := s.nextOn slot fun c => c.d.dir == 1 && c.checked

/-- A transmit frame of the slot is in a pipe. -/
def State.txPiped (s : State) (slot : Nat) : Bool := (List.range 8).any fun p => (s.pipe p).frames.any fun f => !f.rx && f.slot == slot

/-- The selected frame of a transmit crossing enters the lowest-numbered pipe with a free berth (R232). -/
def State.txPipe (s : State) (slot : Nat) : State :=
  match s.txCrossing slot, s.pipeFor 1 with
  | some c, some p =>
    if (c.txTag.isNone && !c.ackOnly) || s.txPiped slot then s
    else
      let n := c.d.nbr
      let k := s.txKeySlot n
      let clear := s.cipherBypass n
      if !clear && (!s.slotUsable n k || s.cipherHold) then
        (s.updCrossing c.id fun y => { y with txTag := none, ackOnly := false }).refreshSpent n false
      else
        let s := s.pipeBegin p clear
        let s := if clear then s else s.invokeKey k
        let f : PipeFrame := { rx := false, nbr := n, slot := slot, segs := 0, keySlot := if clear then none else some k, hdr := [], body := [],
                               lead := 16 * c.b0, snr := 0, xid := c.d.xid, timed := false, ok := none, pipe := none }
        ((s.updPipe p fun x => { x with frames := x.frames ++ [f] }).refreshSpent n false).refreshVotes
  | _, _ => s

/-- The oldest waiting receive frame of a slot enters the pipe assigned to it at its header, or else one with room for its whole plaintext; a selected
transmit frame goes first (R232). Where no usable slot matches its key_id it carries none. -/
def State.rxPipe (s : State) (slot : Nat) : State :=
  match s.phy.waiting.find? fun (f : PipeFrame) => f.slot == slot with
  | none => s
  | some f =>
    let txFirst := (List.range 16).any fun n => match s.txCrossing n with
      | some c => (c.txTag.isSome || c.ackOnly) && !s.txPiped n && (s.slot n).tx.isNone && !c.started | none => false
    let kept := f.pipe.filter fun p => s.domRuns 12 && !(s.pipe p).inReset
    match kept.or (s.pipeFor f.segs) with
    | none => s
    | some p =>
      if txFirst && kept.isNone then s
      else
        let clear := (hdrFlags f.hdr).testBit 4
        let k := if clear || s.cipherHold then none else (s.rxKeySlot f.nbr (hdrKey f.hdr)).filter fun k => s.slotUsable f.nbr k
        let s := { s with phy := { s.phy with waiting := s.phy.waiting.erase f } }
        let s := s.pipeBegin p clear
        let s := match k with | some k => s.invokeKey k | none => s
        let s := s.pmcAt 0x0A0 p ((hdrLen f.hdr + 15) / 16) none
        (s.updPipe p fun x => { x with frames := x.frames ++ [{ f with keySlot := k, pipe := none }] }).refreshSpent f.nbr false

/-- A 16- or 32-bit field most significant byte first. -/
def beBytes (n v : Nat) : List Byte := (toBytes n v).reverse

/-- The nonce of Table 7.3. -/
def nonce (salt seq src attempt keyId : Nat) (broadcast : Bool) : List Byte :=
  beBytes 4 salt ++ beBytes 4 seq ++ beBytes 2 src ++ beBytes 2 (broadcast.toNat * 32768 + attempt % 8 * 4096 + keyId % 256)

/-! ### Receiving (R166, R167, R170) -/

/-- A received frame's place against a replay window: 0 accepted, 1 duplicate, 2 stale, with H and the map as they then stand (R167). -/
def replayCheck (seq h map : Nat) (seen : Bool) : Nat × Nat × Nat :=
  if !seen then (0, seq, 1)
  else
    let d := signed 32 (unsigned 32 ((seq : Int) - h))
    if 0 < d then (0, seq, if d < 64 then map * 2 ^ d.toNat % 2 ^ 64 ||| 1 else 1)
    else if -64 < d then (if map.testBit (-d).toNat then (1, h, map) else (0, h, map ||| 2 ^ (-d).toNat))
    else (2, h, map)

/-- An acknowledgement block settles the frames sent to a neighbour (R170). A frame at its retry limit waits for its last deadline (R171). -/
def State.ackSettle (s : State) (n : Nat) (block : List Byte) : State :=
  (s.nbr n).frames.foldl (fun s f =>
    match f.seq with
    | none => s
    | some q =>
      let d := (ackHigh block + 2 ^ 32 - q % 2 ^ 32) % 2 ^ 32
      if f.attempts = 0 || 63 < d then s
      else if (ackMap block).testBit d then (s.nbrStat n 8).finishFrame n f.tag .ok 0
      else if d = 0 || s.atLimit n f then s
      else s.frameToRetry n f.tag) s

/-- A verified frame is released: replay check, acknowledgement block, landing (R166 steps 6 to 8, R165, Table 5.10). -/
def State.acceptFrame (s : State) (p : Nat) (f : PipeFrame) : State :=
  let n := f.nbr
  let seq := hdrSeq f.hdr
  let bc := hdrDst f.hdr == 0xFFFF
  let ackOnly := hdrCtl f.hdr % 16 == 1
  let block := if (hdrFlags f.hdr).testBit 3 && 24 ≤ f.body.length then f.body.take 24 else []
  let h := if bc then s.get (R.NBR_BC_HIGH_h n) else s.get (R.NBR_RX_HIGH_h n)
  let map := if bc then s.get2 (R.NBR_BC_MAP_map n) else s.get2 (R.NBR_RX_MAP_map n)
  let seen := if bc then map != 0 else s.on (R.NBR_LIVE_rx_any n)
  let r := replayCheck seq h map seen
  if r.1 = 2 then s.nbrStat n 2
  else if r.1 = 1 then
    let s := (s.nbrStat n 1).pmc 0x081 n
    if bc || ackOnly then s else s.set (R.NBR_LIVE_ack_owed n) 1
  else
    let s := if block.isEmpty then s else s.ackSettle n block
    let g : RxFrame := { cls := hdrCtl f.hdr / 256 % 8, seq := seq, lead := f.lead, snr := f.snr, synced := (hdrFlags f.hdr).testBit 6,
                         broadcast := bc, data := if (hdrFlags f.hdr).testBit 3 then f.body.drop 24 else f.body, pool := none,
                         pipe := p, segs := f.segs }
    let (s, kept) := if ackOnly then (s, true) else s.holdFrame n g
    if !kept then s.nbrStat n 5
    else
      let s := if bc then (s.set (R.NBR_BC_HIGH_h n) r.2.1).set2 (R.NBR_BC_MAP_map n) r.2.2
        else ((s.set (R.NBR_RX_HIGH_h n) r.2.1).set2 (R.NBR_RX_MAP_map n) r.2.2).set (R.NBR_LIVE_rx_any n) 1
      let s := if bc || ackOnly then s else s.set (R.NBR_LIVE_ack_owed n) 1
      let s := s.updNbr n fun x => { x with ackSeq := seq, ackTime := f.lead }
      (s.nbrStat n 0).pmc 0x080 n

/-- Receive frames of a neighbour that are waiting for a pipe or in one, as (lead, pipe, frame); 8 stands for none. -/
def State.rxFramesOf (s : State) (n : Nat) : List (Nat × PipeFrame) :=
  (s.phy.waiting.filter fun (f : PipeFrame) => f.nbr == n).map (fun f => (8, f)) ++
    (List.range 8).flatMap fun p => ((s.pipe p).frames.filter fun (f : PipeFrame) => f.rx && f.nbr == n).map fun f => (p, f)

/-- A frame of a neighbour's whose lead came before is still with the PHY (R18, R232). Frames exported as soft symbols never come to a landing. -/
def State.aheadInPhy (s : State) (n lead : Nat) : Bool :=
  (List.range 16).any fun k => (s.slot k).rx.any fun (f : PhyFrame) => f.nbr == n && !f.soft && f.lead < lead

/-- Frames of a neighbour are released in air order: the oldest goes while it is verified and no earlier one is still to come (R18, R232). -/
def State.releaseFrames (s : State) (n : Nat) : Nat → State
  | 0 => s
  | k + 1 =>
    let oldest := (s.rxFramesOf n).foldl (fun best (x : Nat × PipeFrame) =>
      match best with | none => some x | some (b : Nat × PipeFrame) => if x.2.lead < b.2.lead then some x else some b) none
    match oldest with
    | some (p, f) =>
      if s.aheadInPhy n f.lead then s
      else match f.ok with
      | none => s
      | some good =>
        let s := s.updPipe p fun x => { x with frames := x.frames.erase f }
        let s := if good then s.acceptFrame p f else s
        s.releaseFrames n k
    | none => s

/-- A pipe's oldest unverified receive frame reaches its tag: check value, tag, time sample, then every frame of the neighbour that may be released
(R166, R175, R236, R257). -/
def State.tagVerified (s : State) (p : Nat) : State :=
  match (s.pipe p).frames.find? fun (f : PipeFrame) => f.rx && f.ok.isNone && s.domRuns 12 with
  | none => s
  | some f =>
    let n := f.nbr
    let h := f.hdr
    let clear := (hdrFlags h).testBit 4
    let nocrc := (hdrFlags h).testBit 5
    let len := hdrLen h
    let ct := f.body.take len
    let tag := if clear then [] else (f.body.drop len).take 16
    let crcOk := nocrc || ((f.body.drop (len + tag.length)).take 4).length == 4 &&
      ofBytes ((f.body.drop (len + tag.length)).take 4) == frameCheck (hdrDst h) (hdrSrc h) (hdrSeq h) f.xid (ct ++ tag)
    let key := match f.keySlot with | some k => s.keySlot k | none => none
    let iv (salt : Nat) : List Byte := nonce salt (hdrSeq h) (hdrSrc h) (hdrFlags h) (hdrKey h) (hdrDst h == 0xFFFF)
    let tagOk := clear || match key with
      | some k => gcmTag k.key (iv k.salt) (h.drop 4) ct == tag
      | none => false
    let plain := if clear then ct else match key with
      | some k => gcmText k.key (iv k.salt) ct
      | none => []
    let good := crcOk && tagOk
    let mark (b : Bool) (body : List Byte) (s : State) : State := s.updPipe p fun x => { x with
      frames := x.frames.map fun (g : PipeFrame) => if g == f then { f with ok := some b, body := body } else g }
    let s := if good then
        let block := if (hdrFlags h).testBit 3 && 24 ≤ plain.length then plain.take 24 else []
        let s := mark true plain s
        if f.timed then s.propSample n (hdrTime h) f.lead block else s.timeSample n (hdrTime h) f.lead block
      else
        let s := (mark false [] s).pmc 0x0A1 p
        if crcOk then s.nbrStat n 3
        else ((s.bump (R.CRC_INL_FAIL_count p)).fire 112).nbrStat n 4
    ((s.releaseFrames n 256).refreshVotes).nbrPoke n

/-! ### Transmitting (R162 to R171) -/

/-- The last tick at which a transmission of a frame may start, after its horizon began (R171). -/
def sendSpan : Nat := 10485760

/-- Bytes that follow a payload on the air: tag and check value (R126). -/
def State.frameExtra (s : State) (n : Nat) : Nat := (if s.cipherBypass n then 0 else 16) + (if s.crcBypass n then 0 else 4)

/-- A broadcast entry (R165). -/
def State.isBroadcast (s : State) (n : Nat) : Bool := s.get (R.NBR_ADDR_short n) == 0xFFFF

/-- A payload of len bytes fits a crossing: F + 1 blocks within its length (R168). -/
def State.frameFits (s : State) (c : Crossing) (len : Nat) : Bool :=
  frameBlocks c.d.mcs (splitPayload c.d.mcs (len + s.frameExtra c.d.nbr)).1 + 1 ≤ c.d.blocks

/-- Bytes of the acknowledgement block that a data frame to a neighbour carries (R165, R169). -/
def State.ackLen (s : State) (n : Nat) : Nat := if s.isBroadcast n then 0 else 24

/-- Bytes of the acknowledgement block that the choice of a frame counts: one where an acknowledgement is owed (R168; log 21). -/
def State.ackFit (s : State) (n : Nat) : Nat := if s.on (R.NBR_LIVE_ack_owed n) then s.ackLen n else 0

/-- The frame is chosen for another crossing or on the air. -/
def State.frameBusy (s : State) (n tag : Nat) : Bool := s.xng.fetched.any fun c => c.d.nbr == n && c.txTag == some tag

/-- What the MAC chooses for a transmit crossing: a frame's tag, or an acknowledgement-only frame; and whether a new frame did not fit (R168, R169,
R171, Table 5.2). -/
def State.chooseFrame (s : State) (c : Crossing) : Option Nat × Bool × Bool :=
  let n := c.d.nbr
  let ack := s.ackFit n
  let free := (s.nbr n).frames.filter fun (f : TxFrame) => !s.frameBusy n f.tag
  let fits (f : TxFrame) : Bool := s.frameFits c (f.data.length + ack)
  let inTime (f : TxFrame) : Bool := c.b0 ≤ f.horizon + sendSpan
  let retry := if c.d.rclass = 0 || c.d.rclass = 2 then
      free.find? fun (f : TxFrame) => f.phase == .awaitRetry && !s.atLimit n f && inTime f && fits f else none
  let new := if c.d.rclass = 0 || c.d.rclass = 1 then free.find? fun (f : TxFrame) => f.phase == .fresh else none
  match retry, new with
  | some f, _ => (some f.tag, false, false)
  | none, some f =>
    if fits f && inTime f then (some f.tag, false, false)
    else (none, !s.isBroadcast n && s.on (R.NBR_LIVE_ack_owed n) && s.frameFits c 24, !fits f)
  | none, none => (none, !s.isBroadcast n && s.on (R.NBR_LIVE_ack_owed n) && s.frameFits c 24, false)

/-- The acknowledgement block for a neighbour as it now stands (Table 5.9). -/
def State.ackBlock (s : State) (n : Nat) : List Byte :=
  let any := s.on (R.NBR_LIVE_rx_any n)
  toBytes 4 (if any then s.get (R.NBR_RX_HIGH_h n) else 0) ++ toBytes 8 (if any then s.get2 (R.NBR_RX_MAP_map n) else 0)
    ++ toBytes 4 (s.nbr n).ackSeq ++ toBytes 8 (s.nbr n).ackTime

/-- The MAC header of Table 5.7. -/
def macHeader (ctl dst src seq time len keyId flags : Nat) : List Byte :=
  let h := toBytes 2 ctl ++ toBytes 2 dst ++ toBytes 2 src ++ toBytes 4 seq ++ toBytes 8 time ++ toBytes 2 len ++ toBytes 1 keyId ++ toBytes 1 flags
  h ++ toBytes 2 (headerCrc h)

/-- The frame as sent: header, and what follows it on the air (R126, R162 to R165, R169, R233, R234, R254, R256). data is none for an
acknowledgement-only frame; key_id is 0 for a frame in cipher bypass (log 22). -/
def State.buildFrame (s : State) (n seq attempt b0 xid : Nat) (data : Option (Nat × List Byte)) (key : Option Nat) : List Byte × List Byte :=
  let bc := s.isBroadcast n
  let clear := s.cipherBypass n
  let nocrc := s.crcBypass n
  let dst := if bc then 0xFFFF else s.get (R.NBR_ADDR_short n)
  let src := s.get R.MAC_CFG_short
  let plain := (if bc then [] else s.ackBlock n) ++ (match data with | some d => d.2 | none => [])
  let keyId := match key with | some k => s.get (R.SEC_SLOT0_key_id k) | none => 0
  let flags := attempt % 8 + (!bc).toNat * 8 + clear.toNat * 16 + nocrc.toNat * 32 + s.get R.MAC_TIME_STATUS_locked * 64
  let mac := macHeader ((match data with | some d => d.1 % 8 * 256 | none => 1) + 16) dst src seq b0 plain.length keyId flags
  let sealed := match key.bind s.keySlot with
    | some k =>
      let iv := nonce k.salt seq src attempt keyId bc
      gcmText k.key iv plain ++ gcmTag k.key iv mac (gcmText k.key iv plain)
    | none => plain
  (mac, if nocrc then sealed else sealed ++ toBytes 4 (frameCheck dst src seq xid sealed))

/-- A slot's transmit frame leaves its pipe. -/
def State.leavePipe (s : State) (slot : Nat) : State :=
  forAll 8 (fun p s => s.updPipe p fun (y : Pipe) => { y with frames := y.frames.filter fun (f : PipeFrame) => f.rx || f.slot != slot }) s

/-- The frame that a transmit crossing has chosen, still held. -/
def State.chosenFrame (s : State) (c : Crossing) : Option TxFrame :=
  match c.txTag with
  | some t => (s.nbr c.d.nbr).frames.find? fun (f : TxFrame) => f.tag == t
  | none => none

/-- The PHY's frame of a transmit crossing before its lead starts. -/
def State.txFrameOf (s : State) (c : Crossing) : PhyFrame :=
  let frame := s.chosenFrame c
  let len := match frame with | some f => f.data.length + s.ackLen c.d.nbr | none => 24
  let split := splitPayload c.d.mcs (len + s.frameExtra c.d.nbr)
  { nbr := c.d.nbr, crossing := c.id, heads := headerBlocks c.d.mcs, ends := c.ends, xid := c.d.xid, cut := none,
    lead := 16 * c.b0, leadErr := 0, broadcast := s.isBroadcast c.d.nbr, cfo := 0, snr := 0, agc := 0, press := 0, maxIter := 0, hdrDone := true,
    mcs := c.d.mcs, ncw := split.1, lastBytes := split.2, hdr := [], blocks := 0, queued := 0, words := [],
    failed := 0, iters := 0, soft := false, softTrunc := false, softHeld := [], softDesc := none, encoded := 0,
    body := [], tag := c.txTag.getD 0, seq := 0, ackOnly := frame.isNone, pipe := none }

/-- A sequence for a frame that starts now: the one it has, or tx_next, which then rises (R169). -/
def State.takeSeq (s : State) (n : Nat) (frame : Option TxFrame) : State × Nat :=
  match frame.bind fun (f : TxFrame) => f.seq with
  | some q => (s, q)
  | none =>
    let q := s.get (R.NBR_TX_NEXT_seq n)
    (s.set (R.NBR_TX_NEXT_seq n) ((q + 1) % 2 ^ 32), q)

/-- A transmit crossing's frame starts: it is built with its sequence, the acknowledgement block of this moment and its check values; a block clears
ack_owed (R134, R169; log 129). -/
def State.txBuild (s : State) (c : Crossing) : State :=
  match (s.slot c.d.slot).tx, (List.range 8).findSome? fun p => (s.pipe p).frames.find? fun (f : PipeFrame) => !f.rx && f.slot == c.d.slot with
  | some x, some g =>
    if !x.hdr.isEmpty then s
    else
      let n := c.d.nbr
      let frame := s.chosenFrame c
      let attempt := match frame with | some f => f.attempts | none => 0
      let q := s.takeSeq n frame
      let built := s.buildFrame n q.2 attempt c.b0 c.d.xid (frame.map fun (f : TxFrame) => (f.cls, f.data)) g.keySlot
      let s := match c.txTag with
        | some t => q.1.updNbr n fun x => { x with frames := x.frames.map fun (y : TxFrame) => if y.tag = t then { y with seq := some q.2 } else y }
        | none => q.1
      let s := if s.isBroadcast n then s else s.set (R.NBR_LIVE_ack_owed n) 0
      let s := (s.set (R.NBR_LAST_TX_SEQ_seq n) q.2).set2 (R.NBR_LAST_TX_LEAD_ticks n) c.b0
      let s := s.updSlot c.d.slot fun y => { y with
        tx := some { x with hdr := phyField c.d.mcs x.ncw x.lastBytes ++ built.1, body := built.2, seq := q.2 } }
      s.feedEncoders
  | _, _ => s

/-- At L − 640 ns the PHY starts building a frame's lead, or refuses a frame that does not fit its crossing (R134). A refused frame's report names what
would have been sent: its scheme, its codewords and the lead start (R138; log 130). -/
def State.txLeadStart (s : State) (slot : Nat) : State :=
  match s.txCrossing slot with
  | some c =>
    let s := s.reach (c.b0 - 800)
    if (s.slot slot).tx.isSome || !s.txPiped slot then s
    else if (s.chosenFrame c).isNone && !c.ackOnly then ((s.leavePipe slot).refreshVotes).nbrPoke c.d.nbr
    else
      let f := s.txFrameOf c
      if c.d.mcs = 15 || c.d.blocks < frameBlocks c.d.mcs f.ncw + 1 then
        let s := s.report slot (f.report 10)
        let s := s.updCrossing c.id fun y => { y with txTag := none, ackOnly := false }
        ((s.leavePipe slot).refreshVotes).nbrPoke c.d.nbr
      else
        let s := s.updSlot slot fun x => { x with tx := some f }
        if c.started then s.txBuild c else s
  | none => s

/-- A block boundary closes the last block of a transmit frame whose codewords are all encoded: it was sent in full (R115, R138). -/
def State.txFinish (s : State) (slot : Nat) : State :=
  match (s.slot slot).tx with
  | none => s
  | some f =>
    if f.hdr.isEmpty || f.encoded < f.ncw || s.now < f.lead / 16 + frameLength f * s.blockTicks then s
    else ((s.txEnd slot f true (frameLength f)).refreshVotes).nbrPoke f.nbr

/-- Deadlines that a receive crossing's end has brought: every frame whose transmission ended before that crossing started awaits retry, or fails
with LIMIT after its last attempt (R170, R171). -/
def State.ackDeadline (s : State) (n : Nat) : State :=
  (s.nbr n).frames.foldl (fun s f =>
    if f.attempts = 0 || (s.nbr n).lastRxStart < f.lastTxEnd then s
    else if s.atLimit n f then s.finishFrame n f.tag .failedRetry 1
    else if f.phase = .sent then s.frameToRetry n f.tag else s) s

/-- A frame's horizon passes: 0.5 ms after its last allowed transmission it fails with HORIZON (R171). -/
def State.horizonExpiry (s : State) (n tag : Nat) : State :=
  match (s.nbr n).frames.find? (·.tag == tag) with
  | none => s
  | some f => (s.reach (f.horizon + sendSpan + 625000)).finishFrame n tag .failedRetry 2

/-- Remember a descriptor's tag among the last 64 (R364). -/
def State.rememberTag (s : State) (n tag : Nat) (st : Option (Nat × Nat)) : State :=
  s.updNbr n fun x => { x with tags := ((x.tags.filter fun (p : Nat × Option (Nat × Nat)) => p.1 != tag) ++ [(tag, st)]).reverse.take 64 |>.reverse }

/-- The next descriptor of a transmit landing is read (R168, R364, R172). -/
def State.txDescriptor (s : State) (n : Nat) (d : TxDesc) : State :=
  if !s.hears hostLink || s.ringPosted n = 0 || 64 ≤ (s.nbr n).frames.length then s
  else
    let index := s.ringHead n
    let s := s.ringTake n 1
    let entry (st : Status) (reason : Nat) : RingEntry := txEntry n d.tag index 0 reason st
    if (s.nbr n).cancelAhead.contains d.tag then
      (s.updNbr n fun x => { x with cancelAhead := x.cancelAhead.erase d.tag }).postEntry (entry .cancelled 0)
    else
      match if d.once then (s.nbr n).tags.find? fun (p : Nat × Option (Nat × Nat)) => p.1 == d.tag else none with
      | some (_, some (st, reason)) => s.postEntry { entry .ok reason with status := st }
      | some (_, none) => s.updNbr n fun x => { x with
          frames := x.frames.map fun (f : TxFrame) => if f.tag = d.tag then { f with twins := f.twins ++ [index] } else f }
      | none =>
        let refused := d.nbr != n || 32768 < d.len || d.cipherBypass != s.cipherBypass n || d.crcBypass != s.crcBypass n
        if refused then (s.rememberTag n d.tag (some (Status.denied.code, 0))).postEntry (entry .denied 0)
        else if d.read != .ok then (s.rememberTag n d.tag (some (d.read.code, 0))).postEntry (entry d.read 0)
        else
          let now := s.now
          let f : TxFrame := { tag := d.tag, index := index, cls := d.cls % 8, once := d.once,
                               data := (d.data ++ List.replicate d.len 0).take d.len, horizon := now, seq := none, attempts := 0,
                               phase := .fresh, lastTxEnd := 0, twins := [] }
          let s := (s.rememberTag n d.tag none).updNbr n fun x => { x with frames := x.frames ++ [f] }
          s.set (R.NBR_LIVE_held n) (s.nbr n).frames.length

/-! ### Neighbour commits (R181, R182) -/

/-- Prop and prop_valid as the seed gives them. -/
def State.propFromSeed (s : State) (n : Nat) : State :=
  let v := s.get (R.NBR_SEED_seed_valid n)
  (s.set (R.NBR_PROP_prop n) (if v = 1 then s.get (R.NBR_SEED_prop_seed n) else 0)).set (R.NBR_PROP_prop_valid n) v

/-- The live state of an entry starts over, without its frames (R181, R336). -/
def State.nbrClear (s : State) (n : Nat) : State :=
  let s := { s with regs := s.regs.filter fun (c : RegKey × Nat) =>
    !((R.NBR_LIVE_held 0).row ≤ c.1.row && c.1.row < (R.NBR_REF_swatch 0 0).row && c.1.own == n) }
  let s := s.updNbr n fun x => { x with ackSeq := 0, ackTime := 0, propSampled := false, poisoned := false }
  let s := (s.set (R.NBR_LIVE_state n) (if s.on (R.NBR_CFG_enabled n) then 1 else 0)).set (R.NBR_TX_NEXT_seq n) 1
  s.propFromSeed n

/-- The entry is reinitialised by a commit: its unfinished frames fail with RESET (R181). -/
def State.nbrReinit (s : State) (n : Nat) : State :=
  ((s.nbr n).frames.foldl (fun s f => s.finishFrame n f.tag .failedRetry 3) s).nbrClear n

/-- The shadow configuration of an entry becomes its live one. -/
def State.copyShadow (s : State) (n : Nat) : State :=
  let s := (s.set (R.NBR_NODE_LO_node_id_lo n) (s.get (R.SH_NODE_LO_node_id_lo n))).set (R.NBR_ADDR_short n) (s.get (R.SH_ADDR_short n))
  let s := (s.set (R.NBR_ADDR_node_id_hi n) (s.get (R.SH_ADDR_node_id_hi n))).set (R.NBR_CFG_rx_next_ok n) (s.get (R.SH_CFG_rx_next_ok n))
  let s := (s.set (R.NBR_CFG_tx_key_next n) (s.get (R.SH_CFG_tx_key_next n))).set (R.NBR_CFG_cipher_mode n) (s.get (R.SH_CFG_cipher_mode n))
  let s := (s.set (R.NBR_CFG_lost_after n) (s.get (R.SH_CFG_lost_after n))).set (R.NBR_CFG_retry_limit n) (s.get (R.SH_CFG_retry_limit n))
  let s := (s.set (R.NBR_CFG_tx_when_lost n) (s.get (R.SH_CFG_tx_when_lost n))).set (R.NBR_CFG_crc_bypass n) (s.get (R.SH_CFG_crc_bypass n))
  let s := (s.set (R.NBR_CFG_cipher_bypass n) (s.get (R.SH_CFG_cipher_bypass n))).set (R.NBR_CFG_enabled n) (s.get (R.SH_CFG_enabled n))
  (s.set (R.NBR_SEED_seed_valid n) (s.get (R.SH_SEED_seed_valid n))).set (R.NBR_SEED_prop_seed n) (s.get (R.SH_SEED_prop_seed n))

/-- Addresses of the live entry and of the shadow of neighbour n (R181). -/
def nbrAddr (n : Nat) : Nat := 0x1000000 + 256 * n
def shadowAddr (n : Nat) : Nat := 0x1004000 + 64 * n

/-- Mesh time has come to a window boundary, where it does not stand at one: the next. -/
def State.toWindow (s : State) : State := s.reach ((s.now + windowTicks - 1) / windowTicks * windowTicks)

/-- At a window boundary at which the neighbour is idle its shadow is copied to live, at the first after the commit at the earliest (R182). A poisoned
shadow copies nothing (Table 14.6). -/
def State.neighbourCopy (s : State) (n : Nat) : State :=
  if !(s.nbr n).copyWait || !s.nbrIdle n || !s.hubUp then s
  else
    let s := (s.reach (s.nbr n).copyFrom).toWindow
    let s := s.updNbr n fun x => { x with copyWait := false }
    let s := if s.poisonedIn (shadowAddr n) 64 then s.hitPoison (shadowAddr n) 64
      else
        let changed := s.get (R.NBR_NODE_LO_node_id_lo n) != s.get (R.SH_NODE_LO_node_id_lo n)
          || s.get (R.NBR_ADDR_short n) != s.get (R.SH_ADDR_short n) || s.get (R.NBR_ADDR_node_id_hi n) != s.get (R.SH_ADDR_node_id_hi n)
          || (!s.on (R.NBR_CFG_enabled n) && s.on (R.SH_CFG_enabled n))
        let s := s.copyShadow n
        let s := if changed then s.nbrReinit n else if (s.nbr n).propSampled then s else s.propFromSeed n
        let s := if s.on (R.NBR_CFG_enabled n) then s else s.set (R.NBR_LIVE_state n) 0
        (s.refreshSpent n true).refreshFunc
    if (List.range 64).any fun k => (s.nbr k).copyWait then s else (s.set R.MAC_NBR_COMMIT_pending 0).fire 72

/-- The marked neighbours' copies are scheduled from a window boundary on; with none marked nothing happens (R182). -/
def State.nbrCommit (s : State) (first : Nat) : State :=
  let marked (n : Nat) : Bool := s.bit (R.MAC_NBR_SEL_nbrs (n / 32)) (n % 32)
  if !(List.range 64).any marked then s
  else (forAll 64 (fun n s => if marked n then s.updNbr n fun x => { x with copyWait := true, copyFrom := first } else s) s).set R.MAC_NBR_COMMIT_pending 1

/-- A CANCEL names a transmit descriptor's tag (R172, R358): the frame is withdrawn, or the tag is noted for its reading; the answer is the CANCEL's
own status. -/
def State.cancelFrame (s : State) (n tag : Nat) : State × Status :=
  if (s.nbr n).frames.any (·.tag == tag) then ((s.finishFrame n tag .cancelled 0), .cancelled)
  else if (s.nbr n).tags.any fun (p : Nat × Option (Nat × Nat)) => p.1 == tag then (s, .alreadyComplete)
  else if s.ringPosted n != 0 then
    (s.updNbr n fun x => { x with cancelAhead := insertRising tag x.cancelAhead }, .cancelled)
  else (s, .alreadyComplete)

/-- RX_FRAME_LANDING (R16): verified frames that wait for an earlier one of their neighbour go first. -/
def execRxFrameLanding (n : Fin 64) (descs : List LandDesc) (s : State) : Out := .next ((s.releaseFrames n.val 256).landFrame n.val descs)
/-- PIPE_ENTRY (R232). -/
def execPipeEntry (rx : Bool) (slot : Fin 16) (s : State) : Out := .next (if rx then s.rxPipe slot.val else s.txPipe slot.val)
/-- TAG_VERIFIED (R236). -/
def execTagVerified (p : Fin 8) (s : State) : Out := .next (s.tagVerified p.val)
/-- TX_LEAD_START (R134). -/
def execTxLeadStart (slot : Fin 16) (s : State) : Out := .next (s.txLeadStart slot.val)
/-- ACK_DEADLINE (R170). -/
def execAckDeadline (n : Fin 64) (s : State) : Out := .next (s.ackDeadline n.val)
/-- HORIZON_EXPIRY (R171). -/
def execHorizonExpiry (n : Fin 64) (tag : Nat) (s : State) : Out := .next (s.horizonExpiry n.val tag)
/-- TX_DESCRIPTOR_READ (R168). -/
def execTxDescriptorRead (n : Fin 64) (desc : TxDesc) (s : State) : Out := .next (s.txDescriptor n.val desc)
/-- NEIGHBOUR_COPY (R182). -/
def execNeighbourCopy (n : Fin 64) (s : State) : Out := .next (s.neighbourCopy n.val)

end Sys2Proof.Machine
end

