-- ==== Sys2Proof/Machine/Sec.lean ====
section
/-! DEFINITION. Machine/Sec.lean: key store commands, zeroisation, entropy source and DRBG, OTP programming (chapter 7, R230, R238 to R252).
Keel ownership is checked where an access is made, in Machine/Device.lean. -/

namespace Sys2Proof.Machine

open Sys2Proof

/-- Return every field of some rows of the register tables to its reset value. -/
def State.clearRows (s : State) (lo hi : Nat) : State :=
  { s with regs := s.regs.filter fun (p : RegKey × Nat) => !(lo ≤ p.1.row && p.1.row ≤ hi) }

/-! ### Key store (R238 to R241) -/

/-- The slot can be selected now for its neighbour: the transmit slot in use, or a receive candidate (R240). -/
def State.slotSelectable (s : State) (k : Nat) : Bool := s.txKeySlot (k / 4) == k || (s.rxKeySlots (k / 4)).contains k

/-- The key staged in SEC_KEY_DATA: 16 or 32 bytes, byte i in word i div 4 (R239). -/
def State.stagedKey (s : State) (len256 : Bool) : List Byte :=
  (List.range (if len256 then 8 else 4)).flatMap fun i => toBytes 4 (s.get (R.SEC_KEY_DATA_key i))

/-- A command of SEC_KEY_CMD is refused with BUSY while one waits (R239). -/
def State.keyBusy (s : State) : Bool := s.on R.SEC_KEY_STATUS_busy

/-- LOAD: into a slot that holds a key and is selectable it ends IN_USE; otherwise it stages the key and zeroes the data registers (R239). -/
def State.keyLoad (s : State) (k : Nat) (len256 : Bool) : State :=
  if s.slotHolds k && s.slotSelectable k then s.set R.SEC_KEY_STATUS_result 1
  else
    let key : KeySlot :=
      { key := s.stagedKey len256, salt := s.get R.SEC_KEY_SALT_salt, limit := s.get R.SEC_KEY_LIMIT_limit_m1 + 1,
        warn := s.get R.SEC_KEY_WARN_warn, count := 0 }
    let s := { s with sec := { s.sec with staged := some (k, some (key, s.get R.SEC_KEY_CMD_ID_key_id, len256)) } }
    ((forAll 8 (fun i s => s.set (R.SEC_KEY_DATA_key i) 0) s).set R.SEC_KEY_SALT_salt 0).set R.SEC_KEY_STATUS_busy 1

/-- ERASE is always accepted, and stages the zeroing of the slot (R239). -/
def State.keyErase (s : State) (k : Nat) : State :=
  { s with sec := { s.sec with staged := some (k, none) } }.set R.SEC_KEY_STATUS_busy 1

/-- A write to SEC_KEY_CMD (R239). -/
def State.keyCommand (s : State) (data : Nat) : State × Status :=
  if s.keyBusy then (s, .busy)
  else
    match bits data 17 16 with
    | 1 => (s.keyLoad (bits data 7 0) (data.testBit 15), .ok)
    | 2 => (s.keyErase (bits data 7 0), .ok)
    | _ => (s.set R.SEC_KEY_STATUS_result 2, .ok)

/-- Slot registers of an EMPTY slot. -/
def State.emptySlot (s : State) (k : Nat) : State :=
  { ((((s.set (R.SEC_SLOT0_len256 k) 0).set (R.SEC_SLOT0_state k) 0).set (R.SEC_SLOT0_key_id k) 0).set (R.SEC_SLOT1_count k) 0) with
    sec := { s.sec with slots := s.sec.slots.filter fun (p : Nat × KeySlot) => p.1 != k } }

/-- The staged command takes effect at the neighbour's idle instant; busy clears with result OK (R239, Table 7.5). -/
def State.keyApply (s : State) : State :=
  match s.sec.staged with
  | none => s
  | some (k, load) =>
    if !s.nbrIdle (k / 4) then s
    else
      let s := s.emptySlot k
      let s := match load with
        | none => s
        | some (key, id, len256) =>
          let s := { s with sec := { s.sec with slots := s.sec.slots ++ [(k, key)] } }
          ((s.set (R.SEC_SLOT0_state k) 1).set (R.SEC_SLOT0_key_id k) id).set (R.SEC_SLOT0_len256 k) len256.toNat
      let s := { s with sec := { s.sec with staged := none } }
      (((s.set R.SEC_KEY_STATUS_busy 0).set R.SEC_KEY_STATUS_result 0).fire 101).refreshSpent (k / 4) true

/-! ### Entropy source and DRBG (R243 to R248) -/

/-- The RNG changes state: the hold of R248 follows it. -/
def State.setRng (s : State) (v : Nat) : State := (s.set R.SEC_STATUS_rng v).refreshHold

/-- The source starts: bits and health tests begin anew, and an RNG that was OFF is NOT_READY (R243, Table 7.6). -/
def State.sourceStart (s : State) : State :=
  let s := { s with sec := { s.sec with source := true, bits := [], run := 0, window := 0, ones := 0 } }
  if s.get R.SEC_STATUS_rng = 0 then s.setRng 1 else s

/-- The DRBG state is zeroised: no bits, no request count and no reseed remain (Table 7.6). -/
def State.drbgZero (s : State) : State :=
  { s with sec := { s.sec with bits := [], requests := 0, reseed := false, drbg := DrbgState.zero } }

/-- The bits that a start-up or a reseed takes. -/
def seedBits : Nat := 1024

/-- The bits held as a byte string, the first bit the most significant of the first byte (R245; log 2). -/
def seedBytes (bits : List Bool) : List Nat :=
  (List.range (bits.length / 8)).map fun k => ((bits.drop (8 * k)).take 8).foldl (fun a b => 2 * a + b.toNat) 0

/-- With the hub up and 1,024 bits passed, the DRBG is instantiated from them and the RNG becomes READY (R245, Table 7.6). -/
def State.rngInstantiate (s : State) : State :=
  if s.hubUp && s.get R.SEC_STATUS_rng == 1 && seedBits ≤ s.sec.bits.length then
    let d := DrbgState.instantiate (seedBytes s.sec.bits ++ natsOf Config.drbgInput)
    let s := s.drbgZero
    (({ s with sec := { s.sec with drbg := d } }).setRng 2).fire 99
  else s

/-- A health test fails: the RNG is FAILED, with its error record and source 98 (R244). kind: bit 0 repetition count, bit 1 adaptive
proportion. -/
def State.rngFail (s : State) (kind : Nat) : State :=
  let s := ({ s.drbgZero with sec := { s.drbgZero.sec with source := false } }.bump R.SEC_RNG_FAILS_count).setRng 4
  if s.hubUp then (s.logHw 10 0xA3 kind).fire 98 else s

/-- The health tests after one more bit: 41 identical bits in a row, or one value more than 800 times in a window of 1,024 (R243). -/
def State.healthFault (s : State) : Nat :=
  (if 41 ≤ s.sec.run then 1 else 0) + (if 800 < s.sec.ones || 800 < s.sec.window - s.sec.ones then 2 else 0)

/-- The tests take one raw bit; it is held where a start-up or a reseed gathers bits. -/
def State.takeBit (s : State) (b : Bool) : State :=
  let x := s.sec
  let run := if x.run ≠ 0 && x.lastBit == b then x.run + 1 else 1
  let w := if x.window = 1024 then 0 else x.window
  let o := if x.window = 1024 then 0 else x.ones
  let held := if x.bits.length < seedBits && (!s.rngReady || x.reseed) then x.bits ++ [b] else x.bits
  { s with sec := { x with lastBit := b, run := run, window := w + 1, ones := o + b.toNat, bits := held } }

/-- AON start: at step 1 of a start from POR the source starts (Table 7.6, Table 11.1). -/
def State.aonStart (s : State) : State :=
  if !s.sec.source && s.get R.SEC_STATUS_rng == 0 && s.boot.kind = .por && s.boot.step = 1 then s.sourceStart else s

/-- The source delivers a raw bit (R243 to R245). -/
def State.entropyBit (s0 : State) (b : Bool) : State :=
  let s := s0.aonStart
  if !s.sec.source || s.get R.SEC_STATUS_rng == 3 || s.get R.SEC_STATUS_rng == 4 then s
  else
    let s := s.takeBit b
    if s.healthFault ≠ 0 then s.rngFail s.healthFault
    else if s.get R.SEC_STATUS_rng == 2 then
      if s.sec.reseed && seedBits ≤ s.sec.bits.length then
        { s with sec := { s.sec with reseed := false, bits := [], drbg := s.sec.drbg.reseed (seedBytes s.sec.bits) } } else s
    else s.rngInstantiate

/-- The RNG goes back to NOT_READY, the source anew: a keel restart from FAILED, or a WARM, WDOG or PIN reset (Table 7.6). -/
def State.rngRestart (s : State) : State := s.drbgZero.sourceStart.setRng 1

/-- The RNG goes OFF: entry to VIGIL or OFF, or supply loss (Table 7.6). -/
def State.rngOff (s : State) : State :=
  ({ s.drbgZero with sec := { s.drbgZero.sec with source := false } }).setRng 0

/-- The hub enters MOOR: a READY RNG is HELD and its source stops (Table 7.6). -/
def State.rngHold (s : State) : State :=
  if s.get R.SEC_STATUS_rng == 2 then { s.setRng 3 with sec := { s.sec with source := false } } else s

/-- The hub leaves MOOR: a HELD RNG is READY again, its source restarts, and one reseed is due (Table 7.6, R245). -/
def State.rngResume (s : State) : State :=
  if s.get R.SEC_STATUS_rng == 3 then
    { (s.setRng 2).sourceStart with sec := { (s.setRng 2).sourceStart.sec with reseed := true } }
  else s

/-- A read of SEC_RNG_DATA: the first 32 bits of a request, the first byte lowest, or BUSY while the RNG is not READY (R245, R246; log 2). -/
def State.rngRead (s : State) : State × Status × Nat :=
  if s.rngReady then (s.drbgRequest 1, .ok, ofBytes (bytesOf ((s.sec.drbg.generate 1).1.take 4))) else (s, .busy, 0)

/-- The masking LFSR's seed at a boot: the OTP mask seed XOR the boot counter (R247). -/
def State.seedLfsr (s : State) : State :=
  { s with sec := { s.sec with lfsr := ofBytes (s.bytes 0x030090A8 8) ^^^ s.get R.BOOT_COUNT_count } }

/-! ### Zeroisation (R230, Table 7.2) -/

/-- Every slot, salt and staged key is overwritten with zeros. -/
def State.zeroiseKeys (s : State) : State :=
  let s := { s with sec := { s.sec with slots := [], staged := none } }
  (s.clearRows (R.SEC_SLOT0_len256 0).row (R.SEC_SLOT1_count 0).row).set R.SEC_KEY_STATUS_busy 0

/-- VCORE falls below 0.68 V without a sequenced power-down: the key store and the DRBG zeroise themselves; if a slot held a key, key_loss is
set and the AON die writes a black-box record (R230). -/
def State.vcoreLoss (s : State) : State :=
  let held := !s.sec.slots.isEmpty
  let s := s.zeroiseKeys.rngOff
  if held then
    (s.set R.AON_SEC_EVENT_key_loss 1).blackBoxOnly 16 0xA3 0
  else s

/-! ### OTP (R250) -/

/-- Base of the OTP read window. -/
def otpBase : Nat := 0x03009000

/-- Bit k of the lock byte at offset 0x0B0. -/
def State.otpLock (s : State) (k : Nat) : Bool := (s.byte (otpBase + 0xB0)).getLsbD k

/-- The word that AON_OTP_PROG names is locked: root-key hashes, or the revocation word (Table 7.9). -/
def State.otpLocked (s : State) (a : Nat) : Bool := (a < 0x80 && s.otpLock 1) || (0x80 ≤ a && a < 0x84 && s.otpLock 2)

/-- A keel write of AON_OTP_DATA starts programming one word, or is DENIED where it is locked (R250). -/
def State.otpStart (s : State) (data : Nat) : State × Status :=
  let a := s.get R.AON_OTP_PROG_addr / 4 * 4
  if s.on R.AON_OTP_PROG_busy then (s, .busy)
  else if s.otpLocked a then (s, .denied)
  else ({ s with sec := { s.sec with otpBusy := some (a, data) } }.set R.AON_OTP_PROG_busy 1, .ok)

/-- Programming ends: fuses only go from 0 to 1; miss are bits that the read-back finds unset (R250). -/
def State.otpDone (s : State) (miss : Nat) : State :=
  match s.sec.otpBusy with
  | none => s
  | some (a, data) =>
    let old := s.word (otpBase + a)
    let goal := old ||| data
    let back := old ||| (data &&& (2 ^ 32 - 1 - miss % 2 ^ 32))
    let s := { s with sec := { s.sec with otpBusy := none } }
    (((s.setWord (otpBase + a) back).set R.AON_OTP_PROG_busy 0).set R.AON_OTP_PROG_fail (back != goal).toNat).fire 102

/-- A keel write of a bell key word: word 3 sets key_valid (R251). -/
def State.bellKeyWrite (s : State) (k data : Nat) : State :=
  let s := s.set (R.AON_BELL_KEY_key k) data
  if k = 3 then s.set R.AON_BELL_CTRL_key_valid 1 else s

/-- The bell key as a byte string (R239, R251). -/
def State.bellKey (s : State) : List Byte := (List.range 4).flatMap fun i => toBytes 4 (s.get (R.AON_BELL_KEY_key i))

/-- KEY_SLOT_APPLY (R238). -/
def execKeySlotApply (s : State) : Out := .next s.keyApply
/-- VCORE_LOSS (R230). -/
def execVcoreLoss (s : State) : Out := .next s.vcoreLoss
/-- ENTROPY_BIT (R243). -/
def execEntropyBit (b : Bool) (s : State) : Out := .next (s.entropyBit b)
/-- OTP_PROGRAM_DONE (R250). -/
def execOtpProgramDone (miss : Word) (s : State) : Out := .next (s.otpDone miss.toNat)

end Sys2Proof.Machine
end

