-- ==== Sys2Proof/Machine/Flash.lean ====
section
/-! DEFINITION. Machine/Flash.lean: the flash die and its controller: reads, command sequences, the hold-up check, operations and their
interruption, sense lines and spare columns (chapter 13, R373 to R400). Keel ownership of block 0 is checked in Machine/Device.lean, but for a
command sequence, whose target only this file knows (R225). -/

namespace Sys2Proof.Machine

open Sys2Proof

/-! ### The array (R373 to R375, R387) -/

/-- Bank, base address of a bank, block, page, row and word column of a flash address (R373). -/
def bankOf (a : Nat) : Nat := a / 0x400000
def bankBase (k : Nat) : Nat := k * 0x400000
def blockOf (a : Nat) : Nat := a / 0x10000
def pageOf (a : Nat) : Nat := a / 0x100
def rowIn (a : Nat) : Nat := a % 0x400000 / 4096
def columnOf (a : Nat) : Nat := a % 4096 / 8

/-- An address lies in a unit that an interrupted operation left undefined: the page of a program, the block of an erase; a fill leaves only
spare cells undefined (R387). -/
def State.flashUndef (s : State) (a : Nat) : Bool :=
  s.flc.undef.any fun (u : Nat × Nat) => (u.1 == 1 && u.2 == pageOf a) || (u.1 == 2 && u.2 == blockOf a)

/-- The bytes an array read returns: a byte of an undefined unit is a free value (log 3). -/
def State.flashBytes (s : State) (a len : Nat) : List Byte :=
  (List.range len).map fun i => if s.flashUndef (a + i) then Config.undefinedFlashByte (s.freeCtr + i) else s.byte (a + i)

/-- The word column of a bank is under a confirmed sense-line fault. -/
def State.senseFault (s : State) (k column bit : Nat) : Bool :=
  s.on (R.FLC_SL_FAULT_valid k) && s.get (R.FLC_SL_FAULT_column k) == column && s.get (R.FLC_SL_FAULT_bit k) == bit

/-! ### Sense lines (R397, R398) -/

/-- A classifier entry ends as cell faults: its rows are counted and the latest is recorded (R397). -/
def State.cellFaults (s : State) (e : Nat × Nat × Nat × Nat × Nat) : State :=
  let s := s.add R.FLC_CELL_CNT_count e.2.2.2.2
  (((s.set R.FLC_CELL_LAST_bank e.1).set R.FLC_CELL_LAST_row e.2.2.2.1).set R.FLC_CELL_LAST_column e.2.1).set R.FLC_CELL_LAST_bit e.2.2.1

/-- The key of a classifier entry. -/
def senseKey (e : Nat × Nat × Nat × Nat × Nat) : Nat × Nat × Nat := (e.1, e.2.1, e.2.2.1)

/-- The table after a correction at bank, column, bit line and row, and the entry it pushes out (R397). -/
def senseStep (t : List (Nat × Nat × Nat × Nat × Nat)) (k col line row : Nat) :
    List (Nat × Nat × Nat × Nat × Nat) × Option (Nat × Nat × Nat × Nat × Nat) :=
  if t.any fun e => senseKey e == (k, col, line) then
    (t.map fun (e : Nat × Nat × Nat × Nat × Nat) =>
      if senseKey e == (k, col, line) && e.2.2.2.1 != row then (k, col, line, row, e.2.2.2.2 + 1) else e, none)
  else if t.length < 16 then (t ++ [(k, col, line, row, 1)], none)
  else
    let low := t.foldl (fun (m : Nat) e => min m e.2.2.2.2) (2 ^ 32)
    match t.find? fun e => e.2.2.2.2 == low with
    | some out => ((t.filter fun e => senseKey e != senseKey out) ++ [(k, col, line, row, 1)], some out)
    | none => (t, none)

/-- A count reaches FLC_SL_CFG.rows: the guard bit tells a broken line from cell faults (R397). -/
def State.senseConfirm (s : State) (e : Nat × Nat × Nat × Nat × Nat) (guard : Bool) : State :=
  let k := e.1
  if !guard then
    ({ s with flc := { s.flc with senses := s.flc.senses.filter fun x => senseKey x != senseKey e } }).cellFaults e
  else if s.senseFault k e.2.1 e.2.2.1 then s
  else
    let s := if s.on (R.FLC_SL_FAULT_valid k) && !s.on (R.FLC_SL_FAULT_mapped k) then s
      else (((s.set (R.FLC_SL_FAULT_valid k) 1).set (R.FLC_SL_FAULT_mapped k) 0).set (R.FLC_SL_FAULT_column k) e.2.1).set (R.FLC_SL_FAULT_bit k) e.2.2.1
    (s.fire 490).logErr
      { cls := 11, unit := 0xA1, addr := 0, detail := e.2.2.1 + e.2.1 * 2 ^ 16 + k * 2 ^ 26, ini := 7, eng := 0, key := 0xA1 }

/-- A flash read corrects one bit: FLC_CORR_CNT and the classifier take it; a count that reaches FLC_SL_CFG.rows is looked into (R397). -/
def State.flashCorrected (s : State) (a line : Nat) (guard : Bool) : State :=
  let s := (s.bump R.FLC_CORR_CNT_count).pmc 0x0C0 0xA1
  let k := bankOf a
  let t := s.flc.senses
  let r := senseStep t k (columnOf a) line (rowIn a)
  let s := { s with flc := { s.flc with senses := r.1 } }
  let rose := match t.find? fun e => senseKey e == (k, columnOf a, line) with
    | some e => e.2.2.2.1 != rowIn a
    | none => true
  let s := match r.2 with
    | some out => s.cellFaults out
    | none => s
  match s.flc.senses.find? fun e => senseKey e == (k, columnOf a, line) with
  | some e => if rose && max 2 (s.get R.FLC_SL_CFG_rows) = e.2.2.2.2 then s.senseConfirm e guard else s
  | none => s

/-- A flash word is uncorrectable: every finding is logged anew, POISON by the scrubber and UNCORRECTED by a consumer (R374, R423). -/
def State.flashUncorrectable (s : State) (a syndrome : Nat) (scrub : Bool) (ini eng : Nat) : State :=
  s.logErr { cls := if scrub then 3 else 2, unit := 0xA1, addr := a / 8 * 8, detail := syndrome % 256, ini := ini, eng := eng, key := 0xA1 }

/-- What the decoder saw on one flash word. -/
def State.flashSeen (s : State) (x : Nat × EccSeen) (scrub : Bool) (ini eng : Nat) : State :=
  match x.2 with
  | .clean => s
  | .corrected line _ guard => s.flashCorrected x.1 line guard
  | .uncorrectable syn => s.flashUncorrectable x.1 syn scrub ini eng

/-! ### Status words (R382) -/

/-- The status word of a bank. -/
def State.flashStatus (s : State) (k : Nat) : Nat :=
  s.get (R.FLC_BANK_mark k) * 2 ^ 24 + s.get (R.FLC_BANK_busy k) * 2 ^ 23 + s.get (R.FLC_BANK_fail k) * 2 ^ 22 +
    s.get (R.FLC_BANK_refused k) * 2 ^ 21 + s.get (R.FLC_BANK_reason k) * 2 ^ 17 + s.get (R.FLC_BANK_op k) * 2 ^ 15 +
    s.get (R.FLC_BANK_block k) * 2 ^ 9 + s.get (R.FLC_BANK_status_mode k) * 2 ^ 8 + s.get (R.FLC_BANK_count k)

/-- The bytes of a word in the lanes of an access (R382). -/
def laneBytes (w a len : Nat) : List Byte := (List.range len).map fun i => BitVec.ofNat 8 (w / 256 ^ ((a + i) % 4))

/-- An operation runs in the bank. -/
def State.flashBusy (s : State) (k : Nat) : Bool := (s.fbank k).op != 0

/-- A read in one flash bank: the status word of a busy bank or one in status mode, else the array with what the decoder sees
(R374, R382, R383). -/
def State.flashReadBank (s : State) (a len : Nat) (ecc : List (Nat × EccSeen)) (ini eng : Nat) : State × Status × List Byte :=
  let k := bankOf a
  if s.flashBusy k || s.on (R.FLC_BANK_status_mode k) then (s, .ok, laneBytes (s.flashStatus k) a len)
  else
    let seen := ecc.filter fun (x : Nat × EccSeen) => a / 8 * 8 ≤ x.1 && x.1 < a + len
    let bad := seen.any fun (x : Nat × EccSeen) => match x.2 with
      | .uncorrectable _ => true
      | _ => false
    let data := s.flashBytes a len
    let s := seen.foldl (fun s x => s.flashSeen x false ini eng) s
    ({ s with freeCtr := s.freeCtr + len }, if bad then .poisoned else .ok, data)

/-- A read in the flash window: one that crosses from a bank to the next reads each bank for its own bytes (R382). -/
def State.flashRead (s : State) (a len : Nat) (ecc : List (Nat × EccSeen)) (ini eng : Nat) : State × Status × List Byte :=
  let n := 0x400000 - a % 0x400000
  if len ≤ n then s.flashReadBank a len ecc ini eng
  else
    let r := s.flashReadBank a n ecc ini eng
    let q := r.1.flashReadBank (a + n) (len - n) ecc ini eng
    (q.1, if r.2.1 == .ok then q.2.1 else r.2.1, r.2.2 ++ q.2.2)

/-- The flash service vote: a sequence or an operation in some bank, or a scrub read that is due (R383, R423). -/
def State.refreshFlashVote (s : State) : State :=
  let want := (s.hubUp && s.flc.scrubDue) || (List.range 4).any fun k => (s.fbank k).seq != .read || (s.fbank k).op != 0
  if s.bit (R.PWR_VOTE_votes 13) 25 == want then s else s.putVote 13 25 want

/-- A sequence ends: its page buffer is abandoned; reason 0 for an end without a refusal (Table 13.5). -/
def State.seqEnd (s : State) (k reason : Nat) : State :=
  let s := s.updFbank k fun b => { b with
    seq := if b.op = 0 then .read else .busy, owner := if b.op = 0 then none else b.owner, page := none,
    buffer := if b.op = 1 then b.buffer else [] }
  (if reason = 0 then s else (s.set (R.FLC_BANK_refused k) 1).set (R.FLC_BANK_reason k) reason).refreshFlashVote

/-! ### The hold-up check (R384) -/

/-- Energy of an operation in µJ (Table 13.1). -/
def flashCost (op : Nat) : Nat := if op = 1 then 220 else if op = 2 then 9000 else if op = 3 then 2200 else 0

/-- e in µJ as a fraction: numerator and denominator; 0 where v does not exceed Vmin. v is (code · scale · 18) / 2,621,440 V. -/
def State.holdupEnergy (s : State) (code : Nat) : Nat × Nat :=
  let d := 2621440 ^ 2
  let v2 := (code * s.get R.FLC_HOLDUP_SCALE_scale * 18) ^ 2 * 10 ^ 6
  let m2 := s.get R.FLC_HOLDUP_VMIN_mv ^ 2 * d
  (if v2 ≤ m2 then 0 else s.get R.FLC_HOLDUP_CAP_uf * (v2 - m2), 2 * d * 10 ^ 6)

/-- The check of an operation of bank k that costs some µJ: the energy covers margin / 4 times its cost and those of the operations in the other
banks; code and energy are recorded. The answer says whether the operation may start. -/
def State.holdupFor (s : State) (k cost : Nat) : State × Bool :=
  if !s.on R.FLC_HOLDUP_CTRL_check then (s, true)
  else
    let code := s.pins.holdupCode
    let e := s.holdupEnergy code
    let others := (List.range 4).foldl (fun (c : Nat) j => if j = k then c else c + flashCost (s.fbank j).op) 0
    let need := max 4 (s.get R.FLC_HOLDUP_CTRL_margin) * (cost + others)
    let s := (s.set R.FLC_HOLDUP_LAST_code code).set R.FLC_HOLDUP_LAST_uj
      (min 0xFFFFF (if e.1 % e.2 = 0 then e.1 / e.2 else (Config.roundedQuotient e.1 e.2).toNat))
    let covered := decide (need * e.2 ≤ 4 * e.1)
    (if covered then s else (s.fire 489).bump R.FLC_HOLDUP_REFUSED_count, covered)

/-- The check of one operation by its kind. -/
def State.holdupCheck (s : State) (k op : Nat) : State × Bool := s.holdupFor k (flashCost op)

/-! ### Operations (R375, R379, R387 to R389, R399) -/

/-- Note an operation in AON_FLASH_OP, or clear the note (R388). -/
def State.noteOp (s : State) (valid : Bool) (op block page : Nat) : State :=
  (((s.set R.AON_FLASH_OP_valid valid.toNat).set R.AON_FLASH_OP_op op).set R.AON_FLASH_OP_block block).set R.AON_FLASH_OP_page page

/-- An operation of bank k starts on a unit: the page of a program, the block of an erase, the entry of a fill. -/
def State.opStart (s : State) (k op unit block page : Nat) : State :=
  let s := s.updFbank k fun b => { b with seq := .busy, op := op, unit := unit }
  let s := (((s.set (R.FLC_BANK_busy k) 1).set (R.FLC_BANK_op k) op).set (R.FLC_BANK_block k) (block % 64)).setBit R.FLC_STATUS_busy k
  let s := ((s.set (R.FLC_BANK_refused k) 0).set (R.FLC_BANK_reason k) 0).set (R.FLC_BANK_fail k) 0
  (s.noteOp true op block page).refreshFlashVote

/-- The operation of bank k is over: busy clears, and the bank is read again. -/
def State.opOver (s : State) (k : Nat) : State :=
  let s := s.updFbank k fun b => { b with seq := .read, owner := none, page := none, buffer := [], op := 0, unit := 0 }
  ((s.set (R.FLC_BANK_busy k) 0).clrBit R.FLC_STATUS_busy k)

/-- An operation is stopped before its end: its unit is undefined, reason ABORTED (R387, Table 13.5). -/
def State.opAbort (s : State) (k : Nat) : State :=
  let b := s.fbank k
  if b.op = 0 then s
  else
    let s := { s with flc := { s.flc with undef := (b.op, b.unit) :: s.flc.undef } }
    let s := if b.op = 3 then (s.set (R.FLC_SPARE_fill b.unit) 0).set (R.FLC_SPARE_state b.unit) 3 else s
    ((s.opOver k).set (R.FLC_BANK_reason k) 8).set (R.FLC_BANK_refused k) 0

/-- Word base addresses of a page whose eight supplied bytes are not all 0xFF: bytes not written are 0xFF (R375, R379). -/
def bufferWords (buffer : List (Nat × Nat)) : List Nat :=
  (List.range 32).filter fun i => buffer.any fun (p : Nat × Nat) => p.1 / 8 == i && p.2 != 0xFF

/-- The word at an address is erased. -/
def State.wordErased (s : State) (a : Nat) : Bool := !s.flashUndef a && (s.bytes a 8).all fun b => b == 0xFF#8

/-- The buffer of a page closes: words that are not erased refuse the program, then the hold-up check decides (R375, R379, R384). -/
def State.programStart (s : State) (k base : Nat) (buffer : List (Nat × Nat)) : State :=
  if (bufferWords buffer).any fun i => !s.wordErased (base + 8 * i) then s.seqEnd k 4
  else
    let h := s.holdupCheck k 1
    if !h.2 then h.1.seqEnd k 1
    else (h.1.updFbank k fun b => { b with buffer := buffer }).opStart k 1 (pageOf base) (blockOf base) (pageOf base % 256)

/-- Raw bytes of a page's spare: its factory value until an erase sets it to all 1 (R375, R389; log 8). -/
def State.pageSpare (s : State) (page : Nat) : Nat :=
  if s.flc.spareErased.testBit (page / 256) then 2 ^ 64 - 1 else (Config.rawFlashWord page).toNat

/-- The block carries a factory bad-block marker (R389). -/
def State.factoryBad (s : State) (block : Nat) : Bool := s.pageSpare (256 * block) % 256 != 0xFF

/-- FLC_BAD marks the block. -/
def State.markedBad (s : State) (block : Nat) : Bool := s.bit (R.FLC_BAD_bad (block / 32)) (block % 32)

/-- A raw guard word, or its check bits (FLC_GUARD; log 8). -/
def guardRaw (bank column : Nat) (ecc : Bool) : Nat :=
  (Config.rawFlashWord (2 ^ 20 + (if ecc then 2 ^ 19 else 0) + bank * 512 + column)).toNat

/-- A program or erase command on a target block (R380). -/
def State.flashCommand (s : State) (k op block : Nat) : State :=
  let target := 64 * k + block
  let s := if s.flashBusy k then s else s.set (R.FLC_BANK_block k) block
  if s.flashBusy k then s.seqEnd k 7
  else if target = 255 then (s.fire 491).seqEnd k 2
  else if s.markedBad target || (op = 2 && s.factoryBad target) then s.seqEnd k 3
  else if op = 1 then s.updFbank k fun b => { b with seq := .loading, target := block, page := none, buffer := [] }
  else
    let h := s.holdupCheck k 2
    if !h.2 then h.1.seqEnd k 1 else h.1.opStart k 2 target target 0

/-- A data write while a page buffer loads: all bytes in one page of the target block, none twice; covering offset 0xFF closes it (R379). -/
def State.bufferWrite (s : State) (k a : Nat) (data : List Byte) : State :=
  let b := s.fbank k
  let base := a / 256 * 256
  let ok := blockOf a == 64 * k + b.target && a % 256 + data.length ≤ 256
    && (match b.page with | some p => p == base | none => true)
    && !(b.buffer.any fun (p : Nat × Nat) => a % 256 ≤ p.1 && p.1 < a % 256 + data.length)
  if !ok then s.seqEnd k 5
  else
    let buffer := b.buffer ++ (List.range data.length).map fun i => (a % 256 + i, (data.getD i 0).toNat)
    if a % 256 + data.length = 256 then s.programStart k base buffer
    else s.updFbank k fun b => { b with page := some base, buffer := buffer }

/-- A deck initiator: not the boot ROM and not engines H30 and H31 (R223). -/
def isKeel : Initiator → Bool
  | .bootRom => true
  | .engine g => g.val == 30 || g.val == 31
  | _ => false

/-- A write that no sequence takes: ignored in the calibration row, refused elsewhere (R381). -/
def State.flashStray (s : State) (a : Nat) : State × Status :=
  if 0xFF8000 ≤ a && a < 0x1000000 then ((s.bump R.FLC_CALWR_count).fire 491, .ok)
  else (s.bump R.FLC_STRAY_count, .denied)

/-- The command write of a sequence (R377, R379): the state after it and its status; none is a deck sequence on block 0, which Machine/Device.lean
refuses under R225. -/
def State.flashThird (s : State) (k : Nat) (deck : Bool) (data : List Byte) : State × Option Status :=
  let c := (data.getD 0 0).toNat
  let block := (data.getD 1 0).toNat
  if data.length = 2 && (c = 0x31 || c = 0x72) then
    if 64 ≤ block then (s.seqEnd k 5, some .ok)
    else if deck && k = 0 && block = 0 then (s.seqEnd k 0, none)
    else (((s.updFbank k fun b => { b with seq := if b.op = 0 then .read else .busy }).set (R.FLC_BANK_status_mode k) 0).flashCommand k
      (if c = 0x31 then 1 else 2) block, some .ok)
  else if data.length != 1 then (s.seqEnd k 5, some .ok)
  else
    match c with
    | 0x5C => ((s.seqEnd k 0).set (R.FLC_BANK_status_mode k) 1, some .ok)
    | 0xE8 => ((s.seqEnd k 0).set (R.FLC_BANK_status_mode k) 0, some .ok)
    | 0xF0 =>
      let busy := s.flashBusy k
      let s := (s.seqEnd k 0).set (R.FLC_BANK_status_mode k) 0
      (if busy then ((s.opAbort k).noteOp false 0 0 0).refreshFlashVote else s, some .ok)
    | _ => (s.seqEnd k 5, some .ok)

/-- The bank is in a sequence. -/
def FlashBank.inSeq (b : FlashBank) : Bool := b.seq == .unlock1 || b.seq == .unlock2 || b.seq == .loading

/-- A sequence whose last write lies more than 100 µs back has ended (R377). -/
def State.flashLate (s : State) (k : Nat) : State :=
  let b := s.fbank k
  if b.inSeq && b.wroteAt + 125000 < s.now then s.seqEnd k 6 else s

/-- A write to the flash window (R377 to R381): the state after it and its status, none as in flashThird. A deck write to block 0 that no sequence
takes is refused under R225 as well (log 149). -/
def State.flashWrite (s : State) (ini : Initiator) (a : Nat) (data : List Byte) : State × Option Status :=
  let k := bankOf a
  let s := s.flashLate k
  let b := s.fbank k
  let off := a % 0x400000
  let first := off = 0x0AAA && data == [0xB4#8]
  let now := s.now
  let s := if b.owner.isNone || b.owner == some ini then s.updFbank k fun b => { b with wroteAt := now } else s
  if b.owner.isSome && b.owner != some ini then (s.bump R.FLC_STRAY_count, some .busy)
  else
    match b.seq with
    | .unlock1 => (if off = 0x0555 && data == [0x4B#8] then s.updFbank k fun b => { b with seq := .unlock2 } else s.seqEnd k 5, some .ok)
    | .unlock2 => if off = 0x0AAA then s.flashThird k (!isKeel ini) data else (s.seqEnd k 5, some .ok)
    | .loading =>
      if first && blockOf a != 64 * k + b.target then (s.updFbank k fun b => { b with seq := .unlock1 }, some .ok)
      else (s.bufferWrite k a data, some .ok)
    | _ =>
      if first then ((s.updFbank k fun b => { b with seq := .unlock1, owner := some ini }).refreshFlashVote, some .ok)
      else ((s.flashStray a).1, if !isKeel ini && a < 0x10000 then none else some (s.flashStray a).2)

/-- 100 µs pass without the next write of a sequence (R377). -/
def State.flashTimeout (s : State) (k : Nat) : State :=
  let b := s.fbank k
  if b.inSeq then (s.reach (b.wroteAt + 125000)).seqEnd k 6 else s

/-- The bytes of a finished program. -/
def State.applyProgram (s : State) (base : Nat) (buffer : List (Nat × Nat)) : State :=
  let words := bufferWords buffer
  (buffer.filter fun (p : Nat × Nat) => words.contains (p.1 / 8)).foldl (fun s p => s.setByte (base + p.1) (BitVec.ofNat 8 p.2)) s

/-- A block is erased: every byte reads 0xFF, its page spares are all 1, and nothing in it is undefined any more (R375). -/
def State.applyErase (s : State) (block : Nat) : State :=
  let s := { s with mem := Memory.clear s.mem (0x10000 * block) 0x10000 }
  let undef := s.flc.undef.filter fun (u : Nat × Nat) => !((u.1 == 2 && u.2 == block) || (u.1 == 1 && u.2 / 256 == block))
  let spares := if s.flc.spareErased.testBit block then s.flc.spareErased else s.flc.spareErased + 2 ^ block
  { s with flc := { s.flc with undef := undef, spareErased := spares } }

/-- A fill has ended: the entry serves its column from now on, and the bank's fault is mapped (R399). unc: words that were uncorrectable. -/
def State.applyFill (s : State) (n unc : Nat) (fail : Bool) : State :=
  let s := ((s.set (R.FLC_SPARE_fill n) 0).set (R.FLC_SPARE_state n) (if fail then 3 else 2)).set R.FLC_SPARE_UNC_words (min unc 1024)
  if !fail && s.senseFault (n / 4) (s.get (R.FLC_SPARE_column n)) (s.get (R.FLC_SPARE_bit n)) then s.set (R.FLC_SL_FAULT_mapped (n / 4)) 1 else s

/-- An operation ends (R382, R387, Table 13.5): an erase or program that fails its internal verify leaves its unit undefined (log 28). -/
def State.flashOpDone (s : State) (k : Nat) (fail : Bool) (unc : Nat) : State :=
  let b := s.fbank k
  if b.op = 0 || !s.domRuns 13 then s
  else
    let s := if b.op = 1 then s.applyProgram (256 * b.unit) b.buffer else if b.op = 2 then s.applyErase b.unit else s.applyFill b.unit unc fail
    let s := if fail && b.op != 3 then { s with flc := { s.flc with undef := (b.op, b.unit) :: s.flc.undef } } else s
    let s := (s.opOver k).set (R.FLC_BANK_fail k) fail.toNat
    ((((s.bumpWrap (R.FLC_BANK_count k)).noteOp false 0 0 0).fire 488)).refreshFlashVote

/-- A write of FLC_SPARE_n: DENIED in stage RUN; en and fill together start the fill of a free entry (R399). -/
def State.spareWrite (s : State) (n data : Nat) : State × Status :=
  if s.get R.HUB_BOOT_STATUS_stage = 2 then (s, .denied)
  else
    let k := n / 4
    let s := ((s.set (R.FLC_SPARE_en n) (bits data 31 31)).set (R.FLC_SPARE_column n) (bits data 24 16)).set (R.FLC_SPARE_bit n) (bits data 6 0)
    if !(data.testBit 31 && data.testBit 30) || s.get (R.FLC_SPARE_state n) != 0 then (s, .ok)
    else if s.flashBusy k then ((s.set (R.FLC_BANK_refused k) 1).set (R.FLC_BANK_reason k) 7, .ok)
    else
      let h := s.holdupCheck k 3
      if !h.2 then ((h.1.set (R.FLC_BANK_refused k) 1).set (R.FLC_BANK_reason k) 1, .ok)
      else (((h.1.set (R.FLC_SPARE_fill n) 1).set (R.FLC_SPARE_state n) 1).opStart k 3 n (64 * k) 0, .ok)

/-- The flash domain falls, or a reset reaches the hub: sequences end and operations stop (R387, Table 13.5). -/
def State.flashStop (s : State) : State :=
  forAll 4 (fun k s => ((s.opAbort k).seqEnd k 0).set (R.FLC_BANK_status_mode k) 0) s

/-! ### HOLDUP_SENSE (R386) and the scrubber (R423) -/

/-- One comparison of HOLDUP_SENSE with AON_HOLDUP_THR. The answer says whether it is an event of source 472. -/
def State.holdupCompare (s : State) (code : Nat) : State × Bool :=
  let thr := s.get R.AON_HOLDUP_THR_code
  let below := code < thr
  let event := thr != 0 && below && s.pins.holdupBelow != some true
  ({ s with pins := { s.pins with holdupCode := code, holdupBelow := if thr = 0 then none else some below } }, event)

/-- The blocks that the flash scrubber reads, in order (Table 14.5). -/
def scrubList : List Nat := List.range 39 ++ [126, 254, 255]

/-- The flash scrubber reads its next block, if the hub is up; with the flash domain down it calls for it and the block stays due (R423). -/
def State.flashScrub (s : State) (seen : List (Nat × EccSeen)) : State :=
  if !s.hubUp then { s with flc := { s.flc with scrubDue := true } }
  else if !s.bit R.ERR_SCRUB_CTRL_en 5 then s
  else
    let block := scrubList.getD s.flc.scrubBlock 0
    if !s.domRuns 13 || s.flashBusy (block / 64) then ({ s with flc := { s.flc with scrubDue := true } }).refreshFlashVote
    else
      let s := (seen.filter fun (x : Nat × EccSeen) => blockOf x.1 == block).foldl (fun s x => s.flashSeen x true 6 0) s
      let s := s.pmcAt 0x0C1 0xA1 8192 none
      let last := s.flc.scrubBlock + 1 = scrubList.length
      let s := { s with flc := { s.flc with scrubDue := false, scrubBlock := if last then 0 else s.flc.scrubBlock + 1 } }
      (if last then s.bumpWrap (R.ERR_SCRUB_PASS_passes 5) else s).refreshFlashVote

/-- SEQUENCE_TIMEOUT (R377). -/
def execSequenceTimeout (k : Fin 4) (s : State) : Out := .next (s.flashTimeout k.val)
/-- FLASH_OP_DONE (R379). -/
def execFlashOpDone (k : Fin 4) (fail : Bool) (unc : Nat) (s : State) : Out := .next (s.flashOpDone k.val fail unc)
/-- FLASH_SCRUB (R423). -/
def execFlashScrub (seen : List (Nat × EccSeen)) (s : State) : Out := .next (s.flashScrub seen)

end Sys2Proof.Machine
end

