-- ==== Sys2Proof/Machine/Cold.lean ====
section
/-! DEFINITION. Machine/Cold.lean: what the hub loses when its supply goes or a reset reaches it, and the rails of start-up step 2
(chapters 10, 11 and 15: R8, R9, R303, R326, R331, R437, R438, Tables 10.3, 11.2, 11.6). -/

namespace Sys2Proof.Machine

open Sys2Proof

/-- What takes the hub's state: loss of its supply (VIGIL, OFF, a failed rail), or a WARM (or WDOG), PIN or POR reset. -/
inductive Reach where
  | supply | warm | pin | por
  deriving DecidableEq, Repr

/-- The row belongs to the AON die, which no supply loss and no reset but POR reaches (R331, R440). -/
def aonRow (r : Row) : Bool := r.owner == .hub && 0x03000000 ≤ r.base && r.base < 0x03014000

/-- The register row keeps its value (R9, Table 11.6). -/
def Reach.keepsRow (x : Reach) (r : Row) : Bool :=
  match r.keep with
  | .offPor => true
  | .porOnly => x != .por
  | .offPin => x != .por
  | .moorWarm => x == .warm
  | .runNone => x != .por && aonRow r
  | _ => false

/-- The memory byte keeps its value: flash and OTP always, AON SRAM but for POR, hub SRAM and hub engine local memories in a WARM reset
(Table 11.6). -/
def Reach.keepsByte (x : Reach) (a : Nat) : Bool :=
  a < 0x1000000 || (0x03009000 ≤ a && a < 0x0300A000) || (x != .por && 0x03010000 ≤ a && a < 0x03014000)
    || (x == .warm && ((0x1000000 ≤ a && a < 0x1C00000) || 0x100000000 ≤ a))

/-- A link after the loss: a WARM reset keeps its training results (R331). -/
def Reach.link (x : Reach) (l : Link) : Link :=
  if x = .warm then { Link.initial with kept := l.kept, epoch := l.epoch, prevOwn := l.prevOwn, prevPeer := l.prevPeer }
  else { Link.initial with epoch := l.epoch }

/-- The keeper holds mesh time from here on; POR starts it from 0 on the RC oscillator (R23, R325, Table 11.6). -/
def Reach.clk (x : Reach) (c : Clk) : Clk :=
  if x = .por then State.reset.clk
  else { c with holder := .keeper, frac := 0, slewAcc := 0, stepWait := none, lastParent := 0, lockRun := 0, realign := false }

/-- Every domain is down; the retention supply stays on through a reset (Table 10.1), and requests that the keel deferred stay with
PWR_KEEL_DEFER. -/
def Reach.pwr (x : Reach) (p : Pwr) : Pwr :=
  if x = .por then State.reset.pwr
  else { p with
    dom := (Vector.replicate 16 .down).set 15 (if x = .supply then .down else .up), riseAgain := 0, mode := .vigil, pllLocked := false, refclk := false,
    deferForce := if x = .warm then p.deferForce else 0, deferGate := if x = .warm then p.deferGate else 0 }

/-- Pins: outputs go to their states of Table 15.5, inputs stand as they are. -/
def Reach.pins (x : Reach) (p : Pins) : Pins :=
  { State.reset.pins with
    pntId := p.pntId, bootSel := p.bootSel, tsOutAt := if x = .por then 0 else p.tsOutAt, cxGnt := p.cxGnt, cxiReq := p.cxiReq, cxiPri := p.cxiPri,
    cxiGnt := p.cxiReq, gpIn := p.gpIn, holdupCode := p.holdupCode, holdupBelow := p.holdupBelow }

/-- The key store and the DRBG are zeroised (Table 7.2); fuses being programmed stay with the AON die. -/
def Reach.sec (x : Reach) (y : Sec) : Sec :=
  { State.reset.sec with source := x != .supply, otpBusy := if x = .por then none else y.otpBusy }

/-- A bell pending or on the air ends with the votes that kept its transmitter up; everything else on the AON die stays but for POR. -/
def Reach.aon (x : Reach) (y : Aon) : Aon :=
  if x = .por then State.reset.aon else { y with bellTx := .none, ttArmed := false }

/-- The flash array and what was interrupted in it stay (R387); the controller starts anew. -/
def coldFlc (y : Flc) : Flc :=
  { State.reset.flc with undef := y.undef, scrubBlock := y.scrubBlock, scrubDue := y.scrubDue, spareErased := y.spareErased }

/-- The scrubber of the AON SRAM runs on (R420). -/
def Reach.err (x : Reach) (y : Err) : Err :=
  if x = .por then State.reset.err else { State.reset.err with scrubPos := State.reset.err.scrubPos.set 4 (vget y.scrubPos 4) }

/-- The hub and the tiles lose what x takes: registers and memories go back to their reset values or stay as their tables say, engines,
elements, banks, frames and links start anew, the boot votes stand, and the entropy source of a WARM or PIN reset starts anew (R296, R303,
R331, Tables 7.6, 11.6). -/
def State.cold (s : State) (x : Reach) : State :=
  let s := s.flashStop
  let s := { State.reset with
    pending := s.pending,
    regs := s.regs.filter (fun c => match rowOf c.1 with | some r => x.keepsRow r | none => false),
    mem := s.mem.filter (fun c => x.keepsByte c.1),
    poison := s.poison.filter (fun a => x.keepsByte a),
    clk := x.clk s.clk, pwr := x.pwr s.pwr, boot := s.boot, pins := x.pins s.pins, sec := x.sec s.sec, aon := x.aon s.aon,
    lnk := { State.reset.lnk with links := s.lnk.links.map x.link }, flc := coldFlc s.flc, err := x.err s.err, resp := s.resp,
    freeCtr := s.freeCtr }
  let s := (s.set (R.PWR_VOTE_votes 0) 1).set (R.PWR_VOTE_votes 15) 1
  let s := if x = .supply then s else s.set R.SEC_STATUS_rng 1
  (s.set R.AON_BELL_TX_go 0).wkResume

/-! ### Start-up step 2: the rails (R323, R326, R436, R438) -/

/-- Step 2: TCXO_EN and PWR_EN[0] together, then each further enable on the previous PWR_GOOD; with every PWR_GOOD high and the TCXO ready
step 3 follows. -/
def State.railsOn (s : State) : State :=
  match (List.range 4).find? fun k => !s.pwr.pwrGood.testBit k with
  | some k =>
    let s := s.enableRail k
    if s.pwr.pwrEn.testBit 0 then { s with pwr := { s.pwr with tcxoEn := true } } else s
  | none =>
    let s := { s with pwr := { s.pwr with tcxoEn := true } }
    if s.pwr.tcxoReady then { s with boot := { s.boot with step := 3 }, pwr := { s.pwr with railFails := 0 } } else s

/-- Lower some enables; each is then held low for at least 2 ms (R438). -/
def State.lowerRails (s : State) (ks : List Nat) : State :=
  ks.foldl (fun s k =>
    if s.pwr.pwrEn.testBit k then
      let s := s.railSpan k 2
      { s with pwr := { s.pwr with
        pwrEn := s.pwr.pwrEn - 2 ^ k, lowHold := s.pwr.lowHold ||| 2 ^ k,
        pwrGood := if s.pwr.pwrGood.testBit k then s.pwr.pwrGood - 2 ^ k else s.pwr.pwrGood } }
    else { s with pwr := { s.pwr with wakeHeld := if s.pwr.wakeHeld.testBit k then s.pwr.wakeHeld - 2 ^ k else s.pwr.wakeHeld } }) s

/-- A start begins at a step of Table 11.1. -/
def State.startAt (s : State) (kind : StartKind) (step : Nat) : State :=
  { s with boot := { kind := kind, step := step, ready := false, timeouts := 0, slipway := false, slow := false } }

/-- A start joins at step 2, the retention supply on again. -/
def State.startRails (s : State) (kind : StartKind) : State := ((s.startAt kind 2).setDom 15 .up).railsOn

/-- A start from step 1 with the crystal running or starting (Table 11.2); the entropy source starts (Table 11.1). -/
def State.startCold (s : State) (kind : StartKind) : State :=
  let s := if s.sec.source then s else s.sourceStart
  if s.pwr.xtalStable then s.startRails kind else s.startAt kind 1

/-- A rail fails or drops: black-box record, the raised enables lowered in reverse order, the hub held in reset, and one failure more toward
the limit of three (R326). -/
def State.railDown (s : State) (k : Nat) (dropped : Bool) : State :=
  let s := s.blackBoxOnly 14 0xA5 (k + if dropped then 256 else 0)
  let n := s.pwr.railFails + 1
  let s := ((s.cold .supply).lowerRails [3, 2, 1, 0]).startAt .rail (if n < 3 then 2 else 0)
  let now := s.now
  { s with pwr := { s.pwr with railFails := n, railsHeld := 3 ≤ n, retryAt := now + 125000000 } }

end Sys2Proof.Machine
end

