-- ==== Sys2Proof/Machine/Timetable.lean ====
section
/-! DEFINITION. Machine/Timetable.lean: the crossing sequencer: fetch and conflicts, the push ring, readiness, turns, the start and the end of a
crossing, and coexistence (chapter 5, R144 to R161, R173; R320, R321). -/

namespace Sys2Proof.Machine

open Sys2Proof

/-! ### Coexistence (R320, R321) -/

/-- A transmit crossing with hipri set is in progress. -/
def State.hipriTx (s : State) : Bool := s.inProgress.any fun c => c.d.dir == 1 && c.d.hipri

/-- CXI_GNT answers CXI_REQ where nothing holds it back: transmit crossings in progress end their frames, a bell stops and is resent in full
(R318, R321). While the hub is down the grant follows the request (Table 15.5). -/
def State.settleCxi (s : State) : State :=
  if !s.pins.cxiReq || s.pins.cxiGnt || (s.hubUp && (!s.on R.COEX_CFG_cxi_en || (s.hipriTx && !s.pins.cxiPri))) then s
  else
    let s := { s with pins := { s.pins with cxiGnt := true } }
    let s := (s.inProgress.filter fun c => c.d.dir == 1 && (s.slot c.d.slot).tx.isSome).foldl
      (fun s c => (s.bump R.COEX_STATUS_cut).underrun c.d.slot) s
    if s.aon.bellTx == .onAir then
      ({ s with aon := { s.aon with bellTx := .pending }, pins := { s.pins with wkTr := false } }).refreshCx.wkResume
    else s

/-- CXI_REQ rises with a level of CXI_PRI. -/
def State.cxiRise (s : State) (pri : Bool) : State := { s with pins := { s.pins with cxiReq := true, cxiPri := pri } }.settleCxi

/-- CXI_REQ falls, and CXI_GNT with it. -/
def State.cxiFall (s : State) : State := { s with pins := { s.pins with cxiReq := false, cxiPri := false, cxiGnt := false } }

/-- A covered crossing asks for the band 4.096 µs before it starts (R320). -/
def State.coexRequest (s : State) (slot : Nat) : State :=
  let covered (c : Crossing) : Bool := if c.d.dir = 1 then s.on R.COEX_CFG_tx_xng else s.on R.COEX_CFG_rx_xng
  match s.nextOn slot fun c => !c.started && !c.coexAsked && covered c with
  | none => s
  | some c => ((s.reach (c.b0 - 5120)).updCrossing c.id fun y => { y with coexAsked := true }).refreshCx

/-! ### Fetch (R150 to R152, R215) -/

/-- The walk moves past its item. -/
def State.walkPast (s : State) (key : Option (Nat × Nat × Nat)) : State :=
  { s with xng := { s.xng with walk := s.xng.walk + 1, lastKey := match key with | some k => some k | none => s.xng.lastKey } }

/-- The descriptor fails the checks of R150. -/
def State.descBad (s : State) (d : Desc) : Bool :=
  d.len == 0 || s.blocksPerWindow ≤ d.start || d.mcs == 15 || (d.sweep && 64 < d.len) || (d.pair && d.dir == 1)
    || (d.cond && d.dir == 0) || (d.pair && d.cond) || (d.dir == 0 && s.isBroadcast d.nbr)

/-- The reason for which a crossing is skipped at its fetch: BAD_DESC, SLOT_BUSY or DIR_CONFLICT, 0 for none (R150, R152). -/
def State.fetchReason (s : State) (d : Desc) (w : Nat) : Nat :=
  let b0 := s.descB0 d w
  let e := s.extentEnd d b0
  let tiles := s.descTiles d
  if s.descBad d then 1
  else if s.xng.fetched.any fun c => c.d.slot == d.slot && b0 < c.ends && c.b0 < e then 2
  else if s.xng.fetched.any fun c => c.d.dir != d.dir && c.tiles &&& tiles != 0
      && !(decide (e + s.blockTicks ≤ c.b0) || decide (c.ends + s.blockTicks ≤ b0)) then 3
  else 0

/-- A crossing that is not fetched is skipped: record, vote, pair and return state (R157, R161, R173). -/
def State.skipDesc (s : State) (src : XSrc) (d : Desc) (w : Nat) (reason : Nat) : State :=
  let s := s.skipRecord d w src.isPushed reason
  let s := if d.pair && d.dir = 0 then s.notePair ⟨src, d.nbr, s.expectedLead d (s.descB0 d w), false, true⟩ else s
  (s.unvoteFor src).returnTiles (s.descTiles d) d.ret

/-- The sequencer's message to a slot's pilot engine: the descriptor and its window start, dropped and counted without a free berth (R151,
R155, R215). -/
def State.pilotMessage (s : State) (slot : Nat) (raw : List Nat) (w : Nat) : State :=
  if mboxBerths ≤ (s.eng slot).mbox.length then s.updEng slot fun x => { x with mboxDropped := min (x.mboxDropped + 1) 65535 }
  else s.mboxDeliver slot (0x80, raw.map (BitVec.ofNat 32), w)

/-- A crossing is fetched, or skipped (R151, R152). -/
def State.fetchDesc (s : State) (src : XSrc) (d : Desc) (w : Nat) : State :=
  let r := s.fetchReason d w
  if r != 0 then s.skipDesc src d w r
  else
    let c := s.crossingOf src d w
    let keep := s.xng.votes.filter fun v => v.src != src
    let s := ({ s with xng := { s.xng with
      nextId := s.xng.nextId + 1, fetched := s.xng.fetched ++ [c], votes := keep ++ [(⟨src, c.b0, c.tiles, !d.sweep⟩ : XVote)] } }).refreshVotes
    let s := if d.pair then s.notePair ⟨src, d.nbr, s.expectedLead d c.b0, false, false⟩ else s
    s.pilotMessage d.slot d.raw w

/-- Time of a fetch: 16 windows before the window's start (R145). -/
def fetchLead : Nat := 16 * windowTicks

/-- The held pushed crossing with the earliest window start. -/
def State.firstHeld (s : State) : Option Held :=
  s.xng.held.foldl (fun best (h : Held) => match best with | none => some h | some (b : Held) => if h.winStart < b.winStart then some h else some b) none

/-- A held pushed crossing comes to its fetch: skipped as PUSH_MODE where the hardware schedules its window after all (R159). -/
def State.fetchHeld (s : State) (h : Held) : State :=
  let s := s.reach (h.winStart - fetchLead)
  let s := { s with xng := { s.xng with held := s.xng.held.erase h } }
  if h.winStart < s.xng.fetchFrom then s.unvoteFor (.pushed h.num)
  else if s.hostAt (h.winStart / cycleTicks) then s.fetchDesc (.pushed h.num) h.d h.winStart
  else s.skipDesc (.pushed h.num) h.d h.winStart 14

/-- The image walk's item comes to its fetch. -/
def State.fetchItem (s : State) : WalkItem → State
  | .fetch src d w => ((s.reach (w - fetchLead)).walkPast (some d.key)).fetchDesc src d w
  | .bad src d w => (s.walkPast (some d.key)).skipDesc src d w 1
  | .unreadable a w => ((s.hitPoison a 16).walkPast none).skipRing (Desc.ofWords 0 0 0 0) w false 1

/-- The sequencer fetches its next crossing: the earlier of the image walk's item and the held pushed crossings (R145, R147, R158, R159). -/
def State.fetchNext (s : State) : State :=
  if !s.on R.XNG_CTRL_enable || !s.hubUp then s
  else
    let (s, item) := s.walkNext walkFuel
    let s := match item, s.firstHeld with
      | none, none => s
      | none, some h => s.fetchHeld h
      | some i, none => s.fetchItem i
      | some i, some h =>
        let before := match i with | .fetch _ _ w => decide (w ≤ h.winStart) | _ => true
        if before then s.fetchItem i else s.fetchHeld h
    s.pruneVotes

/-! ### Votes and warm commands ahead of the fetch (R151, R155, R158) -/

/-- The descriptor and window start that a reference names, where the sequencer will serve it. -/
def State.lookAhead (s : State) (x : XRef) : Option (XSrc × Desc × Nat) :=
  if !s.on R.XNG_CTRL_enable || !s.hubUp then none
  else match x with
  | .held i => (s.xng.held[i]?).map fun h => (.pushed h.num, h.d, h.winStart)
  | .image i next =>
    let c := s.now / cycleTicks + next.toNat
    let a := s.imageAddr (s.imageIn c) i
    if s.imageCount (s.imageIn c) ≤ i || !s.descReadable a || s.hostAt c then none
    else
      let d := s.descAt a
      if !d.valid || d.startIn c < max s.xng.fetchFrom s.now then none else some (.image c i, d, d.startIn c)

/-- The vote scan of an image crossing; a held one has its vote already (R155, R159). -/
def State.voteScan (s : State) (x : XRef) : State :=
  match x, s.lookAhead x with
  | .image .., some (src, d, w) =>
    let b0 := s.descB0 d w
    (s.reach (b0 - s.voteLead)).voteFor ⟨src, b0, s.descTiles d, !d.sweep⟩
  | _, _ => s

/-- 64 µs before a crossing its powered tiles in OFF are commanded to WARM (R151); on the way each finds new coarse DC codes (R46). -/
def State.warmCommand (s : State) (x : XRef) (codes : List (Nat × Nat × Int × Int)) : State :=
  match s.lookAhead x with
  | none => s
  | some (_, d, w) =>
    let s := s.reach (s.descB0 d w - 80000)
    forBits 8 (s.descTiles d) (fun t s => if s.tileRuns t && (s.tile t).radio == .off then (s.tileToWarm t).writeCoarse t codes else s) s

/-! ### Image commits and enable (R145, R147) -/

/-- The boundary at which a commit that takes effect now switches the image (R145). -/
def State.commitBoundary (s : State) : Nat :=
  let c := s.now / cycleTicks
  if s.now % cycleTicks < 4080 * windowTicks then (c + 1) * cycleTicks else (c + 2) * cycleTicks

/-- The effect of XNG_COMMIT.go: the image is selected for a cycle boundary. A switch already due at an earlier boundary stands; one for the same boundary
or a later one is replaced (log 131). -/
def State.xngCommit (s : State) (image : Nat) : State :=
  let b := s.commitBoundary
  let keep := s.xng.commit.filter fun (x : Nat × Nat) => x.2 < b
  ({ s with xng := { s.xng with commit := keep ++ [(image % 2, b)] } }.set R.XNG_COMMIT_pending 1).pruneVotes

/-- A committed image becomes live at its boundary; pending holds while another switch is to come (R145). -/
def State.imageSwitch (s : State) : State :=
  let due := s.xng.commit.filter fun (x : Nat × Nat) => x.2 ≤ s.now
  if due.isEmpty then s
  else
    let k := due.foldl (fun _ (x : Nat × Nat) => x.1) 0
    let rest := s.xng.commit.filter fun (x : Nat × Nat) => !(x.2 ≤ s.now)
    ((({ s with xng := { s.xng with commit := rest } }.set R.XNG_COMMIT_live k).set R.XNG_COMMIT_pending (!rest.isEmpty).toNat).fire 71).pruneVotes

/-- XNG_CTRL.enable takes a value: fetching begins with the first window at least 16 windows ahead (R147); with 0, votes of crossings not yet fetched go
(R155, R300). -/
def State.xngEnable (s : State) (en : Bool) : State :=
  let was := s.on R.XNG_CTRL_enable
  let s := s.set R.XNG_CTRL_enable en.toNat
  if en && !was then
    let first := (s.now + fetchLead + windowTicks - 1) / windowTicks * windowTicks
    ({ s with xng := { s.xng with fetchFrom := first, walkCycle := first / cycleTicks, walk := 0, lastKey := none } }).pruneVotes
  else s.pruneVotes

/-! ### The push ring (R158 to R160) -/

/-- A write of XNG_PUSH_PTR.wr: refused with BUSY where it would move wr backward or carry it onto or past rd (R158). refused is set for a posted write
alone, as R158 says it; Table 5.16 leaves the non-posted one open (log 132). -/
def State.pushPtr (s : State) (wr : Nat) (posted : Bool) : State × Status :=
  let rd := s.get R.XNG_PUSH_PTR_rd
  let dist (p : Nat) : Nat := (p % 256 + 256 - rd) % 256
  if dist wr < dist (s.get R.XNG_PUSH_PTR_wr) then (if posted then s.set R.XNG_PUSH_PTR_refused 1 else s, .busy)
  else (s.set R.XNG_PUSH_PTR_wr wr, .ok)

/-- Scheduling is host-assisted at a window, as judged at the read of its entry: by the mode in force in the current cycle, by HUB_FUNC_MODE.sched as it
stands in a later one (R159). -/
def State.hostJudged (s : State) (cycle : Nat) : Bool :=
  if cycle ≤ s.now / cycleTicks then s.xng.hostSched else s.bit R.HUB_FUNC_MODE_bits 2

/-- The outcome of a pushed entry with window start w: a skip reason, 0 for accepted (R159). -/
def State.pushReason (s : State) (d : Desc) (w : Nat) : Nat :=
  if w < s.now + 80000 then 12
  else if s.now + 10485760 < w then 13
  else if w % windowTicks != 0 || w / windowTicks % 4096 != d.window then 1
  else if !s.hostJudged (w / cycleTicks) then 14
  else 0

/-- The hub reads the next push-ring entry while it can hold the crossing (R158, R159). -/
def State.pushRead (s : State) : State :=
  let rd := s.get R.XNG_PUSH_PTR_rd
  if rd = s.get R.XNG_PUSH_PTR_wr || 256 ≤ s.xng.held.length || !s.hubUp then s
  else
    let a := s.get R.XNG_PUSH_BASE_base * 32 + 32 * rd
    let s := (s.set R.XNG_PUSH_PTR_rd ((rd + 1) % 256)).fire 73
    if !inSram a 32 || s.poisonedIn a 32 then (s.hitPoison a 32).skipRing (Desc.ofWords 0 0 0 0) s.now true 1
    else
      let d := s.descAt a
      let w := s.word (a + 16) + 2 ^ 32 * s.word (a + 20)
      let r := s.pushReason d w
      if !d.valid then s
      else
        let num := s.xng.nextId
        let s := { s with xng := { s.xng with nextId := num + 1 } }
        if r != 0 then s.skipDesc (.pushed num) d w r
        else
          let s := { s with xng := { s.xng with held := s.xng.held ++ [(⟨num, d, w⟩ : Held)] } }
          s.voteFor ⟨.pushed num, s.descB0 d w, s.descTiles d, !d.sweep⟩

/-! ### Readiness (R153, R154, R168) -/

/-- Some tile of a mask has a property. -/
def someTile (mask : Nat) (p : Nat → Bool) : Bool := (List.range 8).any fun t => mask.testBit t && p t

/-- The first check of R153 that fails, then the coexistence refusals of R320 and R321; 0 where all hold. -/
def State.readyReason (s : State) (c : Crossing) (cxGnt : Bool) : Nat :=
  let n := c.d.nbr
  let tx := c.d.dir == 1
  if someTile c.tiles fun t => !s.tileRuns t || (s.tile t).radio == .off then 4
  else if someTile c.tiles fun t => !s.tileLocked t then 5
  else if !s.nbrEnabled n then 7
  else if tx && s.get (R.NBR_LIVE_state n) == 3 && !s.on (R.NBR_CFG_tx_when_lost n) then 8
  else if tx && (s.on (R.NBR_LIVE_spent_tx n) || (s.cipherHold && !s.cipherBypass n)) then 9
  else if (tx && s.pins.cxiGnt) || (c.coexAsked && !cxGnt) then 11
  else 0

/-- The slot's shadow holds the crossing's swatch ready in its direction (Table 5.4). -/
def State.shadowHolds (s : State) (c : Crossing) : Bool :=
  s.get (R.BF_BANK_state c.d.slot) == 2 && s.get (R.BF_BANK_shadow_swatch c.d.slot) == c.swatch && (s.slot c.d.slot).shadowDir == c.d.dir

/-- The swap instant of a crossing: B0, and on receive the propagation within a block, in whole ticks (R90, R154; log 23). -/
def State.swapInstant (s : State) (c : Crossing) : Nat :=
  if c.d.dir = 1 then c.b0 else c.b0 + s.prop c.d.nbr / 16 % s.blockTicks

/-- The preload and the swap request of a crossing (R100, R151). Whether the active bank holds the swatch already is judged at the swap's arm cut-off
(R154). -/
def State.askForSwatch (s : State) (c : Crossing) : State :=
  let s := if s.on R.XNG_CTRL_auto_preload && !s.shadowHolds c then (s.preload c.d.slot c.swatch c.d.dir).1 else s
  s.askSwap c.d.slot ⟨c.b0, s.swapInstant c - c.b0, some c.id, false, false⟩

/-- The MAC's choice for a transmit crossing is noted with it (R168). -/
def State.chooseFor (s : State) (c : Crossing) : State :=
  if c.d.dir = 0 || c.d.sweep then s
  else
    let (tag, ack, nofit) := s.chooseFrame c
    let s := if nofit then s.nbrStat c.d.nbr 14 else s
    s.updCrossing c.id fun y => { y with txTag := tag, ackOnly := ack }

/-- The readiness check of a slot's next crossing, with CX_GNT as sampled (R153, R154, R168, R320, R321). -/
def State.readiness (s : State) (slot : Nat) (cxGnt : Bool) : State :=
  match s.nextOn slot fun c => !c.checked with
  | none => s
  | some c =>
    let s := s.reach (c.b0 - 2560)
    let s := { s with pins := { s.pins with cxGnt := cxGnt } }
    let r := s.readyReason c cxGnt
    if r != 0 then s.skipCrossing c r
    else
      let s := forBits 8 c.tiles (fun t s => if (s.tile t).radio == .warm then s.tileRadio t .idle else s) s
      let s := s.updCrossing c.id fun y => { y with checked := true, coexHeld := c.coexAsked }
      (s.chooseFor c).askForSwatch c

/-! ### Turns, replies, start and end (R151, R156, R173) -/

/-- The used tiles still in IDLE are commanded to TX or RX (R151). -/
def State.turnCommand (s : State) (slot : Nat) : State :=
  match s.nextOn slot fun c => c.checked && !c.started with
  | none => s
  | some c =>
    let tx := c.d.dir == 1
    let s := s.reach (if tx then c.b0 - 50 else c.b0 - 40)
    forBits 8 c.tiles (fun t s => if (s.tile t).radio == .idle then s.tileTurn t tx else s) s

/-- The pair that a conditional crossing answers: the latest one whose expected lead start lies before B0 and within the 16 windows before it
(R173). -/
def State.pairFor (s : State) (c : Crossing) : Option XPair :=
  (s.xng.pairs.filter fun p => p.nbr == c.d.nbr && p.expected < 16 * c.b0 && 16 * c.b0 ≤ p.expected + 16 * 16 * windowTicks).foldl
    (fun best p => match best with | none => some p | some (b : XPair) => if b.expected ≤ p.expected then some p else some b) none

/-- A conditional reply is decided 40 ns before it starts (R173). -/
def State.condDecision (s : State) (slot : Nat) : State :=
  match s.nextOn slot fun c => c.checked && !c.started && c.d.cond with
  | none => s
  | some c =>
    let s := s.reach (c.b0 - 50)
    if (s.pairFor c).any (·.heard) then s else s.skipCrossing c 10

/-- A crossing starts (R99, R102, R134, R143, R151, R263). A transmission keeps the lead code of this instant (R119, R143; log 133). -/
def State.crossingStart (s : State) (slot : Nat) : State :=
  match s.nextOn slot fun c => c.checked && !c.started with
  | none => s
  | some c =>
    let s := s.reach c.b0
    let s := (((s.updCrossing c.id fun y => { y with started := true }).tensionTaken c.tiles).yarn slot).pmc 0x040 slot
    if c.d.dir = 1 then
      let code := leadCode (s.get R.MAC_CFG_short) (s.get (R.NBR_ADDR_short c.d.nbr)) (s.get R.PHY_LEAD_CFG_salt)
      ((s.updSlot slot fun x => { x with back := 0, code := code }).govern).txBuild c
    else
      let s := s.phySample slot
      let code := leadCode (s.get (R.NBR_ADDR_short c.d.nbr)) (s.get R.MAC_CFG_short) (s.slot slot).salt
      s.updSlot slot fun x => { x with code := code, sweepLeft := if c.d.sweep then c.d.len else x.sweepLeft, sweepLead := none }

/-- A frame of a crossing whose extent ends is cut short unless it is complete; a lead not heard by then is missed (R133, R134). -/
def State.endFrames (s : State) (c : Crossing) : State :=
  let slot := c.d.slot
  if c.d.dir = 1 then
    let s := s.txFinish slot
    if (s.slot slot).tx.isSome then s.underrun slot else s
  else
    let s := if c.searching then s.leadMissed slot c else s
    s.cutRx slot c.id

/-- A receive sweep whose blocks were not all recorded ends with its extent (R102). -/
def State.endSweep (s : State) (slot : Nat) : State :=
  if (s.slot slot).sweepLeft = 0 then s else s.sweepOver slot 7

/-- The extent of a slot's crossing ends (R133, R134, R155, R156, R170, R320, R321). -/
def State.crossingEnd (s : State) (slot : Nat) (cxGnt : Bool) : State :=
  match s.running slot with
  | none => s
  | some c =>
    let s := s.reach c.ends
    let s := (s.endFrames c).endSweep slot
    let s := if c.coexHeld && !cxGnt then s.bump R.COEX_STATUS_revoked else s
    let s := { s with pins := { s.pins with cxGnt := cxGnt } }
    let now := s.now
    let s := { s with xng := { s.xng with
      fetched := s.xng.fetched.filter fun (y : Crossing) => y.id != c.id,
      lastEnds := (s.xng.lastEnds.filter fun (e : Nat × Nat × Nat) => e.1 == now) ++ [(now, c.tiles, c.d.ret)] } }
    let s := s.yarn (16 + slot)
    let s := if c.d.dir = 0 then s.updNbr c.d.nbr fun x => { x with lastRxStart := max x.lastRxStart c.b0 } else s
    let s := (s.refreshCx.settleCxi).returnTiles c.tiles c.d.ret
    ((s.unvoteFor c.src).nbrPoke c.d.nbr)

/-- CROSSING_FETCH (R150). -/
def execCrossingFetch (s : State) : Out := .next s.fetchNext
/-- PUSH_ENTRY_READ (R159). -/
def execPushEntryRead (s : State) : Out := .next s.pushRead
/-- VOTE_SCAN (R155). -/
def execVoteScan (x : XRef) (s : State) : Out := .next (s.voteScan x)
/-- TILE_WARM_COMMAND (R151). -/
def execTileWarmCommand (w : WarmSeen) (s : State) : Out := .next (s.warmCommand w.x w.dcCodes)
/-- READINESS_CHECK (R153). -/
def execReadinessCheck (slot : Fin 16) (cxGnt : Bool) (s : State) : Out := .next (s.readiness slot.val cxGnt)
/-- TURN_COMMAND (R151). -/
def execTurnCommand (slot : Fin 16) (s : State) : Out := .next (s.turnCommand slot.val)
/-- COND_REPLY_DECISION (R173). -/
def execCondReplyDecision (slot : Fin 16) (s : State) : Out := .next (s.condDecision slot.val)
/-- CROSSING_START (R151). -/
def execCrossingStart (slot : Fin 16) (s : State) : Out := .next (s.crossingStart slot.val)
/-- CROSSING_END (R156). -/
def execCrossingEnd (slot : Fin 16) (cxGnt : Bool) (s : State) : Out := .next (s.crossingEnd slot.val cxGnt)
/-- COEX_REQUEST (R320). -/
def execCoexRequest (slot : Fin 16) (s : State) : Out := .next (s.coexRequest slot.val)
/-- CXI_REQ_RISE (R321). -/
def execCxiReqRise (pri : Bool) (s : State) : Out := .next (s.cxiRise pri)
/-- CXI_REQ_FALL (R321). -/
def execCxiReqFall (s : State) : Out := .next s.cxiFall
/-- PRELOAD_REPORT (R88). -/
def execPreloadReport (t : Fin 8) (c : CopySeen) (s : State) : Out := .next (s.preloadReport t.val c.slot.val c.ecc)
/-- ARM_CUTOFF (R91). -/
def execArmCutoff (slot : Fin 16) (s : State) : Out := .next (s.armCutoff slot.val)
/-- BANK_SWAP (R92). -/
def execBankSwap (slot : Fin 16) (s : State) : Out := .next (s.bankSwap slot.val)
/-- CAPTURE_TICK (R104). -/
def execCaptureTick (samples : List (Nat × List Nat)) (s : State) : Out := .next (s.captureTick samples)
/-- CAPTURE_DONE (R106). -/
def execCaptureDone (s : State) : Out := .next s.captureDone
/-- TENSION_TRIGGER (R107). -/
def execTensionTrigger (t : Fin 8) (byTemp : Bool) (s : State) : Out := .next (s.tensionTrigger t.val byTemp)
/-- TENSION_TIMEOUT (R111). -/
def execTensionTimeout (t : Fin 8) (s : State) : Out := .next (s.tensionTimeout t.val)

end Sys2Proof.Machine
end

