-- ==== Sys2Proof/Machine/PowerSteps.lean ====
section
/-! DEFINITION. Machine/PowerSteps.lean: lingers, falls and rises of the power domains, forcing and gating, hand-over of mesh time, and the
rails while the module runs (chapter 10, R295 to R303, R456; R186, R227, R228, R438). -/

namespace Sys2Proof.Machine

open Sys2Proof

/-! ### Falls -/

/-- An engine of the domain is in the middle of a word group, or waits for a device access (R186). -/
def Engine.midGroup (x : Engine) : Bool :=
  (x.state == .running || x.state == .waiting) && (x.ctx != .plain || match x.wait with
    | some (.msend _ _) => false
    | some (.mrecv _) => false
    | some .wfi => false
    | some _ => true
    | none => false)

/-- Every engine of the domain has come to a word boundary with no access outstanding, posted stores included (R186). -/
def State.drained (s : State) (d : Nat) : Bool :=
  (List.range 96).all fun g => engDomain g != d || !((s.eng g).midGroup || s.postedOut fun src => src == .store g)

/-- The hub core begins to fall toward MOOR: the hub arms the timetable wake where tt_wake and the image call for one (R300). -/
def State.armTimetableWake (s : State) : State :=
  match s.on R.PWR_CFG_tt_wake && s.on R.XNG_CTRL_enable, s.nextImageCrossing with
  | true, some b0 =>
    let s := s.set2 R.AON_TT_WAKE_tick (b0 - (s.voteLead + 250000))
    { s with aon := { s.aon with ttArmed := true } }
  | _, _ => { s with aon := { s.aon with ttArmed := false } }

/-- The hub core begins to fall: mesh time passes to the keeper; toward VIGIL the key store and the DRBG are zeroised first (R23, R299, R438,
Table 7.2). -/
def State.hubFalls (s : State) : State :=
  let s := { s with clk := { s.clk with holder := .keeper, frac := 0 } }
  if s.wanted 15 then s.armTimetableWake else s.zeroiseKeys.rngOff

/-- Domain d begins to fall. A tile that is forced down with crossings in progress ends their frames (R301, R446). -/
def State.fallDom (s : State) (d : Nat) : State :=
  let s := if 1 ≤ d && d ≤ 8 then s.cutTile (d - 1) else s
  let s := (s.beginDom d .falling).refreshDep
  (if d = 0 then s.hubFalls else s).refreshMode

/-- A linger ends with no vote (R296); the hub core does not fall where the timetable's next crossing has come within reach (R300). -/
def State.lingerEnd (s : State) (d : Nat) : State :=
  let s := if s.dom d = .linger then s.domSpan d else s
  let s := if d = 0 then s.refreshVotes else s
  if s.dom d = .linger && !s.wanted d then s.fallDom d else s

/-- The memories of a tile that its retention does not keep: all but the engine local memories and the weight banks of TILE_RETAIN (R96,
R303). -/
def State.loseTileMem (s : State) (t : Nat) : State :=
  let lost (a : Nat) : Bool :=
    let o := a - tileBase t
    tileBase t ≤ a && o < 0x800000 && !(0x200000 ≤ o && o < 0x280000)
      && !(0x100000 ≤ o && o < 0x180000 && s.bit (R.TILE_RETAIN_banks t) ((o - 0x100000) / 0x10000))
  { s with mem := s.mem.filter (fun c => !lost c.1), poison := s.poison.filter (fun a => !lost a) }

/-- Tile t is down: its radio is off, its banks and its memories but for the retained ones are lost, and so are the register values that are
kept in RUN alone (R9, R96, R303). -/
def State.tileDown (s : State) (t : Nat) : State :=
  let s := (((s.cutTile t).tileRadio t .off).loseBanks t).fabricStop (t % 8 + 1)
  let s := ((s.loseTileMem t).dropRegs fun r own => rowOfTile (t % 8) r own && r.keep == .runNone).set (R.TEMP_valid (t % 8)) 0
  s.updTile t fun x => { x with opened := x.opened.filter (fun sw => s.bit (R.TILE_RETAIN_banks t) (sw / 256)), irqHeld := 0, drifts := [] }

/-- Hub SRAM banks that HUB_RETAIN does not select, and the record memories of the register blocks, are lost in MOOR; a neighbour table in a
bank that is lost goes with it (R303, Table 5.13). -/
def State.loseHubMem (s : State) : State :=
  let lost (a : Nat) : Bool :=
    (0x1000000 ≤ a && a < 0x1C00000 && !s.bit R.HUB_RETAIN_banks ((a - 0x1000000) / 0x100000)) || (0x2000000 ≤ a && a < 0x3000000)
  let keepTable := s.bit R.HUB_RETAIN_banks 0
  let s := { s with mem := s.mem.filter (fun c => !lost c.1), poison := s.poison.filter (fun a => !lost a || (0x020A8000 ≤ a && a < 0x020B0000)) }
  let s := if keepTable then s
    else { s.dropRegs (fun r _ => r.owner == .nbr || r.owner == .nbrShadow) with nbrs := State.reset.nbrs }
  if s.bit R.HUB_RETAIN_banks 10 && s.bit R.HUB_RETAIN_banks 11 then s else { s with upd := State.reset.upd }

/-- The hub core is down in MOOR: registers kept in RUN alone are lost, PWR_EN[3:1] are low, the RNG is held, links are DOWN, the fabric stops
(R9, R274, R303, Tables 7.6, 10.3, 15.3a). -/
def State.enterMoor (s : State) : State :=
  let s := (s.dropRegs fun r _ => r.owner != .tile && r.owner != .elem && r.keep == .runNone && !aonRow r).loseHubMem
  let s := (s.lowerRails [3, 2, 1]).rngHold
  let tcxo := s.on R.AON_KEEP_CFG_tcxo_in_moor
  let s := { s with
    pwr := { s.pwr with mode := .moor, tcxoEn := tcxo, tcxoReady := s.pwr.tcxoReady && tcxo, pllLocked := false },
    pins := { s.pins with tsOut := false, cxReq := false, cxPri := false, cxiGnt := s.pins.cxiReq, gpCells := (0, 0) },
    sys := { s.sys with crcLeft := .replicate 8 0 },
    lnk := { s.lnk with links := s.lnk.links.map fun (l : Link) => { l with state := .down } } }
  (s.fabricStop 0).spansPause.refreshCx

/-- The hub core is down in VIGIL: only AON state survives, and every rail and the TCXO are off (R299, R303, Table 15.3a). -/
def State.enterVigil (s : State) : State :=
  let s := (s.cold .supply).lowerRails [3, 2, 1, 0]
  { s with pwr := { s.pwr with mode := .vigil, tcxoEn := false, tcxoReady := false }, boot := { s.boot with step := 0, ready := false } }

/-- With both SerDes domains down HL_REFCLK need not be supplied: the next training waits for it to be detected again (R19). -/
def State.refclkLost (s : State) : State :=
  if s.domUpOrRising 9 || s.domUpOrRising 10 then s else { s with pwr := { s.pwr with refclk := false } }

/-- What a hub-side domain loses with its power: the lanes' links, work in decoders, encoders and pipes, flash operations (R229, R303, R366,
R387); a bell on the air goes back to pending. -/
def State.unitDown (s : State) (d : Nat) : State :=
  if d = 9 then (s.updLink 4 fun l => { l with state := .down }).refclkLost
  else if d = 10 then (forAll 4 (fun p s => s.updLink p fun l => { l with state := .down }) s).refclkLost
  else if d = 11 then forAll 16 (fun i s => (s.decoderReset i).encoderReset i) s
  else if d = 12 then forAll 8 (fun p s => s.pipeReset p) s
  else if d = 13 then s.flashStop
  else if d = 14 && s.aon.bellTx == .onAir then
    ({ s with aon := { s.aon with bellTx := .pending }, pins := { s.pins with wkTr := false } }).refreshCx.wkResume
  else s

/-- A wake from MOOR: the TCXO and PWR_EN[1] at once (R456). -/
def State.moorRise (s : State) : State :=
  ({ s.beginDom 0 .rising with pwr := { (s.beginDom 0 .rising).pwr with tcxoEn := true } }).enableRail 1

/-- A fall ends: the domain's state goes, and a vote that came meanwhile raises it at once (R296, R299). Units reset by a loss of power are
free again at the next rise. -/
def State.fallComplete (s : State) (d : Nat) : State :=
  if s.dom d != .falling || !s.drained d || (d = 0 && (List.range 13).any fun k => s.dom (k + 1) != .down) then s
  else
    let again := s.pwr.riseAgain.testBit d
    let s := s.domSpan d
    let s := { s with pwr := { s.pwr with riseAgain := if again then s.pwr.riseAgain - 2 ^ d else s.pwr.riseAgain } }
    if d = 0 then
      let s := s.setDom 0 .down
      if s.wanted 15 then
        let s := s.enterMoor
        if again then s.moorRise else s
      else
        let s := s.enterVigil
        if again then s.startRails .vigilWake else s
    else
      let s := s.setDom d .down
      let now := s.now
      let s := if 1 ≤ d && d ≤ 8 then { s.tileDown (d - 1) with pwr := { (s.tileDown (d - 1)).pwr with rfOffAt := now + 125000 } } else s.unitDown d
      ((if s.wanted d then s.settle d else s).refreshDep).refreshMode

/-! ### Rises -/

/-- The rise of a tile ends in WARM: every bank of it is empty, and fragments of banks that were not retained are unsealed (R96, R155). A
TILE reset or missing RF rails hold it (R298, R334). -/
def State.tileRisen (s : State) (t : Nat) : State :=
  let s := forAll 64 (fun w s =>
    if s.bit (R.TILE_RETAIN_banks t) (w / 8) then s else s.set (R.TILE_SEAL_MAP_sealed t w) 0) s
  (s.loseBanks t).tileToWarm t

/-- A domain other than the hub core has risen (Table 10.1). A pool or a pipe that lost its power takes work again. -/
def State.domRisen (s : State) (d : Nat) : State :=
  let tile := 1 ≤ d && d ≤ 8
  if s.dom d != .rising || d = 0 || (tile && (!(s.pwr.pwrGood.testBit 2 && s.pwr.pwrGood.testBit 3) || (s.tile (d - 1)).inReset)) then s
  else
    let s := (((s.domSpan d).setDom d .up).pmc 0x121 d).refreshMode
    let s := if tile then s.tileRisen (d - 1)
      else if d = 11 then ({ s with phy := { s.phy with decReset := 0, encReset := 0 } }).feedEncoders
      else if d = 12 then forAll 8 (fun p s => s.updPipe p fun x => { x with inReset := false }) s
      else s
    s.settle d

/-- The sequencer fetches windows again from sixteen ahead (R147, R150): those that the hub slept through are passed over. -/
def State.resumeFetch (s : State) : State :=
  let first := (s.now + fetchLead + windowTicks - 1) / windowTicks * windowTicks
  { s with xng := { s.xng with fetchFrom := max s.xng.fetchFrom first } }

/-- The hub takes mesh time back from the keeper, whose slowdown ends (R23, R316). -/
def State.takeBack (s : State) : State :=
  { s with clk := { s.clk with holder := .hub, frac := 0, keeperSlow := 0 }, pwr := { s.pwr with pllLocked := true } }.set
    R.AON_KEEP_STATUS_slewing 0

/-- The RNG failed while the hub was down: the record and source 98 follow when the hub is up (R244). -/
def State.reportRng (s : State) : State :=
  if s.get R.SEC_STATUS_rng = 4 then (s.logHw 10 0xA3 s.healthFault).fire 98 else s

/-- The hub core is ready after a wake from MOOR: its rise is over and PWR_GOOD[1] is high (R456). Mesh time comes back, AON latches reach the
pending bits, the RNG resumes, and domains with votes rise (R23, R294, R296, R423). -/
def State.hubReady (s : State) : State :=
  if s.dom 0 != .rising || !s.pwr.pwrGood.testBit 1 then s
  else
    let failed := s.get R.SEC_STATUS_rng = 4
    let s := (((((s.domSpan 0).setDom 0 .up).pmc 0x121 0).takeBack).spansResume.latchesToPending.rngResume.resumeFetch).tsOutArm
    let s := if failed then s.reportRng else s
    let s := s.refreshFlashVote.refreshMode
    (forAll 13 (fun k s => s.settle (k + 1)) s).settleHub

/-! ### Votes, forcing and gating -/

/-- After a change of what domain d may listen to: it rises, or falls at once where force-off leaves it no vote (R301). -/
def State.resettle (s : State) (d : Nat) : State :=
  if s.forcedOff d && !s.wanted d && (s.domUp d || s.dom d = .rising) then s.fallDom d else s.settle d

/-- PWR_VOTE_SET_d (R296). -/
def State.voteSet (s : State) (d mask : Nat) : State :=
  if mask % 2 ^ 24 = 0 then s else (s.set (R.PWR_VOTE_votes d) (s.get (R.PWR_VOTE_votes d) ||| mask % 2 ^ 24)).settle d

/-- PWR_VOTE_CLR_d: bits 23:0, and the wake vote (R296). -/
def State.voteClr (s : State) (d mask : Nat) : State :=
  let v := s.get (R.PWR_VOTE_votes d)
  if v &&& mask % 2 ^ 25 = 0 then s else (s.set (R.PWR_VOTE_votes d) (v - (v &&& mask % 2 ^ 25))).settle d

/-- PWR_KEEL_DEFER shows the domains with a deferred request (R228). -/
def State.refreshDefer (s : State) : State := s.set R.PWR_KEEL_DEFER_deferred (s.pwr.deferForce ||| s.pwr.deferGate)

/-- A number with bit k given the value b. -/
def withBit (v k : Nat) (b : Bool) : Nat := if b then v ||| 2 ^ k else if v.testBit k then v - 2 ^ k else v

/-- A write of PWR_FORCE_OFF, its word given whole: each request of the deck for a domain with a keel vote is deferred, every other takes effect
(R228, R301). Field bit d - 1 holds domain d. -/
def State.forceWrite (s : State) (deck : Bool) (v : Nat) : State :=
  let s := (List.range 14).foldl (fun s k =>
    let d := k + 1
    let defer := v.testBit d && deck && s.keelVote d
    let s := { s with pwr := { s.pwr with deferForce := withBit s.pwr.deferForce d defer } }
    if defer then s else s.putBit R.PWR_FORCE_OFF_force k (v.testBit d)) s
  (List.range 14).foldl (fun s k => s.resettle (k + 1)) s.refreshDefer

/-- Domains whose clock gate bit acts (R302). -/
def gateable (d : Nat) : Bool := (1 ≤ d && d ≤ 8) || (11 ≤ d && d ≤ 13)

/-- A write of PWR_CLK_GATE, likewise; bits 9 and 10 have no effect, and encoders whose clocks are back take work (R228, R302). -/
def State.gateWrite (s : State) (deck : Bool) (v : Nat) : State :=
  ((List.range 13).foldl (fun s k =>
    let d := k + 1
    let defer := v.testBit d && deck && s.keelVote d && gateable d
    let s := { s with pwr := { s.pwr with deferGate := withBit s.pwr.deferGate d defer } }
    if defer then s else s.putBit R.PWR_CLK_GATE_gate k (v.testBit d)) s).refreshDefer.feedEncoders

/-- A write of PWR_KEEL_VOTE: where the keel withdraws a vote, a deferred request takes effect (R227, R228). -/
def State.keelVoteWrite (s : State) (v : Nat) : State :=
  let gone (d : Nat) : Bool := s.keelVote d && !v.testBit d
  let force := (List.range 16).filter fun d => gone d && s.pwr.deferForce.testBit d
  let gate := (List.range 16).filter fun d => gone d && s.pwr.deferGate.testBit d
  let s := s.set R.PWR_KEEL_VOTE_vote v
  let s := force.foldl (fun s d =>
    { s.setBit R.PWR_FORCE_OFF_force (d - 1) with pwr := { s.pwr with deferForce := withBit s.pwr.deferForce d false } }) s
  let s := gate.foldl (fun s d =>
    { s.setBit R.PWR_CLK_GATE_gate (d - 1) with pwr := { s.pwr with deferGate := withBit s.pwr.deferGate d false } }) s
  (List.range 16).foldl (fun s d => s.resettle d) s.refreshDefer

/-- The RF rails go low 100 µs after the last tile has fallen, with rf_in_doze 0 (R298). -/
def State.rfRailOff (s : State) : State :=
  if s.hubUp && !s.on R.PWR_CFG_rf_in_doze && (List.range 8).all fun t => s.dom (t + 1) == .down then (s.reach s.pwr.rfOffAt).lowerRails [3, 2]
  else s

/-! ### PWR_GOOD inputs and retries (R326, R436, R456) -/

/-- PWR_GOOD[k] rises: in step 2 the next enable follows; in a wake from MOOR, PWR_EN[2] follows where rf_in_doze is set or a tile vote waits; PWR_EN[3]
follows PWR_EN[2]. -/
def State.pwrGoodRise (s : State) (k : Nat) : State :=
  if !s.pwr.pwrEn.testBit k || s.pwr.pwrGood.testBit k then s
  else
    let s := { s with pwr := { s.pwr with pwrGood := s.pwr.pwrGood + 2 ^ k } }
    if s.boot.step = 2 then s.railsOn
    else if k = 1 && (s.on R.PWR_CFG_rf_in_doze || (List.range 8).any fun t => s.wanted (t + 1)) && !s.on R.PWR_THERM_shut then s.enableRail 2
    else if k = 2 then s.enableRail 3
    else s

/-- The 2 ms for which PWR_EN[k] was held low end; an enable asked for within them rises (R438). -/
def State.lowHoldEnd (s : State) (k : Nat) : State :=
  let asked := s.pwr.wakeHeld.testBit k
  let s := if s.pwr.lowHold.testBit k then s.reach (vget s.pwr.railEnd k) else s
  let s := { s with pwr := { s.pwr with lowHold := withBit s.pwr.lowHold k false, wakeHeld := withBit s.pwr.wakeHeld k false } }
  if !asked then s else if s.boot.step = 2 then s.railsOn else s.enableRail k

/-- A PWR_GOOD input is not high 10 ms after its enable (R326). -/
def State.railFailure (s : State) (k : Nat) : State :=
  if s.pwr.pwrEn.testBit k && !s.pwr.pwrGood.testBit k then (s.reach (vget s.pwr.railEnd k)).railDown k false else s

/-- 100 ms after a failure step 2 is tried again (R326). -/
def State.railRetry (s : State) : State :=
  if s.boot.kind = .rail && s.boot.step = 2 && s.pwr.pwrEn = 0 && !s.pwr.railsHeld then ((s.reach s.pwr.retryAt).setDom 15 .up).railsOn else s

/-- LINGER_END (R296). -/
def execLingerEnd (d : Fin 16) (s : State) : Out := .next (s.lingerEnd d.val)
/-- HUB_READY (R456). -/
def execHubReady (s : State) : Out := .next s.hubReady
/-- RF_RAIL_OFF (R298). -/
def execRfRailOff (s : State) : Out := .next s.rfRailOff
/-- PWR_GOOD_RISE (R436). -/
def execPwrGoodRise (k : Fin 4) (s : State) : Out := .next (s.pwrGoodRise k.val)
/-- RAIL_FAILURE (R326). -/
def execRailFailure (k : Fin 4) (s : State) : Out := .next (s.railFailure k.val)
/-- RAIL_RETRY (R326). -/
def execRailRetry (s : State) : Out := .next s.railRetry
/-- ENABLE_LOW_HOLD_END (R438). -/
def execEnableLowHoldEnd (k : Fin 4) (s : State) : Out := .next (s.lowHoldEnd k.val)

end Sys2Proof.Machine
end

