-- ==== Sys2Proof/Machine/Wake.lean ====
section
/-! DEFINITION. Machine/Wake.lean: wake sources, latches and records, the AON timer, the crystal, OFF, and the pins and sensors that the AON die
watches (chapters 10, 11 and 15: R306 to R311, R324 to R326, R386, R445, R446). -/

namespace Sys2Proof.Machine

open Sys2Proof

/-! ### Latches and wake records (R294, R306, R307) -/

/-- A source of the AON die meets a hub that is down: an armed latch takes it (R294, R306). -/
def State.latch (s : State) (i : Nat) : State :=
  if !s.hubUp && s.bit R.AON_LATCH_EN_sources i then { s with aon := { s.aon with latches := s.aon.latches ||| 2 ^ i } } else s

/-- Source 448 + i: fired with the hub up, latched with it down. -/
def State.aonSource (s : State) (i : Nat) : State := if s.hubUp then s.fire (448 + i) else s.latch i

/-- Coarse time: units of 1.024 ms (R307, R313). -/
def coarseTicks : Nat := 1280000
def coarseOf (t : Nat) : Nat := t / coarseTicks % 65536

/-- The wake record as a word (Table 10.13). -/
def State.wakeWord (s : State) : Nat :=
  s.get R.AON_WAKE_LAST_src * 2 ^ 28 + s.get R.AON_WAKE_LAST_detail * 2 ^ 24 + s.get R.AON_WAKE_LAST_coarse * 2 ^ 8 + s.get R.AON_WAKE_LAST_count

/-- A wake is recorded: the earlier record goes into the history, newest first, and off_arm clears (R307, R310). -/
def State.wakeRecord (s : State) (code detail : Nat) : State :=
  let old := s.wakeWord
  let s := (List.range 7).foldl (fun s i => s.set (R.AON_WAKE_HIST_record (7 - i)) (s.get (R.AON_WAKE_HIST_record (6 - i)))) s
  let s := s.set (R.AON_WAKE_HIST_record 0) old
  let s := ((s.set R.AON_WAKE_LAST_src code).set R.AON_WAKE_LAST_detail detail).set R.AON_WAKE_LAST_coarse (coarseOf s.now)
  (s.bumpWrap R.AON_WAKE_LAST_count).set R.AON_PWR_CMD_off_arm 0

/-- Channel A, or B, is not disabled: it does not lie beyond the band edge (R312). -/
def State.wkUsable (s : State) (b : Bool) : Bool :=
  (if b then s.get R.AON_WK_FREQ_k_b else s.get R.AON_WK_FREQ_k_a) ≤ (if s.on R.AON_WK_CFG_band then 1040 else 280)

/-- The channel of a wake receiver is not disabled (R312). -/
def State.wkChannelOk (s : State) (n : Nat) : Bool := s.wkUsable (s.bit R.AON_WK_RX_chan n)

/-- A write of AON_WK_RX, AON_WK_FREQ or the band enables or disables receivers (Table 10.8). -/
def State.wkRefresh (s : State) : State :=
  forAll 4 (fun n s =>
    let want := s.bit R.AON_WK_RX_en n && s.wkChannelOk n && s.pwr.mode != .off
    if want then (if s.wkState n = 0 then s.setWk n (if s.aon.bellTx == .onAir then 3 else 1) else s) else s.setWk n 0) s

/-- The module leaves OFF: the crystal restarts, and mesh time goes on from its held value on the RC oscillator (R310, R325). -/
def State.leaveOff (s : State) : State :=
  let s := { s with clk := { s.clk with holder := .keeper, incr := State.reset.clk.incr }, pwr := { s.pwr with mode := .vigil } }
  s.wkRefresh

/-- The module sleeps in VIGIL: no start is under way, and none is barred (Tables 10.3, 10.4). -/
def State.inVigil (s : State) : Bool := s.pwr.mode == .vigil && s.boot.step = 0 && !s.pwr.railsHeld

/-- A wake can start the module: the hub core is down or falling, and neither a boot nor a rise is under way (R338). -/
def State.asleep (s : State) : Bool := s.boot.step = 0 && (s.dom 0 == .down || s.dom 0 == .falling) && !s.pwr.railsHeld

/-- Another enabled source in the crystal period of the last wake record: the one record shows the lowest code (R307). -/
def State.wakeLower (s : State) (code detail : Nat) : State :=
  if s.aon.wakeOpen && code < s.get R.AON_WAKE_LAST_src then (s.set R.AON_WAKE_LAST_src code).set R.AON_WAKE_LAST_detail detail else s

/-- A crystal edge has come: the next wake has a record of its own (R307). -/
def State.crystalEdge (s : State) : State := { s with aon := { s.aon with wakeOpen := false } }

/-- A wake with its code and detail: record, wake vote, and the way up from MOOR, VIGIL or OFF; a falling hub core rises when its fall has ended
(R296, R299, R306, R309, R310). -/
def State.wake (s : State) (code detail : Nat) : State :=
  if !s.asleep then s.wakeLower code detail
  else
    let s := s.wakeRecord code detail
    let s := { s with aon := { s.aon with wakeOpen := true } }
    if s.dom 0 == .falling then s.vote 0 24
    else
      match s.pwr.mode with
      | .moor => (s.setBit (R.PWR_VOTE_votes 0) 24).moorRise
      | .vigil => (s.startRails .vigilWake).setBit (R.PWR_VOTE_votes 0) 24
      | .off => (s.leaveOff.startCold .offWake).setBit (R.PWR_VOTE_votes 0) 24
      | _ => s

/-- The wake code is enabled in AON_WAKE_EN; in OFF, WAKE_N alone wakes, and always (Table 10.6). -/
def State.wakeEnabled (s : State) (code : Nat) : Bool :=
  if s.pwr.mode == .off then code == 3 else s.bit R.AON_WAKE_EN_codes (code - 1)

/-- GP pins, and PNT_SYNC, take the edges chosen for them: 1 rising, 2 falling, 3 both (R306). -/
def edgeTaken (sel : Nat) (rise fall : Bool) : Bool := (sel.testBit 0 && rise) || (sel.testBit 1 && fall)

/-- The state supports the source of a pin: GP0 to GP15, WAKE_N (16), TS_IN (17), PNT_SYNC (18) (Table 10.6, R440). -/
def State.pinSupported (s : State) (i : Nat) : Bool :=
  match s.pwr.mode with
  | .off => i == 16
  | .vigil => i < 4 || i == 16 || i == 17
  | _ => true

/-- The pin's event of its chosen edge. WAKE_N is ignored while the module drives it and for 10 µs after (R322). -/
def State.pinEvent (s : State) (rise fall i : Nat) : Bool :=
  s.pinSupported i && (if i < 16 then edgeTaken (s.get R.AON_WAKE_EDGE_edges / 4 ^ i % 4) (rise.testBit i) (fall.testBit i)
    else if i = 16 then fall.testBit 16 && !s.aon.wakeDrive && s.aon.wakeQuiet ≤ s.now
    else if i = 17 then rise.testBit 17
    else edgeTaken (s.get R.AON_WAKE_CFG_pnt_edge) (rise.testBit 18) (fall.testBit 18))

/-- Wake code of a pin's source, 0 for none: TS_IN wakes in VIGIL alone (Table 10.6). -/
def State.pinCode (s : State) (i : Nat) : Nat :=
  if i < 16 then 5 else if i = 16 then 3 else if i = 17 then (if s.pwr.mode == .vigil then 7 else 0) else 6

/-- A level mask after edges: a pin that did both within one crystal period is where it was. -/
def afterEdges (level rise fall : Nat) : Nat := maskOf 16 fun i => (level.testBit i && !(fall.testBit i && !rise.testBit i)) || (rise.testBit i && !fall.testBit i)

/-- Edges on pins with the hub down, within one crystal period: armed latches take them, and the lowest enabled code wakes, one record for
all (R306, R307). WAKE_N falling also ends a stop after three rail failures (R326). -/
def State.wakeEdges (s : State) (rise fall : Nat) : State :=
  let s := { s with pins := { s.pins with gpIn := afterEdges s.pins.gpIn rise fall } }
  if s.hubUp then s
  else
    let hit := (List.range 19).filter (s.pinEvent rise fall)
    let s := hit.foldl (fun s i => if s.pwr.mode == .off then s else s.latch i) s
    let codes := hit.filter fun i => s.pinCode i != 0 && s.wakeEnabled (s.pinCode i)
    if s.pwr.railsHeld && hit.contains 16 then
      ({ s with pwr := { s.pwr with railsHeld := false, railFails := 0 } }).startRails .rail
    else
      match codes.foldl (fun (b : Option Nat) i => match b with
        | some j => if s.pinCode i < s.pinCode j then some i else some j
        | none => some i) none with
      | some i => s.wake (s.pinCode i) (if i < 16 then i else 0)
      | none => s

/-- The AON timer: mesh time has reached AON_TIMER_CMP; it clears its enable, and fires source 467 with the hub up or acts as a wake source
(R308). -/
def State.aonTimer (s : State) : State :=
  if !s.on R.AON_TIMER_CTRL_en || s.clk.holder == .stopped then s
  else
    let s := if s.now < s.get2 R.AON_TIMER_CMP_tick then s.crystalEdge else s
    let s := ((s.reach (s.get2 R.AON_TIMER_CMP_tick)).set R.AON_TIMER_CTRL_en 0).aonSource 19
    if !s.hubUp && s.wakeEnabled 4 then s.wake 4 0 else s

/-- Mesh time reaches AON_TT_WAKE in MOOR: the keeper raises wake code TIMETABLE (R300). -/
def State.timetableWake (s : State) : State :=
  if !s.aon.ttArmed || s.pwr.mode != .moor then s
  else
    let s := if s.now < s.get2 R.AON_TT_WAKE_tick then s.crystalEdge else s
    let s := s.reach (s.get2 R.AON_TT_WAKE_tick)
    ({ s with aon := { s.aon with ttArmed := false } }).wake 8 0

/-! ### OFF, crystal and keeper (R22, R310, R311, R324, R325) -/

/-- Entry to VIGIL with off_arm set continues into OFF: crystal, keeper and wake receivers stop (R310). -/
def State.enterOff (s : State) : State :=
  if s.pwr.mode != .vigil || s.boot.step != 0 || s.dom 0 != .down || !s.on R.AON_PWR_CMD_off_arm then s
  else
    let s := { s with
      pwr := { s.pwr with mode := .off, xtalStable := false },
      clk := { s.clk with holder := .stopped, frac := 0, keeperSlow := 0 } }
    (((s.set R.AON_KEEP_STATUS_valid 0).set R.AON_KEEP_STATUS_slewing 0).set R.AON_CLK_STATUS_on_xtal 0).set R.AON_WK_STATE_states 0

/-- The nominal increment of the keeper (R21). -/
def nominalIncr : Nat := 0x00009502F9000000

/-- The crystal is stable: the AON die takes its clock from it, the keeper the nominal increment, and a start waiting in step 1 goes on (R323
to R325). -/
def State.crystalStable (s : State) : State :=
  if s.pwr.mode == .off || s.pwr.xtalStable then s
  else
    let s := { s with pwr := { s.pwr with xtalStable := true }, clk := { s.clk with incr := nominalIncr } }.set R.AON_CLK_STATUS_on_xtal 1
    if s.boot.step = 1 then s.startRails s.boot.kind else s

/-- The crystal is not stable after 2 s: step 2 proceeds on the RC oscillator (R324). -/
def State.crystalTimeout (s : State) : State :=
  if s.boot.step = 1 && !s.pwr.xtalStable then
    let s := (s.set R.AON_CLK_STATUS_xtal_fail 1).startRails s.boot.kind
    { s with boot := { s.boot with slow := true } }
  else s

/-- The TCXO is ready. -/
def State.tcxoUp (s : State) : State :=
  if !s.pwr.tcxoEn then s
  else
    let s := { s with pwr := { s.pwr with tcxoReady := true } }
    if s.boot.step = 2 then s.railsOn else s

/-- A span of 32,768 crystal periods ends: the hub on its locked clock, or the AON die in MOOR on the TCXO, writes the measured increment
(R22, R311). count is in cycles of 1.25 GHz, or of 40 MHz. -/
def State.calibrateKeeper (s : State) (count : Nat) : State :=
  if s.hubUp && s.pwr.pllLocked then { s with clk := { s.clk with incr := count * 2 ^ 17 } }
  else if s.pwr.mode == .moor && s.on R.AON_KEEP_CFG_tcxo_in_moor then { s with clk := { s.clk with incr := count * 125 * 2 ^ 15 } }
  else s

/-- The keeper's slowdown is absorbed (R316). -/
def State.slewEnd (s : State) : State := { s with clk := { s.clk with keeperSlow := 0 } }.set R.AON_KEEP_STATUS_slewing 0

/-! ### PWR_GOOD, THERM_N, HOLDUP_SENSE, temperature -/

/-- A PWR_GOOD input drops while its rail is enabled (R326). -/
def State.pwrGoodDrop (s : State) (k : Nat) : State :=
  if s.pwr.pwrEn.testBit k && s.pwr.pwrGood.testBit k then
    ({ s.aonSource 23 with pwr := { (s.aonSource 23).pwr with pwrGood := withBit (s.aonSource 23).pwr.pwrGood k false } }).railDown k true
  else s

/-- An external low on THERM_N (R446). -/
def State.thermLow (s : State) : State :=
  if s.pins.thermNLow then s else (if s.hubUp then s.set R.PWR_THERM_ext 1 else s).aonSource 22

/-- One comparison of HOLDUP_SENSE (R386). -/
def State.holdupSample (s : State) (code : Nat) : State :=
  let r := s.holdupCompare code
  if r.2 then r.1.aonSource 24 else r.1

/-- The die of a sensor is up: 0 to 7 the tiles, 8 the hub, 9 the AON die, read while the hub is up (R445). -/
def State.sensorUp (s : State) (k : Nat) : Bool := s.hubUp && (8 ≤ k || s.tileUp k)

/-- A thermal shutdown: THERM_N low, every tile forced down, its frames ended as under a TILE reset, PWR_EN[3] and [2] low, one record (R446). -/
def State.thermalShutdown (s : State) (k : Nat) : State :=
  let detail := k + s.get (R.TEMP_temp k) * 2 ^ 16
  let s := (s.set R.PWR_THERM_shut 1).set R.PWR_THERM_sensor k
  let s := { s with pins := { s.pins with thermNLow := true } }
  let s := forAll 8 (fun t s => if s.domUp (t + 1) || s.dom (t + 1) == .rising then s.fallDom (t + 1) else s) s
  let s := s.lowerRails [3, 2]
  s.logErr ⟨13, if k < 8 then 0x60 + k else if k = 8 then 0xA4 else 0xA2, 0, detail, 7, 0, 0⟩

/-- A sensor updates: valid and the reading, the alert when it first exceeds its threshold, the shutdown from 125.0 °C (R445, R446). hot keeps
which sensors have read above 115.0 °C since the shutdown. -/
def State.tempSample (s : State) (k : Nat) (temp : Int) : State :=
  if !s.sensorUp k then s
  else
    let old := s.on (R.TEMP_valid k) && s.getS (R.TEMP_thresh k) < s.getS (R.TEMP_temp k)
    let s := (s.set (R.TEMP_valid k) 1).setS (R.TEMP_temp k) (clampI (-2048) 2047 temp)
    let v := s.getS (R.TEMP_temp k)
    let now := s.now
    let s := { s with sys := { s.sys with hot := withBit s.sys.hot k (1150 < v), coolAt := if 1150 < v then now + 1250000000 else s.sys.coolAt } }
    let s := if s.getS (R.TEMP_thresh k) < v && !old then
        let s := s.set (R.TEMP_alert k) 1
        let s := s.logErr ⟨13, if k < 8 then 0x60 + k else if k = 8 then 0xA4 else 0xA2, 0, k + s.get (R.TEMP_temp k) * 2 ^ 16, 7, 0, 0⟩
        if k < 8 then s.fireTile k 11 else s
      else s
    if 1250 ≤ v && !s.on R.PWR_THERM_shut then s.thermalShutdown k else s

/-- Every powered sensor has read 115.0 °C or less for 1 s: THERM_N is released, and rails and tiles follow votes again (R298, R446). -/
def State.thermalRecovery (s : State) : State :=
  if !s.on R.PWR_THERM_shut || (List.range 10).any fun k => s.sensorUp k && s.sys.hot.testBit k then s
  else
    let s := (s.reach s.sys.coolAt).set R.PWR_THERM_shut 0
    let s := { s with pins := { s.pins with thermNLow := false } }
    let s := if s.on R.PWR_CFG_rf_in_doze then s.raiseRf else s
    forAll 8 (fun t s => s.settle (t + 1)) s

/-- WAKE_SOURCE_EDGE (R306). -/
def execWakeSourceEdge (rise fall : Word) (s : State) : Out := .next (s.wakeEdges rise.toNat fall.toNat)
/-- AON_TIMER (R308). -/
def execAonTimer (s : State) : Out := .next s.aonTimer
/-- TIMETABLE_WAKE (R300). -/
def execTimetableWake (s : State) : Out := .next s.timetableWake
/-- ENTER_OFF (R310). -/
def execEnterOff (s : State) : Out := .next s.enterOff
/-- CRYSTAL_STABLE (R324). -/
def execCrystalStable (s : State) : Out := .next s.crystalStable
/-- CRYSTAL_TIMEOUT (R324). -/
def execCrystalTimeout (s : State) : Out := .next s.crystalTimeout
/-- TCXO_READY (R323). -/
def execTcxoReady (s : State) : Out := .next s.tcxoUp
/-- KEEPER_CALIBRATION (R22, R311). -/
def execKeeperCalibration (count : Nat) (s : State) : Out := .next (s.calibrateKeeper count)
/-- KEEPER_SLEW_END (R316). -/
def execKeeperSlewEnd (s : State) : Out := .next s.slewEnd
/-- PWR_GOOD_DROP (R326). -/
def execPwrGoodDrop (k : Fin 4) (s : State) : Out := .next (s.pwrGoodDrop k.val)
/-- THERM_N_LOW (R446). -/
def execThermNLow (s : State) : Out := .next s.thermLow
/-- HOLDUP_COMPARE (R386). -/
def execHoldupCompare (code : Fin 4096) (s : State) : Out := .next (s.holdupSample code.val)
/-- TEMP_SAMPLE (R445). -/
def execTempSample (sensor : Fin 10) (temp : Int) (s : State) : Out := .next (s.tempSample sensor.val temp)
/-- THERMAL_RECOVERY (R446). -/
def execThermalRecovery (s : State) : Out := .next s.thermalRecovery

end Sys2Proof.Machine
end

