-- ==== Sys2Proof/Machine/WakePlane.lean ====
section
/-! DEFINITION. Machine/WakePlane.lean: wake receivers, bells received and sent, and the duty-cycle governor (chapter 10, R312 to R319;
R251, R252). -/

namespace Sys2Proof.Machine

open Sys2Proof

/-! ### Receivers (Table 10.8) -/

/-- A sniff of a listening receiver: energy above the threshold begins continuous reception. -/
def State.sniff (s : State) (r energy : Nat) : State :=
  if s.wkState r = 1 && s.get R.AON_WK_CFG_thresh < energy then
    let now := s.now
    { s.setWk r 2 with aon := { (s.setWk r 2).aon with detectAt := vset s.aon.detectAt r now } }
  else s

/-- No sync word within 5 ms of DETECT. -/
def State.detectTimeout (s : State) (r : Nat) : State :=
  if s.wkState r = 2 then (s.reach (vget s.aon.detectAt r + 6250000)).setWk r 1 else s

/-! ### Bells on the air (Table 10.9, R251, R313) -/

/-- Bytes under the tag: target, command, coarse time and the context byte, most significant byte first. -/
def bellMessage (target command time ctx : Nat) : List Byte :=
  [target / 256, target, command, time / 256, time, ctx].map fun n => BitVec.ofNat 8 n

/-- The tag of a bell under the module's key. -/
def State.bellTag (s : State) (target command time : Nat) : Nat :=
  cmacTag s.bellKey (bellMessage target command time (s.get R.AON_BELL_CTRL_ctx))

/-- CRC-16 over bits 32 to 87. -/
def bellCrc (target command time tag : Nat) : Nat :=
  headerCrc ([target / 256, target, command, time / 256, time, tag / 256, tag].map fun n => BitVec.ofNat 8 n)

/-- The bell's CRC passes. -/
def bellCrcOk (b : Bell) : Bool := bellCrc b.target b.command b.time b.tag == b.crc % 65536

/-- The bell authenticates: a key is loaded and the tag matches (R251, R252). -/
def State.bellAuth (s : State) (b : Bell) : Bool :=
  s.on R.AON_BELL_CTRL_key_valid && s.bellTag b.target b.command b.time == b.tag % 65536

/-- The target is this module's short or group address, or the broadcast address where that is accepted (R314). -/
def State.bellForMe (s : State) (b : Bell) : Bool :=
  b.target == s.get R.AON_WK_ADDR_short || b.target == s.get R.AON_WK_ADDR_group || (b.target == 0xFFFF && s.on R.AON_WK_CFG_bcast)

/-- Ticks from the end of the sync word to the end of bit 103, and from the start of the preamble to the end of the sync word. -/
def bellTail : Nat := 11250000
def bellHead : Nat := 5000000

/-- Mesh time at the end of the sync word of a bell that ends now. -/
def State.bellSync (s : State) : Int := (s.now : Int) - bellTail

/-- Local coarse unit that the time field is compared with, not reduced (R314). -/
def State.bellUnit (s : State) : Int := (s.bellSync - bellHead) / coarseTicks

/-- Difference of the time field and the local unit, modulo 65,536, as a signed number. -/
def State.bellSkew (s : State) (b : Bell) : Int := signed 16 (unsigned 16 ((b.time : Int) - s.bellUnit))

/-- The bell repeats one accepted in the preceding 8 units (R252). -/
def State.bellReplay (s : State) (b : Bell) : Bool :=
  s.aon.bells.any fun (x : Nat × Nat × Nat × Nat) =>
    x.1 == b.target && x.2.1 == b.command && x.2.2.1 == b.time && s.now / coarseTicks ≤ x.2.2.2 + 8

/-- Coarse resynchronisation by an accepted bell while the keeper holds mesh time (R316): a large lag steps the keeper forward, a large lead
slows it. The answer says whether either happened. -/
def State.bellResync (s : State) (b : Bell) : State × Bool :=
  if s.clk.holder != .keeper || !s.on R.AON_KEEP_CFG_resync then (s, false)
  else
    let t := s.bellUnit + s.bellSkew b
    let e := t * coarseTicks + bellHead - s.bellSync + clampI (-10000) 10000 (Config.latencyError s.freeCtr)
    let s := s.tickFree
    if 80000 < e then
      ({ s with clk := { s.clk with mesh := s.clk.mesh + e.toNat, keeperSlow := 0 } }.set R.AON_KEEP_STATUS_slewing 0, true)
    else if e < -80000 then ({ s with clk := { s.clk with keeperSlow := (-e).toNat } }.set R.AON_KEEP_STATUS_slewing 1, true)
    else (s, false)

/-- Source BELL: latched or fired, and a wake where its code is enabled (R306, R315). -/
def State.bellSource (s : State) (r : Nat) : State :=
  let s := s.aonSource 20
  if !s.hubUp && s.wakeEnabled 1 then s.wake 1 r else s

/-- What an accepted bell does (R315, R316). -/
def State.bellAccept (s : State) (r : Nat) (b : Bell) : State :=
  let unit := s.now / coarseTicks
  let s := { s with aon := { s.aon with
    bells := (s.aon.bells.filter fun (x : Nat × Nat × Nat × Nat) => unit ≤ x.2.2.2 + 8) ++ [(b.target, b.command, b.time, unit)] } }
  let s := ((s.set R.AON_BELL_LAST_target b.target).set R.AON_BELL_LAST_command b.command).set R.AON_BELL_LAST_arg (b.command % 64)
  let q := s.bellResync b
  let s := ((q.1.set R.AON_BELL_LAST2_resynced q.2.toNat).set R.AON_BELL_LAST2_receiver r).set R.AON_BELL_LAST2_time b.time
  let action := b.command / 64 % 4
  let s := if action = 2 then 
      { s with aon := { s.aon with wakeDrive := true, wakeEnd := s.now + 1250000 * max 1 (s.get R.AON_WAKE_CFG_pulse) } }
    else s
  if action = 1 || action = 2 then s.bellSource r else s

/-- A bell in hardware wake mode: CRC, target, tag, time and replay, each rejection counted but for another target's (R252, R314). -/
def State.bellCheck (s : State) (r : Nat) (b : Bell) : State :=
  if !bellCrcOk b then s.bump R.AON_BELL_REJ_crc
  else if !s.bellForMe b then s
  else if !s.bellAuth b then s.bump R.AON_BELL_REJ_auth
  else if s.bellSkew b < -2 || 2 < s.bellSkew b then s.bump R.AON_BELL_REJ_time
  else if s.bellReplay b then s.bump R.AON_BELL_REJ_replay
  else s.bellAccept r b

/-- A bell in host-assisted wake mode: its bits and both results are kept, and a bell whose CRC passes may wake the module (R317). -/
def State.bellRaw (s : State) (r : Nat) (b : Bell) : State :=
  let unread := s.aon.rawUnread
  let s := ((s.set R.AON_BELL_RAW0_target b.target).set R.AON_BELL_RAW0_command b.command).set R.AON_BELL_RAW1_time b.time
  let s := ((s.set R.AON_BELL_RAW1_tag b.tag).set R.AON_BELL_RAW2_crc b.crc).set R.AON_BELL_RAW2_ovw unread.toNat
  let s := (s.set R.AON_BELL_RAW2_auth_ok (s.bellAuth b).toNat).set R.AON_BELL_RAW2_crc_ok (bellCrcOk b).toNat
  let s := { s with aon := { s.aon with rawUnread := true } }
  if bellCrcOk b && !s.hubUp then
    let s := s.latch 20
    if s.wakeEnabled 1 then s.wake 1 r else s
  else s

/-- Bit 103 of a bell reaches receiver r; the mode is the old one where its sync word came before the last change (R30, R314, R317). -/
def State.bellReceived (s : State) (r : Nat) (b : Bell) (syncBefore : Bool) : State :=
  if s.wkState r != 2 then s
  else
    let s := s.setWk r 1
    let host := if syncBefore then s.aon.oldMode else s.bit R.HUB_FUNC_MODE_bits 7
    let b : Bell := ⟨b.target % 65536, b.command % 256, b.time % 65536, b.tag % 65536, b.crc % 65536⟩
    if host then s.bellRaw r b else s.bellCheck r b

/-- The module's drive of WAKE_N ends; its input is ignored for 10 µs more (R315, R322). -/
def State.wakePulseEnd (s : State) : State :=
  if s.aon.wakeDrive then
    let s := s.reach s.aon.wakeEnd
    { s with aon := { s.aon with wakeDrive := false, wakeQuiet := s.now + 12500 } }
  else s

/-! ### Sending bells (R318, R319) -/

/-- The duty setting in force, in 0.01 % (Table 10.14). -/
def State.duty (s : State) : Nat := min 10000 (s.get R.AON_DUTY_duty)

/-- The bucket comes up to date: it refills with duty and stops at its capacity, in 1/10,000 tick (R319). -/
def State.fillBucket (s : State) : State :=
  let cap := s.duty * 4500000000000
  { s with aon := { s.aon with bucket := min cap (s.aon.bucket + (s.now - s.aon.bucketAt) * s.duty), bucketAt := s.now } }

/-- A write of AON_DUTY takes effect on a bucket brought up to date before it. -/
def State.dutyWrite (s : State) (v : Nat) : State := (s.fillBucket.set R.AON_DUTY_duty v).fillBucket

/-- Air time of a bell, 13 ms, in the bucket's unit. -/
def bellCost : Nat := 16250000 * 10000

/-- A pending bell, or one on the air, is over with a status: 0 OK, 2 DUTY. -/
def State.bellOver (s : State) (status : Nat) : State :=
  let s := { s with aon := { s.aon with bellTx := .none } }
  ((s.set R.AON_BELL_TX_go 0).set R.AON_BELL_TX_STATUS_status status).unvote 14 25

/-- A write of AON_BELL_TX: go asks for one bell, is refused BUSY while one is pending, and ends with NOKEY without a key (R252, R318). -/
def State.bellRequest (s : State) (data : Nat) : State × Status :=
  let go := data.testBit 0
  if go && s.aon.bellTx != .none then (s.set R.AON_BELL_TX_STATUS_status 3, .busy)
  else
    let s := ((s.set R.AON_BELL_TX_target (bits data 31 16)).set R.AON_BELL_TX_command (bits data 15 8)).set R.AON_BELL_TX_power (bits data 7 4)
    let s := (s.set R.AON_BELL_TX_nowait (bits data 2 2)).set R.AON_BELL_TX_chan (bits data 1 1)
    if !go then (s, .ok)
    else if !s.on R.AON_BELL_CTRL_key_valid then (s.set R.AON_BELL_TX_STATUS_status 1, .ok)
    else (({ s with aon := { s.aon with bellTx := .pending } }.set R.AON_BELL_TX_go 1).vote 14 25, .ok)

/-- The bell's bits, built for the coarse unit at which its preamble starts. -/
def State.bellBits (s : State) : Bell :=
  let target := s.get R.AON_BELL_TX_target
  let command := s.get R.AON_BELL_TX_command
  let time := coarseOf s.now
  let tag := s.bellTag target command time
  ⟨target, command, time, tag, bellCrc target command time tag⟩

/-- A coarse-unit boundary with a bell pending, its transmitter up and its channel not disabled: the governor lets it go, holds it, or ends it with
DUTY; a refused grant or CXI_GNT defers it, the receivers having been blanked up to the boundary; else it is on the air with the receivers blanked
(R312, R318, R319, R321, Tables 10.8, 10.10; log 151). -/
def State.bellStart (s : State) (cxGnt : Bool) : State :=
  if s.aon.bellTx != .pending || !s.domRuns 14 || !s.wkUsable (s.on R.AON_BELL_TX_chan) then s
  else
    let s := (s.reach ((s.now + coarseTicks - 1) / coarseTicks * coarseTicks)).fillBucket
    if s.duty != 0 && s.aon.bucket < bellCost then (if s.on R.AON_BELL_TX_nowait then s.bellOver 2 else s)
    else if (s.on R.COEX_CFG_bell && !cxGnt) || s.pins.cxiGnt then
      (s.bump R.COEX_STATUS_bell_defer).wkBlank.wkResume
    else
      let s := if s.rngReady then s.drbgRequest 1 else s
      let b := s.bellBits
      let now := s.now
      let s := { s with
        aon := { s.aon with bellTx := .onAir, bellAt := now, bellOut := some b, bucket := if s.duty = 0 then s.aon.bucket else s.aon.bucket - bellCost },
        pins := { s.pins with wkTr := true } }
      s.refreshCx.wkBlank

/-- 13 ms later: the last chip ends, WK_TR and CX_REQ fall, the receivers resume (Table 10.10). -/
def State.bellEnd (s : State) : State :=
  if s.aon.bellTx != .onAir then s
  else
    let s := (s.reach (s.aon.bellAt + 16250000)).bellOver 0
    ({ s with pins := { s.pins with wkTr := false } }).refreshCx.wkResume

/-- SNIFF (R312). -/
def execSniff (r : Fin 4) (energy : Fin 256) (s : State) : Out := .next (s.sniff r.val energy.val)
/-- DETECT_TIMEOUT (R312). -/
def execDetectTimeout (r : Fin 4) (s : State) : Out := .next (s.detectTimeout r.val)
/-- BELL_RECEIVED (R314). -/
def execBellReceived (r : Fin 4) (bell : Bell) (syncBefore : Bool) (s : State) : Out := .next (s.bellReceived r.val bell syncBefore)
/-- WAKE_N_PULSE_END (R315). -/
def execWakeNPulseEnd (s : State) : Out := .next s.wakePulseEnd
/-- BELL_TX_START (R318). -/
def execBellTxStart (cxGnt : Bool) (s : State) : Out := .next (s.bellStart cxGnt)
/-- BELL_TX_END (R318). -/
def execBellTxEnd (s : State) : Out := .next s.bellEnd

end Sys2Proof.Machine
end

