-- ==== Sys2Proof/Machine/Images.lean ====
section
/-! DEFINITION. Machine/Images.lean: image manifests and their checks, the flash layout, the bad-block record and the factory calibration row as
boot and update read them (chapters 7 and 13: R249, R250, R376, R390 to R392, R401). -/

namespace Sys2Proof.Machine

open Sys2Proof

/-- First address and length of the region of an image kind: 1 slipway loader, 2 tile, 3 hub, 4 wake plane (Table 13.2). -/
def imageBase (kind : Nat) : Nat := match kind with | 1 => 0 | 2 => 0x20000 | 3 => 0x60000 | _ => 0x260000
def imageRoom (kind : Nat) : Nat := match kind with | 1 => 0x8000 | 2 => 0x40000 | 3 => 0x200000 | _ => 0x8000

/-- Bytes lo to hi of a byte string, and the number they hold. -/
def slice (l : List Byte) (lo n : Nat) : List Byte := (l.drop lo).take n
def field (l : List Byte) (lo n : Nat) : Nat := ofBytes (slice l lo n)

/-- Every byte of a range is zero. -/
def zeros (l : List Byte) (lo n : Nat) : Bool := (slice l lo n).all fun b => b == 0#8

/-- Body length named by a manifest (Table 7.7). -/
def bodyLength (m : List Byte) : Nat := field m 16 4

/-- Thermometer minimum of a kind: the number of set fuses (R250). -/
def State.minVersion (s : State) (kind : Nat) : Nat := popcount 64 (ofBytes (s.bytes (otpBase + 0x88 + 8 * (kind - 1)) 8))

/-- The first of checks 1 to 5 of Table 7.8 that a manifest fails, 0 for none. -/
def State.manifestCheck (s : State) (m : List Byte) (kinds : List Nat) : Nat :=
  let kind := field m 4 1
  let key := field m 5 1
  if field m 0 4 != 0x464D4E4C || !kinds.contains kind || !zeros m 20 4 || !zeros m 184 72 then 1
  else if 3 < key || (ofBytes (s.bytes (otpBase + 0x80) 4)).testBit key then 2
  else if sha256 (slice m 56 64) != s.bytes (otpBase + 32 * key) 32 then 3
  else if !ecdsaVerify (slice m 56 64) (slice m 0 120) (slice m 120 64) then 4
  else if field m 6 2 < s.minVersion kind then 5
  else 0

/-- The first check of Table 7.8 that an image fails, 0 for none: given its manifest, its body and the kind it must be. -/
def State.imageCheck (s : State) (m body : List Byte) (kind : Nat) : Nat :=
  match s.manifestCheck m [kind] with
  | 0 => if bodyLength m = body.length && sha256 body == slice m 24 32 then 0 else 6
  | n => n

/-- Two images are compatible: equal majors, and each one's minor within the other's accepted range (R401). -/
def compatible (a b : List Byte) : Bool :=
  field a 9 1 == field b 9 1 && field b 10 1 ≤ field a 8 1 && field a 8 1 ≤ field b 11 1
    && field a 10 1 ≤ field b 8 1 && field b 8 1 ≤ field a 11 1

/-- The manifest of a kind as flash holds it. -/
def State.flashManifest (s : State) (kind : Nat) : List Byte := s.flashBytes (imageBase kind) 256

/-- An image as flash holds it: its manifest and its body. -/
def State.flashImage (s : State) (kind : Nat) : List Byte := s.flashBytes (imageBase kind) (256 + bodyLength (s.flashManifest kind))

/-- An image in flash passes all checks of Table 7.8 and fits its region; bad are words that the read finds uncorrectable (R249, R376, Table
14.6). -/
def State.flashImageOk (s : State) (kind : Nat) (bad : List (Nat × Nat)) : Bool :=
  let base := imageBase kind
  let len := bodyLength (s.flashManifest kind)
  let read := bad.any fun (x : Nat × Nat) => base ≤ x.1 && x.1 < base + 256 + len
  256 + len ≤ imageRoom kind && !read && s.imageCheck (s.flashManifest kind) (s.flashBytes (base + 256) len) kind == 0

/-! ### Bad-block records (R390, Table 13.6) -/

/-- The record on a page of block 1, if it is valid: its sequence and bytes. A page with a word that the read finds uncorrectable holds none. -/
def State.badRecord (s : State) (bad : List (Nat × Nat)) (page : Nat) : Option (Nat × List Byte) :=
  let a := 0x10000 + 256 * page
  if s.word a != 0x4C424B42 || bad.any fun (x : Nat × Nat) => a ≤ x.1 && x.1 < a + 256 then none
  else
    let r := s.flashBytes a 256
    if field r 0 4 = 0x4C424B42 && crc32c (slice r 0 252) = field r 252 4 then some (field r 4 4, r) else none

/-- A sequence is newer than another, modulo 2^32. -/
def newerSeq (a b : Nat) : Bool := a != b && (a + 2 ^ 32 - b) % 2 ^ 32 < 2 ^ 31

/-- The newest valid bad-block record. -/
def State.newestBad (s : State) (bad : List (Nat × Nat)) : Option (List Byte) :=
  ((List.range 256).foldl (fun (best : Option (Nat × List Byte)) p =>
    match s.badRecord bad p, best with
    | some r, some b => if newerSeq r.1 b.1 then some r else some b
    | some r, none => some r
    | none, b => b) none).map fun (r : Nat × List Byte) => r.2

/-- Step 4: FLC_BAD and the spare entries from the markers and the newest record (R390). -/
def State.loadBad (s : State) (unread : List (Nat × Nat)) : State :=
  let r := s.newestBad unread
  let bad (b : Nat) : Bool := s.factoryBad b || match r with | some x => (field x 8 32).testBit b | none => false
  let s := forAll 8 (fun w s => s.set (R.FLC_BAD_bad w) (maskOf 32 fun i => bad (32 * w + i))) s
  match r with
  | none => s.set R.FLC_STATUS_no_table 1
  | some x => forAll 16 (fun n s =>
      let e := field x (40 + 4 * n) 4
      if e.testBit 31 && e != 2 ^ 32 - 1 then
        (((s.set (R.FLC_SPARE_en n) 1).set (R.FLC_SPARE_state n) 2).set (R.FLC_SPARE_column n) (bits e 24 16)).set (R.FLC_SPARE_bit n) (bits e 6 0)
      else s) (s.set R.FLC_STATUS_no_table 0)

/-! ### The factory calibration row (R327, R392, Tables 13.7, 13.8) -/

/-- First address of the row. -/
def calRow : Nat := 0xFF8000

/-- The row's CRC passes, and no word of it is uncorrectable. -/
def State.calRowOk (s : State) (bad : List (Nat × Nat)) : Bool :=
  !(bad.any fun (x : Nat × Nat) => calRow ≤ x.1) && crc32c (s.flashBytes calRow 0x7FFC) == ofBytes (s.flashBytes (calRow + 0x7FFC) 4)

/-- The factory row's trims of an element: contents of ELEM_CAL_RX and ELEM_CAL_TX (Table 13.8). -/
def State.factoryTrims (s : State) (e : Nat) : Nat × Nat :=
  let a := calRow + 0x40 + 24 * e
  (ofBytes (s.flashBytes (a + 4) 2), ofBytes (s.flashBytes (a + 6) 2))

/-- One element record of the row goes into its element: trims, DC codes, LNA and VGA defaults, and the mask unless it is faulty (R327). -/
def State.loadElement (s : State) (e : Nat) : State :=
  let r := s.flashBytes (calRow + 0x40 + 24 * e) 24
  let b (i : Nat) : Nat := field r i 1
  let s := ((s.set (R.ELEM_CAL_RX_phase e) (b 5)).set (R.ELEM_CAL_RX_gain e) (b 4)).set (R.ELEM_CAL_TX_phase e) (b 7)
  let s := (s.set (R.ELEM_CAL_TX_gain e) (b 6)).calWritten e
  let s := forAll 4 (fun k s => (s.set (R.ELEM_DC_COARSE_i e k) (b (8 + 2 * k))).set (R.ELEM_DC_COARSE_q e k) (b (9 + 2 * k))) s
  let s := (s.set (R.ELEM_DC_TX_i e) (b 16)).set (R.ELEM_DC_TX_q e) (b 17)
  let s := (s.set (R.ELEM_RX_GAIN_SH_lna e) (b 1)).set (R.ELEM_RX_GAIN_SH_vga e) (min 24 (b 2 % 32))
  s.set (R.ELEM_CTRL_mask e) (b 0 % 2)

/-- Step 6: the whole row goes into the 512 elements, and each tile commits (R327). -/
def State.loadCalibration (s : State) : State :=
  forAll 8 (fun t s => s.tileCommitNow t) (forAll 512 (fun e s => s.loadElement e) s)

end Sys2Proof.Machine
end

