-- ==== Sys2Proof/Machine/Tension.lean ====
section
/-! DEFINITION. Machine/Tension.lean: the tension solve: couplings against the factory couplings, drifts by least squares, the seams, and what an accepted
cycle does (R36, R107, R109, R110, R393). -/

namespace Sys2Proof.Machine

open Sys2Proof

/-! ### Least squares -/

/-- A row of a linear system: the coefficients, then the right-hand side. -/
abbrev LinRow := List Rat

/-- Row r less the multiple of pivot row p that clears its entry j, where p holds 1. -/
def clearEntry (j : Nat) (p r : LinRow) : LinRow := (r.zip p).map fun x => x.1 - r.getD j 0 * x.2

/-- Elimination, unknown by unknown: rows that hold a pivot, with its unknown, and rows that hold none yet. -/
def eliminate : List Nat → List (Nat × LinRow) → List LinRow → List (Nat × LinRow)
  | [], done, _ => done
  | j :: js, done, rest =>
    match rest.find? fun r => r.getD j 0 != 0 with
    | none => eliminate js done rest
    | some r =>
      let p := r.map (· / r.getD j 0)
      eliminate js ((j, p) :: done.map fun x => (x.1, clearEntry j p x.2)) ((rest.erase r).map (clearEntry j p))

/-- Least squares: the equations say that the sum of some unknowns is a measured value. The normal equations are solved exactly; an unknown that they
leave open is zero (R109; log 138). -/
def leastSquares (vars : List Nat) (eqs : List (List Nat × Rat)) (v : Nat) : Rat :=
  let row (u : Nat) : LinRow :=
    let with_u := eqs.filter fun e => e.1.contains u
    (vars.map fun w => ((with_u.filter fun e => e.1.contains w).length : Rat)) ++ [(with_u.map (·.2)).foldl (· + ·) 0]
  match (eliminate (List.range vars.length) [] (vars.map row)).find? fun x => vars[x.1]? == some v with
  | some x => x.2.getD vars.length 0
  | none => 0

/-- Values without their mean (R109). -/
def withoutMean (l : List Nat) (f : Nat → Rat) (v : Nat) : Rat := f v - (l.map f).foldl (· + ·) 0 / (max 1 l.length : Nat)

/-! ### Couplings (R35, R109, R393) -/

/-- The neighbour of an element in direction d, counted from east through north (R34, R35, R393). -/
def neighbourAt (e d : Nat) : Option Nat :=
  let step : Int × Int := match d % 8 with
    | 0 => (1, 0) | 1 => (1, -1) | 2 => (0, -1) | 3 => (-1, -1) | 4 => (-1, 0) | 5 => (-1, 1) | 6 => (0, 1) | _ => (1, 1)
  let c : Int := (8 * (e / 64 % 4) + e % 8 : Nat) + step.1
  let r : Int := (8 * (e / 256) + e / 8 % 8 : Nat) + step.2
  if c < 0 || 32 ≤ c || r < 0 || 16 ≤ r then none
  else
    let (c, r) := (c.toNat, r.toNat)
    some (64 * (4 * (r / 8) + c / 8) + 8 * (r % 8) + c % 8)

/-- The factory coupling of an element in a direction, loss and phase codes; none at the aperture edge (R393). -/
def State.factoryCoupling (s : State) (e d : Nat) : Option (Nat × Nat) :=
  let a := calRow + 0x3040 + 16 * e + 2 * (d % 8)
  let loss := ofBytes (s.flashBytes a 1)
  let phase := ofBytes (s.flashBytes (a + 1) 1)
  if loss = 255 && phase = 255 then none else some (loss, phase)

/-- An angle in 1/1000 degree brought to the span from -180 degrees, exclusive, to 180. -/
def wrapped (a : Rat) : Rat := if 180000 < a then a - 360000 else if a ≤ -180000 then a + 360000 else a

/-- A pair of elements with its drifts: transmitter, receiver, phase arg(C / C0), gain 20 log10 |C / C0| (R109). -/
structure PairDrift where
  tx : Nat
  rx : Nat
  phase : Rat
  gain : Rat
  deriving DecidableEq, Repr

/-- The pair that a measured coupling gives: transmitting element, direction, and C in units of 10^-9. One that the factory row marks as having no
neighbour, or that measured nothing, gives none. -/
def State.pairDrift (s : State) (m : Nat × Nat × Int × Int) : Option PairDrift :=
  match neighbourAt m.1 m.2.1, s.factoryCoupling m.1 m.2.1 with
  | some rx, some c0 =>
    if m.2.2 = (0, 0) then none
    else some ⟨m.1, rx, wrapped (wrapped (angleOf m.2.2 - (c0.2 : Rat) * 5625 / 4)), levelOf m.2.2 - 180000 + (c0.1 : Rat) * 250⟩
  | _, _ => none

/-! ### The solve (R109) -/

/-- Unknown of an element or a tile: its transmit or its receive drift. -/
def txVar (e : Nat) : Nat := 2 * e
def rxVar (e : Nat) : Nat := 2 * e + 1

/-- Drifts of a tile's elements of one kind, phase or gain, from its pairs: a transmit and a receive drift for each element, each kind with mean zero. -/
def tileSolve (pairs : List PairDrift) (value : PairDrift → Rat) : Nat → Rat :=
  let tx := (pairs.map fun p => txVar p.tx).dedup
  let rx := (pairs.map fun p => rxVar p.rx).dedup
  let f := leastSquares (tx ++ rx) (pairs.map fun p => ([txVar p.tx, rxVar p.rx], value p))
  fun v => withoutMean (if v % 2 = 0 then tx else rx) f v

/-- Relative offsets of the tiles from the pairs across the seams, tile 0 the reference; drift gives each element's drift within its tile. -/
def seamSolve (pairs : List PairDrift) (value : PairDrift → Rat) (drift : Nat → Rat) : Nat → Rat :=
  let open_ (v : Nat) : Bool := 2 ≤ v
  let vars := ((pairs.map fun p => txVar (p.tx / 64)) ++ (pairs.map fun p => rxVar (p.rx / 64))).dedup.filter open_
  leastSquares vars (pairs.map fun p =>
    ([txVar (p.tx / 64), rxVar (p.rx / 64)].filter open_, value p - drift (txVar p.tx) - drift (rxVar p.rx)))

/-- Sum of the squared residuals of a tile's pairs. -/
def residualSum (pairs : List PairDrift) (value : PairDrift → Rat) (f : Nat → Rat) : Rat :=
  (pairs.map fun p => (value p - f (txVar p.tx) - f (rxVar p.rx)) ^ 2).foldl (· + ·) 0

/-- The drift of one kind that the result stores hold, by unknown. -/
def State.storedDrift (s : State) (phase : Bool) (v : Nat) : Rat :=
  match ((s.tile (v / 128)).drifts).find? fun (d : Drift) => d.elem == v / 2 with
  | some d => if v % 2 = 0 then (if phase then d.txPhase else d.txGain) else (if phase then d.rxPhase else d.rxGain)
  | none => 0

/-! ### Acceptance (R110) -/

/-- The residual's code, 0.1 degree, of n pairs with a sum of squares in (1/1000 degree)²; between two codes the spec gives no rounding (log 14). -/
def residualCode (sum : Rat) (n : Nat) : Nat :=
  let k := bitSearch (fun k => ((100 * k) ^ 2 * n : Nat) ≤ sum) 8 0
  if (((100 * k) ^ 2 * n : Nat) : Rat) = sum || !Config.residualUp k then k else min 255 (k + 1)

/-- Write one element's new trims: the factory trim minus the drift, rounded to the nearest step of 1.40625 degree and 0.1 dB (R36, R110). A gain trim
that leaves the register's range is taken as its nearer end (log 139). factory holds the contents of ELEM_CAL_RX and ELEM_CAL_TX in the factory row. -/
def State.applyDrift (s : State) (d : Drift) (factory : Nat × Nat) : State :=
  let e := d.elem
  let ph (f : Nat) (x : Rat) : Nat := unsigned 8 (rne ((f / 256 % 256 : Nat) * (5625 * x.den : Nat) - 4 * x.num) (5625 * x.den))
  let gn (f : Nat) (x : Rat) : Nat := unsigned 6 (clampI (-32) 31 (rne (signed 6 (f % 64) * (100 * x.den : Nat) - x.num) (100 * x.den)))
  ((((s.set (R.ELEM_CAL_RX_phase e) (ph factory.1 d.rxPhase)).set (R.ELEM_CAL_RX_gain e) (gn factory.1 d.rxGain)).set
    (R.ELEM_CAL_TX_phase e) (ph factory.2 d.txPhase)).set (R.ELEM_CAL_TX_gain e) (gn factory.2 d.txGain)).calWritten e

/-- A drift beyond 20 degrees or 1.5 dB marks the element as suspect (R110). -/
def driftSuspect (d : Drift) : Bool :=
  let beyond (x lim : Rat) : Bool := lim < x || x < -lim
  beyond d.rxPhase 20000 || beyond d.txPhase 20000 || beyond d.rxGain 1500 || beyond d.txGain 1500

/-- The drifts of an accepted cycle: the elements that a pair of the tile measures, those of the tile by the solve, with the tile's relative offset. -/
def tileDrifts (t : Nat) (pairs : List PairDrift) (phase gain offPhase offGain : Nat → Rat) : List Drift :=
  ((List.range 64).map fun j => 64 * (t % 8) + j).filterMap fun e =>
    if pairs.any fun p => p.tx == e || p.rx == e then
      some ⟨e, phase (rxVar e) + offPhase (rxVar (t % 8)), gain (rxVar e) + offGain (rxVar (t % 8)),
            phase (txVar e) + offPhase (txVar (t % 8)), gain (txVar e) + offGain (txVar (t % 8))⟩
    else none

/-- The tension engines finish the solve of a tile whose passes are done, from the couplings measured: accepted within an RMS residual of 1.5 degrees and
0.15 dB, else rejected (R109, R110). Suspects are marked only by an accepted cycle, and reject stays set until it is written (logs 140, 141). -/
def State.tensionComplete (s : State) (t : Nat) (couplings : List (Nat × Nat × Int × Int)) : State :=
  match (s.tile t).tension with
  | none => s
  | some c =>
    if (passWindows t c.passes).isSome then s
    else
      let all := couplings.filterMap s.pairDrift
      let own := all.filter fun p => p.tx / 64 == t % 8 && p.rx / 64 == t % 8
      let seam := all.filter fun p => p.tx / 64 != p.rx / 64 && (p.tx / 64 == t % 8 || p.rx / 64 == t % 8)
      let phase := tileSolve own (·.phase)
      let gain := tileSolve own (·.gain)
      let sumP := residualSum own (·.phase) phase
      let s := s.set (R.TILE_TENSION_STATUS_residual t) (residualCode sumP own.length)
      let s := if sumP ≤ (own.length : Rat) * 1500 ^ 2 && residualSum own (·.gain) gain ≤ (own.length : Rat) * 150 ^ 2 then
          let fresh (v : Nat) : Bool := v / 128 == t % 8
          let kept := s.front.seams.filter fun (p : Nat × Nat × Rat × Rat) => !seam.any fun q => q.tx == p.1 && q.rx == p.2.1
          let seams := kept ++ seam.map fun p => (p.tx, p.rx, p.phase, p.gain)
          let pairs := seams.map fun (p : Nat × Nat × Rat × Rat) => (⟨p.1, p.2.1, p.2.2.1, p.2.2.2⟩ : PairDrift)
          let offP := seamSolve pairs (·.phase) fun v => if fresh v then phase v else s.storedDrift true v
          let offG := seamSolve pairs (·.gain) fun v => if fresh v then gain v else s.storedDrift false v
          let drifts := tileDrifts t own phase gain offP offG
          let now := s.now
          let temp := s.tileTemp t
          let s := { s with front := { s.front with seams := seams } }
          let s := (s.updTile t fun x => { x with tensionLast := now, tensionTemp := temp, drifts := tileDrifts t own phase gain (fun _ => 0) fun _ => 0 }).bumpWrap
            (R.TILE_TENSION_STATUS_cycles t)
          drifts.foldl (fun s d =>
            if driftSuspect d then s.setBit (R.TILE_TENSION_SUSPECT_elems t (d.elem % 64 / 32)) (d.elem % 32)
            else if s.on R.BF_TENSION_CTRL_apply then s.applyDrift d (s.factoryTrims d.elem) else s) s
        else s.set (R.TILE_TENSION_STATUS_reject t) 1
      ((s.tensionEnd t).tileYarn t 6).fireTile t 8

/-- TENSION_COMPLETE (R110). -/
def execTensionComplete (t : Fin 8) (couplings seams : List (Nat × Nat × Int × Int)) (s : State) : Out :=
  .next (s.tensionComplete t.val (couplings ++ seams))

end Sys2Proof.Machine
end

