-- ==== Sys2Proof/Machine/Blocks.lean ====
section
/-! DEFINITION. Machine/Blocks.lean: what a block boundary does: detectors, DC loops, the receive and the transmit arithmetic, beam AGC and sweep
records; and the events of the element front end, the synthesisers and the die lanes (R12, R44, R50 to R52, R59, R60, R69 to R77, R98, R102,
R113, R419). -/

namespace Sys2Proof.Machine

open Sys2Proof

/-! ### Detectors and DC loops -/

/-- One transmit detector reading posts at the boundary that closes its block; the second in a row above the trip code masks the element (R50,
R51). -/
def State.pdetRead (s : State) (e : Nat) (mdbm : Int) : State :=
  if (s.tile (e / 64)).radio != .tx || s.masked e then s
  else
    let code := pdetCode mdbm
    let s := (s.set (R.ELEM_PDET_TX_last e) code).set (R.ELEM_PDET_TX_peak e) (max code (s.get (R.ELEM_PDET_TX_peak e)))
    let s := if 8000 < mdbm then s.set (R.ELEM_STATUS_pdet_sat e) 1 else s
    if code ≤ s.get (R.ELEM_PDET_CFG_trip e) then s.updElem e fun x => { x with overs := 0 }
    else if (s.elem e).overs = 0 then s.updElem e fun x => { x with overs := 1 }
    else
      let s := (s.updElem e fun x => { x with overs := 0 }).set (R.ELEM_STATUS_pa_trip e) 1
      let s := (((s.maskNow e).fireTile (e / 64) 4).tileYarn (e / 64) 7)
      s.logHw 9 (0x60 + e / 64) (e % 64 + code * 256)

/-- A frame is in progress on some receive crossing that uses the tile (R44). -/
def State.frameOnTile (s : State) (t : Nat) : Bool :=
  s.inProgress.any fun c => c.d.dir == 0 && c.tiles.testBit (t % 8) && c.leadHeard &&
    (s.slot c.d.slot).rx.any fun f => f.crossing == c.id && (!f.hdrDone || decide (s.now < s.frameTick f (frameLength f) + s.blockTicks))

/-- The element's fine DC loop sees a block's mean; frozen, it holds its value through a frame (R44, R46). -/
def State.dcLoop (s : State) (e : Nat) (i q : Int) : State :=
  if (s.tile (e / 64)).radio != .rx || s.masked e || (s.on (R.ELEM_DC_CTRL_freeze e) && s.frameOnTile (e / 64)) then s
  else s.dcTrack e i q

/-- The RF level at a receiving element's LNA input, in 1/1000 dBm, exceeds ELEM_PDET_CFG.ovl: -60 + 0.25 times the code (R52). -/
def State.rxOverload (s : State) (e : Nat) (mdbm : Int) : State :=
  if (s.tile (e / 64)).radio != .rx || s.masked e || mdbm ≤ -60000 + 250 * (s.get (R.ELEM_PDET_CFG_ovl e) : Nat) then s
  else
    let was := s.on (R.ELEM_STATUS_rx_ovl e)
    let s := s.set (R.ELEM_STATUS_rx_ovl e) 1
    if was then s else s.fireTile (e / 64) 10

/-- An ADC sample of a receiving element stands at full scale (R52). -/
def State.adcSaturation (s : State) (e : Nat) : State :=
  if (s.tile (e / 64)).radio != .rx || s.masked e then s else s.bump (R.ELEM_PDET_RX_sat_count e)

/-! ### Receive arithmetic (R69 to R73) -/

/-- The exact sum of a tile's weighted samples for a slot; masked elements contribute zero (R70). -/
def State.tileSum (s : State) (t slot : Nat) (samples : List (Nat × Int × Int)) : Int × Int :=
  let words := (s.bank t slot).active.words
  samples.foldl (fun (a : Int × Int) (p : Nat × Int × Int) =>
    if p.1 / 64 != t || s.masked p.1 then a
    else
      let f := s.frontEnd p.1 p.2.1 p.2.2
      let w := words.getD (p.1 % 64) 0
      (a.1 + (f.1 * weightI w - f.2 * weightQ w), a.2 + (f.1 * weightQ w + f.2 * weightI w))) (0, 0)

/-- The 16-bit partial sum of a tile, and whether it saturated (R71). -/
def State.partialSum (s : State) (t slot : Nat) (samples : List (Nat × Int × Int)) : (Int × Int) × Bool :=
  let acc := s.tileSum t slot samples
  let d := 2 ^ (14 - min (s.bank t slot).active.rxShift 14)
  let r := (rne acc.1 d, rne acc.2 d)
  ((satI 16 r.1, satI 16 r.2), satI 16 r.1 != r.1 || satI 16 r.2 != r.2)

/-- The beam AGC's output component: |v| times 2^((g − 96)/8), rounded to the nearest, ties to even (R73, R75). -/
def agcScale (g : Nat) (v : Int) : Int := scaleRoot 8 (2 ^ g) (2 ^ 96) v

/-- The gain code in force on a slot (R74). -/
def State.agcCode (s : State) (slot : Nat) : Nat :=
  if s.on (R.BF_SLOT_LIVE_agc_fixed slot) then s.get (R.BF_SLOT_LIVE_agc_g slot) else (s.slot slot).g

/-- A BF_SAT bit of a slot is set; a bit newly set fires source 54. -/
def State.bfSat (s : State) (agc : Bool) (slot : Nat) : State :=
  let seen := if agc then s.bit R.BF_SAT_agc slot else s.bit R.BF_SAT_sum slot
  let s := if seen then s else s.fire 54
  (if agc then s.setBit R.BF_SAT_agc slot else s.setBit R.BF_SAT_sum slot).updSlot slot fun x => { x with sat := true }

/-- The slot is muted by poison now: the combiner delivers, and the hub sends, zeros (R97). -/
def State.poisonMuted (s : State) (slot : Nat) : Bool := s.bit R.BF_MUTE_poison slot && !(s.slot slot).muteWait

/-- The tile takes part in a slot's sum: present in the swatch, receiving, running and not degraded (R12, R72). -/
def State.inSum (s : State) (c : HubCopy) (t : Nat) : Bool :=
  c.tiles.testBit t && s.tileRuns t && (s.tile t).radio == .rx && !s.on (R.ERR_LANE_degraded t)

/-- Receive shift of tile t in the hub's copy (R72). -/
def HubCopy.rxShift (c : HubCopy) (t : Nat) : Nat := min (c.rxShifts / 16 ^ t % 16) 14

/-- One sample instant of a receive beam: the tiles' partial sums, whose saturations each tile counts whatever the hub does with them; alignment, the
saturating sum and the AGC (R69 to R73). The sum's power goes into the block's measure (R74). -/
def State.rxSamples (s : State) (slot : Nat) (samples : List (Nat × Int × Int)) : State :=
  match (s.slot slot).active with
  | none => s
  | some c =>
    let parts := (List.range 8).map fun t => (t, s.partialSum t slot samples)
    let s := parts.foldl (fun s (p : Nat × (Int × Int) × Bool) =>
      if s.tileRuns p.1 && (s.tile p.1).radio == .rx && p.2.2 then s.bump (R.TILE_SAT_COUNT_rx p.1) else s) s
    if s.poisonMuted slot then s.updSlot slot fun x => { x with y := (0, 0) }
    else
      let smin := ((List.range 8).filter fun t => c.tiles.testBit t).foldl (fun m t => min m (c.rxShift t)) 14
      let sum := parts.foldl (fun (a : (Int × Int) × Bool) (p : Nat × (Int × Int) × Bool) =>
        if !s.inSum c p.1 then a
        else
          let d := 2 ^ (c.rxShift p.1 - smin)
          let v := (a.1.1 + rne p.2.1.1 d, a.1.2 + rne p.2.1.2 d)
          ((satI 18 v.1, satI 18 v.2), a.2 || satI 18 v.1 != v.1 || satI 18 v.2 != v.2)) ((0, 0), false)
      let s := if sum.2 then s.bfSat false slot else s
      let g := s.agcCode slot
      let v := (agcScale g sum.1.1, agcScale g sum.1.2)
      let s := if satI 12 v.1 != v.1 || satI 12 v.2 != v.2 then s.bfSat true slot else s
      let p := sum.1.1.natAbs ^ 2 + sum.1.2.natAbs ^ 2
      s.updSlot slot fun x => { x with y := (satI 12 v.1, satI 12 v.2), power := (x.power.1 + p, x.power.2 + 1) }

/-- The AGC's new gain code for n samples of given total power: the one whose output RMS lies nearest the target in dB, the lower of two equally near
(R74). For a sum of zero, which no gain brings nearer, it is 95 (log 137). -/
def agcFor (power n target : Nat) : Nat :=
  let t := max 1 target
  ((List.range 95).find? fun g => (t * t * n) ^ 8 * 2 ^ 192 ≤ power ^ 8 * 2 ^ (2 * g + 1)).getD 95

/-- The block that closes is block k of a frame's lead: its samples join the measure of the lead, and the last of the measured blocks sets g, which the
frame's report carries (R74). lead_blocks outside 1 to 3 is taken as the nearer of them (log 137). -/
def State.agcMeasured (s : State) (slot k : Nat) : State :=
  let x := s.slot slot
  let sum := if k = 0 then x.power else (x.leadPower.1 + x.power.1, x.leadPower.2 + x.power.2)
  let s := s.updSlot slot fun x => { x with leadPower := sum }
  let count := max 1 (min 3 (s.get R.BF_AGC_CFG_lead_blocks))
  if k + 1 != count || s.on (R.BF_SLOT_LIVE_agc_fixed slot) then s
  else
    let g := agcFor sum.1 sum.2 (s.get R.BF_AGC_CFG_target)
    s.updSlot slot fun x => { x with
      g := g, rx := match x.rx.reverse with | f :: rest => ({ f with agc := g } :: rest).reverse | [] => [] }

/-! ### Transmit arithmetic (R76, R77) -/

/-- The multiplier of an attenuation in 1/64 dB: floor(2^15 × 10^(−A/20)) (R76). -/
def txMult (a : Nat) : Nat := bitSearch (fun m => m ^ 1280 * 10 ^ a ≤ 2 ^ 19200) 16 0

/-- A transmitting slot's beam sample as sent to the tiles; zeros where it is muted (R76, R97). -/
def State.beamOut (s : State) (slot : Nat) (x : Int × Int) : Int × Int :=
  if (s.slot slot).muted || s.poisonMuted slot then (0, 0)
  else
    let m : Int := txMult (16 * (s.slot slot).back + s.get (R.BF_SLOT_LIVE_tx_scale slot))
    (rne (x.1 * m) (2 ^ 15), rne (x.2 * m) (2 ^ 15))

/-- An element's sum over the transmitting slots (R77). -/
def State.elementSum (s : State) (e : Nat) (beams : List (Nat × Int × Int)) : Int × Int :=
  beams.foldl (fun (a : Int × Int) (p : Nat × Int × Int) =>
    let b := (s.bank (e / 64) p.1).active
    let w := b.words.getD (e % 64) 0
    let d := 2 ^ b.txShift
    (a.1 + rne (p.2.1 * weightI w - p.2.2 * weightQ w) d, a.2 + rne (p.2.1 * weightQ w + p.2.2 * weightI w) d)) (0, 0)

/-- An element's DAC code and whether it saturated, transmit trims applied after the sum with one rounding (R37, R75, R77; log 6). -/
def State.dacCode (s : State) (e : Nat) (beams : List (Nat × Int × Int)) : (Int × Int) × Bool :=
  let d := timesOver (trimFactor (s.elem e).calTx) (s.elementSum e beams) (2 ^ 13)
  ((satI 10 d.1, satI 10 d.2), satI 10 d.1 != d.1 || satI 10 d.2 != d.2)

/-- One sample instant on transmit: the beams as sent to the tiles, and the DAC code and the DAC saturations of every element in TX (R76, R77). -/
def State.txSamples (s : State) (xs : List (Nat × Int × Int)) : State :=
  let live := xs.filter fun (p : Nat × Int × Int) => s.txSlots.contains p.1
  let beams := live.map fun (p : Nat × Int × Int) => (p.1, s.beamOut p.1 p.2)
  let s := beams.foldl (fun s (p : Nat × Int × Int) => s.updSlot p.1 fun y => { y with xOut := p.2 }) s
  forAll 8 (fun t s =>
    if (s.tile t).radio != .tx || !s.tileRuns t then s
    else
      let codes := ((List.range 64).filter fun j => !s.masked (64 * t + j)).map fun j => (64 * t + j, s.dacCode (64 * t + j) beams)
      let s := codes.foldl (fun s (c : Nat × (Int × Int) × Bool) => s.updElem c.1 fun x => { x with dac := c.2.1 }) s
      s.add (R.TILE_SAT_COUNT_tx t) (codes.filter fun (c : Nat × (Int × Int) × Bool) => c.2.2).length) s

/-! ### The boundary (R113) -/

/-- A receive sweep's block is recorded (R102, R137). -/
def State.sweepBlock (s : State) (slot : Nat) (y : List (Int × Int)) (power : Nat) : State :=
  match s.running slot with
  | some c => if c.d.dir = 0 && (s.slot slot).sweepLeft != 0 then
      s.sweepRecord c (snrOf (leadField (s.slot slot).code 0) (y ++ List.replicate 448 (0, 0))) power (s.slot slot).sat else s
  | none => s

/-- What one block showed on an element or a slot. -/
def State.observe (s : State) : BlockObs → State
  | .pdet e p => s.pdetRead e.val p
  | .dcMean e i q => s.dcLoop e.val i q
  | .rxSamples n l => s.rxSamples n.val l
  | .txSamples l => s.txSamples l
  | .sweep n y power => s.sweepBlock n.val y power
  | .agc n k => s.agcMeasured n.val k.val

/-- The first multiple of a span that is not before now and has not been acted on. -/
def nextMultiple (now last span : Nat) : Nat :=
  let m := (now + span - 1) / span * span
  if m ≤ last then (last / span + 1) * span else m

/-- A block boundary of the live channel: what the closed block showed, then written trims and DC values, poison mutes and finished transmit
frames (R37, R44, R50, R68, R97, R113, R115). -/
def State.blockBoundary (s : State) (obs : List BlockObs) : State :=
  if !s.hubUp then s
  else
    let b := nextMultiple s.now s.clk.blockAt s.blockTicks
    let s := s.reach b
    let s := { s with clk := { s.clk with blockAt := b } }
    let s := obs.foldl (fun s o => s.observe o) s
    let s := s.frontBoundary
    let s := forAll 16 (fun n s => s.updSlot n fun x => { x with muteWait := false, sat := false, power := (0, 0) }) s
    forAll 16 (fun n s => (s.txFinish n).tailOver n) s

/-! ### Synthesisers and die lanes (R12, R59, R60, R419) -/

/-- A synthesiser of a tile locks: it has a channel, and the tile is in WARM or above (R59). -/
def State.loLock (s : State) (t : Nat) (synB : Bool) : State :=
  if !(s.tile t).warmUp || !s.tileRuns t || s.get (if synB then R.RF_CHAN_ch_b else R.RF_CHAN_ch_a) = 0 then s
  else (s.updTile t fun x => if synB then { x with lockB := true } else { x with lockA := true }).refreshLocks

/-- A synthesiser of a tile loses lock (R60): source 57 where the tile is active, in WARM or above (Table 9.2; log 150). -/
def State.loUnlock (s : State) (t : Nat) (synB : Bool) : State :=
  let lost := (s.tile t).warmUp && (if synB then (s.tile t).lockB else (s.tile t).lockA)
  let s := if lost then s.fire 57 else s
  (s.updTile t fun x => if synB then { x with lockB := false } else { x with lockA := false }).refreshLocks

/-- A die lane fails its link check: it retrains, and a sample lane degrades its tile (R12, R419). -/
def State.laneFail (s : State) (t : Nat) (toTile : Bool) (lane : Nat) : State :=
  if !s.tileRuns t then s
  else
    let sample := lane < 46
    let s := s.updTile t fun x => { x with lanesDown := insertRising (laneId toTile lane) x.lanesDown }
    let s := (s.bump (R.ERR_LANE_retrains t)).set (R.ERR_LANE_lane t) lane
    let s := if sample then s.set (R.ERR_LANE_degraded t) 1 else s
    (s.pmc 0x101 t).logHw 7 (0x60 + t) (lane + (if toTile then 256 else 0) + (if sample then 512 else 0))

/-- A retrained lane is back; the tile is no longer degraded once every sample lane is (R419). -/
def State.laneBack (s : State) (t : Nat) (toTile : Bool) (lane : Nat) : State :=
  let s := s.updTile t fun x => { x with lanesDown := x.lanesDown.filter (· != laneId toTile lane) }
  if (s.tile t).lanesDown.any fun l => l % 64 < 46 then s else s.set (R.ERR_LANE_degraded t) 0

/-- BLOCK_BOUNDARY (R113). -/
def execBlockBoundary (obs : List BlockObs) (s : State) : Out := .next (s.blockBoundary obs)
/-- RX_OVL (R52). -/
def execRxOvl (r : OvlSeen) (s : State) : Out := .next (s.rxOverload r.elem.val r.mdbm)
/-- ADC_SATURATION (R52). -/
def execAdcSaturation (e : Fin 512) (s : State) : Out := .next (s.adcSaturation e.val)
/-- LO_LOCK (R59). -/
def execLoLock (t : Fin 8) (synB : Bool) (s : State) : Out := .next (s.loLock t.val synB)
/-- LO_UNLOCK (R60). -/
def execLoUnlock (t : Fin 8) (synB : Bool) (s : State) : Out := .next (s.loUnlock t.val synB)
/-- LANE_FAIL (R12). -/
def execLaneFail (t : Fin 8) (toTile : Bool) (lane : Fin 48) (s : State) : Out := .next (s.laneFail t.val toTile lane.val)

end Sys2Proof.Machine
end

