-- ==== Sys2Proof/Machine/Boot.lean ====
section
/-! DEFINITION. Machine/Boot.lean: the start-up sequence from the hub's release on, the boot outcomes, and the resets (chapter 11, R323 to R340).
Steps 3 to 7 are one command (PLL_LOCK); steps 8 and 9 end with LINK_TRAINED in Machine/Links.lean. -/

namespace Sys2Proof.Machine

open Sys2Proof

/-! ### Engines and links at a start -/

/-- ENG_CTRL.run goes to 1: an engine that has not run since its reset starts at ENG_START at supervisor level with IEN 0, a halted one resumes at
its pc; a STOPPED one stays (R221, R222). -/
def State.engRun (s : State) (g : Nat) : State :=
  s.updEng g fun x =>
    if x.state == .stopped then { x with run := true }
    else if !x.ran then { x with run := true, ran := true, state := .running, r := { x.r with pc := 4 * x.start, mode := 0, ien := 0 } }
    else if x.state == .halted then { x with run := true, state := .running }
    else { x with run := true }

/-- The SerDes domain of a link. -/
def linkDomain (l : Nat) : Nat := if l = 4 then 9 else 10

/-- The link layer holds the service vote of its SerDes domain: while training, active or retraining, and in STANDBY with down_ok 0 (R366). -/
def State.linkHolds (s : State) (l : Nat) : Bool :=
  match (s.link l).state with
  | .training => true
  | .active => true
  | .retrain => true
  | .standby => !s.on R.LNK_CFG_down_ok
  | .down => false

/-- The service votes of the SerDes domains follow their links. -/
def State.refreshSerdes (s : State) : State :=
  (s.aimVote 9 25 (s.linkHolds 4)).aimVote 10 25 ((List.range 4).any fun p => s.linkHolds p)

/-- A link that is DOWN starts training; without HL_REFCLK the training waits (R19, R366). -/
def State.linkTrain (s : State) (l : Nat) : State :=
  if (s.link l).state != .down then s
  else (s.updLink l fun x => { x with state := .training }).refreshSerdes

/-- A peer index marked in PNT_CTRL.peers, and not this module's own. -/
def State.peerWanted (s : State) (p : Nat) : Bool :=
  s.on R.PNT_CTRL_en && s.bit R.PNT_CTRL_peers p && s.get R.HUB_ID_pontoon_index != p

/-- The links that are to be up start training: the host link, and those to the peers of an enabled pontoon (R367). -/
def State.trainLinks (s : State) : State :=
  forAll 4 (fun p s => if s.peerWanted p then s.linkTrain p else s) (s.linkTrain 4)

/-! ### Step 3 to step 7 (Table 11.1) -/

/-- HUB_RESET_CAUSE.cause of a start (Table 11.8). -/
def StartKind.cause (k : StartKind) : Nat :=
  match k with
  | .por => 1 | .pin => 2 | .warm => 3 | .wdog => 4 | .vigilWake => 5 | .offWake => 6 | .bootTimeout => 7 | .rail => 8

/-- Set stage and result (Table 11.8). -/
def State.bootStatus (s : State) (stage result : Nat) : State := (s.set R.HUB_BOOT_STATUS_stage stage).set R.HUB_BOOT_STATUS_result result

/-- The boot record of class 17: result, stage and reset cause (R428, Table 14.2). -/
def State.bootRecord (s : State) : State :=
  s.blackBoxOnly 17 0xA4 (s.get R.HUB_BOOT_STATUS_result + s.get R.HUB_BOOT_STATUS_stage * 2 ^ 6 + s.get R.HUB_RESET_CAUSE_cause * 2 ^ 8)

/-- The boot counter rises by 1, and HUB_RESET_CAUSE is written (Table 11.8). -/
def State.countBoot (s : State) : State :=
  let n := (s.get R.BOOT_COUNT_count + 1) % 2 ^ 32
  let s := (s.set R.BOOT_COUNT_count n).set R.BOOT_COUNT_CHECK_check (2 ^ 32 - 1 - n)
  (s.set R.HUB_RESET_CAUSE_boots (n % 256)).set R.HUB_RESET_CAUSE_cause s.boot.kind.cause

/-- Step 3: the hub is released and takes mesh time; the boot ROM samples BOOT_SEL; the record sequence starts at 0, link epochs change, the
masking LFSR is seeded, a waiting entropy source starts, and latched sources become pending (R23, R243, R247, R294, R329, R347, R414). -/
def State.hubRelease (s : State) (bootSel : Nat) : State :=
  let fresh := !s.hubUp
  let s := if fresh then
      let s := ((s.setDom 0 .up).setDom 15 .up).takeBack
      let s := { s with clk := { s.clk with slew := 0, slewAcc := 0 } }
      (s.pmc 0x121 0).latchesToPending
    else s
  let s := ({ s with pins := { s.pins with bootSel := bootSel % 4 }, err := { s.err with seq := 0 } }).set R.HUB_BOOT_STATUS_boot_sel bootSel
  let s := s.countBoot.seedLfsr
  let s := { s with lnk := { s.lnk with links := s.lnk.links.map fun (l : Link) => { l with epoch := (l.epoch + 1) % 65536 } } }
  let s := if s.sec.source || s.get R.SEC_STATUS_rng = 4 then s else s.sourceStart
  let failed := s.get R.SEC_STATUS_rng = 4
  let s := (if failed then s.reportRng else if s.get R.SEC_STATUS_rng = 1 then s.rngInstantiate else s).refreshHold
  ((s.refreshFlashVote.refreshDep).refreshMode).tsOutArm

/-- Step 4: the interrupted flash operation, bad blocks and spares (R388, R390); after a WARM or WDOG reset the neighbour entries are
reinitialised (R336). -/
def State.bootTables (s : State) (bad : List (Nat × Nat)) : State :=
  let s := ((s.set R.FLC_INTERRUPTED_valid (s.get R.AON_FLASH_OP_valid)).set R.FLC_INTERRUPTED_op (s.get R.AON_FLASH_OP_op)).set
    R.FLC_INTERRUPTED_block (s.get R.AON_FLASH_OP_block)
  let s := ((s.set R.FLC_INTERRUPTED_page (s.get R.AON_FLASH_OP_page)).noteOp false 0 0 0).loadBad bad
  if s.boot.kind = .warm || s.boot.kind = .wdog then
    forAll 64 (fun n s => if s.on (R.NBR_CFG_enabled n) then (s.nbrReinit n).refreshSpent n true else s.set (R.NBR_LIVE_state n) 0) s
  else s

/-- XTAL_SLOW where nothing else has failed and the crystal was not stable in time (Table 11.4). -/
def State.slowResult (s : State) : Nat := if s.boot.slow then 1 else 0

/-- A part of an image goes into place: of the hub image into a hub engine's local memory or, from unit 32 on, hub SRAM; of the tile image into a
local memory of every tile or, from unit 8 on, tile shared memory; of the loader into that of H28 (R187, Table 11.1). -/
def State.loadPart (s : State) (kind : Nat) (part : Nat × Nat × List Byte) : State :=
  let u := part.1
  match kind with
  | 1 => s.lmStore 28 [(part.2.1 % 0x10000, part.2.2.take (0x10000 - part.2.1 % 0x10000))]
  | 2 => forAll 8 (fun t s =>
      if u < 8 then s.lmStore (32 + 8 * t + u) [(part.2.1 % 0x10000, part.2.2.take (0x10000 - part.2.1 % 0x10000))]
      else s.store (tileBase t + 0x300000 + part.2.1 % 0x40000) (part.2.2.take (0x40000 - part.2.1 % 0x40000))) s
  | 3 =>
    if u < 32 then s.lmStore u [(part.2.1 % 0x10000, part.2.2.take (0x10000 - part.2.1 % 0x10000))]
    else s.store (0x1000000 + part.2.1 % 0xC00000) (part.2.2.take (0xC00000 - part.2.1 % 0xC00000))
  | _ => s

/-- Step 5 for one image: every part of its body goes into place. -/
def State.loadImage (s : State) (kind : Nat) (body : List Byte) : State := (Config.imageLoads kind body).foldl (fun s p => s.loadPart kind p) s

/-- Slipway mode: the verified loader, its body given, goes into place and starts on H28 (R329, R330). -/
def State.slipway (s : State) (result : Nat) (loader : List Byte) : State :=
  ({ s.loadImage 1 loader with boot := { s.boot with slipway := true } }.engRun 28).bootStatus 1 result

/-- Steps 5 to 7: the boot vote rises on all tiles, the tile and hub images given go into place, the factory calibration goes into the elements, and
the housekeeping engines H24 to H27 start (R327, R332, R369, Table 11.1). -/
def State.bootRun (s : State) (calOk : Bool) (tile hub : List Byte) : State :=
  let s := forAll 8 (fun t s => s.vote (t + 1) 0) s
  let s := (s.loadImage 2 (tile.drop 256)).loadImage 3 (hub.drop 256)
  let s := (s.set R.PNT_GEN_minor (field hub 8 1)).set R.PNT_GEN_major (field hub 9 1)
  let s := if calOk then s.loadCalibration else s
  let s := forAll 4 (fun i s => s.engRun (24 + i)) s
  s.bootStatus 2 (if !calOk then 5 else s.slowResult)

/-- Image kinds that a flash boot verifies after the loader: a wake from VIGIL leaves the wake-plane image out (Table 10.7). -/
def State.bootKinds (s : State) : List Nat := if s.boot.kind = .vigilWake then [2, 3] else [2, 3, 4]

/-- Every two of the images about to run are compatible (R401, Table 11.4). -/
def State.imagesAgree (s : State) (kinds : List Nat) : Bool :=
  kinds.all fun a => kinds.all fun b => compatible (s.flashManifest a) (s.flashManifest b)

/-- The flash boot of BOOT_SEL 00 after the loader has been verified (Table 11.4). -/
def State.bootFlash (s : State) (bad : List (Nat × Nat)) : State :=
  match s.bootKinds.find? fun k => !s.flashImageOk k bad with
  | some k => (s.slipway 3 ((s.flashImage 1).drop 256)).set R.HUB_BOOT_STATUS_kind k
  | none => if s.imagesAgree s.bootKinds then s.bootRun (s.calRowOk bad) (s.flashImage 2) (s.flashImage 3)
    else s.slipway 4 ((s.flashImage 1).drop 256)

/-- The boot ROM's flash reads: each uncorrectable word is logged (R423), and undefined bytes are drawn anew. -/
def State.bootReads (s : State) (bad : List (Nat × Nat)) : State :=
  let s := bad.foldl (fun s (x : Nat × Nat) => s.flashUncorrectable x.1 x.2 false 7 0) s
  { s with freeCtr := s.freeCtr + 2 ^ 24 }

/-- Steps 3 to 7 of a boot, then the links begin to train (R323, R327, R329, R330). -/
def State.bootSteps (s : State) (seen : BootSeen) : State :=
  let again := s.boot.kind = .bootTimeout
  let s := (s.hubRelease seen.bootSel).bootTables seen.bad
  let sel := s.get R.HUB_BOOT_STATUS_boot_sel
  let s :=
    if again || sel != 1 then
      let s' := s.bootReads seen.bad
      if !s.flashImageOk 1 seen.bad then s'.bootStatus 0 2
      else if again then s'.slipway 6 ((s.flashImage 1).drop 256)
      else if sel = 0 then (s.bootFlash seen.bad).bootReads seen.bad
      else s'.slipway (if sel = 3 then 7 else s.slowResult) ((s.flashImage 1).drop 256)
    else s.bootStatus 0 s.slowResult
  ({ s with boot := { s.boot with step := 8 } }).trainLinks

/-- READY has not followed the hub's release within 500 ms: once, the boot restarts at step 3 in slipway mode; twice, the boot ROM waits with the
link (R330). -/
def State.bootTimeout (s : State) : State :=
  if !s.hubUp || s.boot.ready || s.boot.step < 3 then s
  else if s.boot.timeouts = 0 then
    let s := { s with boot := { s.boot with kind := .bootTimeout, step := 3, timeouts := 1, slipway := true } }
    (s.bootStatus (s.get R.HUB_BOOT_STATUS_stage) 6).bootRecord
  else
    let s := { s with boot := { s.boot with step := 8, timeouts := s.boot.timeouts + 1 } }
    ((s.bootStatus 0 6).bootRecord).trainLinks

/-! ### READY (R339) -/

/-- The 16-byte body of the READY message (Table 11.5). -/
def State.readyBody (s : State) : List Byte :=
  let flags := s.get R.HUB_BOOT_STATUS_boot_sel + s.get R.AON_SEC_EVENT_key_loss * 4 + s.get R.AON_KEEP_STATUS_valid * 8
    + (if s.rngReady then 16 else 0) + s.get R.EIRP_CTRL_lock * 32
  [s.get R.HUB_BOOT_STATUS_stage, s.get R.HUB_BOOT_STATUS_result, s.get R.HUB_RESET_CAUSE_cause, flags].map (fun n => BitVec.ofNat 8 n)
    ++ toBytes 4 (s.get R.BOOT_COUNT_count)
    ++ toBytes 2 (s.get R.HUB_ID_silicon_rev + s.get R.HUB_ID_part % 256 * 256)
    ++ toBytes 6 s.meshRead

/-! ### Resets (R331 to R336, Table 11.6) -/

/-- POR: the whole module; mesh time starts at 0, the boot counter stays unless its check copy is bad, PNT_ID is sampled (R325, R442). -/
def State.por (s : State) (pntId : Nat) : State :=
  let s := s.cold .por
  let s := if s.get R.BOOT_COUNT_CHECK_check = 2 ^ 32 - 1 - s.get R.BOOT_COUNT_count then s
    else (s.set R.BOOT_COUNT_count 1).set R.BOOT_COUNT_CHECK_check (2 ^ 32 - 2)
  let s := { s with boot := State.reset.boot, pins := { s.pins with pntId := pntId % 4 } }
  s.set R.HUB_ID_pontoon_index (pntId % 4)

/-- PIN: everything but AON state; a wake record START is written, and the start joins at step 3 with the rails up, else at step 2, or at step 1
while the crystal starts (R310, R326, R331, Tables 11.2, 11.7). -/
def State.pinReset (s : State) : State :=
  let off := s.pwr.mode == .off
  let one := s.boot.step = 1
  let s := (s.cold .pin).wakeRecord 15 0
  let s := { s with pwr := { s.pwr with railFails := 0, railsHeld := false } }
  if off then s.leaveOff.startCold .pin else if one then s.startAt .pin 1 else s.startRails .pin

/-- WARM, and WDOG with its black-box record: as PIN, keeping hub SRAM and link training results (R331). -/
def State.warmReset (s : State) (wdog : Bool) : State :=
  let s := if wdog then s.blackBoxOnly 15 0xA4 (s.get R.HUB_WDOG_CTRL_ms) else s
  (s.cold .warm).startRails (if wdog then .wdog else .warm)

/-- A write of HUB_RESET_CMD: key, kind, target and the boot decide (R332, R338). deck: the initiator is a deck agent (R225). The last answer says
that a deck refusal is due. -/
def State.resetCmd (s : State) (deck : Bool) (data : Nat) : State × Status × Bool :=
  let kind := bits data 17 16
  let target := bits data 6 0
  if bits data 31 24 != 0xA5 then (s, .ok, false)
  else if !s.boot.ready then (s, .busy, false)
  else if kind = 0 then (s, .ok, false)
  else if kind = 3 then (s.warmReset false, .ok, false)
  else if kind = 2 then
    if 7 < target then (s, .denied, false)
    else if (s.tile target).inReset then (s, .busy, false)
    else (s.tileReset target, .ok, false)
  else if 95 < target then (s, .denied, false)
  else if deck && (target = 30 || target = 31) then (s, .denied, true)
  else (s.engineReset target, .ok, false)

/-- A TILE reset ends after 10 µs: the tile rises as at power-up where it is wanted, its unit takes work again (R334, R417). -/
def State.tileRelease (s : State) (t : Nat) : State :=
  if !(s.tile t).inReset then s
  else
    let s := (s.domSpan (t % 8 + 1)).updTile t fun x => { x with inReset := false }
    let s := ((s.set (R.ERR_UNIT_active (0x60 + t)) 0).set (R.ERR_UNIT_ovf (0x60 + t)) 0).set (R.ERR_UNIT_pending (0x60 + t)) 0
    s.settle (t % 8 + 1)

/-! ### Watchdog (R333) -/

/-- The watchdog counts. -/
def State.wdogRuns (s : State) : Bool := s.hubUp && s.on R.HUB_WDOG_CTRL_en

/-- The count starts anew with the period as it now stands. -/
def State.wdogKick (s : State) : State :=
  let ms := max 1 (s.get R.HUB_WDOG_CTRL_ms)
  { s with sys := { s.sys with wdogMs := ms, wdogHalf := false, wdogEnd := s.now + 1250000 * ms } }

/-- Half the period has passed: source 505, once. -/
def State.wdogWarning (s : State) : State :=
  if s.wdogRuns && !s.sys.wdogHalf then
    let s := s.reach (s.sys.wdogEnd - 625000 * s.sys.wdogMs)
    { s with sys := { s.sys with wdogHalf := true } }.fire 505
  else s

/-- The count has come to zero: a WDOG reset. -/
def State.wdogExpire (s : State) : State := if s.wdogRuns then (s.reach s.sys.wdogEnd).warmReset true else s

/-- PLL_LOCK (R323). -/
def execPllLock (seen : BootSeen) (s : State) : Out := .next (if s.boot.step = 3 then s.bootSteps seen else s)
/-- BOOT_TIMEOUT (R330). -/
def execBootTimeout (s : State) : Out := .next s.bootTimeout
/-- POR (R331). -/
def execPor (pntId : Fin 4) (s : State) : Out := .next (s.por pntId.val)
/-- PIN_RESET (R331). -/
def execPinReset (s : State) : Out := .next s.pinReset
/-- WDOG_WARNING (R333). -/
def execWdogWarning (s : State) : Out := .next s.wdogWarning
/-- WDOG_EXPIRY (R333). -/
def execWdogExpiry (s : State) : Out := .next s.wdogExpire
/-- TILE_RESET_RELEASE (R334). -/
def execTileResetRelease (t : Fin 8) (s : State) : Out := .next (s.tileRelease t.val)

end Sys2Proof.Machine
end

