-- ==== Sys2Proof/Machine/Hub.lean ====
section
/-! DEFINITION. Machine/Hub.lean: function modes, the commit registers and the global commit, and what window and cycle boundaries bring
(R24, R28 to R33, R83 to R85, R107, R145, R180, R368, R369, R372). -/

namespace Sys2Proof.Machine

open Sys2Proof

/-! ### Function modes (R28 to R31) -/

/-- A write of HUB_FUNC_MODE: calibration and the wake plane change at once, an idle neighbour's bypasses too, the others at their points. The wake
plane's mode before the write is kept for a bell whose sync word was detected before it (R30). A changed bit is pending until its function has the mode
everywhere (R31). -/
def State.funcModeWrite (s : State) (data : Nat) : State :=
  let old := s.bit R.HUB_FUNC_MODE_bits 7
  let was := s.get R.HUB_FUNC_MODE_bits
  let soft := s.softSlots
  let s := (s.set R.HUB_FUNC_MODE_bits data).softChanged soft
  let s := s.set R.HUB_FUNC_STATUS_pending (s.get R.HUB_FUNC_STATUS_pending ||| (was ^^^ s.get R.HUB_FUNC_MODE_bits))
  let s := if s.bit R.HUB_FUNC_MODE_bits 7 == old then s else { s with aon := { s.aon with oldMode := old } }
  (forAll 64 (fun n s => s.nbrPoke n) s).refreshFunc

/-! ### Commits (R32, R33, R83 to R85, R145, R182) -/

/-- A pending global commit includes what its field names. -/
def State.gcIncludes (s : State) (f : Field) (k : Nat) : Bool := s.on R.HUB_GCOMMIT_busy && s.bit f k

/-- A write of HUB_GCOMMIT: refused while a commit waits; skipped bits clear where written 1; a selection waits for the next window boundary. -/
def State.gcommitWrite (s : State) (data : Nat) : State × Status :=
  if s.on R.HUB_GCOMMIT_busy then (s, .busy)
  else
    let skipped := s.get R.HUB_GCOMMIT_skipped
    let s := s.set R.HUB_GCOMMIT_skipped (skipped - (skipped &&& bits data 23 16))
    if data % 2 ^ 11 = 0 then (s, .ok)
    else
      let s := ((s.set R.HUB_GCOMMIT_tiles data).set R.HUB_GCOMMIT_bf (bits data 8 8)).set R.HUB_GCOMMIT_xng (bits data 9 9)
      let s := (s.set R.HUB_GCOMMIT_mac_nbr (bits data 10 10)).set R.HUB_GCOMMIT_busy 1
      (forBits 8 (data % 256) (fun t s => s.set (R.TILE_COMMIT_gc_pending t) 1) s, .ok)

/-- A write of TILE_COMMIT of tile t. -/
def State.tileCommitWrite (s : State) (t data : Nat) : State × Status :=
  if s.gcIncludes R.HUB_GCOMMIT_tiles t then (s, .busy)
  else (if data.testBit 0 then s.tileCommitNow t else s, .ok)

/-- A write of BF_COMMIT. -/
def State.bfCommitWrite (s : State) (data : Nat) : State × Status :=
  if s.gcIncludes R.HUB_GCOMMIT_bf 0 then (s, .busy)
  else (if data.testBit 0 then s.bfCommitNow else s, .ok)

/-- A write of XNG_COMMIT: image is kept for a global commit that includes it. -/
def State.xngCommitWrite (s : State) (data : Nat) : State × Status :=
  if s.gcIncludes R.HUB_GCOMMIT_xng 0 then (s, .busy)
  else
    let s := s.set R.XNG_COMMIT_image (bits data 8 8)
    (if data.testBit 0 then s.xngCommit (bits data 8 8) else s, .ok)

/-- A write of MAC_NBR_COMMIT, or of MAC_NBR_SEL through selWrite, is refused while a commit of the neighbours is pending (R182). -/
def State.nbrCommitWrite (s : State) (data : Nat) : State × Status :=
  if s.on R.MAC_NBR_COMMIT_pending || s.gcIncludes R.HUB_GCOMMIT_mac_nbr 0 then (s, .busy)
  else (if data.testBit 0 then s.nbrCommit ((s.now / windowTicks + 1) * windowTicks) else s, .ok)

/-- The window boundary that a global commit waits for: every selected commit takes effect, tiles that are not powered are left out (R32, R33, R85). -/
def State.globalCommit (s : State) : State :=
  if !s.on R.HUB_GCOMMIT_busy then s
  else
    let tiles := s.get R.HUB_GCOMMIT_tiles
    let s := s.set R.HUB_GCOMMIT_busy 0
    let s := forBits 8 tiles (fun t s =>
      let s := s.set (R.TILE_COMMIT_gc_pending t) 0
      if s.tileUp t then s.tileCommitNow t else s.setBit R.HUB_GCOMMIT_skipped t) s
    let s := if s.on R.HUB_GCOMMIT_bf then s.bfCommitNow else s
    let s := if s.on R.HUB_GCOMMIT_xng then s.xngCommit (s.get R.XNG_COMMIT_image) else s
    let s := if s.on R.HUB_GCOMMIT_mac_nbr then s.nbrCommit s.now else s
    s.fire 69

/-! ### The pontoon's digest and beacons (R368, R369, R372) -/

/-- The 32-byte field block of the digest (R369). -/
def State.digestFields (s : State) : List Byte :=
  [s.get R.RF_CHAN_sel + s.get R.RF_CHAN_ch_a * 2 ^ 8 + s.get R.RF_CHAN_ch_b * 2 ^ 16,
   s.get R.EIRP_CTRL_region + s.get R.EIRP_CTRL_lock * 2 ^ 31,
   s.get R.PHY_LEAD_CFG_thresh + s.get R.PHY_LEAD_CFG_search * 2 ^ 16 + s.get R.PHY_LEAD_CFG_salt * 2 ^ 24,
   s.get R.MAC_CFG_short, s.get R.MAC_NODE_ID_LO_node_id, s.get R.MAC_NODE_ID_HI_node_id,
   s.get (R.PNT_SHARED_nbrs 0), s.get (R.PNT_SHARED_nbrs 1)].flatMap (toBytes 4)

/-- The bytes of the shared region that lie in hub SRAM (R369). -/
def State.digestRegion (s : State) : List Byte :=
  let base := s.get R.PNT_CFG_BASE_base * 4
  ((s.bytes base (min (s.get R.PNT_CFG_LEN_len) 16384)).zipIdx.filter fun (p : Byte × Nat) => inSram (base + p.2) 1).map (·.1)

/-- At the start of window 4095 the hub samples what the coming cycle boundary applies: scheduling and time mode, slew and step, and with pontoon on
the configuration digest (R28, R180, R369). -/
def State.sampleModes (s : State) : State :=
  let s := { s with xng := { s.xng with
    sampledSched := s.bit R.HUB_FUNC_MODE_bits 2, sampledTime := s.bit R.HUB_FUNC_MODE_bits 5,
    sampledSlew := s.getS R.MAC_TIME_SLEW_ppb, sampledStep := s.get2 R.MAC_TIME_STEP_ticks } }
  if s.on R.PNT_CTRL_en then s.set2 R.PNT_DIGEST_digest (ofBytes ((sha256 (s.digestFields ++ s.digestRegion)).take 8)) else s

/-- State of peer p in PNT_STATUS: 0 ABSENT, 1 TRAINING, 2 JOINED, 3 LOST, 4 DUP_ID. -/
def State.peerState (s : State) (p : Nat) : Nat := s.get R.PNT_STATUS_peer / 8 ^ p % 8
def State.setPeer (s : State) (p v : Nat) : State :=
  s.set R.PNT_STATUS_peer (s.get R.PNT_STATUS_peer - s.peerState p * 8 ^ p + v % 8 * 8 ^ p)

/-- Node ID of neighbour n. -/
def State.nodeId (s : State) (n : Nat) : Nat := s.get (R.NBR_NODE_LO_node_id_lo n) + 2 ^ 32 * s.get (R.NBR_ADDR_node_id_hi n)

/-- Node IDs that the module claims (R372). -/
def State.claims (s : State) : List Nat :=
  ((List.range 64).filter fun n => s.on (R.NBR_CFG_enabled n) && !s.isBroadcast n).map s.nodeId

/-- The body of a BEACON for the cycle boundary now (Table 12.9). -/
def State.beaconBody (s : State) : List Byte :=
  toBytes 8 (s.get2 R.PNT_DIGEST_digest) ++ toBytes 1 (s.get R.PNT_GEN_minor) ++ toBytes 1 (s.get R.PNT_GEN_major)
    ++ toBytes 2 s.claims.length ++ toBytes 8 s.now ++ toBytes 8 (s.now / cycleTicks) ++ s.claims.flatMap (toBytes 6)

/-- Every joined peer is sent a BEACON (R368). -/
def State.sendBeacons (s : State) : State :=
  let body := s.beaconBody
  forAll 4 (fun p s =>
    if s.peerState p = 2 then s.linkSend p (.beacon body) else s) s

/-! ### Boundaries (R24) -/

/-- A window boundary: samples at window 4095, the window yarn, a waiting global commit, slot shadows, a change of synthesiser, the governor and the
tension cycles (R24, R28, R32, R61, R65, R84, R107). -/
def State.windowBoundary (s : State) (codes : List (Nat × Nat × Int × Int)) : State :=
  if !s.hubUp then s
  else
    let b := nextMultiple s.now s.clk.windowAt windowTicks
    let s := (s.reach b).slewSettle.refreshVotes
    let s := { s with clk := { s.clk with windowAt := b } }
    let s := if b / windowTicks % 4096 = 4095 then s.sampleModes else s
    let s := ((s.yarn 32).globalCommit.slotsLive.selSwitch).govern
    forAll 8 (fun t s => s.tensionWindow t codes) s

/-- The slew and the forward step that the host wrote apply from the cycle boundary (R180). -/
def State.hostTimeApply (s : State) : State :=
  if !s.xng.hostTime then s
  else
    let s := s.setSlew s.xng.sampledSlew
    if s.xng.sampledStep = 0 || s.clk.stepWait.isSome then s
    else { s with clk := { s.clk with stepWait := some (s.xng.sampledStep, 1) } }

/-- A cycle boundary: scheduling and time mode take effect, a committed image becomes live, host time applies, beacons leave, and the cycle yarn fires
(R24, R28, R145, R180, R368). -/
def State.cycleBoundary (s : State) : State :=
  if !s.hubUp then s
  else
    let b := nextMultiple s.now s.clk.cycleAt cycleTicks
    let s := s.reach b
    let s := { s with clk := { s.clk with cycleAt := b } }
    let s := { s with xng := { s.xng with hostSched := s.xng.sampledSched, hostTime := s.xng.sampledTime } }
    let s := s.refreshFunc.imageSwitch.pruneVotes.hostTimeApply
    (if s.on R.PNT_CTRL_en then s.sendBeacons else s).yarn 33

/-- WINDOW_BOUNDARY (R24). -/
def execWindowBoundary (dcCodes : List (Nat × Nat × Int × Int)) (s : State) : Out := .next (s.windowBoundary dcCodes)
/-- CYCLE_BOUNDARY (R24). -/
def execCycleBoundary (s : State) : Out := .next s.cycleBoundary

end Sys2Proof.Machine
end

