-- ==== Sys2Proof/Machine/Records.lean ====
section
/-! DEFINITION. Machine/Records.lean: clearing error units and the black box, unit resets, scrubbers, counter snapshots and overflows, markers, and
the management bus (R413 to R432, R452). -/

namespace Sys2Proof.Machine

open Sys2Proof

/-! ### Units (R416, R417, Table 14.4) -/

/-- Active, ovf and pending of a unit clear. -/
def State.unitClear (s : State) (u : Nat) : State :=
  ((s.set (R.ERR_UNIT_active u) 0).set (R.ERR_UNIT_ovf u) 0).set (R.ERR_UNIT_pending u) 0

/-- A write of ERR_UNIT_u: a 1 clears active, and pending with it, or ovf (R416). -/
def State.unitWrite (s : State) (u data : Nat) : State :=
  let s := if data.testBit 31 then (s.set (R.ERR_UNIT_active u) 0).set (R.ERR_UNIT_pending u) 0 else s
  if data.testBit 30 then s.set (R.ERR_UNIT_ovf u) 0 else s

/-- Mesh time has come to the end of a unit's reset, where an escalation began it. -/
def State.resetSpan (s : State) (u : Nat) : State :=
  let t := match s.err.resetEnds.find? fun (x : Nat × Nat) => x.1 == u with | some x => x.2 | none => s.now
  let s := s.reach t
  { s with err := { s.err with resetEnds := s.err.resetEnds.filter fun (x : Nat × Nat) => x.1 != u } }

/-- The reset of a cipher pipe, a decoder or an encoder is over. -/
def State.unitFree (s : State) (u : Nat) : State :=
  if 0x74 ≤ u && u < 0x7C && (s.pipe (u - 0x74)).inReset then
    (s.updPipe (u - 0x74) fun x => { x with inReset := false }).unitClear u
  else if 0x7C ≤ u && u < 0x8C && s.phy.decReset.testBit (u - 0x7C) then
    { s with phy := { s.phy with decReset := withBit s.phy.decReset (u - 0x7C) false } }.unitClear u
  else if 0x8C ≤ u && u < 0x9C && s.phy.encReset.testBit (u - 0x8C) then
    { s with phy := { s.phy with encReset := withBit s.phy.encReset (u - 0x8C) false } }.unitClear u |>.feedEncoders
  else s

/-- The reset of a cipher pipe, a decoder or an encoder ends, and the unit takes work again (R417). -/
def State.unitResetEnd (s : State) (u : Nat) : State := (s.resetSpan u).unitFree u

/-- A write of AON_BB_CTRL: key 0xA5 and clear make every record and the header zero (R428). -/
def State.blackBoxWrite (s : State) (data : Nat) : State :=
  if bits data 31 24 = 0xA5 && data.testBit 0 then
    ((s.clearMem 0x03010100 0x2000).set R.BB_HDR_index 0).set R.BB_HDR_written 0
  else s

/-! ### Scrubbers of RAM (R420 to R422, Table 14.5) -/

/-- Words of one pass of scrubber m. -/
def scrubWords (m : Nat) : Nat := [1572864, 524288, 1048576, 1572864, 4096].getD m 1

/-- Address of word i of a pass, in address order. A tile has 131,072 words of weight memory; its engine local memories have 131,072 and its shared
memory 65,536. -/
def scrubAddr (m i : Nat) : Nat :=
  match m with
  | 0 => 0x1000000 + 8 * i
  | 1 => 0x100000000 + 4 * i
  | 2 => tileBase (i / 131072) + 0x100000 + 4 * (i % 131072)
  | 3 => tileBase (i / 196608) + 0x200000 + (if i % 196608 < 131072 then 4 * (i % 196608) else 0x100000 + 4 * (i % 196608 - 131072))
  | _ => 0x03010000 + 4 * i

/-- Words of a pass that belong to one tile, for the scrubbers of the tiles. -/
def scrubTileWords (m : Nat) : Nat := if m = 2 then 131072 else 196608

/-- The scrubber stands at a word of a tile whose logic does not run: it goes on with the next tile that does. -/
def State.scrubSkip (s : State) (m : Nat) : Nat → Nat → Nat
  | 0, i => i
  | n + 1, i =>
    if s.tileRuns (i / scrubTileWords m) then i
    else s.scrubSkip m n ((i / scrubTileWords m + 1) % 8 * scrubTileWords m)

/-- The memory of scrubber m is powered and runs. -/
def State.scrubbable (s : State) (m : Nat) : Bool :=
  match m with
  | 2 => s.hubUp && (List.range 8).any fun t => s.tileRuns t
  | 3 => s.hubUp && (List.range 8).any fun t => s.tileRuns t
  | 4 => s.pwr.mode != .off
  | _ => s.hubUp

/-- What the scrubber finds: a word already poisoned is a hit, a single-bit error is corrected, an uncorrectable one poisoned. With the hub down the AON
die corrects and poisons, and no record is formed. -/
def State.scrubSeen (s : State) (a : Nat) (ecc : EccSeen) : State :=
  match s.hubUp, ecc with
  | true, .uncorrectable syn => s.uncorrectable a syn true 6 0
  | true, .corrected line syn _ => if s.poisoned a then s.uncorrectable a 0 true 6 0 else s.corrected a line syn 6 0
  | true, .clean => if s.poisoned a then s.uncorrectable a 0 true 6 0 else s
  | false, .uncorrectable _ => s.setPoison a
  | false, _ => s

/-- A scrubber reads its next word; the end of a pass counts (R420). -/
def State.scrubWord (s : State) (m : Nat) (ecc : EccSeen) : State :=
  if !s.bit R.ERR_SCRUB_CTRL_en m || !s.scrubbable m || 5 ≤ m then s
  else
    let i := vget s.err.scrubPos m
    let i := if m = 2 || m = 3 then s.scrubSkip m 8 i else i
    let a := scrubAddr m i
    let s := (s.pmc 0x0C1 (unitOf a)).scrubSeen a ecc
    let next := (i + 1) % scrubWords m
    let s := { s with err := { s.err with scrubPos := vset s.err.scrubPos m next } }
    if next = 0 then s.bumpWrap (R.ERR_SCRUB_PASS_passes m) else s

/-! ### Performance counters and markers (R430 to R433) -/

/-- A write of PMC_CTRL: snap takes a snapshot (R431). -/
def State.pmcCtrlWrite (s : State) (data : Nat) : State :=
  let s := if data.testBit 16 then s.pmcSnapshot else s
  ((s.set R.PMC_CTRL_freeze (bits data 31 31)).set R.PMC_CTRL_freeze_on_ovf (bits data 30 30)).set R.PMC_CTRL_snap_sel (bits data 15 8)

/-- A write of PMC_CNT_i; a counter that had saturated may overflow again. -/
def State.pmcCntWrite (s : State) (i v : Nat) : State :=
  { s.set (R.PMC_CNT_count i) v with sys := { s.sys with pmcSat := withBit s.sys.pmcSat i false } }

/-- Counter i has counted up to its overflow in events of its own that no command of the model carries; a is the word at which an engine's counter
overflowed (R430, R433). -/
def State.pmcOverflowEvent (s : State) (i a : Nat) : State :=
  if !s.hubUp || s.on R.PMC_CTRL_freeze || !s.on (R.PMC_CFG_en i) || s.pmcChained i then s
  else
    let ev := s.get (R.PMC_CFG_event i)
    s.pmcAdd i (2 ^ 32 - s.get (R.PMC_CNT_count i)) (if 0x10 ≤ ev && ev ≤ 0x18 then some (s.get (R.PMC_CFG_filter i), a) else none)

/-- Unread marker records. -/
def State.markersUnread (s : State) : Nat := (s.get R.PMC_MARK_PTR_wr + 64 - s.get R.PMC_MARK_PTR_rd) % 64

/-- A marked word of engine g retires, or an exception suppresses it: its record is written or dropped, and the next gap is drawn (R432, Table 14.9). The
cycle counts are free values (log 7). -/
def State.marker (s : State) (g a word : Nat) (suppressed : Bool) : State :=
  if !s.hubUp || !s.on R.PMC_MARK_CTRL_en || !s.bit (R.PMC_MARK_SEL_engines (g / 32)) (g % 32) || !s.engPowered g then s
  else
    let s := s.drawMask 1
    let s := if suppressed then s else s.pmc 0x140 g
    let wr := s.get R.PMC_MARK_PTR_wr
    if (wr + 1) % 64 = s.get R.PMC_MARK_PTR_rd then s.set R.PMC_MARK_PTR_ovf 1
    else
      let c := Config.markerCycles s.freeCtr
      let s := s.tickFree
      let w2 := c % 65536 + c / 65536 % 5 * 65536 + suppressed.toNat * 2 ^ 20 + (s.eng g).r.timed.toNat * 2 ^ 21
      let s := (s.setWords (0x020F1000 + 16 * wr) [g * 2 ^ 25 + a % 65536, word, w2, s.now % 2 ^ 32]).set R.PMC_MARK_PTR_wr ((wr + 1) % 64)
      if s.markersUnread = max 1 (s.get R.PMC_MARK_CTRL_thresh) then s.fire 504 else s

/-! ### The management bus (R452) -/

/-- A write of MGMT_CMD: refused while a transaction runs; go starts one while the master is enabled and the hub is up. -/
def State.mgmtCmd (s : State) (data : Nat) : State × Status :=
  if s.on R.MGMT_STATUS_busy then (s, .busy)
  else
    let s := ((s.set R.MGMT_CMD_read (bits data 24 24)).set R.MGMT_CMD_dev (bits data 22 16)).set R.MGMT_CMD_reg (bits data 15 8)
    let s := s.set R.MGMT_CMD_wdata (bits data 7 0)
    if data.testBit 31 && s.on R.MGMT_CTRL_en then ((s.set R.MGMT_CMD_go 1).set R.MGMT_STATUS_busy 1, .ok) else (s, .ok)

/-- The transaction is over: go and busy clear. -/
def State.mgmtOver (s : State) : State := (s.set R.MGMT_CMD_go 0).set R.MGMT_STATUS_busy 0

/-- An I2C transaction ends: with a missing acknowledge, or with the byte that a read has brought. -/
def State.mgmtDone (s : State) (nack : Bool) (rdata : Nat) : State :=
  if !s.on R.MGMT_STATUS_busy then s
  else if nack then (s.set R.MGMT_STATUS_nack 1).mgmtOver
  else (if s.on R.MGMT_CMD_read then s.set R.MGMT_STATUS_rdata rdata else s).mgmtOver

/-- SCL has been low for more than 25 ms. -/
def State.mgmtTimeout (s : State) : State :=
  if s.on R.MGMT_STATUS_busy then (s.set R.MGMT_STATUS_timeout 1).mgmtOver else s

/-- UNIT_RESET_END (R417). -/
def execUnitResetEnd (u : Fin 166) (s : State) : Out := .next (s.unitResetEnd u.val)
/-- SCRUB_WORD (R420). -/
def execScrubWord (m : Fin 5) (ecc : EccSeen) (s : State) : Out := .next (s.scrubWord m.val ecc)
/-- PMC_OVERFLOW (R430). -/
def execPmcOverflow (i : Fin 32) (a : BitVec 16) (s : State) : Out := .next (s.pmcOverflowEvent i.val a.toNat)
/-- MARKER_SAMPLE (R432). -/
def execMarkerSample (g : Fin 96) (a : BitVec 16) (word : Word) (suppressed : Bool) (s : State) : Out :=
  .next (s.marker g.val a.toNat word.toNat suppressed)
/-- MGMT_DONE (R452). -/
def execMgmtDone (nack : Bool) (rdata : Fin 256) (s : State) : Out := .next (s.mgmtDone nack rdata.val)
/-- MGMT_TIMEOUT (R452). -/
def execMgmtTimeout (s : State) : Out := .next s.mgmtTimeout

end Sys2Proof.Machine
end

