-- ==== Sys2Proof/Machine/DevEnd.lean ====
section
/-! DEFINITION. Machine/DevEnd.lean: where the outcome of a device access goes: a completion on its link, the once cache, a late fault, the engine
that waits, or POSTED_FAULT; and how accesses under wake-on-touch end (R195 to R197, R213, R304, R305, R335, R349, R356 to R360). -/

namespace Sys2Proof.Machine

open Sys2Proof

/-! ### Completions on a link (R349, R356, R357) -/

/-- The packet that ends a request: data go in a CPLD. -/
def answerPacket (tag : Nat) (st : Status) (data : List Byte) : OutPacket :=
  if data.isEmpty then .cpl tag st else .cpld tag st data

/-- The outcome joins the once entry of the host request with that running number; sent tells that its completion goes out. -/
def onceEnd (serial : Nat) (st : Status) (data : List Byte) (sent : Bool) (e : OnceEntry) : OnceEntry :=
  if e.serial = serial then
    { e with state := if sent then .delivered else .open_, status := st, data := data }
  else e

/-- A request of link l ends: its completion is sent once where its tag is still open; one whose tag LINK_RESET has ended is kept for a retry. -/
def State.linkDone (s : State) (l tag serial : Nat) (st : Status) (data : List Byte) : State :=
  let live := (s.link l).openTags.contains (tag, serial)
  let s := s.updLink l fun x => { x with
    openTags := x.openTags.filter fun (t : Nat × Nat) => t != (tag, serial)
    once := x.once.map (onceEnd serial st data live) }
  (if live then s.linkSend l (answerPacket tag st data) else s).settleCancels

/-! ### Late faults (R359) -/

/-- A late fault is logged in the ring and fires source 480; an entry overwritten before its message went out is lost. dir is 0 for one that the
module sends. -/
def State.logLate (s : State) (dir l seq : Nat) (st : Status) (addr : Nat) : State :=
  let w := s.get R.LNK_LATE_PTR_wr % 32
  let lost := s.lnk.lateWait.any fun (x : Nat × Nat × Nat × Status × Nat) => x.1 == w
  let s := if lost then s.bump R.LNK_LATE_STAT_lost else s
  let s := { s with lnk := { s.lnk with lateWait := s.lnk.lateWait.filter fun (x : Nat × Nat × Nat × Status × Nat) => x.1 != w } }
  let s := ((s.set (R.LNK_LATE_FAULT0_dir w) dir).set (R.LNK_LATE_FAULT0_link w) l).set (R.LNK_LATE_FAULT0_status w) st.code
  let s := ((s.set (R.LNK_LATE_FAULT0_seq w) seq).set (R.LNK_LATE_FAULT1_addr w) addr).set (R.LNK_LATE_FAULT2_time w) s.now
  (s.set R.LNK_LATE_PTR_wr ((w + 1) % 32)).fire 480

/-- A posted write of link l fails: it counts for the next FENCE, and its late fault is logged and waits for a VC1 berth. -/
def State.lateFault (s : State) (l seq : Nat) (st : Status) (addr : Nat) : State :=
  let s := s.updLink l fun x => { x with fails := x.fails ++ [seq] }
  let w := s.get R.LNK_LATE_PTR_wr % 32
  let s := s.logLate 0 l seq st addr
  { s with lnk := { s.lnk with lateWait := s.lnk.lateWait ++ [(w, l, seq, st, addr)] } }

/-! ### Outcomes of an engine's accesses (R195 to R197, R213, R214, R335) -/

/-- The status of a fault as ECAUSE shows it (Table 6.9). -/
def postedCode : Status → Nat
  | .dozing => 2 | .poisoned => 3 | .linkReset => 4 | .busy => 5 | .decode => 6 | _ => 1

/-- A GATHER lane has its word: with the last one the GATHER retires; a next lane that is misaligned faults before its access (R195). -/
def State.gatherPut (s : State) (g base dst idx lane : Nat) (data : List Byte) : State :=
  let r := (s.eng g).r
  let r := { (r.putVec dst (vset (r.vec dst) lane (BitVec.ofNat 32 (ofBytes data)))) with gdone := r.gdone ||| 2 ^ lane }
  if 16 ≤ gatherLane r then s.engRetire g false { r with gdone := 0 } []
  else match gatherAlign r base idx with
    | some f => s.engFault g r f
    | none => s.updEng g fun x => { x with r := r }

/-- The access that engine g waits for ends with a status and, for a load, its bytes: the word retires or faults. An access issued before a reset ends
without a trace in the engine. -/
def State.engFinish (s : State) (g : Nat) (st : Status) (data : List Byte) : State :=
  let x := s.eng g
  if x.discard.isSome then s.updEng g fun x => { x with discard := none }
  else
    match x.wait with
    | some (.load a n dst sx) =>
      match statusFault a st with
      | some f => s.engFault g x.r f
      | none => s.engRetire g false (x.r.put dst (loadValue n sx (ofBytes data))) []
    | some (.store a _ _) =>
      match statusFault a st with
      | some f => s.engFault g x.r f
      | none => s.engRetire g false x.r []
    | some (.vload a dst) =>
      match statusFault a st with
      | some f => s.engFault g x.r f
      | none => s.engRetire g false (x.r.putVec dst (bytesVec data)) []
    | some (.vstore a _) =>
      match statusFault a st with
      | some f => s.engFault g x.r f
      | none => s.engRetire g false x.r []
    | some (.gather base dst idx) =>
      let lane := gatherLane x.r
      match statusFault (gatherAddr x.r base idx lane) st with
      | some f => s.engFault g x.r { f with lane := lane }
      | none => s.gatherPut g base dst idx lane data
    | _ => s

/-- A posted store of engine g has failed: POSTED_FAULT is due at its next word boundary; the first of several is kept. -/
def State.storeFailed (s : State) (g : Nat) (st : Status) (addr : Nat) : State :=
  s.updEng g fun x => if x.postedFault.isSome then x else { x with postedFault := some (addr, postedCode st) }

/-! ### Outcomes -/

/-- The access is posted: its issuer sees no completion. -/
def AccSrc.isPosted : AccSrc → Bool
  | .posted _ _ => true
  | .store _ => true
  | _ => false

/-- An access at addr ends: its outcome goes to its source. -/
def State.finish (s : State) (src : AccSrc) (st : Status) (addr : Nat) (data : List Byte) : State :=
  match src with
  | .direct => s.reply st data
  | .link l tag serial => s.linkDone l tag serial st data
  | .posted l seq => if st = .ok then s else s.lateFault l seq st addr
  | .engine g => s.engFinish g st data
  | .store g => if st = .ok then s else s.storeFailed g st addr
  | .fence => s

/-! ### Fences (R197, R360) -/

/-- A FENCE that has not completed waits for posted writes of this source. -/
def State.fenced (s : State) (src : AccSrc) : Bool :=
  s.lnk.fences.any (fun (f : FenceWait) => f.covers src)
    || match src with
      | .store g => (s.eng g).wait == some .fence
      | _ => false

/-- The module sends a FENCE of its own to a peer where forwarded writes that a FENCE waits for have been sent, one at a time. -/
def State.askFence (s : State) (p : Nat) : State :=
  let l := s.link p
  let due := l.fwdPosted.any (fun (x : Nat × Nat × AccSrc) => s.fenced x.2.2) && !l.vc1.any (OutPacket.postedOf s.fenced)
    && !l.ownReqs.any (fun (r : Nat × AccSrc) => r.2 == .fence) && l.lateOwed.isNone
  match due, l.freeTag with
  | true, some t => (s.updLink p fun x => { x with ownReqs := x.ownReqs ++ [(t, .fence)] }).linkSend p (.fence t)
  | _, _ => s

/-- The data of a FENCE's completion: last sequence covered, failures among those since the previous FENCE, the first of them, and
LNK_LATE_STAT.lost. -/
def State.fenceData (s : State) (f : FenceWait) : List Byte :=
  let fs := (s.link f.link).fails.filter fun q => seqUpTo q f.seq
  toBytes 2 f.seq ++ toBytes 2 fs.length ++ toBytes 2 (fs.headD 0) ++ toBytes 2 (s.get R.LNK_LATE_STAT_lost)

/-- A FENCE completes with CPLD. -/
def State.fenceDone (s : State) (f : FenceWait) : State :=
  (s.updLink f.link fun x => { x with fails := x.fails.filter fun q => !seqUpTo q f.seq }).linkDone f.link f.tag f.serial .ok (s.fenceData f)

/-- Where an engine goes on after an exception that comes before its FENCE retires: the FENCE, or the head of the group that it belongs to. -/
def Engine.fenceBack (x : Engine) : EngRegs :=
  match x.ctx with
  | .plain => x.r
  | .delaySlot b _ _ _ _ => { x.r with pc := b }
  | .shadow _ _ _ _ => x.saved.getD x.r

/-- The FENCE that engine g waits for: a POSTED_FAULT of an earlier STP is taken first; with no posted store on its way it retires (R197). -/
def State.engFence (s : State) (g : Nat) : State :=
  let x := s.eng g
  if x.wait != some .fence then s
  else if x.postedFault.isSome then
    (s.updEng g fun x => { x with r := x.fenceBack, ctx := .plain, saved := none, wait := none, state := .running }).takeBoundary g
  else if s.postedOut fun src => src == .store g then s
  else s.engRetire g false x.r []

/-- Every FENCE that need wait no longer completes, an engine told to halt halts with its last posted store, and peers are asked for the others. -/
def State.settleFences (s : State) : State :=
  let ended (f : FenceWait) : Bool := !s.postedOut f.covers
  let done := s.lnk.fences.filter ended
  let s := { s with lnk := { s.lnk with fences := s.lnk.fences.filter fun f => !ended f } }
  let s := forAll 96 (fun g s => (s.engFence g).engBoundary g) (done.foldl State.fenceDone s)
  forAll 4 (fun p s => s.askFence p) s

/-! ### Unpowered windows and wake-on-touch (R304, R305) -/

/-- What a read of an unpowered window returns: 0x0FF0_0FF0 in every word. -/
def dozingBytes (addr len : Nat) : List Byte :=
  (List.range len).map fun i => BitVec.ofNat 8 (0x0FF00FF0 / 256 ^ ((addr + i) % 4))

/-- An access to a window whose domain does not run counts and logs UNPOWERED, at most once per domain and millisecond. -/
def State.unpowered (s : State) (ini : Initiator) (d : Nat) (isWrite : Bool) (addr : Nat) : State :=
  (s.bump (R.PWR_UNPOWERED_CNT_count d)).logErr
    { cls := 4, unit := unitOf addr, addr := addr, detail := d + isWrite.toNat * 256, ini := Initiator.code ini, eng := Initiator.engNo ini, key := d }

/-- A waiting access completes as to an unpowered window. -/
def State.wotFail (s : State) (w : WotAccess) : State :=
  (s.unpowered w.ini w.dom w.isWrite w.addr).finish w.src .dozing w.addr (if w.isWrite then [] else dozingBytes w.addr w.len)

/-- Every access that waits for domain d completes as to an unpowered window, and the wake-on-touch vote goes. -/
def State.wotDrop (s : State) (d : Nat) : State :=
  let ws := s.lnk.wot.filter fun (w : WotAccess) => w.dom == d
  if ws.isEmpty then s
  else
    let s := { s with lnk := { s.lnk with wot := s.lnk.wot.filter fun (w : WotAccess) => w.dom != d } }
    ((ws.foldl State.wotFail s).unvote d 27).settleFences

/-- Accesses that wait for a domain that is now forced off complete (R305). -/
def State.wotForced (s : State) : State :=
  (List.range 16).foldl (fun s d => if s.forcedOff d && !s.domUp d then s.wotDrop d else s) s

/-- WOT_TIMEOUT (R305): 180 µs after its rise began the domain is not up. -/
def execWotTimeout (d : Fin 16) (s : State) : Out := .next (if s.domUp d.val then s else s.wotDrop d.val)

end Sys2Proof.Machine
end

