-- ==== Sys2Proof/Machine/RegAccess.lean ====
section
/-! DEFINITION. Machine/RegAccess.lean: what stands at a register address: the fields of the register tables, what a read returns and clears, and a
write by the access codes of Table 0.1 (R5 to R7, R183, R188, R222). -/

namespace Sys2Proof.Machine

open Sys2Proof

/-! ### From an address to fields (Tables 1.6, 1.7) -/

/-- The owner, its number and the offset in its block that a register address stands for. -/
structure RegPlace where
  owner : Owner
  own : Nat
  off : Nat
  deriving DecidableEq, Repr

/-- Where a register of a tile window stands: element blocks, stitch cells (Table 8.6) and timers (Table 9.5) have numbers of their own. -/
def tilePlace (t o : Nat) : RegPlace :=
  if 0x10000 ≤ o then ⟨.elem, 64 * t + (o - 0x10000) / 0x100, o % 0x100⟩
  else if 0x900 ≤ o && o < 0x980 then ⟨.cell, 32 + 8 * t + (o - 0x900) / 16, o % 16⟩
  else if 0xC00 ≤ o && o < 0xC80 then ⟨.timer, 16 + 4 * t + (o - 0xC00) / 0x20, o % 0x20⟩
  else ⟨.tile, t, o⟩

/-- Where a register address stands. -/
def regPlace (a : Nat) : RegPlace :=
  if 0x1000000 ≤ a && a < 0x1004000 then ⟨.nbr, (a - 0x1000000) / 256, a % 256⟩
  else if 0x1004000 ≤ a && a < 0x1005000 then ⟨.nbrShadow, (a - 0x1004000) / 64, a % 64⟩
  else if 0x02030100 ≤ a && a < 0x02030300 then ⟨.cell, (a - 0x02030100) / 16, a % 16⟩
  else if 0x02040000 ≤ a && a < 0x02040200 then ⟨.timer, (a - 0x02040000) / 0x20, a % 0x20⟩
  else if 0x020A0900 ≤ a && a < 0x020A0A00 then ⟨.capRegion, (a - 0x020A0900) / 0x40, 0x020A0900 + a % 0x40⟩
  else if 0x04000000 ≤ a && a < 0x08000000 then tilePlace ((a - 0x04000000) / 0x800000) (a % 0x800000)
  else ⟨.hub, 0, a⟩

/-- The index at which a row of the tables stands at an offset. -/
def Row.indexAt (r : Row) (off : Nat) : Option Nat :=
  if r.stride = 0 then (if off = r.base then some 0 else none)
  else if r.base ≤ off && (off - r.base) % r.stride = 0 && (off - r.base) / r.stride < r.count then some ((off - r.base) / r.stride)
  else none

/-- The fields at a place, each with its row, from row number n of the tables on. -/
def fieldsFrom (p : RegPlace) : Nat → List Row → List (Row × Field)
  | _, [] => []
  | n, r :: rest =>
    if r.owner = p.owner then
      match r.indexAt p.off with
      | some i => (r, ⟨n, p.own, i, r.width, r.rst⟩) :: fieldsFrom p (n + 1) rest
      | none => fieldsFrom p (n + 1) rest
    else fieldsFrom p (n + 1) rest

/-- The fields at a register address. -/
def fieldsAt (a : Nat) : List (Row × Field) := fieldsFrom (regPlace a) 0 regTable

/-! ### Reads (R6, R7) -/

/-- The fields' values in a word: write-only fields and everything else read zero. -/
def State.fieldsWord (s : State) (fs : List (Row × Field)) : Nat :=
  fs.foldl (fun (w : Nat) (x : Row × Field) => if x.1.acc = .wo then w else w + s.get x.2 * 2 ^ x.1.lo) 0

/-- LNK_STATUS.state (Table 12.11). -/
def LinkState.code : LinkState → Nat
  | .down => 0 | .training => 1 | .active => 2 | .standby => 3 | .retrain => 4

/-- Bits of a word that the module computes at the read beside the stored fields of the hub's and the AON die's blocks. PWR_VOTE_SET.set, W1S, returns
the software votes that it sets (R7, Table 10.11; log 146). -/
def State.computedHub (s : State) (a : Nat) : Nat :=
  if 0x02010000 ≤ a && a < 0x02010100 && a % 16 = 4 then s.get (R.PWR_VOTE_votes ((a - 0x02010000) / 16)) % 2 ^ 24
  else if a = 0x02010104 then maskOf 16 fun d => s.dom d == .rising || s.dom d == .falling
  else if a = 0x02080008 then s.meshRead / windowTicks % 4096 * 2 ^ 20 + s.meshRead / cycleTicks % 65536
  else if 0x02030400 ≤ a && a < 0x02030440 then (s.pins.gpIn.testBit ((a - 0x02030400) / 4)).toNat * 2 ^ 31
  else if a = 0x02040800 then s.meshRead % 2 ^ 32
  else if a = 0x02040804 then s.meshRead / 2 ^ 32 % 2 ^ 32
  else if 0x02050100 ≤ a && a < 0x02050300 && a % 64 = 12 then s.crcResult ((a - 0x02050100) / 64)
  else if 0x02050100 ≤ a && a < 0x02050300 && a % 64 = 0 then (s.crcBusy ((a - 0x02050100) / 64)).toNat * 2 ^ 31
  else if a = 0x020B0004 then LinkState.code (s.link hostLink).state * 2 ^ 29
  else if a = 0x020C0004 then (s.on R.PNT_CTRL_en && s.get R.HUB_ID_pontoon_index == 0).toNat * 2 ^ 31
  else if a = 0x020D0404 then guardRaw (s.get R.FLC_GUARD_ADDR_bank) (s.get R.FLC_GUARD_ADDR_column) false % 2 ^ 32
  else if a = 0x020D0408 then guardRaw (s.get R.FLC_GUARD_ADDR_bank) (s.get R.FLC_GUARD_ADDR_column) false / 2 ^ 32
  else if a = 0x020D040C then guardRaw (s.get R.FLC_GUARD_ADDR_bank) (s.get R.FLC_GUARD_ADDR_column) true % 256
  else if a = 0x020D0414 then s.pageSpare (s.get R.FLC_PSPARE_ADDR_page) % 2 ^ 32
  else if a = 0x020D0418 then s.pageSpare (s.get R.FLC_PSPARE_ADDR_page) / 2 ^ 32
  else 0

/-- Words that the module computes whole: PWR_STATE, TEMP of a sensor that is down, ELEM_STATUS, AON_DUTY_BUCKET, TMR_STATUS of a tile timer that
counts the AON clock (Table 9.1). w is the word of the stored fields. -/
def State.computedWord (s : State) (p : RegPlace) (w : Nat) : Nat :=
  if p.owner = .hub then
    if p.off = 0x02010100 then (if s.pwr.mode == .doze then 2 ^ 29 else 0) + maskOf 16 fun d => s.domUp d
    else if 0x02010D00 ≤ p.off && p.off < 0x02010D28 && !s.sensorUp ((p.off - 0x02010D00) / 4) then w % 2 ^ 31
    else if p.off = 0x030000A4 then s.fillBucket.aon.bucket / 12500000000
    else w + s.computedHub p.off
  else if p.owner = .elem && p.off = 4 then w / 2 ^ 30 * 2 ^ 30 + s.elemState p.own * 2 ^ 28 + w % 2 ^ 28
  else if p.owner = .timer && p.off = 0x1C && 16 ≤ p.own && s.get (R.TMR_CTRL_clk p.own) = 2 then w / 16 * 16 + 8 + w % 8
  else w

/-- A register word, or a word of a record memory where no register stands (R6). -/
def State.regWord (s : State) (a : Nat) : Nat :=
  let fs := fieldsAt a
  let p := regPlace a
  if fs.isEmpty && !(p.owner = .hub && s.computedHub a != 0) then (if p.owner = .hub then s.word a else 0)
  else s.computedWord p (s.fieldsWord fs)

/-- A read clears its clear-on-read fields (R7). -/
def State.readClears (s : State) (a : Nat) : State :=
  (fieldsAt a).foldl (fun s (x : Row × Field) => if x.1.acc = .rc then s.set x.2 0 else s) s

/-- Other marks that a read of a register leaves: captures are read, TMR_TSI and the raw bell are free again, and a read of CRC_STATE or CRC_RESULT has
waited for the unit's feeds (R260, R280, R286, R317). -/
def State.readMarks (s : State) (a : Nat) : State :=
  let p := regPlace a
  if p.owner = .timer && p.off = 0x18 then s.set (R.TMR_STATUS_cap_full p.own) 0
  else if p.owner = .hub then
    if 0x02040400 ≤ a && a < 0x02040500 && a % 64 = 0x2C then s.set (R.TMR_W_STATUS_cap_full ((a - 0x02040400) / 64)) 0
    else if a = 0x02040814 then s.set R.TMR_TSI_STAT_full 0
    else if 0x02050100 ≤ a && a < 0x02050300 && (a % 64 = 4 || a % 64 = 12) then s.crcDone ((a - 0x02050100) / 64)
    else if a = 0x030000D8 then { s with aon := { s.aon with rawUnread := false } }
    else s
  else s

/-! ### Control blocks of engines (R183, R222, Tables 6.12 to 6.14) -/

/-- The engine and the offset in its control block that an address stands for. -/
def engPlace (a : Nat) : Option (Nat × Nat) :=
  if 0x02100000 ≤ a && a < 0x02120000 then some ((a - 0x02100000) / 0x1000, a % 0x1000)
  else if 0x04000000 ≤ a && a < 0x08000000 && 0x8000 ≤ a % 0x800000 && a % 0x800000 < 0xC000 then
    some (32 + 8 * ((a - 0x04000000) / 0x800000) + (a % 0x800000 - 0x8000) / 0x800, a % 0x800)
  else none

/-- ENG_STATUS.state. -/
def EngState.code : EngState → Nat
  | .halted => 0 | .running => 1 | .waiting => 2 | .stopped => 3

/-- A word of an engine's control block other than ENG_LM_DATA. -/
def Engine.ctlWord (x : Engine) (off : Nat) : Nat :=
  match off with
  | 0x00 => x.run.toNat + 2 * x.rsMode.toNat + 4 * x.taskDev.toNat + 8 * x.taskTimed.toNat
  | 0x04 => x.r.pc * 2 ^ 16 + x.stopCause * 2 ^ 8 + x.r.mode * 2 ^ 4 + x.state.code
  | 0x08 => x.start * 4
  | 0x0C => x.vbase * 2 ^ 10
  | 0x10 => x.r.crcPoly8 * 2 ^ 8 + x.r.crcPoly
  | 0x14 => x.r.gdone
  | 0x18 => x.rsWraps
  | 0x1C => x.timedMax
  | 0x20 => x.r.epc
  | 0x24 => x.r.ecause
  | 0x28 => x.r.eaddr
  | 0x30 => x.mboxDropped * 2 ^ 16 + x.mbox.length
  | 0x40 => x.lmAddr * 4
  | _ => 0

/-- The engine is one of the keel's, H30 or H31: the fields of its control block are KO (R7, R223, Table 6.14). -/
def keelEngine (g : Nat) : Bool := g == 30 || g == 31

/-- Counters of engine g's control block that a read clears; as RW fields, the keel's are only read. -/
def Engine.ctlClears (x : Engine) (g off : Nat) : Engine :=
  match keelEngine g, off with
  | false, 0x18 => { x with rsWraps := 0 }
  | false, 0x30 => { x with mboxDropped := 0 }
  | _, _ => x

/-- The state of a code. -/
def EngState.ofCode (c : Nat) : EngState := match c % 4 with
  | 0 => .halted | 1 => .running | 2 => .waiting | _ => .stopped

/-- A keel write of a word that other engines' blocks only show: the fields take the written values (R7, Table 0.1 KO). A mailbox keeps the messages
that a written depth leaves room for (log 147). -/
def Engine.keelWrite (x : Engine) (off v : Nat) : Engine :=
  match off with
  | 0x04 => { x with r := { x.r with pc := bits v 31 16, mode := bits v 6 4 }, stopCause := bits v 13 8, state := EngState.ofCode v }
  | 0x18 => { x with rsWraps := v % 65536 }
  | 0x20 => { x with r := { x.r with epc := v % 65536 } }
  | 0x24 => { x with r := { x.r with ecause := v % 2 ^ 32 } }
  | 0x28 => { x with r := { x.r with eaddr := v % 2 ^ 32 } }
  | 0x30 => { x with mboxDropped := bits v 31 16, mbox := x.mbox.take (bits v 4 0) }
  | _ => x

/-- The address of the local word that ENG_LM_ADDR names. -/
def State.lmDataAddr (s : State) (g : Nat) : Nat := lmBase g + 4 * (s.eng g).lmAddr

/-- Every access to ENG_LM_DATA advances the address by 4 (R222). -/
def State.lmStep (s : State) (g : Nat) : State := s.updEng g fun x => { x with lmAddr := (x.lmAddr + 1) % 2 ^ 14 }

/-- A write of a word of an engine's control block other than ENG_LM_DATA. ENG_START is refused while the engine runs or waits. -/
def State.ctlWrite (s : State) (g off v : Nat) : State × Status :=
  match off with
  | 0x00 =>
    let s := s.updEng g fun x => { x with rsMode := v.testBit 1, taskDev := v.testBit 2, taskTimed := v.testBit 3 }
    (if v.testBit 0 then s.engRun g else (s.updEng g fun x => { x with run := false }).engBoundary g, .ok)
  | 0x08 =>
    if (s.eng g).state = .running || (s.eng g).state = .waiting then (s, .busy)
    else (s.updEng g fun x => { x with start := bits v 15 2 }, .ok)
  | 0x0C => ((s.updEng g fun x => { x with agentWrites := x.agentWrites ++ [(off, v)] }).engBoundary g, .ok)
  | 0x10 => ((s.updEng g fun x => { x with agentWrites := x.agentWrites ++ [(off, v)] }).engBoundary g, .ok)
  | 0x14 => ((s.updEng g fun x => { x with agentWrites := x.agentWrites ++ [(off, v)] }).engBoundary g, .ok)
  | 0x1C => ((s.updEng g fun x => { x with agentWrites := x.agentWrites ++ [(off, v)] }).engBoundary g, .ok)
  | 0x40 => (s.updEng g fun x => { x with lmAddr := bits v 15 2 }, .ok)
  | off => (if keelEngine g then s.updEng g fun x => x.keelWrite off v else s, .ok)

/-! ### Writes by the access codes (Table 0.1) -/

/-- The lock that guards the RWL fields at an address (R7). -/
def lockOf (a : Nat) : Option Field :=
  if a = 0x02000050 then some R.HUB_WDOG_CTRL_lock
  else if a = 0x02060100 then some R.SEC_POLICY_lock
  else if a = 0x020A0810 || (0x020A0900 ≤ a && a < 0x020A0A00) then some R.EIRP_CTRL_lock
  else if a = 0x030000A0 then some R.AON_WK_CFG_lock
  else none

/-- One field takes its bits of a written word, by its access code. -/
def State.fieldWrite (s : State) (locked : Bool) (v : Nat) (x : Row × Field) : State :=
  let n := v / 2 ^ x.1.lo % 2 ^ x.1.width
  match x.1.acc with
  | .rw => s.set x.2 n
  | .wo => s.set x.2 n
  | .ro => s
  | .rc => s
  | .w1c => s.set x.2 (s.get x.2 - (s.get x.2 &&& n))
  | .w1s => s.set x.2 (s.get x.2 ||| n)
  | .rwl => if locked then s else s.set x.2 n

/-- A write to a register that has no behaviour of its own. -/
def State.plainWrite (s : State) (a v : Nat) : State :=
  let locked := match lockOf a with
    | some f => s.on f
    | none => false
  (fieldsAt a).foldl (fun s' (x : Row × Field) => s'.fieldWrite locked v x) s

end Sys2Proof.Machine
end

