-- ==== Sys2Proof/Machine/RegWrite.lean ====
section
/-! DEFINITION. Machine/RegWrite.lean: what a 32-bit write of a register does, block by block: the actions that registers trigger, the writes that a
block refuses, and the plain writes of Table 0.1 for every other register. -/

namespace Sys2Proof.Machine

open Sys2Proof

/-- A plain write, and its status. -/
def State.plainOk (s : State) (a v : Nat) : State × Status := (s.plainWrite a v, .ok)

/-- A plain write that a condition refuses with BUSY. -/
def State.plainUnless (s : State) (busy : Bool) (a v : Nat) : State × Status := if busy then (s, .busy) else s.plainOk a v

/-- Block HUB but for HUB_RESET_CMD (R28, R32, R333). -/
def State.writeHub (s : State) (a v : Nat) : State × Status :=
  if a = 0x02000020 then (s.funcModeWrite v, .ok)
  else if a = 0x02000030 then s.gcommitWrite v
  else if a = 0x02000050 then
    let s' := s.plainWrite a v
    (if !s.on R.HUB_WDOG_CTRL_en && s'.on R.HUB_WDOG_CTRL_en then s'.wdogKick else s', .ok)
  else if a = 0x02000054 then (s.wdogKick, .ok)
  else s.plainOk a v

/-- PWR_CFG: rf_in_doze set while the hub is up raises the RF rails (R298). -/
def State.pwrCfgWrite (s : State) (a v : Nat) : State :=
  let s := s.plainWrite a v
  if s.hubUp && s.on R.PWR_CFG_rf_in_doze then s.raiseRf else s

/-- Block PWR (R227, R228, R296, R301, R302, R305, R320, R321, R452). deck: the initiator is a deck agent. -/
def State.writePwr (s : State) (deck : Bool) (a v : Nat) : State × Status :=
  if a < 0x02010100 then
    let d := (a - 0x02010000) / 16
    if a % 16 = 4 then (s.voteSet d v, .ok) else if a % 16 = 8 then (s.voteClr d v, .ok) else s.plainOk a v
  else if a = 0x02010110 then ((s.forceWrite deck v).wotForced, .ok)
  else if a = 0x02010114 then (s.gateWrite deck v, .ok)
  else if a = 0x02010120 then (s.pwrCfgWrite a v, .ok)
  else if a = 0x02010A00 then ((s.plainWrite a v).refreshCx.settleCxi, .ok)
  else if a = 0x02010C04 then s.mgmtCmd v
  else if a = 0x02010F00 then ((s.keelVoteWrite v).wotForced, .ok)
  else s.plainOk a v

/-- Block IRQ (R290, R291). -/
def State.writeIrq (s : State) (a v : Nat) : State × Status :=
  if 0x02020800 ≤ a && a < 0x02020840 then (s.irqPendClear ((a - 0x02020800) / 4) v, .ok)
  else if a = 0x02020880 then (s.irqSet (v % 512), .ok)
  else if a = 0x02020884 then (s.irqEoi (v % 512), .ok)
  else s.plainOk a v

/-- A stitch cell's registers: IN and CFG are refused while it is enabled (R272). -/
def State.writeCell (s : State) (p : RegPlace) (a v : Nat) : State × Status :=
  if p.off = 8 then (s.cellCtrlWrite p.own v, .ok)
  else s.plainUnless (s.on (R.YRN_CELL_CTRL_en p.own) && p.off < 8) a v

/-- Block YRN (R269, R272, R273). -/
def State.writeYrn (s : State) (a v : Nat) : State × Status :=
  if 0x02030010 ≤ a && a < 0x02030020 then (s.yrnFire 0 ((a - 0x02030010) / 4) v, .ok)
  else if (regPlace a).owner = .cell then s.writeCell (regPlace a) a v
  else if 0x02030400 ≤ a && a < 0x02030440 then ((s.plainWrite a v).gpWritten ((a - 0x02030400) / 4), .ok)
  else s.plainOk a v

/-- The timer with a number: 0 to 15 on the hub, 16 + 4 t + n on tile t. -/
def timerRef (own : Nat) : TimerRef :=
  if own < 16 then .hub ⟨own % 16, Nat.mod_lt _ (by decide)⟩
  else .tile ⟨(own - 16) / 4 % 8, Nat.mod_lt _ (by decide)⟩ ⟨(own - 16) % 4, Nat.mod_lt _ (by decide)⟩

/-- A timer's registers: TMR_SEL is refused while it counts (R277). -/
def State.writeTimer (s : State) (p : RegPlace) (a v : Nat) : State × Status :=
  if p.off = 0 then s.tmrCtrlWrite (timerRef p.own) v else s.plainUnless (s.on (R.TMR_CTRL_en p.own) && p.off = 4) a v

/-- A wide timer's registers: TMR_W_SEL is refused while it counts (R277, R283). -/
def State.writeWide (s : State) (m a v : Nat) : State × Status :=
  if a % 64 = 0 then s.tmrCtrlWrite (.wide ⟨m % 4, Nat.mod_lt _ (by decide)⟩) v
  else s.plainUnless (s.on (R.TMR_W_CTRL_en m) && a % 64 = 4) a v

/-- Block TMR (R277, R283, R287). -/
def State.writeTmr (s : State) (a v : Nat) : State × Status :=
  if a < 0x02040200 then s.writeTimer (regPlace a) a v
  else if 0x02040400 ≤ a && a < 0x02040500 then s.writeWide ((a - 0x02040400) / 64) a v
  else if a = 0x02040820 then
    let was := s.on R.TMR_TSO_CTRL_en
    let s := s.plainWrite a v
    (if !was && s.on R.TMR_TSO_CTRL_en then s.tsOutArm else s, .ok)
  else s.plainOk a v

/-- Block CRC: the unit's registers are reached in arrival order, so a non-posted write ends after the feeds before it, and a write of CRC_STATE or
CRC_CFG acts after them (R259, R260). -/
def State.writeCrc (s : State) (posted : Bool) (a v : Nat) : State × Status :=
  let u := (a - 0x02050100) / 64
  if a < 0x02050100 || 0x02050300 ≤ a then s.plainOk a v
  else
  let s := if posted then s else s.crcDone u
  if a % 64 = 0 then (s.crcCfgWrite u v, .ok)
  else if a % 64 = 0x10 then (s.crcFeedUnit u 1 v, .ok)
  else if a % 64 = 0x14 then (s.crcFeedUnit u 2 v, .ok)
  else if a % 64 = 0x18 then (s.crcFeedUnit u 4 v, .ok)
  else s.plainOk a v

/-- Block SEC (R239, R244, R248). -/
def State.writeSec (s : State) (a v : Nat) : State × Status :=
  if a = 0x02060100 then ((s.plainWrite a v).refreshHold, .ok)
  else if a = 0x02060230 then s.keyCommand v
  else if a = 0x02062000 then (if v.testBit 0 && s.get R.SEC_STATUS_rng = 4 then s.rngRestart else s, .ok)
  else s.plainOk a v

/-- Block PHY (R140, R143). -/
def State.writePhy (s : State) (a v : Nat) : State × Status :=
  if a = 0x02070010 || a = 0x02070014 then ((s.plainWrite a v).phyCfgWritten, .ok)
  else if a = 0x02070020 then (s.softBeams v, .ok)
  else s.plainOk a v

/-- Block XNG (R145, R147, R158). -/
def State.writeXng (s : State) (posted : Bool) (a v : Nat) : State × Status :=
  if a = 0x02080000 then
    let en := v.testBit 0
    let s := (s.set R.XNG_CTRL_vote_lead (bits v 25 16)).set R.XNG_CTRL_auto_preload (bits v 1 1)
    (if en == s.on R.XNG_CTRL_enable then s else s.xngEnable en, .ok)
  else if a = 0x02080004 then s.xngCommitWrite v
  else if a = 0x02080024 then
    let s := if v.testBit 31 then s.set R.XNG_PUSH_PTR_refused 0 else s
    s.pushPtr (bits v 23 16) posted
  else s.plainOk a v

/-- Block MAC (R180, R182). MAC_TIME_SLEW is written in host-assisted time mode alone. -/
def State.writeMac (s : State) (a v : Nat) : State × Status :=
  if a = 0x02090000 then s.nbrCommitWrite v
  else if a = 0x02090004 || a = 0x02090008 then s.plainUnless (s.on R.MAC_NBR_COMMIT_pending) a v
  else if a = 0x02090024 then (if s.xng.hostTime then s.set R.MAC_TIME_SLEW_ppb v else s, .ok)
  else s.plainOk a v

/-- BF_CAP_CTRL: refused while a capture is armed; arm starts one (R104, R106). -/
def State.capCtrlWrite (s : State) (a v : Nat) : State × Status :=
  if s.on R.BF_CAP_CTRL_arm then (s, .busy)
  else
    let s := (s.plainWrite a v).set R.BF_CAP_CTRL_arm 0
    (if v.testBit 9 then s.captureArm else s, .ok)

/-- Block BF: commits, preloads, swaps, captures, tension, channels and the swatch directory (R60, R82 to R90, R104, R107). -/
def State.writeBf (s : State) (a v : Nat) : State × Status :=
  if a = 0x020A0000 then s.bfCommitWrite v
  else if a = 0x020A0010 then (if v.testBit 31 then s.preload (bits v 19 16) (bits v 10 0) (bits v 24 24) else (s, .ok))
  else if a = 0x020A001C then (s.swapRequest (v % 65536), .ok)
  else if a = 0x020A0200 then s.capCtrlWrite a v
  else if a = 0x020A0400 then
    let s := s.plainWrite a v
    (forBits 8 v (fun t s => s.tensionAsk t) s, .ok)
  else if a = 0x020A0800 then s.writeRfChan v
  else if 0x020A8000 ≤ a && a < 0x020B0000 then (((s.plainWrite a v).clrPoison a).dirTouched ((a - 0x020A8000) / 16), .ok)
  else s.plainOk a v

/-- The registers of landing n: base and size are refused while it is in use; TAIL is the host's but for ring 73, HEAD there alone (R362,
R363). -/
def State.writeLanding (s : State) (n a v : Nat) : State × Status :=
  let en := s.on (R.LNK_LND_CFG_en n)
  match a % 0x20 with
  | 0x08 =>
    if en && bits v 3 0 != s.get (R.LNK_LND_CFG_size n) then (s, .busy)
    else
      let s := s.plainWrite a v
      (if n = 73 && !en && v.testBit 31 then { s with lnk := { s.lnk with phase := true } } else s, .ok)
  | 0x0C => if n = 73 then (s, .ok) else s.plainOk a v
  | 0x10 => if n = 73 then s.plainOk a v else (s, .ok)
  | 0x00 => s.plainUnless en a v
  | 0x04 => s.plainUnless en a v
  | _ => s.plainOk a v

/-- Block LNK (R347, R362, R366). -/
def State.writeLnk (s : State) (a v : Nat) : State × Status :=
  if a = 0x020B0000 then ((s.plainWrite a v).refreshSerdes, .ok)
  else if 0x020B1000 ≤ a && a < 0x020B1000 + 74 * 0x20 then s.writeLanding ((a - 0x020B1000) / 0x20) a v
  else s.plainOk a v

/-- A link that the pontoon no longer wants is DOWN, and its peer ABSENT (R367). -/
def State.dropPeer (s : State) (p : Nat) : State :=
  if (s.link p).state = .down && s.peerState p = 0 then s
  else ((s.updLink p fun l => { Link.initial with epoch := l.epoch }).setPeer p 0).refreshSerdes

/-- PNT_CTRL: links to marked peers train, others go down; with en 0 the module runs alone, without solo and yields (R367). -/
def State.pntCtrlWrite (s : State) (a v : Nat) : State :=
  let s := s.plainWrite a v
  let s := forAll 4 (fun p s => if s.peerWanted p then (if (s.link p).state = .down then s.setPeer p 1 else s) else s.dropPeer p) s
  if s.on R.PNT_CTRL_en then forAll 4 (fun p s => if s.peerWanted p then s.linkTrain p else s) s
  else ((s.set R.PNT_STATUS_solo 0).set (R.PNT_YIELD_nbrs 0) 0).set (R.PNT_YIELD_nbrs 1) 0

/-- Block PNT. -/
def State.writePnt (s : State) (a v : Nat) : State × Status :=
  if a = 0x020C0000 then (s.pntCtrlWrite a v, .ok) else s.plainOk a v

/-- Block FLC (R399). -/
def State.writeFlc (s : State) (a v : Nat) : State × Status :=
  if 0x020D0300 ≤ a && a < 0x020D0340 then s.spareWrite ((a - 0x020D0300) / 4) v else s.plainOk a v

/-- Block ERR (R416). -/
def State.writeErr (s : State) (a v : Nat) : State × Status :=
  if 0x020E0400 ≤ a && a < 0x020E0400 + 4 * 166 then (s.unitWrite ((a - 0x020E0400) / 4) v, .ok) else s.plainOk a v

/-- Block PMC (R430, R431). -/
def State.writePmc (s : State) (a v : Nat) : State × Status :=
  if a = 0x020F0000 then (s.pmcCtrlWrite v, .ok)
  else if 0x020F0100 ≤ a && a < 0x020F0200 && a % 8 = 4 then (s.pmcCntWrite ((a - 0x020F0100) / 8) v, .ok)
  else s.plainOk a v

/-- AON registers (R250, R251, R312, R318, R319, R386, R428). A new hold-up threshold is judged at the next comparison. -/
def State.writeAon (s : State) (a v : Nat) : State × Status :=
  if a = 0x03000080 || a = 0x03000088 || a = 0x0300008C then ((s.plainWrite a v).wkRefresh, .ok)
  else if a = 0x030000A0 then (if s.on R.AON_WK_CFG_lock then s else s.dutyWrite v, .ok)
  else if a = 0x030000B0 then s.bellRequest v
  else if a = 0x03000140 then
    let s := s.plainWrite a v
    ({ s with pins := { s.pins with holdupBelow := none } }, .ok)
  else if a = 0x03000180 then (s.blackBoxWrite v, .ok)
  else if 0x03008010 ≤ a && a < 0x03008020 then (s.bellKeyWrite ((a - 0x03008010) / 4) v, .ok)
  else if a = 0x03008044 then s.otpStart v
  else s.plainOk a v

/-- Element registers: mask and gains are refused while the element is armed; auto_mask_dc masks at once where dc_rail stands; a VGA code above 24 is
taken as 24; a written trim or fine value waits for its boundary (R37, R39, R40, R42, R53, R68). -/
def State.writeElem (s : State) (e off a v : Nat) : State × Status :=
  if (off = 0 || off = 0x0C) && s.on (R.ELEM_STATUS_armed e) then (s, .busy)
  else if off = 0 then ((s.plainWrite a v).maskIfCaused e, .ok)
  else if off = 0x0C then
    let s := s.plainWrite a v
    (s.set (R.ELEM_RX_GAIN_SH_vga e) (min 24 (s.get (R.ELEM_RX_GAIN_SH_vga e))), .ok)
  else if off = 0x10 || off = 0x14 then ((s.plainWrite a v).calWritten e, .ok)
  else if 0x40 ≤ off && off < 0x50 then ((s.plainWrite a v).fineWritten e ((off - 0x40) / 4), .ok)
  else s.plainOk a v

/-- Registers of a tile window (R83, R269). -/
def State.writeTileReg (s : State) (a v : Nat) : State × Status :=
  let p := regPlace a
  match p.owner with
  | .elem => s.writeElem p.own p.off a v
  | .cell => s.writeCell p a v
  | .timer => s.writeTimer p a v
  | _ =>
    if p.off = 0 then s.tileCommitWrite p.own v
    else if p.off = 0x804 then (s.yrnFire (p.own + 1) 0 v, .ok)
    else s.plainOk a v

/-- A 32-bit write of a register outside HUB_RESET_CMD and the control blocks of engines, by its block of Table 1.6. -/
def State.regWrite (s : State) (deck posted : Bool) (a v : Nat) : State × Status :=
  match a / 0x10000 with
  | 0x200 => s.writeHub a v
  | 0x201 => s.writePwr deck a v
  | 0x202 => s.writeIrq a v
  | 0x203 => s.writeYrn a v
  | 0x204 => s.writeTmr a v
  | 0x205 => s.writeCrc posted a v
  | 0x206 => s.writeSec a v
  | 0x207 => s.writePhy a v
  | 0x208 => s.writeXng posted a v
  | 0x209 => s.writeMac a v
  | 0x20A => s.writeBf a v
  | 0x20B => s.writeLnk a v
  | 0x20C => s.writePnt a v
  | 0x20D => s.writeFlc a v
  | 0x20E => s.writeErr a v
  | 0x20F => s.writePmc a v
  | 0x300 => s.writeAon a v
  | _ => if 0x04000000 ≤ a && a < 0x08000000 then s.writeTileReg a v else (s, .ok)

end Sys2Proof.Machine
end

