-- ==== Sys2Proof/Machine/Device.lean ====
section
/-! DEFINITION. Machine/Device.lean: the device address map and one access to it, from whatever initiator: regions, refusals, unpowered windows,
wake-on-touch, mirror windows, memories with their poison, and registers (R5, R25 to R27, R181, R184, R223 to R226, R304, R305, R350, R415, R421,
R427). -/

namespace Sys2Proof.Machine

open Sys2Proof

/-! ### The map (Tables 1.6, 1.7) -/

/-- What stands at an address. -/
inductive Kind where
  | none | flash | sram | reg | aonSram | tileMem
  | mirror (p : Nat)
  deriving DecidableEq, Repr

/-- Kind and end of the region of a tile window that holds offset o (Table 1.7). -/
def tileRegion (o : Nat) : Kind × Nat :=
  if o < 0x10000 then (.reg, 0x10000)
  else if o < 0x14000 then (.reg, 0x14000)
  else if 0x100000 ≤ o && o < 0x180000 then (.tileMem, 0x180000)
  else if 0x200000 ≤ o && o < 0x280000 then (.tileMem, 0x280000)
  else if 0x300000 ≤ o && o < 0x340000 then (.tileMem, 0x340000)
  else (.none, 0)

/-- Kind and end of the region that holds an address (Tables 1.6, 1.7). -/
def regionOf (a : Nat) : Kind × Nat :=
  if a < 0x01000000 then (.flash, 0x01000000)
  else if a < 0x01C00000 then (.sram, 0x01C00000)
  else if a < 0x02000000 then (.none, 0)
  else if a < 0x02120000 then (.reg, 0x02120000)
  else if a < 0x03000000 then (.none, 0)
  else if a < 0x03010000 then (.reg, 0x03010000)
  else if a < 0x03014000 then (.aonSram, 0x03014000)
  else if a < 0x04000000 then (.none, 0)
  else if a < 0x08000000 then
    let r := tileRegion ((a - 0x04000000) % 0x800000)
    (r.1, a / 0x800000 * 0x800000 + r.2)
  else if a < 0x0C000000 then (.mirror ((a - 0x08000000) / 0x01000000), a / 0x01000000 * 0x01000000 + 0x01000000)
  else (.none, 0)

/-- The power domain of a window that can be addressed while it is down: a tile's or the flash's (R304). -/
def windowDomain (a : Nat) : Option Nat :=
  if a < 0x01000000 then some 13
  else if 0x04000000 ≤ a && a < 0x08000000 then some ((a - 0x04000000) / 0x800000 + 1)
  else none

/-- A range meets another. -/
def meets (a len lo hi : Nat) : Bool := a < hi && lo < a + len

/-- The access touches a keel-owned resource (Table 7.1); flash writes are judged by their sequences, and an end of interrupt by the source it
names. -/
def keelOwned (isWrite : Bool) (a len v : Nat) : Bool :=
  meets a len 0x02060100 0x02062100 || meets a len 0x03008000 0x03009400 || (!isWrite && meets a len 0 0x10000)
    || meets a len 0x0211E000 0x02120000 || meets a len 0x02010F00 0x02010F04 || meets a len 0x02020180 0x020201C0
    || (isWrite && meets a len 0x02020884 0x02020888 && 96 ≤ v % 512 && v % 512 < 112)

/-- The unit that holds an address, registers included (Table 14.3). -/
def unitAt (a : Nat) : Nat :=
  if 0x02060000 ≤ a && a < 0x02070000 then 0xA3 else if 0x03000000 ≤ a && a < 0x03014000 then 0xA2 else unitOf a

/-! ### Refusals (R26, R225, R350, R415) -/

/-- Detail bits of DENIED and DECODE (Table 14.2). -/
def accessDetail (isWrite posted : Bool) : Nat := if posted then 2 else isWrite.toNat

/-- A deck access to a keel-owned resource is refused: counted, its address kept, logged as DENIED, source 100 (R225). -/
def State.keelDeny (s : State) (ini : Initiator) (isWrite posted : Bool) (a : Nat) : State :=
  let s := (s.bump R.SEC_DENY_COUNT_count).set R.SEC_DENY_LAST_addr a
  (s.logErr { cls := 5, unit := unitAt a, addr := a, detail := accessDetail isWrite posted, ini := Initiator.code ini,
              eng := Initiator.engNo ini, key := Initiator.code ini * 128 + Initiator.engNo ini }).fire 100

/-- An access without a region, or one that breaks R5, is logged as DECODE. -/
def State.decodeErr (s : State) (ini : Initiator) (isWrite posted breach : Bool) (a : Nat) : State :=
  s.logErr { cls := 6, unit := 0xA4, addr := a, detail := accessDetail isWrite posted + (if breach then 16 else 0), ini := Initiator.code ini,
             eng := Initiator.engNo ini, key := Initiator.code ini * 128 + Initiator.engNo ini }

/-! ### Memories (R181, R198, R421, R424, R427) -/

/-- Bytes of a packet whose data are undefined (Table 14.6). -/
def State.undefinedBytes (s : State) (len : Nat) : List Byte := (List.range len).map fun i => Config.poisonedByte (s.freeCtr + i)

/-- A consumer reads a byte range: words already poisoned are hits, the others meet what the decoder sees. The answer says whether some word
is, or has become, poisoned. -/
def State.memSeen (s : State) (a len : Nat) (ecc : List (Nat × EccSeen)) (ini : Initiator) : State × Bool :=
  let bad := s.poisonedIn a len
  let s := s.hitPoison a len
  let seen := ecc.filter fun (x : Nat × EccSeen) => x.1 < a + len && a < x.1 + eccSize x.1 && !s.poisoned x.1
  seen.foldl (fun (r : State × Bool) (x : Nat × EccSeen) =>
    match x.2 with
    | .clean => r
    | .corrected line syn _ => (r.1.corrected (eccBase x.1) line syn (Initiator.code ini) (Initiator.engNo ini), r.2)
    | .uncorrectable syn => (r.1.uncorrectable (eccBase x.1) syn false (Initiator.code ini) (Initiator.engNo ini), true)) (s, bad)

/-- The byte lies in a register that shares an address with memory: a neighbour entry or shadow in hub SRAM, or the boot counter and the black-box
header in AON SRAM. -/
def overlaid (a : Nat) : Bool := (0x1000000 ≤ a && a < 0x1005000) || (0x03010000 ≤ a && a < 0x0301000C)

/-- A byte of memory as a device access reads it. -/
def State.devByte (s : State) (a : Nat) : Byte :=
  if overlaid a then BitVec.ofNat 8 (s.regWord (a / 4 * 4) / 256 ^ (a % 4)) else s.byte a

/-- A memory read: data, or POISONED with undefined bytes. -/
def State.memRead (s : State) (a len : Nat) (ecc : List (Nat × EccSeen)) (ini : Initiator) : State × Status × List Byte :=
  let r := s.memSeen a len ecc ini
  if r.2 then ({ r.1 with freeCtr := r.1.freeCtr + len }, .poisoned, r.1.undefinedBytes len)
  else (r.1, .ok, (List.range len).map fun i => s.devByte (a + i))

/-- The MAC owns the byte: the live part of a neighbour entry, all but its swatch references (R181). -/
def macOwned (a : Nat) : Bool := 0x1000000 ≤ a && a < 0x1004000 && !(0xD0 ≤ a % 256 && a % 256 < 0xE0)

/-- Store one byte of memory, or of a register that shares its address. -/
def State.putByte (s : State) (a : Nat) (b : Byte) : State :=
  if overlaid a then
    let w := s.regWord (a / 4 * 4)
    let old := w / 256 ^ (a % 4) % 256
    s.plainWrite (a / 4 * 4) (w - old * 256 ^ (a % 4) + b.toNat * 256 ^ (a % 4))
  else s.setByte a b

/-- Fragments in a range of weight memory lose their seal and join the open set (R82). -/
def State.touchFragments (s : State) (a len : Nat) : State :=
  match fragmentAt a, fragmentAt (a + len - 1) with
  | some (t, lo), some (_, hi) => (List.range (hi + 1 - lo)).foldl (fun s i => s.fragTouched t (lo + i)) s
  | _, _ => s

/-- A memory write: words covered whole lose their poison; a narrower part of a poisoned word is not written and ends POISONED (R421). -/
def State.memWrite (s : State) (a : Nat) (data : List Byte) : State × Status :=
  let len := data.length
  let stuck := s.poison.filter fun p => p < a + len && a < p + eccSize p && !covers a len p
  let s := { s with poison := s.poison.filter fun p => !covers a len p }
  let s := (data.zipIdx).foldl (fun s (x : Byte × Nat) => if stuck.contains (eccBase (a + x.2)) then s else s.putByte (a + x.2) x.1) s
  let s := s.touchFragments a len
  (s, if stuck.isEmpty then .ok else .poisoned)

/-! ### One word of a register block -/

/-- A read of a register word (R6, R7, R222, R246). -/
def State.regRead (s : State) (a : Nat) (ecc : List (Nat × EccSeen)) (ini : Initiator) : State × Status × List Byte :=
  if a = 0x02062008 then
    let r := s.rngRead
    (r.1, r.2.1, if r.2.1 = .ok then toBytes 4 r.2.2 else [])
  else
    match engPlace a with
    | some (g, off) =>
      if off = 0x44 then
        let r := s.memRead (s.lmDataAddr g) 4 ecc ini
        (r.1.lmStep g, r.2)
      else (s.updEng g fun x => x.ctlClears g off, .ok, toBytes 4 ((s.eng g).ctlWord off))
    | none =>
      if 0x020A8000 ≤ a && a < 0x020B0000 then
        let r := s.memSeen a 4 ecc ini
        if r.2 then ({ r.1 with freeCtr := r.1.freeCtr + 4 }, .poisoned, r.1.undefinedBytes 4) else (r.1, .ok, toBytes 4 (s.regWord a))
      else ((s.readClears a).readMarks a, .ok, toBytes 4 (s.regWord a))

/-- A write of a register word. The last answer says that a deck refusal is due (R225, R338). -/
def State.regPut (s : State) (deck posted : Bool) (a v : Nat) : State × Status × Bool :=
  if a = 0x02000010 then s.resetCmd deck v
  else
    match engPlace a with
    | some (g, off) =>
      if off = 0x44 then
        let r := s.memWrite (s.lmDataAddr g) (toBytes 4 v)
        (r.1.lmStep g, r.2, false)
      else
        let r := s.ctlWrite g off v
        (r.1, r.2, false)
    | none =>
      let r := s.regWrite deck posted a v
      (r.1, r.2, false)

/-! ### Carrying an access out -/

/-- A refusal by R225 where one is due. -/
def State.refuseIf (s : State) (due : Bool) (ini : Initiator) (posted : Bool) (a : Nat) : State :=
  if due then s.keelDeny ini true posted a else s

/-- The status of an access of no bytes (R350). -/
def State.zeroStatus (s : State) (k : Kind) (ini : Initiator) (isWrite : Bool) (a : Nat) : Status :=
  if k = .flash then
    if !isWrite || (s.fbank (bankOf a)).owner = some ini then .ok
    else if (s.fbank (bankOf a)).owner.isSome then .busy
    else if 0xFF8000 ≤ a then .ok else .denied
  else if isWrite && (macOwned a || (0x03010000 ≤ a && a < 0x03012100)) then .denied
  else if s.poisoned a then .poisoned
  else .ok

/-- A write to a memory or to the flash window. -/
def State.putMem (s : State) (k : Kind) (ini : Initiator) (posted : Bool) (a : Nat) (data : List Byte) : State × Status :=
  if k = .flash then
    let r := s.flashWrite ini a data
    match r.2 with
    | some st => (r.1, st)
    | none => (r.1.keelDeny ini true posted a, .denied)
  else if (List.range data.length).any fun i => macOwned (a + i) then (s.decodeErr ini true posted false a, .denied)
  else if meets a data.length 0x03010000 0x03012100 then (s, .denied)
  else s.memWrite a data

/-- An access whose region is powered and open to its initiator. -/
def State.perform (s : State) (k : Kind) (ini : Initiator) (deck isWrite posted : Bool) (a : Nat) (data : List Byte) (len : Nat)
    (ecc : List (Nat × EccSeen)) : State × Status × List Byte :=
  if len = 0 then (s, s.zeroStatus k ini isWrite a, [])
  else if k = .reg then
    if isWrite then
      let r := s.regPut deck posted a (ofBytes data)
      (r.1.refuseIf r.2.2 ini posted a, r.2.1, [])
    else s.regRead a ecc ini
  else if isWrite then
    let r := s.putMem k ini posted a data
    (r.1, r.2, [])
  else if k = .flash then
    let r := s.flashRead a len ecc (Initiator.code ini) (Initiator.engNo ini)
    if r.2.1 = .ok then r else ({ r.1 with freeCtr := r.1.freeCtr + len }, r.2.1, r.1.undefinedBytes len)
  else s.memRead a len ecc ini

/-! ### Mirror windows (R27, R359) -/

/-- The link to peer p carries requests, now or once it has woken or retrained: the peer has joined. -/
def State.peerTrained (s : State) (p : Nat) : Bool :=
  s.peerState p = 2 && match (s.link p).state with
    | .active => true
    | .standby => true
    | .retrain => true
    | _ => false

/-- An access goes on to peer p, at the address there. -/
def State.forward (s : State) (src : AccSrc) (p : Nat) (isWrite : Bool) (a : Nat) (data : List Byte) (len : Nat) : State × Option (Status × List Byte) :=
  if !s.peerTrained p then (s, some (.linkReset, []))
  else if src.isPosted then (s.linkSend p (.posted a data src), none)
  else
    match (s.link p).freeTag with
    | none => (s, some (.busy, []))
    | some t => ((s.updLink p fun l => { l with ownReqs := l.ownReqs ++ [(t, src)] }).linkSend p (.request isWrite t a len data), none)

/-! ### One access -/

/-- An access to a window of domain d that does not run waits for it (R305), or, a posted write, behind one of the same initiator that waits
(R18). -/
def State.waits (s : State) (src : AccSrc) (ini : Initiator) (d : Nat) : Bool :=
  let moving := s.dom d == .down || s.dom d == .rising || s.dom d == .falling
  moving && !s.forcedOff d
    && ((s.bit R.PWR_WOT_wot (d - 1) && (d ≤ 8 || d == 13))
      || (src.isPosted && s.lnk.wot.any fun (w : WotAccess) => w.dom == d && w.ini == ini && w.src.isPosted))

/-- The access waits under wake-on-touch: vote 27 rises on the domain. -/
def State.waitFor (s : State) (w : WotAccess) : State :=
  ({ s with lnk := { s.lnk with wot := s.lnk.wot ++ [w] } }).vote w.dom 27

/-- An access to one of the module's own addresses: refusals first, then the power of its window. No answer means that it waits. -/
def State.accessOwn (s : State) (src : AccSrc) (ini : Initiator) (deck isWrite : Bool) (a : Nat) (data : List Byte) (len : Nat)
    (ecc : List (Nat × EccSeen)) : State × Option (Status × List Byte) :=
  let posted := src.isPosted
  let n := max len 1
  let r := regionOf a
  if r.1 = .none || (r.1 != .reg && (r.2 < a + n || 4096 < n)) then (s.decodeErr ini isWrite posted false a, some (.denied, []))
  else if deck && keelOwned isWrite a n (ofBytes data) then (s.keelDeny ini isWrite posted a, some (.denied, []))
  else if r.1 = .reg && (len != 4 || a % 4 != 0) then (s.decodeErr ini isWrite posted true a, some (.decode, []))
  else
    match windowDomain a with
    | some d =>
      if s.domRuns d then
        let o := s.perform r.1 ini deck isWrite posted a data len ecc
        (o.1, some o.2)
      else if s.waits src ini d then
        (s.waitFor { src := src, ini := ini, dom := d, lane := false, isWrite := isWrite, addr := a, data := data, len := len }, none)
      else (s.unpowered ini d isWrite a, some (.dozing, if isWrite then [] else dozingBytes a len))
    | none =>
      let o := s.perform r.1 ini deck isWrite posted a data len ecc
      (o.1, some o.2)

/-- An access to a mirror window: the own index selects the own blocks, as a deck access; any other goes to its module, and a peer's access is not
sent on again (R27, R351). -/
def State.accessMirror (s : State) (src : AccSrc) (ini : Initiator) (p : Nat) (isWrite : Bool) (a : Nat) (data : List Byte) (len : Nat)
    (ecc : List (Nat × EccSeen)) : State × Option (Status × List Byte) :=
  let x := 0x02000000 + a % 0x01000000
  if s.get R.HUB_ID_pontoon_index = p then s.accessOwn src ini true isWrite x data len ecc
  else if 4 < len || (regionOf a).2 < a + max len 1 then (s.decodeErr ini isWrite src.isPosted false a, some (.denied, []))
  else
    match ini with
    | .peer _ => (s.decodeErr ini isWrite src.isPosted false a, some (.denied, []))
    | _ => s.forward src p isWrite x data len

/-- One access to the device address map. No answer means that it waits, or has gone to a peer. One that has to cross a failed control lane waits for
the lane (R15, R419; log 125). -/
def State.access (s : State) (src : AccSrc) (ini : Initiator) (isWrite : Bool) (a : Nat) (data : List Byte) (len : Nat)
    (ecc : List (Nat × EccSeen)) : State × Option (Status × List Byte) :=
  if s.ctlBlocked ini a false then
    let w : WotAccess := { src := src, ini := ini, dom := 16, lane := true, isWrite := isWrite, addr := a, data := data, len := len }
    ({ s with lnk := { s.lnk with wot := s.lnk.wot ++ [w] } }, none)
  else match (regionOf a).1 with
    | .mirror p => s.accessMirror src ini p isWrite a data len ecc
    | _ => s.accessOwn src ini (!isKeel ini) isWrite a data len ecc

/-- An access and its outcome, where it ends at once; an answer that has to cross a failed control lane waits too. -/
def State.device (s : State) (src : AccSrc) (ini : Initiator) (isWrite : Bool) (a : Nat) (data : List Byte) (len : Nat)
    (ecc : List (Nat × EccSeen)) : State :=
  let held := s.ctlBlocked ini a true
  match s.access src ini isWrite a data len ecc with
  | (s, some (st, out)) =>
    if held && !(src.isPosted && st == .ok) then
      { s with lnk := { s.lnk with ctlBack := s.lnk.ctlBack ++ [{ src := src, ini := ini, addr := a, status := st, data := out }] } }
    else s.finish src st a out
  | (s, none) => s

/-- After a control lane is back, or its tile has gone: answers, accesses and source messages that waited go on, in their order (R15, R419). -/
def State.ctlServe (s : State) : State :=
  let backs := s.lnk.ctlBack.filter fun (b : CtlAnswer) => !s.ctlBlocked b.ini b.addr true
  let ws := s.lnk.wot.filter fun (w : WotAccess) => w.lane && !s.ctlBlocked w.ini w.addr false
  let s := { s with lnk := { s.lnk with
    ctlBack := s.lnk.ctlBack.filter fun (b : CtlAnswer) => s.ctlBlocked b.ini b.addr true
    wot := s.lnk.wot.filter fun (w : WotAccess) => !(w.lane && !s.ctlBlocked w.ini w.addr false) } }
  let s := backs.foldl (fun s (b : CtlAnswer) => s.finish b.src b.status b.addr b.data) s
  let s := ws.foldl (fun s (w : WotAccess) => s.device w.src w.ini w.isWrite w.addr w.data w.len []) s
  (forAll 8 (fun t s => s.fireHeld t) s).settleFences

/-- The accesses that waited for domain d are carried out in their order, and the wake-on-touch vote goes (R305). -/
def State.wotServe (s : State) (d : Nat) : State :=
  let ws := s.lnk.wot.filter fun (w : WotAccess) => w.dom == d
  if ws.isEmpty then s
  else
    let s := { s with lnk := { s.lnk with wot := s.lnk.wot.filter fun (w : WotAccess) => w.dom != d } }
    let s := ws.foldl (fun s (w : WotAccess) =>
      if s.domRuns d then
        let o := s.perform (regionOf w.addr).1 w.ini (!isKeel w.ini) w.isWrite w.src.isPosted w.addr w.data w.len []
        o.1.finish w.src o.2.1 w.addr o.2.2
      else s.wotFail w) s
    (s.unvote d 27).settleFences

/-! ### Accesses as commands -/

/-- Whether the module's hub can be reached at all: its register blocks, SRAM and link answer while the hub core is up. -/
def State.reachable (s : State) : Bool := s.hubUp

/-- A non-posted 32-bit write by an initiator; the answer stands in resp. -/
def State.regWriteBy (s : State) (ini : Initiator) (a v : Nat) : State :=
  if s.reachable then s.device .direct ini true a (toBytes 4 v) 4 [] else s

/-- A non-posted 32-bit read by an initiator. -/
def State.regReadBy (s : State) (ini : Initiator) (a : Nat) : State :=
  if s.reachable then s.device .direct ini false a [] 4 [] else s

end Sys2Proof.Machine
end

