-- ==== Sys2Proof/Machine/DevCmds.lean ====
section
/-! DEFINITION. Machine/DevCmds.lean: the commands that are one access to a named register, to weight memory or to the flash window, each carried out
as the access that it is (chapters 1 to 15; R223 to R226, R304, R305, R359). -/

namespace Sys2Proof.Machine

open Sys2Proof

/-! ### One access by an initiator -/

/-- The next posted write of link l: it takes its sequence (R359). -/
def State.takePosted (s : State) (l : Nat) (ini : Initiator) (a : Nat) (data : List Byte) : State :=
  let q := (s.link l).postRx
  (s.updLink l fun x => { x with postRx := (x.postRx + 1) % 65536 }).device (.posted l q) ini true a data data.length []

/-- A posted write: the host's and a peer's take their link's next sequence, an engine's failure is its POSTED_FAULT; the boot ROM posts nothing. -/
def State.postBy (s : State) (ini : Initiator) (a : Nat) (data : List Byte) : State :=
  match ini with
  | .host => s.takePosted hostLink ini a data
  | .peer p => s.takePosted p.val ini a data
  | .engine g => s.device (.store g.val) ini true a data data.length []
  | .bootRom => s.device .direct ini true a data data.length []

/-- A write of any length by an initiator, posted or not. -/
def State.writeBy (s : State) (ini : Initiator) (posted : Bool) (a : Nat) (data : List Byte) : State :=
  if !s.reachable then s
  else if posted then s.postBy ini a data
  else s.device .direct ini true a data data.length []

/-- A non-posted read of any length by an initiator. -/
def State.readBy (s : State) (ini : Initiator) (a len : Nat) (ecc : List (Nat × EccSeen)) : State :=
  if s.reachable then s.device .direct ini false a [] len ecc else s

/-! ### Addresses (Tables 1.6, 1.7, 6.1, 9.5) -/

/-- The control register of a timer. -/
def timerAddr : TimerRef → Nat
  | .hub n => 0x02040000 + 0x20 * n.val
  | .tile t n => tileBase t.val + 0xC00 + 0x20 * n.val
  | .wide m => 0x02040400 + 0x40 * m.val

/-- The register whose read frees a timer's capture: TMR_CAP, or TMR_W_CAP_HI (R280). -/
def timerCapAddr : TimerRef → Nat
  | .hub n => 0x02040000 + 0x20 * n.val + 0x18
  | .tile t n => tileBase t.val + 0xC00 + 0x20 * n.val + 0x18
  | .wide m => 0x02040400 + 0x40 * m.val + 0x2C

/-- The control block of engine g. -/
def engBlock (g : Nat) : Nat := if g < 32 then 0x02100000 + 0x1000 * g else tileBase ((g - 32) / 8) + 0x8000 + 0x800 * (g % 8)

/-- The control register of stitch cell k: on the hub below 32, else on its tile. -/
def cellAddr (k : Nat) : Nat := if k < 32 then 0x02030108 + 16 * k else tileBase ((k - 32) / 8) + 0x908 + 16 * (k % 8)

/-- The fire register of a fabric: word w of the hub's, or a tile's one word. -/
def fireAddr : Fabric → Nat → Nat
  | .hub, w => 0x02030010 + 4 * w
  | .tile t, _ => tileBase t.val + 0x804

/-- Bit k of a word put to b. -/
def putBitOf (v k : Nat) (b : Bool) : Nat := if b then v ||| 2 ^ k else if v.testBit k then v - 2 ^ k else v

/-- The word of HUB_RESET_CMD for a kind and a target. -/
def resetWord (kind target : Nat) : Nat := 0xA5000000 + kind * 2 ^ 16 + target

/-! ### Accesses with an answer in resp -/

/-- REGISTER_WRITE (R7). -/
def execRegisterWrite (ini : Initiator) (posted : Bool) (addr : Word) (size : Nat) (data : Word) (s : State) : Out :=
  .next (s.writeBy ini posted addr.toNat (toBytes size data.toNat))
/-- HUB_FUNC_MODE_WRITE (R28). -/
def execHubFuncModeWrite (ini : Initiator) (data : Word) (s : State) : Out := .next (s.regWriteBy ini 0x02000020 data.toNat)
/-- HUB_GCOMMIT_WRITE (R33). -/
def execHubGcommitWrite (ini : Initiator) (data : Word) (s : State) : Out := .next (s.regWriteBy ini 0x02000030 data.toNat)
/-- RF_CHAN_WRITE (R60). -/
def execRfChanWrite (ini : Initiator) (data : Word) (s : State) : Out := .next (s.regWriteBy ini 0x020A0800 data.toNat)
/-- BF_COMMIT (R84). -/
def execBfCommit (ini : Initiator) (data : Word) (s : State) : Out := .next (s.regWriteBy ini 0x020A0000 data.toNat)
/-- PRELOAD (R88). -/
def execPreload (ini : Initiator) (data : Word) (s : State) : Out := .next (s.regWriteBy ini 0x020A0010 data.toNat)
/-- SWAP_REQUEST (R90). -/
def execSwapRequest (ini : Initiator) (data : Word) (s : State) : Out := .next (s.regWriteBy ini 0x020A001C data.toNat)
/-- CAPTURE_ARM (R104). -/
def execCaptureArm (ini : Initiator) (data : Word) (s : State) : Out := .next (s.regWriteBy ini 0x020A0200 data.toNat)
/-- TENSION_GO (R107). -/
def execTensionGo (ini : Initiator) (data : Word) (s : State) : Out := .next (s.regWriteBy ini 0x020A0400 data.toNat)
/-- PHY_SOFT_BEAMS_WRITE (R140). -/
def execPhySoftBeamsWrite (ini : Initiator) (data : Word) (s : State) : Out := .next (s.regWriteBy ini 0x02070020 data.toNat)
/-- XNG_COMMIT (R145). -/
def execXngCommit (ini : Initiator) (data : Word) (s : State) : Out := .next (s.regWriteBy ini 0x02080004 data.toNat)
/-- XNG_ENABLE (R147). -/
def execXngEnable (ini : Initiator) (data : Word) (s : State) : Out := .next (s.regWriteBy ini 0x02080000 data.toNat)
/-- XNG_PUSH_PTR_WRITE (R158). -/
def execXngPushPtrWrite (ini : Initiator) (data : Word) (s : State) : Out := .next (s.regWriteBy ini 0x02080024 data.toNat)
/-- MAC_NBR_COMMIT (R182). -/
def execMacNbrCommit (ini : Initiator) (data : Word) (s : State) : Out := .next (s.regWriteBy ini 0x02090000 data.toNat)
/-- KEEL_VOTE_WRITE (R227). -/
def execKeelVoteWrite (ini : Initiator) (data : Word) (s : State) : Out := .next (s.regWriteBy ini 0x02010F00 data.toNat)
/-- SEC_KEY_LOAD (R239). -/
def execSecKeyLoad (ini : Initiator) (data : Word) (s : State) : Out := .next (s.regWriteBy ini 0x02060230 data.toNat)
/-- SEC_KEY_ERASE (R239). -/
def execSecKeyErase (ini : Initiator) (data : Word) (s : State) : Out := .next (s.regWriteBy ini 0x02060230 data.toNat)
/-- SEC_KEY_BAD_OP (R239). -/
def execSecKeyBadOp (ini : Initiator) (data : Word) (s : State) : Out := .next (s.regWriteBy ini 0x02060230 data.toNat)
/-- RNG_RESTART (R244). -/
def execRngRestart (ini : Initiator) (data : Word) (s : State) : Out := .next (s.regWriteBy ini 0x02062000 data.toNat)
/-- OTP_PROGRAM (R250). -/
def execOtpProgram (ini : Initiator) (data : Word) (s : State) : Out := .next (s.regWriteBy ini 0x03008044 data.toNat)
/-- IRQ_SET (R290). -/
def execIrqSet (ini : Initiator) (data : Word) (s : State) : Out := .next (s.regWriteBy ini 0x02020880 data.toNat)
/-- IRQ_EOI (R291). -/
def execIrqEoi (ini : Initiator) (data : Word) (s : State) : Out := .next (s.regWriteBy ini 0x02020884 data.toNat)
/-- PWR_FORCE_OFF_WRITE (R301). -/
def execPwrForceOffWrite (ini : Initiator) (data : Word) (s : State) : Out := .next (s.regWriteBy ini 0x02010110 data.toNat)
/-- PWR_CLK_GATE_WRITE (R302). -/
def execPwrClkGateWrite (ini : Initiator) (data : Word) (s : State) : Out := .next (s.regWriteBy ini 0x02010114 data.toNat)
/-- WK_RX_ENABLE (R312). -/
def execWkRxEnable (ini : Initiator) (data : Word) (s : State) : Out := .next (s.regWriteBy ini 0x0300008C data.toNat)
/-- BELL_TX_REQUEST (R318). -/
def execBellTxRequest (ini : Initiator) (data : Word) (s : State) : Out := .next (s.regWriteBy ini 0x030000B0 data.toNat)
/-- WDOG_KICK (R333). -/
def execWdogKick (ini : Initiator) (data : Word) (s : State) : Out := .next (s.regWriteBy ini 0x02000054 data.toNat)
/-- BLACK_BOX_CLEAR (R428). -/
def execBlackBoxClear (ini : Initiator) (data : Word) (s : State) : Out := .next (s.regWriteBy ini 0x03000180 data.toNat)
/-- PMC_SNAPSHOT (R431). -/
def execPmcSnapshot (ini : Initiator) (data : Word) (s : State) : Out := .next (s.regWriteBy ini 0x020F0000 (putBitOf data.toNat 16 true))
/-- MGMT_WRITE (R452). -/
def execMgmtWrite (ini : Initiator) (data : Word) (s : State) : Out := .next (s.regWriteBy ini 0x02010C04 (putBitOf (putBitOf data.toNat 31 true) 24 false))
/-- MGMT_READ (R452). -/
def execMgmtRead (ini : Initiator) (data : Word) (s : State) : Out := .next (s.regWriteBy ini 0x02010C04 (putBitOf (putBitOf data.toNat 31 true) 24 true))
/-- TILE_COMMIT (R83). -/
def execTileCommit (ini : Initiator) (t : Fin 8) (data : Word) (s : State) : Out := .next (s.regWriteBy ini (tileBase t.val) (data.toNat))
/-- FRAGMENT_WRITE (R82). -/
def execFragmentWrite (ini : Initiator) (t : Fin 8) (sw : Fin 2048) (k : Fin 64) (data : Word) (s : State) : Out := .next (s.regWriteBy ini (fragAddr t.val sw.val + 4 * k.val) (data.toNat))
/-- DIRECTORY_WRITE (R82). -/
def execDirectoryWrite (ini : Initiator) (sw : Fin 2048) (w : Fin 4) (data : Word) (s : State) : Out := .next (s.regWriteBy ini (0x020A8000 + 16 * sw.val + 4 * w.val) (data.toNat))
/-- CRC_CFG_WRITE (R260). -/
def execCrcCfgWrite (ini : Initiator) (u : Fin 8) (data : Word) (s : State) : Out := .next (s.regWriteBy ini (0x02050100 + 0x40 * u.val) (data.toNat))
/-- CRC_STATE_WRITE (R260). -/
def execCrcStateWrite (ini : Initiator) (u : Fin 8) (data : Word) (s : State) : Out := .next (s.regWriteBy ini (0x02050104 + 0x40 * u.val) (data.toNat))
/-- CRC_FEED_B (R259). -/
def execCrcFeedB (ini : Initiator) (u : Fin 8) (data : Word) (s : State) : Out := .next (s.regWriteBy ini (0x02050110 + 0x40 * u.val) (data.toNat))
/-- CRC_FEED_H (R259). -/
def execCrcFeedH (ini : Initiator) (u : Fin 8) (data : Word) (s : State) : Out := .next (s.regWriteBy ini (0x02050114 + 0x40 * u.val) (data.toNat))
/-- CRC_FEED_W (R259). -/
def execCrcFeedW (ini : Initiator) (u : Fin 8) (data : Word) (s : State) : Out := .next (s.regWriteBy ini (0x02050118 + 0x40 * u.val) (data.toNat))
/-- YRN_FIRE (R269). -/
def execYrnFire (ini : Initiator) (f : Fabric) (w : Fin 4) (data : Word) (s : State) : Out := .next (s.regWriteBy ini (fireAddr f w.val) (data.toNat))
/-- YRN_CELL_CTRL_WRITE (R272). -/
def execYrnCellCtrlWrite (ini : Initiator) (k : Fin 96) (data : Word) (s : State) : Out := .next (s.regWriteBy ini (cellAddr k.val) (data.toNat))
/-- TIMER_ENABLE (R277). -/
def execTimerEnable (ini : Initiator) (r : TimerRef) (data : Word) (s : State) : Out := .next (s.regWriteBy ini (timerAddr r) (putBitOf data.toNat 0 true))
/-- TIMER_DISABLE (R281). -/
def execTimerDisable (ini : Initiator) (r : TimerRef) (data : Word) (s : State) : Out := .next (s.regWriteBy ini (timerAddr r) (putBitOf data.toNat 0 false))
/-- IRQ_PEND_CLEAR (R291). -/
def execIrqPendClear (ini : Initiator) (w : Fin 16) (data : Word) (s : State) : Out := .next (s.regWriteBy ini (0x02020800 + 4 * w.val) (data.toNat))
/-- BELL_KEY_WRITE (R251). -/
def execBellKeyWrite (ini : Initiator) (k : Fin 4) (data : Word) (s : State) : Out := .next (s.regWriteBy ini (0x03008010 + 4 * k.val) (data.toNat))
/-- PWR_VOTE_SET (R296). -/
def execPwrVoteSet (ini : Initiator) (d : Fin 16) (data : Word) (s : State) : Out := .next (s.regWriteBy ini (0x02010000 + 16 * d.val + 4) (data.toNat))
/-- PWR_VOTE_CLR (R296). -/
def execPwrVoteClr (ini : Initiator) (d : Fin 16) (data : Word) (s : State) : Out := .next (s.regWriteBy ini (0x02010000 + 16 * d.val + 8) (data.toNat))
/-- SPARE_FILL (R399). -/
def execSpareFill (ini : Initiator) (n : Fin 16) (data : Word) (s : State) : Out := .next (s.regWriteBy ini (0x020D0300 + 4 * n.val) (data.toNat))
/-- ERR_UNIT_CLEAR (R416). -/
def execErrUnitClear (ini : Initiator) (u : Fin 166) (data : Word) (s : State) : Out := .next (s.regWriteBy ini (0x020E0400 + 4 * u.val) (data.toNat))
/-- ENGINE_RUN (R222). -/
def execEngineRun (ini : Initiator) (g : Fin 96) (data : Word) (s : State) : Out := .next (s.regWriteBy ini (engBlock g.val) (putBitOf data.toNat 0 true))
/-- ENGINE_HALT (R222). -/
def execEngineHalt (ini : Initiator) (g : Fin 96) (data : Word) (s : State) : Out := .next (s.regWriteBy ini (engBlock g.val) (putBitOf data.toNat 0 false))
/-- WARM_RESET (R332). -/
def execWarmReset (ini : Initiator) (s : State) : Out := .next (s.regWriteBy ini 0x02000010 (resetWord 3 0))
/-- RESET_CMD_NONE (R332). -/
def execResetCmdNone (ini : Initiator) (target : Fin 128) (s : State) : Out := .next (s.regWriteBy ini 0x02000010 (resetWord 0 target.val))
/-- TILE_RESET (R334). -/
def execTileReset (ini : Initiator) (target : Fin 128) (s : State) : Out := .next (s.regWriteBy ini 0x02000010 (resetWord 2 target.val))
/-- ENGINE_RESET (R335). -/
def execEngineReset (ini : Initiator) (target : Fin 128) (s : State) : Out := .next (s.regWriteBy ini 0x02000010 (resetWord 1 target.val))
/-- TIMER_CAP_READ (R280). -/
def execTimerCapRead (ini : Initiator) (r : TimerRef) (s : State) : Out := .next (s.regReadBy ini (timerCapAddr r))
/-- TSI_READ (R286). -/
def execTsiRead (ini : Initiator) (s : State) : Out := .next (s.regReadBy ini 0x02040814)
/-- RNG_DATA_READ (R246). -/
def execRngDataRead (ini : Initiator) (s : State) : Out := .next (s.regReadBy ini 0x02062008)
/-- BELL_RAW_READ (R317). -/
def execBellRawRead (ini : Initiator) (s : State) : Out := .next (s.regReadBy ini 0x030000D8)
/-- ENG_LM_DATA_ACCESS (R222): a write where data are given, else a read. -/
def execEngLmDataAccess (ini : Initiator) (g : Fin 96) (data : Option Word) (s : State) : Out :=
  .next (match data with
    | some x => s.regWriteBy ini (engBlock g.val + 0x44) x.toNat
    | none => s.regReadBy ini (engBlock g.val + 0x44))

/-! ### The flash window (R374, R377 to R381) -/

/-- FLASH_READ (R374). -/
def execFlashRead (ini : Initiator) (addr : Word) (size : Nat) (ecc : List (Nat × EccSeen)) (s : State) : Out := .next (s.readBy ini addr.toNat size ecc)
/-- FLASH_UNLOCK1 (R377). -/
def execFlashUnlock1 (ini : Initiator) (posted : Bool) (k : Fin 4) (s : State) : Out := .next (s.writeBy ini posted (bankBase k.val + 0xAAA) [0xB4])
/-- FLASH_UNLOCK2 (R377). -/
def execFlashUnlock2 (ini : Initiator) (posted : Bool) (k : Fin 4) (s : State) : Out := .next (s.writeBy ini posted (bankBase k.val + 0x555) [0x4B])
/-- FLASH_STATUS (R379). -/
def execFlashStatus (ini : Initiator) (posted : Bool) (k : Fin 4) (s : State) : Out := .next (s.writeBy ini posted (bankBase k.val + 0xAAA) [0x5C])
/-- FLASH_EXIT (R379). -/
def execFlashExit (ini : Initiator) (posted : Bool) (k : Fin 4) (s : State) : Out := .next (s.writeBy ini posted (bankBase k.val + 0xAAA) [0xE8])
/-- FLASH_RESET (R379). -/
def execFlashReset (ini : Initiator) (posted : Bool) (k : Fin 4) (s : State) : Out := .next (s.writeBy ini posted (bankBase k.val + 0xAAA) [0xF0])
/-- PAGE_PROGRAM (R379). -/
def execPageProgram (ini : Initiator) (posted : Bool) (k : Fin 4) (block : Fin 64) (s : State) : Out :=
  .next (s.writeBy ini posted (bankBase k.val + 0xAAA) [0x31, BitVec.ofNat 8 block.val])
/-- BLOCK_ERASE (R379). -/
def execBlockErase (ini : Initiator) (posted : Bool) (k : Fin 4) (block : Fin 64) (s : State) : Out :=
  .next (s.writeBy ini posted (bankBase k.val + 0xAAA) [0x72, BitVec.ofNat 8 block.val])
/-- PAGE_BUFFER_WRITE (R379). -/
def execPageBufferWrite (ini : Initiator) (posted : Bool) (addr : Word) (data : List Byte) (s : State) : Out := .next (s.writeBy ini posted addr.toNat data)
/-- FLASH_STRAY_WRITE (R381). -/
def execFlashStrayWrite (ini : Initiator) (posted : Bool) (addr : Word) (data : List Byte) (s : State) : Out := .next (s.writeBy ini posted addr.toNat data)

end Sys2Proof.Machine
end

