-- ==== Sys2Proof/Machine/EngineDev.lean ====
section
/-! DEFINITION. Machine/EngineDev.lean: the device accesses of the engines: posted stores, FENCE, and the completions that waiting words retire with
(R195 to R197, R213, R214, R305, R335). -/

namespace Sys2Proof.Machine

open Sys2Proof

/-- Engine g as an initiator. -/
def engIni (g : Nat) : Initiator := .engine ⟨g % 96, Nat.mod_lt _ (by decide)⟩

/-! ### Posted stores and FENCE (R197) -/

/-- STP: the checks of a device store; the space must be 1; it retires at issue and its write goes out (log 29). -/
def State.engStp (s : State) (g d a : Nat) (dev : Bool) (size : Nat) (off : BitVec 14) : State :=
  let r := (s.eng g).r
  let addr := lmAddress r a off
  let data := toBytes (2 ^ size) (r.get d).toNat
  s.engIssue g .device false
    (fun r =>
      match worst [illegalIf (size == 3 || !dev), s.devPriv g true r, s.memFault g addr (2 ^ size) (2 ^ size) true false] with
      | some f => .fault f r
      | none => .ok r [])
    (fun s => if s.reachable then s.device (.store g) (engIni g) true addr data data.length [] else s.storeFailed g .dozing addr)

/-- FENCE: with no posted store on its way it retires; else it waits. -/
def State.engFenceIssue (s : State) (g : Nat) : State :=
  (s.engIssue g .plain false fun r =>
    if (s.eng g).postedFault.isSome || s.postedOut (fun src => src == .store g) then .wait .fence else .ok r []).settleFences

/-- A POSTED_FAULT that is due is taken at a word boundary. -/
def State.postedFaultTaken (s : State) (g : Nat) : State :=
  if !s.engPowered g || (s.eng g).postedFault.isNone then s
  else if (s.eng g).wait == some .fence then s.engFence g
  else s.takeBoundary g

/-! ### Completions (R195, R196, R214, R335) -/

/-- An access of engine g has been issued and its completion is on its way: it waits under wake-on-touch, it or its answer waits for a
control lane, or a peer serves it. -/
def State.engAway (s : State) (g : Nat) : Bool :=
  s.lnk.wot.any (fun (w : WotAccess) => w.src == .engine g) || s.lnk.ctlBack.any (fun (b : CtlAnswer) => b.src == .engine g)
    || (List.range 4).any fun l => (s.link l).ownReqs.any fun (r : Nat × AccSrc) => r.2 == .engine g

/-- The device access that a waiting word stands for: write or read, address, data, length. -/
def Engine.access (x : Engine) : EngWait → Option (Bool × Nat × List Byte × Nat)
  | .load a n _ _ => some (false, a, [], n)
  | .store a n v => some (true, a, toBytes n v, n)
  | .vload a _ => some (false, a, [], 64)
  | .vstore a data => some (true, a, data, data.length)
  | .gather base _ idx => some (false, gatherAddr x.r base idx (gatherLane x.r), [], 4)
  | _ => none

/-- The completion of engine g's device access: the access is carried out, unless it is away, and the word retires or faults; a GATHER goes on lane
by lane. A FENCE is looked at again. -/
def State.engComplete (s : State) (g : Nat) (ecc : List (Nat × EccSeen)) : State :=
  let x := s.eng g
  let w := match x.discard with
    | some w => some w
    | none => x.wait
  if w == some .fence then s.settleFences
  else if s.engAway g || !s.reachable then s
  else
    match w.bind x.access with
    | some (isWrite, a, data, len) => s.device (.engine g) (engIni g) isWrite a data len ecc
    | none => s

/-- STP (R197). -/
def execStp (g : Fin 96) (d a : Fin 16) (dev : Bool) (size : Fin 4) (off : BitVec 14) (s : State) : Out := .next (s.engStp g.val d.val a.val dev size.val off)
/-- FENCE (R197). -/
def execFence (g : Fin 96) (_d _a _b : Fin 16) (_arg : BitVec 8) (s : State) : Out := .next (s.engFenceIssue g.val)
/-- POSTED_FAULT (R197). -/
def execPostedFault (g : Fin 96) (s : State) : Out := .next (s.postedFaultTaken g.val)
/-- DEVICE_COMPLETION (R196). -/
def execDeviceCompletion (g : Fin 96) (ecc : List (Nat × EccSeen)) (s : State) : Out := .next (s.engComplete g.val ecc)

end Sys2Proof.Machine
end

