-- ==== Sys2Proof/Machine/Links.lean ====
section
/-! DEFINITION. Machine/Links.lean: what the Redra links receive: flits and control flits, trainings, requests with the once cache, CANCEL, FENCE,
completions, late faults, standby and wake (R17, R19, R27, R337, R339, R342 to R366). -/

namespace Sys2Proof.Machine

open Sys2Proof

/-- The unit of a link (Table 14.3). -/
def linkUnit (l : Nat) : Nat := if l = hostLink then 0x9C else 0x9D + l % 4

/-- A record of class LINK: 1 retrain, 2 fresh training, 3 width reduced (Table 14.2). -/
def State.linkRecord (s : State) (l what : Nat) : State := s.logHw 12 (linkUnit l) (what + l * 16)

/-! ### Flits, acknowledgements and replay (R344, R345) -/

/-- A data flit arrives: the next one expected is taken out of its berth at once; any other is discarded, the first of them, and each failure of a
resend of the expected one, with a NAK (log 31). fixed and lost are what the FEC decoder found in the codewords that ended since the flit before:
symbols corrected, and codewords it could not correct (Table 12.11). -/
def State.flitReceive (s : State) (l seq vc : Nat) (crcOk : Bool) (fixed lost : Nat) : State :=
  if !s.hears l then s
  else
    let s := ((s.add (R.LNK_ERR_CNT_count 0) fixed).add (R.LNK_ERR_CNT_count 1) lost).pmcAt 0x0E2 l fixed none
    let x := s.link l
    if crcOk && seq = x.rxNext then
      (s.updLink l fun x => { x with
        rxNext := (x.rxNext + 1) % 4096, naks := 0, freed := set3 x.freed vc ((nth3 x.freed vc + 1) % 65536), idleSince := s.now }).pmcAt 0x0E1 l 1 none
    else
      let s := if crcOk then s else s.bump (R.LNK_ERR_CNT_count 2)
      if x.naks = 0 || (!crcOk && seq = x.rxNext) then s.updLink l fun x => { x with naks := x.naks + 1 } else s

/-- Berths returned by a control flit's cumulative counts (R344). -/
def Link.returned (x : Link) (f : Nat × Nat × Nat) : Link :=
  let d (k : Nat) : Nat := (nth3 f k + 65536 - nth3 x.farFreed k) % 65536
  { x with farFreed := f, berths := (x.berths.1 + d 0, x.berths.2.1 + d 1, x.berths.2.2 + d 2) }

/-- Flits up to and including a sequence leave the replay buffer, where the buffer holds it. -/
def Link.acked (x : Link) (seq : Nat) : Link :=
  match x.replay.findIdx? fun (r : Nat × Nat × OutPacket) => r.1 == seq with
  | some i => { x with replay := x.replay.drop (i + 1) }
  | none => x

/-- An ACK: flits are acknowledged and berths come back; waiting packets go out. -/
def State.ackReceive (s : State) (l seq : Nat) (f : Nat × Nat × Nat) : State :=
  if !s.hears l then s else (s.updLink l fun x => (x.acked seq).returned f).linkPump l

/-- A NAK names the sequence the far end expects: those before it are accepted, and the rest is sent again, one replay more. -/
def State.nakReceive (s : State) (l seq : Nat) (f : Nat × Nat × Nat) : State :=
  if !s.hears l then s
  else
    let s := (s.updLink l fun x => (x.acked ((seq + 4095) % 4096)).returned f).bump (R.LNK_ERR_CNT_count 3)
    (s.pmc 0x0E3 l).linkPump l

/-- The link retrains: the expected flit was not accepted in time at one of its ends (R346). -/
def State.retrainStart (s : State) (l : Nat) : State :=
  if !s.hears l then s
  else
    let s := (s.updLink l fun x => { x with state := .retrain }).bump (R.LNK_ERR_CNT_count 4)
    (s.linkRecord l 1).refreshSerdes

/-! ### Own requests and forwarded writes (R27, R348, R359) -/

/-- The mirror address under which an address at peer p is reached. -/
def mirrorAddr (p a : Nat) : Nat := 0x08000000 + p % 4 * 0x01000000 + a % 0x01000000

/-- FENCE data from a peer: every forwarded write up to the sequence has landed but for the failures, whose late faults may still be on their way; those
that the peer has lost never come (R360). -/
def State.fenceHeard (s : State) (p : Nat) (data : List Byte) : State :=
  let c := ofBytes (data.take 2)
  let k := ofBytes ((data.drop 2).take 2)
  let lost := ofBytes ((data.drop 6).take 2)
  let x := s.link p
  let got := (x.lateGot.filter fun q => seqUpTo q c).length + lost
  let s := s.updLink p fun x => { x with
    lateGot := x.lateGot.filter fun q => !seqUpTo q c
    lateOwed := if k ≤ got then none else some (k - got, c)
    fwdPosted := if k ≤ got then x.fwdPosted.filter fun (y : Nat × Nat × AccSrc) => !seqUpTo y.1 c else x.fwdPosted }
  s.settleFences

/-- The completion of an own request on link l: its outcome goes to where the request came from; one for no open request is consumed (R351). -/
def State.ownEnd (s : State) (l tag : Nat) (st : Status) (data : List Byte) : State :=
  match (s.link l).ownReqs.find? fun (r : Nat × AccSrc) => r.1 == tag with
  | none => s
  | some (_, src) =>
    let s := s.updLink l fun x => { x with ownReqs := x.ownReqs.filter fun (r : Nat × AccSrc) => r.1 != tag }
    match src with
    | .fence => if st = .ok && 8 ≤ data.length then s.fenceHeard l data else s.settleFences
    | .direct => s.finish src st 0 data
    | .link _ _ _ => s.finish src st 0 data
    | .posted _ _ => s.finish src st 0 data
    | .engine _ => s.finish src st 0 data
    | .store _ => s.finish src st 0 data

/-- The tag of an own request among packets. -/
def OutPacket.ownTag : OutPacket → Option Nat
  | .request _ t _ _ _ => some t
  | .fence t => some t
  | _ => none

/-- A forwarded write that waits to be sent: its address there and where a failure goes. -/
def OutPacket.forwarded : OutPacket → Option (Nat × AccSrc)
  | .posted a _ src => some (a, src)
  | _ => none

/-- Every own request and every forwarded write of link l ends LINK_RESET (R27, R348). -/
def State.dropOwn (s : State) (l : Nat) : State :=
  let x := s.link l
  let sent := x.fwdPosted.map fun (y : Nat × Nat × AccSrc) => y.2
  let writes := sent ++ x.vc1.filterMap OutPacket.forwarded
  let tags := x.ownReqs.map fun (r : Nat × AccSrc) => r.1
  let s := s.updLink l fun x => { x with
    fwdPosted := [], lateGot := [], lateOwed := none
    vc0 := x.vc0.filter fun p => p.ownTag.isNone
    vc1 := x.vc1.filter fun p => p.forwarded.isNone }
  let s := tags.foldl (fun s t => s.ownEnd l t .linkReset []) s
  (writes.foldl (fun s (w : Nat × AccSrc) => s.finish w.2 .linkReset (mirrorAddr l w.1) []) s).settleFences

/-- A LATE_FAULT from a peer: the write it names goes to its own requester; then it counts toward a FENCE (R359). -/
def State.peerLate (s : State) (p seq : Nat) (st : Status) : State :=
  let x := s.link p
  let hit := x.fwdPosted.find? fun (y : Nat × Nat × AccSrc) => y.1 == seq
  let owed := match x.lateOwed with
    | some (n, c) => if seqUpTo seq c then (if n ≤ 1 then none else some (n - 1, c)) else some (n, c)
    | none => none
  let ended := match x.lateOwed, owed with
    | some (_, c), none => some c
    | _, _ => none
  let counted := match x.lateOwed with
    | some (_, c) => seqUpTo seq c
    | none => false
  let s := s.updLink p fun x => { x with
    lateOwed := owed
    lateGot := if counted then x.lateGot else x.lateGot ++ [seq]
    fwdPosted := x.fwdPosted.filter fun (y : Nat × Nat × AccSrc) =>
      y.1 != seq && match ended with
        | some c => !seqUpTo y.1 c
        | none => true }
  let s := match hit with
    | some (_, a, src) => s.finish src st (mirrorAddr p a) []
    | none => s
  s.settleFences

/-- A LATE_FAULT is received: it is logged; the host's ends nothing else (R359, R361). -/
def State.lateReceive (s : State) (l seq : Nat) (st : Status) (addr : Nat) : State :=
  if !s.hears l then s
  else
    let s := s.logLate 1 l seq st addr
    if l = hostLink then s else s.peerLate l seq st

/-- The oldest late fault that waits for link l goes out where a VC1 berth is free (R359). -/
def State.lateSend (s : State) (l : Nat) : State :=
  match s.lnk.lateWait.find? fun (x : Nat × Nat × Nat × Status × Nat) => x.2.1 == l with
  | none => s
  | some x =>
    let p := OutPacket.lateFault x.2.2.1 x.2.2.2.1 x.2.2.2.2
    if !(s.link l).vc1.isEmpty || !(s.link l).canSend p then s
    else ({ s with lnk := { s.lnk with lateWait := s.lnk.lateWait.filter fun (y : Nat × Nat × Nat × Status × Nat) => y != x } }).linkSend l p

/-! ### Trainings (R19, R342, R346 to R348, R367) -/

/-- The far end's resume sequence lies in this end's replay buffer: no more flits follow it than the buffer holds. -/
def Link.holdsResume (x : Link) (q : Nat) : Bool := (x.txNext + 4096 - 1 - q) % 4096 ≤ x.replay.length

/-- Flits after the far end's resume sequence. -/
def Link.afterResume (x : Link) (q : Nat) : List (Nat × Nat × OutPacket) :=
  x.replay.drop (x.replay.length - (x.txNext + 4096 - 1 - q) % 4096)

/-- Berths that a training advertises (Table 1.3). -/
def freshBerths : Nat × Nat × Nat := (256, 512, 512)

/-- A link as any training leaves it. -/
def Link.trained (x : Link) (seen : TrainSeen) (now : Nat) : Link :=
  { x with
    state := .active, kept := true, prevOwn := some x.epoch, prevPeer := some seen.peerEpoch, naks := 0, berths := freshBerths,
    farFreed := (0, 0, 0), freed := (0, 0, 0), idleSince := now, standbyAsked := false, wakeAt := none }

/-- A resume: flits of VC1 and VC2 after the far end's resume sequence are sent again in order, those of VC0 are not. -/
def Link.resumed (x : Link) (q : Nat) : Link :=
  let again := (x.afterResume q).filter fun (r : Nat × Nat × OutPacket) => r.2.1 != 0
  let n (k : Nat) : Nat := (again.filter fun (r : Nat × Nat × OutPacket) => r.2.1 == k).length
  { x with
    replay := again.zipIdx.map fun (r : (Nat × Nat × OutPacket) × Nat) => ((q + 1 + r.2) % 4096, r.1.2)
    txNext := (q + 1 + again.length) % 4096
    berths := (x.berths.1, x.berths.2.1 - n 1, x.berths.2.2 - n 2) }

/-- A request of link l that waits under wake-on-touch or for a control lane. -/
def WotAccess.asks (l : Nat) (w : WotAccess) : Bool :=
  match w.src with
  | .link k _ _ => k == l
  | _ => false

/-- Requests of link l that have not reached their target, those that wait for a control lane, are discarded unexecuted, and their entries are EMPTY
(R348, R357). -/
def State.discardQueued (s : State) (l : Nat) : State :=
  let gone := s.lnk.wot.filter fun (w : WotAccess) => w.lane && w.asks l
  let s := { s with lnk := { s.lnk with wot := s.lnk.wot.filter fun (w : WotAccess) => !(w.lane && w.asks l) } }
  s.updLink l fun x => { x with once := x.once.filter fun (o : OnceEntry) => !gone.any fun (w : WotAccess) => w.src == .link l o.tag o.serial }

/-- After a resume: the far end's open requests are answered LINK_RESET, CANCELs included, and own requests whose flits were lost end LINK_RESET. -/
def State.resumeRequests (s : State) (l : Nat) (lost : List Nat) : State :=
  let tags := (s.link l).openTags
  let mine := s.lnk.cancels.filter fun (c : Nat × Nat × Nat) => c.1 == l
  let s := { s with lnk := { s.lnk with cancels := s.lnk.cancels.filter fun (c : Nat × Nat × Nat) => c.1 != l } }
  let s := s.updLink l fun x => { x with
    openTags := []
    once := x.once.map fun (o : OnceEntry) =>
      if mine.any (fun (c : Nat × Nat × Nat) => c.2.1 == o.tag) && o.state = .running then { o with state := .open_, status := .alreadyComplete } else o }
  let s := tags.foldl (fun s (t : Nat × Nat) => s.linkSend l (.cpl t.1 .linkReset)) (s.discardQueued l)
  lost.foldl (fun s t => s.ownEnd l t .linkReset []) s

/-- A fresh link: nothing is sent again, posted sequences start at 0, the far end's requests are dropped without a completion. -/
def Link.fresh (x : Link) : Link :=
  { x with
    rxNext := 0, txNext := 0, replay := [], postTx := 0, postRx := 0, fails := [], openTags := [], vc0 := [], vc1 := [], vc2 := [] }

/-- After a fresh training: requests held open are dropped, own ones end LINK_RESET, and with the host every landing is disabled and its commands are
dropped (R347, R348). -/
def State.freshRequests (s : State) (l : Nat) : State :=
  let gone := s.lnk.wot.filter (WotAccess.asks l)
  let s := { s with lnk := { s.lnk with
    wot := s.lnk.wot.filter fun w => !w.asks l
    fences := s.lnk.fences.filter fun (f : FenceWait) => f.link != l
    cancels := s.lnk.cancels.filter fun (c : Nat × Nat × Nat) => c.1 != l
    lateWait := s.lnk.lateWait.filter fun (x : Nat × Nat × Nat × Status × Nat) => x.2.1 != l } }
  let kept (o : OnceEntry) : Bool := !gone.any fun (w : WotAccess) => w.src == .link l o.tag o.serial
  let s := s.updLink l fun x => { x with once := x.once.filter kept }
  let s := ((gone.filter fun (w : WotAccess) => !w.lane).map fun (w : WotAccess) => w.dom).foldl (fun s d =>
    if s.lnk.wot.any fun (w : WotAccess) => w.dom == d then s else s.unvote d 27) s
  let s := (s.dropOwn l).updLink l Link.fresh
  if l != hostLink then s
  else
    let s := forAll 74 (fun n s => s.set (R.LNK_LND_CFG_en n) 0) s
    { s with
      lnk := { s.lnk with cmds := [], entries := s.lnk.entries.filter fun (e : RingEntry) => e.kind != 3 }
      upd := { s.upd with cmd := none, retry := none } }

/-- Step 9: READY goes out on VC1, and the boot is over (Table 11.1, R330, R339). -/
def State.sendReady (s : State) : State :=
  if s.boot.step != 8 then s
  else
    let s := { s with boot := { s.boot with step := 0, ready := true } }
    (s.linkSend hostLink (.ready s.readyBody)).bootRecord

/-- After a training of the host link, one message waits for each vector that has an active source (R292). -/
def State.vectorsAgain (s : State) : State :=
  let vs := ((s.irq.dest.filter fun (d : Nat × Nat × Nat × Nat) => d.2.1 == 1).map fun (d : Nat × Nat × Nat × Nat) => d.2.2.1).eraseDups
  s.queueVectors (vs.filter fun v => !s.irq.waiting.contains v)

/-- The largest width (R342). -/
def State.maxWidth (s : State) : Nat :=
  let w := s.get R.LNK_CFG_max_width
  if w = 1 || w = 2 || w = 4 || w = 8 then w else 16

/-- Widths a link may train at, the widest first. -/
def linkWidths : List Nat := [16, 8, 4, 2, 1]

/-- The width of a training: on the host link the widest up to the largest for which a group of lanes k × w to k × w + w − 1 has trained, none where no
lane has; x2 between peers (R342, R343). -/
def State.trainedWidth (s : State) (l lanes : Nat) : Option Nat :=
  if l != hostLink then some 2
  else linkWidths.find? fun w => w ≤ s.maxWidth && (List.range (16 / w)).any fun k => (List.range w).all fun i => lanes.testBit (k * w + i)

/-- What a training writes into the registers of its link, and the reports of a width below the largest and of a link up again. -/
def State.trainReports (s : State) (l width : Nat) (again : Bool) (seen : TrainSeen) : State :=
  let s := if l = hostLink then (s.set R.LNK_STATUS_width width).set R.LNK_STATUS_lanes seen.lanes
    else (s.set (R.PNT_DELAY_ticks l) seen.delay).setPeer l 2
  let s := if l = hostLink && width < s.maxWidth then (s.linkRecord l 3).fire 482 else s
  if again then s.fire 481 else s

/-- Training of a link ends. -/
def State.linkTrained (s : State) (l : Nat) (seen : TrainSeen) : State :=
  let x := s.link l
  if !s.hubUp || !s.domUp (linkDomain l) || !s.pwr.refclk || (x.state != .training && x.state != .retrain) then s
  else if l != hostLink && (seen.peerIndex != l || seen.peerIndex = s.get R.HUB_ID_pontoon_index) then
    ((s.updLink l fun x => { x with state := .down }).setPeer l 4).refreshSerdes
  else match s.trainedWidth l seen.lanes with
  | none => s
  | some width =>
    let resume := x.kept && x.prevOwn == some x.epoch && x.prevPeer == some seen.peerEpoch && x.holdsResume seen.peerResume && seen.inBuffer
    let now := s.now
    let s := s.trainReports l width (x.state == .retrain) seen
    let s :=
      if resume then
        let lost := ((x.afterResume seen.peerResume).filterMap fun (r : Nat × Nat × OutPacket) => r.2.2.ownTag).eraseDups
        (s.updLink l fun x => (x.trained seen now).resumed seen.peerResume).resumeRequests l lost
      else ((s.freshRequests l).updLink l fun x => x.trained seen now).linkRecord l 2
    let s := (s.updLink l fun x => { x with vc1 := .linkUp (!resume) width x.epoch :: x.vc1 }).linkPump l
    let s := if l = hostLink then s.sendReady.vectorsAgain else s
    s.refreshSerdes.settleCancels

/-- HL_REFCLK is detected: lane trainings that waited for it run from here on; no link trains before (R19). -/
def State.refclkSeen (s : State) : State := { s with pwr := { s.pwr with refclk := true } }

/-! ### Requests (R349, R350, R353 to R358, R360) -/

/-- The initiator behind a link. -/
def linkIni (l : Nat) : Initiator := if l = hostLink then .host else .peer ⟨l % 4, Nat.mod_lt _ (by decide)⟩

/-- The bytes of a host request that its once entry checks: the header with once cleared, and the data (Table 12.3, R357). -/
def requestBytes (type tag addr len : Nat) (data : List Byte) : List Byte :=
  toBytes 2 type ++ toBytes 2 tag ++ toBytes 8 addr ++ toBytes 2 len ++ [0, 4] ++ data

/-- A request is to be carried out under a running number of its own; the host's replaces the entry of its tag. -/
def State.newRequest (s : State) (l tag crc : Nat) : State × Option Nat :=
  let n := s.lnk.serial
  let e : OnceEntry := { tag := tag, crc := crc, state := .running, status := .ok, data := [], serial := n }
  let s := { s with lnk := { s.lnk with serial := n + 1 } }
  (s.updLink l fun x => { x with
    openTags := x.openTags ++ [(tag, n)]
    once := if l = hostLink then x.once.filter (fun (o : OnceEntry) => o.tag != tag) ++ [e] else x.once }, some n)

/-- A request arrives: answered from its once entry, or to be carried out, with its running number (R357). -/
def State.openRequest (s : State) (l tag crc : Nat) (once : Bool) : State × Option Nat :=
  match if l = hostLink && once then (s.link l).once.find? fun (o : OnceEntry) => o.tag == tag && o.crc == crc else none with
  | some o =>
    match o.state with
    | .open_ =>
      ((s.updLink l fun x => { x with once := x.once.map fun (y : OnceEntry) => if y.tag = tag then { y with state := .delivered } else y }).linkSend l
        (answerPacket tag o.status o.data), none)
    | .running => (s.updLink l fun x => { x with openTags := x.openTags.filter (fun (t : Nat × Nat) => t.1 != tag) ++ [(tag, o.serial)] }, none)
    | .delivered => s.newRequest l tag crc
  | none => s.newRequest l tag crc

/-- A packet whose length does not match its flits is dropped and counted; on VC0 it completes DENIED (R350). -/
def State.badRequest (s : State) (l tag : Nat) : State := (s.bump (R.LNK_ERR_CNT_count 5)).linkSend l (.cpl tag .denied)

/-- RD. -/
def State.rdReceive (s : State) (l : Nat) (p : Packet) (ecc : List (Nat × EccSeen)) : State :=
  if !s.hears l then s
  else if 4096 < p.len then s.badRequest l p.tag
  else
    match s.openRequest l p.tag (crc32c (requestBytes 1 p.tag p.addr p.len [])) p.once with
    | (s, some n) => s.device (.link l p.tag n) (linkIni l) false p.addr [] p.len ecc
    | (s, none) => s

/-- WR. -/
def State.wrReceive (s : State) (l : Nat) (p : Packet) (data : List Byte) : State :=
  if !s.hears l then s
  else if 4096 < p.len || data.length != p.len then s.badRequest l p.tag
  else
    match s.openRequest l p.tag (crc32c (requestBytes 2 p.tag p.addr p.len data)) p.once with
    | (s, some n) => s.device (.link l p.tag n) (linkIni l) true p.addr data data.length []
    | (s, none) => s

/-- WRP: the next posted sequence of its link. -/
def State.wrpReceive (s : State) (l : Nat) (p : Packet) (data : List Byte) : State :=
  if !s.hears l then s
  else if 4096 < p.len || data.length != p.len then
    (s.bump (R.LNK_ERR_CNT_count 5)).updLink l fun x => { x with postRx := (x.postRx + 1) % 65536 }
  else s.takePosted l (linkIni l) p.addr data

/-- FENCE: it covers the posted writes taken so far. -/
def State.fenceReceive (s : State) (l tag : Nat) (once : Bool) : State :=
  if !s.hears l then s
  else
    match s.openRequest l tag (crc32c (requestBytes 4 tag 0 0 [])) once with
    | (s, some n) =>
      let f : FenceWait := { link := l, tag := tag, seq := ((s.link l).postRx + 65535) % 65536, serial := n }
      ({ s with lnk := { s.lnk with fences := s.lnk.fences ++ [f] } }).settleFences
    | (s, none) => s

/-- A host or peer request that has not reached its target is withdrawn: it waits under wake-on-touch. The answer tells whether there was one. -/
def State.withdraw (s : State) (l target : Nat) : State × Bool :=
  match s.lnk.wot.find? fun (w : WotAccess) => match w.src with | .link k t _ => k == l && t == target | _ => false with
  | none => (s, false)
  | some w =>
    let s := { s with lnk := { s.lnk with wot := s.lnk.wot.filter fun (v : WotAccess) => v != w } }
    let s := if w.lane || s.lnk.wot.any fun (v : WotAccess) => v.dom == w.dom then s else s.unvote w.dom 27
    ((s.finish w.src .cancelled w.addr []), true)

/-- CANCEL, by the tag it carries for itself and what it names: a request or command tag, or a transmit descriptor of a landing (R358). -/
def State.cancelReceive (s : State) (l tag : Nat) (once : Bool) (target : Nat) (tx : Bool) (landing : Nat) : State :=
  if !s.hears l then s
  else
    match s.openRequest l tag (crc32c (requestBytes 5 tag (target + tx.toNat * 2 ^ 16 + landing * 2 ^ 24) 0 [])) once with
    | (s, none) => s
    | (s, some n) =>
      if tx then
        if landing < 64 then
          let r := s.cancelFrame landing target
          r.1.linkDone l tag n r.2 []
        else s.linkDone l tag n .alreadyComplete []
      else
        let r := s.withdraw l target
        if r.2 then r.1.linkDone l tag n .cancelled []
        else if target = tag then s.linkDone l tag n .alreadyComplete []
        else ({ s with lnk := { s.lnk with cancels := s.lnk.cancels ++ [(l, tag, target)] } }).settleCancels

/-! ### Command descriptors (R362, Table 13.10) -/

/-- A command ends: its completion entry waits for ring 73; result holds bytes 10 and on of the entry (Table 12.8). -/
def State.cmdDone (s : State) (tag : Nat) (st : Status) (result : List Nat) : State :=
  let index := ((s.lnk.cmds.find? fun (c : Nat × Nat) => c.1 == tag).map fun (c : Nat × Nat) => c.2).getD 0
  s.postEntry { kind := 3, status := st.code, tag := tag, ring := 72, reason := 0, index := index, count := 0, result := result }

/-- The 32 bytes of a command descriptor with once cleared. -/
def descBytes (d : CmdDesc) : List Byte :=
  toBytes 8 d.buf ++ toBytes 4 d.len ++ toBytes 1 d.opcode ++ [0] ++ toBytes 2 d.tag ++ (d.args ++ List.replicate 16 0).take 16

/-- The module reads the next command descriptor and starts its command: an update command is taken unless the loader serves another; an opcode that no
chapter gives is DENIED (log 32). A once descriptor whose command still runs is not started again. -/
def State.commandRead (s : State) (d : CmdDesc) : State :=
  if !s.hears hostLink || s.ringPosted 72 = 0 then s
  else
    let index := s.ringHead 72
    let s := s.ringTake 72 1
    let crc := crc32c (descBytes d)
    let same := d.once && (s.link hostLink).once.any fun (o : OnceEntry) => o.tag == d.tag && o.crc == crc && o.state == .running
    if same then s
    else
      let n := s.lnk.serial
      let e : OnceEntry := { tag := d.tag, crc := crc, state := .running, status := .ok, data := [], serial := n }
      let s := { s with lnk := { s.lnk with serial := n + 1, cmds := s.lnk.cmds ++ [(d.tag, index)] } }
      let s := s.updLink hostLink fun x => { x with once := x.once.filter (fun (o : OnceEntry) => o.tag != d.tag) ++ [e] }
      if d.opcode < 0x40 || 0x43 < d.opcode then s.cmdDone d.tag .denied []
      else if s.upd.cmd.isSome then s.cmdDone d.tag .busy []
      else { s with upd := { s.upd with cmd := some d } }

/-! ### Messages out -/

/-- An INTERRUPT message goes out on VC1, behind every packet already there, once a berth is free; with none waiting the vote goes (R292). -/
def State.sendInterrupt (s : State) : State :=
  match s.irq.waiting with
  | [] => s
  | v :: rest =>
    if !(s.link hostLink).vc1.isEmpty || !(s.link hostLink).canSend (.interrupt v) then s
    else
      let s := ({ s with irq := { s.irq with waiting := rest } }).linkSend hostLink (.interrupt v)
      if rest.isEmpty then s.unvote 9 29 else s

/-! ### Standby and wake (R365, R366) -/

/-- A link has nothing to send and no open tag in either direction. -/
def State.linkQuiet (s : State) (l : Nat) : Bool :=
  let x := s.link l
  x.openTags.isEmpty && x.ownReqs.isEmpty && x.vc0.isEmpty && x.vc1.isEmpty && x.vc2.isEmpty && x.replay.isEmpty
    && (l != hostLink || s.lnk.cmds.isEmpty)

/-- It has carried no data flit for idle_us. -/
def State.linkIdle (s : State) (l : Nat) : Bool :=
  s.hears l && s.linkQuiet l && s.get R.LNK_CFG_idle_us != 0 && (s.link l).idleSince + 1250 * s.get R.LNK_CFG_idle_us ≤ s.now

/-- The link enters STANDBY, its training results kept. -/
def State.enterStandby (s : State) (l : Nat) : State :=
  (s.updLink l fun x => ({ x with state := .standby, standbyAsked := false, wakeAt := none } : Link)).refreshSerdes

/-- LINK_IDLE: the idle time is over, and the module asks for STANDBY. -/
def State.idleOver (s : State) (l : Nat) : State :=
  if !s.hears l || !s.linkQuiet l || s.get R.LNK_CFG_idle_us = 0 then s
  else (s.reach ((s.link l).idleSince + 1250 * s.get R.LNK_CFG_idle_us)).updLink l fun x => { x with standbyAsked := true }

/-- The far end asks for STANDBY: answered with STANDBY_ACK where this end is idle too. -/
def State.standbyReq (s : State) (l : Nat) : State := if s.linkIdle l then s.enterStandby l else s

/-- The far end's STANDBY_ACK to this end's request. -/
def State.standbyAck (s : State) (l : Nat) : State :=
  if s.hears l && (s.link l).standbyAsked && s.linkQuiet l then s.enterStandby l else s

/-- Signal on the host lanes: source 469, training of a DOWN link with auto_up, and with the hub down in MOOR, the one state that supports the source,
a latch and a wake (R306, R366, Table 10.6). -/
def State.hostSignal (s : State) : State :=
  if s.hubUp then
    let s := s.fire 469
    if (s.link hostLink).state = .down && s.on R.LNK_CFG_auto_up then s.linkTrain hostLink else s
  else if s.pwr.mode == .moor then
    let s := s.latch 21
    if s.wakeEnabled 2 then s.wake 2 0 else s
  else s

/-- The wake ordered set on a link in STANDBY starts its way back, with source 469 on the host link (Table 9.2); on any other host link it is a
signal. -/
def State.wakeSet (s : State) (l : Nat) : State :=
  if (s.link l).state = .standby then
    let s := if l = hostLink then s.fire 469 else s
    s.updLink l fun x => x.wakes s.now
  else if l = hostLink then s.hostSignal
  else s

/-- 4 µs after the wake ordered set, the far end's or the one this end sends for a packet that waits, the link is ACTIVE. -/
def State.standbyExit (s : State) (l : Nat) : State :=
  let x := s.link l
  if x.state = .standby && (x.wakeAt.isSome || !s.linkQuiet l || (l = hostLink && !s.irq.waiting.isEmpty)
      || s.lnk.lateWait.any fun (y : Nat × Nat × Nat × Status × Nat) => y.2.1 == l) then
    let s := s.reach (x.wakeAt.getD (s.now + wakeTicks))
    ((s.updLink l fun x => { x with state := .active, standbyAsked := false, wakeAt := none, idleSince := s.now }).refreshSerdes).linkPump l
  else s

/-! ### The other commands whose meaning ends in a link or an access -/

/-- DOMAIN_RISE_COMPLETE: a tile that rises finds new coarse DC codes on its way to WARM (R46); what waited under wake-on-touch is carried out; links whose SerDes domain is up train where they are wanted (R295, R305,
R366, R367). -/
def State.riseComplete (s : State) (d : Nat) (codes : List (Nat × Nat × Int × Int)) : State :=
  if s.dom d != .rising then s
  else
    let s := s.domRisen d
    let s := if 1 ≤ d && d ≤ 8 && s.dom d == .up then s.writeCoarse (d - 1) codes else s
    let s := (if s.domRuns d then s.wotServe d else s).ctlServe
    if d = 9 && s.domUp 9 && !s.irq.waiting.isEmpty then s.linkTrain hostLink
    else if d = 10 && s.domUp 10 then forAll 4 (fun p s => if s.peerWanted p then s.linkTrain p else s) s
    else s

/-- LANE_RETRAINED (R419). -/
def execLaneRetrained (t : Fin 8) (toTile : Bool) (lane : Fin 48) (s : State) : Out := .next (s.laneBack t.val toTile lane.val).ctlServe
/-- DOMAIN_FALL_COMPLETE (R299, R303, R438). -/
def execDomainFallComplete (d : Fin 16) (s : State) : Out := .next (s.fallComplete d.val).ctlServe
/-- FLIT_RECEIVE (R345). -/
def execFlitReceive (l : Fin 5) (seq : Fin 4096) (vc : Fin 3) (f : FlitSeen) (s : State) : Out :=
  .next (s.flitReceive l.val seq.val vc.val f.crcOk f.fixed.val f.lost.val)
/-- ACK (R345). -/
def execAck (l : Fin 5) (seq : Fin 4096) (f0 f1 f2 : Fin 65536) (s : State) : Out := .next (s.ackReceive l.val seq.val (f0.val, f1.val, f2.val))
/-- NAK (R345). -/
def execNak (l : Fin 5) (seq : Fin 4096) (f0 f1 f2 : Fin 65536) (s : State) : Out := .next (s.nakReceive l.val seq.val (f0.val, f1.val, f2.val))
/-- RETRAIN_START (R346). -/
def execRetrainStart (l : Fin 5) (s : State) : Out := .next (s.retrainStart l.val)
/-- LINK_TRAINED (R347). -/
def execLinkTrained (l : Fin 5) (seen : TrainSeen) (s : State) : Out := .next (s.linkTrained l.val seen)
/-- HL_REFCLK_DETECTED (R19). -/
def execHlRefclkDetected (s : State) : Out := .next s.refclkSeen
/-- RD (R350). -/
def execRd (l : Fin 5) (p : Packet) (ecc : List (Nat × EccSeen)) (s : State) : Out := .next (s.rdReceive l.val p ecc)
/-- WR (R350). -/
def execWr (l : Fin 5) (p : Packet) (data : List Byte) (s : State) : Out := .next (s.wrReceive l.val p data)
/-- WRP (R359). -/
def execWrp (l : Fin 5) (p : Packet) (data : List Byte) (s : State) : Out := .next (s.wrpReceive l.val p data)
/-- REDRA_FENCE (R360). -/
def execRedraFence (l : Fin 5) (tag : Fin 1024) (once : Bool) (s : State) : Out := .next (s.fenceReceive l.val tag.val once)
/-- CANCEL (R358). -/
def execCancel (l : Fin 5) (tag : Fin 1024) (once : Bool) (target : Fin 65536) (tx : Bool) (landing : Fin 256) (s : State) : Out :=
  .next (s.cancelReceive l.val tag.val once target.val tx landing.val)
/-- CPL (R351). -/
def execCpl (l : Fin 5) (tag : Fin 1024) (status : Status) (s : State) : Out := .next (if s.hears l.val then s.ownEnd l.val tag.val status [] else s)
/-- CPLD (R351). -/
def execCpld (l : Fin 5) (tag : Fin 1024) (status : Status) (data : List Byte) (s : State) : Out :=
  .next (if s.hears l.val then s.ownEnd l.val tag.val status data else s)
/-- LATE_FAULT (R359). -/
def execLateFault (l : Fin 5) (s : State) : Out := .next (s.lateSend l.val)
/-- HOST_LATE_FAULT (R361). -/
def execHostLateFault (l : Fin 5) (seq : Fin 65536) (status : Status) (addr : Word) (s : State) : Out := .next (s.lateReceive l.val seq.val status addr.toNat)
/-- LNK_LND_TAIL_WRITE (R362). -/
def execLnkLndTailWrite (ini : Initiator) (n : Fin 74) (data : Word) (s : State) : Out := .next (s.regWriteBy ini (0x020B100C + 0x20 * n.val) data.toNat)
/-- LNK_LND_HEAD_WRITE (R362). -/
def execLnkLndHeadWrite (ini : Initiator) (data : Word) (s : State) : Out := .next (s.regWriteBy ini (0x020B1010 + 0x20 * 73) data.toNat)
/-- COMMAND_DESCRIPTOR_READ (R362). -/
def execCommandDescriptorRead (desc : CmdDesc) (s : State) : Out := .next (s.commandRead desc)
/-- STANDBY_REQ (R365). -/
def execStandbyReq (l : Fin 5) (s : State) : Out := .next (s.standbyReq l.val)
/-- STANDBY_ACK (R365). -/
def execStandbyAck (l : Fin 5) (s : State) : Out := .next (s.standbyAck l.val)
/-- LINK_IDLE (R365). -/
def execLinkIdle (l : Fin 5) (s : State) : Out := .next (s.idleOver l.val)
/-- WAKE_ORDERED_SET (R365). -/
def execWakeOrderedSet (l : Fin 5) (s : State) : Out := .next (s.wakeSet l.val)
/-- STANDBY_EXIT (R365). -/
def execStandbyExit (l : Fin 5) (s : State) : Out := .next (s.standbyExit l.val)
/-- HOST_LANE_SIGNAL (R366). -/
def execHostLaneSignal (s : State) : Out := .next s.hostSignal
/-- INTERRUPT (R292). -/
def execInterrupt (s : State) : Out := .next s.sendInterrupt
/-- DOMAIN_RISE_COMPLETE (R295). -/
def execDomainRiseComplete (r : RiseSeen) (s : State) : Out := .next (s.riseComplete r.d.val r.dcCodes)

end Sys2Proof.Machine
end

