-- ==== Sys2Proof/Machine/Pontoon.lean ====
section
/-! DEFINITION. Machine/Pontoon.lean: beacons between the modules of a pontoon: agreement, solo, time, claims and the loss of peers (R367 to R372). -/

namespace Sys2Proof.Machine

open Sys2Proof

/-! ### Solo reasons (R370, Table 12.10) -/

/-- Bits of PNT_STATUS.solo. -/
def soloDigest : Nat := 0
def soloVersion : Nat := 1
def soloTime : Nat := 2
def soloPrimary : Nat := 3

/-- A reason is set, with its source fired when it was not set before. -/
def State.soloSet (s : State) (k source : Nat) : State :=
  if s.bit R.PNT_STATUS_solo k then s else (s.setBit R.PNT_STATUS_solo k).fire source

/-- The primary's digest: two differing beacons in a row set DIGEST, two equal ones clear it. -/
def State.beaconDigest (s : State) (digest : Nat) : State :=
  if s.get2 R.PNT_DIGEST_digest = digest then
    let n := s.pnt.digestHit + 1
    let s := { s with pnt := { s.pnt with digestHit := n, digestMiss := 0 } }
    if 2 ≤ n then s.clrBit R.PNT_STATUS_solo soloDigest else s
  else
    let n := s.pnt.digestMiss + 1
    let s := { s with pnt := { s.pnt with digestHit := 0, digestMiss := n } }
    if 2 ≤ n then s.soloSet soloDigest 483 else s

/-- The interface generations agree: equal majors, minors at most 1 apart. -/
def generationsAgree (majorA minorA majorB minorB : Nat) : Bool := majorA == majorB && minorA ≤ minorB + 1 && minorB ≤ minorA + 1

/-- The primary's generation: a mismatch sets VERSION until the next start. -/
def State.beaconGeneration (s : State) (major minor : Nat) : State :=
  if generationsAgree (s.get R.PNT_GEN_major) (s.get R.PNT_GEN_minor) major minor then s else s.soloSet soloVersion 484

/-- The primary is heard: after a silence two beacons at consecutive boundaries clear PRIMARY. -/
def State.beaconHeard (s : State) (gap : Nat) : State :=
  let n := if 3 * cycleTicks < 2 * gap then 1 else s.pnt.beaconHit + 1
  let s := { s with pnt := { s.pnt with beaconHit := n } }
  if 2 ≤ n then s.clrBit R.PNT_STATUS_solo soloPrimary else s

/-! ### Time (R370, R371) -/

/-- The offset of a beacon goes through the filter of R176, in sixteenths of a tick, and steers mesh time as R178 says. -/
def State.beaconFilter (s : State) (o : Int) (arrival : Nat) : State :=
  let r := timeFilter s.pnt.valid s.pnt.off s.pnt.drift s.pnt.last (16 * arrival) (16 * o) (s.get R.MAC_TIME_CTRL_a) (s.get R.MAC_TIME_CTRL_b)
  let s := { s with pnt := { s.pnt with off := r.1, drift := r.2.1, last := 16 * arrival, valid := true } }
  s.parentSample r.1 r.2.1

/-- Re-alignment: a step forward by o, or −50,000 ppb until the offset is at most 16 ticks; mesh time never runs backward. -/
def State.beaconRealign (s : State) (o : Int) : State :=
  if 250 < o then { s with clk := { s.clk with stepWait := some (o.toNat, 2), realign := false } }
  else
    let on := o < -250 || (s.clk.realign && o < -16)
    let s := { s with clk := { s.clk with realign := on } }
    if on then s.setSlew (-50000) else s

/-- Checks of the offset (Table 12.10): above 250 ticks the module re-aligns, above 12,500 it goes solo too. -/
def State.beaconTime (s : State) (o : Int) (arrival : Nat) : State :=
  let s := (s.setS R.PNT_TIME_OFF_o (clampI (-2147483648) 2147483647 o)).beaconFilter o arrival
  let s := if 250 < o.natAbs then s.fire 485 else s
  let s :=
    if 12500 < o.natAbs then (({ s with pnt := { s.pnt with timeHit := 0 } }).soloSet soloTime 486)
    else if o.natAbs ≤ 250 then
      let n := s.pnt.timeHit + 1
      let s := { s with pnt := { s.pnt with timeHit := n } }
      if 2 ≤ n then s.clrBit R.PNT_STATUS_solo soloTime else s
    else { s with pnt := { s.pnt with timeHit := 0 } }
  s.beaconRealign o

/-! ### Claims (R372) -/

/-- Claims after a beacon of peer p: those it makes are renewed, those it left out of two beacons in a row are gone. -/
def claimsAfter (p : Nat) (ids : List Nat) (old : List (Nat × Nat × Nat)) : List (Nat × Nat × Nat) :=
  let others := old.filter fun (c : Nat × Nat × Nat) => c.1 != p
  let mine := old.filter fun (c : Nat × Nat × Nat) => c.1 == p && !ids.contains c.2.1 && c.2.2 = 0
  others ++ mine.map (fun (c : Nat × Nat × Nat) => (c.1, c.2.1, 1)) ++ ids.eraseDups.map fun id => (p, id, 0)

/-- Every entry whose node ID a lower-indexed peer claims is yielded. -/
def State.refreshYield (s : State) : State :=
  let yields (n : Nat) : Bool :=
    s.on (R.NBR_CFG_enabled n) && !s.isBroadcast n && s.pnt.claims.any fun (c : Nat × Nat × Nat) => c.2.1 == s.nodeId n
  forAll 2 (fun w s => s.set (R.PNT_YIELD_nbrs w) (maskOf 32 fun i => yields (32 * w + i))) s

/-! ### Beacons and silence (R368, R370) -/

/-- A BEACON from a joined peer. -/
def State.beacon (s : State) (p : Nat) (b : BeaconSeen) : State :=
  if !s.hears p || !s.peerWanted p || (s.peerState p != 2 && s.peerState p != 3) then s
  else
    let own := s.get R.HUB_ID_pontoon_index
    let gap := b.arrival - vget s.pnt.lastPeer p
    let s := (s.reach b.arrival).setPeer p 2
    let s := { s with pnt := { s.pnt with lastPeer := vset s.pnt.lastPeer p b.arrival, gens := vset s.pnt.gens p (b.major, b.minor) } }
    let s := (s.set (R.PNT_PEER_DIGEST_digest (2 * p)) b.digest).set (R.PNT_PEER_DIGEST_digest (2 * p + 1)) (b.digest / 2 ^ 32)
    let s :=
      if p = 0 then
        let o : Int := (b.time : Int) + s.get (R.PNT_DELAY_ticks 0) - b.arrival
        (((s.beaconHeard gap).beaconDigest b.digest).beaconGeneration b.major b.minor).beaconTime o b.arrival
      else s
    if p < own then ({ s with pnt := { s.pnt with claims := claimsAfter p b.claims s.pnt.claims } }).refreshYield else s

/-- Two cycles without a beacon of peer p are over; a link that is DOWN needs no such wait. -/
def State.silenceOver (s : State) (p : Nat) : State :=
  if (s.link p).state = .down then s else s.reach (vget s.pnt.lastPeer p + 2 * cycleTicks)

/-- No beacon of the primary for two cycles, or its link is DOWN: solo with reason PRIMARY; the slew holds. -/
def State.primarySilent (s : State) : State :=
  if !s.hubUp || !s.pontoonSecondary || s.bit R.PNT_STATUS_solo soloPrimary then s
  else
    let s := s.silenceOver 0
    let s := ({ s with pnt := { s.pnt with beaconHit := 0 } }).soloSet soloPrimary 487
    if (s.link 0).state = .down then s.dropOwn 0 else s

/-- A joined secondary is lost: source 487, peer LOST, and what was on its way to it ends LINK_RESET (R27, R370). -/
def State.peerLost (s : State) (p : Nat) : State :=
  if !s.hubUp || !s.peerWanted p || p = 0 || s.peerState p != 2 then s
  else
    (((s.silenceOver p).setPeer p 3).fire 487).dropOwn p

/-- BEACON (R370). -/
def execBeacon (p : Fin 4) (b : BeaconSeen) (s : State) : Out := .next (s.beacon p.val b)
/-- PRIMARY_SILENT (R370). -/
def execPrimarySilent (s : State) : Out := .next s.primarySilent
/-- PONTOON_PEER_LOST (R370). -/
def execPontoonPeerLost (p : Fin 4) (s : State) : Out := .next (s.peerLost p.val)

end Sys2Proof.Machine
end

