-- ==== Sys2Proof/Machine/Update.lean ====
section
/-! DEFINITION. Machine/Update.lean: field update and host boot: the update journal, IMAGE_BEGIN, IMAGE_BLOCK, IMAGE_COMMIT and IMAGE_STATUS, and
retries for hold-up energy (R329, R330, R401 to R409, Tables 13.10 to 13.12). -/

namespace Sys2Proof.Machine

open Sys2Proof

/-! ### The journal in block 39 (Table 13.11; log 33) -/

/-- Block 39, and its first address. -/
def journalBlock : Nat := 39
def journalBase : Nat := 0x270000

/-- The session record: magic, session number, kind, target, image size, CRC-32C of the bytes before it. -/
def sessionBytes (number kind target size : Nat) : List Byte :=
  let r := toBytes 4 0x4C4A4E55 ++ toBytes 4 number ++ toBytes 1 kind ++ toBytes 1 target ++ toBytes 2 0 ++ toBytes 4 size
  r ++ toBytes 4 (crc32c r)

/-- The commit record: magic, session number, CRC-32C of the bytes before it. -/
def commitBytes (number : Nat) : List Byte :=
  let r := toBytes 4 0x4C4A434D ++ toBytes 4 number
  r ++ toBytes 4 (crc32c r)

/-- A session as the journal shows it. -/
structure Session where
  number : Nat
  kind : Nat
  target : Nat
  size : Nat
  committed : Bool
  deriving DecidableEq, Repr

/-- The session of the journal, if its record is valid. -/
def State.session (s : State) : Option Session :=
  let r := s.flashBytes (journalBase + 256) 20
  let number := field r 4 4
  if r == sessionBytes number (field r 8 1) (field r 9 1) (field r 12 4) then
    some { number := number, kind := field r 8 1, target := field r 9 1, size := field r 12 4,
           committed := s.flashBytes (journalBase + 768) 12 == commitBytes number }
  else none

/-- The journal's manifest. -/
def State.sessionManifest (s : State) : List Byte := s.flashBytes journalBase 256

/-- Erase block j is recorded: the mark of its journal word. -/
def State.recorded (s : State) (j : Nat) : Bool := ofBytes (s.flashBytes (journalBase + 512 + 8 * j + 6) 2) == 0x5D5D

/-- Erase blocks of an image of a size, and those not recorded, as a map. -/
def blocksOf (size : Nat) : Nat := (size + 65535) / 65536
def State.missing (s : State) (size : Nat) : Nat := maskOf 32 fun j => j < blocksOf size && !s.recorded j

/-! ### Flash operations of the loader -/

/-- A bank has no operation and no sequence, and the flash domain runs: the loader can act on it. -/
def State.loaderFree (s : State) (k : Nat) : Bool := s.domRuns 13 && !s.flashBusy k && (s.fbank k).owner.isNone

/-- Some operations of the loader in a bank have ended: the status word counts them, and source 488 fires (Tables 9.2, 13.4). -/
def State.loaderOps (s : State) (k n op block : Nat) : State :=
  let s := ((s.set (R.FLC_BANK_count k) ((s.get (R.FLC_BANK_count k) + n) % 256)).set (R.FLC_BANK_op k) op).set (R.FLC_BANK_block k) (block % 64)
  (((s.set (R.FLC_BANK_fail k) 0).set (R.FLC_BANK_refused k) 0).set (R.FLC_BANK_reason k) 0).fire 488

/-- Bytes are programmed from an address on, page by page. -/
def State.loaderProgram (s : State) (a : Nat) (data : List Byte) : State :=
  (s.setBytes a data).loaderOps (bankOf a) ((data.length + 255) / 256) 1 (blockOf a)

/-- A block is erased. -/
def State.loaderErase (s : State) (block : Nat) : State := (s.applyErase block).loaderOps (block / 64) 1 2 block

/-! ### Results (Table 13.10) -/

/-- Result codes of byte 10. -/
def resOk : Nat := 0
def resManifest : Nat := 1
def resTooLarge : Nat := 2
def resIncompatible : Nat := 3
def resSession : Nat := 4
def resCrc : Nat := 5
def resOffset : Nat := 6
def resHoldup : Nat := 7
def resFlashFail : Nat := 8
def resIncomplete : Nat := 9
def resBadImage : Nat := 10
def resBadBlock : Nat := 11
def resPeer : Nat := 12

/-- The loader has acted: the command completes OK with its result and byte 11, and the loader is free. -/
def State.updDone (s : State) (result detail : Nat) : State :=
  match s.upd.cmd with
  | none => s
  | some d => ({ s with upd := { s.upd with cmd := none, retry := none } }).cmdDone d.tag .ok [result, detail]

/-- Byte i of the arguments. -/
def argByte (d : CmdDesc) (i : Nat) : Nat := (d.args.getD i 0).toNat

/-- The target byte names this module. -/
def State.targetOwn (s : State) (t : Nat) : Bool := t == 0xFF || t == s.get R.HUB_ID_pontoon_index

/-- A command for a peer is relayed to its loader, which answers with a result; PEER where the target is not joined (R407). -/
def State.relay (s : State) (t : Nat) (answer : Nat × Nat) : State :=
  if t < 4 && s.peerTrained t then s.updDone answer.1 answer.2 else s.updDone resPeer 0

/-! ### IMAGE_BEGIN (R402, R408, R409) -/

/-- Kinds taken into hub SRAM in stage ROM: the images of a host boot, or the loader of a ROM recovery (R329, R330, Table 11.4). -/
def State.romKinds (s : State) : List Nat :=
  if s.get R.HUB_BOOT_STATUS_boot_sel = 1 && s.get R.HUB_BOOT_STATUS_result ≤ 1 then [2, 3, 4] else [1]

/-- Stage ROM: images go into hub SRAM, and flash is not written. -/
def State.inRom (s : State) : Bool := s.get R.HUB_BOOT_STATUS_stage = 0

/-- The size of an image: manifest and body. -/
def imageSize (m : List Byte) : Nat := 256 + bodyLength m

/-- The lowest kind of another image in flash with which a new image of a kind is not compatible (R402 step 4). -/
def State.conflictKind (s : State) (m : List Byte) (kind : Nat) : Option Nat :=
  if kind < 2 then none else [2, 3, 4].find? fun k => k != kind && !compatible m (s.flashManifest k)

/-- The lowest joined peer whose interface generation a new hub image does not agree with (R409). -/
def State.conflictPeer (s : State) (m : List Byte) (kind : Nat) : Option Nat :=
  if kind != 3 || !s.on R.PNT_CTRL_en then none
  else (List.range 4).find? fun p =>
    s.peerState p = 2 && !generationsAgree (field m 9 1) (field m 8 1) (vget s.pnt.gens p).1 (vget s.pnt.gens p).2

/-- The region of a kind holds a block marked bad. -/
def State.regionBad (s : State) (kind : Nat) : Bool :=
  (List.range ((imageRoom kind + 65535) / 65536)).any fun j => s.markedBad (imageBase kind / 65536 + j)

/-- What a BEGIN finds wrong, in the order of R402; none for nothing. -/
def State.beginFault (s : State) (m : List Byte) : Option (Nat × Nat) :=
  let kind := field m 4 1
  let n := s.manifestCheck m [1, 2, 3, 4]
  if n != 0 then some (resManifest, n)
  else if !zeros m 12 4 then some (resManifest, 0)
  else if imageRoom kind < imageSize m then some (resTooLarge, 0)
  else if s.regionBad kind then some (resBadBlock, 0)
  else if (match s.session with | some x => !x.committed && x.kind != kind | none => false) then some (resSession, 0)
  else
    match s.conflictKind m kind, s.conflictPeer m kind with
    | some k, _ => some (resIncompatible, k)
    | none, some p => some (resIncompatible, 8 + p)
    | none, none => none

/-- The loader hands a kind 1 command to the mailbox of H30 (R408; log 30). -/
def State.handKeel (s : State) : State :=
  { s.mboxDeliver 30 (28, (List.range 4).map fun i => Config.handOver (s.freeCtr + i), 0) with freeCtr := s.freeCtr + 4 }

/-- A kind 1 command can be handed over. -/
def State.keelReady (s : State) (kind : Nat) : Bool := kind != 1 || (s.eng 30).mbox.length < mboxBerths

/-- A BEGIN for this module, in stages SLIPWAY and RUN: it resumes the open session with the same manifest, or erases the journal and writes manifest
and session record. -/
def State.beginFlash (s : State) (m : List Byte) (target : Nat) : State :=
  let kind := field m 4 1
  match s.beginFault m with
  | some e => s.updDone e.1 e.2
  | none =>
    let s := if kind = 1 then s.handKeel else s
    let same := match s.session with
      | some x => !x.committed && s.sessionManifest == m
      | none => false
    if same then s.updDone resOk 0
    else
      let h := s.holdupFor 0 (flashCost 2)
      if !h.2 then h.1.updDone resHoldup 0
      else
        let number := match s.session with
          | some x => (x.number + 1) % 2 ^ 32
          | none => 1
        let s := (h.1.loaderErase journalBlock).loaderProgram journalBase m
        let s := s.loaderProgram (journalBase + 256) (sessionBytes number kind target (imageSize m))
        ({ s with upd := { s.upd with chunks := [] } }).updDone resOk 0

/-- A BEGIN in stage ROM. -/
def State.beginRam (s : State) (m : List Byte) : State :=
  let n := s.manifestCheck m s.romKinds
  if n != 0 then s.updDone resManifest n
  else if !zeros m 12 4 then s.updDone resManifest 0
  else if imageRoom (field m 4 1) < imageSize m then s.updDone resTooLarge 0
  else
    match s.upd.ram with
    | some old =>
      if old == m then s.updDone resOk 0
      else if field old 4 1 != field m 4 1 then s.updDone resSession 0
      else ({ s with upd := { s.upd with ram := some m, chunks := [] } }).updDone resOk 0
    | none => ({ s with upd := { s.upd with ram := some m, chunks := [] } }).updDone resOk 0

/-- IMAGE_BEGIN with the manifest read from its buffer; relayed is a peer's answer. -/
def State.imageBegin (s : State) (m : List Byte) (relayed : Nat × Nat) : State :=
  match s.upd.cmd with
  | none => s
  | some d =>
    if !s.hubUp || d.opcode != 0x40 || m.length != 256 then s
    else if !s.targetOwn (argByte d 0) then s.relay (argByte d 0) relayed
    else if s.inRom then s.beginRam m
    else if !s.loaderFree 0 || !s.keelReady (field m 4 1) then s
    else s.beginFlash m (argByte d 0)

/-! ### IMAGE_BLOCK (R403) -/

/-- Offsets of the chunks of erase block j of an image of a size. -/
def chunkOffsets (j size : Nat) : List Nat :=
  ((List.range 16).map fun m => 65536 * j + 4096 * m).filter fun o => o < size

/-- Every chunk of some offsets has arrived. -/
def State.staged (s : State) (offs : List Nat) : Bool := offs.all fun o => s.upd.chunks.any fun (c : Nat × List Byte) => c.1 == o

/-- The bytes of chunks at some offsets, in that order. -/
def State.stagedBytes (s : State) (offs : List Nat) : List Byte :=
  offs.flatMap fun o => match s.upd.chunks.find? fun (c : Nat × List Byte) => c.1 == o with
    | some c => c.2
    | none => []

/-- The staged chunks of erase block j are dropped. -/
def State.unstage (s : State) (j : Nat) : State :=
  { s with upd := { s.upd with chunks := s.upd.chunks.filter fun (c : Nat × List Byte) => c.1 / 65536 != j } }

/-- The block as it is written: the image's bytes, and what follows them erased; in block 0 the root-key data stay (R403, R408). -/
def State.blockBytes (s : State) (kind j size : Nat) : List Byte :=
  let data := s.stagedBytes (chunkOffsets j size)
  if kind = 1 then
    let keys := s.flashBytes 0x8000 0x8000
    data ++ List.replicate (0x8000 - data.length) 0xFF#8 ++ keys
  else data ++ List.replicate (65536 - data.length) 0xFF#8

/-- Energy of an erase block's write: the erase; for block 0 an erase and 256 programs (R408). -/
def blockCost (kind : Nat) : Nat := if kind = 1 then flashCost 2 + 256 * flashCost 1 else flashCost 2

/-- Erase block j is written: refused for hold-up it waits to be tried again, and after 1 s is reported; a verify that fails twice discards its
chunks; else its journal word follows, and source 492 (R403). fails counts the verifies that failed. -/
def State.writeBlock (s : State) (x : Session) (j fails : Nat) : State :=
  let block := imageBase x.kind / 65536 + j
  let h := s.holdupFor (block / 64) (blockCost x.kind)
  if !h.2 then
    let tries := match s.upd.retry with
      | some r => r.2 + 1
      | none => 1
    if 100 < tries then ((h.1.unstage j).updDone resHoldup 0)
    else { h.1 with upd := { h.1.upd with retry := some (j, tries) } }
  else
    let s := h.1
    let data := s.blockBytes x.kind j x.size
    if 2 ≤ fails then
      let s := s.loaderErase block
      let s := { s with flc := { s.flc with undef := (2, block) :: s.flc.undef } }
      (s.unstage j).updDone resFlashFail 0
    else
      let used := if x.kind = 1 then data else s.stagedBytes (chunkOffsets j x.size)
      let s := (s.loaderErase block).loaderProgram (65536 * block) used
      let word := toBytes 4 (crc32c data) ++ toBytes 2 block ++ toBytes 2 0x5D5D
      let s := s.loaderProgram (journalBase + 512 + 8 * j) word
      ((s.unstage j).fire 492).updDone resOk 0

/-- A chunk is staged; the erase block it completes is written. -/
def State.blockFlash (s : State) (d : CmdDesc) (data : List Byte) (fails : Nat) : State :=
  match s.session with
  | none => s.updDone resSession 0
  | some x =>
    let off := ofBytes (d.args.take 4)
    let j := off / 65536
    if x.committed then s.updDone resSession 0
    else if off % 4096 != 0 || x.size < off + d.len || (d.len != 4096 && off + d.len != x.size) || d.len = 0 then s.updDone resOffset 0
    else if crc32c data != ofBytes ((d.args.drop 4).take 4) then s.updDone resCrc 0
    else if s.recorded j then s.updDone resOk 0
    else
      let s := if x.kind = 1 then s.handKeel else s
      let s := { s with upd := { s.upd with chunks := s.upd.chunks.filter (fun (c : Nat × List Byte) => c.1 != off) ++ [(off, data)] } }
      if s.staged (chunkOffsets j x.size) then s.writeBlock x j fails else s.updDone resOk 0

/-- A chunk of an image that goes into hub SRAM. -/
def State.blockRam (s : State) (d : CmdDesc) (data : List Byte) : State :=
  match s.upd.ram with
  | none => s.updDone resSession 0
  | some m =>
    let off := ofBytes (d.args.take 4)
    if off % 4096 != 0 || imageSize m < off + d.len || (d.len != 4096 && off + d.len != imageSize m) || d.len = 0 then s.updDone resOffset 0
    else if crc32c data != ofBytes ((d.args.drop 4).take 4) then s.updDone resCrc 0
    else
      ({ s with upd := { s.upd with
        chunks := s.upd.chunks.filter (fun (c : Nat × List Byte) => c.1 != off) ++ [(off, data)] } }).updDone resOk 0

/-- The bank that a chunk's erase block lies in can take the loader's operations. -/
def State.blockFree (s : State) (off : Nat) : Bool :=
  match s.session with
  | some x => s.loaderFree 0 && s.loaderFree ((imageBase x.kind + off) / 0x400000) && s.keelReady x.kind
  | none => s.domRuns 13

/-- IMAGE_BLOCK with the bytes read from its buffer. -/
def State.imageBlock (s : State) (data : List Byte) (fails : Nat) (relayed : Nat × Nat) : State :=
  match s.upd.cmd with
  | none => s
  | some d =>
    if !s.hubUp || d.opcode != 0x41 || s.upd.retry.isSome || data.length != d.len then s
    else if !s.targetOwn (argByte d 8) then s.relay (argByte d 8) relayed
    else if s.inRom then s.blockRam d data
    else if !s.blockFree (ofBytes (d.args.take 4)) then s
    else s.blockFlash d data fails

/-- 10 ms later an erase block that waits for hold-up energy is tried again. -/
def State.holdupRetry (s : State) (fails : Nat) : State :=
  match s.upd.retry, s.session with
  | some (j, _), some x =>
    if !s.hubUp || !s.blockFree (65536 * j) then s else s.writeBlock x j fails
  | _, _ => s

/-! ### IMAGE_COMMIT (R404) -/

/-- The image in flash is checked whole, and the commit record written. -/
def State.commitFlash (s : State) (bad : List (Nat × Nat)) : State :=
  match s.session with
  | none => s.updDone resSession 0
  | some x =>
    let s' := bad.foldl (fun s (w : Nat × Nat) => s.flashUncorrectable w.1 w.2 false 5 28) s
    if x.committed then s.updDone resSession 0
    else if s.missing x.size != 0 then s.updDone resIncomplete 0
    else if !s.flashImageOk x.kind bad then s'.updDone resBadImage 0
    else
      match s.conflictKind (s.flashManifest x.kind) x.kind with
      | some k => s'.updDone resIncompatible k
      | none =>
        let h := s'.holdupFor 0 (flashCost 1)
        if !h.2 then h.1.updDone resHoldup 0
        else
          let s := if x.kind = 1 then h.1.handKeel else h.1
          ((s.loaderProgram (journalBase + 768) (commitBytes x.number)).fire 492).updDone resOk 0

/-- An image that a host boot has taken, and its manifest. -/
def State.ramImage (s : State) (kind : Nat) : List Byte :=
  match s.upd.images.find? fun (i : Nat × List Byte) => i.1 == kind with
  | some i => i.2
  | none => []
def State.ramManifest (s : State) (kind : Nat) : List Byte := (s.ramImage kind).take 256

/-- Every two of the images taken are compatible. -/
def State.ramAgree (s : State) : Bool :=
  [2, 3, 4].all fun a => [2, 3, 4].all fun b => compatible (s.ramManifest a) (s.ramManifest b)

/-- With all three images in place a host boot goes on with steps 5 to 7, and a second READY follows (R329). -/
def State.hostBoot (s : State) (bad : List (Nat × Nat)) : State :=
  let s := s.bootRun (s.calRowOk bad) (s.ramImage 2) (s.ramImage 3)
  (s.linkSend hostLink (.ready s.readyBody)).bootRecord

/-- An image in hub SRAM is checked whole: one of a host boot is taken, the loader of a ROM recovery starts on H28 (R329, Table 11.4). -/
def State.commitRam (s : State) (bad : List (Nat × Nat)) : State :=
  match s.upd.ram with
  | none => s.updDone resSession 0
  | some m =>
    let kind := field m 4 1
    let offs := (List.range (blocksOf (imageSize m))).flatMap fun j => chunkOffsets j (imageSize m)
    let image := s.stagedBytes offs
    if !s.staged offs then s.updDone resIncomplete 0
    else if image.take 256 != m || s.imageCheck m (image.drop 256) kind != 0 then s.updDone resBadImage 0
    else
      let taken := { s with upd := { s.upd with
        ram := none, chunks := [], images := s.upd.images.filter (fun (i : Nat × List Byte) => i.1 != kind) ++ [(kind, image)] } }
      if kind = 1 then (taken.updDone resOk 0).slipway (s.get R.HUB_BOOT_STATUS_result) (image.drop 256)
      else if !([2, 3, 4].all fun k => taken.upd.images.any fun (i : Nat × List Byte) => i.1 == k) then taken.updDone resOk 0
      else if taken.ramAgree then (taken.updDone resOk 0).hostBoot bad
      else s.updDone resIncompatible (match [2, 3, 4].find? fun k => k != kind && !compatible m (s.ramManifest k) with | some k => k | none => 0)

/-- IMAGE_COMMIT; bad are words of flash that its reads find uncorrectable. -/
def State.imageCommit (s : State) (bad : List (Nat × Nat)) (relayed : Nat × Nat) : State :=
  match s.upd.cmd with
  | none => s
  | some d =>
    if !s.hubUp || d.opcode != 0x42 then s
    else if !s.targetOwn (argByte d 0) then s.relay (argByte d 0) relayed
    else if s.inRom then s.commitRam bad
    else if !s.loaderFree 0 || !s.keelReady (match s.session with | some x => x.kind | none => 0) then s
    else s.commitFlash bad

/-! ### IMAGE_STATUS (R405, Table 13.12) -/

/-- The record of the session. -/
def State.statusRecord (s : State) : List Byte :=
  match s.session with
  | some x =>
    toBytes 1 x.kind ++ toBytes 1 (if x.committed then 2 else 1) ++ toBytes 2 x.target ++ toBytes 4 x.size ++ toBytes 4 (s.missing x.size)
      ++ toBytes 4 x.number
  | none => List.replicate 16 0#8

/-- The record of a session into hub SRAM: it has no journal and no number. -/
def State.ramRecord (s : State) : List Byte :=
  match s.upd.ram with
  | some m =>
    let size := imageSize m
    let miss := maskOf 32 fun j => j < blocksOf size && !s.staged (chunkOffsets j size)
    toBytes 1 (field m 4 1) ++ toBytes 1 1 ++ toBytes 2 0xFF ++ toBytes 4 size ++ toBytes 4 miss ++ toBytes 4 0
  | none => List.replicate 16 0#8

/-- IMAGE_STATUS: the record goes to the command's buffer; a peer's comes over the mirror window. -/
def State.imageStatus (s : State) (relayed : List Byte) : State :=
  match s.upd.cmd with
  | none => s
  | some d =>
    if !s.hubUp || d.opcode != 0x43 then s
    else if !s.targetOwn (argByte d 0) then
      if argByte d 0 < 4 && s.peerTrained (argByte d 0) then (s.hostWrite d.buf ((relayed ++ List.replicate 16 0#8).take 16)).updDone resOk 0
      else s.updDone resPeer 0
    else if s.inRom then (s.hostWrite d.buf s.ramRecord).updDone resOk 0
    else if !s.domRuns 13 then s
    else (s.hostWrite d.buf s.statusRecord).updDone resOk 0

/-- IMAGE_BEGIN (R402). -/
def execImageBegin (manifest : List Byte) (relayed : Nat × Nat) (s : State) : Out := .next (s.imageBegin manifest relayed)
/-- IMAGE_BLOCK (R403). -/
def execImageBlock (data : List Byte) (fails : Nat) (relayed : Nat × Nat) (s : State) : Out := .next (s.imageBlock data fails relayed)
/-- HOLDUP_RETRY (R403). -/
def execHoldupRetry (fails : Nat) (s : State) : Out := .next (s.holdupRetry fails)
/-- IMAGE_COMMIT (R404). -/
def execImageCommit (bad : List (Nat × Nat)) (relayed : Nat × Nat) (s : State) : Out := .next (s.imageCommit bad relayed)
/-- IMAGE_STATUS (R405). -/
def execImageStatus (relayed : List Byte) (s : State) : Out := .next (s.imageStatus relayed)

end Sys2Proof.Machine
end

