-- ==== Sys2Proof/Machine/Tick.lean ====
section
/-! DEFINITION. Machine/Tick.lean: what passes while no command waits: one cycle of the hub, or one crystal edge of the keeper (R20, R21, R178, R266,
R311, R316; log 34). -/

namespace Sys2Proof.Machine

open Sys2Proof

/-- Mesh time advances by one hub cycle: 1 tick, or 4 in DOZE (R20); where the slew has gathered a tick, that tick is added or withheld (R178). -/
def State.advance (s : State) : State :=
  let n := s.cycleLength
  let s := { s with clk := { s.clk with slewAcc := s.clk.slewAcc + s.clk.slew * n } }
  ({ s with clk := { s.clk with mesh := ((s.clk.mesh : Int) + n + s.slewDue).toNat } }).slewSettle

/-- One cycle of a die's fabric: the events that are due reach every consumer at once: flags, selects, imports and pins, then every stitch cell acts on
them, and so do the timers (R262, R266, R270). A stopped fabric stands (R274). -/
def State.fabricCycle (s : State) (d : Nat) : State :=
  if !s.fabricRuns d then s
  else
    let due (x : Nat × Nat × Nat) : Bool := x.1 == d && x.2.2 == 0
    let ws := ((s.yrn.flying.filter due).map fun (x : Nat × Nat × Nat) => x.2.1).eraseDups
    let s := { s with yrn := { s.yrn with flying := s.yrn.flying.filter fun x => !due x } }
    let s := if d = 0 then s.gpCycle else s
    let s := ws.foldl (fun s w => s.yarnFlags d w) s
    let s := forAll (cellCount d) (fun n s' => s.cellStep d ws n s') s
    if ws.isEmpty then s else (timersOf d).foldl (fun s r => s.tmrYarns ws r) s

/-- One cycle of the fabrics and of the general check-value units (R259, R266, R268). -/
def State.fabricsCycle (s : State) : State :=
  let s := forAll 9 (fun d s => s.fabricCycle d) s.importsDue
  { s.ageYarns with sys := { s.sys with crcLeft := s.sys.crcLeft.map fun n => n - 1 } }

/-- What each cycle of the hub counts: the cycle, 4 for a slowed one, the codewords in the queue, and the domains that are up (Table 14.8). -/
def State.cycleCounts (s : State) : State :=
  let s := (s.pmcAt 0x001 0 s.cycleLength none).pmcAt 0x066 0 s.phy.queue.length none
  forAll 15 (fun d s => if s.domUp d then s.pmc 0x120 d else s) s

/-- One cycle of the hub's clock outside the engines. -/
def State.hubCycle (s : State) : State := s.fabricsCycle.cycleCounts.advance

/-- Parts per billion by which the keeper's increment differs from the one measured: the last slew, less vigil_bias in VIGIL, less 50 ppm while it is
to lose time (R311, R316). -/
def State.keeperPpb (s : State) : Int :=
  s.clk.slew - (if s.inVigil then 1000 * (s.get R.AON_KEEP_CFG_vigil_bias : Int) else 0) - (if s.clk.keeperSlow = 0 then 0 else 50000)

/-- One crystal edge: the keeper adds its increment in 32.32 fixed point (R21). -/
def State.keeperEdge (s : State) : State :=
  let step := (s.clk.incr + quotient (s.clk.incr * s.keeperPpb) 1000000000).toNat
  let sum := s.clk.frac + step
  let s := s.crystalEdge
  { s with clk := { s.clk with mesh := s.clk.mesh + sum / 2 ^ 32, frac := sum % 2 ^ 32 } }

/-- What an idle step does: a cycle of the hub, an edge of the keeper, or nothing in OFF. -/
def State.tick (s : State) : State :=
  match s.clk.holder with
  | .hub => s.hubCycle
  | .keeper => s.keeperEdge
  | .stopped => s

/-- The filter of a cell is to settle: its cell runs, and F stands behind S (R270 step 4). -/
def State.filterWaits (s : State) (k : Nat) : Bool :=
  s.fabricRuns (cellDie k) && s.on (R.YRN_CELL_CTRL_en k) && 2 ≤ s.cellFilt k && s.on (R.YRN_CELL_STAT_s k) != s.on (R.YRN_CELL_STAT_level k)

/-- Cycles pass, at most n, until F of a cell has taken S. -/
def State.filterCycles (k : Nat) : Nat → State → State
  | 0, s => s
  | n + 1, s => if s.filterWaits k then State.filterCycles k n s.hubCycle else s

/-- STITCH_FILTER_SETTLE (R270): the cycles pass that S must still hold, 16 at most. -/
def execStitchFilterSettle (k : Fin 96) (s : State) : Out := .next (State.filterCycles k.val 16 s)

end Sys2Proof.Machine
end

