-- ==== Sys2Proof/Machine/Dispatch.lean ====
section
/-! DEFINITION. Machine/Dispatch.lean: one arm per command, each a direct call of the command's meaning. -/

namespace Sys2Proof.Machine

open Sys2Proof

def exec (i : Instr) (s : State) : Host.Outcome State Fault Refusal :=
  match i with
  | .registerWrite ini posted addr size data => Sys2Proof.Machine.execRegisterWrite ini posted addr size data s
  | .laneFail t toTile lane => Sys2Proof.Machine.execLaneFail t toTile lane s
  | .rxFrameLanding n descs => Sys2Proof.Machine.execRxFrameLanding n descs s
  | .hlRefclkDetected => Sys2Proof.Machine.execHlRefclkDetected s
  | .keeperCalibration count => Sys2Proof.Machine.execKeeperCalibration count s
  | .windowBoundary dcCodes => Sys2Proof.Machine.execWindowBoundary dcCodes s
  | .cycleBoundary => Sys2Proof.Machine.execCycleBoundary s
  | .hubFuncModeWrite ini data => Sys2Proof.Machine.execHubFuncModeWrite ini data s
  | .hubGcommitWrite ini data => Sys2Proof.Machine.execHubGcommitWrite ini data s
  | .rxOvl r => Sys2Proof.Machine.execRxOvl r s
  | .adcSaturation e => Sys2Proof.Machine.execAdcSaturation e s
  | .loLock t synB => Sys2Proof.Machine.execLoLock t synB s
  | .rfChanWrite ini data => Sys2Proof.Machine.execRfChanWrite ini data s
  | .loUnlock t synB => Sys2Proof.Machine.execLoUnlock t synB s
  | .fragmentWrite ini t sw k data => Sys2Proof.Machine.execFragmentWrite ini t sw k data s
  | .directoryWrite ini sw w data => Sys2Proof.Machine.execDirectoryWrite ini sw w data s
  | .tileCommit ini t data => Sys2Proof.Machine.execTileCommit ini t data s
  | .bfCommit ini data => Sys2Proof.Machine.execBfCommit ini data s
  | .preload ini data => Sys2Proof.Machine.execPreload ini data s
  | .preloadReport t c => Sys2Proof.Machine.execPreloadReport t c s
  | .swapRequest ini data => Sys2Proof.Machine.execSwapRequest ini data s
  | .armCutoff slot => Sys2Proof.Machine.execArmCutoff slot s
  | .bankSwap slot => Sys2Proof.Machine.execBankSwap slot s
  | .captureArm ini data => Sys2Proof.Machine.execCaptureArm ini data s
  | .captureTick samples => Sys2Proof.Machine.execCaptureTick samples s
  | .captureDone => Sys2Proof.Machine.execCaptureDone s
  | .tensionTrigger t byTemp => Sys2Proof.Machine.execTensionTrigger t byTemp s
  | .tensionGo ini data => Sys2Proof.Machine.execTensionGo ini data s
  | .tensionComplete t couplings seams => Sys2Proof.Machine.execTensionComplete t couplings seams s
  | .tensionTimeout t => Sys2Proof.Machine.execTensionTimeout t s
  | .blockBoundary obs => Sys2Proof.Machine.execBlockBoundary obs s
  | .leadDetect slot m => Sys2Proof.Machine.execLeadDetect slot m s
  | .leadMiss slot => Sys2Proof.Machine.execLeadMiss slot s
  | .headerDecode slot bytes => Sys2Proof.Machine.execHeaderDecode slot bytes s
  | .decoderStart d => Sys2Proof.Machine.execDecoderStart d s
  | .codewordDecoded d iters bits => Sys2Proof.Machine.execCodewordDecoded d iters bits s
  | .txLeadStart slot => Sys2Proof.Machine.execTxLeadStart slot s
  | .codewordEncoded enc => Sys2Proof.Machine.execCodewordEncoded enc s
  | .txUnderrun slot => Sys2Proof.Machine.execTxUnderrun slot s
  | .blockEqualised slot b => Sys2Proof.Machine.execBlockEqualised slot b s
  | .phySoftBeamsWrite ini data => Sys2Proof.Machine.execPhySoftBeamsWrite ini data s
  | .xngCommit ini data => Sys2Proof.Machine.execXngCommit ini data s
  | .xngEnable ini data => Sys2Proof.Machine.execXngEnable ini data s
  | .crossingFetch => Sys2Proof.Machine.execCrossingFetch s
  | .tileWarmCommand w => Sys2Proof.Machine.execTileWarmCommand w s
  | .turnCommand slot => Sys2Proof.Machine.execTurnCommand slot s
  | .crossingStart slot => Sys2Proof.Machine.execCrossingStart slot s
  | .readinessCheck slot cxGnt => Sys2Proof.Machine.execReadinessCheck slot cxGnt s
  | .voteScan x => Sys2Proof.Machine.execVoteScan x s
  | .crossingEnd slot cxGnt => Sys2Proof.Machine.execCrossingEnd slot cxGnt s
  | .xngPushPtrWrite ini data => Sys2Proof.Machine.execXngPushPtrWrite ini data s
  | .pushEntryRead => Sys2Proof.Machine.execPushEntryRead s
  | .txDescriptorRead n desc => Sys2Proof.Machine.execTxDescriptorRead n desc s
  | .ackDeadline n => Sys2Proof.Machine.execAckDeadline n s
  | .horizonExpiry n tag => Sys2Proof.Machine.execHorizonExpiry n tag s
  | .condReplyDecision slot => Sys2Proof.Machine.execCondReplyDecision slot s
  | .parentSilent => Sys2Proof.Machine.execParentSilent s
  | .timeStep => Sys2Proof.Machine.execTimeStep s
  | .macNbrCommit ini data => Sys2Proof.Machine.execMacNbrCommit ini data s
  | .neighbourCopy n => Sys2Proof.Machine.execNeighbourCopy n s
  | .mfs g d a b arg => Sys2Proof.Machine.execMfs g d a b arg s
  | .mts g d a b arg => Sys2Proof.Machine.execMts g d a b arg s
  | .add g d a b u => Sys2Proof.Machine.execAdd g d a b u s
  | .sub g d a b u => Sys2Proof.Machine.execSub g d a b u s
  | .and g d a b u => Sys2Proof.Machine.execAnd g d a b u s
  | .or g d a b u => Sys2Proof.Machine.execOr g d a b u s
  | .xor g d a b u => Sys2Proof.Machine.execXor g d a b u s
  | .shl g d a b u => Sys2Proof.Machine.execShl g d a b u s
  | .shr g d a b u => Sys2Proof.Machine.execShr g d a b u s
  | .sra g d a b u => Sys2Proof.Machine.execSra g d a b u s
  | .ror g d a b u => Sys2Proof.Machine.execRor g d a b u s
  | .mul g d a b u => Sys2Proof.Machine.execMul g d a b u s
  | .mulhu g d a b u => Sys2Proof.Machine.execMulhu g d a b u s
  | .mulhs g d a b u => Sys2Proof.Machine.execMulhs g d a b u s
  | .slt g d a b u => Sys2Proof.Machine.execSlt g d a b u s
  | .sltu g d a b u => Sys2Proof.Machine.execSltu g d a b u s
  | .min g d a b u => Sys2Proof.Machine.execMin g d a b u s
  | .max g d a b u => Sys2Proof.Machine.execMax g d a b u s
  | .par g d a b u => Sys2Proof.Machine.execPar g d a b u s
  | .parb g d a b u => Sys2Proof.Machine.execParb g d a b u s
  | .brev g d a b u => Sys2Proof.Machine.execBrev g d a b u s
  | .brevb g d a b u => Sys2Proof.Machine.execBrevb g d a b u s
  | .bswap g d a b u => Sys2Proof.Machine.execBswap g d a b u s
  | .clz g d a b u => Sys2Proof.Machine.execClz g d a b u s
  | .popc g d a b u => Sys2Proof.Machine.execPopc g d a b u s
  | .vmov g d a b u => Sys2Proof.Machine.execVmov g d a b u s
  | .vsplat g d a b u => Sys2Proof.Machine.execVsplat g d a b u s
  | .vget g d a b u => Sys2Proof.Machine.execVget g d a b u s
  | .vput g d a b u => Sys2Proof.Machine.execVput g d a b u s
  | .addi g d a imm => Sys2Proof.Machine.execAddi g d a imm s
  | .slti g d a imm => Sys2Proof.Machine.execSlti g d a imm s
  | .andi g d a imm => Sys2Proof.Machine.execAndi g d a imm s
  | .ori g d a imm => Sys2Proof.Machine.execOri g d a imm s
  | .xori g d a imm => Sys2Proof.Machine.execXori g d a imm s
  | .shli g d a imm => Sys2Proof.Machine.execShli g d a imm s
  | .shri g d a imm => Sys2Proof.Machine.execShri g d a imm s
  | .srai g d a imm => Sys2Proof.Machine.execSrai g d a imm s
  | .lui g d a imm => Sys2Proof.Machine.execLui g d a imm s
  | .nop g inB d b other low => Sys2Proof.Machine.execNop g inB d b other low s
  | .sMov g inB d b other low => Sys2Proof.Machine.execSMov g inB d b other low s
  | .sMovImmZx g inB d b other low => Sys2Proof.Machine.execSMovImmZx g inB d b other low s
  | .sMovImmSx g inB d b other low => Sys2Proof.Machine.execSMovImmSx g inB d b other low s
  | .sAdd g inB d b other low => Sys2Proof.Machine.execSAdd g inB d b other low s
  | .sSub g inB d b other low => Sys2Proof.Machine.execSSub g inB d b other low s
  | .sAnd g inB d b other low => Sys2Proof.Machine.execSAnd g inB d b other low s
  | .sOr g inB d b other low => Sys2Proof.Machine.execSOr g inB d b other low s
  | .sXor g inB d b other low => Sys2Proof.Machine.execSXor g inB d b other low s
  | .sShl g inB d b other low => Sys2Proof.Machine.execSShl g inB d b other low s
  | .sShr g inB d b other low => Sys2Proof.Machine.execSShr g inB d b other low s
  | .sSra g inB d b other low => Sys2Proof.Machine.execSSra g inB d b other low s
  | .sAddImm4 g inB d b other low => Sys2Proof.Machine.execSAddImm4 g inB d b other low s
  | .sSubImm4 g inB d b other low => Sys2Proof.Machine.execSSubImm4 g inB d b other low s
  | .sShlImm4 g inB d b other low => Sys2Proof.Machine.execSShlImm4 g inB d b other low s
  | .sShrImm4 g inB d b other low => Sys2Proof.Machine.execSShrImm4 g inB d b other low s
  | .sSeq g inB d b other low => Sys2Proof.Machine.execSSeq g inB d b other low s
  | .sSne g inB d b other low => Sys2Proof.Machine.execSSne g inB d b other low s
  | .sSlt g inB d b other low => Sys2Proof.Machine.execSSlt g inB d b other low s
  | .sSltu g inB d b other low => Sys2Proof.Machine.execSSltu g inB d b other low s
  | .sMul g inB d b other low => Sys2Proof.Machine.execSMul g inB d b other low s
  | .sPar g inB d b other low => Sys2Proof.Machine.execSPar g inB d b other low s
  | .sParb g inB d b other low => Sys2Proof.Machine.execSParb g inB d b other low s
  | .sBrev g inB d b other low => Sys2Proof.Machine.execSBrev g inB d b other low s
  | .sBswap g inB d b other low => Sys2Proof.Machine.execSBswap g inB d b other low s
  | .sBrevb g inB d b other low => Sys2Proof.Machine.execSBrevb g inB d b other low s
  | .ldlB e inB d b other low => Sys2Proof.Machine.execLdlB e inB d b other low s
  | .ldlH e inB d b other low => Sys2Proof.Machine.execLdlH e inB d b other low s
  | .ldlW e inB d b other low => Sys2Proof.Machine.execLdlW e inB d b other low s
  | .stlB g inB d b other low => Sys2Proof.Machine.execStlB g inB d b other low s
  | .stlH g inB d b other low => Sys2Proof.Machine.execStlH g inB d b other low s
  | .stlW g inB d b other low => Sys2Proof.Machine.execStlW g inB d b other low s
  | .ld g d a dev size off ecc => Sys2Proof.Machine.execLd g d a dev size off ecc s
  | .lds g d a dev size off ecc => Sys2Proof.Machine.execLds g d a dev size off ecc s
  | .st g d a dev size off => Sys2Proof.Machine.execSt g d a dev size off s
  | .vld g d a dev size off ecc => Sys2Proof.Machine.execVld g d a dev size off ecc s
  | .vst g d a dev size off => Sys2Proof.Machine.execVst g d a dev size off s
  | .deviceCompletion g ecc => Sys2Proof.Machine.execDeviceCompletion g ecc s
  | .fence g d a b arg => Sys2Proof.Machine.execFence g d a b arg s
  | .stp g d a dev size off => Sys2Proof.Machine.execStp g d a dev size off s
  | .postedFault g => Sys2Proof.Machine.execPostedFault g s
  | .beq g a b off => Sys2Proof.Machine.execBeq g a b off s
  | .bne g a b off => Sys2Proof.Machine.execBne g a b off s
  | .blt g a b off => Sys2Proof.Machine.execBlt g a b off s
  | .bge g a b off => Sys2Proof.Machine.execBge g a b off s
  | .bltu g a b off => Sys2Proof.Machine.execBltu g a b off s
  | .bgeu g a b off => Sys2Proof.Machine.execBgeu g a b off s
  | .j g a b off => Sys2Proof.Machine.execJ g a b off s
  | .jr g a b off => Sys2Proof.Machine.execJr g a b off s
  | .rssave g d a b arg => Sys2Proof.Machine.execRssave g d a b arg s
  | .rsload e d a b arg => Sys2Proof.Machine.execRsload e d a b arg s
  | .call g a b off => Sys2Proof.Machine.execCall g a b off s
  | .callr g a b off => Sys2Proof.Machine.execCallr g a b off s
  | .ret g a b off => Sys2Proof.Machine.execRet g a b off s
  | .loop g a b off => Sys2Proof.Machine.execLoop g a b off s
  | .setmode g d a b arg => Sys2Proof.Machine.execSetmode g d a b arg s
  | .timedOverrun g => Sys2Proof.Machine.execTimedOverrun g s
  | .crcB g d a b u => Sys2Proof.Machine.execCrcB g d a b u s
  | .crcH g d a b u => Sys2Proof.Machine.execCrcH g d a b u s
  | .crcW g d a b u => Sys2Proof.Machine.execCrcW g d a b u s
  | .sCrcB g inB d b other low => Sys2Proof.Machine.execSCrcB g inB d b other low s
  | .sCrcH g inB d b other low => Sys2Proof.Machine.execSCrcH g inB d b other low s
  | .sCrcW g inB d b other low => Sys2Proof.Machine.execSCrcW g inB d b other low s
  | .hadd g d a b u => Sys2Proof.Machine.execHadd g d a b u s
  | .hsub g d a b u => Sys2Proof.Machine.execHsub g d a b u s
  | .hmul g d a b u => Sys2Proof.Machine.execHmul g d a b u s
  | .cmul g d a b u => Sys2Proof.Machine.execCmul g d a b u s
  | .cfma g d a b u => Sys2Proof.Machine.execCfma g d a b u s
  | .cvtq g d a b u => Sys2Proof.Machine.execCvtq g d a b u s
  | .cvth g d a b u => Sys2Proof.Machine.execCvth g d a b u s
  | .gather e d a b func => Sys2Proof.Machine.execGather e d a b func s
  | .msend g d a b arg => Sys2Proof.Machine.execMsend g d a b arg s
  | .mrecv g d a b arg => Sys2Proof.Machine.execMrecv g d a b arg s
  | .mtime g d a b arg => Sys2Proof.Machine.execMtime g d a b arg s
  | .eret g d a b arg => Sys2Proof.Machine.execEret g d a b arg s
  | .brk g d a b arg => Sys2Proof.Machine.execBrk g d a b arg s
  | .sysc g d a b arg => Sys2Proof.Machine.execSysc g d a b arg s
  | .wfi g d a b arg => Sys2Proof.Machine.execWfi g d a b arg s
  | .wfiWake g => Sys2Proof.Machine.execWfiWake g s
  | .interruptTaken g => Sys2Proof.Machine.execInterruptTaken g s
  | .engineRun ini g data => Sys2Proof.Machine.execEngineRun ini g data s
  | .engineHalt ini g data => Sys2Proof.Machine.execEngineHalt ini g data s
  | .engLmDataAccess ini g data => Sys2Proof.Machine.execEngLmDataAccess ini g data s
  | .keelVoteWrite ini data => Sys2Proof.Machine.execKeelVoteWrite ini data s
  | .vcoreLoss => Sys2Proof.Machine.execVcoreLoss s
  | .pipeEntry rx slot => Sys2Proof.Machine.execPipeEntry rx slot s
  | .tagVerified p => Sys2Proof.Machine.execTagVerified p s
  | .keySlotApply => Sys2Proof.Machine.execKeySlotApply s
  | .secKeyLoad ini data => Sys2Proof.Machine.execSecKeyLoad ini data s
  | .secKeyErase ini data => Sys2Proof.Machine.execSecKeyErase ini data s
  | .secKeyBadOp ini data => Sys2Proof.Machine.execSecKeyBadOp ini data s
  | .entropyBit b => Sys2Proof.Machine.execEntropyBit b s
  | .rngRestart ini data => Sys2Proof.Machine.execRngRestart ini data s
  | .rngDataRead ini => Sys2Proof.Machine.execRngDataRead ini s
  | .otpProgram ini data => Sys2Proof.Machine.execOtpProgram ini data s
  | .otpProgramDone miss => Sys2Proof.Machine.execOtpProgramDone miss s
  | .bellKeyWrite ini k data => Sys2Proof.Machine.execBellKeyWrite ini k data s
  | .crcFeedB ini u data => Sys2Proof.Machine.execCrcFeedB ini u data s
  | .crcFeedH ini u data => Sys2Proof.Machine.execCrcFeedH ini u data s
  | .crcFeedW ini u data => Sys2Proof.Machine.execCrcFeedW ini u data s
  | .crcStateWrite ini u data => Sys2Proof.Machine.execCrcStateWrite ini u data s
  | .crcCfgWrite ini u data => Sys2Proof.Machine.execCrcCfgWrite ini u data s
  | .yarnImportDelivery toHub k => Sys2Proof.Machine.execYarnImportDelivery toHub k s
  | .yrnFire ini f w data => Sys2Proof.Machine.execYrnFire ini f w data s
  | .stitchFilterSettle k => Sys2Proof.Machine.execStitchFilterSettle k s
  | .yrnCellCtrlWrite ini k data => Sys2Proof.Machine.execYrnCellCtrlWrite ini k data s
  | .gpInputEdge g level => Sys2Proof.Machine.execGpInputEdge g level s
  | .gpPulseEnd g => Sys2Proof.Machine.execGpPulseEnd g s
  | .timerNoclk r => Sys2Proof.Machine.execTimerNoclk r s
  | .timerEnable ini r data => Sys2Proof.Machine.execTimerEnable ini r data s
  | .timerWrap r => Sys2Proof.Machine.execTimerWrap r s
  | .timerMatch r => Sys2Proof.Machine.execTimerMatch r s
  | .timerCountedEdge r => Sys2Proof.Machine.execTimerCountedEdge r s
  | .timerTrigger r => Sys2Proof.Machine.execTimerTrigger r s
  | .timerCapture r => Sys2Proof.Machine.execTimerCapture r s
  | .timerCapRead ini r => Sys2Proof.Machine.execTimerCapRead ini r s
  | .timerDisable ini r data => Sys2Proof.Machine.execTimerDisable ini r data s
  | .wideAlarm m => Sys2Proof.Machine.execWideAlarm m s
  | .tsInEdge => Sys2Proof.Machine.execTsInEdge s
  | .tsiRead ini => Sys2Proof.Machine.execTsiRead ini s
  | .tsOutPulse => Sys2Proof.Machine.execTsOutPulse s
  | .tsOutPulseEnd => Sys2Proof.Machine.execTsOutPulseEnd s
  | .wakeNFall => Sys2Proof.Machine.execWakeNFall s
  | .pntSyncEdge => Sys2Proof.Machine.execPntSyncEdge s
  | .irqSet ini data => Sys2Proof.Machine.execIrqSet ini data s
  | .irqDelivery => Sys2Proof.Machine.execIrqDelivery s
  | .irqEoi ini data => Sys2Proof.Machine.execIrqEoi ini data s
  | .irqPendClear ini w data => Sys2Proof.Machine.execIrqPendClear ini w data s
  | .interrupt => Sys2Proof.Machine.execInterrupt s
  | .holdoffEnd g => Sys2Proof.Machine.execHoldoffEnd g s
  | .domainRiseComplete r => Sys2Proof.Machine.execDomainRiseComplete r s
  | .pwrVoteSet ini d data => Sys2Proof.Machine.execPwrVoteSet ini d data s
  | .pwrVoteClr ini d data => Sys2Proof.Machine.execPwrVoteClr ini d data s
  | .lingerEnd d => Sys2Proof.Machine.execLingerEnd d s
  | .rfRailOff => Sys2Proof.Machine.execRfRailOff s
  | .timetableWake => Sys2Proof.Machine.execTimetableWake s
  | .pwrForceOffWrite ini data => Sys2Proof.Machine.execPwrForceOffWrite ini data s
  | .pwrClkGateWrite ini data => Sys2Proof.Machine.execPwrClkGateWrite ini data s
  | .wotTimeout d => Sys2Proof.Machine.execWotTimeout d s
  | .wakeSourceEdge rise fall => Sys2Proof.Machine.execWakeSourceEdge rise fall s
  | .aonTimer => Sys2Proof.Machine.execAonTimer s
  | .enterOff => Sys2Proof.Machine.execEnterOff s
  | .wkRxEnable ini data => Sys2Proof.Machine.execWkRxEnable ini data s
  | .sniff r energy => Sys2Proof.Machine.execSniff r energy s
  | .detectTimeout r => Sys2Proof.Machine.execDetectTimeout r s
  | .bellReceived r bell syncBefore => Sys2Proof.Machine.execBellReceived r bell syncBefore s
  | .wakeNPulseEnd => Sys2Proof.Machine.execWakeNPulseEnd s
  | .keeperSlewEnd => Sys2Proof.Machine.execKeeperSlewEnd s
  | .bellRawRead ini => Sys2Proof.Machine.execBellRawRead ini s
  | .bellTxRequest ini data => Sys2Proof.Machine.execBellTxRequest ini data s
  | .bellTxStart cxGnt => Sys2Proof.Machine.execBellTxStart cxGnt s
  | .bellTxEnd => Sys2Proof.Machine.execBellTxEnd s
  | .coexRequest slot => Sys2Proof.Machine.execCoexRequest slot s
  | .cxiReqRise pri => Sys2Proof.Machine.execCxiReqRise pri s
  | .cxiReqFall => Sys2Proof.Machine.execCxiReqFall s
  | .tcxoReady => Sys2Proof.Machine.execTcxoReady s
  | .pllLock seen => Sys2Proof.Machine.execPllLock seen s
  | .crystalStable => Sys2Proof.Machine.execCrystalStable s
  | .crystalTimeout => Sys2Proof.Machine.execCrystalTimeout s
  | .pwrGoodDrop k => Sys2Proof.Machine.execPwrGoodDrop k s
  | .railFailure k => Sys2Proof.Machine.execRailFailure k s
  | .railRetry => Sys2Proof.Machine.execRailRetry s
  | .bootTimeout => Sys2Proof.Machine.execBootTimeout s
  | .por pntId => Sys2Proof.Machine.execPor pntId s
  | .pinReset => Sys2Proof.Machine.execPinReset s
  | .warmReset ini => Sys2Proof.Machine.execWarmReset ini s
  | .resetCmdNone ini target => Sys2Proof.Machine.execResetCmdNone ini target s
  | .wdogKick ini data => Sys2Proof.Machine.execWdogKick ini data s
  | .wdogWarning => Sys2Proof.Machine.execWdogWarning s
  | .wdogExpiry => Sys2Proof.Machine.execWdogExpiry s
  | .tileReset ini target => Sys2Proof.Machine.execTileReset ini target s
  | .tileResetRelease t => Sys2Proof.Machine.execTileResetRelease t s
  | .engineReset ini target => Sys2Proof.Machine.execEngineReset ini target s
  | .flitReceive l seq vc f => Sys2Proof.Machine.execFlitReceive l seq vc f s
  | .ack l seq f0 f1 f2 => Sys2Proof.Machine.execAck l seq f0 f1 f2 s
  | .nak l seq f0 f1 f2 => Sys2Proof.Machine.execNak l seq f0 f1 f2 s
  | .retrainStart l => Sys2Proof.Machine.execRetrainStart l s
  | .linkTrained l seen => Sys2Proof.Machine.execLinkTrained l seen s
  | .rd l p ecc => Sys2Proof.Machine.execRd l p ecc s
  | .wr l p data => Sys2Proof.Machine.execWr l p data s
  | .cpl l tag status => Sys2Proof.Machine.execCpl l tag status s
  | .cpld l tag status data => Sys2Proof.Machine.execCpld l tag status data s
  | .cancel l tag once target tx landing => Sys2Proof.Machine.execCancel l tag once target tx landing s
  | .wrp l p data => Sys2Proof.Machine.execWrp l p data s
  | .lateFault l => Sys2Proof.Machine.execLateFault l s
  | .redraFence l tag once => Sys2Proof.Machine.execRedraFence l tag once s
  | .hostLateFault l seq status addr => Sys2Proof.Machine.execHostLateFault l seq status addr s
  | .lnkLndTailWrite ini n data => Sys2Proof.Machine.execLnkLndTailWrite ini n data s
  | .lnkLndHeadWrite ini data => Sys2Proof.Machine.execLnkLndHeadWrite ini data s
  | .commandDescriptorRead desc => Sys2Proof.Machine.execCommandDescriptorRead desc s
  | .completionEntryWrite => Sys2Proof.Machine.execCompletionEntryWrite s
  | .standbyReq l => Sys2Proof.Machine.execStandbyReq l s
  | .standbyAck l => Sys2Proof.Machine.execStandbyAck l s
  | .linkIdle l => Sys2Proof.Machine.execLinkIdle l s
  | .wakeOrderedSet l => Sys2Proof.Machine.execWakeOrderedSet l s
  | .standbyExit l => Sys2Proof.Machine.execStandbyExit l s
  | .hostLaneSignal => Sys2Proof.Machine.execHostLaneSignal s
  | .beacon p b => Sys2Proof.Machine.execBeacon p b s
  | .primarySilent => Sys2Proof.Machine.execPrimarySilent s
  | .pontoonPeerLost p => Sys2Proof.Machine.execPontoonPeerLost p s
  | .flashRead ini addr size ecc => Sys2Proof.Machine.execFlashRead ini addr size ecc s
  | .flashUnlock1 ini posted k => Sys2Proof.Machine.execFlashUnlock1 ini posted k s
  | .flashUnlock2 ini posted k => Sys2Proof.Machine.execFlashUnlock2 ini posted k s
  | .sequenceTimeout k => Sys2Proof.Machine.execSequenceTimeout k s
  | .pageProgram ini posted k block => Sys2Proof.Machine.execPageProgram ini posted k block s
  | .blockErase ini posted k block => Sys2Proof.Machine.execBlockErase ini posted k block s
  | .flashStatus ini posted k => Sys2Proof.Machine.execFlashStatus ini posted k s
  | .flashExit ini posted k => Sys2Proof.Machine.execFlashExit ini posted k s
  | .flashReset ini posted k => Sys2Proof.Machine.execFlashReset ini posted k s
  | .pageBufferWrite ini posted addr data => Sys2Proof.Machine.execPageBufferWrite ini posted addr data s
  | .flashOpDone k fail unc => Sys2Proof.Machine.execFlashOpDone k fail unc s
  | .flashStrayWrite ini posted addr data => Sys2Proof.Machine.execFlashStrayWrite ini posted addr data s
  | .holdupCompare code => Sys2Proof.Machine.execHoldupCompare code s
  | .spareFill ini n data => Sys2Proof.Machine.execSpareFill ini n data s
  | .imageBegin manifest relayed => Sys2Proof.Machine.execImageBegin manifest relayed s
  | .imageBlock data fails relayed => Sys2Proof.Machine.execImageBlock data fails relayed s
  | .holdupRetry fails => Sys2Proof.Machine.execHoldupRetry fails s
  | .imageCommit bad relayed => Sys2Proof.Machine.execImageCommit bad relayed s
  | .imageStatus relayed => Sys2Proof.Machine.execImageStatus relayed s
  | .errUnitClear ini u data => Sys2Proof.Machine.execErrUnitClear ini u data s
  | .unitResetEnd u => Sys2Proof.Machine.execUnitResetEnd u s
  | .laneRetrained t toTile lane => Sys2Proof.Machine.execLaneRetrained t toTile lane s
  | .scrubWord m ecc => Sys2Proof.Machine.execScrubWord m ecc s
  | .flashScrub seen => Sys2Proof.Machine.execFlashScrub seen s
  | .blackBoxClear ini data => Sys2Proof.Machine.execBlackBoxClear ini data s
  | .pmcOverflow k a => Sys2Proof.Machine.execPmcOverflow k a s
  | .pmcSnapshot ini data => Sys2Proof.Machine.execPmcSnapshot ini data s
  | .markerSample g a word suppressed => Sys2Proof.Machine.execMarkerSample g a word suppressed s
  | .pwrGoodRise k => Sys2Proof.Machine.execPwrGoodRise k s
  | .domainFallComplete d => Sys2Proof.Machine.execDomainFallComplete d s
  | .enableLowHoldEnd k => Sys2Proof.Machine.execEnableLowHoldEnd k s
  | .tempSample sensor temp => Sys2Proof.Machine.execTempSample sensor temp s
  | .thermalRecovery => Sys2Proof.Machine.execThermalRecovery s
  | .thermNLow => Sys2Proof.Machine.execThermNLow s
  | .mgmtWrite ini data => Sys2Proof.Machine.execMgmtWrite ini data s
  | .mgmtRead ini data => Sys2Proof.Machine.execMgmtRead ini data s
  | .mgmtDone nack rdata => Sys2Proof.Machine.execMgmtDone nack rdata s
  | .mgmtTimeout => Sys2Proof.Machine.execMgmtTimeout s
  | .hubReady => Sys2Proof.Machine.execHubReady s

end Sys2Proof.Machine
end

