-- ==== Sys2Proof/Machine/Run.lean ====
section
/-! DEFINITION. Machine/Run.lean: the engines as they run by themselves: in each cycle of the hub clock every running engine fetches and issues one
word, unless one of its operands or the CRC unit is not ready (R185, R190 to R192, R208, R215, R220, Table 6.3; log 34). -/

namespace Sys2Proof.Machine

open Sys2Proof

/-! ### Result latency (R190, Table 6.3) -/

/-- What a word reads and writes: registers by number, vector register i as 16 + i, each written one with the cycles until its result is usable; the
cycles for which it occupies the CRC unit. -/
structure WordUse where
  reads : List Nat
  writes : List (Nat × Nat)
  crc : Nat
  deriving DecidableEq, Repr

/-- The number under which a vector register is kept. -/
def vecNo (i : Nat) : Nat := 16 + i % 4

/-- The use of a VEC word. -/
def vecUse (fn d a b : Nat) : WordUse :=
  match fn with
  | 4 => ⟨[vecNo d, vecNo a, vecNo b], [(vecNo d, 4)], 0⟩
  | 5 => ⟨[vecNo a], [(vecNo d, 2)], 0⟩
  | 6 => ⟨[vecNo a], [(vecNo d, 2)], 0⟩
  | 7 => ⟨[vecNo a], [(vecNo d, 1)], 0⟩
  | 8 => ⟨[a], [(vecNo d, 1)], 0⟩
  | 9 => ⟨[vecNo a, b], [(d, 1)], 0⟩
  | 10 => ⟨[vecNo d, a, b], [(vecNo d, 1)], 0⟩
  | _ => ⟨[vecNo a, vecNo b], [(vecNo d, 3)], 0⟩

/-- The use of a SYS word. -/
def sysUse (fn d a b : Nat) : WordUse :=
  match fn with
  | 0 => ⟨[], [(d, 1)], 0⟩
  | 1 => ⟨[a], [], 0⟩
  | 2 => ⟨[], [(d, 2), (d + 1, 2)], 0⟩
  | 3 => ⟨[a], [], 0⟩
  | 4 => ⟨[a], [], 0⟩
  | 5 => ⟨[vecNo a, b], [], 0⟩
  | 6 => ⟨[], [(vecNo d, 1)], 0⟩
  | _ => ⟨[], [], 0⟩

/-- The use of a long word (Table 6.3). -/
def longUse (w : Nat) : WordUse :=
  let d := bits w 24 21
  let a := bits w 20 17
  let b := bits w 16 13
  let fn := w % 32
  let opc := bits w 30 25
  if opc = 0 then ⟨[a, b], [(d, if 9 ≤ fn && fn ≤ 11 then 3 else 1)], 0⟩
  else if opc = 1 then
    if fn < 7 then ⟨[a], [(d, 1)], 0⟩ else ⟨[a, b], [(d, 2 ^ (fn - 7))], 2 ^ (fn - 7)⟩
  else if opc = 2 then vecUse fn d a b
  else if opc = 3 then ⟨[a, vecNo b], [(vecNo d, 6)], 0⟩
  else if opc = 4 then sysUse fn d a b
  else if opc < 0x10 then ⟨[a], [(d, 1)], 0⟩
  else if opc = 0x10 then ⟨[], [(d, 1)], 0⟩
  else if opc < 0x1A then ⟨[a], [(d, 2)], 0⟩
  else if opc < 0x1C then ⟨[a, d], [], 0⟩
  else if opc = 0x1C then ⟨[a], [(vecNo d, 3)], 0⟩
  else if opc = 0x1D then ⟨[a, vecNo d], [], 0⟩
  else if opc < 0x26 then ⟨[d, a], [], 0⟩
  else if opc = 0x28 || opc = 0x29 || opc = 0x2B then ⟨[d], [], 0⟩
  else ⟨[], [], 0⟩

/-- The use of a short operation. -/
def ShortOp.use (o : ShortOp) : WordUse :=
  let lat := if o.opc = 6 then 3 else if o.isCrc then 2 ^ o.sub else if o.opc = 9 then 2 else 1
  ⟨o.reads, o.writes.map fun d => (d, lat), if o.isCrc then 2 ^ o.sub else 0⟩

/-- The use of a word; w0 is always ready. -/
def wordUse (w : Nat) : WordUse :=
  if w.testBit 31 then
    let a := (ShortOp.ofBits (bits w 30 16)).use
    let b := (ShortOp.ofBits (bits w 15 1)).use
    ⟨a.reads ++ b.reads, a.writes ++ b.writes, a.crc + b.crc⟩
  else longUse w

/-- One cycle nearer: results that become usable are let go. -/
def Engine.age (x : Engine) : Engine :=
  { x with results := (x.results.map fun (r : Nat × Nat) => (r.1, r.2 - 1)).filter fun (r : Nat × Nat) => r.2 != 0, crcLeft := x.crcLeft - 1 }

/-- The word must wait for an operand. -/
def Engine.lacks (x : Engine) (u : WordUse) : Bool := u.reads.any fun i => i != 0 && x.results.any fun (r : Nat × Nat) => r.1 == i

/-- The word must wait for the CRC unit. -/
def Engine.crcHeld (x : Engine) (u : WordUse) : Bool := u.crc != 0 && x.crcLeft != 0

/-- A word that has retired leaves its results on their way. -/
def Engine.issued (x : Engine) (u : WordUse) : Engine :=
  { x with results := x.results.filter (fun (r : Nat × Nat) => !u.writes.any fun (q : Nat × Nat) => q.1 == r.1) ++ u.writes, crcLeft := max x.crcLeft u.crc }

/-- The cycle counts for what the engine's word waits for: a device access, the mailbox, or an event in WFI (Table 14.8). -/
def State.waitCount (s : State) (g : Nat) : State :=
  match (s.eng g).wait with
  | some (.mrecv _) => s.pmc 0x014 g
  | some (.msend _ _) => s.pmc 0x014 g
  | some .wfi => s.pmc 0x015 g
  | some _ => s.pmc 0x013 g
  | none => s

/-! ### Fetch and issue -/

/-- The word at the engine's pc (R185). -/
def State.fetched (s : State) (g : Nat) : Nat := s.lmRead g (s.eng g).r.pc 4

/-- The engine issues the word it fetches: a reserved encoding is ILLEGAL (R192), an uncorrectable error FETCH_FAULT (R198). What the decoders show is
not given by the specification (log 148). -/
def State.runWord (s : State) (g : Fin 96) : State :=
  let seen := Config.lmSeen s.freeCtr
  let s := { s with freeCtr := s.freeCtr + 1 }
  let w := s.fetched g.val
  let illegal := s.engIssue g.val .plain (w.testBit 31) (fun r => .fault (EFault.plain exIllegal) r) (seen := seen)
  if (s.fetchFault g.val seen).isSome then illegal
  else
    match decodeEngine g (BitVec.ofNat 32 w) seen with
    | none => illegal
    | some c =>
      match exec c s with
      | .next t => t
      | _ => s

/-- One cycle of engine g: a waiting word looks whether it may go on, an exception that is due is taken, and a word whose operands are ready is issued
(R190, R208, R215, R220). -/
def State.engCycle (s : State) (ticks : Nat) (g : Fin 96) : State :=
  let i := g.val
  if !s.engPowered i then s
  else
    let s := (s.updEng i Engine.age).timedCount i ticks
    let s := if (s.eng i).r.timed then s.pmc 0x018 i else s
    match (s.eng i).wait with
    | some (.mrecv _) => (s.mrecvWake i).waitCount i
    | some (.msend _ _) => (s.msendWake i).waitCount i
    | some .wfi => (s.wfiWake i).waitCount i
    | some _ => s.waitCount i
    | none =>
      if (s.eng i).state != .running then s
      else
        let s := s.engBoundary i
        if !s.engReady i then s
        else if (s.eng i).atBoundary && (s.boundaryCause i).isSome then s.takeBoundary i
        else
          let u := wordUse (s.fetched i)
          if (s.eng i).lacks u then s.pmc 0x012 i
          else if (s.eng i).crcHeld u then s
          else
            let t := s.runWord g
            if (t.eng i).state == .running && (t.eng i).r.exc == (s.eng i).r.exc then t.updEng i fun x => x.issued u else t

/-- Every engine runs for one cycle of the hub clock. -/
def State.engines (s : State) : State :=
  if s.clk.holder = .hub then
    let ticks := s.cycleLength
    (List.range 96).foldl (fun s g => if h : g < 96 then s.engCycle ticks ⟨g, h⟩ else s) s
  else s

end Sys2Proof.Machine
end

