-- ==== Sys2Proof/Machine/Forms.lean ====
section
/-! DEFINITION. Machine/Forms.lean: the canonical forms of memory, register file and poisoned words. -/

namespace Sys2Proof.Machine

open Sys2Proof

/-- The numbers of a list rise strictly. -/
def rising : List Nat → Bool
  | [] => true
  | [_] => true
  | a :: b :: rest => a < b && rising (b :: rest)

/-- Memory, the register file and the list of poisoned words stand in their canonical forms, so that equal contents are equal data. -/
def State.canonical (s : State) : Bool := Memory.wf s.mem && RegFile.sorted s.regs && rising s.poison

end Sys2Proof.Machine
end

