-- ==== Sys2Proof/Safety.lean ====
section
/-! DEFINITION. Safety.lean: what a safe state and a safe step are, and the terms in which the claims speak of them. -/

namespace Sys2Proof.Machine

open Sys2Proof

/-! ### States and steps -/

/-- Command c goes on from s, to a state of which p holds. -/
def Leads (s : State) (c : Instr) (p : State → Prop) : Prop := ∃ t : State, exec c s = .next t ∧ p t

/-- Source n of the interrupt controller is pending (R290). -/
def State.pends (s : State) (n : Nat) : Bool := s.bit (R.IRQ_PEND_pend (n / 32)) (n % 32)

/-- The memory of the device map and the engines' local memories are as before. -/
def sameBytes (s t : State) : Prop := ∀ a : Nat, t.byte a = s.byte a

/-- Every register field is as before, but for the rows named. -/
def sameFields (rows : List Nat) (s t : State) : Prop := ∀ f : Field, f.row ∉ rows → t.get f = s.get f

/-- The rows of the performance counters, and IRQ_PEND, which their overflow sets (R430). -/
def counterRows : List Nat :=
  [(R.PMC_CNT_count 0).row, R.PMC_OVF_ovf.row, (R.PMC_OVF_PC_valid 0).row, (R.PMC_OVF_PC_engine 0).row, (R.PMC_OVF_PC_pc 0).row,
   R.PMC_CTRL_freeze.row, (R.IRQ_PEND_pend 0).row]

/-! ### Register accesses -/

/-- No control lane that an access by ini to a, or its answer, has to cross retrains (R15, R419). -/
def State.lanesFree (s : State) (ini : Initiator) (a : Nat) : Prop := s.ctlBlocked ini a false = false ∧ s.ctlBlocked ini a true = false

/-- A 32-bit access of a register, with the value v where it writes, is open to its initiator now: the hub is up, the register is not the keel's
unless the initiator is, the domain of its window runs, and the control lanes on its way are there (R223, R225, R304, R419). -/
def State.opens (s : State) (ini : Initiator) (isWrite : Bool) (a v : Nat) : Prop :=
  s.hubUp = true ∧ (isKeel ini = true ∨ keelOwned isWrite a 4 v = false) ∧ (∀ d : Nat, windowDomain a = some d → s.domRuns d = true) ∧ s.lanesFree ini a

/-- Command c is answered at once with status st, and leads to a state of which p holds. -/
def Answers (s : State) (c : Instr) (st : Status) (p : State → Prop) : Prop := Leads s c fun t => t.resp.status = st ∧ p t

/-- The n bytes at a lie in hub SRAM beyond the neighbour entries, and no poisoned word is among them. -/
def State.plainSram (s : State) (a n : Nat) : Prop := 0x1005000 ≤ a ∧ a + n ≤ 0x1C00000 ∧ 0 < n ∧ n ≤ 4096 ∧ s.poisonedIn a n = false

/-- The bytes of l stand at address a, and every other byte of memory is as before. -/
def wroteBytes (s t : State) (a : Nat) (l : List Byte) : Prop :=
  ∀ b : Nat, t.byte b = if h : a ≤ b ∧ b < a + l.length then l[b - a]'(by omega) else s.byte b

/-! ### Engines -/

/-- Engine g can issue a word of kind k now: it runs, no exception is due at the word boundary, the word may stand where it stands, and its fetch
meets no poison (R190, R198, R200, R207, R218). -/
def State.issues (s : State) (g : Nat) (k : WordKind) : Prop :=
  s.engReady g = true ∧ ((s.eng g).atBoundary = true → s.boundaryCause g = none) ∧ (s.eng g).placeFault k = none ∧ s.fetchFault g = none

/-- Engine g waits for w from now on, and nothing else changes. -/
def State.waitingOn (s : State) (g : Nat) (w : EngWait) : State := s.updEng g fun x => { x with wait := some w, state := .waiting }

/-- Engine g has issued a long branch with the given target, if it is taken: its delay slot comes next, and nothing else has changed (R199, R200). -/
def State.inSlot (s : State) (g : Nat) (target : Option Nat) (push pop leaves : Bool) : State :=
  s.updEng g fun x => { x with r := { x.r with pc := (x.r.pc + 4) % 65536 }, ctx := .delaySlot x.r.pc target push pop leaves }

/-- The word stands alone: neither in a delay slot nor in a mode-change shadow. -/
def State.alone (s : State) (g : Nat) : Prop := (s.eng g).ctx = .plain

/-- The stores of the word are not held back by a mode-change shadow (R207). -/
def State.direct (s : State) (g : Nat) : Prop := ∀ (a m n : Nat) (held : List (Nat × List Byte)), (s.eng g).ctx ≠ .shadow a m n held

/-- General register d holds v, a write to w0 being discarded (R188), and the others are as before. -/
def wroteReg (s t : State) (g d : Nat) (v : Word) : Prop :=
  ∀ k : Nat, k < 16 → (t.eng g).r.get k = if k = d ∧ d ≠ 0 then v else (s.eng g).r.get k

/-- Vector register d holds v, and the others are as before. -/
def wroteVec (s t : State) (g d : Nat) (v : Vector Word 16) : Prop :=
  ∀ k : Nat, k < 4 → (t.eng g).r.vec k = if k = d then v else (s.eng g).r.vec k

def sameRegs (s t : State) (g : Nat) : Prop := ∀ k : Nat, (t.eng g).r.get k = (s.eng g).r.get k
def sameVecs (s t : State) (g : Nat) : Prop := ∀ k : Nat, (t.eng g).r.vec k = (s.eng g).r.vec k

/-- The exception registers, the mode, the interrupt enables, FPCTRL and the scratch registers of engine g are as before. -/
def sameSpecial (s t : State) (g : Nat) : Prop :=
  let a := (s.eng g).r
  let b := (t.eng g).r
  b.mode = a.mode ∧ b.estat = a.estat ∧ b.epc = a.epc ∧ b.ecause = a.ecause ∧ b.eaddr = a.eaddr ∧ b.ien = a.ien ∧ b.fpctrl = a.fpctrl ∧ b.scr = a.scr

/-- What a word of engine g leaves outside the engine: every other engine, and every register field but the counters'. -/
def onlyEngine (s t : State) (g : Nat) : Prop := (∀ h : Nat, h % 96 ≠ g % 96 → t.eng h = s.eng h) ∧ sameFields counterRows s t

/-- The frame of a word that stores nothing: beside onlyEngine, a word that stands alone leaves all memory and the engine's exception registers. -/
def wordFrame (s t : State) (g : Nat) : Prop := onlyEngine s t g ∧ (s.alone g → sameBytes s t ∧ sameSpecial s t g)

/-- Command c lets engine g enter the exception with the given code: MODE goes to ESTAT, the address to EPC, ECAUSE and EADDR are written, MODE becomes
supervisor level with exc set, the next word is the vector's, and the general registers, all memory and the other engines are as before (R217). -/
def Enters (s : State) (c : Instr) (g code epc cause eaddr : Nat) : Prop :=
  Leads s c fun t =>
    let a := s.eng g
    let b := t.eng g
    b.r.estat = a.r.mode ∧ b.r.epc = epc ∧ b.r.ecause = cause ∧ b.r.eaddr = eaddr ∧ b.r.mode = 5 ∧ b.r.pc = (a.vbase * 1024 + 16 * code) % 65536 ∧
      b.state = .running ∧ b.wait = none ∧ b.ctx = .plain ∧ sameRegs s t g ∧ sameVecs s t g ∧ onlyEngine s t g ∧ sameBytes s t

/-- A fault may be raised by a word that engine g issues now: it stands alone, no exception is due before it, its fetch meets no poison, and no exception is
being handled. -/
def State.mayFault (s : State) (g : Nat) (k : WordKind) : Prop := s.issues g k ∧ s.alone g ∧ (s.eng g).r.exc = false

/-- Command c writes v to register d of engine g, and nothing else but the pc, the loop levels and the counters. -/
def Writes (s : State) (c : Instr) (g d : Nat) (v : Word) : Prop :=
  Leads s c fun t => wroteReg s t g d v ∧ sameVecs s t g ∧ wordFrame s t g

/-- Command c writes v to vector register d of engine g, and nothing else but the pc, the loop levels and the counters. -/
def WritesVec (s : State) (c : Instr) (g d : Nat) (v : Vector Word 16) : Prop :=
  Leads s c fun t => wroteVec s t g d v ∧ sameRegs s t g ∧ wordFrame s t g

/-- A lane-by-lane arithmetic word whose lanes come out as the given values and flags: with no enabled trap, command c writes the values to vector
register d, collects the flags in FPSTAT, and changes nothing else but the pc, the loop levels and the counters (R211). -/
def WritesLanes (s : State) (c : Instr) (g d : Nat) (lanes : Vector (Word × Nat) 16) : Prop :=
  (∀ i : Nat, i < 16 → (vget lanes i).2 &&& (s.eng g).r.fpctrl / 256 % 16 = 0) →
    Leads s c fun t => wroteVec s t g d (lanes.map fun p => p.1) ∧ sameRegs s t g ∧ wordFrame s t g ∧
      (t.eng g).r.fpstat = lanes.toList.foldl (fun m p => m ||| p.2) 0 ||| (s.eng g).r.fpstat

/-- The bytes of l stand at address a of engine g's local memory, and every other byte is as before. -/
def storedAt (s t : State) (g a : Nat) (l : List Byte) : Prop :=
  ∀ b : Nat, t.byte b = if h : lmBase g + a ≤ b ∧ b < lmBase g + a + l.length then l[b - (lmBase g + a)]'(by omega) else s.byte b

/-- Command c stores the bytes of l at local address a of engine g, and changes no register but the pc, the loop levels and the counters. -/
def Stores (s : State) (c : Instr) (g a : Nat) (l : List Byte) : Prop :=
  Leads s c fun t => storedAt s t g a l ∧ sameRegs s t g ∧ sameVecs s t g ∧ onlyEngine s t g ∧ (s.alone g → sameSpecial s t g)

/-- The short operation in the other slot of a pair word leaves room for operation o: its code is not reserved, the two do not conflict (R193), and
its own access, if it makes one, does not fault (R194, Table 6.7). -/
def State.pairs (s : State) (g : Nat) (inB : Bool) (o p : ShortOp) : Prop :=
  p.reserved = false ∧ (if inB then pairConflict p o else pairConflict o p) = false ∧ s.shortFault g p (s.eng g).r (!inB) = none

/-- The pair word c of operation o and of the operation p in its other slot writes v by o and p's value by p, both from the registers as they stood
before the word (R194), and nothing else but what a slot that stores puts into memory. -/
def PairWrites (s : State) (c : Instr) (g : Nat) (o p : ShortOp) (v : Word) : Prop :=
  Leads s c fun t =>
    (∀ k : Nat, k < 16 → (t.eng g).r.get k =
      if k ∈ o.writes then v else if k ∈ p.writes then s.shortValue g p (s.eng g).r else (s.eng g).r.get k) ∧
    sameVecs s t g ∧ onlyEngine s t g ∧ (o.opc ≠ 10 → p.opc ≠ 10 → wordFrame s t g)

/-- PairWrites, wherever the other slot leaves room. -/
def PairResult (s : State) (c : Instr) (g : Nat) (inB : Bool) (o p : ShortOp) (v : Word) : Prop :=
  s.pairs g inB o p → PairWrites s c g o p v

/-! ### Links -/

/-- Link l has no request, no forwarded write and no packet under way. -/
def State.linkClear (s : State) (l : Nat) : Prop :=
  (s.link l).ownReqs = [] ∧ (s.link l).openTags = [] ∧ (s.link l).fwdPosted = [] ∧ (s.link l).vc0 = [] ∧ (s.link l).vc1 = [] ∧ (s.link l).vc2 = []

/-- No FENCE, no CANCEL and no access under wake-on-touch waits. -/
def State.unfenced (s : State) : Prop :=
  s.lnk.fences = [] ∧ s.lnk.cancels = [] ∧ s.lnk.wot = [] ∧ ∀ g : Nat, g < 96 → (s.eng g).wait ≠ some .fence

end Sys2Proof.Machine
end

