-- ==== Sys2Proof/Certificates/Slice0/Obligations.lean ====
section
/-! DEFINITION. Certificates/Slice0/Obligations.lean: the statements for the provers. The vocabulary they share (what a command leads to, what
stays the same) is in Safety.lean and Machine/Forms.lean. -/

open Sys2Proof Sys2Proof.Machine

/-- The long ALU words of Table 6.6 write what the table says to wd, in any place where a word may stand; a write to w0 is discarded; and they
change nothing else but the pc, the loop levels and the counters. The bit words of Table 6.6, bit by bit of their results. The immediate
words of Table 6.5: ADDI and SLTI sign-extend the 17 bits, ANDI, ORI and XORI zero-extend them, a shift takes 0 to 31, LUI shifts them left
by 15. COMPLETES: under hypotheses on the state and the operands alone, exec answers a next state (exec c s = .next t for some t, which is
what Leads and Answers say) for add, sub, and, or, xor, shl, shr, sra, ror, mul, mulhu, mulhs, slt, sltu, min, max, par, parb, brev, brevb,
bswap, clz, popc, addi, slti, andi, ori, xori, shli, shri, srai, lui. -/
def Obligations.LongWords : Prop :=
  (∀ (s : State) (g : Fin 96) (d a b : Fin 16), s.issues g.val .plain →
     let x := (s.eng g.val).r.get a.val
     let y := (s.eng g.val).r.get b.val
     let n := y.toNat % 32
     Writes s (.add g d a b 0) g.val d.val (x + y) ∧
     Writes s (.sub g d a b 0) g.val d.val (x - y) ∧
     Writes s (.and g d a b 0) g.val d.val (x &&& y) ∧
     Writes s (.or g d a b 0) g.val d.val (x ||| y) ∧
     Writes s (.xor g d a b 0) g.val d.val (x ^^^ y) ∧
     Writes s (.shl g d a b 0) g.val d.val (x <<< n) ∧
     Writes s (.shr g d a b 0) g.val d.val (x >>> n) ∧
     Writes s (.sra g d a b 0) g.val d.val (x.sshiftRight n) ∧
     Writes s (.ror g d a b 0) g.val d.val (x >>> n ||| x <<< (32 - n)) ∧
     Writes s (.mul g d a b 0) g.val d.val (BitVec.ofNat 32 (x.toNat * y.toNat)) ∧
     Writes s (.mulhu g d a b 0) g.val d.val (BitVec.ofNat 32 (x.toNat * y.toNat / 2 ^ 32)) ∧
     Writes s (.mulhs g d a b 0) g.val d.val (BitVec.ofInt 32 (x.toInt * y.toInt / 2 ^ 32)) ∧
     Writes s (.slt g d a b 0) g.val d.val (if x.toInt < y.toInt then 1 else 0) ∧
     Writes s (.sltu g d a b 0) g.val d.val (if x.toNat < y.toNat then 1 else 0) ∧
     Writes s (.min g d a b 0) g.val d.val (BitVec.ofInt 32 (min x.toInt y.toInt)) ∧
     Writes s (.max g d a b 0) g.val d.val (BitVec.ofInt 32 (max x.toInt y.toInt))) ∧
  (∀ (s : State) (g : Fin 96) (d a b : Fin 16), s.issues g.val .plain →
     let x := (s.eng g.val).r.get a.val
     let odd (lo n : Nat) : Bool := ((List.range n).filter fun i => x.getLsbD (lo + i)).length % 2 == 1
     (∃ v : Word, Writes s (.par g d a b 0) g.val d.val v ∧ v = if odd 0 32 then 1 else 0) ∧
     (∃ v : Word, Writes s (.parb g d a b 0) g.val d.val v ∧ ∀ i : Nat, i < 32 → v.getLsbD i = (decide (i < 4) && odd (8 * i) 8)) ∧
     (∃ v : Word, Writes s (.brev g d a b 0) g.val d.val v ∧ ∀ i : Nat, i < 32 → v.getLsbD i = x.getLsbD (31 - i)) ∧
     (∃ v : Word, Writes s (.brevb g d a b 0) g.val d.val v ∧
       ∀ k i : Nat, k < 4 → i < 8 → v.getLsbD (8 * k + i) = x.getLsbD (8 * k + (7 - i))) ∧
     (∃ v : Word, Writes s (.bswap g d a b 0) g.val d.val v ∧
       ∀ k i : Nat, k < 4 → i < 8 → v.getLsbD (8 * k + i) = x.getLsbD (8 * (3 - k) + i)) ∧
     (∃ v : Word, Writes s (.clz g d a b 0) g.val d.val v ∧ v.toNat ≤ 32 ∧
       (∀ i : Nat, i < v.toNat → x.getLsbD (31 - i) = false) ∧ (v.toNat < 32 → x.getLsbD (31 - v.toNat) = true)) ∧
     (∃ v : Word, Writes s (.popc g d a b 0) g.val d.val v ∧ v.toNat = ((List.range 32).filter fun i => x.getLsbD i).length)) ∧
  (∀ (s : State) (g : Fin 96) (d a : Fin 16) (imm : BitVec 17), s.issues g.val .plain →
     let x := (s.eng g.val).r.get a.val
     Writes s (.addi g d a imm) g.val d.val (x + BitVec.ofInt 32 imm.toInt) ∧
     Writes s (.slti g d a imm) g.val d.val (if x.toInt < imm.toInt then 1 else 0) ∧
     Writes s (.andi g d a imm) g.val d.val (x &&& BitVec.ofNat 32 imm.toNat) ∧
     Writes s (.ori g d a imm) g.val d.val (x ||| BitVec.ofNat 32 imm.toNat) ∧
     Writes s (.xori g d a imm) g.val d.val (x ^^^ BitVec.ofNat 32 imm.toNat) ∧
     (imm.toNat < 32 →
       Writes s (.shli g d a imm) g.val d.val (x <<< imm.toNat) ∧
       Writes s (.shri g d a imm) g.val d.val (x >>> imm.toNat) ∧
       Writes s (.srai g d a imm) g.val d.val (x.sshiftRight imm.toNat)) ∧
     Writes s (.lui g d 0 imm) g.val d.val (BitVec.ofNat 32 (imm.toNat * 32768)))

/-- The short moves, arithmetic, logic, shifts and compares of Table 6.7 in slot A or B, beside any operation in the other slot that does not
conflict with them: both slots read their operands before either writes (R194). The short multiply, bit and CRC operations of Table 6.7,
beside any operation in the other slot that does not conflict; a NOP writes nothing and needs its other fields zero. The short loads and
stores of Table 6.7 on local memory: LDL zero-extends 1, 2 or 4 bytes at the address in s, STL stores the low bytes of s at the address in
d; aligned, in range, and where a load or a narrow store meets no poisoned word (R195, R198). CRC.B, CRC.H and CRC.W advance the check value
in wa by the low one, two or four bytes of wb, low byte first, with the polynomial that ENG_CRCSEL selects (R209). Where the spec is silent
it follows the model's choice of log 47. COMPLETES: under hypotheses on the state and the operands alone, exec answers a next state (exec c
s = .next t for some t, which is what Leads and Answers say) for nop, sMov, sMovImmZx, sMovImmSx, sAdd, sSub, sAnd, sOr, sXor, sShl, sShr,
sSra, sAddImm4, sSubImm4, sShlImm4, sShrImm4, sSeq, sSne, sSlt, sSltu, sMul, sPar, sParb, sBrev, sBswap, sBrevb, ldlB, ldlH, ldlW, stlB,
stlH, stlW, crcB, crcH, crcW, sCrcB, sCrcH, sCrcW. -/
def Obligations.ShortAndCrcWords : Prop :=
  (∀ (s : State) (g : Fin 96) (inB : Bool) (d b : Fin 16) (other : BitVec 15), s.issues g.val .plain →
     let r := (s.eng g.val).r
     let x := r.get d.val
     let y := r.get b.val
     let n := y.toNat % 32
     let p := ShortOp.ofBits other.toNat
     PairResult s (.sMov g inB d b other false) g.val inB ⟨1, d.val, b.val, 0⟩ p (y) ∧
     PairResult s (.sMovImmZx g inB d b other false) g.val inB ⟨1, d.val, b.val, 1⟩ p (BitVec.ofNat 32 b.val) ∧
     PairResult s (.sMovImmSx g inB d b other false) g.val inB ⟨1, d.val, b.val, 2⟩ p (BitVec.ofInt 32 (if b.val < 8 then b.val else b.val - 16 : Int)) ∧
     PairResult s (.sAdd g inB d b other false) g.val inB ⟨2, d.val, b.val, 0⟩ p (x + y) ∧
     PairResult s (.sSub g inB d b other false) g.val inB ⟨2, d.val, b.val, 1⟩ p (x - y) ∧
     PairResult s (.sAnd g inB d b other false) g.val inB ⟨2, d.val, b.val, 2⟩ p (x &&& y) ∧
     PairResult s (.sOr g inB d b other false) g.val inB ⟨2, d.val, b.val, 3⟩ p (x ||| y) ∧
     PairResult s (.sXor g inB d b other false) g.val inB ⟨3, d.val, b.val, 0⟩ p (x ^^^ y) ∧
     PairResult s (.sShl g inB d b other false) g.val inB ⟨3, d.val, b.val, 1⟩ p (x <<< n) ∧
     PairResult s (.sShr g inB d b other false) g.val inB ⟨3, d.val, b.val, 2⟩ p (x >>> n) ∧
     PairResult s (.sSra g inB d b other false) g.val inB ⟨3, d.val, b.val, 3⟩ p (x.sshiftRight n) ∧
     PairResult s (.sAddImm4 g inB d b other false) g.val inB ⟨4, d.val, b.val, 0⟩ p (x + BitVec.ofNat 32 b.val) ∧
     PairResult s (.sSubImm4 g inB d b other false) g.val inB ⟨4, d.val, b.val, 1⟩ p (x - BitVec.ofNat 32 b.val) ∧
     PairResult s (.sShlImm4 g inB d b other false) g.val inB ⟨4, d.val, b.val, 2⟩ p (x <<< b.val) ∧
     PairResult s (.sShrImm4 g inB d b other false) g.val inB ⟨4, d.val, b.val, 3⟩ p (x >>> b.val) ∧
     PairResult s (.sSeq g inB d b other false) g.val inB ⟨5, d.val, b.val, 0⟩ p (if x = y then 1 else 0) ∧
     PairResult s (.sSne g inB d b other false) g.val inB ⟨5, d.val, b.val, 1⟩ p (if x = y then 0 else 1) ∧
     PairResult s (.sSlt g inB d b other false) g.val inB ⟨5, d.val, b.val, 2⟩ p (if x.toInt < y.toInt then 1 else 0) ∧
     PairResult s (.sSltu g inB d b other false) g.val inB ⟨5, d.val, b.val, 3⟩ p (if x.toNat < y.toNat then 1 else 0)) ∧
  (∀ (s : State) (g : Fin 96) (inB : Bool) (d b : Fin 16) (other : BitVec 15), s.issues g.val .plain →
     let r := (s.eng g.val).r
     let x := r.get d.val
     let y := r.get b.val
     let p := ShortOp.ofBits other.toNat
     PairResult s (.sMul g inB d b other false) g.val inB ⟨6, d.val, b.val, 0⟩ p (BitVec.ofNat 32 (x.toNat * y.toNat)) ∧
     PairResult s (.sPar g inB d b other false) g.val inB ⟨7, d.val, b.val, 0⟩ p (wPar y) ∧
     PairResult s (.sParb g inB d b other false) g.val inB ⟨7, d.val, b.val, 1⟩ p (wParb y) ∧
     PairResult s (.sBrev g inB d b other false) g.val inB ⟨7, d.val, b.val, 2⟩ p (wBrev y) ∧
     PairResult s (.sBswap g inB d b other false) g.val inB ⟨7, d.val, b.val, 3⟩ p (wBswap y) ∧
     PairResult s (.sCrcB g inB d b other false) g.val inB ⟨8, d.val, b.val, 0⟩ p (r.crc 1 x y) ∧
     PairResult s (.sCrcH g inB d b other false) g.val inB ⟨8, d.val, b.val, 1⟩ p (r.crc 2 x y) ∧
     PairResult s (.sCrcW g inB d b other false) g.val inB ⟨8, d.val, b.val, 2⟩ p (r.crc 4 x y) ∧
     PairResult s (.sBrevb g inB d b other false) g.val inB ⟨8, d.val, b.val, 3⟩ p (wBrevb y) ∧
     PairResult s (.nop g inB 0 0 other false) g.val inB ⟨0, 0, 0, 0⟩ p 0) ∧
  (∀ (s : State) (g : Fin 96) (inB : Bool) (d b : Fin 16) (other : BitVec 15) (sub : Nat), s.issues g.val .plain → sub < 3 →
     let r := (s.eng g.val).r
     let p := ShortOp.ofBits other.toNat
     let ldl : Instr := match sub with | 0 => .ldlB ⟨g, []⟩ inB d b other false | 1 => .ldlH ⟨g, []⟩ inB d b other false | _ => .ldlW ⟨g, []⟩ inB d b other false
     let stl : Instr := match sub with | 0 => .stlB g inB d b other false | 1 => .stlH g inB d b other false | _ => .stlW g inB d b other false
     let load : ShortOp := ⟨9, d.val, b.val, sub⟩
     let store : ShortOp := ⟨10, d.val, b.val, sub⟩
     (s.pairs g.val inB load p → s.localFault g.val (r.get b.val).toNat (2 ^ sub) (2 ^ sub) true = none →
       PairWrites s ldl g.val load p (BitVec.ofNat 32 (s.lmRead g.val (r.get b.val).toNat (2 ^ sub)))) ∧
     (s.pairs g.val inB store p → s.direct g.val → s.localFault g.val (r.get d.val).toNat (2 ^ sub) (2 ^ sub) false = none →
       Leads s stl fun t => storedAt s t g.val (r.get d.val).toNat (toBytes (2 ^ sub) (r.get b.val).toNat)) ∧
     (s.pairs g.val inB store p → s.localFault g.val (r.get d.val).toNat (2 ^ sub) (2 ^ sub) false = none → PairWrites s stl g.val store p 0)) ∧
  (∀ (s : State) (g : Fin 96) (d a b : Fin 16), s.issues g.val .plain →
     let r := (s.eng g.val).r
     let x := r.get a.val
     let feed (n : Nat) : Word := BitVec.ofNat 32 (crcBytes r.crcPoly r.crcPoly8 x.toNat (toBytes n (r.get b.val).toNat))
     Writes s (.crcB g d a b 0) g.val d.val (feed 1) ∧
     Writes s (.crcH g d a b 0) g.val d.val (feed 2) ∧
     Writes s (.crcW g d a b 0) g.val d.val (feed 4))

/-- VMOV copies a vector, VSPLAT fills it with wa, VGET reads lane wb mod 16, VPUT writes it, CVTH widens every fragment word (Table 6.6, R212).
HADD, HSUB, HMUL and CMUL work lane by lane on va and vb, CFMA adds the product to vd before its one rounding, CVTQ narrows every lane of
va; FPCTRL.ftz and FPCTRL.sat act on every lane, and the flags collect in FPSTAT (Table 6.6, R210 to R212). COMPLETES: under hypotheses on
the state and the operands alone, exec answers a next state (exec c s = .next t for some t, which is what Leads and Answers say) for vmov,
vsplat, vget, vput, hadd, hsub, hmul, cmul, cfma, cvtq, cvth. -/
def Obligations.VectorWords : Prop :=
  (∀ (s : State) (g : Fin 96) (d a b : Fin 16), s.issues g.val .plain →
     let r := (s.eng g.val).r
     let lane := (r.get b.val).toNat % 16
     (d.val < 4 → a.val < 4 → WritesVec s (.vmov g d a b 0) g.val d.val (r.vec a.val)) ∧
     (d.val < 4 → WritesVec s (.vsplat g d a b 0) g.val d.val (Vector.replicate 16 (r.get a.val))) ∧
     (a.val < 4 → Writes s (.vget g d a b 0) g.val d.val (vget (r.vec a.val) lane)) ∧
     (d.val < 4 → WritesVec s (.vput g d a b 0) g.val d.val (vset (r.vec d.val) lane (r.get a.val))) ∧
     (d.val < 4 → a.val < 4 → WritesVec s (.cvth g d a b 0) g.val d.val ((r.vec a.val).map laneFromQ))) ∧
  (∀ (s : State) (g : Fin 96) (d a b : Fin 16), s.issues g.val .plain → d.val < 4 → a.val < 4 →
     let r := (s.eng g.val).r
     let va := r.vec a.val
     let vb := r.vec b.val
     let ftz := r.fpctrl.testBit 0
     let sat := r.fpctrl.testBit 1
     let each (f : Word → Word → Word × Nat) : Vector (Word × Nat) 16 := Vector.ofFn fun (i : Fin 16) => f va[i] vb[i]
     (b.val < 4 → WritesLanes s (.hadd g d a b 0) g.val d.val (each (laneAdd ftz sat))) ∧
     (b.val < 4 → WritesLanes s (.hsub g d a b 0) g.val d.val (each (laneSub ftz sat))) ∧
     (b.val < 4 → WritesLanes s (.hmul g d a b 0) g.val d.val (each (laneMul ftz sat))) ∧
     (b.val < 4 → WritesLanes s (.cmul g d a b 0) g.val d.val (each (laneCmul ftz sat none))) ∧
     (b.val < 4 → WritesLanes s (.cfma g d a b 0) g.val d.val
       (Vector.ofFn fun (i : Fin 16) => laneCmul ftz sat (some (r.vec d.val)[i]) va[i] vb[i])) ∧
     WritesLanes s (.cvtq g d a b 0) g.val d.val (va.map (laneToQ ftz)))

/-- Every 12-bit fragment component comes back from binary16 unchanged and without a flag, with FPCTRL.ftz 0: CVTH is exact (R212). -/
def Obligations.FragmentRoundTrip : Prop :=
  ∀ (v : Nat), v < 4096 → toQ false (fromQ v) = (v, 0)

/-- LD and LDS read 1, 2 or 4 bytes of local memory at wa plus the signed offset, zero- or sign-extended, VLD reads sixteen words, low byte
first (R195); a word that the decoder corrects is delivered corrected (R421). ST stores the low bytes of wd at wa plus the signed offset,
VST the sixteen lanes of vd, low byte first, lane 0 at the lowest address; every other byte of memory and every register but the pc, the
loop levels and the counters is as before (R195). A GATHER from local memory loads every lane that ENG_GDONE does not mark, from wa plus
that lane of vb, keeps the marked lanes, and leaves ENG_GDONE zero (R213, R214). COMPLETES: under hypotheses on the state and the operands
alone, exec answers a next state (exec c s = .next t for some t, which is what Leads and Answers say) for ld, lds, st, vld, vst, gather. -/
def Obligations.LocalMemoryWords : Prop :=
  (∀ (s : State) (g : Fin 96) (d a : Fin 16) (size : Fin 4) (off : BitVec 14) (line syn : Nat) (gd : Bool), s.issues g.val .plain →
     let r := (s.eng g.val).r
     let addr := (r.get a.val + BitVec.ofInt 32 off.toInt).toNat
     let n := 2 ^ size.val
     (size.val < 3 → s.localFault g.val addr n n true = none →
       Writes s (.ld g d a false size off []) g.val d.val (BitVec.ofNat 32 (s.lmRead g.val addr n)) ∧
       Writes s (.lds g d a false size off []) g.val d.val (BitVec.ofInt 32 (signed (8 * n) (s.lmRead g.val addr n))) ∧
       Leads s (.ld g d a false size off [(addr / 4 * 4, .corrected line syn gd)]) fun t =>
         wroteReg s t g.val d.val (BitVec.ofNat 32 (s.lmRead g.val addr n)) ∧ sameVecs s t g.val) ∧
     (d.val < 4 → s.localFault g.val addr 64 4 true = none →
       ∃ v : Vector Word 16, WritesVec s (.vld g d a false 0 off []) g.val d.val v ∧
         ∀ i : Nat, i < 16 → vget v i = BitVec.ofNat 32 (s.lmRead g.val (addr + 4 * i) 4))) ∧
  (∀ (s : State) (g : Fin 96) (d a : Fin 16) (size : Fin 4) (off : BitVec 14), s.issues g.val .plain → s.direct g.val →
     let r := (s.eng g.val).r
     let addr := (r.get a.val + BitVec.ofInt 32 off.toInt).toNat
     let n := 2 ^ size.val
     (size.val < 3 → s.localFault g.val addr n n false = none →
       Stores s (.st g d a false size off) g.val addr (toBytes n (r.get d.val).toNat)) ∧
     (d.val < 4 → s.localFault g.val addr 64 4 false = none →
       Stores s (.vst g d a false 0 off) g.val addr ((r.vec d.val).toList.flatMap fun x => toBytes 4 x.toNat))) ∧
  (∀ (s : State) (g : Fin 96) (d a b : Fin 16) (func : BitVec 13), s.issues g.val .plain → d.val < 4 → b.val < 4 → d ≠ b → func.getLsbD 0 = false →
     let r := (s.eng g.val).r
     let addr (i : Nat) : Nat := (r.get a.val + vget (r.vec b.val) i).toNat
     (∀ i : Nat, i < 16 → r.gdone.testBit i = false → s.localFault g.val (addr i) 4 4 true = none) →
     ∃ v : Vector Word 16, WritesVec s (.gather ⟨g, []⟩ d a b func) g.val d.val v ∧
       (∀ i : Nat, i < 16 →
         vget v i = if r.gdone.testBit i then vget (r.vec d.val) i else BitVec.ofNat 32 (s.lmRead g.val (addr i) 4)) ∧
       (s.alone g.val → (s.eng g.val).agentWrites = [] → Leads s (.gather ⟨g, []⟩ d a b func) fun t => (t.eng g.val).r.gdone = 0))

/-- The conditional branches of Table 6.4 compare wa with wb; where the condition holds the delay slot leads to the target, pc + 4 times the
signed offset, which must lie below 0x1_0000, and where it does not the slot leads to the word after it (R199, R200). J and CALL jump
relative to the pc, JR and CALLR to the address in wa, RET to the return stack's top: the delay slot comes first, and the push or the pop
with it. A call on a full stack goes on with rs_mode 0 (R199, R201). When the delay slot of a branch at b retires, the engine goes to the
target, or to b + 8 where the branch was not taken; a call pushes b + 8 and drops the oldest entry of a full stack, a return pops (R200,
R201). Shown for an ADD in the slot. Where the spec is silent it follows the model's choice of log 27 and 45. COMPLETES: under hypotheses on
the state and the operands alone, exec answers a next state (exec c s = .next t for some t, which is what Leads and Answers say) for add,
beq, bne, blt, bge, bltu, bgeu, j, jr, call, callr, ret. -/
def Obligations.BranchesAndJumps : Prop :=
  (∀ (s : State) (g : Fin 96) (a b : Fin 16) (off : BitVec 17), s.issues g.val .branch →
     let r := (s.eng g.val).r
     let x := r.get a.val
     let y := r.get b.val
     let target : Int := r.pc + 4 * off.toInt
     let goes (c : Instr) (taken : Prop) : Prop :=
       (taken → 0 ≤ target → target < 65536 → target % 4 = 0 → exec c s = .next (s.inSlot g.val (some target.toNat) false false true)) ∧
       (¬ taken → exec c s = .next (s.inSlot g.val none false false true))
     goes (.beq g a b off) (x = y) ∧
     goes (.bne g a b off) (x ≠ y) ∧
     goes (.blt g a b off) (x.toInt < y.toInt) ∧
     goes (.bge g a b off) (y.toInt ≤ x.toInt) ∧
     goes (.bltu g a b off) (x.toNat < y.toNat) ∧
     goes (.bgeu g a b off) (y.toNat ≤ x.toNat)) ∧
  (∀ (s : State) (g : Fin 96) (a b : Fin 16) (off : BitVec 17), s.issues g.val .branch →
     let x := s.eng g.val
     let near : Int := x.r.pc + 4 * off.toInt
     let far := (x.r.get a.val).toNat
     let room := x.rsMode = false ∨ x.r.rstack.length < 8
     (0 ≤ near → near < 65536 → near % 4 = 0 →
       exec (.j g 0 b off) s = .next (s.inSlot g.val (some near.toNat) false false true) ∧
       (room → exec (.call g 0 b off) s = .next (s.inSlot g.val (some near.toNat) true false false))) ∧
     (far < 65536 → far % 4 = 0 →
       exec (.jr g a 0 0) s = .next (s.inSlot g.val (some far) false false true) ∧
       (room → exec (.callr g a 0 0) s = .next (s.inSlot g.val (some far) true false false))) ∧
     (∀ top : Nat, x.r.rstack.getLast? = some top → top < 65536 → top % 4 = 0 →
       exec (.ret g 0 b off) s = .next (s.inSlot g.val (some top) false true false))) ∧
  (∀ (s : State) (g : Fin 96) (d a c : Fin 16) (b : Nat) (target : Option Nat) (push pop leaves : Bool), s.issues g.val .plain →
     (s.eng g.val).ctx = .delaySlot b target push pop leaves →
     let old := (s.eng g.val).r.rstack
     Leads s (.add g d a c 0) fun t =>
       let x := t.eng g.val
       x.ctx = .plain ∧ x.r.pc = target.getD ((b + 8) % 65536) ∧
       (push = false → pop = false → x.r.rstack = old) ∧
       (push = false → pop = true → x.r.rstack = old.dropLast) ∧
       (push = true → pop = false → x.r.rstack = (if 8 ≤ old.length then old.drop 1 else old) ++ [(b + 8) % 65536]))

/-- LOOP opens a level for the words from the next one up to pc + 4 times the offset, with the count in wa; a count of 0 skips them (R202). The
word at the end of a loop, when it retires, counts the level: while the count stays above zero the engine goes back to the loop's start, and
at zero the level closes and the engine goes on; elsewhere the pc moves on by 4 (R190, R203). Shown for an ADD. RSSAVE stores the depth and
the eight entries of the return stack, oldest first and zero-filled, at wa and empties it; RSLOAD takes them back (R201). Where the spec is
silent it follows the model's choice of log 46. COMPLETES: under hypotheses on the state and the operands alone, exec answers a next state
(exec c s = .next t for some t, which is what Leads and Answers say) for add, rssave, rsload, loop. -/
def Obligations.LoopsAndReturnStack : Prop :=
  (∀ (s : State) (g : Fin 96) (a : Fin 16) (off : BitVec 17), s.issues g.val .loop → 1 ≤ off.toInt → (s.eng g.val).r.ldepth < 2 →
     let r := (s.eng g.val).r
     let first := (r.pc + 4) % 65536
     let last := (r.pc + 4 * off.toNat) % 65536
     let n := (r.get a.val).toNat
     Leads s (.loop g a 0 off) fun t =>
       let q := (t.eng g.val).r
       (r.ldepth = 0 → q.ls.1 = first ∧ q.le.1 = last ∧ (n ≠ 0 → q.lc.1 = n)) ∧
       (r.ldepth = 1 → q.ls = (r.ls.1, first) ∧ q.le = (r.le.1, last) ∧ (n ≠ 0 → q.lc = (r.lc.1, n))) ∧
       (n ≠ 0 → q.ldepth = r.ldepth + 1 ∧ q.pc = first) ∧
       (n = 0 → q.ldepth = r.ldepth ∧ q.pc = (last + 4) % 65536) ∧
       sameRegs s t g.val ∧ sameVecs s t g.val ∧ onlyEngine s t g.val ∧ sameBytes s t) ∧
  (∀ (s : State) (g : Fin 96) (d a b : Fin 16), s.issues g.val .plain → s.alone g.val →
     let r := (s.eng g.val).r
     let next := (r.pc + 4) % 65536
     Leads s (.add g d a b 0) fun t =>
       let q := (t.eng g.val).r
       (r.ldepth = 0 → q.pc = next ∧ q.ldepth = 0) ∧
       (r.ldepth = 1 → r.pc ≠ r.le.1 → q.pc = next ∧ q.ldepth = 1 ∧ q.lc = r.lc) ∧
       (r.ldepth = 1 → r.pc = r.le.1 → 1 < r.lc.1 → r.lc.1 < 2 ^ 32 → q.pc = r.ls.1 ∧ q.lc.1 = r.lc.1 - 1 ∧ q.ldepth = 1) ∧
       (r.ldepth = 1 → r.pc = r.le.1 → r.lc.1 = 1 → q.pc = next ∧ q.ldepth = 0) ∧
       (r.ldepth = 2 → r.pc = r.le.2 → 1 < r.lc.2 → r.lc.2 < 2 ^ 32 → q.pc = r.ls.2 ∧ q.lc = (r.lc.1, r.lc.2 - 1) ∧ q.ldepth = 2) ∧
       (r.ldepth = 2 → r.pc = r.le.2 → r.lc.2 = 1 → r.pc ≠ r.le.1 → q.pc = next ∧ q.ldepth = 1 ∧ q.lc.1 = r.lc.1)) ∧
  (∀ (s : State) (g : Fin 96) (d a b : Fin 16) (arg : BitVec 8), s.issues g.val .rstack → s.direct g.val →
     let r := (s.eng g.val).r
     let addr := (r.get a.val).toNat
     (s.localFault g.val addr 36 4 false = none →
       Leads s (.rssave g d a b arg) fun t => storedAt s t g.val addr
           ((r.rstack.length :: (r.rstack ++ List.replicate (8 - r.rstack.length) 0)).flatMap fun e => toBytes 4 e) ∧
         (s.alone g.val → (t.eng g.val).r.rstack = []) ∧ sameRegs s t g.val ∧ sameVecs s t g.val ∧ onlyEngine s t g.val) ∧
     (s.localFault g.val addr 36 4 true = none →
       Leads s (.rsload ⟨g, []⟩ d a b arg) fun t =>
         (s.alone g.val → (t.eng g.val).r.rstack =
           (List.range (min (s.lmRead g.val addr 4) 8)).map fun i => s.lmRead g.val (addr + 4 + 4 * i) 4 % 65536) ∧
         sameRegs s t g.val ∧ sameVecs s t g.val ∧ wordFrame s t g.val))

/-- MFS reads a special register of Table 6.2 into wd; EPC, ECAUSE, EADDR, ESTAT, IEN, IPEND and the scratch registers are for supervisor level
alone (R189). MTS writes wa into a special register of Table 6.2: reserved bits stay zero, the read-only MODE, IPEND, RSDEPTH and engine
number keep their value, and the general and vector registers are as before (R6, R189). SETMODE opens a two-word shadow group: MODE changes
only when its second word retires, and the stores of the group go to memory then (R206, R207). Where the spec is silent it follows the
model's choice of log 25. COMPLETES: under hypotheses on the state and the operands alone, exec answers a next state (exec c s = .next t for
some t, which is what Leads and Answers say) for mfs, mts, add, setmode. -/
def Obligations.SpecialRegisterWords : Prop :=
  (∀ (s : State) (g : Fin 96) (d a b : Fin 16) (k : BitVec 8), s.issues g.val .plain → k.toNat ≤ 21 →
     let r := (s.eng g.val).r
     (r.mode.testBit 1 = false ∨ k.toNat ∉ [0, 1, 2, 3, 5, 6, 20, 21]) →
     let value : Nat := match k.toNat with
       | 0 => r.epc | 1 => r.ecause | 2 => r.eaddr | 3 => r.estat | 4 => r.mode | 5 => r.ien | 6 => s.ipend g.val | 7 => r.gdone
       | 8 => r.crcPoly8 * 256 + r.crcPoly | 9 => r.fpctrl | 10 => r.fpstat | 11 => r.ls.1 | 12 => r.le.1 | 13 => r.lc.1 | 14 => r.ls.2 | 15 => r.le.2
       | 16 => r.lc.2 | 17 => r.ldepth | 18 => r.rstack.length | 19 => g.val | 20 => r.scr.1 | _ => r.scr.2
     Writes s (.mfs g d a b k) g.val d.val (BitVec.ofNat 32 value)) ∧
  (∀ (s : State) (g : Fin 96) (d a b : Fin 16) (k : BitVec 8), s.issues g.val .plain → s.alone g.val → (s.eng g.val).agentWrites = [] → k.toNat ≤ 21 →
     let r := (s.eng g.val).r
     let v := (r.get a.val).toNat
     (r.mode.testBit 1 = false ∨ k.toNat ∉ [0, 1, 2, 3, 5, 6, 20, 21]) → r.pc ≠ r.le.1 → r.pc ≠ r.le.2 →
     Leads s (.mts g d a b k) fun t =>
       let q := (t.eng g.val).r
       (k.toNat = 0 → q.epc = v % 65536) ∧ (k.toNat = 1 → q.ecause = v &&& 0x00F1FF3F) ∧ (k.toNat = 2 → q.eaddr = v) ∧
       (k.toNat = 3 → q.estat = v % 8) ∧ (k.toNat = 5 → q.ien = v % 256) ∧ (k.toNat = 7 → q.gdone = v % 65536) ∧
       (k.toNat = 8 → q.crcPoly = v % 4 ∧ q.crcPoly8 = v / 256 % 256) ∧ (k.toNat = 9 → q.fpctrl = v &&& 0xF03) ∧ (k.toNat = 10 → q.fpstat = v % 16) ∧
       (k.toNat = 11 → q.ls.1 = v % 65536) ∧ (k.toNat = 12 → q.le.1 = v % 65536) ∧ (k.toNat = 14 → q.ls.2 = v % 65536) ∧ (k.toNat = 15 → q.le.2 = v % 65536) ∧
       (k.toNat = 17 → q.ldepth = min v 2) ∧ (k.toNat = 20 → q.scr.1 = v) ∧ (k.toNat = 21 → q.scr.2 = v) ∧
       q.mode = r.mode ∧ q.rstack = r.rstack ∧ sameRegs s t g.val ∧ sameVecs s t g.val ∧ onlyEngine s t g.val ∧ sameBytes s t) ∧
  (∀ (s : State) (g : Fin 96) (d a b : Fin 16) (m : BitVec 8), m.toNat < 8 →
     let x := s.eng g.val
     (s.issues g.val .setmode → (x.r.mode.testBit 1 = true → (m.toNat ^^^ x.r.mode) = 0 ∨ ((m.toNat ^^^ x.r.mode) = 1 ∧ x.taskTimed = true)) →
       exec (.setmode g d a b m) s = .next (s.updEng g.val fun y =>
         { y with r := { y.r with pc := (y.r.pc + 4) % 65536 }, ctx := .shadow y.r.pc m.toNat 1 [], saved := some y.r })) ∧
     (∀ (at_ mode : Nat) (held : List (Nat × List Byte)), s.issues g.val .plain → x.ctx = .shadow at_ mode 1 held →
       Leads s (.add g d a b 0) fun t => (t.eng g.val).ctx = .shadow at_ mode 2 held ∧ (t.eng g.val).r.mode = x.r.mode ∧ sameBytes s t) ∧
     (∀ (at_ mode n : Nat) (held : List (Nat × List Byte)), s.issues g.val .plain → x.ctx = .shadow at_ mode n held → n ≠ 1 →
       Leads s (.add g d a b 0) fun t => (t.eng g.val).ctx = .plain ∧ (t.eng g.val).r.mode = mode ∧ (t.eng g.val).saved = none ∧
         ∀ i : Nat, t.byte i = (s.lmStore g.val held).byte i))

/-- MTIME writes mesh time, low word first, into an even-odd register pair from w2 to w15 and changes nothing else; in DOZE the value goes on by
4 ticks at a time. Any other d raises ILLEGAL (R216). COMPLETES: under hypotheses on the state and the operands alone, exec answers a next
state (exec c s = .next t for some t, which is what Leads and Answers say) for mtime. -/
def Obligations.MeshTimeWord : Prop :=
  ∀ (s : State) (g : Fin 96) (d a b : Fin 16) (arg : BitVec 8),
    let r := (s.eng g.val).r
    (s.issues g.val .plain → d.val % 2 = 0 → 2 ≤ d.val →
      Leads s (.mtime g d a b arg) fun t =>
        (∀ k : Nat, k < 16 → (t.eng g.val).r.get k =
          if k = d.val then BitVec.ofNat 32 s.meshRead else if k = d.val + 1 then BitVec.ofNat 32 (s.meshRead / 2 ^ 32) else r.get k) ∧
        (s.pwr.mode ≠ .doze → s.meshRead = s.clk.mesh) ∧
        (s.pwr.mode = .doze → s.pwr.dozeAt ≤ s.clk.mesh →
          s.meshRead % 4 = s.pwr.dozeAt % 4 ∧ s.meshRead ≤ s.clk.mesh ∧ s.clk.mesh < s.meshRead + 4) ∧ sameVecs s t g.val ∧ wordFrame s t g.val) ∧
    (s.mayFault g.val .plain → d.val % 2 = 1 ∨ d.val = 0 →
      Enters s (.mtime g d a b arg) g.val 1 r.pc (1 + (if r.atLoopEnd r.pc then 1024 else 0)) 0)

/-- SYSC and BRK enter their exceptions after they retire, with EPC at the next word; ERET takes MODE back from ESTAT and goes on at EPC (R217,
R218). A word with nonzero unused fields is ILLEGAL, ERET at task level is PRIV, a load from an address that is not a multiple of its size
is ALIGN: each enters its exception with EPC at the word, and writes no register (R192, R195, R217, R218). Bit 10 of ECAUSE tells a loop
end. Where the spec is silent it follows the model's choice of log 26 and 45. COMPLETES: under hypotheses on the state and the operands
alone, exec answers a next state (exec c s = .next t for some t, which is what Leads and Answers say) for add, ld, eret, brk, sysc. -/
def Obligations.ExceptionEntries : Prop :=
  (∀ (s : State) (g : Fin 96) (d a b : Fin 16) (arg : BitVec 8),
     let x := s.eng g.val
     (s.mayFault g.val .trap →
       Enters s (.sysc g d a b arg) g.val 17 (x.r.retireAt x.r.pc).pc 17 0 ∧ Enters s (.brk g d a b arg) g.val 16 (x.r.retireAt x.r.pc).pc 16 0) ∧
     (s.issues g.val .eret → x.r.mode.testBit 1 = false →
       Leads s (.eret g d a b arg) fun t =>
         (t.eng g.val).r.mode = x.r.estat % 8 ∧ (t.eng g.val).r.pc = x.r.epc % 65536 / 4 * 4 ∧ sameRegs s t g.val ∧ sameVecs s t g.val ∧
         onlyEngine s t g.val ∧ sameBytes s t)) ∧
  (∀ (s : State) (g : Fin 96) (d a b : Fin 16) (u arg : BitVec 8) (size : Fin 4) (off : BitVec 14),
     let r := (s.eng g.val).r
     let loopEnd := if r.atLoopEnd r.pc then 1024 else 0
     let addr := (r.get a.val + BitVec.ofInt 32 off.toInt).toNat
     (s.mayFault g.val .plain → u ≠ 0 → Enters s (.add g d a b u) g.val 1 r.pc (1 + loopEnd) 0) ∧
     (s.mayFault g.val .eret → r.mode.testBit 1 = true → Enters s (.eret g d a b arg) g.val 3 r.pc (3 + loopEnd) 0) ∧
     (s.mayFault g.val .plain → size.val < 3 → addr % 2 ^ size.val ≠ 0 → Enters s (.ld g d a false size off []) g.val 5 r.pc (5 + loopEnd) addr))

/-- At a word boundary a failed posted store raises POSTED_FAULT with the store's address, a timed-mode overrun raises TIMED_OVERRUN, and
outside timed mode and handlers the lowest enabled line of ENG_IPEND raises its interrupt, in this order (R197, R208, R218, R220). An
exception while one is being handled stops the engine: its state is STOPPED, with the second cause, and source 128 + g is pending while the
hub is up (R221). Shown for SYSC. COMPLETES: under hypotheses on the state and the operands alone, exec answers a next state (exec c s =
.next t for some t, which is what Leads and Answers say) for postedFault, timedOverrun, sysc, interruptTaken. -/
def Obligations.BoundaryExceptions : Prop :=
  (∀ (s : State) (g : Fin 96),
     let x := s.eng g.val
     s.engPowered g.val = true → x.state = .running → x.ctx = .plain → x.wait = none → x.run = true → x.r.exc = false →
     (∀ addr status : Nat, x.postedFault = some (addr, status) →
       Enters s (.postedFault g) g.val 15 x.r.pc (15 + 2 ^ 16 + status * 2 ^ 20) addr) ∧
     (x.postedFault = none → x.timedMax ≠ 0 → x.r.timed = true → Enters s (.timedOverrun g) g.val 14 x.r.pc 14 0) ∧
     (∀ line : Nat, line < 8 → x.postedFault = none → x.timedOver = false → x.r.timed = false →
       (x.r.ien &&& s.ipend g.val).testBit line = true → (∀ l : Nat, l < line → (x.r.ien &&& s.ipend g.val).testBit l = false) →
       Enters s (.interruptTaken g) g.val (24 + line) x.r.pc (24 + line) 0)) ∧
  (∀ (s : State) (g : Fin 96) (d a b : Fin 16) (arg : BitVec 8), s.issues g.val .trap → s.alone g.val → (s.eng g.val).r.exc = true →
     Leads s (.sysc g d a b arg) fun t =>
       (t.eng g.val).state = .stopped ∧ (t.eng g.val).stopCause = 17 ∧ (s.hubUp = true → t.pends (128 + g.val) = true) ∧ sameRegs s t g.val)

/-- LD, LDS, ST, VLD, VST and GATHER to device space do not retire: the engine waits for the completion of its access, and nothing else changes.
They need an aligned address, a GATHER that of its next lane, and, at task level, ENG_CTRL.task_dev (R195, R196, R213); a GATHER with every
lane done makes no access. MSEND puts lanes 0 to 3 of va and the sender's number into the mailbox that wb names and fires its source, or
waits while it is full or while a control lane on its way retrains; MRECV takes the oldest message into vd, or waits, or with nowait answers
all ones in lane 4 (R15, R215). WFI waits until an enabled line is asserted or a message has come; then it retires (R220). FENCE retires at
once where no posted store of the engine is on its way, and waits where one is (R197). Where the spec is silent it follows the model's
choice of log 48. COMPLETES: under hypotheses on the state and the operands alone, exec answers a next state (exec c s = .next t for some t,
which is what Leads and Answers say) for ld, lds, st, vld, vst, fence, postedFault, gather, msend, mrecv, wfi, wfiWake. -/
def Obligations.WaitsAndMessages : Prop :=
  (∀ (s : State) (g : Fin 96) (d a b : Fin 16) (size : Fin 4) (off : BitVec 14) (func : BitVec 13) (ecc : List (Nat × EccSeen)), s.issues g.val .device →
     let x := s.eng g.val
     LmSeen.bad ecc x.r.pc = false →
     let addr := (x.r.get a.val + BitVec.ofInt 32 off.toInt).toNat
     let n := 2 ^ size.val
     (x.r.mode.testBit 1 = true → x.taskDev = true) →
     (size.val < 3 → addr % n = 0 →
       exec (.ld g d a true size off ecc) s = .next (s.waitingOn g.val (.load addr n d.val false)) ∧
       exec (.lds g d a true size off ecc) s = .next (s.waitingOn g.val (.load addr n d.val true)) ∧
       exec (.st g d a true size off) s = .next (s.waitingOn g.val (.store addr n (x.r.get d.val).toNat))) ∧
     (d.val < 4 → addr % 4 = 0 →
       exec (.vld g d a true 0 off ecc) s = .next (s.waitingOn g.val (.vload addr d.val)) ∧
       exec (.vst g d a true 0 off) s = .next (s.waitingOn g.val (.vstore addr ((x.r.vec d.val).toList.flatMap fun w => toBytes 4 w.toNat)))) ∧
     (d.val < 4 → b.val < 4 → d ≠ b → func.getLsbD 0 = true →
       let lane (i : Nat) : Nat := (x.r.get a.val + vget (x.r.vec b.val) i).toNat
       (∀ i : Nat, i < 16 → (∀ j : Nat, j < i → x.r.gdone.testBit j = true) → x.r.gdone.testBit i = false → lane i % 4 = 0 →
         exec (.gather ⟨g, ecc⟩ d a b func) s = .next (s.waitingOn g.val (.gather a.val d.val b.val))) ∧
       ((∀ i : Nat, i < 16 → x.r.gdone.testBit i = true) →
         Leads s (.gather ⟨g, ecc⟩ d a b func) fun t => (t.eng g.val).wait = x.wait ∧ sameRegs s t g.val ∧ sameVecs s t g.val ∧ wordFrame s t g.val))) ∧
  (∀ (s : State) (g : Fin 96) (d a b : Fin 16) (arg : BitVec 8), s.issues g.val .mbox →
     let r := (s.eng g.val).r
     let dst := (r.get b.val).toNat
     (a.val < 4 → dst < 96 → s.domUp (engDomain dst) = true → s.mailHeld g.val dst = false →
       ((s.eng dst).mbox.length < 16 → (s.eng dst).wait = none →
         Leads s (.msend g d a b arg) fun t => (t.eng dst).mbox = (s.eng dst).mbox ++ [(g.val, (r.vec a.val).toList.take 4, 0)] ∧
           (s.hubUp = true → t.pends (224 + dst) = true) ∧ sameRegs s t g.val ∧ sameVecs s t g.val ∧ sameBytes s t) ∧
       (16 ≤ (s.eng dst).mbox.length → exec (.msend g d a b arg) s = .next (s.waitingOn g.val (.msend a.val b.val)))) ∧
     (a.val < 4 → dst < 96 → s.domUp (engDomain dst) = true → s.mailHeld g.val dst = true →
       exec (.msend g d a b arg) s = .next (s.waitingOn g.val (.msend a.val b.val))) ∧
     (d.val < 4 →
       (∀ (m : Nat × List Word × Nat) (rest : List (Nat × List Word × Nat)), (s.eng g.val).mbox = m :: rest →
         (∀ h a' b' : Nat, (s.eng h).wait ≠ some (.msend a' b')) →
         Leads s (.mrecv g d a b arg) fun t => wroteVec s t g.val d.val (mboxVector m) ∧ (t.eng g.val).mbox = rest ∧ sameRegs s t g.val ∧ wordFrame s t g.val) ∧
       ((s.eng g.val).mbox = [] → arg.getLsbD 0 = false → exec (.mrecv g d a b arg) s = .next (s.waitingOn g.val (.mrecv d.val))) ∧
       ((s.eng g.val).mbox = [] → arg.getLsbD 0 = true →
         Leads s (.mrecv g d a b arg) fun t => wroteVec s t g.val d.val (vset (.replicate 16 0) 4 0xFFFFFFFF) ∧ sameRegs s t g.val ∧ wordFrame s t g.val))) ∧
  (∀ (s : State) (g : Fin 96) (d a b : Fin 16) (arg : BitVec 8),
     (s.issues g.val .wfi → exec (.wfi g d a b arg) s = .next (s.waitingOn g.val .wfi)) ∧
     ((s.eng g.val).wait = some .wfi → s.alone g.val → s.engPowered g.val = true → (s.lineReady g.val = true ∨ (s.eng g.val).mbox ≠ []) →
       Leads s (.wfiWake g) fun t => (t.eng g.val).wait = none ∧ (t.eng g.val).r.pc = ((s.eng g.val).r.retireAt (s.eng g.val).r.pc).pc ∧
         sameRegs s t g.val ∧ sameVecs s t g.val ∧ wordFrame s t g.val) ∧
     ((s.eng g.val).wait = some .wfi → s.lineReady g.val = false → (s.eng g.val).mbox = [] → exec (.wfiWake g) s = .next s)) ∧
  (∀ (s : State) (g : Fin 96) (d a b : Fin 16) (arg : BitVec 8), s.issues g.val .plain → (s.eng g.val).postedFault = none →
     s.lnk.fences = [] → (∀ h : Nat, (s.eng h).wait ≠ some .fence ∧ s.engBoundary h = s) →
     (s.postedOut (fun src => src == .store g.val) = false →
       Leads s (.fence g d a b arg) fun t => (t.eng g.val).wait = none ∧ sameRegs s t g.val ∧ sameVecs s t g.val ∧ wordFrame s t g.val) ∧
     (s.postedOut (fun src => src == .store g.val) = true →
       Leads s (.fence g d a b arg) fun t => (t.eng g.val).wait = some .fence ∧ (t.eng g.val).state = .waiting ∧ sameRegs s t g.val ∧ sameBytes s t))

/-- STP retires at issue and its bytes reach the addressed RAM; with the hub down it fails as DOZING and its POSTED_FAULT is due (R197). The
completion of a device access on hub SRAM: a load brings its bytes, zero- or sign-extended, a vector load sixteen words, a store stores, and
the word retires (R195, R196). Where the spec is silent it follows the model's choice of log 104. COMPLETES: under hypotheses on the state
and the operands alone, exec answers a next state (exec c s = .next t for some t, which is what Leads and Answers say) for deviceCompletion,
stp, postedFault. -/
def Obligations.StoresAndCompletions : Prop :=
  (∀ (s : State) (g : Fin 96) (d a : Fin 16) (size : Fin 4) (off : BitVec 14), s.issues g.val .device → size.val < 3 →
     let x := s.eng g.val
     let addr := (x.r.get a.val + BitVec.ofInt 32 off.toInt).toNat
     let n := 2 ^ size.val
     addr % n = 0 → (x.r.mode.testBit 1 = true → x.taskDev = true) →
     (s.hubUp = true → s.plainSram addr n → s.lanesFree (engIni g.val) addr →
       Leads s (.stp g d a true size off) fun t => wroteBytes s t addr (toBytes n (x.r.get d.val).toNat) ∧ (t.eng g.val).wait = none ∧
         sameRegs s t g.val ∧ sameVecs s t g.val ∧ onlyEngine s t g.val) ∧
     (s.hubUp = false → x.postedFault = none →
       Leads s (.stp g d a true size off) fun t => (t.eng g.val).postedFault = some (addr, 2) ∧ sameRegs s t g.val ∧ sameBytes s t)) ∧
  (∀ (s : State) (g : Fin 96) (addr n dst v : Nat) (sx : Bool) (data : List Byte),
     let x := s.eng g.val
     s.hubUp = true → s.engAway g.val = false → x.discard = none → s.direct g.val → (∀ a : Nat, 0x1005000 ≤ a → a < 0x1C00000 → s.lanesFree (engIni g.val) a) →
     (x.wait = some (.load addr n dst sx) → dst < 16 → s.plainSram addr n →
       Leads s (.deviceCompletion g []) fun t => (t.eng g.val).wait = none ∧ sameVecs s t g.val ∧ wordFrame s t g.val ∧
         wroteReg s t g.val dst (if sx then BitVec.ofInt 32 (signed (8 * n) (ofBytes (s.bytes addr n))) else BitVec.ofNat 32 (ofBytes (s.bytes addr n)))) ∧
     (x.wait = some (.vload addr dst) → dst < 4 → s.plainSram addr 64 →
       Leads s (.deviceCompletion g []) fun t => (t.eng g.val).wait = none ∧ sameRegs s t g.val ∧ wordFrame s t g.val ∧
         ∀ i : Nat, i < 16 → vget ((t.eng g.val).r.vec dst) i = BitVec.ofNat 32 (s.word (addr + 4 * i))) ∧
     (x.wait = some (.store addr n v) → s.plainSram addr n →
       Leads s (.deviceCompletion g []) fun t => (t.eng g.val).wait = none ∧ sameRegs s t g.val ∧ sameVecs s t g.val ∧ onlyEngine s t g.val ∧
         wroteBytes s t addr (toBytes n v)) ∧
     (x.wait = some (.vstore addr data) → s.plainSram addr data.length →
       Leads s (.deviceCompletion g []) fun t => (t.eng g.val).wait = none ∧ sameRegs s t g.val ∧ sameVecs s t g.val ∧ onlyEngine s t g.val ∧
         wroteBytes s t addr data))

/-- ENG_CTRL.run starts an engine at ENG_START at supervisor level with IEN 0, or resumes it at its pc, and cleared it halts the engine at a
word boundary; ENG_LM_DATA reads and writes the local word at ENG_LM_ADDR and advances that address by 4 (R222). COMPLETES: under hypotheses
on the state and the operands alone, exec answers a next state (exec c s = .next t for some t, which is what Leads and Answers say) for
engineRun, engineHalt, engLmDataAccess. -/
def Obligations.EngineControl : Prop :=
  ∀ (s : State) (ini : Initiator) (g : Fin 96) (data : Word),
    let block := if g.val < 32 then 0x02100000 + 0x1000 * g.val else 0x04000000 + (g.val - 32) / 8 * 0x800000 + 0x8000 + 0x800 * (g.val % 8)
    let x := s.eng g.val
    let local_ := 0x100000000 + g.val * 0x10000 + 4 * x.lmAddr
    (s.opens ini true block 0 →
      (Answers s (.engineRun ini g data) .ok fun t =>
        let y := t.eng g.val
        y.run = true ∧ y.rsMode = data.getLsbD 1 ∧ y.taskDev = data.getLsbD 2 ∧ y.taskTimed = data.getLsbD 3 ∧
        (x.state ≠ .stopped → x.ran = false → y.state = .running ∧ y.r.pc = 4 * x.start ∧ y.r.mode = 0 ∧ y.r.ien = 0) ∧
        (x.state = .halted → x.ran = true → y.state = .running ∧ y.r = x.r) ∧
        (x.state = .stopped → y.state = .stopped) ∧ sameRegs s t g.val ∧ sameBytes s t ∧ onlyEngine s t g.val) ∧
      (Answers s (.engineHalt ini g data) .ok fun t =>
        let y := t.eng g.val
        y.run = false ∧ (x.state = .running → x.ctx = .plain → x.wait = none → s.postedOut (fun src => src == .store g.val) = false → y.state = .halted) ∧
        sameRegs s t g.val ∧ sameBytes s t ∧ onlyEngine s t g.val)) ∧
    (s.opens ini true (block + 0x44) 0 → x.lmAddr < 2 ^ 14 → s.poisonedIn local_ 4 = false →
      Answers s (.engLmDataAccess ini g (some data)) .ok fun t =>
        wroteBytes s t local_ (toBytes 4 data.toNat) ∧ (t.eng g.val).lmAddr = (x.lmAddr + 1) % 2 ^ 14 ∧ (t.eng g.val).r = x.r) ∧
    (s.opens ini false (block + 0x44) 0 → x.lmAddr < 2 ^ 14 → s.poisonedIn local_ 4 = false →
      Answers s (.engLmDataAccess ini g none) .ok fun t =>
        t.resp.data = s.bytes local_ 4 ∧ (t.eng g.val).lmAddr = (x.lmAddr + 1) % 2 ^ 14 ∧ (t.eng g.val).r = x.r ∧ sameBytes s t)

/-- A step with command c at the front of the queue is exec of c with the queue's rest. -/
def Obligations.StepRunsFront : Prop :=
  ∀ (s : State) (c : Instr) (rest : List Instr), s.pending = c :: rest → step s = exec c { s with pending := rest }

/-- While no command waits, one tick passes (the model's choice, log 34): with no slew and every engine at rest, a cycle of the hub advances
mesh time by 1 tick, by 4 in DOZE, and leaves memory; an edge of the keeper leaves registers and memory, and never sets mesh time back; in
OFF nothing happens. In a cycle of the hub in which no command waits, a running engine whose operands are ready issues the word it fetches
at its pc (R185, R190, R191; the model's choice of when, log 34), unless the decoder shows an uncorrectable error there (log 148). Shown for
the word of ADD, the other engines at rest. -/
def Obligations.IdleTick : Prop :=
  (∀ s : State, s.pending = [] →
     ∃ t : State, step s = .next t ∧ t.pending = [] ∧
       (s.clk.holder = .hub → s.clk.slew = 0 → s.clk.slewAcc = 0 → (∀ g : Nat, g < 96 → (s.eng g).state = .halted ∧ (s.eng g).wait = none) →
         t.clk.mesh = s.clk.mesh + (if s.pwr.mode = .doze then 4 else 1) ∧ t.mem = s.mem) ∧
       (s.clk.holder = .stopped → t = s) ∧
       (s.clk.holder = .keeper → s.clk.mesh ≤ t.clk.mesh ∧ t.regs = s.regs ∧ t.mem = s.mem)) ∧
  (∀ (s : State) (g : Fin 96) (d a b : Fin 16), s.pending = [] → s.clk.holder = .hub → s.issues g.val .plain → s.alone g.val →
     let x := s.eng g.val
     x.agentWrites = [] → x.results = [] → x.r.timed = false →
     (∀ h : Nat, h < 96 → h ≠ g.val → (s.eng h).state = .halted ∧ (s.eng h).wait = none) →
     s.lmRead g.val x.r.pc 4 = d.val * 2 ^ 21 + a.val * 2 ^ 17 + b.val * 2 ^ 13 →
     ∃ t : State, step s = .next t ∧
       (LmSeen.bad (Config.lmSeen s.freeCtr) x.r.pc = true ∨ wroteReg s t g.val d.val (x.r.get a.val + x.r.get b.val)))

/-- No command is refused and none faults: each of the 337 goes on from every state (the model's choice for commands whose precondition fails,
log 13). No command touches the queue of waiting commands. -/
def Obligations.EveryCommandGoesOn : Prop :=
  (∀ (c : Instr) (s : State), ∃ t : State, exec c s = .next t) ∧
  (∀ (c : Instr) (s t : State), exec c s = .next t → t.pending = s.pending)

/-- Every step keeps memory, register file and poisoned words in their canonical forms, so that equal contents stay equal data. -/
def Obligations.CanonicalKept : Prop :=
∀ s t : State, s.canonical = true → step s = .next t → t.canonical = true

/-- The state after reset is canonical. After power-on reset the hub is down and every rail is off, the keeper counts mesh time from 0 with the
nominal increment, the boot votes stand on the hub core and the retention supply, every tile is OFF, every element masked and every engine
halted, no crossing and no source is pending, and start-up step 1 runs (R296, R323, R325, R331). COMPLETES: under hypotheses on the state
and the operands alone, exec answers a next state (exec c s = .next t for some t, which is what Leads and Answers say) for por. -/
def Obligations.StateAfterReset : Prop :=
  (State.reset.canonical = true) ∧
  (let s := State.reset
   s.hubUp = false ∧ s.pwr.pwrEn = 0 ∧ s.clk.mesh = 0 ∧ s.clk.holder = .keeper ∧ s.boot.step = 1 ∧ s.boot.kind = .por ∧
     (∀ d : Nat, d < 16 → s.get (R.PWR_VOTE_votes d) = if d = 0 ∨ d = 15 then 1 else 0) ∧
     (∀ t : Nat, (s.tile t).radio = .off) ∧ (∀ e : Nat, (s.elem e).liveMask = true) ∧ (∀ g : Nat, (s.eng g).state = .halted) ∧
     (∀ n : Nat, n < 512 → s.pends n = false) ∧ s.xng.fetched = [] ∧ s.pending = [])

/-- A write of a register without behaviour of its own sets its fields by the access codes of Table 0.1: PWR_LINGER takes the value cut to its
width, HUB_ID keeps its own, YRN_SEEN clears the bits written 1, EIRP_CTRL.region keeps its value once locked; a posted write has the same
effect (R6, R7). HUB_FUNC_MODE takes its eight bits, those of calibration and wake plane are effective at once; HUB_GCOMMIT keeps its
selection and waits busy, clears skipped bits written 1, and answers BUSY while one waits (R28, R33). Where the spec is silent it follows
the model's choice of log 80. COMPLETES: under hypotheses on the state and the operands alone, exec answers a next state (exec c s = .next t
for some t, which is what Leads and Answers say) for registerWrite, hubFuncModeWrite, hubGcommitWrite. -/
def Obligations.RegisterWrites : Prop :=
  (∀ (s : State) (ini : Initiator) (data : Word),
     (∀ d : Fin 16, s.opens ini true (0x0201000C + 16 * d.val) data.toNat →
       (Answers s (.registerWrite ini false (BitVec.ofNat 32 (0x0201000C + 16 * d.val)) 4 data) .ok fun t =>
         t.get (R.PWR_LINGER_us d.val) = data.toNat % 1024 ∧ sameFields [(R.PWR_LINGER_us 0).row] s t ∧ sameBytes s t) ∧
       (Leads s (.registerWrite ini true (BitVec.ofNat 32 (0x0201000C + 16 * d.val)) 4 data) fun t =>
         t.get (R.PWR_LINGER_us d.val) = data.toNat % 1024 ∧ sameFields [(R.PWR_LINGER_us 0).row] s t ∧ sameBytes s t)) ∧
     (s.opens ini true 0x02000000 data.toNat →
       Answers s (.registerWrite ini false 0x02000000 4 data) .ok fun t => sameFields [] s t ∧ sameBytes s t) ∧
     (∀ i : Fin 4, s.opens ini true (0x02030000 + 4 * i.val) data.toNat →
       Answers s (.registerWrite ini false (BitVec.ofNat 32 (0x02030000 + 4 * i.val)) 4 data) .ok fun t =>
         (∀ k : Nat, k < 32 → t.bit (R.YRN_SEEN_seen i.val) k = (s.bit (R.YRN_SEEN_seen i.val) k && !data.getLsbD k)) ∧
         sameFields [(R.YRN_SEEN_seen 0).row] s t ∧ sameBytes s t) ∧
     (s.opens ini true 0x020A0810 data.toNat →
       Answers s (.registerWrite ini false 0x020A0810 4 data) .ok fun t =>
         (s.get R.EIRP_CTRL_lock = 1 → t.get R.EIRP_CTRL_region = s.get R.EIRP_CTRL_region ∧ t.get R.EIRP_CTRL_lock = 1) ∧ sameBytes s t)) ∧
  (∀ (s : State) (ini : Initiator) (data : Word),
     (s.opens ini true 0x02000020 data.toNat →
       Answers s (.hubFuncModeWrite ini data) .ok fun t =>
         t.get R.HUB_FUNC_MODE_bits = data.toNat % 256 ∧ t.bit R.HUB_FUNC_STATUS_effective 6 = data.getLsbD 6 ∧
         t.bit R.HUB_FUNC_STATUS_effective 7 = data.getLsbD 7 ∧ sameBytes s t) ∧
     (s.opens ini true 0x02000030 data.toNat →
       (s.get R.HUB_GCOMMIT_busy = 0 → data.toNat % 2048 ≠ 0 →
         Answers s (.hubGcommitWrite ini data) .ok fun t =>
           t.get R.HUB_GCOMMIT_busy = 1 ∧ t.get R.HUB_GCOMMIT_tiles = data.toNat % 256 ∧ t.get R.HUB_GCOMMIT_bf = (data.getLsbD 8).toNat ∧
           t.get R.HUB_GCOMMIT_xng = (data.getLsbD 9).toNat ∧ t.get R.HUB_GCOMMIT_mac_nbr = (data.getLsbD 10).toNat ∧
           (∀ i : Nat, i < 8 → data.getLsbD i = true → t.get (R.TILE_COMMIT_gc_pending i) = 1) ∧ sameBytes s t) ∧
       (s.get R.HUB_GCOMMIT_busy = 0 → data.toNat % 2048 = 0 →
         Answers s (.hubGcommitWrite ini data) .ok fun t =>
           (∀ i : Nat, i < 8 → t.bit R.HUB_GCOMMIT_skipped i = (s.bit R.HUB_GCOMMIT_skipped i && !data.getLsbD (16 + i))) ∧
           sameFields [R.HUB_GCOMMIT_skipped.row] s t ∧ sameBytes s t) ∧
       (s.get R.HUB_GCOMMIT_busy = 1 → Answers s (.hubGcommitWrite ini data) .busy fun t => sameFields [] s t ∧ sameBytes s t)))

/-- While an element's shadows are armed, a write of its ELEM_CTRL or ELEM_RX_GAIN_SH ends BUSY and changes nothing (R40). COMPLETES: under
hypotheses on the state and the operands alone, exec answers a next state (exec c s = .next t for some t, which is what Leads and Answers
say) for registerWrite. -/
def Obligations.ArmedElementsRefuse : Prop :=
  ∀ (s : State) (ini : Initiator) (e : Fin 512) (shadow : Bool) (data : Word),
    let a := 0x04010000 + 0x800000 * (e.val / 64) + 0x100 * (e.val % 64) + (if shadow then 0x0C else 0)
    s.opens ini true a data.toNat → s.tileRuns (e.val / 64) = true → s.get (R.ELEM_STATUS_armed e.val) = 1 →
    Answers s (.registerWrite ini false (BitVec.ofNat 32 a) 4 data) .busy fun t =>
      t = { s with resp := ⟨.busy, []⟩ } ∧ sameFields [] s t ∧ sameBytes s t

/-- Mesh time reaches the window or cycle boundary that is due: a multiple of 1,280 or 5,242,880 ticks, after the last that was acted on; at a
window boundary no global commit stays busy, at a cycle boundary the sampled scheduling and time modes are in force (R24, R28, R32). At the
end of a span of 32,768 crystal periods the hub writes the measured increment: count cycles of the module clock, in 32.32 fixed point per
period (R22). Where the spec is silent it follows the model's choice of log 16 and 51. COMPLETES: under hypotheses on the state and the
operands alone, exec answers a next state (exec c s = .next t for some t, which is what Leads and Answers say) for keeperCalibration,
windowBoundary, cycleBoundary. -/
def Obligations.MeshTimeBoundaries : Prop :=
  (∀ (s : State) (codes : List (Nat × Nat × Int × Int)), s.hubUp = true →
     (Leads s (.windowBoundary codes) fun t =>
       t.clk.windowAt % 1280 = 0 ∧ s.clk.windowAt < t.clk.windowAt ∧ s.clk.mesh ≤ t.clk.windowAt ∧ t.clk.mesh = t.clk.windowAt ∧
       t.get R.HUB_GCOMMIT_busy = 0 ∧ t.clk.cycleAt = s.clk.cycleAt ∧ (∀ g : Nat, t.eng g = s.eng g) ∧ sameBytes s t) ∧
     (Leads s .cycleBoundary fun t =>
       t.clk.cycleAt % 5242880 = 0 ∧ s.clk.cycleAt < t.clk.cycleAt ∧ s.clk.mesh ≤ t.clk.cycleAt ∧ t.clk.mesh = t.clk.cycleAt ∧
       t.xng.hostSched = s.xng.sampledSched ∧ t.xng.hostTime = s.xng.sampledTime ∧ t.clk.windowAt = s.clk.windowAt ∧
       (∀ g : Nat, t.eng g = s.eng g) ∧ sameBytes s t)) ∧
  (∀ (s : State) (count : Nat), s.hubUp = true → s.pwr.pllLocked = true →
     exec (.keeperCalibration count) s = .next { s with clk := { s.clk with incr := count * 2 ^ 32 / 32768 } })

/-- On an unmasked element of a tile in RX a received power above ELEM_PDET_CFG.ovl, −60 dBm plus 0.25 dB a step, sets rx_ovl, and the first
fires source 10 of its tile; one at or below it changes nothing; an ADC sample at full scale adds 1 to sat_count, which stops at its maximum
(R52). A lane that fails its link check retrains, counts and is reported; a sample lane sets its tile's degraded flag, which clears when
every sample lane of the tile is back; where nothing waits for a lane, nothing else of the registers and of memory changes then (R12, R419).
A synthesiser that has a channel locks on a tile in WARM or above, and loses its lock, which fires source 57 there; RF_CHAN takes the
channels of Table 2.5 and leaves out others with bad_ch, makes a changed synthesiser lock anew, holds a change of sel pending, and answers
BUSY where the channel of the live one would change (R59 to R61). COMPLETES: under hypotheses on the state and the operands alone, exec
answers a next state (exec c s = .next t for some t, which is what Leads and Answers say) for laneFail, rxOvl, adcSaturation, loLock,
rfChanWrite, loUnlock, laneRetrained. -/
def Obligations.ElementsAndLanes : Prop :=
  (∀ (s : State) (e : Fin 512) (mdbm : Int), (s.tile (e.val / 64)).radio = .rx → s.get (R.ELEM_STATUS_masked e.val) = 0 →
     let level : Int := -60000 + 250 * s.get (R.ELEM_PDET_CFG_ovl e.val)
     (level < mdbm → Leads s (.rxOvl ⟨e, mdbm⟩) fun t =>
       t.get (R.ELEM_STATUS_rx_ovl e.val) = 1 ∧
       (s.hubUp = true → s.tileUp (e.val / 64) = true → s.get (R.ELEM_STATUS_rx_ovl e.val) = 0 → t.pends (320 + 16 * (e.val / 64) + 10) = true) ∧
       sameFields [(R.ELEM_STATUS_rx_ovl 0).row, (R.IRQ_PEND_pend 0).row] s t ∧ sameBytes s t) ∧
     (mdbm ≤ level → exec (.rxOvl ⟨e, mdbm⟩) s = .next s) ∧
     (Leads s (.adcSaturation e) fun t =>
       t.get (R.ELEM_PDET_RX_sat_count e.val) = min (s.get (R.ELEM_PDET_RX_sat_count e.val) + 1) 65535 ∧
       sameFields [(R.ELEM_PDET_RX_sat_count 0).row] s t ∧ sameBytes s t)) ∧
  (∀ (s : State) (t : Fin 8) (toTile : Bool) (lane : Fin 48),
     let id := lane.val + if toTile then 64 else 0
     (s.tileRuns t.val = true →
       Leads s (.laneFail t toTile lane) fun u =>
         id ∈ (u.tile t.val).lanesDown ∧ u.get (R.ERR_LANE_lane t.val) = lane.val ∧ (lane.val < 46 → u.get (R.ERR_LANE_degraded t.val) = 1) ∧
         (∀ g : Nat, u.eng g = s.eng g)) ∧
     (s.unfenced → s.lnk.ctlBack = [] → (∀ k : Nat, k < 8 → (s.tile k).irqHeld = 0) → Leads s (.laneRetrained t toTile lane) fun u =>
       id ∉ (u.tile t.val).lanesDown ∧ (∀ l : Nat, l ≠ id → (l ∈ (u.tile t.val).lanesDown ↔ l ∈ (s.tile t.val).lanesDown)) ∧
       ((∀ l : Nat, l ∈ (u.tile t.val).lanesDown → 46 ≤ l % 64) → u.get (R.ERR_LANE_degraded t.val) = 0) ∧
       sameFields [(R.ERR_LANE_degraded 0).row] s u ∧ sameBytes s u)) ∧
  (∀ (s : State) (ini : Initiator) (t : Fin 8) (synB : Bool) (data : Word),
     let a := data.toNat / 256 % 32
     let b := data.toNat / 65536 % 32
     (s.tileRuns t.val = true → (s.tile t.val).radio ≠ .off → s.get (if synB then R.RF_CHAN_ch_b else R.RF_CHAN_ch_a) ≠ 0 →
       Leads s (.loLock t synB) fun u => (if synB then (u.tile t.val).lockB else (u.tile t.val).lockA) = true ∧
         sameFields [R.RF_CHAN_STATUS_lock_a.row, R.RF_CHAN_STATUS_lock_b.row] s u ∧ sameBytes s u) ∧
     (Leads s (.loUnlock t synB) fun u => (if synB then (u.tile t.val).lockB else (u.tile t.val).lockA) = false ∧
       ((s.tile t.val).radio ≠ .off → u.get (if synB then R.RF_CHAN_STATUS_lock_b else R.RF_CHAN_STATUS_lock_a) = 0 ∧
         (s.hubUp = true → (if synB then (s.tile t.val).lockB else (s.tile t.val).lockA) = true → u.pends 57 = true)) ∧
       sameFields [R.RF_CHAN_STATUS_lock_a.row, R.RF_CHAN_STATUS_lock_b.row, (R.IRQ_PEND_pend 0).row] s u ∧ sameBytes s u) ∧
     (s.opens ini true 0x020A0800 data.toNat → s.get R.RF_CHAN_STATUS_live_sel = 0 →
       (a = s.get R.RF_CHAN_ch_a → b = 0 ∨ channelOk b = true →
         Answers s (.rfChanWrite ini data) .ok fun u =>
           u.get R.RF_CHAN_ch_b = b ∧ u.get R.RF_CHAN_ch_a = s.get R.RF_CHAN_ch_a ∧ u.get R.RF_CHAN_sel = data.toNat % 2 ∧
           u.get R.RF_CHAN_STATUS_sel_pending = data.toNat % 2 ∧ (b ≠ s.get R.RF_CHAN_ch_b → ∀ k : Nat, (u.tile k).lockB = false) ∧ sameBytes s u) ∧
       (a = s.get R.RF_CHAN_ch_a → b ≠ 0 → channelOk b = false →
         Answers s (.rfChanWrite ini data) .ok fun u =>
           u.get R.RF_CHAN_STATUS_bad_ch = 1 ∧ u.get R.RF_CHAN_ch_b = s.get R.RF_CHAN_ch_b ∧ u.pends 56 = true ∧ sameBytes s u) ∧
       (a = 0 ∨ channelOk a = true → a ≠ s.get R.RF_CHAN_ch_a → Answers s (.rfChanWrite ini data) .busy fun u => sameFields [] s u ∧ sameBytes s u)))

/-- A write of a fragment word or of a directory entry takes the seal away and opens what it belongs to; a fragment write stores its word,
clears that word's poison and no other byte changes (R82). TILE_COMMIT.go seals every open fragment of the tile without poison, keeps the
poisoned ones open and arms the 64 element shadows; BF_COMMIT.go seals the open directory entries without poison and lets the slot shadows
wait for their window (R83, R84). COMPLETES: under hypotheses on the state and the operands alone, exec answers a next state (exec c s =
.next t for some t, which is what Leads and Answers say) for fragmentWrite, directoryWrite, tileCommit, bfCommit. -/
def Obligations.SwatchesAndCommits : Prop :=
  (∀ (s : State) (ini : Initiator) (t : Fin 8) (sw : Fin 2048) (k : Fin 64) (w : Fin 4) (data : Word),
     let a := 0x04000000 + t.val * 0x800000 + 0x100000 + sw.val * 0x100 + 4 * k.val
     (s.opens ini true a data.toNat → (∀ p : Nat, p ∈ s.poison → p = a ∨ p + 8 ≤ a ∨ a + 4 ≤ p) →
       Answers s (.fragmentWrite ini t sw k data) .ok fun u =>
         wroteBytes s u a (toBytes 4 data.toNat) ∧ u.poisoned a = false ∧ u.bit (R.TILE_SEAL_MAP_sealed t.val (sw.val / 32)) (sw.val % 32) = false ∧
         sw.val ∈ (u.tile t.val).opened) ∧
     (s.opens ini true (0x020A8000 + 16 * sw.val + 4 * w.val) data.toNat →
       Answers s (.directoryWrite ini sw w data) .ok fun u =>
         u.get (R.DIR0_sealed sw.val) = 0 ∧ u.get (R.DIR0_open sw.val) = 1 ∧ sameBytes s u)) ∧
  (∀ (s : State) (ini : Initiator) (t : Fin 8) (data : Word), s.get R.HUB_GCOMMIT_busy = 0 → data.getLsbD 0 = true →
     (s.opens ini true (0x04000000 + t.val * 0x800000) data.toNat →
       Answers s (.tileCommit ini t data) .ok fun u =>
         (∀ sw : Nat, sw ∈ (s.tile t.val).opened → s.fragPoisoned t.val sw = false →
           u.bit (R.TILE_SEAL_MAP_sealed t.val (sw / 32)) (sw % 32) = true) ∧
         (∀ sw : Nat, sw ∈ (u.tile t.val).opened ↔ sw ∈ (s.tile t.val).opened ∧ s.fragPoisoned t.val sw = true) ∧
         (∀ j : Nat, j < 64 → u.get (R.ELEM_STATUS_armed (64 * t.val + j)) = 1) ∧ sameBytes s u) ∧
     (s.opens ini true 0x020A0000 data.toNat →
       Answers s (.bfCommit ini data) .ok fun u =>
         (∀ sw : Nat, s.get (R.DIR0_open sw) = 1 → s.poisonedIn (0x020A8000 + 16 * sw) 16 = false →
           u.get (R.DIR0_sealed sw) = 1 ∧ u.get (R.DIR0_open sw) = 0) ∧
         (∀ n : Nat, (u.slot n).shadowWait = true) ∧ u.get R.BF_COMMIT_pending = 1 ∧ sameBytes s u))

/-- A preload is refused with BUSY while a swap is armed on its slot, fails with NOT_SEALED or POISONED where its entry is, and else takes
entry, direction and swatch and waits for every running tile; a tile's report fills its shadow bank with the fragment's weights, or with
zero weights where the entry leaves the tile out, and the last good one makes the shadow ready; a report that finds the fragment unpowered,
poisoned, unsealed, mismatched or opened meanwhile makes it failed with that reason (R88). BF_SWAP asks for a swap on each marked slot at
the instant BF_SWAP_AT names, without its delay where the shadow is for transmit, or marks the slot late within 320 ns of it; at the cut-off
a ready and loadable shadow is armed and any other refused; at the swap instant the roles of the slot's banks exchange on every running tile
(R90 to R93). COMPLETES: under hypotheses on the state and the operands alone, exec answers a next state (exec c s = .next t for some t,
which is what Leads and Answers say) for preload, preloadReport, swapRequest, armCutoff, bankSwap. -/
def Obligations.PreloadsAndSwaps : Prop :=
  (∀ (s : State) (ini : Initiator) (data : Word) (t : Fin 8) (n : Fin 16),
     let slot := data.toNat / 65536 % 16
     let sw := data.toNat % 2048
     let dir := data.toNat / 2 ^ 24 % 2
     (s.opens ini true 0x020A0010 data.toNat → data.getLsbD 31 = true →
       (s.get (R.BF_BANK_armed slot) ≠ 0 → Answers s (.preload ini data) .busy fun u => sameFields [] s u) ∧
       (s.get (R.BF_BANK_armed slot) = 0 →
         (s.get (R.DIR0_poisoned sw) ≠ 0 →
           Answers s (.preload ini data) .ok fun u => u.get (R.BF_BANK_state slot) = 3 ∧ u.get (R.BF_BANK_reason slot) = 2) ∧
         (s.get (R.DIR0_poisoned sw) = 0 → s.get (R.DIR0_sealed sw) = 0 →
           Answers s (.preload ini data) .ok fun u => u.get (R.BF_BANK_state slot) = 3 ∧ u.get (R.BF_BANK_reason slot) = 1) ∧
         (s.get (R.DIR0_poisoned sw) = 0 → s.get (R.DIR0_sealed sw) = 1 → (s.get (R.DIR0_use sw)).testBit dir = true →
           (∀ i : Nat, i < 8 → s.tileRuns i = true) →
           Answers s (.preload ini data) .ok fun u =>
             u.get (R.BF_BANK_state slot) = 1 ∧ u.get (R.BF_BANK_shadow_swatch slot) = sw ∧ (u.slot slot).shadowDir = dir ∧
             (∀ i : Nat, i < 8 → (u.slot slot).waiting.testBit i = true) ∧ sameBytes s u))) ∧
     ((s.slot n.val).waiting = 2 ^ t.val → (s.slot n.val).failTile = none →
       ∀ c : HubCopy, (s.slot n.val).shadow = some c →
         let sw := s.get (R.BF_BANK_shadow_swatch n.val)
         (c.tiles.testBit t.val = true → s.fragReason t.val sw ((s.slot n.val).opened.testBit t.val) = 0 →
           Leads s (.preloadReport t ⟨n, []⟩) fun u =>
             (u.bank t.val n.val).shadow.valid = true ∧ (u.bank t.val n.val).shadow.swatch = sw ∧
             (u.bank t.val n.val).shadow.words = (List.range 64).map (fun k => s.fragWord t.val sw k % 2 ^ 24) ∧
             (u.slot n.val).waiting = 0 ∧ u.get (R.BF_BANK_state n.val) = 2 ∧ sameBytes s u) ∧
         (c.tiles.testBit t.val = true → s.fragPoisoned t.val sw = false → s.fragReason t.val sw ((s.slot n.val).opened.testBit t.val) ≠ 0 →
           Leads s (.preloadReport t ⟨n, []⟩) fun u =>
             u.get (R.BF_BANK_state n.val) = 3 ∧ u.get (R.BF_BANK_reason n.val) = s.fragReason t.val sw ((s.slot n.val).opened.testBit t.val) ∧
             (u.slot n.val).waiting = 0 ∧ sameBytes s u) ∧
         (c.tiles.testBit t.val = false →
           Leads s (.preloadReport t ⟨n, []⟩) fun u =>
             (u.bank t.val n.val).shadow.words = List.replicate 64 0 ∧ u.get (R.BF_BANK_state n.val) = 2 ∧ sameBytes s u))) ∧
  (∀ (s : State) (ini : Initiator) (data : Word) (n : Fin 16) (r : SwapReq),
     (s.opens ini true 0x020A001C data.toNat → data.getLsbD n.val = true →
       let at_ := if (s.slot n.val).shadowDir = 1 then s.swapAt.1 else s.swapAt.1 + s.swapAt.2
       (s.now + 400 ≤ at_ → Answers s (.swapRequest ini data) .ok fun u =>
         (u.slot n.val).swaps = (s.slot n.val).swaps ++ [⟨s.swapAt.1, s.swapAt.2, none, false, false⟩]) ∧
       (at_ < s.now + 400 → Answers s (.swapRequest ini data) .ok fun u =>
         (u.slot n.val).swaps = (s.slot n.val).swaps ∧ u.bit R.BF_SWAP_UNREADY_late n.val = true)) ∧
     ((s.slot n.val).swaps = [r] → r.armed = false → r.sweepStep = false → r.crossing = none →
       (s.get (R.BF_BANK_state n.val) = 2 → s.loadable (s.get (R.BF_BANK_shadow_swatch n.val)) (s.slot n.val).shadowDir = true →
         Leads s (.armCutoff n) fun u =>
           (u.slot n.val).swaps = [⟨s.swapTick n.val r, 0, none, true, false⟩] ∧ u.get (R.BF_BANK_armed n.val) = 1 ∧
           u.clk.mesh = max s.clk.mesh (s.swapTick n.val r - 400)) ∧
       (s.get (R.BF_BANK_state n.val) ≠ 2 →
         Leads s (.armCutoff n) fun u => (u.slot n.val).swaps = [] ∧ u.bit R.BF_SWAP_UNREADY_unready n.val = true)) ∧
     ((s.slot n.val).swaps = [r] → r.armed = true → r.crossing = none →
       Leads s (.bankSwap n) fun u =>
         (∀ t : Nat, t < 8 → s.tileRuns t = true →
           (u.bank t n.val).active.words = (s.bank t n.val).shadow.words ∧ (u.bank t n.val).active.dir = (s.bank t n.val).shadow.dir ∧
           (u.bank t n.val).shadow.words = (s.bank t n.val).active.words) ∧
         u.get (R.BF_BANK_active_swatch n.val) = s.get (R.BF_BANK_shadow_swatch n.val) % 2048 ∧
         u.get (R.BF_BANK_shadow_swatch n.val) = s.get (R.BF_BANK_active_swatch n.val) % 2048 ∧
         u.get (R.BF_BANK_dir n.val) = (s.slot n.val).shadowDir % 2 ∧ u.get (R.BF_BANK_armed n.val) = 0 ∧ (u.slot n.val).swaps = [] ∧ sameBytes s u))

/-- BF_CAP_CTRL.arm arms a capture on its tiles for a tick at least 2 µs ahead; at the tick a selected tile in RX stores 256 samples of each
element, zeros of a masked one, before or after the front end as BF_CAP_CTRL.point says, and a tile in another state fails; then the hub's
capture is done (R104 to R106). COMPLETES: under hypotheses on the state and the operands alone, exec answers a next state (exec c s = .next
t for some t, which is what Leads and Answers say) for captureArm, captureTick, captureDone. -/
def Obligations.Captures : Prop :=
  ∀ (s : State) (ini : Initiator) (data : Word) (t : Fin 8) (samples : List (Nat × List Nat)),
    (s.opens ini true 0x020A0200 data.toNat → s.get R.BF_CAP_CTRL_arm = 0 → data.getLsbD 9 = true → s.now + 2500 ≤ s.captureTime →
      Answers s (.captureArm ini data) .ok fun u =>
        u.get R.BF_CAP_CTRL_arm = 1 ∧ u.get R.BF_CAP_CTRL_tiles = data.toNat % 256 ∧ u.front.capTiles = data.toNat % 256 ∧ sameBytes s u) ∧
    (s.front.capTiles = 2 ^ t.val → s.tileRuns t.val = true →
      ((s.tile t.val).radio = .rx →
        Leads s (.captureTick samples) fun u =>
          (∀ j : Nat, j < 64 → u.bytes (s.captureBase t.val + 640 * j) 640 =
            packSamples ((if s.get (R.ELEM_STATUS_masked (64 * t.val + j)) ≠ 0 then []
              else ((samples.find? fun p => p.1 == 64 * t.val + j).map fun p => p.2).getD []).map (s.captured (64 * t.val + j)))) ∧
          u.get (R.TILE_CAP_STATUS_done t.val) = 1 ∧ u.front.capTiles = 0 ∧ u.clk.mesh = max s.clk.mesh s.captureTime) ∧
      ((s.tile t.val).radio ≠ .rx →
        Leads s (.captureTick samples) fun u =>
          u.get (R.TILE_CAP_STATUS_fail t.val) = 1 ∧ u.get (R.TILE_CAP_STATUS_reason t.val) = 1 ∧ u.front.capTiles = 0 ∧ sameBytes s u)) ∧
    (s.get R.BF_CAP_CTRL_arm = 1 → s.front.capTiles = 0 →
      Leads s .captureDone fun u =>
        u.get R.BF_CAP_CTRL_arm = 0 ∧ u.get R.BF_CAP_CTRL_done = 1 ∧ (s.hubUp = true → u.pends 53 = true) ∧ sameBytes s u)

/-- A tension cycle is asked for by BF_TENSION_CTRL.go, by its period or by its temperature trigger in hardware calibration mode; when its
passes are done, its solve is accepted where the residuals stay within 1.5 degrees and 0.15 dB RMS and counts, any other is rejected; a
cycle not completed within 100 ms is discarded and asked for anew (R107, R110, R111). COMPLETES: under hypotheses on the state and the
operands alone, exec answers a next state (exec c s = .next t for some t, which is what Leads and Answers say) for tensionTrigger,
tensionGo, tensionComplete, tensionTimeout. -/
def Obligations.TensionCycles : Prop :=
  ∀ (s : State) (ini : Initiator) (data : Word) (t : Fin 8) (couplings seams : List (Nat × Nat × Int × Int)),
    (s.opens ini true 0x020A0400 data.toNat → data.getLsbD t.val = true →
      Answers s (.tensionGo ini data) .ok fun u => (u.tile t.val).tensionWait = true ∧ sameBytes s u) ∧
    (s.bit R.HUB_FUNC_MODE_bits 6 = false → (s.tile t.val).tension = none →
      (s.get R.BF_TENSION_CTRL_period ≠ 0 → Leads s (.tensionTrigger t false) fun u =>
        (u.tile t.val).tensionWait = true ∧ u.clk.mesh = max s.clk.mesh ((s.tile t.val).tensionLast + s.get R.BF_TENSION_CTRL_period * 1250000000) ∧
        sameFields [] s u ∧ sameBytes s u) ∧
      (s.get R.BF_TENSION_CTRL_dtemp ≠ 0 → 5 * s.get R.BF_TENSION_CTRL_dtemp < (s.getS (R.TEMP_temp t.val) - (s.tile t.val).tensionTemp).natAbs →
        Leads s (.tensionTrigger t true) fun u => (u.tile t.val).tensionWait = true ∧ sameFields [] s u ∧ sameBytes s u)) ∧
    (∀ c : Tension, (s.tile t.val).tension = some c → passWindows t.val c.passes = none →
      let own := ((couplings ++ seams).filterMap s.pairDrift).filter fun p => p.tx / 64 == t.val && p.rx / 64 == t.val
      let good := residualSum own (fun p => p.phase) (tileSolve own fun p => p.phase) ≤ (own.length : Rat) * 1500 ^ 2 ∧
        residualSum own (fun p => p.gain) (tileSolve own fun p => p.gain) ≤ (own.length : Rat) * 150 ^ 2
      Leads s (.tensionComplete t couplings seams) fun u =>
        (u.tile t.val).tension = none ∧ u.get (R.TILE_TENSION_STATUS_busy t.val) = 0 ∧
        (good →
          u.get (R.TILE_TENSION_STATUS_cycles t.val) = (s.get (R.TILE_TENSION_STATUS_cycles t.val) + 1) % 65536 ∧ (u.tile t.val).tensionLast = s.clk.mesh) ∧
        (¬ good → u.get (R.TILE_TENSION_STATUS_reject t.val) = 1) ∧ sameBytes s u) ∧
    (∀ c : Tension, (s.tile t.val).tension = some c →
      Leads s (.tensionTimeout t) fun u =>
        (u.tile t.val).tension = none ∧ (u.tile t.val).tensionWait = true ∧ u.get (R.TILE_TENSION_STATUS_busy t.val) = 0 ∧
        u.clk.mesh = max s.clk.mesh (c.start + 125000000) ∧ sameBytes s u)

/-- A block boundary brings mesh time to the next multiple of 128 ns, or of 256 ns on a single channel; written trims are in force from it on,
and what waited for it waits no more. Shown for a block in which nothing was observed (R37, R68, R113). Where the spec is silent it follows
the model's choice of log 11 and 51. COMPLETES: under hypotheses on the state and the operands alone, exec answers a next state (exec c s =
.next t for some t, which is what Leads and Answers say) for blockBoundary. -/
def Obligations.BlockBoundary : Prop :=
  ∀ s : State, s.hubUp = true →
    Leads s (.blockBoundary []) fun t =>
      t.clk.blockAt % s.blockTicks = 0 ∧ s.clk.blockAt < t.clk.blockAt ∧ s.clk.mesh ≤ t.clk.blockAt ∧ t.clk.mesh = t.clk.blockAt ∧
      t.front.calWait = [] ∧ t.front.fineWait = [] ∧
      (∀ e : Nat, e < 512 → e ∈ s.front.calWait →
        (t.elem e).calRx = s.get (R.ELEM_CAL_RX_phase e) * 256 + s.get (R.ELEM_CAL_RX_gain e) ∧
        (t.elem e).calTx = s.get (R.ELEM_CAL_TX_phase e) * 256 + s.get (R.ELEM_CAL_TX_gain e)) ∧
      (∀ g : Nat, t.eng g = s.eng g)

/-- A lead at or above the threshold within the search span starts a receive frame with its measured lead start; without one the search ends as
LEAD_MISS (R120). A header whose check fails ends its frame as HDR_FAIL; a good one gives the frame its payload MCS and its number of
codewords (R124). COMPLETES: under hypotheses on the state and the operands alone, exec answers a next state (exec c s = .next t for some t,
which is what Leads and Answers say) for leadDetect, leadMiss, headerDecode. -/
def Obligations.LeadsAndHeaders : Prop :=
  (∀ (s : State) (n : Fin 16) (m : LeadMeas) (c : Crossing), s.running n.val = some c → c.d.dir ≠ 1 → c.leadHeard = false → c.searchEnded = false →
     (c.d.sweep = false → (s.slot n.val).thresh ≤ m.corrUni → ((m.start : Int) - s.expectedLead c.d c.b0).natAbs ≤ 16 * (s.slot n.val).search →
       Leads s (.leadDetect n m) fun t =>
         (∃ f : PhyFrame, (t.slot n.val).rx = (s.slot n.val).rx ++ [f] ∧ f.lead = m.start ∧ f.nbr = c.d.nbr ∧ f.hdrDone = false ∧
           f.leadErr = (m.start : Int) - s.expectedLead c.d c.b0) ∧
         (∀ y : Crossing, y ∈ t.xng.fetched → y.id = c.id → y.leadHeard = true) ∧ sameBytes s t) ∧
     (Leads s (.leadMiss n) fun t =>
       t.get (R.PHY_CNT_count 1) = min (s.get (R.PHY_CNT_count 1) + 1) (2 ^ 32 - 1) ∧
       (∀ y : Crossing, y ∈ t.xng.fetched → y.id = c.id → y.searchEnded = true) ∧ (t.slot n.val).rx = (s.slot n.val).rx)) ∧
  (∀ (s : State) (n : Fin 16) (h : List Byte) (f : PhyFrame), (s.slot n.val).rx = [f] → f.hdrDone = false →
     (headerCrcOk h = false →
       Leads s (.headerDecode n h) fun t =>
         (t.slot n.val).rx = [] ∧ t.get (R.PHY_CNT_count 2) = min (s.get (R.PHY_CNT_count 2) + 1) (2 ^ 32 - 1)) ∧
     (headerCrcOk h = true → headerValid f.heads h = true → f.soft = false → f.cut = none → phyNcw h ≠ 0 →
       frameLength { f with hdrDone := true, mcs := phyMcs h, ncw := phyNcw h, lastBytes := phyLast h, hdr := h } + 1
         ≤ (16 * f.ends - f.lead) / (16 * s.blockTicks) →
       Leads s (.headerDecode n h) fun t =>
         ∃ g : PhyFrame, (t.slot n.val).rx = [g] ∧ g.hdrDone = true ∧ g.mcs = phyMcs h ∧ g.ncw = phyNcw h ∧ g.lead = f.lead))

/-- While the LDPC domain runs, a free decoder takes the oldest queued codeword; a codeword that its checks pass joins its frame, and one that
is not decoded within its limit ends the frame as CW_FAIL once no other decoder works on it; a block that is equalised counts for its frame
(R130, R132, R135). 640 ns before B0 a frame that fits its crossing is taken for it, with its lead at B0, and as the crossing starts it
takes its sequence number and its acknowledgement block (R169, R134; log 129); an encoder that ends a codeword counts it; a codeword still
to be encoded when it is due ends the frame as TX_UNDERRUN (R134). PHY_SOFT_BEAMS takes at most four slots and ignores more with bad_mask
(R140). Where the spec is silent it follows the model's choice of log 40. COMPLETES: under hypotheses on the state and the operands alone,
exec answers a next state (exec c s = .next t for some t, which is what Leads and Answers say) for decoderStart, codewordDecoded,
txLeadStart, codewordEncoded, txUnderrun, blockEqualised, phySoftBeamsWrite, crossingStart. -/
def Obligations.CodewordsAndTransmission : Prop :=
  (∀ (s : State) (d : Fin 16) (n : Fin 16) (iters : Nat) (word : List Bool) (w : Codeword) (rest : List Codeword) (f : PhyFrame) (b : SoftBlock),
     s.domRuns 11 = true →
     (vget s.phy.decoders d.val = none → s.phy.queue = w :: rest → s.phy.decReset.testBit d.val = false →
       Leads s (.decoderStart d) fun t =>
         ∃ v : Codeword, vget t.phy.decoders d.val = some v ∧ v.slot = w.slot ∧ v.crossing = w.crossing ∧ v.index = w.index ∧ v.mcs = w.mcs ∧
           v.limit ≤ w.maxIter ∧
           (∃ more : List Codeword, t.phy.queue = rest ++ more) ∧ sameBytes s t) ∧
     (vget s.phy.decoders d.val = some w → w.slot = n.val → (s.slot n.val).rx = [f] → f.crossing = w.crossing → f.failed = 0 →
       (iters ≤ w.limit → word.length = 2048 → ldpcChecks (mcsRows w.mcs) (bitBlocks word 32) = true → f.words.length + 1 ≠ f.ncw →
         Leads s (.codewordDecoded d iters word) fun t =>
           vget t.phy.decoders d.val = none ∧
           (t.slot n.val).rx = [{ f with iters := max f.iters iters, words := f.words ++ [(w.index, bitsBytes (word.take (mcsInfo w.mcs)))] }]) ∧
       (w.limit < iters → (∀ e : Fin 16, e ≠ d → vget s.phy.decoders e.val = none) →
         Leads s (.codewordDecoded d iters word) fun t =>
           vget t.phy.decoders d.val = none ∧ (t.slot n.val).rx = [] ∧
           t.get (R.PHY_CNT_count 5) = min (s.get (R.PHY_CNT_count 5) + 1) (2 ^ 32 - 1))) ∧
     ((s.slot n.val).rx = [f] → f.soft = false → f.hdrDone = false →
       Leads s (.blockEqualised n b) fun t => (t.slot n.val).rx = [{ f with blocks := f.blocks + 1 }] ∧ sameBytes s t)) ∧
  (∀ (s : State) (n : Fin 16) (e : Fin 16) (c : Crossing) (g : PipeFrame) (f : PhyFrame) (k : Nat) (ini : Initiator) (data : Word),
     (s.txCrossing n.val = some c → s.txPiped n.val = true → (s.slot n.val).tx = none → c.started = false → c.txTag = none → c.ackOnly = true → c.d.mcs ≠ 15 →
       frameBlocks c.d.mcs (splitPayload c.d.mcs (24 + s.frameExtra c.d.nbr)).1 + 1 ≤ c.d.blocks →
       Leads s (.txLeadStart n) fun t => t.clk.mesh = max s.clk.mesh (c.b0 - 800) ∧ sameFields [] s t ∧ sameBytes s t ∧
         ∃ x : PhyFrame, (t.slot n.val).tx = some x ∧ x.nbr = c.d.nbr ∧ x.mcs = c.d.mcs ∧ x.lead = 16 * c.b0 ∧ x.ackOnly = true) ∧
     (s.nextOn n.val (fun y => y.checked && !y.started) = some c → c.d.dir = 1 → c.txTag = none → (s.slot n.val).tx = some f → f.hdr = [] →
       ((List.range 8).findSome? fun p => (s.pipe p).frames.find? fun (x : PipeFrame) => !x.rx && x.slot == n.val) = some g → s.isBroadcast c.d.nbr = false →
       Leads s (.crossingStart n) fun t =>
         t.get (R.NBR_TX_NEXT_seq c.d.nbr) = (s.get (R.NBR_TX_NEXT_seq c.d.nbr) + 1) % 2 ^ 32 ∧
         t.get (R.NBR_LAST_TX_SEQ_seq c.d.nbr) = s.get (R.NBR_TX_NEXT_seq c.d.nbr) ∧ t.get (R.NBR_LIVE_ack_owed c.d.nbr) = 0 ∧ sameBytes s t) ∧
     (s.domRuns 11 = true → vget s.phy.encoders e.val = some (n.val, k) → (s.slot n.val).tx = some f →
       Leads s (.codewordEncoded e) fun t => (t.slot n.val).tx = some { f with encoded := f.encoded + 1 } ∧
         t.phy.lastEncoded = ldpcEncode (mcsRows f.mcs) (codewordInfo f.mcs f.seq f.ncw k f.body) ∧ sameFields [] s t ∧ sameBytes s t) ∧
     ((s.slot n.val).tx = some f → f.encoded + s.encodingOn n.val < f.ncw →
       Leads s (.txUnderrun n) fun t => t.clk.mesh = max s.clk.mesh (s.codewordDue n.val f) ∧
         (t.slot n.val).tx = none ∧ t.get (R.PHY_CNT_count 9) = min (s.get (R.PHY_CNT_count 9) + 1) (2 ^ 32 - 1)) ∧
     (s.opens ini true 0x02070020 data.toNat →
       (popcount 16 data.toNat ≤ 4 → Answers s (.phySoftBeamsWrite ini data) .ok fun t => t.get R.PHY_SOFT_BEAMS_slots = data.toNat % 65536 ∧ sameBytes s t) ∧
       (4 < popcount 16 data.toNat → Answers s (.phySoftBeamsWrite ini data) .ok fun t =>
         t.get R.PHY_SOFT_STATUS_bad_mask = 1 ∧ sameFields [R.PHY_SOFT_STATUS_bad_mask.row] s t ∧ sameBytes s t)))

/-- XNG_COMMIT.go selects its image for a cycle boundary (R145); XNG_CTRL.enable starts the walk at the first window at least 16 windows ahead
(R147); XNG_PUSH_PTR.wr moves forward, or is refused with BUSY (R158); a pushed entry that can be held is held, with its vote and source 73
(R158, R159); the next crossing is fetched, and its descriptor goes to its pilot engine (R150, R151); and the vote scan raises the
crossing's vote on each of its tiles (R155). Where the spec is silent it follows the model's choice of log 120. COMPLETES: under hypotheses
on the state and the operands alone, exec answers a next state (exec c s = .next t for some t, which is what Leads and Answers say) for
xngCommit, xngEnable, crossingFetch, voteScan, xngPushPtrWrite, pushEntryRead. -/
def Obligations.CrossingFetches : Prop :=
  ∀ (s u : State) (ini : Initiator) (data : Word) (src : XSrc) (d : Desc) (w : Nat) (x : XRef),
    (s.opens ini true 0x02080004 data.toNat → s.get R.HUB_GCOMMIT_busy = 0 → data.getLsbD 0 = true →
      Answers s (.xngCommit ini data) .ok fun t =>
        (∃ b : Nat, t.xng.commit = (s.xng.commit.filter fun y => y.2 < b) ++ [(data.toNat / 256 % 2, b)] ∧ b % 5242880 = 0 ∧ s.clk.mesh < b) ∧ t.get R.XNG_COMMIT_pending = 1 ∧
        sameFields [R.XNG_COMMIT_pending.row, R.XNG_COMMIT_image.row, (R.PWR_VOTE_votes 0).row] s t ∧ sameBytes s t) ∧
    (s.opens ini true 0x02080000 data.toNat → data.getLsbD 0 = true → s.get R.XNG_CTRL_enable = 0 →
      Answers s (.xngEnable ini data) .ok fun t =>
        t.get R.XNG_CTRL_enable = 1 ∧ t.xng.fetchFrom % 1280 = 0 ∧ s.clk.mesh + 16 * 1280 ≤ t.xng.fetchFrom ∧ t.xng.fetchFrom < s.clk.mesh + 17 * 1280 ∧
        sameFields [R.XNG_CTRL_vote_lead.row, R.XNG_CTRL_auto_preload.row, R.XNG_CTRL_enable.row, (R.PWR_VOTE_votes 0).row] s t ∧ sameBytes s t) ∧
    (s.opens ini true 0x02080024 data.toNat →
      let wr := data.toNat / 65536 % 256
      let far (p : Nat) := (p % 256 + 256 - s.get R.XNG_PUSH_PTR_rd) % 256
      (far (s.get R.XNG_PUSH_PTR_wr) ≤ far wr → Answers s (.xngPushPtrWrite ini data) .ok fun t => t.get R.XNG_PUSH_PTR_wr = wr ∧ sameBytes s t) ∧
      (far wr < far (s.get R.XNG_PUSH_PTR_wr) →
        Answers s (.xngPushPtrWrite ini data) .busy fun t => sameFields [R.XNG_PUSH_PTR_refused.row] s t ∧ sameBytes s t)) ∧
    (let rd := s.get R.XNG_PUSH_PTR_rd
     let a := s.get R.XNG_PUSH_BASE_base * 32 + 32 * rd
     let w := s.word (a + 16) + 2 ^ 32 * s.word (a + 20)
     s.hubUp = true → rd ≠ s.get R.XNG_PUSH_PTR_wr → s.xng.held.length < 256 → inSram a 32 = true → s.poisonedIn a 32 = false → (s.descAt a).valid = true →
       s.pushReason (s.descAt a) w = 0 →
      Leads s .pushEntryRead fun t =>
        t.get R.XNG_PUSH_PTR_rd = (rd + 1) % 256 ∧ t.xng.held = s.xng.held ++ [⟨s.xng.nextId, s.descAt a, w⟩] ∧ t.pends 73 = true ∧
        (∃ v : XVote, v ∈ t.xng.votes ∧ v.src = .pushed s.xng.nextId) ∧
        sameFields [R.XNG_PUSH_PTR_rd.row, (R.IRQ_PEND_pend 0).row, (R.PWR_VOTE_votes 0).row] s t ∧ sameBytes s t) ∧
    (s.hubUp = true → s.get R.XNG_CTRL_enable = 1 → s.walkNext walkFuel = (u, some (.fetch src d w)) → u.firstHeld = none →
      let v := u.reach (w - 16 * 1280)
      v.fetchReason d w = 0 →
      (s.eng d.slot).mbox.length < 16 → (∀ p : EngWait, (s.eng d.slot).wait ≠ some p) →
      Leads s .crossingFetch fun t =>
        t.clk.mesh = max s.clk.mesh (w - 16 * 1280) ∧
        (∃ c : Crossing, t.xng.fetched = u.xng.fetched ++ [c] ∧ c.id = u.xng.nextId ∧ c.src = src ∧ c.d = d ∧ c.winStart = w ∧ c.b0 = v.descB0 d w ∧
          c.ends = v.extentEnd d (v.descB0 d w) ∧ c.tiles = v.descTiles d ∧ c.checked = false ∧ c.started = false) ∧
        (t.eng d.slot).mbox = (s.eng d.slot).mbox ++ [(0x80, d.raw.map (BitVec.ofNat 32), w)] ∧ sameBytes s t) ∧
    (∀ (i : Nat) (next : Bool), x = .image i next → s.lookAhead x = some (src, d, w) → (∀ v : XVote, v ∈ s.xng.votes → v.src ≠ src) →
      Leads s (.voteScan x) fun t =>
        t.xng.votes = s.xng.votes ++ [⟨src, s.descB0 d w, s.descTiles d, !d.sweep⟩] ∧ t.clk.mesh = max s.clk.mesh (s.descB0 d w - s.voteLead) ∧ (∀ k : Nat, k < 8 → (s.descTiles d).testBit k = true → t.bit (R.PWR_VOTE_votes (k + 1)) 31 = true) ∧
        sameFields [(R.PWR_VOTE_votes 0).row] s t ∧ sameBytes s t)

/-- Tiles are warmed, and turned to TX or RX where their synthesiser is locked (R60, R151); a crossing that passes its readiness check is
checked, and one that fails it is skipped with its reason counted (R153, R161); a conditional reply without a lead in its pair is skipped as
PAIR_ABSENT (R173); a crossing starts with its yarn and ends (R151, R156); and the band is asked for and granted (R320, R321). Where the
spec is silent it follows the model's choice of log 120. COMPLETES: under hypotheses on the state and the operands alone, exec answers a
next state (exec c s = .next t for some t, which is what Leads and Answers say) for tileWarmCommand, turnCommand, crossingStart,
readinessCheck, crossingEnd, condReplyDecision, coexRequest, cxiReqRise, cxiReqFall. -/
def Obligations.CrossingRuns : Prop :=
  ∀ (s : State) (x : XRef) (codes : List (Nat × Nat × Int × Int)) (src : XSrc) (d : Desc) (w : Nat) (n : Fin 16) (c : Crossing) (gnt pri : Bool),
    (s.lookAhead x = some (src, d, w) →
      Leads s (.tileWarmCommand ⟨x, codes⟩) fun t =>
        (∀ k : Nat, k < 8 → (s.descTiles d).testBit k = true → s.tileRuns k = true → (s.tile k).radio = .off → (t.tile k).radio = .warm) ∧
        (∀ k : Nat, k < 8 → (s.tile k).radio ≠ .off → (t.tile k).radio = (s.tile k).radio) ∧ sameBytes s t) ∧
    (s.nextOn n.val (fun y => y.checked && !y.started) = some c →
      (Leads s (.turnCommand n) fun t =>
        ∀ k : Nat, k < 8 → (t.tile k).radio =
          if c.tiles.testBit k && (s.tile k).radio == .idle && s.tileLocked k then (if c.d.dir = 1 then .tx else .rx) else (s.tile k).radio) ∧
      (Leads s (.crossingStart n) fun t =>
        t.clk.mesh = max s.clk.mesh c.b0 ∧ (∀ y : Crossing, y ∈ t.xng.fetched → y.id = c.id → y.started = true) ∧
        (s.fabricRuns 0 = true → (0, n.val, 2) ∈ t.yrn.flying) ∧ (∀ g : Nat, t.eng g = s.eng g) ∧ sameBytes s t)) ∧
    (s.nextOn n.val (fun y => !y.checked) = some c →
      (s.readyReason c gnt = 0 → Leads s (.readinessCheck n gnt) fun t =>
        (∀ y : Crossing, y ∈ t.xng.fetched → y.id = c.id → y.checked = true) ∧ t.clk.mesh = max s.clk.mesh (c.b0 - 2560) ∧
        (∀ k : Nat, k < 8 → c.tiles.testBit k = true → (s.tile k).radio = .warm → (t.tile k).radio = .idle)) ∧
      (s.readyReason c gnt ≠ 0 → Leads s (.readinessCheck n gnt) fun t =>
        (∀ y : Crossing, y ∈ t.xng.fetched → y.id ≠ c.id) ∧
        t.get (R.XNG_SKIP_CNT_count (s.readyReason c gnt)) = min (s.get (R.XNG_SKIP_CNT_count (s.readyReason c gnt)) + 1) (2 ^ 32 - 1))) ∧
    (s.nextOn n.val (fun y => y.checked && !y.started && y.d.cond) = some c → s.pairFor c = none →
      Leads s (.condReplyDecision n) fun t =>
        (∀ y : Crossing, y ∈ t.xng.fetched → y.id ≠ c.id) ∧ t.get (R.XNG_SKIP_CNT_count 10) = min (s.get (R.XNG_SKIP_CNT_count 10) + 1) (2 ^ 32 - 1)) ∧
    (s.running n.val = some c →
      Leads s (.crossingEnd n gnt) fun t => (∀ y : Crossing, y ∈ t.xng.fetched → y.id ≠ c.id) ∧ t.clk.mesh = max s.clk.mesh c.ends ∧ (∀ g : Nat, t.eng g = s.eng g)) ∧
    (s.nextOn n.val (fun y => !y.started && !y.coexAsked && (if y.d.dir = 1 then s.on R.COEX_CFG_tx_xng else s.on R.COEX_CFG_rx_xng)) = some c →
      Leads s (.coexRequest n) fun t => t.pins.cxReq = true ∧ t.clk.mesh = max s.clk.mesh (c.b0 - 5120) ∧ sameFields [] s t ∧ sameBytes s t) ∧
    (s.pins.cxiGnt = false → (s.hubUp = true → s.get R.COEX_CFG_cxi_en = 1) → (∀ y : Crossing, y ∈ s.inProgress → y.d.dir = 0) →
      Leads s (.cxiReqRise pri) fun t =>
        t.pins.cxiReq = true ∧ t.pins.cxiGnt = true ∧ (s.aon.bellTx = .onAir → t.aon.bellTx = .pending) ∧ sameFields [R.AON_WK_STATE_states.row] s t ∧ sameBytes s t) ∧
    exec .cxiReqFall s = .next { s with pins := { s.pins with cxiReq := false, cxiPri := false, cxiGnt := false } }

/-- A transmit descriptor that its landing offers becomes a fresh frame whose horizon begins now, or is refused with a DENIED entry (R168); a
deadline makes a sent frame await retry, or fails it with LIMIT (R170, R171); the horizon fails it with HORIZON (R171); and a received frame
fills the descriptors of its landing (R16). Where the spec is silent it follows the model's choice of log 35. COMPLETES: under hypotheses on
the state and the operands alone, exec answers a next state (exec c s = .next t for some t, which is what Leads and Answers say) for
rxFrameLanding, txDescriptorRead, ackDeadline, horizonExpiry. -/
def Obligations.FrameDescriptors : Prop :=
  ∀ (s : State) (n : Fin 64) (d : TxDesc) (f : TxFrame) (g : RxFrame) (rest : List RxFrame) (descs used : List LandDesc),
    (s.hears hostLink = true → s.ringPosted n.val ≠ 0 → (s.nbr n.val).frames.length < 64 → d.tag ∉ (s.nbr n.val).cancelAhead → d.once = false →
      (d.nbr = n.val → d.len ≤ 32768 → d.cipherBypass = s.cipherBypass n.val → d.crcBypass = s.crcBypass n.val → d.read = .ok →
        Leads s (.txDescriptorRead n d) fun t =>
          (∃ x : TxFrame, (t.nbr n.val).frames = (s.nbr n.val).frames ++ [x] ∧ x.tag = d.tag ∧ x.index = s.ringHead n.val ∧ x.cls = d.cls % 8 ∧
            x.data = (d.data ++ List.replicate d.len 0).take d.len ∧ x.horizon = s.clk.mesh ∧ x.attempts = 0 ∧ x.seq = none) ∧
          t.get (R.NBR_LIVE_held n.val) = (s.nbr n.val).frames.length + 1 ∧ t.get (R.LNK_LND_HEAD_head n.val) = (s.ringHead n.val + 1) % s.ringSize n.val ∧
          sameBytes s t) ∧
      (d.nbr ≠ n.val ∨ 32768 < d.len →
        Leads s (.txDescriptorRead n d) fun t =>
          (t.nbr n.val).frames = (s.nbr n.val).frames ∧ t.lnk.entries = s.lnk.entries ++ [txEntry n.val d.tag (s.ringHead n.val) 0 0 .denied] ∧ sameBytes s t)) ∧
    ((s.nbr n.val).frames = [f] → f.attempts ≠ 0 → f.lastTxEnd ≤ (s.nbr n.val).lastRxStart →
      (f.attempts ≤ s.get (R.NBR_CFG_retry_limit n.val) → f.phase = .sent →
        Leads s (.ackDeadline n) fun t => (t.nbr n.val).frames = [{ f with phase := .awaitRetry }] ∧ sameFields [] s t ∧ sameBytes s t) ∧
      (s.get (R.NBR_CFG_retry_limit n.val) < f.attempts → f.twins = [] →
        Leads s (.ackDeadline n) fun t =>
          (t.nbr n.val).frames = [] ∧ t.lnk.entries = s.lnk.entries ++ [txEntry n.val f.tag f.index f.attempts 1 .failedRetry] ∧ sameBytes s t)) ∧
    ((s.nbr n.val).frames = [f] → f.twins = [] →
      Leads s (.horizonExpiry n f.tag) fun t =>
        t.clk.mesh = max s.clk.mesh (f.horizon + 10485760 + 625000) ∧ (t.nbr n.val).frames = [] ∧
        t.lnk.entries = s.lnk.entries ++ [txEntry n.val f.tag f.index f.attempts 2 .failedRetry] ∧ sameBytes s t) ∧
    ((s.nbr n.val).rxQueue = g :: rest → g.pool = none → descsFor g.data.length (descs.take (s.ringPosted (64 + g.cls))) = some used →
      (∀ h : Nat × PipeFrame, h ∈ s.rxFramesOf n.val → g.lead ≤ h.2.lead ∧ h.2.ok = none) →
      Leads s (.rxFrameLanding n descs) fun t =>
        (t.nbr n.val).rxQueue = rest ∧ (∀ g : Nat, t.eng g = s.eng g) ∧ sameBytes s t ∧
        ∃ e : RingEntry, t.lnk.entries = s.lnk.entries ++ [e] ∧ e.kind = 2 ∧ e.status = 0 ∧ e.ring = 64 + g.cls ∧ e.index = s.ringHead (64 + g.cls) ∧ e.count = used.length)

/-- A step of mesh time passes over windows and their crossings (R179); a silent parent clears locked (R178); a commit marks the neighbours of
MAC_NBR_SEL, and an idle one takes its shadow configuration at a window boundary, from the one after the commit on (R182). Where the spec is
silent it follows the model's choice of log 121. COMPLETES: under hypotheses on the state and the operands alone, exec answers a next state
(exec c s = .next t for some t, which is what Leads and Answers say) for parentSilent, timeStep, macNbrCommit, neighbourCopy. -/
def Obligations.TimeAndNeighbours : Prop :=
  ∀ (s : State) (ini : Initiator) (data : Word) (n : Fin 64) (ticks who : Nat),
    (s.clk.stepWait = some (ticks, who) → s.hubUp = true → s.inProgress = [] → s.clk.mesh % 1280 = 0 →
      Leads s .timeStep fun t =>
        t.clk.mesh = s.clk.mesh + ticks ∧ t.clk.stepWait = none ∧ t.get R.MAC_TIME_STATUS_stepped ≠ 0 ∧
        (∀ c : Crossing, c ∈ t.xng.fetched → ¬(s.clk.mesh ≤ c.winStart ∧ c.winStart < s.clk.mesh + ticks)) ∧
        (∀ h : Held, h ∈ t.xng.held → ¬(s.clk.mesh ≤ h.winStart ∧ h.winStart < s.clk.mesh + ticks)) ∧ (∀ g : Nat, t.eng g = s.eng g)) ∧
    (s.hubUp = true → s.xng.hostTime = false →
      Leads s .parentSilent fun t =>
        t.get R.MAC_TIME_STATUS_locked = 0 ∧ (s.get R.MAC_TIME_STATUS_locked ≠ 0 → t.pends 23 = true) ∧ t.clk.slew = s.clk.slew ∧
        sameFields [R.MAC_TIME_STATUS_locked.row, (R.IRQ_PEND_pend 0).row] s t ∧ sameBytes s t) ∧
    (s.opens ini true 0x02090000 data.toNat → s.get R.MAC_NBR_COMMIT_pending = 0 → s.get R.HUB_GCOMMIT_busy = 0 → data.getLsbD 0 = true →
      s.bit (R.MAC_NBR_SEL_nbrs (n.val / 32)) (n.val % 32) = true →
      Answers s (.macNbrCommit ini data) .ok fun t =>
        (t.nbr n.val).copyWait = true ∧ t.get R.MAC_NBR_COMMIT_pending = 1 ∧ sameFields [R.MAC_NBR_COMMIT_pending.row] s t ∧ sameBytes s t) ∧
    ((s.nbr n.val).copyWait = true → s.nbrIdle n.val = true → s.hubUp = true → s.poisonedIn (0x1004000 + 64 * n.val) 64 = false →
      Leads s (.neighbourCopy n) fun t =>
        (t.nbr n.val).copyWait = false ∧ t.clk.mesh % 1280 = 0 ∧ (s.nbr n.val).copyFrom ≤ t.clk.mesh ∧ s.clk.mesh ≤ t.clk.mesh ∧ t.get (R.NBR_ADDR_short n.val) = s.get (R.SH_ADDR_short n.val) % 65536 ∧
        t.get (R.NBR_NODE_LO_node_id_lo n.val) = s.get (R.SH_NODE_LO_node_id_lo n.val) % 2 ^ 32 ∧ t.get (R.NBR_CFG_enabled n.val) = s.get (R.SH_CFG_enabled n.val) % 2 ∧
        (∀ g : Nat, t.eng g = s.eng g) ∧ sameBytes s t)

/-- A frame to send enters the lowest-numbered pipe with room, a received one the pipe it was given while that runs, and its key invocation
counts (R232, R241); a received frame whose check value is wrong counts against its pipe and fires source 112, a good one advances the
replay window (R166, R167, R236, R257). Where the spec is silent it follows the model's choice of log 37. COMPLETES: under hypotheses on the
state and the operands alone, exec answers a next state (exec c s = .next t for some t, which is what Leads and Answers say) for pipeEntry,
tagVerified. -/
def Obligations.CipherPipes : Prop :=
  ∀ (s : State) (n : Fin 16) (p : Fin 8) (c : Crossing) (f : PipeFrame) (k : KeySlot),
    let key := s.txKeySlot c.d.nbr
    (s.txCrossing n.val = some c → s.pipeFor 1 = some p.val → c.txTag.isSome || c.ackOnly → s.txPiped n.val = false →
      (s.cipherBypass c.d.nbr = true →
        Leads s (.pipeEntry false n) fun t =>
          (∃ x : PipeFrame, (t.pipe p.val).frames = (s.pipe p.val).frames ++ [x] ∧ x.rx = false ∧ x.slot = n.val ∧ x.nbr = c.d.nbr ∧ x.keySlot = none) ∧ sameBytes s t) ∧
      (s.cipherBypass c.d.nbr = false → s.cipherHold = false → s.slotUsable c.d.nbr key = true → s.keySlot key = some k →
        Leads s (.pipeEntry false n) fun t =>
          (∃ x : PipeFrame, (t.pipe p.val).frames = (s.pipe p.val).frames ++ [x] ∧ x.rx = false ∧ x.slot = n.val ∧ x.nbr = c.d.nbr ∧ x.keySlot = some key) ∧
          t.get (R.SEC_SLOT1_count key) = min (k.count + 1) (2 ^ 32 - 1) ∧
          (k.limit ≤ k.count + 1 → t.get (R.SEC_SLOT0_state key) = 3) ∧ sameBytes s t)) ∧
    (s.phy.waiting = [f] → f.slot = n.val →
      (f.pipe = none ∧ s.pipeFor f.segs = some p.val) ∨ (f.pipe = some p.val ∧ s.domRuns 12 = true ∧ (s.pipe p.val).inReset = false) → (∀ i : Nat, s.txCrossing i = none) →
      Leads s (.pipeEntry true n) fun t =>
        t.phy.waiting = [] ∧ (∃ o : Option Nat, (t.pipe p.val).frames = (s.pipe p.val).frames ++ [{ f with keySlot := o, pipe := none }]) ∧ sameBytes s t) ∧
    (let h := f.hdr
     let len := hdrLen h
     let check := ofBytes ((f.body.drop len).take 4)
     s.domRuns 12 = true → (s.pipe p.val).frames.find? (fun x => x.rx && x.ok.isNone) = some f → (hdrFlags h).testBit 4 = true → (hdrFlags h).testBit 5 = false →
      (len + 4 ≤ f.body.length → check ≠ frameCheck (hdrDst h) (hdrSrc h) (hdrSeq h) f.xid (f.body.take len) →
        Leads s (.tagVerified p) fun t =>
          t.get (R.CRC_INL_FAIL_count p.val) = min (s.get (R.CRC_INL_FAIL_count p.val) + 1) (2 ^ 32 - 1)) ∧
      (len + 4 ≤ f.body.length → check = frameCheck (hdrDst h) (hdrSrc h) (hdrSeq h) f.xid (f.body.take len) → s.rxFramesOf f.nbr = [(p.val, f)] → s.aheadInPhy f.nbr f.lead = false →
        hdrDst h ≠ 0xFFFF → hdrCtl h % 16 = 1 → (hdrFlags h).testBit 3 = false → s.get (R.NBR_LIVE_rx_any f.nbr) = 0 →
        Leads s (.tagVerified p) fun t =>
          t.get (R.NBR_RX_HIGH_h f.nbr) = hdrSeq h ∧ t.get (R.NBR_LIVE_rx_any f.nbr) = 1 ∧ t.get (R.CRC_INL_FAIL_count p.val) = s.get (R.CRC_INL_FAIL_count p.val)))

/-- SEC_KEY_CMD: LOAD stages a key for a slot, or ends IN_USE where the slot holds a key that could be selected; ERASE is always accepted; ops 0
and 3 end BAD_OP (R239). The staged command changes its slot at the neighbour's idle instant (R238); a loss of VCORE zeroises every slot
(R230); a keel write of bell key word 3 makes the key valid (R251). Where the spec is silent it follows the model's choice of log 60 and 61.
COMPLETES: under hypotheses on the state and the operands alone, exec answers a next state (exec c s = .next t for some t, which is what
Leads and Answers say) for vcoreLoss, keySlotApply, secKeyLoad, secKeyErase, secKeyBadOp, bellKeyWrite. -/
def Obligations.KeyCommands : Prop :=
  ∀ (s : State) (ini : Initiator) (data : Word) (k : Nat) (load : Option (KeySlot × Nat × Bool)) (w : Fin 4),
    let slot := data.toNat % 256
    let op := data.toNat / 65536 % 4
    (s.opens ini true 0x02060230 data.toNat → s.get R.SEC_KEY_STATUS_busy = 0 →
      (op = 1 → ¬(s.slotHolds slot = true ∧ s.slotSelectable slot = true) →
        Answers s (.secKeyLoad ini data) .ok fun t =>
          t.get R.SEC_KEY_STATUS_busy = 1 ∧ (∃ q : KeySlot × Nat × Bool, t.sec.staged = some (slot, some q) ∧ q.1.key = s.stagedKey (data.getLsbD 15) ∧
            q.1.salt = s.get R.SEC_KEY_SALT_salt ∧ q.1.limit = s.get R.SEC_KEY_LIMIT_limit_m1 + 1 ∧ q.1.count = 0 ∧ q.2.1 = s.get R.SEC_KEY_CMD_ID_key_id) ∧
          (∀ i : Nat, i < 8 → t.get (R.SEC_KEY_DATA_key i) = 0) ∧ t.get R.SEC_KEY_SALT_salt = 0 ∧ t.get (R.SEC_SLOT0_state slot) = s.get (R.SEC_SLOT0_state slot) ∧
          sameBytes s t) ∧
      (op = 1 → s.slotHolds slot = true → s.slotSelectable slot = true →
        Answers s (.secKeyLoad ini data) .ok fun t =>
          t.get R.SEC_KEY_STATUS_result = 1 ∧ t.sec = s.sec ∧ sameFields [R.SEC_KEY_STATUS_result.row] s t ∧ sameBytes s t) ∧
      (op = 2 → Answers s (.secKeyErase ini data) .ok fun t =>
        t.get R.SEC_KEY_STATUS_busy = 1 ∧ t.sec.staged = some (slot, none) ∧ sameFields [R.SEC_KEY_STATUS_busy.row] s t ∧ sameBytes s t) ∧
      (op = 0 ∨ op = 3 → Answers s (.secKeyBadOp ini data) .ok fun t =>
        t.get R.SEC_KEY_STATUS_result = 2 ∧ t.sec = s.sec ∧ sameFields [R.SEC_KEY_STATUS_result.row] s t ∧ sameBytes s t)) ∧
    (s.sec.staged = some (k, load) → s.nbrIdle (k / 4) = true →
      Leads s .keySlotApply fun t =>
        t.get R.SEC_KEY_STATUS_busy = 0 ∧ t.get R.SEC_KEY_STATUS_result = 0 ∧ t.get (R.SEC_SLOT1_count k) = 0 ∧ t.sec.staged = none ∧
        (load = none → t.get (R.SEC_SLOT0_state k) = 0 ∧ t.keySlot k = none) ∧
        (∀ q : KeySlot × Nat × Bool, load = some q →
          t.get (R.SEC_SLOT0_state k) = 1 ∧ t.get (R.SEC_SLOT0_key_id k) = q.2.1 % 256 ∧ t.get (R.SEC_SLOT0_len256 k) = q.2.2.toNat ∧ t.keySlot k = some q.1) ∧
        (∀ j : Nat, j ≠ k → t.get (R.SEC_SLOT0_state j) = s.get (R.SEC_SLOT0_state j)) ∧ sameBytes s t) ∧
    (Leads s .vcoreLoss fun t =>
      t.sec.slots = [] ∧ t.sec.staged = none ∧ (∀ j : Nat, t.get (R.SEC_SLOT0_state j) = 0) ∧ t.get R.SEC_STATUS_rng = 0 ∧
      (s.sec.slots ≠ [] → t.get R.AON_SEC_EVENT_key_loss = 1) ∧ (∀ g : Nat, t.eng g = s.eng g)) ∧
    (s.opens ini true (0x03008010 + 4 * w.val) data.toNat →
      Answers s (.bellKeyWrite ini w data) .ok fun t =>
        t.get (R.AON_BELL_KEY_key w.val) = data.toNat ∧ (w.val = 3 → t.get R.AON_BELL_CTRL_key_valid = 1) ∧
        sameFields [(R.AON_BELL_KEY_key 0).row, R.AON_BELL_CTRL_key_valid.row] s t ∧ sameBytes s t)

/-- The 1,024th bit that passes its tests makes the RNG READY, the 41st equal bit in a row makes it FAILED (R243, R244); a keel restart leaves
FAILED (R244); SEC_RNG_DATA gives the first four bytes of one block of the DRBG, which goes on, or BUSY while the RNG is not READY (R246).
AON_OTP_DATA programs a word that is not locked, whose fuses only go from 0 to 1 (R250). A keel vote is kept, and what it deferred takes
effect where it is withdrawn (R227). Where the spec is silent it follows the model's choice of log 59 and 61. COMPLETES: under hypotheses on
the state and the operands alone, exec answers a next state (exec c s = .next t for some t, which is what Leads and Answers say) for
keelVoteWrite, entropyBit, rngRestart, rngDataRead, otpProgram, otpProgramDone. -/
def Obligations.RandomAndFuses : Prop :=
  ∀ (s : State) (ini : Initiator) (data miss : Word) (b : Bool) (a v : Nat),
    (s.sec.source = true → s.get R.SEC_STATUS_rng = 1 → s.hubUp = true → 1023 ≤ s.sec.bits.length → (s.takeBit b).healthFault = 0 →
      Leads s (.entropyBit b) fun t =>
        t.get R.SEC_STATUS_rng = 2 ∧ t.pends 99 = true ∧ sameFields [R.SEC_STATUS_rng.row, R.SEC_STATUS_cipher_hold.row, (R.IRQ_PEND_pend 0).row] s t ∧ sameBytes s t) ∧
    (s.sec.source = true → s.get R.SEC_STATUS_rng = 2 → s.sec.run = 40 → s.sec.lastBit = b →
      Leads s (.entropyBit b) fun t =>
        t.get R.SEC_STATUS_rng = 4 ∧ t.sec.source = false ∧ t.get R.SEC_RNG_FAILS_count = min (s.get R.SEC_RNG_FAILS_count + 1) 65535) ∧
    (s.opens ini true 0x02062000 data.toNat → data.getLsbD 0 = true → s.get R.SEC_STATUS_rng = 4 →
      Answers s (.rngRestart ini data) .ok fun t =>
        t.get R.SEC_STATUS_rng = 1 ∧ t.sec.source = true ∧ t.sec.bits = [] ∧ sameFields [R.SEC_STATUS_rng.row, R.SEC_STATUS_cipher_hold.row] s t ∧ sameBytes s t) ∧
    (s.opens ini false 0x02062008 0 →
      (s.get R.SEC_STATUS_rng = 2 →
        Answers s (.rngDataRead ini) .ok fun t =>
          t.resp.data = toBytes 4 (ofBytes (bytesOf ((s.sec.drbg.generate 1).1.take 4))) ∧ t.sec.drbg = (s.sec.drbg.generate 1).2 ∧ sameFields [] s t ∧ sameBytes s t) ∧
      (s.get R.SEC_STATUS_rng ≠ 2 → Answers s (.rngDataRead ini) .busy fun t => t.sec = s.sec ∧ sameFields [] s t ∧ sameBytes s t)) ∧
    (s.opens ini true 0x03008044 data.toNat → s.get R.AON_OTP_PROG_busy = 0 →
      let o := s.get R.AON_OTP_PROG_addr / 4 * 4
      (s.otpLocked o = false → Answers s (.otpProgram ini data) .ok fun t =>
        t.sec.otpBusy = some (o, data.toNat) ∧ t.get R.AON_OTP_PROG_busy = 1 ∧ sameFields [R.AON_OTP_PROG_busy.row] s t ∧ sameBytes s t) ∧
      (s.otpLocked o = true → Answers s (.otpProgram ini data) .denied fun t => t.sec = s.sec ∧ sameFields [] s t ∧ sameBytes s t)) ∧
    (s.sec.otpBusy = some (a, v) → v < 2 ^ 32 →
      Leads s (.otpProgramDone miss) fun t =>
        t.word (0x03009000 + a) = s.word (0x03009000 + a) ||| (v &&& (2 ^ 32 - 1 - miss.toNat)) ∧
        t.get R.AON_OTP_PROG_busy = 0 ∧ (miss.toNat = 0 → t.get R.AON_OTP_PROG_fail = 0) ∧ (s.hubUp = true → t.pends 102 = true) ∧
        (∀ x : Nat, x < 0x03009000 + a ∨ 0x03009000 + a + 4 ≤ x → t.byte x = s.byte x)) ∧
    (s.opens ini true 0x02010F00 data.toNat → s.get R.PWR_FORCE_OFF_force = 0 → s.pwr.deferForce = 0 → s.lnk.wot = [] →
      Answers s (.keelVoteWrite ini data) .ok fun t =>
        t.get R.PWR_KEEL_VOTE_vote = data.toNat % 65536 ∧
        (∀ d : Nat, 1 ≤ d → d ≤ 13 → s.bit R.PWR_KEEL_VOTE_vote d = true → data.getLsbD d = false → s.pwr.deferGate.testBit d = true →
          t.bit R.PWR_CLK_GATE_gate (d - 1) = true ∧ t.pwr.deferGate.testBit d = false) ∧
        sameFields [R.PWR_KEEL_VOTE_vote.row, R.PWR_KEEL_DEFER_deferred.row, R.PWR_CLK_GATE_gate.row, (R.PWR_VOTE_votes 0).row] s t ∧ sameBytes s t)

/-- A write of CRC_FEED_B, H or W advances the unit's check value by one, two or four bytes, low byte first, and the unit is busy for as many
cycles, which a non-posted access of it waits for (R259, R261; log 54); CRC_STATE loads it, and CRC_CFG takes the polynomial, a change of
which cuts the register to the new width (R260). A write of YRN_FIRE or TILE_YRN_FIRE puts an event on each yarn whose bit is 1 on its way
(R266, R269); an import delivers its oldest event while its source is powered (R268); a filter settles once S has held (R270; shown for a
cell of the hub whose table is all ones), and a cell that is switched starts from zero (R272); a selected edge on a GP pin is an event on
its yarn, and an output pulse ends when its cycles are over (R273). Where the spec is silent it follows the model's choice of log 52 and 54.
COMPLETES: under hypotheses on the state and the operands alone, exec answers a next state (exec c s = .next t for some t, which is what
Leads and Answers say) for crcFeedB, crcFeedH, crcFeedW, crcStateWrite, crcCfgWrite, yarnImportDelivery, yrnFire, stitchFilterSettle,
yrnCellCtrlWrite, gpInputEdge, gpPulseEnd. -/
def Obligations.ChecksAndYarns : Prop :=
  (∀ (s : State) (ini : Initiator) (u : Fin 8) (data : Word),
     let poly := s.get (R.CRC_CFG_poly u.val)
     let poly8 := s.get (R.CRC_CFG_poly8 u.val)
     let old := s.get (R.CRC_STATE_state u.val)
     let base := 0x02050100 + 0x40 * u.val
     let loads (c : Instr) (v cycles : Nat) : Prop :=
       Answers s c .ok fun t => t.get (R.CRC_STATE_state u.val) = v ∧ vget t.sys.crcLeft u.val = cycles ∧
         t.clk.mesh = s.clk.mesh + vget s.sys.crcLeft u.val * s.cycleLength ∧ sameFields [(R.CRC_STATE_state 0).row] s t ∧ sameBytes s t
     (s.opens ini true (base + 0x10) data.toNat → loads (.crcFeedB ini u data) (crcFeed poly poly8 1 data.toNat old) 1) ∧
     (s.opens ini true (base + 0x14) data.toNat → loads (.crcFeedH ini u data) (crcFeed poly poly8 2 data.toNat old) 2) ∧
     (s.opens ini true (base + 0x18) data.toNat → loads (.crcFeedW ini u data) (crcFeed poly poly8 4 data.toNat old) 4) ∧
     (s.opens ini true (base + 4) data.toNat → loads (.crcStateWrite ini u data) data.toNat 0) ∧
     (s.opens ini true base data.toNat →
       Answers s (.crcCfgWrite ini u data) .ok fun t =>
         t.get (R.CRC_CFG_poly u.val) = data.toNat % 4 ∧ t.get (R.CRC_CFG_poly8 u.val) = data.toNat / 256 % 256 ∧
         (data.toNat % 4 ≠ poly → t.get (R.CRC_STATE_state u.val) = old % 2 ^ crcWidth (data.toNat % 4)) ∧
         (data.toNat % 4 = poly → t.get (R.CRC_STATE_state u.val) = old) ∧
         sameFields [(R.CRC_CFG_poly 0).row, (R.CRC_CFG_poly8 0).row, (R.CRC_STATE_state 0).row] s t ∧ sameBytes s t)) ∧
  (∀ (s : State) (ini : Initiator) (t : Fin 8) (w : Fin 4) (data : Word) (k : Fin 64) (c : Fin 96) (g : Fin 16) (level : Bool),
     (s.opens ini true (0x02030010 + 4 * w.val) data.toNat →
       Answers s (.yrnFire ini .hub w data) .ok fun u =>
         sameFields [] s u ∧ sameBytes s u ∧ ∀ i : Nat, i < 32 → data.getLsbD i = true → (0, 32 * w.val + i, 3) ∈ u.yrn.flying) ∧
     (s.opens ini true (0x04000804 + t.val * 0x800000) data.toNat → s.tileRuns t.val = true →
       Answers s (.yrnFire ini (.tile t) w data) .ok fun u =>
         sameFields [] s u ∧ sameBytes s u ∧ ∀ i : Nat, i < 32 → data.getLsbD i = true → (t.val + 1, i, 3) ∈ u.yrn.flying) ∧
     (∀ (left from_ : Nat) (q : List (Nat × Nat)), vget s.yrn.hubImp k.val = (left, from_) :: q →
       Leads s (.yarnImportDelivery true k) fun u =>
         vget u.yrn.hubImp k.val = q ∧ (s.hubUp = true → s.tileUp from_ = true → (0, 112 + k.val % 16, 0) ∈ u.yrn.flying) ∧
         (s.tileUp from_ = false → u.yrn.flying = s.yrn.flying) ∧ sameFields [] s u ∧ (∀ g : Nat, u.eng g = s.eng g) ∧ sameBytes s u) ∧
     (∀ (left : Nat) (q : List Nat), vget s.yrn.tileImp k.val = left :: q →
       Leads s (.yarnImportDelivery false k) fun u =>
         vget u.yrn.tileImp k.val = q ∧ (s.tileRuns (k.val / 8) = true → (k.val / 8 + 1, 24 + k.val % 8, 0) ∈ u.yrn.flying) ∧
         sameFields [] s u ∧ (∀ g : Nat, u.eng g = s.eng g) ∧ sameBytes s u) ∧
     (s.filterWaits c.val = false → exec (.stitchFilterSettle c) s = .next s) ∧
     (Leads s (.stitchFilterSettle c) fun u => (∀ g : Nat, u.eng g = s.eng g) ∧ sameBytes s u ∧
       (cellDie c.val = 0 → s.filterWaits c.val = true → s.get (R.YRN_CELL_CFG_clk c.val) = 0xFE → s.get (R.YRN_CELL_CFG_lut c.val) = 0xFFFF →
         s.get (R.YRN_CELL_STAT_s c.val) = 1 → u.get (R.YRN_CELL_STAT_level c.val) = 1)) ∧
     (s.opens ini true (cellAddr c.val) data.toNat → s.get (R.YRN_CELL_CTRL_en c.val) = (!data.getLsbD 0).toNat →
       Answers s (.yrnCellCtrlWrite ini c data) .ok fun u =>
         u.get (R.YRN_CELL_CTRL_en c.val) = (data.getLsbD 0).toNat ∧ u.get (R.YRN_CELL_STAT_s c.val) = 0 ∧ u.get (R.YRN_CELL_STAT_level c.val) = 0 ∧
         sameFields [(R.YRN_CELL_CTRL_en 0).row, (R.YRN_CELL_STAT_s 0).row, (R.YRN_CELL_STAT_level 0).row] s u ∧ sameBytes s u) ∧
     (s.hubUp = true → s.pins.gpIn.testBit g.val = !level → s.get (R.YRN_GP_edge g.val) = (if level then 1 else 2) ∨ s.get (R.YRN_GP_edge g.val) = 3 →
       Leads s (.gpInputEdge g level) fun u => (0, 96 + g.val, 2) ∈ u.yrn.flying ∧ u.pends (448 + g.val) = true ∧ u.pins.gpIn.testBit g.val = level ∧
         sameFields [(R.IRQ_PEND_pend 0).row] s u ∧ (∀ g : Nat, u.eng g = s.eng g) ∧ sameBytes s u) ∧
     (s.hubUp = true → vget s.pins.gpPulse g.val ≠ 0 →
       Leads s (.gpPulseEnd g) fun u =>
         vget u.pins.gpPulse g.val = 0 ∧ u.clk.mesh = s.clk.mesh + vget s.pins.gpPulse g.val * s.cycleLength ∧ u.pins.gpOut.testBit g.val = false ∧ sameFields [] s u ∧ sameBytes s u))

/-- A timer's en set loads counter and live compare; a counted edge counts down, and at 0 reloads the counter, or stops a one-shot timer; the
edge that ends a wrap fires the timer's yarn where evt selects it (R277, R278). A running timer refuses other settings and keeps its count
when en is cleared (R277, R281); without a clock noclk reads 1, until an edge comes (R276). A trigger restarts a running timer (R279); a
capture keeps the count, or is dropped with cap_ovr, until it is read (R280); the alarm clears en (R284); TS_IN captures mesh time until
TMR_TSI_HI is read (R286); TS_OUT rises at a multiple of 1 s and falls after its width (R287); WAKE_N and PNT_SYNC fire their sources
(R288). Where the spec is silent it follows the model's choice of log 52 and 53. COMPLETES: under hypotheses on the state and the operands
alone, exec answers a next state (exec c s = .next t for some t, which is what Leads and Answers say) for timerNoclk, timerEnable,
timerWrap, timerMatch, timerCountedEdge, timerTrigger, timerCapture, timerCapRead, timerDisable, wideAlarm, tsInEdge, tsiRead, tsOutPulse,
tsOutPulseEnd, wakeNFall, pntSyncEdge. -/
def Obligations.TimersAndStamps : Prop :=
  (∀ (s : State) (ini : Initiator) (r : TimerRef) (data : Word),
     let span := match r with | .wide _ => 2 ^ 48 | _ => 2 ^ 32
     let same : Prop := data.toNat / 256 % 4 = s.get (tmClk r) ∧ data.toNat / 16 % 4 = s.get (tmEvt r) ∧ data.toNat / 2 % 2 = s.get (tmOneshot r) ∧
       (∀ m : Fin 4, r = .wide m → data.toNat / 4096 % 2 = s.get (R.TMR_W_CTRL_mode m.val))
     (s.opens ini true (timerAddr r) (putBitOf data.toNat 0 true) → s.get (tmEn r) = 0 → s.tmrReload r < span → s.tmrPre r < span →
       Answers s (.timerEnable ini r data) .ok fun t =>
         t.get (tmEn r) = 1 ∧ t.get (tmClk r) = data.toNat / 256 % 4 ∧ t.tmrCmp r = s.tmrPre r ∧ (t.isAlarm r = false → t.tmrCount r = s.tmrReload r) ∧ sameBytes s t) ∧
     (s.opens ini true (timerAddr r) (putBitOf data.toNat 0 false) → s.get (tmEn r) = 1 →
       (same → Answers s (.timerDisable ini r data) .ok fun t => t.get (tmEn r) = 0 ∧ t.tmrCount r = s.tmrCount r ∧ sameBytes s t) ∧
       (data.toNat / 256 % 4 ≠ s.get (tmClk r) → Answers s (.timerDisable ini r data) .busy fun t => sameFields [] s t ∧ sameBytes s t)) ∧
     (s.tmrCounts r = true → s.tmrCount r = 0 →
       (s.get (tmOneshot r) = 1 → Leads s (.timerWrap r) fun t => t.get (tmEn r) = 0 ∧ t.get (tmNoclk r) = 0 ∧ (∀ g : Nat, t.eng g = s.eng g) ∧ sameBytes s t) ∧
       (s.get (tmOneshot r) = 0 → s.tmrReload r < span → s.tmrPre r < span →
         Leads s (.timerWrap r) fun t =>
           t.tmrCount r = s.tmrReload r ∧ t.tmrCmp r = s.tmrPre r ∧ t.get (tmNoclk r) = 0 ∧ (∀ g : Nat, t.eng g = s.eng g) ∧ sameBytes s t) ∧
       (∀ n : Fin 16, r = .hub n → (s.get (tmEvt r)).testBit 0 = true → Leads s (.timerWrap r) fun t => (0, 48 + n.val, 2) ∈ t.yrn.flying)) ∧
     (s.tmrCounts r = true → s.tmrCount r ≠ 0 → s.tmrCount r < span →
       (s.tmrCount r - 1 = s.tmrCmp r → Leads s (.timerMatch r) fun t =>
         t.tmrCount r = s.tmrCount r - 1 ∧ t.get (tmNoclk r) = 0 ∧ (∀ g : Nat, t.eng g = s.eng g) ∧ sameBytes s t) ∧
       (s.tmrCount r - 1 ≠ s.tmrCmp r → Leads s (.timerCountedEdge r) fun t =>
         t.tmrCount r = s.tmrCount r - 1 ∧ t.get (tmNoclk r) = 0 ∧
         sameFields [(R.TMR_COUNT_count 0).row, (R.TMR_W_COUNT_LO_count 0).row, (R.TMR_W_COUNT_HI_count 0).row, (tmNoclk r).row] s t ∧ sameBytes s t)) ∧
     (s.tmrRuns r = true → s.tmrHasClock r = true → s.get (tmEn r) = 0 →
       Leads s (.timerCountedEdge r) fun t => t.get (tmNoclk r) = 0 ∧ sameFields [(tmNoclk r).row] s t ∧ sameBytes s t) ∧
     (s.tmrRuns r = true → s.isAlarm r = false → s.get (tmClk r) ≠ 3 →
       Leads s (.timerNoclk r) fun t => t.get (tmNoclk r) = 1 ∧ sameFields [(tmNoclk r).row] s t ∧ sameBytes s t)) ∧
  (∀ (s : State) (ini : Initiator) (r : TimerRef) (m : Fin 4),
     let span := match r with | .wide _ => 2 ^ 48 | _ => 2 ^ 32
     (s.tmrRuns r = true → s.get (tmEn r) = 1 → s.isAlarm r = false → tmSelects r (s.get (tmTrigSel r)) = true → s.tmrReload r < span → s.tmrPre r < span →
       Leads s (.timerTrigger r) fun t => t.tmrCount r = s.tmrReload r ∧ t.tmrCmp r = s.tmrPre r ∧ t.get (tmEn r) = 1 ∧ sameBytes s t) ∧
     (s.tmrRuns r = true → tmSelects r (s.get (tmCapSel r)) = true →
       (s.get (tmCapFull r) = 0 → s.isAlarm r = false → s.tmrCount r < span →
         Leads s (.timerCapture r) fun t =>
           t.getWide r R.TMR_CAP_cap R.TMR_W_CAP_LO_cap R.TMR_W_CAP_HI_cap = s.tmrCount r ∧ t.get (tmCapFull r) = 1 ∧ t.tmrCount r = s.tmrCount r ∧ sameBytes s t) ∧
       (s.get (tmCapFull r) = 1 →
         Leads s (.timerCapture r) fun t => t.get (tmCapOvr r) = 1 ∧ sameFields [(tmCapOvr r).row, (R.IRQ_PEND_pend 0).row] s t ∧ sameBytes s t)) ∧
     (s.opens ini false (timerCapAddr r) 0 →
       Answers s (.timerCapRead ini r) .ok fun t => t.get (tmCapFull r) = 0 ∧ sameFields [(tmCapFull r).row] s t ∧ sameBytes s t) ∧
     (s.hubUp = true → s.get (R.TMR_W_CTRL_mode m.val) = 1 → s.get (R.TMR_W_CTRL_en m.val) = 1 → s.alarmDue m.val = true →
       Leads s (.wideAlarm m) fun t => t.get (R.TMR_W_CTRL_en m.val) = 0 ∧ (0, 44 + m.val, 2) ∈ t.yrn.flying ∧ (∀ g : Nat, t.eng g = s.eng g) ∧ sameBytes s t) ∧
     (s.hubUp = true →
       Leads s .tsInEdge fun t =>
         t.get R.TMR_TSI_STAT_full = 1 ∧ t.get R.TMR_TSI_LO_ticks = s.meshRead % 2 ^ 32 ∧ t.get R.TMR_TSI_HI_ticks = s.meshRead / 2 ^ 32 % 2 ^ 32 ∧
         (s.get R.TMR_TSI_STAT_full = 1 → t.get R.TMR_TSI_STAT_ovw = 1) ∧ (0, 42, 2) ∈ t.yrn.flying ∧ (∀ g : Nat, t.eng g = s.eng g) ∧ sameBytes s t) ∧
     (s.opens ini false 0x02040814 0 →
       Answers s (.tsiRead ini) .ok fun t =>
         t.get R.TMR_TSI_STAT_full = 0 ∧ sameFields [R.TMR_TSI_STAT_full.row] s t ∧ sameBytes s t) ∧
     (s.hubUp = true → s.get R.TMR_TSO_CTRL_en = 1 →
       Leads s .tsOutPulse fun t =>
         t.clk.mesh = max s.clk.mesh s.nextSecond ∧ (0, 43, 2) ∈ t.yrn.flying ∧ t.pins.tsOut = true ∧ t.pins.tsOutEnd = t.clk.mesh + s.tsOutTicks ∧ (∀ g : Nat, t.eng g = s.eng g) ∧ sameBytes s t) ∧
     (s.pins.tsOut = true → Leads s .tsOutPulseEnd fun t =>
       t.pins.tsOut = false ∧ t.clk.mesh = max s.clk.mesh s.pins.tsOutEnd ∧ sameFields [] s t ∧ sameBytes s t) ∧
     (s.hubUp = true → s.aon.wakeDrive = false → s.aon.wakeQuiet ≤ s.clk.mesh →
       Leads s .wakeNFall fun t => t.pends 464 = true ∧ sameFields [(R.IRQ_PEND_pend 0).row] s t ∧ sameBytes s t) ∧
     (s.hubUp = true → Leads s .pntSyncEdge fun t => t.pends 466 = true ∧ sameFields [(R.IRQ_PEND_pend 0).row] s t ∧ sameBytes s t))

/-- IRQ_SET makes its source pending (R290); delivery makes every deliverable source active and no longer pending (R290); an end of interrupt
clears its active bit, or counts as spurious (R291); a 1 written to IRQ_PEND clears without delivery (R291); a hold-off that runs ends at
its time (R293). Where the spec is silent it follows the model's choice of log 52. COMPLETES: under hypotheses on the state and the operands
alone, exec answers a next state (exec c s = .next t for some t, which is what Leads and Answers say) for irqSet, irqDelivery, irqEoi,
irqPendClear, holdoffEnd. -/
def Obligations.Interrupts : Prop :=
  ∀ (s : State) (ini : Initiator) (data : Word) (w : Fin 16) (g : Fin 32),
    let n := data.toNat % 512
    (s.opens ini true 0x02020880 data.toNat →
      Answers s (.irqSet ini data) .ok fun t => t.pends n = true ∧ (∀ k : Nat, k < 512 → k ≠ n → t.pends k = s.pends k) ∧ sameFields [(R.IRQ_PEND_pend 0).row] s t ∧ sameBytes s t) ∧
    (s.hubUp = true →
      Leads s .irqDelivery fun t =>
        (∀ k : Nat, k < 512 → s.irqDeliverable k = true → t.irqA k = true ∧ t.pends k = false) ∧
        (∀ k : Nat, k < 512 → s.irqDeliverable k = false → t.irqA k = s.irqA k ∧ t.pends k = s.pends k) ∧
        (∀ k : Nat, k < 512 → s.irqDeliverable k = true → s.get (R.IRQ_ROUTE_kind k) = 2 → (k, 2, s.routeEngine k, s.get (R.IRQ_ROUTE_line k)) ∈ t.irq.dest) ∧ sameBytes s t) ∧
    (s.opens ini true 0x02020884 data.toNat →
      (s.irqA n = true → Answers s (.irqEoi ini data) .ok fun t =>
        t.irqA n = false ∧ (∀ d : Nat × Nat × Nat × Nat, d ∈ t.irq.dest ↔ d ∈ s.irq.dest ∧ d.1 ≠ n) ∧ sameFields [(R.IRQ_ACTIVE_active 0).row] s t ∧ sameBytes s t) ∧
      (s.irqA n = false → Answers s (.irqEoi ini data) .ok fun t =>
        t.get R.IRQ_SPURIOUS_EOI_count = min (s.get R.IRQ_SPURIOUS_EOI_count + 1) (2 ^ R.IRQ_SPURIOUS_EOI_count.width - 1) ∧
        sameFields [R.IRQ_SPURIOUS_EOI_count.row] s t ∧ sameBytes s t)) ∧
    (s.opens ini true (0x02020800 + 4 * w.val) data.toNat →
      Answers s (.irqPendClear ini w data) .ok fun t =>
        (∀ i : Nat, i < 32 → t.bit (R.IRQ_PEND_pend w.val) i = (s.bit (R.IRQ_PEND_pend w.val) i && !data.getLsbD i)) ∧
        sameFields [(R.IRQ_PEND_pend 0).row] s t ∧ sameBytes s t) ∧
    (s.hubUp = true → Leads s (.holdoffEnd g) fun t => t.get (R.IRQ_HOLDOFF_running g.val) = 0 ∧
      (s.get (R.IRQ_HOLDOFF_running g.val) ≠ 0 → t.clk.mesh = max s.clk.mesh (vget s.irq.holdEnd g.val)) ∧ sameFields [(R.IRQ_HOLDOFF_running 0).row] s t ∧ sameBytes s t)

/-- PWR_VOTE_SET and PWR_VOTE_CLR change votes of bits 23:0 and 24:0 alone; a domain that gets a vote rises from down or stays up from its
linger, and one without votes begins its linger (R296); a linger ends in a fall (R296), a fall in DOWN, MOOR or VIGIL (R299, R303, R438), a
rise in UP, a tile in WARM (R295). No access, answer or message waits where a fall or a rise is shown. Where the spec is silent it follows
the model's choice of log 64 and 75. COMPLETES: under hypotheses on the state and the operands alone, exec answers a next state (exec c s =
.next t for some t, which is what Leads and Answers say) for domainRiseComplete, pwrVoteSet, pwrVoteClr, lingerEnd, domainFallComplete,
hubReady. -/
def Obligations.DomainSteps : Prop :=
  ∀ (s : State) (ini : Initiator) (d : Fin 16) (data : Word) (codes : List (Nat × Nat × Int × Int)),
    let quiet : Prop := s.unfenced ∧ s.lnk.ctlBack = [] ∧ ∀ k : Nat, k < 8 → (s.tile k).irqHeld = 0
    (s.opens ini true (0x02010004 + 16 * d.val) data.toNat → data.toNat % 2 ^ 24 ≠ 0 →
      Answers s (.pwrVoteSet ini d data) .ok fun t =>
        (∀ i : Nat, i < 24 → t.bit (R.PWR_VOTE_votes d.val) i = (s.bit (R.PWR_VOTE_votes d.val) i || data.getLsbD i)) ∧
        (s.forcedOff d.val = false → (1 ≤ d.val ∧ d.val ≤ 8 → s.get R.PWR_THERM_shut = 0) →
          (s.dom d.val = .down → 1 ≤ d.val → d.val ≤ 14 → t.dom d.val = .rising) ∧ (s.dom d.val = .linger → t.dom d.val = .up)) ∧
        sameFields [(R.PWR_VOTE_votes 0).row] s t ∧ (∀ g : Nat, t.eng g = s.eng g) ∧ sameBytes s t) ∧
    (s.opens ini true (0x02010008 + 16 * d.val) data.toNat → s.get (R.PWR_VOTE_votes d.val) ≠ 0 → s.get (R.PWR_VOTE_votes d.val) = data.toNat % 2 ^ 25 →
      Answers s (.pwrVoteClr ini d data) .ok fun t =>
        t.get (R.PWR_VOTE_votes d.val) = 0 ∧ (s.dom d.val = .up → s.keelVote d.val = false → t.dom d.val = .linger) ∧
        sameFields [(R.PWR_VOTE_votes 0).row] s t ∧ (∀ g : Nat, t.eng g = s.eng g) ∧ sameBytes s t) ∧
    (s.dom d.val = .linger → s.wanted d.val = false → (d.val = 0 → ((s.domSpan 0).refreshVotes).wanted 0 = false) →
      Leads s (.lingerEnd d) fun t => t.dom d.val = .falling ∧ vget s.pwr.spanEnd d.val ≤ t.clk.mesh ∧ (d.val = 0 → t.clk.holder = .keeper) ∧ (8 < d.val → sameBytes s t)) ∧
    (quiet → s.dom d.val = .falling → s.drained d.val = true → s.wanted d.val = false →
      (1 ≤ d.val → s.flc.scrubDue = false → Leads s (.domainFallComplete d) fun t => t.dom d.val = .down ∧ (d.val ≤ 8 → (t.tile (d.val - 1)).radio = .off)) ∧
      (d.val = 0 → (∀ k : Nat, 1 ≤ k → k ≤ 13 → s.dom k = .down) → s.pwr.riseAgain.testBit 0 = false →
        (s.wanted 15 = true → Leads s (.domainFallComplete d) fun t =>
          t.pwr.mode = .moor ∧ t.pwr.pllLocked = false ∧ (∀ k : Nat, 1 ≤ k → k ≤ 3 → t.pwr.pwrEn.testBit k = false)) ∧
        (s.wanted 15 = false → Leads s (.domainFallComplete d) fun t => t.pwr.mode = .vigil ∧ t.pwr.tcxoEn = false ∧ (∀ k : Nat, k ≤ 3 → t.pwr.pwrEn.testBit k = false)))) ∧
    (quiet → s.dom d.val = .rising → d.val ≠ 0 → s.wanted d.val = true →
      (d.val ≤ 8 → s.pwr.pwrGood.testBit 2 = true ∧ s.pwr.pwrGood.testBit 3 = true ∧ (s.tile (d.val - 1)).inReset = false) →
      Leads s (.domainRiseComplete ⟨d, codes⟩) fun t => t.dom d.val = .up ∧ (d.val ≤ 8 → (t.tile (d.val - 1)).radio = .warm) ∧ sameBytes s t) ∧
    (s.dom 0 = .rising → s.pwr.pwrGood.testBit 1 = true → s.bit (R.PWR_VOTE_votes 0) 24 = true →
      Leads s .hubReady fun t => t.dom 0 = .up ∧ t.clk.holder = .hub ∧ t.aon.latches = 0 ∧ t.pwr.pllLocked = true)

/-- PWR_FORCE_OFF takes its bits, and a powered domain falls at once; PWR_CLK_GATE takes its bits; the deck's requests against a keel vote wait
(R228, R301, R302). A wake-on-touch access that waited too long ends as to an unpowered window (R305); the RF rails go low after the last
tile (R298). Where the spec is silent it follows the model's choice of log 63 and 95. COMPLETES: under hypotheses on the state and the
operands alone, exec answers a next state (exec c s = .next t for some t, which is what Leads and Answers say) for rfRailOff,
pwrForceOffWrite, pwrClkGateWrite, wotTimeout. -/
def Obligations.ForcesAndGates : Prop :=
  ∀ (s : State) (ini : Initiator) (d : Fin 16) (data : Word) (w : WotAccess),
    (s.opens ini true 0x02010110 data.toNat → s.lnk.wot = [] →
      Answers s (.pwrForceOffWrite ini data) .ok fun t =>
        ∀ k : Nat, 1 ≤ k → k ≤ 14 →
          (data.getLsbD k = false → t.bit R.PWR_FORCE_OFF_force (k - 1) = false ∧ t.pwr.deferForce.testBit k = false) ∧
          (data.getLsbD k = true → isKeel ini = true ∨ s.keelVote k = false →
            t.bit R.PWR_FORCE_OFF_force (k - 1) = true ∧ (s.keelVote k = false → s.domUp k = true → t.dom k = .falling)) ∧
          (data.getLsbD k = true → isKeel ini = false → s.keelVote k = true →
            t.bit R.PWR_FORCE_OFF_force (k - 1) = s.bit R.PWR_FORCE_OFF_force (k - 1) ∧ t.pwr.deferForce.testBit k = true)) ∧
    (s.opens ini true 0x02010114 data.toNat →
      Answers s (.pwrClkGateWrite ini data) .ok fun t =>
        (∀ k : Nat, 1 ≤ k → k ≤ 13 →
          (isKeel ini = true ∨ s.keelVote k = false ∨ data.getLsbD k = false → t.bit R.PWR_CLK_GATE_gate (k - 1) = data.getLsbD k) ∧
          (data.getLsbD k = true → isKeel ini = false → s.keelVote k = true → gateable k = true →
            t.bit R.PWR_CLK_GATE_gate (k - 1) = s.bit R.PWR_CLK_GATE_gate (k - 1) ∧ t.pwr.deferGate.testBit k = true)) ∧
        sameFields [R.PWR_CLK_GATE_gate.row, R.PWR_KEEL_DEFER_deferred.row] s t ∧ (∀ g : Nat, t.eng g = s.eng g) ∧ sameBytes s t) ∧
    (s.domUp d.val = false → s.lnk.wot = [w] → w.dom = d.val → w.src = .direct →
      Leads s (.wotTimeout d) fun t =>
        t.lnk.wot = [] ∧ t.resp.status = .dozing ∧ t.get (R.PWR_UNPOWERED_CNT_count d.val) = min (s.get (R.PWR_UNPOWERED_CNT_count d.val) + 1) (2 ^ 32 - 1) ∧
        t.bit (R.PWR_VOTE_votes d.val) 27 = false) ∧
    (s.hubUp = true → s.get R.PWR_CFG_rf_in_doze = 0 → (∀ k : Nat, 1 ≤ k → k ≤ 8 → s.dom k = .down) →
      Leads s .rfRailOff fun t =>
        t.pwr.pwrEn.testBit 2 = false ∧ t.pwr.pwrEn.testBit 3 = false ∧ sameFields [] s t ∧ (∀ g : Nat, t.eng g = s.eng g) ∧ sameBytes s t)

/-- A falling WAKE_N, or the chosen edge of one GP pin, is latched if armed and wakes a module asleep in MOOR if enabled, with its record (R306,
R307); so do the AON timer (R308) and the timetable (R300). VIGIL with off_arm goes on to OFF (R310); the keeper's slowdown (R316) and the
drive of WAKE_N end (R315). Where the spec is silent it follows the model's choice of log 66 and 115. COMPLETES: under hypotheses on the
state and the operands alone, exec answers a next state (exec c s = .next t for some t, which is what Leads and Answers say) for
timetableWake, wakeSourceEdge, aonTimer, enterOff, wakeNPulseEnd, keeperSlewEnd. -/
def Obligations.WakeSources : Prop :=
  ∀ (s : State) (g : Fin 16),
    let woken (c : Instr) (code detail : Nat) : Prop :=
      Leads s c fun t => t.dom 0 = .rising ∧ t.get R.AON_WAKE_LAST_src = code ∧ t.get R.AON_WAKE_LAST_detail = detail ∧
        t.get R.AON_WAKE_LAST_count = (s.get R.AON_WAKE_LAST_count + 1) % 256 ∧ t.get (R.AON_WAKE_HIST_record 0) = s.wakeWord % 2 ^ 32 ∧
        t.bit (R.PWR_VOTE_votes 0) 24 = true ∧ t.pwr.tcxoEn = true ∧ sameBytes s t
    (s.pwr.mode = .moor → s.dom 0 = .down → s.boot.step = 0 → s.pwr.railsHeld = false →
      (s.aon.wakeDrive = false → s.aon.wakeQuiet ≤ s.clk.mesh → s.bit R.AON_WAKE_EN_codes 2 = true → woken (.wakeSourceEdge 0 0x10000) 3 0) ∧
      (s.aon.wakeDrive = false → s.aon.wakeQuiet ≤ s.clk.mesh → s.bit R.AON_LATCH_EN_sources 16 = true →
        Leads s (.wakeSourceEdge 0 0x10000) fun t => t.aon.latches.testBit 16 = true) ∧
      ((s.get R.AON_WAKE_EDGE_edges / 4 ^ g.val % 4).testBit 0 = true → s.bit R.AON_WAKE_EN_codes 4 = true →
        woken (.wakeSourceEdge (BitVec.ofNat 32 (2 ^ g.val)) 0) 5 g.val) ∧
      (s.get R.AON_TIMER_CTRL_en = 1 → s.clk.holder ≠ .stopped → s.bit R.AON_WAKE_EN_codes 3 = true → woken .aonTimer 4 0) ∧
      (s.aon.ttArmed = true → woken .timetableWake 8 0)) ∧
    (s.hubUp = true → s.get R.AON_TIMER_CTRL_en = 1 → s.clk.holder ≠ .stopped →
      Leads s .aonTimer fun t =>
        t.get R.AON_TIMER_CTRL_en = 0 ∧ t.pends 467 = true ∧ t.clk.mesh = max s.clk.mesh (s.get2 R.AON_TIMER_CMP_tick) ∧
        sameFields [R.AON_TIMER_CTRL_en.row, (R.IRQ_PEND_pend 0).row] s t ∧ sameBytes s t) ∧
    (s.pwr.mode = .vigil → s.boot.step = 0 → s.dom 0 = .down → s.get R.AON_PWR_CMD_off_arm = 1 →
      Leads s .enterOff fun t =>
        t.pwr.mode = .off ∧ t.clk.holder = .stopped ∧ t.pwr.xtalStable = false ∧ t.get R.AON_KEEP_STATUS_valid = 0 ∧ t.get R.AON_WK_STATE_states = 0 ∧ sameBytes s t) ∧
    (Leads s .keeperSlewEnd fun t => t.clk = { s.clk with keeperSlow := 0 } ∧ t.get R.AON_KEEP_STATUS_slewing = 0 ∧ sameFields [R.AON_KEEP_STATUS_slewing.row] s t ∧ sameBytes s t) ∧
    (s.aon.wakeDrive = true → Leads s .wakeNPulseEnd fun t =>
      t.aon.wakeDrive = false ∧ t.clk.mesh = max s.clk.mesh s.aon.wakeEnd ∧ t.aon.wakeQuiet = t.clk.mesh + 12500 ∧ sameFields [] s t ∧ sameBytes s t)

/-- AON_WK_RX enables receivers, a sniff above the threshold opens DETECT, which times out to LISTEN (R312). A bell whose CRC, target, tag, time
and novelty pass is acted on, one whose CRC fails is counted (R314, R315); in host-assisted wake mode its bits are kept until they are read
(R317). AON_BELL_TX.go asks for one bell, ends with NOKEY without a key and is refused BUSY while one is pending (R252, R318); the bell goes
out at a coarse-unit boundary if the governor and coexistence let it (R318, R319), and ends (R318). Where the spec is silent it follows the
model's choice of log 73. COMPLETES: under hypotheses on the state and the operands alone, exec answers a next state (exec c s = .next t for
some t, which is what Leads and Answers say) for wkRxEnable, sniff, detectTimeout, bellReceived, bellRawRead, bellTxRequest, bellTxStart,
bellTxEnd. -/
def Obligations.Bells : Prop :=
  (∀ (s : State) (ini : Initiator) (r : Fin 4) (data : Word) (energy : Fin 256) (b : Bell),
     (s.opens ini true 0x0300008C data.toNat →
       Answers s (.wkRxEnable ini data) .ok fun t =>
         t.get R.AON_WK_RX_en = data.toNat % 16 ∧ t.get R.AON_WK_RX_chan = data.toNat / 16 % 16 ∧ (data.getLsbD r.val = false → t.wkState r.val = 0) ∧
         (data.getLsbD r.val = true → t.wkChannelOk r.val = true → s.pwr.mode ≠ .off → s.aon.bellTx ≠ .onAir → s.wkState r.val = 0 → t.wkState r.val = 1) ∧
         sameFields [R.AON_WK_RX_en.row, R.AON_WK_RX_chan.row, R.AON_WK_STATE_states.row] s t ∧ sameBytes s t) ∧
     (s.wkState r.val = 1 → s.get R.AON_WK_CFG_thresh < energy.val →
       Leads s (.sniff r energy) fun t =>
         t.wkState r.val = 2 ∧ (∀ k : Nat, k < 4 → k ≠ r.val → t.wkState k = s.wkState k) ∧ sameFields [R.AON_WK_STATE_states.row] s t ∧ sameBytes s t) ∧
     (s.wkState r.val = 2 →
       Leads s (.detectTimeout r) fun t =>
         t.wkState r.val = 1 ∧ t.clk.mesh = max s.clk.mesh (vget s.aon.detectAt r.val + 6250000) ∧
         (∀ k : Nat, k < 4 → k ≠ r.val → t.wkState k = s.wkState k) ∧ sameFields [R.AON_WK_STATE_states.row] s t ∧ sameBytes s t) ∧
     (s.wkState r.val = 2 → s.hubUp = true → b.target < 65536 → b.command < 256 → b.time < 65536 → b.tag < 65536 → b.crc < 65536 →
       (s.bit R.HUB_FUNC_MODE_bits 7 = false → bellCrcOk b = false →
         Leads s (.bellReceived r b false) fun t =>
           t.wkState r.val = 1 ∧ t.get R.AON_BELL_REJ_crc = min (s.get R.AON_BELL_REJ_crc + 1) 255 ∧
           sameFields [R.AON_WK_STATE_states.row, R.AON_BELL_REJ_crc.row] s t ∧ sameBytes s t) ∧
       (s.bit R.HUB_FUNC_MODE_bits 7 = false → bellCrcOk b = true → s.bellForMe b = true → s.bellAuth b = true → -2 ≤ s.bellSkew b → s.bellSkew b ≤ 2 →
         s.bellReplay b = false →
         Leads s (.bellReceived r b false) fun t =>
           t.wkState r.val = 1 ∧ t.get R.AON_BELL_LAST_target = b.target ∧ t.get R.AON_BELL_LAST_command = b.command ∧ t.get R.AON_BELL_LAST2_time = b.time ∧
           t.get R.AON_BELL_LAST2_receiver = r.val ∧ (b.command / 64 = 1 ∨ b.command / 64 = 2 → t.pends 468 = true) ∧ (b.command / 64 = 2 → t.aon.wakeDrive = true) ∧
           sameBytes s t) ∧
       (s.bit R.HUB_FUNC_MODE_bits 7 = true →
         Leads s (.bellReceived r b false) fun t =>
           t.wkState r.val = 1 ∧ t.get R.AON_BELL_RAW0_target = b.target ∧ t.get R.AON_BELL_RAW0_command = b.command ∧ t.get R.AON_BELL_RAW1_time = b.time ∧
           t.get R.AON_BELL_RAW2_crc_ok = (bellCrcOk b).toNat ∧ t.get R.AON_BELL_RAW2_ovw = s.aon.rawUnread.toNat ∧ t.aon.rawUnread = true ∧ sameBytes s t)) ∧
     (s.opens ini false 0x030000D8 0 → Answers s (.bellRawRead ini) .ok fun t => t.aon.rawUnread = false ∧ sameFields [] s t ∧ sameBytes s t)) ∧
  (∀ (s : State) (ini : Initiator) (data : Word) (gnt : Bool),
     (s.opens ini true 0x030000B0 data.toNat → data.getLsbD 0 = true →
       (s.aon.bellTx = .none → s.get R.AON_BELL_CTRL_key_valid = 1 →
         Answers s (.bellTxRequest ini data) .ok fun t =>
           t.aon.bellTx = .pending ∧ t.get R.AON_BELL_TX_go = 1 ∧ t.get R.AON_BELL_TX_target = data.toNat / 65536 ∧ t.get R.AON_BELL_TX_command = data.toNat / 256 % 256 ∧
           t.bit (R.PWR_VOTE_votes 14) 25 = true ∧ sameBytes s t) ∧
       (s.aon.bellTx = .none → s.get R.AON_BELL_CTRL_key_valid = 0 →
         Answers s (.bellTxRequest ini data) .ok fun t => t.aon.bellTx = .none ∧ t.get R.AON_BELL_TX_STATUS_status = 1 ∧ sameBytes s t) ∧
       (s.aon.bellTx ≠ .none →
         Answers s (.bellTxRequest ini data) .busy fun t =>
           t.get R.AON_BELL_TX_STATUS_status = 3 ∧ t.aon.bellTx = s.aon.bellTx ∧ sameFields [R.AON_BELL_TX_STATUS_status.row] s t ∧ sameBytes s t)) ∧
     (s.aon.bellTx = .pending → s.domRuns 14 = true → s.wkUsable (s.on R.AON_BELL_TX_chan) = true → (s.duty = 0 ∨ bellCost ≤ s.aon.bucket) → (s.get R.COEX_CFG_bell = 0 ∨ gnt = true) → s.pins.cxiGnt = false →
       Leads s (.bellTxStart gnt) fun t =>
         t.aon.bellTx = .onAir ∧ t.pins.wkTr = true ∧ t.clk.mesh % 1280000 = 0 ∧ s.clk.mesh ≤ t.clk.mesh ∧ t.clk.mesh < s.clk.mesh + 1280000 ∧
         (∃ x : Bell, t.aon.bellOut = some x ∧ x.target = s.get R.AON_BELL_TX_target ∧ x.command = s.get R.AON_BELL_TX_command ∧ x.time = t.clk.mesh / 1280000 % 65536) ∧
         sameFields [R.AON_WK_STATE_states.row] s t ∧ sameBytes s t) ∧
     (s.aon.bellTx = .onAir →
       Leads s .bellTxEnd fun t =>
         t.aon.bellTx = .none ∧ t.clk.mesh = max s.clk.mesh (s.aon.bellAt + 16250000) ∧ t.get R.AON_BELL_TX_go = 0 ∧ t.get R.AON_BELL_TX_STATUS_status = 0 ∧ t.pins.wkTr = false ∧ t.bit (R.PWR_VOTE_votes 14) 25 = false ∧
         (∀ k : Nat, k < 4 → s.wkState k = 3 → t.wkState k = 1) ∧ sameBytes s t))

/-- The crystal, or 2 s without it, starts step 2 (R324); each PWR_GOOD raises the next enable, and with all of them and the TCXO step 3 follows
(R323, R436); a rail that fails or drops lowers every enable and counts toward three (R326), and is tried again (R326); an enable is held
low and then raised if asked for (R438). The digital clock locks: with BOOT_SEL 01 the hub is up with its cause and boot count, the boot ROM
waits in stage 0, and the host link trains (R323, R327, R329). Without READY the boot restarts once in slipway mode (R330); a training that
waited for HL_REFCLK goes on (R19). Where the spec is silent it follows the model's choice of log 65, 67, 69 and 72. COMPLETES: under
hypotheses on the state and the operands alone, exec answers a next state (exec c s = .next t for some t, which is what Leads and Answers
say) for hlRefclkDetected, tcxoReady, pllLock, crystalStable, crystalTimeout, pwrGoodDrop, railFailure, railRetry, bootTimeout, pwrGoodRise,
enableLowHoldEnd. -/
def Obligations.RailsAndBoots : Prop :=
  (∀ (s : State) (k : Fin 4),
     (s.pwr.mode ≠ .off → s.pwr.xtalStable = false →
       Leads s .crystalStable fun t =>
         t.pwr.xtalStable = true ∧ t.get R.AON_CLK_STATUS_on_xtal = 1 ∧ t.clk.incr = 0x00009502F9000000 ∧
         (s.boot.step = 1 → s.pwr.pwrGood = 0 → s.pwr.lowHold = 0 → t.boot.step = 2 ∧ t.pwr.pwrEn.testBit 0 = true ∧ t.pwr.tcxoEn = true) ∧
         (s.boot.step ≠ 1 → t.boot = s.boot) ∧ sameFields [R.AON_CLK_STATUS_on_xtal.row] s t ∧ sameBytes s t) ∧
     (s.boot.step = 1 → s.pwr.xtalStable = false → s.pwr.pwrGood = 0 → s.pwr.lowHold = 0 →
       Leads s .crystalTimeout fun t =>
         t.get R.AON_CLK_STATUS_xtal_fail = 1 ∧ t.boot.step = 2 ∧ t.boot.slow = true ∧ t.boot.kind = s.boot.kind ∧ t.pwr.pwrEn.testBit 0 = true ∧
         sameFields [R.AON_CLK_STATUS_xtal_fail.row] s t ∧ sameBytes s t) ∧
     (s.pwr.tcxoEn = true →
       Leads s .tcxoReady fun t =>
         t.pwr.tcxoReady = true ∧ (s.boot.step = 2 → s.pwr.pwrGood = 15 → t.boot.step = 3 ∧ t.pwr.railFails = 0) ∧ sameFields [] s t ∧ sameBytes s t) ∧
     (s.pwr.pwrEn.testBit k.val = true → s.pwr.pwrGood = 2 ^ k.val - 1 → s.boot.step = 2 → s.pwr.lowHold = 0 →
       Leads s (.pwrGoodRise k) fun t =>
         t.pwr.pwrGood = 2 ^ (k.val + 1) - 1 ∧ (k.val < 3 → t.pwr.pwrEn.testBit (k.val + 1) = true) ∧ (k.val = 3 → s.pwr.tcxoReady = true → t.boot.step = 3) ∧
         sameFields [] s t ∧ sameBytes s t) ∧
     (s.pwr.pwrEn.testBit k.val = true →
       let down (c : Instr) : Prop := Leads s c fun t =>
         (∀ j : Nat, j ≤ 3 → t.pwr.pwrEn.testBit j = false) ∧ t.pwr.railFails = s.pwr.railFails + 1 ∧ t.boot.kind = .rail ∧ t.hubUp = false ∧
         t.boot.step = (if s.pwr.railFails + 1 < 3 then 2 else 0) ∧ (t.pwr.railsHeld = true ↔ 3 ≤ s.pwr.railFails + 1)
       (s.pwr.pwrGood.testBit k.val = false → down (.railFailure k)) ∧ (s.pwr.pwrGood.testBit k.val = true → down (.pwrGoodDrop k))) ∧
     (s.boot.kind = .rail → s.boot.step = 2 → s.pwr.pwrEn = 0 → s.pwr.railsHeld = false → s.pwr.pwrGood = 0 → s.pwr.lowHold = 0 →
       Leads s .railRetry fun t => t.pwr.pwrEn = 1 ∧ t.pwr.tcxoEn = true ∧ t.boot = s.boot ∧ sameFields [] s t ∧ sameBytes s t) ∧
     (Leads s (.enableLowHoldEnd k) fun t =>
       t.pwr.lowHold.testBit k.val = false ∧ t.pwr.wakeHeld.testBit k.val = false ∧ (s.pwr.wakeHeld.testBit k.val = false → t.pwr.pwrEn = s.pwr.pwrEn) ∧
       (s.pwr.wakeHeld.testBit k.val = true → s.boot.step ≠ 2 → t.pwr.pwrEn.testBit k.val = true) ∧ sameFields [] s t ∧ sameBytes s t)) ∧
  (∀ (s : State) (seen : BootSeen),
     exec .hlRefclkDetected s = .next { s with pwr := { s.pwr with refclk := true } } ∧
     (s.boot.step = 3 → s.boot.kind ≠ .bootTimeout → seen.bootSel = 1 →
       Leads s (.pllLock seen) fun t =>
         t.hubUp = true ∧ t.boot.step = 8 ∧ t.get R.HUB_BOOT_STATUS_boot_sel = 1 ∧ t.get R.HUB_BOOT_STATUS_stage = 0 ∧
         t.get R.HUB_BOOT_STATUS_result = s.slowResult ∧ t.get R.HUB_RESET_CAUSE_cause = s.boot.kind.cause ∧
         t.get R.BOOT_COUNT_count = (s.get R.BOOT_COUNT_count + 1) % 2 ^ 32 ∧ ((s.link 4).state = .down → (t.link 4).state = .training)) ∧
     (s.hubUp = true → s.boot.ready = false → 3 ≤ s.boot.step → s.boot.timeouts = 0 →
       Leads s .bootTimeout fun t =>
         t.boot.kind = .bootTimeout ∧ t.boot.step = 3 ∧ t.boot.timeouts = 1 ∧ t.boot.slipway = true ∧ t.get R.HUB_BOOT_STATUS_result = 6 ∧ (∀ g : Nat, t.eng g = s.eng g)))

/-- POR resets the whole module but flash, fuses and the boot counter, and samples PNT_ID (R331, R325, R442); a PIN reset writes a wake record
START and keeps AON SRAM; WARM and WDOG keep hub SRAM; every engine starts anew (R331, R333). HUB_RESET_CMD resets one tile or engine, or
nothing, and is refused before READY (R332, R334, R335, R338); the tile comes back (R334); the watchdog is kicked and warns (R333). Where
the spec is silent it follows the model's choice of log 65, 66 and 118. COMPLETES: under hypotheses on the state and the operands alone,
exec answers a next state (exec c s = .next t for some t, which is what Leads and Answers say) for por, pinReset, warmReset, resetCmdNone,
wdogKick, wdogWarning, wdogExpiry, tileReset, tileResetRelease, engineReset. -/
def Obligations.Resets : Prop :=
  ∀ (s : State) (ini : Initiator) (target : Fin 128) (data : Word) (k : Fin 8) (pntId : Fin 4),
    (Leads s (.por pntId) fun t =>
      t.clk = State.reset.clk ∧ t.boot = State.reset.boot ∧ t.hubUp = false ∧ t.pwr.pwrEn = 0 ∧ t.get R.HUB_ID_pontoon_index = pntId.val ∧ t.sec.slots = [] ∧
      (∀ g : Nat, g < 96 → t.eng g = Engine.initial) ∧ (∀ a : Nat, a < 0x01000000 → t.byte a = s.byte a)) ∧
    (Leads s .pinReset fun t =>
      t.get R.AON_WAKE_LAST_src = 15 ∧ t.boot.kind = .pin ∧ t.pwr.railFails = 0 ∧ t.pwr.railsHeld = false ∧ t.hubUp = false ∧
      (∀ g : Nat, g < 96 → t.eng g = Engine.initial) ∧ (∀ a : Nat, 0x03010000 ≤ a → a < 0x03014000 → t.byte a = s.byte a)) ∧
    (s.opens ini true 0x02000010 (resetWord 3 0) → s.boot.ready = true →
      Answers s (.warmReset ini) .ok fun t =>
        t.boot.kind = .warm ∧ t.hubUp = false ∧ (∀ g : Nat, g < 96 → t.eng g = Engine.initial) ∧
        (∀ a : Nat, 0x01000000 ≤ a → a < 0x01C00000 → t.byte a = s.byte a)) ∧
    (s.opens ini true 0x02000010 (resetWord 0 target.val) →
      (s.boot.ready = true → Answers s (.resetCmdNone ini target) .ok fun t => sameFields [] s t ∧ (∀ g : Nat, t.eng g = s.eng g) ∧ sameBytes s t) ∧
      (s.boot.ready = false → Answers s (.resetCmdNone ini target) .busy fun t => sameFields [] s t ∧ (∀ g : Nat, t.eng g = s.eng g) ∧ sameBytes s t)) ∧
    (s.opens ini true 0x02000010 (resetWord 2 target.val) → s.boot.ready = true →
      (target.val < 8 → (s.tile target.val).inReset = false →
        Answers s (.tileReset ini target) .ok fun t =>
          (t.tile target.val).inReset = true ∧ (t.tile target.val).radio = .off ∧ (∀ e : Nat, e < 8 → t.eng (32 + 8 * target.val + e) = Engine.initial) ∧
          (∀ g : Nat, g < 32 → t.eng g = s.eng g)) ∧
      (8 ≤ target.val → Answers s (.tileReset ini target) .denied fun t => sameFields [] s t ∧ sameBytes s t)) ∧
    (s.opens ini true 0x02000010 (resetWord 1 target.val) → s.boot.ready = true → target.val < 96 → isKeel ini = true ∨ (target.val ≠ 30 ∧ target.val ≠ 31) →
      Answers s (.engineReset ini target) .ok fun t =>
        (t.eng target.val).r = Engine.initial.r ∧ (t.eng target.val).state = .halted ∧ (t.eng target.val).run = false ∧ (t.eng target.val).mbox = [] ∧
        (t.eng target.val).start = (s.eng target.val).start ∧ (t.eng target.val).vbase = (s.eng target.val).vbase ∧
        t.get (R.ERR_UNIT_active target.val) = 0 ∧ (∀ g : Nat, g < 96 → g ≠ target.val → t.eng g = s.eng g) ∧ sameBytes s t) ∧
    ((s.tile k.val).inReset = true →
      Leads s (.tileResetRelease k) fun t =>
        (t.tile k.val).inReset = false ∧ t.get (R.ERR_UNIT_active (0x60 + k.val)) = 0 ∧
        (s.dom (k.val + 1) = .down → s.wanted (k.val + 1) = true → s.hubUp = true → t.dom (k.val + 1) = .rising) ∧ (∀ g : Nat, t.eng g = s.eng g) ∧ sameBytes s t) ∧
    (s.opens ini true 0x02000054 data.toNat →
      Answers s (.wdogKick ini data) .ok fun t =>
        t.sys.wdogMs = max 1 (s.get R.HUB_WDOG_CTRL_ms) ∧ t.sys.wdogHalf = false ∧
        t.sys.wdogEnd = s.clk.mesh + 1250000 * max 1 (s.get R.HUB_WDOG_CTRL_ms) ∧ sameFields [] s t ∧ (∀ g : Nat, t.eng g = s.eng g) ∧ sameBytes s t) ∧
    (s.wdogRuns = true → s.sys.wdogHalf = false →
      Leads s .wdogWarning fun t =>
        t.pends 505 = true ∧ t.sys.wdogHalf = true ∧ t.clk.mesh = max s.clk.mesh (s.sys.wdogEnd - 625000 * s.sys.wdogMs) ∧ sameFields [(R.IRQ_PEND_pend 0).row] s t ∧ sameBytes s t) ∧
    (s.wdogRuns = true →
      Leads s .wdogExpiry fun t =>
        t.boot.kind = .wdog ∧ t.hubUp = false ∧ (∀ g : Nat, g < 96 → t.eng g = Engine.initial) ∧ (∀ a : Nat, 0x01000000 ≤ a → a < 0x01C00000 → t.byte a = s.byte a))

/-- A data flit is taken only with its CRC good and in sequence, and returns its berth (R344, R345); any other is discarded, the first with a
NAK (R345). What the FEC corrected and lost is counted (R367). An ACK and a NAK acknowledge cumulatively and return berths, and a NAK counts
a replay (R344, R345). A retrain keeps every flit in its berth (R346). Interrupt messages and late faults leave on VC1 (R292, R359). Where
the spec is silent it follows the model's choice of log 31, 84 and 100. COMPLETES: under hypotheses on the state and the operands alone,
exec answers a next state (exec c s = .next t for some t, which is what Leads and Answers say) for interrupt, flitReceive, ack, nak,
retrainStart, lateFault. -/
def Obligations.LinkFlits : Prop :=
  ∀ (s : State) (l : Fin 5) (seq : Fin 4096) (vc : Fin 3) (ok : Bool) (f0 f1 f2 : Fin 65536) (fixed : Fin 256) (lost : Fin 16),
    let x := s.link l.val
    let others (t : State) : Prop := ∀ k : Nat, k < 5 → k ≠ l.val → t.link k = s.link k
    let quiet : Prop := x.vc0 = [] ∧ x.vc1 = [] ∧ x.vc2 = []
    let fec (t : State) : Prop :=
      t.get (R.LNK_ERR_CNT_count 0) = min (s.get (R.LNK_ERR_CNT_count 0) + fixed.val) (2 ^ 32 - 1) ∧
      t.get (R.LNK_ERR_CNT_count 1) = min (s.get (R.LNK_ERR_CNT_count 1) + lost.val) (2 ^ 32 - 1)
    (s.hears l.val = true →
      (seq.val = x.rxNext →
        Leads s (.flitReceive l seq vc ⟨true, fixed, lost⟩) fun t =>
          fec t ∧
          (t.link l.val).rxNext = (x.rxNext + 1) % 4096 ∧ (t.link l.val).naks = 0 ∧
          (∀ k : Nat, k < 3 → nth3 (t.link l.val).freed k = if k = vc.val then (nth3 x.freed k + 1) % 65536 else nth3 x.freed k) ∧
          (t.link l.val).replay = x.replay ∧ others t ∧ sameFields ((R.LNK_ERR_CNT_count 0).row :: counterRows) s t ∧ sameBytes s t) ∧
      (ok = false ∨ seq.val ≠ x.rxNext →
        Leads s (.flitReceive l seq vc ⟨ok, fixed, lost⟩) fun t =>
          fec t ∧
          (t.link l.val).rxNext = x.rxNext ∧ (t.link l.val).freed = x.freed ∧ (x.naks = 0 → (t.link l.val).naks = 1) ∧
          t.get (R.LNK_ERR_CNT_count 2) = (if ok then s.get (R.LNK_ERR_CNT_count 2) else min (s.get (R.LNK_ERR_CNT_count 2) + 1) (2 ^ 32 - 1)) ∧
          others t ∧ sameFields ((R.LNK_ERR_CNT_count 0).row :: counterRows) s t ∧ sameBytes s t) ∧
      (quiet →
        exec (.ack l seq f0 f1 f2) s = .next (s.updLink l.val fun y => (y.acked seq.val).returned (f0.val, f1.val, f2.val)) ∧
        Leads s (.nak l seq f0 f1 f2) fun t =>
          t.link l.val = (x.acked ((seq.val + 4095) % 4096)).returned (f0.val, f1.val, f2.val) ∧
          t.get (R.LNK_ERR_CNT_count 3) = min (s.get (R.LNK_ERR_CNT_count 3) + 1) (2 ^ 32 - 1) ∧
          others t ∧ sameFields ((R.LNK_ERR_CNT_count 0).row :: counterRows) s t ∧ sameBytes s t) ∧
      (Leads s (.retrainStart l) fun t =>
        t.link l.val = { x with state := .retrain } ∧ t.get (R.LNK_ERR_CNT_count 4) = min (s.get (R.LNK_ERR_CNT_count 4) + 1) (2 ^ 32 - 1) ∧ others t ∧
        (∀ g : Nat, t.eng g = s.eng g))) ∧
    (∀ v : Nat, ∀ rest : List Nat, s.irq.waiting = v :: rest → l.val = 4 → quiet → x.canSend (.interrupt v) = true →
      Leads s .interrupt fun t =>
        t.irq.waiting = rest ∧ (t.link 4).replay = x.replay ++ [(x.txNext % 4096, 1, .interrupt v)] ∧ (t.link 4).vc1 = [] ∧
        (rest = [] → t.bit (R.PWR_VOTE_votes 9) 29 = false) ∧ others t ∧ sameFields ((R.PWR_VOTE_votes 0).row :: counterRows) s t ∧ sameBytes s t) ∧
    (∀ w sq a : Nat, ∀ status : Status, ∀ rest : List (Nat × Nat × Nat × Status × Nat), s.lnk.lateWait = (w, l.val, sq, status, a) :: rest → quiet →
      (w, l.val, sq, status, a) ∉ rest → x.canSend (.lateFault sq status a) = true →
      Leads s (.lateFault l) fun t =>
        t.lnk.lateWait = rest ∧ (t.link l.val).replay = x.replay ++ [(x.txNext % 4096, 1, .lateFault sq status a)] ∧
        (t.link l.val).postTx = (x.postTx + 1) % 65536 ∧ others t ∧ sameFields counterRows s t ∧ sameBytes s t)

/-- A training ends ACTIVE. Equal epochs on both sides and resume sequences within the replay buffers make it a resume: VC1 and VC2 flits after
the resume sequence are sent again, and sequences go on (R347). Otherwise it is fresh: sequences restart at 0, open requests are dropped and
every landing is disabled (R347, R348). A peer under a wrong index is DUP_ID. The width is the widest aligned group of lanes that trains;
without one the training goes on (R342). Where the spec is silent it follows the model's choice of log 98 and 101. COMPLETES: under
hypotheses on the state and the operands alone, exec answers a next state (exec c s = .next t for some t, which is what Leads and Answers
say) for linkTrained. -/
def Obligations.LinkTrainings : Prop :=
  ∀ (s : State) (l : Fin 5) (seen : TrainSeen) (width : Nat),
    let x := s.link l.val
    s.hubUp = true → s.domUp (linkDomain l.val) = true → s.pwr.refclk = true → x.state = .training ∨ x.state = .retrain →
    (l.val ≠ 4 → seen.peerIndex ≠ l.val →
      Leads s (.linkTrained l seen) fun t => (t.link l.val).state = .down ∧ t.peerState l.val = 4 ∧ sameBytes s t) ∧
    (l.val = 4 → s.trainedWidth 4 seen.lanes = none → exec (.linkTrained l seen) s = .next s) ∧
    (l.val = 4 ∨ (seen.peerIndex = l.val ∧ seen.peerIndex ≠ s.get R.HUB_ID_pontoon_index) → s.unfenced → s.linkClear l.val → s.boot.step ≠ 8 →
      s.trainedWidth l.val seen.lanes = some width →
      (x.prevOwn = some x.epoch → x.prevPeer = some seen.peerEpoch → x.kept = true → x.holdsResume seen.peerResume = true → seen.inBuffer = true →
        (∀ r : Nat × Nat × OutPacket, r ∈ x.replay → r.2.2.ownTag = none) →
        Leads s (.linkTrained l seen) fun t =>
          (t.link l.val).state = .active ∧ (t.link l.val).rxNext = x.rxNext ∧ (t.link l.val).postRx = x.postRx ∧
          ((x.trained seen s.now).resumed seen.peerResume).replay <+: (t.link l.val).replay ∧
          (l.val = 4 → t.get R.LNK_STATUS_width = width) ∧ (l.val ≠ 4 → t.peerState l.val = 2)) ∧
      (x.prevOwn ≠ some x.epoch ∨ x.prevPeer ≠ some seen.peerEpoch →
        Leads s (.linkTrained l seen) fun t =>
          (t.link l.val).state = .active ∧ (t.link l.val).rxNext = 0 ∧ (t.link l.val).postRx = 0 ∧ (t.link l.val).openTags = [] ∧
          (t.link l.val).prevOwn = some x.epoch ∧ (t.link l.val).prevPeer = some seen.peerEpoch ∧
          (t.link l.val).replay.head? = some (0, 1, .linkUp true width x.epoch) ∧
          (l.val = 4 → ∀ n : Nat, n < 74 → t.get (R.LNK_LND_CFG_en n) = 0) ∧ (l.val ≠ 4 → t.peerState l.val = 2)))

/-- STANDBY is asked for after idle_us without a flit, agreed to by an idle far end, and left 4.037 us after a wake ordered set or for a packet
that waits (R365). Signal on the host lanes fires source 469, trains a DOWN link with auto_up, and wakes a module in MOOR (R366, R306).
COMPLETES: under hypotheses on the state and the operands alone, exec answers a next state (exec c s = .next t for some t, which is what
Leads and Answers say) for standbyReq, standbyAck, linkIdle, wakeOrderedSet, standbyExit, hostLaneSignal. -/
def Obligations.LinkStandby : Prop :=
  ∀ (s : State) (l : Fin 5),
    let x := s.link l.val
    let others (t : State) : Prop := ∀ k : Nat, k < 5 → k ≠ l.val → t.link k = s.link k
    let voted (t : State) : Prop := others t ∧ sameFields [(R.PWR_VOTE_votes 0).row] s t ∧ sameBytes s t
    (s.hears l.val = true → s.linkQuiet l.val = true →
      (s.get R.LNK_CFG_idle_us ≠ 0 →
        (Leads s (.linkIdle l) fun t =>
          t.link l.val = { x with standbyAsked := true } ∧ t.clk.mesh = max s.clk.mesh (x.idleSince + 1250 * s.get R.LNK_CFG_idle_us) ∧ others t ∧ sameFields [] s t ∧
          sameBytes s t) ∧
        (x.idleSince + 1250 * s.get R.LNK_CFG_idle_us ≤ s.clk.mesh →
          Leads s (.standbyReq l) fun t => t.link l.val = { x with state := .standby, standbyAsked := false, wakeAt := none } ∧ voted t)) ∧
      (x.standbyAsked = true → Leads s (.standbyAck l) fun t => t.link l.val = { x with state := .standby, standbyAsked := false, wakeAt := none } ∧ voted t)) ∧
    (x.state = .standby →
      (s.hubUp = true →
        Leads s (.wakeOrderedSet l) fun t =>
          t.link l.val = { x with wakeAt := some (x.wakeAt.getD (s.clk.mesh + wakeTicks)) } ∧ (l.val = 4 → t.pends 469 = true) ∧ others t ∧
          sameFields [(R.IRQ_PEND_pend 0).row] s t ∧ sameBytes s t) ∧
      (x.wakeAt ≠ none ∨ x.vc0 ≠ [] ∨ x.vc1 ≠ [] ∨ x.vc2 ≠ [] →
        Leads s (.standbyExit l) fun t =>
          (t.link l.val).state = .active ∧ t.clk.mesh = max s.clk.mesh (x.wakeAt.getD (s.clk.mesh + wakeTicks)) ∧ (t.link l.val).kept = x.kept ∧ (t.link l.val).rxNext = x.rxNext ∧ others t ∧
          sameFields ((R.PWR_VOTE_votes 0).row :: counterRows) s t ∧ sameBytes s t)) ∧
    (s.hubUp = true → s.pwr.mode ≠ .off → (s.link 4).state = .down →
      Leads s .hostLaneSignal fun t =>
        t.pends 469 = true ∧ (t.link 4).state = (if s.get R.LNK_CFG_auto_up ≠ 0 then .training else .down) ∧
        sameFields [(R.IRQ_PEND_pend 0).row, (R.PWR_VOTE_votes 0).row] s t ∧ sameBytes s t) ∧
    (s.pwr.mode = .moor → s.dom 0 = .down → s.boot.step = 0 → s.pwr.railsHeld = false → s.bit R.AON_WAKE_EN_codes 1 = true →
      Leads s .hostLaneSignal fun t => t.dom 0 = .rising ∧ t.get R.AON_WAKE_LAST_src = 2 ∧ t.bit (R.PWR_VOTE_votes 0) 24 = true ∧ sameBytes s t)

/-- Requests that find nothing in their way on a link: RD and WR reach their target and are answered with CPLD and CPL, a length over 4,096
DENIED (R349, R350); an OPEN entry answers a once retry without carrying it out (R357); WRP takes the next posted sequence (R359); FENCE
reports failures (R360); CANCEL withdraws what waits, and else is ALREADY_COMPLETE (R358). Where the spec is silent it follows the model's
choice of log 97, 102 and 103. COMPLETES: under hypotheses on the state and the operands alone, exec answers a next state (exec c s = .next
t for some t, which is what Leads and Answers say) for rd, wr, cpl, cpld, cancel, wrp, redraFence. -/
def Obligations.RequestPackets : Prop :=
  ∀ (s : State) (l : Fin 5) (p : Packet) (data : List Byte) (tag : Fin 1024) (once tx : Bool) (target : Fin 65536) (landing : Fin 256),
    let x := s.link l.val
    let others (t : State) : Prop := ∀ k : Nat, k < 5 → k ≠ l.val → t.link k = s.link k
    let answers (c : Instr) (q : OutPacket) (p : State → Prop) : Prop :=
      x.canSend q = true → Leads s c fun t => (t.link l.val).replay = (x.sent q).replay ∧ (t.link l.val).openTags = [] ∧ others t ∧ p t
    let sameRegs (t : State) : Prop := sameFields counterRows s t
    s.hears l.val = true → s.lnk.cancels = [] →
    (s.linkClear l.val →
      (p.once = false ∨ l.val ≠ 4 →
        (s.plainSram p.addr p.len → answers (.rd l p []) (.cpld p.tag .ok (s.bytes p.addr p.len)) fun t => sameRegs t ∧ sameBytes s t) ∧
        (s.plainSram p.addr data.length → p.len = data.length → answers (.wr l p data) (.cpl p.tag .ok) fun t => sameRegs t ∧ wroteBytes s t p.addr data)) ∧
      (4096 < p.len → answers (.rd l p []) (.cpl p.tag .denied) fun t => t.get (R.LNK_ERR_CNT_count 5) = min (s.get (R.LNK_ERR_CNT_count 5) + 1) (2 ^ 32 - 1) ∧ sameBytes s t) ∧
      (∀ o : OnceEntry, l.val = 4 → p.once = true → p.len ≤ 4096 → o.state = .open_ →
        x.once.find? (fun e => e.tag == p.tag && e.crc == crc32c (requestBytes 1 p.tag p.addr p.len [])) = some o →
        answers (.rd l p []) (answerPacket p.tag o.status o.data) fun t =>
          (∀ e : OnceEntry, e ∈ (t.link 4).once → e.tag = p.tag → e.state = .delivered) ∧ sameRegs t ∧ sameBytes s t) ∧
      (once = false ∨ l.val ≠ 4 →
        (s.unfenced → (∀ k : Nat, k < 4 → s.linkClear k) →
          let f : FenceWait := { link := l.val, tag := tag.val, seq := (x.postRx + 65535) % 65536, serial := s.lnk.serial }
          answers (.redraFence l tag once) (.cpld tag.val .ok (s.fenceData f)) fun t =>
            (t.link l.val).fails = (x.fails.filter fun q => !seqUpTo q f.seq) ∧ sameRegs t ∧ sameBytes s t) ∧
        (tx = false → target.val ≠ tag.val → s.lnk.wot = [] → (l.val = 4 → ∀ c : Nat × Nat, c ∈ s.lnk.cmds → c.1 ≠ target.val) →
          answers (.cancel l tag once target tx landing) (.cpl tag.val .alreadyComplete) fun t => sameRegs t ∧ sameBytes s t) ∧
        (tx = true → landing.val < 64 → (s.nbr landing.val).frames = [] → (s.nbr landing.val).tags = [] → s.ringPosted landing.val ≠ 0 →
          answers (.cancel l tag once target tx landing) (.cpl tag.val .cancelled) fun t =>
            (t.nbr landing.val).cancelAhead = insertRising target.val (s.nbr landing.val).cancelAhead ∧ sameRegs t ∧ sameBytes s t))) ∧
    (∀ (w : WotAccess) (k : Nat), s.lnk.wot = [w] → w.src = .link l.val target.val k → x.openTags = [(target.val, k)] → x.vc0 = [] → x.vc1 = [] → x.vc2 = [] →
      target.val ≠ tag.val → once = false → x.canSend (.cpl target.val .cancelled) = true → (x.sent (.cpl target.val .cancelled)).canSend (.cpl tag.val .cancelled) = true →
      Leads s (.cancel l tag once target false landing) fun t =>
        (t.link l.val).replay = ((x.sent (.cpl target.val .cancelled)).sent (.cpl tag.val .cancelled)).replay ∧ t.lnk.wot = [] ∧
        t.bit (R.PWR_VOTE_votes w.dom) 27 = false ∧ others t ∧ sameBytes s t) ∧
    (p.len = data.length → s.plainSram p.addr data.length →
      Leads s (.wrp l p data) fun t => t.link l.val = { x with postRx := (x.postRx + 1) % 65536 } ∧ others t ∧ sameFields [] s t ∧ wroteBytes s t p.addr data) ∧
    (p.len ≠ data.length →
      Leads s (.wrp l p data) fun t =>
        t.link l.val = { x with postRx := (x.postRx + 1) % 65536 } ∧ t.get (R.LNK_ERR_CNT_count 5) = min (s.get (R.LNK_ERR_CNT_count 5) + 1) (2 ^ 32 - 1) ∧ others t ∧
        sameFields [(R.LNK_ERR_CNT_count 5).row] s t ∧ sameBytes s t)

/-- A completion ends the own request with its tag, a forwarded one on its own link, and one for no open request is consumed (R27, R351). A late
fault from the host is logged with its time and fires source 480 (R359, R361). Where the spec is silent it follows the model's choice of log
100. COMPLETES: under hypotheses on the state and the operands alone, exec answers a next state (exec c s = .next t for some t, which is
what Leads and Answers say) for cpl, cpld, hostLateFault. -/
def Obligations.CompletionPackets : Prop :=
  ∀ (s : State) (l : Fin 5) (tag : Fin 1024) (st : Status) (data : List Byte) (seq : Fin 65536) (addr : Word),
    let x := s.link l.val
    let req (r : Nat × AccSrc) : Bool := r.1 == tag.val
    let left (t : State) : Prop := (t.link l.val).ownReqs = x.ownReqs.filter fun r => !req r
    s.hears l.val = true →
    (x.ownReqs.find? req = none → exec (.cpl l tag st) s = .next s ∧ exec (.cpld l tag st data) s = .next s) ∧
    (x.ownReqs.find? req = some (tag.val, .direct) →
      (Leads s (.cpl l tag st) fun t => t.resp = ⟨st, []⟩ ∧ left t ∧ sameFields [] s t ∧ sameBytes s t) ∧
      (Leads s (.cpld l tag st data) fun t => t.resp = ⟨st, data⟩ ∧ left t ∧ sameFields [] s t ∧ sameBytes s t)) ∧
    (∀ k n : Nat, x.ownReqs.find? req = some (tag.val, .link 4 k n) → l.val ≠ 4 → s.lnk.cancels = [] → (s.link 4).openTags = [(k, n)] → (s.link 4).vc0 = [] → (s.link 4).vc1 = [] →
      (s.link 4).vc2 = [] → (s.link 4).canSend (answerPacket k st data) = true →
      Leads s (.cpld l tag st data) fun t =>
        left t ∧ (t.link 4).replay = ((s.link 4).sent (answerPacket k st data)).replay ∧ (t.link 4).openTags = [] ∧ sameFields counterRows s t ∧ sameBytes s t) ∧
    (l.val = 4 →
      let w := s.get R.LNK_LATE_PTR_wr % 32
      Leads s (.hostLateFault l seq st addr) fun t =>
        t.get (R.LNK_LATE_FAULT0_dir w) = 1 ∧ t.get (R.LNK_LATE_FAULT0_link w) = 4 ∧ t.get (R.LNK_LATE_FAULT0_status w) = st.code ∧
        t.get (R.LNK_LATE_FAULT0_seq w) = seq.val ∧ t.get (R.LNK_LATE_FAULT1_addr w) = addr.toNat ∧ t.get (R.LNK_LATE_FAULT2_time w) = s.clk.mesh % 2 ^ 32 ∧
        t.get R.LNK_LATE_PTR_wr = (w + 1) % 32 ∧ t.pends 480 = true ∧ (∀ k : Nat, k < 5 → t.link k = s.link k) ∧ sameBytes s t)

/-- TAIL is the host's on rings 0 to 72 and HEAD on ring 73 (R362). The module reads the next command descriptor, takes an update command and
answers an unknown one DENIED; a completion entry is written at TAIL of ring 73, with a phase bit that inverts on each wrap, and waits while
the ring is full (R362, R363). Where the spec is silent it follows the model's choice of log 18 and 32. COMPLETES: under hypotheses on the
state and the operands alone, exec answers a next state (exec c s = .next t for some t, which is what Leads and Answers say) for
lnkLndTailWrite, lnkLndHeadWrite, commandDescriptorRead, completionEntryWrite. -/
def Obligations.Landings : Prop :=
  ∀ (s : State) (ini : Initiator) (n : Fin 74) (data : Word) (d : CmdDesc) (e : RingEntry) (rest : List RingEntry),
    (s.opens ini true (0x020B100C + 0x20 * n.val) data.toNat →
      Answers s (.lnkLndTailWrite ini n data) .ok fun t =>
        t.get (R.LNK_LND_TAIL_tail n.val) = (if n.val = 73 then s.get (R.LNK_LND_TAIL_tail 73) else data.toNat % 4096) ∧
        sameFields [(R.LNK_LND_TAIL_tail 0).row] s t ∧ sameBytes s t) ∧
    (s.opens ini true (0x020B1010 + 0x20 * 73) data.toNat →
      Answers s (.lnkLndHeadWrite ini data) .ok fun t =>
        t.get (R.LNK_LND_HEAD_head 73) = data.toNat % 4096 ∧ sameFields [(R.LNK_LND_HEAD_head 0).row] s t ∧ sameBytes s t) ∧
    (s.hears 4 = true → s.ringPosted 72 ≠ 0 → d.once = false →
      let took (t : State) : Prop :=
        t.ringHead 72 = (s.ringHead 72 + 1) % s.ringSize 72 ∧ t.lnk.cmds = s.lnk.cmds ++ [(d.tag, s.ringHead 72)] ∧
        sameFields [(R.LNK_LND_HEAD_head 0).row] s t ∧ sameBytes s t
      (0x40 ≤ d.opcode → d.opcode ≤ 0x43 → s.upd.cmd = none → Leads s (.commandDescriptorRead d) fun t => t.upd.cmd = some d ∧ t.lnk.entries = s.lnk.entries ∧ took t) ∧
      (d.opcode < 0x40 ∨ 0x43 < d.opcode → (∀ c : Nat × Nat, c ∈ s.lnk.cmds → c.1 ≠ d.tag) →
        Leads s (.commandDescriptorRead d) fun t =>
          t.upd = s.upd ∧ took t ∧
          t.lnk.entries = s.lnk.entries ++ [{ kind := 3, status := 4, tag := d.tag, ring := 72, reason := 0, index := s.ringHead 72, count := 0, result := [] }])) ∧
    (s.lnk.entries = e :: rest →
      (s.get (R.LNK_LND_CFG_en 73) = 0 ∨ (s.ringTail 73 + 1) % s.ringSize 73 = s.ringHead 73 → exec .completionEntryWrite s = .next s) ∧
      (s.get (R.LNK_LND_CFG_en 73) ≠ 0 → (s.ringTail 73 + 1) % s.ringSize 73 ≠ s.ringHead 73 → s.lnk.cancels = [] → s.linkClear 4 →
        let q := OutPacket.write (s.ringAddr 73 (s.ringTail 73) 16) (ringBytes e s.lnk.phase)
        (s.link 4).canSend q = true →
        Leads s .completionEntryWrite fun t =>
          (t.link 4).replay = ((s.link 4).sent q).replay ∧ t.lnk.entries = rest ∧ t.ringTail 73 = (s.ringTail 73 + 1) % s.ringSize 73 ∧
          t.lnk.phase = (if s.ringTail 73 + 1 = s.ringSize 73 then !s.lnk.phase else s.lnk.phase) ∧
          sameFields ((R.LNK_LND_TAIL_tail 0).row :: counterRows) s t ∧ sameBytes s t))

/-- A BEACON of a peer joins it again and brings its digest; the primary's sets solo DIGEST on the second differing digest in a row and VERSION
on another generation (R370). A primary that is silent for two cycles sets solo PRIMARY, and a silent secondary is LOST, each with source
487 (R370). Where the spec is silent it follows the model's choice of log 105. COMPLETES: under hypotheses on the state and the operands
alone, exec answers a next state (exec c s = .next t for some t, which is what Leads and Answers say) for beacon, primarySilent,
pontoonPeerLost. -/
def Obligations.Pontoons : Prop :=
  ∀ (s : State) (p : Fin 4) (b : BeaconSeen),
    (s.hears p.val = true → s.peerWanted p.val = true → s.peerState p.val = 2 ∨ s.peerState p.val = 3 →
      Leads s (.beacon p b) fun t =>
        t.peerState p.val = 2 ∧ (∀ k : Nat, k < 4 → k ≠ p.val → t.peerState k = s.peerState k) ∧
        t.get (R.PNT_PEER_DIGEST_digest (2 * p.val)) = b.digest % 2 ^ 32 ∧ t.get (R.PNT_PEER_DIGEST_digest (2 * p.val + 1)) = b.digest / 2 ^ 32 % 2 ^ 32 ∧
        t.clk.mesh = max s.clk.mesh b.arrival ∧ vget t.pnt.lastPeer p.val = b.arrival ∧ vget t.pnt.gens p.val = (b.major, b.minor) ∧
        (p.val = 0 → b.digest ≠ s.get2 R.PNT_DIGEST_digest → 1 ≤ s.pnt.digestMiss → t.bit R.PNT_STATUS_solo 0 = true) ∧
        (p.val = 0 → generationsAgree (s.get R.PNT_GEN_major) (s.get R.PNT_GEN_minor) b.major b.minor = false → t.bit R.PNT_STATUS_solo 1 = true) ∧
        (∀ k : Nat, k < 5 → t.link k = s.link k) ∧ sameBytes s t) ∧
    (s.hubUp = true → s.pontoonSecondary = true → s.bit R.PNT_STATUS_solo 3 = false → (s.link 0).state ≠ .down →
      Leads s .primarySilent fun t =>
        t.bit R.PNT_STATUS_solo 3 = true ∧ t.pends 487 = true ∧ t.clk.mesh = max s.clk.mesh (vget s.pnt.lastPeer 0 + 2 * cycleTicks) ∧
        sameFields [R.PNT_STATUS_solo.row, (R.IRQ_PEND_pend 0).row] s t ∧ sameBytes s t) ∧
    (s.hubUp = true → s.peerWanted p.val = true → p.val ≠ 0 → s.peerState p.val = 2 → (s.link p.val).state ≠ .down → s.linkClear p.val → s.unfenced →
      Leads s (.pontoonPeerLost p) fun t =>
        t.peerState p.val = 3 ∧ t.pends 487 = true ∧ (∀ k : Nat, k < 4 → k ≠ p.val → t.peerState k = s.peerState k) ∧
        t.clk.mesh = max s.clk.mesh (vget s.pnt.lastPeer p.val + 2 * cycleTicks) ∧ sameFields [R.PNT_STATUS_peer.row, (R.IRQ_PEND_pend 0).row] s t ∧ sameBytes s t)

/-- The writes of a sequence: two unlocks, then a command. Program loads a page buffer, erase starts after the hold-up check, which refuses it
with source 489 (R377 to R380, R384); the calibration row is refused with source 491 and reason 2 (R380); status, exit and reset set the
bank's mode, and reset aborts an operation (R379, R387); 100 us after the owner's last write a sequence is over with reason 6 (R377). Where
the spec is silent it follows the model's choice of log 56 and 57. COMPLETES: under hypotheses on the state and the operands alone, exec
answers a next state (exec c s = .next t for some t, which is what Leads and Answers say) for flashUnlock1, flashUnlock2, sequenceTimeout,
pageProgram, blockErase, flashStatus, flashExit, flashReset. -/
def Obligations.FlashSequences : Prop :=
  ∀ (s : State) (ini : Initiator) (posted : Bool) (k : Fin 4) (block : Fin 64),
    let b := s.fbank k.val
    let target := 64 * k.val + block.val
    let does (c : Instr) (p : State → Prop) : Prop :=
      (b.inSeq = true → s.clk.mesh ≤ b.wroteAt + 125000) →
      Leads s c fun t => (posted = false → t.resp.status = .ok) ∧ (∀ j : Nat, j < 4 → j ≠ k.val → t.fbank j = s.fbank j) ∧ sameBytes s t ∧ p t
    let lapsed : FlashBank := { b with seq := .read, owner := none, page := none, buffer := [] }
    let ended : FlashBank := { b with wroteAt := s.clk.mesh, seq := .read, owner := none, page := none, buffer := [] }
    s.hubUp = true → s.domRuns 13 = true → b.owner = none ∨ b.owner = some ini →
    (b.seq = .read ∨ b.seq = .busy →
      does (.flashUnlock1 ini posted k) fun t => t.fbank k.val = { b with seq := .unlock1, owner := some ini, wroteAt := s.clk.mesh } ∧ t.bit (R.PWR_VOTE_votes 13) 25 = true) ∧
    (b.seq = .unlock1 → does (.flashUnlock2 ini posted k) fun t => t.fbank k.val = { b with seq := .unlock2, wroteAt := s.clk.mesh }) ∧
    (b.seq = .unlock2 → b.op = 0 → isKeel ini = true ∨ target ≠ 0 →
      (target ≠ 255 → s.markedBad target = false →
        (does (.pageProgram ini posted k block) fun t =>
          t.fbank k.val = { b with seq := .loading, target := block.val, page := none, buffer := [], wroteAt := s.clk.mesh } ∧ t.get (R.FLC_BANK_block k.val) = block.val ∧
          t.get (R.FLC_BANK_status_mode k.val) = 0) ∧
        (s.factoryBad target = false →
          (s.get R.FLC_HOLDUP_CTRL_check = 0 →
            does (.blockErase ini posted k block) fun t =>
              t.fbank k.val = { b with seq := .busy, op := 2, unit := target, wroteAt := s.clk.mesh } ∧ t.get (R.FLC_BANK_busy k.val) = 1 ∧ t.get (R.FLC_BANK_op k.val) = 2 ∧
              t.get (R.FLC_BANK_refused k.val) = 0 ∧ t.get R.AON_FLASH_OP_valid = 1 ∧ t.get R.AON_FLASH_OP_op = 2 ∧ t.get R.AON_FLASH_OP_block = target) ∧
          (s.get R.FLC_HOLDUP_CTRL_check ≠ 0 → s.pins.holdupCode = 0 →
            does (.blockErase ini posted k block) fun t =>
              t.fbank k.val = ended ∧ t.get (R.FLC_BANK_refused k.val) = 1 ∧ t.get (R.FLC_BANK_reason k.val) = 1 ∧ t.pends 489 = true ∧
              t.get R.FLC_HOLDUP_REFUSED_count = min (s.get R.FLC_HOLDUP_REFUSED_count + 1) 65535 ∧ t.get R.FLC_HOLDUP_LAST_code = 0))) ∧
      (target = 255 →
        let calRow (t : State) : Prop :=
          t.fbank k.val = ended ∧ t.get (R.FLC_BANK_refused k.val) = 1 ∧ t.get (R.FLC_BANK_reason k.val) = 2 ∧ t.pends 491 = true
        does (.pageProgram ini posted k block) calRow ∧ does (.blockErase ini posted k block) calRow)) ∧
    (b.seq = .unlock2 →
      (does (.flashStatus ini posted k) fun t =>
        (t.fbank k.val).seq = (if b.op = 0 then .read else .busy) ∧ (t.fbank k.val).op = b.op ∧ t.get (R.FLC_BANK_status_mode k.val) = 1) ∧
      (does (.flashExit ini posted k) fun t =>
        (t.fbank k.val).seq = (if b.op = 0 then .read else .busy) ∧ (t.fbank k.val).op = b.op ∧ t.get (R.FLC_BANK_status_mode k.val) = 0) ∧
      (does (.flashReset ini posted k) fun t =>
        (t.fbank k.val).seq = .read ∧ (t.fbank k.val).op = 0 ∧ t.get (R.FLC_BANK_status_mode k.val) = 0 ∧
        (b.op ≠ 0 → (b.op, b.unit) ∈ t.flc.undef ∧ t.get (R.FLC_BANK_reason k.val) = 8 ∧ t.get (R.FLC_BANK_busy k.val) = 0 ∧ t.get R.AON_FLASH_OP_valid = 0))) ∧
    (b.seq = .unlock1 ∨ b.seq = .unlock2 ∨ b.seq = .loading → b.op = 0 →
      Leads s (.sequenceTimeout k) fun t =>
        t.fbank k.val = lapsed ∧ t.clk.mesh = max s.clk.mesh (b.wroteAt + 125000) ∧ t.get (R.FLC_BANK_refused k.val) = 1 ∧ t.get (R.FLC_BANK_reason k.val) = 6 ∧
        sameBytes s t) ∧
    (b.inSeq = true → b.op = 0 → b.wroteAt + 125000 < s.clk.mesh →
      Leads s (.flashUnlock1 ini posted k) fun t =>
        t.fbank k.val = { lapsed with seq := .unlock1, owner := some ini, wroteAt := s.clk.mesh } ∧ t.get (R.FLC_BANK_refused k.val) = 1 ∧
        t.get (R.FLC_BANK_reason k.val) = 6 ∧ sameBytes s t)

/-- A page buffer collects bytes of one page and closes with offset 0xFF: words that are not erased refuse the program with reason 4 (R375,
R379). A finished program writes its words and a finished erase sets a block to 0xFF, with source 488 (R375, R382). A read gives the array,
or the status word (R374, R382); a stray write is counted (R381), and one of the deck to the keel's block 0 is denied as an access to what
is the keel's (R224, R225). Where the spec is silent it follows the model's choice of log 56. COMPLETES: under hypotheses on the state and
the operands alone, exec answers a next state (exec c s = .next t for some t, which is what Leads and Answers say) for flashRead,
pageBufferWrite, flashOpDone, flashStrayWrite. -/
def Obligations.FlashContents : Prop :=
  ∀ (s : State) (ini : Initiator) (posted fail : Bool) (k : Fin 4) (addr : Word) (data : List Byte) (size unc : Nat),
    let a := addr.toNat
    let b := s.fbank k.val
    let buffer := b.buffer ++ (List.range data.length).map fun i => (a % 256 + i, (data.getD i 0).toNat)
    let words := bufferWords buffer
    s.hubUp = true → s.domRuns 13 = true →
    (a / 0x400000 = k.val → b.owner = none ∨ b.owner = some ini → data ≠ [] → (b.inSeq = true → s.clk.mesh ≤ b.wroteAt + 125000) →
      (b.seq = .loading → a / 0x10000 = 64 * k.val + b.target → b.page = none ∨ b.page = some (a / 256 * 256) →
        (∀ p : Nat × Nat, p ∈ b.buffer → p.1 < a % 256 ∨ a % 256 + data.length ≤ p.1) →
        (a % 256 + data.length < 256 →
          Leads s (.pageBufferWrite ini posted addr data) fun t =>
            t.fbank k.val = { b with page := some (a / 256 * 256), buffer := buffer, wroteAt := s.clk.mesh } ∧ sameBytes s t) ∧
        (a % 256 + data.length = 256 → (∀ i : Nat, i ∈ words → s.wordErased (a / 256 * 256 + 8 * i) = true) → s.get R.FLC_HOLDUP_CTRL_check = 0 →
          Leads s (.pageBufferWrite ini posted addr data) fun t =>
            t.fbank k.val = { b with seq := .busy, op := 1, unit := a / 256, buffer := buffer, wroteAt := s.clk.mesh } ∧ t.get (R.FLC_BANK_busy k.val) = 1 ∧
            t.get R.AON_FLASH_OP_valid = 1 ∧ t.get R.AON_FLASH_OP_op = 1 ∧ t.get R.AON_FLASH_OP_block = a / 0x10000 ∧ t.get R.AON_FLASH_OP_page = a / 256 % 256 ∧
            sameBytes s t) ∧
        (a % 256 + data.length = 256 → (∃ i : Nat, i ∈ words ∧ s.wordErased (a / 256 * 256 + 8 * i) = false) →
          Leads s (.pageBufferWrite ini posted addr data) fun t =>
            t.get (R.FLC_BANK_refused k.val) = 1 ∧ t.get (R.FLC_BANK_reason k.val) = 4 ∧ (t.fbank k.val).op = b.op ∧ sameBytes s t)) ∧
      (b.seq = .read ∨ b.seq = .busy → a + data.length ≤ 0x1000000 → data.length ≤ 4096 → a % 0x400000 ≠ 0xAAA ∨ data ≠ [0xB4#8] →
        (a < 0xFF8000 →
          Leads s (.flashStrayWrite ini posted addr data) fun t =>
            (posted = false → t.resp.status = .denied) ∧ t.get R.FLC_STRAY_count = min (s.get R.FLC_STRAY_count + 1) (2 ^ 32 - 1) ∧
            (a < 0x10000 → isKeel ini = false →
              t.get R.SEC_DENY_COUNT_count = min (s.get R.SEC_DENY_COUNT_count + 1) (2 ^ 32 - 1) ∧ t.get R.SEC_DENY_LAST_addr = a ∧ t.pends 100 = true) ∧
            sameBytes s t) ∧
        (0xFF8000 ≤ a →
          Leads s (.flashStrayWrite ini posted addr data) fun t =>
            (posted = false → t.resp.status = .ok) ∧ t.get R.FLC_CALWR_count = min (s.get R.FLC_CALWR_count + 1) (2 ^ 32 - 1) ∧ t.pends 491 = true ∧ sameBytes s t))) ∧
    (a / 0x400000 = k.val → 0 < size → size ≤ 4096 → a % 0x400000 + size ≤ 0x400000 → isKeel ini = true ∨ 0x10000 ≤ a →
      (b.op = 0 → s.get (R.FLC_BANK_status_mode k.val) = 0 → (∀ i : Nat, i < size → s.flashUndef (a + i) = false) →
        Leads s (.flashRead ini addr size []) fun t => t.resp = ⟨.ok, s.bytes a size⟩ ∧ sameFields [] s t ∧ sameBytes s t) ∧
      (b.op ≠ 0 ∨ s.get (R.FLC_BANK_status_mode k.val) ≠ 0 → exec (.flashRead ini addr size []) s = .next (s.reply .ok (laneBytes (s.flashStatus k.val) a size)))) ∧
    (b.op ≠ 0 →
      Leads s (.flashOpDone k fail unc) fun t =>
        t.fbank k.val = { b with seq := .read, owner := none, page := none, buffer := [], op := 0, unit := 0 } ∧ t.get (R.FLC_BANK_busy k.val) = 0 ∧
        t.get (R.FLC_BANK_fail k.val) = fail.toNat ∧ t.get (R.FLC_BANK_count k.val) = (s.get (R.FLC_BANK_count k.val) + 1) % 256 ∧
        t.get R.AON_FLASH_OP_valid = 0 ∧ t.pends 488 = true ∧
        (b.op = 1 → (b.buffer.map Prod.fst).Nodup →
          (∀ p : Nat × Nat, p ∈ b.buffer → p.1 / 8 ∈ bufferWords b.buffer → t.byte (256 * b.unit + p.1) = BitVec.ofNat 8 p.2) ∧
          (∀ x : Nat, (∀ p : Nat × Nat, p ∈ b.buffer → p.1 / 8 ∈ bufferWords b.buffer → x ≠ 256 * b.unit + p.1) → t.byte x = s.byte x)) ∧
        (b.op = 2 → b.unit < 256 → ∀ x : Nat, t.byte x = if x / 0x10000 = b.unit then 0xFF#8 else s.byte x) ∧
        (b.op = 3 → sameBytes s t ∧ (t.get (R.FLC_SPARE_fill b.unit) = 0) ∧ t.get (R.FLC_SPARE_state b.unit) = (if fail then 3 else 2)))

/-- A comparison of HOLDUP_SENSE below the threshold fires source 472 (R386). FLC_SPARE starts the fill of a free entry, but in stage RUN
(R399). Where the spec is silent it follows the model's choice of log 57 and 96. COMPLETES: under hypotheses on the state and the operands
alone, exec answers a next state (exec c s = .next t for some t, which is what Leads and Answers say) for holdupCompare, spareFill. -/
def Obligations.HoldupAndSpares : Prop :=
  ∀ (s : State) (ini : Initiator) (code : Fin 4096) (n : Fin 16) (data : Word),
    let thr := s.get R.AON_HOLDUP_THR_code
    (Leads s (.holdupCompare code) fun t =>
      t.pins.holdupCode = code.val ∧ t.pins.holdupBelow = (if thr = 0 then none else some (decide (code.val < thr))) ∧
      (s.hubUp = true → code.val < thr → s.pins.holdupBelow ≠ some true → t.pends 472 = true) ∧
      (s.hubUp = false → code.val < thr → s.pins.holdupBelow ≠ some true → s.bit R.AON_LATCH_EN_sources 24 = true → t.aon.latches.testBit 24 = true) ∧
      (thr ≤ code.val ∨ s.pins.holdupBelow = some true → sameFields [] s t) ∧ sameFields [(R.IRQ_PEND_pend 0).row] s t ∧ sameBytes s t) ∧
    (s.opens ini true (0x020D0300 + 4 * n.val) data.toNat →
      (s.get R.HUB_BOOT_STATUS_stage = 2 → Answers s (.spareFill ini n data) .denied fun t => sameFields [] s t ∧ sameBytes s t) ∧
      (s.get R.HUB_BOOT_STATUS_stage ≠ 2 → data.getLsbD 31 = true → data.getLsbD 30 = true → s.get (R.FLC_SPARE_state n.val) = 0 → (s.fbank (n.val / 4)).op = 0 →
        s.get R.FLC_HOLDUP_CTRL_check = 0 →
        Answers s (.spareFill ini n data) .ok fun t =>
          t.get (R.FLC_SPARE_en n.val) = 1 ∧ t.get (R.FLC_SPARE_fill n.val) = 1 ∧ t.get (R.FLC_SPARE_state n.val) = 1 ∧
          t.get (R.FLC_SPARE_column n.val) = data.toNat / 65536 % 512 ∧ t.get (R.FLC_SPARE_bit n.val) = data.toNat % 128 ∧
          (t.fbank (n.val / 4)).op = 3 ∧ (t.fbank (n.val / 4)).unit = n.val ∧ t.get (R.FLC_BANK_busy (n.val / 4)) = 1 ∧ sameBytes s t))

/-- An update command completes OK with its result. BEGIN erases the journal and opens a session (R402); BLOCK stages a chunk and writes the
erase block it completes, with source 492, or waits for hold-up energy, 1 s at most (R403); COMMIT writes the commit record if the image is
whole (R404); STATUS reports the session (R405). A peer's target is relayed (R407). Where the spec is silent it follows the model's choice
of log 33, 108, 109, 113 and 114. COMPLETES: under hypotheses on the state and the operands alone, exec answers a next state (exec c s =
.next t for some t, which is what Leads and Answers say) for imageBegin, imageBlock, holdupRetry, imageCommit, imageStatus. -/
def Obligations.Updates : Prop :=
  ∀ (s : State) (d : CmdDesc) (i : Nat) (m data : List Byte) (fails : Nat) (answer : Nat × Nat) (report : List Byte),
    let done (c : Instr) (result detail : Nat) (p : State → Prop) : Prop :=
      Leads s c fun t =>
        t.upd.cmd = none ∧ p t ∧
        t.lnk.entries = s.lnk.entries ++ [{ kind := 3, status := 0, tag := d.tag, ring := 72, reason := 0, index := i, count := 0, result := [result, detail] }]
    let still (t : State) : Prop := sameFields [] s t ∧ sameBytes s t
    s.hubUp = true → s.upd.cmd = some d → s.lnk.cmds = [(d.tag, i)] → s.flc.undef = [] →
    let stage := s.get R.HUB_BOOT_STATUS_stage
    let check := s.get R.FLC_HOLDUP_CTRL_check
    (d.opcode = 0x40 → m.length = 256 →
      (s.targetOwn (argByte d 0) = false → argByte d 0 < 4 → s.peerTrained (argByte d 0) = true → done (.imageBegin m answer) answer.1 answer.2 still) ∧
      (s.targetOwn (argByte d 0) = false → s.peerTrained (argByte d 0) = false → done (.imageBegin m answer) 12 0 still) ∧
      (s.targetOwn (argByte d 0) = true → stage ≠ 0 → s.loaderFree 0 = true → field m 4 1 ≠ 1 →
        (∀ e : Nat × Nat, s.beginFault m = some e → done (.imageBegin m answer) e.1 e.2 still) ∧
        (s.beginFault m = none → s.session = none → check = 0 →
          done (.imageBegin m answer) 0 0 fun t =>
            t.session = some { number := 1, kind := field m 4 1, target := argByte d 0, size := imageSize m, committed := false } ∧ t.sessionManifest = m ∧
            (∀ x : Nat, x < 0x270000 ∨ 0x280000 ≤ x → t.byte x = s.byte x)))) ∧
    (∀ x : Session, d.opcode = 0x41 → s.upd.retry = none → data.length = d.len → s.targetOwn (argByte d 8) = true → stage ≠ 0 → s.session = some x → x.committed = false →
      x.kind = 2 ∨ x.kind = 3 ∨ x.kind = 4 →
      let off := ofBytes (d.args.take 4)
      let j := off / 65536
      s.blockFree off = true →
      (off % 4096 ≠ 0 ∨ x.size < off + d.len → done (.imageBlock data fails answer) 6 0 still) ∧
      (off % 4096 = 0 → d.len = 4096 ∨ off + d.len = x.size → off + d.len ≤ x.size → d.len ≠ 0 →
        (crc32c data ≠ ofBytes ((d.args.drop 4).take 4) → done (.imageBlock data fails answer) 5 0 still) ∧
        (crc32c data = ofBytes ((d.args.drop 4).take 4) →
          (s.recorded j = true → done (.imageBlock data fails answer) 0 0 still) ∧
          (s.recorded j = false → s.upd.chunks = [] → (∃ o : Nat, o ∈ chunkOffsets j x.size ∧ o ≠ off) →
            done (.imageBlock data fails answer) 0 0 fun t => t.upd.chunks = [(off, data)] ∧ still t) ∧
          (s.recorded j = false → s.upd.chunks = [] → off = 0 → d.len = x.size → x.size ≤ 4096 → check = 0 → fails < 2 →
            done (.imageBlock data fails answer) 0 0 fun t =>
              t.bytes (imageBase x.kind) x.size = data ∧ t.recorded 0 = true ∧ t.upd.chunks = [] ∧ t.pends 492 = true ∧
              (∀ y : Nat, (y < imageBase x.kind ∨ imageBase x.kind + 65536 ≤ y) → (y < 0x270200 ∨ 0x270208 ≤ y) → t.byte y = s.byte y))))) ∧
    (∀ (x : Session) (j n : Nat), s.upd.retry = some (j, n) → s.session = some x → s.blockFree (65536 * j) = true →
      (check ≠ 0 → s.pins.holdupCode = 0 → n < 100 → Leads s (.holdupRetry fails) fun t => t.upd.retry = some (j, n + 1) ∧ t.upd.cmd = some d ∧ t.pends 489 = true ∧ sameBytes s t) ∧
      (check ≠ 0 → s.pins.holdupCode = 0 → 100 ≤ n → done (.holdupRetry fails) 7 0 fun t => t.upd.retry = none ∧ sameBytes s t) ∧
      (check = 0 → fails < 2 → x.kind = 2 ∨ x.kind = 3 ∨ x.kind = 4 → done (.holdupRetry fails) 0 0 fun t => t.upd.retry = none ∧ t.recorded j = true ∧ t.pends 492 = true)) ∧
    (∀ x : Session, d.opcode = 0x42 → s.targetOwn (argByte d 0) = true → stage ≠ 0 → s.loaderFree 0 = true → s.session = some x → x.kind ≠ 1 → x.committed = false →
      (s.missing x.size ≠ 0 → done (.imageCommit [] answer) 9 0 still) ∧
      (s.missing x.size = 0 → s.flashImageOk x.kind [] = false → done (.imageCommit [] answer) 10 0 still) ∧
      (s.missing x.size = 0 → s.flashImageOk x.kind [] = true → s.conflictKind (s.flashManifest x.kind) x.kind = none → check = 0 →
        done (.imageCommit [] answer) 0 0 fun t =>
          t.session = some { x with committed := true } ∧ t.pends 492 = true ∧ (∀ y : Nat, y < 0x270300 ∨ 0x27030C ≤ y → t.byte y = s.byte y))) ∧
    (d.opcode = 0x42 → s.targetOwn (argByte d 0) = false → argByte d 0 < 4 → s.peerTrained (argByte d 0) = true → done (.imageCommit [] answer) answer.1 answer.2 still) ∧
    (d.opcode = 0x43 → s.targetOwn (argByte d 0) = true → stage ≠ 0 → s.domRuns 13 = true → s.linkClear 4 → (s.link 4).canSend (.write d.buf s.statusRecord) = true →
      done (.imageStatus report) 0 0 fun t =>
        (t.link 4).replay = ((s.link 4).sent (.write d.buf s.statusRecord)).replay ∧ sameFields counterRows s t ∧ sameBytes s t)

/-- A 1 written to ERR_UNIT clears active with pending, or ovf (R416); a unit whose reset ends takes work again (R417). A scrubber reads on,
word by word, counts its passes and poisons what is uncorrectable (R420, R421); the flash scrubber goes block by block, and waits while its
domain is down (R423). The black box is cleared with its key (R428). Where the spec is silent it follows the model's choice of log 85 and
86. COMPLETES: under hypotheses on the state and the operands alone, exec answers a next state (exec c s = .next t for some t, which is what
Leads and Answers say) for errUnitClear, unitResetEnd, scrubWord, flashScrub, blackBoxClear. -/
def Obligations.UnitsAndScrubbers : Prop :=
  ∀ (s : State) (ini : Initiator) (u : Fin 166) (data : Word) (m : Fin 5) (syn : Nat),
    let cleared (t : State) : Prop :=
      t.get (R.ERR_UNIT_active u.val) = 0 ∧ t.get (R.ERR_UNIT_ovf u.val) = 0 ∧ t.get (R.ERR_UNIT_pending u.val) = 0 ∧
        (∀ e : Nat, s.err.resetEnds = [(u.val, e)] → t.err.resetEnds = [] ∧ t.clk.mesh = max s.clk.mesh e) ∧
        sameFields [(R.ERR_UNIT_active 0).row, (R.ERR_UNIT_pending 0).row, (R.ERR_UNIT_ovf 0).row] s t ∧ sameBytes s t
    (s.opens ini true (0x020E0400 + 4 * u.val) data.toNat →
      Answers s (.errUnitClear ini u data) .ok fun t =>
        t.get (R.ERR_UNIT_active u.val) = (if data.getLsbD 31 then 0 else s.get (R.ERR_UNIT_active u.val)) ∧
        t.get (R.ERR_UNIT_pending u.val) = (if data.getLsbD 31 then 0 else s.get (R.ERR_UNIT_pending u.val)) ∧
        t.get (R.ERR_UNIT_ovf u.val) = (if data.getLsbD 30 then 0 else s.get (R.ERR_UNIT_ovf u.val)) ∧
        sameFields [(R.ERR_UNIT_active 0).row, (R.ERR_UNIT_pending 0).row, (R.ERR_UNIT_ovf 0).row] s t ∧ sameBytes s t) ∧
    ((0x74 ≤ u.val → u.val < 0x7C → (s.pipe (u.val - 0x74)).inReset = true →
        Leads s (.unitResetEnd u) fun t => (t.pipe (u.val - 0x74)).inReset = false ∧ cleared t) ∧
      (0x7C ≤ u.val → u.val < 0x8C → s.phy.decReset.testBit (u.val - 0x7C) = true →
        Leads s (.unitResetEnd u) fun t => t.phy.decReset.testBit (u.val - 0x7C) = false ∧ cleared t) ∧
      (0x8C ≤ u.val → u.val < 0x9C → s.phy.encReset.testBit (u.val - 0x8C) = true →
        Leads s (.unitResetEnd u) fun t => t.phy.encReset.testBit (u.val - 0x8C) = false ∧ cleared t)) ∧
    (s.bit R.ERR_SCRUB_CTRL_en m.val = true → s.scrubbable m.val = true →
      let at_ := vget s.err.scrubPos m.val
      let i := if m.val = 2 ∨ m.val = 3 then s.scrubSkip m.val 8 at_ else at_
      (s.poisoned (scrubAddr m.val i) = false →
        Leads s (.scrubWord m .clean) fun t =>
          vget t.err.scrubPos m.val = (i + 1) % scrubWords m.val ∧
          t.get (R.ERR_SCRUB_PASS_passes m.val) =
            (if (i + 1) % scrubWords m.val = 0 then (s.get (R.ERR_SCRUB_PASS_passes m.val) + 1) % 2 ^ 32 else s.get (R.ERR_SCRUB_PASS_passes m.val)) ∧
          t.poison = s.poison ∧ sameFields ((R.ERR_SCRUB_PASS_passes 0).row :: counterRows) s t ∧ sameBytes s t) ∧
      (m.val = 0 → i < 1572864 → s.poisoned (scrubAddr 0 i) = false →
        Leads s (.scrubWord m (.uncorrectable syn)) fun t =>
          t.poisoned (scrubAddr 0 i) = true ∧ vget t.err.scrubPos 0 = (i + 1) % 1572864 ∧
          t.get (R.ERR_CNT_count 3) = min (s.get (R.ERR_CNT_count 3) + 1) (2 ^ 32 - 1))) ∧
    (s.hubUp = false → exec (.flashScrub []) s = .next { s with flc := { s.flc with scrubDue := true } }) ∧
    (s.hubUp = true → s.bit R.ERR_SCRUB_CTRL_en 5 = true → s.domRuns 13 = true → s.flashBusy (scrubList.getD s.flc.scrubBlock 0 / 64) = false →
      Leads s (.flashScrub []) fun t =>
        t.flc.scrubBlock = (if s.flc.scrubBlock + 1 = 42 then 0 else s.flc.scrubBlock + 1) ∧ t.flc.scrubDue = false ∧
        t.get (R.ERR_SCRUB_PASS_passes 5) =
          (if s.flc.scrubBlock + 1 = 42 then (s.get (R.ERR_SCRUB_PASS_passes 5) + 1) % 2 ^ 32 else s.get (R.ERR_SCRUB_PASS_passes 5)) ∧ sameBytes s t) ∧
    (s.opens ini true 0x03000180 data.toNat →
      (data.toNat / 2 ^ 24 = 0xA5 → data.getLsbD 0 = true →
        Answers s (.blackBoxClear ini data) .ok fun t =>
          (∀ a : Nat, t.byte a = if 0x03010100 ≤ a ∧ a < 0x03012100 then 0 else s.byte a) ∧ t.get R.BB_HDR_index = 0 ∧ t.get R.BB_HDR_written = 0 ∧
          sameFields [R.BB_HDR_index.row, R.BB_HDR_written.row] s t) ∧
      (data.toNat / 2 ^ 24 ≠ 0xA5 → Answers s (.blackBoxClear ini data) .ok fun t => sameFields [] s t ∧ sameBytes s t))

/-- A counter that overflows sets its bit, fires source 503 with ovf_irq and freezes the block with freeze_on_ovf (R430, R431); a snapshot
copies every counter (R431). A marker record holds engine, word address, word and time, and source 504 fires at the threshold; a full ring
sets ovf (R432). Where the spec is silent it follows the model's choice of log 7 and 122. COMPLETES: under hypotheses on the state and the
operands alone, exec answers a next state (exec c s = .next t for some t, which is what Leads and Answers say) for pmcOverflow, pmcSnapshot,
markerSample. -/
def Obligations.CountersAndMarkers : Prop :=
  ∀ (s : State) (ini : Initiator) (data : Word) (i : Fin 32) (a : BitVec 16) (g : Fin 96) (word : Word) (suppressed : Bool),
    (s.hubUp = true → s.get R.PMC_CTRL_freeze = 0 → s.get (R.PMC_CFG_en i.val) ≠ 0 → s.pmcChained i.val = false → s.pmcChained (i.val + 1) = false →
      s.get (R.PMC_CFG_sat i.val) = 0 → s.get (R.PMC_CNT_count i.val) < 2 ^ 32 →
      Leads s (.pmcOverflow i a) fun t =>
        t.get (R.PMC_CNT_count i.val) = 0 ∧ t.bit R.PMC_OVF_ovf i.val = true ∧ (s.get (R.PMC_CFG_ovf_irq i.val) ≠ 0 → t.pends 503 = true) ∧
        (s.get R.PMC_CTRL_freeze_on_ovf ≠ 0 → t.get R.PMC_CTRL_freeze = 1) ∧ sameFields counterRows s t ∧ sameBytes s t) ∧
    (s.opens ini true 0x020F0000 (putBitOf data.toNat 16 true) →
      Answers s (.pmcSnapshot ini data) .ok fun t =>
        (∀ k : Nat, k < 32 → t.get (R.PMC_SNAP_count k) = s.get (R.PMC_CNT_count k) % 2 ^ 32) ∧ t.get R.PMC_CTRL_snap = 0 ∧
        t.get R.PMC_CTRL_freeze = data.toNat / 2 ^ 31 ∧ t.get R.PMC_CTRL_snap_sel = data.toNat / 256 % 256 ∧
        sameFields [(R.PMC_SNAP_count 0).row, R.PMC_CTRL_snap.row, R.PMC_CTRL_freeze.row, R.PMC_CTRL_freeze_on_ovf.row, R.PMC_CTRL_snap_sel.row] s t ∧ sameBytes s t) ∧
    (s.hubUp = true → s.get R.PMC_MARK_CTRL_en ≠ 0 → s.bit (R.PMC_MARK_SEL_engines (g.val / 32)) (g.val % 32) = true → s.engPowered g.val = true →
      let wr := s.get R.PMC_MARK_PTR_wr
      let base := 0x020F1000 + 16 * wr
      ((wr + 1) % 64 ≠ s.get R.PMC_MARK_PTR_rd →
        Leads s (.markerSample g a word suppressed) fun t =>
          t.word base = g.val * 2 ^ 25 + a.toNat ∧ t.word (base + 4) = word.toNat ∧ t.word (base + 12) = s.clk.mesh % 2 ^ 32 ∧
          t.get R.PMC_MARK_PTR_wr = (wr + 1) % 64 ∧ (t.markersUnread = max 1 (s.get R.PMC_MARK_CTRL_thresh) → t.pends 504 = true) ∧
          (∀ b : Nat, b < base ∨ base + 16 ≤ b → t.byte b = s.byte b) ∧ sameFields (R.PMC_MARK_PTR_wr.row :: counterRows) s t) ∧
      ((wr + 1) % 64 = s.get R.PMC_MARK_PTR_rd →
        Leads s (.markerSample g a word suppressed) fun t =>
          t.get R.PMC_MARK_PTR_ovf = 1 ∧ sameFields (R.PMC_MARK_PTR_ovf.row :: counterRows) s t ∧ sameBytes s t))

/-- A sensor's reading, its alert above the threshold and the shutdown from 125.0 degrees, which brings every tile down and lowers the RF rails;
the recovery, 1 s after the last reading above 115.0 degrees, ends it (R298, R445, R446). An external THERM_N is seen (R446). MGMT_CMD
starts one transaction at a time, whose end brings the byte, nack or timeout (R452). Where the spec is silent it follows the model's choice
of log 77 and 79. COMPLETES: under hypotheses on the state and the operands alone, exec answers a next state (exec c s = .next t for some t,
which is what Leads and Answers say) for tempSample, thermalRecovery, thermNLow, mgmtWrite, mgmtRead, mgmtDone, mgmtTimeout. -/
def Obligations.TemperatureAndManagement : Prop :=
  ∀ (s : State) (ini : Initiator) (k : Fin 10) (temp : Int) (data : Word) (nack : Bool) (rdata : Fin 256),
    (s.sensorUp k.val = true → -2048 ≤ temp → temp ≤ 2047 →
      (temp ≤ s.getS (R.TEMP_thresh k.val) → temp < 1250 →
        Leads s (.tempSample k temp) fun t =>
          t.get (R.TEMP_valid k.val) = 1 ∧ t.getS (R.TEMP_temp k.val) = temp ∧ sameFields [(R.TEMP_valid 0).row, (R.TEMP_temp 0).row] s t ∧ sameBytes s t) ∧
      (s.getS (R.TEMP_thresh k.val) < temp → s.get (R.TEMP_valid k.val) = 0 → temp < 1250 →
        Leads s (.tempSample k temp) fun t =>
          t.get (R.TEMP_valid k.val) = 1 ∧ t.getS (R.TEMP_temp k.val) = temp ∧ t.get (R.TEMP_alert k.val) = 1 ∧
          t.get (R.ERR_CNT_count 13) = min (s.get (R.ERR_CNT_count 13) + 1) (2 ^ 32 - 1) ∧ t.pwr = s.pwr) ∧
      (1250 ≤ temp → s.get R.PWR_THERM_shut = 0 →
        Leads s (.tempSample k temp) fun t =>
          t.get R.PWR_THERM_shut = 1 ∧ t.get R.PWR_THERM_sensor = k.val ∧ t.pins.thermNLow = true ∧ t.pwr.pwrEn.testBit 2 = false ∧ t.pwr.pwrEn.testBit 3 = false ∧
          (∀ j : Nat, j < 8 → s.domUp (j + 1) = true → t.dom (j + 1) = .falling))) ∧
    (s.get R.PWR_THERM_shut ≠ 0 → (∀ j : Nat, j < 10 → s.sensorUp j = true → s.sys.hot.testBit j = false) →
      Leads s .thermalRecovery fun t =>
        t.get R.PWR_THERM_shut = 0 ∧ t.pins.thermNLow = false ∧ t.clk.mesh = max s.clk.mesh s.sys.coolAt ∧ sameFields [R.PWR_THERM_shut.row, (R.PWR_VOTE_votes 0).row] s t ∧ sameBytes s t) ∧
    (s.pins.thermNLow = false → s.hubUp = true →
      Leads s .thermNLow fun t =>
        t.get R.PWR_THERM_ext = 1 ∧ t.pends 470 = true ∧ sameFields [R.PWR_THERM_ext.row, (R.IRQ_PEND_pend 0).row] s t ∧ sameBytes s t) ∧
    (let asked (c : Instr) (rd : Bool) : Prop :=
       s.opens ini true 0x02010C04 (putBitOf (putBitOf data.toNat 31 true) 24 rd) →
       (s.get R.MGMT_STATUS_busy ≠ 0 → Answers s c .busy fun t => sameFields [] s t ∧ sameBytes s t) ∧
       (s.get R.MGMT_STATUS_busy = 0 → s.get R.MGMT_CTRL_en ≠ 0 →
         Answers s c .ok fun t =>
           t.get R.MGMT_CMD_go = 1 ∧ t.get R.MGMT_STATUS_busy = 1 ∧ t.get R.MGMT_CMD_read = rd.toNat ∧ t.get R.MGMT_CMD_dev = data.toNat / 65536 % 128 ∧
           t.get R.MGMT_CMD_reg = data.toNat / 256 % 256 ∧ t.get R.MGMT_CMD_wdata = data.toNat % 256 ∧ sameBytes s t)
     asked (.mgmtWrite ini data) false ∧ asked (.mgmtRead ini data) true) ∧
    (s.get R.MGMT_STATUS_busy ≠ 0 →
      (Leads s (.mgmtDone nack rdata) fun t =>
        t.get R.MGMT_CMD_go = 0 ∧ t.get R.MGMT_STATUS_busy = 0 ∧ (nack = true → t.get R.MGMT_STATUS_nack = 1) ∧
        t.get R.MGMT_STATUS_rdata = (if nack = false ∧ s.get R.MGMT_CMD_read ≠ 0 then rdata.val else s.get R.MGMT_STATUS_rdata) ∧ sameBytes s t) ∧
      Leads s .mgmtTimeout fun t => t.get R.MGMT_CMD_go = 0 ∧ t.get R.MGMT_STATUS_busy = 0 ∧ t.get R.MGMT_STATUS_timeout = 1 ∧ sameBytes s t)
end

