-- ==== Sys2Proof/Laws/State.lean ====
section
/-! SUPPORT. Laws/State.lean: what each named update of the state leaves in every field, one lemma a field, so that no proof unfolds a record update. -/

namespace Sys2Proof.Machine

open Sys2Proof

variable (s : State)

@[simp] theorem State.set_pending (f : Field) (v : Nat) : (s.set f v).pending = s.pending := rfl
@[simp] theorem State.set_mem (f : Field) (v : Nat) : (s.set f v).mem = s.mem := rfl
@[simp] theorem State.set_poison (f : Field) (v : Nat) : (s.set f v).poison = s.poison := rfl
@[simp] theorem State.set_clk (f : Field) (v : Nat) : (s.set f v).clk = s.clk := rfl
@[simp] theorem State.set_pwr (f : Field) (v : Nat) : (s.set f v).pwr = s.pwr := rfl
@[simp] theorem State.set_boot (f : Field) (v : Nat) : (s.set f v).boot = s.boot := rfl
@[simp] theorem State.set_pins (f : Field) (v : Nat) : (s.set f v).pins = s.pins := rfl
@[simp] theorem State.set_tiles (f : Field) (v : Nat) : (s.set f v).tiles = s.tiles := rfl
@[simp] theorem State.set_elems (f : Field) (v : Nat) : (s.set f v).elems = s.elems := rfl
@[simp] theorem State.set_front (f : Field) (v : Nat) : (s.set f v).front = s.front := rfl
@[simp] theorem State.set_slots (f : Field) (v : Nat) : (s.set f v).slots = s.slots := rfl
@[simp] theorem State.set_xng (f : Field) (v : Nat) : (s.set f v).xng = s.xng := rfl
@[simp] theorem State.set_nbrs (f : Field) (v : Nat) : (s.set f v).nbrs = s.nbrs := rfl
@[simp] theorem State.set_sec (f : Field) (v : Nat) : (s.set f v).sec = s.sec := rfl
@[simp] theorem State.set_pipes (f : Field) (v : Nat) : (s.set f v).pipes = s.pipes := rfl
@[simp] theorem State.set_phy (f : Field) (v : Nat) : (s.set f v).phy = s.phy := rfl
@[simp] theorem State.set_engs (f : Field) (v : Nat) : (s.set f v).engs = s.engs := rfl
@[simp] theorem State.set_yrn (f : Field) (v : Nat) : (s.set f v).yrn = s.yrn := rfl
@[simp] theorem State.set_irq (f : Field) (v : Nat) : (s.set f v).irq = s.irq := rfl
@[simp] theorem State.set_aon (f : Field) (v : Nat) : (s.set f v).aon = s.aon := rfl
@[simp] theorem State.set_lnk (f : Field) (v : Nat) : (s.set f v).lnk = s.lnk := rfl
@[simp] theorem State.set_pnt (f : Field) (v : Nat) : (s.set f v).pnt = s.pnt := rfl
@[simp] theorem State.set_flc (f : Field) (v : Nat) : (s.set f v).flc = s.flc := rfl
@[simp] theorem State.set_upd (f : Field) (v : Nat) : (s.set f v).upd = s.upd := rfl
@[simp] theorem State.set_err (f : Field) (v : Nat) : (s.set f v).err = s.err := rfl
@[simp] theorem State.set_sys (f : Field) (v : Nat) : (s.set f v).sys = s.sys := rfl
@[simp] theorem State.set_resp (f : Field) (v : Nat) : (s.set f v).resp = s.resp := rfl
@[simp] theorem State.set_freeCtr (f : Field) (v : Nat) : (s.set f v).freeCtr = s.freeCtr := rfl
@[simp] theorem State.set_byte (f : Field) (v : Nat) (i : Nat) : (s.set f v).byte i = s.byte i := rfl
@[simp] theorem State.set_eng (f : Field) (v : Nat) (i : Nat) : (s.set f v).eng i = s.eng i := rfl
@[simp] theorem State.set_dom (f : Field) (v : Nat) (i : Nat) : (s.set f v).dom i = s.dom i := rfl
@[simp] theorem State.set_link (f : Field) (v : Nat) (i : Nat) : (s.set f v).link i = s.link i := rfl

@[simp] theorem State.setByte_pending (a : Nat) (v : Byte) : (s.setByte a v).pending = s.pending := rfl
@[simp] theorem State.setByte_regs (a : Nat) (v : Byte) : (s.setByte a v).regs = s.regs := rfl
@[simp] theorem State.setByte_poison (a : Nat) (v : Byte) : (s.setByte a v).poison = s.poison := rfl
@[simp] theorem State.setByte_clk (a : Nat) (v : Byte) : (s.setByte a v).clk = s.clk := rfl
@[simp] theorem State.setByte_pwr (a : Nat) (v : Byte) : (s.setByte a v).pwr = s.pwr := rfl
@[simp] theorem State.setByte_boot (a : Nat) (v : Byte) : (s.setByte a v).boot = s.boot := rfl
@[simp] theorem State.setByte_pins (a : Nat) (v : Byte) : (s.setByte a v).pins = s.pins := rfl
@[simp] theorem State.setByte_tiles (a : Nat) (v : Byte) : (s.setByte a v).tiles = s.tiles := rfl
@[simp] theorem State.setByte_elems (a : Nat) (v : Byte) : (s.setByte a v).elems = s.elems := rfl
@[simp] theorem State.setByte_front (a : Nat) (v : Byte) : (s.setByte a v).front = s.front := rfl
@[simp] theorem State.setByte_slots (a : Nat) (v : Byte) : (s.setByte a v).slots = s.slots := rfl
@[simp] theorem State.setByte_xng (a : Nat) (v : Byte) : (s.setByte a v).xng = s.xng := rfl
@[simp] theorem State.setByte_nbrs (a : Nat) (v : Byte) : (s.setByte a v).nbrs = s.nbrs := rfl
@[simp] theorem State.setByte_sec (a : Nat) (v : Byte) : (s.setByte a v).sec = s.sec := rfl
@[simp] theorem State.setByte_pipes (a : Nat) (v : Byte) : (s.setByte a v).pipes = s.pipes := rfl
@[simp] theorem State.setByte_phy (a : Nat) (v : Byte) : (s.setByte a v).phy = s.phy := rfl
@[simp] theorem State.setByte_engs (a : Nat) (v : Byte) : (s.setByte a v).engs = s.engs := rfl
@[simp] theorem State.setByte_yrn (a : Nat) (v : Byte) : (s.setByte a v).yrn = s.yrn := rfl
@[simp] theorem State.setByte_irq (a : Nat) (v : Byte) : (s.setByte a v).irq = s.irq := rfl
@[simp] theorem State.setByte_aon (a : Nat) (v : Byte) : (s.setByte a v).aon = s.aon := rfl
@[simp] theorem State.setByte_lnk (a : Nat) (v : Byte) : (s.setByte a v).lnk = s.lnk := rfl
@[simp] theorem State.setByte_pnt (a : Nat) (v : Byte) : (s.setByte a v).pnt = s.pnt := rfl
@[simp] theorem State.setByte_flc (a : Nat) (v : Byte) : (s.setByte a v).flc = s.flc := rfl
@[simp] theorem State.setByte_upd (a : Nat) (v : Byte) : (s.setByte a v).upd = s.upd := rfl
@[simp] theorem State.setByte_err (a : Nat) (v : Byte) : (s.setByte a v).err = s.err := rfl
@[simp] theorem State.setByte_sys (a : Nat) (v : Byte) : (s.setByte a v).sys = s.sys := rfl
@[simp] theorem State.setByte_resp (a : Nat) (v : Byte) : (s.setByte a v).resp = s.resp := rfl
@[simp] theorem State.setByte_freeCtr (a : Nat) (v : Byte) : (s.setByte a v).freeCtr = s.freeCtr := rfl
@[simp] theorem State.setByte_get (a : Nat) (v : Byte) (r : Field) : (s.setByte a v).get r = s.get r := rfl
@[simp] theorem State.setByte_eng (a : Nat) (v : Byte) (i : Nat) : (s.setByte a v).eng i = s.eng i := rfl
@[simp] theorem State.setByte_dom (a : Nat) (v : Byte) (i : Nat) : (s.setByte a v).dom i = s.dom i := rfl
@[simp] theorem State.setByte_link (a : Nat) (v : Byte) (i : Nat) : (s.setByte a v).link i = s.link i := rfl

@[simp] theorem State.clearMem_pending (lo len : Nat) : (s.clearMem lo len).pending = s.pending := rfl
@[simp] theorem State.clearMem_regs (lo len : Nat) : (s.clearMem lo len).regs = s.regs := rfl
@[simp] theorem State.clearMem_clk (lo len : Nat) : (s.clearMem lo len).clk = s.clk := rfl
@[simp] theorem State.clearMem_pwr (lo len : Nat) : (s.clearMem lo len).pwr = s.pwr := rfl
@[simp] theorem State.clearMem_boot (lo len : Nat) : (s.clearMem lo len).boot = s.boot := rfl
@[simp] theorem State.clearMem_pins (lo len : Nat) : (s.clearMem lo len).pins = s.pins := rfl
@[simp] theorem State.clearMem_tiles (lo len : Nat) : (s.clearMem lo len).tiles = s.tiles := rfl
@[simp] theorem State.clearMem_elems (lo len : Nat) : (s.clearMem lo len).elems = s.elems := rfl
@[simp] theorem State.clearMem_front (lo len : Nat) : (s.clearMem lo len).front = s.front := rfl
@[simp] theorem State.clearMem_slots (lo len : Nat) : (s.clearMem lo len).slots = s.slots := rfl
@[simp] theorem State.clearMem_xng (lo len : Nat) : (s.clearMem lo len).xng = s.xng := rfl
@[simp] theorem State.clearMem_nbrs (lo len : Nat) : (s.clearMem lo len).nbrs = s.nbrs := rfl
@[simp] theorem State.clearMem_sec (lo len : Nat) : (s.clearMem lo len).sec = s.sec := rfl
@[simp] theorem State.clearMem_pipes (lo len : Nat) : (s.clearMem lo len).pipes = s.pipes := rfl
@[simp] theorem State.clearMem_phy (lo len : Nat) : (s.clearMem lo len).phy = s.phy := rfl
@[simp] theorem State.clearMem_engs (lo len : Nat) : (s.clearMem lo len).engs = s.engs := rfl
@[simp] theorem State.clearMem_yrn (lo len : Nat) : (s.clearMem lo len).yrn = s.yrn := rfl
@[simp] theorem State.clearMem_irq (lo len : Nat) : (s.clearMem lo len).irq = s.irq := rfl
@[simp] theorem State.clearMem_aon (lo len : Nat) : (s.clearMem lo len).aon = s.aon := rfl
@[simp] theorem State.clearMem_lnk (lo len : Nat) : (s.clearMem lo len).lnk = s.lnk := rfl
@[simp] theorem State.clearMem_pnt (lo len : Nat) : (s.clearMem lo len).pnt = s.pnt := rfl
@[simp] theorem State.clearMem_flc (lo len : Nat) : (s.clearMem lo len).flc = s.flc := rfl
@[simp] theorem State.clearMem_upd (lo len : Nat) : (s.clearMem lo len).upd = s.upd := rfl
@[simp] theorem State.clearMem_err (lo len : Nat) : (s.clearMem lo len).err = s.err := rfl
@[simp] theorem State.clearMem_sys (lo len : Nat) : (s.clearMem lo len).sys = s.sys := rfl
@[simp] theorem State.clearMem_resp (lo len : Nat) : (s.clearMem lo len).resp = s.resp := rfl
@[simp] theorem State.clearMem_freeCtr (lo len : Nat) : (s.clearMem lo len).freeCtr = s.freeCtr := rfl
@[simp] theorem State.clearMem_get (lo len : Nat) (r : Field) : (s.clearMem lo len).get r = s.get r := rfl
@[simp] theorem State.clearMem_eng (lo len : Nat) (i : Nat) : (s.clearMem lo len).eng i = s.eng i := rfl
@[simp] theorem State.clearMem_dom (lo len : Nat) (i : Nat) : (s.clearMem lo len).dom i = s.dom i := rfl
@[simp] theorem State.clearMem_link (lo len : Nat) (i : Nat) : (s.clearMem lo len).link i = s.link i := rfl

@[simp] theorem State.setPoison_pending (a : Nat) : (s.setPoison a).pending = s.pending := rfl
@[simp] theorem State.setPoison_regs (a : Nat) : (s.setPoison a).regs = s.regs := rfl
@[simp] theorem State.setPoison_mem (a : Nat) : (s.setPoison a).mem = s.mem := rfl
@[simp] theorem State.setPoison_clk (a : Nat) : (s.setPoison a).clk = s.clk := rfl
@[simp] theorem State.setPoison_pwr (a : Nat) : (s.setPoison a).pwr = s.pwr := rfl
@[simp] theorem State.setPoison_boot (a : Nat) : (s.setPoison a).boot = s.boot := rfl
@[simp] theorem State.setPoison_pins (a : Nat) : (s.setPoison a).pins = s.pins := rfl
@[simp] theorem State.setPoison_tiles (a : Nat) : (s.setPoison a).tiles = s.tiles := rfl
@[simp] theorem State.setPoison_elems (a : Nat) : (s.setPoison a).elems = s.elems := rfl
@[simp] theorem State.setPoison_front (a : Nat) : (s.setPoison a).front = s.front := rfl
@[simp] theorem State.setPoison_slots (a : Nat) : (s.setPoison a).slots = s.slots := rfl
@[simp] theorem State.setPoison_xng (a : Nat) : (s.setPoison a).xng = s.xng := rfl
@[simp] theorem State.setPoison_nbrs (a : Nat) : (s.setPoison a).nbrs = s.nbrs := rfl
@[simp] theorem State.setPoison_sec (a : Nat) : (s.setPoison a).sec = s.sec := rfl
@[simp] theorem State.setPoison_pipes (a : Nat) : (s.setPoison a).pipes = s.pipes := rfl
@[simp] theorem State.setPoison_phy (a : Nat) : (s.setPoison a).phy = s.phy := rfl
@[simp] theorem State.setPoison_engs (a : Nat) : (s.setPoison a).engs = s.engs := rfl
@[simp] theorem State.setPoison_yrn (a : Nat) : (s.setPoison a).yrn = s.yrn := rfl
@[simp] theorem State.setPoison_irq (a : Nat) : (s.setPoison a).irq = s.irq := rfl
@[simp] theorem State.setPoison_aon (a : Nat) : (s.setPoison a).aon = s.aon := rfl
@[simp] theorem State.setPoison_lnk (a : Nat) : (s.setPoison a).lnk = s.lnk := rfl
@[simp] theorem State.setPoison_pnt (a : Nat) : (s.setPoison a).pnt = s.pnt := rfl
@[simp] theorem State.setPoison_flc (a : Nat) : (s.setPoison a).flc = s.flc := rfl
@[simp] theorem State.setPoison_upd (a : Nat) : (s.setPoison a).upd = s.upd := rfl
@[simp] theorem State.setPoison_err (a : Nat) : (s.setPoison a).err = s.err := rfl
@[simp] theorem State.setPoison_sys (a : Nat) : (s.setPoison a).sys = s.sys := rfl
@[simp] theorem State.setPoison_resp (a : Nat) : (s.setPoison a).resp = s.resp := rfl
@[simp] theorem State.setPoison_freeCtr (a : Nat) : (s.setPoison a).freeCtr = s.freeCtr := rfl
@[simp] theorem State.setPoison_get (a : Nat) (r : Field) : (s.setPoison a).get r = s.get r := rfl
@[simp] theorem State.setPoison_byte (a : Nat) (i : Nat) : (s.setPoison a).byte i = s.byte i := rfl
@[simp] theorem State.setPoison_eng (a : Nat) (i : Nat) : (s.setPoison a).eng i = s.eng i := rfl
@[simp] theorem State.setPoison_dom (a : Nat) (i : Nat) : (s.setPoison a).dom i = s.dom i := rfl
@[simp] theorem State.setPoison_link (a : Nat) (i : Nat) : (s.setPoison a).link i = s.link i := rfl

@[simp] theorem State.clrPoison_pending (a : Nat) : (s.clrPoison a).pending = s.pending := rfl
@[simp] theorem State.clrPoison_regs (a : Nat) : (s.clrPoison a).regs = s.regs := rfl
@[simp] theorem State.clrPoison_mem (a : Nat) : (s.clrPoison a).mem = s.mem := rfl
@[simp] theorem State.clrPoison_clk (a : Nat) : (s.clrPoison a).clk = s.clk := rfl
@[simp] theorem State.clrPoison_pwr (a : Nat) : (s.clrPoison a).pwr = s.pwr := rfl
@[simp] theorem State.clrPoison_boot (a : Nat) : (s.clrPoison a).boot = s.boot := rfl
@[simp] theorem State.clrPoison_pins (a : Nat) : (s.clrPoison a).pins = s.pins := rfl
@[simp] theorem State.clrPoison_tiles (a : Nat) : (s.clrPoison a).tiles = s.tiles := rfl
@[simp] theorem State.clrPoison_elems (a : Nat) : (s.clrPoison a).elems = s.elems := rfl
@[simp] theorem State.clrPoison_front (a : Nat) : (s.clrPoison a).front = s.front := rfl
@[simp] theorem State.clrPoison_slots (a : Nat) : (s.clrPoison a).slots = s.slots := rfl
@[simp] theorem State.clrPoison_xng (a : Nat) : (s.clrPoison a).xng = s.xng := rfl
@[simp] theorem State.clrPoison_nbrs (a : Nat) : (s.clrPoison a).nbrs = s.nbrs := rfl
@[simp] theorem State.clrPoison_sec (a : Nat) : (s.clrPoison a).sec = s.sec := rfl
@[simp] theorem State.clrPoison_pipes (a : Nat) : (s.clrPoison a).pipes = s.pipes := rfl
@[simp] theorem State.clrPoison_phy (a : Nat) : (s.clrPoison a).phy = s.phy := rfl
@[simp] theorem State.clrPoison_engs (a : Nat) : (s.clrPoison a).engs = s.engs := rfl
@[simp] theorem State.clrPoison_yrn (a : Nat) : (s.clrPoison a).yrn = s.yrn := rfl
@[simp] theorem State.clrPoison_irq (a : Nat) : (s.clrPoison a).irq = s.irq := rfl
@[simp] theorem State.clrPoison_aon (a : Nat) : (s.clrPoison a).aon = s.aon := rfl
@[simp] theorem State.clrPoison_lnk (a : Nat) : (s.clrPoison a).lnk = s.lnk := rfl
@[simp] theorem State.clrPoison_pnt (a : Nat) : (s.clrPoison a).pnt = s.pnt := rfl
@[simp] theorem State.clrPoison_flc (a : Nat) : (s.clrPoison a).flc = s.flc := rfl
@[simp] theorem State.clrPoison_upd (a : Nat) : (s.clrPoison a).upd = s.upd := rfl
@[simp] theorem State.clrPoison_err (a : Nat) : (s.clrPoison a).err = s.err := rfl
@[simp] theorem State.clrPoison_sys (a : Nat) : (s.clrPoison a).sys = s.sys := rfl
@[simp] theorem State.clrPoison_resp (a : Nat) : (s.clrPoison a).resp = s.resp := rfl
@[simp] theorem State.clrPoison_freeCtr (a : Nat) : (s.clrPoison a).freeCtr = s.freeCtr := rfl
@[simp] theorem State.clrPoison_get (a : Nat) (r : Field) : (s.clrPoison a).get r = s.get r := rfl
@[simp] theorem State.clrPoison_byte (a : Nat) (i : Nat) : (s.clrPoison a).byte i = s.byte i := rfl
@[simp] theorem State.clrPoison_eng (a : Nat) (i : Nat) : (s.clrPoison a).eng i = s.eng i := rfl
@[simp] theorem State.clrPoison_dom (a : Nat) (i : Nat) : (s.clrPoison a).dom i = s.dom i := rfl
@[simp] theorem State.clrPoison_link (a : Nat) (i : Nat) : (s.clrPoison a).link i = s.link i := rfl

@[simp] theorem State.updTile_pending (t : Nat) (f : TileSt → TileSt) : (s.updTile t f).pending = s.pending := rfl
@[simp] theorem State.updTile_regs (t : Nat) (f : TileSt → TileSt) : (s.updTile t f).regs = s.regs := rfl
@[simp] theorem State.updTile_mem (t : Nat) (f : TileSt → TileSt) : (s.updTile t f).mem = s.mem := rfl
@[simp] theorem State.updTile_poison (t : Nat) (f : TileSt → TileSt) : (s.updTile t f).poison = s.poison := rfl
@[simp] theorem State.updTile_clk (t : Nat) (f : TileSt → TileSt) : (s.updTile t f).clk = s.clk := rfl
@[simp] theorem State.updTile_pwr (t : Nat) (f : TileSt → TileSt) : (s.updTile t f).pwr = s.pwr := rfl
@[simp] theorem State.updTile_boot (t : Nat) (f : TileSt → TileSt) : (s.updTile t f).boot = s.boot := rfl
@[simp] theorem State.updTile_pins (t : Nat) (f : TileSt → TileSt) : (s.updTile t f).pins = s.pins := rfl
@[simp] theorem State.updTile_elems (t : Nat) (f : TileSt → TileSt) : (s.updTile t f).elems = s.elems := rfl
@[simp] theorem State.updTile_front (t : Nat) (f : TileSt → TileSt) : (s.updTile t f).front = s.front := rfl
@[simp] theorem State.updTile_slots (t : Nat) (f : TileSt → TileSt) : (s.updTile t f).slots = s.slots := rfl
@[simp] theorem State.updTile_xng (t : Nat) (f : TileSt → TileSt) : (s.updTile t f).xng = s.xng := rfl
@[simp] theorem State.updTile_nbrs (t : Nat) (f : TileSt → TileSt) : (s.updTile t f).nbrs = s.nbrs := rfl
@[simp] theorem State.updTile_sec (t : Nat) (f : TileSt → TileSt) : (s.updTile t f).sec = s.sec := rfl
@[simp] theorem State.updTile_pipes (t : Nat) (f : TileSt → TileSt) : (s.updTile t f).pipes = s.pipes := rfl
@[simp] theorem State.updTile_phy (t : Nat) (f : TileSt → TileSt) : (s.updTile t f).phy = s.phy := rfl
@[simp] theorem State.updTile_engs (t : Nat) (f : TileSt → TileSt) : (s.updTile t f).engs = s.engs := rfl
@[simp] theorem State.updTile_yrn (t : Nat) (f : TileSt → TileSt) : (s.updTile t f).yrn = s.yrn := rfl
@[simp] theorem State.updTile_irq (t : Nat) (f : TileSt → TileSt) : (s.updTile t f).irq = s.irq := rfl
@[simp] theorem State.updTile_aon (t : Nat) (f : TileSt → TileSt) : (s.updTile t f).aon = s.aon := rfl
@[simp] theorem State.updTile_lnk (t : Nat) (f : TileSt → TileSt) : (s.updTile t f).lnk = s.lnk := rfl
@[simp] theorem State.updTile_pnt (t : Nat) (f : TileSt → TileSt) : (s.updTile t f).pnt = s.pnt := rfl
@[simp] theorem State.updTile_flc (t : Nat) (f : TileSt → TileSt) : (s.updTile t f).flc = s.flc := rfl
@[simp] theorem State.updTile_upd (t : Nat) (f : TileSt → TileSt) : (s.updTile t f).upd = s.upd := rfl
@[simp] theorem State.updTile_err (t : Nat) (f : TileSt → TileSt) : (s.updTile t f).err = s.err := rfl
@[simp] theorem State.updTile_sys (t : Nat) (f : TileSt → TileSt) : (s.updTile t f).sys = s.sys := rfl
@[simp] theorem State.updTile_resp (t : Nat) (f : TileSt → TileSt) : (s.updTile t f).resp = s.resp := rfl
@[simp] theorem State.updTile_freeCtr (t : Nat) (f : TileSt → TileSt) : (s.updTile t f).freeCtr = s.freeCtr := rfl
@[simp] theorem State.updTile_get (t : Nat) (f : TileSt → TileSt) (r : Field) : (s.updTile t f).get r = s.get r := rfl
@[simp] theorem State.updTile_byte (t : Nat) (f : TileSt → TileSt) (i : Nat) : (s.updTile t f).byte i = s.byte i := rfl
@[simp] theorem State.updTile_eng (t : Nat) (f : TileSt → TileSt) (i : Nat) : (s.updTile t f).eng i = s.eng i := rfl
@[simp] theorem State.updTile_dom (t : Nat) (f : TileSt → TileSt) (i : Nat) : (s.updTile t f).dom i = s.dom i := rfl
@[simp] theorem State.updTile_link (t : Nat) (f : TileSt → TileSt) (i : Nat) : (s.updTile t f).link i = s.link i := rfl

@[simp] theorem State.updElem_pending (e : Nat) (f : ElemSt → ElemSt) : (s.updElem e f).pending = s.pending := rfl
@[simp] theorem State.updElem_regs (e : Nat) (f : ElemSt → ElemSt) : (s.updElem e f).regs = s.regs := rfl
@[simp] theorem State.updElem_mem (e : Nat) (f : ElemSt → ElemSt) : (s.updElem e f).mem = s.mem := rfl
@[simp] theorem State.updElem_poison (e : Nat) (f : ElemSt → ElemSt) : (s.updElem e f).poison = s.poison := rfl
@[simp] theorem State.updElem_clk (e : Nat) (f : ElemSt → ElemSt) : (s.updElem e f).clk = s.clk := rfl
@[simp] theorem State.updElem_pwr (e : Nat) (f : ElemSt → ElemSt) : (s.updElem e f).pwr = s.pwr := rfl
@[simp] theorem State.updElem_boot (e : Nat) (f : ElemSt → ElemSt) : (s.updElem e f).boot = s.boot := rfl
@[simp] theorem State.updElem_pins (e : Nat) (f : ElemSt → ElemSt) : (s.updElem e f).pins = s.pins := rfl
@[simp] theorem State.updElem_tiles (e : Nat) (f : ElemSt → ElemSt) : (s.updElem e f).tiles = s.tiles := rfl
@[simp] theorem State.updElem_front (e : Nat) (f : ElemSt → ElemSt) : (s.updElem e f).front = s.front := rfl
@[simp] theorem State.updElem_slots (e : Nat) (f : ElemSt → ElemSt) : (s.updElem e f).slots = s.slots := rfl
@[simp] theorem State.updElem_xng (e : Nat) (f : ElemSt → ElemSt) : (s.updElem e f).xng = s.xng := rfl
@[simp] theorem State.updElem_nbrs (e : Nat) (f : ElemSt → ElemSt) : (s.updElem e f).nbrs = s.nbrs := rfl
@[simp] theorem State.updElem_sec (e : Nat) (f : ElemSt → ElemSt) : (s.updElem e f).sec = s.sec := rfl
@[simp] theorem State.updElem_pipes (e : Nat) (f : ElemSt → ElemSt) : (s.updElem e f).pipes = s.pipes := rfl
@[simp] theorem State.updElem_phy (e : Nat) (f : ElemSt → ElemSt) : (s.updElem e f).phy = s.phy := rfl
@[simp] theorem State.updElem_engs (e : Nat) (f : ElemSt → ElemSt) : (s.updElem e f).engs = s.engs := rfl
@[simp] theorem State.updElem_yrn (e : Nat) (f : ElemSt → ElemSt) : (s.updElem e f).yrn = s.yrn := rfl
@[simp] theorem State.updElem_irq (e : Nat) (f : ElemSt → ElemSt) : (s.updElem e f).irq = s.irq := rfl
@[simp] theorem State.updElem_aon (e : Nat) (f : ElemSt → ElemSt) : (s.updElem e f).aon = s.aon := rfl
@[simp] theorem State.updElem_lnk (e : Nat) (f : ElemSt → ElemSt) : (s.updElem e f).lnk = s.lnk := rfl
@[simp] theorem State.updElem_pnt (e : Nat) (f : ElemSt → ElemSt) : (s.updElem e f).pnt = s.pnt := rfl
@[simp] theorem State.updElem_flc (e : Nat) (f : ElemSt → ElemSt) : (s.updElem e f).flc = s.flc := rfl
@[simp] theorem State.updElem_upd (e : Nat) (f : ElemSt → ElemSt) : (s.updElem e f).upd = s.upd := rfl
@[simp] theorem State.updElem_err (e : Nat) (f : ElemSt → ElemSt) : (s.updElem e f).err = s.err := rfl
@[simp] theorem State.updElem_sys (e : Nat) (f : ElemSt → ElemSt) : (s.updElem e f).sys = s.sys := rfl
@[simp] theorem State.updElem_resp (e : Nat) (f : ElemSt → ElemSt) : (s.updElem e f).resp = s.resp := rfl
@[simp] theorem State.updElem_freeCtr (e : Nat) (f : ElemSt → ElemSt) : (s.updElem e f).freeCtr = s.freeCtr := rfl
@[simp] theorem State.updElem_get (e : Nat) (f : ElemSt → ElemSt) (r : Field) : (s.updElem e f).get r = s.get r := rfl
@[simp] theorem State.updElem_byte (e : Nat) (f : ElemSt → ElemSt) (i : Nat) : (s.updElem e f).byte i = s.byte i := rfl
@[simp] theorem State.updElem_eng (e : Nat) (f : ElemSt → ElemSt) (i : Nat) : (s.updElem e f).eng i = s.eng i := rfl
@[simp] theorem State.updElem_dom (e : Nat) (f : ElemSt → ElemSt) (i : Nat) : (s.updElem e f).dom i = s.dom i := rfl
@[simp] theorem State.updElem_link (e : Nat) (f : ElemSt → ElemSt) (i : Nat) : (s.updElem e f).link i = s.link i := rfl

@[simp] theorem State.updSlot_pending (n : Nat) (f : SlotSt → SlotSt) : (s.updSlot n f).pending = s.pending := rfl
@[simp] theorem State.updSlot_regs (n : Nat) (f : SlotSt → SlotSt) : (s.updSlot n f).regs = s.regs := rfl
@[simp] theorem State.updSlot_mem (n : Nat) (f : SlotSt → SlotSt) : (s.updSlot n f).mem = s.mem := rfl
@[simp] theorem State.updSlot_poison (n : Nat) (f : SlotSt → SlotSt) : (s.updSlot n f).poison = s.poison := rfl
@[simp] theorem State.updSlot_clk (n : Nat) (f : SlotSt → SlotSt) : (s.updSlot n f).clk = s.clk := rfl
@[simp] theorem State.updSlot_pwr (n : Nat) (f : SlotSt → SlotSt) : (s.updSlot n f).pwr = s.pwr := rfl
@[simp] theorem State.updSlot_boot (n : Nat) (f : SlotSt → SlotSt) : (s.updSlot n f).boot = s.boot := rfl
@[simp] theorem State.updSlot_pins (n : Nat) (f : SlotSt → SlotSt) : (s.updSlot n f).pins = s.pins := rfl
@[simp] theorem State.updSlot_tiles (n : Nat) (f : SlotSt → SlotSt) : (s.updSlot n f).tiles = s.tiles := rfl
@[simp] theorem State.updSlot_elems (n : Nat) (f : SlotSt → SlotSt) : (s.updSlot n f).elems = s.elems := rfl
@[simp] theorem State.updSlot_front (n : Nat) (f : SlotSt → SlotSt) : (s.updSlot n f).front = s.front := rfl
@[simp] theorem State.updSlot_xng (n : Nat) (f : SlotSt → SlotSt) : (s.updSlot n f).xng = s.xng := rfl
@[simp] theorem State.updSlot_nbrs (n : Nat) (f : SlotSt → SlotSt) : (s.updSlot n f).nbrs = s.nbrs := rfl
@[simp] theorem State.updSlot_sec (n : Nat) (f : SlotSt → SlotSt) : (s.updSlot n f).sec = s.sec := rfl
@[simp] theorem State.updSlot_pipes (n : Nat) (f : SlotSt → SlotSt) : (s.updSlot n f).pipes = s.pipes := rfl
@[simp] theorem State.updSlot_phy (n : Nat) (f : SlotSt → SlotSt) : (s.updSlot n f).phy = s.phy := rfl
@[simp] theorem State.updSlot_engs (n : Nat) (f : SlotSt → SlotSt) : (s.updSlot n f).engs = s.engs := rfl
@[simp] theorem State.updSlot_yrn (n : Nat) (f : SlotSt → SlotSt) : (s.updSlot n f).yrn = s.yrn := rfl
@[simp] theorem State.updSlot_irq (n : Nat) (f : SlotSt → SlotSt) : (s.updSlot n f).irq = s.irq := rfl
@[simp] theorem State.updSlot_aon (n : Nat) (f : SlotSt → SlotSt) : (s.updSlot n f).aon = s.aon := rfl
@[simp] theorem State.updSlot_lnk (n : Nat) (f : SlotSt → SlotSt) : (s.updSlot n f).lnk = s.lnk := rfl
@[simp] theorem State.updSlot_pnt (n : Nat) (f : SlotSt → SlotSt) : (s.updSlot n f).pnt = s.pnt := rfl
@[simp] theorem State.updSlot_flc (n : Nat) (f : SlotSt → SlotSt) : (s.updSlot n f).flc = s.flc := rfl
@[simp] theorem State.updSlot_upd (n : Nat) (f : SlotSt → SlotSt) : (s.updSlot n f).upd = s.upd := rfl
@[simp] theorem State.updSlot_err (n : Nat) (f : SlotSt → SlotSt) : (s.updSlot n f).err = s.err := rfl
@[simp] theorem State.updSlot_sys (n : Nat) (f : SlotSt → SlotSt) : (s.updSlot n f).sys = s.sys := rfl
@[simp] theorem State.updSlot_resp (n : Nat) (f : SlotSt → SlotSt) : (s.updSlot n f).resp = s.resp := rfl
@[simp] theorem State.updSlot_freeCtr (n : Nat) (f : SlotSt → SlotSt) : (s.updSlot n f).freeCtr = s.freeCtr := rfl
@[simp] theorem State.updSlot_get (n : Nat) (f : SlotSt → SlotSt) (r : Field) : (s.updSlot n f).get r = s.get r := rfl
@[simp] theorem State.updSlot_byte (n : Nat) (f : SlotSt → SlotSt) (i : Nat) : (s.updSlot n f).byte i = s.byte i := rfl
@[simp] theorem State.updSlot_eng (n : Nat) (f : SlotSt → SlotSt) (i : Nat) : (s.updSlot n f).eng i = s.eng i := rfl
@[simp] theorem State.updSlot_dom (n : Nat) (f : SlotSt → SlotSt) (i : Nat) : (s.updSlot n f).dom i = s.dom i := rfl
@[simp] theorem State.updSlot_link (n : Nat) (f : SlotSt → SlotSt) (i : Nat) : (s.updSlot n f).link i = s.link i := rfl

@[simp] theorem State.updNbr_pending (n : Nat) (f : NbrSt → NbrSt) : (s.updNbr n f).pending = s.pending := rfl
@[simp] theorem State.updNbr_regs (n : Nat) (f : NbrSt → NbrSt) : (s.updNbr n f).regs = s.regs := rfl
@[simp] theorem State.updNbr_mem (n : Nat) (f : NbrSt → NbrSt) : (s.updNbr n f).mem = s.mem := rfl
@[simp] theorem State.updNbr_poison (n : Nat) (f : NbrSt → NbrSt) : (s.updNbr n f).poison = s.poison := rfl
@[simp] theorem State.updNbr_clk (n : Nat) (f : NbrSt → NbrSt) : (s.updNbr n f).clk = s.clk := rfl
@[simp] theorem State.updNbr_pwr (n : Nat) (f : NbrSt → NbrSt) : (s.updNbr n f).pwr = s.pwr := rfl
@[simp] theorem State.updNbr_boot (n : Nat) (f : NbrSt → NbrSt) : (s.updNbr n f).boot = s.boot := rfl
@[simp] theorem State.updNbr_pins (n : Nat) (f : NbrSt → NbrSt) : (s.updNbr n f).pins = s.pins := rfl
@[simp] theorem State.updNbr_tiles (n : Nat) (f : NbrSt → NbrSt) : (s.updNbr n f).tiles = s.tiles := rfl
@[simp] theorem State.updNbr_elems (n : Nat) (f : NbrSt → NbrSt) : (s.updNbr n f).elems = s.elems := rfl
@[simp] theorem State.updNbr_front (n : Nat) (f : NbrSt → NbrSt) : (s.updNbr n f).front = s.front := rfl
@[simp] theorem State.updNbr_slots (n : Nat) (f : NbrSt → NbrSt) : (s.updNbr n f).slots = s.slots := rfl
@[simp] theorem State.updNbr_xng (n : Nat) (f : NbrSt → NbrSt) : (s.updNbr n f).xng = s.xng := rfl
@[simp] theorem State.updNbr_sec (n : Nat) (f : NbrSt → NbrSt) : (s.updNbr n f).sec = s.sec := rfl
@[simp] theorem State.updNbr_pipes (n : Nat) (f : NbrSt → NbrSt) : (s.updNbr n f).pipes = s.pipes := rfl
@[simp] theorem State.updNbr_phy (n : Nat) (f : NbrSt → NbrSt) : (s.updNbr n f).phy = s.phy := rfl
@[simp] theorem State.updNbr_engs (n : Nat) (f : NbrSt → NbrSt) : (s.updNbr n f).engs = s.engs := rfl
@[simp] theorem State.updNbr_yrn (n : Nat) (f : NbrSt → NbrSt) : (s.updNbr n f).yrn = s.yrn := rfl
@[simp] theorem State.updNbr_irq (n : Nat) (f : NbrSt → NbrSt) : (s.updNbr n f).irq = s.irq := rfl
@[simp] theorem State.updNbr_aon (n : Nat) (f : NbrSt → NbrSt) : (s.updNbr n f).aon = s.aon := rfl
@[simp] theorem State.updNbr_lnk (n : Nat) (f : NbrSt → NbrSt) : (s.updNbr n f).lnk = s.lnk := rfl
@[simp] theorem State.updNbr_pnt (n : Nat) (f : NbrSt → NbrSt) : (s.updNbr n f).pnt = s.pnt := rfl
@[simp] theorem State.updNbr_flc (n : Nat) (f : NbrSt → NbrSt) : (s.updNbr n f).flc = s.flc := rfl
@[simp] theorem State.updNbr_upd (n : Nat) (f : NbrSt → NbrSt) : (s.updNbr n f).upd = s.upd := rfl
@[simp] theorem State.updNbr_err (n : Nat) (f : NbrSt → NbrSt) : (s.updNbr n f).err = s.err := rfl
@[simp] theorem State.updNbr_sys (n : Nat) (f : NbrSt → NbrSt) : (s.updNbr n f).sys = s.sys := rfl
@[simp] theorem State.updNbr_resp (n : Nat) (f : NbrSt → NbrSt) : (s.updNbr n f).resp = s.resp := rfl
@[simp] theorem State.updNbr_freeCtr (n : Nat) (f : NbrSt → NbrSt) : (s.updNbr n f).freeCtr = s.freeCtr := rfl
@[simp] theorem State.updNbr_get (n : Nat) (f : NbrSt → NbrSt) (r : Field) : (s.updNbr n f).get r = s.get r := rfl
@[simp] theorem State.updNbr_byte (n : Nat) (f : NbrSt → NbrSt) (i : Nat) : (s.updNbr n f).byte i = s.byte i := rfl
@[simp] theorem State.updNbr_eng (n : Nat) (f : NbrSt → NbrSt) (i : Nat) : (s.updNbr n f).eng i = s.eng i := rfl
@[simp] theorem State.updNbr_dom (n : Nat) (f : NbrSt → NbrSt) (i : Nat) : (s.updNbr n f).dom i = s.dom i := rfl
@[simp] theorem State.updNbr_link (n : Nat) (f : NbrSt → NbrSt) (i : Nat) : (s.updNbr n f).link i = s.link i := rfl

@[simp] theorem State.updPipe_pending (p : Nat) (f : Pipe → Pipe) : (s.updPipe p f).pending = s.pending := rfl
@[simp] theorem State.updPipe_regs (p : Nat) (f : Pipe → Pipe) : (s.updPipe p f).regs = s.regs := rfl
@[simp] theorem State.updPipe_mem (p : Nat) (f : Pipe → Pipe) : (s.updPipe p f).mem = s.mem := rfl
@[simp] theorem State.updPipe_poison (p : Nat) (f : Pipe → Pipe) : (s.updPipe p f).poison = s.poison := rfl
@[simp] theorem State.updPipe_clk (p : Nat) (f : Pipe → Pipe) : (s.updPipe p f).clk = s.clk := rfl
@[simp] theorem State.updPipe_pwr (p : Nat) (f : Pipe → Pipe) : (s.updPipe p f).pwr = s.pwr := rfl
@[simp] theorem State.updPipe_boot (p : Nat) (f : Pipe → Pipe) : (s.updPipe p f).boot = s.boot := rfl
@[simp] theorem State.updPipe_pins (p : Nat) (f : Pipe → Pipe) : (s.updPipe p f).pins = s.pins := rfl
@[simp] theorem State.updPipe_tiles (p : Nat) (f : Pipe → Pipe) : (s.updPipe p f).tiles = s.tiles := rfl
@[simp] theorem State.updPipe_elems (p : Nat) (f : Pipe → Pipe) : (s.updPipe p f).elems = s.elems := rfl
@[simp] theorem State.updPipe_front (p : Nat) (f : Pipe → Pipe) : (s.updPipe p f).front = s.front := rfl
@[simp] theorem State.updPipe_slots (p : Nat) (f : Pipe → Pipe) : (s.updPipe p f).slots = s.slots := rfl
@[simp] theorem State.updPipe_xng (p : Nat) (f : Pipe → Pipe) : (s.updPipe p f).xng = s.xng := rfl
@[simp] theorem State.updPipe_nbrs (p : Nat) (f : Pipe → Pipe) : (s.updPipe p f).nbrs = s.nbrs := rfl
@[simp] theorem State.updPipe_sec (p : Nat) (f : Pipe → Pipe) : (s.updPipe p f).sec = s.sec := rfl
@[simp] theorem State.updPipe_phy (p : Nat) (f : Pipe → Pipe) : (s.updPipe p f).phy = s.phy := rfl
@[simp] theorem State.updPipe_engs (p : Nat) (f : Pipe → Pipe) : (s.updPipe p f).engs = s.engs := rfl
@[simp] theorem State.updPipe_yrn (p : Nat) (f : Pipe → Pipe) : (s.updPipe p f).yrn = s.yrn := rfl
@[simp] theorem State.updPipe_irq (p : Nat) (f : Pipe → Pipe) : (s.updPipe p f).irq = s.irq := rfl
@[simp] theorem State.updPipe_aon (p : Nat) (f : Pipe → Pipe) : (s.updPipe p f).aon = s.aon := rfl
@[simp] theorem State.updPipe_lnk (p : Nat) (f : Pipe → Pipe) : (s.updPipe p f).lnk = s.lnk := rfl
@[simp] theorem State.updPipe_pnt (p : Nat) (f : Pipe → Pipe) : (s.updPipe p f).pnt = s.pnt := rfl
@[simp] theorem State.updPipe_flc (p : Nat) (f : Pipe → Pipe) : (s.updPipe p f).flc = s.flc := rfl
@[simp] theorem State.updPipe_upd (p : Nat) (f : Pipe → Pipe) : (s.updPipe p f).upd = s.upd := rfl
@[simp] theorem State.updPipe_err (p : Nat) (f : Pipe → Pipe) : (s.updPipe p f).err = s.err := rfl
@[simp] theorem State.updPipe_sys (p : Nat) (f : Pipe → Pipe) : (s.updPipe p f).sys = s.sys := rfl
@[simp] theorem State.updPipe_resp (p : Nat) (f : Pipe → Pipe) : (s.updPipe p f).resp = s.resp := rfl
@[simp] theorem State.updPipe_freeCtr (p : Nat) (f : Pipe → Pipe) : (s.updPipe p f).freeCtr = s.freeCtr := rfl
@[simp] theorem State.updPipe_get (p : Nat) (f : Pipe → Pipe) (r : Field) : (s.updPipe p f).get r = s.get r := rfl
@[simp] theorem State.updPipe_byte (p : Nat) (f : Pipe → Pipe) (i : Nat) : (s.updPipe p f).byte i = s.byte i := rfl
@[simp] theorem State.updPipe_eng (p : Nat) (f : Pipe → Pipe) (i : Nat) : (s.updPipe p f).eng i = s.eng i := rfl
@[simp] theorem State.updPipe_dom (p : Nat) (f : Pipe → Pipe) (i : Nat) : (s.updPipe p f).dom i = s.dom i := rfl
@[simp] theorem State.updPipe_link (p : Nat) (f : Pipe → Pipe) (i : Nat) : (s.updPipe p f).link i = s.link i := rfl

@[simp] theorem State.updEng_pending (g : Nat) (f : Engine → Engine) : (s.updEng g f).pending = s.pending := rfl
@[simp] theorem State.updEng_regs (g : Nat) (f : Engine → Engine) : (s.updEng g f).regs = s.regs := rfl
@[simp] theorem State.updEng_mem (g : Nat) (f : Engine → Engine) : (s.updEng g f).mem = s.mem := rfl
@[simp] theorem State.updEng_poison (g : Nat) (f : Engine → Engine) : (s.updEng g f).poison = s.poison := rfl
@[simp] theorem State.updEng_clk (g : Nat) (f : Engine → Engine) : (s.updEng g f).clk = s.clk := rfl
@[simp] theorem State.updEng_pwr (g : Nat) (f : Engine → Engine) : (s.updEng g f).pwr = s.pwr := rfl
@[simp] theorem State.updEng_boot (g : Nat) (f : Engine → Engine) : (s.updEng g f).boot = s.boot := rfl
@[simp] theorem State.updEng_pins (g : Nat) (f : Engine → Engine) : (s.updEng g f).pins = s.pins := rfl
@[simp] theorem State.updEng_tiles (g : Nat) (f : Engine → Engine) : (s.updEng g f).tiles = s.tiles := rfl
@[simp] theorem State.updEng_elems (g : Nat) (f : Engine → Engine) : (s.updEng g f).elems = s.elems := rfl
@[simp] theorem State.updEng_front (g : Nat) (f : Engine → Engine) : (s.updEng g f).front = s.front := rfl
@[simp] theorem State.updEng_slots (g : Nat) (f : Engine → Engine) : (s.updEng g f).slots = s.slots := rfl
@[simp] theorem State.updEng_xng (g : Nat) (f : Engine → Engine) : (s.updEng g f).xng = s.xng := rfl
@[simp] theorem State.updEng_nbrs (g : Nat) (f : Engine → Engine) : (s.updEng g f).nbrs = s.nbrs := rfl
@[simp] theorem State.updEng_sec (g : Nat) (f : Engine → Engine) : (s.updEng g f).sec = s.sec := rfl
@[simp] theorem State.updEng_pipes (g : Nat) (f : Engine → Engine) : (s.updEng g f).pipes = s.pipes := rfl
@[simp] theorem State.updEng_phy (g : Nat) (f : Engine → Engine) : (s.updEng g f).phy = s.phy := rfl
@[simp] theorem State.updEng_yrn (g : Nat) (f : Engine → Engine) : (s.updEng g f).yrn = s.yrn := rfl
@[simp] theorem State.updEng_irq (g : Nat) (f : Engine → Engine) : (s.updEng g f).irq = s.irq := rfl
@[simp] theorem State.updEng_aon (g : Nat) (f : Engine → Engine) : (s.updEng g f).aon = s.aon := rfl
@[simp] theorem State.updEng_lnk (g : Nat) (f : Engine → Engine) : (s.updEng g f).lnk = s.lnk := rfl
@[simp] theorem State.updEng_pnt (g : Nat) (f : Engine → Engine) : (s.updEng g f).pnt = s.pnt := rfl
@[simp] theorem State.updEng_flc (g : Nat) (f : Engine → Engine) : (s.updEng g f).flc = s.flc := rfl
@[simp] theorem State.updEng_upd (g : Nat) (f : Engine → Engine) : (s.updEng g f).upd = s.upd := rfl
@[simp] theorem State.updEng_err (g : Nat) (f : Engine → Engine) : (s.updEng g f).err = s.err := rfl
@[simp] theorem State.updEng_sys (g : Nat) (f : Engine → Engine) : (s.updEng g f).sys = s.sys := rfl
@[simp] theorem State.updEng_resp (g : Nat) (f : Engine → Engine) : (s.updEng g f).resp = s.resp := rfl
@[simp] theorem State.updEng_freeCtr (g : Nat) (f : Engine → Engine) : (s.updEng g f).freeCtr = s.freeCtr := rfl
@[simp] theorem State.updEng_get (g : Nat) (f : Engine → Engine) (r : Field) : (s.updEng g f).get r = s.get r := rfl
@[simp] theorem State.updEng_byte (g : Nat) (f : Engine → Engine) (i : Nat) : (s.updEng g f).byte i = s.byte i := rfl
@[simp] theorem State.updEng_dom (g : Nat) (f : Engine → Engine) (i : Nat) : (s.updEng g f).dom i = s.dom i := rfl
@[simp] theorem State.updEng_link (g : Nat) (f : Engine → Engine) (i : Nat) : (s.updEng g f).link i = s.link i := rfl

@[simp] theorem State.updLink_pending (l : Nat) (f : Link → Link) : (s.updLink l f).pending = s.pending := rfl
@[simp] theorem State.updLink_regs (l : Nat) (f : Link → Link) : (s.updLink l f).regs = s.regs := rfl
@[simp] theorem State.updLink_mem (l : Nat) (f : Link → Link) : (s.updLink l f).mem = s.mem := rfl
@[simp] theorem State.updLink_poison (l : Nat) (f : Link → Link) : (s.updLink l f).poison = s.poison := rfl
@[simp] theorem State.updLink_clk (l : Nat) (f : Link → Link) : (s.updLink l f).clk = s.clk := rfl
@[simp] theorem State.updLink_pwr (l : Nat) (f : Link → Link) : (s.updLink l f).pwr = s.pwr := rfl
@[simp] theorem State.updLink_boot (l : Nat) (f : Link → Link) : (s.updLink l f).boot = s.boot := rfl
@[simp] theorem State.updLink_pins (l : Nat) (f : Link → Link) : (s.updLink l f).pins = s.pins := rfl
@[simp] theorem State.updLink_tiles (l : Nat) (f : Link → Link) : (s.updLink l f).tiles = s.tiles := rfl
@[simp] theorem State.updLink_elems (l : Nat) (f : Link → Link) : (s.updLink l f).elems = s.elems := rfl
@[simp] theorem State.updLink_front (l : Nat) (f : Link → Link) : (s.updLink l f).front = s.front := rfl
@[simp] theorem State.updLink_slots (l : Nat) (f : Link → Link) : (s.updLink l f).slots = s.slots := rfl
@[simp] theorem State.updLink_xng (l : Nat) (f : Link → Link) : (s.updLink l f).xng = s.xng := rfl
@[simp] theorem State.updLink_nbrs (l : Nat) (f : Link → Link) : (s.updLink l f).nbrs = s.nbrs := rfl
@[simp] theorem State.updLink_sec (l : Nat) (f : Link → Link) : (s.updLink l f).sec = s.sec := rfl
@[simp] theorem State.updLink_pipes (l : Nat) (f : Link → Link) : (s.updLink l f).pipes = s.pipes := rfl
@[simp] theorem State.updLink_phy (l : Nat) (f : Link → Link) : (s.updLink l f).phy = s.phy := rfl
@[simp] theorem State.updLink_engs (l : Nat) (f : Link → Link) : (s.updLink l f).engs = s.engs := rfl
@[simp] theorem State.updLink_yrn (l : Nat) (f : Link → Link) : (s.updLink l f).yrn = s.yrn := rfl
@[simp] theorem State.updLink_irq (l : Nat) (f : Link → Link) : (s.updLink l f).irq = s.irq := rfl
@[simp] theorem State.updLink_aon (l : Nat) (f : Link → Link) : (s.updLink l f).aon = s.aon := rfl
@[simp] theorem State.updLink_pnt (l : Nat) (f : Link → Link) : (s.updLink l f).pnt = s.pnt := rfl
@[simp] theorem State.updLink_flc (l : Nat) (f : Link → Link) : (s.updLink l f).flc = s.flc := rfl
@[simp] theorem State.updLink_upd (l : Nat) (f : Link → Link) : (s.updLink l f).upd = s.upd := rfl
@[simp] theorem State.updLink_err (l : Nat) (f : Link → Link) : (s.updLink l f).err = s.err := rfl
@[simp] theorem State.updLink_sys (l : Nat) (f : Link → Link) : (s.updLink l f).sys = s.sys := rfl
@[simp] theorem State.updLink_resp (l : Nat) (f : Link → Link) : (s.updLink l f).resp = s.resp := rfl
@[simp] theorem State.updLink_freeCtr (l : Nat) (f : Link → Link) : (s.updLink l f).freeCtr = s.freeCtr := rfl
@[simp] theorem State.updLink_get (l : Nat) (f : Link → Link) (r : Field) : (s.updLink l f).get r = s.get r := rfl
@[simp] theorem State.updLink_byte (l : Nat) (f : Link → Link) (i : Nat) : (s.updLink l f).byte i = s.byte i := rfl
@[simp] theorem State.updLink_eng (l : Nat) (f : Link → Link) (i : Nat) : (s.updLink l f).eng i = s.eng i := rfl
@[simp] theorem State.updLink_dom (l : Nat) (f : Link → Link) (i : Nat) : (s.updLink l f).dom i = s.dom i := rfl

@[simp] theorem State.updFbank_pending (b : Nat) (f : FlashBank → FlashBank) : (s.updFbank b f).pending = s.pending := rfl
@[simp] theorem State.updFbank_regs (b : Nat) (f : FlashBank → FlashBank) : (s.updFbank b f).regs = s.regs := rfl
@[simp] theorem State.updFbank_mem (b : Nat) (f : FlashBank → FlashBank) : (s.updFbank b f).mem = s.mem := rfl
@[simp] theorem State.updFbank_poison (b : Nat) (f : FlashBank → FlashBank) : (s.updFbank b f).poison = s.poison := rfl
@[simp] theorem State.updFbank_clk (b : Nat) (f : FlashBank → FlashBank) : (s.updFbank b f).clk = s.clk := rfl
@[simp] theorem State.updFbank_pwr (b : Nat) (f : FlashBank → FlashBank) : (s.updFbank b f).pwr = s.pwr := rfl
@[simp] theorem State.updFbank_boot (b : Nat) (f : FlashBank → FlashBank) : (s.updFbank b f).boot = s.boot := rfl
@[simp] theorem State.updFbank_pins (b : Nat) (f : FlashBank → FlashBank) : (s.updFbank b f).pins = s.pins := rfl
@[simp] theorem State.updFbank_tiles (b : Nat) (f : FlashBank → FlashBank) : (s.updFbank b f).tiles = s.tiles := rfl
@[simp] theorem State.updFbank_elems (b : Nat) (f : FlashBank → FlashBank) : (s.updFbank b f).elems = s.elems := rfl
@[simp] theorem State.updFbank_front (b : Nat) (f : FlashBank → FlashBank) : (s.updFbank b f).front = s.front := rfl
@[simp] theorem State.updFbank_slots (b : Nat) (f : FlashBank → FlashBank) : (s.updFbank b f).slots = s.slots := rfl
@[simp] theorem State.updFbank_xng (b : Nat) (f : FlashBank → FlashBank) : (s.updFbank b f).xng = s.xng := rfl
@[simp] theorem State.updFbank_nbrs (b : Nat) (f : FlashBank → FlashBank) : (s.updFbank b f).nbrs = s.nbrs := rfl
@[simp] theorem State.updFbank_sec (b : Nat) (f : FlashBank → FlashBank) : (s.updFbank b f).sec = s.sec := rfl
@[simp] theorem State.updFbank_pipes (b : Nat) (f : FlashBank → FlashBank) : (s.updFbank b f).pipes = s.pipes := rfl
@[simp] theorem State.updFbank_phy (b : Nat) (f : FlashBank → FlashBank) : (s.updFbank b f).phy = s.phy := rfl
@[simp] theorem State.updFbank_engs (b : Nat) (f : FlashBank → FlashBank) : (s.updFbank b f).engs = s.engs := rfl
@[simp] theorem State.updFbank_yrn (b : Nat) (f : FlashBank → FlashBank) : (s.updFbank b f).yrn = s.yrn := rfl
@[simp] theorem State.updFbank_irq (b : Nat) (f : FlashBank → FlashBank) : (s.updFbank b f).irq = s.irq := rfl
@[simp] theorem State.updFbank_aon (b : Nat) (f : FlashBank → FlashBank) : (s.updFbank b f).aon = s.aon := rfl
@[simp] theorem State.updFbank_lnk (b : Nat) (f : FlashBank → FlashBank) : (s.updFbank b f).lnk = s.lnk := rfl
@[simp] theorem State.updFbank_pnt (b : Nat) (f : FlashBank → FlashBank) : (s.updFbank b f).pnt = s.pnt := rfl
@[simp] theorem State.updFbank_upd (b : Nat) (f : FlashBank → FlashBank) : (s.updFbank b f).upd = s.upd := rfl
@[simp] theorem State.updFbank_err (b : Nat) (f : FlashBank → FlashBank) : (s.updFbank b f).err = s.err := rfl
@[simp] theorem State.updFbank_sys (b : Nat) (f : FlashBank → FlashBank) : (s.updFbank b f).sys = s.sys := rfl
@[simp] theorem State.updFbank_resp (b : Nat) (f : FlashBank → FlashBank) : (s.updFbank b f).resp = s.resp := rfl
@[simp] theorem State.updFbank_freeCtr (b : Nat) (f : FlashBank → FlashBank) : (s.updFbank b f).freeCtr = s.freeCtr := rfl
@[simp] theorem State.updFbank_get (b : Nat) (f : FlashBank → FlashBank) (r : Field) : (s.updFbank b f).get r = s.get r := rfl
@[simp] theorem State.updFbank_byte (b : Nat) (f : FlashBank → FlashBank) (i : Nat) : (s.updFbank b f).byte i = s.byte i := rfl
@[simp] theorem State.updFbank_eng (b : Nat) (f : FlashBank → FlashBank) (i : Nat) : (s.updFbank b f).eng i = s.eng i := rfl
@[simp] theorem State.updFbank_dom (b : Nat) (f : FlashBank → FlashBank) (i : Nat) : (s.updFbank b f).dom i = s.dom i := rfl
@[simp] theorem State.updFbank_link (b : Nat) (f : FlashBank → FlashBank) (i : Nat) : (s.updFbank b f).link i = s.link i := rfl

@[simp] theorem State.setDom_pending (d : Nat) (p : DomPhase) : (s.setDom d p).pending = s.pending := rfl
@[simp] theorem State.setDom_regs (d : Nat) (p : DomPhase) : (s.setDom d p).regs = s.regs := rfl
@[simp] theorem State.setDom_mem (d : Nat) (p : DomPhase) : (s.setDom d p).mem = s.mem := rfl
@[simp] theorem State.setDom_poison (d : Nat) (p : DomPhase) : (s.setDom d p).poison = s.poison := rfl
@[simp] theorem State.setDom_clk (d : Nat) (p : DomPhase) : (s.setDom d p).clk = s.clk := rfl
@[simp] theorem State.setDom_boot (d : Nat) (p : DomPhase) : (s.setDom d p).boot = s.boot := rfl
@[simp] theorem State.setDom_pins (d : Nat) (p : DomPhase) : (s.setDom d p).pins = s.pins := rfl
@[simp] theorem State.setDom_tiles (d : Nat) (p : DomPhase) : (s.setDom d p).tiles = s.tiles := rfl
@[simp] theorem State.setDom_elems (d : Nat) (p : DomPhase) : (s.setDom d p).elems = s.elems := rfl
@[simp] theorem State.setDom_front (d : Nat) (p : DomPhase) : (s.setDom d p).front = s.front := rfl
@[simp] theorem State.setDom_slots (d : Nat) (p : DomPhase) : (s.setDom d p).slots = s.slots := rfl
@[simp] theorem State.setDom_xng (d : Nat) (p : DomPhase) : (s.setDom d p).xng = s.xng := rfl
@[simp] theorem State.setDom_nbrs (d : Nat) (p : DomPhase) : (s.setDom d p).nbrs = s.nbrs := rfl
@[simp] theorem State.setDom_sec (d : Nat) (p : DomPhase) : (s.setDom d p).sec = s.sec := rfl
@[simp] theorem State.setDom_pipes (d : Nat) (p : DomPhase) : (s.setDom d p).pipes = s.pipes := rfl
@[simp] theorem State.setDom_phy (d : Nat) (p : DomPhase) : (s.setDom d p).phy = s.phy := rfl
@[simp] theorem State.setDom_engs (d : Nat) (p : DomPhase) : (s.setDom d p).engs = s.engs := rfl
@[simp] theorem State.setDom_yrn (d : Nat) (p : DomPhase) : (s.setDom d p).yrn = s.yrn := rfl
@[simp] theorem State.setDom_irq (d : Nat) (p : DomPhase) : (s.setDom d p).irq = s.irq := rfl
@[simp] theorem State.setDom_aon (d : Nat) (p : DomPhase) : (s.setDom d p).aon = s.aon := rfl
@[simp] theorem State.setDom_lnk (d : Nat) (p : DomPhase) : (s.setDom d p).lnk = s.lnk := rfl
@[simp] theorem State.setDom_pnt (d : Nat) (p : DomPhase) : (s.setDom d p).pnt = s.pnt := rfl
@[simp] theorem State.setDom_flc (d : Nat) (p : DomPhase) : (s.setDom d p).flc = s.flc := rfl
@[simp] theorem State.setDom_upd (d : Nat) (p : DomPhase) : (s.setDom d p).upd = s.upd := rfl
@[simp] theorem State.setDom_err (d : Nat) (p : DomPhase) : (s.setDom d p).err = s.err := rfl
@[simp] theorem State.setDom_sys (d : Nat) (p : DomPhase) : (s.setDom d p).sys = s.sys := rfl
@[simp] theorem State.setDom_resp (d : Nat) (p : DomPhase) : (s.setDom d p).resp = s.resp := rfl
@[simp] theorem State.setDom_freeCtr (d : Nat) (p : DomPhase) : (s.setDom d p).freeCtr = s.freeCtr := rfl
@[simp] theorem State.setDom_get (d : Nat) (p : DomPhase) (r : Field) : (s.setDom d p).get r = s.get r := rfl
@[simp] theorem State.setDom_byte (d : Nat) (p : DomPhase) (i : Nat) : (s.setDom d p).byte i = s.byte i := rfl
@[simp] theorem State.setDom_eng (d : Nat) (p : DomPhase) (i : Nat) : (s.setDom d p).eng i = s.eng i := rfl
@[simp] theorem State.setDom_link (d : Nat) (p : DomPhase) (i : Nat) : (s.setDom d p).link i = s.link i := rfl

@[simp] theorem State.reach_pending (t : Nat) : (s.reach t).pending = s.pending := rfl
@[simp] theorem State.reach_regs (t : Nat) : (s.reach t).regs = s.regs := rfl
@[simp] theorem State.reach_mem (t : Nat) : (s.reach t).mem = s.mem := rfl
@[simp] theorem State.reach_poison (t : Nat) : (s.reach t).poison = s.poison := rfl
@[simp] theorem State.reach_pwr (t : Nat) : (s.reach t).pwr = s.pwr := rfl
@[simp] theorem State.reach_boot (t : Nat) : (s.reach t).boot = s.boot := rfl
@[simp] theorem State.reach_pins (t : Nat) : (s.reach t).pins = s.pins := rfl
@[simp] theorem State.reach_tiles (t : Nat) : (s.reach t).tiles = s.tiles := rfl
@[simp] theorem State.reach_elems (t : Nat) : (s.reach t).elems = s.elems := rfl
@[simp] theorem State.reach_front (t : Nat) : (s.reach t).front = s.front := rfl
@[simp] theorem State.reach_slots (t : Nat) : (s.reach t).slots = s.slots := rfl
@[simp] theorem State.reach_xng (t : Nat) : (s.reach t).xng = s.xng := rfl
@[simp] theorem State.reach_nbrs (t : Nat) : (s.reach t).nbrs = s.nbrs := rfl
@[simp] theorem State.reach_sec (t : Nat) : (s.reach t).sec = s.sec := rfl
@[simp] theorem State.reach_pipes (t : Nat) : (s.reach t).pipes = s.pipes := rfl
@[simp] theorem State.reach_phy (t : Nat) : (s.reach t).phy = s.phy := rfl
@[simp] theorem State.reach_engs (t : Nat) : (s.reach t).engs = s.engs := rfl
@[simp] theorem State.reach_yrn (t : Nat) : (s.reach t).yrn = s.yrn := rfl
@[simp] theorem State.reach_irq (t : Nat) : (s.reach t).irq = s.irq := rfl
@[simp] theorem State.reach_aon (t : Nat) : (s.reach t).aon = s.aon := rfl
@[simp] theorem State.reach_lnk (t : Nat) : (s.reach t).lnk = s.lnk := rfl
@[simp] theorem State.reach_pnt (t : Nat) : (s.reach t).pnt = s.pnt := rfl
@[simp] theorem State.reach_flc (t : Nat) : (s.reach t).flc = s.flc := rfl
@[simp] theorem State.reach_upd (t : Nat) : (s.reach t).upd = s.upd := rfl
@[simp] theorem State.reach_err (t : Nat) : (s.reach t).err = s.err := rfl
@[simp] theorem State.reach_sys (t : Nat) : (s.reach t).sys = s.sys := rfl
@[simp] theorem State.reach_resp (t : Nat) : (s.reach t).resp = s.resp := rfl
@[simp] theorem State.reach_freeCtr (t : Nat) : (s.reach t).freeCtr = s.freeCtr := rfl
@[simp] theorem State.reach_get (t : Nat) (r : Field) : (s.reach t).get r = s.get r := rfl
@[simp] theorem State.reach_byte (t : Nat) (i : Nat) : (s.reach t).byte i = s.byte i := rfl
@[simp] theorem State.reach_eng (t : Nat) (i : Nat) : (s.reach t).eng i = s.eng i := rfl
@[simp] theorem State.reach_dom (t : Nat) (i : Nat) : (s.reach t).dom i = s.dom i := rfl
@[simp] theorem State.reach_link (t : Nat) (i : Nat) : (s.reach t).link i = s.link i := rfl

@[simp] theorem State.tickFree_pending : (s.tickFree).pending = s.pending := rfl
@[simp] theorem State.tickFree_regs : (s.tickFree).regs = s.regs := rfl
@[simp] theorem State.tickFree_mem : (s.tickFree).mem = s.mem := rfl
@[simp] theorem State.tickFree_poison : (s.tickFree).poison = s.poison := rfl
@[simp] theorem State.tickFree_clk : (s.tickFree).clk = s.clk := rfl
@[simp] theorem State.tickFree_pwr : (s.tickFree).pwr = s.pwr := rfl
@[simp] theorem State.tickFree_boot : (s.tickFree).boot = s.boot := rfl
@[simp] theorem State.tickFree_pins : (s.tickFree).pins = s.pins := rfl
@[simp] theorem State.tickFree_tiles : (s.tickFree).tiles = s.tiles := rfl
@[simp] theorem State.tickFree_elems : (s.tickFree).elems = s.elems := rfl
@[simp] theorem State.tickFree_front : (s.tickFree).front = s.front := rfl
@[simp] theorem State.tickFree_slots : (s.tickFree).slots = s.slots := rfl
@[simp] theorem State.tickFree_xng : (s.tickFree).xng = s.xng := rfl
@[simp] theorem State.tickFree_nbrs : (s.tickFree).nbrs = s.nbrs := rfl
@[simp] theorem State.tickFree_sec : (s.tickFree).sec = s.sec := rfl
@[simp] theorem State.tickFree_pipes : (s.tickFree).pipes = s.pipes := rfl
@[simp] theorem State.tickFree_phy : (s.tickFree).phy = s.phy := rfl
@[simp] theorem State.tickFree_engs : (s.tickFree).engs = s.engs := rfl
@[simp] theorem State.tickFree_yrn : (s.tickFree).yrn = s.yrn := rfl
@[simp] theorem State.tickFree_irq : (s.tickFree).irq = s.irq := rfl
@[simp] theorem State.tickFree_aon : (s.tickFree).aon = s.aon := rfl
@[simp] theorem State.tickFree_lnk : (s.tickFree).lnk = s.lnk := rfl
@[simp] theorem State.tickFree_pnt : (s.tickFree).pnt = s.pnt := rfl
@[simp] theorem State.tickFree_flc : (s.tickFree).flc = s.flc := rfl
@[simp] theorem State.tickFree_upd : (s.tickFree).upd = s.upd := rfl
@[simp] theorem State.tickFree_err : (s.tickFree).err = s.err := rfl
@[simp] theorem State.tickFree_sys : (s.tickFree).sys = s.sys := rfl
@[simp] theorem State.tickFree_resp : (s.tickFree).resp = s.resp := rfl
@[simp] theorem State.tickFree_get (r : Field) : (s.tickFree).get r = s.get r := rfl
@[simp] theorem State.tickFree_byte (i : Nat) : (s.tickFree).byte i = s.byte i := rfl
@[simp] theorem State.tickFree_eng (i : Nat) : (s.tickFree).eng i = s.eng i := rfl
@[simp] theorem State.tickFree_dom (i : Nat) : (s.tickFree).dom i = s.dom i := rfl
@[simp] theorem State.tickFree_link (i : Nat) : (s.tickFree).link i = s.link i := rfl

@[simp] theorem State.reply_pending (st : Status) (data : List Byte) : (s.reply st data).pending = s.pending := rfl
@[simp] theorem State.reply_regs (st : Status) (data : List Byte) : (s.reply st data).regs = s.regs := rfl
@[simp] theorem State.reply_mem (st : Status) (data : List Byte) : (s.reply st data).mem = s.mem := rfl
@[simp] theorem State.reply_poison (st : Status) (data : List Byte) : (s.reply st data).poison = s.poison := rfl
@[simp] theorem State.reply_clk (st : Status) (data : List Byte) : (s.reply st data).clk = s.clk := rfl
@[simp] theorem State.reply_pwr (st : Status) (data : List Byte) : (s.reply st data).pwr = s.pwr := rfl
@[simp] theorem State.reply_boot (st : Status) (data : List Byte) : (s.reply st data).boot = s.boot := rfl
@[simp] theorem State.reply_pins (st : Status) (data : List Byte) : (s.reply st data).pins = s.pins := rfl
@[simp] theorem State.reply_tiles (st : Status) (data : List Byte) : (s.reply st data).tiles = s.tiles := rfl
@[simp] theorem State.reply_elems (st : Status) (data : List Byte) : (s.reply st data).elems = s.elems := rfl
@[simp] theorem State.reply_front (st : Status) (data : List Byte) : (s.reply st data).front = s.front := rfl
@[simp] theorem State.reply_slots (st : Status) (data : List Byte) : (s.reply st data).slots = s.slots := rfl
@[simp] theorem State.reply_xng (st : Status) (data : List Byte) : (s.reply st data).xng = s.xng := rfl
@[simp] theorem State.reply_nbrs (st : Status) (data : List Byte) : (s.reply st data).nbrs = s.nbrs := rfl
@[simp] theorem State.reply_sec (st : Status) (data : List Byte) : (s.reply st data).sec = s.sec := rfl
@[simp] theorem State.reply_pipes (st : Status) (data : List Byte) : (s.reply st data).pipes = s.pipes := rfl
@[simp] theorem State.reply_phy (st : Status) (data : List Byte) : (s.reply st data).phy = s.phy := rfl
@[simp] theorem State.reply_engs (st : Status) (data : List Byte) : (s.reply st data).engs = s.engs := rfl
@[simp] theorem State.reply_yrn (st : Status) (data : List Byte) : (s.reply st data).yrn = s.yrn := rfl
@[simp] theorem State.reply_irq (st : Status) (data : List Byte) : (s.reply st data).irq = s.irq := rfl
@[simp] theorem State.reply_aon (st : Status) (data : List Byte) : (s.reply st data).aon = s.aon := rfl
@[simp] theorem State.reply_lnk (st : Status) (data : List Byte) : (s.reply st data).lnk = s.lnk := rfl
@[simp] theorem State.reply_pnt (st : Status) (data : List Byte) : (s.reply st data).pnt = s.pnt := rfl
@[simp] theorem State.reply_flc (st : Status) (data : List Byte) : (s.reply st data).flc = s.flc := rfl
@[simp] theorem State.reply_upd (st : Status) (data : List Byte) : (s.reply st data).upd = s.upd := rfl
@[simp] theorem State.reply_err (st : Status) (data : List Byte) : (s.reply st data).err = s.err := rfl
@[simp] theorem State.reply_sys (st : Status) (data : List Byte) : (s.reply st data).sys = s.sys := rfl
@[simp] theorem State.reply_freeCtr (st : Status) (data : List Byte) : (s.reply st data).freeCtr = s.freeCtr := rfl
@[simp] theorem State.reply_get (st : Status) (data : List Byte) (r : Field) : (s.reply st data).get r = s.get r := rfl
@[simp] theorem State.reply_byte (st : Status) (data : List Byte) (i : Nat) : (s.reply st data).byte i = s.byte i := rfl
@[simp] theorem State.reply_eng (st : Status) (data : List Byte) (i : Nat) : (s.reply st data).eng i = s.eng i := rfl
@[simp] theorem State.reply_dom (st : Status) (data : List Byte) (i : Nat) : (s.reply st data).dom i = s.dom i := rfl
@[simp] theorem State.reply_link (st : Status) (data : List Byte) (i : Nat) : (s.reply st data).link i = s.link i := rfl

@[simp] theorem State.set_regs (f : Field) (v : Nat) : (s.set f v).regs = s.regs.write f v := rfl
@[simp] theorem State.setByte_mem (a : Nat) (v : Byte) : (s.setByte a v).mem = Memory.write s.mem a v := rfl
@[simp] theorem State.reply_resp (st : Status) (data : List Byte) : (s.reply st data).resp = ⟨st, data⟩ := rfl
@[simp] theorem State.tickFree_freeCtr : s.tickFree.freeCtr = s.freeCtr + 1 := rfl
@[simp] theorem State.reach_now (t : Nat) : (s.reach t).now = max s.now t := rfl

end Sys2Proof.Machine
end

