-- ==== Sys2Proof/Laws/Memory.lean ====
section
/-! SUPPORT. Laws/Memory.lean: memory reads back what was written, a write leaves every other byte alone, and every memory operation keeps the
canonical form. -/

set_option Elab.async false

namespace Sys2Proof.Machine

open Sys2Proof

/-! ### Reading back -/

theorem Memory.read_drop_same (a : Nat) : (m : List Host.Cell) → Memory.read (Memory.drop m a) a = memDefault a
  | [] => rfl
  | (k, b) :: rest => by
    by_cases h : k = a <;> simp [Memory.drop, Memory.read, h, Memory.read_drop_same a rest]

theorem Memory.read_drop_ne (a i : Nat) (h : i ≠ a) : (m : List Host.Cell) → Memory.read (Memory.drop m a) i = Memory.read m i
  | [] => rfl
  | (k, b) :: rest => by
    by_cases g : k = a
    · subst g; simp [Memory.drop, Memory.read, Ne.symm h, Memory.read_drop_ne k i h rest]
    · simp [Memory.drop, Memory.read, g, Memory.read_drop_ne a i h rest]

theorem Memory.read_put_same (a : Nat) (v : Byte) : (m : List Host.Cell) → Memory.read (Memory.put m a v) a = v
  | [] => by simp [Memory.put, Memory.read]
  | (k, b) :: rest => by
    by_cases h : k = a
    · simp [Memory.put, Memory.read, h]
    · by_cases l : a < k <;> simp [Memory.put, Memory.read, h, l, Memory.read_put_same a v rest]

theorem Memory.read_put_ne (a i : Nat) (v : Byte) (h : i ≠ a) : (m : List Host.Cell) → Memory.read (Memory.put m a v) i = Memory.read m i
  | [] => by simp [Memory.put, Memory.read, Ne.symm h]
  | (k, b) :: rest => by
    by_cases g : k = a
    · subst g; simp [Memory.put, Memory.read, Ne.symm h]
    · by_cases l : a < k <;> simp [Memory.put, Memory.read, g, l, Ne.symm h, Memory.read_put_ne a i v h rest]

/-- A written byte reads back. -/
theorem Memory.read_write_same (m : List Host.Cell) (a : Nat) (v : Byte) : Memory.read (Memory.write m a v) a = v := by
  unfold Memory.write
  split
  · rename_i h; rw [Memory.read_drop_same, h]
  · exact Memory.read_put_same a v m

/-- A write leaves every other byte alone. -/
theorem Memory.read_write_ne (m : List Host.Cell) (a i : Nat) (v : Byte) (h : i ≠ a) : Memory.read (Memory.write m a v) i = Memory.read m i := by
  unfold Memory.write
  split
  · exact Memory.read_drop_ne a i h m
  · exact Memory.read_put_ne a i v h m

@[simp] theorem State.byte_setByte_same (s : State) (a : Nat) (v : Byte) : (s.setByte a v).byte a = v := Memory.read_write_same _ _ _

theorem State.byte_setByte_ne (s : State) (a i : Nat) (v : Byte) (h : i ≠ a) : (s.setByte a v).byte i = s.byte i :=
  Memory.read_write_ne _ _ _ _ h

/-- A byte below a stored run reads as before. -/
theorem State.byte_setBytes_below (i : Nat) : (l : List Byte) → (s : State) → (a : Nat) → i < a → (s.setBytes a l).byte i = s.byte i
  | [], _, _, _ => rfl
  | b :: rest, s, a, h => by
    rw [State.setBytes, State.byte_setBytes_below i rest _ (a + 1) (by omega), State.byte_setByte_ne _ _ _ _ (by omega)]

/-- A byte outside a stored run reads as before. -/
theorem State.byte_setBytes_out (i : Nat) : (l : List Byte) → (s : State) → (a : Nat) → ¬ (a ≤ i ∧ i < a + l.length) →
    (s.setBytes a l).byte i = s.byte i
  | [], _, _, _ => rfl
  | b :: rest, s, a, h => by
    simp only [List.length_cons] at h
    rw [State.setBytes, State.byte_setBytes_out i rest _ (a + 1) (by omega), State.byte_setByte_ne _ _ _ _ (by omega)]

/-- A stored run reads back byte by byte. -/
theorem State.byte_setBytes_in (l : List Byte) : ∀ (s : State) (a i : Nat) (h : i < l.length), (s.setBytes a l).byte (a + i) = l[i] := by
  induction l with
  | nil => intro s a i h; exact absurd h (Nat.not_lt_zero i)
  | cons b rest ih =>
    intro s a i h
    cases i with
    | zero =>
      show ((s.setByte a b).setBytes (a + 1) rest).byte a = b
      rw [State.byte_setBytes_below a rest _ (a + 1) (by omega)]
      simp
    | succ i =>
      have g : i < rest.length := by simpa using h
      rw [State.setBytes, show a + (i + 1) = a + 1 + i by omega, ih _ (a + 1) i g]
      simp

@[simp] theorem State.setBytes_regs : (l : List Byte) → (s : State) → (a : Nat) → (s.setBytes a l).regs = s.regs
  | [], _, _ => rfl
  | b :: rest, s, a => by rw [State.setBytes, State.setBytes_regs rest]; rfl

@[simp] theorem State.setBytes_get (l : List Byte) (s : State) (a : Nat) (f : Field) : (s.setBytes a l).get f = s.get f := by
  simp [State.get]

@[simp] theorem State.setBytes_engs : (l : List Byte) → (s : State) → (a : Nat) → (s.setBytes a l).engs = s.engs
  | [], _, _ => rfl
  | b :: rest, s, a => by rw [State.setBytes, State.setBytes_engs rest]; rfl

/-! ### The canonical form -/

/-- The first listed address, if there is one, lies above k. -/
def Memory.above (k : Nat) : List Host.Cell → Bool
  | [] => true
  | (a, _) :: _ => k < a

theorem Memory.wf_cons (a : Nat) (v : Byte) (m : List Host.Cell) :
    Memory.wf ((a, v) :: m) = (Memory.above a m && v != memDefault a && Memory.wf m) := by
  cases m with
  | nil => simp [Memory.wf, Memory.above]
  | cons c rest => obtain ⟨b, w⟩ := c; simp [Memory.wf, Memory.above]

/-- Leaving entries out keeps the form. -/
theorem Memory.filter_both (p : Host.Cell → Bool) : (m : List Host.Cell) → Memory.wf m = true →
    Memory.wf (m.filter p) = true ∧ ∀ k : Nat, Memory.above k m = true → Memory.above k (m.filter p) = true
  | [], _ => ⟨rfl, fun _ _ => rfl⟩
  | (a, v) :: rest, h => by
    rw [Memory.wf_cons, Bool.and_eq_true, Bool.and_eq_true] at h
    obtain ⟨i1, i2⟩ := Memory.filter_both p rest h.2
    by_cases c : p (a, v) = true
    · rw [List.filter_cons_of_pos c]
      refine ⟨?_, fun k hk => hk⟩
      rw [Memory.wf_cons, Bool.and_eq_true, Bool.and_eq_true]
      exact ⟨⟨i2 a h.1.1, h.1.2⟩, i1⟩
    · rw [List.filter_cons_of_neg c]
      refine ⟨i1, fun k hk => i2 k ?_⟩
      revert hk
      have := h.1.1
      cases rest with
      | nil => intro _; rfl
      | cons c _ =>
        obtain ⟨b, w⟩ := c
        simp only [Memory.above, decide_eq_true_eq] at *
        omega

theorem Memory.wf_filter (p : Host.Cell → Bool) (m : List Host.Cell) (h : Memory.wf m = true) : Memory.wf (m.filter p) = true :=
  (Memory.filter_both p m h).1

theorem Memory.wf_clear (m : List Host.Cell) (lo len : Nat) (h : Memory.wf m = true) : Memory.wf (Memory.clear m lo len) = true :=
  Memory.wf_filter _ m h

theorem Memory.drop_eq_filter (a : Nat) : (m : List Host.Cell) → Memory.drop m a = m.filter fun c => decide (c.1 ≠ a)
  | [] => rfl
  | (k, v) :: rest => by
    by_cases c : k = a <;> simp [Memory.drop, c, Memory.drop_eq_filter a rest]

theorem Memory.above_put {k a : Nat} {v : Byte} (h : k < a) : (m : List Host.Cell) → Memory.above k m = true → Memory.above k (Memory.put m a v) = true
  | [], _ => by simpa [Memory.put, Memory.above] using h
  | (b, w) :: rest, g => by
    unfold Memory.put
    split
    · simpa [Memory.above] using h
    · split
      · simpa [Memory.above] using h
      · simpa [Memory.above] using g

theorem Memory.wf_put {a : Nat} {v : Byte} (h : v ≠ memDefault a) : (m : List Host.Cell) → Memory.wf m = true → Memory.wf (Memory.put m a v) = true
  | [], _ => by simpa [Memory.put, Memory.wf] using h
  | (b, w) :: rest, g => by
    rw [Memory.wf_cons, Bool.and_eq_true, Bool.and_eq_true] at g
    unfold Memory.put
    split
    · rename_i e; subst e
      rw [Memory.wf_cons, Bool.and_eq_true, Bool.and_eq_true]
      exact ⟨⟨g.1.1, by simpa using h⟩, g.2⟩
    · split
      · rename_i e l
        rw [Memory.wf_cons, Memory.wf_cons, g.1.1, g.1.2, g.2]
        simpa [Memory.above, l] using h
      · rename_i e l
        rw [Memory.wf_cons, Bool.and_eq_true, Bool.and_eq_true]
        exact ⟨⟨Memory.above_put (by omega) rest g.1.1, g.1.2⟩, Memory.wf_put h rest g.2⟩

/-- A write keeps the canonical form. -/
theorem Memory.wf_write (m : List Host.Cell) (a : Nat) (v : Byte) (h : Memory.wf m = true) : Memory.wf (Memory.write m a v) = true := by
  unfold Memory.write
  split
  · rw [Memory.drop_eq_filter]; exact Memory.wf_filter _ m h
  · rename_i e; exact Memory.wf_put e m h

end Sys2Proof.Machine
end

