-- ==== Sys2Proof/Laws/Regs.lean ====
section
/-! SUPPORT. Laws/Regs.lean: the register file reads back what was written, a write leaves every other field alone, and every operation keeps the
keys rising. -/

set_option Elab.async false

namespace Sys2Proof.Machine

open Sys2Proof

/-! ### Reading back -/

theorem RegFile.find_put_same (r : RegFile) (q : RegKey) (v : Nat) : (r.put q v).find q = some v := by
  induction r with
  | nil => simp [RegFile.put, RegFile.find]
  | cons c rest ih =>
    obtain ⟨k, w⟩ := c
    by_cases hk : k = q
    · simp [RegFile.put, RegFile.find, hk]
    · by_cases hl : q.lt k
      · simp [RegFile.put, RegFile.find, hk, hl]
      · simp [RegFile.put, RegFile.find, hk, hl, ih]

theorem RegFile.find_put_ne (r : RegFile) (q p : RegKey) (v : Nat) (h : p ≠ q) : (r.put q v).find p = r.find p := by
  induction r with
  | nil => simp [RegFile.put, RegFile.find, Ne.symm h]
  | cons c rest ih =>
    obtain ⟨k, w⟩ := c
    by_cases hk : k = q
    · subst hk; simp [RegFile.put, RegFile.find, Ne.symm h]
    · by_cases hl : q.lt k
      · simp [RegFile.put, RegFile.find, hk, hl, Ne.symm h]
      · simp [RegFile.put, RegFile.find, hk, hl, ih]

theorem RegFile.find_drop_same (r : RegFile) (q : RegKey) : (r.drop q).find q = none := by
  induction r with
  | nil => rfl
  | cons c rest ih =>
    obtain ⟨k, w⟩ := c
    by_cases hk : k = q <;> simp [RegFile.drop, RegFile.find, hk, ih]

theorem RegFile.find_drop_ne (r : RegFile) (q p : RegKey) (h : p ≠ q) : (r.drop q).find p = r.find p := by
  induction r with
  | nil => rfl
  | cons c rest ih =>
    obtain ⟨k, w⟩ := c
    by_cases hk : k = q
    · subst hk; simp [RegFile.drop, RegFile.find, Ne.symm h, ih]
    · simp [RegFile.drop, RegFile.find, hk, ih]

/-- A written field reads as the value cut to its width. -/
theorem RegFile.read_write_same (r : RegFile) (f : Field) (v : Nat) : (r.write f v).read f = v % 2 ^ f.width := by
  unfold RegFile.write RegFile.read
  split
  · rename_i h; simp [RegFile.find_drop_same, h]
  · simp [RegFile.find_put_same]

/-- A write leaves a field with another key alone. -/
theorem RegFile.read_write_ne (r : RegFile) (f p : Field) (v : Nat) (h : p.key ≠ f.key) : (r.write f v).read p = r.read p := by
  unfold RegFile.write RegFile.read
  split
  · rw [RegFile.find_drop_ne _ _ _ h]
  · rw [RegFile.find_put_ne _ _ _ _ h]

@[simp] theorem State.get_set_same (s : State) (f : Field) (v : Nat) : (s.set f v).get f = v % 2 ^ f.width :=
  RegFile.read_write_same _ _ _

theorem State.get_set_ne (s : State) (f p : Field) (v : Nat) (h : p.key ≠ f.key) : (s.set f v).get p = s.get p :=
  RegFile.read_write_ne _ _ _ _ h

/-- Fields of two rows of the register tables are told apart by their rows. -/
theorem State.get_set_row (s : State) (f p : Field) (v : Nat) (h : p.row ≠ f.row) : (s.set f v).get p = s.get p :=
  s.get_set_ne f p v fun e => h (congrArg RegKey.row e)

/-! ### The canonical form -/

/-- The first key of a register file, if it has one, lies above k. -/
def RegFile.above (k : RegKey) : RegFile → Bool
  | [] => true
  | (a, _) :: _ => k.lt a

theorem RegKey.lt_trans {a b c : RegKey} (h : a.lt b = true) (g : b.lt c = true) : a.lt c = true := by
  simp only [RegKey.lt, Bool.or_eq_true, Bool.and_eq_true, decide_eq_true_eq, beq_iff_eq] at *
  omega

theorem RegKey.lt_of_not {a b : RegKey} (h : a ≠ b) (g : a.lt b = false) : b.lt a = true := by
  obtain ⟨a1, a2, a3⟩ := a
  obtain ⟨b1, b2, b3⟩ := b
  simp only [RegKey.lt, Bool.or_eq_true, Bool.and_eq_true, decide_eq_true_eq, beq_iff_eq, ne_eq, RegKey.mk.injEq, Bool.or_eq_false_iff,
    Bool.and_eq_false_iff, decide_eq_false_iff_not, beq_eq_false_iff_ne] at *
  omega

theorem RegFile.sorted_cons (a : RegKey) (v : Nat) (r : RegFile) : RegFile.sorted ((a, v) :: r) = (r.above a && r.sorted) := by
  cases r with
  | nil => rfl
  | cons c rest => obtain ⟨b, w⟩ := c; rfl

theorem RegFile.above_trans {k a : RegKey} (h : k.lt a = true) : (r : RegFile) → r.above a = true → r.above k = true
  | [], _ => rfl
  | (_, _) :: _, g => RegKey.lt_trans h g

theorem RegFile.above_put {k q : RegKey} {v : Nat} (hq : k.lt q = true) : (r : RegFile) → r.above k = true → (r.put q v).above k = true
  | [], _ => by simpa [RegFile.put, RegFile.above] using hq
  | (a, w) :: rest, h => by
    unfold RegFile.put
    split
    · simpa [RegFile.above] using hq
    · split
      · simpa [RegFile.above] using hq
      · simpa [RegFile.above] using h

theorem RegFile.sorted_put {q : RegKey} {v : Nat} : (r : RegFile) → r.sorted = true → (r.put q v).sorted = true
  | [], _ => rfl
  | (a, w) :: rest, h => by
    rw [RegFile.sorted_cons, Bool.and_eq_true] at h
    unfold RegFile.put
    split
    · rename_i e; subst e; rw [RegFile.sorted_cons, Bool.and_eq_true]; exact h
    · split
      · rename_i e l
        rw [RegFile.sorted_cons, RegFile.sorted_cons, h.1, h.2]
        simpa [RegFile.above] using l
      · rename_i e l
        rw [RegFile.sorted_cons, Bool.and_eq_true]
        exact ⟨RegFile.above_put (RegKey.lt_of_not (Ne.symm e) (by simpa using l)) rest h.1, RegFile.sorted_put rest h.2⟩

theorem RegFile.above_of_sorted {k a : RegKey} {v : Nat} {r : RegFile} (h : RegFile.sorted ((a, v) :: r) = true) (g : k.lt a = true) :
    r.above k = true := by
  rw [RegFile.sorted_cons, Bool.and_eq_true] at h
  exact RegFile.above_trans g r h.1

/-- Leaving entries out keeps the keys rising. -/
theorem RegFile.filter_both (p : RegKey × Nat → Bool) : (r : RegFile) → r.sorted = true →
    RegFile.sorted (r.filter p) = true ∧ ∀ k : RegKey, r.above k = true → RegFile.above k (r.filter p) = true
  | [], _ => ⟨rfl, fun _ _ => rfl⟩
  | (a, v) :: rest, h => by
    have g := h
    rw [RegFile.sorted_cons, Bool.and_eq_true] at h
    obtain ⟨i1, i2⟩ := RegFile.filter_both p rest h.2
    by_cases c : p (a, v) = true
    · rw [List.filter_cons_of_pos c]
      refine ⟨?_, fun k hk => hk⟩
      rw [RegFile.sorted_cons, Bool.and_eq_true]
      exact ⟨i2 a h.1, i1⟩
    · rw [List.filter_cons_of_neg c]
      exact ⟨i1, fun k hk => i2 k (RegFile.above_of_sorted g hk)⟩

theorem RegFile.sorted_filter (p : RegKey × Nat → Bool) (r : RegFile) (h : r.sorted = true) : RegFile.sorted (r.filter p) = true :=
  (RegFile.filter_both p r h).1

theorem RegFile.drop_eq_filter (q : RegKey) : (r : RegFile) → r.drop q = r.filter fun c => decide (c.1 ≠ q)
  | [] => rfl
  | (a, v) :: rest => by
    by_cases c : a = q <;> simp [RegFile.drop, c, RegFile.drop_eq_filter q rest]

theorem RegFile.sorted_drop (q : RegKey) (r : RegFile) (h : r.sorted = true) : (r.drop q).sorted = true := by
  rw [RegFile.drop_eq_filter]; exact RegFile.sorted_filter _ r h

/-- A write keeps the keys rising. -/
theorem RegFile.sorted_write (r : RegFile) (f : Field) (v : Nat) (h : r.sorted = true) : (r.write f v).sorted = true := by
  unfold RegFile.write
  split
  · exact RegFile.sorted_drop _ _ h
  · exact RegFile.sorted_put _ h

end Sys2Proof.Machine
end

