-- ==== Sys2Proof/Laws/Follows.lean ====
section
/-! SUPPORT. Laws/Follows.lean: what an operation of the model may change, said once for each. A footprint names the rows of the register
tables and the parts of State that an operation may change; Follows says that a state comes from another within a footprint, and that the
queue of waiting commands and the canonical forms of memory, register file and poisoned words are kept. This file holds the property and its rules
for if, folds and record updates; the files beside it hold one footprint and one lemma for each operation. -/

namespace Sys2Proof.Machine

open Sys2Proof

/-- A footprint. Bit k of rows: fields of row k of the register tables (Machine/RegTable.lean) may change. Bit k of comps: field k of State, counted
from 0, may change; bit 1 stands for every row, and bit 0 says that pending bits of interrupt sources may be cleared. -/
structure Foot where
  comps : Nat
  rows : Nat
  deriving DecidableEq, Repr

def Foot.comp (p : Foot) (k : Nat) : Bool := p.comps.testBit k
def Foot.row (p : Foot) (k : Nat) : Bool := p.comps.testBit 1 || p.rows.testBit k

/-- Everything may change. -/
def Foot.all : Foot := ⟨0x1FFFFFFF, 0⟩

/-- Footprint p lies within q. -/
def Foot.leb (p q : Foot) : Bool := Nat.beq (Nat.land p.comps q.comps) p.comps && (q.comps.testBit 1 || Nat.beq (Nat.land p.rows q.rows) p.rows)

/-- The row of IRQ_PEND. -/
def pendRow : Nat := (R.IRQ_PEND_pend 0).row

/-- Within p a field of row k may take any value. -/
def Foot.sets (p : Foot) (k : Nat) : Bool := p.row k && (p.comp 0 || k != pendRow)

/-- Footprint p lies within q, as a premise of the lemmas. -/
def Foot.le (p q : Foot) : Prop := p.leb q = true

theorem Foot.le_refl (p : Foot) : p.le p := by
  simp only [Foot.le, Foot.leb, Bool.and_eq_true, Bool.or_eq_true, Nat.beq_eq]
  exact ⟨Nat.and_self _, .inr (Nat.and_self _)⟩

theorem Foot.testBit_of_land {a b k : Nat} (h : Nat.land a b = a) (e : a.testBit k = true) : b.testBit k = true := by
  have h' : a &&& b = a := h
  rw [← h', Nat.testBit_and, Bool.and_eq_true] at e
  exact e.2

theorem Foot.le.comp {p q : Foot} (h : p.le q) {k : Nat} (e : p.comp k = true) : q.comp k = true := by
  simp only [Foot.le, Foot.leb, Bool.and_eq_true, Bool.or_eq_true, Nat.beq_eq] at h
  exact Foot.testBit_of_land h.1 e

theorem Foot.le.row {p q : Foot} (h : p.le q) {k : Nat} (e : p.row k = true) : q.row k = true := by
  simp only [Foot.le, Foot.leb, Bool.and_eq_true, Bool.or_eq_true, Nat.beq_eq] at h
  simp only [Foot.row, Bool.or_eq_true] at *
  rcases h.2 with g | g
  · exact .inl g
  · exact e.imp (Foot.testBit_of_land h.1) (Foot.testBit_of_land g)

theorem Foot.le.sets {p q : Foot} (h : p.le q) {k : Nat} (e : p.sets k = true) : q.sets k = true := by
  simp only [Foot.sets, Bool.and_eq_true, Bool.or_eq_true] at *
  exact ⟨h.row e.1, e.2.imp h.comp id⟩

/-- What lies within a footprint that lies within q lies within q. -/
theorem Foot.le.sub {p q r : Foot} (h : p.le q) (e : r.leb p = true) : r.le q := by
  simp only [Foot.le, Foot.leb, Bool.and_eq_true, Bool.or_eq_true, Nat.beq_eq] at *
  have one : ∀ a b c : Nat, Nat.land a b = a → Nat.land b c = b → Nat.land a c = a := by
    intro a b c x y
    have x' : a &&& b = a := x
    have y' : b &&& c = b := y
    show a &&& c = a
    rw [← x', Nat.and_assoc, y']
  refine ⟨one _ _ _ e.1 h.1, ?_⟩
  rcases h.2 with g | g
  · exact .inl g
  · rcases e.2 with f | f
    · exact .inl (Foot.testBit_of_land h.1 f)
    · exact .inr (one _ _ _ f g)

/-- State t comes from s within footprint p; the queue and the canonical forms are kept. -/
structure Follows (p : Foot) (s t : State) : Prop where
  pending : t.pending = s.pending
  canonical : s.canonical = true → t.canonical = true
  get : ∀ f : Field, p.row f.row = false → t.get f = s.get f
  pend : p.comp 0 = false → ∀ i k : Nat, k < 32 → s.bit (R.IRQ_PEND_pend i) k = true → t.bit (R.IRQ_PEND_pend i) k = true
  mem : p.comp 2 = false → t.mem = s.mem
  poison : p.comp 3 = false → t.poison = s.poison
  clk : p.comp 4 = false → t.clk = s.clk
  pwr : p.comp 5 = false → t.pwr = s.pwr
  boot : p.comp 6 = false → t.boot = s.boot
  pins : p.comp 7 = false → t.pins = s.pins
  tiles : p.comp 8 = false → t.tiles = s.tiles
  elems : p.comp 9 = false → t.elems = s.elems
  front : p.comp 10 = false → t.front = s.front
  slots : p.comp 11 = false → t.slots = s.slots
  xng : p.comp 12 = false → t.xng = s.xng
  nbrs : p.comp 13 = false → t.nbrs = s.nbrs
  sec : p.comp 14 = false → t.sec = s.sec
  pipes : p.comp 15 = false → t.pipes = s.pipes
  phy : p.comp 16 = false → t.phy = s.phy
  engs : p.comp 17 = false → t.engs = s.engs
  yrn : p.comp 18 = false → t.yrn = s.yrn
  irq : p.comp 19 = false → t.irq = s.irq
  aon : p.comp 20 = false → t.aon = s.aon
  lnk : p.comp 21 = false → t.lnk = s.lnk
  pnt : p.comp 22 = false → t.pnt = s.pnt
  flc : p.comp 23 = false → t.flc = s.flc
  upd : p.comp 24 = false → t.upd = s.upd
  err : p.comp 25 = false → t.err = s.err
  sys : p.comp 26 = false → t.sys = s.sys
  resp : p.comp 27 = false → t.resp = s.resp
  freeCtr : p.comp 28 = false → t.freeCtr = s.freeCtr

/-- An outcome that goes on, to a state that Follows allows. -/
def FollowsOut (p : Foot) (s : State) : Out → Prop
  | .next t => Follows p s t
  | _ => False

theorem FollowsOut.next {p : Foot} {s t : State} (h : Follows p s t) : FollowsOut p s (.next t) := h

theorem FollowsOut.ite {p : Foot} {s : State} {c : Prop} [Decidable c] {a b : Out} (ha : FollowsOut p s a) (hb : FollowsOut p s b) :
    FollowsOut p s (if c then a else b) := by
  split <;> assumption

theorem FollowsOut.of_eq {p : Foot} {s t : State} {o : Out} (h : FollowsOut p s o) (e : o = .next t) : Follows p s t := by
  rw [e] at h; exact h

namespace Follows

variable {p : Foot} {s : State} {α β : Type}

theorem refl (p : Foot) (s : State) : Follows p s s := by constructor <;> intros <;> first | rfl | assumption

theorem trans {s t u : State} (h : Follows p s t) (g : Follows p t u) : Follows p s u where
  pending := g.pending.trans h.pending
  canonical := fun c => g.canonical (h.canonical c)
  get := fun f e => (g.get f e).trans (h.get f e)
  pend := fun e i k l b => g.pend e i k l (h.pend e i k l b)
  mem := fun e => (g.mem e).trans (h.mem e)
  poison := fun e => (g.poison e).trans (h.poison e)
  clk := fun e => (g.clk e).trans (h.clk e)
  pwr := fun e => (g.pwr e).trans (h.pwr e)
  boot := fun e => (g.boot e).trans (h.boot e)
  pins := fun e => (g.pins e).trans (h.pins e)
  tiles := fun e => (g.tiles e).trans (h.tiles e)
  elems := fun e => (g.elems e).trans (h.elems e)
  front := fun e => (g.front e).trans (h.front e)
  slots := fun e => (g.slots e).trans (h.slots e)
  xng := fun e => (g.xng e).trans (h.xng e)
  nbrs := fun e => (g.nbrs e).trans (h.nbrs e)
  sec := fun e => (g.sec e).trans (h.sec e)
  pipes := fun e => (g.pipes e).trans (h.pipes e)
  phy := fun e => (g.phy e).trans (h.phy e)
  engs := fun e => (g.engs e).trans (h.engs e)
  yrn := fun e => (g.yrn e).trans (h.yrn e)
  irq := fun e => (g.irq e).trans (h.irq e)
  aon := fun e => (g.aon e).trans (h.aon e)
  lnk := fun e => (g.lnk e).trans (h.lnk e)
  pnt := fun e => (g.pnt e).trans (h.pnt e)
  flc := fun e => (g.flc e).trans (h.flc e)
  upd := fun e => (g.upd e).trans (h.upd e)
  err := fun e => (g.err e).trans (h.err e)
  sys := fun e => (g.sys e).trans (h.sys e)
  resp := fun e => (g.resp e).trans (h.resp e)
  freeCtr := fun e => (g.freeCtr e).trans (h.freeCtr e)

theorem ite {c : Prop} [Decidable c] {a b : State} (ha : Follows p s a) (hb : Follows p s b) : Follows p s (if c then a else b) := by
  split <;> assumption

theorem ite1 {c : Prop} [Decidable c] {a b : State × β} (ha : Follows p s a.1) (hb : Follows p s b.1) : Follows p s (if c then a else b).1 := by
  split <;> assumption

theorem pair {a : State} {b : β} (h : Follows p s a) : Follows p s (a, b).1 := h

theorem id {a : State} (h : Follows p s a) : Follows p s (id a) := h

theorem fst_eq {x : State × β} {a : State} {b : β} (h : Follows p s x.1) (e : x = (a, b)) : Follows p s a := by
  rw [e] at h; exact h

theorem foldl {l : List α} {f : State → α → State} {a : State} (hf : ∀ a x, Follows p s a → Follows p s (f a x)) (h : Follows p s a) :
    Follows p s (l.foldl f a) := by
  induction l generalizing a with
  | nil => exact h
  | cons x rest ih => exact ih (hf a x h)

theorem foldl1 {l : List α} {f : State × β → α → State × β} {a : State × β} (hf : ∀ a x, Follows p s a.1 → Follows p s (f a x).1)
    (h : Follows p s a.1) : Follows p s (l.foldl f a).1 := by
  induction l generalizing a with
  | nil => exact h
  | cons x rest ih => exact ih (hf a x h)

theorem forAll {n : Nat} {f : Nat → State → State} {a : State} (hf : ∀ i a, Follows p s a → Follows p s (f i a)) (h : Follows p s a) :
    Follows p s (Machine.forAll n f a) := foldl (fun a i => hf i a) h

theorem forBits {n m : Nat} {f : Nat → State → State} {a : State} (hf : ∀ i a, Follows p s a → Follows p s (f i a)) (h : Follows p s a) :
    Follows p s (Machine.forBits n m f a) :=
  foldl (fun a i ha => ite (hf i a ha) ha) h

end Follows

/-! ### The poisoned words -/

/-- The first number of a list, if there is one, lies above k. -/
def aboveNat (k : Nat) : List Nat → Bool
  | [] => true
  | a :: _ => k < a

theorem rising_cons (a : Nat) (l : List Nat) : rising (a :: l) = (aboveNat a l && rising l) := by
  cases l <;> simp [rising, aboveNat]

theorem rising_filter_both (p : Nat → Bool) : (l : List Nat) → rising l = true →
    rising (l.filter p) = true ∧ ∀ k : Nat, aboveNat k l = true → aboveNat k (l.filter p) = true
  | [], _ => ⟨rfl, fun _ _ => rfl⟩
  | a :: rest, h => by
    rw [rising_cons, Bool.and_eq_true] at h
    obtain ⟨i1, i2⟩ := rising_filter_both p rest h.2
    by_cases c : p a = true
    · rw [List.filter_cons_of_pos c]
      refine ⟨?_, fun k hk => hk⟩
      rw [rising_cons, Bool.and_eq_true]
      exact ⟨i2 a h.1, i1⟩
    · rw [List.filter_cons_of_neg c]
      refine ⟨i1, fun k hk => i2 k ?_⟩
      have := h.1
      cases rest with
      | nil => rfl
      | cons b _ => simp only [aboveNat, decide_eq_true_eq] at *; omega

theorem rising_filter (p : Nat → Bool) (l : List Nat) (h : rising l = true) : rising (l.filter p) = true := (rising_filter_both p l h).1

theorem aboveNat_insert {k a : Nat} (h : k < a) : (l : List Nat) → aboveNat k l = true → aboveNat k (insertRising a l) = true
  | [], _ => by simpa [insertRising, aboveNat] using h
  | b :: rest, g => by
    unfold insertRising
    split
    · exact g
    · split
      · simpa [aboveNat] using h
      · exact g

theorem rising_insert (a : Nat) : (l : List Nat) → rising l = true → rising (insertRising a l) = true
  | [], _ => rfl
  | b :: rest, h => by
    have g := h
    rw [rising_cons, Bool.and_eq_true] at h
    unfold insertRising
    split
    · exact g
    · split
      · rename_i l; rw [rising_cons, g]; simpa [aboveNat] using l
      · rw [rising_cons, Bool.and_eq_true]
        exact ⟨aboveNat_insert (by omega) rest h.1, rising_insert a rest h.2⟩

/-! ### Record updates -/

theorem canonical_iff (s : State) : s.canonical = true ↔ Memory.wf s.mem = true ∧ RegFile.sorted s.regs = true ∧ rising s.poison = true := by
  simp [State.canonical, and_assoc]

theorem canonical_of {s t : State} (hr : t.regs = s.regs) (hm : t.mem = s.mem ∨ ∃ f, t.mem = List.filter f s.mem)
    (hx : t.poison = s.poison ∨ ∃ f, t.poison = List.filter f s.poison) (h : s.canonical = true) : t.canonical = true := by
  rw [canonical_iff] at *
  refine ⟨?_, hr ▸ h.2.1, ?_⟩
  · rcases hm with e | ⟨f, e⟩ <;> rw [e]
    · exact h.1
    · exact Memory.wf_filter _ _ h.1
  · rcases hx with e | ⟨f, e⟩ <;> rw [e]
    · exact h.2.2
    · exact rising_filter _ _ h.2.2

theorem or_false_comp {a p : Foot} (hp : a.le p) {k : Nat} {q : Prop} (h : q ∨ a.comp k = true) (e : p.comp k = false) : q := by
  rcases h with h | h
  · exact h
  · rw [hp.comp h] at e; cases e

namespace Follows

variable {q : List Instr} {r : RegFile} {m : List Host.Cell} {x : List Nat}
variable {clk₁ : Clk} {pwr₁ : Pwr} {boot₁ : Boot} {pins₁ : Pins} {tiles₁ : Vector TileSt 8} {elems₁ : Vector ElemSt 512} {front₁ : Front} {slots₁ : Vector SlotSt 16} {xng₁ : Xng} {nbrs₁ : Vector NbrSt 64} {sec₁ : Sec} {pipes₁ : Vector Pipe 8} {phy₁ : Phy} {engs₁ : Vector Engine 96} {yrn₁ : Yrn} {irq₁ : Irq} {aon₁ : Aon} {lnk₁ : Lnk} {pnt₁ : Pnt} {flc₁ : Flc} {upd₁ : Upd} {err₁ : Err} {sys₁ : Sys} {resp₁ : Resp} {ctr₁ : Nat}

/-- An update of the parts that footprint a names. Memory and poisoned words stay as they are or lose entries. -/
theorem update {a p : Foot} {s s0 : State} (hp : a.le p) (h : Follows p s0 s) (hq : q = s.pending) (hr : r = s.regs)
    (hm : m = s.mem ∨ (a.comp 2 = true ∧ ∃ f, m = List.filter f s.mem) := by first | exact .inl (by with_reducible rfl) | exact .inr ⟨rfl, _, rfl⟩)
    (hx : x = s.poison ∨ (a.comp 3 = true ∧ ∃ f, x = List.filter f s.poison) := by first | exact .inl (by with_reducible rfl) | exact .inr ⟨rfl, _, rfl⟩)
    (h4 : clk₁ = s.clk ∨ a.comp 4 = true := by first | exact .inl (by with_reducible rfl) | exact .inr rfl)
    (h5 : pwr₁ = s.pwr ∨ a.comp 5 = true := by first | exact .inl (by with_reducible rfl) | exact .inr rfl)
    (h6 : boot₁ = s.boot ∨ a.comp 6 = true := by first | exact .inl (by with_reducible rfl) | exact .inr rfl)
    (h7 : pins₁ = s.pins ∨ a.comp 7 = true := by first | exact .inl (by with_reducible rfl) | exact .inr rfl)
    (h8 : tiles₁ = s.tiles ∨ a.comp 8 = true := by first | exact .inl (by with_reducible rfl) | exact .inr rfl)
    (h9 : elems₁ = s.elems ∨ a.comp 9 = true := by first | exact .inl (by with_reducible rfl) | exact .inr rfl)
    (h10 : front₁ = s.front ∨ a.comp 10 = true := by first | exact .inl (by with_reducible rfl) | exact .inr rfl)
    (h11 : slots₁ = s.slots ∨ a.comp 11 = true := by first | exact .inl (by with_reducible rfl) | exact .inr rfl)
    (h12 : xng₁ = s.xng ∨ a.comp 12 = true := by first | exact .inl (by with_reducible rfl) | exact .inr rfl)
    (h13 : nbrs₁ = s.nbrs ∨ a.comp 13 = true := by first | exact .inl (by with_reducible rfl) | exact .inr rfl)
    (h14 : sec₁ = s.sec ∨ a.comp 14 = true := by first | exact .inl (by with_reducible rfl) | exact .inr rfl)
    (h15 : pipes₁ = s.pipes ∨ a.comp 15 = true := by first | exact .inl (by with_reducible rfl) | exact .inr rfl)
    (h16 : phy₁ = s.phy ∨ a.comp 16 = true := by first | exact .inl (by with_reducible rfl) | exact .inr rfl)
    (h17 : engs₁ = s.engs ∨ a.comp 17 = true := by first | exact .inl (by with_reducible rfl) | exact .inr rfl)
    (h18 : yrn₁ = s.yrn ∨ a.comp 18 = true := by first | exact .inl (by with_reducible rfl) | exact .inr rfl)
    (h19 : irq₁ = s.irq ∨ a.comp 19 = true := by first | exact .inl (by with_reducible rfl) | exact .inr rfl)
    (h20 : aon₁ = s.aon ∨ a.comp 20 = true := by first | exact .inl (by with_reducible rfl) | exact .inr rfl)
    (h21 : lnk₁ = s.lnk ∨ a.comp 21 = true := by first | exact .inl (by with_reducible rfl) | exact .inr rfl)
    (h22 : pnt₁ = s.pnt ∨ a.comp 22 = true := by first | exact .inl (by with_reducible rfl) | exact .inr rfl)
    (h23 : flc₁ = s.flc ∨ a.comp 23 = true := by first | exact .inl (by with_reducible rfl) | exact .inr rfl)
    (h24 : upd₁ = s.upd ∨ a.comp 24 = true := by first | exact .inl (by with_reducible rfl) | exact .inr rfl)
    (h25 : err₁ = s.err ∨ a.comp 25 = true := by first | exact .inl (by with_reducible rfl) | exact .inr rfl)
    (h26 : sys₁ = s.sys ∨ a.comp 26 = true := by first | exact .inl (by with_reducible rfl) | exact .inr rfl)
    (h27 : resp₁ = s.resp ∨ a.comp 27 = true := by first | exact .inl (by with_reducible rfl) | exact .inr rfl)
    (h28 : ctr₁ = s.freeCtr ∨ a.comp 28 = true := by first | exact .inl (by with_reducible rfl) | exact .inr rfl) :
    Follows p s0 ⟨q, r, m, x, clk₁, pwr₁, boot₁, pins₁, tiles₁, elems₁, front₁, slots₁, xng₁, nbrs₁, sec₁, pipes₁, phy₁, engs₁, yrn₁, irq₁, aon₁, lnk₁, pnt₁, flc₁, upd₁, err₁, sys₁, resp₁, ctr₁⟩ := by
  have g : ∀ f, State.get ⟨q, r, m, x, clk₁, pwr₁, boot₁, pins₁, tiles₁, elems₁, front₁, slots₁, xng₁, nbrs₁, sec₁, pipes₁, phy₁, engs₁, yrn₁, irq₁, aon₁, lnk₁, pnt₁, flc₁, upd₁, err₁, sys₁, resp₁, ctr₁⟩ f = s.get f := fun f => by unfold State.get; rw [hr]
  refine h.trans ⟨hq, canonical_of hr (hm.imp (fun x => x) And.right) (hx.imp (fun x => x) And.right), fun f _ => g f, fun _ i k _ b => ?_,
    or_false_comp hp (hm.imp (fun x => x) And.left), or_false_comp hp (hx.imp (fun x => x) And.left),
    or_false_comp hp h4, or_false_comp hp h5, or_false_comp hp h6, or_false_comp hp h7, or_false_comp hp h8, or_false_comp hp h9, or_false_comp hp h10, or_false_comp hp h11, or_false_comp hp h12, or_false_comp hp h13, or_false_comp hp h14, or_false_comp hp h15, 
    or_false_comp hp h16, or_false_comp hp h17, or_false_comp hp h18, or_false_comp hp h19, or_false_comp hp h20, or_false_comp hp h21, or_false_comp hp h22, or_false_comp hp h23, or_false_comp hp h24, or_false_comp hp h25, or_false_comp hp h26, or_false_comp hp h27, or_false_comp hp h28⟩
  unfold State.bit at *; rw [g]; exact b

/-- An update that may change everything but the queue: register file, memory and poisoned words lose entries. -/
theorem updAll {a p : Foot} {s s0 : State} (hp : a.le p) (ha : Foot.all.leb a = true) (h : Follows p s0 s) (hq : q = s.pending)
    (hr : r = s.regs ∨ ∃ f, r = List.filter f s.regs) (hm : m = s.mem ∨ ∃ f, m = List.filter f s.mem)
    (hx : x = s.poison ∨ ∃ f, x = List.filter f s.poison) :
    Follows p s0 ⟨q, r, m, x, clk₁, pwr₁, boot₁, pins₁, tiles₁, elems₁, front₁, slots₁, xng₁, nbrs₁, sec₁, pipes₁, phy₁, engs₁, yrn₁, irq₁, aon₁, lnk₁, pnt₁, flc₁, upd₁, err₁, sys₁, resp₁, ctr₁⟩ := by
  have hs : Foot.all.le p := hp.sub ha
  have no : ∀ k, k < 29 → p.comp k = false → False := fun k hk e => by
    have : Foot.all.comp k = true := by
      have : Foot.all.comp k = decide (k < 29) := Nat.testBit_two_pow_sub_one 29 k
      simp [this, hk]
    rw [hs.comp this] at e; cases e
  refine h.trans ⟨hq, fun c => ?_, fun f e => ?_, fun e => (no 0 (by decide) e).elim, fun e => (no 2 (by decide) e).elim, fun e => (no 3 (by decide) e).elim, fun e => (no 4 (by decide) e).elim, 
    fun e => (no 5 (by decide) e).elim, fun e => (no 6 (by decide) e).elim, fun e => (no 7 (by decide) e).elim, fun e => (no 8 (by decide) e).elim, 
    fun e => (no 9 (by decide) e).elim, fun e => (no 10 (by decide) e).elim, fun e => (no 11 (by decide) e).elim, fun e => (no 12 (by decide) e).elim, 
    fun e => (no 13 (by decide) e).elim, fun e => (no 14 (by decide) e).elim, fun e => (no 15 (by decide) e).elim, fun e => (no 16 (by decide) e).elim, 
    fun e => (no 17 (by decide) e).elim, fun e => (no 18 (by decide) e).elim, fun e => (no 19 (by decide) e).elim, fun e => (no 20 (by decide) e).elim, 
    fun e => (no 21 (by decide) e).elim, fun e => (no 22 (by decide) e).elim, fun e => (no 23 (by decide) e).elim, fun e => (no 24 (by decide) e).elim, 
    fun e => (no 25 (by decide) e).elim, fun e => (no 26 (by decide) e).elim, fun e => (no 27 (by decide) e).elim, fun e => (no 28 (by decide) e).elim⟩
  · rw [canonical_iff] at *
    refine ⟨?_, ?_, ?_⟩
    · rcases hm with e | ⟨f, e⟩ <;> rw [e]
      · exact c.1
      · exact Memory.wf_filter _ _ c.1
    · rcases hr with e | ⟨f, e⟩ <;> rw [e]
      · exact c.2.1
      · exact RegFile.sorted_filter _ _ c.2.1
    · rcases hx with e | ⟨f, e⟩ <;> rw [e]
      · exact c.2.2
      · exact rising_filter _ _ c.2.2
  · have : Foot.all.row f.row = true := rfl
    rw [hs.row this] at e; cases e

/-- A state that differs in its registers, its memory and its poisoned words alone. -/
theorem stores {p : Foot} {s t : State} (he : t = { s with regs := t.regs, mem := t.mem, poison := t.poison })
    (hc : s.canonical = true → t.canonical = true) (hg : ∀ f : Field, p.row f.row = false → t.get f = s.get f)
    (hb : p.comp 0 = false → ∀ i k : Nat, k < 32 → s.bit (R.IRQ_PEND_pend i) k = true → t.bit (R.IRQ_PEND_pend i) k = true)
    (hm : p.comp 2 = false → t.mem = s.mem) (hx : p.comp 3 = false → t.poison = s.poison) : Follows p s t := by
  constructor <;> first | assumption | (intros; rw [he])

end Follows

/-! ### The named updates -/

variable {a p : Foot} {s s0 : State}

theorem State.set_follows (k : Nat) {f : Field} {v : Nat} (hp : a.le p) (h : Follows p s0 s)
    (hk : f.row = k := by rfl) (hr : a.sets k = true := by rfl) : Follows p s0 (s.set f v) := by
  subst hk
  have hs := hp.sets hr
  have one : ∀ g : Field, p.row g.row = false → (s.set f v).get g = s.get g := fun g e => State.get_set_row s f g v fun e' => by
    rw [e', (by simpa [Foot.sets] using hs : p.row f.row = true ∧ _).1] at e; cases e
  refine h.trans (.stores rfl (fun c => ?_) one (fun e i k _ b => ?_) (fun _ => rfl) fun _ => rfl)
  · rw [canonical_iff] at *; exact ⟨c.1, RegFile.sorted_write _ _ _ c.2.1, c.2.2⟩
  · have ne : (R.IRQ_PEND_pend i).row ≠ f.row := fun e' => by
      simp only [Foot.sets, e, Bool.false_or, Bool.and_eq_true, bne_iff_ne, ne_eq] at hs
      exact hs.2 (e'.symm.trans rfl)
    unfold State.bit at *; rw [State.get_set_row _ _ _ _ ne]; exact b

/-- Setting a bit of a field, a pending bit among them, clears none. -/
theorem State.setBit_follows (n : Nat) {f : Field} {k : Nat} (hp : a.le p) (h : Follows p s0 s) (hk : f.row = n := by rfl) (hr : a.row n = true := by rfl)
    (hw : (∃ i, f = R.IRQ_PEND_pend i) ∨ a.sets n = true := by first | exact .inr rfl | exact .inl ⟨_, rfl⟩) : Follows p s0 (s.setBit f k) := by
  subst hk
  rcases hw with ⟨j, rfl⟩ | hw
  · have one : ∀ g : Field, p.row g.row = false → (s.setBit (R.IRQ_PEND_pend j) k).get g = s.get g := fun g e => State.get_set_row s _ g _ fun e' => by
      rw [e', hp.row hr] at e; cases e
    refine h.trans (.stores rfl (fun c => ?_) one (fun _ i b l g => ?_) (fun _ => rfl) fun _ => rfl)
    · rw [canonical_iff] at *; exact ⟨c.1, RegFile.sorted_write _ _ _ c.2.1, c.2.2⟩
    · unfold State.bit at *
      unfold State.setBit
      by_cases e : i = j
      · subst e
        rw [State.get_set_same, Nat.testBit_mod_two_pow, Nat.testBit_or, g]; simp [l]
      · rw [State.get_set_ne _ _ _ _ fun e' => e (congrArg RegKey.idx e')]; exact g
  · exact State.set_follows _ hp h rfl hw

theorem State.clrBit_follows (n : Nat) {f : Field} {k : Nat} (hp : a.le p) (h : Follows p s0 s) (hk : f.row = n := by rfl) (hr : a.sets n = true := by rfl) :
    Follows p s0 (s.clrBit f k) := Follows.ite (State.set_follows _ hp h hk hr) h

theorem State.putBit_follows (n : Nat) {f : Field} {k : Nat} {b : Bool} (hp : a.le p) (h : Follows p s0 s) (hk : f.row = n := by rfl) (hr : a.sets n = true := by rfl) :
    Follows p s0 (s.putBit f k b) := Follows.ite (State.set_follows _ hp h hk hr) (State.clrBit_follows _ hp h hk hr)

theorem State.add_follows (n : Nat) {f : Field} {v : Nat} (hp : a.le p) (h : Follows p s0 s) (hk : f.row = n := by rfl) (hr : a.sets n = true := by rfl) : Follows p s0 (s.add f v) :=
  State.set_follows _ hp h hk hr

theorem State.bump_follows (n : Nat) {f : Field} (hp : a.le p) (h : Follows p s0 s) (hk : f.row = n := by rfl) (hr : a.sets n = true := by rfl) : Follows p s0 (s.bump f) :=
  State.set_follows _ hp h hk hr

theorem State.bumpWrap_follows (n : Nat) {f : Field} (hp : a.le p) (h : Follows p s0 s) (hk : f.row = n := by rfl) (hr : a.sets n = true := by rfl) : Follows p s0 (s.bumpWrap f) :=
  State.set_follows _ hp h hk hr

theorem State.setS_follows (n : Nat) {f : Field} {v : Int} (hp : a.le p) (h : Follows p s0 s) (hk : f.row = n := by rfl) (hr : a.sets n = true := by rfl) : Follows p s0 (s.setS f v) :=
  State.set_follows _ hp h hk hr

theorem State.set2_follows (n : Nat) {f : Nat → Field} {v : Nat} (hp : a.le p) (h : Follows p s0 s) (h0 : (f 0).row = n := by rfl)
    (h1 : (f 1).row = n := by rfl) (hs : a.sets n = true := by rfl) : Follows p s0 (s.set2 f v) :=
  State.set_follows _ hp (State.set_follows _ hp h h0 hs) h1 hs

theorem State.setS2_follows (n : Nat) {f : Nat → Field} {v : Int} (hp : a.le p) (h : Follows p s0 s) (h0 : (f 0).row = n := by rfl)
    (h1 : (f 1).row = n := by rfl) (hs : a.sets n = true := by rfl) : Follows p s0 (s.setS2 f v) := State.set2_follows n hp h h0 h1 hs

theorem State.setTm_follows (m n : Nat) {f w : Nat → Field} {r : TimerRef} {v : Nat} (hp : a.le p) (h : Follows p s0 s)
    (h0 : ∀ i, (f i).row = m := by exact fun _ => rfl) (h1 : ∀ i, (w i).row = n := by exact fun _ => rfl)
    (hr : a.sets m = true := by rfl) (hs : a.sets n = true := by rfl) : Follows p s0 (s.set (tmPick r f w) v) := by
  cases r with
  | hub k => exact State.set_follows _ hp h (h0 _) hr
  | wide k => exact State.set_follows _ hp h (h1 _) hs
  | tile t k => exact State.set_follows _ hp h (h0 _) hr

theorem State.setWide_follows (m n l : Nat) {r : TimerRef} {f lo hi : Nat → Field} {v : Nat} (hp : a.le p) (h : Follows p s0 s)
    (h0 : ∀ i, (f i).row = m := by exact fun _ => rfl) (h1 : ∀ i, (lo i).row = n := by exact fun _ => rfl)
    (h2 : ∀ i, (hi i).row = l := by exact fun _ => rfl) (hr : a.sets m = true := by rfl) (hs : a.sets n = true := by rfl)
    (ht : a.sets l = true := by rfl) : Follows p s0 (s.setWide r f lo hi v) := by
  cases r with
  | hub k => exact State.set_follows _ hp h (h0 _) hr
  | wide k => exact State.set_follows _ hp (State.set_follows _ hp h (h1 _) hs) (h2 _) ht
  | tile t k => exact State.set_follows _ hp h (h0 _) hr

theorem State.setByte_follows {b : Nat} {v : Byte} (hp : a.le p) (h : Follows p s0 s) (hr : a.comp 2 = true := by rfl) :
    Follows p s0 (s.setByte b v) := by
  refine h.trans (.stores rfl (fun c => ?_) (fun _ _ => rfl) (fun _ _ _ _ b => b) (fun e => ?_) fun _ => rfl)
  · rw [canonical_iff] at *; exact ⟨Memory.wf_write _ _ _ c.1, c.2⟩
  · rw [hp.comp hr] at e; cases e

theorem State.setBytes_follows {l : List Byte} {b : Nat} (hp : a.le p) (h : Follows p s0 s) (hr : a.comp 2 = true := by rfl) :
    Follows p s0 (s.setBytes b l) := by
  induction l generalizing s b with
  | nil => exact h
  | cons x rest ih => exact ih (State.setByte_follows hp h hr)

theorem State.clearMem_follows {lo len : Nat} (hp : a.le p) (h : Follows p s0 s) (hr : a.comp 2 = true := by rfl)
    (hs : a.comp 3 = true := by rfl) : Follows p s0 (s.clearMem lo len) := by
  unfold State.clearMem
  exact Follows.update hp h rfl rfl (.inr ⟨hr, _, rfl⟩) (.inr ⟨hs, _, rfl⟩)

theorem State.clrPoison_follows {b : Nat} (hp : a.le p) (h : Follows p s0 s) (hs : a.comp 3 = true := by rfl) :
    Follows p s0 (s.clrPoison b) := by
  unfold State.clrPoison
  exact Follows.update hp h rfl rfl (.inl rfl) (.inr ⟨hs, _, rfl⟩)

theorem State.setPoison_follows {b : Nat} (hp : a.le p) (h : Follows p s0 s) (hr : a.comp 3 = true := by rfl) :
    Follows p s0 (s.setPoison b) := by
  refine h.trans (.stores rfl (fun c => ?_) (fun _ _ => rfl) (fun _ _ _ _ b => b) (fun _ => rfl) fun e => ?_)
  · rw [canonical_iff] at *; exact ⟨c.1, c.2.1, rising_insert _ _ c.2.2⟩
  · rw [hp.comp hr] at e; cases e

end Sys2Proof.Machine
end

