-- ==== Sys2Proof/Laws/FootOps.lean ====
section
/-! SUPPORT. Laws/FootOps.lean: one footprint and one lemma for each operation of
the named operations, the power tree, the elements, the frame buffers and the error records (Laws/Follows.lean). -/

set_option Elab.async false

namespace Sys2Proof.Machine

open Sys2Proof

set_option maxRecDepth 20000

/-! ### Machine/Ops.lean -/

def State.setWord_foot : Foot := ⟨0x4, 0x0⟩

theorem State.setWord_follows {p s0} {a0} {a1} {a2} (hp : Foot.le State.setWord_foot p) (h0 : Follows p s0 a0) :
    Follows p s0 (State.setWord (a0) (a1) (a2)) := by
  unfold State.setWord
  refine State.setBytes_follows hp ?_
  with_reducible assumption

def State.store_foot : Foot := ⟨0xc, 0x0⟩

theorem State.store_follows {p s0} {a0} {a1} {a2} (hp : Foot.le State.store_foot p) (h0 : Follows p s0 a0) :
    Follows p s0 (State.store (a0) (a1) (a2)) := by
  unfold State.store
  extract_lets y0
  have k1 : Follows p s0 y0 := by
    subst y0
    refine State.setBytes_follows hp ?_
    with_reducible assumption
  clear_value y0
  refine Follows.update hp ?_ rfl rfl
  with_reducible assumption

def State.updTile_foot : Foot := ⟨0x100, 0x0⟩

theorem State.updTile_follows {p s0} {a0} {a1} {a2} (hp : Foot.le State.updTile_foot p) (h0 : Follows p s0 a0) :
    Follows p s0 (State.updTile (a0) (a1) (a2)) := by
  unfold State.updTile
  refine Follows.update hp ?_ rfl rfl
  with_reducible assumption

def State.updElem_foot : Foot := ⟨0x200, 0x0⟩

theorem State.updElem_follows {p s0} {a0} {a1} {a2} (hp : Foot.le State.updElem_foot p) (h0 : Follows p s0 a0) :
    Follows p s0 (State.updElem (a0) (a1) (a2)) := by
  unfold State.updElem
  refine Follows.update hp ?_ rfl rfl
  with_reducible assumption

def State.updSlot_foot : Foot := ⟨0x800, 0x0⟩

theorem State.updSlot_follows {p s0} {a0} {a1} {a2} (hp : Foot.le State.updSlot_foot p) (h0 : Follows p s0 a0) :
    Follows p s0 (State.updSlot (a0) (a1) (a2)) := by
  unfold State.updSlot
  refine Follows.update hp ?_ rfl rfl
  with_reducible assumption

def State.updNbr_foot : Foot := ⟨0x2000, 0x0⟩

theorem State.updNbr_follows {p s0} {a0} {a1} {a2} (hp : Foot.le State.updNbr_foot p) (h0 : Follows p s0 a0) :
    Follows p s0 (State.updNbr (a0) (a1) (a2)) := by
  unfold State.updNbr
  refine Follows.update hp ?_ rfl rfl
  with_reducible assumption

def State.updPipe_foot : Foot := ⟨0x8000, 0x0⟩

theorem State.updPipe_follows {p s0} {a0} {a1} {a2} (hp : Foot.le State.updPipe_foot p) (h0 : Follows p s0 a0) :
    Follows p s0 (State.updPipe (a0) (a1) (a2)) := by
  unfold State.updPipe
  refine Follows.update hp ?_ rfl rfl
  with_reducible assumption

def State.updEng_foot : Foot := ⟨0x20000, 0x0⟩

theorem State.updEng_follows {p s0} {a0} {a1} {a2} (hp : Foot.le State.updEng_foot p) (h0 : Follows p s0 a0) :
    Follows p s0 (State.updEng (a0) (a1) (a2)) := by
  unfold State.updEng
  refine Follows.update hp ?_ rfl rfl
  with_reducible assumption

def State.updLink_foot : Foot := ⟨0x200000, 0x0⟩

theorem State.updLink_follows {p s0} {a0} {a1} {a2} (hp : Foot.le State.updLink_foot p) (h0 : Follows p s0 a0) :
    Follows p s0 (State.updLink (a0) (a1) (a2)) := by
  unfold State.updLink
  refine Follows.update hp ?_ rfl rfl
  with_reducible assumption

def State.updFbank_foot : Foot := ⟨0x800000, 0x0⟩

theorem State.updFbank_follows {p s0} {a0} {a1} {a2} (hp : Foot.le State.updFbank_foot p) (h0 : Follows p s0 a0) :
    Follows p s0 (State.updFbank (a0) (a1) (a2)) := by
  unfold State.updFbank
  refine Follows.update hp ?_ rfl rfl
  with_reducible assumption

def State.updBank_foot : Foot := ⟨0x100, 0x0⟩

theorem State.updBank_follows {p s0} {a0} {a1} {a2} {a3} (hp : Foot.le State.updBank_foot p) (h0 : Follows p s0 a0) :
    Follows p s0 (State.updBank (a0) (a1) (a2) (a3)) := by
  unfold State.updBank
  refine State.updTile_follows (hp.sub rfl) ?_
  with_reducible assumption

def State.setDom_foot : Foot := ⟨0x20, 0x0⟩

theorem State.setDom_follows {p s0} {a0} {a1} {a2} (hp : Foot.le State.setDom_foot p) (h0 : Follows p s0 a0) :
    Follows p s0 (State.setDom (a0) (a1) (a2)) := by
  unfold State.setDom
  refine Follows.update hp ?_ rfl rfl
  with_reducible assumption

def State.reach_foot : Foot := ⟨0x10, 0x0⟩

theorem State.reach_follows {p s0} {a0} {a1} (hp : Foot.le State.reach_foot p) (h0 : Follows p s0 a0) :
    Follows p s0 (State.reach (a0) (a1)) := by
  unfold State.reach
  extract_lets y0 y1
  clear_value y0
  clear_value y1
  refine Follows.update hp ?_ rfl rfl
  with_reducible assumption

def State.tickFree_foot : Foot := ⟨0x10000000, 0x0⟩

theorem State.tickFree_follows {p s0} {a0} (hp : Foot.le State.tickFree_foot p) (h0 : Follows p s0 a0) :
    Follows p s0 (State.tickFree (a0)) := by
  unfold State.tickFree
  refine Follows.update hp ?_ rfl rfl
  with_reducible assumption

def State.reply_foot : Foot := ⟨0x8000000, 0x0⟩

theorem State.reply_follows {p s0} {a0} {a1} {a2} (hp : Foot.le State.reply_foot p) (h0 : Follows p s0 a0) :
    Follows p s0 (State.reply (a0) (a1) (a2)) := by
  unfold State.reply
  refine Follows.update hp ?_ rfl rfl
  with_reducible assumption

/-! ### Machine/Flags.lean -/

def State.fire_foot : Foot := ⟨0x0, 0x1000000000000000000⟩

theorem State.fire_follows {p s0} {a0} {a1} (hp : Foot.le State.fire_foot p) (h0 : Follows p s0 a0) :
    Follows p s0 (State.fire (a0) (a1)) := by
  unfold State.fire
  refine Follows.ite ?_ ?_
  · refine State.setBit_follows 72 hp ?_
    with_reducible assumption
  · with_reducible assumption

def State.fireTile_foot : Foot := ⟨0x100, 0x1000000000000000000⟩

theorem State.fireTile_follows {p s0} {a0} {a1} {a2} (hp : Foot.le State.fireTile_foot p) (h0 : Follows p s0 a0) :
    Follows p s0 (State.fireTile (a0) (a1) (a2)) := by
  unfold State.fireTile
  refine Follows.ite ?_ ?_
  · refine State.updTile_follows (hp.sub rfl) ?_
    with_reducible assumption
  · refine State.fire_follows (hp.sub rfl) ?_
    with_reducible assumption

def State.fireHeld_foot : Foot := ⟨0x100, 0x1000000000000000000⟩

theorem State.fireHeld_follows {p s0} {a0} {a1} (hp : Foot.le State.fireHeld_foot p) (h0 : Follows p s0 a0) :
    Follows p s0 (State.fireHeld (a0) (a1)) := by
  unfold State.fireHeld
  refine Follows.ite ?_ ?_
  · with_reducible assumption
  · extract_lets y0
    clear_value y0
    refine Follows.forBits ?_ ?_
    · intro x1 x2 x3
      refine State.fire_follows (hp.sub rfl) ?_
      with_reducible assumption
    · refine State.updTile_follows (hp.sub rfl) ?_
      with_reducible assumption

def State.pmcOverflow_foot : Foot := ⟨0x0, 0x8800000000000000000000000000000000000000000000000000000000000000000000000000000000000000000000000000000000000001000000000000000000⟩

theorem State.pmcOverflow_follows {p s0} {a0} {a1} (hp : Foot.le State.pmcOverflow_foot p) (h0 : Follows p s0 a0) :
    Follows p s0 (State.pmcOverflow (a0) (a1)) := by
  unfold State.pmcOverflow
  extract_lets y0 y1
  have k2 : Follows p s0 y0 := by
    subst y0
    refine State.setBit_follows 519 hp ?_
    with_reducible assumption
  clear_value y0
  have k3 : Follows p s0 y1 := by
    subst y1
    refine Follows.ite ?_ ?_
    · refine State.fire_follows (hp.sub rfl) ?_
      with_reducible assumption
    · with_reducible assumption
  clear_value y1
  refine Follows.ite ?_ ?_
  · refine State.set_follows 515 hp ?_
    with_reducible assumption
  · with_reducible assumption

def State.pmcStep_foot : Foot := ⟨0x4000000, 0x800000000000000000000000000000000000000000000000000000000000000000000000000000000000000000000000000000000000000000000000000000000000⟩

theorem State.pmcStep_follows {p s0} {a0} {a1} {a2} (hp : Foot.le State.pmcStep_foot p) (h0 : Follows p s0 a0) :
    Follows p s0 (State.pmcStep (a0) (a1) (a2)).1 := by
  unfold State.pmcStep
  extract_lets y0 y1 y2
  clear_value y0
  have k3 : Follows p s0 y1 := by
    subst y1
    refine State.set_follows 527 hp ?_
    with_reducible assumption
  clear_value y1
  clear_value y2
  refine Follows.ite1 ?_ ?_
  · refine Follows.pair ?_
    refine State.set_follows 527 hp ?_
    with_reducible assumption
  · refine Follows.ite1 ?_ ?_
    · refine Follows.pair ?_
      refine Follows.update hp ?_ rfl rfl
      with_reducible assumption
    · refine Follows.pair ?_
      refine State.set_follows 527 hp ?_
      with_reducible assumption

def State.pmcAdd_foot : Foot := ⟨0x4000000, 0xe808800000000000000000000000000000000000000000000000000000000000000000000000000000000000000000000000000000000000001000000000000000000⟩

theorem State.pmcAdd_follows {p s0} {a0} {a1} {a2} {a3} (hp : Foot.le State.pmcAdd_foot p) (h0 : Follows p s0 a0) :
    Follows p s0 (State.pmcAdd (a0) (a1) (a2) (a3)) := by
  unfold State.pmcAdd
  split
  · rename_i z0 z1 z2 z3
    have k4 : Follows p s0 z1 := by
      refine Follows.fst_eq ?_ z3
      refine State.pmcStep_follows (hp.sub rfl) ?_
      with_reducible assumption
    refine Follows.ite ?_ ?_
    · with_reducible assumption
    · refine Follows.ite ?_ ?_
      · split
        · rename_i z5 z6 z7 z8
          have k9 : Follows p s0 z6 := by
            refine Follows.fst_eq ?_ z8
            refine State.pmcStep_follows (hp.sub rfl) ?_
            with_reducible assumption
          refine Follows.ite ?_ ?_
          · refine State.pmcOverflow_follows (hp.sub rfl) ?_
            with_reducible assumption
          · with_reducible assumption
      · extract_lets y10
        have k11 : Follows p s0 y10 := by
          subst y10
          split
          · refine Follows.ite ?_ ?_
            · with_reducible assumption
            · refine State.set_follows 531 hp ?_
              refine State.set_follows 530 hp ?_
              refine State.set_follows 529 hp ?_
              with_reducible assumption
          · with_reducible assumption
        clear_value y10
        refine State.pmcOverflow_follows (hp.sub rfl) ?_
        with_reducible assumption

def State.pmcAt_foot : Foot := ⟨0x4000000, 0xe808800000000000000000000000000000000000000000000000000000000000000000000000000000000000000000000000000000000000001000000000000000000⟩

theorem State.pmcAt_follows {p s0} {a0} {a1} {a2} {a3} {a4} (hp : Foot.le State.pmcAt_foot p) (h0 : Follows p s0 a0) :
    Follows p s0 (State.pmcAt (a0) (a1) (a2) (a3) (a4)) := by
  unfold State.pmcAt
  refine Follows.ite ?_ ?_
  · with_reducible assumption
  · refine Follows.foldl ?_ ?_
    · intro x0 x1 x2
      refine Follows.ite ?_ ?_
      · refine State.pmcAdd_follows (hp.sub rfl) ?_
        with_reducible assumption
      · with_reducible assumption
    · with_reducible assumption

def State.pmc_foot : Foot := ⟨0x4000000, 0xe808800000000000000000000000000000000000000000000000000000000000000000000000000000000000000000000000000000000000001000000000000000000⟩

theorem State.pmc_follows {p s0} {a0} {a1} {a2} (hp : Foot.le State.pmc_foot p) (h0 : Follows p s0 a0) :
    Follows p s0 (State.pmc (a0) (a1) (a2)) := by
  unfold State.pmc
  refine State.pmcAt_follows (hp.sub rfl) ?_
  with_reducible assumption

def State.pmcSnapshot_foot : Foot := ⟨0x0, 0x1002000000000000000000000000000000000000000000000000000000000000000000000000000000000000000000000000000000000000000000000000000000000⟩

theorem State.pmcSnapshot_follows {p s0} {a0} (hp : Foot.le State.pmcSnapshot_foot p) (h0 : Follows p s0 a0) :
    Follows p s0 (State.pmcSnapshot (a0)) := by
  unfold State.pmcSnapshot
  refine State.set_follows 517 hp ?_
  refine Follows.forAll ?_ ?_
  · intro x0 x1 x2
    refine State.set_follows 528 hp ?_
    with_reducible assumption
  · with_reducible assumption

def State.produce_foot : Foot := ⟨0x40000, 0x0⟩

theorem State.produce_follows {p s0} {a0} {a1} {a2} {a3} (hp : Foot.le State.produce_foot p) (h0 : Follows p s0 a0) :
    Follows p s0 (State.produce (a0) (a1) (a2) (a3)) := by
  unfold State.produce
  refine Follows.ite ?_ ?_
  · refine Follows.update hp ?_ rfl rfl
    with_reducible assumption
  · with_reducible assumption

def State.yarn_foot : Foot := ⟨0x40000, 0x0⟩

theorem State.yarn_follows {p s0} {a0} {a1} (hp : Foot.le State.yarn_foot p) (h0 : Follows p s0 a0) :
    Follows p s0 (State.yarn (a0) (a1)) := by
  unfold State.yarn
  refine State.produce_follows (hp.sub rfl) ?_
  with_reducible assumption

def State.tileYarn_foot : Foot := ⟨0x40000, 0x0⟩

theorem State.tileYarn_follows {p s0} {a0} {a1} {a2} (hp : Foot.le State.tileYarn_foot p) (h0 : Follows p s0 a0) :
    Follows p s0 (State.tileYarn (a0) (a1) (a2)) := by
  unfold State.tileYarn
  refine State.produce_follows (hp.sub rfl) ?_
  with_reducible assumption

def State.cellStep_foot : Foot := ⟨0x40000, 0xc00000000000000000000000⟩

theorem State.cellStep_follows {p s0} {a0} {a1} {a2} {a3} {a4} (hp : Foot.le State.cellStep_foot p) (h4 : Follows p s0 a4) :
    Follows p s0 (State.cellStep (a0) (a1) (a2) (a3) (a4)) := by
  unfold State.cellStep
  extract_lets y0 y1 y2 y3 y4 y5 y6 y7
  clear_value y0
  clear_value y1
  clear_value y2
  clear_value y3
  clear_value y4
  have k8 : Follows p s0 y5 := by
    subst y5
    refine State.set_follows 95 hp ?_
    refine State.set_follows 94 hp ?_
    with_reducible assumption
  clear_value y5
  clear_value y6
  have k9 : Follows p s0 y7 := by
    subst y7
    refine Follows.update hp ?_ rfl rfl
    with_reducible assumption
  clear_value y7
  refine Follows.ite ?_ ?_
  · with_reducible assumption
  · refine Follows.ite ?_ ?_
    · refine State.produce_follows (hp.sub rfl) ?_
      with_reducible assumption
    · with_reducible assumption

def State.gpDrive_foot : Foot := ⟨0x80, 0x0⟩

theorem State.gpDrive_follows {p s0} {a0} {a1} {a2} (hp : Foot.le State.gpDrive_foot p) (h0 : Follows p s0 a0) :
    Follows p s0 (State.gpDrive (a0) (a1) (a2)) := by
  unfold State.gpDrive
  refine Follows.ite ?_ ?_
  · with_reducible assumption
  · refine Follows.update hp ?_ rfl rfl
    with_reducible assumption

def State.gpCycle_foot : Foot := ⟨0x80, 0x0⟩

theorem State.gpCycle_follows {p s0} {a0} (hp : Foot.le State.gpCycle_foot p) (h0 : Follows p s0 a0) :
    Follows p s0 (State.gpCycle (a0)) := by
  unfold State.gpCycle
  extract_lets y0 y1 y2 y3
  clear_value y0
  clear_value y1
  clear_value y2
  have k4 : Follows p s0 y3 := by
    subst y3
    refine Follows.update hp ?_ rfl rfl
    with_reducible assumption
  clear_value y3
  refine Follows.forAll ?_ ?_
  · intro x5 x6 x7
    extract_lets y8 y9 y10 y11
    clear_value y8
    clear_value y9
    have k12 : Follows p s0 y10 := by
      subst y10
      refine Follows.ite ?_ ?_
      · with_reducible assumption
      · refine Follows.update hp ?_ rfl rfl
        with_reducible assumption
    clear_value y10
    have k13 : Follows p s0 y11 := by
      subst y11
      refine Follows.ite ?_ ?_
      · refine State.gpDrive_follows (hp.sub rfl) ?_
        with_reducible assumption
      · with_reducible assumption
    clear_value y11
    refine Follows.ite ?_ ?_
    · refine State.gpDrive_follows (hp.sub rfl) ?_
      with_reducible assumption
    · with_reducible assumption
  · with_reducible assumption

def State.gpEvent_foot : Foot := ⟨0x80, 0x2000001000000000000000000⟩

theorem State.gpEvent_follows {p s0} {a0} {a1} (hp : Foot.le State.gpEvent_foot p) (h0 : Follows p s0 a0) :
    Follows p s0 (State.gpEvent (a0) (a1)) := by
  unfold State.gpEvent
  refine Follows.forAll ?_ ?_
  · intro x0 x1 x2
    refine Follows.ite ?_ ?_
    · with_reducible assumption
    · refine Follows.ite ?_ ?_
      · refine Follows.ite ?_ ?_
        · refine State.fire_follows (hp.sub rfl) ?_
          refine State.set_follows 97 hp ?_
          with_reducible assumption
        · extract_lets y3 y4
          have k5 : Follows p s0 y3 := by
            subst y3
            refine State.gpDrive_follows (hp.sub rfl) ?_
            with_reducible assumption
          clear_value y3
          clear_value y4
          refine Follows.update hp ?_ rfl rfl
          with_reducible assumption
      · refine Follows.ite ?_ ?_
        · refine State.gpDrive_follows (hp.sub rfl) ?_
          with_reducible assumption
        · with_reducible assumption
  · with_reducible assumption

def State.hubImport_foot : Foot := ⟨0x40000, 0x401000000000000000000⟩

theorem State.hubImport_follows {p s0} {a0} {a1} {a2} (hp : Foot.le State.hubImport_foot p) (h0 : Follows p s0 a0) :
    Follows p s0 (State.hubImport (a0) (a1) (a2)) := by
  unfold State.hubImport
  extract_lets y0 y1
  clear_value y0
  clear_value y1
  refine Follows.ite ?_ ?_
  · refine Follows.update hp ?_ rfl rfl
    with_reducible assumption
  · refine State.fire_follows (hp.sub rfl) ?_
    refine State.set_follows 82 hp ?_
    with_reducible assumption

def State.tileImport_foot : Foot := ⟨0x40000, 0x2000000000000000000000000000000000000000000000000000000000000000000000001000000000000000000⟩

theorem State.tileImport_follows {p s0} {a0} {a1} (hp : Foot.le State.tileImport_foot p) (h0 : Follows p s0 a0) :
    Follows p s0 (State.tileImport (a0) (a1)) := by
  unfold State.tileImport
  extract_lets y0 y1
  clear_value y0
  clear_value y1
  refine Follows.ite ?_ ?_
  · with_reducible assumption
  · refine Follows.ite ?_ ?_
    · refine Follows.update hp ?_ rfl rfl
      with_reducible assumption
    · refine State.fire_follows (hp.sub rfl) ?_
      refine State.set_follows 361 hp ?_
      with_reducible assumption

def State.fabricStop_foot : Foot := ⟨0x40000, 0x0⟩

theorem State.fabricStop_follows {p s0} {a0} {a1} (hp : Foot.le State.fabricStop_foot p) (h0 : Follows p s0 a0) :
    Follows p s0 (State.fabricStop (a0) (a1)) := by
  unfold State.fabricStop
  extract_lets y0 y1
  clear_value y0
  clear_value y1
  refine Follows.update hp ?_ rfl rfl
  with_reducible assumption

def State.yarnFlags_foot : Foot := ⟨0x40180, 0x1002000000000000000000000000000000000000002800000000000000000000000000000000000000000000000000000000000000002000501000000000000000000⟩

theorem State.yarnFlags_follows {p s0} {a0} {a1} {a2} (hp : Foot.le State.yarnFlags_foot p) (h0 : Follows p s0 a0) :
    Follows p s0 (State.yarnFlags (a0) (a1) (a2)) := by
  unfold State.yarnFlags
  refine Follows.ite ?_ ?_
  · extract_lets y0 y1 y2 y3
    have k4 : Follows p s0 y0 := by
      subst y0
      refine Follows.ite ?_ ?_
      · refine State.pmcSnapshot_follows (hp.sub rfl) ?_
        with_reducible assumption
      · with_reducible assumption
    clear_value y0
    have k5 : Follows p s0 y1 := by
      subst y1
      refine State.setBit_follows 80 hp ?_
      with_reducible assumption
    clear_value y1
    have k6 : Follows p s0 y2 := by
      subst y2
      refine Follows.forAll ?_ ?_
      · intro x7 x8 x9
        refine Follows.ite ?_ ?_
        · refine State.fire_follows (hp.sub rfl) ?_
          with_reducible assumption
        · with_reducible assumption
      · with_reducible assumption
    clear_value y2
    have k10 : Follows p s0 y3 := by
      subst y3
      refine Follows.forAll ?_ ?_
      · intro x11 x12 x13
        refine Follows.ite ?_ ?_
        · refine State.tileImport_follows (hp.sub rfl) ?_
          with_reducible assumption
        · with_reducible assumption
      · with_reducible assumption
    clear_value y3
    refine State.gpEvent_follows (hp.sub rfl) ?_
    with_reducible assumption
  · extract_lets y14 y15 y16
    clear_value y14
    have k17 : Follows p s0 y15 := by
      subst y15
      refine State.setBit_follows 359 hp ?_
      with_reducible assumption
    clear_value y15
    have k18 : Follows p s0 y16 := by
      subst y16
      refine Follows.forAll ?_ ?_
      · intro x19 x20 x21
        refine Follows.ite ?_ ?_
        · refine State.fireTile_follows (hp.sub rfl) ?_
          with_reducible assumption
        · with_reducible assumption
      · with_reducible assumption
    clear_value y16
    refine Follows.forAll ?_ ?_
    · intro x22 x23 x24
      refine Follows.ite ?_ ?_
      · refine State.hubImport_follows (hp.sub rfl) ?_
        with_reducible assumption
      · with_reducible assumption
    · with_reducible assumption

/-! ### Machine/Power.lean -/

def State.railSpan_foot : Foot := ⟨0x20, 0x0⟩

theorem State.railSpan_follows {p s0} {a0} {a1} {a2} (hp : Foot.le State.railSpan_foot p) (h0 : Follows p s0 a0) :
    Follows p s0 (State.railSpan (a0) (a1) (a2)) := by
  unfold State.railSpan
  extract_lets y0 y1
  clear_value y0
  clear_value y1
  refine Follows.update hp ?_ rfl rfl
  with_reducible assumption

def State.enableRail_foot : Foot := ⟨0x20, 0x0⟩

theorem State.enableRail_follows {p s0} {a0} {a1} (hp : Foot.le State.enableRail_foot p) (h0 : Follows p s0 a0) :
    Follows p s0 (State.enableRail (a0) (a1)) := by
  unfold State.enableRail
  refine Follows.ite ?_ ?_
  · refine Follows.update hp ?_ rfl rfl
    with_reducible assumption
  · refine Follows.ite ?_ ?_
    · with_reducible assumption
    · extract_lets y0 y1
      have k2 : Follows p s0 y0 := by
        subst y0
        refine State.railSpan_follows (hp.sub rfl) ?_
        with_reducible assumption
      clear_value y0
      clear_value y1
      refine Follows.update hp ?_ rfl rfl
      with_reducible assumption

def State.raiseRf_foot : Foot := ⟨0x20, 0x0⟩

theorem State.raiseRf_follows {p s0} {a0} (hp : Foot.le State.raiseRf_foot p) (h0 : Follows p s0 a0) :
    Follows p s0 (State.raiseRf (a0)) := by
  unfold State.raiseRf
  refine Follows.ite ?_ ?_
  · with_reducible assumption
  · refine Follows.ite ?_ ?_
    · refine State.enableRail_follows (hp.sub rfl) ?_
      with_reducible assumption
    · refine Follows.ite ?_ ?_
      · refine State.enableRail_follows (hp.sub rfl) ?_
        with_reducible assumption
      · with_reducible assumption

def State.refreshMode_foot : Foot := ⟨0x20, 0x0⟩

theorem State.refreshMode_follows {p s0} {a0} (hp : Foot.le State.refreshMode_foot p) (h0 : Follows p s0 a0) :
    Follows p s0 (State.refreshMode (a0)) := by
  unfold State.refreshMode
  refine Follows.ite ?_ ?_
  · with_reducible assumption
  · refine Follows.ite ?_ ?_
    · refine Follows.update hp ?_ rfl rfl
      with_reducible assumption
    · extract_lets y0 y1
      clear_value y0
      clear_value y1
      refine Follows.update hp ?_ rfl rfl
      with_reducible assumption

def State.beginDom_foot : Foot := ⟨0x20, 0x0⟩

theorem State.beginDom_follows {p s0} {a0} {a1} {a2} (hp : Foot.le State.beginDom_foot p) (h0 : Follows p s0 a0) :
    Follows p s0 (State.beginDom (a0) (a1) (a2)) := by
  unfold State.beginDom
  extract_lets y0 y1 y2 y3
  clear_value y0
  clear_value y1
  have k4 : Follows p s0 y2 := by
    subst y2
    refine State.setDom_follows (hp.sub rfl) ?_
    with_reducible assumption
  clear_value y2
  clear_value y3
  refine Follows.update hp ?_ rfl rfl
  with_reducible assumption

def State.domSpan_foot : Foot := ⟨0x10, 0x0⟩

theorem State.domSpan_follows {p s0} {a0} {a1} (hp : Foot.le State.domSpan_foot p) (h0 : Follows p s0 a0) :
    Follows p s0 (State.domSpan (a0) (a1)) := by
  unfold State.domSpan
  refine State.reach_follows (hp.sub rfl) ?_
  with_reducible assumption

def State.settleHub_foot : Foot := ⟨0x20, 0x0⟩

theorem State.settleHub_follows {p s0} {a0} (hp : Foot.le State.settleHub_foot p) (h0 : Follows p s0 a0) :
    Follows p s0 (State.settleHub (a0)) := by
  unfold State.settleHub
  split
  · refine State.setDom_follows (hp.sub rfl) ?_
    with_reducible assumption
  · refine Follows.update hp ?_ rfl rfl
    with_reducible assumption
  · refine State.beginDom_follows (hp.sub rfl) ?_
    with_reducible assumption
  · with_reducible assumption

def State.refreshDep_foot : Foot := ⟨0x20, 0x4000000⟩

theorem State.refreshDep_follows {p s0} {a0} (hp : Foot.le State.refreshDep_foot p) (h0 : Follows p s0 a0) :
    Follows p s0 (State.refreshDep (a0)) := by
  unfold State.refreshDep
  refine State.settleHub_follows (hp.sub rfl) ?_
  refine State.putBit_follows 26 hp ?_
  with_reducible assumption

def State.riseDom_foot : Foot := ⟨0x20, 0x4000000⟩

theorem State.riseDom_follows {p s0} {a0} {a1} (hp : Foot.le State.riseDom_foot p) (h0 : Follows p s0 a0) :
    Follows p s0 (State.riseDom (a0) (a1)) := by
  unfold State.riseDom
  extract_lets y0
  have k1 : Follows p s0 y0 := by
    subst y0
    refine State.refreshDep_follows (hp.sub rfl) ?_
    refine State.beginDom_follows (hp.sub rfl) ?_
    with_reducible assumption
  clear_value y0
  refine State.refreshMode_follows (hp.sub rfl) ?_
  refine Follows.ite ?_ ?_
  · refine State.raiseRf_follows (hp.sub rfl) ?_
    with_reducible assumption
  · with_reducible assumption

def State.settle_foot : Foot := ⟨0x20, 0x4000000⟩

theorem State.settle_follows {p s0} {a0} {a1} (hp : Foot.le State.settle_foot p) (h0 : Follows p s0 a0) :
    Follows p s0 (State.settle (a0) (a1)) := by
  unfold State.settle
  refine Follows.ite ?_ ?_
  · refine State.settleHub_follows (hp.sub rfl) ?_
    with_reducible assumption
  · split
    · refine Follows.ite ?_ ?_
      · refine State.setDom_follows (hp.sub rfl) ?_
        with_reducible assumption
      · refine Follows.ite ?_ ?_
        · refine State.riseDom_follows (hp.sub rfl) ?_
          with_reducible assumption
        · with_reducible assumption
    · refine State.setDom_follows (hp.sub rfl) ?_
      with_reducible assumption
    · refine Follows.update hp ?_ rfl rfl
      with_reducible assumption
    · refine State.beginDom_follows (hp.sub rfl) ?_
      with_reducible assumption
    · with_reducible assumption

def State.vote_foot : Foot := ⟨0x20, 0x4000000⟩

theorem State.vote_follows {p s0} {a0} {a1} {a2} (hp : Foot.le State.vote_foot p) (h0 : Follows p s0 a0) :
    Follows p s0 (State.vote (a0) (a1) (a2)) := by
  unfold State.vote
  refine State.settle_follows (hp.sub rfl) ?_
  refine State.setBit_follows 26 hp ?_
  with_reducible assumption

def State.unvote_foot : Foot := ⟨0x20, 0x4000000⟩

theorem State.unvote_follows {p s0} {a0} {a1} {a2} (hp : Foot.le State.unvote_foot p) (h0 : Follows p s0 a0) :
    Follows p s0 (State.unvote (a0) (a1) (a2)) := by
  unfold State.unvote
  refine State.settle_follows (hp.sub rfl) ?_
  refine State.clrBit_follows 26 hp ?_
  with_reducible assumption

def State.putVote_foot : Foot := ⟨0x20, 0x4000000⟩

theorem State.putVote_follows {p s0} {a0} {a1} {a2} {a3} (hp : Foot.le State.putVote_foot p) (h0 : Follows p s0 a0) :
    Follows p s0 (State.putVote (a0) (a1) (a2) (a3)) := by
  unfold State.putVote
  refine Follows.ite ?_ ?_
  · refine State.vote_follows (hp.sub rfl) ?_
    with_reducible assumption
  · refine State.unvote_follows (hp.sub rfl) ?_
    with_reducible assumption

def State.setWk_foot : Foot := ⟨0x0, 0x40000000000000000000000000000000000000000000000000000000000000000000000000000000000000000000000000000000000000000000000000000000000000000000000⟩

theorem State.setWk_follows {p s0} {a0} {a1} {a2} (hp : Foot.le State.setWk_foot p) (h0 : Follows p s0 a0) :
    Follows p s0 (State.setWk (a0) (a1) (a2)) := by
  unfold State.setWk
  refine State.set_follows 570 hp ?_
  with_reducible assumption

def State.wkBlank_foot : Foot := ⟨0x0, 0x40000000000000000000000000000000000000000000000000000000000000000000000000000000000000000000000000000000000000000000000000000000000000000000000⟩

theorem State.wkBlank_follows {p s0} {a0} (hp : Foot.le State.wkBlank_foot p) (h0 : Follows p s0 a0) :
    Follows p s0 (State.wkBlank (a0)) := by
  unfold State.wkBlank
  refine Follows.forAll ?_ ?_
  · intro x0 x1 x2
    refine Follows.ite ?_ ?_
    · with_reducible assumption
    · refine State.setWk_follows (hp.sub rfl) ?_
      with_reducible assumption
  · with_reducible assumption

def State.wkResume_foot : Foot := ⟨0x0, 0x40000000000000000000000000000000000000000000000000000000000000000000000000000000000000000000000000000000000000000000000000000000000000000000000⟩

theorem State.wkResume_follows {p s0} {a0} (hp : Foot.le State.wkResume_foot p) (h0 : Follows p s0 a0) :
    Follows p s0 (State.wkResume (a0)) := by
  unfold State.wkResume
  refine Follows.forAll ?_ ?_
  · intro x0 x1 x2
    refine Follows.ite ?_ ?_
    · refine State.setWk_follows (hp.sub rfl) ?_
      with_reducible assumption
    · with_reducible assumption
  · with_reducible assumption

/-! ### Machine/Elements.lean -/

def State.refreshLocks_foot : Foot := ⟨0x0, 0x600000000000000000000000000000000000000000000000000000000000000000000000000⟩

theorem State.refreshLocks_follows {p s0} {a0} (hp : Foot.le State.refreshLocks_foot p) (h0 : Follows p s0 a0) :
    Follows p s0 (State.refreshLocks (a0)) := by
  unfold State.refreshLocks
  extract_lets y0 y1 y2
  clear_value y0
  clear_value y1
  clear_value y2
  refine State.set_follows 297 hp ?_
  refine State.set_follows 298 hp ?_
  with_reducible assumption

def State.recomputeLive_foot : Foot := ⟨0x100, 0x0⟩

theorem State.recomputeLive_follows {p s0} {a0} {a1} (hp : Foot.le State.recomputeLive_foot p) (h0 : Follows p s0 a0) :
    Follows p s0 (State.recomputeLive (a0) (a1)) := by
  unfold State.recomputeLive
  refine State.updTile_follows (hp.sub rfl) ?_
  with_reducible assumption

def State.maskNow_foot : Foot := ⟨0x300, 0x2000000000000000000000000000000000000000000000000000000000000000000000000000000⟩

theorem State.maskNow_follows {p s0} {a0} {a1} (hp : Foot.le State.maskNow_foot p) (h0 : Follows p s0 a0) :
    Follows p s0 (State.maskNow (a0) (a1)) := by
  unfold State.maskNow
  refine Follows.ite ?_ ?_
  · with_reducible assumption
  · refine State.recomputeLive_follows (hp.sub rfl) ?_
    refine State.updElem_follows (hp.sub rfl) ?_
    refine State.set_follows 313 hp ?_
    with_reducible assumption

def State.dcCheck_foot : Foot := ⟨0x300, 0x22000000000000000000000000000000000000000000000000000000000001000000000000000000⟩

theorem State.dcCheck_follows {p s0} {a0} {a1} (hp : Foot.le State.dcCheck_foot p) (h0 : Follows p s0 a0) :
    Follows p s0 (State.dcCheck (a0) (a1)) := by
  unfold State.dcCheck
  refine Follows.ite ?_ ?_
  · with_reducible assumption
  · extract_lets y0 y1 y2
    clear_value y0
    have k3 : Follows p s0 y1 := by
      subst y1
      refine State.set_follows 317 hp ?_
      with_reducible assumption
    clear_value y1
    have k4 : Follows p s0 y2 := by
      subst y2
      refine Follows.ite ?_ ?_
      · with_reducible assumption
      · refine State.fireTile_follows (hp.sub rfl) ?_
        with_reducible assumption
    clear_value y2
    refine Follows.ite ?_ ?_
    · refine State.maskNow_follows (hp.sub rfl) ?_
      with_reducible assumption
    · with_reducible assumption

def State.setFine_foot : Foot := ⟨0x200, 0x0⟩

theorem State.setFine_follows {p s0} {a0} {a1} {a2} {a3} (hp : Foot.le State.setFine_foot p) (h0 : Follows p s0 a0) :
    Follows p s0 (State.setFine (a0) (a1) (a2) (a3)) := by
  unfold State.setFine
  refine State.updElem_follows (hp.sub rfl) ?_
  with_reducible assumption

def State.restoreRx_foot : Foot := ⟨0x300, 0x22000000000000000000000000000000000000000000000000000000000001000000000000000000⟩

theorem State.restoreRx_follows {p s0} {a0} {a1} (hp : Foot.le State.restoreRx_foot p) (h0 : Follows p s0 a0) :
    Follows p s0 (State.restoreRx (a0) (a1)) := by
  unfold State.restoreRx
  refine Follows.ite ?_ ?_
  · with_reducible assumption
  · extract_lets y0 y1 y2 y3
    clear_value y0
    clear_value y1
    clear_value y2
    have k4 : Follows p s0 y3 := by
      subst y3
      refine State.setFine_follows (hp.sub rfl) ?_
      with_reducible assumption
    clear_value y3
    refine State.dcCheck_follows (hp.sub rfl) ?_
    refine State.updElem_follows (hp.sub rfl) ?_
    with_reducible assumption

def State.restoreTx_foot : Foot := ⟨0x200, 0x0⟩

theorem State.restoreTx_follows {p s0} {a0} {a1} (hp : Foot.le State.restoreTx_foot p) (h0 : Follows p s0 a0) :
    Follows p s0 (State.restoreTx (a0) (a1)) := by
  unfold State.restoreTx
  refine Follows.ite ?_ ?_
  · with_reducible assumption
  · extract_lets y0
    clear_value y0
    refine State.updElem_follows (hp.sub rfl) ?_
    with_reducible assumption

def State.restoreTile_foot : Foot := ⟨0x300, 0x22000000000000000000000000000000000000000000000000000000000001000000000000000000⟩

theorem State.restoreTile_follows {p s0} {a0} {a1} (hp : Foot.le State.restoreTile_foot p) (h0 : Follows p s0 a0) :
    Follows p s0 (State.restoreTile (a0) (a1)) := by
  unfold State.restoreTile
  split
  · refine Follows.forAll ?_ ?_
    · intro x2 x3 x4
      refine State.restoreRx_follows (hp.sub rfl) ?_
      with_reducible assumption
    · with_reducible assumption
  · refine Follows.forAll ?_ ?_
    · intro x7 x8 x9
      refine State.restoreTx_follows (hp.sub rfl) ?_
      with_reducible assumption
    · with_reducible assumption
  · with_reducible assumption

def State.writeBackFine_foot : Foot := ⟨0x0, 0x180000000000000000000000000000000000000000000000000000000000000000000000000000000000⟩

theorem State.writeBackFine_follows {p s0} {a0} {a1} (hp : Foot.le State.writeBackFine_foot p) (h0 : Follows p s0 a0) :
    Follows p s0 (State.writeBackFine (a0) (a1)) := by
  unfold State.writeBackFine
  extract_lets y0 y1
  clear_value y0
  clear_value y1
  refine State.setS_follows 331 hp ?_
  refine State.setS_follows 332 hp ?_
  with_reducible assumption

def State.elemUpdate_foot : Foot := ⟨0x200, 0x183000000000000000000000000000000000000000000000000000000000000000000000000000000⟩

theorem State.elemUpdate_follows {p s0} {a0} {a1} {a2} (hp : Foot.le State.elemUpdate_foot p) (h0 : Follows p s0 a0) :
    Follows p s0 (State.elemUpdate (a0) (a1) (a2)) := by
  unfold State.elemUpdate
  extract_lets y0 y1 y2
  have k3 : Follows p s0 y0 := by
    subst y0
    refine State.set_follows 312 hp ?_
    refine State.set_follows 320 hp ?_
    refine State.set_follows 319 hp ?_
    with_reducible assumption
  clear_value y0
  clear_value y1
  have k4 : Follows p s0 y2 := by
    subst y2
    refine Follows.ite ?_ ?_
    · refine State.updElem_follows (hp.sub rfl) ?_
      with_reducible assumption
    · with_reducible assumption
  clear_value y2
  refine Follows.ite ?_ ?_
  · refine State.set_follows 313 hp ?_
    with_reducible assumption
  · refine Follows.ite ?_ ?_
    · refine State.set_follows 313 hp ?_
      with_reducible assumption
    · with_reducible assumption

def State.armTile_foot : Foot := ⟨0x0, 0x1000000000000000000000000000000000000000000000000000000000000000000000000000000⟩

theorem State.armTile_follows {p s0} {a0} {a1} (hp : Foot.le State.armTile_foot p) (h0 : Follows p s0 a0) :
    Follows p s0 (State.armTile (a0) (a1)) := by
  unfold State.armTile
  refine Follows.forAll ?_ ?_
  · intro x0 x1 x2
    refine State.set_follows 312 hp ?_
    with_reducible assumption
  · with_reducible assumption

def State.applyBackoff_foot : Foot := ⟨0x4040800, 0xe8088000000000000000000000000000000000000000000000000000fc000001000000000000000000000000000000000000000000000000001000000000000000000⟩

theorem State.applyBackoff_follows {p s0} {a0} {a1} {a2} {a3} (hp : Foot.le State.applyBackoff_foot p) (h0 : Follows p s0 a0) :
    Follows p s0 (State.applyBackoff (a0) (a1) (a2) (a3)) := by
  unfold State.applyBackoff
  extract_lets y0 y1 y2 y3 y4 y5 y6 y7 y8
  clear_value y0
  clear_value y1
  clear_value y2
  clear_value y3
  have k9 : Follows p s0 y4 := by
    subst y4
    refine Follows.ite ?_ ?_
    · refine State.pmc_follows (hp.sub rfl) ?_
      refine State.fire_follows (hp.sub rfl) ?_
      refine State.yarn_follows (hp.sub rfl) ?_
      refine State.bump_follows 276 hp ?_
      refine State.setBit_follows 303 hp ?_
      with_reducible assumption
    · with_reducible assumption
  clear_value y4
  have k10 : Follows p s0 y5 := by
    subst y5
    refine Follows.ite ?_ ?_
    · refine State.fire_follows (hp.sub rfl) ?_
      refine State.setBit_follows 302 hp ?_
      with_reducible assumption
    · with_reducible assumption
  clear_value y5
  have k11 : Follows p s0 y6 := by
    subst y6
    refine State.updSlot_follows (hp.sub rfl) ?_
    with_reducible assumption
  clear_value y6
  clear_value y7
  clear_value y8
  refine State.set_follows 307 hp ?_
  refine State.set_follows 306 hp ?_
  refine State.set_follows 305 hp ?_
  refine State.set_follows 304 hp ?_
  with_reducible assumption

def State.govern_foot : Foot := ⟨0x4040800, 0xe8088000000000000000000000000000000000000000000000000000fc000001000000000000000000000000000000000000000000000000001000000000000000000⟩

theorem State.govern_follows {p s0} {a0} (hp : Foot.le State.govern_foot p) (h0 : Follows p s0 a0) :
    Follows p s0 (State.govern (a0)) := by
  unfold State.govern
  extract_lets y0 y1 y2 y3 y4 y5 y6 y7 y8 y9
  clear_value y0
  clear_value y1
  clear_value y2
  clear_value y3
  clear_value y4
  clear_value y5
  clear_value y6
  clear_value y7
  clear_value y8
  clear_value y9
  refine Follows.foldl ?_ ?_
  · intro x10 x11 x12
    extract_lets y13
    clear_value y13
    refine State.applyBackoff_follows (hp.sub rfl) ?_
    with_reducible assumption
  · with_reducible assumption

def State.updatePoint_foot : Foot := ⟨0x4040b00, 0xe8088000000000000000000000000000000000000000000000001830fc000001000000000000000000000000000000000000000000000000001000000000000000000⟩

theorem State.updatePoint_follows {p s0} {a0} {a1} (hp : Foot.le State.updatePoint_foot p) (h0 : Follows p s0 a0) :
    Follows p s0 (State.updatePoint (a0) (a1)) := by
  unfold State.updatePoint
  extract_lets y0 y1 y2 y3
  clear_value y0
  clear_value y1
  have k4 : Follows p s0 y2 := by
    subst y2
    refine State.recomputeLive_follows (hp.sub rfl) ?_
    refine Follows.forAll ?_ ?_
    · intro x5 x6 x7
      refine State.elemUpdate_follows (hp.sub rfl) ?_
      with_reducible assumption
    · with_reducible assumption
  clear_value y2
  clear_value y3
  refine Follows.ite ?_ ?_
  · refine State.govern_follows (hp.sub rfl) ?_
    with_reducible assumption
  · with_reducible assumption

def State.tileRadio_foot : Foot := ⟨0x4040b00, 0xe8088000000000000000000000000000000000000000000001801a30fc600001000000000000000000000000000000000000000000000000001000000000000000000⟩

theorem State.tileRadio_follows {p s0} {a0} {a1} {a2} (hp : Foot.le State.tileRadio_foot p) (h0 : Follows p s0 a0) :
    Follows p s0 (State.tileRadio (a0) (a1) (a2)) := by
  unfold State.tileRadio
  extract_lets y0 y1 y2 y3 y4 y5 y6
  clear_value y0
  have k7 : Follows p s0 y1 := by
    subst y1
    refine Follows.ite ?_ ?_
    · refine Follows.forAll ?_ ?_
      · intro x8 x9 x10
        refine Follows.ite ?_ ?_
        · with_reducible assumption
        · refine State.writeBackFine_follows (hp.sub rfl) ?_
          with_reducible assumption
      · with_reducible assumption
    · refine Follows.ite ?_ ?_
      · refine Follows.forAll ?_ ?_
        · intro x11 x12 x13
          refine State.updElem_follows (hp.sub rfl) ?_
          with_reducible assumption
        · with_reducible assumption
      · with_reducible assumption
  clear_value y1
  have k14 : Follows p s0 y2 := by
    subst y2
    refine State.updTile_follows (hp.sub rfl) ?_
    with_reducible assumption
  clear_value y2
  clear_value y3
  have k15 : Follows p s0 y4 := by
    subst y4
    refine Follows.ite ?_ ?_
    · refine State.updatePoint_follows (hp.sub rfl) ?_
      with_reducible assumption
    · with_reducible assumption
  clear_value y4
  have k16 : Follows p s0 y5 := by
    subst y5
    refine State.restoreTile_follows (hp.sub rfl) ?_
    with_reducible assumption
  clear_value y5
  have k17 : Follows p s0 y6 := by
    subst y6
    refine Follows.ite ?_ ?_
    · refine State.updTile_follows (hp.sub rfl) ?_
      with_reducible assumption
    · with_reducible assumption
  clear_value y6
  refine Follows.ite ?_ ?_
  · with_reducible assumption
  · refine State.refreshLocks_follows (hp.sub rfl) ?_
    with_reducible assumption

def State.tileToWarm_foot : Foot := ⟨0x4040b00, 0xe8088000000000000000000000000000000000000000000001801a30fc600001000000000000000000000000000000000000000000000000001000000000000000000⟩

theorem State.tileToWarm_follows {p s0} {a0} {a1} (hp : Foot.le State.tileToWarm_foot p) (h0 : Follows p s0 a0) :
    Follows p s0 (State.tileToWarm (a0) (a1)) := by
  unfold State.tileToWarm
  extract_lets y0
  have k1 : Follows p s0 y0 := by
    subst y0
    refine State.tileRadio_follows (hp.sub rfl) ?_
    with_reducible assumption
  clear_value y0
  refine State.refreshLocks_follows (hp.sub rfl) ?_
  refine State.updTile_follows (hp.sub rfl) ?_
  with_reducible assumption

def State.dcTrack_foot : Foot := ⟨0x300, 0x22000000000000000000000000000000000000000000000000000000000001000000000000000000⟩

theorem State.dcTrack_follows {p s0} {a0} {a1} {a2} {a3} (hp : Foot.le State.dcTrack_foot p) (h0 : Follows p s0 a0) :
    Follows p s0 (State.dcTrack (a0) (a1) (a2) (a3)) := by
  unfold State.dcTrack
  extract_lets y0 y1
  clear_value y0
  clear_value y1
  refine State.dcCheck_follows (hp.sub rfl) ?_
  refine State.updElem_follows (hp.sub rfl) ?_
  with_reducible assumption

def State.dcFreeze_foot : Foot := ⟨0x200, 0x0⟩

theorem State.dcFreeze_follows {p s0} {a0} {a1} {a2} (hp : Foot.le State.dcFreeze_foot p) (h0 : Follows p s0 a0) :
    Follows p s0 (State.dcFreeze (a0) (a1) (a2)) := by
  unfold State.dcFreeze
  refine Follows.forBits ?_ ?_
  · intro x0 x1 x2
    refine Follows.forAll ?_ ?_
    · intro x3 x4 x5
      extract_lets y6 y7
      clear_value y6
      clear_value y7
      split
      · refine Follows.ite ?_ ?_
        · refine State.updElem_follows (hp.sub rfl) ?_
          with_reducible assumption
        · with_reducible assumption
      · with_reducible assumption
    · with_reducible assumption
  · with_reducible assumption

def State.maskIfCaused_foot : Foot := ⟨0x300, 0x2000000000000000000000000000000000000000000000000000000000000000000000000000000⟩

theorem State.maskIfCaused_follows {p s0} {a0} {a1} (hp : Foot.le State.maskIfCaused_foot p) (h0 : Follows p s0 a0) :
    Follows p s0 (State.maskIfCaused (a0) (a1)) := by
  unfold State.maskIfCaused
  refine Follows.ite ?_ ?_
  · refine State.maskNow_follows (hp.sub rfl) ?_
    with_reducible assumption
  · with_reducible assumption

def State.frontBoundary_foot : Foot := ⟨0x700, 0x22000000000000000000000000000000000000000000000000000000000001000000000000000000⟩

theorem State.frontBoundary_follows {p s0} {a0} (hp : Foot.le State.frontBoundary_foot p) (h0 : Follows p s0 a0) :
    Follows p s0 (State.frontBoundary (a0)) := by
  unfold State.frontBoundary
  extract_lets y0 y1 y2
  have k3 : Follows p s0 y0 := by
    subst y0
    refine Follows.foldl ?_ ?_
    · intro x4 x5 x6
      extract_lets y7 y8
      clear_value y7
      clear_value y8
      refine State.updElem_follows (hp.sub rfl) ?_
      with_reducible assumption
    · with_reducible assumption
  clear_value y0
  have k9 : Follows p s0 y1 := by
    subst y1
    refine Follows.foldl ?_ ?_
    · intro x10 x11 x12
      refine Follows.ite ?_ ?_
      · refine State.restoreRx_follows (hp.sub rfl) ?_
        with_reducible assumption
      · with_reducible assumption
    · with_reducible assumption
  clear_value y1
  clear_value y2
  refine Follows.update hp ?_ rfl rfl
  with_reducible assumption

def State.calWritten_foot : Foot := ⟨0x400, 0x0⟩

theorem State.calWritten_follows {p s0} {a0} {a1} (hp : Foot.le State.calWritten_foot p) (h0 : Follows p s0 a0) :
    Follows p s0 (State.calWritten (a0) (a1)) := by
  unfold State.calWritten
  refine Follows.update hp ?_ rfl rfl
  with_reducible assumption

def State.fineWritten_foot : Foot := ⟨0x400, 0x0⟩

theorem State.fineWritten_follows {p s0} {a0} {a1} {a2} (hp : Foot.le State.fineWritten_foot p) (h0 : Follows p s0 a0) :
    Follows p s0 (State.fineWritten (a0) (a1) (a2)) := by
  unfold State.fineWritten
  refine Follows.ite ?_ ?_
  · refine Follows.update hp ?_ rfl rfl
    with_reducible assumption
  · with_reducible assumption

def State.writeRfChan_foot : Foot := ⟨0x100, 0x6f8000000000000000000000000000000000000000000000000000001000000000000000000⟩

theorem State.writeRfChan_follows {p s0} {a0} {a1} (hp : Foot.le State.writeRfChan_foot p) (h0 : Follows p s0 a0) :
    Follows p s0 (State.writeRfChan (a0) (a1)).1 := by
  unfold State.writeRfChan
  extract_lets y0 y1 y2 y3 y4 y5 y6 y7 y8 y9 y10 y11 y12 y13
  clear_value y0
  clear_value y1
  clear_value y2
  clear_value y3
  clear_value y4
  clear_value y5
  clear_value y6
  clear_value y7
  have k14 : Follows p s0 y8 := by
    subst y8
    refine Follows.ite ?_ ?_
    · refine State.fire_follows (hp.sub rfl) ?_
      refine State.set_follows 295 hp ?_
      with_reducible assumption
    · with_reducible assumption
  clear_value y8
  have k15 : Follows p s0 y9 := by
    subst y9
    refine Follows.ite ?_ ?_
    · refine State.set_follows 292 hp ?_
      with_reducible assumption
    · with_reducible assumption
  clear_value y9
  have k16 : Follows p s0 y10 := by
    subst y10
    refine Follows.ite ?_ ?_
    · refine State.set_follows 291 hp ?_
      with_reducible assumption
    · with_reducible assumption
  clear_value y10
  have k17 : Follows p s0 y11 := by
    subst y11
    refine Follows.forAll ?_ ?_
    · intro x18 x19 x20
      refine State.updTile_follows (hp.sub rfl) ?_
      with_reducible assumption
    · with_reducible assumption
  clear_value y11
  have k21 : Follows p s0 y12 := by
    subst y12
    refine State.set_follows 293 hp ?_
    with_reducible assumption
  clear_value y12
  have k22 : Follows p s0 y13 := by
    subst y13
    refine State.set_follows 294 hp ?_
    with_reducible assumption
  clear_value y13
  refine Follows.ite1 ?_ ?_
  · with_reducible assumption
  · refine Follows.pair ?_
    refine State.refreshLocks_follows (hp.sub rfl) ?_
    with_reducible assumption

def State.selSwitch_foot : Foot := ⟨0x0, 0x140000000000000000000000000000000000000000000000000000000000000000000000000⟩

theorem State.selSwitch_follows {p s0} {a0} (hp : Foot.le State.selSwitch_foot p) (h0 : Follows p s0 a0) :
    Follows p s0 (State.selSwitch (a0)) := by
  unfold State.selSwitch
  extract_lets y0 y1 y2
  clear_value y0
  clear_value y1
  clear_value y2
  refine Follows.ite ?_ ?_
  · refine State.set_follows 294 hp ?_
    refine State.set_follows 296 hp ?_
    with_reducible assumption
  · with_reducible assumption

/-! ### Machine/Frames.lean -/

def State.setWords_foot : Foot := ⟨0x4, 0x0⟩

theorem State.setWords_follows : ∀ {p s0} {a0} {a1} {a2} (_hp : Foot.le State.setWords_foot p) (_h0 : Follows p s0 a0),
    Follows p s0 (State.setWords (a0) (a1) (a2)) := by
  intro p s0 a0 a1 a2 hp h0
  induction a2 generalizing a0 a1
  · unfold State.setWords
    with_reducible assumption
  · rename_i z1 z2 z4
    unfold State.setWords
    apply z4
    refine State.setWord_follows (hp.sub rfl) ?_
    with_reducible assumption

def State.report_foot : Foot := ⟨0x4040004, 0xe80880000000000000000000000000000000000000000000000000000000000000000000000000000001a000000000000000000000000000001000000000000000000⟩

theorem State.report_follows {p s0} {a0} {a1} {a2} (hp : Foot.le State.report_foot p) (h0 : Follows p s0 a0) :
    Follows p s0 (State.report (a0) (a1) (a2)) := by
  unfold State.report
  extract_lets y0 y1 y2 y3
  have k4 : Follows p s0 y0 := by
    subst y0
    refine State.bump_follows 196 hp ?_
    with_reducible assumption
  clear_value y0
  have k5 : Follows p s0 y1 := by
    subst y1
    refine Follows.ite ?_ ?_
    · refine State.pmc_follows (hp.sub rfl) ?_
      with_reducible assumption
    · refine Follows.ite ?_ ?_
      · refine State.pmc_follows (hp.sub rfl) ?_
        with_reducible assumption
      · with_reducible assumption
  clear_value y1
  clear_value y2
  have k6 : Follows p s0 y3 := by
    subst y3
    refine State.set_follows 195 hp ?_
    refine State.setWords_follows (hp.sub rfl) ?_
    with_reducible assumption
  clear_value y3
  refine Follows.ite ?_ ?_
  · refine State.fire_follows (hp.sub rfl) ?_
    refine State.set_follows 193 hp ?_
    with_reducible assumption
  · refine State.fire_follows (hp.sub rfl) ?_
    refine State.yarn_follows (hp.sub rfl) ?_
    with_reducible assumption

def State.dropCodewords_foot : Foot := ⟨0x10000, 0x100000000000000000000000000000000000000000000000⟩

theorem State.dropCodewords_follows {p s0} {a0} {a1} {a2} (hp : Foot.le State.dropCodewords_foot p) (h0 : Follows p s0 a0) :
    Follows p s0 (State.dropCodewords (a0) (a1) (a2)) := by
  unfold State.dropCodewords
  extract_lets y0 y1
  clear_value y0
  clear_value y1
  refine State.set_follows 188 hp ?_
  refine Follows.update hp ?_ rfl rfl
  with_reducible assumption

def State.putRx_foot : Foot := ⟨0x800, 0x0⟩

theorem State.putRx_follows {p s0} {a0} {a1} {a2} (hp : Foot.le State.putRx_foot p) (h0 : Follows p s0 a0) :
    Follows p s0 (State.putRx (a0) (a1) (a2)) := by
  unfold State.putRx
  refine State.updSlot_follows (hp.sub rfl) ?_
  with_reducible assumption

def State.dropRx_foot : Foot := ⟨0x800, 0x0⟩

theorem State.dropRx_follows {p s0} {a0} {a1} {a2} (hp : Foot.le State.dropRx_foot p) (h0 : Follows p s0 a0) :
    Follows p s0 (State.dropRx (a0) (a1) (a2)) := by
  unfold State.dropRx
  refine State.updSlot_follows (hp.sub rfl) ?_
  with_reducible assumption

def State.endRx_foot : Foot := ⟨0x4050804, 0xe80880000000000000000000000000000000000000000000000000000000000000000000000000000001a100000000000000000000000000001000000000000000000⟩

theorem State.endRx_follows {p s0} {a0} {a1} {a2} {a3} (hp : Foot.le State.endRx_foot p) (h0 : Follows p s0 a0) :
    Follows p s0 (State.endRx (a0) (a1) (a2) (a3)) := by
  unfold State.endRx
  refine State.dropRx_follows (hp.sub rfl) ?_
  refine State.report_follows (hp.sub rfl) ?_
  refine State.dropCodewords_follows (hp.sub rfl) ?_
  with_reducible assumption

def State.nbrStat_foot : Foot := ⟨0x0, 0x1000000000000000000000000000000000000000000000000000000000000000000000000000000000000000000000000000⟩

theorem State.nbrStat_follows {p s0} {a0} {a1} {a2} (hp : Foot.le State.nbrStat_foot p) (h0 : Follows p s0 a0) :
    Follows p s0 (State.nbrStat (a0) (a1) (a2)) := by
  unfold State.nbrStat
  refine State.bumpWrap_follows 396 hp ?_
  with_reducible assumption

def State.postEntry_foot : Foot := ⟨0x200000, 0x0⟩

theorem State.postEntry_follows {p s0} {a0} {a1} (hp : Foot.le State.postEntry_foot p) (h0 : Follows p s0 a0) :
    Follows p s0 (State.postEntry (a0) (a1)) := by
  unfold State.postEntry
  refine Follows.update hp ?_ rfl rfl
  with_reducible assumption

def State.finishFrame_foot : Foot := ⟨0x4202000, 0xe808800000000000000000000000000001000040000000000000000000000000000000000000000000000000000000000000000000000000001000000000000000000⟩

theorem State.finishFrame_follows {p s0} {a0} {a1} {a2} {a3} {a4} (hp : Foot.le State.finishFrame_foot p) (h0 : Follows p s0 a0) :
    Follows p s0 (State.finishFrame (a0) (a1) (a2) (a3) (a4)) := by
  unfold State.finishFrame
  split
  · with_reducible assumption
  · extract_lets y5 y6 y7
    have k8 : Follows p s0 y5 := by
      subst y5
      refine State.updNbr_follows (hp.sub rfl) ?_
      with_reducible assumption
    clear_value y5
    have k9 : Follows p s0 y6 := by
      subst y6
      refine State.set_follows 378 hp ?_
      with_reducible assumption
    clear_value y6
    have k10 : Follows p s0 y7 := by
      subst y7
      refine Follows.ite ?_ ?_
      · refine State.pmc_follows (hp.sub rfl) ?_
        refine State.nbrStat_follows (hp.sub rfl) ?_
        with_reducible assumption
      · with_reducible assumption
    clear_value y7
    refine Follows.foldl ?_ ?_
    · intro x11 x12 x13
      refine State.postEntry_follows (hp.sub rfl) ?_
      with_reducible assumption
    · refine State.postEntry_follows (hp.sub rfl) ?_
      with_reducible assumption

def State.frameToRetry_foot : Foot := ⟨0x4202000, 0xe808800000000000000000000000000001000040000000000000000000000000000000000000000000000000000000000000000000000000001000000000000000000⟩

theorem State.frameToRetry_follows {p s0} {a0} {a1} {a2} (hp : Foot.le State.frameToRetry_foot p) (h0 : Follows p s0 a0) :
    Follows p s0 (State.frameToRetry (a0) (a1) (a2)) := by
  unfold State.frameToRetry
  split
  · with_reducible assumption
  · refine Follows.ite ?_ ?_
    · refine State.finishFrame_follows (hp.sub rfl) ?_
      with_reducible assumption
    · refine State.updNbr_follows (hp.sub rfl) ?_
      with_reducible assumption

def State.txEnd_foot : Foot := ⟨0x425a804, 0xe80880000000000000000000000000000100004000000000000000000000000000000000000000000001a000000000000000000000000000001000000000000000000⟩

theorem State.txEnd_follows {p s0} {a0} {a1} {a2} {a3} {a4} (hp : Foot.le State.txEnd_foot p) (h0 : Follows p s0 a0) :
    Follows p s0 (State.txEnd (a0) (a1) (a2) (a3) (a4)) := by
  unfold State.txEnd
  extract_lets y0 y1 y2 y3 y4 y5 y6
  clear_value y0
  have k7 : Follows p s0 y1 := by
    subst y1
    refine State.report_follows (hp.sub rfl) ?_
    with_reducible assumption
  clear_value y1
  have k8 : Follows p s0 y2 := by
    subst y2
    refine State.updSlot_follows (hp.sub rfl) ?_
    with_reducible assumption
  clear_value y2
  clear_value y3
  have k9 : Follows p s0 y4 := by
    subst y4
    refine Follows.update hp ?_ rfl rfl
    with_reducible assumption
  clear_value y4
  have k10 : Follows p s0 y5 := by
    subst y5
    refine Follows.forAll ?_ ?_
    · intro x11 x12 x13
      refine State.updPipe_follows (hp.sub rfl) ?_
      with_reducible assumption
    · with_reducible assumption
  clear_value y5
  have k14 : Follows p s0 y6 := by
    subst y6
    refine Follows.ite ?_ ?_
    · with_reducible assumption
    · refine State.pmc_follows (hp.sub rfl) ?_
      refine State.nbrStat_follows (hp.sub rfl) ?_
      with_reducible assumption
  clear_value y6
  refine Follows.ite ?_ ?_
  · with_reducible assumption
  · split
    · with_reducible assumption
    · extract_lets y20 y21 y22
      have k23 : Follows p s0 y20 := by
        subst y20
        refine Follows.ite ?_ ?_
        · with_reducible assumption
        · refine State.pmc_follows (hp.sub rfl) ?_
          refine State.nbrStat_follows (hp.sub rfl) ?_
          with_reducible assumption
      clear_value y20
      clear_value y21
      have k24 : Follows p s0 y22 := by
        subst y22
        refine State.updNbr_follows (hp.sub rfl) ?_
        with_reducible assumption
      clear_value y22
      refine Follows.ite ?_ ?_
      · refine State.finishFrame_follows (hp.sub rfl) ?_
        with_reducible assumption
      · refine Follows.ite ?_ ?_
        · with_reducible assumption
        · refine State.frameToRetry_follows (hp.sub rfl) ?_
          with_reducible assumption

def State.underrun_foot : Foot := ⟨0x425a804, 0xe80880000000000000000000000000000100004000000000000000000000000000000000000000000001a000000000000000000000000000001000000000000000000⟩

theorem State.underrun_follows {p s0} {a0} {a1} (hp : Foot.le State.underrun_foot p) (h0 : Follows p s0 a0) :
    Follows p s0 (State.underrun (a0) (a1)) := by
  unfold State.underrun
  split
  · with_reducible assumption
  · refine State.txEnd_follows (hp.sub rfl) ?_
    with_reducible assumption

def State.tailOver_foot : Foot := ⟨0x800, 0x0⟩

theorem State.tailOver_follows {p s0} {a0} {a1} (hp : Foot.le State.tailOver_foot p) (h0 : Follows p s0 a0) :
    Follows p s0 (State.tailOver (a0) (a1)) := by
  unfold State.tailOver
  split
  · refine Follows.ite ?_ ?_
    · refine State.updSlot_follows (hp.sub rfl) ?_
      with_reducible assumption
    · with_reducible assumption
  · with_reducible assumption

def State.cutRx_foot : Foot := ⟨0x4050804, 0xe80880000000000000000000000000000000000000000000000000000000000000000000000000000001a100000000000000000000000000001000000000000000000⟩

theorem State.cutRx_follows {p s0} {a0} {a1} {a2} (hp : Foot.le State.cutRx_foot p) (h0 : Follows p s0 a0) :
    Follows p s0 (State.cutRx (a0) (a1) (a2)) := by
  unfold State.cutRx
  split
  · with_reducible assumption
  · refine Follows.ite ?_ ?_
    · refine Follows.ite ?_ ?_
      · refine State.endRx_follows (hp.sub rfl) ?_
        with_reducible assumption
      · with_reducible assumption
    · refine Follows.ite ?_ ?_
      · refine State.endRx_follows (hp.sub rfl) ?_
        with_reducible assumption
      · extract_lets y5
        clear_value y5
        refine State.putRx_follows (hp.sub rfl) ?_
        with_reducible assumption

def State.cutTile_foot : Foot := ⟨0x425a804, 0xe80880000000000000000000000000000100004000000000000000000000000000000000000000000001a100000000000000000000000000001000000000000000000⟩

theorem State.cutTile_follows {p s0} {a0} {a1} (hp : Foot.le State.cutTile_foot p) (h0 : Follows p s0 a0) :
    Follows p s0 (State.cutTile (a0) (a1)) := by
  unfold State.cutTile
  refine Follows.foldl ?_ ?_
  · intro x0 x1 x2
    refine Follows.ite ?_ ?_
    · refine Follows.ite ?_ ?_
      · refine State.cutRx_follows (hp.sub rfl) ?_
        with_reducible assumption
      · refine State.underrun_follows (hp.sub rfl) ?_
        with_reducible assumption
    · with_reducible assumption
  · with_reducible assumption

def State.loseBanks_foot : Foot := ⟨0x900, 0x98000000000000000000000000000000000000000000000000000000000000000⟩

theorem State.loseBanks_follows {p s0} {a0} {a1} (hp : Foot.le State.loseBanks_foot p) (h0 : Follows p s0 a0) :
    Follows p s0 (State.loseBanks (a0) (a1)) := by
  unfold State.loseBanks
  extract_lets y0
  have k1 : Follows p s0 y0 := by
    subst y0
    refine State.updTile_follows (hp.sub rfl) ?_
    with_reducible assumption
  clear_value y0
  refine Follows.forAll ?_ ?_
  · intro x2 x3 x4
    extract_lets y5 y6 y7
    clear_value y5
    have k8 : Follows p s0 y6 := by
      subst y6
      refine State.set_follows 256 hp ?_
      refine State.set_follows 255 hp ?_
      with_reducible assumption
    clear_value y6
    have k9 : Follows p s0 y7 := by
      subst y7
      refine Follows.ite ?_ ?_
      · refine State.set_follows 259 hp ?_
        with_reducible assumption
      · with_reducible assumption
    clear_value y7
    refine State.updSlot_follows (hp.sub rfl) ?_
    with_reducible assumption
  · with_reducible assumption

def State.refreshFunc_foot : Foot := ⟨0x0, 0x30⟩

theorem State.refreshFunc_follows {p s0} {a0} (hp : Foot.le State.refreshFunc_foot p) (h0 : Follows p s0 a0) :
    Follows p s0 (State.refreshFunc (a0)) := by
  unfold State.refreshFunc
  extract_lets y0
  clear_value y0
  refine State.set_follows 5 hp ?_
  refine State.set_follows 4 hp ?_
  with_reducible assumption

def State.nbrSample_foot : Foot := ⟨0x2000, 0x30⟩

theorem State.nbrSample_follows {p s0} {a0} {a1} (hp : Foot.le State.nbrSample_foot p) (h0 : Follows p s0 a0) :
    Follows p s0 (State.nbrSample (a0) (a1)) := by
  unfold State.nbrSample
  refine Follows.ite ?_ ?_
  · with_reducible assumption
  · extract_lets y0 y1
    clear_value y0
    clear_value y1
    refine State.refreshFunc_follows (hp.sub rfl) ?_
    refine State.updNbr_follows (hp.sub rfl) ?_
    with_reducible assumption

def State.dropRegs_foot : Foot := ⟨0x1fffffff, 0x0⟩

theorem State.dropRegs_follows {p s0} {a0} {a1} (hp : Foot.le State.dropRegs_foot p) (h0 : Follows p s0 a0) :
    Follows p s0 (State.dropRegs (a0) (a1)) := by
  unfold State.dropRegs
  refine Follows.updAll hp rfl ?_ rfl (.inr ⟨_, rfl⟩) (.inl rfl) (.inl rfl)
  with_reducible assumption

def State.engineReset_foot : Foot := ⟨0x20000, 0x1c000000000000000000000000000000000000000000000000000000000000000000000000000000000000000000000000000000000000000000000000000000⟩

theorem State.engineReset_follows {p s0} {a0} {a1} (hp : Foot.le State.engineReset_foot p) (h0 : Follows p s0 a0) :
    Follows p s0 (State.engineReset (a0) (a1)) := by
  unfold State.engineReset
  extract_lets y0
  have k1 : Follows p s0 y0 := by
    subst y0
    refine State.updEng_follows (hp.sub rfl) ?_
    with_reducible assumption
  clear_value y0
  refine State.set_follows 508 hp ?_
  refine State.set_follows 507 hp ?_
  refine State.set_follows 506 hp ?_
  with_reducible assumption

def State.tileReset_foot : Foot := ⟨0x1fffffff, 0x0⟩

theorem State.tileReset_follows {p s0} {a0} {a1} (hp : Foot.le State.tileReset_foot p) (h0 : Follows p s0 a0) :
    Follows p s0 (State.tileReset (a0) (a1)) := by
  unfold State.tileReset
  extract_lets y0 y1 y2 y3 y4 y5 y6 y7 y8 y9
  have k10 : Follows p s0 y0 := by
    subst y0
    refine State.fabricStop_follows (hp.sub rfl) ?_
    refine State.cutTile_follows (hp.sub rfl) ?_
    with_reducible assumption
  clear_value y0
  have k11 : Follows p s0 y1 := by
    subst y1
    refine State.clearMem_follows hp ?_
    refine State.loseBanks_follows (hp.sub rfl) ?_
    with_reducible assumption
  clear_value y1
  have k12 : Follows p s0 y2 := by
    subst y2
    refine State.dropRegs_follows (hp.sub rfl) ?_
    with_reducible assumption
  clear_value y2
  have k13 : Follows p s0 y3 := by
    subst y3
    refine Follows.forAll ?_ ?_
    · intro x14 x15 x16
      refine State.updEng_follows (hp.sub rfl) ?_
      with_reducible assumption
    · with_reducible assumption
  clear_value y3
  have k17 : Follows p s0 y4 := by
    subst y4
    refine Follows.forAll ?_ ?_
    · intro x18 x19 x20
      refine State.updElem_follows (hp.sub rfl) ?_
      with_reducible assumption
    · with_reducible assumption
  clear_value y4
  have k21 : Follows p s0 y5 := by
    subst y5
    refine State.updTile_follows (hp.sub rfl) ?_
    with_reducible assumption
  clear_value y5
  have k22 : Follows p s0 y6 := by
    subst y6
    refine Follows.ite ?_ ?_
    · refine State.setDom_follows (hp.sub rfl) ?_
      with_reducible assumption
    · with_reducible assumption
  clear_value y6
  clear_value y7
  clear_value y8
  have k23 : Follows p s0 y9 := by
    subst y9
    refine Follows.update hp ?_ rfl rfl
    with_reducible assumption
  clear_value y9
  refine State.refreshDep_follows (hp.sub rfl) ?_
  refine State.refreshLocks_follows (hp.sub rfl) ?_
  refine State.clrBit_follows 26 hp ?_
  refine State.set_follows 58 hp ?_
  with_reducible assumption

def State.pipeReset_foot : Foot := ⟨0x425a804, 0xe80880000000000000000000000000000100004000000000000000000000000000000000000000000001a000000000000000000000000000001000000000000000030⟩

theorem State.pipeReset_follows {p s0} {a0} {a1} (hp : Foot.le State.pipeReset_foot p) (h0 : Follows p s0 a0) :
    Follows p s0 (State.pipeReset (a0) (a1)) := by
  unfold State.pipeReset
  extract_lets y0 y1 y2
  clear_value y0
  have k3 : Follows p s0 y1 := by
    subst y1
    refine Follows.foldl ?_ ?_
    · intro x4 x5 x6
      refine Follows.ite ?_ ?_
      · refine State.nbrStat_follows (hp.sub rfl) ?_
        with_reducible assumption
      · refine State.underrun_follows (hp.sub rfl) ?_
        with_reducible assumption
    · with_reducible assumption
  clear_value y1
  have k7 : Follows p s0 y2 := by
    subst y2
    refine State.updPipe_follows (hp.sub rfl) ?_
    with_reducible assumption
  clear_value y2
  refine Follows.foldl ?_ ?_
  · intro x8 x9 x10
    refine State.nbrSample_follows (hp.sub rfl) ?_
    with_reducible assumption
  · with_reducible assumption

def State.decoderReset_foot : Foot := ⟨0x4050804, 0xe80880000000000000000000000000000000000000000000000000000000000000000000000000000001a100000000000000000000000000001000000000000000000⟩

theorem State.decoderReset_follows {p s0} {a0} {a1} (hp : Foot.le State.decoderReset_foot p) (h0 : Follows p s0 a0) :
    Follows p s0 (State.decoderReset (a0) (a1)) := by
  unfold State.decoderReset
  extract_lets y0 y1
  have k2 : Follows p s0 y0 := by
    subst y0
    split
    · split
      · refine State.endRx_follows (hp.sub rfl) ?_
        with_reducible assumption
      · with_reducible assumption
    · with_reducible assumption
  clear_value y0
  clear_value y1
  refine Follows.update hp ?_ rfl rfl
  with_reducible assumption

def State.encoderReset_foot : Foot := ⟨0x425a804, 0xe80880000000000000000000000000000100004000000000000000000000000000000000000000000001a000000000000000000000000000001000000000000000000⟩

theorem State.encoderReset_follows {p s0} {a0} {a1} (hp : Foot.le State.encoderReset_foot p) (h0 : Follows p s0 a0) :
    Follows p s0 (State.encoderReset (a0) (a1)) := by
  unfold State.encoderReset
  extract_lets y0 y1
  have k2 : Follows p s0 y0 := by
    subst y0
    split
    · refine State.underrun_follows (hp.sub rfl) ?_
      with_reducible assumption
    · with_reducible assumption
  clear_value y0
  clear_value y1
  refine Follows.update hp ?_ rfl rfl
  with_reducible assumption

/-! ### Machine/Errors.lean -/

def State.blackBox_foot : Foot := ⟨0xc, 0x18000000000000000000000000000000000000000000000000000000000000000000000000000000000000000000000000000000000000000000000000000000000000000000000000000000000⟩

theorem State.blackBox_follows {p s0} {a0} {a1} (hp : Foot.le State.blackBox_foot p) (h0 : Follows p s0 a0) :
    Follows p s0 (State.blackBox (a0) (a1)) := by
  unfold State.blackBox
  extract_lets y0 y1
  clear_value y0
  have k2 : Follows p s0 y1 := by
    subst y1
    refine State.store_follows (hp.sub rfl) ?_
    with_reducible assumption
  clear_value y1
  refine State.set_follows 615 hp ?_
  refine State.bump_follows 616 hp ?_
  with_reducible assumption

def State.blackBoxOnly_foot : Foot := ⟨0x200000c, 0x18000000000000000000000000000000000000000000000000000000000000000000000000000000000000000000000000000000000000000000000000000000000000000000000000000000000⟩

theorem State.blackBoxOnly_follows {p s0} {a0} {a1} {a2} {a3} (hp : Foot.le State.blackBoxOnly_foot p) (h0 : Follows p s0 a0) :
    Follows p s0 (State.blackBoxOnly (a0) (a1) (a2) (a3)) := by
  unfold State.blackBoxOnly
  extract_lets y0 y1
  have k2 : Follows p s0 y0 := by
    subst y0
    refine State.blackBox_follows (hp.sub rfl) ?_
    with_reducible assumption
  clear_value y0
  clear_value y1
  refine Follows.ite ?_ ?_
  · refine Follows.update hp ?_ rfl rfl
    with_reducible assumption
  · with_reducible assumption

def State.writeRecord_foot : Foot := ⟨0x200000c, 0x18000000000000000000000000000d00000000000000000000000000000000000000000000000000000000000000000000000000000000000000000000000000000000001000000000000000000⟩

theorem State.writeRecord_follows {p s0} {a0} {a1} {a2} {a3} {a4} {a5} (hp : Foot.le State.writeRecord_foot p) (h0 : Follows p s0 a0) :
    Follows p s0 (State.writeRecord (a0) (a1) (a2) (a3) (a4) (a5)) := by
  unfold State.writeRecord
  extract_lets y0 y1 y2 y3 y4 y5
  clear_value y0
  clear_value y1
  clear_value y2
  have k6 : Follows p s0 y3 := by
    subst y3
    refine Follows.update hp ?_ rfl rfl
    with_reducible assumption
  have k7 : Follows p s0 y5 := by
    subst y5
    refine Follows.ite ?_ ?_
    · refine State.fire_follows (hp.sub rfl) ?_
      refine State.bump_follows 503 hp ?_
      refine State.set_follows 500 hp ?_
      with_reducible assumption
    · refine State.fire_follows (hp.sub rfl) ?_
      refine State.set_follows 502 hp ?_
      refine State.setWords_follows (hp.sub rfl) ?_
      with_reducible assumption
  clear_value y5
  refine Follows.ite ?_ ?_
  · refine State.blackBox_follows (hp.sub rfl) ?_
    with_reducible assumption
  · with_reducible assumption

def State.escalate_foot : Foot := ⟨0x1fffffff, 0x0⟩

theorem State.escalate_follows {p s0} {a0} {a1} (hp : Foot.le State.escalate_foot p) (h0 : Follows p s0 a0) :
    Follows p s0 (State.escalate (a0) (a1)) := by
  unfold State.escalate
  extract_lets y0 y1 y2
  clear_value y0
  clear_value y1
  have k3 : Follows p s0 y2 := by
    subst y2
    refine Follows.ite ?_ ?_
    · refine Follows.update hp ?_ rfl rfl
      with_reducible assumption
    · with_reducible assumption
  clear_value y2
  refine Follows.ite ?_ ?_
  · refine State.engineReset_follows (hp.sub rfl) ?_
    with_reducible assumption
  · refine Follows.ite ?_ ?_
    · refine State.tileReset_follows (hp.sub rfl) ?_
      with_reducible assumption
    · refine Follows.ite ?_ ?_
      · refine State.pipeReset_follows (hp.sub rfl) ?_
        with_reducible assumption
      · refine Follows.ite ?_ ?_
        · refine State.decoderReset_follows (hp.sub rfl) ?_
          with_reducible assumption
        · refine Follows.ite ?_ ?_
          · refine State.encoderReset_follows (hp.sub rfl) ?_
            with_reducible assumption
          · with_reducible assumption

def State.limited_foot : Foot := ⟨0x200000c, 0x18000000000000000000000000000d00000000000000000000000000000000000000000000000000000000000000000000000000000000000000000000000000000000001000000000000000000⟩

theorem State.limited_follows {p s0} {a0} {a1} (hp : Foot.le State.limited_foot p) (h0 : Follows p s0 a0) :
    Follows p s0 (State.limited (a0) (a1)) := by
  unfold State.limited
  split
  · refine Follows.ite ?_ ?_
    · refine Follows.update hp ?_ rfl rfl
      with_reducible assumption
    · extract_lets y6 y7
      clear_value y6
      have k8 : Follows p s0 y7 := by
        subst y7
        refine Follows.update hp ?_ rfl rfl
        with_reducible assumption
      clear_value y7
      refine State.writeRecord_follows (hp.sub rfl) ?_
      with_reducible assumption
  · extract_lets y11 y12
    clear_value y11
    have k13 : Follows p s0 y12 := by
      subst y12
      refine Follows.update hp ?_ rfl rfl
      with_reducible assumption
    clear_value y12
    refine State.writeRecord_follows (hp.sub rfl) ?_
    with_reducible assumption

def State.logErr_foot : Foot := ⟨0x1fffffff, 0x0⟩

theorem State.logErr_follows {p s0} {a0} {a1} (hp : Foot.le State.logErr_foot p) (h0 : Follows p s0 a0) :
    Follows p s0 (State.logErr (a0) (a1)) := by
  unfold State.logErr
  extract_lets y0 y1 y2 y3 y4
  clear_value y0
  have k5 : Follows p s0 y1 := by
    subst y1
    refine State.bump_follows 504 hp ?_
    with_reducible assumption
  clear_value y1
  have k6 : Follows p s0 y2 := by
    subst y2
    refine State.set_follows 507 hp ?_
    with_reducible assumption
  clear_value y2
  have k7 : Follows p s0 y3 := by
    subst y3
    refine State.writeRecord_follows (hp.sub rfl) ?_
    with_reducible assumption
  clear_value y3
  have k8 : Follows p s0 y4 := by
    subst y4
    refine State.set_follows 506 hp ?_
    with_reducible assumption
  clear_value y4
  refine Follows.ite ?_ ?_
  · refine Follows.ite ?_ ?_
    · refine State.escalate_follows (hp.sub rfl) ?_
      refine State.bumpWrap_follows 509 hp ?_
      with_reducible assumption
    · refine State.bump_follows 508 hp ?_
      refine State.set_follows 507 hp ?_
      with_reducible assumption
  · refine Follows.ite ?_ ?_
    · refine State.writeRecord_follows (hp.sub rfl) ?_
      with_reducible assumption
    · refine State.limited_follows (hp.sub rfl) ?_
      with_reducible assumption

def State.logHw_foot : Foot := ⟨0x1fffffff, 0x0⟩

theorem State.logHw_follows {p s0} {a0} {a1} {a2} {a3} (hp : Foot.le State.logHw_foot p) (h0 : Follows p s0 a0) :
    Follows p s0 (State.logHw (a0) (a1) (a2) (a3)) := by
  unfold State.logHw
  refine State.logErr_follows (hp.sub rfl) ?_
  with_reducible assumption

def State.poisonMute_foot : Foot := ⟨0x800, 0x1000000000000000000000000000000000000000001000000000000000000⟩

theorem State.poisonMute_follows {p s0} {a0} {a1} (hp : Foot.le State.poisonMute_foot p) (h0 : Follows p s0 a0) :
    Follows p s0 (State.poisonMute (a0) (a1)) := by
  unfold State.poisonMute
  extract_lets y0
  clear_value y0
  refine State.updSlot_follows (hp.sub rfl) ?_
  refine State.fire_follows (hp.sub rfl) ?_
  refine State.setBit_follows 240 hp ?_
  with_reducible assumption

def State.poisonSwatch_foot : Foot := ⟨0x800, 0x18001000000000000000000000000000000000000000001000000000000000000⟩

theorem State.poisonSwatch_follows {p s0} {a0} {a1} {a2} (hp : Foot.le State.poisonSwatch_foot p) (h0 : Follows p s0 a0) :
    Follows p s0 (State.poisonSwatch (a0) (a1) (a2)) := by
  unfold State.poisonSwatch
  refine Follows.ite ?_ ?_
  · with_reducible assumption
  · refine Follows.forAll ?_ ?_
    · intro x0 x1 x2
      extract_lets y3
      have k4 : Follows p s0 y3 := by
        subst y3
        refine Follows.ite ?_ ?_
        · refine State.updSlot_follows (hp.sub rfl) ?_
          refine State.set_follows 256 hp ?_
          refine State.set_follows 255 hp ?_
          with_reducible assumption
        · with_reducible assumption
      clear_value y3
      refine Follows.ite ?_ ?_
      · refine State.poisonMute_follows (hp.sub rfl) ?_
        with_reducible assumption
      · with_reducible assumption
    · with_reducible assumption

def State.poisonFragment_foot : Foot := ⟨0x900, 0x600040000000000000000000018001000000000000000000000000000000000000000001000000000000000000⟩

theorem State.poisonFragment_follows {p s0} {a0} {a1} {a2} (hp : Foot.le State.poisonFragment_foot p) (h0 : Follows p s0 a0) :
    Follows p s0 (State.poisonFragment (a0) (a1) (a2)) := by
  unfold State.poisonFragment
  extract_lets y0 y1
  have k2 : Follows p s0 y0 := by
    subst y0
    refine State.setBit_follows 358 hp ?_
    refine State.clrBit_follows 357 hp ?_
    with_reducible assumption
  clear_value y0
  have k3 : Follows p s0 y1 := by
    subst y1
    refine State.fireTile_follows (hp.sub rfl) ?_
    refine State.set_follows 342 hp ?_
    with_reducible assumption
  clear_value y1
  refine State.poisonSwatch_follows (hp.sub rfl) ?_
  with_reducible assumption

def State.poisonEntry_foot : Foot := ⟨0x800, 0x60000018001000000000000000000000000000000000000000001000000000000000000⟩

theorem State.poisonEntry_follows {p s0} {a0} {a1} (hp : Foot.le State.poisonEntry_foot p) (h0 : Follows p s0 a0) :
    Follows p s0 (State.poisonEntry (a0) (a1)) := by
  unfold State.poisonEntry
  extract_lets y0
  have k1 : Follows p s0 y0 := by
    subst y0
    refine State.set_follows 282 hp ?_
    refine State.set_follows 281 hp ?_
    with_reducible assumption
  clear_value y0
  refine State.poisonSwatch_follows (hp.sub rfl) ?_
  with_reducible assumption

def State.uncorrectable_foot : Foot := ⟨0x1fffffff, 0x0⟩

theorem State.uncorrectable_follows {p s0} {a0} {a1} {a2} {a3} {a4} {a5} (hp : Foot.le State.uncorrectable_foot p) (h0 : Follows p s0 a0) :
    Follows p s0 (State.uncorrectable (a0) (a1) (a2) (a3) (a4) (a5)) := by
  unfold State.uncorrectable
  refine Follows.ite ?_ ?_
  · extract_lets y0
    have k1 : Follows p s0 y0 := by
      subst y0
      refine State.bump_follows 505 hp ?_
      with_reducible assumption
    clear_value y0
    refine Follows.ite ?_ ?_
    · with_reducible assumption
    · refine State.pmc_follows (hp.sub rfl) ?_
      with_reducible assumption
  · extract_lets y2 y3
    have k4 : Follows p s0 y2 := by
      subst y2
      refine State.setPoison_follows hp ?_
      with_reducible assumption
    clear_value y2
    have k5 : Follows p s0 y3 := by
      subst y3
      split
      · refine State.poisonFragment_follows (hp.sub rfl) ?_
        with_reducible assumption
      · refine Follows.ite ?_ ?_
        · refine State.poisonEntry_follows (hp.sub rfl) ?_
          with_reducible assumption
        · refine Follows.ite ?_ ?_
          · refine State.updNbr_follows (hp.sub rfl) ?_
            with_reducible assumption
          · with_reducible assumption
    clear_value y3
    refine State.logErr_follows (hp.sub rfl) ?_
    with_reducible assumption

def State.corrected_foot : Foot := ⟨0x1fffffff, 0x0⟩

theorem State.corrected_follows {p s0} {a0} {a1} {a2} {a3} {a4} {a5} (hp : Foot.le State.corrected_foot p) (h0 : Follows p s0 a0) :
    Follows p s0 (State.corrected (a0) (a1) (a2) (a3) (a4) (a5)) := by
  unfold State.corrected
  refine State.logErr_follows (hp.sub rfl) ?_
  refine State.pmc_follows (hp.sub rfl) ?_
  with_reducible assumption

def State.wordsSeen_foot : Foot := ⟨0x1fffffff, 0x0⟩

theorem State.wordsSeen_follows {p s0} {a0} {a1} {a2} {a3} (hp : Foot.le State.wordsSeen_foot p) (h0 : Follows p s0 a0) :
    Follows p s0 (State.wordsSeen (a0) (a1) (a2) (a3)) := by
  unfold State.wordsSeen
  refine Follows.foldl ?_ ?_
  · intro x0 x1 x2
    split
    · with_reducible assumption
    · refine Follows.ite ?_ ?_
      · with_reducible assumption
      · refine State.corrected_follows (hp.sub rfl) ?_
        with_reducible assumption
    · refine Follows.ite ?_ ?_
      · with_reducible assumption
      · refine State.uncorrectable_follows (hp.sub rfl) ?_
        with_reducible assumption
  · with_reducible assumption

def State.hitPoison_foot : Foot := ⟨0x4000000, 0xe808802000000000000000000000000000000000000000000000000000000000000000000000000000000000000000000000000000000000001000000000000000000⟩

theorem State.hitPoison_follows {p s0} {a0} {a1} {a2} (hp : Foot.le State.hitPoison_foot p) (h0 : Follows p s0 a0) :
    Follows p s0 (State.hitPoison (a0) (a1) (a2)) := by
  unfold State.hitPoison
  refine Follows.foldl ?_ ?_
  · intro x0 x1 x2
    refine State.pmc_follows (hp.sub rfl) ?_
    refine State.bump_follows 505 hp ?_
    with_reducible assumption
  · with_reducible assumption

/-! ### Machine/Keys.lean -/

def State.refreshHold_foot : Foot := ⟨0x0, 0x800000000000000000000000000000000000000⟩

theorem State.refreshHold_follows {p s0} {a0} (hp : Foot.le State.refreshHold_foot p) (h0 : Follows p s0 a0) :
    Follows p s0 (State.refreshHold (a0)) := by
  unfold State.refreshHold
  refine State.set_follows 155 hp ?_
  with_reducible assumption

def State.refreshSpent_foot : Foot := ⟨0x0, 0x1800000000000000000000000000000000000000000000000000000000000000000000000000001000000000000000000⟩

theorem State.refreshSpent_follows {p s0} {a0} {a1} {a2} (hp : Foot.le State.refreshSpent_foot p) (h0 : Follows p s0 a0) :
    Follows p s0 (State.refreshSpent (a0) (a1) (a2)) := by
  unfold State.refreshSpent
  extract_lets y0 y1 y2 y3 y4 y5 y6
  clear_value y0
  clear_value y1
  clear_value y2
  clear_value y3
  clear_value y4
  clear_value y5
  have k7 : Follows p s0 y6 := by
    subst y6
    refine State.set_follows 383 hp ?_
    refine State.set_follows 384 hp ?_
    with_reducible assumption
  clear_value y6
  refine Follows.ite ?_ ?_
  · refine State.fire_follows (hp.sub rfl) ?_
    with_reducible assumption
  · with_reducible assumption

/-! ### Machine/Crossings.lean -/

def State.updCrossing_foot : Foot := ⟨0x1000, 0x0⟩

theorem State.updCrossing_follows {p s0} {a0} {a1} {a2} (hp : Foot.le State.updCrossing_foot p) (h0 : Follows p s0 a0) :
    Follows p s0 (State.updCrossing (a0) (a1) (a2)) := by
  unfold State.updCrossing
  refine Follows.update hp ?_ rfl rfl
  with_reducible assumption

def State.walkNext_foot : Foot := ⟨0x1000, 0x0⟩

theorem State.walkNext_follows : ∀ {p s0} {a0} {a1} (_hp : Foot.le State.walkNext_foot p) (_h0 : Follows p s0 a0),
    Follows p s0 (State.walkNext (a0) (a1)).1 := by
  intro p s0 a0 a1 hp h0
  induction a1 generalizing a0
  · unfold State.walkNext
    with_reducible assumption
  · rename_i z1 z3
    unfold State.walkNext
    extract_lets y4 y5 y6 y7 y8 y9 y10
    clear_value y4
    clear_value y5
    clear_value y6
    clear_value y7
    clear_value y8
    clear_value y9
    clear_value y10
    refine Follows.ite1 ?_ ?_
    · apply z3
      refine Follows.update hp ?_ rfl rfl
      with_reducible assumption
    · refine Follows.ite1 ?_ ?_
      · with_reducible assumption
      · refine Follows.ite1 ?_ ?_
        · refine Follows.ite1 ?_ ?_
          · with_reducible assumption
          · apply z3
            refine Follows.update hp ?_ rfl rfl
            with_reducible assumption
        · refine Follows.ite1 ?_ ?_
          · with_reducible assumption
          · refine Follows.ite1 ?_ ?_
            · apply z3
              refine Follows.update hp ?_ rfl rfl
              with_reducible assumption
            · refine Follows.ite1 ?_ ?_
              · apply z3
                refine Follows.update hp ?_ rfl rfl
                with_reducible assumption
              · split
                · refine Follows.ite1 ?_ ?_
                  · with_reducible assumption
                  · with_reducible assumption
                · with_reducible assumption

def State.aimVote_foot : Foot := ⟨0x20, 0x4000000⟩

theorem State.aimVote_follows {p s0} {a0} {a1} {a2} {a3} (hp : Foot.le State.aimVote_foot p) (h0 : Follows p s0 a0) :
    Follows p s0 (State.aimVote (a0) (a1) (a2) (a3)) := by
  unfold State.aimVote
  refine Follows.ite ?_ ?_
  · with_reducible assumption
  · refine State.putVote_follows (hp.sub rfl) ?_
    with_reducible assumption

def State.refreshVotes_foot : Foot := ⟨0x20, 0x4000000⟩

theorem State.refreshVotes_follows {p s0} {a0} (hp : Foot.le State.refreshVotes_foot p) (h0 : Follows p s0 a0) :
    Follows p s0 (State.refreshVotes (a0)) := by
  unfold State.refreshVotes
  extract_lets y0 y1 y2 y3 y4
  clear_value y0
  clear_value y1
  have k5 : Follows p s0 y2 := by
    subst y2
    refine State.aimVote_follows (hp.sub rfl) ?_
    with_reducible assumption
  clear_value y2
  have k6 : Follows p s0 y3 := by
    subst y3
    refine Follows.forAll ?_ ?_
    · intro x7 x8 x9
      refine State.aimVote_follows (hp.sub rfl) ?_
      with_reducible assumption
    · with_reducible assumption
  clear_value y3
  have k10 : Follows p s0 y4 := by
    subst y4
    refine State.aimVote_follows (hp.sub rfl) ?_
    with_reducible assumption
  clear_value y4
  refine State.aimVote_follows (hp.sub rfl) ?_
  with_reducible assumption

def State.voteFor_foot : Foot := ⟨0x1020, 0x4000000⟩

theorem State.voteFor_follows {p s0} {a0} {a1} (hp : Foot.le State.voteFor_foot p) (h0 : Follows p s0 a0) :
    Follows p s0 (State.voteFor (a0) (a1)) := by
  unfold State.voteFor
  refine Follows.ite ?_ ?_
  · with_reducible assumption
  · refine State.refreshVotes_follows (hp.sub rfl) ?_
    refine Follows.update hp ?_ rfl rfl
    with_reducible assumption

def State.unvoteFor_foot : Foot := ⟨0x1020, 0x4000000⟩

theorem State.unvoteFor_follows {p s0} {a0} {a1} (hp : Foot.le State.unvoteFor_foot p) (h0 : Follows p s0 a0) :
    Follows p s0 (State.unvoteFor (a0) (a1)) := by
  unfold State.unvoteFor
  refine State.refreshVotes_follows (hp.sub rfl) ?_
  refine Follows.update hp ?_ rfl rfl
  with_reducible assumption

def State.pruneVotes_foot : Foot := ⟨0x1020, 0x4000000⟩

theorem State.pruneVotes_follows {p s0} {a0} (hp : Foot.le State.pruneVotes_foot p) (h0 : Follows p s0 a0) :
    Follows p s0 (State.pruneVotes (a0)) := by
  unfold State.pruneVotes
  refine State.refreshVotes_follows (hp.sub rfl) ?_
  refine Follows.update hp ?_ rfl rfl
  with_reducible assumption

def State.nbrPoke_foot : Foot := ⟨0x2000, 0x1800000000000000000000000000000000000000000000000000000000000000000000000000001000000000000000030⟩

theorem State.nbrPoke_follows {p s0} {a0} {a1} (hp : Foot.le State.nbrPoke_foot p) (h0 : Follows p s0 a0) :
    Follows p s0 (State.nbrPoke (a0) (a1)) := by
  unfold State.nbrPoke
  refine Follows.ite ?_ ?_
  · with_reducible assumption
  · refine State.refreshFunc_follows (hp.sub rfl) ?_
    refine State.refreshSpent_follows (hp.sub rfl) ?_
    refine State.nbrSample_follows (hp.sub rfl) ?_
    with_reducible assumption

def State.tileTurn_foot : Foot := ⟨0x4040b00, 0xe8088000000000000000000000000000000000000000000001801a30fc600001000000000000000000000000000000000000000000000000001000000000000000000⟩

theorem State.tileTurn_follows {p s0} {a0} {a1} {a2} (hp : Foot.le State.tileTurn_foot p) (h0 : Follows p s0 a0) :
    Follows p s0 (State.tileTurn (a0) (a1) (a2)) := by
  unfold State.tileTurn
  refine Follows.ite ?_ ?_
  · refine State.tileRadio_follows (hp.sub rfl) ?_
    with_reducible assumption
  · with_reducible assumption

def State.returnTile_foot : Foot := ⟨0x4040b00, 0xe8088000000000000000000000000000000000000000000001801a30fc600001000000000000000000000000000000000000000000000000001000000000000000000⟩

theorem State.returnTile_follows {p s0} {a0} {a1} {a2} (hp : Foot.le State.returnTile_foot p) (h0 : Follows p s0 a0) :
    Follows p s0 (State.returnTile (a0) (a1) (a2)) := by
  unfold State.returnTile
  extract_lets y0 y1
  clear_value y0
  clear_value y1
  refine Follows.ite ?_ ?_
  · with_reducible assumption
  · split
    · refine State.tileRadio_follows (hp.sub rfl) ?_
      with_reducible assumption
    · refine Follows.ite ?_ ?_
      · refine State.tileTurn_follows (hp.sub rfl) ?_
        with_reducible assumption
      · refine Follows.ite ?_ ?_
        · with_reducible assumption
        · refine Follows.ite ?_ ?_
          · refine State.tileRadio_follows (hp.sub rfl) ?_
            with_reducible assumption
          · refine Follows.ite ?_ ?_
            · refine State.tileRadio_follows (hp.sub rfl) ?_
              with_reducible assumption
            · refine State.tileRadio_follows (hp.sub rfl) ?_
              with_reducible assumption

def State.returnTiles_foot : Foot := ⟨0x4040b00, 0xe8088000000000000000000000000000000000000000000001801a30fc600001000000000000000000000000000000000000000000000000001000000000000000000⟩

theorem State.returnTiles_follows {p s0} {a0} {a1} {a2} (hp : Foot.le State.returnTiles_foot p) (h0 : Follows p s0 a0) :
    Follows p s0 (State.returnTiles (a0) (a1) (a2)) := by
  unfold State.returnTiles
  refine Follows.forBits ?_ ?_
  · intro x0 x1 x2
    refine Follows.ite ?_ ?_
    · with_reducible assumption
    · refine State.returnTile_follows (hp.sub rfl) ?_
      with_reducible assumption
  · with_reducible assumption

def State.skipRing_foot : Foot := ⟨0x40004, 0xd00000000000000000000000000000000001000000000000000000⟩

theorem State.skipRing_follows {p s0} {a0} {a1} {a2} {a3} {a4} (hp : Foot.le State.skipRing_foot p) (h0 : Follows p s0 a0) :
    Follows p s0 (State.skipRing (a0) (a1) (a2) (a3) (a4)) := by
  unfold State.skipRing
  extract_lets y0 y1 y2 y3
  have k4 : Follows p s0 y0 := by
    subst y0
    refine State.bump_follows 215 hp ?_
    with_reducible assumption
  clear_value y0
  clear_value y1
  clear_value y2
  clear_value y3
  refine Follows.ite ?_ ?_
  · refine State.fire_follows (hp.sub rfl) ?_
    refine State.set_follows 212 hp ?_
    with_reducible assumption
  · refine State.fire_follows (hp.sub rfl) ?_
    refine State.yarn_follows (hp.sub rfl) ?_
    refine State.set_follows 214 hp ?_
    refine State.setWords_follows (hp.sub rfl) ?_
    with_reducible assumption

def State.skipRecord_foot : Foot := ⟨0x4040004, 0xe808800000000000000000000000000001000000000000000000000000000000000000000000000d00000000000000000000000000000000001000000000000000000⟩

theorem State.skipRecord_follows {p s0} {a0} {a1} {a2} {a3} {a4} (hp : Foot.le State.skipRecord_foot p) (h0 : Follows p s0 a0) :
    Follows p s0 (State.skipRecord (a0) (a1) (a2) (a3) (a4)) := by
  unfold State.skipRecord
  refine State.skipRing_follows (hp.sub rfl) ?_
  refine State.pmc_follows (hp.sub rfl) ?_
  refine State.nbrStat_follows (hp.sub rfl) ?_
  with_reducible assumption

def State.notePair_foot : Foot := ⟨0x1000, 0x0⟩

theorem State.notePair_follows {p s0} {a0} {a1} (hp : Foot.le State.notePair_foot p) (h0 : Follows p s0 a0) :
    Follows p s0 (State.notePair (a0) (a1)) := by
  unfold State.notePair
  extract_lets y0 y1
  clear_value y0
  clear_value y1
  refine Follows.update hp ?_ rfl rfl
  with_reducible assumption

def State.dropSwaps_foot : Foot := ⟨0x800, 0x20000000000000000000000000000000000000000000000000000000000000000⟩

theorem State.dropSwaps_follows {p s0} {a0} {a1} {a2} (hp : Foot.le State.dropSwaps_foot p) (h0 : Follows p s0 a0) :
    Follows p s0 (State.dropSwaps (a0) (a1) (a2)) := by
  unfold State.dropSwaps
  extract_lets y0
  have k1 : Follows p s0 y0 := by
    subst y0
    refine State.updSlot_follows (hp.sub rfl) ?_
    with_reducible assumption
  clear_value y0
  refine Follows.ite ?_ ?_
  · with_reducible assumption
  · refine State.set_follows 257 hp ?_
    with_reducible assumption

def State.refreshCx_foot : Foot := ⟨0x80, 0x0⟩

theorem State.refreshCx_follows {p s0} {a0} (hp : Foot.le State.refreshCx_foot p) (h0 : Follows p s0 a0) :
    Follows p s0 (State.refreshCx (a0)) := by
  unfold State.refreshCx
  extract_lets y0 y1 y2
  clear_value y0
  clear_value y1
  clear_value y2
  refine Follows.update hp ?_ rfl rfl
  with_reducible assumption

def State.skipCrossing_foot : Foot := ⟨0x404bba4, 0xe8088000000000000000000000000000010018000000000001801a30fc600001000020000000000d00000000000000000000000000000000001000000000004000030⟩

theorem State.skipCrossing_follows {p s0} {a0} {a1} {a2} (hp : Foot.le State.skipCrossing_foot p) (h0 : Follows p s0 a0) :
    Follows p s0 (State.skipCrossing (a0) (a1) (a2)) := by
  unfold State.skipCrossing
  extract_lets y0 y1 y2 y3 y4 y5
  clear_value y0
  have k6 : Follows p s0 y1 := by
    subst y1
    refine Follows.update hp ?_ rfl rfl
    with_reducible assumption
  clear_value y1
  have k7 : Follows p s0 y2 := by
    subst y2
    refine State.refreshCx_follows (hp.sub rfl) ?_
    refine State.dropSwaps_follows (hp.sub rfl) ?_
    refine State.skipRecord_follows (hp.sub rfl) ?_
    with_reducible assumption
  clear_value y2
  have k8 : Follows p s0 y3 := by
    subst y3
    refine State.updSlot_follows (hp.sub rfl) ?_
    with_reducible assumption
  clear_value y3
  have k9 : Follows p s0 y4 := by
    subst y4
    refine Follows.ite ?_ ?_
    · refine Follows.forAll ?_ ?_
      · intro x10 x11 x12
        refine State.updPipe_follows (hp.sub rfl) ?_
        with_reducible assumption
      · with_reducible assumption
    · with_reducible assumption
  clear_value y4
  have k13 : Follows p s0 y5 := by
    subst y5
    refine Follows.ite ?_ ?_
    · refine State.notePair_follows (hp.sub rfl) ?_
      with_reducible assumption
    · with_reducible assumption
  clear_value y5
  refine State.nbrPoke_follows (hp.sub rfl) ?_
  refine State.returnTiles_follows (hp.sub rfl) ?_
  refine State.unvoteFor_follows (hp.sub rfl) ?_
  with_reducible assumption

/-! ### Machine/Beam.lean -/

def State.setOpened_foot : Foot := ⟨0x100, 0x100000000000000000000000000000000000000000000000000000000000000000000000000000000000000⟩

theorem State.setOpened_follows {p s0} {a0} {a1} {a2} (hp : Foot.le State.setOpened_foot p) (h0 : Follows p s0 a0) :
    Follows p s0 (State.setOpened (a0) (a1) (a2)) := by
  unfold State.setOpened
  refine State.set_follows 344 hp ?_
  refine State.updTile_follows (hp.sub rfl) ?_
  with_reducible assumption

def State.copyOpened_foot : Foot := ⟨0x800, 0x0⟩

theorem State.copyOpened_follows {p s0} {a0} {a1} {a2} (hp : Foot.le State.copyOpened_foot p) (h0 : Follows p s0 a0) :
    Follows p s0 (State.copyOpened (a0) (a1) (a2)) := by
  unfold State.copyOpened
  refine Follows.forAll ?_ ?_
  · intro x0 x1 x2
    refine Follows.ite ?_ ?_
    · refine State.updSlot_follows (hp.sub rfl) ?_
      with_reducible assumption
    · with_reducible assumption
  · with_reducible assumption

def State.fragTouched_foot : Foot := ⟨0x900, 0x600100000000000000000000000000000000000000000000000000000000000000000000000000000000000000⟩

theorem State.fragTouched_follows {p s0} {a0} {a1} {a2} (hp : Foot.le State.fragTouched_foot p) (h0 : Follows p s0 a0) :
    Follows p s0 (State.fragTouched (a0) (a1) (a2)) := by
  unfold State.fragTouched
  extract_lets y0 y1
  have k2 : Follows p s0 y0 := by
    subst y0
    refine State.clrBit_follows 357 hp ?_
    with_reducible assumption
  clear_value y0
  have k3 : Follows p s0 y1 := by
    subst y1
    refine Follows.ite ?_ ?_
    · with_reducible assumption
    · refine State.clrBit_follows 358 hp ?_
      with_reducible assumption
  clear_value y1
  refine State.copyOpened_follows (hp.sub rfl) ?_
  refine State.setOpened_follows (hp.sub rfl) ?_
  with_reducible assumption

def State.dirTouched_foot : Foot := ⟨0x800, 0xe0000000000000000000000000000000000000000000000000000000000000000000000⟩

theorem State.dirTouched_follows {p s0} {a0} {a1} (hp : Foot.le State.dirTouched_foot p) (h0 : Follows p s0 a0) :
    Follows p s0 (State.dirTouched (a0) (a1)) := by
  unfold State.dirTouched
  extract_lets y0
  have k1 : Follows p s0 y0 := by
    subst y0
    refine State.copyOpened_follows (hp.sub rfl) ?_
    refine State.set_follows 283 hp ?_
    refine State.set_follows 281 hp ?_
    with_reducible assumption
  clear_value y0
  refine Follows.ite ?_ ?_
  · with_reducible assumption
  · refine State.set_follows 282 hp ?_
    with_reducible assumption

def State.tileCommitNow_foot : Foot := ⟨0x100, 0x200100000001000000000000000000000000000000000000000000000000000000000000000000000000000000⟩

theorem State.tileCommitNow_follows {p s0} {a0} {a1} (hp : Foot.le State.tileCommitNow_foot p) (h0 : Follows p s0 a0) :
    Follows p s0 (State.tileCommitNow (a0) (a1)) := by
  unfold State.tileCommitNow
  split
  · extract_lets y4
    have k5 : Follows p s0 y4 := by
      subst y4
      refine Follows.foldl ?_ ?_
      · intro x6 x7 x8
        refine State.setBit_follows 357 hp ?_
        with_reducible assumption
      · with_reducible assumption
    clear_value y4
    refine State.armTile_follows (hp.sub rfl) ?_
    refine State.setOpened_follows (hp.sub rfl) ?_
    with_reducible assumption

def State.bfCommitNow_foot : Foot := ⟨0x800, 0xa0000000000400000000000000000000000000000000000000000000000000000000000⟩

theorem State.bfCommitNow_follows {p s0} {a0} (hp : Foot.le State.bfCommitNow_foot p) (h0 : Follows p s0 a0) :
    Follows p s0 (State.bfCommitNow (a0)) := by
  unfold State.bfCommitNow
  extract_lets y0 y1
  have k2 : Follows p s0 y0 := by
    subst y0
    refine Follows.foldl ?_ ?_
    · intro x3 x4 x5
      refine Follows.ite ?_ ?_
      · with_reducible assumption
      · refine State.set_follows 283 hp ?_
        refine State.set_follows 281 hp ?_
        with_reducible assumption
    · with_reducible assumption
  clear_value y0
  have k6 : Follows p s0 y1 := by
    subst y1
    refine Follows.forAll ?_ ?_
    · intro x7 x8 x9
      refine State.updSlot_follows (hp.sub rfl) ?_
      with_reducible assumption
    · with_reducible assumption
  clear_value y1
  refine State.set_follows 238 hp ?_
  with_reducible assumption

def State.slotsLive_foot : Foot := ⟨0x800, 0xe000000400000000000000000000000000000000000000001000000000000000000⟩

theorem State.slotsLive_follows {p s0} {a0} (hp : Foot.le State.slotsLive_foot p) (h0 : Follows p s0 a0) :
    Follows p s0 (State.slotsLive (a0)) := by
  unfold State.slotsLive
  refine Follows.ite ?_ ?_
  · with_reducible assumption
  · extract_lets y0
    have k1 : Follows p s0 y0 := by
      subst y0
      refine Follows.forAll ?_ ?_
      · intro x2 x3 x4
        refine Follows.ite ?_ ?_
        · with_reducible assumption
        · extract_lets y5 y6
          have k7 : Follows p s0 y5 := by
            subst y5
            refine State.set_follows 266 hp ?_
            refine State.set_follows 265 hp ?_
            with_reducible assumption
          clear_value y5
          have k8 : Follows p s0 y6 := by
            subst y6
            refine State.set_follows 267 hp ?_
            with_reducible assumption
          clear_value y6
          refine State.updSlot_follows (hp.sub rfl) ?_
          with_reducible assumption
      · with_reducible assumption
    clear_value y0
    refine Follows.ite ?_ ?_
    · with_reducible assumption
    · refine State.fire_follows (hp.sub rfl) ?_
      refine State.set_follows 238 hp ?_
      with_reducible assumption

def State.preloadFail_foot : Foot := ⟨0x800, 0x18000000000000000000000000000000000000000000000000000000000000000⟩

theorem State.preloadFail_follows {p s0} {a0} {a1} {a2} {a3} (hp : Foot.le State.preloadFail_foot p) (h0 : Follows p s0 a0) :
    Follows p s0 (State.preloadFail (a0) (a1) (a2) (a3)) := by
  unfold State.preloadFail
  extract_lets y0 y1
  clear_value y0
  clear_value y1
  refine State.set_follows 256 hp ?_
  refine State.set_follows 255 hp ?_
  refine State.updSlot_follows (hp.sub rfl) ?_
  with_reducible assumption

def State.preload_foot : Foot := ⟨0x900, 0x118000000000000000000000000000000000000000000000000000000000000000⟩

theorem State.preload_follows {p s0} {a0} {a1} {a2} {a3} (hp : Foot.le State.preload_foot p) (h0 : Follows p s0 a0) :
    Follows p s0 (State.preload (a0) (a1) (a2) (a3)).1 := by
  unfold State.preload
  refine Follows.ite1 ?_ ?_
  · with_reducible assumption
  · extract_lets y0 y1 y2 y3 y4 y5 y6 y7 y8
    clear_value y0
    have k9 : Follows p s0 y1 := by
      subst y1
      refine State.updSlot_follows (hp.sub rfl) ?_
      with_reducible assumption
    clear_value y1
    clear_value y2
    clear_value y3
    clear_value y4
    have k10 : Follows p s0 y5 := by
      subst y5
      refine State.updSlot_follows (hp.sub rfl) ?_
      with_reducible assumption
    clear_value y5
    have k11 : Follows p s0 y6 := by
      subst y6
      refine Follows.forBits ?_ ?_
      · intro x12 x13 x14
        refine State.updBank_follows (hp.sub rfl) ?_
        with_reducible assumption
      · with_reducible assumption
    clear_value y6
    have k15 : Follows p s0 y7 := by
      subst y7
      refine State.set_follows 260 hp ?_
      refine State.set_follows 256 hp ?_
      refine State.set_follows 255 hp ?_
      with_reducible assumption
    clear_value y7
    have k16 : Follows p s0 y8 := by
      subst y8
      refine Follows.forBits ?_ ?_
      · intro x17 x18 x19
        refine Follows.ite ?_ ?_
        · with_reducible assumption
        · refine State.preloadFail_follows (hp.sub rfl) ?_
          with_reducible assumption
      · with_reducible assumption
    clear_value y8
    refine Follows.ite1 ?_ ?_
    · refine Follows.pair ?_
      refine State.set_follows 256 hp ?_
      refine State.set_follows 255 hp ?_
      with_reducible assumption
    · refine Follows.ite1 ?_ ?_
      · refine Follows.pair ?_
        refine State.set_follows 255 hp ?_
        with_reducible assumption
      · with_reducible assumption

def State.preloadReport_foot : Foot := ⟨0x1fffffff, 0x0⟩

theorem State.preloadReport_follows {p s0} {a0} {a1} {a2} {a3} (hp : Foot.le State.preloadReport_foot p) (h0 : Follows p s0 a0) :
    Follows p s0 (State.preloadReport (a0) (a1) (a2) (a3)) := by
  unfold State.preloadReport
  extract_lets y0 y1 y2 y3 y4 y5 y6 y7 y8
  clear_value y0
  clear_value y1
  clear_value y2
  have k9 : Follows p s0 y3 := by
    subst y3
    refine State.updSlot_follows (hp.sub rfl) ?_
    with_reducible assumption
  clear_value y3
  have k10 : Follows p s0 y4 := by
    subst y4
    refine Follows.ite ?_ ?_
    · refine State.hitPoison_follows (hp.sub rfl) ?_
      with_reducible assumption
    · with_reducible assumption
  clear_value y4
  have k11 : Follows p s0 y5 := by
    subst y5
    refine Follows.ite ?_ ?_
    · refine State.wordsSeen_follows (hp.sub rfl) ?_
      with_reducible assumption
    · with_reducible assumption
  clear_value y5
  clear_value y6
  clear_value y7
  have k12 : Follows p s0 y8 := by
    subst y8
    refine State.updBank_follows (hp.sub rfl) ?_
    with_reducible assumption
  clear_value y8
  refine Follows.ite ?_ ?_
  · with_reducible assumption
  · refine Follows.ite ?_ ?_
    · refine State.preloadFail_follows (hp.sub rfl) ?_
      with_reducible assumption
    · refine Follows.ite ?_ ?_
      · refine State.set_follows 256 hp ?_
        refine State.set_follows 255 hp ?_
        with_reducible assumption
      · with_reducible assumption

def State.swapEvent_foot : Foot := ⟨0x4040000, 0xe808800000000000000000000000000000000000000000000000000000000000000000000000000000000000000000000000000000000000001000000000000000000⟩

theorem State.swapEvent_follows {p s0} {a0} {a1} (hp : Foot.le State.swapEvent_foot p) (h0 : Follows p s0 a0) :
    Follows p s0 (State.swapEvent (a0) (a1)) := by
  unfold State.swapEvent
  refine State.pmc_follows (hp.sub rfl) ?_
  refine State.fire_follows (hp.sub rfl) ?_
  refine State.yarn_follows (hp.sub rfl) ?_
  with_reducible assumption

def State.askSwap_foot : Foot := ⟨0x4040800, 0xe808800000000000000000000000000000000000000000000000000000000000000000002000000000000000000000000000000000000000001000000000000000000⟩

theorem State.askSwap_follows {p s0} {a0} {a1} {a2} (hp : Foot.le State.askSwap_foot p) (h0 : Follows p s0 a0) :
    Follows p s0 (State.askSwap (a0) (a1) (a2)) := by
  unfold State.askSwap
  refine Follows.ite ?_ ?_
  · refine State.swapEvent_follows (hp.sub rfl) ?_
    refine State.setBit_follows 241 hp ?_
    with_reducible assumption
  · refine State.updSlot_follows (hp.sub rfl) ?_
    with_reducible assumption

def State.swapRequest_foot : Foot := ⟨0x4040800, 0xe808800000000000000000000000000000000000000000000000000000000000000000002000000000000000000000000000000000000000001000000000000000000⟩

theorem State.swapRequest_follows {p s0} {a0} {a1} (hp : Foot.le State.swapRequest_foot p) (h0 : Follows p s0 a0) :
    Follows p s0 (State.swapRequest (a0) (a1)) := by
  unfold State.swapRequest
  extract_lets y0
  clear_value y0
  refine Follows.forBits ?_ ?_
  · intro x1 x2 x3
    refine State.askSwap_follows (hp.sub rfl) ?_
    with_reducible assumption
  · with_reducible assumption

def State.refuseSwap_foot : Foot := ⟨0x404bba4, 0xe8088000000000000000000000000000010018000000000801801a30fc600001000020004000000d00000000000000000000000000000000001000000000004000030⟩

theorem State.refuseSwap_follows {p s0} {a0} {a1} {a2} (hp : Foot.le State.refuseSwap_foot p) (h0 : Follows p s0 a0) :
    Follows p s0 (State.refuseSwap (a0) (a1) (a2)) := by
  unfold State.refuseSwap
  extract_lets y0 y1 y2
  have k3 : Follows p s0 y0 := by
    subst y0
    refine State.updSlot_follows (hp.sub rfl) ?_
    with_reducible assumption
  clear_value y0
  have k4 : Follows p s0 y1 := by
    subst y1
    refine Follows.forAll ?_ ?_
    · intro x5 x6 x7
      refine Follows.ite ?_ ?_
      · refine State.fireTile_follows (hp.sub rfl) ?_
        refine State.setBit_follows 343 hp ?_
        with_reducible assumption
      · with_reducible assumption
    · with_reducible assumption
  clear_value y1
  have k8 : Follows p s0 y2 := by
    subst y2
    refine State.swapEvent_follows (hp.sub rfl) ?_
    refine State.setBit_follows 242 hp ?_
    with_reducible assumption
  clear_value y2
  split
  · refine State.skipCrossing_follows (hp.sub rfl) ?_
    with_reducible assumption
  · with_reducible assumption

def State.armCutoff_foot : Foot := ⟨0x404bbb4, 0xe8088000000000000000000000000000010018000000000801801a30fc600001000020004000000d00000000000000000000000000000000001000000000004000030⟩

theorem State.armCutoff_follows {p s0} {a0} {a1} (hp : Foot.le State.armCutoff_foot p) (h0 : Follows p s0 a0) :
    Follows p s0 (State.armCutoff (a0) (a1)) := by
  unfold State.armCutoff
  split
  · with_reducible assumption
  · extract_lets y5 y6 y7 y8 y9 y10 y11 y12 y13
    have k14 : Follows p s0 y5 := by
      subst y5
      refine State.reach_follows (hp.sub rfl) ?_
      with_reducible assumption
    clear_value y5
    clear_value y6
    clear_value y7
    clear_value y8
    clear_value y9
    clear_value y10
    clear_value y11
    have k15 : Follows p s0 y12 := by
      subst y12
      refine State.updSlot_follows (hp.sub rfl) ?_
      with_reducible assumption
    clear_value y12
    clear_value y13
    refine Follows.ite ?_ ?_
    · refine Follows.ite ?_ ?_
      · with_reducible assumption
      · refine State.set_follows 257 hp ?_
        with_reducible assumption
    · refine Follows.ite ?_ ?_
      · refine State.refuseSwap_follows (hp.sub rfl) ?_
        with_reducible assumption
      · refine State.set_follows 257 hp ?_
        refine State.updSlot_follows (hp.sub rfl) ?_
        with_reducible assumption

def State.loadSweep_foot : Foot := ⟨0x900, 0x100000000000000000000000000000000000000000000000000000000000000000⟩

theorem State.loadSweep_follows {p s0} {a0} {a1} {a2} {a3} (hp : Foot.le State.loadSweep_foot p) (h0 : Follows p s0 a0) :
    Follows p s0 (State.loadSweep (a0) (a1) (a2) (a3)) := by
  unfold State.loadSweep
  extract_lets y0 y1 y2
  clear_value y0
  have k3 : Follows p s0 y1 := by
    subst y1
    refine Follows.forAll ?_ ?_
    · intro x4 x5 x6
      refine Follows.ite ?_ ?_
      · extract_lets y7
        clear_value y7
        refine State.updBank_follows (hp.sub rfl) ?_
        with_reducible assumption
      · with_reducible assumption
    · with_reducible assumption
  clear_value y1
  clear_value y2
  refine State.set_follows 260 hp ?_
  refine State.updSlot_follows (hp.sub rfl) ?_
  with_reducible assumption

def State.settleMute_foot : Foot := ⟨0x800, 0x1000000000000000000000000000000000000000001000000000000000000⟩

theorem State.settleMute_follows {p s0} {a0} {a1} (hp : Foot.le State.settleMute_foot p) (h0 : Follows p s0 a0) :
    Follows p s0 (State.settleMute (a0) (a1)) := by
  unfold State.settleMute
  extract_lets y0 y1
  clear_value y0
  clear_value y1
  refine Follows.ite ?_ ?_
  · refine State.updSlot_follows (hp.sub rfl) ?_
    refine State.clrBit_follows 240 hp ?_
    with_reducible assumption
  · refine Follows.ite ?_ ?_
    · refine State.poisonMute_follows (hp.sub rfl) ?_
      with_reducible assumption
    · with_reducible assumption

def State.exchange_foot : Foot := ⟨0x900, 0x3d8000000000000000000000000000000000000000000000000000000000000000⟩

theorem State.exchange_follows {p s0} {a0} {a1} (hp : Foot.le State.exchange_foot p) (h0 : Follows p s0 a0) :
    Follows p s0 (State.exchange (a0) (a1)) := by
  unfold State.exchange
  extract_lets y0 y1 y2 y3 y4 y5 y6 y7
  clear_value y0
  clear_value y1
  clear_value y2
  clear_value y3
  have k8 : Follows p s0 y4 := by
    subst y4
    refine Follows.forAll ?_ ?_
    · intro x9 x10 x11
      refine Follows.ite ?_ ?_
      · refine State.updBank_follows (hp.sub rfl) ?_
        with_reducible assumption
      · with_reducible assumption
    · with_reducible assumption
  clear_value y4
  have k12 : Follows p s0 y5 := by
    subst y5
    refine State.set_follows 261 hp ?_
    refine State.set_follows 259 hp ?_
    with_reducible assumption
  clear_value y5
  have k13 : Follows p s0 y6 := by
    subst y6
    refine State.set_follows 260 hp ?_
    refine State.set_follows 258 hp ?_
    with_reducible assumption
  clear_value y6
  have k14 : Follows p s0 y7 := by
    subst y7
    refine State.set_follows 256 hp ?_
    refine State.set_follows 255 hp ?_
    with_reducible assumption
  clear_value y7
  refine State.updSlot_follows (hp.sub rfl) ?_
  with_reducible assumption

def State.bankSwap_foot : Foot := ⟨0x4040b10, 0xe8088000000000000000000000000000000000000000000000001a30fc0000010003f8001000000000000000000000000000000000000000001000000000000000030⟩

theorem State.bankSwap_follows {p s0} {a0} {a1} (hp : Foot.le State.bankSwap_foot p) (h0 : Follows p s0 a0) :
    Follows p s0 (State.bankSwap (a0) (a1)) := by
  unfold State.bankSwap
  split
  · with_reducible assumption
  · extract_lets y5 y6 y7 y8 y9 y10 y11 y12 y13 y14
    have k15 : Follows p s0 y5 := by
      subst y5
      refine State.reach_follows (hp.sub rfl) ?_
      with_reducible assumption
    clear_value y5
    have k16 : Follows p s0 y6 := by
      subst y6
      refine State.updSlot_follows (hp.sub rfl) ?_
      with_reducible assumption
    clear_value y6
    clear_value y7
    have k17 : Follows p s0 y8 := by
      subst y8
      split
      · refine Follows.ite ?_ ?_
        · refine State.updSlot_follows (hp.sub rfl) ?_
          refine State.loadSweep_follows (hp.sub rfl) ?_
          with_reducible assumption
        · refine State.updSlot_follows (hp.sub rfl) ?_
          with_reducible assumption
      · with_reducible assumption
    clear_value y8
    have k23 : Follows p s0 y9 := by
      subst y9
      refine State.settleMute_follows (hp.sub rfl) ?_
      refine State.exchange_follows (hp.sub rfl) ?_
      with_reducible assumption
    clear_value y9
    have k24 : Follows p s0 y10 := by
      subst y10
      refine Follows.ite ?_ ?_
      · with_reducible assumption
      · refine State.set_follows 257 hp ?_
        with_reducible assumption
    clear_value y10
    clear_value y11
    have k25 : Follows p s0 y12 := by
      subst y12
      refine State.refreshFunc_follows (hp.sub rfl) ?_
      refine State.updSlot_follows (hp.sub rfl) ?_
      with_reducible assumption
    clear_value y12
    have k26 : Follows p s0 y13 := by
      subst y13
      refine Follows.forAll ?_ ?_
      · intro x27 x28 x29
        refine Follows.ite ?_ ?_
        · refine State.tileYarn_follows (hp.sub rfl) ?_
          refine State.restoreTile_follows (hp.sub rfl) ?_
          refine State.updatePoint_follows (hp.sub rfl) ?_
          with_reducible assumption
        · with_reducible assumption
      · with_reducible assumption
    clear_value y13
    have k30 : Follows p s0 y14 := by
      subst y14
      refine State.pmc_follows (hp.sub rfl) ?_
      with_reducible assumption
    clear_value y14
    refine Follows.ite ?_ ?_
    · refine State.govern_follows (hp.sub rfl) ?_
      with_reducible assumption
    · with_reducible assumption

def State.sweepOver_foot : Foot := ⟨0x4041804, 0xe80880000000000000000000000000000000000000000000000000000000000000000000000000000001a000000000000000000000000000001000000000000000000⟩

theorem State.sweepOver_follows {p s0} {a0} {a1} {a2} (hp : Foot.le State.sweepOver_foot p) (h0 : Follows p s0 a0) :
    Follows p s0 (State.sweepOver (a0) (a1) (a2)) := by
  unfold State.sweepOver
  extract_lets y0 y1 y2
  have k3 : Follows p s0 y0 := by
    subst y0
    split
    · refine State.report_follows (hp.sub rfl) ?_
      with_reducible assumption
    · with_reducible assumption
  clear_value y0
  have k9 : Follows p s0 y1 := by
    subst y1
    refine State.updSlot_follows (hp.sub rfl) ?_
    with_reducible assumption
  clear_value y1
  clear_value y2
  refine State.fire_follows (hp.sub rfl) ?_
  refine State.yarn_follows (hp.sub rfl) ?_
  refine Follows.update hp ?_ rfl rfl
  with_reducible assumption

def State.sweepRecord_foot : Foot := ⟨0x4041804, 0xe808800000000000000000000000000000000000000000000000000000000000a0000000000000000001a000000000000000000000000000001000000000000000000⟩

theorem State.sweepRecord_follows {p s0} {a0} {a1} {a2} {a3} {a4} (hp : Foot.le State.sweepRecord_foot p) (h0 : Follows p s0 a0) :
    Follows p s0 (State.sweepRecord (a0) (a1) (a2) (a3) (a4)) := by
  unfold State.sweepRecord
  extract_lets y0 y1 y2 y3 y4 y5 y6 y7
  clear_value y0
  clear_value y1
  clear_value y2
  clear_value y3
  clear_value y4
  have k8 : Follows p s0 y5 := by
    subst y5
    refine Follows.ite ?_ ?_
    · refine State.fire_follows (hp.sub rfl) ?_
      refine State.set_follows 273 hp ?_
      with_reducible assumption
    · refine State.set_follows 275 hp ?_
      refine State.setWords_follows (hp.sub rfl) ?_
      with_reducible assumption
  clear_value y5
  clear_value y6
  have k9 : Follows p s0 y7 := by
    subst y7
    refine State.updSlot_follows (hp.sub rfl) ?_
    with_reducible assumption
  clear_value y7
  refine Follows.ite ?_ ?_
  · refine State.sweepOver_follows (hp.sub rfl) ?_
    with_reducible assumption
  · with_reducible assumption

def State.captureFail_foot : Foot := ⟨0x40100, 0x6000000000000000000000000000000000000000000000000000000000000000000001000000000000000000⟩

theorem State.captureFail_follows {p s0} {a0} {a1} {a2} (hp : Foot.le State.captureFail_foot p) (h0 : Follows p s0 a0) :
    Follows p s0 (State.captureFail (a0) (a1) (a2)) := by
  unfold State.captureFail
  refine State.fireTile_follows (hp.sub rfl) ?_
  refine State.tileYarn_follows (hp.sub rfl) ?_
  refine State.set_follows 349 hp ?_
  refine State.set_follows 350 hp ?_
  with_reducible assumption

def State.captureArm_foot : Foot := ⟨0x40500, 0x6000000000000000000020000000000000000000000000000000000000000000000001000000000000000000⟩

theorem State.captureArm_follows {p s0} {a0} (hp : Foot.le State.captureArm_foot p) (h0 : Follows p s0 a0) :
    Follows p s0 (State.captureArm (a0)) := by
  unfold State.captureArm
  extract_lets y0 y1 y2 y3
  clear_value y0
  have k4 : Follows p s0 y1 := by
    subst y1
    refine State.set_follows 269 hp ?_
    with_reducible assumption
  clear_value y1
  clear_value y2
  have k5 : Follows p s0 y3 := by
    subst y3
    refine Follows.update hp ?_ rfl rfl
    with_reducible assumption
  clear_value y3
  refine Follows.ite ?_ ?_
  · refine Follows.forBits ?_ ?_
    · intro x6 x7 x8
      refine Follows.ite ?_ ?_
      · refine State.captureFail_follows (hp.sub rfl) ?_
        with_reducible assumption
      · with_reducible assumption
    · with_reducible assumption
  · refine Follows.update hp ?_ rfl rfl
    with_reducible assumption

def State.captureTick_foot : Foot := ⟨0x4051c, 0xe000000000000000000000000000000000000000000000000000000000000000000001000000000000000000⟩

theorem State.captureTick_follows {p s0} {a0} {a1} (hp : Foot.le State.captureTick_foot p) (h0 : Follows p s0 a0) :
    Follows p s0 (State.captureTick (a0) (a1)) := by
  unfold State.captureTick
  refine Follows.ite ?_ ?_
  · with_reducible assumption
  · extract_lets y0 y1 y2 y3
    have k4 : Follows p s0 y0 := by
      subst y0
      refine State.reach_follows (hp.sub rfl) ?_
      with_reducible assumption
    clear_value y0
    clear_value y1
    have k5 : Follows p s0 y2 := by
      subst y2
      refine Follows.forBits ?_ ?_
      · intro x6 x7 x8
        refine Follows.ite ?_ ?_
        · with_reducible assumption
        · refine Follows.ite ?_ ?_
          · refine State.captureFail_follows (hp.sub rfl) ?_
            with_reducible assumption
          · extract_lets y9 y10
            clear_value y9
            have k11 : Follows p s0 y10 := by
              subst y10
              refine Follows.forAll ?_ ?_
              · intro x12 x13 x14
                extract_lets y15 y16
                clear_value y15
                clear_value y16
                refine State.store_follows (hp.sub rfl) ?_
                with_reducible assumption
              · with_reducible assumption
            clear_value y10
            refine State.fireTile_follows (hp.sub rfl) ?_
            refine State.tileYarn_follows (hp.sub rfl) ?_
            refine State.set_follows 351 hp ?_
            with_reducible assumption
      · with_reducible assumption
    clear_value y2
    clear_value y3
    refine Follows.update hp ?_ rfl rfl
    with_reducible assumption

def State.captureDone_foot : Foot := ⟨0x40000, 0x30000000000000000000000000000000000000000000000001000000000000000000⟩

theorem State.captureDone_follows {p s0} {a0} (hp : Foot.le State.captureDone_foot p) (h0 : Follows p s0 a0) :
    Follows p s0 (State.captureDone (a0)) := by
  unfold State.captureDone
  refine Follows.ite ?_ ?_
  · with_reducible assumption
  · refine State.fire_follows (hp.sub rfl) ?_
    refine State.yarn_follows (hp.sub rfl) ?_
    refine State.set_follows 268 hp ?_
    refine State.set_follows 269 hp ?_
    with_reducible assumption

def State.tensionAsk_foot : Foot := ⟨0x100, 0x0⟩

theorem State.tensionAsk_follows {p s0} {a0} {a1} (hp : Foot.le State.tensionAsk_foot p) (h0 : Follows p s0 a0) :
    Follows p s0 (State.tensionAsk (a0) (a1)) := by
  unfold State.tensionAsk
  refine State.updTile_follows (hp.sub rfl) ?_
  with_reducible assumption

def State.writeCoarse_foot : Foot := ⟨0x0, 0x18000000000000000000000000000000000000000000000000000000000000000000000000000000000⟩

theorem State.writeCoarse_follows {p s0} {a0} {a1} {a2} (hp : Foot.le State.writeCoarse_foot p) (h0 : Follows p s0 a0) :
    Follows p s0 (State.writeCoarse (a0) (a1) (a2)) := by
  unfold State.writeCoarse
  refine Follows.foldl ?_ ?_
  · intro x0 x1 x2
    refine State.setS_follows 327 hp ?_
    refine State.setS_follows 328 hp ?_
    with_reducible assumption
  · with_reducible assumption

def State.tensionWindow_foot : Foot := ⟨0x120, 0x10000018000000000010000000000000000000000000000000000000000000000000000000000000004000000⟩

theorem State.tensionWindow_follows {p s0} {a0} {a1} {a2} (hp : Foot.le State.tensionWindow_foot p) (h0 : Follows p s0 a0) :
    Follows p s0 (State.tensionWindow (a0) (a1) (a2)) := by
  unfold State.tensionWindow
  split
  · refine Follows.ite ?_ ?_
    · extract_lets y2 y3
      clear_value y2
      have k4 : Follows p s0 y3 := by
        subst y3
        refine State.updTile_follows (hp.sub rfl) ?_
        with_reducible assumption
      clear_value y3
      refine State.vote_follows (hp.sub rfl) ?_
      refine State.set_follows 352 hp ?_
      refine State.clrBit_follows 280 hp ?_
      with_reducible assumption
    · with_reducible assumption
  · extract_lets y8 y9 y10 y11 y12
    clear_value y8
    clear_value y9
    clear_value y10
    clear_value y11
    have k13 : Follows p s0 y12 := by
      subst y12
      refine State.updTile_follows (hp.sub rfl) ?_
      with_reducible assumption
    clear_value y12
    refine Follows.ite ?_ ?_
    · refine State.writeCoarse_follows (hp.sub rfl) ?_
      with_reducible assumption
    · with_reducible assumption

def State.tensionTaken_foot : Foot := ⟨0x100, 0x0⟩

theorem State.tensionTaken_follows {p s0} {a0} {a1} (hp : Foot.le State.tensionTaken_foot p) (h0 : Follows p s0 a0) :
    Follows p s0 (State.tensionTaken (a0) (a1)) := by
  unfold State.tensionTaken
  refine Follows.forBits ?_ ?_
  · intro x0 x1 x2
    refine State.updTile_follows (hp.sub rfl) ?_
    with_reducible assumption
  · with_reducible assumption

def State.tensionEnd_foot : Foot := ⟨0x120, 0x10000000000000000000000000000000000000000000000000000000000000000000000000000000004000000⟩

theorem State.tensionEnd_follows {p s0} {a0} {a1} (hp : Foot.le State.tensionEnd_foot p) (h0 : Follows p s0 a0) :
    Follows p s0 (State.tensionEnd (a0) (a1)) := by
  unfold State.tensionEnd
  refine State.unvote_follows (hp.sub rfl) ?_
  refine State.set_follows 352 hp ?_
  refine State.updTile_follows (hp.sub rfl) ?_
  with_reducible assumption

def State.tensionTimeout_foot : Foot := ⟨0x130, 0x10000000000000000000000000000000000000000000000000000000000000000000000000000000004000000⟩

theorem State.tensionTimeout_follows {p s0} {a0} {a1} (hp : Foot.le State.tensionTimeout_foot p) (h0 : Follows p s0 a0) :
    Follows p s0 (State.tensionTimeout (a0) (a1)) := by
  unfold State.tensionTimeout
  split
  · with_reducible assumption
  · extract_lets y5
    have k6 : Follows p s0 y5 := by
      subst y5
      refine State.reach_follows (hp.sub rfl) ?_
      with_reducible assumption
    clear_value y5
    refine State.tensionAsk_follows (hp.sub rfl) ?_
    refine State.tensionEnd_follows (hp.sub rfl) ?_
    with_reducible assumption

def State.tensionTrigger_foot : Foot := ⟨0x110, 0x0⟩

theorem State.tensionTrigger_follows {p s0} {a0} {a1} {a2} (hp : Foot.le State.tensionTrigger_foot p) (h0 : Follows p s0 a0) :
    Follows p s0 (State.tensionTrigger (a0) (a1) (a2)) := by
  unfold State.tensionTrigger
  refine Follows.ite ?_ ?_
  · with_reducible assumption
  · extract_lets y0 y1 y2
    clear_value y0
    clear_value y1
    clear_value y2
    refine Follows.ite ?_ ?_
    · refine Follows.ite ?_ ?_
      · refine State.tensionAsk_follows (hp.sub rfl) ?_
        with_reducible assumption
      · with_reducible assumption
    · refine Follows.ite ?_ ?_
      · with_reducible assumption
      · refine State.tensionAsk_follows (hp.sub rfl) ?_
        refine State.reach_follows (hp.sub rfl) ?_
        with_reducible assumption

/-! ### Machine/Link.lean -/

def State.linkPump_foot : Foot := ⟨0x4200000, 0xe808800000000000000000000000000000000000000000000000000000000000000000000000000000000000000000000000000000000000001000000000000000000⟩

theorem State.linkPump_follows {p s0} {a0} {a1} (hp : Foot.le State.linkPump_foot p) (h0 : Follows p s0 a0) :
    Follows p s0 (State.linkPump (a0) (a1)) := by
  unfold State.linkPump
  extract_lets y0 y1 y2
  clear_value y0
  have k3 : Follows p s0 y1 := by
    subst y1
    refine State.updLink_follows (hp.sub rfl) ?_
    with_reducible assumption
  clear_value y1
  clear_value y2
  refine Follows.ite ?_ ?_
  · with_reducible assumption
  · refine State.pmcAt_follows (hp.sub rfl) ?_
    refine State.updLink_follows (hp.sub rfl) ?_
    with_reducible assumption

def State.linkSend_foot : Foot := ⟨0x4200000, 0xe808800000000000000000000000000000000000000000000000000000000000000000000000000000000000000000000000000000000000001000000000000000000⟩

theorem State.linkSend_follows {p s0} {a0} {a1} {a2} (hp : Foot.le State.linkSend_foot p) (h0 : Follows p s0 a0) :
    Follows p s0 (State.linkSend (a0) (a1) (a2)) := by
  unfold State.linkSend
  refine State.linkPump_follows (hp.sub rfl) ?_
  refine State.updLink_follows (hp.sub rfl) ?_
  with_reducible assumption

def State.hostWrite_foot : Foot := ⟨0x4200000, 0xe808800000000000000000000000000000000000000000000000000000000000000000000000000000000000000000000000000000000000001000000000000000000⟩

theorem State.hostWrite_follows {p s0} {a0} {a1} {a2} (hp : Foot.le State.hostWrite_foot p) (h0 : Follows p s0 a0) :
    Follows p s0 (State.hostWrite (a0) (a1) (a2)) := by
  unfold State.hostWrite
  refine Follows.foldl ?_ ?_
  · intro x0 x1 x2
    refine State.linkSend_follows (hp.sub rfl) ?_
    with_reducible assumption
  · with_reducible assumption

def State.settleCancels_foot : Foot := ⟨0x4200000, 0xe808800000000000000000000000000000000000000000000000000000000000000000000000000000000000000000000000000000000000001000000000000000000⟩

theorem State.settleCancels_follows {p s0} {a0} (hp : Foot.le State.settleCancels_foot p) (h0 : Follows p s0 a0) :
    Follows p s0 (State.settleCancels (a0)) := by
  unfold State.settleCancels
  extract_lets y0 y1 y2 y3
  clear_value y0
  clear_value y1
  clear_value y2
  have k4 : Follows p s0 y3 := by
    subst y3
    refine Follows.update hp ?_ rfl rfl
    with_reducible assumption
  clear_value y3
  refine Follows.ite ?_ ?_
  · with_reducible assumption
  · refine Follows.foldl ?_ ?_
    · intro x5 x6 x7
      refine State.linkSend_follows (hp.sub rfl) ?_
      refine State.updLink_follows (hp.sub rfl) ?_
      with_reducible assumption
    · with_reducible assumption

/-! ### Machine/Landing.lean -/

def State.ringTake_foot : Foot := ⟨0x0, 0x20000000000000000000000000000000000000000000000000000000000000000000000000000000000000000000000000000000000000⟩

theorem State.ringTake_follows {p s0} {a0} {a1} {a2} (hp : Foot.le State.ringTake_foot p) (h0 : Follows p s0 a0) :
    Follows p s0 (State.ringTake (a0) (a1) (a2)) := by
  unfold State.ringTake
  refine State.set_follows 437 hp ?_
  with_reducible assumption

def State.fillDescs_foot : Foot := ⟨0x4200000, 0xe808800000000000000000000000000000000000000000000000000000000000000000000000000000000000000000000000000000000000001000000000000000000⟩

theorem State.fillDescs_follows : ∀ {p s0} {a0} {a1} {a2} (_hp : Foot.le State.fillDescs_foot p) (_h0 : Follows p s0 a0),
    Follows p s0 (State.fillDescs (a0) (a1) (a2)) := by
  intro p s0 a0 a1 a2 hp h0
  induction a2 generalizing a0 a1
  · unfold State.fillDescs
    with_reducible assumption
  · rename_i z1 z2 z4
    unfold State.fillDescs
    extract_lets y5
    have k6 : Follows p s0 y5 := by
      subst y5
      refine Follows.ite ?_ ?_
      · with_reducible assumption
      · refine State.hostWrite_follows (hp.sub rfl) ?_
        with_reducible assumption
    clear_value y5
    apply z4
    with_reducible assumption

def State.backDescs_foot : Foot := ⟨0x4200000, 0xe808800000000000000000000000000000000000000000000000000000000000000000000000000000000000000000000000000000000000001000000000000000000⟩

theorem State.backDescs_follows : ∀ {p s0} {a0} {a1} {a2} {a3} {a4} {a5} {a6} (_hp : Foot.le State.backDescs_foot p) (_h0 : Follows p s0 a0),
    Follows p s0 (State.backDescs (a0) (a1) (a2) (a3) (a4) (a5) (a6)) := by
  intro p s0 a0 a1 a2 a3 a4 a5 a6 hp h0
  induction a6 generalizing a0 a1 a2 a3 a4 a5
  · unfold State.backDescs
    with_reducible assumption
  · rename_i z3 z4 z8
    unfold State.backDescs
    extract_lets y9 y10 y11
    clear_value y9
    clear_value y10
    have k12 : Follows p s0 y11 := by
      subst y11
      refine State.hostWrite_follows (hp.sub rfl) ?_
      with_reducible assumption
    clear_value y11
    apply z8
    with_reducible assumption

def State.toPool_foot : Foot := ⟨0xc, 0x0⟩

theorem State.toPool_follows {p s0} {a0} {a1} {a2} (hp : Foot.le State.toPool_foot p) (h0 : Follows p s0 a0) :
    Follows p s0 (State.toPool (a0) (a1) (a2)).1 := by
  unfold State.toPool
  extract_lets y0
  have k1 : Follows p s0 y0 := by
    subst y0
    refine State.setBytes_follows hp ?_
    with_reducible assumption
  clear_value y0
  refine Follows.pair ?_
  refine Follows.update hp ?_ rfl rfl
  with_reducible assumption

def State.dropAccepted_foot : Foot := ⟨0x0, 0x5010000000000000000000000000000000000000000000000000000000000000000000000000000000000000000000000000⟩

theorem State.dropAccepted_follows {p s0} {a0} {a1} {a2} (hp : Foot.le State.dropAccepted_foot p) (h0 : Follows p s0 a0) :
    Follows p s0 (State.dropAccepted (a0) (a1) (a2)) := by
  unfold State.dropAccepted
  extract_lets y0 y1 y2 y3
  clear_value y0
  clear_value y1
  clear_value y2
  have k4 : Follows p s0 y3 := by
    subst y3
    refine Follows.ite ?_ ?_
    · refine State.set2_follows 398 hp ?_
      with_reducible assumption
    · refine State.set2_follows 388 hp ?_
      with_reducible assumption
  clear_value y3
  refine State.nbrStat_follows (hp.sub rfl) ?_
  refine State.set_follows 396 hp ?_
  with_reducible assumption

def State.leaveBuffer_foot : Foot := ⟨0x202c, 0x5011800000000000000000000000000000000000000000000000000000000000000000000000000001000000000004000030⟩

theorem State.leaveBuffer_follows {p s0} {a0} {a1} {a2} {a3} (hp : Foot.le State.leaveBuffer_foot p) (h0 : Follows p s0 a0) :
    Follows p s0 (State.leaveBuffer (a0) (a1) (a2) (a3)) := by
  unfold State.leaveBuffer
  extract_lets y0
  have k1 : Follows p s0 y0 := by
    subst y0
    split
    · extract_lets y5
      have k6 : Follows p s0 y5.1 := by
        subst y5
        refine State.toPool_follows (hp.sub rfl) ?_
        with_reducible assumption
      clear_value y5
      refine State.updNbr_follows (hp.sub rfl) ?_
      with_reducible assumption
    · refine State.dropAccepted_follows (hp.sub rfl) ?_
      refine State.updNbr_follows (hp.sub rfl) ?_
      with_reducible assumption
  clear_value y0
  refine State.nbrPoke_follows (hp.sub rfl) ?_
  refine State.refreshVotes_follows (hp.sub rfl) ?_
  with_reducible assumption

def State.landFrame_foot : Foot := ⟨0x1420202c, 0xe808802000000000000000020000000005011800000000000000000000000000000000000000000000000000000000000000000000000000001000000000004000030⟩

theorem State.landFrame_follows {p s0} {a0} {a1} {a2} (hp : Foot.le State.landFrame_foot p) (h0 : Follows p s0 a0) :
    Follows p s0 (State.landFrame (a0) (a1) (a2)) := by
  unfold State.landFrame
  split
  · with_reducible assumption
  · extract_lets y6 y7 y8 y9 y10 y11
    clear_value y6
    clear_value y7
    clear_value y8
    clear_value y9
    have k12 : Follows p s0 y10 := by
      subst y10
      split
      · refine Follows.ite ?_ ?_
        · extract_lets y16
          have k17 : Follows p s0 y16 := by
            subst y16
            refine State.hitPoison_follows (hp.sub rfl) ?_
            with_reducible assumption
          clear_value y16
          refine Follows.update hp ?_ rfl rfl
          with_reducible assumption
        · with_reducible assumption
      · with_reducible assumption
    clear_value y10
    clear_value y11
    split
    · refine Follows.ite ?_ ?_
      · with_reducible assumption
      · refine State.leaveBuffer_follows (hp.sub rfl) ?_
        with_reducible assumption
    · refine Follows.ite ?_ ?_
      · with_reducible assumption
      · extract_lets y25 y26 y27
        have k28 : Follows p s0 y25 := by
          subst y25
          refine State.backDescs_follows (hp.sub rfl) ?_
          refine State.fillDescs_follows (hp.sub rfl) ?_
          with_reducible assumption
        clear_value y25
        have k29 : Follows p s0 y26 := by
          subst y26
          refine State.updNbr_follows (hp.sub rfl) ?_
          refine State.ringTake_follows (hp.sub rfl) ?_
          with_reducible assumption
        clear_value y26
        have k30 : Follows p s0 y27 := by
          subst y27
          refine State.postEntry_follows (hp.sub rfl) ?_
          with_reducible assumption
        clear_value y27
        refine State.nbrPoke_follows (hp.sub rfl) ?_
        refine State.refreshVotes_follows (hp.sub rfl) ?_
        with_reducible assumption

def State.holdFrame_foot : Foot := ⟨0x200c, 0x0⟩

theorem State.holdFrame_follows {p s0} {a0} {a1} {a2} (hp : Foot.le State.holdFrame_foot p) (h0 : Follows p s0 a0) :
    Follows p s0 (State.holdFrame (a0) (a1) (a2)).1 := by
  unfold State.holdFrame
  extract_lets y0
  clear_value y0
  refine Follows.ite1 ?_ ?_
  · refine Follows.pair ?_
    refine State.updNbr_follows (hp.sub rfl) ?_
    with_reducible assumption
  · split
    · with_reducible assumption
    · extract_lets y6
      have k7 : Follows p s0 y6.1 := by
        subst y6
        refine State.toPool_follows (hp.sub rfl) ?_
        with_reducible assumption
      clear_value y6
      refine Follows.pair ?_
      refine State.updNbr_follows (hp.sub rfl) ?_
      with_reducible assumption

def State.softClose_foot : Foot := ⟨0x4200000, 0xe808800000000000000000000000000000000000000000000000000000000000000000000000000000000000000000000000000000000000001000000000000000000⟩

theorem State.softClose_follows {p s0} {a0} {a1} {a2} {a3} {a4} {a5} {a6} {a7} (hp : Foot.le State.softClose_foot p) (h0 : Follows p s0 a0) :
    Follows p s0 (State.softClose (a0) (a1) (a2) (a3) (a4) (a5) (a6) (a7)) := by
  unfold State.softClose
  split
  · with_reducible assumption
  · extract_lets y7 y8
    clear_value y7
    clear_value y8
    refine State.postEntry_follows (hp.sub rfl) ?_
    refine State.hostWrite_follows (hp.sub rfl) ?_
    with_reducible assumption

def State.softEnd_foot : Foot := ⟨0x4200000, 0xe808800000000000000000000000000000000000000000000000000000000000000000000000000000000000000000000000000000000000001000000000000000000⟩

theorem State.softEnd_follows {p s0} {a0} {a1} {a2} {a3} (hp : Foot.le State.softEnd_foot p) (h0 : Follows p s0 a0) :
    Follows p s0 (State.softEnd (a0) (a1) (a2) (a3)) := by
  unfold State.softEnd
  extract_lets y0
  clear_value y0
  refine State.softClose_follows (hp.sub rfl) ?_
  with_reducible assumption

def State.softWrite_foot : Foot := ⟨0x4200000, 0xe808800000000000000000020000000000000000000000000000000000000000000000000000000000001000000000000000000000000000001000000000000000000⟩

theorem State.softWrite_follows {p s0} {a0} {a1} {a2} {a3} {a4} {a5} {a6} (hp : Foot.le State.softWrite_foot p) (h0 : Follows p s0 a0) :
    Follows p s0 (State.softWrite (a0) (a1) (a2) (a3) (a4) (a5) (a6)).1 := by
  unfold State.softWrite
  refine Follows.ite1 ?_ ?_
  · with_reducible assumption
  · extract_lets y0 y1 y2
    clear_value y0
    clear_value y1
    clear_value y2
    split
    · refine Follows.pair ?_
      refine State.fire_follows (hp.sub rfl) ?_
      refine State.bump_follows 192 hp ?_
      with_reducible assumption
    · extract_lets y9 y10 y11 y12
      have k13 : Follows p s0 y9 := by
        subst y9
        refine Follows.ite ?_ ?_
        · refine State.ringTake_follows (hp.sub rfl) ?_
          with_reducible assumption
        · with_reducible assumption
      clear_value y9
      clear_value y10
      have k14 : Follows p s0 y11 := by
        subst y11
        refine State.hostWrite_follows (hp.sub rfl) ?_
        with_reducible assumption
      clear_value y11
      clear_value y12
      refine Follows.ite1 ?_ ?_
      · refine Follows.pair ?_
        refine State.softEnd_follows (hp.sub rfl) ?_
        with_reducible assumption
      · with_reducible assumption

def State.entryWrite_foot : Foot := ⟨0x4200000, 0xe808800000000000000000010000000000000000000000000000000000000000000000000000000000000000000000000000000000000000001000000000000000000⟩

theorem State.entryWrite_follows {p s0} {a0} (hp : Foot.le State.entryWrite_foot p) (h0 : Follows p s0 a0) :
    Follows p s0 (State.entryWrite (a0)) := by
  unfold State.entryWrite
  split
  · with_reducible assumption
  · extract_lets y6 y7 y8 y9 y10 y11
    clear_value y6
    clear_value y7
    have k12 : Follows p s0 y8 := by
      subst y8
      refine State.hostWrite_follows (hp.sub rfl) ?_
      with_reducible assumption
    clear_value y8
    clear_value y9
    have k13 : Follows p s0 y10 := by
      subst y10
      refine Follows.update hp ?_ rfl rfl
      with_reducible assumption
    clear_value y10
    have k14 : Follows p s0 y11 := by
      subst y11
      refine Follows.ite ?_ ?_
      · refine State.updLink_follows (hp.sub rfl) ?_
        with_reducible assumption
      · with_reducible assumption
    clear_value y11
    refine Follows.ite ?_ ?_
    · with_reducible assumption
    · refine State.settleCancels_follows (hp.sub rfl) ?_
      refine State.set_follows 436 hp ?_
      with_reducible assumption

def execCompletionEntryWrite_foot : Foot := ⟨0x4200000, 0xe808800000000000000000010000000000000000000000000000000000000000000000000000000000000000000000000000000000000000001000000000000000000⟩

theorem execCompletionEntryWrite_follows {p s0} {a0} (hp : Foot.le execCompletionEntryWrite_foot p) (h0 : Follows p s0 a0) :
    FollowsOut p s0 (execCompletionEntryWrite (a0)) := by
  unfold execCompletionEntryWrite
  refine FollowsOut.next ?_
  refine State.entryWrite_follows (hp.sub rfl) ?_
  with_reducible assumption

end Sys2Proof.Machine
end

