-- ==== Sys2Proof/Laws/FootAir.lean ====
section
/-! SUPPORT. Laws/FootAir.lean: one footprint and one lemma for each operation of
the radio: the MAC's clock, the PHY, the MAC, the engines' state, the timetable and the blocks (Laws/Follows.lean). -/

set_option Elab.async false

namespace Sys2Proof.Machine

open Sys2Proof

set_option maxRecDepth 20000

/-! ### Machine/MacTime.lean -/

def State.nbrAbsent_foot : Foot := ⟨0x40000, 0x1002080000000000000000000000000000000000100000000000000000000000000000000000000001000000000000000000⟩

theorem State.nbrAbsent_follows {p s0} {a0} {a1} (hp : Foot.le State.nbrAbsent_foot p) (h0 : Follows p s0 a0) :
    Follows p s0 (State.nbrAbsent (a0) (a1)) := by
  unfold State.nbrAbsent
  extract_lets y0 y1 y2
  have k3 : Follows p s0 y0 := by
    subst y0
    refine State.bump_follows 379 hp ?_
    refine State.nbrStat_follows (hp.sub rfl) ?_
    with_reducible assumption
  clear_value y0
  clear_value y1
  clear_value y2
  refine Follows.ite ?_ ?_
  · with_reducible assumption
  · refine Follows.ite ?_ ?_
    · refine State.fire_follows (hp.sub rfl) ?_
      refine State.yarn_follows (hp.sub rfl) ?_
      refine State.setBit_follows 236 hp ?_
      refine State.set_follows 385 hp ?_
      with_reducible assumption
    · refine State.set_follows 385 hp ?_
      with_reducible assumption

def State.nbrHeard_foot : Foot := ⟨0x40000, 0x2180000000000000000000000000000000000200000000000000000000000000000000000000001000000000000000000⟩

theorem State.nbrHeard_follows {p s0} {a0} {a1} (hp : Foot.le State.nbrHeard_foot p) (h0 : Follows p s0 a0) :
    Follows p s0 (State.nbrHeard (a0) (a1)) := by
  unfold State.nbrHeard
  extract_lets y0 y1
  clear_value y0
  have k2 : Follows p s0 y1 := by
    subst y1
    refine State.set_follows 379 hp ?_
    with_reducible assumption
  clear_value y1
  refine Follows.ite ?_ ?_
  · refine State.fire_follows (hp.sub rfl) ?_
    refine State.yarn_follows (hp.sub rfl) ?_
    refine State.setBit_follows 237 hp ?_
    refine State.set_follows 380 hp ?_
    refine State.set_follows 385 hp ?_
    with_reducible assumption
  · refine Follows.ite ?_ ?_
    · refine State.set_follows 385 hp ?_
      with_reducible assumption
    · with_reducible assumption

def State.shiftOffsets_foot : Foot := ⟨0x400000, 0x80000000000000000000000000000000000000000000000000000000000000000000000000000000000000000000000000⟩

theorem State.shiftOffsets_follows {p s0} {a0} {a1} (hp : Foot.le State.shiftOffsets_foot p) (h0 : Follows p s0 a0) :
    Follows p s0 (State.shiftOffsets (a0) (a1)) := by
  unfold State.shiftOffsets
  extract_lets y0 y1
  clear_value y0
  have k2 : Follows p s0 y1 := by
    subst y1
    refine Follows.ite ?_ ?_
    · refine Follows.update hp ?_ rfl rfl
      with_reducible assumption
    · with_reducible assumption
  clear_value y1
  refine Follows.forAll ?_ ?_
  · intro x3 x4 x5
    refine Follows.ite ?_ ?_
    · refine State.setS2_follows 391 hp ?_
      with_reducible assumption
    · with_reducible assumption
  · with_reducible assumption

def State.slewSettle_foot : Foot := ⟨0x400010, 0x80000000000000000000000000000000000000000000000000000000000000000000000000000000000000000000000000⟩

theorem State.slewSettle_follows {p s0} {a0} (hp : Foot.le State.slewSettle_foot p) (h0 : Follows p s0 a0) :
    Follows p s0 (State.slewSettle (a0)) := by
  unfold State.slewSettle
  extract_lets y0 y1
  clear_value y0
  clear_value y1
  refine Follows.ite ?_ ?_
  · with_reducible assumption
  · refine State.shiftOffsets_follows (hp.sub rfl) ?_
    refine Follows.update hp ?_ rfl rfl
    with_reducible assumption

def State.setSlew_foot : Foot := ⟨0x10, 0x4000000000000000000000000000000000000000000000000000000000⟩

theorem State.setSlew_follows {p s0} {a0} {a1} (hp : Foot.le State.setSlew_foot p) (h0 : Follows p s0 a0) :
    Follows p s0 (State.setSlew (a0) (a1)) := by
  unfold State.setSlew
  extract_lets y0 y1
  clear_value y0
  have k2 : Follows p s0 y1 := by
    subst y1
    refine Follows.update hp ?_ rfl rfl
    with_reducible assumption
  clear_value y1
  refine Follows.ite ?_ ?_
  · with_reducible assumption
  · refine State.setS_follows 230 hp ?_
    with_reducible assumption

def State.timeUnlock_foot : Foot := ⟨0x10, 0x10000000000000000000000000000000000000001000000000000000000⟩

theorem State.timeUnlock_follows {p s0} {a0} (hp : Foot.le State.timeUnlock_foot p) (h0 : Follows p s0 a0) :
    Follows p s0 (State.timeUnlock (a0)) := by
  unfold State.timeUnlock
  extract_lets y0 y1
  clear_value y0
  have k2 : Follows p s0 y1 := by
    subst y1
    refine Follows.update hp ?_ rfl rfl
    with_reducible assumption
  clear_value y1
  refine Follows.ite ?_ ?_
  · refine State.fire_follows (hp.sub rfl) ?_
    refine State.set_follows 232 hp ?_
    with_reducible assumption
  · with_reducible assumption

def State.parentSample_foot : Foot := ⟨0x10, 0xb4000000000000000000000000000000000000001000000000000000000⟩

theorem State.parentSample_follows {p s0} {a0} {a1} {a2} (hp : Foot.le State.parentSample_foot p) (h0 : Follows p s0 a0) :
    Follows p s0 (State.parentSample (a0) (a1) (a2)) := by
  unfold State.parentSample
  refine Follows.ite ?_ ?_
  · with_reducible assumption
  · extract_lets y0 y1 y2 y3 y4 y5 y6 y7 y8 y9
    have k10 : Follows p s0 y2 := by
      subst y2
      refine Follows.update hp ?_ rfl rfl
      with_reducible assumption
    have k11 : Follows p s0 y3 := by
      subst y3
      refine State.setSlew_follows (hp.sub rfl) ?_
      with_reducible assumption
    have k12 : Follows p s0 y4 := by
      subst y4
      refine State.setS_follows 235 hp ?_
      with_reducible assumption
    clear_value y6
    have k13 : Follows p s0 y7 := by
      subst y7
      refine Follows.update hp ?_ rfl rfl
      with_reducible assumption
    clear_value y7
    have k14 : Follows p s0 y8 := by
      subst y8
      refine Follows.ite ?_ ?_
      · refine State.timeUnlock_follows (hp.sub rfl) ?_
        with_reducible assumption
      · refine Follows.ite ?_ ?_
        · refine Follows.ite ?_ ?_
          · refine State.set_follows 232 hp ?_
            with_reducible assumption
          · with_reducible assumption
        · refine Follows.update hp ?_ rfl rfl
          with_reducible assumption
    clear_value y8
    clear_value y9
    refine Follows.ite ?_ ?_
    · refine Follows.update hp ?_ rfl rfl
      with_reducible assumption
    · refine Follows.ite ?_ ?_
      · refine Follows.ite ?_ ?_
        · with_reducible assumption
        · refine State.fire_follows (hp.sub rfl) ?_
          refine State.set_follows 233 hp ?_
          with_reducible assumption
      · with_reducible assumption

def State.propSample_foot : Foot := ⟨0x2000, 0x600000000000000000000000000000000000000000000000000000000000000000000000000000000000000000000000000⟩

theorem State.propSample_follows {p s0} {a0} {a1} {a2} {a3} {a4} (hp : Foot.le State.propSample_foot p) (h0 : Follows p s0 a0) :
    Follows p s0 (State.propSample (a0) (a1) (a2) (a3) (a4)) := by
  unfold State.propSample
  extract_lets y0 y1 y2 y3 y4 y5 y6
  clear_value y0
  clear_value y1
  clear_value y2
  clear_value y3
  clear_value y4
  clear_value y5
  clear_value y6
  refine Follows.ite ?_ ?_
  · with_reducible assumption
  · refine State.set_follows 393 hp ?_
    refine State.set_follows 394 hp ?_
    refine State.updNbr_follows (hp.sub rfl) ?_
    with_reducible assumption

def State.timeSample_foot : Foot := ⟨0x402010, 0x1f801000000000000000000000000000000000000b4000000000000000000000000000000000000001000000000000000000⟩

theorem State.timeSample_follows {p s0} {a0} {a1} {a2} {a3} {a4} (hp : Foot.le State.timeSample_foot p) (h0 : Follows p s0 a0) :
    Follows p s0 (State.timeSample (a0) (a1) (a2) (a3) (a4)) := by
  unfold State.timeSample
  extract_lets y0 y1 y2 y3 y4 y5 y6
  have k7 : Follows p s0 y0 := by
    subst y0
    refine State.propSample_follows (hp.sub rfl) ?_
    refine State.slewSettle_follows (hp.sub rfl) ?_
    with_reducible assumption
  clear_value y0
  clear_value y1
  clear_value y2
  clear_value y3
  have k8 : Follows p s0 y4 := by
    subst y4
    refine Follows.ite ?_ ?_
    · refine State.nbrStat_follows (hp.sub rfl) ?_
      with_reducible assumption
    · with_reducible assumption
  clear_value y4
  have k9 : Follows p s0 y5 := by
    subst y5
    refine State.set2_follows 395 hp ?_
    refine State.setS_follows 392 hp ?_
    refine State.setS2_follows 391 hp ?_
    with_reducible assumption
  clear_value y5
  have k10 : Follows p s0 y6 := by
    subst y6
    refine State.set_follows 380 hp ?_
    with_reducible assumption
  clear_value y6
  refine Follows.ite ?_ ?_
  · refine State.parentSample_follows (hp.sub rfl) ?_
    with_reducible assumption
  · with_reducible assumption

def State.parentSilent_foot : Foot := ⟨0x10, 0x10000000000000000000000000000000000000001000000000000000000⟩

theorem State.parentSilent_follows {p s0} {a0} (hp : Foot.le State.parentSilent_foot p) (h0 : Follows p s0 a0) :
    Follows p s0 (State.parentSilent (a0)) := by
  unfold State.parentSilent
  refine Follows.ite ?_ ?_
  · with_reducible assumption
  · refine State.timeUnlock_follows (hp.sub rfl) ?_
    refine State.reach_follows (hp.sub rfl) ?_
    with_reducible assumption

def State.spansShift_foot : Foot := ⟨0x6b800a0, 0x0⟩

theorem State.spansShift_follows {p s0} {a0} {a1} (hp : Foot.le State.spansShift_foot p) (h0 : Follows p s0 a0) :
    Follows p s0 (State.spansShift (a0) (a1)) := by
  unfold State.spansShift
  extract_lets y0 y1 y2 y3 y4 y5 y6 y7 y8 y9 y10
  clear_value y0
  clear_value y1
  clear_value y2
  clear_value y3
  have k11 : Follows p s0 y4 := by
    subst y4
    refine Follows.update hp ?_ rfl rfl
    with_reducible assumption
  clear_value y4
  clear_value y5
  clear_value y6
  have k12 : Follows p s0 y7 := by
    subst y7
    refine Follows.update hp ?_ rfl rfl
    with_reducible assumption
  clear_value y7
  clear_value y8
  clear_value y9
  clear_value y10
  refine Follows.update hp ?_ rfl rfl
  with_reducible assumption

def State.stepSkips_foot : Foot := ⟨0x404bba4, 0xe8088000000000000000000000000000010018000000000001801a30fc600001000020000000000d00000000000000000000000000000000001000000000004000030⟩

theorem State.stepSkips_follows {p s0} {a0} {a1} {a2} (hp : Foot.le State.stepSkips_foot p) (h0 : Follows p s0 a0) :
    Follows p s0 (State.stepSkips (a0) (a1) (a2)) := by
  unfold State.stepSkips
  extract_lets y0 y1 y2 y3 y4 y5 y6
  clear_value y0
  have k7 : Follows p s0 y1 := by
    subst y1
    refine Follows.foldl ?_ ?_
    · intro x8 x9 x10
      refine State.skipCrossing_follows (hp.sub rfl) ?_
      with_reducible assumption
    · with_reducible assumption
  clear_value y1
  clear_value y2
  clear_value y3
  have k11 : Follows p s0 y4 := by
    subst y4
    refine Follows.update hp ?_ rfl rfl
    with_reducible assumption
  clear_value y4
  have k12 : Follows p s0 y5 := by
    subst y5
    refine Follows.foldl ?_ ?_
    · intro x13 x14 x15
      refine State.returnTiles_follows (hp.sub rfl) ?_
      refine State.unvoteFor_follows (hp.sub rfl) ?_
      refine State.skipRecord_follows (hp.sub rfl) ?_
      with_reducible assumption
    · with_reducible assumption
  clear_value y5
  clear_value y6
  refine Follows.update hp ?_ rfl rfl
  with_reducible assumption

def State.stepTaken_foot : Foot := ⟨0x1000, 0x8400000000000000000000000000000000000000000000000000000000⟩

theorem State.stepTaken_follows {p s0} {a0} {a1} (hp : Foot.le State.stepTaken_foot p) (h0 : Follows p s0 a0) :
    Follows p s0 (State.stepTaken (a0) (a1)) := by
  unfold State.stepTaken
  refine Follows.ite ?_ ?_
  · refine State.set_follows 226 hp ?_
    with_reducible assumption
  · refine Follows.ite ?_ ?_
    · extract_lets y0 y1
      have k2 : Follows p s0 y0 := by
        subst y0
        refine State.set2_follows 231 hp ?_
        with_reducible assumption
      clear_value y0
      clear_value y1
      refine Follows.update hp ?_ rfl rfl
      with_reducible assumption
    · with_reducible assumption

def State.timeStep_foot : Foot := ⟨0x6fcbbb4, 0xe8088000000000000000000000000000010818000000000001801a30fc600001000020000048400d00000000000000000000000000000000001000000000004000030⟩

theorem State.timeStep_follows {p s0} {a0} (hp : Foot.le State.timeStep_foot p) (h0 : Follows p s0 a0) :
    Follows p s0 (State.timeStep (a0)) := by
  unfold State.timeStep
  split
  · with_reducible assumption
  · refine Follows.ite ?_ ?_
    · with_reducible assumption
    · extract_lets y6 y7 y8 y9 y10
      clear_value y6
      clear_value y7
      clear_value y8
      have k11 : Follows p s0 y9 := by
        subst y9
        refine State.spansShift_follows (hp.sub rfl) ?_
        refine Follows.update hp ?_ rfl rfl
        with_reducible assumption
      clear_value y9
      have k12 : Follows p s0 y10 := by
        subst y10
        refine State.shiftOffsets_follows (hp.sub rfl) ?_
        refine State.pruneVotes_follows (hp.sub rfl) ?_
        refine State.stepSkips_follows (hp.sub rfl) ?_
        refine State.stepTaken_follows (hp.sub rfl) ?_
        with_reducible assumption
      clear_value y10
      refine Follows.ite ?_ ?_
      · with_reducible assumption
      · refine State.fire_follows (hp.sub rfl) ?_
        refine State.set_follows 234 hp ?_
        with_reducible assumption

def execParentSilent_foot : Foot := ⟨0x10, 0x10000000000000000000000000000000000000001000000000000000000⟩

theorem execParentSilent_follows {p s0} {a0} (hp : Foot.le execParentSilent_foot p) (h0 : Follows p s0 a0) :
    FollowsOut p s0 (execParentSilent (a0)) := by
  unfold execParentSilent
  refine FollowsOut.next ?_
  refine State.parentSilent_follows (hp.sub rfl) ?_
  with_reducible assumption

def execTimeStep_foot : Foot := ⟨0x6fcbbb4, 0xe8088000000000000000000000000000010818000000000001801a30fc600001000020000048400d00000000000000000000000000000000001000000000004000030⟩

theorem execTimeStep_follows {p s0} {a0} (hp : Foot.le execTimeStep_foot p) (h0 : Follows p s0 a0) :
    FollowsOut p s0 (execTimeStep (a0)) := by
  unfold execTimeStep
  refine FollowsOut.next ?_
  refine State.timeStep_follows (hp.sub rfl) ?_
  with_reducible assumption

/-! ### Machine/Phy.lean -/

def State.phySample_foot : Foot := ⟨0x800, 0x0⟩

theorem State.phySample_follows {p s0} {a0} {a1} (hp : Foot.le State.phySample_foot p) (h0 : Follows p s0 a0) :
    Follows p s0 (State.phySample (a0) (a1)) := by
  unfold State.phySample
  extract_lets y0 y1 y2 y3 y4
  clear_value y0
  clear_value y1
  clear_value y2
  clear_value y3
  clear_value y4
  refine State.updSlot_follows (hp.sub rfl) ?_
  with_reducible assumption

def State.phyCfgWritten_foot : Foot := ⟨0x800, 0x0⟩

theorem State.phyCfgWritten_follows {p s0} {a0} (hp : Foot.le State.phyCfgWritten_foot p) (h0 : Follows p s0 a0) :
    Follows p s0 (State.phyCfgWritten (a0)) := by
  unfold State.phyCfgWritten
  refine Follows.foldl ?_ ?_
  · intro x0 x1 x2
    refine State.phySample_follows (hp.sub rfl) ?_
    with_reducible assumption
  · with_reducible assumption

def State.softChanged_foot : Foot := ⟨0x10000, 0x0⟩

theorem State.softChanged_follows {p s0} {a0} {a1} (hp : Foot.le State.softChanged_foot p) (h0 : Follows p s0 a0) :
    Follows p s0 (State.softChanged (a0) (a1)) := by
  unfold State.softChanged
  refine Follows.ite ?_ ?_
  · with_reducible assumption
  · extract_lets y0 y1
    clear_value y0
    clear_value y1
    refine Follows.update hp ?_ rfl rfl
    with_reducible assumption

def State.leadDetect_foot : Foot := ⟨0x4001a00, 0xe808800000000000000000000000000000000000000000000000000000000000000000000000000000000000000000000000000000000000001000000000000000030⟩

theorem State.leadDetect_follows {p s0} {a0} {a1} {a2} (hp : Foot.le State.leadDetect_foot p) (h0 : Follows p s0 a0) :
    Follows p s0 (State.leadDetect (a0) (a1) (a2)) := by
  unfold State.leadDetect
  split
  · with_reducible assumption
  · extract_lets y5 y6 y7 y8 y9 y10 y11 y12 y13 y14 y15 y16 y17 y18 y19
    clear_value y5
    clear_value y6
    clear_value y7
    clear_value y8
    clear_value y9
    clear_value y10
    have k20 : Follows p s0 y11 := by
      subst y11
      refine State.pmc_follows (hp.sub rfl) ?_
      refine State.updCrossing_follows (hp.sub rfl) ?_
      with_reducible assumption
    clear_value y11
    have k21 : Follows p s0 y12 := by
      subst y12
      refine Follows.ite ?_ ?_
      · refine State.notePair_follows (hp.sub rfl) ?_
        with_reducible assumption
      · with_reducible assumption
    clear_value y12
    clear_value y13
    clear_value y14
    clear_value y15
    clear_value y16
    clear_value y17
    clear_value y18
    have k22 : Follows p s0 y19 := by
      subst y19
      refine State.refreshFunc_follows (hp.sub rfl) ?_
      refine State.updSlot_follows (hp.sub rfl) ?_
      with_reducible assumption
    clear_value y19
    refine Follows.ite ?_ ?_
    · with_reducible assumption
    · refine State.dcFreeze_follows (hp.sub rfl) ?_
      with_reducible assumption

def State.leadMissed_foot : Foot := ⟨0x4041004, 0xe80880000000000000000000000000000100208000000000000000000000000000000000010000000001a000000000000000000000000000001000000000000000000⟩

theorem State.leadMissed_follows {p s0} {a0} {a1} {a2} (hp : Foot.le State.leadMissed_foot p) (h0 : Follows p s0 a0) :
    Follows p s0 (State.leadMissed (a0) (a1) (a2)) := by
  unfold State.leadMissed
  extract_lets y0 y1 y2
  clear_value y0
  have k3 : Follows p s0 y1 := by
    subst y1
    refine State.updCrossing_follows (hp.sub rfl) ?_
    with_reducible assumption
  clear_value y1
  have k4 : Follows p s0 y2 := by
    subst y2
    refine Follows.ite ?_ ?_
    · refine State.notePair_follows (hp.sub rfl) ?_
      with_reducible assumption
    · with_reducible assumption
  clear_value y2
  refine State.nbrAbsent_follows (hp.sub rfl) ?_
  refine State.report_follows (hp.sub rfl) ?_
  with_reducible assumption

def State.leadMiss_foot : Foot := ⟨0x4041014, 0xe80880000000000000000000000000000100208000000000000000000000000000000000010000000001a000000000000000000000000000001000000000000000000⟩

theorem State.leadMiss_follows {p s0} {a0} {a1} (hp : Foot.le State.leadMiss_foot p) (h0 : Follows p s0 a0) :
    Follows p s0 (State.leadMiss (a0) (a1)) := by
  unfold State.leadMiss
  split
  · with_reducible assumption
  · refine Follows.ite ?_ ?_
    · with_reducible assumption
    · refine State.leadMissed_follows (hp.sub rfl) ?_
      refine State.reach_follows (hp.sub rfl) ?_
      with_reducible assumption

def State.queueDepth_foot : Foot := ⟨0x0, 0x180000000000000000000000000000000000000000000000⟩

theorem State.queueDepth_follows {p s0} {a0} (hp : Foot.le State.queueDepth_foot p) (h0 : Follows p s0 a0) :
    Follows p s0 (State.queueDepth (a0)) := by
  unfold State.queueDepth
  extract_lets y0
  clear_value y0
  refine State.set_follows 187 hp ?_
  refine State.set_follows 188 hp ?_
  with_reducible assumption

def State.enqueueFrame_foot : Foot := ⟨0x10800, 0x180000000000000000000000000000000000000000000000⟩

theorem State.enqueueFrame_follows {p s0} {a0} {a1} {a2} (hp : Foot.le State.enqueueFrame_foot p) (h0 : Follows p s0 a0) :
    Follows p s0 (State.enqueueFrame (a0) (a1) (a2)) := by
  unfold State.enqueueFrame
  extract_lets y0 y1 y2 y3 y4
  clear_value y0
  clear_value y1
  clear_value y2
  clear_value y3
  have k5 : Follows p s0 y4 := by
    subst y4
    refine Follows.update hp ?_ rfl rfl
    with_reducible assumption
  clear_value y4
  refine Follows.ite ?_ ?_
  · with_reducible assumption
  · refine State.queueDepth_follows (hp.sub rfl) ?_
    refine State.putRx_follows (hp.sub rfl) ?_
    with_reducible assumption

def State.enqueueAll_foot : Foot := ⟨0x10800, 0x180000000000000000000000000000000000000000000000⟩

theorem State.enqueueAll_follows {p s0} {a0} (hp : Foot.le State.enqueueAll_foot p) (h0 : Follows p s0 a0) :
    Follows p s0 (State.enqueueAll (a0)) := by
  unfold State.enqueueAll
  refine Follows.forAll ?_ ?_
  · intro x0 x1 x2
    refine Follows.foldl ?_ ?_
    · intro x3 x4 x5
      refine State.enqueueFrame_follows (hp.sub rfl) ?_
      with_reducible assumption
    · with_reducible assumption
  · with_reducible assumption

def State.frameDecoded_foot : Foot := ⟨0x4050824, 0xe80880000000000000000000000000000100000000000000000000000000000000000000000000000001a000000000000000000000000000001000000000004000000⟩

theorem State.frameDecoded_follows {p s0} {a0} {a1} {a2} (hp : Foot.le State.frameDecoded_foot p) (h0 : Follows p s0 a0) :
    Follows p s0 (State.frameDecoded (a0) (a1) (a2)) := by
  unfold State.frameDecoded
  extract_lets y0 y1 y2 y3
  have k4 : Follows p s0 y0 := by
    subst y0
    refine State.dropRx_follows (hp.sub rfl) ?_
    refine State.report_follows (hp.sub rfl) ?_
    with_reducible assumption
  clear_value y0
  clear_value y1
  clear_value y2
  clear_value y3
  refine Follows.ite ?_ ?_
  · refine State.nbrStat_follows (hp.sub rfl) ?_
    with_reducible assumption
  · refine Follows.ite ?_ ?_
    · refine State.nbrStat_follows (hp.sub rfl) ?_
      with_reducible assumption
    · refine State.refreshVotes_follows (hp.sub rfl) ?_
      refine Follows.update hp ?_ rfl rfl
      with_reducible assumption

def State.softFlush_foot : Foot := ⟨0x4240804, 0xe80880000000000000000002000000000100000000000000000000000000000000000000000000000001b000000000000000000000000000001000000000000000000⟩

theorem State.softFlush_follows : ∀ {p s0} {a0} {a1} {a2} {a3} {a4} (_hp : Foot.le State.softFlush_foot p) (_h0 : Follows p s0 a0),
    Follows p s0 (State.softFlush (a0) (a1) (a2) (a3) (a4)) := by
  intro p s0 a0 a1 a2 a3 a4 hp h0
  induction a4 generalizing a0 a1 a2 a3
  · unfold State.softFlush
    refine State.putRx_follows (hp.sub rfl) ?_
    with_reducible assumption
  · rename_i z2 z3 z6
    unfold State.softFlush
    extract_lets y7
    clear_value y7
    split
    · rename_i z8 z9 z10 z11
      have k12 : Follows p s0 z9 := by
        refine Follows.fst_eq ?_ z11
        refine State.softWrite_follows (hp.sub rfl) ?_
        with_reducible assumption
      refine Follows.ite ?_ ?_
      · extract_lets y13
        have k14 : Follows p s0 y13 := by
          subst y13
          refine State.dropRx_follows (hp.sub rfl) ?_
          refine State.report_follows (hp.sub rfl) ?_
          with_reducible assumption
        clear_value y13
        refine Follows.ite ?_ ?_
        · refine State.nbrStat_follows (hp.sub rfl) ?_
          with_reducible assumption
        · refine State.nbrStat_follows (hp.sub rfl) ?_
          with_reducible assumption
      · apply z6
        with_reducible assumption

def State.headerDecode_foot : Foot := ⟨0x4652834, 0xe808800000000000000000020000000001f821800000000000000000000000000000000002b400000001b180000000000000000000000000001000000000004000000⟩

theorem State.headerDecode_follows {p s0} {a0} {a1} {a2} (hp : Foot.le State.headerDecode_foot p) (h0 : Follows p s0 a0) :
    Follows p s0 (State.headerDecode (a0) (a1) (a2)) := by
  unfold State.headerDecode
  split
  · with_reducible assumption
  · refine Follows.ite ?_ ?_
    · refine State.endRx_follows (hp.sub rfl) ?_
      with_reducible assumption
    · extract_lets y5 y6 y7 y8 y9 y10 y11
      clear_value y5
      have k12 : Follows p s0 y6 := by
        subst y6
        refine State.putRx_follows (hp.sub rfl) ?_
        with_reducible assumption
      clear_value y6
      have k13 : Follows p s0 y7 := by
        subst y7
        refine Follows.ite ?_ ?_
        · refine State.nbrHeard_follows (hp.sub rfl) ?_
          with_reducible assumption
        · with_reducible assumption
      clear_value y7
      clear_value y8
      have k14 : Follows p s0 y9 := by
        subst y9
        refine Follows.ite ?_ ?_
        · refine State.timeSample_follows (hp.sub rfl) ?_
          with_reducible assumption
        · with_reducible assumption
      clear_value y9
      clear_value y10
      have k15 : Follows p s0 y11 := by
        subst y11
        refine State.putRx_follows (hp.sub rfl) ?_
        with_reducible assumption
      clear_value y11
      refine Follows.ite ?_ ?_
      · refine State.endRx_follows (hp.sub rfl) ?_
        with_reducible assumption
      · refine Follows.ite ?_ ?_
        · refine State.endRx_follows (hp.sub rfl) ?_
          with_reducible assumption
        · refine Follows.ite ?_ ?_
          · refine State.endRx_follows (hp.sub rfl) ?_
            with_reducible assumption
          · refine Follows.ite ?_ ?_
            · refine State.softFlush_follows (hp.sub rfl) ?_
              with_reducible assumption
            · refine Follows.ite ?_ ?_
              · refine State.frameDecoded_follows (hp.sub rfl) ?_
                with_reducible assumption
              · refine State.enqueueFrame_follows (hp.sub rfl) ?_
                with_reducible assumption

def State.blockEqualised_foot : Foot := ⟨0x4250804, 0xe80880000000000000000002000000000100000000000000000000000000000000000000000000000001b180000000000000000000000000001000000000000000000⟩

theorem State.blockEqualised_follows {p s0} {a0} {a1} {a2} (hp : Foot.le State.blockEqualised_foot p) (h0 : Follows p s0 a0) :
    Follows p s0 (State.blockEqualised (a0) (a1) (a2)) := by
  unfold State.blockEqualised
  split
  · with_reducible assumption
  · extract_lets y5 y6
    clear_value y5
    clear_value y6
    refine Follows.ite ?_ ?_
    · refine Follows.ite ?_ ?_
      · refine State.softFlush_follows (hp.sub rfl) ?_
        with_reducible assumption
      · refine State.putRx_follows (hp.sub rfl) ?_
        with_reducible assumption
    · refine State.enqueueFrame_follows (hp.sub rfl) ?_
      refine State.putRx_follows (hp.sub rfl) ?_
      with_reducible assumption

def State.decoderStart_foot : Foot := ⟨0x10800, 0x180000000000000000000000000000000000000000000000⟩

theorem State.decoderStart_follows {p s0} {a0} {a1} (hp : Foot.le State.decoderStart_foot p) (h0 : Follows p s0 a0) :
    Follows p s0 (State.decoderStart (a0) (a1)) := by
  unfold State.decoderStart
  split
  · refine Follows.ite ?_ ?_
    · with_reducible assumption
    · extract_lets y6 y7 y8 y9
      clear_value y7
      clear_value y8
      have k10 : Follows p s0 y9 := by
        subst y9
        refine Follows.update hp ?_ rfl rfl
        with_reducible assumption
      clear_value y9
      refine State.enqueueAll_follows (hp.sub rfl) ?_
      refine State.queueDepth_follows (hp.sub rfl) ?_
      with_reducible assumption
  · with_reducible assumption

def State.codewordDecoded_foot : Foot := ⟨0x4050824, 0xe80880000000000000000000000000000100000000000000000000000000000000000000000000000001a140000000000000000000000000001000000000004000000⟩

theorem State.codewordDecoded_follows {p s0} {a0} {a1} {a2} {a3} (hp : Foot.le State.codewordDecoded_foot p) (h0 : Follows p s0 a0) :
    Follows p s0 (State.codewordDecoded (a0) (a1) (a2) (a3)) := by
  unfold State.codewordDecoded
  split
  · with_reducible assumption
  · refine Follows.ite ?_ ?_
    · with_reducible assumption
    · extract_lets y5 y6 y7 y8 y9 y10 y11 y12
      clear_value y5
      clear_value y6
      have k13 : Follows p s0 y7 := by
        subst y7
        refine Follows.update hp ?_ rfl rfl
        with_reducible assumption
      clear_value y7
      have k14 : Follows p s0 y8 := by
        subst y8
        refine State.pmcAt_follows (hp.sub rfl) ?_
        refine State.pmc_follows (hp.sub rfl) ?_
        with_reducible assumption
      clear_value y8
      have k15 : Follows p s0 y9 := by
        subst y9
        refine Follows.ite ?_ ?_
        · refine State.pmc_follows (hp.sub rfl) ?_
          refine State.bump_follows 186 hp ?_
          with_reducible assumption
        · with_reducible assumption
      clear_value y9
      clear_value y10
      clear_value y11
      clear_value y12
      split
      · with_reducible assumption
      · extract_lets y21 y22 y23
        clear_value y21
        have k24 : Follows p s0 y22 := by
          subst y22
          refine State.putRx_follows (hp.sub rfl) ?_
          with_reducible assumption
        clear_value y22
        have k25 : Follows p s0 y23 := by
          subst y23
          refine Follows.ite ?_ ?_
          · with_reducible assumption
          · refine State.dropCodewords_follows (hp.sub rfl) ?_
            with_reducible assumption
        clear_value y23
        refine Follows.ite ?_ ?_
        · refine Follows.ite ?_ ?_
          · with_reducible assumption
          · refine State.endRx_follows (hp.sub rfl) ?_
            with_reducible assumption
        · refine Follows.ite ?_ ?_
          · refine State.frameDecoded_follows (hp.sub rfl) ?_
            with_reducible assumption
          · with_reducible assumption

def State.feedEncoders_foot : Foot := ⟨0x10000, 0x0⟩

theorem State.feedEncoders_follows {p s0} {a0} (hp : Foot.le State.feedEncoders_foot p) (h0 : Follows p s0 a0) :
    Follows p s0 (State.feedEncoders (a0)) := by
  unfold State.feedEncoders
  refine Follows.forAll ?_ ?_
  · intro x0 x1 x2
    refine Follows.ite ?_ ?_
    · with_reducible assumption
    · split
      · with_reducible assumption
      · extract_lets y8 y9
        clear_value y8
        clear_value y9
        refine Follows.update hp ?_ rfl rfl
        with_reducible assumption
  · with_reducible assumption

def State.codewordEncoded_foot : Foot := ⟨0x10800, 0x0⟩

theorem State.codewordEncoded_follows {p s0} {a0} {a1} (hp : Foot.le State.codewordEncoded_foot p) (h0 : Follows p s0 a0) :
    Follows p s0 (State.codewordEncoded (a0) (a1)) := by
  unfold State.codewordEncoded
  split
  · with_reducible assumption
  · refine Follows.ite ?_ ?_
    · with_reducible assumption
    · extract_lets y6 y7 y8
      clear_value y6
      have k9 : Follows p s0 y7 := by
        subst y7
        refine Follows.update hp ?_ rfl rfl
        with_reducible assumption
      clear_value y7
      clear_value y8
      split
      · refine State.feedEncoders_follows (hp.sub rfl) ?_
        with_reducible assumption
      · extract_lets y15 y16
        clear_value y15
        have k17 : Follows p s0 y16 := by
          subst y16
          refine Follows.update hp ?_ rfl rfl
          with_reducible assumption
        clear_value y16
        refine State.feedEncoders_follows (hp.sub rfl) ?_
        refine State.updSlot_follows (hp.sub rfl) ?_
        with_reducible assumption

def State.codewordLate_foot : Foot := ⟨0x425a814, 0xe80880000000000000000000000000000100004000000000000000000000000000000000000000000001a000000000000000000000000000001000000000000000000⟩

theorem State.codewordLate_follows {p s0} {a0} {a1} (hp : Foot.le State.codewordLate_foot p) (h0 : Follows p s0 a0) :
    Follows p s0 (State.codewordLate (a0) (a1)) := by
  unfold State.codewordLate
  split
  · refine Follows.ite ?_ ?_
    · with_reducible assumption
    · refine State.underrun_follows (hp.sub rfl) ?_
      refine State.reach_follows (hp.sub rfl) ?_
      with_reducible assumption
  · with_reducible assumption

def State.softBeams_foot : Foot := ⟨0x10000, 0xa00000000000000000000000000000000000000000000030⟩

theorem State.softBeams_follows {p s0} {a0} {a1} (hp : Foot.le State.softBeams_foot p) (h0 : Follows p s0 a0) :
    Follows p s0 (State.softBeams (a0) (a1)) := by
  unfold State.softBeams
  refine Follows.ite ?_ ?_
  · refine State.set_follows 191 hp ?_
    with_reducible assumption
  · refine State.refreshFunc_follows (hp.sub rfl) ?_
    refine State.softChanged_follows (hp.sub rfl) ?_
    refine State.set_follows 189 hp ?_
    with_reducible assumption

def execLeadDetect_foot : Foot := ⟨0x4001a00, 0xe808800000000000000000000000000000000000000000000000000000000000000000000000000000000000000000000000000000000000001000000000000000030⟩

theorem execLeadDetect_follows {p s0} {a0} {a1} {a2} (hp : Foot.le execLeadDetect_foot p) (h2 : Follows p s0 a2) :
    FollowsOut p s0 (execLeadDetect (a0) (a1) (a2)) := by
  unfold execLeadDetect
  refine FollowsOut.next ?_
  refine State.leadDetect_follows (hp.sub rfl) ?_
  with_reducible assumption

def execLeadMiss_foot : Foot := ⟨0x4041014, 0xe80880000000000000000000000000000100208000000000000000000000000000000000010000000001a000000000000000000000000000001000000000000000000⟩

theorem execLeadMiss_follows {p s0} {a0} {a1} (hp : Foot.le execLeadMiss_foot p) (h1 : Follows p s0 a1) :
    FollowsOut p s0 (execLeadMiss (a0) (a1)) := by
  unfold execLeadMiss
  refine FollowsOut.next ?_
  refine State.leadMiss_follows (hp.sub rfl) ?_
  with_reducible assumption

def execHeaderDecode_foot : Foot := ⟨0x4652834, 0xe808800000000000000000020000000001f821800000000000000000000000000000000002b400000001b180000000000000000000000000001000000000004000000⟩

theorem execHeaderDecode_follows {p s0} {a0} {a1} {a2} (hp : Foot.le execHeaderDecode_foot p) (h2 : Follows p s0 a2) :
    FollowsOut p s0 (execHeaderDecode (a0) (a1) (a2)) := by
  unfold execHeaderDecode
  refine FollowsOut.next ?_
  refine State.headerDecode_follows (hp.sub rfl) ?_
  with_reducible assumption

def execDecoderStart_foot : Foot := ⟨0x10800, 0x180000000000000000000000000000000000000000000000⟩

theorem execDecoderStart_follows {p s0} {a0} {a1} (hp : Foot.le execDecoderStart_foot p) (h1 : Follows p s0 a1) :
    FollowsOut p s0 (execDecoderStart (a0) (a1)) := by
  unfold execDecoderStart
  refine FollowsOut.next ?_
  refine State.decoderStart_follows (hp.sub rfl) ?_
  with_reducible assumption

def execCodewordDecoded_foot : Foot := ⟨0x4050824, 0xe80880000000000000000000000000000100000000000000000000000000000000000000000000000001a140000000000000000000000000001000000000004000000⟩

theorem execCodewordDecoded_follows {p s0} {a0} {a1} {a2} {a3} (hp : Foot.le execCodewordDecoded_foot p) (h3 : Follows p s0 a3) :
    FollowsOut p s0 (execCodewordDecoded (a0) (a1) (a2) (a3)) := by
  unfold execCodewordDecoded
  refine FollowsOut.next ?_
  refine State.codewordDecoded_follows (hp.sub rfl) ?_
  with_reducible assumption

def execCodewordEncoded_foot : Foot := ⟨0x10800, 0x0⟩

theorem execCodewordEncoded_follows {p s0} {a0} {a1} (hp : Foot.le execCodewordEncoded_foot p) (h1 : Follows p s0 a1) :
    FollowsOut p s0 (execCodewordEncoded (a0) (a1)) := by
  unfold execCodewordEncoded
  refine FollowsOut.next ?_
  refine State.codewordEncoded_follows (hp.sub rfl) ?_
  with_reducible assumption

def execBlockEqualised_foot : Foot := ⟨0x4250804, 0xe80880000000000000000002000000000100000000000000000000000000000000000000000000000001b180000000000000000000000000001000000000000000000⟩

theorem execBlockEqualised_follows {p s0} {a0} {a1} {a2} (hp : Foot.le execBlockEqualised_foot p) (h2 : Follows p s0 a2) :
    FollowsOut p s0 (execBlockEqualised (a0) (a1) (a2)) := by
  unfold execBlockEqualised
  refine FollowsOut.next ?_
  refine State.blockEqualised_follows (hp.sub rfl) ?_
  with_reducible assumption

def execTxUnderrun_foot : Foot := ⟨0x425a814, 0xe80880000000000000000000000000000100004000000000000000000000000000000000000000000001a000000000000000000000000000001000000000000000000⟩

theorem execTxUnderrun_follows {p s0} {a0} {a1} (hp : Foot.le execTxUnderrun_foot p) (h1 : Follows p s0 a1) :
    FollowsOut p s0 (execTxUnderrun (a0) (a1)) := by
  unfold execTxUnderrun
  refine FollowsOut.next ?_
  refine State.codewordLate_follows (hp.sub rfl) ?_
  with_reducible assumption

/-! ### Machine/Mac.lean -/

def State.drbgDraw_foot : Foot := ⟨0x4000, 0x0⟩

theorem State.drbgDraw_follows {p s0} {a0} {a1} (hp : Foot.le State.drbgDraw_foot p) (h0 : Follows p s0 a0) :
    Follows p s0 (State.drbgDraw (a0) (a1)) := by
  unfold State.drbgDraw
  refine Follows.update hp ?_ rfl rfl
  with_reducible assumption

def State.drbgRequest_foot : Foot := ⟨0x4000, 0x0⟩

theorem State.drbgRequest_follows {p s0} {a0} {a1} (hp : Foot.le State.drbgRequest_foot p) (h0 : Follows p s0 a0) :
    Follows p s0 (State.drbgRequest (a0) (a1)) := by
  unfold State.drbgRequest
  extract_lets y0 y1 y2
  clear_value y0
  clear_value y1
  have k3 : Follows p s0 y2 := by
    subst y2
    refine Follows.update hp ?_ rfl rfl
    with_reducible assumption
  clear_value y2
  refine State.drbgDraw_follows (hp.sub rfl) ?_
  with_reducible assumption

def State.lfsrDraw_foot : Foot := ⟨0x4000, 0x0⟩

theorem State.lfsrDraw_follows {p s0} {a0} (hp : Foot.le State.lfsrDraw_foot p) (h0 : Follows p s0 a0) :
    Follows p s0 (State.lfsrDraw (a0)) := by
  unfold State.lfsrDraw
  refine Follows.update hp ?_ rfl rfl
  with_reducible assumption

def State.drawMask_foot : Foot := ⟨0x4000, 0x0⟩

theorem State.drawMask_follows {p s0} {a0} {a1} (hp : Foot.le State.drawMask_foot p) (h0 : Follows p s0 a0) :
    Follows p s0 (State.drawMask (a0) (a1)) := by
  unfold State.drawMask
  refine Follows.ite ?_ ?_
  · refine State.drbgDraw_follows (hp.sub rfl) ?_
    with_reducible assumption
  · refine State.lfsrDraw_follows (hp.sub rfl) ?_
    with_reducible assumption

def State.refreshMasking_foot : Foot := ⟨0x0, 0x1000000000000000000000000000000000000000⟩

theorem State.refreshMasking_follows {p s0} {a0} (hp : Foot.le State.refreshMasking_foot p) (h0 : Follows p s0 a0) :
    Follows p s0 (State.refreshMasking (a0)) := by
  unfold State.refreshMasking
  refine State.set_follows 156 hp ?_
  with_reducible assumption

def State.pipeBegin_foot : Foot := ⟨0xc000, 0x1000000000000000000000000000000000000000⟩

theorem State.pipeBegin_follows {p s0} {a0} {a1} {a2} (hp : Foot.le State.pipeBegin_foot p) (h0 : Follows p s0 a0) :
    Follows p s0 (State.pipeBegin (a0) (a1) (a2)) := by
  unfold State.pipeBegin
  extract_lets y0 y1 y2
  clear_value y0
  have k3 : Follows p s0 y1 := by
    subst y1
    refine State.updPipe_follows (hp.sub rfl) ?_
    with_reducible assumption
  clear_value y1
  have k4 : Follows p s0 y2 := by
    subst y2
    refine Follows.ite ?_ ?_
    · with_reducible assumption
    · refine Follows.ite ?_ ?_
      · refine State.drbgRequest_follows (hp.sub rfl) ?_
        with_reducible assumption
      · refine State.lfsrDraw_follows (hp.sub rfl) ?_
        with_reducible assumption
  clear_value y2
  refine State.refreshMasking_follows (hp.sub rfl) ?_
  with_reducible assumption

def State.invokeKey_foot : Foot := ⟨0x4000, 0x560000000000000000000000001000000000000000000⟩

theorem State.invokeKey_follows {p s0} {a0} {a1} (hp : Foot.le State.invokeKey_foot p) (h0 : Follows p s0 a0) :
    Follows p s0 (State.invokeKey (a0) (a1)) := by
  unfold State.invokeKey
  split
  · with_reducible assumption
  · extract_lets y5 y6 y7 y8 y9
    clear_value y5
    clear_value y6
    have k10 : Follows p s0 y7 := by
      subst y7
      refine Follows.update hp ?_ rfl rfl
      with_reducible assumption
    clear_value y7
    have k11 : Follows p s0 y8 := by
      subst y8
      refine State.set_follows 178 hp ?_
      with_reducible assumption
    clear_value y8
    have k12 : Follows p s0 y9 := by
      subst y9
      refine Follows.ite ?_ ?_
      · refine State.fire_follows (hp.sub rfl) ?_
        refine State.setBit_follows 173 hp ?_
        refine State.set_follows 176 hp ?_
        with_reducible assumption
      · with_reducible assumption
    clear_value y9
    refine Follows.ite ?_ ?_
    · refine State.fire_follows (hp.sub rfl) ?_
      refine State.setBit_follows 174 hp ?_
      refine State.set_follows 176 hp ?_
      with_reducible assumption
    · with_reducible assumption

def State.txPipe_foot : Foot := ⟨0xd020, 0x1800000000000000000000000000000000000000000000000000560001000000000000000000001000000000004000000⟩

theorem State.txPipe_follows {p s0} {a0} {a1} (hp : Foot.le State.txPipe_foot p) (h0 : Follows p s0 a0) :
    Follows p s0 (State.txPipe (a0) (a1)) := by
  unfold State.txPipe
  split
  · refine Follows.ite ?_ ?_
    · with_reducible assumption
    · extract_lets y6 y7 y8 y9 y10 y11
      clear_value y6
      clear_value y7
      clear_value y8
      have k12 : Follows p s0 y9 := by
        subst y9
        refine State.pipeBegin_follows (hp.sub rfl) ?_
        with_reducible assumption
      clear_value y9
      have k13 : Follows p s0 y10 := by
        subst y10
        refine Follows.ite ?_ ?_
        · with_reducible assumption
        · refine State.invokeKey_follows (hp.sub rfl) ?_
          with_reducible assumption
      clear_value y10
      clear_value y11
      refine Follows.ite ?_ ?_
      · refine State.refreshSpent_follows (hp.sub rfl) ?_
        refine State.updCrossing_follows (hp.sub rfl) ?_
        with_reducible assumption
      · refine State.refreshVotes_follows (hp.sub rfl) ?_
        refine State.refreshSpent_follows (hp.sub rfl) ?_
        refine State.updPipe_follows (hp.sub rfl) ?_
        with_reducible assumption
  · with_reducible assumption

def State.rxPipe_foot : Foot := ⟨0x401c000, 0xe808800000000000000000000000000000001800000000000000000000000000000000000000000000000000560001000000000000000000001000000000000000000⟩

theorem State.rxPipe_follows {p s0} {a0} {a1} (hp : Foot.le State.rxPipe_foot p) (h0 : Follows p s0 a0) :
    Follows p s0 (State.rxPipe (a0) (a1)) := by
  unfold State.rxPipe
  split
  · with_reducible assumption
  · extract_lets y5 y6 y7 y8 y9 y10
    clear_value y5
    clear_value y6
    clear_value y7
    clear_value y8
    clear_value y9
    have k11 : Follows p s0 y10 := by
      subst y10
      refine Follows.update hp ?_ rfl rfl
      with_reducible assumption
    clear_value y10
    split
    · with_reducible assumption
    · refine Follows.ite ?_ ?_
      · with_reducible assumption
      · extract_lets y17 y18 y19
        have k20 : Follows p s0 y17 := by
          subst y17
          refine State.pipeBegin_follows (hp.sub rfl) ?_
          with_reducible assumption
        clear_value y17
        have k21 : Follows p s0 y18 := by
          subst y18
          split
          · refine State.invokeKey_follows (hp.sub rfl) ?_
            with_reducible assumption
          · with_reducible assumption
        clear_value y18
        have k25 : Follows p s0 y19 := by
          subst y19
          refine State.pmcAt_follows (hp.sub rfl) ?_
          with_reducible assumption
        clear_value y19
        refine State.refreshSpent_follows (hp.sub rfl) ?_
        refine State.updPipe_follows (hp.sub rfl) ?_
        with_reducible assumption

def State.ackSettle_foot : Foot := ⟨0x4202000, 0xe808800000000000000000000000000001000040000000000000000000000000000000000000000000000000000000000000000000000000001000000000000000000⟩

theorem State.ackSettle_follows {p s0} {a0} {a1} {a2} (hp : Foot.le State.ackSettle_foot p) (h0 : Follows p s0 a0) :
    Follows p s0 (State.ackSettle (a0) (a1) (a2)) := by
  unfold State.ackSettle
  refine Follows.foldl ?_ ?_
  · intro x0 x1 x2
    split
    · with_reducible assumption
    · extract_lets y8
      clear_value y8
      refine Follows.ite ?_ ?_
      · with_reducible assumption
      · refine Follows.ite ?_ ?_
        · refine State.finishFrame_follows (hp.sub rfl) ?_
          refine State.nbrStat_follows (hp.sub rfl) ?_
          with_reducible assumption
        · refine Follows.ite ?_ ?_
          · with_reducible assumption
          · refine State.frameToRetry_follows (hp.sub rfl) ?_
            with_reducible assumption
  · with_reducible assumption

def State.acceptFrame_foot : Foot := ⟨0x420200c, 0xe808800000000000000000000000000007018640000000000000000000000000000000000000000000000000000000000000000000000000001000000000000000000⟩

theorem State.acceptFrame_follows {p s0} {a0} {a1} {a2} (hp : Foot.le State.acceptFrame_foot p) (h0 : Follows p s0 a0) :
    Follows p s0 (State.acceptFrame (a0) (a1) (a2)) := by
  unfold State.acceptFrame
  extract_lets y0 y1 y2 y3 y4 y5 y6 y7 y8 y9 y10 y11
  clear_value y0
  clear_value y1
  clear_value y2
  clear_value y3
  clear_value y4
  clear_value y5
  clear_value y6
  clear_value y7
  clear_value y8
  have k12 : Follows p s0 y9 := by
    subst y9
    refine State.pmc_follows (hp.sub rfl) ?_
    refine State.nbrStat_follows (hp.sub rfl) ?_
    with_reducible assumption
  clear_value y9
  have k13 : Follows p s0 y10 := by
    subst y10
    refine Follows.ite ?_ ?_
    · with_reducible assumption
    · refine State.ackSettle_follows (hp.sub rfl) ?_
      with_reducible assumption
  clear_value y10
  clear_value y11
  refine Follows.ite ?_ ?_
  · refine State.nbrStat_follows (hp.sub rfl) ?_
    with_reducible assumption
  · refine Follows.ite ?_ ?_
    · refine Follows.ite ?_ ?_
      · with_reducible assumption
      · refine State.set_follows 382 hp ?_
        with_reducible assumption
    · split
      · rename_i z14 z15 z16 z17
        have k18 : Follows p s0 z15 := by
          refine Follows.fst_eq ?_ z17
          refine Follows.ite1 ?_ ?_
          · with_reducible assumption
          · refine State.holdFrame_follows (hp.sub rfl) ?_
            with_reducible assumption
        refine Follows.ite ?_ ?_
        · refine State.nbrStat_follows (hp.sub rfl) ?_
          with_reducible assumption
        · extract_lets y19 y20 y21
          have k22 : Follows p s0 y19 := by
            subst y19
            refine Follows.ite ?_ ?_
            · refine State.set2_follows 398 hp ?_
              refine State.set_follows 397 hp ?_
              with_reducible assumption
            · refine State.set_follows 381 hp ?_
              refine State.set2_follows 388 hp ?_
              refine State.set_follows 387 hp ?_
              with_reducible assumption
          clear_value y19
          have k23 : Follows p s0 y20 := by
            subst y20
            refine Follows.ite ?_ ?_
            · with_reducible assumption
            · refine State.set_follows 382 hp ?_
              with_reducible assumption
          clear_value y20
          have k24 : Follows p s0 y21 := by
            subst y21
            refine State.updNbr_follows (hp.sub rfl) ?_
            with_reducible assumption
          clear_value y21
          refine State.pmc_follows (hp.sub rfl) ?_
          refine State.nbrStat_follows (hp.sub rfl) ?_
          with_reducible assumption

def State.releaseFrames_foot : Foot := ⟨0x420a00c, 0xe808800000000000000000000000000007018640000000000000000000000000000000000000000000000000000000000000000000000000001000000000000000000⟩

theorem State.releaseFrames_follows : ∀ {p s0} {a0} {a1} {a2} (_hp : Foot.le State.releaseFrames_foot p) (_h0 : Follows p s0 a0),
    Follows p s0 (State.releaseFrames (a0) (a1) (a2)) := by
  intro p s0 a0 a1 a2 hp h0
  induction a2 generalizing a0 a1
  · unfold State.releaseFrames
    with_reducible assumption
  · rename_i z1 z3
    unfold State.releaseFrames
    extract_lets y4
    clear_value y4
    split
    · refine Follows.ite ?_ ?_
      · with_reducible assumption
      · split
        · with_reducible assumption
        · extract_lets y13 y14
          have k15 : Follows p s0 y13 := by
            subst y13
            refine State.updPipe_follows (hp.sub rfl) ?_
            with_reducible assumption
          clear_value y13
          have k16 : Follows p s0 y14 := by
            subst y14
            refine Follows.ite ?_ ?_
            · refine State.acceptFrame_follows (hp.sub rfl) ?_
              with_reducible assumption
            · with_reducible assumption
          clear_value y14
          apply z3
          with_reducible assumption
    · with_reducible assumption

def State.tagVerified_foot : Foot := ⟨0x460a03c, 0xe808800000000000000000000000000007f99f400000000000000000000000000000000000b4000000000000000000002000000000000000001000000000004000030⟩

theorem State.tagVerified_follows {p s0} {a0} {a1} (hp : Foot.le State.tagVerified_foot p) (h0 : Follows p s0 a0) :
    Follows p s0 (State.tagVerified (a0) (a1)) := by
  unfold State.tagVerified
  split
  · with_reducible assumption
  · extract_lets y5 y6 y7 y8 y9 y10 y11 y12 y13 y14 y15 y16 y17 y18 y19 y20 y21 y22
    clear_value y5
    clear_value y6
    clear_value y7
    clear_value y8
    clear_value y9
    clear_value y10
    clear_value y11
    clear_value y12
    clear_value y13
    clear_value y14
    clear_value y15
    clear_value y16
    clear_value y17
    have k23 : ∀ b0 b1 b2, Follows p s0 b2 → Follows p s0 (y18 b0 b1 b2) := by
      subst y18
      intro x24 x25 x26 x27
      beta_reduce
      refine State.updPipe_follows (hp.sub rfl) ?_
      with_reducible assumption
    clear_value y18
    clear_value y19
    have k28 : Follows p s0 y20 := by
      subst y20
      apply k23
      with_reducible assumption
    clear_value y20
    have k29 : Follows p s0 y21 := by
      subst y21
      refine State.pmc_follows (hp.sub rfl) ?_
      apply k23
      with_reducible assumption
    clear_value y21
    have k30 : Follows p s0 y22 := by
      subst y22
      refine Follows.ite ?_ ?_
      · refine Follows.ite ?_ ?_
        · refine State.propSample_follows (hp.sub rfl) ?_
          with_reducible assumption
        · refine State.timeSample_follows (hp.sub rfl) ?_
          with_reducible assumption
      · refine Follows.ite ?_ ?_
        · refine State.nbrStat_follows (hp.sub rfl) ?_
          with_reducible assumption
        · refine State.nbrStat_follows (hp.sub rfl) ?_
          refine State.fire_follows (hp.sub rfl) ?_
          refine State.bump_follows 145 hp ?_
          with_reducible assumption
    clear_value y22
    refine State.nbrPoke_follows (hp.sub rfl) ?_
    refine State.refreshVotes_follows (hp.sub rfl) ?_
    refine State.releaseFrames_follows (hp.sub rfl) ?_
    with_reducible assumption

def State.leavePipe_foot : Foot := ⟨0x8000, 0x0⟩

theorem State.leavePipe_follows {p s0} {a0} {a1} (hp : Foot.le State.leavePipe_foot p) (h0 : Follows p s0 a0) :
    Follows p s0 (State.leavePipe (a0) (a1)) := by
  unfold State.leavePipe
  refine Follows.forAll ?_ ?_
  · intro x0 x1 x2
    refine State.updPipe_follows (hp.sub rfl) ?_
    with_reducible assumption
  · with_reducible assumption

def State.takeSeq_foot : Foot := ⟨0x0, 0x4000000000000000000000000000000000000000000000000000000000000000000000000000000000000000000000000⟩

theorem State.takeSeq_follows {p s0} {a0} {a1} {a2} (hp : Foot.le State.takeSeq_foot p) (h0 : Follows p s0 a0) :
    Follows p s0 (State.takeSeq (a0) (a1) (a2)).1 := by
  unfold State.takeSeq
  split
  · with_reducible assumption
  · extract_lets y5
    clear_value y5
    refine Follows.pair ?_
    refine State.set_follows 386 hp ?_
    with_reducible assumption

def State.txBuild_foot : Foot := ⟨0x12800, 0x64400000000000000000000000000000000000000000000000000000000000000000000000000000000000000000000000⟩

theorem State.txBuild_follows {p s0} {a0} {a1} (hp : Foot.le State.txBuild_foot p) (h0 : Follows p s0 a0) :
    Follows p s0 (State.txBuild (a0) (a1)) := by
  unfold State.txBuild
  split
  · refine Follows.ite ?_ ?_
    · with_reducible assumption
    · extract_lets y6 y7 y8 y9 y10 y11 y12 y13 y14
      clear_value y6
      clear_value y7
      clear_value y8
      have k15 : Follows p s0 y9.1 := by
        subst y9
        refine State.takeSeq_follows (hp.sub rfl) ?_
        with_reducible assumption
      clear_value y9
      clear_value y10
      have k16 : Follows p s0 y11 := by
        subst y11
        split
        · refine State.updNbr_follows (hp.sub rfl) ?_
          with_reducible assumption
        · with_reducible assumption
      clear_value y11
      have k22 : Follows p s0 y12 := by
        subst y12
        refine Follows.ite ?_ ?_
        · with_reducible assumption
        · refine State.set_follows 382 hp ?_
          with_reducible assumption
      clear_value y12
      have k23 : Follows p s0 y13 := by
        subst y13
        refine State.set2_follows 390 hp ?_
        refine State.set_follows 389 hp ?_
        with_reducible assumption
      clear_value y13
      have k24 : Follows p s0 y14 := by
        subst y14
        refine State.updSlot_follows (hp.sub rfl) ?_
        with_reducible assumption
      clear_value y14
      refine State.feedEncoders_follows (hp.sub rfl) ?_
      with_reducible assumption
  · with_reducible assumption

def State.txLeadStart_foot : Foot := ⟨0x405b834, 0xe808800000000000000000000000000000065c0000000000000000000000000000000000000000000001a000000000000000000000000000001000000000004000030⟩

theorem State.txLeadStart_follows {p s0} {a0} {a1} (hp : Foot.le State.txLeadStart_foot p) (h0 : Follows p s0 a0) :
    Follows p s0 (State.txLeadStart (a0) (a1)) := by
  unfold State.txLeadStart
  split
  · extract_lets y3 y4 y5 y6 y7
    have k8 : Follows p s0 y3 := by
      subst y3
      refine State.reach_follows (hp.sub rfl) ?_
      with_reducible assumption
    clear_value y3
    clear_value y4
    have k9 : Follows p s0 y5 := by
      subst y5
      refine State.report_follows (hp.sub rfl) ?_
      with_reducible assumption
    clear_value y5
    have k10 : Follows p s0 y6 := by
      subst y6
      refine State.updCrossing_follows (hp.sub rfl) ?_
      with_reducible assumption
    clear_value y6
    have k11 : Follows p s0 y7 := by
      subst y7
      refine State.updSlot_follows (hp.sub rfl) ?_
      with_reducible assumption
    clear_value y7
    refine Follows.ite ?_ ?_
    · with_reducible assumption
    · refine Follows.ite ?_ ?_
      · refine State.nbrPoke_follows (hp.sub rfl) ?_
        refine State.refreshVotes_follows (hp.sub rfl) ?_
        refine State.leavePipe_follows (hp.sub rfl) ?_
        with_reducible assumption
      · refine Follows.ite ?_ ?_
        · refine State.nbrPoke_follows (hp.sub rfl) ?_
          refine State.refreshVotes_follows (hp.sub rfl) ?_
          refine State.leavePipe_follows (hp.sub rfl) ?_
          with_reducible assumption
        · refine Follows.ite ?_ ?_
          · refine State.txBuild_follows (hp.sub rfl) ?_
            with_reducible assumption
          · with_reducible assumption
  · with_reducible assumption

def State.txFinish_foot : Foot := ⟨0x425a824, 0xe80880000000000000000000000000000100184000000000000000000000000000000000000000000001a000000000000000000000000000001000000000004000030⟩

theorem State.txFinish_follows {p s0} {a0} {a1} (hp : Foot.le State.txFinish_foot p) (h0 : Follows p s0 a0) :
    Follows p s0 (State.txFinish (a0) (a1)) := by
  unfold State.txFinish
  split
  · with_reducible assumption
  · refine Follows.ite ?_ ?_
    · with_reducible assumption
    · refine State.nbrPoke_follows (hp.sub rfl) ?_
      refine State.refreshVotes_follows (hp.sub rfl) ?_
      refine State.txEnd_follows (hp.sub rfl) ?_
      with_reducible assumption

def State.ackDeadline_foot : Foot := ⟨0x4202000, 0xe808800000000000000000000000000001000040000000000000000000000000000000000000000000000000000000000000000000000000001000000000000000000⟩

theorem State.ackDeadline_follows {p s0} {a0} {a1} (hp : Foot.le State.ackDeadline_foot p) (h0 : Follows p s0 a0) :
    Follows p s0 (State.ackDeadline (a0) (a1)) := by
  unfold State.ackDeadline
  refine Follows.foldl ?_ ?_
  · intro x0 x1 x2
    refine Follows.ite ?_ ?_
    · with_reducible assumption
    · refine Follows.ite ?_ ?_
      · refine State.finishFrame_follows (hp.sub rfl) ?_
        with_reducible assumption
      · refine Follows.ite ?_ ?_
        · refine State.frameToRetry_follows (hp.sub rfl) ?_
          with_reducible assumption
        · with_reducible assumption
  · with_reducible assumption

def State.horizonExpiry_foot : Foot := ⟨0x4202010, 0xe808800000000000000000000000000001000040000000000000000000000000000000000000000000000000000000000000000000000000001000000000000000000⟩

theorem State.horizonExpiry_follows {p s0} {a0} {a1} {a2} (hp : Foot.le State.horizonExpiry_foot p) (h0 : Follows p s0 a0) :
    Follows p s0 (State.horizonExpiry (a0) (a1) (a2)) := by
  unfold State.horizonExpiry
  split
  · with_reducible assumption
  · refine State.finishFrame_follows (hp.sub rfl) ?_
    refine State.reach_follows (hp.sub rfl) ?_
    with_reducible assumption

def State.rememberTag_foot : Foot := ⟨0x2000, 0x0⟩

theorem State.rememberTag_follows {p s0} {a0} {a1} {a2} {a3} (hp : Foot.le State.rememberTag_foot p) (h0 : Follows p s0 a0) :
    Follows p s0 (State.rememberTag (a0) (a1) (a2) (a3)) := by
  unfold State.rememberTag
  refine State.updNbr_follows (hp.sub rfl) ?_
  with_reducible assumption

def State.txDescriptor_foot : Foot := ⟨0x202000, 0x20000000000000040000000000000000000000000000000000000000000000000000000000000000000000000000000000000000000000⟩

theorem State.txDescriptor_follows {p s0} {a0} {a1} {a2} (hp : Foot.le State.txDescriptor_foot p) (h0 : Follows p s0 a0) :
    Follows p s0 (State.txDescriptor (a0) (a1) (a2)) := by
  unfold State.txDescriptor
  refine Follows.ite ?_ ?_
  · with_reducible assumption
  · extract_lets y0 y1 y2 y3 y4 y5 y6
    clear_value y0
    have k7 : Follows p s0 y1 := by
      subst y1
      refine State.ringTake_follows (hp.sub rfl) ?_
      with_reducible assumption
    clear_value y1
    clear_value y2
    clear_value y3
    clear_value y4
    clear_value y5
    have k8 : Follows p s0 y6 := by
      subst y6
      refine State.updNbr_follows (hp.sub rfl) ?_
      refine State.rememberTag_follows (hp.sub rfl) ?_
      with_reducible assumption
    clear_value y6
    refine Follows.ite ?_ ?_
    · refine State.postEntry_follows (hp.sub rfl) ?_
      refine State.updNbr_follows (hp.sub rfl) ?_
      with_reducible assumption
    · split
      · refine State.postEntry_follows (hp.sub rfl) ?_
        with_reducible assumption
      · refine State.updNbr_follows (hp.sub rfl) ?_
        with_reducible assumption
      · refine Follows.ite ?_ ?_
        · refine State.postEntry_follows (hp.sub rfl) ?_
          refine State.rememberTag_follows (hp.sub rfl) ?_
          with_reducible assumption
        · refine Follows.ite ?_ ?_
          · refine State.postEntry_follows (hp.sub rfl) ?_
            refine State.rememberTag_follows (hp.sub rfl) ?_
            with_reducible assumption
          · refine State.set_follows 378 hp ?_
            with_reducible assumption

def State.propFromSeed_foot : Foot := ⟨0x0, 0x600000000000000000000000000000000000000000000000000000000000000000000000000000000000000000000000000⟩

theorem State.propFromSeed_follows {p s0} {a0} {a1} (hp : Foot.le State.propFromSeed_foot p) (h0 : Follows p s0 a0) :
    Follows p s0 (State.propFromSeed (a0) (a1)) := by
  unfold State.propFromSeed
  extract_lets y0
  clear_value y0
  refine State.set_follows 393 hp ?_
  refine State.set_follows 394 hp ?_
  with_reducible assumption

def State.nbrClear_foot : Foot := ⟨0x1fffffff, 0x0⟩

theorem State.nbrClear_follows {p s0} {a0} {a1} (hp : Foot.le State.nbrClear_foot p) (h0 : Follows p s0 a0) :
    Follows p s0 (State.nbrClear (a0) (a1)) := by
  unfold State.nbrClear
  extract_lets y0 y1 y2
  have k3 : Follows p s0 y0 := by
    subst y0
    refine Follows.updAll hp rfl ?_ rfl (.inr ⟨_, rfl⟩) (.inl rfl) (.inl rfl)
    with_reducible assumption
  clear_value y0
  have k4 : Follows p s0 y1 := by
    subst y1
    refine State.updNbr_follows (hp.sub rfl) ?_
    with_reducible assumption
  clear_value y1
  have k5 : Follows p s0 y2 := by
    subst y2
    refine State.set_follows 386 hp ?_
    refine State.set_follows 385 hp ?_
    with_reducible assumption
  clear_value y2
  refine State.propFromSeed_follows (hp.sub rfl) ?_
  with_reducible assumption

def State.nbrReinit_foot : Foot := ⟨0x1fffffff, 0x0⟩

theorem State.nbrReinit_follows {p s0} {a0} {a1} (hp : Foot.le State.nbrReinit_foot p) (h0 : Follows p s0 a0) :
    Follows p s0 (State.nbrReinit (a0) (a1)) := by
  unfold State.nbrReinit
  refine State.nbrClear_follows (hp.sub rfl) ?_
  refine Follows.foldl ?_ ?_
  · intro x0 x1 x2
    refine State.finishFrame_follows (hp.sub rfl) ?_
    with_reducible assumption
  · with_reducible assumption

def State.copyShadow_foot : Foot := ⟨0x0, 0x3fff0000000000000000000000000000000000000000000000000000000000000000000000000000000000000000000⟩

theorem State.copyShadow_follows {p s0} {a0} {a1} (hp : Foot.le State.copyShadow_foot p) (h0 : Follows p s0 a0) :
    Follows p s0 (State.copyShadow (a0) (a1)) := by
  unfold State.copyShadow
  extract_lets y0 y1 y2 y3 y4 y5
  have k6 : Follows p s0 y0 := by
    subst y0
    refine State.set_follows 365 hp ?_
    refine State.set_follows 364 hp ?_
    with_reducible assumption
  clear_value y0
  have k7 : Follows p s0 y1 := by
    subst y1
    refine State.set_follows 367 hp ?_
    refine State.set_follows 366 hp ?_
    with_reducible assumption
  clear_value y1
  have k8 : Follows p s0 y2 := by
    subst y2
    refine State.set_follows 369 hp ?_
    refine State.set_follows 368 hp ?_
    with_reducible assumption
  clear_value y2
  have k9 : Follows p s0 y3 := by
    subst y3
    refine State.set_follows 371 hp ?_
    refine State.set_follows 370 hp ?_
    with_reducible assumption
  clear_value y3
  have k10 : Follows p s0 y4 := by
    subst y4
    refine State.set_follows 373 hp ?_
    refine State.set_follows 372 hp ?_
    with_reducible assumption
  clear_value y4
  have k11 : Follows p s0 y5 := by
    subst y5
    refine State.set_follows 375 hp ?_
    refine State.set_follows 374 hp ?_
    with_reducible assumption
  clear_value y5
  refine State.set_follows 377 hp ?_
  refine State.set_follows 376 hp ?_
  with_reducible assumption

def State.toWindow_foot : Foot := ⟨0x10, 0x0⟩

theorem State.toWindow_follows {p s0} {a0} (hp : Foot.le State.toWindow_foot p) (h0 : Follows p s0 a0) :
    Follows p s0 (State.toWindow (a0)) := by
  unfold State.toWindow
  refine State.reach_follows (hp.sub rfl) ?_
  with_reducible assumption

def State.neighbourCopy_foot : Foot := ⟨0x1fffffff, 0x0⟩

theorem State.neighbourCopy_follows {p s0} {a0} {a1} (hp : Foot.le State.neighbourCopy_foot p) (h0 : Follows p s0 a0) :
    Follows p s0 (State.neighbourCopy (a0) (a1)) := by
  unfold State.neighbourCopy
  refine Follows.ite ?_ ?_
  · with_reducible assumption
  · extract_lets y0 y1 y2 y3 y4 y5 y6
    have k7 : Follows p s0 y0 := by
      subst y0
      refine State.toWindow_follows (hp.sub rfl) ?_
      refine State.reach_follows (hp.sub rfl) ?_
      with_reducible assumption
    clear_value y0
    have k8 : Follows p s0 y1 := by
      subst y1
      refine State.updNbr_follows (hp.sub rfl) ?_
      with_reducible assumption
    clear_value y1
    clear_value y2
    have k9 : Follows p s0 y3 := by
      subst y3
      refine State.copyShadow_follows (hp.sub rfl) ?_
      with_reducible assumption
    clear_value y3
    have k10 : Follows p s0 y4 := by
      subst y4
      refine Follows.ite ?_ ?_
      · refine State.nbrReinit_follows (hp.sub rfl) ?_
        with_reducible assumption
      · refine Follows.ite ?_ ?_
        · with_reducible assumption
        · refine State.propFromSeed_follows (hp.sub rfl) ?_
          with_reducible assumption
    clear_value y4
    have k11 : Follows p s0 y5 := by
      subst y5
      refine Follows.ite ?_ ?_
      · with_reducible assumption
      · refine State.set_follows 385 hp ?_
        with_reducible assumption
    clear_value y5
    have k12 : Follows p s0 y6 := by
      subst y6
      refine Follows.ite ?_ ?_
      · refine State.hitPoison_follows (hp.sub rfl) ?_
        with_reducible assumption
      · refine State.refreshFunc_follows (hp.sub rfl) ?_
        refine State.refreshSpent_follows (hp.sub rfl) ?_
        with_reducible assumption
    clear_value y6
    refine Follows.ite ?_ ?_
    · with_reducible assumption
    · refine State.fire_follows (hp.sub rfl) ?_
      refine State.set_follows 216 hp ?_
      with_reducible assumption

def State.nbrCommit_foot : Foot := ⟨0x2000, 0x1000000000000000000000000000000000000000000000000000000⟩

theorem State.nbrCommit_follows {p s0} {a0} {a1} (hp : Foot.le State.nbrCommit_foot p) (h0 : Follows p s0 a0) :
    Follows p s0 (State.nbrCommit (a0) (a1)) := by
  unfold State.nbrCommit
  extract_lets y0
  clear_value y0
  refine Follows.ite ?_ ?_
  · with_reducible assumption
  · refine State.set_follows 216 hp ?_
    refine Follows.forAll ?_ ?_
    · intro x1 x2 x3
      refine Follows.ite ?_ ?_
      · refine State.updNbr_follows (hp.sub rfl) ?_
        with_reducible assumption
      · with_reducible assumption
    · with_reducible assumption

def State.cancelFrame_foot : Foot := ⟨0x4202000, 0xe808800000000000000000000000000001000040000000000000000000000000000000000000000000000000000000000000000000000000001000000000000000000⟩

theorem State.cancelFrame_follows {p s0} {a0} {a1} {a2} (hp : Foot.le State.cancelFrame_foot p) (h0 : Follows p s0 a0) :
    Follows p s0 (State.cancelFrame (a0) (a1) (a2)).1 := by
  unfold State.cancelFrame
  refine Follows.ite1 ?_ ?_
  · refine Follows.pair ?_
    refine State.finishFrame_follows (hp.sub rfl) ?_
    with_reducible assumption
  · refine Follows.ite1 ?_ ?_
    · with_reducible assumption
    · refine Follows.ite1 ?_ ?_
      · refine Follows.pair ?_
        refine State.updNbr_follows (hp.sub rfl) ?_
        with_reducible assumption
      · with_reducible assumption

def execRxFrameLanding_foot : Foot := ⟨0x1420a02c, 0xe808802000000000000000020000000007019e40000000000000000000000000000000000000000000000000000000000000000000000000001000000000004000030⟩

theorem execRxFrameLanding_follows {p s0} {a0} {a1} {a2} (hp : Foot.le execRxFrameLanding_foot p) (h2 : Follows p s0 a2) :
    FollowsOut p s0 (execRxFrameLanding (a0) (a1) (a2)) := by
  unfold execRxFrameLanding
  refine FollowsOut.next ?_
  refine State.landFrame_follows (hp.sub rfl) ?_
  refine State.releaseFrames_follows (hp.sub rfl) ?_
  with_reducible assumption

def execPipeEntry_foot : Foot := ⟨0x401d020, 0xe808800000000000000000000000000000001800000000000000000000000000000000000000000000000000560001000000000000000000001000000000004000000⟩

theorem execPipeEntry_follows {p s0} {a0} {a1} {a2} (hp : Foot.le execPipeEntry_foot p) (h2 : Follows p s0 a2) :
    FollowsOut p s0 (execPipeEntry (a0) (a1) (a2)) := by
  unfold execPipeEntry
  refine FollowsOut.next ?_
  refine Follows.ite ?_ ?_
  · refine State.rxPipe_follows (hp.sub rfl) ?_
    with_reducible assumption
  · refine State.txPipe_follows (hp.sub rfl) ?_
    with_reducible assumption

def execTagVerified_foot : Foot := ⟨0x460a03c, 0xe808800000000000000000000000000007f99f400000000000000000000000000000000000b4000000000000000000002000000000000000001000000000004000030⟩

theorem execTagVerified_follows {p s0} {a0} {a1} (hp : Foot.le execTagVerified_foot p) (h1 : Follows p s0 a1) :
    FollowsOut p s0 (execTagVerified (a0) (a1)) := by
  unfold execTagVerified
  refine FollowsOut.next ?_
  refine State.tagVerified_follows (hp.sub rfl) ?_
  with_reducible assumption

def execTxLeadStart_foot : Foot := ⟨0x405b834, 0xe808800000000000000000000000000000065c0000000000000000000000000000000000000000000001a000000000000000000000000000001000000000004000030⟩

theorem execTxLeadStart_follows {p s0} {a0} {a1} (hp : Foot.le execTxLeadStart_foot p) (h1 : Follows p s0 a1) :
    FollowsOut p s0 (execTxLeadStart (a0) (a1)) := by
  unfold execTxLeadStart
  refine FollowsOut.next ?_
  refine State.txLeadStart_follows (hp.sub rfl) ?_
  with_reducible assumption

def execAckDeadline_foot : Foot := ⟨0x4202000, 0xe808800000000000000000000000000001000040000000000000000000000000000000000000000000000000000000000000000000000000001000000000000000000⟩

theorem execAckDeadline_follows {p s0} {a0} {a1} (hp : Foot.le execAckDeadline_foot p) (h1 : Follows p s0 a1) :
    FollowsOut p s0 (execAckDeadline (a0) (a1)) := by
  unfold execAckDeadline
  refine FollowsOut.next ?_
  refine State.ackDeadline_follows (hp.sub rfl) ?_
  with_reducible assumption

def execHorizonExpiry_foot : Foot := ⟨0x4202010, 0xe808800000000000000000000000000001000040000000000000000000000000000000000000000000000000000000000000000000000000001000000000000000000⟩

theorem execHorizonExpiry_follows {p s0} {a0} {a1} {a2} (hp : Foot.le execHorizonExpiry_foot p) (h2 : Follows p s0 a2) :
    FollowsOut p s0 (execHorizonExpiry (a0) (a1) (a2)) := by
  unfold execHorizonExpiry
  refine FollowsOut.next ?_
  refine State.horizonExpiry_follows (hp.sub rfl) ?_
  with_reducible assumption

def execTxDescriptorRead_foot : Foot := ⟨0x202000, 0x20000000000000040000000000000000000000000000000000000000000000000000000000000000000000000000000000000000000000⟩

theorem execTxDescriptorRead_follows {p s0} {a0} {a1} {a2} (hp : Foot.le execTxDescriptorRead_foot p) (h2 : Follows p s0 a2) :
    FollowsOut p s0 (execTxDescriptorRead (a0) (a1) (a2)) := by
  unfold execTxDescriptorRead
  refine FollowsOut.next ?_
  refine State.txDescriptor_follows (hp.sub rfl) ?_
  with_reducible assumption

def execNeighbourCopy_foot : Foot := ⟨0x1fffffff, 0x0⟩

theorem execNeighbourCopy_follows {p s0} {a0} {a1} (hp : Foot.le execNeighbourCopy_foot p) (h1 : Follows p s0 a1) :
    FollowsOut p s0 (execNeighbourCopy (a0) (a1)) := by
  unfold execNeighbourCopy
  refine FollowsOut.next ?_
  refine State.neighbourCopy_follows (hp.sub rfl) ?_
  with_reducible assumption

/-! ### Machine/EngineCore.lean -/

def State.lmStore_foot : Foot := ⟨0xc, 0x0⟩

theorem State.lmStore_follows {p s0} {a0} {a1} {a2} (hp : Foot.le State.lmStore_foot p) (h0 : Follows p s0 a0) :
    Follows p s0 (State.lmStore (a0) (a1) (a2)) := by
  unfold State.lmStore
  refine Follows.foldl ?_ ?_
  · intro x0 x1 x2
    extract_lets y3
    have k4 : Follows p s0 y3 := by
      subst y3
      refine State.setBytes_follows hp ?_
      with_reducible assumption
    clear_value y3
    refine Follows.foldl ?_ ?_
    · intro x5 x6 x7
      refine State.clrPoison_follows hp ?_
      with_reducible assumption
    · with_reducible assumption
  · with_reducible assumption

def State.engBoundary_foot : Foot := ⟨0x20000, 0x0⟩

theorem State.engBoundary_follows {p s0} {a0} {a1} (hp : Foot.le State.engBoundary_foot p) (h0 : Follows p s0 a0) :
    Follows p s0 (State.engBoundary (a0) (a1)) := by
  unfold State.engBoundary
  refine Follows.ite ?_ ?_
  · with_reducible assumption
  · extract_lets y0
    clear_value y0
    refine State.updEng_follows (hp.sub rfl) ?_
    with_reducible assumption

def State.engStop_foot : Foot := ⟨0x1fffffff, 0x0⟩

theorem State.engStop_follows {p s0} {a0} {a1} {a2} (hp : Foot.le State.engStop_foot p) (h0 : Follows p s0 a0) :
    Follows p s0 (State.engStop (a0) (a1) (a2)) := by
  unfold State.engStop
  extract_lets y0 y1
  clear_value y0
  have k2 : Follows p s0 y1 := by
    subst y1
    refine State.updEng_follows (hp.sub rfl) ?_
    with_reducible assumption
  clear_value y1
  refine State.fire_follows (hp.sub rfl) ?_
  refine State.logErr_follows (hp.sub rfl) ?_
  with_reducible assumption

def State.engEnter_foot : Foot := ⟨0x1fffffff, 0x0⟩

theorem State.engEnter_follows {p s0} {a0} {a1} {a2} {a3} {a4} {a5} {a6} (hp : Foot.le State.engEnter_foot p) (h0 : Follows p s0 a0) :
    Follows p s0 (State.engEnter (a0) (a1) (a2) (a3) (a4) (a5) (a6)) := by
  unfold State.engEnter
  extract_lets y0
  have k1 : Follows p s0 y0 := by
    subst y0
    refine State.pmcAt_follows (hp.sub rfl) ?_
    refine State.updEng_follows (hp.sub rfl) ?_
    with_reducible assumption
  clear_value y0
  refine Follows.ite ?_ ?_
  · refine State.engStop_follows (hp.sub rfl) ?_
    with_reducible assumption
  · refine State.engBoundary_follows (hp.sub rfl) ?_
    refine State.updEng_follows (hp.sub rfl) ?_
    with_reducible assumption

def State.engFault_foot : Foot := ⟨0x1fffffff, 0x0⟩

theorem State.engFault_follows {p s0} {a0} {a1} {a2} {a3} (hp : Foot.le State.engFault_foot p) (h0 : Follows p s0 a0) :
    Follows p s0 (State.engFault (a0) (a1) (a2) (a3)) := by
  unfold State.engFault
  extract_lets y0 y1 y2
  clear_value y0
  clear_value y1
  clear_value y2
  refine State.engEnter_follows (hp.sub rfl) ?_
  with_reducible assumption

def State.takeBoundary_foot : Foot := ⟨0x1fffffff, 0x0⟩

theorem State.takeBoundary_follows {p s0} {a0} {a1} (hp : Foot.le State.takeBoundary_foot p) (h0 : Follows p s0 a0) :
    Follows p s0 (State.takeBoundary (a0) (a1)) := by
  unfold State.takeBoundary
  extract_lets y0
  clear_value y0
  refine Follows.ite ?_ ?_
  · with_reducible assumption
  · split
    · with_reducible assumption
    · extract_lets y8 y9
      have k10 : Follows p s0 y8 := by
        subst y8
        refine State.updEng_follows (hp.sub rfl) ?_
        with_reducible assumption
      clear_value y8
      have k11 : Follows p s0 y9 := by
        subst y9
        refine Follows.ite ?_ ?_
        · refine State.pmcAt_follows (hp.sub rfl) ?_
          with_reducible assumption
        · with_reducible assumption
      clear_value y9
      refine State.engEnter_follows (hp.sub rfl) ?_
      with_reducible assumption

def State.engRetire_foot : Foot := ⟨0x402000c, 0xe808800000000000000000000000000000000000000000000000000000000000000000000000000000000000000000000000000000000000001000000000000000000⟩

theorem State.engRetire_follows {p s0} {a0} {a1} {a2} {a3} {a4} (hp : Foot.le State.engRetire_foot p) (h0 : Follows p s0 a0) :
    Follows p s0 (State.engRetire (a0) (a1) (a2) (a3) (a4)) := by
  unfold State.engRetire
  extract_lets y0 y1 y2
  clear_value y0
  clear_value y1
  have k3 : ∀ b0 b1, Follows p s0 b0 → Follows p s0 (y2 b0 b1) := by
    subst y2
    intro x4 x5 x6
    beta_reduce
    extract_lets y7
    have k8 : Follows p s0 y7 := by
      subst y7
      refine State.pmcAt_follows (hp.sub rfl) ?_
      with_reducible assumption
    clear_value y7
    refine Follows.ite ?_ ?_
    · refine State.pmcAt_follows (hp.sub rfl) ?_
      with_reducible assumption
    · with_reducible assumption
  clear_value y2
  split
  · refine State.engBoundary_follows (hp.sub rfl) ?_
    apply k3
    refine State.updEng_follows (hp.sub rfl) ?_
    refine State.lmStore_follows (hp.sub rfl) ?_
    with_reducible assumption
  · refine State.engBoundary_follows (hp.sub rfl) ?_
    apply k3
    refine State.updEng_follows (hp.sub rfl) ?_
    refine State.lmStore_follows (hp.sub rfl) ?_
    with_reducible assumption
  · refine State.updEng_follows (hp.sub rfl) ?_
    with_reducible assumption
  · refine State.engBoundary_follows (hp.sub rfl) ?_
    apply k3
    refine State.updEng_follows (hp.sub rfl) ?_
    refine State.lmStore_follows (hp.sub rfl) ?_
    with_reducible assumption

def State.engApply_foot : Foot := ⟨0x1fffffff, 0x0⟩

theorem State.engApply_follows {p s0} {a0} {a1} {a2} {a3} (hp : Foot.le State.engApply_foot p) (h0 : Follows p s0 a0) :
    Follows p s0 (State.engApply (a0) (a1) (a2) (a3)) := by
  unfold State.engApply
  extract_lets y0 y1 y2 y3
  clear_value y0
  clear_value y1
  have k4 : Follows p s0 y2 := by
    subst y2
    refine State.pmcAt_follows (hp.sub rfl) ?_
    with_reducible assumption
  clear_value y2
  clear_value y3
  split
  · refine State.engRetire_follows (hp.sub rfl) ?_
    with_reducible assumption
  · refine State.updEng_follows (hp.sub rfl) ?_
    with_reducible assumption
  · refine State.engBoundary_follows (hp.sub rfl) ?_
    refine State.pmcAt_follows (hp.sub rfl) ?_
    refine State.updEng_follows (hp.sub rfl) ?_
    with_reducible assumption
  · refine State.updEng_follows (hp.sub rfl) ?_
    with_reducible assumption
  · refine State.engBoundary_follows (hp.sub rfl) ?_
    refine State.pmcAt_follows (hp.sub rfl) ?_
    refine State.updEng_follows (hp.sub rfl) ?_
    with_reducible assumption
  · refine State.engEnter_follows (hp.sub rfl) ?_
    with_reducible assumption
  · refine State.updEng_follows (hp.sub rfl) ?_
    with_reducible assumption
  · refine State.engFault_follows (hp.sub rfl) ?_
    with_reducible assumption

def State.engEcc_foot : Foot := ⟨0x1fffffff, 0x0⟩

theorem State.engEcc_follows {p s0} {a0} {a1} {a2} {a3} {a4} (hp : Foot.le State.engEcc_foot p) (h0 : Follows p s0 a0) :
    Follows p s0 (State.engEcc (a0) (a1) (a2) (a3) (a4)) := by
  unfold State.engEcc
  extract_lets y0 y1 y2
  clear_value y0
  clear_value y1
  have k3 : Follows p s0 y2 := by
    subst y2
    refine Follows.foldl ?_ ?_
    · intro x4 x5 x6
      split
      · refine State.corrected_follows (hp.sub rfl) ?_
        with_reducible assumption
      · with_reducible assumption
    · with_reducible assumption
  clear_value y2
  split
  · refine Follows.ite ?_ ?_
    · split
      · refine State.uncorrectable_follows (hp.sub rfl) ?_
        with_reducible assumption
      · refine State.hitPoison_follows (hp.sub rfl) ?_
        with_reducible assumption
    · with_reducible assumption
  · with_reducible assumption

def State.engIssue_foot : Foot := ⟨0x1fffffff, 0x0⟩

theorem State.engIssue_follows {p s0} {a0} {a1} {a2} {a3} {a4} {a5} {a6} {a7} (hp : Foot.le State.engIssue_foot p) (h0 : Follows p s0 a0) (h5 : ∀ b0, Follows p s0 b0 → Follows p s0 (a5 b0)) :
    Follows p s0 (State.engIssue (a0) (a1) (a2) (a3) (a4) (a5) (a6) (a7)) := by
  unfold State.engIssue
  refine Follows.ite ?_ ?_
  · with_reducible assumption
  · refine Follows.ite ?_ ?_
    · refine State.takeBoundary_follows (hp.sub rfl) ?_
      with_reducible assumption
    · extract_lets y0 y1 y2 y3 y4
      clear_value y0
      clear_value y1
      clear_value y2
      clear_value y3
      have k5 : Follows p s0 y4 := by
        subst y4
        refine State.engEcc_follows (hp.sub rfl) ?_
        with_reducible assumption
      clear_value y4
      refine Follows.ite ?_ ?_
      · with_reducible assumption
      · split
        · refine State.engFault_follows (hp.sub rfl) ?_
          with_reducible assumption
        · apply h5
          refine State.engApply_follows (hp.sub rfl) ?_
          with_reducible assumption

def State.mrecvWake_foot : Foot := ⟨0x402000c, 0xe808800000000000000000000000000000000000000000000000000000000000000000000000000000000000000000000000000000000000001000000000000000000⟩

theorem State.mrecvWake_follows {p s0} {a0} {a1} (hp : Foot.le State.mrecvWake_foot p) (h0 : Follows p s0 a0) :
    Follows p s0 (State.mrecvWake (a0) (a1)) := by
  unfold State.mrecvWake
  split
  · refine Follows.ite ?_ ?_
    · with_reducible assumption
    · refine State.engRetire_follows (hp.sub rfl) ?_
      refine State.updEng_follows (hp.sub rfl) ?_
      with_reducible assumption
  · with_reducible assumption

def State.mboxDeliver_foot : Foot := ⟨0x402000c, 0xe808800000000000000000000000000000000000000000000000000000000000000000000000000000000000000000000000000000000000001000000000000000000⟩

theorem State.mboxDeliver_follows {p s0} {a0} {a1} {a2} (hp : Foot.le State.mboxDeliver_foot p) (h0 : Follows p s0 a0) :
    Follows p s0 (State.mboxDeliver (a0) (a1) (a2)) := by
  unfold State.mboxDeliver
  refine State.mrecvWake_follows (hp.sub rfl) ?_
  refine State.fire_follows (hp.sub rfl) ?_
  refine State.updEng_follows (hp.sub rfl) ?_
  with_reducible assumption

def State.msendWake_foot : Foot := ⟨0x402000c, 0xe808800000000000000000000000000000000000000000000000000000000000000000000000000000000000000000000000000000000000001000000000000000000⟩

theorem State.msendWake_follows {p s0} {a0} {a1} (hp : Foot.le State.msendWake_foot p) (h0 : Follows p s0 a0) :
    Follows p s0 (State.msendWake (a0) (a1)) := by
  unfold State.msendWake
  split
  · extract_lets y4
    clear_value y4
    refine Follows.ite ?_ ?_
    · with_reducible assumption
    · refine State.engRetire_follows (hp.sub rfl) ?_
      refine State.mboxDeliver_follows (hp.sub rfl) ?_
      with_reducible assumption
  · with_reducible assumption

def State.berthFree_foot : Foot := ⟨0x402000c, 0xe808800000000000000000000000000000000000000000000000000000000000000000000000000000000000000000000000000000000000001000000000000000000⟩

theorem State.berthFree_follows {p s0} {a0} {a1} (hp : Foot.le State.berthFree_foot p) (h0 : Follows p s0 a0) :
    Follows p s0 (State.berthFree (a0) (a1)) := by
  unfold State.berthFree
  split
  · refine State.msendWake_follows (hp.sub rfl) ?_
    with_reducible assumption
  · with_reducible assumption

/-! ### Machine/Timetable.lean -/

def State.settleCxi_foot : Foot := ⟨0x435a884, 0x4000000000e80880000000000000000000000000000100004000000000000000000000000000000000000000000001a000000000000000000000000000001000000200000000000⟩

theorem State.settleCxi_follows {p s0} {a0} (hp : Foot.le State.settleCxi_foot p) (h0 : Follows p s0 a0) :
    Follows p s0 (State.settleCxi (a0)) := by
  unfold State.settleCxi
  refine Follows.ite ?_ ?_
  · with_reducible assumption
  · extract_lets y0 y1 y2 y3 y4
    clear_value y0
    have k5 : Follows p s0 y1 := by
      subst y1
      refine Follows.update hp ?_ rfl rfl
      with_reducible assumption
    clear_value y1
    have k6 : Follows p s0 y2 := by
      subst y2
      refine Follows.foldl ?_ ?_
      · intro x7 x8 x9
        refine State.underrun_follows (hp.sub rfl) ?_
        refine State.bump_follows 45 hp ?_
        with_reducible assumption
      · with_reducible assumption
    clear_value y2
    clear_value y3
    clear_value y4
    refine Follows.ite ?_ ?_
    · refine State.wkResume_follows (hp.sub rfl) ?_
      refine State.refreshCx_follows (hp.sub rfl) ?_
      refine Follows.update hp ?_ rfl rfl
      with_reducible assumption
    · with_reducible assumption

def State.cxiRise_foot : Foot := ⟨0x435a884, 0x4000000000e80880000000000000000000000000000100004000000000000000000000000000000000000000000001a000000000000000000000000000001000000200000000000⟩

theorem State.cxiRise_follows {p s0} {a0} {a1} (hp : Foot.le State.cxiRise_foot p) (h0 : Follows p s0 a0) :
    Follows p s0 (State.cxiRise (a0) (a1)) := by
  unfold State.cxiRise
  refine State.settleCxi_follows (hp.sub rfl) ?_
  refine Follows.update hp ?_ rfl rfl
  with_reducible assumption

def State.cxiFall_foot : Foot := ⟨0x80, 0x0⟩

theorem State.cxiFall_follows {p s0} {a0} (hp : Foot.le State.cxiFall_foot p) (h0 : Follows p s0 a0) :
    Follows p s0 (State.cxiFall (a0)) := by
  unfold State.cxiFall
  refine Follows.update hp ?_ rfl rfl
  with_reducible assumption

def State.coexRequest_foot : Foot := ⟨0x1090, 0x0⟩

theorem State.coexRequest_follows {p s0} {a0} {a1} (hp : Foot.le State.coexRequest_foot p) (h0 : Follows p s0 a0) :
    Follows p s0 (State.coexRequest (a0) (a1)) := by
  unfold State.coexRequest
  extract_lets y0
  clear_value y0
  split
  · with_reducible assumption
  · refine State.refreshCx_follows (hp.sub rfl) ?_
    refine State.updCrossing_follows (hp.sub rfl) ?_
    refine State.reach_follows (hp.sub rfl) ?_
    with_reducible assumption

def State.walkPast_foot : Foot := ⟨0x1000, 0x0⟩

theorem State.walkPast_follows {p s0} {a0} {a1} (hp : Foot.le State.walkPast_foot p) (h0 : Follows p s0 a0) :
    Follows p s0 (State.walkPast (a0) (a1)) := by
  unfold State.walkPast
  refine Follows.update hp ?_ rfl rfl
  with_reducible assumption

def State.skipDesc_foot : Foot := ⟨0x4041b24, 0xe8088000000000000000000000000000010000000000000001801a30fc600001000000000000000d00000000000000000000000000000000001000000000004000000⟩

theorem State.skipDesc_follows {p s0} {a0} {a1} {a2} {a3} {a4} (hp : Foot.le State.skipDesc_foot p) (h0 : Follows p s0 a0) :
    Follows p s0 (State.skipDesc (a0) (a1) (a2) (a3) (a4)) := by
  unfold State.skipDesc
  extract_lets y0 y1
  have k2 : Follows p s0 y0 := by
    subst y0
    refine State.skipRecord_follows (hp.sub rfl) ?_
    with_reducible assumption
  clear_value y0
  have k3 : Follows p s0 y1 := by
    subst y1
    refine Follows.ite ?_ ?_
    · refine State.notePair_follows (hp.sub rfl) ?_
      with_reducible assumption
    · with_reducible assumption
  clear_value y1
  refine State.returnTiles_follows (hp.sub rfl) ?_
  refine State.unvoteFor_follows (hp.sub rfl) ?_
  with_reducible assumption

def State.pilotMessage_foot : Foot := ⟨0x402000c, 0xe808800000000000000000000000000000000000000000000000000000000000000000000000000000000000000000000000000000000000001000000000000000000⟩

theorem State.pilotMessage_follows {p s0} {a0} {a1} {a2} {a3} (hp : Foot.le State.pilotMessage_foot p) (h0 : Follows p s0 a0) :
    Follows p s0 (State.pilotMessage (a0) (a1) (a2) (a3)) := by
  unfold State.pilotMessage
  refine Follows.ite ?_ ?_
  · refine State.updEng_follows (hp.sub rfl) ?_
    with_reducible assumption
  · refine State.mboxDeliver_follows (hp.sub rfl) ?_
    with_reducible assumption

def State.fetchDesc_foot : Foot := ⟨0x4061b2c, 0xe8088000000000000000000000000000010000000000000001801a30fc600001000000000000000d00000000000000000000000000000000001000000000004000000⟩

theorem State.fetchDesc_follows {p s0} {a0} {a1} {a2} {a3} (hp : Foot.le State.fetchDesc_foot p) (h0 : Follows p s0 a0) :
    Follows p s0 (State.fetchDesc (a0) (a1) (a2) (a3)) := by
  unfold State.fetchDesc
  extract_lets y0 y1 y2 y3 y4 y5
  clear_value y0
  clear_value y1
  clear_value y2
  clear_value y3
  have k6 : Follows p s0 y4 := by
    subst y4
    refine State.refreshVotes_follows (hp.sub rfl) ?_
    refine Follows.update hp ?_ rfl rfl
    with_reducible assumption
  clear_value y4
  have k7 : Follows p s0 y5 := by
    subst y5
    refine Follows.ite ?_ ?_
    · refine State.notePair_follows (hp.sub rfl) ?_
      with_reducible assumption
    · with_reducible assumption
  clear_value y5
  refine Follows.ite ?_ ?_
  · refine State.skipDesc_follows (hp.sub rfl) ?_
    with_reducible assumption
  · refine State.pilotMessage_follows (hp.sub rfl) ?_
    with_reducible assumption

def State.fetchHeld_foot : Foot := ⟨0x4061b3c, 0xe8088000000000000000000000000000010000000000000001801a30fc600001000000000000000d00000000000000000000000000000000001000000000004000000⟩

theorem State.fetchHeld_follows {p s0} {a0} {a1} (hp : Foot.le State.fetchHeld_foot p) (h0 : Follows p s0 a0) :
    Follows p s0 (State.fetchHeld (a0) (a1)) := by
  unfold State.fetchHeld
  extract_lets y0 y1 y2
  have k3 : Follows p s0 y0 := by
    subst y0
    refine State.reach_follows (hp.sub rfl) ?_
    with_reducible assumption
  clear_value y0
  clear_value y1
  have k4 : Follows p s0 y2 := by
    subst y2
    refine Follows.update hp ?_ rfl rfl
    with_reducible assumption
  clear_value y2
  refine Follows.ite ?_ ?_
  · refine State.unvoteFor_follows (hp.sub rfl) ?_
    with_reducible assumption
  · refine Follows.ite ?_ ?_
    · refine State.fetchDesc_follows (hp.sub rfl) ?_
      with_reducible assumption
    · refine State.skipDesc_follows (hp.sub rfl) ?_
      with_reducible assumption

def State.fetchItem_foot : Foot := ⟨0x4061b3c, 0xe8088020000000000000000000000000010000000000000001801a30fc600001000000000000000d00000000000000000000000000000000001000000000004000000⟩

theorem State.fetchItem_follows {p s0} {a0} {a1} (hp : Foot.le State.fetchItem_foot p) (h0 : Follows p s0 a0) :
    Follows p s0 (State.fetchItem (a0) (a1)) := by
  unfold State.fetchItem
  split
  · refine State.fetchDesc_follows (hp.sub rfl) ?_
    refine State.walkPast_follows (hp.sub rfl) ?_
    refine State.reach_follows (hp.sub rfl) ?_
    with_reducible assumption
  · refine State.skipDesc_follows (hp.sub rfl) ?_
    refine State.walkPast_follows (hp.sub rfl) ?_
    with_reducible assumption
  · refine State.skipRing_follows (hp.sub rfl) ?_
    refine State.walkPast_follows (hp.sub rfl) ?_
    refine State.hitPoison_follows (hp.sub rfl) ?_
    with_reducible assumption

def State.fetchNext_foot : Foot := ⟨0x4061b3c, 0xe8088020000000000000000000000000010000000000000001801a30fc600001000000000000000d00000000000000000000000000000000001000000000004000000⟩

theorem State.fetchNext_follows {p s0} {a0} (hp : Foot.le State.fetchNext_foot p) (h0 : Follows p s0 a0) :
    Follows p s0 (State.fetchNext (a0)) := by
  unfold State.fetchNext
  refine Follows.ite ?_ ?_
  · with_reducible assumption
  · split
    · rename_i z0 z1 z2 z3
      have k4 : Follows p s0 z1 := by
        refine Follows.fst_eq ?_ z3
        refine State.walkNext_follows (hp.sub rfl) ?_
        with_reducible assumption
      extract_lets y5
      have k6 : Follows p s0 y5 := by
        subst y5
        split
        · with_reducible assumption
        · refine State.fetchHeld_follows (hp.sub rfl) ?_
          with_reducible assumption
        · refine State.fetchItem_follows (hp.sub rfl) ?_
          with_reducible assumption
        · extract_lets y23
          clear_value y23
          refine Follows.ite ?_ ?_
          · refine State.fetchItem_follows (hp.sub rfl) ?_
            with_reducible assumption
          · refine State.fetchHeld_follows (hp.sub rfl) ?_
            with_reducible assumption
      clear_value y5
      refine State.pruneVotes_follows (hp.sub rfl) ?_
      with_reducible assumption

def State.voteScan_foot : Foot := ⟨0x1030, 0x4000000⟩

theorem State.voteScan_follows {p s0} {a0} {a1} (hp : Foot.le State.voteScan_foot p) (h0 : Follows p s0 a0) :
    Follows p s0 (State.voteScan (a0) (a1)) := by
  unfold State.voteScan
  split
  · extract_lets y8
    clear_value y8
    refine State.voteFor_follows (hp.sub rfl) ?_
    refine State.reach_follows (hp.sub rfl) ?_
    with_reducible assumption
  · with_reducible assumption

def State.warmCommand_foot : Foot := ⟨0x4040b10, 0xe8088000000000000000000000000000000000000000000001981a30fc600001000000000000000000000000000000000000000000000000001000000000000000000⟩

theorem State.warmCommand_follows {p s0} {a0} {a1} {a2} (hp : Foot.le State.warmCommand_foot p) (h0 : Follows p s0 a0) :
    Follows p s0 (State.warmCommand (a0) (a1) (a2)) := by
  unfold State.warmCommand
  split
  · with_reducible assumption
  · extract_lets y7
    have k8 : Follows p s0 y7 := by
      subst y7
      refine State.reach_follows (hp.sub rfl) ?_
      with_reducible assumption
    clear_value y7
    refine Follows.forBits ?_ ?_
    · intro x9 x10 x11
      refine Follows.ite ?_ ?_
      · refine State.writeCoarse_follows (hp.sub rfl) ?_
        refine State.tileToWarm_follows (hp.sub rfl) ?_
        with_reducible assumption
      · with_reducible assumption
    · with_reducible assumption

def State.xngCommit_foot : Foot := ⟨0x1020, 0x100000000000000000000000000000000000000000004000000⟩

theorem State.xngCommit_follows {p s0} {a0} {a1} (hp : Foot.le State.xngCommit_foot p) (h0 : Follows p s0 a0) :
    Follows p s0 (State.xngCommit (a0) (a1)) := by
  unfold State.xngCommit
  extract_lets y0 y1 y2
  clear_value y0
  clear_value y1
  clear_value y2
  refine State.pruneVotes_follows (hp.sub rfl) ?_
  refine State.set_follows 200 hp ?_
  refine Follows.update hp ?_ rfl rfl
  with_reducible assumption

def State.imageSwitch_foot : Foot := ⟨0x1020, 0x300000000000000000000000000000001000000000004000000⟩

theorem State.imageSwitch_follows {p s0} {a0} (hp : Foot.le State.imageSwitch_foot p) (h0 : Follows p s0 a0) :
    Follows p s0 (State.imageSwitch (a0)) := by
  unfold State.imageSwitch
  extract_lets y0 y1 y2 y3
  clear_value y0
  clear_value y1
  clear_value y2
  clear_value y3
  refine Follows.ite ?_ ?_
  · with_reducible assumption
  · refine State.pruneVotes_follows (hp.sub rfl) ?_
    refine State.fire_follows (hp.sub rfl) ?_
    refine State.set_follows 200 hp ?_
    refine State.set_follows 201 hp ?_
    refine Follows.update hp ?_ rfl rfl
    with_reducible assumption

def State.xngEnable_foot : Foot := ⟨0x1020, 0x80000000000000000000000000000000000000000004000000⟩

theorem State.xngEnable_follows {p s0} {a0} {a1} (hp : Foot.le State.xngEnable_foot p) (h0 : Follows p s0 a0) :
    Follows p s0 (State.xngEnable (a0) (a1)) := by
  unfold State.xngEnable
  extract_lets y0 y1 y2 y3
  clear_value y0
  have k4 : Follows p s0 y1 := by
    subst y1
    refine State.set_follows 199 hp ?_
    with_reducible assumption
  clear_value y1
  clear_value y2
  clear_value y3
  refine Follows.ite ?_ ?_
  · refine State.pruneVotes_follows (hp.sub rfl) ?_
    refine Follows.update hp ?_ rfl rfl
    with_reducible assumption
  · refine State.pruneVotes_follows (hp.sub rfl) ?_
    with_reducible assumption

def State.pushPtr_foot : Foot := ⟨0x0, 0x60000000000000000000000000000000000000000000000000000⟩

theorem State.pushPtr_follows {p s0} {a0} {a1} {a2} (hp : Foot.le State.pushPtr_foot p) (h0 : Follows p s0 a0) :
    Follows p s0 (State.pushPtr (a0) (a1) (a2)).1 := by
  unfold State.pushPtr
  extract_lets y0 y1
  clear_value y0
  clear_value y1
  refine Follows.ite1 ?_ ?_
  · refine Follows.pair ?_
    refine Follows.ite ?_ ?_
    · refine State.set_follows 209 hp ?_
      with_reducible assumption
    · with_reducible assumption
  · refine Follows.pair ?_
    refine State.set_follows 210 hp ?_
    with_reducible assumption

def State.pushRead_foot : Foot := ⟨0x4041b24, 0xe8088020000000000000000000000000010000000000000001801a30fc600001000000000000000d80000000000000000000000000000000001000000000004000000⟩

theorem State.pushRead_follows {p s0} {a0} (hp : Foot.le State.pushRead_foot p) (h0 : Follows p s0 a0) :
    Follows p s0 (State.pushRead (a0)) := by
  unfold State.pushRead
  extract_lets y0 y1 y2 y3 y4 y5 y6 y7 y8 y9 y10
  clear_value y0
  clear_value y1
  have k11 : Follows p s0 y2 := by
    subst y2
    refine State.fire_follows (hp.sub rfl) ?_
    refine State.set_follows 211 hp ?_
    with_reducible assumption
  clear_value y2
  clear_value y3
  clear_value y4
  clear_value y5
  clear_value y6
  clear_value y7
  have k12 : Follows p s0 y8 := by
    subst y8
    refine Follows.update hp ?_ rfl rfl
    with_reducible assumption
  clear_value y8
  clear_value y9
  have k13 : Follows p s0 y10 := by
    subst y10
    refine Follows.update hp ?_ rfl rfl
    with_reducible assumption
  clear_value y10
  refine Follows.ite ?_ ?_
  · with_reducible assumption
  · refine Follows.ite ?_ ?_
    · refine State.skipRing_follows (hp.sub rfl) ?_
      refine State.hitPoison_follows (hp.sub rfl) ?_
      with_reducible assumption
    · refine Follows.ite ?_ ?_
      · with_reducible assumption
      · refine Follows.ite ?_ ?_
        · refine State.skipDesc_follows (hp.sub rfl) ?_
          with_reducible assumption
        · refine State.voteFor_follows (hp.sub rfl) ?_
          with_reducible assumption

def State.askForSwatch_foot : Foot := ⟨0x4040900, 0xe808800000000000000000000000000000000000000000000000000000000000000118002000000000000000000000000000000000000000001000000000000000000⟩

theorem State.askForSwatch_follows {p s0} {a0} {a1} (hp : Foot.le State.askForSwatch_foot p) (h0 : Follows p s0 a0) :
    Follows p s0 (State.askForSwatch (a0) (a1)) := by
  unfold State.askForSwatch
  extract_lets y0
  have k1 : Follows p s0 y0 := by
    subst y0
    refine Follows.ite ?_ ?_
    · refine State.preload_follows (hp.sub rfl) ?_
      with_reducible assumption
    · with_reducible assumption
  clear_value y0
  refine State.askSwap_follows (hp.sub rfl) ?_
  with_reducible assumption

def State.chooseFor_foot : Foot := ⟨0x1000, 0x1000000000000000000000000000000000000000000000000000000000000000000000000000000000000000000000000000⟩

theorem State.chooseFor_follows {p s0} {a0} {a1} (hp : Foot.le State.chooseFor_foot p) (h0 : Follows p s0 a0) :
    Follows p s0 (State.chooseFor (a0) (a1)) := by
  unfold State.chooseFor
  refine Follows.ite ?_ ?_
  · with_reducible assumption
  · split
    · extract_lets y5
      have k6 : Follows p s0 y5 := by
        subst y5
        refine Follows.ite ?_ ?_
        · refine State.nbrStat_follows (hp.sub rfl) ?_
          with_reducible assumption
        · with_reducible assumption
      clear_value y5
      refine State.updCrossing_follows (hp.sub rfl) ?_
      with_reducible assumption

def State.readiness_foot : Foot := ⟨0x404bbb4, 0xe8088000000000000000000000000000010018000000000001801a30fc600001000138002000000d00000000000000000000000000000000001000000000004000030⟩

theorem State.readiness_follows {p s0} {a0} {a1} {a2} (hp : Foot.le State.readiness_foot p) (h0 : Follows p s0 a0) :
    Follows p s0 (State.readiness (a0) (a1) (a2)) := by
  unfold State.readiness
  split
  · with_reducible assumption
  · extract_lets y5 y6 y7 y8 y9 y10
    have k11 : Follows p s0 y5 := by
      subst y5
      refine State.reach_follows (hp.sub rfl) ?_
      with_reducible assumption
    clear_value y5
    clear_value y6
    have k12 : Follows p s0 y7 := by
      subst y7
      refine Follows.update hp ?_ rfl rfl
      with_reducible assumption
    clear_value y7
    clear_value y8
    have k13 : Follows p s0 y9 := by
      subst y9
      refine Follows.forBits ?_ ?_
      · intro x14 x15 x16
        refine Follows.ite ?_ ?_
        · refine State.tileRadio_follows (hp.sub rfl) ?_
          with_reducible assumption
        · with_reducible assumption
      · with_reducible assumption
    clear_value y9
    have k17 : Follows p s0 y10 := by
      subst y10
      refine State.updCrossing_follows (hp.sub rfl) ?_
      with_reducible assumption
    clear_value y10
    refine Follows.ite ?_ ?_
    · refine State.skipCrossing_follows (hp.sub rfl) ?_
      with_reducible assumption
    · refine State.askForSwatch_follows (hp.sub rfl) ?_
      refine State.chooseFor_follows (hp.sub rfl) ?_
      with_reducible assumption

def State.turnCommand_foot : Foot := ⟨0x4040b10, 0xe8088000000000000000000000000000000000000000000001801a30fc600001000000000000000000000000000000000000000000000000001000000000000000000⟩

theorem State.turnCommand_follows {p s0} {a0} {a1} (hp : Foot.le State.turnCommand_foot p) (h0 : Follows p s0 a0) :
    Follows p s0 (State.turnCommand (a0) (a1)) := by
  unfold State.turnCommand
  split
  · with_reducible assumption
  · extract_lets y5 y6
    clear_value y5
    have k7 : Follows p s0 y6 := by
      subst y6
      refine State.reach_follows (hp.sub rfl) ?_
      with_reducible assumption
    clear_value y6
    refine Follows.forBits ?_ ?_
    · intro x8 x9 x10
      refine Follows.ite ?_ ?_
      · refine State.tileTurn_follows (hp.sub rfl) ?_
        with_reducible assumption
      · with_reducible assumption
    · with_reducible assumption

def State.condDecision_foot : Foot := ⟨0x404bbb4, 0xe8088000000000000000000000000000010018000000000001801a30fc600001000020000000000d00000000000000000000000000000000001000000000004000030⟩

theorem State.condDecision_follows {p s0} {a0} {a1} (hp : Foot.le State.condDecision_foot p) (h0 : Follows p s0 a0) :
    Follows p s0 (State.condDecision (a0) (a1)) := by
  unfold State.condDecision
  split
  · with_reducible assumption
  · extract_lets y5
    have k6 : Follows p s0 y5 := by
      subst y5
      refine State.reach_follows (hp.sub rfl) ?_
      with_reducible assumption
    clear_value y5
    refine Follows.ite ?_ ?_
    · with_reducible assumption
    · refine State.skipCrossing_follows (hp.sub rfl) ?_
      with_reducible assumption

def State.crossingStart_foot : Foot := ⟨0x4053910, 0xe8088000000000000000000000000000000644000000000000000000fc000001000000000000000000000000000000000000000000000000001000000000000000000⟩

theorem State.crossingStart_follows {p s0} {a0} {a1} (hp : Foot.le State.crossingStart_foot p) (h0 : Follows p s0 a0) :
    Follows p s0 (State.crossingStart (a0) (a1)) := by
  unfold State.crossingStart
  split
  · with_reducible assumption
  · extract_lets y5 y6 y7 y8 y9
    have k10 : Follows p s0 y5 := by
      subst y5
      refine State.reach_follows (hp.sub rfl) ?_
      with_reducible assumption
    clear_value y5
    have k11 : Follows p s0 y6 := by
      subst y6
      refine State.pmc_follows (hp.sub rfl) ?_
      refine State.yarn_follows (hp.sub rfl) ?_
      refine State.tensionTaken_follows (hp.sub rfl) ?_
      refine State.updCrossing_follows (hp.sub rfl) ?_
      with_reducible assumption
    clear_value y6
    clear_value y7
    have k12 : Follows p s0 y8 := by
      subst y8
      refine State.phySample_follows (hp.sub rfl) ?_
      with_reducible assumption
    clear_value y8
    clear_value y9
    refine Follows.ite ?_ ?_
    · refine State.txBuild_follows (hp.sub rfl) ?_
      refine State.govern_follows (hp.sub rfl) ?_
      refine State.updSlot_follows (hp.sub rfl) ?_
      with_reducible assumption
    · refine State.updSlot_follows (hp.sub rfl) ?_
      with_reducible assumption

def State.endFrames_foot : Foot := ⟨0x425b824, 0xe8088000000000000000000000000000010038c000000000000000000000000000000000010000000001a100000000000000000000000000001000000000004000030⟩

theorem State.endFrames_follows {p s0} {a0} {a1} (hp : Foot.le State.endFrames_foot p) (h0 : Follows p s0 a0) :
    Follows p s0 (State.endFrames (a0) (a1)) := by
  unfold State.endFrames
  extract_lets y0 y1 y2
  clear_value y0
  have k3 : Follows p s0 y1 := by
    subst y1
    refine State.txFinish_follows (hp.sub rfl) ?_
    with_reducible assumption
  clear_value y1
  have k4 : Follows p s0 y2 := by
    subst y2
    refine Follows.ite ?_ ?_
    · refine State.leadMissed_follows (hp.sub rfl) ?_
      with_reducible assumption
    · with_reducible assumption
  clear_value y2
  refine Follows.ite ?_ ?_
  · refine Follows.ite ?_ ?_
    · refine State.underrun_follows (hp.sub rfl) ?_
      with_reducible assumption
    · with_reducible assumption
  · refine State.cutRx_follows (hp.sub rfl) ?_
    with_reducible assumption

def State.endSweep_foot : Foot := ⟨0x4041804, 0xe80880000000000000000000000000000000000000000000000000000000000000000000000000000001a000000000000000000000000000001000000000000000000⟩

theorem State.endSweep_follows {p s0} {a0} {a1} (hp : Foot.le State.endSweep_foot p) (h0 : Follows p s0 a0) :
    Follows p s0 (State.endSweep (a0) (a1)) := by
  unfold State.endSweep
  refine Follows.ite ?_ ?_
  · with_reducible assumption
  · refine State.sweepOver_follows (hp.sub rfl) ?_
    with_reducible assumption

def State.crossingEnd_foot : Foot := ⟨0x435bbb4, 0x4000000000e8088000000000000000000000000000010038c00000000001801a30fc60000100000000010000000001a100000000000000000000000000001000000600004000030⟩

theorem State.crossingEnd_follows {p s0} {a0} {a1} {a2} (hp : Foot.le State.crossingEnd_foot p) (h0 : Follows p s0 a0) :
    Follows p s0 (State.crossingEnd (a0) (a1) (a2)) := by
  unfold State.crossingEnd
  split
  · with_reducible assumption
  · extract_lets y5 y6 y7 y8 y9 y10 y11 y12 y13 y14 y15
    have k16 : Follows p s0 y5 := by
      subst y5
      refine State.reach_follows (hp.sub rfl) ?_
      with_reducible assumption
    clear_value y5
    have k17 : Follows p s0 y6 := by
      subst y6
      refine State.endSweep_follows (hp.sub rfl) ?_
      refine State.endFrames_follows (hp.sub rfl) ?_
      with_reducible assumption
    clear_value y6
    have k18 : Follows p s0 y7 := by
      subst y7
      refine Follows.ite ?_ ?_
      · refine State.bump_follows 46 hp ?_
        with_reducible assumption
      · with_reducible assumption
    clear_value y7
    clear_value y8
    have k19 : Follows p s0 y9 := by
      subst y9
      refine Follows.update hp ?_ rfl rfl
      with_reducible assumption
    clear_value y9
    clear_value y10
    clear_value y11
    have k20 : Follows p s0 y12 := by
      subst y12
      refine Follows.update hp ?_ rfl rfl
      with_reducible assumption
    clear_value y12
    have k21 : Follows p s0 y13 := by
      subst y13
      refine State.yarn_follows (hp.sub rfl) ?_
      with_reducible assumption
    clear_value y13
    have k22 : Follows p s0 y14 := by
      subst y14
      refine Follows.ite ?_ ?_
      · refine State.updNbr_follows (hp.sub rfl) ?_
        with_reducible assumption
      · with_reducible assumption
    clear_value y14
    have k23 : Follows p s0 y15 := by
      subst y15
      refine State.returnTiles_follows (hp.sub rfl) ?_
      refine State.settleCxi_follows (hp.sub rfl) ?_
      refine State.refreshCx_follows (hp.sub rfl) ?_
      with_reducible assumption
    clear_value y15
    refine State.nbrPoke_follows (hp.sub rfl) ?_
    refine State.unvoteFor_follows (hp.sub rfl) ?_
    with_reducible assumption

def execCrossingFetch_foot : Foot := ⟨0x4061b3c, 0xe8088020000000000000000000000000010000000000000001801a30fc600001000000000000000d00000000000000000000000000000000001000000000004000000⟩

theorem execCrossingFetch_follows {p s0} {a0} (hp : Foot.le execCrossingFetch_foot p) (h0 : Follows p s0 a0) :
    FollowsOut p s0 (execCrossingFetch (a0)) := by
  unfold execCrossingFetch
  refine FollowsOut.next ?_
  refine State.fetchNext_follows (hp.sub rfl) ?_
  with_reducible assumption

def execPushEntryRead_foot : Foot := ⟨0x4041b24, 0xe8088020000000000000000000000000010000000000000001801a30fc600001000000000000000d80000000000000000000000000000000001000000000004000000⟩

theorem execPushEntryRead_follows {p s0} {a0} (hp : Foot.le execPushEntryRead_foot p) (h0 : Follows p s0 a0) :
    FollowsOut p s0 (execPushEntryRead (a0)) := by
  unfold execPushEntryRead
  refine FollowsOut.next ?_
  refine State.pushRead_follows (hp.sub rfl) ?_
  with_reducible assumption

def execVoteScan_foot : Foot := ⟨0x1030, 0x4000000⟩

theorem execVoteScan_follows {p s0} {a0} {a1} (hp : Foot.le execVoteScan_foot p) (h1 : Follows p s0 a1) :
    FollowsOut p s0 (execVoteScan (a0) (a1)) := by
  unfold execVoteScan
  refine FollowsOut.next ?_
  refine State.voteScan_follows (hp.sub rfl) ?_
  with_reducible assumption

def execTileWarmCommand_foot : Foot := ⟨0x4040b10, 0xe8088000000000000000000000000000000000000000000001981a30fc600001000000000000000000000000000000000000000000000000001000000000000000000⟩

theorem execTileWarmCommand_follows {p s0} {a0} {a1} (hp : Foot.le execTileWarmCommand_foot p) (h1 : Follows p s0 a1) :
    FollowsOut p s0 (execTileWarmCommand (a0) (a1)) := by
  unfold execTileWarmCommand
  refine FollowsOut.next ?_
  refine State.warmCommand_follows (hp.sub rfl) ?_
  with_reducible assumption

def execReadinessCheck_foot : Foot := ⟨0x404bbb4, 0xe8088000000000000000000000000000010018000000000001801a30fc600001000138002000000d00000000000000000000000000000000001000000000004000030⟩

theorem execReadinessCheck_follows {p s0} {a0} {a1} {a2} (hp : Foot.le execReadinessCheck_foot p) (h2 : Follows p s0 a2) :
    FollowsOut p s0 (execReadinessCheck (a0) (a1) (a2)) := by
  unfold execReadinessCheck
  refine FollowsOut.next ?_
  refine State.readiness_follows (hp.sub rfl) ?_
  with_reducible assumption

def execTurnCommand_foot : Foot := ⟨0x4040b10, 0xe8088000000000000000000000000000000000000000000001801a30fc600001000000000000000000000000000000000000000000000000001000000000000000000⟩

theorem execTurnCommand_follows {p s0} {a0} {a1} (hp : Foot.le execTurnCommand_foot p) (h1 : Follows p s0 a1) :
    FollowsOut p s0 (execTurnCommand (a0) (a1)) := by
  unfold execTurnCommand
  refine FollowsOut.next ?_
  refine State.turnCommand_follows (hp.sub rfl) ?_
  with_reducible assumption

def execCondReplyDecision_foot : Foot := ⟨0x404bbb4, 0xe8088000000000000000000000000000010018000000000001801a30fc600001000020000000000d00000000000000000000000000000000001000000000004000030⟩

theorem execCondReplyDecision_follows {p s0} {a0} {a1} (hp : Foot.le execCondReplyDecision_foot p) (h1 : Follows p s0 a1) :
    FollowsOut p s0 (execCondReplyDecision (a0) (a1)) := by
  unfold execCondReplyDecision
  refine FollowsOut.next ?_
  refine State.condDecision_follows (hp.sub rfl) ?_
  with_reducible assumption

def execCrossingStart_foot : Foot := ⟨0x4053910, 0xe8088000000000000000000000000000000644000000000000000000fc000001000000000000000000000000000000000000000000000000001000000000000000000⟩

theorem execCrossingStart_follows {p s0} {a0} {a1} (hp : Foot.le execCrossingStart_foot p) (h1 : Follows p s0 a1) :
    FollowsOut p s0 (execCrossingStart (a0) (a1)) := by
  unfold execCrossingStart
  refine FollowsOut.next ?_
  refine State.crossingStart_follows (hp.sub rfl) ?_
  with_reducible assumption

def execCrossingEnd_foot : Foot := ⟨0x435bbb4, 0x4000000000e8088000000000000000000000000000010038c00000000001801a30fc60000100000000010000000001a100000000000000000000000000001000000600004000030⟩

theorem execCrossingEnd_follows {p s0} {a0} {a1} {a2} (hp : Foot.le execCrossingEnd_foot p) (h2 : Follows p s0 a2) :
    FollowsOut p s0 (execCrossingEnd (a0) (a1) (a2)) := by
  unfold execCrossingEnd
  refine FollowsOut.next ?_
  refine State.crossingEnd_follows (hp.sub rfl) ?_
  with_reducible assumption

def execCoexRequest_foot : Foot := ⟨0x1090, 0x0⟩

theorem execCoexRequest_follows {p s0} {a0} {a1} (hp : Foot.le execCoexRequest_foot p) (h1 : Follows p s0 a1) :
    FollowsOut p s0 (execCoexRequest (a0) (a1)) := by
  unfold execCoexRequest
  refine FollowsOut.next ?_
  refine State.coexRequest_follows (hp.sub rfl) ?_
  with_reducible assumption

def execCxiReqRise_foot : Foot := ⟨0x435a884, 0x4000000000e80880000000000000000000000000000100004000000000000000000000000000000000000000000001a000000000000000000000000000001000000200000000000⟩

theorem execCxiReqRise_follows {p s0} {a0} {a1} (hp : Foot.le execCxiReqRise_foot p) (h1 : Follows p s0 a1) :
    FollowsOut p s0 (execCxiReqRise (a0) (a1)) := by
  unfold execCxiReqRise
  refine FollowsOut.next ?_
  refine State.cxiRise_follows (hp.sub rfl) ?_
  with_reducible assumption

def execCxiReqFall_foot : Foot := ⟨0x80, 0x0⟩

theorem execCxiReqFall_follows {p s0} {a0} (hp : Foot.le execCxiReqFall_foot p) (h0 : Follows p s0 a0) :
    FollowsOut p s0 (execCxiReqFall (a0)) := by
  unfold execCxiReqFall
  refine FollowsOut.next ?_
  refine State.cxiFall_follows (hp.sub rfl) ?_
  with_reducible assumption

def execPreloadReport_foot : Foot := ⟨0x1fffffff, 0x0⟩

theorem execPreloadReport_follows {p s0} {a0} {a1} {a2} (hp : Foot.le execPreloadReport_foot p) (h2 : Follows p s0 a2) :
    FollowsOut p s0 (execPreloadReport (a0) (a1) (a2)) := by
  unfold execPreloadReport
  refine FollowsOut.next ?_
  refine State.preloadReport_follows (hp.sub rfl) ?_
  with_reducible assumption

def execArmCutoff_foot : Foot := ⟨0x404bbb4, 0xe8088000000000000000000000000000010018000000000801801a30fc600001000020004000000d00000000000000000000000000000000001000000000004000030⟩

theorem execArmCutoff_follows {p s0} {a0} {a1} (hp : Foot.le execArmCutoff_foot p) (h1 : Follows p s0 a1) :
    FollowsOut p s0 (execArmCutoff (a0) (a1)) := by
  unfold execArmCutoff
  refine FollowsOut.next ?_
  refine State.armCutoff_follows (hp.sub rfl) ?_
  with_reducible assumption

def execBankSwap_foot : Foot := ⟨0x4040b10, 0xe8088000000000000000000000000000000000000000000000001a30fc0000010003f8001000000000000000000000000000000000000000001000000000000000030⟩

theorem execBankSwap_follows {p s0} {a0} {a1} (hp : Foot.le execBankSwap_foot p) (h1 : Follows p s0 a1) :
    FollowsOut p s0 (execBankSwap (a0) (a1)) := by
  unfold execBankSwap
  refine FollowsOut.next ?_
  refine State.bankSwap_follows (hp.sub rfl) ?_
  with_reducible assumption

def execCaptureTick_foot : Foot := ⟨0x4051c, 0xe000000000000000000000000000000000000000000000000000000000000000000001000000000000000000⟩

theorem execCaptureTick_follows {p s0} {a0} {a1} (hp : Foot.le execCaptureTick_foot p) (h1 : Follows p s0 a1) :
    FollowsOut p s0 (execCaptureTick (a0) (a1)) := by
  unfold execCaptureTick
  refine FollowsOut.next ?_
  refine State.captureTick_follows (hp.sub rfl) ?_
  with_reducible assumption

def execCaptureDone_foot : Foot := ⟨0x40000, 0x30000000000000000000000000000000000000000000000001000000000000000000⟩

theorem execCaptureDone_follows {p s0} {a0} (hp : Foot.le execCaptureDone_foot p) (h0 : Follows p s0 a0) :
    FollowsOut p s0 (execCaptureDone (a0)) := by
  unfold execCaptureDone
  refine FollowsOut.next ?_
  refine State.captureDone_follows (hp.sub rfl) ?_
  with_reducible assumption

def execTensionTrigger_foot : Foot := ⟨0x110, 0x0⟩

theorem execTensionTrigger_follows {p s0} {a0} {a1} {a2} (hp : Foot.le execTensionTrigger_foot p) (h2 : Follows p s0 a2) :
    FollowsOut p s0 (execTensionTrigger (a0) (a1) (a2)) := by
  unfold execTensionTrigger
  refine FollowsOut.next ?_
  refine State.tensionTrigger_follows (hp.sub rfl) ?_
  with_reducible assumption

def execTensionTimeout_foot : Foot := ⟨0x130, 0x10000000000000000000000000000000000000000000000000000000000000000000000000000000004000000⟩

theorem execTensionTimeout_follows {p s0} {a0} {a1} (hp : Foot.le execTensionTimeout_foot p) (h1 : Follows p s0 a1) :
    FollowsOut p s0 (execTensionTimeout (a0) (a1)) := by
  unfold execTensionTimeout
  refine FollowsOut.next ?_
  refine State.tensionTimeout_follows (hp.sub rfl) ?_
  with_reducible assumption

/-! ### Machine/Blocks.lean -/

def State.pdetRead_foot : Foot := ⟨0x1fffffff, 0x0⟩

theorem State.pdetRead_follows {p s0} {a0} {a1} {a2} (hp : Foot.le State.pdetRead_foot p) (h0 : Follows p s0 a0) :
    Follows p s0 (State.pdetRead (a0) (a1) (a2)) := by
  unfold State.pdetRead
  refine Follows.ite ?_ ?_
  · with_reducible assumption
  · extract_lets y0 y1 y2 y3 y4
    clear_value y0
    have k5 : Follows p s0 y1 := by
      subst y1
      refine State.set_follows 335 hp ?_
      refine State.set_follows 336 hp ?_
      with_reducible assumption
    clear_value y1
    have k6 : Follows p s0 y2 := by
      subst y2
      refine Follows.ite ?_ ?_
      · refine State.set_follows 315 hp ?_
        with_reducible assumption
      · with_reducible assumption
    clear_value y2
    have k7 : Follows p s0 y3 := by
      subst y3
      refine State.set_follows 318 hp ?_
      refine State.updElem_follows (hp.sub rfl) ?_
      with_reducible assumption
    clear_value y3
    have k8 : Follows p s0 y4 := by
      subst y4
      refine State.tileYarn_follows (hp.sub rfl) ?_
      refine State.fireTile_follows (hp.sub rfl) ?_
      refine State.maskNow_follows (hp.sub rfl) ?_
      with_reducible assumption
    clear_value y4
    refine Follows.ite ?_ ?_
    · refine State.updElem_follows (hp.sub rfl) ?_
      with_reducible assumption
    · refine Follows.ite ?_ ?_
      · refine State.updElem_follows (hp.sub rfl) ?_
        with_reducible assumption
      · refine State.logHw_follows (hp.sub rfl) ?_
        with_reducible assumption

def State.dcLoop_foot : Foot := ⟨0x300, 0x22000000000000000000000000000000000000000000000000000000000001000000000000000000⟩

theorem State.dcLoop_follows {p s0} {a0} {a1} {a2} {a3} (hp : Foot.le State.dcLoop_foot p) (h0 : Follows p s0 a0) :
    Follows p s0 (State.dcLoop (a0) (a1) (a2) (a3)) := by
  unfold State.dcLoop
  refine Follows.ite ?_ ?_
  · with_reducible assumption
  · refine State.dcTrack_follows (hp.sub rfl) ?_
    with_reducible assumption

def State.rxOverload_foot : Foot := ⟨0x100, 0x10000000000000000000000000000000000000000000000000000000000001000000000000000000⟩

theorem State.rxOverload_follows {p s0} {a0} {a1} {a2} (hp : Foot.le State.rxOverload_foot p) (h0 : Follows p s0 a0) :
    Follows p s0 (State.rxOverload (a0) (a1) (a2)) := by
  unfold State.rxOverload
  refine Follows.ite ?_ ?_
  · with_reducible assumption
  · extract_lets y0 y1
    clear_value y0
    have k2 : Follows p s0 y1 := by
      subst y1
      refine State.set_follows 316 hp ?_
      with_reducible assumption
    clear_value y1
    refine Follows.ite ?_ ?_
    · with_reducible assumption
    · refine State.fireTile_follows (hp.sub rfl) ?_
      with_reducible assumption

def State.adcSaturation_foot : Foot := ⟨0x0, 0x2000000000000000000000000000000000000000000000000000000000000000000000000000000000000⟩

theorem State.adcSaturation_follows {p s0} {a0} {a1} (hp : Foot.le State.adcSaturation_foot p) (h0 : Follows p s0 a0) :
    Follows p s0 (State.adcSaturation (a0) (a1)) := by
  unfold State.adcSaturation
  refine Follows.ite ?_ ?_
  · with_reducible assumption
  · refine State.bump_follows 337 hp ?_
    with_reducible assumption

def State.bfSat_foot : Foot := ⟨0x800, 0x18000000000000000000000000000000000000000001000000000000000000⟩

theorem State.bfSat_follows {p s0} {a0} {a1} {a2} (hp : Foot.le State.bfSat_foot p) (h0 : Follows p s0 a0) :
    Follows p s0 (State.bfSat (a0) (a1) (a2)) := by
  unfold State.bfSat
  extract_lets y0 y1
  clear_value y0
  have k2 : Follows p s0 y1 := by
    subst y1
    refine Follows.ite ?_ ?_
    · with_reducible assumption
    · refine State.fire_follows (hp.sub rfl) ?_
      with_reducible assumption
  clear_value y1
  refine State.updSlot_follows (hp.sub rfl) ?_
  refine Follows.ite ?_ ?_
  · refine State.setBit_follows 243 hp ?_
    with_reducible assumption
  · refine State.setBit_follows 244 hp ?_
    with_reducible assumption

def State.rxSamples_foot : Foot := ⟨0x800, 0x400000000000000000000000018000000000000000000000000000000000000000001000000000000000000⟩

theorem State.rxSamples_follows {p s0} {a0} {a1} {a2} (hp : Foot.le State.rxSamples_foot p) (h0 : Follows p s0 a0) :
    Follows p s0 (State.rxSamples (a0) (a1) (a2)) := by
  unfold State.rxSamples
  split
  · with_reducible assumption
  · extract_lets y5 y6 y7 y8 y9 y10 y11 y12 y13
    clear_value y5
    have k14 : Follows p s0 y6 := by
      subst y6
      refine Follows.foldl ?_ ?_
      · intro x15 x16 x17
        refine Follows.ite ?_ ?_
        · refine State.bump_follows 346 hp ?_
          with_reducible assumption
        · with_reducible assumption
      · with_reducible assumption
    clear_value y6
    clear_value y7
    clear_value y8
    have k18 : Follows p s0 y9 := by
      subst y9
      refine Follows.ite ?_ ?_
      · refine State.bfSat_follows (hp.sub rfl) ?_
        with_reducible assumption
      · with_reducible assumption
    clear_value y9
    clear_value y10
    clear_value y11
    have k19 : Follows p s0 y12 := by
      subst y12
      refine Follows.ite ?_ ?_
      · refine State.bfSat_follows (hp.sub rfl) ?_
        with_reducible assumption
      · with_reducible assumption
    clear_value y12
    clear_value y13
    refine Follows.ite ?_ ?_
    · refine State.updSlot_follows (hp.sub rfl) ?_
      with_reducible assumption
    · refine State.updSlot_follows (hp.sub rfl) ?_
      with_reducible assumption

def State.agcMeasured_foot : Foot := ⟨0x800, 0x0⟩

theorem State.agcMeasured_follows {p s0} {a0} {a1} {a2} (hp : Foot.le State.agcMeasured_foot p) (h0 : Follows p s0 a0) :
    Follows p s0 (State.agcMeasured (a0) (a1) (a2)) := by
  unfold State.agcMeasured
  extract_lets y0 y1 y2 y3 y4
  clear_value y0
  clear_value y1
  have k5 : Follows p s0 y2 := by
    subst y2
    refine State.updSlot_follows (hp.sub rfl) ?_
    with_reducible assumption
  clear_value y2
  clear_value y3
  clear_value y4
  refine Follows.ite ?_ ?_
  · with_reducible assumption
  · refine State.updSlot_follows (hp.sub rfl) ?_
    with_reducible assumption

def State.txSamples_foot : Foot := ⟨0xa00, 0x200000000000000000000000000000000000000000000000000000000000000000000000000000000000000⟩

theorem State.txSamples_follows {p s0} {a0} {a1} (hp : Foot.le State.txSamples_foot p) (h0 : Follows p s0 a0) :
    Follows p s0 (State.txSamples (a0) (a1)) := by
  unfold State.txSamples
  extract_lets y0 y1 y2
  clear_value y0
  clear_value y1
  have k3 : Follows p s0 y2 := by
    subst y2
    refine Follows.foldl ?_ ?_
    · intro x4 x5 x6
      refine State.updSlot_follows (hp.sub rfl) ?_
      with_reducible assumption
    · with_reducible assumption
  clear_value y2
  refine Follows.forAll ?_ ?_
  · intro x7 x8 x9
    refine Follows.ite ?_ ?_
    · with_reducible assumption
    · extract_lets y10 y11
      clear_value y10
      have k12 : Follows p s0 y11 := by
        subst y11
        refine Follows.foldl ?_ ?_
        · intro x13 x14 x15
          refine State.updElem_follows (hp.sub rfl) ?_
          with_reducible assumption
        · with_reducible assumption
      clear_value y11
      refine State.add_follows 345 hp ?_
      with_reducible assumption
  · with_reducible assumption

def State.sweepBlock_foot : Foot := ⟨0x4041804, 0xe808800000000000000000000000000000000000000000000000000000000000a0000000000000000001a000000000000000000000000000001000000000000000000⟩

theorem State.sweepBlock_follows {p s0} {a0} {a1} {a2} {a3} (hp : Foot.le State.sweepBlock_foot p) (h0 : Follows p s0 a0) :
    Follows p s0 (State.sweepBlock (a0) (a1) (a2) (a3)) := by
  unfold State.sweepBlock
  split
  · refine Follows.ite ?_ ?_
    · refine State.sweepRecord_follows (hp.sub rfl) ?_
      with_reducible assumption
    · with_reducible assumption
  · with_reducible assumption

def State.observe_foot : Foot := ⟨0x1fffffff, 0x0⟩

theorem State.observe_follows {p s0} {a0} {a1} (hp : Foot.le State.observe_foot p) (h0 : Follows p s0 a0) :
    Follows p s0 (State.observe (a0) (a1)) := by
  unfold State.observe
  split
  · refine State.pdetRead_follows (hp.sub rfl) ?_
    with_reducible assumption
  · refine State.dcLoop_follows (hp.sub rfl) ?_
    with_reducible assumption
  · refine State.rxSamples_follows (hp.sub rfl) ?_
    with_reducible assumption
  · refine State.txSamples_follows (hp.sub rfl) ?_
    with_reducible assumption
  · refine State.sweepBlock_follows (hp.sub rfl) ?_
    with_reducible assumption
  · refine State.agcMeasured_follows (hp.sub rfl) ?_
    with_reducible assumption

def State.blockBoundary_foot : Foot := ⟨0x1fffffff, 0x0⟩

theorem State.blockBoundary_follows {p s0} {a0} {a1} (hp : Foot.le State.blockBoundary_foot p) (h0 : Follows p s0 a0) :
    Follows p s0 (State.blockBoundary (a0) (a1)) := by
  unfold State.blockBoundary
  refine Follows.ite ?_ ?_
  · with_reducible assumption
  · extract_lets y0 y1 y2 y3 y4 y5 y6
    clear_value y0
    have k7 : Follows p s0 y1 := by
      subst y1
      refine State.reach_follows (hp.sub rfl) ?_
      with_reducible assumption
    clear_value y1
    clear_value y2
    have k8 : Follows p s0 y3 := by
      subst y3
      refine Follows.update hp ?_ rfl rfl
      with_reducible assumption
    clear_value y3
    have k9 : Follows p s0 y4 := by
      subst y4
      refine Follows.foldl ?_ ?_
      · intro x10 x11 x12
        refine State.observe_follows (hp.sub rfl) ?_
        with_reducible assumption
      · with_reducible assumption
    clear_value y4
    have k13 : Follows p s0 y5 := by
      subst y5
      refine State.frontBoundary_follows (hp.sub rfl) ?_
      with_reducible assumption
    clear_value y5
    have k14 : Follows p s0 y6 := by
      subst y6
      refine Follows.forAll ?_ ?_
      · intro x15 x16 x17
        refine State.updSlot_follows (hp.sub rfl) ?_
        with_reducible assumption
      · with_reducible assumption
    clear_value y6
    refine Follows.forAll ?_ ?_
    · intro x18 x19 x20
      refine State.tailOver_follows (hp.sub rfl) ?_
      refine State.txFinish_follows (hp.sub rfl) ?_
      with_reducible assumption
    · with_reducible assumption

def State.loLock_foot : Foot := ⟨0x100, 0x600000000000000000000000000000000000000000000000000000000000000000000000000⟩

theorem State.loLock_follows {p s0} {a0} {a1} {a2} (hp : Foot.le State.loLock_foot p) (h0 : Follows p s0 a0) :
    Follows p s0 (State.loLock (a0) (a1) (a2)) := by
  unfold State.loLock
  refine Follows.ite ?_ ?_
  · with_reducible assumption
  · refine State.refreshLocks_follows (hp.sub rfl) ?_
    refine State.updTile_follows (hp.sub rfl) ?_
    with_reducible assumption

def State.loUnlock_foot : Foot := ⟨0x100, 0x600000000000000000000000000000000000000000000000000000001000000000000000000⟩

theorem State.loUnlock_follows {p s0} {a0} {a1} {a2} (hp : Foot.le State.loUnlock_foot p) (h0 : Follows p s0 a0) :
    Follows p s0 (State.loUnlock (a0) (a1) (a2)) := by
  unfold State.loUnlock
  extract_lets y0 y1
  clear_value y0
  have k2 : Follows p s0 y1 := by
    subst y1
    refine Follows.ite ?_ ?_
    · refine State.fire_follows (hp.sub rfl) ?_
      with_reducible assumption
    · with_reducible assumption
  clear_value y1
  refine State.refreshLocks_follows (hp.sub rfl) ?_
  refine State.updTile_follows (hp.sub rfl) ?_
  with_reducible assumption

def State.laneFail_foot : Foot := ⟨0x1fffffff, 0x0⟩

theorem State.laneFail_follows {p s0} {a0} {a1} {a2} {a3} (hp : Foot.le State.laneFail_foot p) (h0 : Follows p s0 a0) :
    Follows p s0 (State.laneFail (a0) (a1) (a2) (a3)) := by
  unfold State.laneFail
  refine Follows.ite ?_ ?_
  · with_reducible assumption
  · extract_lets y0 y1 y2 y3
    have k4 : Follows p s0 y1 := by
      subst y1
      refine State.updTile_follows (hp.sub rfl) ?_
      with_reducible assumption
    clear_value y1
    have k5 : Follows p s0 y2 := by
      subst y2
      refine State.set_follows 511 hp ?_
      refine State.bump_follows 512 hp ?_
      with_reducible assumption
    clear_value y2
    have k6 : Follows p s0 y3 := by
      subst y3
      refine Follows.ite ?_ ?_
      · refine State.set_follows 510 hp ?_
        with_reducible assumption
      · with_reducible assumption
    clear_value y3
    refine State.logHw_follows (hp.sub rfl) ?_
    refine State.pmc_follows (hp.sub rfl) ?_
    with_reducible assumption

def State.laneBack_foot : Foot := ⟨0x100, 0x40000000000000000000000000000000000000000000000000000000000000000000000000000000000000000000000000000000000000000000000000000000⟩

theorem State.laneBack_follows {p s0} {a0} {a1} {a2} {a3} (hp : Foot.le State.laneBack_foot p) (h0 : Follows p s0 a0) :
    Follows p s0 (State.laneBack (a0) (a1) (a2) (a3)) := by
  unfold State.laneBack
  extract_lets y0
  have k1 : Follows p s0 y0 := by
    subst y0
    refine State.updTile_follows (hp.sub rfl) ?_
    with_reducible assumption
  clear_value y0
  refine Follows.ite ?_ ?_
  · with_reducible assumption
  · refine State.set_follows 510 hp ?_
    with_reducible assumption

def execBlockBoundary_foot : Foot := ⟨0x1fffffff, 0x0⟩

theorem execBlockBoundary_follows {p s0} {a0} {a1} (hp : Foot.le execBlockBoundary_foot p) (h1 : Follows p s0 a1) :
    FollowsOut p s0 (execBlockBoundary (a0) (a1)) := by
  unfold execBlockBoundary
  refine FollowsOut.next ?_
  refine State.blockBoundary_follows (hp.sub rfl) ?_
  with_reducible assumption

def execRxOvl_foot : Foot := ⟨0x100, 0x10000000000000000000000000000000000000000000000000000000000001000000000000000000⟩

theorem execRxOvl_follows {p s0} {a0} {a1} (hp : Foot.le execRxOvl_foot p) (h1 : Follows p s0 a1) :
    FollowsOut p s0 (execRxOvl (a0) (a1)) := by
  unfold execRxOvl
  refine FollowsOut.next ?_
  refine State.rxOverload_follows (hp.sub rfl) ?_
  with_reducible assumption

def execAdcSaturation_foot : Foot := ⟨0x0, 0x2000000000000000000000000000000000000000000000000000000000000000000000000000000000000⟩

theorem execAdcSaturation_follows {p s0} {a0} {a1} (hp : Foot.le execAdcSaturation_foot p) (h1 : Follows p s0 a1) :
    FollowsOut p s0 (execAdcSaturation (a0) (a1)) := by
  unfold execAdcSaturation
  refine FollowsOut.next ?_
  refine State.adcSaturation_follows (hp.sub rfl) ?_
  with_reducible assumption

def execLoLock_foot : Foot := ⟨0x100, 0x600000000000000000000000000000000000000000000000000000000000000000000000000⟩

theorem execLoLock_follows {p s0} {a0} {a1} {a2} (hp : Foot.le execLoLock_foot p) (h2 : Follows p s0 a2) :
    FollowsOut p s0 (execLoLock (a0) (a1) (a2)) := by
  unfold execLoLock
  refine FollowsOut.next ?_
  refine State.loLock_follows (hp.sub rfl) ?_
  with_reducible assumption

def execLoUnlock_foot : Foot := ⟨0x100, 0x600000000000000000000000000000000000000000000000000000001000000000000000000⟩

theorem execLoUnlock_follows {p s0} {a0} {a1} {a2} (hp : Foot.le execLoUnlock_foot p) (h2 : Follows p s0 a2) :
    FollowsOut p s0 (execLoUnlock (a0) (a1) (a2)) := by
  unfold execLoUnlock
  refine FollowsOut.next ?_
  refine State.loUnlock_follows (hp.sub rfl) ?_
  with_reducible assumption

def execLaneFail_foot : Foot := ⟨0x1fffffff, 0x0⟩

theorem execLaneFail_follows {p s0} {a0} {a1} {a2} {a3} (hp : Foot.le execLaneFail_foot p) (h3 : Follows p s0 a3) :
    FollowsOut p s0 (execLaneFail (a0) (a1) (a2) (a3)) := by
  unfold execLaneFail
  refine FollowsOut.next ?_
  refine State.laneFail_follows (hp.sub rfl) ?_
  with_reducible assumption

end Sys2Proof.Machine
end

