-- ==== Sys2Proof/Laws/FootEngine.lean ====
section
/-! SUPPORT. Laws/FootEngine.lean: one footprint and one lemma for each operation of
the engines' words (Laws/Follows.lean). -/

set_option Elab.async false

namespace Sys2Proof.Machine

open Sys2Proof

set_option maxRecDepth 20000

/-! ### Machine/Half.lean -/

/-! ### Machine/EngineAlu.lean -/

def State.engAlu_foot : Foot := ⟨0x1fffffff, 0x0⟩

theorem State.engAlu_follows {p s0} {a0} {a1} {a2} {a3} {a4} {a5} {a6} (hp : Foot.le State.engAlu_foot p) (h0 : Follows p s0 a0) :
    Follows p s0 (State.engAlu (a0) (a1) (a2) (a3) (a4) (a5) (a6)) := by
  unfold State.engAlu
  refine State.engIssue_follows (hp.sub rfl) ?_ ?_
  · with_reducible assumption
  · intro x0 x1
    refine Follows.id ?_
    with_reducible assumption

def State.engCrc_foot : Foot := ⟨0x1fffffff, 0x0⟩

theorem State.engCrc_follows {p s0} {a0} {a1} {a2} {a3} {a4} {a5} {a6} (hp : Foot.le State.engCrc_foot p) (h0 : Follows p s0 a0) :
    Follows p s0 (State.engCrc (a0) (a1) (a2) (a3) (a4) (a5) (a6)) := by
  unfold State.engCrc
  refine State.engIssue_follows (hp.sub rfl) ?_ ?_
  · with_reducible assumption
  · intro x0 x1
    refine Follows.id ?_
    with_reducible assumption

def State.engImm_foot : Foot := ⟨0x1fffffff, 0x0⟩

theorem State.engImm_follows {p s0} {a0} {a1} {a2} {a3} {a4} {a5} {a6} (hp : Foot.le State.engImm_foot p) (h0 : Follows p s0 a0) :
    Follows p s0 (State.engImm (a0) (a1) (a2) (a3) (a4) (a5) (a6)) := by
  unfold State.engImm
  refine State.engIssue_follows (hp.sub rfl) ?_ ?_
  · with_reducible assumption
  · intro x0 x1
    refine Follows.id ?_
    with_reducible assumption

def State.engShiftImm_foot : Foot := ⟨0x1fffffff, 0x0⟩

theorem State.engShiftImm_follows {p s0} {a0} {a1} {a2} {a3} {a4} {a5} (hp : Foot.le State.engShiftImm_foot p) (h0 : Follows p s0 a0) :
    Follows p s0 (State.engShiftImm (a0) (a1) (a2) (a3) (a4) (a5)) := by
  unfold State.engShiftImm
  refine State.engIssue_follows (hp.sub rfl) ?_ ?_
  · with_reducible assumption
  · intro x0 x1
    refine Follows.id ?_
    with_reducible assumption

def State.engLui_foot : Foot := ⟨0x1fffffff, 0x0⟩

theorem State.engLui_follows {p s0} {a0} {a1} {a2} {a3} {a4} (hp : Foot.le State.engLui_foot p) (h0 : Follows p s0 a0) :
    Follows p s0 (State.engLui (a0) (a1) (a2) (a3) (a4)) := by
  unfold State.engLui
  refine State.engIssue_follows (hp.sub rfl) ?_ ?_
  · with_reducible assumption
  · intro x0 x1
    refine Follows.id ?_
    with_reducible assumption

def State.engShort_foot : Foot := ⟨0x1fffffff, 0x0⟩

theorem State.engShort_follows {p s0} {a0} {a1} {a2} {a3} {a4} {a5} {a6} {a7} {a8} {a9} (hp : Foot.le State.engShort_foot p) (h0 : Follows p s0 a0) :
    Follows p s0 (State.engShort (a0) (a1) (a2) (a3) (a4) (a5) (a6) (a7) (a8) (a9)) := by
  unfold State.engShort
  extract_lets y0 y1
  clear_value y0
  clear_value y1
  refine State.engIssue_follows (hp.sub rfl) ?_ ?_
  · with_reducible assumption
  · intro x2 x3
    refine Follows.id ?_
    with_reducible assumption

def execAdd_foot : Foot := ⟨0x1fffffff, 0x0⟩

theorem execAdd_follows {p s0} {a0} {a1} {a2} {a3} {a4} {a5} (hp : Foot.le execAdd_foot p) (h5 : Follows p s0 a5) :
    FollowsOut p s0 (execAdd (a0) (a1) (a2) (a3) (a4) (a5)) := by
  unfold execAdd
  refine FollowsOut.next ?_
  refine State.engAlu_follows (hp.sub rfl) ?_
  with_reducible assumption

def execSub_foot : Foot := ⟨0x1fffffff, 0x0⟩

theorem execSub_follows {p s0} {a0} {a1} {a2} {a3} {a4} {a5} (hp : Foot.le execSub_foot p) (h5 : Follows p s0 a5) :
    FollowsOut p s0 (execSub (a0) (a1) (a2) (a3) (a4) (a5)) := by
  unfold execSub
  refine FollowsOut.next ?_
  refine State.engAlu_follows (hp.sub rfl) ?_
  with_reducible assumption

def execAnd_foot : Foot := ⟨0x1fffffff, 0x0⟩

theorem execAnd_follows {p s0} {a0} {a1} {a2} {a3} {a4} {a5} (hp : Foot.le execAnd_foot p) (h5 : Follows p s0 a5) :
    FollowsOut p s0 (execAnd (a0) (a1) (a2) (a3) (a4) (a5)) := by
  unfold execAnd
  refine FollowsOut.next ?_
  refine State.engAlu_follows (hp.sub rfl) ?_
  with_reducible assumption

def execOr_foot : Foot := ⟨0x1fffffff, 0x0⟩

theorem execOr_follows {p s0} {a0} {a1} {a2} {a3} {a4} {a5} (hp : Foot.le execOr_foot p) (h5 : Follows p s0 a5) :
    FollowsOut p s0 (execOr (a0) (a1) (a2) (a3) (a4) (a5)) := by
  unfold execOr
  refine FollowsOut.next ?_
  refine State.engAlu_follows (hp.sub rfl) ?_
  with_reducible assumption

def execXor_foot : Foot := ⟨0x1fffffff, 0x0⟩

theorem execXor_follows {p s0} {a0} {a1} {a2} {a3} {a4} {a5} (hp : Foot.le execXor_foot p) (h5 : Follows p s0 a5) :
    FollowsOut p s0 (execXor (a0) (a1) (a2) (a3) (a4) (a5)) := by
  unfold execXor
  refine FollowsOut.next ?_
  refine State.engAlu_follows (hp.sub rfl) ?_
  with_reducible assumption

def execShl_foot : Foot := ⟨0x1fffffff, 0x0⟩

theorem execShl_follows {p s0} {a0} {a1} {a2} {a3} {a4} {a5} (hp : Foot.le execShl_foot p) (h5 : Follows p s0 a5) :
    FollowsOut p s0 (execShl (a0) (a1) (a2) (a3) (a4) (a5)) := by
  unfold execShl
  refine FollowsOut.next ?_
  refine State.engAlu_follows (hp.sub rfl) ?_
  with_reducible assumption

def execShr_foot : Foot := ⟨0x1fffffff, 0x0⟩

theorem execShr_follows {p s0} {a0} {a1} {a2} {a3} {a4} {a5} (hp : Foot.le execShr_foot p) (h5 : Follows p s0 a5) :
    FollowsOut p s0 (execShr (a0) (a1) (a2) (a3) (a4) (a5)) := by
  unfold execShr
  refine FollowsOut.next ?_
  refine State.engAlu_follows (hp.sub rfl) ?_
  with_reducible assumption

def execSra_foot : Foot := ⟨0x1fffffff, 0x0⟩

theorem execSra_follows {p s0} {a0} {a1} {a2} {a3} {a4} {a5} (hp : Foot.le execSra_foot p) (h5 : Follows p s0 a5) :
    FollowsOut p s0 (execSra (a0) (a1) (a2) (a3) (a4) (a5)) := by
  unfold execSra
  refine FollowsOut.next ?_
  refine State.engAlu_follows (hp.sub rfl) ?_
  with_reducible assumption

def execRor_foot : Foot := ⟨0x1fffffff, 0x0⟩

theorem execRor_follows {p s0} {a0} {a1} {a2} {a3} {a4} {a5} (hp : Foot.le execRor_foot p) (h5 : Follows p s0 a5) :
    FollowsOut p s0 (execRor (a0) (a1) (a2) (a3) (a4) (a5)) := by
  unfold execRor
  refine FollowsOut.next ?_
  refine State.engAlu_follows (hp.sub rfl) ?_
  with_reducible assumption

def execMul_foot : Foot := ⟨0x1fffffff, 0x0⟩

theorem execMul_follows {p s0} {a0} {a1} {a2} {a3} {a4} {a5} (hp : Foot.le execMul_foot p) (h5 : Follows p s0 a5) :
    FollowsOut p s0 (execMul (a0) (a1) (a2) (a3) (a4) (a5)) := by
  unfold execMul
  refine FollowsOut.next ?_
  refine State.engAlu_follows (hp.sub rfl) ?_
  with_reducible assumption

def execMulhu_foot : Foot := ⟨0x1fffffff, 0x0⟩

theorem execMulhu_follows {p s0} {a0} {a1} {a2} {a3} {a4} {a5} (hp : Foot.le execMulhu_foot p) (h5 : Follows p s0 a5) :
    FollowsOut p s0 (execMulhu (a0) (a1) (a2) (a3) (a4) (a5)) := by
  unfold execMulhu
  refine FollowsOut.next ?_
  refine State.engAlu_follows (hp.sub rfl) ?_
  with_reducible assumption

def execMulhs_foot : Foot := ⟨0x1fffffff, 0x0⟩

theorem execMulhs_follows {p s0} {a0} {a1} {a2} {a3} {a4} {a5} (hp : Foot.le execMulhs_foot p) (h5 : Follows p s0 a5) :
    FollowsOut p s0 (execMulhs (a0) (a1) (a2) (a3) (a4) (a5)) := by
  unfold execMulhs
  refine FollowsOut.next ?_
  refine State.engAlu_follows (hp.sub rfl) ?_
  with_reducible assumption

def execSlt_foot : Foot := ⟨0x1fffffff, 0x0⟩

theorem execSlt_follows {p s0} {a0} {a1} {a2} {a3} {a4} {a5} (hp : Foot.le execSlt_foot p) (h5 : Follows p s0 a5) :
    FollowsOut p s0 (execSlt (a0) (a1) (a2) (a3) (a4) (a5)) := by
  unfold execSlt
  refine FollowsOut.next ?_
  refine State.engAlu_follows (hp.sub rfl) ?_
  with_reducible assumption

def execSltu_foot : Foot := ⟨0x1fffffff, 0x0⟩

theorem execSltu_follows {p s0} {a0} {a1} {a2} {a3} {a4} {a5} (hp : Foot.le execSltu_foot p) (h5 : Follows p s0 a5) :
    FollowsOut p s0 (execSltu (a0) (a1) (a2) (a3) (a4) (a5)) := by
  unfold execSltu
  refine FollowsOut.next ?_
  refine State.engAlu_follows (hp.sub rfl) ?_
  with_reducible assumption

def execMin_foot : Foot := ⟨0x1fffffff, 0x0⟩

theorem execMin_follows {p s0} {a0} {a1} {a2} {a3} {a4} {a5} (hp : Foot.le execMin_foot p) (h5 : Follows p s0 a5) :
    FollowsOut p s0 (execMin (a0) (a1) (a2) (a3) (a4) (a5)) := by
  unfold execMin
  refine FollowsOut.next ?_
  refine State.engAlu_follows (hp.sub rfl) ?_
  with_reducible assumption

def execMax_foot : Foot := ⟨0x1fffffff, 0x0⟩

theorem execMax_follows {p s0} {a0} {a1} {a2} {a3} {a4} {a5} (hp : Foot.le execMax_foot p) (h5 : Follows p s0 a5) :
    FollowsOut p s0 (execMax (a0) (a1) (a2) (a3) (a4) (a5)) := by
  unfold execMax
  refine FollowsOut.next ?_
  refine State.engAlu_follows (hp.sub rfl) ?_
  with_reducible assumption

def execPar_foot : Foot := ⟨0x1fffffff, 0x0⟩

theorem execPar_follows {p s0} {a0} {a1} {a2} {a3} {a4} {a5} (hp : Foot.le execPar_foot p) (h5 : Follows p s0 a5) :
    FollowsOut p s0 (execPar (a0) (a1) (a2) (a3) (a4) (a5)) := by
  unfold execPar
  refine FollowsOut.next ?_
  refine State.engAlu_follows (hp.sub rfl) ?_
  with_reducible assumption

def execParb_foot : Foot := ⟨0x1fffffff, 0x0⟩

theorem execParb_follows {p s0} {a0} {a1} {a2} {a3} {a4} {a5} (hp : Foot.le execParb_foot p) (h5 : Follows p s0 a5) :
    FollowsOut p s0 (execParb (a0) (a1) (a2) (a3) (a4) (a5)) := by
  unfold execParb
  refine FollowsOut.next ?_
  refine State.engAlu_follows (hp.sub rfl) ?_
  with_reducible assumption

def execBrev_foot : Foot := ⟨0x1fffffff, 0x0⟩

theorem execBrev_follows {p s0} {a0} {a1} {a2} {a3} {a4} {a5} (hp : Foot.le execBrev_foot p) (h5 : Follows p s0 a5) :
    FollowsOut p s0 (execBrev (a0) (a1) (a2) (a3) (a4) (a5)) := by
  unfold execBrev
  refine FollowsOut.next ?_
  refine State.engAlu_follows (hp.sub rfl) ?_
  with_reducible assumption

def execBrevb_foot : Foot := ⟨0x1fffffff, 0x0⟩

theorem execBrevb_follows {p s0} {a0} {a1} {a2} {a3} {a4} {a5} (hp : Foot.le execBrevb_foot p) (h5 : Follows p s0 a5) :
    FollowsOut p s0 (execBrevb (a0) (a1) (a2) (a3) (a4) (a5)) := by
  unfold execBrevb
  refine FollowsOut.next ?_
  refine State.engAlu_follows (hp.sub rfl) ?_
  with_reducible assumption

def execBswap_foot : Foot := ⟨0x1fffffff, 0x0⟩

theorem execBswap_follows {p s0} {a0} {a1} {a2} {a3} {a4} {a5} (hp : Foot.le execBswap_foot p) (h5 : Follows p s0 a5) :
    FollowsOut p s0 (execBswap (a0) (a1) (a2) (a3) (a4) (a5)) := by
  unfold execBswap
  refine FollowsOut.next ?_
  refine State.engAlu_follows (hp.sub rfl) ?_
  with_reducible assumption

def execClz_foot : Foot := ⟨0x1fffffff, 0x0⟩

theorem execClz_follows {p s0} {a0} {a1} {a2} {a3} {a4} {a5} (hp : Foot.le execClz_foot p) (h5 : Follows p s0 a5) :
    FollowsOut p s0 (execClz (a0) (a1) (a2) (a3) (a4) (a5)) := by
  unfold execClz
  refine FollowsOut.next ?_
  refine State.engAlu_follows (hp.sub rfl) ?_
  with_reducible assumption

def execPopc_foot : Foot := ⟨0x1fffffff, 0x0⟩

theorem execPopc_follows {p s0} {a0} {a1} {a2} {a3} {a4} {a5} (hp : Foot.le execPopc_foot p) (h5 : Follows p s0 a5) :
    FollowsOut p s0 (execPopc (a0) (a1) (a2) (a3) (a4) (a5)) := by
  unfold execPopc
  refine FollowsOut.next ?_
  refine State.engAlu_follows (hp.sub rfl) ?_
  with_reducible assumption

def execCrcB_foot : Foot := ⟨0x1fffffff, 0x0⟩

theorem execCrcB_follows {p s0} {a0} {a1} {a2} {a3} {a4} {a5} (hp : Foot.le execCrcB_foot p) (h5 : Follows p s0 a5) :
    FollowsOut p s0 (execCrcB (a0) (a1) (a2) (a3) (a4) (a5)) := by
  unfold execCrcB
  refine FollowsOut.next ?_
  refine State.engCrc_follows (hp.sub rfl) ?_
  with_reducible assumption

def execCrcH_foot : Foot := ⟨0x1fffffff, 0x0⟩

theorem execCrcH_follows {p s0} {a0} {a1} {a2} {a3} {a4} {a5} (hp : Foot.le execCrcH_foot p) (h5 : Follows p s0 a5) :
    FollowsOut p s0 (execCrcH (a0) (a1) (a2) (a3) (a4) (a5)) := by
  unfold execCrcH
  refine FollowsOut.next ?_
  refine State.engCrc_follows (hp.sub rfl) ?_
  with_reducible assumption

def execCrcW_foot : Foot := ⟨0x1fffffff, 0x0⟩

theorem execCrcW_follows {p s0} {a0} {a1} {a2} {a3} {a4} {a5} (hp : Foot.le execCrcW_foot p) (h5 : Follows p s0 a5) :
    FollowsOut p s0 (execCrcW (a0) (a1) (a2) (a3) (a4) (a5)) := by
  unfold execCrcW
  refine FollowsOut.next ?_
  refine State.engCrc_follows (hp.sub rfl) ?_
  with_reducible assumption

def execAddi_foot : Foot := ⟨0x1fffffff, 0x0⟩

theorem execAddi_follows {p s0} {a0} {a1} {a2} {a3} {a4} (hp : Foot.le execAddi_foot p) (h4 : Follows p s0 a4) :
    FollowsOut p s0 (execAddi (a0) (a1) (a2) (a3) (a4)) := by
  unfold execAddi
  refine FollowsOut.next ?_
  refine State.engImm_follows (hp.sub rfl) ?_
  with_reducible assumption

def execSlti_foot : Foot := ⟨0x1fffffff, 0x0⟩

theorem execSlti_follows {p s0} {a0} {a1} {a2} {a3} {a4} (hp : Foot.le execSlti_foot p) (h4 : Follows p s0 a4) :
    FollowsOut p s0 (execSlti (a0) (a1) (a2) (a3) (a4)) := by
  unfold execSlti
  refine FollowsOut.next ?_
  refine State.engImm_follows (hp.sub rfl) ?_
  with_reducible assumption

def execAndi_foot : Foot := ⟨0x1fffffff, 0x0⟩

theorem execAndi_follows {p s0} {a0} {a1} {a2} {a3} {a4} (hp : Foot.le execAndi_foot p) (h4 : Follows p s0 a4) :
    FollowsOut p s0 (execAndi (a0) (a1) (a2) (a3) (a4)) := by
  unfold execAndi
  refine FollowsOut.next ?_
  refine State.engImm_follows (hp.sub rfl) ?_
  with_reducible assumption

def execOri_foot : Foot := ⟨0x1fffffff, 0x0⟩

theorem execOri_follows {p s0} {a0} {a1} {a2} {a3} {a4} (hp : Foot.le execOri_foot p) (h4 : Follows p s0 a4) :
    FollowsOut p s0 (execOri (a0) (a1) (a2) (a3) (a4)) := by
  unfold execOri
  refine FollowsOut.next ?_
  refine State.engImm_follows (hp.sub rfl) ?_
  with_reducible assumption

def execXori_foot : Foot := ⟨0x1fffffff, 0x0⟩

theorem execXori_follows {p s0} {a0} {a1} {a2} {a3} {a4} (hp : Foot.le execXori_foot p) (h4 : Follows p s0 a4) :
    FollowsOut p s0 (execXori (a0) (a1) (a2) (a3) (a4)) := by
  unfold execXori
  refine FollowsOut.next ?_
  refine State.engImm_follows (hp.sub rfl) ?_
  with_reducible assumption

def execShli_foot : Foot := ⟨0x1fffffff, 0x0⟩

theorem execShli_follows {p s0} {a0} {a1} {a2} {a3} {a4} (hp : Foot.le execShli_foot p) (h4 : Follows p s0 a4) :
    FollowsOut p s0 (execShli (a0) (a1) (a2) (a3) (a4)) := by
  unfold execShli
  refine FollowsOut.next ?_
  refine State.engShiftImm_follows (hp.sub rfl) ?_
  with_reducible assumption

def execShri_foot : Foot := ⟨0x1fffffff, 0x0⟩

theorem execShri_follows {p s0} {a0} {a1} {a2} {a3} {a4} (hp : Foot.le execShri_foot p) (h4 : Follows p s0 a4) :
    FollowsOut p s0 (execShri (a0) (a1) (a2) (a3) (a4)) := by
  unfold execShri
  refine FollowsOut.next ?_
  refine State.engShiftImm_follows (hp.sub rfl) ?_
  with_reducible assumption

def execSrai_foot : Foot := ⟨0x1fffffff, 0x0⟩

theorem execSrai_follows {p s0} {a0} {a1} {a2} {a3} {a4} (hp : Foot.le execSrai_foot p) (h4 : Follows p s0 a4) :
    FollowsOut p s0 (execSrai (a0) (a1) (a2) (a3) (a4)) := by
  unfold execSrai
  refine FollowsOut.next ?_
  refine State.engShiftImm_follows (hp.sub rfl) ?_
  with_reducible assumption

def execLui_foot : Foot := ⟨0x1fffffff, 0x0⟩

theorem execLui_follows {p s0} {a0} {a1} {a2} {a3} {a4} (hp : Foot.le execLui_foot p) (h4 : Follows p s0 a4) :
    FollowsOut p s0 (execLui (a0) (a1) (a2) (a3) (a4)) := by
  unfold execLui
  refine FollowsOut.next ?_
  refine State.engLui_follows (hp.sub rfl) ?_
  with_reducible assumption

def execNop_foot : Foot := ⟨0x1fffffff, 0x0⟩

theorem execNop_follows {p s0} {a0} {a1} {a2} {a3} {a4} {a5} {a6} (hp : Foot.le execNop_foot p) (h6 : Follows p s0 a6) :
    FollowsOut p s0 (execNop (a0) (a1) (a2) (a3) (a4) (a5) (a6)) := by
  unfold execNop
  refine FollowsOut.next ?_
  refine State.engShort_follows (hp.sub rfl) ?_
  with_reducible assumption

def execSMov_foot : Foot := ⟨0x1fffffff, 0x0⟩

theorem execSMov_follows {p s0} {a0} {a1} {a2} {a3} {a4} {a5} {a6} (hp : Foot.le execSMov_foot p) (h6 : Follows p s0 a6) :
    FollowsOut p s0 (execSMov (a0) (a1) (a2) (a3) (a4) (a5) (a6)) := by
  unfold execSMov
  refine FollowsOut.next ?_
  refine State.engShort_follows (hp.sub rfl) ?_
  with_reducible assumption

def execSMovImmZx_foot : Foot := ⟨0x1fffffff, 0x0⟩

theorem execSMovImmZx_follows {p s0} {a0} {a1} {a2} {a3} {a4} {a5} {a6} (hp : Foot.le execSMovImmZx_foot p) (h6 : Follows p s0 a6) :
    FollowsOut p s0 (execSMovImmZx (a0) (a1) (a2) (a3) (a4) (a5) (a6)) := by
  unfold execSMovImmZx
  refine FollowsOut.next ?_
  refine State.engShort_follows (hp.sub rfl) ?_
  with_reducible assumption

def execSMovImmSx_foot : Foot := ⟨0x1fffffff, 0x0⟩

theorem execSMovImmSx_follows {p s0} {a0} {a1} {a2} {a3} {a4} {a5} {a6} (hp : Foot.le execSMovImmSx_foot p) (h6 : Follows p s0 a6) :
    FollowsOut p s0 (execSMovImmSx (a0) (a1) (a2) (a3) (a4) (a5) (a6)) := by
  unfold execSMovImmSx
  refine FollowsOut.next ?_
  refine State.engShort_follows (hp.sub rfl) ?_
  with_reducible assumption

def execSAdd_foot : Foot := ⟨0x1fffffff, 0x0⟩

theorem execSAdd_follows {p s0} {a0} {a1} {a2} {a3} {a4} {a5} {a6} (hp : Foot.le execSAdd_foot p) (h6 : Follows p s0 a6) :
    FollowsOut p s0 (execSAdd (a0) (a1) (a2) (a3) (a4) (a5) (a6)) := by
  unfold execSAdd
  refine FollowsOut.next ?_
  refine State.engShort_follows (hp.sub rfl) ?_
  with_reducible assumption

def execSSub_foot : Foot := ⟨0x1fffffff, 0x0⟩

theorem execSSub_follows {p s0} {a0} {a1} {a2} {a3} {a4} {a5} {a6} (hp : Foot.le execSSub_foot p) (h6 : Follows p s0 a6) :
    FollowsOut p s0 (execSSub (a0) (a1) (a2) (a3) (a4) (a5) (a6)) := by
  unfold execSSub
  refine FollowsOut.next ?_
  refine State.engShort_follows (hp.sub rfl) ?_
  with_reducible assumption

def execSAnd_foot : Foot := ⟨0x1fffffff, 0x0⟩

theorem execSAnd_follows {p s0} {a0} {a1} {a2} {a3} {a4} {a5} {a6} (hp : Foot.le execSAnd_foot p) (h6 : Follows p s0 a6) :
    FollowsOut p s0 (execSAnd (a0) (a1) (a2) (a3) (a4) (a5) (a6)) := by
  unfold execSAnd
  refine FollowsOut.next ?_
  refine State.engShort_follows (hp.sub rfl) ?_
  with_reducible assumption

def execSOr_foot : Foot := ⟨0x1fffffff, 0x0⟩

theorem execSOr_follows {p s0} {a0} {a1} {a2} {a3} {a4} {a5} {a6} (hp : Foot.le execSOr_foot p) (h6 : Follows p s0 a6) :
    FollowsOut p s0 (execSOr (a0) (a1) (a2) (a3) (a4) (a5) (a6)) := by
  unfold execSOr
  refine FollowsOut.next ?_
  refine State.engShort_follows (hp.sub rfl) ?_
  with_reducible assumption

def execSXor_foot : Foot := ⟨0x1fffffff, 0x0⟩

theorem execSXor_follows {p s0} {a0} {a1} {a2} {a3} {a4} {a5} {a6} (hp : Foot.le execSXor_foot p) (h6 : Follows p s0 a6) :
    FollowsOut p s0 (execSXor (a0) (a1) (a2) (a3) (a4) (a5) (a6)) := by
  unfold execSXor
  refine FollowsOut.next ?_
  refine State.engShort_follows (hp.sub rfl) ?_
  with_reducible assumption

def execSShl_foot : Foot := ⟨0x1fffffff, 0x0⟩

theorem execSShl_follows {p s0} {a0} {a1} {a2} {a3} {a4} {a5} {a6} (hp : Foot.le execSShl_foot p) (h6 : Follows p s0 a6) :
    FollowsOut p s0 (execSShl (a0) (a1) (a2) (a3) (a4) (a5) (a6)) := by
  unfold execSShl
  refine FollowsOut.next ?_
  refine State.engShort_follows (hp.sub rfl) ?_
  with_reducible assumption

def execSShr_foot : Foot := ⟨0x1fffffff, 0x0⟩

theorem execSShr_follows {p s0} {a0} {a1} {a2} {a3} {a4} {a5} {a6} (hp : Foot.le execSShr_foot p) (h6 : Follows p s0 a6) :
    FollowsOut p s0 (execSShr (a0) (a1) (a2) (a3) (a4) (a5) (a6)) := by
  unfold execSShr
  refine FollowsOut.next ?_
  refine State.engShort_follows (hp.sub rfl) ?_
  with_reducible assumption

def execSSra_foot : Foot := ⟨0x1fffffff, 0x0⟩

theorem execSSra_follows {p s0} {a0} {a1} {a2} {a3} {a4} {a5} {a6} (hp : Foot.le execSSra_foot p) (h6 : Follows p s0 a6) :
    FollowsOut p s0 (execSSra (a0) (a1) (a2) (a3) (a4) (a5) (a6)) := by
  unfold execSSra
  refine FollowsOut.next ?_
  refine State.engShort_follows (hp.sub rfl) ?_
  with_reducible assumption

def execSAddImm4_foot : Foot := ⟨0x1fffffff, 0x0⟩

theorem execSAddImm4_follows {p s0} {a0} {a1} {a2} {a3} {a4} {a5} {a6} (hp : Foot.le execSAddImm4_foot p) (h6 : Follows p s0 a6) :
    FollowsOut p s0 (execSAddImm4 (a0) (a1) (a2) (a3) (a4) (a5) (a6)) := by
  unfold execSAddImm4
  refine FollowsOut.next ?_
  refine State.engShort_follows (hp.sub rfl) ?_
  with_reducible assumption

def execSSubImm4_foot : Foot := ⟨0x1fffffff, 0x0⟩

theorem execSSubImm4_follows {p s0} {a0} {a1} {a2} {a3} {a4} {a5} {a6} (hp : Foot.le execSSubImm4_foot p) (h6 : Follows p s0 a6) :
    FollowsOut p s0 (execSSubImm4 (a0) (a1) (a2) (a3) (a4) (a5) (a6)) := by
  unfold execSSubImm4
  refine FollowsOut.next ?_
  refine State.engShort_follows (hp.sub rfl) ?_
  with_reducible assumption

def execSShlImm4_foot : Foot := ⟨0x1fffffff, 0x0⟩

theorem execSShlImm4_follows {p s0} {a0} {a1} {a2} {a3} {a4} {a5} {a6} (hp : Foot.le execSShlImm4_foot p) (h6 : Follows p s0 a6) :
    FollowsOut p s0 (execSShlImm4 (a0) (a1) (a2) (a3) (a4) (a5) (a6)) := by
  unfold execSShlImm4
  refine FollowsOut.next ?_
  refine State.engShort_follows (hp.sub rfl) ?_
  with_reducible assumption

def execSShrImm4_foot : Foot := ⟨0x1fffffff, 0x0⟩

theorem execSShrImm4_follows {p s0} {a0} {a1} {a2} {a3} {a4} {a5} {a6} (hp : Foot.le execSShrImm4_foot p) (h6 : Follows p s0 a6) :
    FollowsOut p s0 (execSShrImm4 (a0) (a1) (a2) (a3) (a4) (a5) (a6)) := by
  unfold execSShrImm4
  refine FollowsOut.next ?_
  refine State.engShort_follows (hp.sub rfl) ?_
  with_reducible assumption

def execSSeq_foot : Foot := ⟨0x1fffffff, 0x0⟩

theorem execSSeq_follows {p s0} {a0} {a1} {a2} {a3} {a4} {a5} {a6} (hp : Foot.le execSSeq_foot p) (h6 : Follows p s0 a6) :
    FollowsOut p s0 (execSSeq (a0) (a1) (a2) (a3) (a4) (a5) (a6)) := by
  unfold execSSeq
  refine FollowsOut.next ?_
  refine State.engShort_follows (hp.sub rfl) ?_
  with_reducible assumption

def execSSne_foot : Foot := ⟨0x1fffffff, 0x0⟩

theorem execSSne_follows {p s0} {a0} {a1} {a2} {a3} {a4} {a5} {a6} (hp : Foot.le execSSne_foot p) (h6 : Follows p s0 a6) :
    FollowsOut p s0 (execSSne (a0) (a1) (a2) (a3) (a4) (a5) (a6)) := by
  unfold execSSne
  refine FollowsOut.next ?_
  refine State.engShort_follows (hp.sub rfl) ?_
  with_reducible assumption

def execSSlt_foot : Foot := ⟨0x1fffffff, 0x0⟩

theorem execSSlt_follows {p s0} {a0} {a1} {a2} {a3} {a4} {a5} {a6} (hp : Foot.le execSSlt_foot p) (h6 : Follows p s0 a6) :
    FollowsOut p s0 (execSSlt (a0) (a1) (a2) (a3) (a4) (a5) (a6)) := by
  unfold execSSlt
  refine FollowsOut.next ?_
  refine State.engShort_follows (hp.sub rfl) ?_
  with_reducible assumption

def execSSltu_foot : Foot := ⟨0x1fffffff, 0x0⟩

theorem execSSltu_follows {p s0} {a0} {a1} {a2} {a3} {a4} {a5} {a6} (hp : Foot.le execSSltu_foot p) (h6 : Follows p s0 a6) :
    FollowsOut p s0 (execSSltu (a0) (a1) (a2) (a3) (a4) (a5) (a6)) := by
  unfold execSSltu
  refine FollowsOut.next ?_
  refine State.engShort_follows (hp.sub rfl) ?_
  with_reducible assumption

def execSMul_foot : Foot := ⟨0x1fffffff, 0x0⟩

theorem execSMul_follows {p s0} {a0} {a1} {a2} {a3} {a4} {a5} {a6} (hp : Foot.le execSMul_foot p) (h6 : Follows p s0 a6) :
    FollowsOut p s0 (execSMul (a0) (a1) (a2) (a3) (a4) (a5) (a6)) := by
  unfold execSMul
  refine FollowsOut.next ?_
  refine State.engShort_follows (hp.sub rfl) ?_
  with_reducible assumption

def execSPar_foot : Foot := ⟨0x1fffffff, 0x0⟩

theorem execSPar_follows {p s0} {a0} {a1} {a2} {a3} {a4} {a5} {a6} (hp : Foot.le execSPar_foot p) (h6 : Follows p s0 a6) :
    FollowsOut p s0 (execSPar (a0) (a1) (a2) (a3) (a4) (a5) (a6)) := by
  unfold execSPar
  refine FollowsOut.next ?_
  refine State.engShort_follows (hp.sub rfl) ?_
  with_reducible assumption

def execSParb_foot : Foot := ⟨0x1fffffff, 0x0⟩

theorem execSParb_follows {p s0} {a0} {a1} {a2} {a3} {a4} {a5} {a6} (hp : Foot.le execSParb_foot p) (h6 : Follows p s0 a6) :
    FollowsOut p s0 (execSParb (a0) (a1) (a2) (a3) (a4) (a5) (a6)) := by
  unfold execSParb
  refine FollowsOut.next ?_
  refine State.engShort_follows (hp.sub rfl) ?_
  with_reducible assumption

def execSBrev_foot : Foot := ⟨0x1fffffff, 0x0⟩

theorem execSBrev_follows {p s0} {a0} {a1} {a2} {a3} {a4} {a5} {a6} (hp : Foot.le execSBrev_foot p) (h6 : Follows p s0 a6) :
    FollowsOut p s0 (execSBrev (a0) (a1) (a2) (a3) (a4) (a5) (a6)) := by
  unfold execSBrev
  refine FollowsOut.next ?_
  refine State.engShort_follows (hp.sub rfl) ?_
  with_reducible assumption

def execSBswap_foot : Foot := ⟨0x1fffffff, 0x0⟩

theorem execSBswap_follows {p s0} {a0} {a1} {a2} {a3} {a4} {a5} {a6} (hp : Foot.le execSBswap_foot p) (h6 : Follows p s0 a6) :
    FollowsOut p s0 (execSBswap (a0) (a1) (a2) (a3) (a4) (a5) (a6)) := by
  unfold execSBswap
  refine FollowsOut.next ?_
  refine State.engShort_follows (hp.sub rfl) ?_
  with_reducible assumption

def execSCrcB_foot : Foot := ⟨0x1fffffff, 0x0⟩

theorem execSCrcB_follows {p s0} {a0} {a1} {a2} {a3} {a4} {a5} {a6} (hp : Foot.le execSCrcB_foot p) (h6 : Follows p s0 a6) :
    FollowsOut p s0 (execSCrcB (a0) (a1) (a2) (a3) (a4) (a5) (a6)) := by
  unfold execSCrcB
  refine FollowsOut.next ?_
  refine State.engShort_follows (hp.sub rfl) ?_
  with_reducible assumption

def execSCrcH_foot : Foot := ⟨0x1fffffff, 0x0⟩

theorem execSCrcH_follows {p s0} {a0} {a1} {a2} {a3} {a4} {a5} {a6} (hp : Foot.le execSCrcH_foot p) (h6 : Follows p s0 a6) :
    FollowsOut p s0 (execSCrcH (a0) (a1) (a2) (a3) (a4) (a5) (a6)) := by
  unfold execSCrcH
  refine FollowsOut.next ?_
  refine State.engShort_follows (hp.sub rfl) ?_
  with_reducible assumption

def execSCrcW_foot : Foot := ⟨0x1fffffff, 0x0⟩

theorem execSCrcW_follows {p s0} {a0} {a1} {a2} {a3} {a4} {a5} {a6} (hp : Foot.le execSCrcW_foot p) (h6 : Follows p s0 a6) :
    FollowsOut p s0 (execSCrcW (a0) (a1) (a2) (a3) (a4) (a5) (a6)) := by
  unfold execSCrcW
  refine FollowsOut.next ?_
  refine State.engShort_follows (hp.sub rfl) ?_
  with_reducible assumption

def execSBrevb_foot : Foot := ⟨0x1fffffff, 0x0⟩

theorem execSBrevb_follows {p s0} {a0} {a1} {a2} {a3} {a4} {a5} {a6} (hp : Foot.le execSBrevb_foot p) (h6 : Follows p s0 a6) :
    FollowsOut p s0 (execSBrevb (a0) (a1) (a2) (a3) (a4) (a5) (a6)) := by
  unfold execSBrevb
  refine FollowsOut.next ?_
  refine State.engShort_follows (hp.sub rfl) ?_
  with_reducible assumption

def execLdlB_foot : Foot := ⟨0x1fffffff, 0x0⟩

theorem execLdlB_follows {p s0} {a0} {a1} {a2} {a3} {a4} {a5} {a6} (hp : Foot.le execLdlB_foot p) (h6 : Follows p s0 a6) :
    FollowsOut p s0 (execLdlB (a0) (a1) (a2) (a3) (a4) (a5) (a6)) := by
  unfold execLdlB
  refine FollowsOut.next ?_
  refine State.engShort_follows (hp.sub rfl) ?_
  with_reducible assumption

def execLdlH_foot : Foot := ⟨0x1fffffff, 0x0⟩

theorem execLdlH_follows {p s0} {a0} {a1} {a2} {a3} {a4} {a5} {a6} (hp : Foot.le execLdlH_foot p) (h6 : Follows p s0 a6) :
    FollowsOut p s0 (execLdlH (a0) (a1) (a2) (a3) (a4) (a5) (a6)) := by
  unfold execLdlH
  refine FollowsOut.next ?_
  refine State.engShort_follows (hp.sub rfl) ?_
  with_reducible assumption

def execLdlW_foot : Foot := ⟨0x1fffffff, 0x0⟩

theorem execLdlW_follows {p s0} {a0} {a1} {a2} {a3} {a4} {a5} {a6} (hp : Foot.le execLdlW_foot p) (h6 : Follows p s0 a6) :
    FollowsOut p s0 (execLdlW (a0) (a1) (a2) (a3) (a4) (a5) (a6)) := by
  unfold execLdlW
  refine FollowsOut.next ?_
  refine State.engShort_follows (hp.sub rfl) ?_
  with_reducible assumption

def execStlB_foot : Foot := ⟨0x1fffffff, 0x0⟩

theorem execStlB_follows {p s0} {a0} {a1} {a2} {a3} {a4} {a5} {a6} (hp : Foot.le execStlB_foot p) (h6 : Follows p s0 a6) :
    FollowsOut p s0 (execStlB (a0) (a1) (a2) (a3) (a4) (a5) (a6)) := by
  unfold execStlB
  refine FollowsOut.next ?_
  refine State.engShort_follows (hp.sub rfl) ?_
  with_reducible assumption

def execStlH_foot : Foot := ⟨0x1fffffff, 0x0⟩

theorem execStlH_follows {p s0} {a0} {a1} {a2} {a3} {a4} {a5} {a6} (hp : Foot.le execStlH_foot p) (h6 : Follows p s0 a6) :
    FollowsOut p s0 (execStlH (a0) (a1) (a2) (a3) (a4) (a5) (a6)) := by
  unfold execStlH
  refine FollowsOut.next ?_
  refine State.engShort_follows (hp.sub rfl) ?_
  with_reducible assumption

def execStlW_foot : Foot := ⟨0x1fffffff, 0x0⟩

theorem execStlW_follows {p s0} {a0} {a1} {a2} {a3} {a4} {a5} {a6} (hp : Foot.le execStlW_foot p) (h6 : Follows p s0 a6) :
    FollowsOut p s0 (execStlW (a0) (a1) (a2) (a3) (a4) (a5) (a6)) := by
  unfold execStlW
  refine FollowsOut.next ?_
  refine State.engShort_follows (hp.sub rfl) ?_
  with_reducible assumption

/-! ### Machine/EngineVec.lean -/

def State.engVec_foot : Foot := ⟨0x1fffffff, 0x0⟩

theorem State.engVec_follows {p s0} {a0} {a1} {a2} {a3} {a4} (hp : Foot.le State.engVec_foot p) (h0 : Follows p s0 a0) :
    Follows p s0 (State.engVec (a0) (a1) (a2) (a3) (a4)) := by
  unfold State.engVec
  refine State.engIssue_follows (hp.sub rfl) ?_ ?_
  · with_reducible assumption
  · intro x0 x1
    refine Follows.id ?_
    with_reducible assumption

def State.engVec2_foot : Foot := ⟨0x1fffffff, 0x0⟩

theorem State.engVec2_follows {p s0} {a0} {a1} {a2} {a3} {a4} {a5} {a6} (hp : Foot.le State.engVec2_foot p) (h0 : Follows p s0 a0) :
    Follows p s0 (State.engVec2 (a0) (a1) (a2) (a3) (a4) (a5) (a6)) := by
  unfold State.engVec2
  refine State.engVec_follows (hp.sub rfl) ?_
  with_reducible assumption

def execHadd_foot : Foot := ⟨0x1fffffff, 0x0⟩

theorem execHadd_follows {p s0} {a0} {a1} {a2} {a3} {a4} {a5} (hp : Foot.le execHadd_foot p) (h5 : Follows p s0 a5) :
    FollowsOut p s0 (execHadd (a0) (a1) (a2) (a3) (a4) (a5)) := by
  unfold execHadd
  refine FollowsOut.next ?_
  refine State.engVec2_follows (hp.sub rfl) ?_
  with_reducible assumption

def execHsub_foot : Foot := ⟨0x1fffffff, 0x0⟩

theorem execHsub_follows {p s0} {a0} {a1} {a2} {a3} {a4} {a5} (hp : Foot.le execHsub_foot p) (h5 : Follows p s0 a5) :
    FollowsOut p s0 (execHsub (a0) (a1) (a2) (a3) (a4) (a5)) := by
  unfold execHsub
  refine FollowsOut.next ?_
  refine State.engVec2_follows (hp.sub rfl) ?_
  with_reducible assumption

def execHmul_foot : Foot := ⟨0x1fffffff, 0x0⟩

theorem execHmul_follows {p s0} {a0} {a1} {a2} {a3} {a4} {a5} (hp : Foot.le execHmul_foot p) (h5 : Follows p s0 a5) :
    FollowsOut p s0 (execHmul (a0) (a1) (a2) (a3) (a4) (a5)) := by
  unfold execHmul
  refine FollowsOut.next ?_
  refine State.engVec2_follows (hp.sub rfl) ?_
  with_reducible assumption

def execCmul_foot : Foot := ⟨0x1fffffff, 0x0⟩

theorem execCmul_follows {p s0} {a0} {a1} {a2} {a3} {a4} {a5} (hp : Foot.le execCmul_foot p) (h5 : Follows p s0 a5) :
    FollowsOut p s0 (execCmul (a0) (a1) (a2) (a3) (a4) (a5)) := by
  unfold execCmul
  refine FollowsOut.next ?_
  refine State.engVec2_follows (hp.sub rfl) ?_
  with_reducible assumption

def execCfma_foot : Foot := ⟨0x1fffffff, 0x0⟩

theorem execCfma_follows {p s0} {a0} {a1} {a2} {a3} {a4} {a5} (hp : Foot.le execCfma_foot p) (h5 : Follows p s0 a5) :
    FollowsOut p s0 (execCfma (a0) (a1) (a2) (a3) (a4) (a5)) := by
  unfold execCfma
  refine FollowsOut.next ?_
  refine State.engVec_follows (hp.sub rfl) ?_
  with_reducible assumption

def execCvtq_foot : Foot := ⟨0x1fffffff, 0x0⟩

theorem execCvtq_follows {p s0} {a0} {a1} {a2} {a3} {a4} {a5} (hp : Foot.le execCvtq_foot p) (h5 : Follows p s0 a5) :
    FollowsOut p s0 (execCvtq (a0) (a1) (a2) (a3) (a4) (a5)) := by
  unfold execCvtq
  refine FollowsOut.next ?_
  refine State.engVec_follows (hp.sub rfl) ?_
  with_reducible assumption

def execCvth_foot : Foot := ⟨0x1fffffff, 0x0⟩

theorem execCvth_follows {p s0} {a0} {a1} {a2} {a3} {a4} {a5} (hp : Foot.le execCvth_foot p) (h5 : Follows p s0 a5) :
    FollowsOut p s0 (execCvth (a0) (a1) (a2) (a3) (a4) (a5)) := by
  unfold execCvth
  refine FollowsOut.next ?_
  refine State.engVec_follows (hp.sub rfl) ?_
  with_reducible assumption

def execVmov_foot : Foot := ⟨0x1fffffff, 0x0⟩

theorem execVmov_follows {p s0} {a0} {a1} {a2} {a3} {a4} {a5} (hp : Foot.le execVmov_foot p) (h5 : Follows p s0 a5) :
    FollowsOut p s0 (execVmov (a0) (a1) (a2) (a3) (a4) (a5)) := by
  unfold execVmov
  refine FollowsOut.next ?_
  refine State.engVec_follows (hp.sub rfl) ?_
  with_reducible assumption

def execVsplat_foot : Foot := ⟨0x1fffffff, 0x0⟩

theorem execVsplat_follows {p s0} {a0} {a1} {a2} {a3} {a4} {a5} (hp : Foot.le execVsplat_foot p) (h5 : Follows p s0 a5) :
    FollowsOut p s0 (execVsplat (a0) (a1) (a2) (a3) (a4) (a5)) := by
  unfold execVsplat
  refine FollowsOut.next ?_
  refine State.engVec_follows (hp.sub rfl) ?_
  with_reducible assumption

def execVget_foot : Foot := ⟨0x1fffffff, 0x0⟩

theorem execVget_follows {p s0} {a0} {a1} {a2} {a3} {a4} {a5} (hp : Foot.le execVget_foot p) (h5 : Follows p s0 a5) :
    FollowsOut p s0 (execVget (a0) (a1) (a2) (a3) (a4) (a5)) := by
  unfold execVget
  refine FollowsOut.next ?_
  refine State.engVec_follows (hp.sub rfl) ?_
  with_reducible assumption

def execVput_foot : Foot := ⟨0x1fffffff, 0x0⟩

theorem execVput_follows {p s0} {a0} {a1} {a2} {a3} {a4} {a5} (hp : Foot.le execVput_foot p) (h5 : Follows p s0 a5) :
    FollowsOut p s0 (execVput (a0) (a1) (a2) (a3) (a4) (a5)) := by
  unfold execVput
  refine FollowsOut.next ?_
  refine State.engVec_follows (hp.sub rfl) ?_
  with_reducible assumption

/-! ### Machine/EngineSys.lean -/

def State.engLoad_foot : Foot := ⟨0x1fffffff, 0x0⟩

theorem State.engLoad_follows {p s0} {a0} {a1} {a2} {a3} {a4} {a5} {a6} {a7} {a8} (hp : Foot.le State.engLoad_foot p) (h0 : Follows p s0 a0) :
    Follows p s0 (State.engLoad (a0) (a1) (a2) (a3) (a4) (a5) (a6) (a7) (a8)) := by
  unfold State.engLoad
  refine State.engIssue_follows (hp.sub rfl) ?_ ?_
  · with_reducible assumption
  · intro x0 x1
    refine Follows.id ?_
    with_reducible assumption

def State.engStore_foot : Foot := ⟨0x1fffffff, 0x0⟩

theorem State.engStore_follows {p s0} {a0} {a1} {a2} {a3} {a4} {a5} {a6} (hp : Foot.le State.engStore_foot p) (h0 : Follows p s0 a0) :
    Follows p s0 (State.engStore (a0) (a1) (a2) (a3) (a4) (a5) (a6)) := by
  unfold State.engStore
  refine State.engIssue_follows (hp.sub rfl) ?_ ?_
  · with_reducible assumption
  · intro x0 x1
    refine Follows.id ?_
    with_reducible assumption

def State.engVmem_foot : Foot := ⟨0x1fffffff, 0x0⟩

theorem State.engVmem_follows {p s0} {a0} {a1} {a2} {a3} {a4} {a5} {a6} {a7} {a8} (hp : Foot.le State.engVmem_foot p) (h0 : Follows p s0 a0) :
    Follows p s0 (State.engVmem (a0) (a1) (a2) (a3) (a4) (a5) (a6) (a7) (a8)) := by
  unfold State.engVmem
  refine State.engIssue_follows (hp.sub rfl) ?_ ?_
  · with_reducible assumption
  · intro x0 x1
    refine Follows.id ?_
    with_reducible assumption

def State.engGather_foot : Foot := ⟨0x1fffffff, 0x0⟩

theorem State.engGather_follows {p s0} {a0} {a1} {a2} {a3} {a4} {a5} {a6} (hp : Foot.le State.engGather_foot p) (h0 : Follows p s0 a0) :
    Follows p s0 (State.engGather (a0) (a1) (a2) (a3) (a4) (a5) (a6)) := by
  unfold State.engGather
  extract_lets y0
  clear_value y0
  refine State.engIssue_follows (hp.sub rfl) ?_ ?_
  · with_reducible assumption
  · intro x1 x2
    refine Follows.id ?_
    with_reducible assumption

def State.engBranch_foot : Foot := ⟨0x1fffffff, 0x0⟩

theorem State.engBranch_follows {p s0} {a0} {a1} {a2} {a3} {a4} {a5} (hp : Foot.le State.engBranch_foot p) (h0 : Follows p s0 a0) :
    Follows p s0 (State.engBranch (a0) (a1) (a2) (a3) (a4) (a5)) := by
  unfold State.engBranch
  refine State.engIssue_follows (hp.sub rfl) ?_ ?_
  · with_reducible assumption
  · intro x0 x1
    refine Follows.id ?_
    with_reducible assumption

def State.engJump_foot : Foot := ⟨0x1fffffff, 0x0⟩

theorem State.engJump_follows {p s0} {a0} {a1} {a2} {a3} {a4} (hp : Foot.le State.engJump_foot p) (h0 : Follows p s0 a0) :
    Follows p s0 (State.engJump (a0) (a1) (a2) (a3) (a4)) := by
  unfold State.engJump
  refine State.engIssue_follows (hp.sub rfl) ?_ ?_
  · with_reducible assumption
  · intro x0 x1
    refine Follows.id ?_
    with_reducible assumption

def State.engJumpReg_foot : Foot := ⟨0x1fffffff, 0x0⟩

theorem State.engJumpReg_follows {p s0} {a0} {a1} {a2} {a3} {a4} {a5} (hp : Foot.le State.engJumpReg_foot p) (h0 : Follows p s0 a0) :
    Follows p s0 (State.engJumpReg (a0) (a1) (a2) (a3) (a4) (a5)) := by
  unfold State.engJumpReg
  refine State.engIssue_follows (hp.sub rfl) ?_ ?_
  · with_reducible assumption
  · intro x0 x1
    refine Follows.id ?_
    with_reducible assumption

def State.engRet_foot : Foot := ⟨0x1fffffff, 0x0⟩

theorem State.engRet_follows {p s0} {a0} {a1} {a2} (hp : Foot.le State.engRet_foot p) (h0 : Follows p s0 a0) :
    Follows p s0 (State.engRet (a0) (a1) (a2)) := by
  unfold State.engRet
  refine State.engIssue_follows (hp.sub rfl) ?_ ?_
  · with_reducible assumption
  · intro x0 x1
    refine Follows.id ?_
    with_reducible assumption

def State.engLoop_foot : Foot := ⟨0x1fffffff, 0x0⟩

theorem State.engLoop_follows {p s0} {a0} {a1} {a2} {a3} {a4} (hp : Foot.le State.engLoop_foot p) (h0 : Follows p s0 a0) :
    Follows p s0 (State.engLoop (a0) (a1) (a2) (a3) (a4)) := by
  unfold State.engLoop
  refine State.engIssue_follows (hp.sub rfl) ?_ ?_
  · with_reducible assumption
  · intro x0 x1
    refine Follows.id ?_
    with_reducible assumption

def State.engRsSave_foot : Foot := ⟨0x1fffffff, 0x0⟩

theorem State.engRsSave_follows {p s0} {a0} {a1} {a2} (hp : Foot.le State.engRsSave_foot p) (h0 : Follows p s0 a0) :
    Follows p s0 (State.engRsSave (a0) (a1) (a2)) := by
  unfold State.engRsSave
  refine State.engIssue_follows (hp.sub rfl) ?_ ?_
  · with_reducible assumption
  · intro x0 x1
    refine Follows.id ?_
    with_reducible assumption

def State.engRsLoad_foot : Foot := ⟨0x1fffffff, 0x0⟩

theorem State.engRsLoad_follows {p s0} {a0} {a1} {a2} {a3} (hp : Foot.le State.engRsLoad_foot p) (h0 : Follows p s0 a0) :
    Follows p s0 (State.engRsLoad (a0) (a1) (a2) (a3)) := by
  unfold State.engRsLoad
  refine State.engIssue_follows (hp.sub rfl) ?_ ?_
  · with_reducible assumption
  · intro x0 x1
    refine Follows.id ?_
    with_reducible assumption

def State.engMfs_foot : Foot := ⟨0x1fffffff, 0x0⟩

theorem State.engMfs_follows {p s0} {a0} {a1} {a2} {a3} (hp : Foot.le State.engMfs_foot p) (h0 : Follows p s0 a0) :
    Follows p s0 (State.engMfs (a0) (a1) (a2) (a3)) := by
  unfold State.engMfs
  refine State.engIssue_follows (hp.sub rfl) ?_ ?_
  · with_reducible assumption
  · intro x0 x1
    refine Follows.id ?_
    with_reducible assumption

def State.engMts_foot : Foot := ⟨0x1fffffff, 0x0⟩

theorem State.engMts_follows {p s0} {a0} {a1} {a2} {a3} (hp : Foot.le State.engMts_foot p) (h0 : Follows p s0 a0) :
    Follows p s0 (State.engMts (a0) (a1) (a2) (a3)) := by
  unfold State.engMts
  refine State.engIssue_follows (hp.sub rfl) ?_ ?_
  · with_reducible assumption
  · intro x0 x1
    refine Follows.id ?_
    with_reducible assumption

def State.engMtime_foot : Foot := ⟨0x1fffffff, 0x0⟩

theorem State.engMtime_follows {p s0} {a0} {a1} {a2} (hp : Foot.le State.engMtime_foot p) (h0 : Follows p s0 a0) :
    Follows p s0 (State.engMtime (a0) (a1) (a2)) := by
  unfold State.engMtime
  refine State.engIssue_follows (hp.sub rfl) ?_ ?_
  · with_reducible assumption
  · intro x0 x1
    refine Follows.id ?_
    with_reducible assumption

def State.engMsend_foot : Foot := ⟨0x1fffffff, 0x0⟩

theorem State.engMsend_follows {p s0} {a0} {a1} {a2} {a3} (hp : Foot.le State.engMsend_foot p) (h0 : Follows p s0 a0) :
    Follows p s0 (State.engMsend (a0) (a1) (a2) (a3)) := by
  unfold State.engMsend
  extract_lets y0 y1 y2
  clear_value y0
  clear_value y1
  clear_value y2
  refine State.engIssue_follows (hp.sub rfl) ?_ ?_
  · with_reducible assumption
  · intro x3 x4
    refine Follows.ite ?_ ?_
    · refine State.mboxDeliver_follows (hp.sub rfl) ?_
      with_reducible assumption
    · with_reducible assumption

def State.engMrecv_foot : Foot := ⟨0x1fffffff, 0x0⟩

theorem State.engMrecv_follows {p s0} {a0} {a1} {a2} {a3} (hp : Foot.le State.engMrecv_foot p) (h0 : Follows p s0 a0) :
    Follows p s0 (State.engMrecv (a0) (a1) (a2) (a3)) := by
  unfold State.engMrecv
  split
  · refine State.engIssue_follows (hp.sub rfl) ?_ ?_
    · with_reducible assumption
    · intro x4 x5
      refine State.berthFree_follows (hp.sub rfl) ?_
      refine State.updEng_follows (hp.sub rfl) ?_
      with_reducible assumption
  · refine State.engIssue_follows (hp.sub rfl) ?_ ?_
    · with_reducible assumption
    · intro x8 x9
      refine Follows.id ?_
      with_reducible assumption

def State.engEret_foot : Foot := ⟨0x1fffffff, 0x0⟩

theorem State.engEret_follows {p s0} {a0} {a1} (hp : Foot.le State.engEret_foot p) (h0 : Follows p s0 a0) :
    Follows p s0 (State.engEret (a0) (a1)) := by
  unfold State.engEret
  refine State.engIssue_follows (hp.sub rfl) ?_ ?_
  · with_reducible assumption
  · intro x0 x1
    refine Follows.id ?_
    with_reducible assumption

def State.engSetmode_foot : Foot := ⟨0x1fffffff, 0x0⟩

theorem State.engSetmode_follows {p s0} {a0} {a1} {a2} (hp : Foot.le State.engSetmode_foot p) (h0 : Follows p s0 a0) :
    Follows p s0 (State.engSetmode (a0) (a1) (a2)) := by
  unfold State.engSetmode
  refine State.engIssue_follows (hp.sub rfl) ?_ ?_
  · with_reducible assumption
  · intro x0 x1
    refine Follows.id ?_
    with_reducible assumption

def State.timedOverrun_foot : Foot := ⟨0x1fffffff, 0x0⟩

theorem State.timedOverrun_follows {p s0} {a0} {a1} (hp : Foot.le State.timedOverrun_foot p) (h0 : Follows p s0 a0) :
    Follows p s0 (State.timedOverrun (a0) (a1)) := by
  unfold State.timedOverrun
  extract_lets y0
  clear_value y0
  refine Follows.ite ?_ ?_
  · with_reducible assumption
  · refine State.takeBoundary_follows (hp.sub rfl) ?_
    refine State.updEng_follows (hp.sub rfl) ?_
    with_reducible assumption

def State.timedCount_foot : Foot := ⟨0x20000, 0x0⟩

theorem State.timedCount_follows {p s0} {a0} {a1} {a2} (hp : Foot.le State.timedCount_foot p) (h0 : Follows p s0 a0) :
    Follows p s0 (State.timedCount (a0) (a1) (a2)) := by
  unfold State.timedCount
  refine State.updEng_follows (hp.sub rfl) ?_
  with_reducible assumption

def State.wfiWake_foot : Foot := ⟨0x402000c, 0xe808800000000000000000000000000000000000000000000000000000000000000000000000000000000000000000000000000000000000001000000000000000000⟩

theorem State.wfiWake_follows {p s0} {a0} {a1} (hp : Foot.le State.wfiWake_foot p) (h0 : Follows p s0 a0) :
    Follows p s0 (State.wfiWake (a0) (a1)) := by
  unfold State.wfiWake
  refine Follows.ite ?_ ?_
  · refine State.engRetire_follows (hp.sub rfl) ?_
    with_reducible assumption
  · with_reducible assumption

def execLd_foot : Foot := ⟨0x1fffffff, 0x0⟩

theorem execLd_follows {p s0} {a0} {a1} {a2} {a3} {a4} {a5} {a6} {a7} (hp : Foot.le execLd_foot p) (h7 : Follows p s0 a7) :
    FollowsOut p s0 (execLd (a0) (a1) (a2) (a3) (a4) (a5) (a6) (a7)) := by
  unfold execLd
  refine FollowsOut.next ?_
  refine State.engLoad_follows (hp.sub rfl) ?_
  with_reducible assumption

def execLds_foot : Foot := ⟨0x1fffffff, 0x0⟩

theorem execLds_follows {p s0} {a0} {a1} {a2} {a3} {a4} {a5} {a6} {a7} (hp : Foot.le execLds_foot p) (h7 : Follows p s0 a7) :
    FollowsOut p s0 (execLds (a0) (a1) (a2) (a3) (a4) (a5) (a6) (a7)) := by
  unfold execLds
  refine FollowsOut.next ?_
  refine State.engLoad_follows (hp.sub rfl) ?_
  with_reducible assumption

def execSt_foot : Foot := ⟨0x1fffffff, 0x0⟩

theorem execSt_follows {p s0} {a0} {a1} {a2} {a3} {a4} {a5} {a6} (hp : Foot.le execSt_foot p) (h6 : Follows p s0 a6) :
    FollowsOut p s0 (execSt (a0) (a1) (a2) (a3) (a4) (a5) (a6)) := by
  unfold execSt
  refine FollowsOut.next ?_
  refine State.engStore_follows (hp.sub rfl) ?_
  with_reducible assumption

def execVld_foot : Foot := ⟨0x1fffffff, 0x0⟩

theorem execVld_follows {p s0} {a0} {a1} {a2} {a3} {a4} {a5} {a6} {a7} (hp : Foot.le execVld_foot p) (h7 : Follows p s0 a7) :
    FollowsOut p s0 (execVld (a0) (a1) (a2) (a3) (a4) (a5) (a6) (a7)) := by
  unfold execVld
  refine FollowsOut.next ?_
  refine State.engVmem_follows (hp.sub rfl) ?_
  with_reducible assumption

def execVst_foot : Foot := ⟨0x1fffffff, 0x0⟩

theorem execVst_follows {p s0} {a0} {a1} {a2} {a3} {a4} {a5} {a6} (hp : Foot.le execVst_foot p) (h6 : Follows p s0 a6) :
    FollowsOut p s0 (execVst (a0) (a1) (a2) (a3) (a4) (a5) (a6)) := by
  unfold execVst
  refine FollowsOut.next ?_
  refine State.engVmem_follows (hp.sub rfl) ?_
  with_reducible assumption

def execGather_foot : Foot := ⟨0x1fffffff, 0x0⟩

theorem execGather_follows {p s0} {a0} {a1} {a2} {a3} {a4} {a5} (hp : Foot.le execGather_foot p) (h5 : Follows p s0 a5) :
    FollowsOut p s0 (execGather (a0) (a1) (a2) (a3) (a4) (a5)) := by
  unfold execGather
  refine FollowsOut.next ?_
  refine State.engGather_follows (hp.sub rfl) ?_
  with_reducible assumption

def execBeq_foot : Foot := ⟨0x1fffffff, 0x0⟩

theorem execBeq_follows {p s0} {a0} {a1} {a2} {a3} {a4} (hp : Foot.le execBeq_foot p) (h4 : Follows p s0 a4) :
    FollowsOut p s0 (execBeq (a0) (a1) (a2) (a3) (a4)) := by
  unfold execBeq
  refine FollowsOut.next ?_
  refine State.engBranch_follows (hp.sub rfl) ?_
  with_reducible assumption

def execBne_foot : Foot := ⟨0x1fffffff, 0x0⟩

theorem execBne_follows {p s0} {a0} {a1} {a2} {a3} {a4} (hp : Foot.le execBne_foot p) (h4 : Follows p s0 a4) :
    FollowsOut p s0 (execBne (a0) (a1) (a2) (a3) (a4)) := by
  unfold execBne
  refine FollowsOut.next ?_
  refine State.engBranch_follows (hp.sub rfl) ?_
  with_reducible assumption

def execBlt_foot : Foot := ⟨0x1fffffff, 0x0⟩

theorem execBlt_follows {p s0} {a0} {a1} {a2} {a3} {a4} (hp : Foot.le execBlt_foot p) (h4 : Follows p s0 a4) :
    FollowsOut p s0 (execBlt (a0) (a1) (a2) (a3) (a4)) := by
  unfold execBlt
  refine FollowsOut.next ?_
  refine State.engBranch_follows (hp.sub rfl) ?_
  with_reducible assumption

def execBge_foot : Foot := ⟨0x1fffffff, 0x0⟩

theorem execBge_follows {p s0} {a0} {a1} {a2} {a3} {a4} (hp : Foot.le execBge_foot p) (h4 : Follows p s0 a4) :
    FollowsOut p s0 (execBge (a0) (a1) (a2) (a3) (a4)) := by
  unfold execBge
  refine FollowsOut.next ?_
  refine State.engBranch_follows (hp.sub rfl) ?_
  with_reducible assumption

def execBltu_foot : Foot := ⟨0x1fffffff, 0x0⟩

theorem execBltu_follows {p s0} {a0} {a1} {a2} {a3} {a4} (hp : Foot.le execBltu_foot p) (h4 : Follows p s0 a4) :
    FollowsOut p s0 (execBltu (a0) (a1) (a2) (a3) (a4)) := by
  unfold execBltu
  refine FollowsOut.next ?_
  refine State.engBranch_follows (hp.sub rfl) ?_
  with_reducible assumption

def execBgeu_foot : Foot := ⟨0x1fffffff, 0x0⟩

theorem execBgeu_follows {p s0} {a0} {a1} {a2} {a3} {a4} (hp : Foot.le execBgeu_foot p) (h4 : Follows p s0 a4) :
    FollowsOut p s0 (execBgeu (a0) (a1) (a2) (a3) (a4)) := by
  unfold execBgeu
  refine FollowsOut.next ?_
  refine State.engBranch_follows (hp.sub rfl) ?_
  with_reducible assumption

def execJ_foot : Foot := ⟨0x1fffffff, 0x0⟩

theorem execJ_follows {p s0} {a0} {a1} {a2} {a3} {a4} (hp : Foot.le execJ_foot p) (h4 : Follows p s0 a4) :
    FollowsOut p s0 (execJ (a0) (a1) (a2) (a3) (a4)) := by
  unfold execJ
  refine FollowsOut.next ?_
  refine State.engJump_follows (hp.sub rfl) ?_
  with_reducible assumption

def execCall_foot : Foot := ⟨0x1fffffff, 0x0⟩

theorem execCall_follows {p s0} {a0} {a1} {a2} {a3} {a4} (hp : Foot.le execCall_foot p) (h4 : Follows p s0 a4) :
    FollowsOut p s0 (execCall (a0) (a1) (a2) (a3) (a4)) := by
  unfold execCall
  refine FollowsOut.next ?_
  refine State.engJump_follows (hp.sub rfl) ?_
  with_reducible assumption

def execJr_foot : Foot := ⟨0x1fffffff, 0x0⟩

theorem execJr_follows {p s0} {a0} {a1} {a2} {a3} {a4} (hp : Foot.le execJr_foot p) (h4 : Follows p s0 a4) :
    FollowsOut p s0 (execJr (a0) (a1) (a2) (a3) (a4)) := by
  unfold execJr
  refine FollowsOut.next ?_
  refine State.engJumpReg_follows (hp.sub rfl) ?_
  with_reducible assumption

def execCallr_foot : Foot := ⟨0x1fffffff, 0x0⟩

theorem execCallr_follows {p s0} {a0} {a1} {a2} {a3} {a4} (hp : Foot.le execCallr_foot p) (h4 : Follows p s0 a4) :
    FollowsOut p s0 (execCallr (a0) (a1) (a2) (a3) (a4)) := by
  unfold execCallr
  refine FollowsOut.next ?_
  refine State.engJumpReg_follows (hp.sub rfl) ?_
  with_reducible assumption

def execRet_foot : Foot := ⟨0x1fffffff, 0x0⟩

theorem execRet_follows {p s0} {a0} {a1} {a2} {a3} {a4} (hp : Foot.le execRet_foot p) (h4 : Follows p s0 a4) :
    FollowsOut p s0 (execRet (a0) (a1) (a2) (a3) (a4)) := by
  unfold execRet
  refine FollowsOut.next ?_
  refine State.engRet_follows (hp.sub rfl) ?_
  with_reducible assumption

def execLoop_foot : Foot := ⟨0x1fffffff, 0x0⟩

theorem execLoop_follows {p s0} {a0} {a1} {a2} {a3} {a4} (hp : Foot.le execLoop_foot p) (h4 : Follows p s0 a4) :
    FollowsOut p s0 (execLoop (a0) (a1) (a2) (a3) (a4)) := by
  unfold execLoop
  refine FollowsOut.next ?_
  refine State.engLoop_follows (hp.sub rfl) ?_
  with_reducible assumption

def execMfs_foot : Foot := ⟨0x1fffffff, 0x0⟩

theorem execMfs_follows {p s0} {a0} {a1} {a2} {a3} {a4} {a5} (hp : Foot.le execMfs_foot p) (h5 : Follows p s0 a5) :
    FollowsOut p s0 (execMfs (a0) (a1) (a2) (a3) (a4) (a5)) := by
  unfold execMfs
  refine FollowsOut.next ?_
  refine State.engMfs_follows (hp.sub rfl) ?_
  with_reducible assumption

def execMts_foot : Foot := ⟨0x1fffffff, 0x0⟩

theorem execMts_follows {p s0} {a0} {a1} {a2} {a3} {a4} {a5} (hp : Foot.le execMts_foot p) (h5 : Follows p s0 a5) :
    FollowsOut p s0 (execMts (a0) (a1) (a2) (a3) (a4) (a5)) := by
  unfold execMts
  refine FollowsOut.next ?_
  refine State.engMts_follows (hp.sub rfl) ?_
  with_reducible assumption

def execMtime_foot : Foot := ⟨0x1fffffff, 0x0⟩

theorem execMtime_follows {p s0} {a0} {a1} {a2} {a3} {a4} {a5} (hp : Foot.le execMtime_foot p) (h5 : Follows p s0 a5) :
    FollowsOut p s0 (execMtime (a0) (a1) (a2) (a3) (a4) (a5)) := by
  unfold execMtime
  refine FollowsOut.next ?_
  refine State.engMtime_follows (hp.sub rfl) ?_
  with_reducible assumption

def execRssave_foot : Foot := ⟨0x1fffffff, 0x0⟩

theorem execRssave_follows {p s0} {a0} {a1} {a2} {a3} {a4} {a5} (hp : Foot.le execRssave_foot p) (h5 : Follows p s0 a5) :
    FollowsOut p s0 (execRssave (a0) (a1) (a2) (a3) (a4) (a5)) := by
  unfold execRssave
  refine FollowsOut.next ?_
  refine State.engRsSave_follows (hp.sub rfl) ?_
  with_reducible assumption

def execRsload_foot : Foot := ⟨0x1fffffff, 0x0⟩

theorem execRsload_follows {p s0} {a0} {a1} {a2} {a3} {a4} {a5} (hp : Foot.le execRsload_foot p) (h5 : Follows p s0 a5) :
    FollowsOut p s0 (execRsload (a0) (a1) (a2) (a3) (a4) (a5)) := by
  unfold execRsload
  refine FollowsOut.next ?_
  refine State.engRsLoad_follows (hp.sub rfl) ?_
  with_reducible assumption

def execMsend_foot : Foot := ⟨0x1fffffff, 0x0⟩

theorem execMsend_follows {p s0} {a0} {a1} {a2} {a3} {a4} {a5} (hp : Foot.le execMsend_foot p) (h5 : Follows p s0 a5) :
    FollowsOut p s0 (execMsend (a0) (a1) (a2) (a3) (a4) (a5)) := by
  unfold execMsend
  refine FollowsOut.next ?_
  refine State.engMsend_follows (hp.sub rfl) ?_
  with_reducible assumption

def execMrecv_foot : Foot := ⟨0x1fffffff, 0x0⟩

theorem execMrecv_follows {p s0} {a0} {a1} {a2} {a3} {a4} {a5} (hp : Foot.le execMrecv_foot p) (h5 : Follows p s0 a5) :
    FollowsOut p s0 (execMrecv (a0) (a1) (a2) (a3) (a4) (a5)) := by
  unfold execMrecv
  refine FollowsOut.next ?_
  refine State.engMrecv_follows (hp.sub rfl) ?_
  with_reducible assumption

def execEret_foot : Foot := ⟨0x1fffffff, 0x0⟩

theorem execEret_follows {p s0} {a0} {a1} {a2} {a3} {a4} {a5} (hp : Foot.le execEret_foot p) (h5 : Follows p s0 a5) :
    FollowsOut p s0 (execEret (a0) (a1) (a2) (a3) (a4) (a5)) := by
  unfold execEret
  refine FollowsOut.next ?_
  refine State.engEret_follows (hp.sub rfl) ?_
  with_reducible assumption

def execSetmode_foot : Foot := ⟨0x1fffffff, 0x0⟩

theorem execSetmode_follows {p s0} {a0} {a1} {a2} {a3} {a4} {a5} (hp : Foot.le execSetmode_foot p) (h5 : Follows p s0 a5) :
    FollowsOut p s0 (execSetmode (a0) (a1) (a2) (a3) (a4) (a5)) := by
  unfold execSetmode
  refine FollowsOut.next ?_
  refine State.engSetmode_follows (hp.sub rfl) ?_
  with_reducible assumption

def execBrk_foot : Foot := ⟨0x1fffffff, 0x0⟩

theorem execBrk_follows {p s0} {a0} {a1} {a2} {a3} {a4} {a5} (hp : Foot.le execBrk_foot p) (h5 : Follows p s0 a5) :
    FollowsOut p s0 (execBrk (a0) (a1) (a2) (a3) (a4) (a5)) := by
  unfold execBrk
  refine FollowsOut.next ?_
  refine State.engIssue_follows (hp.sub rfl) ?_ ?_
  · with_reducible assumption
  · intro x0 x1
    refine Follows.id ?_
    with_reducible assumption

def execSysc_foot : Foot := ⟨0x1fffffff, 0x0⟩

theorem execSysc_follows {p s0} {a0} {a1} {a2} {a3} {a4} {a5} (hp : Foot.le execSysc_foot p) (h5 : Follows p s0 a5) :
    FollowsOut p s0 (execSysc (a0) (a1) (a2) (a3) (a4) (a5)) := by
  unfold execSysc
  refine FollowsOut.next ?_
  refine State.engIssue_follows (hp.sub rfl) ?_ ?_
  · with_reducible assumption
  · intro x0 x1
    refine Follows.id ?_
    with_reducible assumption

def execWfi_foot : Foot := ⟨0x1fffffff, 0x0⟩

theorem execWfi_follows {p s0} {a0} {a1} {a2} {a3} {a4} {a5} (hp : Foot.le execWfi_foot p) (h5 : Follows p s0 a5) :
    FollowsOut p s0 (execWfi (a0) (a1) (a2) (a3) (a4) (a5)) := by
  unfold execWfi
  refine FollowsOut.next ?_
  refine State.engIssue_follows (hp.sub rfl) ?_ ?_
  · with_reducible assumption
  · intro x0 x1
    refine Follows.id ?_
    with_reducible assumption

def execTimedOverrun_foot : Foot := ⟨0x1fffffff, 0x0⟩

theorem execTimedOverrun_follows {p s0} {a0} {a1} (hp : Foot.le execTimedOverrun_foot p) (h1 : Follows p s0 a1) :
    FollowsOut p s0 (execTimedOverrun (a0) (a1)) := by
  unfold execTimedOverrun
  refine FollowsOut.next ?_
  refine State.timedOverrun_follows (hp.sub rfl) ?_
  with_reducible assumption

def execWfiWake_foot : Foot := ⟨0x402000c, 0xe808800000000000000000000000000000000000000000000000000000000000000000000000000000000000000000000000000000000000001000000000000000000⟩

theorem execWfiWake_follows {p s0} {a0} {a1} (hp : Foot.le execWfiWake_foot p) (h1 : Follows p s0 a1) :
    FollowsOut p s0 (execWfiWake (a0) (a1)) := by
  unfold execWfiWake
  refine FollowsOut.next ?_
  refine State.wfiWake_follows (hp.sub rfl) ?_
  with_reducible assumption

def execInterruptTaken_foot : Foot := ⟨0x1fffffff, 0x0⟩

theorem execInterruptTaken_follows {p s0} {a0} {a1} (hp : Foot.le execInterruptTaken_foot p) (h1 : Follows p s0 a1) :
    FollowsOut p s0 (execInterruptTaken (a0) (a1)) := by
  unfold execInterruptTaken
  refine FollowsOut.next ?_
  refine Follows.ite ?_ ?_
  · refine State.takeBoundary_follows (hp.sub rfl) ?_
    with_reducible assumption
  · with_reducible assumption

end Sys2Proof.Machine
end

