-- ==== Sys2Proof/Laws/FootUnits.lean ====
section
/-! SUPPORT. Laws/FootUnits.lean: one footprint and one lemma for each operation of
the fabric, the timers, the interrupts, the security unit and the flash controller (Laws/Follows.lean). -/

set_option Elab.async false

namespace Sys2Proof.Machine

open Sys2Proof

set_option maxRecDepth 20000

/-! ### Machine/Fabric.lean -/

def State.crcWork_foot : Foot := ⟨0x4000000, 0x0⟩

theorem State.crcWork_follows {p s0} {a0} {a1} {a2} (hp : Foot.le State.crcWork_foot p) (h0 : Follows p s0 a0) :
    Follows p s0 (State.crcWork (a0) (a1) (a2)) := by
  unfold State.crcWork
  refine Follows.update hp ?_ rfl rfl
  with_reducible assumption

def State.crcDone_foot : Foot := ⟨0x4000010, 0x0⟩

theorem State.crcDone_follows {p s0} {a0} {a1} (hp : Foot.le State.crcDone_foot p) (h0 : Follows p s0 a0) :
    Follows p s0 (State.crcDone (a0) (a1)) := by
  unfold State.crcDone
  refine Follows.ite ?_ ?_
  · refine State.crcWork_follows (hp.sub rfl) ?_
    refine State.reach_follows (hp.sub rfl) ?_
    with_reducible assumption
  · with_reducible assumption

def State.crcFeedUnit_foot : Foot := ⟨0x4000000, 0x20000000000000000000000000000000000000⟩

theorem State.crcFeedUnit_follows {p s0} {a0} {a1} {a2} {a3} (hp : Foot.le State.crcFeedUnit_foot p) (h0 : Follows p s0 a0) :
    Follows p s0 (State.crcFeedUnit (a0) (a1) (a2) (a3)) := by
  unfold State.crcFeedUnit
  refine State.set_follows 149 hp ?_
  refine State.crcWork_follows (hp.sub rfl) ?_
  with_reducible assumption

def State.crcCfgWrite_foot : Foot := ⟨0x0, 0x38000000000000000000000000000000000000⟩

theorem State.crcCfgWrite_follows {p s0} {a0} {a1} {a2} (hp : Foot.le State.crcCfgWrite_foot p) (h0 : Follows p s0 a0) :
    Follows p s0 (State.crcCfgWrite (a0) (a1) (a2)) := by
  unfold State.crcCfgWrite
  extract_lets y0 y1 y2
  clear_value y0
  clear_value y1
  have k3 : Follows p s0 y2 := by
    subst y2
    refine State.set_follows 147 hp ?_
    refine State.set_follows 148 hp ?_
    with_reducible assumption
  clear_value y2
  refine Follows.ite ?_ ?_
  · with_reducible assumption
  · refine State.set_follows 149 hp ?_
    with_reducible assumption

def State.importDeliver_foot : Foot := ⟨0x40000, 0x0⟩

theorem State.importDeliver_follows {p s0} {a0} {a1} {a2} (hp : Foot.le State.importDeliver_foot p) (h0 : Follows p s0 a0) :
    Follows p s0 (State.importDeliver (a0) (a1) (a2)) := by
  unfold State.importDeliver
  refine Follows.ite ?_ ?_
  · split
    · with_reducible assumption
    · extract_lets y7 y8
      clear_value y7
      have k9 : Follows p s0 y8 := by
        subst y8
        refine Follows.update hp ?_ rfl rfl
        with_reducible assumption
      clear_value y8
      refine Follows.ite ?_ ?_
      · refine State.produce_follows (hp.sub rfl) ?_
        with_reducible assumption
      · with_reducible assumption
  · split
    · with_reducible assumption
    · extract_lets y16 y17
      clear_value y16
      have k18 : Follows p s0 y17 := by
        subst y17
        refine Follows.update hp ?_ rfl rfl
        with_reducible assumption
      clear_value y17
      refine Follows.ite ?_ ?_
      · refine State.produce_follows (hp.sub rfl) ?_
        with_reducible assumption
      · with_reducible assumption

def State.importsDue_foot : Foot := ⟨0x40000, 0x0⟩

theorem State.importsDue_follows {p s0} {a0} (hp : Foot.le State.importsDue_foot p) (h0 : Follows p s0 a0) :
    Follows p s0 (State.importsDue (a0)) := by
  unfold State.importsDue
  extract_lets y0
  have k1 : Follows p s0 y0 := by
    subst y0
    refine Follows.forAll ?_ ?_
    · intro x2 x3 x4
      refine Follows.ite ?_ ?_
      · refine State.importDeliver_follows (hp.sub rfl) ?_
        with_reducible assumption
      · with_reducible assumption
    · with_reducible assumption
  clear_value y0
  refine Follows.forAll ?_ ?_
  · intro x5 x6 x7
    refine Follows.ite ?_ ?_
    · refine State.importDeliver_follows (hp.sub rfl) ?_
      with_reducible assumption
    · with_reducible assumption
  · with_reducible assumption

def State.ageYarns_foot : Foot := ⟨0x40000, 0x0⟩

theorem State.ageYarns_follows {p s0} {a0} (hp : Foot.le State.ageYarns_foot p) (h0 : Follows p s0 a0) :
    Follows p s0 (State.ageYarns (a0)) := by
  unfold State.ageYarns
  refine Follows.update hp ?_ rfl rfl
  with_reducible assumption

def State.yrnFire_foot : Foot := ⟨0x40000, 0x0⟩

theorem State.yrnFire_follows {p s0} {a0} {a1} {a2} {a3} (hp : Foot.le State.yrnFire_foot p) (h0 : Follows p s0 a0) :
    Follows p s0 (State.yrnFire (a0) (a1) (a2) (a3)) := by
  unfold State.yrnFire
  refine Follows.forBits ?_ ?_
  · intro x0 x1 x2
    refine State.produce_follows (hp.sub rfl) ?_
    with_reducible assumption
  · with_reducible assumption

def State.cellCtrlWrite_foot : Foot := ⟨0x40000, 0xe00000000000000000000000⟩

theorem State.cellCtrlWrite_follows {p s0} {a0} {a1} {a2} (hp : Foot.le State.cellCtrlWrite_foot p) (h0 : Follows p s0 a0) :
    Follows p s0 (State.cellCtrlWrite (a0) (a1) (a2)) := by
  unfold State.cellCtrlWrite
  extract_lets y0 y1 y2
  clear_value y0
  have k3 : Follows p s0 y1 := by
    subst y1
    refine State.set_follows 95 hp ?_
    refine State.set_follows 94 hp ?_
    refine State.set_follows 93 hp ?_
    with_reducible assumption
  clear_value y1
  clear_value y2
  refine Follows.ite ?_ ?_
  · with_reducible assumption
  · refine Follows.update hp ?_ rfl rfl
    with_reducible assumption

def State.gpEdge_foot : Foot := ⟨0x40080, 0x1000000000000000000⟩

theorem State.gpEdge_follows {p s0} {a0} {a1} {a2} (hp : Foot.le State.gpEdge_foot p) (h0 : Follows p s0 a0) :
    Follows p s0 (State.gpEdge (a0) (a1) (a2)) := by
  unfold State.gpEdge
  refine Follows.ite ?_ ?_
  · with_reducible assumption
  · extract_lets y0 y1 y2 y3 y4
    clear_value y0
    clear_value y1
    have k5 : Follows p s0 y2 := by
      subst y2
      refine Follows.ite ?_ ?_
      · with_reducible assumption
      · refine Follows.update hp ?_ rfl rfl
        with_reducible assumption
    clear_value y2
    clear_value y3
    clear_value y4
    refine Follows.ite ?_ ?_
    · refine State.yarn_follows (hp.sub rfl) ?_
      refine State.fire_follows (hp.sub rfl) ?_
      with_reducible assumption
    · with_reducible assumption

def State.gpPulseEnd_foot : Foot := ⟨0x90, 0x0⟩

theorem State.gpPulseEnd_follows {p s0} {a0} {a1} (hp : Foot.le State.gpPulseEnd_foot p) (h0 : Follows p s0 a0) :
    Follows p s0 (State.gpPulseEnd (a0) (a1)) := by
  unfold State.gpPulseEnd
  extract_lets y0 y1 y2
  clear_value y0
  have k3 : Follows p s0 y1 := by
    subst y1
    refine State.gpDrive_follows (hp.sub rfl) ?_
    refine State.reach_follows (hp.sub rfl) ?_
    with_reducible assumption
  clear_value y1
  clear_value y2
  refine Follows.ite ?_ ?_
  · with_reducible assumption
  · refine Follows.update hp ?_ rfl rfl
    with_reducible assumption

def State.gpWritten_foot : Foot := ⟨0x80, 0x0⟩

theorem State.gpWritten_follows {p s0} {a0} {a1} (hp : Foot.le State.gpWritten_foot p) (h0 : Follows p s0 a0) :
    Follows p s0 (State.gpWritten (a0) (a1)) := by
  unfold State.gpWritten
  extract_lets y0 y1 y2
  clear_value y0
  clear_value y1
  have k3 : Follows p s0 y2 := by
    subst y2
    refine Follows.ite ?_ ?_
    · with_reducible assumption
    · refine Follows.update hp ?_ rfl rfl
      with_reducible assumption
  clear_value y2
  refine Follows.ite ?_ ?_
  · refine State.gpDrive_follows (hp.sub rfl) ?_
    with_reducible assumption
  · with_reducible assumption

def execYarnImportDelivery_foot : Foot := ⟨0x40000, 0x0⟩

theorem execYarnImportDelivery_follows {p s0} {a0} {a1} {a2} (hp : Foot.le execYarnImportDelivery_foot p) (h2 : Follows p s0 a2) :
    FollowsOut p s0 (execYarnImportDelivery (a0) (a1) (a2)) := by
  unfold execYarnImportDelivery
  refine FollowsOut.next ?_
  refine State.importDeliver_follows (hp.sub rfl) ?_
  with_reducible assumption

def execGpInputEdge_foot : Foot := ⟨0x40080, 0x1000000000000000000⟩

theorem execGpInputEdge_follows {p s0} {a0} {a1} {a2} (hp : Foot.le execGpInputEdge_foot p) (h2 : Follows p s0 a2) :
    FollowsOut p s0 (execGpInputEdge (a0) (a1) (a2)) := by
  unfold execGpInputEdge
  refine FollowsOut.next ?_
  refine State.gpEdge_follows (hp.sub rfl) ?_
  with_reducible assumption

def execGpPulseEnd_foot : Foot := ⟨0x90, 0x0⟩

theorem execGpPulseEnd_follows {p s0} {a0} {a1} (hp : Foot.le execGpPulseEnd_foot p) (h1 : Follows p s0 a1) :
    FollowsOut p s0 (execGpPulseEnd (a0) (a1)) := by
  unfold execGpPulseEnd
  refine FollowsOut.next ?_
  refine State.gpPulseEnd_follows (hp.sub rfl) ?_
  with_reducible assumption

/-! ### Machine/Timers.lean -/

def State.setTmrCount_foot : Foot := ⟨0x0, 0xc00010000000000000000000000000000⟩

theorem State.setTmrCount_follows {p s0} {a0} {a1} {a2} (hp : Foot.le State.setTmrCount_foot p) (h0 : Follows p s0 a0) :
    Follows p s0 (State.setTmrCount (a0) (a1) (a2)) := by
  unfold State.setTmrCount
  refine State.setWide_follows 112 130 131 hp ?_
  with_reducible assumption

def State.setTmrCmp_foot : Foot := ⟨0x0, 0x3000020000000000000000000000000000⟩

theorem State.setTmrCmp_follows {p s0} {a0} {a1} {a2} (hp : Foot.le State.setTmrCmp_foot p) (h0 : Follows p s0 a0) :
    Follows p s0 (State.setTmrCmp (a0) (a1) (a2)) := by
  unfold State.setTmrCmp
  refine State.setWide_follows 113 132 133 hp ?_
  with_reducible assumption

def State.setTmrCap_foot : Foot := ⟨0x0, 0xc000040000000000000000000000000000⟩

theorem State.setTmrCap_follows {p s0} {a0} {a1} {a2} (hp : Foot.le State.setTmrCap_foot p) (h0 : Follows p s0 a0) :
    Follows p s0 (State.setTmrCap (a0) (a1) (a2)) := by
  unfold State.setTmrCap
  refine State.setWide_follows 114 134 135 hp ?_
  with_reducible assumption

def State.tmrEvent_foot : Foot := ⟨0x40100, 0x1000000000000000000⟩

theorem State.tmrEvent_follows {p s0} {a0} {a1} (hp : Foot.le State.tmrEvent_foot p) (h0 : Follows p s0 a0) :
    Follows p s0 (State.tmrEvent (a0) (a1)) := by
  unfold State.tmrEvent
  split
  · refine State.yarn_follows (hp.sub rfl) ?_
    refine State.fire_follows (hp.sub rfl) ?_
    with_reducible assumption
  · refine State.tileYarn_follows (hp.sub rfl) ?_
    refine State.fireTile_follows (hp.sub rfl) ?_
    with_reducible assumption
  · refine State.yarn_follows (hp.sub rfl) ?_
    refine State.fire_follows (hp.sub rfl) ?_
    with_reducible assumption

def State.tmrLoad_foot : Foot := ⟨0x0, 0x3c00030000000000000000000000000000⟩

theorem State.tmrLoad_follows {p s0} {a0} {a1} (hp : Foot.le State.tmrLoad_foot p) (h0 : Follows p s0 a0) :
    Follows p s0 (State.tmrLoad (a0) (a1)) := by
  unfold State.tmrLoad
  extract_lets y0
  have k1 : Follows p s0 y0 := by
    subst y0
    refine State.setTmrCmp_follows (hp.sub rfl) ?_
    with_reducible assumption
  clear_value y0
  refine Follows.ite ?_ ?_
  · with_reducible assumption
  · refine State.setTmrCount_follows (hp.sub rfl) ?_
    with_reducible assumption

def State.tmrEdge_foot : Foot := ⟨0x0, 0x3c04030400000000000000000000000000⟩

theorem State.tmrEdge_follows {p s0} {a0} {a1} (hp : Foot.le State.tmrEdge_foot p) (h0 : Follows p s0 a0) :
    Follows p s0 (State.tmrEdge (a0) (a1)).1 := by
  unfold State.tmrEdge
  extract_lets y0 y1
  clear_value y0
  have k2 : Follows p s0 y1 := by
    subst y1
    refine State.tmrLoad_follows (hp.sub rfl) ?_
    with_reducible assumption
  clear_value y1
  refine Follows.ite1 ?_ ?_
  · refine Follows.ite1 ?_ ?_
    · refine Follows.pair ?_
      refine State.setTm_follows 106 122 hp ?_
      with_reducible assumption
    · with_reducible assumption
  · refine Follows.pair ?_
    refine State.setTmrCount_follows (hp.sub rfl) ?_
    with_reducible assumption

def State.tmrCountEdge_foot : Foot := ⟨0x40100, 0x13c040b0400000001000000000000000000⟩

theorem State.tmrCountEdge_follows {p s0} {a0} {a1} (hp : Foot.le State.tmrCountEdge_foot p) (h0 : Follows p s0 a0) :
    Follows p s0 (State.tmrCountEdge (a0) (a1)) := by
  unfold State.tmrCountEdge
  extract_lets y0 y1 y2
  have k3 : Follows p s0 y0 := by
    subst y0
    refine State.setTm_follows 115 136 hp ?_
    with_reducible assumption
  clear_value y0
  have k4 : Follows p s0 y1.1 := by
    subst y1
    refine State.tmrEdge_follows (hp.sub rfl) ?_
    with_reducible assumption
  clear_value y1
  clear_value y2
  refine Follows.ite ?_ ?_
  · refine State.tmrEvent_follows (hp.sub rfl) ?_
    with_reducible assumption
  · with_reducible assumption

def State.tmrNoClock_foot : Foot := ⟨0x0, 0x10000080000000000000000000000000000⟩

theorem State.tmrNoClock_follows {p s0} {a0} {a1} (hp : Foot.le State.tmrNoClock_foot p) (h0 : Follows p s0 a0) :
    Follows p s0 (State.tmrNoClock (a0) (a1)) := by
  unfold State.tmrNoClock
  refine Follows.ite ?_ ?_
  · with_reducible assumption
  · refine State.setTm_follows 115 136 hp ?_
    with_reducible assumption

def State.tmrTrigger_foot : Foot := ⟨0x0, 0x3c00030000000000000000000000000000⟩

theorem State.tmrTrigger_follows {p s0} {a0} {a1} (hp : Foot.le State.tmrTrigger_foot p) (h0 : Follows p s0 a0) :
    Follows p s0 (State.tmrTrigger (a0) (a1)) := by
  unfold State.tmrTrigger
  refine Follows.ite ?_ ?_
  · with_reducible assumption
  · refine State.tmrLoad_follows (hp.sub rfl) ?_
    with_reducible assumption

def State.tmrCapture_foot : Foot := ⟨0x0, 0x6c000340000000001000000000000000000⟩

theorem State.tmrCapture_follows {p s0} {a0} {a1} (hp : Foot.le State.tmrCapture_foot p) (h0 : Follows p s0 a0) :
    Follows p s0 (State.tmrCapture (a0) (a1)) := by
  unfold State.tmrCapture
  refine Follows.ite ?_ ?_
  · with_reducible assumption
  · refine Follows.ite ?_ ?_
    · extract_lets y0
      have k1 : Follows p s0 y0 := by
        subst y0
        refine State.setTm_follows 116 137 hp ?_
        with_reducible assumption
      clear_value y0
      split
      · with_reducible assumption
      · refine State.fire_follows (hp.sub rfl) ?_
        with_reducible assumption
    · refine State.setTm_follows 117 138 hp ?_
      refine State.setTmrCap_follows (hp.sub rfl) ?_
      with_reducible assumption

def State.tmrIdleEdge_foot : Foot := ⟨0x0, 0x10000080000000000000000000000000000⟩

theorem State.tmrIdleEdge_follows {p s0} {a0} {a1} (hp : Foot.le State.tmrIdleEdge_foot p) (h0 : Follows p s0 a0) :
    Follows p s0 (State.tmrIdleEdge (a0) (a1)) := by
  unfold State.tmrIdleEdge
  refine Follows.ite ?_ ?_
  · refine State.setTm_follows 115 136 hp ?_
    with_reducible assumption
  · with_reducible assumption

def State.tmrYarns_foot : Foot := ⟨0x40100, 0x7fc043f0400000001000000000000000000⟩

theorem State.tmrYarns_follows {p s0} {a0} {a1} {a2} (hp : Foot.le State.tmrYarns_foot p) (h0 : Follows p s0 a0) :
    Follows p s0 (State.tmrYarns (a0) (a1) (a2)) := by
  unfold State.tmrYarns
  extract_lets y0 y1
  have k2 : Follows p s0 y0 := by
    subst y0
    refine Follows.ite ?_ ?_
    · refine State.tmrCapture_follows (hp.sub rfl) ?_
      with_reducible assumption
    · with_reducible assumption
  clear_value y0
  have k3 : Follows p s0 y1 := by
    subst y1
    refine Follows.ite ?_ ?_
    · refine State.tmrCountEdge_follows (hp.sub rfl) ?_
      with_reducible assumption
    · with_reducible assumption
  clear_value y1
  refine Follows.ite ?_ ?_
  · refine State.tmrTrigger_follows (hp.sub rfl) ?_
    with_reducible assumption
  · with_reducible assumption

def State.tmrCtrlWrite_foot : Foot := ⟨0x0, 0x3c07c30780000000000000000000000000⟩

theorem State.tmrCtrlWrite_follows {p s0} {a0} {a1} {a2} (hp : Foot.le State.tmrCtrlWrite_foot p) (h0 : Follows p s0 a0) :
    Follows p s0 (State.tmrCtrlWrite (a0) (a1) (a2)).1 := by
  unfold State.tmrCtrlWrite
  extract_lets y0 y1 y2 y3 y4
  clear_value y0
  clear_value y1
  clear_value y2
  have k5 : Follows p s0 y3 := by
    subst y3
    split
    · refine State.set_follows 118 hp ?_
      with_reducible assumption
    · with_reducible assumption
  clear_value y3
  have k10 : Follows p s0 y4 := by
    subst y4
    refine State.setTm_follows 106 122 hp ?_
    refine State.setTm_follows 105 121 hp ?_
    refine State.setTm_follows 104 120 hp ?_
    refine State.setTm_follows 103 119 hp ?_
    with_reducible assumption
  clear_value y4
  refine Follows.ite1 ?_ ?_
  · with_reducible assumption
  · refine Follows.pair ?_
    refine Follows.ite ?_ ?_
    · refine State.tmrLoad_follows (hp.sub rfl) ?_
      with_reducible assumption
    · with_reducible assumption

def State.alarm_foot : Foot := ⟨0x40100, 0x4000000000001000000000000000000⟩

theorem State.alarm_follows {p s0} {a0} {a1} (hp : Foot.le State.alarm_foot p) (h0 : Follows p s0 a0) :
    Follows p s0 (State.alarm (a0) (a1)) := by
  unfold State.alarm
  refine Follows.ite ?_ ?_
  · with_reducible assumption
  · refine State.tmrEvent_follows (hp.sub rfl) ?_
    refine State.set_follows 122 hp ?_
    with_reducible assumption

def State.tsIn_foot : Foot := ⟨0x40010, 0xb4000000000000000000000780000000000000001000000000000000000⟩

theorem State.tsIn_follows {p s0} {a0} (hp : Foot.le State.tsIn_foot p) (h0 : Follows p s0 a0) :
    Follows p s0 (State.tsIn (a0)) := by
  unfold State.tsIn
  refine Follows.ite ?_ ?_
  · with_reducible assumption
  · extract_lets y0 y1 y2 y3
    clear_value y0
    have k4 : Follows p s0 y1 := by
      subst y1
      refine Follows.ite ?_ ?_
      · refine State.fire_follows (hp.sub rfl) ?_
        refine State.set_follows 141 hp ?_
        with_reducible assumption
      · with_reducible assumption
    clear_value y1
    have k5 : Follows p s0 y2 := by
      subst y2
      refine State.fire_follows (hp.sub rfl) ?_
      refine State.set_follows 142 hp ?_
      refine State.set_follows 140 hp ?_
      refine State.set_follows 139 hp ?_
      with_reducible assumption
    clear_value y2
    have k6 : Follows p s0 y3 := by
      subst y3
      refine State.yarn_follows (hp.sub rfl) ?_
      with_reducible assumption
    clear_value y3
    refine Follows.ite ?_ ?_
    · refine State.parentSample_follows (hp.sub rfl) ?_
      with_reducible assumption
    · with_reducible assumption

def State.tsOutRise_foot : Foot := ⟨0x40090, 0x1000000000000000000⟩

theorem State.tsOutRise_follows {p s0} {a0} (hp : Foot.le State.tsOutRise_foot p) (h0 : Follows p s0 a0) :
    Follows p s0 (State.tsOutRise (a0)) := by
  unfold State.tsOutRise
  refine Follows.ite ?_ ?_
  · with_reducible assumption
  · extract_lets y0 y1 y2
    clear_value y0
    have k3 : Follows p s0 y1 := by
      subst y1
      refine State.reach_follows (hp.sub rfl) ?_
      with_reducible assumption
    clear_value y1
    clear_value y2
    refine State.yarn_follows (hp.sub rfl) ?_
    refine State.fire_follows (hp.sub rfl) ?_
    refine Follows.update hp ?_ rfl rfl
    with_reducible assumption

def State.tsOutArm_foot : Foot := ⟨0x80, 0x0⟩

theorem State.tsOutArm_follows {p s0} {a0} (hp : Foot.le State.tsOutArm_foot p) (h0 : Follows p s0 a0) :
    Follows p s0 (State.tsOutArm (a0)) := by
  unfold State.tsOutArm
  refine Follows.update hp ?_ rfl rfl
  with_reducible assumption

def State.tsOutFall_foot : Foot := ⟨0x90, 0x0⟩

theorem State.tsOutFall_follows {p s0} {a0} (hp : Foot.le State.tsOutFall_foot p) (h0 : Follows p s0 a0) :
    Follows p s0 (State.tsOutFall (a0)) := by
  unfold State.tsOutFall
  refine Follows.ite ?_ ?_
  · extract_lets y0 y1
    have k2 : Follows p s0 y0 := by
      subst y0
      refine State.reach_follows (hp.sub rfl) ?_
      with_reducible assumption
    clear_value y0
    clear_value y1
    refine Follows.update hp ?_ rfl rfl
    with_reducible assumption
  · with_reducible assumption

def execTimerNoclk_foot : Foot := ⟨0x0, 0x10000080000000000000000000000000000⟩

theorem execTimerNoclk_follows {p s0} {a0} {a1} (hp : Foot.le execTimerNoclk_foot p) (h1 : Follows p s0 a1) :
    FollowsOut p s0 (execTimerNoclk (a0) (a1)) := by
  unfold execTimerNoclk
  refine FollowsOut.next ?_
  refine State.tmrNoClock_follows (hp.sub rfl) ?_
  with_reducible assumption

def execTimerWrap_foot : Foot := ⟨0x40100, 0x13c040b0400000001000000000000000000⟩

theorem execTimerWrap_follows {p s0} {a0} {a1} (hp : Foot.le execTimerWrap_foot p) (h1 : Follows p s0 a1) :
    FollowsOut p s0 (execTimerWrap (a0) (a1)) := by
  unfold execTimerWrap
  refine FollowsOut.next ?_
  refine Follows.ite ?_ ?_
  · refine State.tmrCountEdge_follows (hp.sub rfl) ?_
    with_reducible assumption
  · with_reducible assumption

def execTimerMatch_foot : Foot := ⟨0x40100, 0x13c040b0400000001000000000000000000⟩

theorem execTimerMatch_follows {p s0} {a0} {a1} (hp : Foot.le execTimerMatch_foot p) (h1 : Follows p s0 a1) :
    FollowsOut p s0 (execTimerMatch (a0) (a1)) := by
  unfold execTimerMatch
  refine FollowsOut.next ?_
  refine Follows.ite ?_ ?_
  · refine State.tmrCountEdge_follows (hp.sub rfl) ?_
    with_reducible assumption
  · with_reducible assumption

def execTimerCountedEdge_foot : Foot := ⟨0x40100, 0x13c040b0400000001000000000000000000⟩

theorem execTimerCountedEdge_follows {p s0} {a0} {a1} (hp : Foot.le execTimerCountedEdge_foot p) (h1 : Follows p s0 a1) :
    FollowsOut p s0 (execTimerCountedEdge (a0) (a1)) := by
  unfold execTimerCountedEdge
  refine FollowsOut.next ?_
  refine Follows.ite ?_ ?_
  · refine Follows.ite ?_ ?_
    · refine State.tmrCountEdge_follows (hp.sub rfl) ?_
      with_reducible assumption
    · with_reducible assumption
  · refine State.tmrIdleEdge_follows (hp.sub rfl) ?_
    with_reducible assumption

def execTimerTrigger_foot : Foot := ⟨0x0, 0x3c00030000000000000000000000000000⟩

theorem execTimerTrigger_follows {p s0} {a0} {a1} (hp : Foot.le execTimerTrigger_foot p) (h1 : Follows p s0 a1) :
    FollowsOut p s0 (execTimerTrigger (a0) (a1)) := by
  unfold execTimerTrigger
  refine FollowsOut.next ?_
  refine State.tmrTrigger_follows (hp.sub rfl) ?_
  with_reducible assumption

def execTimerCapture_foot : Foot := ⟨0x0, 0x6c000340000000001000000000000000000⟩

theorem execTimerCapture_follows {p s0} {a0} {a1} (hp : Foot.le execTimerCapture_foot p) (h1 : Follows p s0 a1) :
    FollowsOut p s0 (execTimerCapture (a0) (a1)) := by
  unfold execTimerCapture
  refine FollowsOut.next ?_
  refine State.tmrCapture_follows (hp.sub rfl) ?_
  with_reducible assumption

def execWideAlarm_foot : Foot := ⟨0x40100, 0x4000000000001000000000000000000⟩

theorem execWideAlarm_follows {p s0} {a0} {a1} (hp : Foot.le execWideAlarm_foot p) (h1 : Follows p s0 a1) :
    FollowsOut p s0 (execWideAlarm (a0) (a1)) := by
  unfold execWideAlarm
  refine FollowsOut.next ?_
  refine State.alarm_follows (hp.sub rfl) ?_
  with_reducible assumption

def execTsInEdge_foot : Foot := ⟨0x40010, 0xb4000000000000000000000780000000000000001000000000000000000⟩

theorem execTsInEdge_follows {p s0} {a0} (hp : Foot.le execTsInEdge_foot p) (h0 : Follows p s0 a0) :
    FollowsOut p s0 (execTsInEdge (a0)) := by
  unfold execTsInEdge
  refine FollowsOut.next ?_
  refine State.tsIn_follows (hp.sub rfl) ?_
  with_reducible assumption

def execTsOutPulse_foot : Foot := ⟨0x40090, 0x1000000000000000000⟩

theorem execTsOutPulse_follows {p s0} {a0} (hp : Foot.le execTsOutPulse_foot p) (h0 : Follows p s0 a0) :
    FollowsOut p s0 (execTsOutPulse (a0)) := by
  unfold execTsOutPulse
  refine FollowsOut.next ?_
  refine State.tsOutRise_follows (hp.sub rfl) ?_
  with_reducible assumption

def execTsOutPulseEnd_foot : Foot := ⟨0x90, 0x0⟩

theorem execTsOutPulseEnd_follows {p s0} {a0} (hp : Foot.le execTsOutPulseEnd_foot p) (h0 : Follows p s0 a0) :
    FollowsOut p s0 (execTsOutPulseEnd (a0)) := by
  unfold execTsOutPulseEnd
  refine FollowsOut.next ?_
  refine State.tsOutFall_follows (hp.sub rfl) ?_
  with_reducible assumption

/-! ### Machine/Irq.lean -/

def State.refreshIrqN_foot : Foot := ⟨0x80, 0x0⟩

theorem State.refreshIrqN_follows {p s0} {a0} (hp : Foot.le State.refreshIrqN_foot p) (h0 : Follows p s0 a0) :
    Follows p s0 (State.refreshIrqN (a0)) := by
  unfold State.refreshIrqN
  refine Follows.update hp ?_ rfl rfl
  with_reducible assumption

def State.irqDeliverOne_foot : Foot := ⟨0x80001, 0x3000000000000000000⟩

theorem State.irqDeliverOne_follows {p s0} {a0} {a1} (hp : Foot.le State.irqDeliverOne_foot p) (h0 : Follows p s0 a0) :
    Follows p s0 (State.irqDeliverOne (a0) (a1)) := by
  unfold State.irqDeliverOne
  extract_lets y0 y1
  have k2 : Follows p s0 y0 := by
    subst y0
    refine State.setBit_follows 73 hp ?_
    refine State.clrBit_follows 72 hp ?_
    with_reducible assumption
  clear_value y0
  clear_value y1
  split
  · refine Follows.update hp ?_ rfl rfl
    with_reducible assumption
  · refine Follows.update hp ?_ rfl rfl
    with_reducible assumption
  · refine Follows.update hp ?_ rfl rfl
    with_reducible assumption

def State.holdoff_foot : Foot := ⟨0x80000, 0x20000000000000000000⟩

theorem State.holdoff_follows {p s0} {a0} {a1} (hp : Foot.le State.holdoff_foot p) (h0 : Follows p s0 a0) :
    Follows p s0 (State.holdoff (a0) (a1)) := by
  unfold State.holdoff
  refine Follows.ite ?_ ?_
  · with_reducible assumption
  · extract_lets y0 y1
    have k2 : Follows p s0 y0 := by
      subst y0
      refine State.set_follows 77 hp ?_
      with_reducible assumption
    clear_value y0
    clear_value y1
    refine Follows.update hp ?_ rfl rfl
    with_reducible assumption

def State.startHoldoff_foot : Foot := ⟨0x80000, 0x20000000000000000000⟩

theorem State.startHoldoff_follows {p s0} {a0} {a1} (hp : Foot.le State.startHoldoff_foot p) (h0 : Follows p s0 a0) :
    Follows p s0 (State.startHoldoff (a0) (a1)) := by
  unfold State.startHoldoff
  refine Follows.foldl ?_ ?_
  · intro x0 x1 x2
    refine State.holdoff_follows (hp.sub rfl) ?_
    with_reducible assumption
  · with_reducible assumption

def State.holdoffEnd_foot : Foot := ⟨0x10, 0x20000000000000000000⟩

theorem State.holdoffEnd_follows {p s0} {a0} {a1} (hp : Foot.le State.holdoffEnd_foot p) (h0 : Follows p s0 a0) :
    Follows p s0 (State.holdoffEnd (a0) (a1)) := by
  unfold State.holdoffEnd
  refine Follows.ite ?_ ?_
  · refine State.set_follows 77 hp ?_
    refine State.reach_follows (hp.sub rfl) ?_
    with_reducible assumption
  · with_reducible assumption

def State.spansPause_foot : Foot := ⟨0x4080000, 0x0⟩

theorem State.spansPause_follows {p s0} {a0} (hp : Foot.le State.spansPause_foot p) (h0 : Follows p s0 a0) :
    Follows p s0 (State.spansPause (a0)) := by
  unfold State.spansPause
  extract_lets y0 y1 y2
  clear_value y0
  clear_value y1
  clear_value y2
  refine Follows.update hp ?_ rfl rfl
  with_reducible assumption

def State.spansResume_foot : Foot := ⟨0x4080000, 0x0⟩

theorem State.spansResume_follows {p s0} {a0} (hp : Foot.le State.spansResume_foot p) (h0 : Follows p s0 a0) :
    Follows p s0 (State.spansResume (a0)) := by
  unfold State.spansResume
  extract_lets y0 y1 y2
  clear_value y0
  clear_value y1
  clear_value y2
  refine Follows.update hp ?_ rfl rfl
  with_reducible assumption

def State.queueVectors_foot : Foot := ⟨0x80020, 0x4000000⟩

theorem State.queueVectors_follows {p s0} {a0} {a1} (hp : Foot.le State.queueVectors_foot p) (h0 : Follows p s0 a0) :
    Follows p s0 (State.queueVectors (a0) (a1)) := by
  unfold State.queueVectors
  refine Follows.ite ?_ ?_
  · with_reducible assumption
  · refine State.vote_follows (hp.sub rfl) ?_
    refine Follows.update hp ?_ rfl rfl
    with_reducible assumption

def State.irqDeliver_foot : Foot := ⟨0x800a1, 0x23000000000004000000⟩

theorem State.irqDeliver_follows {p s0} {a0} (hp : Foot.le State.irqDeliver_foot p) (h0 : Follows p s0 a0) :
    Follows p s0 (State.irqDeliver (a0)) := by
  unfold State.irqDeliver
  refine Follows.ite ?_ ?_
  · with_reducible assumption
  · extract_lets y0 y1 y2
    clear_value y0
    clear_value y1
    have k3 : Follows p s0 y2 := by
      subst y2
      refine Follows.foldl ?_ ?_
      · intro x4 x5 x6
        refine State.irqDeliverOne_follows (hp.sub rfl) ?_
        with_reducible assumption
      · with_reducible assumption
    clear_value y2
    refine State.refreshIrqN_follows (hp.sub rfl) ?_
    refine State.queueVectors_follows (hp.sub rfl) ?_
    refine State.startHoldoff_follows (hp.sub rfl) ?_
    with_reducible assumption

def State.irqEoi_foot : Foot := ⟨0x80080, 0x12000000000000000000⟩

theorem State.irqEoi_follows {p s0} {a0} {a1} (hp : Foot.le State.irqEoi_foot p) (h0 : Follows p s0 a0) :
    Follows p s0 (State.irqEoi (a0) (a1)) := by
  unfold State.irqEoi
  refine Follows.ite ?_ ?_
  · extract_lets y0 y1
    have k2 : Follows p s0 y0 := by
      subst y0
      refine State.clrBit_follows 73 hp ?_
      with_reducible assumption
    clear_value y0
    clear_value y1
    refine State.refreshIrqN_follows (hp.sub rfl) ?_
    refine Follows.update hp ?_ rfl rfl
    with_reducible assumption
  · refine State.bump_follows 76 hp ?_
    with_reducible assumption

def State.irqSet_foot : Foot := ⟨0x0, 0x1000000000000000000⟩

theorem State.irqSet_follows {p s0} {a0} {a1} (hp : Foot.le State.irqSet_foot p) (h0 : Follows p s0 a0) :
    Follows p s0 (State.irqSet (a0) (a1)) := by
  unfold State.irqSet
  refine State.setBit_follows 72 hp ?_
  with_reducible assumption

def State.irqPendClear_foot : Foot := ⟨0x1, 0x1000000000000000000⟩

theorem State.irqPendClear_follows {p s0} {a0} {a1} {a2} (hp : Foot.le State.irqPendClear_foot p) (h0 : Follows p s0 a0) :
    Follows p s0 (State.irqPendClear (a0) (a1) (a2)) := by
  unfold State.irqPendClear
  refine Follows.forBits ?_ ?_
  · intro x0 x1 x2
    refine State.clrBit_follows 72 hp ?_
    with_reducible assumption
  · with_reducible assumption

def State.latchesToPending_foot : Foot := ⟨0x100000, 0x1000000000000000000⟩

theorem State.latchesToPending_follows {p s0} {a0} (hp : Foot.le State.latchesToPending_foot p) (h0 : Follows p s0 a0) :
    Follows p s0 (State.latchesToPending (a0)) := by
  unfold State.latchesToPending
  extract_lets y0 y1
  have k2 : Follows p s0 y0 := by
    subst y0
    refine Follows.forBits ?_ ?_
    · intro x3 x4 x5
      refine State.irqSet_follows (hp.sub rfl) ?_
      with_reducible assumption
    · with_reducible assumption
  clear_value y0
  clear_value y1
  refine Follows.update hp ?_ rfl rfl
  with_reducible assumption

def execIrqDelivery_foot : Foot := ⟨0x800a1, 0x23000000000004000000⟩

theorem execIrqDelivery_follows {p s0} {a0} (hp : Foot.le execIrqDelivery_foot p) (h0 : Follows p s0 a0) :
    FollowsOut p s0 (execIrqDelivery (a0)) := by
  unfold execIrqDelivery
  refine FollowsOut.next ?_
  refine State.irqDeliver_follows (hp.sub rfl) ?_
  with_reducible assumption

def execHoldoffEnd_foot : Foot := ⟨0x10, 0x20000000000000000000⟩

theorem execHoldoffEnd_follows {p s0} {a0} {a1} (hp : Foot.le execHoldoffEnd_foot p) (h1 : Follows p s0 a1) :
    FollowsOut p s0 (execHoldoffEnd (a0) (a1)) := by
  unfold execHoldoffEnd
  refine FollowsOut.next ?_
  refine State.holdoffEnd_follows (hp.sub rfl) ?_
  with_reducible assumption

def execWakeNFall_foot : Foot := ⟨0x0, 0x1000000000000000000⟩

theorem execWakeNFall_follows {p s0} {a0} (hp : Foot.le execWakeNFall_foot p) (h0 : Follows p s0 a0) :
    FollowsOut p s0 (execWakeNFall (a0)) := by
  unfold execWakeNFall
  refine FollowsOut.next ?_
  refine Follows.ite ?_ ?_
  · with_reducible assumption
  · refine State.fire_follows (hp.sub rfl) ?_
    with_reducible assumption

def execPntSyncEdge_foot : Foot := ⟨0x0, 0x1000000000000000000⟩

theorem execPntSyncEdge_follows {p s0} {a0} (hp : Foot.le execPntSyncEdge_foot p) (h0 : Follows p s0 a0) :
    FollowsOut p s0 (execPntSyncEdge (a0)) := by
  unfold execPntSyncEdge
  refine FollowsOut.next ?_
  refine State.fire_follows (hp.sub rfl) ?_
  with_reducible assumption

/-! ### Machine/Sec.lean -/

def State.clearRows_foot : Foot := ⟨0x1fffffff, 0x0⟩

theorem State.clearRows_follows {p s0} {a0} {a1} {a2} (hp : Foot.le State.clearRows_foot p) (h0 : Follows p s0 a0) :
    Follows p s0 (State.clearRows (a0) (a1) (a2)) := by
  unfold State.clearRows
  refine Follows.updAll hp rfl ?_ rfl (.inr ⟨_, rfl⟩) (.inl rfl) (.inl rfl)
  with_reducible assumption

def State.keyLoad_foot : Foot := ⟨0x4000, 0x18180000000000000000000000000000000000000000⟩

theorem State.keyLoad_follows {p s0} {a0} {a1} {a2} (hp : Foot.le State.keyLoad_foot p) (h0 : Follows p s0 a0) :
    Follows p s0 (State.keyLoad (a0) (a1) (a2)) := by
  unfold State.keyLoad
  refine Follows.ite ?_ ?_
  · refine State.set_follows 172 hp ?_
    with_reducible assumption
  · extract_lets y0 y1 y2
    clear_value y0
    clear_value y1
    have k3 : Follows p s0 y2 := by
      subst y2
      refine Follows.update hp ?_ rfl rfl
      with_reducible assumption
    clear_value y2
    refine State.set_follows 171 hp ?_
    refine State.set_follows 164 hp ?_
    refine Follows.forAll ?_ ?_
    · intro x4 x5 x6
      refine State.set_follows 163 hp ?_
      with_reducible assumption
    · with_reducible assumption

def State.keyErase_foot : Foot := ⟨0x4000, 0x8000000000000000000000000000000000000000000⟩

theorem State.keyErase_follows {p s0} {a0} {a1} (hp : Foot.le State.keyErase_foot p) (h0 : Follows p s0 a0) :
    Follows p s0 (State.keyErase (a0) (a1)) := by
  unfold State.keyErase
  refine State.set_follows 171 hp ?_
  refine Follows.update hp ?_ rfl rfl
  with_reducible assumption

def State.keyCommand_foot : Foot := ⟨0x4000, 0x18180000000000000000000000000000000000000000⟩

theorem State.keyCommand_follows {p s0} {a0} {a1} (hp : Foot.le State.keyCommand_foot p) (h0 : Follows p s0 a0) :
    Follows p s0 (State.keyCommand (a0) (a1)).1 := by
  unfold State.keyCommand
  refine Follows.ite1 ?_ ?_
  · with_reducible assumption
  · split
    · refine Follows.pair ?_
      refine State.keyLoad_follows (hp.sub rfl) ?_
      with_reducible assumption
    · refine Follows.pair ?_
      refine State.keyErase_follows (hp.sub rfl) ?_
      with_reducible assumption
    · refine Follows.pair ?_
      refine State.set_follows 172 hp ?_
      with_reducible assumption

def State.emptySlot_foot : Foot := ⟨0x4000, 0x780000000000000000000000000000000000000000000⟩

theorem State.emptySlot_follows {p s0} {a0} {a1} (hp : Foot.le State.emptySlot_foot p) (h0 : Follows p s0 a0) :
    Follows p s0 (State.emptySlot (a0) (a1)) := by
  unfold State.emptySlot
  extract_lets y0 y1
  have k2 : Follows p s0 y0 := by
    subst y0
    refine State.set_follows 178 hp ?_
    refine State.set_follows 177 hp ?_
    refine State.set_follows 176 hp ?_
    refine State.set_follows 175 hp ?_
    with_reducible assumption
  clear_value y0
  clear_value y1
  refine Follows.update hp ?_ rfl rfl
  with_reducible assumption

def State.keyApply_foot : Foot := ⟨0x4000, 0x1800000000000000000000000000000000000000000000000000798000000000000000000000001000000000000000000⟩

theorem State.keyApply_follows {p s0} {a0} (hp : Foot.le State.keyApply_foot p) (h0 : Follows p s0 a0) :
    Follows p s0 (State.keyApply (a0)) := by
  unfold State.keyApply
  split
  · with_reducible assumption
  · refine Follows.ite ?_ ?_
    · with_reducible assumption
    · extract_lets y6 y7 y8 y9 y10
      have k11 : Follows p s0 y6 := by
        subst y6
        refine State.emptySlot_follows (hp.sub rfl) ?_
        with_reducible assumption
      clear_value y6
      clear_value y7
      have k12 : Follows p s0 y8 := by
        subst y8
        split
        · with_reducible assumption
        · extract_lets y18
          have k19 : Follows p s0 y18 := by
            subst y18
            refine Follows.update hp ?_ rfl rfl
            with_reducible assumption
          clear_value y18
          refine State.set_follows 175 hp ?_
          refine State.set_follows 177 hp ?_
          refine State.set_follows 176 hp ?_
          with_reducible assumption
      clear_value y8
      clear_value y9
      have k20 : Follows p s0 y10 := by
        subst y10
        refine Follows.update hp ?_ rfl rfl
        with_reducible assumption
      clear_value y10
      refine State.refreshSpent_follows (hp.sub rfl) ?_
      refine State.fire_follows (hp.sub rfl) ?_
      refine State.set_follows 172 hp ?_
      refine State.set_follows 171 hp ?_
      with_reducible assumption

def State.setRng_foot : Foot := ⟨0x0, 0x2800000000000000000000000000000000000000⟩

theorem State.setRng_follows {p s0} {a0} {a1} (hp : Foot.le State.setRng_foot p) (h0 : Follows p s0 a0) :
    Follows p s0 (State.setRng (a0) (a1)) := by
  unfold State.setRng
  refine State.refreshHold_follows (hp.sub rfl) ?_
  refine State.set_follows 157 hp ?_
  with_reducible assumption

def State.sourceStart_foot : Foot := ⟨0x4000, 0x2800000000000000000000000000000000000000⟩

theorem State.sourceStart_follows {p s0} {a0} (hp : Foot.le State.sourceStart_foot p) (h0 : Follows p s0 a0) :
    Follows p s0 (State.sourceStart (a0)) := by
  unfold State.sourceStart
  extract_lets y0 y1
  clear_value y0
  have k2 : Follows p s0 y1 := by
    subst y1
    refine Follows.update hp ?_ rfl rfl
    with_reducible assumption
  refine Follows.ite ?_ ?_
  · refine State.setRng_follows (hp.sub rfl) ?_
    with_reducible assumption
  · with_reducible assumption

def State.drbgZero_foot : Foot := ⟨0x4000, 0x0⟩

theorem State.drbgZero_follows {p s0} {a0} (hp : Foot.le State.drbgZero_foot p) (h0 : Follows p s0 a0) :
    Follows p s0 (State.drbgZero (a0)) := by
  unfold State.drbgZero
  refine Follows.update hp ?_ rfl rfl
  with_reducible assumption

def State.rngInstantiate_foot : Foot := ⟨0x4000, 0x2800000000000000000001000000000000000000⟩

theorem State.rngInstantiate_follows {p s0} {a0} (hp : Foot.le State.rngInstantiate_foot p) (h0 : Follows p s0 a0) :
    Follows p s0 (State.rngInstantiate (a0)) := by
  unfold State.rngInstantiate
  refine Follows.ite ?_ ?_
  · extract_lets y0 y1 y2
    clear_value y0
    have k3 : Follows p s0 y1 := by
      subst y1
      refine State.drbgZero_follows (hp.sub rfl) ?_
      with_reducible assumption
    clear_value y1
    clear_value y2
    refine State.fire_follows (hp.sub rfl) ?_
    refine State.setRng_follows (hp.sub rfl) ?_
    refine Follows.update hp ?_ rfl rfl
    with_reducible assumption
  · with_reducible assumption

def State.rngFail_foot : Foot := ⟨0x1fffffff, 0x0⟩

theorem State.rngFail_follows {p s0} {a0} {a1} (hp : Foot.le State.rngFail_foot p) (h0 : Follows p s0 a0) :
    Follows p s0 (State.rngFail (a0) (a1)) := by
  unfold State.rngFail
  extract_lets y0 y1 y2
  have k3 : Follows p s0 y0 := by
    subst y0
    refine State.drbgZero_follows (hp.sub rfl) ?_
    with_reducible assumption
  clear_value y0
  clear_value y1
  have k4 : Follows p s0 y2 := by
    subst y2
    refine State.setRng_follows (hp.sub rfl) ?_
    refine State.bump_follows 180 hp ?_
    refine Follows.update hp ?_ rfl rfl
    with_reducible assumption
  clear_value y2
  refine Follows.ite ?_ ?_
  · refine State.fire_follows (hp.sub rfl) ?_
    refine State.logHw_follows (hp.sub rfl) ?_
    with_reducible assumption
  · with_reducible assumption

def State.takeBit_foot : Foot := ⟨0x4000, 0x0⟩

theorem State.takeBit_follows {p s0} {a0} {a1} (hp : Foot.le State.takeBit_foot p) (h0 : Follows p s0 a0) :
    Follows p s0 (State.takeBit (a0) (a1)) := by
  unfold State.takeBit
  extract_lets y0 y1 y2 y3 y4
  clear_value y0
  clear_value y1
  clear_value y2
  clear_value y3
  clear_value y4
  refine Follows.update hp ?_ rfl rfl
  with_reducible assumption

def State.aonStart_foot : Foot := ⟨0x4000, 0x2800000000000000000000000000000000000000⟩

theorem State.aonStart_follows {p s0} {a0} (hp : Foot.le State.aonStart_foot p) (h0 : Follows p s0 a0) :
    Follows p s0 (State.aonStart (a0)) := by
  unfold State.aonStart
  refine Follows.ite ?_ ?_
  · refine State.sourceStart_follows (hp.sub rfl) ?_
    with_reducible assumption
  · with_reducible assumption

def State.entropyBit_foot : Foot := ⟨0x1fffffff, 0x0⟩

theorem State.entropyBit_follows {p s0} {a0} {a1} (hp : Foot.le State.entropyBit_foot p) (h0 : Follows p s0 a0) :
    Follows p s0 (State.entropyBit (a0) (a1)) := by
  unfold State.entropyBit
  extract_lets y0 y1 y2
  have k3 : Follows p s0 y0 := by
    subst y0
    refine State.aonStart_follows (hp.sub rfl) ?_
    with_reducible assumption
  clear_value y0
  have k4 : Follows p s0 y1 := by
    subst y1
    refine State.takeBit_follows (hp.sub rfl) ?_
    with_reducible assumption
  clear_value y1
  clear_value y2
  refine Follows.ite ?_ ?_
  · with_reducible assumption
  · refine Follows.ite ?_ ?_
    · refine State.rngFail_follows (hp.sub rfl) ?_
      with_reducible assumption
    · refine Follows.ite ?_ ?_
      · refine Follows.ite ?_ ?_
        · refine Follows.update hp ?_ rfl rfl
          with_reducible assumption
        · with_reducible assumption
      · refine State.rngInstantiate_follows (hp.sub rfl) ?_
        with_reducible assumption

def State.rngRestart_foot : Foot := ⟨0x4000, 0x2800000000000000000000000000000000000000⟩

theorem State.rngRestart_follows {p s0} {a0} (hp : Foot.le State.rngRestart_foot p) (h0 : Follows p s0 a0) :
    Follows p s0 (State.rngRestart (a0)) := by
  unfold State.rngRestart
  refine State.setRng_follows (hp.sub rfl) ?_
  refine State.sourceStart_follows (hp.sub rfl) ?_
  refine State.drbgZero_follows (hp.sub rfl) ?_
  with_reducible assumption

def State.rngOff_foot : Foot := ⟨0x4000, 0x2800000000000000000000000000000000000000⟩

theorem State.rngOff_follows {p s0} {a0} (hp : Foot.le State.rngOff_foot p) (h0 : Follows p s0 a0) :
    Follows p s0 (State.rngOff (a0)) := by
  unfold State.rngOff
  refine State.setRng_follows (hp.sub rfl) ?_
  extract_lets y0 y1
  have k2 : Follows p s0 y0 := by
    subst y0
    refine State.drbgZero_follows (hp.sub rfl) ?_
    with_reducible assumption
  clear_value y0
  clear_value y1
  refine Follows.update hp ?_ rfl rfl
  with_reducible assumption

def State.rngHold_foot : Foot := ⟨0x4000, 0x2800000000000000000000000000000000000000⟩

theorem State.rngHold_follows {p s0} {a0} (hp : Foot.le State.rngHold_foot p) (h0 : Follows p s0 a0) :
    Follows p s0 (State.rngHold (a0)) := by
  unfold State.rngHold
  refine Follows.ite ?_ ?_
  · extract_lets y0 y1
    have k2 : Follows p s0 y0 := by
      subst y0
      refine State.setRng_follows (hp.sub rfl) ?_
      with_reducible assumption
    clear_value y0
    clear_value y1
    refine Follows.update hp ?_ rfl rfl
    with_reducible assumption
  · with_reducible assumption

def State.rngResume_foot : Foot := ⟨0x4000, 0x2800000000000000000000000000000000000000⟩

theorem State.rngResume_follows {p s0} {a0} (hp : Foot.le State.rngResume_foot p) (h0 : Follows p s0 a0) :
    Follows p s0 (State.rngResume (a0)) := by
  unfold State.rngResume
  refine Follows.ite ?_ ?_
  · extract_lets y0 y1
    have k2 : Follows p s0 y0 := by
      subst y0
      refine State.sourceStart_follows (hp.sub rfl) ?_
      refine State.setRng_follows (hp.sub rfl) ?_
      with_reducible assumption
    clear_value y0
    clear_value y1
    refine Follows.update hp ?_ rfl rfl
    with_reducible assumption
  · with_reducible assumption

def State.rngRead_foot : Foot := ⟨0x4000, 0x0⟩

theorem State.rngRead_follows {p s0} {a0} (hp : Foot.le State.rngRead_foot p) (h0 : Follows p s0 a0) :
    Follows p s0 (State.rngRead (a0)).1 := by
  unfold State.rngRead
  refine Follows.ite1 ?_ ?_
  · refine Follows.pair ?_
    refine State.drbgRequest_follows (hp.sub rfl) ?_
    with_reducible assumption
  · with_reducible assumption

def State.seedLfsr_foot : Foot := ⟨0x4000, 0x0⟩

theorem State.seedLfsr_follows {p s0} {a0} (hp : Foot.le State.seedLfsr_foot p) (h0 : Follows p s0 a0) :
    Follows p s0 (State.seedLfsr (a0)) := by
  unfold State.seedLfsr
  refine Follows.update hp ?_ rfl rfl
  with_reducible assumption

def State.zeroiseKeys_foot : Foot := ⟨0x1fffffff, 0x0⟩

theorem State.zeroiseKeys_follows {p s0} {a0} (hp : Foot.le State.zeroiseKeys_foot p) (h0 : Follows p s0 a0) :
    Follows p s0 (State.zeroiseKeys (a0)) := by
  unfold State.zeroiseKeys
  extract_lets y0 y1
  clear_value y0
  have k2 : Follows p s0 y1 := by
    subst y1
    refine Follows.update hp ?_ rfl rfl
    with_reducible assumption
  clear_value y1
  refine State.set_follows 171 hp ?_
  refine State.clearRows_follows (hp.sub rfl) ?_
  with_reducible assumption

def State.vcoreLoss_foot : Foot := ⟨0x1fffffff, 0x0⟩

theorem State.vcoreLoss_follows {p s0} {a0} (hp : Foot.le State.vcoreLoss_foot p) (h0 : Follows p s0 a0) :
    Follows p s0 (State.vcoreLoss (a0)) := by
  unfold State.vcoreLoss
  extract_lets y0 y1
  clear_value y0
  have k2 : Follows p s0 y1 := by
    subst y1
    refine State.rngOff_follows (hp.sub rfl) ?_
    refine State.zeroiseKeys_follows (hp.sub rfl) ?_
    with_reducible assumption
  clear_value y1
  refine Follows.ite ?_ ?_
  · refine State.blackBoxOnly_follows (hp.sub rfl) ?_
    refine State.set_follows 605 hp ?_
    with_reducible assumption
  · with_reducible assumption

def State.otpStart_foot : Foot := ⟨0x4000, 0x400000000000000000000000000000000000000000000000000000000000000000000000000000000000000000000000000000000000000000000000000000000000000000000000000000000⟩

theorem State.otpStart_follows {p s0} {a0} {a1} (hp : Foot.le State.otpStart_foot p) (h0 : Follows p s0 a0) :
    Follows p s0 (State.otpStart (a0) (a1)).1 := by
  unfold State.otpStart
  extract_lets y0 y1
  clear_value y0
  clear_value y1
  refine Follows.ite1 ?_ ?_
  · with_reducible assumption
  · refine Follows.ite1 ?_ ?_
    · with_reducible assumption
    · refine Follows.pair ?_
      refine State.set_follows 610 hp ?_
      refine Follows.update hp ?_ rfl rfl
      with_reducible assumption

def State.otpDone_foot : Foot := ⟨0x4004, 0x600000000000000000000000000000000000000000000000000000000000000000000000000000000000000000000000000000000000000000000000000000000000001000000000000000000⟩

theorem State.otpDone_follows {p s0} {a0} {a1} (hp : Foot.le State.otpDone_foot p) (h0 : Follows p s0 a0) :
    Follows p s0 (State.otpDone (a0) (a1)) := by
  unfold State.otpDone
  split
  · with_reducible assumption
  · extract_lets y6 y7 y8 y9 y10
    clear_value y6
    clear_value y7
    clear_value y8
    clear_value y9
    have k11 : Follows p s0 y10 := by
      subst y10
      refine Follows.update hp ?_ rfl rfl
      with_reducible assumption
    clear_value y10
    refine State.fire_follows (hp.sub rfl) ?_
    refine State.set_follows 609 hp ?_
    refine State.set_follows 610 hp ?_
    refine State.setWord_follows (hp.sub rfl) ?_
    with_reducible assumption

def State.bellKeyWrite_foot : Foot := ⟨0x0, 0xc0000000000000000000000000000000000000000000000000000000000000000000000000000000000000000000000000000000000000000000000000000000000000000000000000000000⟩

theorem State.bellKeyWrite_follows {p s0} {a0} {a1} {a2} (hp : Foot.le State.bellKeyWrite_foot p) (h0 : Follows p s0 a0) :
    Follows p s0 (State.bellKeyWrite (a0) (a1) (a2)) := by
  unfold State.bellKeyWrite
  extract_lets y0
  have k1 : Follows p s0 y0 := by
    subst y0
    refine State.set_follows 606 hp ?_
    with_reducible assumption
  clear_value y0
  refine Follows.ite ?_ ?_
  · refine State.set_follows 607 hp ?_
    with_reducible assumption
  · with_reducible assumption

def execKeySlotApply_foot : Foot := ⟨0x4000, 0x1800000000000000000000000000000000000000000000000000798000000000000000000000001000000000000000000⟩

theorem execKeySlotApply_follows {p s0} {a0} (hp : Foot.le execKeySlotApply_foot p) (h0 : Follows p s0 a0) :
    FollowsOut p s0 (execKeySlotApply (a0)) := by
  unfold execKeySlotApply
  refine FollowsOut.next ?_
  refine State.keyApply_follows (hp.sub rfl) ?_
  with_reducible assumption

def execVcoreLoss_foot : Foot := ⟨0x1fffffff, 0x0⟩

theorem execVcoreLoss_follows {p s0} {a0} (hp : Foot.le execVcoreLoss_foot p) (h0 : Follows p s0 a0) :
    FollowsOut p s0 (execVcoreLoss (a0)) := by
  unfold execVcoreLoss
  refine FollowsOut.next ?_
  refine State.vcoreLoss_follows (hp.sub rfl) ?_
  with_reducible assumption

def execEntropyBit_foot : Foot := ⟨0x1fffffff, 0x0⟩

theorem execEntropyBit_follows {p s0} {a0} {a1} (hp : Foot.le execEntropyBit_foot p) (h1 : Follows p s0 a1) :
    FollowsOut p s0 (execEntropyBit (a0) (a1)) := by
  unfold execEntropyBit
  refine FollowsOut.next ?_
  refine State.entropyBit_follows (hp.sub rfl) ?_
  with_reducible assumption

def execOtpProgramDone_foot : Foot := ⟨0x4004, 0x600000000000000000000000000000000000000000000000000000000000000000000000000000000000000000000000000000000000000000000000000000000000001000000000000000000⟩

theorem execOtpProgramDone_follows {p s0} {a0} {a1} (hp : Foot.le execOtpProgramDone_foot p) (h1 : Follows p s0 a1) :
    FollowsOut p s0 (execOtpProgramDone (a0) (a1)) := by
  unfold execOtpProgramDone
  refine FollowsOut.next ?_
  refine State.otpDone_follows (hp.sub rfl) ?_
  with_reducible assumption

/-! ### Machine/Flash.lean -/

def State.cellFaults_foot : Foot := ⟨0x0, 0x7c0000000000000000000000000000000000000000000000000000000000000000000000000000000000000000000000000000000000000000000000000⟩

theorem State.cellFaults_follows {p s0} {a0} {a1} (hp : Foot.le State.cellFaults_foot p) (h0 : Follows p s0 a0) :
    Follows p s0 (State.cellFaults (a0) (a1)) := by
  unfold State.cellFaults
  extract_lets y0
  have k1 : Follows p s0 y0 := by
    subst y0
    refine State.add_follows 486 hp ?_
    with_reducible assumption
  clear_value y0
  refine State.set_follows 490 hp ?_
  refine State.set_follows 489 hp ?_
  refine State.set_follows 488 hp ?_
  refine State.set_follows 487 hp ?_
  with_reducible assumption

def State.senseConfirm_foot : Foot := ⟨0x1fffffff, 0x0⟩

theorem State.senseConfirm_follows {p s0} {a0} {a1} {a2} (hp : Foot.le State.senseConfirm_foot p) (h0 : Follows p s0 a0) :
    Follows p s0 (State.senseConfirm (a0) (a1) (a2)) := by
  unfold State.senseConfirm
  extract_lets y0 y1 y2
  clear_value y0
  clear_value y1
  have k3 : Follows p s0 y2 := by
    subst y2
    refine Follows.ite ?_ ?_
    · with_reducible assumption
    · refine State.set_follows 484 hp ?_
      refine State.set_follows 483 hp ?_
      refine State.set_follows 482 hp ?_
      refine State.set_follows 481 hp ?_
      with_reducible assumption
  clear_value y2
  refine Follows.ite ?_ ?_
  · refine State.cellFaults_follows (hp.sub rfl) ?_
    refine Follows.update hp ?_ rfl rfl
    with_reducible assumption
  · refine Follows.ite ?_ ?_
    · with_reducible assumption
    · refine State.logErr_follows (hp.sub rfl) ?_
      refine State.fire_follows (hp.sub rfl) ?_
      with_reducible assumption

def State.flashCorrected_foot : Foot := ⟨0x1fffffff, 0x0⟩

theorem State.flashCorrected_follows {p s0} {a0} {a1} {a2} {a3} (hp : Foot.le State.flashCorrected_foot p) (h0 : Follows p s0 a0) :
    Follows p s0 (State.flashCorrected (a0) (a1) (a2) (a3)) := by
  unfold State.flashCorrected
  extract_lets y0 y1 y2 y3 y4 y5 y6 y7
  have k8 : Follows p s0 y0 := by
    subst y0
    refine State.pmc_follows (hp.sub rfl) ?_
    refine State.bump_follows 485 hp ?_
    with_reducible assumption
  clear_value y0
  clear_value y1
  clear_value y2
  clear_value y3
  clear_value y4
  have k9 : Follows p s0 y5 := by
    subst y5
    refine Follows.update hp ?_ rfl rfl
    with_reducible assumption
  clear_value y5
  clear_value y6
  have k10 : Follows p s0 y7 := by
    subst y7
    split
    · refine State.cellFaults_follows (hp.sub rfl) ?_
      with_reducible assumption
    · with_reducible assumption
  clear_value y7
  split
  · refine Follows.ite ?_ ?_
    · refine State.senseConfirm_follows (hp.sub rfl) ?_
      with_reducible assumption
    · with_reducible assumption
  · with_reducible assumption

def State.flashUncorrectable_foot : Foot := ⟨0x1fffffff, 0x0⟩

theorem State.flashUncorrectable_follows {p s0} {a0} {a1} {a2} {a3} {a4} {a5} (hp : Foot.le State.flashUncorrectable_foot p) (h0 : Follows p s0 a0) :
    Follows p s0 (State.flashUncorrectable (a0) (a1) (a2) (a3) (a4) (a5)) := by
  unfold State.flashUncorrectable
  refine State.logErr_follows (hp.sub rfl) ?_
  with_reducible assumption

def State.flashSeen_foot : Foot := ⟨0x1fffffff, 0x0⟩

theorem State.flashSeen_follows {p s0} {a0} {a1} {a2} {a3} {a4} (hp : Foot.le State.flashSeen_foot p) (h0 : Follows p s0 a0) :
    Follows p s0 (State.flashSeen (a0) (a1) (a2) (a3) (a4)) := by
  unfold State.flashSeen
  split
  · with_reducible assumption
  · refine State.flashCorrected_follows (hp.sub rfl) ?_
    with_reducible assumption
  · refine State.flashUncorrectable_follows (hp.sub rfl) ?_
    with_reducible assumption

def State.flashReadBank_foot : Foot := ⟨0x1fffffff, 0x0⟩

theorem State.flashReadBank_follows {p s0} {a0} {a1} {a2} {a3} {a4} {a5} (hp : Foot.le State.flashReadBank_foot p) (h0 : Follows p s0 a0) :
    Follows p s0 (State.flashReadBank (a0) (a1) (a2) (a3) (a4) (a5)).1 := by
  unfold State.flashReadBank
  extract_lets y0 y1 y2 y3 y4
  clear_value y0
  clear_value y1
  clear_value y2
  clear_value y3
  have k5 : Follows p s0 y4 := by
    subst y4
    refine Follows.foldl ?_ ?_
    · intro x6 x7 x8
      refine State.flashSeen_follows (hp.sub rfl) ?_
      with_reducible assumption
    · with_reducible assumption
  clear_value y4
  refine Follows.ite1 ?_ ?_
  · with_reducible assumption
  · refine Follows.pair ?_
    refine Follows.update hp ?_ rfl rfl
    with_reducible assumption

def State.flashRead_foot : Foot := ⟨0x1fffffff, 0x0⟩

theorem State.flashRead_follows {p s0} {a0} {a1} {a2} {a3} {a4} {a5} (hp : Foot.le State.flashRead_foot p) (h0 : Follows p s0 a0) :
    Follows p s0 (State.flashRead (a0) (a1) (a2) (a3) (a4) (a5)).1 := by
  unfold State.flashRead
  extract_lets y0 y1 y2
  clear_value y0
  have k3 : Follows p s0 y1.1 := by
    subst y1
    refine State.flashReadBank_follows (hp.sub rfl) ?_
    with_reducible assumption
  clear_value y1
  have k4 : Follows p s0 y2.1 := by
    subst y2
    refine State.flashReadBank_follows (hp.sub rfl) ?_
    with_reducible assumption
  clear_value y2
  refine Follows.ite1 ?_ ?_
  · refine State.flashReadBank_follows (hp.sub rfl) ?_
    with_reducible assumption
  · with_reducible assumption

def State.refreshFlashVote_foot : Foot := ⟨0x20, 0x4000000⟩

theorem State.refreshFlashVote_follows {p s0} {a0} (hp : Foot.le State.refreshFlashVote_foot p) (h0 : Follows p s0 a0) :
    Follows p s0 (State.refreshFlashVote (a0)) := by
  unfold State.refreshFlashVote
  extract_lets y0
  clear_value y0
  refine Follows.ite ?_ ?_
  · with_reducible assumption
  · refine State.putVote_follows (hp.sub rfl) ?_
    with_reducible assumption

def State.seqEnd_foot : Foot := ⟨0x800020, 0x18000000000000000000000000000000000000000000000000000000000000000000000000000000000000000000000000000000000004000000⟩

theorem State.seqEnd_follows {p s0} {a0} {a1} {a2} (hp : Foot.le State.seqEnd_foot p) (h0 : Follows p s0 a0) :
    Follows p s0 (State.seqEnd (a0) (a1) (a2)) := by
  unfold State.seqEnd
  extract_lets y0
  have k1 : Follows p s0 y0 := by
    subst y0
    refine State.updFbank_follows (hp.sub rfl) ?_
    with_reducible assumption
  clear_value y0
  refine State.refreshFlashVote_follows (hp.sub rfl) ?_
  refine Follows.ite ?_ ?_
  · with_reducible assumption
  · refine State.set_follows 460 hp ?_
    refine State.set_follows 459 hp ?_
    with_reducible assumption

def State.holdupFor_foot : Foot := ⟨0x0, 0x70000000000000000000000000000000000000000000000000000000000000000000000000000000000000000000000000001000000000000000000⟩

theorem State.holdupFor_follows {p s0} {a0} {a1} {a2} (hp : Foot.le State.holdupFor_foot p) (h0 : Follows p s0 a0) :
    Follows p s0 (State.holdupFor (a0) (a1) (a2)).1 := by
  unfold State.holdupFor
  refine Follows.ite1 ?_ ?_
  · with_reducible assumption
  · extract_lets y0 y1 y2 y3 y4 y5
    clear_value y0
    clear_value y1
    clear_value y2
    clear_value y3
    have k6 : Follows p s0 y4 := by
      subst y4
      refine State.set_follows 473 hp ?_
      refine State.set_follows 472 hp ?_
      with_reducible assumption
    clear_value y4
    clear_value y5
    refine Follows.pair ?_
    refine Follows.ite ?_ ?_
    · with_reducible assumption
    · refine State.bump_follows 474 hp ?_
      refine State.fire_follows (hp.sub rfl) ?_
      with_reducible assumption

def State.holdupCheck_foot : Foot := ⟨0x0, 0x70000000000000000000000000000000000000000000000000000000000000000000000000000000000000000000000000001000000000000000000⟩

theorem State.holdupCheck_follows {p s0} {a0} {a1} {a2} (hp : Foot.le State.holdupCheck_foot p) (h0 : Follows p s0 a0) :
    Follows p s0 (State.holdupCheck (a0) (a1) (a2)).1 := by
  unfold State.holdupCheck
  refine State.holdupFor_follows (hp.sub rfl) ?_
  with_reducible assumption

def State.noteOp_foot : Foot := ⟨0x0, 0x7800000000000000000000000000000000000000000000000000000000000000000000000000000000000000000000000000000000000000000000000000000000000000000000000000000⟩

theorem State.noteOp_follows {p s0} {a0} {a1} {a2} {a3} {a4} (hp : Foot.le State.noteOp_foot p) (h0 : Follows p s0 a0) :
    Follows p s0 (State.noteOp (a0) (a1) (a2) (a3) (a4)) := by
  unfold State.noteOp
  refine State.set_follows 602 hp ?_
  refine State.set_follows 601 hp ?_
  refine State.set_follows 600 hp ?_
  refine State.set_follows 599 hp ?_
  with_reducible assumption

def State.opStart_foot : Foot := ⟨0x800020, 0x780000000000000000000000000000000007e800000000000000000000000000000000000000000000000000000000000000000000000000000000000000000000000000000000004000000⟩

theorem State.opStart_follows {p s0} {a0} {a1} {a2} {a3} {a4} {a5} (hp : Foot.le State.opStart_foot p) (h0 : Follows p s0 a0) :
    Follows p s0 (State.opStart (a0) (a1) (a2) (a3) (a4) (a5)) := by
  unfold State.opStart
  extract_lets y0 y1 y2
  have k3 : Follows p s0 y0 := by
    subst y0
    refine State.updFbank_follows (hp.sub rfl) ?_
    with_reducible assumption
  clear_value y0
  have k4 : Follows p s0 y1 := by
    subst y1
    refine State.setBit_follows 455 hp ?_
    refine State.set_follows 462 hp ?_
    refine State.set_follows 461 hp ?_
    refine State.set_follows 457 hp ?_
    with_reducible assumption
  clear_value y1
  have k5 : Follows p s0 y2 := by
    subst y2
    refine State.set_follows 458 hp ?_
    refine State.set_follows 460 hp ?_
    refine State.set_follows 459 hp ?_
    with_reducible assumption
  clear_value y2
  refine State.refreshFlashVote_follows (hp.sub rfl) ?_
  refine State.noteOp_follows (hp.sub rfl) ?_
  with_reducible assumption

def State.opOver_foot : Foot := ⟨0x800000, 0x2800000000000000000000000000000000000000000000000000000000000000000000000000000000000000000000000000000000000000000⟩

theorem State.opOver_follows {p s0} {a0} {a1} (hp : Foot.le State.opOver_foot p) (h0 : Follows p s0 a0) :
    Follows p s0 (State.opOver (a0) (a1)) := by
  unfold State.opOver
  extract_lets y0
  have k1 : Follows p s0 y0 := by
    subst y0
    refine State.updFbank_follows (hp.sub rfl) ?_
    with_reducible assumption
  clear_value y0
  refine State.clrBit_follows 455 hp ?_
  refine State.set_follows 457 hp ?_
  with_reducible assumption

def State.opAbort_foot : Foot := ⟨0x800000, 0x300000001a800000000000000000000000000000000000000000000000000000000000000000000000000000000000000000000000000000000000000000⟩

theorem State.opAbort_follows {p s0} {a0} {a1} (hp : Foot.le State.opAbort_foot p) (h0 : Follows p s0 a0) :
    Follows p s0 (State.opAbort (a0) (a1)) := by
  unfold State.opAbort
  extract_lets y0 y1 y2 y3
  clear_value y0
  clear_value y1
  have k4 : Follows p s0 y2 := by
    subst y2
    refine Follows.update hp ?_ rfl rfl
    with_reducible assumption
  clear_value y2
  have k5 : Follows p s0 y3 := by
    subst y3
    refine Follows.ite ?_ ?_
    · refine State.set_follows 493 hp ?_
      refine State.set_follows 492 hp ?_
      with_reducible assumption
    · with_reducible assumption
  clear_value y3
  refine Follows.ite ?_ ?_
  · with_reducible assumption
  · refine State.set_follows 459 hp ?_
    refine State.set_follows 460 hp ?_
    refine State.opOver_follows (hp.sub rfl) ?_
    with_reducible assumption

def State.programStart_foot : Foot := ⟨0x800020, 0x780000000000000000000000000000007007e800000000000000000000000000000000000000000000000000000000000000000000000000000000000000000000001000000000004000000⟩

theorem State.programStart_follows {p s0} {a0} {a1} {a2} {a3} (hp : Foot.le State.programStart_foot p) (h0 : Follows p s0 a0) :
    Follows p s0 (State.programStart (a0) (a1) (a2) (a3)) := by
  unfold State.programStart
  refine Follows.ite ?_ ?_
  · refine State.seqEnd_follows (hp.sub rfl) ?_
    with_reducible assumption
  · extract_lets y0
    have k1 : Follows p s0 y0.1 := by
      subst y0
      refine State.holdupCheck_follows (hp.sub rfl) ?_
      with_reducible assumption
    clear_value y0
    refine Follows.ite ?_ ?_
    · refine State.seqEnd_follows (hp.sub rfl) ?_
      with_reducible assumption
    · refine State.opStart_follows (hp.sub rfl) ?_
      refine State.updFbank_follows (hp.sub rfl) ?_
      with_reducible assumption

def State.flashCommand_foot : Foot := ⟨0x800020, 0x780000000000000000000000000000007007e800000000000000000000000000000000000000000000000000000000000000000000000000000000000000000000001000000000004000000⟩

theorem State.flashCommand_follows {p s0} {a0} {a1} {a2} {a3} (hp : Foot.le State.flashCommand_foot p) (h0 : Follows p s0 a0) :
    Follows p s0 (State.flashCommand (a0) (a1) (a2) (a3)) := by
  unfold State.flashCommand
  extract_lets y0 y1 y2
  clear_value y0
  have k3 : Follows p s0 y1 := by
    subst y1
    refine Follows.ite ?_ ?_
    · with_reducible assumption
    · refine State.set_follows 462 hp ?_
      with_reducible assumption
  clear_value y1
  have k4 : Follows p s0 y2.1 := by
    subst y2
    refine State.holdupCheck_follows (hp.sub rfl) ?_
    with_reducible assumption
  clear_value y2
  refine Follows.ite ?_ ?_
  · refine State.seqEnd_follows (hp.sub rfl) ?_
    with_reducible assumption
  · refine Follows.ite ?_ ?_
    · refine State.seqEnd_follows (hp.sub rfl) ?_
      refine State.fire_follows (hp.sub rfl) ?_
      with_reducible assumption
    · refine Follows.ite ?_ ?_
      · refine State.seqEnd_follows (hp.sub rfl) ?_
        with_reducible assumption
      · refine Follows.ite ?_ ?_
        · refine State.updFbank_follows (hp.sub rfl) ?_
          with_reducible assumption
        · refine Follows.ite ?_ ?_
          · refine State.seqEnd_follows (hp.sub rfl) ?_
            with_reducible assumption
          · refine State.opStart_follows (hp.sub rfl) ?_
            with_reducible assumption

def State.bufferWrite_foot : Foot := ⟨0x800020, 0x780000000000000000000000000000007007e800000000000000000000000000000000000000000000000000000000000000000000000000000000000000000000001000000000004000000⟩

theorem State.bufferWrite_follows {p s0} {a0} {a1} {a2} {a3} (hp : Foot.le State.bufferWrite_foot p) (h0 : Follows p s0 a0) :
    Follows p s0 (State.bufferWrite (a0) (a1) (a2) (a3)) := by
  unfold State.bufferWrite
  extract_lets y0 y1 y2 y3
  clear_value y0
  clear_value y1
  clear_value y2
  clear_value y3
  refine Follows.ite ?_ ?_
  · refine State.seqEnd_follows (hp.sub rfl) ?_
    with_reducible assumption
  · refine Follows.ite ?_ ?_
    · refine State.programStart_follows (hp.sub rfl) ?_
      with_reducible assumption
    · refine State.updFbank_follows (hp.sub rfl) ?_
      with_reducible assumption

def State.flashStray_foot : Foot := ⟨0x0, 0x600000000000000000000000000000000000000000000000000000000000000000000000000000000000000000000000001000000000000000000⟩

theorem State.flashStray_follows {p s0} {a0} {a1} (hp : Foot.le State.flashStray_foot p) (h0 : Follows p s0 a0) :
    Follows p s0 (State.flashStray (a0) (a1)).1 := by
  unfold State.flashStray
  refine Follows.ite1 ?_ ?_
  · refine Follows.pair ?_
    refine State.fire_follows (hp.sub rfl) ?_
    refine State.bump_follows 466 hp ?_
    with_reducible assumption
  · refine Follows.pair ?_
    refine State.bump_follows 465 hp ?_
    with_reducible assumption

def State.flashThird_foot : Foot := ⟨0x800020, 0x78000000000000000000000000030000700fe800000000000000000000000000000000000000000000000000000000000000000000000000000000000000000000001000000000004000000⟩

theorem State.flashThird_follows {p s0} {a0} {a1} {a2} {a3} (hp : Foot.le State.flashThird_foot p) (h0 : Follows p s0 a0) :
    Follows p s0 (State.flashThird (a0) (a1) (a2) (a3)).1 := by
  unfold State.flashThird
  extract_lets y0 y1 y2 y3
  clear_value y0
  clear_value y1
  clear_value y2
  have k4 : Follows p s0 y3 := by
    subst y3
    refine State.set_follows 463 hp ?_
    refine State.seqEnd_follows (hp.sub rfl) ?_
    with_reducible assumption
  clear_value y3
  refine Follows.ite1 ?_ ?_
  · refine Follows.ite1 ?_ ?_
    · refine Follows.pair ?_
      refine State.seqEnd_follows (hp.sub rfl) ?_
      with_reducible assumption
    · refine Follows.ite1 ?_ ?_
      · refine Follows.pair ?_
        refine State.seqEnd_follows (hp.sub rfl) ?_
        with_reducible assumption
      · refine Follows.pair ?_
        refine State.flashCommand_follows (hp.sub rfl) ?_
        refine State.set_follows 463 hp ?_
        refine State.updFbank_follows (hp.sub rfl) ?_
        with_reducible assumption
  · refine Follows.ite1 ?_ ?_
    · refine Follows.pair ?_
      refine State.seqEnd_follows (hp.sub rfl) ?_
      with_reducible assumption
    · split
      · refine Follows.pair ?_
        refine State.set_follows 463 hp ?_
        refine State.seqEnd_follows (hp.sub rfl) ?_
        with_reducible assumption
      · refine Follows.pair ?_
        refine State.set_follows 463 hp ?_
        refine State.seqEnd_follows (hp.sub rfl) ?_
        with_reducible assumption
      · refine Follows.pair ?_
        refine Follows.ite ?_ ?_
        · refine State.refreshFlashVote_follows (hp.sub rfl) ?_
          refine State.noteOp_follows (hp.sub rfl) ?_
          refine State.opAbort_follows (hp.sub rfl) ?_
          with_reducible assumption
        · with_reducible assumption
      · refine Follows.pair ?_
        refine State.seqEnd_follows (hp.sub rfl) ?_
        with_reducible assumption

def State.flashLate_foot : Foot := ⟨0x800020, 0x18000000000000000000000000000000000000000000000000000000000000000000000000000000000000000000000000000000000004000000⟩

theorem State.flashLate_follows {p s0} {a0} {a1} (hp : Foot.le State.flashLate_foot p) (h0 : Follows p s0 a0) :
    Follows p s0 (State.flashLate (a0) (a1)) := by
  unfold State.flashLate
  extract_lets y0
  clear_value y0
  refine Follows.ite ?_ ?_
  · refine State.seqEnd_follows (hp.sub rfl) ?_
    with_reducible assumption
  · with_reducible assumption

def State.flashWrite_foot : Foot := ⟨0x800020, 0x78000000000000000000000000030000706fe800000000000000000000000000000000000000000000000000000000000000000000000000000000000000000000001000000000004000000⟩

theorem State.flashWrite_follows {p s0} {a0} {a1} {a2} {a3} (hp : Foot.le State.flashWrite_foot p) (h0 : Follows p s0 a0) :
    Follows p s0 (State.flashWrite (a0) (a1) (a2) (a3)).1 := by
  unfold State.flashWrite
  extract_lets y0 y1 y2 y3 y4 y5 y6
  clear_value y0
  have k7 : Follows p s0 y1 := by
    subst y1
    refine State.flashLate_follows (hp.sub rfl) ?_
    with_reducible assumption
  clear_value y1
  clear_value y2
  clear_value y3
  clear_value y4
  clear_value y5
  have k8 : Follows p s0 y6 := by
    subst y6
    refine Follows.ite ?_ ?_
    · refine State.updFbank_follows (hp.sub rfl) ?_
      with_reducible assumption
    · with_reducible assumption
  clear_value y6
  refine Follows.ite1 ?_ ?_
  · refine Follows.pair ?_
    refine State.bump_follows 465 hp ?_
    with_reducible assumption
  · split
    · refine Follows.pair ?_
      refine Follows.ite ?_ ?_
      · refine State.updFbank_follows (hp.sub rfl) ?_
        with_reducible assumption
      · refine State.seqEnd_follows (hp.sub rfl) ?_
        with_reducible assumption
    · refine Follows.ite1 ?_ ?_
      · refine State.flashThird_follows (hp.sub rfl) ?_
        with_reducible assumption
      · refine Follows.pair ?_
        refine State.seqEnd_follows (hp.sub rfl) ?_
        with_reducible assumption
    · refine Follows.ite1 ?_ ?_
      · refine Follows.pair ?_
        refine State.updFbank_follows (hp.sub rfl) ?_
        with_reducible assumption
      · refine Follows.pair ?_
        refine State.bufferWrite_follows (hp.sub rfl) ?_
        with_reducible assumption
    · refine Follows.ite1 ?_ ?_
      · refine Follows.pair ?_
        refine State.refreshFlashVote_follows (hp.sub rfl) ?_
        refine State.updFbank_follows (hp.sub rfl) ?_
        with_reducible assumption
      · refine Follows.pair ?_
        refine State.flashStray_follows (hp.sub rfl) ?_
        with_reducible assumption

def State.flashTimeout_foot : Foot := ⟨0x800030, 0x18000000000000000000000000000000000000000000000000000000000000000000000000000000000000000000000000000000000004000000⟩

theorem State.flashTimeout_follows {p s0} {a0} {a1} (hp : Foot.le State.flashTimeout_foot p) (h0 : Follows p s0 a0) :
    Follows p s0 (State.flashTimeout (a0) (a1)) := by
  unfold State.flashTimeout
  extract_lets y0
  clear_value y0
  refine Follows.ite ?_ ?_
  · refine State.seqEnd_follows (hp.sub rfl) ?_
    refine State.reach_follows (hp.sub rfl) ?_
    with_reducible assumption
  · with_reducible assumption

def State.applyProgram_foot : Foot := ⟨0x4, 0x0⟩

theorem State.applyProgram_follows {p s0} {a0} {a1} {a2} (hp : Foot.le State.applyProgram_foot p) (h0 : Follows p s0 a0) :
    Follows p s0 (State.applyProgram (a0) (a1) (a2)) := by
  unfold State.applyProgram
  extract_lets y0
  clear_value y0
  refine Follows.foldl ?_ ?_
  · intro x1 x2 x3
    refine State.setByte_follows hp ?_
    with_reducible assumption
  · with_reducible assumption

def State.applyErase_foot : Foot := ⟨0x800004, 0x0⟩

theorem State.applyErase_follows {p s0} {a0} {a1} (hp : Foot.le State.applyErase_foot p) (h0 : Follows p s0 a0) :
    Follows p s0 (State.applyErase (a0) (a1)) := by
  unfold State.applyErase
  extract_lets y0 y1 y2 y3
  have k4 : Follows p s0 y0 := by
    subst y0
    refine Follows.update hp ?_ rfl rfl
    with_reducible assumption
  clear_value y0
  clear_value y1
  clear_value y2
  clear_value y3
  refine Follows.update hp ?_ rfl rfl
  with_reducible assumption

def State.applyFill_foot : Foot := ⟨0x0, 0x13004000000000000000000000000000000000000000000000000000000000000000000000000000000000000000000000000000000000000000000000000⟩

theorem State.applyFill_follows {p s0} {a0} {a1} {a2} {a3} (hp : Foot.le State.applyFill_foot p) (h0 : Follows p s0 a0) :
    Follows p s0 (State.applyFill (a0) (a1) (a2) (a3)) := by
  unfold State.applyFill
  extract_lets y0
  have k1 : Follows p s0 y0 := by
    subst y0
    refine State.set_follows 496 hp ?_
    refine State.set_follows 493 hp ?_
    refine State.set_follows 492 hp ?_
    with_reducible assumption
  clear_value y0
  refine Follows.ite ?_ ?_
  · refine State.set_follows 482 hp ?_
    with_reducible assumption
  · with_reducible assumption

def State.flashOpDone_foot : Foot := ⟨0x800024, 0x7800000000000000000000000013004000106800000000000000000000000000000000000000000000000000000000000000000000000000000000000000000000001000000000004000000⟩

theorem State.flashOpDone_follows {p s0} {a0} {a1} {a2} {a3} (hp : Foot.le State.flashOpDone_foot p) (h0 : Follows p s0 a0) :
    Follows p s0 (State.flashOpDone (a0) (a1) (a2) (a3)) := by
  unfold State.flashOpDone
  extract_lets y0 y1 y2 y3 y4
  clear_value y0
  have k5 : Follows p s0 y1 := by
    subst y1
    refine Follows.ite ?_ ?_
    · refine State.applyProgram_follows (hp.sub rfl) ?_
      with_reducible assumption
    · refine Follows.ite ?_ ?_
      · refine State.applyErase_follows (hp.sub rfl) ?_
        with_reducible assumption
      · refine State.applyFill_follows (hp.sub rfl) ?_
        with_reducible assumption
  clear_value y1
  clear_value y2
  have k6 : Follows p s0 y3 := by
    subst y3
    refine Follows.ite ?_ ?_
    · refine Follows.update hp ?_ rfl rfl
      with_reducible assumption
    · with_reducible assumption
  clear_value y3
  have k7 : Follows p s0 y4 := by
    subst y4
    refine State.set_follows 458 hp ?_
    refine State.opOver_follows (hp.sub rfl) ?_
    with_reducible assumption
  clear_value y4
  refine Follows.ite ?_ ?_
  · with_reducible assumption
  · refine State.refreshFlashVote_follows (hp.sub rfl) ?_
    refine State.fire_follows (hp.sub rfl) ?_
    refine State.noteOp_follows (hp.sub rfl) ?_
    refine State.bumpWrap_follows 464 hp ?_
    with_reducible assumption

def State.spareWrite_foot : Foot := ⟨0x800020, 0x780000000000000000000000000f80007007e800000000000000000000000000000000000000000000000000000000000000000000000000000000000000000000001000000000004000000⟩

theorem State.spareWrite_follows {p s0} {a0} {a1} {a2} (hp : Foot.le State.spareWrite_foot p) (h0 : Follows p s0 a0) :
    Follows p s0 (State.spareWrite (a0) (a1) (a2)).1 := by
  unfold State.spareWrite
  refine Follows.ite1 ?_ ?_
  · with_reducible assumption
  · extract_lets y0 y1 y2
    clear_value y0
    have k3 : Follows p s0 y1 := by
      subst y1
      refine State.set_follows 495 hp ?_
      refine State.set_follows 494 hp ?_
      refine State.set_follows 491 hp ?_
      with_reducible assumption
    clear_value y1
    have k4 : Follows p s0 y2.1 := by
      subst y2
      refine State.holdupCheck_follows (hp.sub rfl) ?_
      with_reducible assumption
    clear_value y2
    refine Follows.ite1 ?_ ?_
    · with_reducible assumption
    · refine Follows.ite1 ?_ ?_
      · refine Follows.pair ?_
        refine State.set_follows 460 hp ?_
        refine State.set_follows 459 hp ?_
        with_reducible assumption
      · refine Follows.ite1 ?_ ?_
        · refine Follows.pair ?_
          refine State.set_follows 460 hp ?_
          refine State.set_follows 459 hp ?_
          with_reducible assumption
        · refine Follows.pair ?_
          refine State.opStart_follows (hp.sub rfl) ?_
          refine State.set_follows 493 hp ?_
          refine State.set_follows 492 hp ?_
          with_reducible assumption

def State.flashStop_foot : Foot := ⟨0x800020, 0x300000009a800000000000000000000000000000000000000000000000000000000000000000000000000000000000000000000000000000000004000000⟩

theorem State.flashStop_follows {p s0} {a0} (hp : Foot.le State.flashStop_foot p) (h0 : Follows p s0 a0) :
    Follows p s0 (State.flashStop (a0)) := by
  unfold State.flashStop
  refine Follows.forAll ?_ ?_
  · intro x0 x1 x2
    refine State.set_follows 463 hp ?_
    refine State.seqEnd_follows (hp.sub rfl) ?_
    refine State.opAbort_follows (hp.sub rfl) ?_
    with_reducible assumption
  · with_reducible assumption

def State.holdupCompare_foot : Foot := ⟨0x80, 0x0⟩

theorem State.holdupCompare_follows {p s0} {a0} {a1} (hp : Foot.le State.holdupCompare_foot p) (h0 : Follows p s0 a0) :
    Follows p s0 (State.holdupCompare (a0) (a1)).1 := by
  unfold State.holdupCompare
  extract_lets y0 y1 y2 y3
  clear_value y0
  clear_value y2
  clear_value y3
  refine Follows.pair ?_
  refine Follows.update hp ?_ rfl rfl
  with_reducible assumption

def State.flashScrub_foot : Foot := ⟨0x1fffffff, 0x0⟩

theorem State.flashScrub_follows {p s0} {a0} {a1} (hp : Foot.le State.flashScrub_foot p) (h0 : Follows p s0 a0) :
    Follows p s0 (State.flashScrub (a0) (a1)) := by
  unfold State.flashScrub
  refine Follows.ite ?_ ?_
  · refine Follows.update hp ?_ rfl rfl
    with_reducible assumption
  · refine Follows.ite ?_ ?_
    · with_reducible assumption
    · extract_lets y0 y1 y2 y3 y4 y5 y6
      clear_value y0
      clear_value y1
      have k7 : Follows p s0 y2 := by
        subst y2
        refine Follows.foldl ?_ ?_
        · intro x8 x9 x10
          refine State.flashSeen_follows (hp.sub rfl) ?_
          with_reducible assumption
        · with_reducible assumption
      clear_value y2
      have k11 : Follows p s0 y3 := by
        subst y3
        refine State.pmcAt_follows (hp.sub rfl) ?_
        with_reducible assumption
      clear_value y3
      clear_value y5
      have k12 : Follows p s0 y6 := by
        subst y6
        refine Follows.update hp ?_ rfl rfl
        with_reducible assumption
      clear_value y6
      refine Follows.ite ?_ ?_
      · refine State.refreshFlashVote_follows (hp.sub rfl) ?_
        refine Follows.update hp ?_ rfl rfl
        with_reducible assumption
      · refine State.refreshFlashVote_follows (hp.sub rfl) ?_
        refine Follows.ite ?_ ?_
        · refine State.bumpWrap_follows 514 hp ?_
          with_reducible assumption
        · with_reducible assumption

def execSequenceTimeout_foot : Foot := ⟨0x800030, 0x18000000000000000000000000000000000000000000000000000000000000000000000000000000000000000000000000000000000004000000⟩

theorem execSequenceTimeout_follows {p s0} {a0} {a1} (hp : Foot.le execSequenceTimeout_foot p) (h1 : Follows p s0 a1) :
    FollowsOut p s0 (execSequenceTimeout (a0) (a1)) := by
  unfold execSequenceTimeout
  refine FollowsOut.next ?_
  refine State.flashTimeout_follows (hp.sub rfl) ?_
  with_reducible assumption

def execFlashOpDone_foot : Foot := ⟨0x800024, 0x7800000000000000000000000013004000106800000000000000000000000000000000000000000000000000000000000000000000000000000000000000000000001000000000004000000⟩

theorem execFlashOpDone_follows {p s0} {a0} {a1} {a2} {a3} (hp : Foot.le execFlashOpDone_foot p) (h3 : Follows p s0 a3) :
    FollowsOut p s0 (execFlashOpDone (a0) (a1) (a2) (a3)) := by
  unfold execFlashOpDone
  refine FollowsOut.next ?_
  refine State.flashOpDone_follows (hp.sub rfl) ?_
  with_reducible assumption

def execFlashScrub_foot : Foot := ⟨0x1fffffff, 0x0⟩

theorem execFlashScrub_follows {p s0} {a0} {a1} (hp : Foot.le execFlashScrub_foot p) (h1 : Follows p s0 a1) :
    FollowsOut p s0 (execFlashScrub (a0) (a1)) := by
  unfold execFlashScrub
  refine FollowsOut.next ?_
  refine State.flashScrub_follows (hp.sub rfl) ?_
  with_reducible assumption

end Sys2Proof.Machine
end

