-- ==== Sys2Proof/Laws/FootPower.lean ====
section
/-! SUPPORT. Laws/FootPower.lean: one footprint and one lemma for each operation of
cold start, the power steps, the wake plane and the boot (Laws/Follows.lean). -/

set_option Elab.async false

namespace Sys2Proof.Machine

open Sys2Proof

set_option maxRecDepth 20000

/-! ### Machine/Cold.lean -/

def State.cold_foot : Foot := ⟨0x1fffffff, 0x0⟩

theorem State.cold_follows {p s0} {a0} {a1} (hp : Foot.le State.cold_foot p) (h0 : Follows p s0 a0) :
    Follows p s0 (State.cold (a0) (a1)) := by
  unfold State.cold
  extract_lets y0 y1 y2 y3 y4 y5
  have k6 : Follows p s0 y0 := by
    subst y0
    refine State.flashStop_follows (hp.sub rfl) ?_
    with_reducible assumption
  clear_value y0
  clear_value y2
  have k8 : Follows p s0 y3 := by
    subst y3
    refine Follows.updAll hp rfl ?_ rfl (.inr ⟨_, rfl⟩) (.inr ⟨_, rfl⟩) (.inr ⟨_, rfl⟩)
    with_reducible assumption
  clear_value y3
  have k9 : Follows p s0 y4 := by
    subst y4
    refine State.set_follows 26 hp ?_
    refine State.set_follows 26 hp ?_
    with_reducible assumption
  clear_value y4
  have k10 : Follows p s0 y5 := by
    subst y5
    refine Follows.ite ?_ ?_
    · with_reducible assumption
    · refine State.set_follows 157 hp ?_
      with_reducible assumption
  clear_value y5
  refine State.wkResume_follows (hp.sub rfl) ?_
  refine State.set_follows 578 hp ?_
  with_reducible assumption

def State.railsOn_foot : Foot := ⟨0x60, 0x0⟩

theorem State.railsOn_follows {p s0} {a0} (hp : Foot.le State.railsOn_foot p) (h0 : Follows p s0 a0) :
    Follows p s0 (State.railsOn (a0)) := by
  unfold State.railsOn
  split
  · extract_lets y3 y4
    have k5 : Follows p s0 y3 := by
      subst y3
      refine State.enableRail_follows (hp.sub rfl) ?_
      with_reducible assumption
    clear_value y3
    clear_value y4
    refine Follows.ite ?_ ?_
    · refine Follows.update hp ?_ rfl rfl
      with_reducible assumption
    · with_reducible assumption
  · extract_lets y8 y9 y10 y11
    clear_value y8
    have k12 : Follows p s0 y9 := by
      subst y9
      refine Follows.update hp ?_ rfl rfl
      with_reducible assumption
    clear_value y9
    clear_value y10
    clear_value y11
    refine Follows.ite ?_ ?_
    · refine Follows.update hp ?_ rfl rfl
      with_reducible assumption
    · with_reducible assumption

def State.lowerRails_foot : Foot := ⟨0x20, 0x0⟩

theorem State.lowerRails_follows {p s0} {a0} {a1} (hp : Foot.le State.lowerRails_foot p) (h0 : Follows p s0 a0) :
    Follows p s0 (State.lowerRails (a0) (a1)) := by
  unfold State.lowerRails
  refine Follows.foldl ?_ ?_
  · intro x0 x1 x2
    refine Follows.ite ?_ ?_
    · extract_lets y3 y4
      have k5 : Follows p s0 y3 := by
        subst y3
        refine State.railSpan_follows (hp.sub rfl) ?_
        with_reducible assumption
      clear_value y3
      clear_value y4
      refine Follows.update hp ?_ rfl rfl
      with_reducible assumption
    · refine Follows.update hp ?_ rfl rfl
      with_reducible assumption
  · with_reducible assumption

def State.startAt_foot : Foot := ⟨0x40, 0x0⟩

theorem State.startAt_follows {p s0} {a0} {a1} {a2} (hp : Foot.le State.startAt_foot p) (h0 : Follows p s0 a0) :
    Follows p s0 (State.startAt (a0) (a1) (a2)) := by
  unfold State.startAt
  refine Follows.update hp ?_ rfl rfl
  with_reducible assumption

def State.startRails_foot : Foot := ⟨0x60, 0x0⟩

theorem State.startRails_follows {p s0} {a0} {a1} (hp : Foot.le State.startRails_foot p) (h0 : Follows p s0 a0) :
    Follows p s0 (State.startRails (a0) (a1)) := by
  unfold State.startRails
  refine State.railsOn_follows (hp.sub rfl) ?_
  refine State.setDom_follows (hp.sub rfl) ?_
  refine State.startAt_follows (hp.sub rfl) ?_
  with_reducible assumption

def State.startCold_foot : Foot := ⟨0x4060, 0x2800000000000000000000000000000000000000⟩

theorem State.startCold_follows {p s0} {a0} {a1} (hp : Foot.le State.startCold_foot p) (h0 : Follows p s0 a0) :
    Follows p s0 (State.startCold (a0) (a1)) := by
  unfold State.startCold
  extract_lets y0
  have k1 : Follows p s0 y0 := by
    subst y0
    refine Follows.ite ?_ ?_
    · with_reducible assumption
    · refine State.sourceStart_follows (hp.sub rfl) ?_
      with_reducible assumption
  clear_value y0
  refine Follows.ite ?_ ?_
  · refine State.startRails_follows (hp.sub rfl) ?_
    with_reducible assumption
  · refine State.startAt_follows (hp.sub rfl) ?_
    with_reducible assumption

def State.railDown_foot : Foot := ⟨0x1fffffff, 0x0⟩

theorem State.railDown_follows {p s0} {a0} {a1} {a2} (hp : Foot.le State.railDown_foot p) (h0 : Follows p s0 a0) :
    Follows p s0 (State.railDown (a0) (a1) (a2)) := by
  unfold State.railDown
  extract_lets y0 y1 y2 y3 y4
  have k5 : Follows p s0 y0 := by
    subst y0
    refine State.blackBoxOnly_follows (hp.sub rfl) ?_
    with_reducible assumption
  clear_value y0
  clear_value y1
  have k6 : Follows p s0 y2 := by
    subst y2
    refine State.startAt_follows (hp.sub rfl) ?_
    refine State.lowerRails_follows (hp.sub rfl) ?_
    refine State.cold_follows (hp.sub rfl) ?_
    with_reducible assumption
  clear_value y2
  clear_value y3
  clear_value y4
  refine Follows.update hp ?_ rfl rfl
  with_reducible assumption

/-! ### Machine/PowerSteps.lean -/

def State.armTimetableWake_foot : Foot := ⟨0x100000, 0x4000000000000000000000000000000000000000000000000000000000000000000000000000000000000000000000000000000000000000000000000000000000000000000⟩

theorem State.armTimetableWake_follows {p s0} {a0} (hp : Foot.le State.armTimetableWake_foot p) (h0 : Follows p s0 a0) :
    Follows p s0 (State.armTimetableWake (a0)) := by
  unfold State.armTimetableWake
  split
  · extract_lets y5 y6
    have k7 : Follows p s0 y5 := by
      subst y5
      refine State.set2_follows 554 hp ?_
      with_reducible assumption
    clear_value y5
    clear_value y6
    refine Follows.update hp ?_ rfl rfl
    with_reducible assumption
  · refine Follows.update hp ?_ rfl rfl
    with_reducible assumption

def State.hubFalls_foot : Foot := ⟨0x1fffffff, 0x0⟩

theorem State.hubFalls_follows {p s0} {a0} (hp : Foot.le State.hubFalls_foot p) (h0 : Follows p s0 a0) :
    Follows p s0 (State.hubFalls (a0)) := by
  unfold State.hubFalls
  extract_lets y0 y1
  clear_value y0
  have k2 : Follows p s0 y1 := by
    subst y1
    refine Follows.update hp ?_ rfl rfl
    with_reducible assumption
  clear_value y1
  refine Follows.ite ?_ ?_
  · refine State.armTimetableWake_follows (hp.sub rfl) ?_
    with_reducible assumption
  · refine State.rngOff_follows (hp.sub rfl) ?_
    refine State.zeroiseKeys_follows (hp.sub rfl) ?_
    with_reducible assumption

def State.fallDom_foot : Foot := ⟨0x1fffffff, 0x0⟩

theorem State.fallDom_follows {p s0} {a0} {a1} (hp : Foot.le State.fallDom_foot p) (h0 : Follows p s0 a0) :
    Follows p s0 (State.fallDom (a0) (a1)) := by
  unfold State.fallDom
  extract_lets y0 y1
  have k2 : Follows p s0 y0 := by
    subst y0
    refine Follows.ite ?_ ?_
    · refine State.cutTile_follows (hp.sub rfl) ?_
      with_reducible assumption
    · with_reducible assumption
  clear_value y0
  have k3 : Follows p s0 y1 := by
    subst y1
    refine State.refreshDep_follows (hp.sub rfl) ?_
    refine State.beginDom_follows (hp.sub rfl) ?_
    with_reducible assumption
  clear_value y1
  refine State.refreshMode_follows (hp.sub rfl) ?_
  refine Follows.ite ?_ ?_
  · refine State.hubFalls_follows (hp.sub rfl) ?_
    with_reducible assumption
  · with_reducible assumption

def State.lingerEnd_foot : Foot := ⟨0x1fffffff, 0x0⟩

theorem State.lingerEnd_follows {p s0} {a0} {a1} (hp : Foot.le State.lingerEnd_foot p) (h0 : Follows p s0 a0) :
    Follows p s0 (State.lingerEnd (a0) (a1)) := by
  unfold State.lingerEnd
  extract_lets y0 y1
  have k2 : Follows p s0 y0 := by
    subst y0
    refine Follows.ite ?_ ?_
    · refine State.domSpan_follows (hp.sub rfl) ?_
      with_reducible assumption
    · with_reducible assumption
  clear_value y0
  have k3 : Follows p s0 y1 := by
    subst y1
    refine Follows.ite ?_ ?_
    · refine State.refreshVotes_follows (hp.sub rfl) ?_
      with_reducible assumption
    · with_reducible assumption
  clear_value y1
  refine Follows.ite ?_ ?_
  · refine State.fallDom_follows (hp.sub rfl) ?_
    with_reducible assumption
  · with_reducible assumption

def State.loseTileMem_foot : Foot := ⟨0xc, 0x0⟩

theorem State.loseTileMem_follows {p s0} {a0} {a1} (hp : Foot.le State.loseTileMem_foot p) (h0 : Follows p s0 a0) :
    Follows p s0 (State.loseTileMem (a0) (a1)) := by
  unfold State.loseTileMem
  extract_lets y0
  clear_value y0
  refine Follows.update hp ?_ rfl rfl
  with_reducible assumption

def State.tileDown_foot : Foot := ⟨0x1fffffff, 0x0⟩

theorem State.tileDown_follows {p s0} {a0} {a1} (hp : Foot.le State.tileDown_foot p) (h0 : Follows p s0 a0) :
    Follows p s0 (State.tileDown (a0) (a1)) := by
  unfold State.tileDown
  extract_lets y0 y1
  have k2 : Follows p s0 y0 := by
    subst y0
    refine State.fabricStop_follows (hp.sub rfl) ?_
    refine State.loseBanks_follows (hp.sub rfl) ?_
    refine State.tileRadio_follows (hp.sub rfl) ?_
    refine State.cutTile_follows (hp.sub rfl) ?_
    with_reducible assumption
  clear_value y0
  have k3 : Follows p s0 y1 := by
    subst y1
    refine State.set_follows 58 hp ?_
    refine State.dropRegs_follows (hp.sub rfl) ?_
    refine State.loseTileMem_follows (hp.sub rfl) ?_
    with_reducible assumption
  clear_value y1
  refine State.updTile_follows (hp.sub rfl) ?_
  with_reducible assumption

def State.loseHubMem_foot : Foot := ⟨0x1fffffff, 0x0⟩

theorem State.loseHubMem_follows {p s0} {a0} (hp : Foot.le State.loseHubMem_foot p) (h0 : Follows p s0 a0) :
    Follows p s0 (State.loseHubMem (a0)) := by
  unfold State.loseHubMem
  extract_lets y0 y1 y2 y3 y4
  clear_value y0
  clear_value y1
  have k5 : Follows p s0 y2 := by
    subst y2
    refine Follows.update hp ?_ rfl rfl
    with_reducible assumption
  clear_value y2
  have k6 : Follows p s0 y3 := by
    subst y3
    refine State.dropRegs_follows (hp.sub rfl) ?_
    with_reducible assumption
  clear_value y3
  have k7 : Follows p s0 y4 := by
    subst y4
    refine Follows.ite ?_ ?_
    · with_reducible assumption
    · refine Follows.update hp ?_ rfl rfl
      with_reducible assumption
  clear_value y4
  refine Follows.ite ?_ ?_
  · with_reducible assumption
  · refine Follows.update hp ?_ rfl rfl
    with_reducible assumption

def State.enterMoor_foot : Foot := ⟨0x1fffffff, 0x0⟩

theorem State.enterMoor_follows {p s0} {a0} (hp : Foot.le State.enterMoor_foot p) (h0 : Follows p s0 a0) :
    Follows p s0 (State.enterMoor (a0)) := by
  unfold State.enterMoor
  extract_lets y0 y1 y2 y3 y4 y5 y6 y7
  have k8 : Follows p s0 y0 := by
    subst y0
    refine State.loseHubMem_follows (hp.sub rfl) ?_
    refine State.dropRegs_follows (hp.sub rfl) ?_
    with_reducible assumption
  clear_value y0
  have k9 : Follows p s0 y1 := by
    subst y1
    refine State.rngHold_follows (hp.sub rfl) ?_
    refine State.lowerRails_follows (hp.sub rfl) ?_
    with_reducible assumption
  clear_value y1
  clear_value y2
  clear_value y3
  clear_value y4
  clear_value y5
  clear_value y6
  have k10 : Follows p s0 y7 := by
    subst y7
    refine Follows.update hp ?_ rfl rfl
    with_reducible assumption
  clear_value y7
  refine State.refreshCx_follows (hp.sub rfl) ?_
  refine State.spansPause_follows (hp.sub rfl) ?_
  refine State.fabricStop_follows (hp.sub rfl) ?_
  with_reducible assumption

def State.enterVigil_foot : Foot := ⟨0x1fffffff, 0x0⟩

theorem State.enterVigil_follows {p s0} {a0} (hp : Foot.le State.enterVigil_foot p) (h0 : Follows p s0 a0) :
    Follows p s0 (State.enterVigil (a0)) := by
  unfold State.enterVigil
  extract_lets y0 y1 y2
  have k3 : Follows p s0 y0 := by
    subst y0
    refine State.lowerRails_follows (hp.sub rfl) ?_
    refine State.cold_follows (hp.sub rfl) ?_
    with_reducible assumption
  clear_value y0
  clear_value y1
  clear_value y2
  refine Follows.update hp ?_ rfl rfl
  with_reducible assumption

def State.refclkLost_foot : Foot := ⟨0x20, 0x0⟩

theorem State.refclkLost_follows {p s0} {a0} (hp : Foot.le State.refclkLost_foot p) (h0 : Follows p s0 a0) :
    Follows p s0 (State.refclkLost (a0)) := by
  unfold State.refclkLost
  refine Follows.ite ?_ ?_
  · with_reducible assumption
  · refine Follows.update hp ?_ rfl rfl
    with_reducible assumption

def State.unitDown_foot : Foot := ⟨0x4b5a8a4, 0x4000000000e80880000300000009a80000000000000100004000000000000000000000000000000000000000000001a100000000000000000000000000001000000000004000030⟩

theorem State.unitDown_follows {p s0} {a0} {a1} (hp : Foot.le State.unitDown_foot p) (h0 : Follows p s0 a0) :
    Follows p s0 (State.unitDown (a0) (a1)) := by
  unfold State.unitDown
  refine Follows.ite ?_ ?_
  · refine State.refclkLost_follows (hp.sub rfl) ?_
    refine State.updLink_follows (hp.sub rfl) ?_
    with_reducible assumption
  · refine Follows.ite ?_ ?_
    · refine State.refclkLost_follows (hp.sub rfl) ?_
      refine Follows.forAll ?_ ?_
      · intro x0 x1 x2
        refine State.updLink_follows (hp.sub rfl) ?_
        with_reducible assumption
      · with_reducible assumption
    · refine Follows.ite ?_ ?_
      · refine Follows.forAll ?_ ?_
        · intro x3 x4 x5
          refine State.encoderReset_follows (hp.sub rfl) ?_
          refine State.decoderReset_follows (hp.sub rfl) ?_
          with_reducible assumption
        · with_reducible assumption
      · refine Follows.ite ?_ ?_
        · refine Follows.forAll ?_ ?_
          · intro x6 x7 x8
            refine State.pipeReset_follows (hp.sub rfl) ?_
            with_reducible assumption
          · with_reducible assumption
        · refine Follows.ite ?_ ?_
          · refine State.flashStop_follows (hp.sub rfl) ?_
            with_reducible assumption
          · refine Follows.ite ?_ ?_
            · refine State.wkResume_follows (hp.sub rfl) ?_
              refine State.refreshCx_follows (hp.sub rfl) ?_
              refine Follows.update hp ?_ rfl rfl
              with_reducible assumption
            · with_reducible assumption

def State.moorRise_foot : Foot := ⟨0x20, 0x0⟩

theorem State.moorRise_follows {p s0} {a0} (hp : Foot.le State.moorRise_foot p) (h0 : Follows p s0 a0) :
    Follows p s0 (State.moorRise (a0)) := by
  unfold State.moorRise
  refine State.enableRail_follows (hp.sub rfl) ?_
  extract_lets y0 y1
  have k2 : Follows p s0 y0 := by
    subst y0
    refine State.beginDom_follows (hp.sub rfl) ?_
    with_reducible assumption
  clear_value y0
  clear_value y1
  refine Follows.update hp ?_ rfl rfl
  with_reducible assumption

def State.fallComplete_foot : Foot := ⟨0x1fffffff, 0x0⟩

theorem State.fallComplete_follows {p s0} {a0} {a1} (hp : Foot.le State.fallComplete_foot p) (h0 : Follows p s0 a0) :
    Follows p s0 (State.fallComplete (a0) (a1)) := by
  unfold State.fallComplete
  refine Follows.ite ?_ ?_
  · with_reducible assumption
  · extract_lets y0 y1 y2 y3 y4 y5 y6 y7 y8 y9 y10 y11
    clear_value y0
    have k12 : Follows p s0 y1 := by
      subst y1
      refine State.domSpan_follows (hp.sub rfl) ?_
      with_reducible assumption
    clear_value y1
    clear_value y2
    have k13 : Follows p s0 y3 := by
      subst y3
      refine Follows.update hp ?_ rfl rfl
      with_reducible assumption
    clear_value y3
    have k14 : Follows p s0 y4 := by
      subst y4
      refine State.setDom_follows (hp.sub rfl) ?_
      with_reducible assumption
    clear_value y4
    have k15 : Follows p s0 y5 := by
      subst y5
      refine State.enterMoor_follows (hp.sub rfl) ?_
      with_reducible assumption
    clear_value y5
    have k16 : Follows p s0 y6 := by
      subst y6
      refine State.enterVigil_follows (hp.sub rfl) ?_
      with_reducible assumption
    clear_value y6
    have k17 : Follows p s0 y7 := by
      subst y7
      refine State.setDom_follows (hp.sub rfl) ?_
      with_reducible assumption
    clear_value y7
    clear_value y8
    have k18 : Follows p s0 y9 := by
      subst y9
      refine State.tileDown_follows (hp.sub rfl) ?_
      with_reducible assumption
    clear_value y9
    clear_value y10
    have k19 : Follows p s0 y11 := by
      subst y11
      refine Follows.ite ?_ ?_
      · refine Follows.update hp ?_ rfl rfl
        with_reducible assumption
      · refine State.unitDown_follows (hp.sub rfl) ?_
        with_reducible assumption
    clear_value y11
    refine Follows.ite ?_ ?_
    · refine Follows.ite ?_ ?_
      · refine Follows.ite ?_ ?_
        · refine State.moorRise_follows (hp.sub rfl) ?_
          with_reducible assumption
        · with_reducible assumption
      · refine Follows.ite ?_ ?_
        · refine State.startRails_follows (hp.sub rfl) ?_
          with_reducible assumption
        · with_reducible assumption
    · refine State.refreshMode_follows (hp.sub rfl) ?_
      refine State.refreshDep_follows (hp.sub rfl) ?_
      refine Follows.ite ?_ ?_
      · refine State.settle_follows (hp.sub rfl) ?_
        with_reducible assumption
      · with_reducible assumption

def State.tileRisen_foot : Foot := ⟨0x4040b00, 0xe8088000000000000000000000000000000000000002000001801a30fc600001000098000000000000000000000000000000000000000000001000000000000000000⟩

theorem State.tileRisen_follows {p s0} {a0} {a1} (hp : Foot.le State.tileRisen_foot p) (h0 : Follows p s0 a0) :
    Follows p s0 (State.tileRisen (a0) (a1)) := by
  unfold State.tileRisen
  extract_lets y0
  have k1 : Follows p s0 y0 := by
    subst y0
    refine Follows.forAll ?_ ?_
    · intro x2 x3 x4
      refine Follows.ite ?_ ?_
      · with_reducible assumption
      · refine State.set_follows 357 hp ?_
        with_reducible assumption
    · with_reducible assumption
  clear_value y0
  refine State.tileToWarm_follows (hp.sub rfl) ?_
  refine State.loseBanks_follows (hp.sub rfl) ?_
  with_reducible assumption

def State.domRisen_foot : Foot := ⟨0x4058b30, 0xe8088000000000000000000000000000000000000002000001801a30fc600001000098000000000000000000000000000000000000000000001000000000004000000⟩

theorem State.domRisen_follows {p s0} {a0} {a1} (hp : Foot.le State.domRisen_foot p) (h0 : Follows p s0 a0) :
    Follows p s0 (State.domRisen (a0) (a1)) := by
  unfold State.domRisen
  extract_lets y0 y1 y2 y3
  clear_value y0
  have k4 : Follows p s0 y1 := by
    subst y1
    refine State.refreshMode_follows (hp.sub rfl) ?_
    refine State.pmc_follows (hp.sub rfl) ?_
    refine State.setDom_follows (hp.sub rfl) ?_
    refine State.domSpan_follows (hp.sub rfl) ?_
    with_reducible assumption
  clear_value y1
  clear_value y2
  have k5 : Follows p s0 y3 := by
    subst y3
    refine Follows.ite ?_ ?_
    · refine State.tileRisen_follows (hp.sub rfl) ?_
      with_reducible assumption
    · refine Follows.ite ?_ ?_
      · refine State.feedEncoders_follows (hp.sub rfl) ?_
        refine Follows.update hp ?_ rfl rfl
        with_reducible assumption
      · refine Follows.ite ?_ ?_
        · refine Follows.forAll ?_ ?_
          · intro x6 x7 x8
            refine State.updPipe_follows (hp.sub rfl) ?_
            with_reducible assumption
          · with_reducible assumption
        · with_reducible assumption
  clear_value y3
  refine Follows.ite ?_ ?_
  · with_reducible assumption
  · refine State.settle_follows (hp.sub rfl) ?_
    with_reducible assumption

def State.resumeFetch_foot : Foot := ⟨0x1000, 0x0⟩

theorem State.resumeFetch_follows {p s0} {a0} (hp : Foot.le State.resumeFetch_foot p) (h0 : Follows p s0 a0) :
    Follows p s0 (State.resumeFetch (a0)) := by
  unfold State.resumeFetch
  extract_lets y0 y1
  clear_value y0
  clear_value y1
  refine Follows.update hp ?_ rfl rfl
  with_reducible assumption

def State.takeBack_foot : Foot := ⟨0x30, 0x8000000000000000000000000000000000000000000000000000000000000000000000000000000000000000000000000000000000000000000000000000000000000000⟩

theorem State.takeBack_follows {p s0} {a0} (hp : Foot.le State.takeBack_foot p) (h0 : Follows p s0 a0) :
    Follows p s0 (State.takeBack (a0)) := by
  unfold State.takeBack
  refine State.set_follows 543 hp ?_
  refine Follows.update hp ?_ rfl rfl
  with_reducible assumption

def State.reportRng_foot : Foot := ⟨0x1fffffff, 0x0⟩

theorem State.reportRng_follows {p s0} {a0} (hp : Foot.le State.reportRng_foot p) (h0 : Follows p s0 a0) :
    Follows p s0 (State.reportRng (a0)) := by
  unfold State.reportRng
  refine Follows.ite ?_ ?_
  · refine State.fire_follows (hp.sub rfl) ?_
    refine State.logHw_follows (hp.sub rfl) ?_
    with_reducible assumption
  · with_reducible assumption

def State.hubReady_foot : Foot := ⟨0x1fffffff, 0x0⟩

theorem State.hubReady_follows {p s0} {a0} (hp : Foot.le State.hubReady_foot p) (h0 : Follows p s0 a0) :
    Follows p s0 (State.hubReady (a0)) := by
  unfold State.hubReady
  refine Follows.ite ?_ ?_
  · with_reducible assumption
  · extract_lets y0 y1 y2 y3
    have k4 : Follows p s0 y1 := by
      subst y1
      refine State.tsOutArm_follows (hp.sub rfl) ?_
      refine State.resumeFetch_follows (hp.sub rfl) ?_
      refine State.rngResume_follows (hp.sub rfl) ?_
      refine State.latchesToPending_follows (hp.sub rfl) ?_
      refine State.spansResume_follows (hp.sub rfl) ?_
      refine State.takeBack_follows (hp.sub rfl) ?_
      refine State.pmc_follows (hp.sub rfl) ?_
      refine State.setDom_follows (hp.sub rfl) ?_
      refine State.domSpan_follows (hp.sub rfl) ?_
      with_reducible assumption
    clear_value y1
    have k5 : Follows p s0 y2 := by
      subst y2
      refine Follows.ite ?_ ?_
      · refine State.reportRng_follows (hp.sub rfl) ?_
        with_reducible assumption
      · with_reducible assumption
    clear_value y2
    have k6 : Follows p s0 y3 := by
      subst y3
      refine State.refreshMode_follows (hp.sub rfl) ?_
      refine State.refreshFlashVote_follows (hp.sub rfl) ?_
      with_reducible assumption
    clear_value y3
    refine State.settleHub_follows (hp.sub rfl) ?_
    refine Follows.forAll ?_ ?_
    · intro x7 x8 x9
      refine State.settle_follows (hp.sub rfl) ?_
      with_reducible assumption
    · with_reducible assumption

def State.resettle_foot : Foot := ⟨0x1fffffff, 0x0⟩

theorem State.resettle_follows {p s0} {a0} {a1} (hp : Foot.le State.resettle_foot p) (h0 : Follows p s0 a0) :
    Follows p s0 (State.resettle (a0) (a1)) := by
  unfold State.resettle
  refine Follows.ite ?_ ?_
  · refine State.fallDom_follows (hp.sub rfl) ?_
    with_reducible assumption
  · refine State.settle_follows (hp.sub rfl) ?_
    with_reducible assumption

def State.voteSet_foot : Foot := ⟨0x20, 0x4000000⟩

theorem State.voteSet_follows {p s0} {a0} {a1} {a2} (hp : Foot.le State.voteSet_foot p) (h0 : Follows p s0 a0) :
    Follows p s0 (State.voteSet (a0) (a1) (a2)) := by
  unfold State.voteSet
  refine Follows.ite ?_ ?_
  · with_reducible assumption
  · refine State.settle_follows (hp.sub rfl) ?_
    refine State.set_follows 26 hp ?_
    with_reducible assumption

def State.voteClr_foot : Foot := ⟨0x20, 0x4000000⟩

theorem State.voteClr_follows {p s0} {a0} {a1} {a2} (hp : Foot.le State.voteClr_foot p) (h0 : Follows p s0 a0) :
    Follows p s0 (State.voteClr (a0) (a1) (a2)) := by
  unfold State.voteClr
  extract_lets y0
  clear_value y0
  refine Follows.ite ?_ ?_
  · with_reducible assumption
  · refine State.settle_follows (hp.sub rfl) ?_
    refine State.set_follows 26 hp ?_
    with_reducible assumption

def State.refreshDefer_foot : Foot := ⟨0x0, 0x40000000000000000⟩

theorem State.refreshDefer_follows {p s0} {a0} (hp : Foot.le State.refreshDefer_foot p) (h0 : Follows p s0 a0) :
    Follows p s0 (State.refreshDefer (a0)) := by
  unfold State.refreshDefer
  refine State.set_follows 66 hp ?_
  with_reducible assumption

def State.forceWrite_foot : Foot := ⟨0x1fffffff, 0x0⟩

theorem State.forceWrite_follows {p s0} {a0} {a1} {a2} (hp : Foot.le State.forceWrite_foot p) (h0 : Follows p s0 a0) :
    Follows p s0 (State.forceWrite (a0) (a1) (a2)) := by
  unfold State.forceWrite
  extract_lets y0
  have k1 : Follows p s0 y0 := by
    subst y0
    refine Follows.foldl ?_ ?_
    · intro x2 x3 x4
      extract_lets y5 y6 y7 y8
      clear_value y5
      clear_value y6
      clear_value y7
      have k9 : Follows p s0 y8 := by
        subst y8
        refine Follows.update hp ?_ rfl rfl
        with_reducible assumption
      clear_value y8
      refine Follows.ite ?_ ?_
      · with_reducible assumption
      · refine State.putBit_follows 33 hp ?_
        with_reducible assumption
    · with_reducible assumption
  clear_value y0
  refine Follows.foldl ?_ ?_
  · intro x10 x11 x12
    refine State.resettle_follows (hp.sub rfl) ?_
    with_reducible assumption
  · refine State.refreshDefer_follows (hp.sub rfl) ?_
    with_reducible assumption

def State.gateWrite_foot : Foot := ⟨0x10020, 0x40000000400000000⟩

theorem State.gateWrite_follows {p s0} {a0} {a1} {a2} (hp : Foot.le State.gateWrite_foot p) (h0 : Follows p s0 a0) :
    Follows p s0 (State.gateWrite (a0) (a1) (a2)) := by
  unfold State.gateWrite
  refine State.feedEncoders_follows (hp.sub rfl) ?_
  refine State.refreshDefer_follows (hp.sub rfl) ?_
  refine Follows.foldl ?_ ?_
  · intro x0 x1 x2
    extract_lets y3 y4 y5 y6
    clear_value y3
    clear_value y4
    clear_value y5
    have k7 : Follows p s0 y6 := by
      subst y6
      refine Follows.update hp ?_ rfl rfl
      with_reducible assumption
    clear_value y6
    refine Follows.ite ?_ ?_
    · with_reducible assumption
    · refine State.putBit_follows 34 hp ?_
      with_reducible assumption
  · with_reducible assumption

def State.keelVoteWrite_foot : Foot := ⟨0x1fffffff, 0x0⟩

theorem State.keelVoteWrite_follows {p s0} {a0} {a1} (hp : Foot.le State.keelVoteWrite_foot p) (h0 : Follows p s0 a0) :
    Follows p s0 (State.keelVoteWrite (a0) (a1)) := by
  unfold State.keelVoteWrite
  extract_lets y0 y1 y2 y3 y4 y5
  clear_value y0
  clear_value y1
  clear_value y2
  have k6 : Follows p s0 y3 := by
    subst y3
    refine State.set_follows 65 hp ?_
    with_reducible assumption
  clear_value y3
  have k7 : Follows p s0 y4 := by
    subst y4
    refine Follows.foldl ?_ ?_
    · intro x8 x9 x10
      extract_lets y11 y12
      have k13 : Follows p s0 y11 := by
        subst y11
        refine State.setBit_follows 33 hp ?_
        with_reducible assumption
      clear_value y11
      clear_value y12
      refine Follows.update hp ?_ rfl rfl
      with_reducible assumption
    · with_reducible assumption
  clear_value y4
  have k14 : Follows p s0 y5 := by
    subst y5
    refine Follows.foldl ?_ ?_
    · intro x15 x16 x17
      extract_lets y18 y19
      have k20 : Follows p s0 y18 := by
        subst y18
        refine State.setBit_follows 34 hp ?_
        with_reducible assumption
      clear_value y18
      clear_value y19
      refine Follows.update hp ?_ rfl rfl
      with_reducible assumption
    · with_reducible assumption
  clear_value y5
  refine Follows.foldl ?_ ?_
  · intro x21 x22 x23
    refine State.resettle_follows (hp.sub rfl) ?_
    with_reducible assumption
  · refine State.refreshDefer_follows (hp.sub rfl) ?_
    with_reducible assumption

def State.rfRailOff_foot : Foot := ⟨0x30, 0x0⟩

theorem State.rfRailOff_follows {p s0} {a0} (hp : Foot.le State.rfRailOff_foot p) (h0 : Follows p s0 a0) :
    Follows p s0 (State.rfRailOff (a0)) := by
  unfold State.rfRailOff
  refine Follows.ite ?_ ?_
  · refine State.lowerRails_follows (hp.sub rfl) ?_
    refine State.reach_follows (hp.sub rfl) ?_
    with_reducible assumption
  · with_reducible assumption

def State.pwrGoodRise_foot : Foot := ⟨0x60, 0x0⟩

theorem State.pwrGoodRise_follows {p s0} {a0} {a1} (hp : Foot.le State.pwrGoodRise_foot p) (h0 : Follows p s0 a0) :
    Follows p s0 (State.pwrGoodRise (a0) (a1)) := by
  unfold State.pwrGoodRise
  refine Follows.ite ?_ ?_
  · with_reducible assumption
  · extract_lets y0 y1
    clear_value y0
    have k2 : Follows p s0 y1 := by
      subst y1
      refine Follows.update hp ?_ rfl rfl
      with_reducible assumption
    refine Follows.ite ?_ ?_
    · refine State.railsOn_follows (hp.sub rfl) ?_
      with_reducible assumption
    · refine Follows.ite ?_ ?_
      · refine State.enableRail_follows (hp.sub rfl) ?_
        with_reducible assumption
      · refine Follows.ite ?_ ?_
        · refine State.enableRail_follows (hp.sub rfl) ?_
          with_reducible assumption
        · with_reducible assumption

def State.lowHoldEnd_foot : Foot := ⟨0x70, 0x0⟩

theorem State.lowHoldEnd_follows {p s0} {a0} {a1} (hp : Foot.le State.lowHoldEnd_foot p) (h0 : Follows p s0 a0) :
    Follows p s0 (State.lowHoldEnd (a0) (a1)) := by
  unfold State.lowHoldEnd
  extract_lets y0 y1 y2 y3
  clear_value y0
  have k4 : Follows p s0 y1 := by
    subst y1
    refine Follows.ite ?_ ?_
    · refine State.reach_follows (hp.sub rfl) ?_
      with_reducible assumption
    · with_reducible assumption
  clear_value y1
  clear_value y2
  have k5 : Follows p s0 y3 := by
    subst y3
    refine Follows.update hp ?_ rfl rfl
    with_reducible assumption
  clear_value y3
  refine Follows.ite ?_ ?_
  · with_reducible assumption
  · refine Follows.ite ?_ ?_
    · refine State.railsOn_follows (hp.sub rfl) ?_
      with_reducible assumption
    · refine State.enableRail_follows (hp.sub rfl) ?_
      with_reducible assumption

def State.railFailure_foot : Foot := ⟨0x1fffffff, 0x0⟩

theorem State.railFailure_follows {p s0} {a0} {a1} (hp : Foot.le State.railFailure_foot p) (h0 : Follows p s0 a0) :
    Follows p s0 (State.railFailure (a0) (a1)) := by
  unfold State.railFailure
  refine Follows.ite ?_ ?_
  · refine State.railDown_follows (hp.sub rfl) ?_
    refine State.reach_follows (hp.sub rfl) ?_
    with_reducible assumption
  · with_reducible assumption

def State.railRetry_foot : Foot := ⟨0x70, 0x0⟩

theorem State.railRetry_follows {p s0} {a0} (hp : Foot.le State.railRetry_foot p) (h0 : Follows p s0 a0) :
    Follows p s0 (State.railRetry (a0)) := by
  unfold State.railRetry
  refine Follows.ite ?_ ?_
  · refine State.railsOn_follows (hp.sub rfl) ?_
    refine State.setDom_follows (hp.sub rfl) ?_
    refine State.reach_follows (hp.sub rfl) ?_
    with_reducible assumption
  · with_reducible assumption

def execLingerEnd_foot : Foot := ⟨0x1fffffff, 0x0⟩

theorem execLingerEnd_follows {p s0} {a0} {a1} (hp : Foot.le execLingerEnd_foot p) (h1 : Follows p s0 a1) :
    FollowsOut p s0 (execLingerEnd (a0) (a1)) := by
  unfold execLingerEnd
  refine FollowsOut.next ?_
  refine State.lingerEnd_follows (hp.sub rfl) ?_
  with_reducible assumption

def execHubReady_foot : Foot := ⟨0x1fffffff, 0x0⟩

theorem execHubReady_follows {p s0} {a0} (hp : Foot.le execHubReady_foot p) (h0 : Follows p s0 a0) :
    FollowsOut p s0 (execHubReady (a0)) := by
  unfold execHubReady
  refine FollowsOut.next ?_
  refine State.hubReady_follows (hp.sub rfl) ?_
  with_reducible assumption

def execRfRailOff_foot : Foot := ⟨0x30, 0x0⟩

theorem execRfRailOff_follows {p s0} {a0} (hp : Foot.le execRfRailOff_foot p) (h0 : Follows p s0 a0) :
    FollowsOut p s0 (execRfRailOff (a0)) := by
  unfold execRfRailOff
  refine FollowsOut.next ?_
  refine State.rfRailOff_follows (hp.sub rfl) ?_
  with_reducible assumption

def execPwrGoodRise_foot : Foot := ⟨0x60, 0x0⟩

theorem execPwrGoodRise_follows {p s0} {a0} {a1} (hp : Foot.le execPwrGoodRise_foot p) (h1 : Follows p s0 a1) :
    FollowsOut p s0 (execPwrGoodRise (a0) (a1)) := by
  unfold execPwrGoodRise
  refine FollowsOut.next ?_
  refine State.pwrGoodRise_follows (hp.sub rfl) ?_
  with_reducible assumption

def execRailFailure_foot : Foot := ⟨0x1fffffff, 0x0⟩

theorem execRailFailure_follows {p s0} {a0} {a1} (hp : Foot.le execRailFailure_foot p) (h1 : Follows p s0 a1) :
    FollowsOut p s0 (execRailFailure (a0) (a1)) := by
  unfold execRailFailure
  refine FollowsOut.next ?_
  refine State.railFailure_follows (hp.sub rfl) ?_
  with_reducible assumption

def execRailRetry_foot : Foot := ⟨0x70, 0x0⟩

theorem execRailRetry_follows {p s0} {a0} (hp : Foot.le execRailRetry_foot p) (h0 : Follows p s0 a0) :
    FollowsOut p s0 (execRailRetry (a0)) := by
  unfold execRailRetry
  refine FollowsOut.next ?_
  refine State.railRetry_follows (hp.sub rfl) ?_
  with_reducible assumption

def execEnableLowHoldEnd_foot : Foot := ⟨0x70, 0x0⟩

theorem execEnableLowHoldEnd_follows {p s0} {a0} {a1} (hp : Foot.le execEnableLowHoldEnd_foot p) (h1 : Follows p s0 a1) :
    FollowsOut p s0 (execEnableLowHoldEnd (a0) (a1)) := by
  unfold execEnableLowHoldEnd
  refine FollowsOut.next ?_
  refine State.lowHoldEnd_follows (hp.sub rfl) ?_
  with_reducible assumption

/-! ### Machine/Wake.lean -/

def State.latch_foot : Foot := ⟨0x100000, 0x0⟩

theorem State.latch_follows {p s0} {a0} {a1} (hp : Foot.le State.latch_foot p) (h0 : Follows p s0 a0) :
    Follows p s0 (State.latch (a0) (a1)) := by
  unfold State.latch
  refine Follows.ite ?_ ?_
  · refine Follows.update hp ?_ rfl rfl
    with_reducible assumption
  · with_reducible assumption

def State.aonSource_foot : Foot := ⟨0x100000, 0x1000000000000000000⟩

theorem State.aonSource_follows {p s0} {a0} {a1} (hp : Foot.le State.aonSource_foot p) (h0 : Follows p s0 a0) :
    Follows p s0 (State.aonSource (a0) (a1)) := by
  unfold State.aonSource
  refine Follows.ite ?_ ?_
  · refine State.fire_follows (hp.sub rfl) ?_
    with_reducible assumption
  · refine State.latch_follows (hp.sub rfl) ?_
    with_reducible assumption

def State.wakeRecord_foot : Foot := ⟨0x0, 0xf8000800000000000000000000000000000000000000000000000000000000000000000000000000000000000000000000000000000000000000000000000000000000000000⟩

theorem State.wakeRecord_follows {p s0} {a0} {a1} {a2} (hp : Foot.le State.wakeRecord_foot p) (h0 : Follows p s0 a0) :
    Follows p s0 (State.wakeRecord (a0) (a1) (a2)) := by
  unfold State.wakeRecord
  extract_lets y0 y1 y2 y3
  clear_value y0
  have k4 : Follows p s0 y1 := by
    subst y1
    refine Follows.foldl ?_ ?_
    · intro x5 x6 x7
      refine State.set_follows 559 hp ?_
      with_reducible assumption
    · with_reducible assumption
  clear_value y1
  have k8 : Follows p s0 y2 := by
    subst y2
    refine State.set_follows 559 hp ?_
    with_reducible assumption
  clear_value y2
  have k9 : Follows p s0 y3 := by
    subst y3
    refine State.set_follows 557 hp ?_
    refine State.set_follows 556 hp ?_
    refine State.set_follows 555 hp ?_
    with_reducible assumption
  clear_value y3
  refine State.set_follows 539 hp ?_
  refine State.bumpWrap_follows 558 hp ?_
  with_reducible assumption

def State.wkRefresh_foot : Foot := ⟨0x0, 0x40000000000000000000000000000000000000000000000000000000000000000000000000000000000000000000000000000000000000000000000000000000000000000000000⟩

theorem State.wkRefresh_follows {p s0} {a0} (hp : Foot.le State.wkRefresh_foot p) (h0 : Follows p s0 a0) :
    Follows p s0 (State.wkRefresh (a0)) := by
  unfold State.wkRefresh
  refine Follows.forAll ?_ ?_
  · intro x0 x1 x2
    extract_lets y3
    clear_value y3
    refine Follows.ite ?_ ?_
    · refine Follows.ite ?_ ?_
      · refine State.setWk_follows (hp.sub rfl) ?_
        with_reducible assumption
      · with_reducible assumption
    · refine State.setWk_follows (hp.sub rfl) ?_
      with_reducible assumption
  · with_reducible assumption

def State.leaveOff_foot : Foot := ⟨0x30, 0x40000000000000000000000000000000000000000000000000000000000000000000000000000000000000000000000000000000000000000000000000000000000000000000000⟩

theorem State.leaveOff_follows {p s0} {a0} (hp : Foot.le State.leaveOff_foot p) (h0 : Follows p s0 a0) :
    Follows p s0 (State.leaveOff (a0)) := by
  unfold State.leaveOff
  extract_lets y0 y1 y2
  clear_value y0
  clear_value y1
  have k3 : Follows p s0 y2 := by
    subst y2
    refine Follows.update hp ?_ rfl rfl
    with_reducible assumption
  clear_value y2
  refine State.wkRefresh_follows (hp.sub rfl) ?_
  with_reducible assumption

def State.wakeLower_foot : Foot := ⟨0x0, 0x18000000000000000000000000000000000000000000000000000000000000000000000000000000000000000000000000000000000000000000000000000000000000000000⟩

theorem State.wakeLower_follows {p s0} {a0} {a1} {a2} (hp : Foot.le State.wakeLower_foot p) (h0 : Follows p s0 a0) :
    Follows p s0 (State.wakeLower (a0) (a1) (a2)) := by
  unfold State.wakeLower
  refine Follows.ite ?_ ?_
  · refine State.set_follows 556 hp ?_
    refine State.set_follows 555 hp ?_
    with_reducible assumption
  · with_reducible assumption

def State.crystalEdge_foot : Foot := ⟨0x100000, 0x0⟩

theorem State.crystalEdge_follows {p s0} {a0} (hp : Foot.le State.crystalEdge_foot p) (h0 : Follows p s0 a0) :
    Follows p s0 (State.crystalEdge (a0)) := by
  unfold State.crystalEdge
  refine Follows.update hp ?_ rfl rfl
  with_reducible assumption

def State.wake_foot : Foot := ⟨0x104070, 0x400f8000800000000000000000000000000000000000000000000000000000000000000000000000000000000000000000000002800000000000000000000000000000004000000⟩

theorem State.wake_follows {p s0} {a0} {a1} {a2} (hp : Foot.le State.wake_foot p) (h0 : Follows p s0 a0) :
    Follows p s0 (State.wake (a0) (a1) (a2)) := by
  unfold State.wake
  refine Follows.ite ?_ ?_
  · refine State.wakeLower_follows (hp.sub rfl) ?_
    with_reducible assumption
  · extract_lets y0 y1 y2
    have k3 : Follows p s0 y0 := by
      subst y0
      refine State.wakeRecord_follows (hp.sub rfl) ?_
      with_reducible assumption
    clear_value y0
    clear_value y1
    have k4 : Follows p s0 y2 := by
      subst y2
      refine Follows.update hp ?_ rfl rfl
      with_reducible assumption
    clear_value y2
    refine Follows.ite ?_ ?_
    · refine State.vote_follows (hp.sub rfl) ?_
      with_reducible assumption
    · split
      · refine State.moorRise_follows (hp.sub rfl) ?_
        refine State.setBit_follows 26 hp ?_
        with_reducible assumption
      · refine State.setBit_follows 26 hp ?_
        refine State.startRails_follows (hp.sub rfl) ?_
        with_reducible assumption
      · refine State.setBit_follows 26 hp ?_
        refine State.startCold_follows (hp.sub rfl) ?_
        refine State.leaveOff_follows (hp.sub rfl) ?_
        with_reducible assumption
      · with_reducible assumption

def State.wakeEdges_foot : Foot := ⟨0x1040f0, 0x400f8000800000000000000000000000000000000000000000000000000000000000000000000000000000000000000000000002800000000000000000000000000000004000000⟩

theorem State.wakeEdges_follows {p s0} {a0} {a1} {a2} (hp : Foot.le State.wakeEdges_foot p) (h0 : Follows p s0 a0) :
    Follows p s0 (State.wakeEdges (a0) (a1) (a2)) := by
  unfold State.wakeEdges
  extract_lets y0 y1 y2 y3 y4 y5
  clear_value y0
  have k6 : Follows p s0 y1 := by
    subst y1
    refine Follows.update hp ?_ rfl rfl
    with_reducible assumption
  clear_value y1
  clear_value y2
  have k7 : Follows p s0 y3 := by
    subst y3
    refine Follows.foldl ?_ ?_
    · intro x8 x9 x10
      refine Follows.ite ?_ ?_
      · with_reducible assumption
      · refine State.latch_follows (hp.sub rfl) ?_
        with_reducible assumption
    · with_reducible assumption
  clear_value y3
  clear_value y4
  clear_value y5
  refine Follows.ite ?_ ?_
  · with_reducible assumption
  · refine Follows.ite ?_ ?_
    · refine State.startRails_follows (hp.sub rfl) ?_
      refine Follows.update hp ?_ rfl rfl
      with_reducible assumption
    · split
      · refine State.wake_follows (hp.sub rfl) ?_
        with_reducible assumption
      · with_reducible assumption

def State.aonTimer_foot : Foot := ⟨0x104070, 0x400fa000800000000000000000000000000000000000000000000000000000000000000000000000000000000000000000000002800000000000000000001000000000004000000⟩

theorem State.aonTimer_follows {p s0} {a0} (hp : Foot.le State.aonTimer_foot p) (h0 : Follows p s0 a0) :
    Follows p s0 (State.aonTimer (a0)) := by
  unfold State.aonTimer
  refine Follows.ite ?_ ?_
  · with_reducible assumption
  · extract_lets y0 y1
    have k2 : Follows p s0 y0 := by
      subst y0
      refine Follows.ite ?_ ?_
      · refine State.crystalEdge_follows (hp.sub rfl) ?_
        with_reducible assumption
      · with_reducible assumption
    clear_value y0
    have k3 : Follows p s0 y1 := by
      subst y1
      refine State.aonSource_follows (hp.sub rfl) ?_
      refine State.set_follows 553 hp ?_
      refine State.reach_follows (hp.sub rfl) ?_
      with_reducible assumption
    clear_value y1
    refine Follows.ite ?_ ?_
    · refine State.wake_follows (hp.sub rfl) ?_
      with_reducible assumption
    · with_reducible assumption

def State.timetableWake_foot : Foot := ⟨0x104070, 0x400f8000800000000000000000000000000000000000000000000000000000000000000000000000000000000000000000000002800000000000000000000000000000004000000⟩

theorem State.timetableWake_follows {p s0} {a0} (hp : Foot.le State.timetableWake_foot p) (h0 : Follows p s0 a0) :
    Follows p s0 (State.timetableWake (a0)) := by
  unfold State.timetableWake
  refine Follows.ite ?_ ?_
  · with_reducible assumption
  · extract_lets y0 y1 y2
    have k3 : Follows p s0 y0 := by
      subst y0
      refine Follows.ite ?_ ?_
      · refine State.crystalEdge_follows (hp.sub rfl) ?_
        with_reducible assumption
      · with_reducible assumption
    clear_value y0
    have k4 : Follows p s0 y1 := by
      subst y1
      refine State.reach_follows (hp.sub rfl) ?_
      with_reducible assumption
    clear_value y1
    clear_value y2
    refine State.wake_follows (hp.sub rfl) ?_
    refine Follows.update hp ?_ rfl rfl
    with_reducible assumption

def State.enterOff_foot : Foot := ⟨0x30, 0x40000058000000000000000000000000000000000000000000000000000000000000000000000000000000000000000000000000000000000000000000000000000000000000000⟩

theorem State.enterOff_follows {p s0} {a0} (hp : Foot.le State.enterOff_foot p) (h0 : Follows p s0 a0) :
    Follows p s0 (State.enterOff (a0)) := by
  unfold State.enterOff
  refine Follows.ite ?_ ?_
  · with_reducible assumption
  · extract_lets y0 y1 y2
    clear_value y0
    clear_value y1
    have k3 : Follows p s0 y2 := by
      subst y2
      refine Follows.update hp ?_ rfl rfl
      with_reducible assumption
    clear_value y2
    refine State.set_follows 570 hp ?_
    refine State.set_follows 546 hp ?_
    refine State.set_follows 543 hp ?_
    refine State.set_follows 544 hp ?_
    with_reducible assumption

def State.crystalStable_foot : Foot := ⟨0x70, 0x40000000000000000000000000000000000000000000000000000000000000000000000000000000000000000000000000000000000000000000000000000000000000000⟩

theorem State.crystalStable_follows {p s0} {a0} (hp : Foot.le State.crystalStable_foot p) (h0 : Follows p s0 a0) :
    Follows p s0 (State.crystalStable (a0)) := by
  unfold State.crystalStable
  refine Follows.ite ?_ ?_
  · with_reducible assumption
  · extract_lets y0 y1 y2
    clear_value y0
    clear_value y1
    have k3 : Follows p s0 y2 := by
      subst y2
      refine State.set_follows 546 hp ?_
      refine Follows.update hp ?_ rfl rfl
      with_reducible assumption
    refine Follows.ite ?_ ?_
    · refine State.startRails_follows (hp.sub rfl) ?_
      with_reducible assumption
    · with_reducible assumption

def State.crystalTimeout_foot : Foot := ⟨0x60, 0x20000000000000000000000000000000000000000000000000000000000000000000000000000000000000000000000000000000000000000000000000000000000000000⟩

theorem State.crystalTimeout_follows {p s0} {a0} (hp : Foot.le State.crystalTimeout_foot p) (h0 : Follows p s0 a0) :
    Follows p s0 (State.crystalTimeout (a0)) := by
  unfold State.crystalTimeout
  refine Follows.ite ?_ ?_
  · extract_lets y0 y1
    have k2 : Follows p s0 y0 := by
      subst y0
      refine State.startRails_follows (hp.sub rfl) ?_
      refine State.set_follows 545 hp ?_
      with_reducible assumption
    clear_value y0
    clear_value y1
    refine Follows.update hp ?_ rfl rfl
    with_reducible assumption
  · with_reducible assumption

def State.tcxoUp_foot : Foot := ⟨0x60, 0x0⟩

theorem State.tcxoUp_follows {p s0} {a0} (hp : Foot.le State.tcxoUp_foot p) (h0 : Follows p s0 a0) :
    Follows p s0 (State.tcxoUp (a0)) := by
  unfold State.tcxoUp
  refine Follows.ite ?_ ?_
  · with_reducible assumption
  · extract_lets y0 y1
    clear_value y0
    have k2 : Follows p s0 y1 := by
      subst y1
      refine Follows.update hp ?_ rfl rfl
      with_reducible assumption
    refine Follows.ite ?_ ?_
    · refine State.railsOn_follows (hp.sub rfl) ?_
      with_reducible assumption
    · with_reducible assumption

def State.calibrateKeeper_foot : Foot := ⟨0x10, 0x0⟩

theorem State.calibrateKeeper_follows {p s0} {a0} {a1} (hp : Foot.le State.calibrateKeeper_foot p) (h0 : Follows p s0 a0) :
    Follows p s0 (State.calibrateKeeper (a0) (a1)) := by
  unfold State.calibrateKeeper
  refine Follows.ite ?_ ?_
  · refine Follows.update hp ?_ rfl rfl
    with_reducible assumption
  · refine Follows.ite ?_ ?_
    · refine Follows.update hp ?_ rfl rfl
      with_reducible assumption
    · with_reducible assumption

def State.slewEnd_foot : Foot := ⟨0x10, 0x8000000000000000000000000000000000000000000000000000000000000000000000000000000000000000000000000000000000000000000000000000000000000000⟩

theorem State.slewEnd_follows {p s0} {a0} (hp : Foot.le State.slewEnd_foot p) (h0 : Follows p s0 a0) :
    Follows p s0 (State.slewEnd (a0)) := by
  unfold State.slewEnd
  refine State.set_follows 543 hp ?_
  refine Follows.update hp ?_ rfl rfl
  with_reducible assumption

def State.pwrGoodDrop_foot : Foot := ⟨0x1fffffff, 0x0⟩

theorem State.pwrGoodDrop_follows {p s0} {a0} {a1} (hp : Foot.le State.pwrGoodDrop_foot p) (h0 : Follows p s0 a0) :
    Follows p s0 (State.pwrGoodDrop (a0) (a1)) := by
  unfold State.pwrGoodDrop
  refine Follows.ite ?_ ?_
  · refine State.railDown_follows (hp.sub rfl) ?_
    extract_lets y0 y1
    have k2 : Follows p s0 y0 := by
      subst y0
      refine State.aonSource_follows (hp.sub rfl) ?_
      with_reducible assumption
    clear_value y0
    clear_value y1
    refine Follows.update hp ?_ rfl rfl
    with_reducible assumption
  · with_reducible assumption

def State.thermLow_foot : Foot := ⟨0x100000, 0x1008000000000000000⟩

theorem State.thermLow_follows {p s0} {a0} (hp : Foot.le State.thermLow_foot p) (h0 : Follows p s0 a0) :
    Follows p s0 (State.thermLow (a0)) := by
  unfold State.thermLow
  refine Follows.ite ?_ ?_
  · with_reducible assumption
  · refine State.aonSource_follows (hp.sub rfl) ?_
    refine Follows.ite ?_ ?_
    · refine State.set_follows 63 hp ?_
      with_reducible assumption
    · with_reducible assumption

def State.holdupSample_foot : Foot := ⟨0x100080, 0x1000000000000000000⟩

theorem State.holdupSample_follows {p s0} {a0} {a1} (hp : Foot.le State.holdupSample_foot p) (h0 : Follows p s0 a0) :
    Follows p s0 (State.holdupSample (a0) (a1)) := by
  unfold State.holdupSample
  extract_lets y0
  have k1 : Follows p s0 y0.1 := by
    subst y0
    refine State.holdupCompare_follows (hp.sub rfl) ?_
    with_reducible assumption
  clear_value y0
  refine Follows.ite ?_ ?_
  · refine State.aonSource_follows (hp.sub rfl) ?_
    with_reducible assumption
  · with_reducible assumption

def State.thermalShutdown_foot : Foot := ⟨0x1fffffff, 0x0⟩

theorem State.thermalShutdown_follows {p s0} {a0} {a1} (hp : Foot.le State.thermalShutdown_foot p) (h0 : Follows p s0 a0) :
    Follows p s0 (State.thermalShutdown (a0) (a1)) := by
  unfold State.thermalShutdown
  extract_lets y0 y1 y2 y3 y4 y5
  clear_value y0
  have k6 : Follows p s0 y1 := by
    subst y1
    refine State.set_follows 64 hp ?_
    refine State.set_follows 62 hp ?_
    with_reducible assumption
  clear_value y1
  clear_value y2
  have k7 : Follows p s0 y3 := by
    subst y3
    refine Follows.update hp ?_ rfl rfl
    with_reducible assumption
  clear_value y3
  have k8 : Follows p s0 y4 := by
    subst y4
    refine Follows.forAll ?_ ?_
    · intro x9 x10 x11
      refine Follows.ite ?_ ?_
      · refine State.fallDom_follows (hp.sub rfl) ?_
        with_reducible assumption
      · with_reducible assumption
    · with_reducible assumption
  clear_value y4
  have k12 : Follows p s0 y5 := by
    subst y5
    refine State.lowerRails_follows (hp.sub rfl) ?_
    with_reducible assumption
  clear_value y5
  refine State.logErr_follows (hp.sub rfl) ?_
  with_reducible assumption

def State.tempSample_foot : Foot := ⟨0x1fffffff, 0x0⟩

theorem State.tempSample_follows {p s0} {a0} {a1} {a2} (hp : Foot.le State.tempSample_foot p) (h0 : Follows p s0 a0) :
    Follows p s0 (State.tempSample (a0) (a1) (a2)) := by
  unfold State.tempSample
  refine Follows.ite ?_ ?_
  · with_reducible assumption
  · extract_lets y0 y1 y2 y3 y4 y5 y6 y7 y8
    clear_value y0
    have k9 : Follows p s0 y1 := by
      subst y1
      refine State.setS_follows 60 hp ?_
      refine State.set_follows 58 hp ?_
      with_reducible assumption
    clear_value y1
    clear_value y2
    clear_value y3
    clear_value y4
    have k10 : Follows p s0 y5 := by
      subst y5
      refine Follows.update hp ?_ rfl rfl
      with_reducible assumption
    clear_value y5
    have k11 : Follows p s0 y6 := by
      subst y6
      refine State.set_follows 59 hp ?_
      with_reducible assumption
    clear_value y6
    have k12 : Follows p s0 y7 := by
      subst y7
      refine State.logErr_follows (hp.sub rfl) ?_
      with_reducible assumption
    clear_value y7
    have k13 : Follows p s0 y8 := by
      subst y8
      refine Follows.ite ?_ ?_
      · refine Follows.ite ?_ ?_
        · refine State.fireTile_follows (hp.sub rfl) ?_
          with_reducible assumption
        · with_reducible assumption
      · with_reducible assumption
    clear_value y8
    refine Follows.ite ?_ ?_
    · refine State.thermalShutdown_follows (hp.sub rfl) ?_
      with_reducible assumption
    · with_reducible assumption

def State.thermalRecovery_foot : Foot := ⟨0xb0, 0x4000000004000000⟩

theorem State.thermalRecovery_follows {p s0} {a0} (hp : Foot.le State.thermalRecovery_foot p) (h0 : Follows p s0 a0) :
    Follows p s0 (State.thermalRecovery (a0)) := by
  unfold State.thermalRecovery
  refine Follows.ite ?_ ?_
  · with_reducible assumption
  · extract_lets y0 y1 y2 y3
    have k4 : Follows p s0 y0 := by
      subst y0
      refine State.set_follows 62 hp ?_
      refine State.reach_follows (hp.sub rfl) ?_
      with_reducible assumption
    clear_value y0
    clear_value y1
    have k5 : Follows p s0 y2 := by
      subst y2
      refine Follows.update hp ?_ rfl rfl
      with_reducible assumption
    clear_value y2
    have k6 : Follows p s0 y3 := by
      subst y3
      refine Follows.ite ?_ ?_
      · refine State.raiseRf_follows (hp.sub rfl) ?_
        with_reducible assumption
      · with_reducible assumption
    clear_value y3
    refine Follows.forAll ?_ ?_
    · intro x7 x8 x9
      refine State.settle_follows (hp.sub rfl) ?_
      with_reducible assumption
    · with_reducible assumption

def execWakeSourceEdge_foot : Foot := ⟨0x1040f0, 0x400f8000800000000000000000000000000000000000000000000000000000000000000000000000000000000000000000000002800000000000000000000000000000004000000⟩

theorem execWakeSourceEdge_follows {p s0} {a0} {a1} {a2} (hp : Foot.le execWakeSourceEdge_foot p) (h2 : Follows p s0 a2) :
    FollowsOut p s0 (execWakeSourceEdge (a0) (a1) (a2)) := by
  unfold execWakeSourceEdge
  refine FollowsOut.next ?_
  refine State.wakeEdges_follows (hp.sub rfl) ?_
  with_reducible assumption

def execAonTimer_foot : Foot := ⟨0x104070, 0x400fa000800000000000000000000000000000000000000000000000000000000000000000000000000000000000000000000002800000000000000000001000000000004000000⟩

theorem execAonTimer_follows {p s0} {a0} (hp : Foot.le execAonTimer_foot p) (h0 : Follows p s0 a0) :
    FollowsOut p s0 (execAonTimer (a0)) := by
  unfold execAonTimer
  refine FollowsOut.next ?_
  refine State.aonTimer_follows (hp.sub rfl) ?_
  with_reducible assumption

def execTimetableWake_foot : Foot := ⟨0x104070, 0x400f8000800000000000000000000000000000000000000000000000000000000000000000000000000000000000000000000002800000000000000000000000000000004000000⟩

theorem execTimetableWake_follows {p s0} {a0} (hp : Foot.le execTimetableWake_foot p) (h0 : Follows p s0 a0) :
    FollowsOut p s0 (execTimetableWake (a0)) := by
  unfold execTimetableWake
  refine FollowsOut.next ?_
  refine State.timetableWake_follows (hp.sub rfl) ?_
  with_reducible assumption

def execEnterOff_foot : Foot := ⟨0x30, 0x40000058000000000000000000000000000000000000000000000000000000000000000000000000000000000000000000000000000000000000000000000000000000000000000⟩

theorem execEnterOff_follows {p s0} {a0} (hp : Foot.le execEnterOff_foot p) (h0 : Follows p s0 a0) :
    FollowsOut p s0 (execEnterOff (a0)) := by
  unfold execEnterOff
  refine FollowsOut.next ?_
  refine State.enterOff_follows (hp.sub rfl) ?_
  with_reducible assumption

def execCrystalStable_foot : Foot := ⟨0x70, 0x40000000000000000000000000000000000000000000000000000000000000000000000000000000000000000000000000000000000000000000000000000000000000000⟩

theorem execCrystalStable_follows {p s0} {a0} (hp : Foot.le execCrystalStable_foot p) (h0 : Follows p s0 a0) :
    FollowsOut p s0 (execCrystalStable (a0)) := by
  unfold execCrystalStable
  refine FollowsOut.next ?_
  refine State.crystalStable_follows (hp.sub rfl) ?_
  with_reducible assumption

def execCrystalTimeout_foot : Foot := ⟨0x60, 0x20000000000000000000000000000000000000000000000000000000000000000000000000000000000000000000000000000000000000000000000000000000000000000⟩

theorem execCrystalTimeout_follows {p s0} {a0} (hp : Foot.le execCrystalTimeout_foot p) (h0 : Follows p s0 a0) :
    FollowsOut p s0 (execCrystalTimeout (a0)) := by
  unfold execCrystalTimeout
  refine FollowsOut.next ?_
  refine State.crystalTimeout_follows (hp.sub rfl) ?_
  with_reducible assumption

def execTcxoReady_foot : Foot := ⟨0x60, 0x0⟩

theorem execTcxoReady_follows {p s0} {a0} (hp : Foot.le execTcxoReady_foot p) (h0 : Follows p s0 a0) :
    FollowsOut p s0 (execTcxoReady (a0)) := by
  unfold execTcxoReady
  refine FollowsOut.next ?_
  refine State.tcxoUp_follows (hp.sub rfl) ?_
  with_reducible assumption

def execKeeperCalibration_foot : Foot := ⟨0x10, 0x0⟩

theorem execKeeperCalibration_follows {p s0} {a0} {a1} (hp : Foot.le execKeeperCalibration_foot p) (h1 : Follows p s0 a1) :
    FollowsOut p s0 (execKeeperCalibration (a0) (a1)) := by
  unfold execKeeperCalibration
  refine FollowsOut.next ?_
  refine State.calibrateKeeper_follows (hp.sub rfl) ?_
  with_reducible assumption

def execKeeperSlewEnd_foot : Foot := ⟨0x10, 0x8000000000000000000000000000000000000000000000000000000000000000000000000000000000000000000000000000000000000000000000000000000000000000⟩

theorem execKeeperSlewEnd_follows {p s0} {a0} (hp : Foot.le execKeeperSlewEnd_foot p) (h0 : Follows p s0 a0) :
    FollowsOut p s0 (execKeeperSlewEnd (a0)) := by
  unfold execKeeperSlewEnd
  refine FollowsOut.next ?_
  refine State.slewEnd_follows (hp.sub rfl) ?_
  with_reducible assumption

def execPwrGoodDrop_foot : Foot := ⟨0x1fffffff, 0x0⟩

theorem execPwrGoodDrop_follows {p s0} {a0} {a1} (hp : Foot.le execPwrGoodDrop_foot p) (h1 : Follows p s0 a1) :
    FollowsOut p s0 (execPwrGoodDrop (a0) (a1)) := by
  unfold execPwrGoodDrop
  refine FollowsOut.next ?_
  refine State.pwrGoodDrop_follows (hp.sub rfl) ?_
  with_reducible assumption

def execThermNLow_foot : Foot := ⟨0x100000, 0x1008000000000000000⟩

theorem execThermNLow_follows {p s0} {a0} (hp : Foot.le execThermNLow_foot p) (h0 : Follows p s0 a0) :
    FollowsOut p s0 (execThermNLow (a0)) := by
  unfold execThermNLow
  refine FollowsOut.next ?_
  refine State.thermLow_follows (hp.sub rfl) ?_
  with_reducible assumption

def execHoldupCompare_foot : Foot := ⟨0x100080, 0x1000000000000000000⟩

theorem execHoldupCompare_follows {p s0} {a0} {a1} (hp : Foot.le execHoldupCompare_foot p) (h1 : Follows p s0 a1) :
    FollowsOut p s0 (execHoldupCompare (a0) (a1)) := by
  unfold execHoldupCompare
  refine FollowsOut.next ?_
  refine State.holdupSample_follows (hp.sub rfl) ?_
  with_reducible assumption

def execTempSample_foot : Foot := ⟨0x1fffffff, 0x0⟩

theorem execTempSample_follows {p s0} {a0} {a1} {a2} (hp : Foot.le execTempSample_foot p) (h2 : Follows p s0 a2) :
    FollowsOut p s0 (execTempSample (a0) (a1) (a2)) := by
  unfold execTempSample
  refine FollowsOut.next ?_
  refine State.tempSample_follows (hp.sub rfl) ?_
  with_reducible assumption

def execThermalRecovery_foot : Foot := ⟨0xb0, 0x4000000004000000⟩

theorem execThermalRecovery_follows {p s0} {a0} (hp : Foot.le execThermalRecovery_foot p) (h0 : Follows p s0 a0) :
    FollowsOut p s0 (execThermalRecovery (a0)) := by
  unfold execThermalRecovery
  refine FollowsOut.next ?_
  refine State.thermalRecovery_follows (hp.sub rfl) ?_
  with_reducible assumption

/-! ### Machine/WakePlane.lean -/

def State.sniff_foot : Foot := ⟨0x100000, 0x40000000000000000000000000000000000000000000000000000000000000000000000000000000000000000000000000000000000000000000000000000000000000000000000⟩

theorem State.sniff_follows {p s0} {a0} {a1} {a2} (hp : Foot.le State.sniff_foot p) (h0 : Follows p s0 a0) :
    Follows p s0 (State.sniff (a0) (a1) (a2)) := by
  unfold State.sniff
  refine Follows.ite ?_ ?_
  · extract_lets y0 y1 y2
    clear_value y0
    have k3 : Follows p s0 y1 := by
      subst y1
      refine State.setWk_follows (hp.sub rfl) ?_
      with_reducible assumption
    clear_value y1
    clear_value y2
    refine Follows.update hp ?_ rfl rfl
    with_reducible assumption
  · with_reducible assumption

def State.detectTimeout_foot : Foot := ⟨0x10, 0x40000000000000000000000000000000000000000000000000000000000000000000000000000000000000000000000000000000000000000000000000000000000000000000000⟩

theorem State.detectTimeout_follows {p s0} {a0} {a1} (hp : Foot.le State.detectTimeout_foot p) (h0 : Follows p s0 a0) :
    Follows p s0 (State.detectTimeout (a0) (a1)) := by
  unfold State.detectTimeout
  refine Follows.ite ?_ ?_
  · refine State.setWk_follows (hp.sub rfl) ?_
    refine State.reach_follows (hp.sub rfl) ?_
    with_reducible assumption
  · with_reducible assumption

def State.bellResync_foot : Foot := ⟨0x10000010, 0x8000000000000000000000000000000000000000000000000000000000000000000000000000000000000000000000000000000000000000000000000000000000000000⟩

theorem State.bellResync_follows {p s0} {a0} {a1} (hp : Foot.le State.bellResync_foot p) (h0 : Follows p s0 a0) :
    Follows p s0 (State.bellResync (a0) (a1)).1 := by
  unfold State.bellResync
  refine Follows.ite1 ?_ ?_
  · with_reducible assumption
  · extract_lets y0 y1 y2 y3
    clear_value y0
    clear_value y1
    have k4 : Follows p s0 y2 := by
      subst y2
      refine State.tickFree_follows (hp.sub rfl) ?_
      with_reducible assumption
    clear_value y2
    clear_value y3
    refine Follows.ite1 ?_ ?_
    · refine Follows.pair ?_
      refine State.set_follows 543 hp ?_
      refine Follows.update hp ?_ rfl rfl
      with_reducible assumption
    · refine Follows.ite1 ?_ ?_
      · refine Follows.pair ?_
        refine State.set_follows 543 hp ?_
        refine Follows.update hp ?_ rfl rfl
        with_reducible assumption
      · with_reducible assumption

def State.bellSource_foot : Foot := ⟨0x104070, 0x400f8000800000000000000000000000000000000000000000000000000000000000000000000000000000000000000000000002800000000000000000001000000000004000000⟩

theorem State.bellSource_follows {p s0} {a0} {a1} (hp : Foot.le State.bellSource_foot p) (h0 : Follows p s0 a0) :
    Follows p s0 (State.bellSource (a0) (a1)) := by
  unfold State.bellSource
  extract_lets y0
  have k1 : Follows p s0 y0 := by
    subst y0
    refine State.aonSource_follows (hp.sub rfl) ?_
    with_reducible assumption
  clear_value y0
  refine Follows.ite ?_ ?_
  · refine State.wake_follows (hp.sub rfl) ?_
    with_reducible assumption
  · with_reducible assumption

def State.bellAccept_foot : Foot := ⟨0x10104070, 0x3f00400f8008800000000000000000000000000000000000000000000000000000000000000000000000000000000000000000000002800000000000000000001000000000004000000⟩

theorem State.bellAccept_follows {p s0} {a0} {a1} {a2} (hp : Foot.le State.bellAccept_foot p) (h0 : Follows p s0 a0) :
    Follows p s0 (State.bellAccept (a0) (a1) (a2)) := by
  unfold State.bellAccept
  extract_lets y0 y1 y2 y3 y4 y5 y6 y7 y8
  clear_value y0
  clear_value y1
  have k9 : Follows p s0 y2 := by
    subst y2
    refine Follows.update hp ?_ rfl rfl
    with_reducible assumption
  clear_value y2
  have k10 : Follows p s0 y3 := by
    subst y3
    refine State.set_follows 582 hp ?_
    refine State.set_follows 581 hp ?_
    refine State.set_follows 580 hp ?_
    with_reducible assumption
  clear_value y3
  have k11 : Follows p s0 y4.1 := by
    subst y4
    refine State.bellResync_follows (hp.sub rfl) ?_
    with_reducible assumption
  clear_value y4
  have k12 : Follows p s0 y5 := by
    subst y5
    refine State.set_follows 585 hp ?_
    refine State.set_follows 584 hp ?_
    refine State.set_follows 583 hp ?_
    with_reducible assumption
  clear_value y5
  clear_value y6
  clear_value y7
  have k13 : Follows p s0 y8 := by
    subst y8
    refine Follows.ite ?_ ?_
    · refine Follows.update hp ?_ rfl rfl
      with_reducible assumption
    · with_reducible assumption
  clear_value y8
  refine Follows.ite ?_ ?_
  · refine State.bellSource_follows (hp.sub rfl) ?_
    with_reducible assumption
  · with_reducible assumption

def State.bellCheck_foot : Foot := ⟨0x10104070, 0x3ff00400f8008800000000000000000000000000000000000000000000000000000000000000000000000000000000000000000000002800000000000000000001000000000004000000⟩

theorem State.bellCheck_follows {p s0} {a0} {a1} {a2} (hp : Foot.le State.bellCheck_foot p) (h0 : Follows p s0 a0) :
    Follows p s0 (State.bellCheck (a0) (a1) (a2)) := by
  unfold State.bellCheck
  refine Follows.ite ?_ ?_
  · refine State.bump_follows 589 hp ?_
    with_reducible assumption
  · refine Follows.ite ?_ ?_
    · with_reducible assumption
    · refine Follows.ite ?_ ?_
      · refine State.bump_follows 588 hp ?_
        with_reducible assumption
      · refine Follows.ite ?_ ?_
        · refine State.bump_follows 587 hp ?_
          with_reducible assumption
        · refine Follows.ite ?_ ?_
          · refine State.bump_follows 586 hp ?_
            with_reducible assumption
          · refine State.bellAccept_follows (hp.sub rfl) ?_
            with_reducible assumption

def State.bellRaw_foot : Foot := ⟨0x104070, 0x3fc0000400f8000800000000000000000000000000000000000000000000000000000000000000000000000000000000000000000000002800000000000000000000000000000004000000⟩

theorem State.bellRaw_follows {p s0} {a0} {a1} {a2} (hp : Foot.le State.bellRaw_foot p) (h0 : Follows p s0 a0) :
    Follows p s0 (State.bellRaw (a0) (a1) (a2)) := by
  unfold State.bellRaw
  extract_lets y0 y1 y2 y3 y4 y5 y6
  clear_value y0
  have k7 : Follows p s0 y1 := by
    subst y1
    refine State.set_follows 592 hp ?_
    refine State.set_follows 591 hp ?_
    refine State.set_follows 590 hp ?_
    with_reducible assumption
  clear_value y1
  have k8 : Follows p s0 y2 := by
    subst y2
    refine State.set_follows 595 hp ?_
    refine State.set_follows 594 hp ?_
    refine State.set_follows 593 hp ?_
    with_reducible assumption
  clear_value y2
  have k9 : Follows p s0 y3 := by
    subst y3
    refine State.set_follows 597 hp ?_
    refine State.set_follows 596 hp ?_
    with_reducible assumption
  clear_value y3
  clear_value y4
  have k10 : Follows p s0 y5 := by
    subst y5
    refine Follows.update hp ?_ rfl rfl
    with_reducible assumption
  clear_value y5
  have k11 : Follows p s0 y6 := by
    subst y6
    refine State.latch_follows (hp.sub rfl) ?_
    with_reducible assumption
  clear_value y6
  refine Follows.ite ?_ ?_
  · refine Follows.ite ?_ ?_
    · refine State.wake_follows (hp.sub rfl) ?_
      with_reducible assumption
    · with_reducible assumption
  · with_reducible assumption

def State.bellReceived_foot : Foot := ⟨0x10104070, 0x3ffff00400f8008800000000000000000000000000000000000000000000000000000000000000000000000000000000000000000000002800000000000000000001000000000004000000⟩

theorem State.bellReceived_follows {p s0} {a0} {a1} {a2} {a3} (hp : Foot.le State.bellReceived_foot p) (h0 : Follows p s0 a0) :
    Follows p s0 (State.bellReceived (a0) (a1) (a2) (a3)) := by
  unfold State.bellReceived
  refine Follows.ite ?_ ?_
  · with_reducible assumption
  · extract_lets y0 y1 y2
    have k3 : Follows p s0 y0 := by
      subst y0
      refine State.setWk_follows (hp.sub rfl) ?_
      with_reducible assumption
    clear_value y0
    clear_value y1
    clear_value y2
    refine Follows.ite ?_ ?_
    · refine State.bellRaw_follows (hp.sub rfl) ?_
      with_reducible assumption
    · refine State.bellCheck_follows (hp.sub rfl) ?_
      with_reducible assumption

def State.wakePulseEnd_foot : Foot := ⟨0x100010, 0x0⟩

theorem State.wakePulseEnd_follows {p s0} {a0} (hp : Foot.le State.wakePulseEnd_foot p) (h0 : Follows p s0 a0) :
    Follows p s0 (State.wakePulseEnd (a0)) := by
  unfold State.wakePulseEnd
  refine Follows.ite ?_ ?_
  · extract_lets y0 y1
    have k2 : Follows p s0 y0 := by
      subst y0
      refine State.reach_follows (hp.sub rfl) ?_
      with_reducible assumption
    clear_value y0
    clear_value y1
    refine Follows.update hp ?_ rfl rfl
    with_reducible assumption
  · with_reducible assumption

def State.fillBucket_foot : Foot := ⟨0x100000, 0x0⟩

theorem State.fillBucket_follows {p s0} {a0} (hp : Foot.le State.fillBucket_foot p) (h0 : Follows p s0 a0) :
    Follows p s0 (State.fillBucket (a0)) := by
  unfold State.fillBucket
  extract_lets y0 y1
  clear_value y0
  clear_value y1
  refine Follows.update hp ?_ rfl rfl
  with_reducible assumption

def State.dutyWrite_foot : Foot := ⟨0x100000, 0x80000000000000000000000000000000000000000000000000000000000000000000000000000000000000000000000000000000000000000000000000000000000000000000000⟩

theorem State.dutyWrite_follows {p s0} {a0} {a1} (hp : Foot.le State.dutyWrite_foot p) (h0 : Follows p s0 a0) :
    Follows p s0 (State.dutyWrite (a0) (a1)) := by
  unfold State.dutyWrite
  refine State.fillBucket_follows (hp.sub rfl) ?_
  refine State.set_follows 571 hp ?_
  refine State.fillBucket_follows (hp.sub rfl) ?_
  with_reducible assumption

def State.bellOver_foot : Foot := ⟨0x100020, 0xc000000000000000000000000000000000000000000000000000000000000000000000000000000000000000000000000000000000000000000000000000000000000000004000000⟩

theorem State.bellOver_follows {p s0} {a0} {a1} (hp : Foot.le State.bellOver_foot p) (h0 : Follows p s0 a0) :
    Follows p s0 (State.bellOver (a0) (a1)) := by
  unfold State.bellOver
  extract_lets y0 y1
  clear_value y0
  have k2 : Follows p s0 y1 := by
    subst y1
    refine Follows.update hp ?_ rfl rfl
    with_reducible assumption
  clear_value y1
  refine State.unvote_follows (hp.sub rfl) ?_
  refine State.set_follows 579 hp ?_
  refine State.set_follows 578 hp ?_
  with_reducible assumption

def State.bellRequest_foot : Foot := ⟨0x100020, 0xfe00000000000000000000000000000000000000000000000000000000000000000000000000000000000000000000000000000000000000000000000000000000000000004000000⟩

theorem State.bellRequest_follows {p s0} {a0} {a1} (hp : Foot.le State.bellRequest_foot p) (h0 : Follows p s0 a0) :
    Follows p s0 (State.bellRequest (a0) (a1)).1 := by
  unfold State.bellRequest
  extract_lets y0 y1 y2 y3
  clear_value y0
  have k4 : Follows p s0 y1 := by
    subst y1
    refine State.set_follows 575 hp ?_
    refine State.set_follows 574 hp ?_
    refine State.set_follows 573 hp ?_
    with_reducible assumption
  clear_value y1
  have k5 : Follows p s0 y2 := by
    subst y2
    refine State.set_follows 577 hp ?_
    refine State.set_follows 576 hp ?_
    with_reducible assumption
  clear_value y2
  clear_value y3
  refine Follows.ite1 ?_ ?_
  · refine Follows.pair ?_
    refine State.set_follows 579 hp ?_
    with_reducible assumption
  · refine Follows.ite1 ?_ ?_
    · with_reducible assumption
    · refine Follows.ite1 ?_ ?_
      · refine Follows.pair ?_
        refine State.set_follows 579 hp ?_
        with_reducible assumption
      · refine Follows.pair ?_
        refine State.vote_follows (hp.sub rfl) ?_
        refine State.set_follows 578 hp ?_
        refine Follows.update hp ?_ rfl rfl
        with_reducible assumption

def State.bellStart_foot : Foot := ⟨0x1040b0, 0xc040000000000000000000000000000000000000000000000000000000000000000000000000000000000000000000000000000000000000000000000000000000000100004000000⟩

theorem State.bellStart_follows {p s0} {a0} {a1} (hp : Foot.le State.bellStart_foot p) (h0 : Follows p s0 a0) :
    Follows p s0 (State.bellStart (a0) (a1)) := by
  unfold State.bellStart
  refine Follows.ite ?_ ?_
  · with_reducible assumption
  · extract_lets y0 y1 y2 y3 y4 y5 y6
    have k7 : Follows p s0 y0 := by
      subst y0
      refine State.fillBucket_follows (hp.sub rfl) ?_
      refine State.reach_follows (hp.sub rfl) ?_
      with_reducible assumption
    clear_value y0
    have k8 : Follows p s0 y1 := by
      subst y1
      refine Follows.ite ?_ ?_
      · refine State.drbgRequest_follows (hp.sub rfl) ?_
        with_reducible assumption
      · with_reducible assumption
    clear_value y1
    clear_value y2
    clear_value y3
    clear_value y4
    clear_value y5
    have k9 : Follows p s0 y6 := by
      subst y6
      refine Follows.update hp ?_ rfl rfl
      with_reducible assumption
    clear_value y6
    refine Follows.ite ?_ ?_
    · refine Follows.ite ?_ ?_
      · refine State.bellOver_follows (hp.sub rfl) ?_
        with_reducible assumption
      · with_reducible assumption
    · refine Follows.ite ?_ ?_
      · refine State.wkResume_follows (hp.sub rfl) ?_
        refine State.wkBlank_follows (hp.sub rfl) ?_
        refine State.bump_follows 44 hp ?_
        with_reducible assumption
      · refine State.wkBlank_follows (hp.sub rfl) ?_
        refine State.refreshCx_follows (hp.sub rfl) ?_
        with_reducible assumption

def State.bellEnd_foot : Foot := ⟨0x1000b0, 0xc040000000000000000000000000000000000000000000000000000000000000000000000000000000000000000000000000000000000000000000000000000000000000004000000⟩

theorem State.bellEnd_follows {p s0} {a0} (hp : Foot.le State.bellEnd_foot p) (h0 : Follows p s0 a0) :
    Follows p s0 (State.bellEnd (a0)) := by
  unfold State.bellEnd
  refine Follows.ite ?_ ?_
  · with_reducible assumption
  · extract_lets y0 y1
    have k2 : Follows p s0 y0 := by
      subst y0
      refine State.bellOver_follows (hp.sub rfl) ?_
      refine State.reach_follows (hp.sub rfl) ?_
      with_reducible assumption
    clear_value y0
    clear_value y1
    refine State.wkResume_follows (hp.sub rfl) ?_
    refine State.refreshCx_follows (hp.sub rfl) ?_
    refine Follows.update hp ?_ rfl rfl
    with_reducible assumption

def execSniff_foot : Foot := ⟨0x100000, 0x40000000000000000000000000000000000000000000000000000000000000000000000000000000000000000000000000000000000000000000000000000000000000000000000⟩

theorem execSniff_follows {p s0} {a0} {a1} {a2} (hp : Foot.le execSniff_foot p) (h2 : Follows p s0 a2) :
    FollowsOut p s0 (execSniff (a0) (a1) (a2)) := by
  unfold execSniff
  refine FollowsOut.next ?_
  refine State.sniff_follows (hp.sub rfl) ?_
  with_reducible assumption

def execDetectTimeout_foot : Foot := ⟨0x10, 0x40000000000000000000000000000000000000000000000000000000000000000000000000000000000000000000000000000000000000000000000000000000000000000000000⟩

theorem execDetectTimeout_follows {p s0} {a0} {a1} (hp : Foot.le execDetectTimeout_foot p) (h1 : Follows p s0 a1) :
    FollowsOut p s0 (execDetectTimeout (a0) (a1)) := by
  unfold execDetectTimeout
  refine FollowsOut.next ?_
  refine State.detectTimeout_follows (hp.sub rfl) ?_
  with_reducible assumption

def execBellReceived_foot : Foot := ⟨0x10104070, 0x3ffff00400f8008800000000000000000000000000000000000000000000000000000000000000000000000000000000000000000000002800000000000000000001000000000004000000⟩

theorem execBellReceived_follows {p s0} {a0} {a1} {a2} {a3} (hp : Foot.le execBellReceived_foot p) (h3 : Follows p s0 a3) :
    FollowsOut p s0 (execBellReceived (a0) (a1) (a2) (a3)) := by
  unfold execBellReceived
  refine FollowsOut.next ?_
  refine State.bellReceived_follows (hp.sub rfl) ?_
  with_reducible assumption

def execWakeNPulseEnd_foot : Foot := ⟨0x100010, 0x0⟩

theorem execWakeNPulseEnd_follows {p s0} {a0} (hp : Foot.le execWakeNPulseEnd_foot p) (h0 : Follows p s0 a0) :
    FollowsOut p s0 (execWakeNPulseEnd (a0)) := by
  unfold execWakeNPulseEnd
  refine FollowsOut.next ?_
  refine State.wakePulseEnd_follows (hp.sub rfl) ?_
  with_reducible assumption

def execBellTxStart_foot : Foot := ⟨0x1040b0, 0xc040000000000000000000000000000000000000000000000000000000000000000000000000000000000000000000000000000000000000000000000000000000000100004000000⟩

theorem execBellTxStart_follows {p s0} {a0} {a1} (hp : Foot.le execBellTxStart_foot p) (h1 : Follows p s0 a1) :
    FollowsOut p s0 (execBellTxStart (a0) (a1)) := by
  unfold execBellTxStart
  refine FollowsOut.next ?_
  refine State.bellStart_follows (hp.sub rfl) ?_
  with_reducible assumption

def execBellTxEnd_foot : Foot := ⟨0x1000b0, 0xc040000000000000000000000000000000000000000000000000000000000000000000000000000000000000000000000000000000000000000000000000000000000000004000000⟩

theorem execBellTxEnd_follows {p s0} {a0} (hp : Foot.le execBellTxEnd_foot p) (h0 : Follows p s0 a0) :
    FollowsOut p s0 (execBellTxEnd (a0)) := by
  unfold execBellTxEnd
  refine FollowsOut.next ?_
  refine State.bellEnd_follows (hp.sub rfl) ?_
  with_reducible assumption

/-! ### Machine/Images.lean -/

def State.loadBad_foot : Foot := ⟨0x0, 0xe800800000400000000000000000000000000000000000000000000000000000000000000000000000000000000000000000000000000000000000000000⟩

theorem State.loadBad_follows {p s0} {a0} {a1} (hp : Foot.le State.loadBad_foot p) (h0 : Follows p s0 a0) :
    Follows p s0 (State.loadBad (a0) (a1)) := by
  unfold State.loadBad
  extract_lets y0 y1 y2
  clear_value y0
  clear_value y1
  have k3 : Follows p s0 y2 := by
    subst y2
    refine Follows.forAll ?_ ?_
    · intro x4 x5 x6
      refine State.set_follows 479 hp ?_
      with_reducible assumption
    · with_reducible assumption
  clear_value y2
  split
  · refine State.set_follows 454 hp ?_
    with_reducible assumption
  · refine Follows.forAll ?_ ?_
    · intro x10 x11 x12
      extract_lets y13
      clear_value y13
      refine Follows.ite ?_ ?_
      · refine State.set_follows 495 hp ?_
        refine State.set_follows 494 hp ?_
        refine State.set_follows 493 hp ?_
        refine State.set_follows 491 hp ?_
        with_reducible assumption
      · with_reducible assumption
    · refine State.set_follows 454 hp ?_
      with_reducible assumption

def State.loadElement_foot : Foot := ⟨0x400, 0x7fe00800000000000000000000000000000000000000000000000000000000000000000000000000000⟩

theorem State.loadElement_follows {p s0} {a0} {a1} (hp : Foot.le State.loadElement_foot p) (h0 : Follows p s0 a0) :
    Follows p s0 (State.loadElement (a0) (a1)) := by
  unfold State.loadElement
  extract_lets y0 y1 y2 y3 y4 y5 y6
  clear_value y0
  clear_value y1
  have k7 : Follows p s0 y2 := by
    subst y2
    refine State.set_follows 325 hp ?_
    refine State.set_follows 324 hp ?_
    refine State.set_follows 323 hp ?_
    with_reducible assumption
  clear_value y2
  have k8 : Follows p s0 y3 := by
    subst y3
    refine State.calWritten_follows (hp.sub rfl) ?_
    refine State.set_follows 326 hp ?_
    with_reducible assumption
  clear_value y3
  have k9 : Follows p s0 y4 := by
    subst y4
    refine Follows.forAll ?_ ?_
    · intro x10 x11 x12
      refine State.set_follows 327 hp ?_
      refine State.set_follows 328 hp ?_
      with_reducible assumption
    · with_reducible assumption
  clear_value y4
  have k13 : Follows p s0 y5 := by
    subst y5
    refine State.set_follows 329 hp ?_
    refine State.set_follows 330 hp ?_
    with_reducible assumption
  clear_value y5
  have k14 : Follows p s0 y6 := by
    subst y6
    refine State.set_follows 322 hp ?_
    refine State.set_follows 321 hp ?_
    with_reducible assumption
  clear_value y6
  refine State.set_follows 311 hp ?_
  with_reducible assumption

def State.loadCalibration_foot : Foot := ⟨0x500, 0x20010007fe01800000000000000000000000000000000000000000000000000000000000000000000000000000⟩

theorem State.loadCalibration_follows {p s0} {a0} (hp : Foot.le State.loadCalibration_foot p) (h0 : Follows p s0 a0) :
    Follows p s0 (State.loadCalibration (a0)) := by
  unfold State.loadCalibration
  refine Follows.forAll ?_ ?_
  · intro x0 x1 x2
    refine State.tileCommitNow_follows (hp.sub rfl) ?_
    with_reducible assumption
  · refine Follows.forAll ?_ ?_
    · intro x3 x4 x5
      refine State.loadElement_follows (hp.sub rfl) ?_
      with_reducible assumption
    · with_reducible assumption

/-! ### Machine/Boot.lean -/

def State.engRun_foot : Foot := ⟨0x20000, 0x0⟩

theorem State.engRun_follows {p s0} {a0} {a1} (hp : Foot.le State.engRun_foot p) (h0 : Follows p s0 a0) :
    Follows p s0 (State.engRun (a0) (a1)) := by
  unfold State.engRun
  refine State.updEng_follows (hp.sub rfl) ?_
  with_reducible assumption

def State.refreshSerdes_foot : Foot := ⟨0x20, 0x4000000⟩

theorem State.refreshSerdes_follows {p s0} {a0} (hp : Foot.le State.refreshSerdes_foot p) (h0 : Follows p s0 a0) :
    Follows p s0 (State.refreshSerdes (a0)) := by
  unfold State.refreshSerdes
  refine State.aimVote_follows (hp.sub rfl) ?_
  refine State.aimVote_follows (hp.sub rfl) ?_
  with_reducible assumption

def State.linkTrain_foot : Foot := ⟨0x200020, 0x4000000⟩

theorem State.linkTrain_follows {p s0} {a0} {a1} (hp : Foot.le State.linkTrain_foot p) (h0 : Follows p s0 a0) :
    Follows p s0 (State.linkTrain (a0) (a1)) := by
  unfold State.linkTrain
  refine Follows.ite ?_ ?_
  · with_reducible assumption
  · refine State.refreshSerdes_follows (hp.sub rfl) ?_
    refine State.updLink_follows (hp.sub rfl) ?_
    with_reducible assumption

def State.trainLinks_foot : Foot := ⟨0x200020, 0x4000000⟩

theorem State.trainLinks_follows {p s0} {a0} (hp : Foot.le State.trainLinks_foot p) (h0 : Follows p s0 a0) :
    Follows p s0 (State.trainLinks (a0)) := by
  unfold State.trainLinks
  refine Follows.forAll ?_ ?_
  · intro x0 x1 x2
    refine Follows.ite ?_ ?_
    · refine State.linkTrain_follows (hp.sub rfl) ?_
      with_reducible assumption
    · with_reducible assumption
  · refine State.linkTrain_follows (hp.sub rfl) ?_
    with_reducible assumption

def State.bootStatus_foot : Foot := ⟨0x0, 0x240000⟩

theorem State.bootStatus_follows {p s0} {a0} {a1} {a2} (hp : Foot.le State.bootStatus_foot p) (h0 : Follows p s0 a0) :
    Follows p s0 (State.bootStatus (a0) (a1) (a2)) := by
  unfold State.bootStatus
  refine State.set_follows 21 hp ?_
  refine State.set_follows 18 hp ?_
  with_reducible assumption

def State.bootRecord_foot : Foot := ⟨0x200000c, 0x18000000000000000000000000000000000000000000000000000000000000000000000000000000000000000000000000000000000000000000000000000000000000000000000000000000000⟩

theorem State.bootRecord_follows {p s0} {a0} (hp : Foot.le State.bootRecord_foot p) (h0 : Follows p s0 a0) :
    Follows p s0 (State.bootRecord (a0)) := by
  unfold State.bootRecord
  refine State.blackBoxOnly_follows (hp.sub rfl) ?_
  with_reducible assumption

def State.countBoot_foot : Foot := ⟨0x0, 0x6000000000000000000000000000000000000000000000000000000000000000000000000000000000000000000000000000000000000000000000000000000000000000000000000000030000⟩

theorem State.countBoot_follows {p s0} {a0} (hp : Foot.le State.countBoot_foot p) (h0 : Follows p s0 a0) :
    Follows p s0 (State.countBoot (a0)) := by
  unfold State.countBoot
  extract_lets y0 y1
  clear_value y0
  have k2 : Follows p s0 y1 := by
    subst y1
    refine State.set_follows 614 hp ?_
    refine State.set_follows 613 hp ?_
    with_reducible assumption
  clear_value y1
  refine State.set_follows 17 hp ?_
  refine State.set_follows 16 hp ?_
  with_reducible assumption

def State.hubRelease_foot : Foot := ⟨0x1fffffff, 0x0⟩

theorem State.hubRelease_follows {p s0} {a0} {a1} (hp : Foot.le State.hubRelease_foot p) (h0 : Follows p s0 a0) :
    Follows p s0 (State.hubRelease (a0) (a1)) := by
  unfold State.hubRelease
  extract_lets y0 y1 y2 y3 y4 y5 y6 y7 y8 y9 y10 y11 y12 y13
  clear_value y0
  have k14 : Follows p s0 y1 := by
    subst y1
    refine State.takeBack_follows (hp.sub rfl) ?_
    refine State.setDom_follows (hp.sub rfl) ?_
    refine State.setDom_follows (hp.sub rfl) ?_
    with_reducible assumption
  clear_value y1
  clear_value y2
  have k15 : Follows p s0 y3 := by
    subst y3
    refine Follows.update hp ?_ rfl rfl
    with_reducible assumption
  clear_value y3
  have k16 : Follows p s0 y4 := by
    subst y4
    refine Follows.ite ?_ ?_
    · refine State.latchesToPending_follows (hp.sub rfl) ?_
      refine State.pmc_follows (hp.sub rfl) ?_
      with_reducible assumption
    · with_reducible assumption
  clear_value y4
  clear_value y5
  clear_value y6
  have k17 : Follows p s0 y7 := by
    subst y7
    refine State.set_follows 19 hp ?_
    refine Follows.update hp ?_ rfl rfl
    with_reducible assumption
  clear_value y7
  have k18 : Follows p s0 y8 := by
    subst y8
    refine State.seedLfsr_follows (hp.sub rfl) ?_
    refine State.countBoot_follows (hp.sub rfl) ?_
    with_reducible assumption
  clear_value y8
  clear_value y9
  have k19 : Follows p s0 y10 := by
    subst y10
    refine Follows.update hp ?_ rfl rfl
    with_reducible assumption
  clear_value y10
  have k20 : Follows p s0 y11 := by
    subst y11
    refine Follows.ite ?_ ?_
    · with_reducible assumption
    · refine State.sourceStart_follows (hp.sub rfl) ?_
      with_reducible assumption
  clear_value y11
  have k21 : Follows p s0 y13 := by
    subst y13
    refine State.refreshHold_follows (hp.sub rfl) ?_
    refine Follows.ite ?_ ?_
    · refine State.reportRng_follows (hp.sub rfl) ?_
      with_reducible assumption
    · refine Follows.ite ?_ ?_
      · refine State.rngInstantiate_follows (hp.sub rfl) ?_
        with_reducible assumption
      · with_reducible assumption
  clear_value y13
  refine State.tsOutArm_follows (hp.sub rfl) ?_
  refine State.refreshMode_follows (hp.sub rfl) ?_
  refine State.refreshDep_follows (hp.sub rfl) ?_
  refine State.refreshFlashVote_follows (hp.sub rfl) ?_
  with_reducible assumption

def State.bootTables_foot : Foot := ⟨0x1fffffff, 0x0⟩

theorem State.bootTables_follows {p s0} {a0} {a1} (hp : Foot.le State.bootTables_foot p) (h0 : Follows p s0 a0) :
    Follows p s0 (State.bootTables (a0) (a1)) := by
  unfold State.bootTables
  extract_lets y0 y1
  have k2 : Follows p s0 y0 := by
    subst y0
    refine State.set_follows 477 hp ?_
    refine State.set_follows 476 hp ?_
    refine State.set_follows 475 hp ?_
    with_reducible assumption
  clear_value y0
  have k3 : Follows p s0 y1 := by
    subst y1
    refine State.loadBad_follows (hp.sub rfl) ?_
    refine State.noteOp_follows (hp.sub rfl) ?_
    refine State.set_follows 478 hp ?_
    with_reducible assumption
  clear_value y1
  refine Follows.ite ?_ ?_
  · refine Follows.forAll ?_ ?_
    · intro x4 x5 x6
      refine Follows.ite ?_ ?_
      · refine State.refreshSpent_follows (hp.sub rfl) ?_
        refine State.nbrReinit_follows (hp.sub rfl) ?_
        with_reducible assumption
      · refine State.set_follows 385 hp ?_
        with_reducible assumption
    · with_reducible assumption
  · with_reducible assumption

def State.loadPart_foot : Foot := ⟨0xc, 0x0⟩

theorem State.loadPart_follows {p s0} {a0} {a1} {a2} (hp : Foot.le State.loadPart_foot p) (h0 : Follows p s0 a0) :
    Follows p s0 (State.loadPart (a0) (a1) (a2)) := by
  unfold State.loadPart
  extract_lets y0
  clear_value y0
  split
  · refine State.lmStore_follows (hp.sub rfl) ?_
    with_reducible assumption
  · refine Follows.forAll ?_ ?_
    · intro x3 x4 x5
      refine Follows.ite ?_ ?_
      · refine State.lmStore_follows (hp.sub rfl) ?_
        with_reducible assumption
      · refine State.store_follows (hp.sub rfl) ?_
        with_reducible assumption
    · with_reducible assumption
  · refine Follows.ite ?_ ?_
    · refine State.lmStore_follows (hp.sub rfl) ?_
      with_reducible assumption
    · refine State.store_follows (hp.sub rfl) ?_
      with_reducible assumption
  · with_reducible assumption

def State.loadImage_foot : Foot := ⟨0xc, 0x0⟩

theorem State.loadImage_follows {p s0} {a0} {a1} {a2} (hp : Foot.le State.loadImage_foot p) (h0 : Follows p s0 a0) :
    Follows p s0 (State.loadImage (a0) (a1) (a2)) := by
  unfold State.loadImage
  refine Follows.foldl ?_ ?_
  · intro x0 x1 x2
    refine State.loadPart_follows (hp.sub rfl) ?_
    with_reducible assumption
  · with_reducible assumption

def State.slipway_foot : Foot := ⟨0x2004c, 0x240000⟩

theorem State.slipway_follows {p s0} {a0} {a1} {a2} (hp : Foot.le State.slipway_foot p) (h0 : Follows p s0 a0) :
    Follows p s0 (State.slipway (a0) (a1) (a2)) := by
  unfold State.slipway
  refine State.bootStatus_follows (hp.sub rfl) ?_
  refine State.engRun_follows (hp.sub rfl) ?_
  extract_lets y0 y1
  have k2 : Follows p s0 y0 := by
    subst y0
    refine State.loadImage_follows (hp.sub rfl) ?_
    with_reducible assumption
  clear_value y0
  clear_value y1
  refine Follows.update hp ?_ rfl rfl
  with_reducible assumption

def State.bootRun_foot : Foot := ⟨0x2052c, 0x3000000000000000000000020010007fe01800000000000000000000000000000000000000000000000000000000000000000000004240000⟩

theorem State.bootRun_follows {p s0} {a0} {a1} {a2} {a3} (hp : Foot.le State.bootRun_foot p) (h0 : Follows p s0 a0) :
    Follows p s0 (State.bootRun (a0) (a1) (a2) (a3)) := by
  unfold State.bootRun
  extract_lets y0 y1 y2 y3 y4
  have k5 : Follows p s0 y0 := by
    subst y0
    refine Follows.forAll ?_ ?_
    · intro x6 x7 x8
      refine State.vote_follows (hp.sub rfl) ?_
      with_reducible assumption
    · with_reducible assumption
  clear_value y0
  have k9 : Follows p s0 y1 := by
    subst y1
    refine State.loadImage_follows (hp.sub rfl) ?_
    refine State.loadImage_follows (hp.sub rfl) ?_
    with_reducible assumption
  clear_value y1
  have k10 : Follows p s0 y2 := by
    subst y2
    refine State.set_follows 448 hp ?_
    refine State.set_follows 449 hp ?_
    with_reducible assumption
  clear_value y2
  have k11 : Follows p s0 y3 := by
    subst y3
    refine Follows.ite ?_ ?_
    · refine State.loadCalibration_follows (hp.sub rfl) ?_
      with_reducible assumption
    · with_reducible assumption
  clear_value y3
  have k12 : Follows p s0 y4 := by
    subst y4
    refine Follows.forAll ?_ ?_
    · intro x13 x14 x15
      refine State.engRun_follows (hp.sub rfl) ?_
      with_reducible assumption
    · with_reducible assumption
  clear_value y4
  refine State.bootStatus_follows (hp.sub rfl) ?_
  with_reducible assumption

def State.bootFlash_foot : Foot := ⟨0x2056c, 0x3000000000000000000000020010007fe01800000000000000000000000000000000000000000000000000000000000000000000004340000⟩

theorem State.bootFlash_follows {p s0} {a0} {a1} (hp : Foot.le State.bootFlash_foot p) (h0 : Follows p s0 a0) :
    Follows p s0 (State.bootFlash (a0) (a1)) := by
  unfold State.bootFlash
  split
  · refine State.set_follows 20 hp ?_
    refine State.slipway_follows (hp.sub rfl) ?_
    with_reducible assumption
  · refine Follows.ite ?_ ?_
    · refine State.bootRun_follows (hp.sub rfl) ?_
      with_reducible assumption
    · refine State.slipway_follows (hp.sub rfl) ?_
      with_reducible assumption

def State.bootReads_foot : Foot := ⟨0x1fffffff, 0x0⟩

theorem State.bootReads_follows {p s0} {a0} {a1} (hp : Foot.le State.bootReads_foot p) (h0 : Follows p s0 a0) :
    Follows p s0 (State.bootReads (a0) (a1)) := by
  unfold State.bootReads
  extract_lets y0
  have k1 : Follows p s0 y0 := by
    subst y0
    refine Follows.foldl ?_ ?_
    · intro x2 x3 x4
      refine State.flashUncorrectable_follows (hp.sub rfl) ?_
      with_reducible assumption
    · with_reducible assumption
  clear_value y0
  refine Follows.update hp ?_ rfl rfl
  with_reducible assumption

def State.bootSteps_foot : Foot := ⟨0x1fffffff, 0x0⟩

theorem State.bootSteps_follows {p s0} {a0} {a1} (hp : Foot.le State.bootSteps_foot p) (h0 : Follows p s0 a0) :
    Follows p s0 (State.bootSteps (a0) (a1)) := by
  unfold State.bootSteps
  extract_lets y0 y1 y2 y3 y4 y5
  have k6 : Follows p s0 y1 := by
    subst y1
    refine State.bootTables_follows (hp.sub rfl) ?_
    refine State.hubRelease_follows (hp.sub rfl) ?_
    with_reducible assumption
  clear_value y1
  clear_value y2
  have k7 : Follows p s0 y3 := by
    subst y3
    refine State.bootReads_follows (hp.sub rfl) ?_
    with_reducible assumption
  clear_value y3
  have k8 : Follows p s0 y4 := by
    subst y4
    refine Follows.ite ?_ ?_
    · refine Follows.ite ?_ ?_
      · refine State.bootStatus_follows (hp.sub rfl) ?_
        with_reducible assumption
      · refine Follows.ite ?_ ?_
        · refine State.slipway_follows (hp.sub rfl) ?_
          with_reducible assumption
        · refine Follows.ite ?_ ?_
          · refine State.bootReads_follows (hp.sub rfl) ?_
            refine State.bootFlash_follows (hp.sub rfl) ?_
            with_reducible assumption
          · refine State.slipway_follows (hp.sub rfl) ?_
            with_reducible assumption
    · refine State.bootStatus_follows (hp.sub rfl) ?_
      with_reducible assumption
  clear_value y4
  clear_value y5
  refine State.trainLinks_follows (hp.sub rfl) ?_
  refine Follows.update hp ?_ rfl rfl
  with_reducible assumption

def State.bootTimeout_foot : Foot := ⟨0x220006c, 0x18000000000000000000000000000000000000000000000000000000000000000000000000000000000000000000000000000000000000000000000000000000000000000000000000004240000⟩

theorem State.bootTimeout_follows {p s0} {a0} (hp : Foot.le State.bootTimeout_foot p) (h0 : Follows p s0 a0) :
    Follows p s0 (State.bootTimeout (a0)) := by
  unfold State.bootTimeout
  refine Follows.ite ?_ ?_
  · with_reducible assumption
  · refine Follows.ite ?_ ?_
    · extract_lets y0 y1
      clear_value y0
      have k2 : Follows p s0 y1 := by
        subst y1
        refine Follows.update hp ?_ rfl rfl
        with_reducible assumption
      clear_value y1
      refine State.bootRecord_follows (hp.sub rfl) ?_
      refine State.bootStatus_follows (hp.sub rfl) ?_
      with_reducible assumption
    · extract_lets y3 y4
      clear_value y3
      have k5 : Follows p s0 y4 := by
        subst y4
        refine Follows.update hp ?_ rfl rfl
        with_reducible assumption
      clear_value y4
      refine State.trainLinks_follows (hp.sub rfl) ?_
      refine State.bootRecord_follows (hp.sub rfl) ?_
      refine State.bootStatus_follows (hp.sub rfl) ?_
      with_reducible assumption

def State.por_foot : Foot := ⟨0x1fffffff, 0x0⟩

theorem State.por_follows {p s0} {a0} {a1} (hp : Foot.le State.por_foot p) (h0 : Follows p s0 a0) :
    Follows p s0 (State.por (a0) (a1)) := by
  unfold State.por
  extract_lets y0 y1 y2 y3
  have k4 : Follows p s0 y0 := by
    subst y0
    refine State.cold_follows (hp.sub rfl) ?_
    with_reducible assumption
  clear_value y0
  have k5 : Follows p s0 y1 := by
    subst y1
    refine Follows.ite ?_ ?_
    · with_reducible assumption
    · refine State.set_follows 614 hp ?_
      refine State.set_follows 613 hp ?_
      with_reducible assumption
  clear_value y1
  clear_value y2
  have k6 : Follows p s0 y3 := by
    subst y3
    refine Follows.update hp ?_ rfl rfl
    with_reducible assumption
  clear_value y3
  refine State.set_follows 0 hp ?_
  with_reducible assumption

def State.pinReset_foot : Foot := ⟨0x1fffffff, 0x0⟩

theorem State.pinReset_follows {p s0} {a0} (hp : Foot.le State.pinReset_foot p) (h0 : Follows p s0 a0) :
    Follows p s0 (State.pinReset (a0)) := by
  unfold State.pinReset
  extract_lets y0 y1 y2 y3 y4
  clear_value y0
  have k5 : Follows p s0 y2 := by
    subst y2
    refine State.wakeRecord_follows (hp.sub rfl) ?_
    refine State.cold_follows (hp.sub rfl) ?_
    with_reducible assumption
  clear_value y2
  clear_value y3
  have k6 : Follows p s0 y4 := by
    subst y4
    refine Follows.update hp ?_ rfl rfl
    with_reducible assumption
  clear_value y4
  refine Follows.ite ?_ ?_
  · refine State.startCold_follows (hp.sub rfl) ?_
    refine State.leaveOff_follows (hp.sub rfl) ?_
    with_reducible assumption
  · refine Follows.ite ?_ ?_
    · refine State.startAt_follows (hp.sub rfl) ?_
      with_reducible assumption
    · refine State.startRails_follows (hp.sub rfl) ?_
      with_reducible assumption

def State.warmReset_foot : Foot := ⟨0x1fffffff, 0x0⟩

theorem State.warmReset_follows {p s0} {a0} {a1} (hp : Foot.le State.warmReset_foot p) (h0 : Follows p s0 a0) :
    Follows p s0 (State.warmReset (a0) (a1)) := by
  unfold State.warmReset
  extract_lets y0
  have k1 : Follows p s0 y0 := by
    subst y0
    refine Follows.ite ?_ ?_
    · refine State.blackBoxOnly_follows (hp.sub rfl) ?_
      with_reducible assumption
    · with_reducible assumption
  clear_value y0
  refine State.startRails_follows (hp.sub rfl) ?_
  refine State.cold_follows (hp.sub rfl) ?_
  with_reducible assumption

def State.resetCmd_foot : Foot := ⟨0x1fffffff, 0x0⟩

theorem State.resetCmd_follows {p s0} {a0} {a1} {a2} (hp : Foot.le State.resetCmd_foot p) (h0 : Follows p s0 a0) :
    Follows p s0 (State.resetCmd (a0) (a1) (a2)).1 := by
  unfold State.resetCmd
  extract_lets y0 y1
  clear_value y0
  clear_value y1
  refine Follows.ite1 ?_ ?_
  · with_reducible assumption
  · refine Follows.ite1 ?_ ?_
    · with_reducible assumption
    · refine Follows.ite1 ?_ ?_
      · with_reducible assumption
      · refine Follows.ite1 ?_ ?_
        · refine Follows.pair ?_
          refine State.warmReset_follows (hp.sub rfl) ?_
          with_reducible assumption
        · refine Follows.ite1 ?_ ?_
          · refine Follows.ite1 ?_ ?_
            · with_reducible assumption
            · refine Follows.ite1 ?_ ?_
              · with_reducible assumption
              · refine Follows.pair ?_
                refine State.tileReset_follows (hp.sub rfl) ?_
                with_reducible assumption
          · refine Follows.ite1 ?_ ?_
            · with_reducible assumption
            · refine Follows.ite1 ?_ ?_
              · with_reducible assumption
              · refine Follows.pair ?_
                refine State.engineReset_follows (hp.sub rfl) ?_
                with_reducible assumption

def State.tileRelease_foot : Foot := ⟨0x130, 0x1c000000000000000000000000000000000000000000000000000000000000000000000000000000000000000000000000000000000000000000000004000000⟩

theorem State.tileRelease_follows {p s0} {a0} {a1} (hp : Foot.le State.tileRelease_foot p) (h0 : Follows p s0 a0) :
    Follows p s0 (State.tileRelease (a0) (a1)) := by
  unfold State.tileRelease
  refine Follows.ite ?_ ?_
  · with_reducible assumption
  · extract_lets y0 y1
    have k2 : Follows p s0 y0 := by
      subst y0
      refine State.updTile_follows (hp.sub rfl) ?_
      refine State.domSpan_follows (hp.sub rfl) ?_
      with_reducible assumption
    clear_value y0
    have k3 : Follows p s0 y1 := by
      subst y1
      refine State.set_follows 508 hp ?_
      refine State.set_follows 507 hp ?_
      refine State.set_follows 506 hp ?_
      with_reducible assumption
    clear_value y1
    refine State.settle_follows (hp.sub rfl) ?_
    with_reducible assumption

def State.wdogKick_foot : Foot := ⟨0x4000000, 0x0⟩

theorem State.wdogKick_follows {p s0} {a0} (hp : Foot.le State.wdogKick_foot p) (h0 : Follows p s0 a0) :
    Follows p s0 (State.wdogKick (a0)) := by
  unfold State.wdogKick
  extract_lets y0 y1
  clear_value y0
  clear_value y1
  refine Follows.update hp ?_ rfl rfl
  with_reducible assumption

def State.wdogWarning_foot : Foot := ⟨0x4000010, 0x1000000000000000000⟩

theorem State.wdogWarning_follows {p s0} {a0} (hp : Foot.le State.wdogWarning_foot p) (h0 : Follows p s0 a0) :
    Follows p s0 (State.wdogWarning (a0)) := by
  unfold State.wdogWarning
  refine Follows.ite ?_ ?_
  · extract_lets y0 y1
    have k2 : Follows p s0 y0 := by
      subst y0
      refine State.reach_follows (hp.sub rfl) ?_
      with_reducible assumption
    clear_value y0
    clear_value y1
    refine State.fire_follows (hp.sub rfl) ?_
    refine Follows.update hp ?_ rfl rfl
    with_reducible assumption
  · with_reducible assumption

def State.wdogExpire_foot : Foot := ⟨0x1fffffff, 0x0⟩

theorem State.wdogExpire_follows {p s0} {a0} (hp : Foot.le State.wdogExpire_foot p) (h0 : Follows p s0 a0) :
    Follows p s0 (State.wdogExpire (a0)) := by
  unfold State.wdogExpire
  refine Follows.ite ?_ ?_
  · refine State.warmReset_follows (hp.sub rfl) ?_
    refine State.reach_follows (hp.sub rfl) ?_
    with_reducible assumption
  · with_reducible assumption

def execPllLock_foot : Foot := ⟨0x1fffffff, 0x0⟩

theorem execPllLock_follows {p s0} {a0} {a1} (hp : Foot.le execPllLock_foot p) (h1 : Follows p s0 a1) :
    FollowsOut p s0 (execPllLock (a0) (a1)) := by
  unfold execPllLock
  refine FollowsOut.next ?_
  refine Follows.ite ?_ ?_
  · refine State.bootSteps_follows (hp.sub rfl) ?_
    with_reducible assumption
  · with_reducible assumption

def execBootTimeout_foot : Foot := ⟨0x220006c, 0x18000000000000000000000000000000000000000000000000000000000000000000000000000000000000000000000000000000000000000000000000000000000000000000000000004240000⟩

theorem execBootTimeout_follows {p s0} {a0} (hp : Foot.le execBootTimeout_foot p) (h0 : Follows p s0 a0) :
    FollowsOut p s0 (execBootTimeout (a0)) := by
  unfold execBootTimeout
  refine FollowsOut.next ?_
  refine State.bootTimeout_follows (hp.sub rfl) ?_
  with_reducible assumption

def execPor_foot : Foot := ⟨0x1fffffff, 0x0⟩

theorem execPor_follows {p s0} {a0} {a1} (hp : Foot.le execPor_foot p) (h1 : Follows p s0 a1) :
    FollowsOut p s0 (execPor (a0) (a1)) := by
  unfold execPor
  refine FollowsOut.next ?_
  refine State.por_follows (hp.sub rfl) ?_
  with_reducible assumption

def execPinReset_foot : Foot := ⟨0x1fffffff, 0x0⟩

theorem execPinReset_follows {p s0} {a0} (hp : Foot.le execPinReset_foot p) (h0 : Follows p s0 a0) :
    FollowsOut p s0 (execPinReset (a0)) := by
  unfold execPinReset
  refine FollowsOut.next ?_
  refine State.pinReset_follows (hp.sub rfl) ?_
  with_reducible assumption

def execWdogWarning_foot : Foot := ⟨0x4000010, 0x1000000000000000000⟩

theorem execWdogWarning_follows {p s0} {a0} (hp : Foot.le execWdogWarning_foot p) (h0 : Follows p s0 a0) :
    FollowsOut p s0 (execWdogWarning (a0)) := by
  unfold execWdogWarning
  refine FollowsOut.next ?_
  refine State.wdogWarning_follows (hp.sub rfl) ?_
  with_reducible assumption

def execWdogExpiry_foot : Foot := ⟨0x1fffffff, 0x0⟩

theorem execWdogExpiry_follows {p s0} {a0} (hp : Foot.le execWdogExpiry_foot p) (h0 : Follows p s0 a0) :
    FollowsOut p s0 (execWdogExpiry (a0)) := by
  unfold execWdogExpiry
  refine FollowsOut.next ?_
  refine State.wdogExpire_follows (hp.sub rfl) ?_
  with_reducible assumption

def execTileResetRelease_foot : Foot := ⟨0x130, 0x1c000000000000000000000000000000000000000000000000000000000000000000000000000000000000000000000000000000000000000000000004000000⟩

theorem execTileResetRelease_follows {p s0} {a0} {a1} (hp : Foot.le execTileResetRelease_foot p) (h1 : Follows p s0 a1) :
    FollowsOut p s0 (execTileResetRelease (a0) (a1)) := by
  unfold execTileResetRelease
  refine FollowsOut.next ?_
  refine State.tileRelease_follows (hp.sub rfl) ?_
  with_reducible assumption

/-! ### Machine/Hub.lean -/

def State.funcModeWrite_foot : Foot := ⟨0x112000, 0x1800000000000000000000000000000000000000000000000000000000000000000000000000001000000000000000038⟩

theorem State.funcModeWrite_follows {p s0} {a0} {a1} (hp : Foot.le State.funcModeWrite_foot p) (h0 : Follows p s0 a0) :
    Follows p s0 (State.funcModeWrite (a0) (a1)) := by
  unfold State.funcModeWrite
  extract_lets y0 y1 y2 y3 y4 y5 y6
  clear_value y0
  clear_value y1
  clear_value y2
  have k7 : Follows p s0 y3 := by
    subst y3
    refine State.softChanged_follows (hp.sub rfl) ?_
    refine State.set_follows 3 hp ?_
    with_reducible assumption
  clear_value y3
  have k8 : Follows p s0 y4 := by
    subst y4
    refine State.set_follows 4 hp ?_
    with_reducible assumption
  clear_value y4
  clear_value y5
  have k9 : Follows p s0 y6 := by
    subst y6
    refine Follows.ite ?_ ?_
    · with_reducible assumption
    · refine Follows.update hp ?_ rfl rfl
      with_reducible assumption
  clear_value y6
  refine State.refreshFunc_follows (hp.sub rfl) ?_
  refine Follows.forAll ?_ ?_
  · intro x10 x11 x12
    refine State.nbrPoke_follows (hp.sub rfl) ?_
    with_reducible assumption
  · with_reducible assumption

def State.gcommitWrite_foot : Foot := ⟨0x0, 0x10000000000000000000000000000000000000000000000000000000000000000000000000000000000fc0⟩

theorem State.gcommitWrite_follows {p s0} {a0} {a1} (hp : Foot.le State.gcommitWrite_foot p) (h0 : Follows p s0 a0) :
    Follows p s0 (State.gcommitWrite (a0) (a1)).1 := by
  unfold State.gcommitWrite
  refine Follows.ite1 ?_ ?_
  · with_reducible assumption
  · extract_lets y0 y1 y2 y3
    clear_value y0
    have k4 : Follows p s0 y1 := by
      subst y1
      refine State.set_follows 7 hp ?_
      with_reducible assumption
    clear_value y1
    have k5 : Follows p s0 y2 := by
      subst y2
      refine State.set_follows 9 hp ?_
      refine State.set_follows 10 hp ?_
      refine State.set_follows 11 hp ?_
      with_reducible assumption
    clear_value y2
    have k6 : Follows p s0 y3 := by
      subst y3
      refine State.set_follows 6 hp ?_
      refine State.set_follows 8 hp ?_
      with_reducible assumption
    clear_value y3
    refine Follows.ite1 ?_ ?_
    · with_reducible assumption
    · refine Follows.pair ?_
      refine Follows.forBits ?_ ?_
      · intro x7 x8 x9
        refine State.set_follows 340 hp ?_
        with_reducible assumption
      · with_reducible assumption

def State.tileCommitWrite_foot : Foot := ⟨0x100, 0x200100000001000000000000000000000000000000000000000000000000000000000000000000000000000000⟩

theorem State.tileCommitWrite_follows {p s0} {a0} {a1} {a2} (hp : Foot.le State.tileCommitWrite_foot p) (h0 : Follows p s0 a0) :
    Follows p s0 (State.tileCommitWrite (a0) (a1) (a2)).1 := by
  unfold State.tileCommitWrite
  refine Follows.ite1 ?_ ?_
  · with_reducible assumption
  · refine Follows.pair ?_
    refine Follows.ite ?_ ?_
    · refine State.tileCommitNow_follows (hp.sub rfl) ?_
      with_reducible assumption
    · with_reducible assumption

def State.bfCommitWrite_foot : Foot := ⟨0x800, 0xa0000000000400000000000000000000000000000000000000000000000000000000000⟩

theorem State.bfCommitWrite_follows {p s0} {a0} {a1} (hp : Foot.le State.bfCommitWrite_foot p) (h0 : Follows p s0 a0) :
    Follows p s0 (State.bfCommitWrite (a0) (a1)).1 := by
  unfold State.bfCommitWrite
  refine Follows.ite1 ?_ ?_
  · with_reducible assumption
  · refine Follows.pair ?_
    refine Follows.ite ?_ ?_
    · refine State.bfCommitNow_follows (hp.sub rfl) ?_
      with_reducible assumption
    · with_reducible assumption

def State.xngCommitWrite_foot : Foot := ⟨0x1020, 0x500000000000000000000000000000000000000000004000000⟩

theorem State.xngCommitWrite_follows {p s0} {a0} {a1} (hp : Foot.le State.xngCommitWrite_foot p) (h0 : Follows p s0 a0) :
    Follows p s0 (State.xngCommitWrite (a0) (a1)).1 := by
  unfold State.xngCommitWrite
  refine Follows.ite1 ?_ ?_
  · with_reducible assumption
  · extract_lets y0
    have k1 : Follows p s0 y0 := by
      subst y0
      refine State.set_follows 202 hp ?_
      with_reducible assumption
    clear_value y0
    refine Follows.pair ?_
    refine Follows.ite ?_ ?_
    · refine State.xngCommit_follows (hp.sub rfl) ?_
      with_reducible assumption
    · with_reducible assumption

def State.nbrCommitWrite_foot : Foot := ⟨0x2000, 0x1000000000000000000000000000000000000000000000000000000⟩

theorem State.nbrCommitWrite_follows {p s0} {a0} {a1} (hp : Foot.le State.nbrCommitWrite_foot p) (h0 : Follows p s0 a0) :
    Follows p s0 (State.nbrCommitWrite (a0) (a1)).1 := by
  unfold State.nbrCommitWrite
  refine Follows.ite1 ?_ ?_
  · with_reducible assumption
  · refine Follows.pair ?_
    refine Follows.ite ?_ ?_
    · refine State.nbrCommit_follows (hp.sub rfl) ?_
      with_reducible assumption
    · with_reducible assumption

def State.globalCommit_foot : Foot := ⟨0x3920, 0x2001100000010000000a00000000004000010001000000000000000000000000000000010000000000040000c0⟩

theorem State.globalCommit_follows {p s0} {a0} (hp : Foot.le State.globalCommit_foot p) (h0 : Follows p s0 a0) :
    Follows p s0 (State.globalCommit (a0)) := by
  unfold State.globalCommit
  refine Follows.ite ?_ ?_
  · with_reducible assumption
  · extract_lets y0 y1 y2 y3 y4 y5
    clear_value y0
    have k6 : Follows p s0 y1 := by
      subst y1
      refine State.set_follows 6 hp ?_
      with_reducible assumption
    clear_value y1
    have k7 : Follows p s0 y2 := by
      subst y2
      refine Follows.forBits ?_ ?_
      · intro x8 x9 x10
        extract_lets y11
        have k12 : Follows p s0 y11 := by
          subst y11
          refine State.set_follows 340 hp ?_
          with_reducible assumption
        clear_value y11
        refine Follows.ite ?_ ?_
        · refine State.tileCommitNow_follows (hp.sub rfl) ?_
          with_reducible assumption
        · refine State.setBit_follows 7 hp ?_
          with_reducible assumption
      · with_reducible assumption
    clear_value y2
    have k13 : Follows p s0 y3 := by
      subst y3
      refine Follows.ite ?_ ?_
      · refine State.bfCommitNow_follows (hp.sub rfl) ?_
        with_reducible assumption
      · with_reducible assumption
    clear_value y3
    have k14 : Follows p s0 y4 := by
      subst y4
      refine Follows.ite ?_ ?_
      · refine State.xngCommit_follows (hp.sub rfl) ?_
        with_reducible assumption
      · with_reducible assumption
    clear_value y4
    have k15 : Follows p s0 y5 := by
      subst y5
      refine Follows.ite ?_ ?_
      · refine State.nbrCommit_follows (hp.sub rfl) ?_
        with_reducible assumption
      · with_reducible assumption
    clear_value y5
    refine State.fire_follows (hp.sub rfl) ?_
    with_reducible assumption

def State.sampleModes_foot : Foot := ⟨0x1000, 0x4000000000000000000000000000000000000000000000000000000000000000000000000000000000000000000000000000000000000000⟩

theorem State.sampleModes_follows {p s0} {a0} (hp : Foot.le State.sampleModes_foot p) (h0 : Follows p s0 a0) :
    Follows p s0 (State.sampleModes (a0)) := by
  unfold State.sampleModes
  extract_lets y0 y1
  clear_value y0
  have k2 : Follows p s0 y1 := by
    subst y1
    refine Follows.update hp ?_ rfl rfl
    with_reducible assumption
  clear_value y1
  refine Follows.ite ?_ ?_
  · refine State.set2_follows 446 hp ?_
    with_reducible assumption
  · with_reducible assumption

def State.setPeer_foot : Foot := ⟨0x0, 0x800000000000000000000000000000000000000000000000000000000000000000000000000000000000000000000000000000000000000⟩

theorem State.setPeer_follows {p s0} {a0} {a1} {a2} (hp : Foot.le State.setPeer_foot p) (h0 : Follows p s0 a0) :
    Follows p s0 (State.setPeer (a0) (a1) (a2)) := by
  unfold State.setPeer
  refine State.set_follows 443 hp ?_
  with_reducible assumption

def State.sendBeacons_foot : Foot := ⟨0x4200000, 0xe808800000000000000000000000000000000000000000000000000000000000000000000000000000000000000000000000000000000000001000000000000000000⟩

theorem State.sendBeacons_follows {p s0} {a0} (hp : Foot.le State.sendBeacons_foot p) (h0 : Follows p s0 a0) :
    Follows p s0 (State.sendBeacons (a0)) := by
  unfold State.sendBeacons
  extract_lets y0
  clear_value y0
  refine Follows.forAll ?_ ?_
  · intro x1 x2 x3
    refine Follows.ite ?_ ?_
    · refine State.linkSend_follows (hp.sub rfl) ?_
      with_reducible assumption
    · with_reducible assumption
  · with_reducible assumption

def State.windowBoundary_foot : Foot := ⟨0x4443930, 0xe8088000000000000000040000000000000800000002101100180010fc1400b100e0000004000010001000000000000000000000000000000010000000000040000c0⟩

theorem State.windowBoundary_follows {p s0} {a0} {a1} (hp : Foot.le State.windowBoundary_foot p) (h0 : Follows p s0 a0) :
    Follows p s0 (State.windowBoundary (a0) (a1)) := by
  unfold State.windowBoundary
  refine Follows.ite ?_ ?_
  · with_reducible assumption
  · extract_lets y0 y1 y2 y3 y4 y5
    clear_value y0
    have k6 : Follows p s0 y1 := by
      subst y1
      refine State.refreshVotes_follows (hp.sub rfl) ?_
      refine State.slewSettle_follows (hp.sub rfl) ?_
      refine State.reach_follows (hp.sub rfl) ?_
      with_reducible assumption
    clear_value y1
    clear_value y2
    have k7 : Follows p s0 y3 := by
      subst y3
      refine Follows.update hp ?_ rfl rfl
      with_reducible assumption
    clear_value y3
    have k8 : Follows p s0 y4 := by
      subst y4
      refine Follows.ite ?_ ?_
      · refine State.sampleModes_follows (hp.sub rfl) ?_
        with_reducible assumption
      · with_reducible assumption
    clear_value y4
    have k9 : Follows p s0 y5 := by
      subst y5
      refine State.govern_follows (hp.sub rfl) ?_
      refine State.selSwitch_follows (hp.sub rfl) ?_
      refine State.slotsLive_follows (hp.sub rfl) ?_
      refine State.globalCommit_follows (hp.sub rfl) ?_
      refine State.yarn_follows (hp.sub rfl) ?_
      with_reducible assumption
    clear_value y5
    refine Follows.forAll ?_ ?_
    · intro x10 x11 x12
      refine State.tensionWindow_follows (hp.sub rfl) ?_
      with_reducible assumption
    · with_reducible assumption

def State.hostTimeApply_foot : Foot := ⟨0x10, 0x4000000000000000000000000000000000000000000000000000000000⟩

theorem State.hostTimeApply_follows {p s0} {a0} (hp : Foot.le State.hostTimeApply_foot p) (h0 : Follows p s0 a0) :
    Follows p s0 (State.hostTimeApply (a0)) := by
  unfold State.hostTimeApply
  refine Follows.ite ?_ ?_
  · with_reducible assumption
  · extract_lets y0 y1
    have k2 : Follows p s0 y0 := by
      subst y0
      refine State.setSlew_follows (hp.sub rfl) ?_
      with_reducible assumption
    clear_value y0
    clear_value y1
    refine Follows.ite ?_ ?_
    · with_reducible assumption
    · refine Follows.update hp ?_ rfl rfl
      with_reducible assumption

def State.cycleBoundary_foot : Foot := ⟨0x4241030, 0xe808800000000000000000000000000000000000000000000000000000000000000000000004000000300000000000000000000000000000001000000000004000030⟩

theorem State.cycleBoundary_follows {p s0} {a0} (hp : Foot.le State.cycleBoundary_foot p) (h0 : Follows p s0 a0) :
    Follows p s0 (State.cycleBoundary (a0)) := by
  unfold State.cycleBoundary
  refine Follows.ite ?_ ?_
  · with_reducible assumption
  · extract_lets y0 y1 y2 y3 y4 y5 y6
    clear_value y0
    have k7 : Follows p s0 y1 := by
      subst y1
      refine State.reach_follows (hp.sub rfl) ?_
      with_reducible assumption
    clear_value y1
    clear_value y2
    have k8 : Follows p s0 y3 := by
      subst y3
      refine Follows.update hp ?_ rfl rfl
      with_reducible assumption
    clear_value y3
    clear_value y4
    have k9 : Follows p s0 y5 := by
      subst y5
      refine Follows.update hp ?_ rfl rfl
      with_reducible assumption
    clear_value y5
    have k10 : Follows p s0 y6 := by
      subst y6
      refine State.hostTimeApply_follows (hp.sub rfl) ?_
      refine State.pruneVotes_follows (hp.sub rfl) ?_
      refine State.imageSwitch_follows (hp.sub rfl) ?_
      refine State.refreshFunc_follows (hp.sub rfl) ?_
      with_reducible assumption
    clear_value y6
    refine State.yarn_follows (hp.sub rfl) ?_
    refine Follows.ite ?_ ?_
    · refine State.sendBeacons_follows (hp.sub rfl) ?_
      with_reducible assumption
    · with_reducible assumption

def execWindowBoundary_foot : Foot := ⟨0x4443930, 0xe8088000000000000000040000000000000800000002101100180010fc1400b100e0000004000010001000000000000000000000000000000010000000000040000c0⟩

theorem execWindowBoundary_follows {p s0} {a0} {a1} (hp : Foot.le execWindowBoundary_foot p) (h1 : Follows p s0 a1) :
    FollowsOut p s0 (execWindowBoundary (a0) (a1)) := by
  unfold execWindowBoundary
  refine FollowsOut.next ?_
  refine State.windowBoundary_follows (hp.sub rfl) ?_
  with_reducible assumption

def execCycleBoundary_foot : Foot := ⟨0x4241030, 0xe808800000000000000000000000000000000000000000000000000000000000000000000004000000300000000000000000000000000000001000000000004000030⟩

theorem execCycleBoundary_follows {p s0} {a0} (hp : Foot.le execCycleBoundary_foot p) (h0 : Follows p s0 a0) :
    FollowsOut p s0 (execCycleBoundary (a0)) := by
  unfold execCycleBoundary
  refine FollowsOut.next ?_
  refine State.cycleBoundary_follows (hp.sub rfl) ?_
  with_reducible assumption

/-! ### Machine/Records.lean -/

def State.unitClear_foot : Foot := ⟨0x0, 0x1c000000000000000000000000000000000000000000000000000000000000000000000000000000000000000000000000000000000000000000000000000000⟩

theorem State.unitClear_follows {p s0} {a0} {a1} (hp : Foot.le State.unitClear_foot p) (h0 : Follows p s0 a0) :
    Follows p s0 (State.unitClear (a0) (a1)) := by
  unfold State.unitClear
  refine State.set_follows 508 hp ?_
  refine State.set_follows 507 hp ?_
  refine State.set_follows 506 hp ?_
  with_reducible assumption

def State.unitWrite_foot : Foot := ⟨0x0, 0x1c000000000000000000000000000000000000000000000000000000000000000000000000000000000000000000000000000000000000000000000000000000⟩

theorem State.unitWrite_follows {p s0} {a0} {a1} {a2} (hp : Foot.le State.unitWrite_foot p) (h0 : Follows p s0 a0) :
    Follows p s0 (State.unitWrite (a0) (a1) (a2)) := by
  unfold State.unitWrite
  extract_lets y0
  have k1 : Follows p s0 y0 := by
    subst y0
    refine Follows.ite ?_ ?_
    · refine State.set_follows 508 hp ?_
      refine State.set_follows 506 hp ?_
      with_reducible assumption
    · with_reducible assumption
  clear_value y0
  refine Follows.ite ?_ ?_
  · refine State.set_follows 507 hp ?_
    with_reducible assumption
  · with_reducible assumption

def State.resetSpan_foot : Foot := ⟨0x2000010, 0x0⟩

theorem State.resetSpan_follows {p s0} {a0} {a1} (hp : Foot.le State.resetSpan_foot p) (h0 : Follows p s0 a0) :
    Follows p s0 (State.resetSpan (a0) (a1)) := by
  unfold State.resetSpan
  extract_lets y0 y1 y2
  clear_value y0
  have k3 : Follows p s0 y1 := by
    subst y1
    refine State.reach_follows (hp.sub rfl) ?_
    with_reducible assumption
  clear_value y1
  clear_value y2
  refine Follows.update hp ?_ rfl rfl
  with_reducible assumption

def State.unitFree_foot : Foot := ⟨0x18000, 0x1c000000000000000000000000000000000000000000000000000000000000000000000000000000000000000000000000000000000000000000000000000000⟩

theorem State.unitFree_follows {p s0} {a0} {a1} (hp : Foot.le State.unitFree_foot p) (h0 : Follows p s0 a0) :
    Follows p s0 (State.unitFree (a0) (a1)) := by
  unfold State.unitFree
  refine Follows.ite ?_ ?_
  · refine State.unitClear_follows (hp.sub rfl) ?_
    refine State.updPipe_follows (hp.sub rfl) ?_
    with_reducible assumption
  · refine Follows.ite ?_ ?_
    · refine State.unitClear_follows (hp.sub rfl) ?_
      refine Follows.update hp ?_ rfl rfl
      with_reducible assumption
    · refine Follows.ite ?_ ?_
      · refine State.feedEncoders_follows (hp.sub rfl) ?_
        refine State.unitClear_follows (hp.sub rfl) ?_
        refine Follows.update hp ?_ rfl rfl
        with_reducible assumption
      · with_reducible assumption

def State.unitResetEnd_foot : Foot := ⟨0x2018010, 0x1c000000000000000000000000000000000000000000000000000000000000000000000000000000000000000000000000000000000000000000000000000000⟩

theorem State.unitResetEnd_follows {p s0} {a0} {a1} (hp : Foot.le State.unitResetEnd_foot p) (h0 : Follows p s0 a0) :
    Follows p s0 (State.unitResetEnd (a0) (a1)) := by
  unfold State.unitResetEnd
  refine State.unitFree_follows (hp.sub rfl) ?_
  refine State.resetSpan_follows (hp.sub rfl) ?_
  with_reducible assumption

def State.blackBoxWrite_foot : Foot := ⟨0xc, 0x18000000000000000000000000000000000000000000000000000000000000000000000000000000000000000000000000000000000000000000000000000000000000000000000000000000000⟩

theorem State.blackBoxWrite_follows {p s0} {a0} {a1} (hp : Foot.le State.blackBoxWrite_foot p) (h0 : Follows p s0 a0) :
    Follows p s0 (State.blackBoxWrite (a0) (a1)) := by
  unfold State.blackBoxWrite
  refine Follows.ite ?_ ?_
  · refine State.set_follows 616 hp ?_
    refine State.set_follows 615 hp ?_
    refine State.clearMem_follows hp ?_
    with_reducible assumption
  · with_reducible assumption

def State.scrubSeen_foot : Foot := ⟨0x1fffffff, 0x0⟩

theorem State.scrubSeen_follows {p s0} {a0} {a1} {a2} (hp : Foot.le State.scrubSeen_foot p) (h0 : Follows p s0 a0) :
    Follows p s0 (State.scrubSeen (a0) (a1) (a2)) := by
  unfold State.scrubSeen
  split
  · refine State.uncorrectable_follows (hp.sub rfl) ?_
    with_reducible assumption
  · refine Follows.ite ?_ ?_
    · refine State.uncorrectable_follows (hp.sub rfl) ?_
      with_reducible assumption
    · refine State.corrected_follows (hp.sub rfl) ?_
      with_reducible assumption
  · refine Follows.ite ?_ ?_
    · refine State.uncorrectable_follows (hp.sub rfl) ?_
      with_reducible assumption
    · with_reducible assumption
  · refine State.setPoison_follows hp ?_
    with_reducible assumption
  · with_reducible assumption

def State.scrubWord_foot : Foot := ⟨0x1fffffff, 0x0⟩

theorem State.scrubWord_follows {p s0} {a0} {a1} {a2} (hp : Foot.le State.scrubWord_foot p) (h0 : Follows p s0 a0) :
    Follows p s0 (State.scrubWord (a0) (a1) (a2)) := by
  unfold State.scrubWord
  refine Follows.ite ?_ ?_
  · with_reducible assumption
  · extract_lets y0 y1 y2 y3 y4 y5 y6
    clear_value y0
    clear_value y1
    clear_value y2
    have k7 : Follows p s0 y3 := by
      subst y3
      refine State.scrubSeen_follows (hp.sub rfl) ?_
      refine State.pmc_follows (hp.sub rfl) ?_
      with_reducible assumption
    clear_value y3
    clear_value y4
    clear_value y5
    have k8 : Follows p s0 y6 := by
      subst y6
      refine Follows.update hp ?_ rfl rfl
      with_reducible assumption
    clear_value y6
    refine Follows.ite ?_ ?_
    · refine State.bumpWrap_follows 514 hp ?_
      with_reducible assumption
    · with_reducible assumption

def State.pmcCtrlWrite_foot : Foot := ⟨0x0, 0x1007800000000000000000000000000000000000000000000000000000000000000000000000000000000000000000000000000000000000000000000000000000000⟩

theorem State.pmcCtrlWrite_follows {p s0} {a0} {a1} (hp : Foot.le State.pmcCtrlWrite_foot p) (h0 : Follows p s0 a0) :
    Follows p s0 (State.pmcCtrlWrite (a0) (a1)) := by
  unfold State.pmcCtrlWrite
  extract_lets y0
  have k1 : Follows p s0 y0 := by
    subst y0
    refine Follows.ite ?_ ?_
    · refine State.pmcSnapshot_follows (hp.sub rfl) ?_
      with_reducible assumption
    · with_reducible assumption
  clear_value y0
  refine State.set_follows 518 hp ?_
  refine State.set_follows 516 hp ?_
  refine State.set_follows 515 hp ?_
  with_reducible assumption

def State.pmcCntWrite_foot : Foot := ⟨0x4000000, 0x800000000000000000000000000000000000000000000000000000000000000000000000000000000000000000000000000000000000000000000000000000000000⟩

theorem State.pmcCntWrite_follows {p s0} {a0} {a1} {a2} (hp : Foot.le State.pmcCntWrite_foot p) (h0 : Follows p s0 a0) :
    Follows p s0 (State.pmcCntWrite (a0) (a1) (a2)) := by
  unfold State.pmcCntWrite
  extract_lets y0 y1
  have k2 : Follows p s0 y0 := by
    subst y0
    refine State.set_follows 527 hp ?_
    with_reducible assumption
  clear_value y0
  clear_value y1
  refine Follows.update hp ?_ rfl rfl
  with_reducible assumption

def State.pmcOverflowEvent_foot : Foot := ⟨0x4000000, 0xe808800000000000000000000000000000000000000000000000000000000000000000000000000000000000000000000000000000000000001000000000000000000⟩

theorem State.pmcOverflowEvent_follows {p s0} {a0} {a1} {a2} (hp : Foot.le State.pmcOverflowEvent_foot p) (h0 : Follows p s0 a0) :
    Follows p s0 (State.pmcOverflowEvent (a0) (a1) (a2)) := by
  unfold State.pmcOverflowEvent
  refine Follows.ite ?_ ?_
  · with_reducible assumption
  · extract_lets y0
    clear_value y0
    refine State.pmcAdd_follows (hp.sub rfl) ?_
    with_reducible assumption

def State.marker_foot : Foot := ⟨0x14004004, 0x50e808800000000000000000000000000000000000000000000000000000000000000000000000000000000000000000000000000000000000001000000000000000000⟩

theorem State.marker_follows {p s0} {a0} {a1} {a2} {a3} {a4} (hp : Foot.le State.marker_foot p) (h0 : Follows p s0 a0) :
    Follows p s0 (State.marker (a0) (a1) (a2) (a3) (a4)) := by
  unfold State.marker
  refine Follows.ite ?_ ?_
  · with_reducible assumption
  · extract_lets y0 y1 y2 y3 y4 y5 y6
    have k7 : Follows p s0 y0 := by
      subst y0
      refine State.drawMask_follows (hp.sub rfl) ?_
      with_reducible assumption
    clear_value y0
    have k8 : Follows p s0 y1 := by
      subst y1
      refine Follows.ite ?_ ?_
      · with_reducible assumption
      · refine State.pmc_follows (hp.sub rfl) ?_
        with_reducible assumption
    clear_value y1
    clear_value y2
    clear_value y3
    have k9 : Follows p s0 y4 := by
      subst y4
      refine State.tickFree_follows (hp.sub rfl) ?_
      with_reducible assumption
    clear_value y4
    clear_value y5
    have k10 : Follows p s0 y6 := by
      subst y6
      refine State.set_follows 538 hp ?_
      refine State.setWords_follows (hp.sub rfl) ?_
      with_reducible assumption
    clear_value y6
    refine Follows.ite ?_ ?_
    · refine State.set_follows 536 hp ?_
      with_reducible assumption
    · refine Follows.ite ?_ ?_
      · refine State.fire_follows (hp.sub rfl) ?_
        with_reducible assumption
      · with_reducible assumption

def State.mgmtCmd_foot : Foot := ⟨0x0, 0x7e000000000000⟩

theorem State.mgmtCmd_follows {p s0} {a0} {a1} (hp : Foot.le State.mgmtCmd_foot p) (h0 : Follows p s0 a0) :
    Follows p s0 (State.mgmtCmd (a0) (a1)).1 := by
  unfold State.mgmtCmd
  refine Follows.ite1 ?_ ?_
  · with_reducible assumption
  · extract_lets y0 y1
    have k2 : Follows p s0 y0 := by
      subst y0
      refine State.set_follows 52 hp ?_
      refine State.set_follows 51 hp ?_
      refine State.set_follows 50 hp ?_
      with_reducible assumption
    clear_value y0
    have k3 : Follows p s0 y1 := by
      subst y1
      refine State.set_follows 53 hp ?_
      with_reducible assumption
    clear_value y1
    refine Follows.ite1 ?_ ?_
    · refine Follows.pair ?_
      refine State.set_follows 54 hp ?_
      refine State.set_follows 49 hp ?_
      with_reducible assumption
    · with_reducible assumption

def State.mgmtOver_foot : Foot := ⟨0x0, 0x42000000000000⟩

theorem State.mgmtOver_follows {p s0} {a0} (hp : Foot.le State.mgmtOver_foot p) (h0 : Follows p s0 a0) :
    Follows p s0 (State.mgmtOver (a0)) := by
  unfold State.mgmtOver
  refine State.set_follows 54 hp ?_
  refine State.set_follows 49 hp ?_
  with_reducible assumption

def State.mgmtDone_foot : Foot := ⟨0x0, 0x2c2000000000000⟩

theorem State.mgmtDone_follows {p s0} {a0} {a1} {a2} (hp : Foot.le State.mgmtDone_foot p) (h0 : Follows p s0 a0) :
    Follows p s0 (State.mgmtDone (a0) (a1) (a2)) := by
  unfold State.mgmtDone
  refine Follows.ite ?_ ?_
  · with_reducible assumption
  · refine Follows.ite ?_ ?_
    · refine State.mgmtOver_follows (hp.sub rfl) ?_
      refine State.set_follows 57 hp ?_
      with_reducible assumption
    · refine State.mgmtOver_follows (hp.sub rfl) ?_
      refine Follows.ite ?_ ?_
      · refine State.set_follows 55 hp ?_
        with_reducible assumption
      · with_reducible assumption

def State.mgmtTimeout_foot : Foot := ⟨0x0, 0x142000000000000⟩

theorem State.mgmtTimeout_follows {p s0} {a0} (hp : Foot.le State.mgmtTimeout_foot p) (h0 : Follows p s0 a0) :
    Follows p s0 (State.mgmtTimeout (a0)) := by
  unfold State.mgmtTimeout
  refine Follows.ite ?_ ?_
  · refine State.mgmtOver_follows (hp.sub rfl) ?_
    refine State.set_follows 56 hp ?_
    with_reducible assumption
  · with_reducible assumption

def execUnitResetEnd_foot : Foot := ⟨0x2018010, 0x1c000000000000000000000000000000000000000000000000000000000000000000000000000000000000000000000000000000000000000000000000000000⟩

theorem execUnitResetEnd_follows {p s0} {a0} {a1} (hp : Foot.le execUnitResetEnd_foot p) (h1 : Follows p s0 a1) :
    FollowsOut p s0 (execUnitResetEnd (a0) (a1)) := by
  unfold execUnitResetEnd
  refine FollowsOut.next ?_
  refine State.unitResetEnd_follows (hp.sub rfl) ?_
  with_reducible assumption

def execScrubWord_foot : Foot := ⟨0x1fffffff, 0x0⟩

theorem execScrubWord_follows {p s0} {a0} {a1} {a2} (hp : Foot.le execScrubWord_foot p) (h2 : Follows p s0 a2) :
    FollowsOut p s0 (execScrubWord (a0) (a1) (a2)) := by
  unfold execScrubWord
  refine FollowsOut.next ?_
  refine State.scrubWord_follows (hp.sub rfl) ?_
  with_reducible assumption

def execPmcOverflow_foot : Foot := ⟨0x4000000, 0xe808800000000000000000000000000000000000000000000000000000000000000000000000000000000000000000000000000000000000001000000000000000000⟩

theorem execPmcOverflow_follows {p s0} {a0} {a1} {a2} (hp : Foot.le execPmcOverflow_foot p) (h2 : Follows p s0 a2) :
    FollowsOut p s0 (execPmcOverflow (a0) (a1) (a2)) := by
  unfold execPmcOverflow
  refine FollowsOut.next ?_
  refine State.pmcOverflowEvent_follows (hp.sub rfl) ?_
  with_reducible assumption

def execMarkerSample_foot : Foot := ⟨0x14004004, 0x50e808800000000000000000000000000000000000000000000000000000000000000000000000000000000000000000000000000000000000001000000000000000000⟩

theorem execMarkerSample_follows {p s0} {a0} {a1} {a2} {a3} {a4} (hp : Foot.le execMarkerSample_foot p) (h4 : Follows p s0 a4) :
    FollowsOut p s0 (execMarkerSample (a0) (a1) (a2) (a3) (a4)) := by
  unfold execMarkerSample
  refine FollowsOut.next ?_
  refine State.marker_follows (hp.sub rfl) ?_
  with_reducible assumption

def execMgmtDone_foot : Foot := ⟨0x0, 0x2c2000000000000⟩

theorem execMgmtDone_follows {p s0} {a0} {a1} {a2} (hp : Foot.le execMgmtDone_foot p) (h2 : Follows p s0 a2) :
    FollowsOut p s0 (execMgmtDone (a0) (a1) (a2)) := by
  unfold execMgmtDone
  refine FollowsOut.next ?_
  refine State.mgmtDone_follows (hp.sub rfl) ?_
  with_reducible assumption

def execMgmtTimeout_foot : Foot := ⟨0x0, 0x142000000000000⟩

theorem execMgmtTimeout_follows {p s0} {a0} (hp : Foot.le execMgmtTimeout_foot p) (h0 : Follows p s0 a0) :
    FollowsOut p s0 (execMgmtTimeout (a0)) := by
  unfold execMgmtTimeout
  refine FollowsOut.next ?_
  refine State.mgmtTimeout_follows (hp.sub rfl) ?_
  with_reducible assumption

end Sys2Proof.Machine
end

