-- ==== Sys2Proof/Laws/FootDevice.lean ====
section
/-! SUPPORT. Laws/FootDevice.lean: one footprint and one lemma for each operation of
accesses of the device map and the commands that make them (Laws/Follows.lean). -/

set_option Elab.async false

namespace Sys2Proof.Machine

open Sys2Proof

set_option maxRecDepth 20000

/-! ### Machine/DevEnd.lean -/

def State.linkDone_foot : Foot := ⟨0x4200000, 0xe808800000000000000000000000000000000000000000000000000000000000000000000000000000000000000000000000000000000000001000000000000000000⟩

theorem State.linkDone_follows {p s0} {a0} {a1} {a2} {a3} {a4} {a5} (hp : Foot.le State.linkDone_foot p) (h0 : Follows p s0 a0) :
    Follows p s0 (State.linkDone (a0) (a1) (a2) (a3) (a4) (a5)) := by
  unfold State.linkDone
  extract_lets y0 y1
  clear_value y0
  have k2 : Follows p s0 y1 := by
    subst y1
    refine State.updLink_follows (hp.sub rfl) ?_
    with_reducible assumption
  clear_value y1
  refine State.settleCancels_follows (hp.sub rfl) ?_
  refine Follows.ite ?_ ?_
  · refine State.linkSend_follows (hp.sub rfl) ?_
    with_reducible assumption
  · with_reducible assumption

def State.logLate_foot : Foot := ⟨0x200000, 0xff0000000000000000000000000000000000000000000000000000000000000000000000000000000000000001000000000000000000⟩

theorem State.logLate_follows {p s0} {a0} {a1} {a2} {a3} {a4} {a5} (hp : Foot.le State.logLate_foot p) (h0 : Follows p s0 a0) :
    Follows p s0 (State.logLate (a0) (a1) (a2) (a3) (a4) (a5)) := by
  unfold State.logLate
  extract_lets y0 y1 y2 y3 y4 y5 y6
  clear_value y0
  clear_value y1
  have k7 : Follows p s0 y2 := by
    subst y2
    refine Follows.ite ?_ ?_
    · refine State.bump_follows 425 hp ?_
      with_reducible assumption
    · with_reducible assumption
  clear_value y2
  clear_value y3
  have k8 : Follows p s0 y4 := by
    subst y4
    refine Follows.update hp ?_ rfl rfl
    with_reducible assumption
  clear_value y4
  have k9 : Follows p s0 y5 := by
    subst y5
    refine State.set_follows 428 hp ?_
    refine State.set_follows 427 hp ?_
    refine State.set_follows 426 hp ?_
    with_reducible assumption
  clear_value y5
  have k10 : Follows p s0 y6 := by
    subst y6
    refine State.set_follows 431 hp ?_
    refine State.set_follows 430 hp ?_
    refine State.set_follows 429 hp ?_
    with_reducible assumption
  clear_value y6
  refine State.fire_follows (hp.sub rfl) ?_
  refine State.set_follows 424 hp ?_
  with_reducible assumption

def State.lateFault_foot : Foot := ⟨0x200000, 0xff0000000000000000000000000000000000000000000000000000000000000000000000000000000000000001000000000000000000⟩

theorem State.lateFault_follows {p s0} {a0} {a1} {a2} {a3} {a4} (hp : Foot.le State.lateFault_foot p) (h0 : Follows p s0 a0) :
    Follows p s0 (State.lateFault (a0) (a1) (a2) (a3) (a4)) := by
  unfold State.lateFault
  extract_lets y0 y1 y2 y3
  have k4 : Follows p s0 y0 := by
    subst y0
    refine State.updLink_follows (hp.sub rfl) ?_
    with_reducible assumption
  clear_value y0
  clear_value y1
  have k5 : Follows p s0 y2 := by
    subst y2
    refine State.logLate_follows (hp.sub rfl) ?_
    with_reducible assumption
  clear_value y2
  clear_value y3
  refine Follows.update hp ?_ rfl rfl
  with_reducible assumption

def State.gatherPut_foot : Foot := ⟨0x1fffffff, 0x0⟩

theorem State.gatherPut_follows {p s0} {a0} {a1} {a2} {a3} {a4} {a5} {a6} (hp : Foot.le State.gatherPut_foot p) (h0 : Follows p s0 a0) :
    Follows p s0 (State.gatherPut (a0) (a1) (a2) (a3) (a4) (a5) (a6)) := by
  unfold State.gatherPut
  extract_lets y0 y1 y2
  clear_value y0
  clear_value y1
  clear_value y2
  refine Follows.ite ?_ ?_
  · refine State.engRetire_follows (hp.sub rfl) ?_
    with_reducible assumption
  · split
    · refine State.engFault_follows (hp.sub rfl) ?_
      with_reducible assumption
    · refine State.updEng_follows (hp.sub rfl) ?_
      with_reducible assumption

def State.engFinish_foot : Foot := ⟨0x1fffffff, 0x0⟩

theorem State.engFinish_follows {p s0} {a0} {a1} {a2} {a3} (hp : Foot.le State.engFinish_foot p) (h0 : Follows p s0 a0) :
    Follows p s0 (State.engFinish (a0) (a1) (a2) (a3)) := by
  unfold State.engFinish
  extract_lets y0 y1
  clear_value y0
  clear_value y1
  refine Follows.ite ?_ ?_
  · refine State.updEng_follows (hp.sub rfl) ?_
    with_reducible assumption
  · split
    · split
      · refine State.engFault_follows (hp.sub rfl) ?_
        with_reducible assumption
      · refine State.engRetire_follows (hp.sub rfl) ?_
        with_reducible assumption
    · split
      · refine State.engFault_follows (hp.sub rfl) ?_
        with_reducible assumption
      · refine State.engRetire_follows (hp.sub rfl) ?_
        with_reducible assumption
    · split
      · refine State.engFault_follows (hp.sub rfl) ?_
        with_reducible assumption
      · refine State.engRetire_follows (hp.sub rfl) ?_
        with_reducible assumption
    · split
      · refine State.engFault_follows (hp.sub rfl) ?_
        with_reducible assumption
      · refine State.engRetire_follows (hp.sub rfl) ?_
        with_reducible assumption
    · split
      · refine State.engFault_follows (hp.sub rfl) ?_
        with_reducible assumption
      · refine State.gatherPut_follows (hp.sub rfl) ?_
        with_reducible assumption
    · with_reducible assumption

def State.storeFailed_foot : Foot := ⟨0x20000, 0x0⟩

theorem State.storeFailed_follows {p s0} {a0} {a1} {a2} {a3} (hp : Foot.le State.storeFailed_foot p) (h0 : Follows p s0 a0) :
    Follows p s0 (State.storeFailed (a0) (a1) (a2) (a3)) := by
  unfold State.storeFailed
  refine State.updEng_follows (hp.sub rfl) ?_
  with_reducible assumption

def State.finish_foot : Foot := ⟨0x1fffffff, 0x0⟩

theorem State.finish_follows {p s0} {a0} {a1} {a2} {a3} {a4} (hp : Foot.le State.finish_foot p) (h0 : Follows p s0 a0) :
    Follows p s0 (State.finish (a0) (a1) (a2) (a3) (a4)) := by
  unfold State.finish
  split
  · refine State.reply_follows (hp.sub rfl) ?_
    with_reducible assumption
  · refine State.linkDone_follows (hp.sub rfl) ?_
    with_reducible assumption
  · refine Follows.ite ?_ ?_
    · with_reducible assumption
    · refine State.lateFault_follows (hp.sub rfl) ?_
      with_reducible assumption
  · refine State.engFinish_follows (hp.sub rfl) ?_
    with_reducible assumption
  · refine Follows.ite ?_ ?_
    · with_reducible assumption
    · refine State.storeFailed_follows (hp.sub rfl) ?_
      with_reducible assumption
  · with_reducible assumption

def State.askFence_foot : Foot := ⟨0x4200000, 0xe808800000000000000000000000000000000000000000000000000000000000000000000000000000000000000000000000000000000000001000000000000000000⟩

theorem State.askFence_follows {p s0} {a0} {a1} (hp : Foot.le State.askFence_foot p) (h0 : Follows p s0 a0) :
    Follows p s0 (State.askFence (a0) (a1)) := by
  unfold State.askFence
  extract_lets y0 y1
  clear_value y0
  clear_value y1
  split
  · refine State.linkSend_follows (hp.sub rfl) ?_
    refine State.updLink_follows (hp.sub rfl) ?_
    with_reducible assumption
  · with_reducible assumption

def State.fenceDone_foot : Foot := ⟨0x4200000, 0xe808800000000000000000000000000000000000000000000000000000000000000000000000000000000000000000000000000000000000001000000000000000000⟩

theorem State.fenceDone_follows {p s0} {a0} {a1} (hp : Foot.le State.fenceDone_foot p) (h0 : Follows p s0 a0) :
    Follows p s0 (State.fenceDone (a0) (a1)) := by
  unfold State.fenceDone
  refine State.linkDone_follows (hp.sub rfl) ?_
  refine State.updLink_follows (hp.sub rfl) ?_
  with_reducible assumption

def State.engFence_foot : Foot := ⟨0x1fffffff, 0x0⟩

theorem State.engFence_follows {p s0} {a0} {a1} (hp : Foot.le State.engFence_foot p) (h0 : Follows p s0 a0) :
    Follows p s0 (State.engFence (a0) (a1)) := by
  unfold State.engFence
  extract_lets y0
  clear_value y0
  refine Follows.ite ?_ ?_
  · with_reducible assumption
  · refine Follows.ite ?_ ?_
    · refine State.takeBoundary_follows (hp.sub rfl) ?_
      refine State.updEng_follows (hp.sub rfl) ?_
      with_reducible assumption
    · refine Follows.ite ?_ ?_
      · with_reducible assumption
      · refine State.engRetire_follows (hp.sub rfl) ?_
        with_reducible assumption

def State.settleFences_foot : Foot := ⟨0x1fffffff, 0x0⟩

theorem State.settleFences_follows {p s0} {a0} (hp : Foot.le State.settleFences_foot p) (h0 : Follows p s0 a0) :
    Follows p s0 (State.settleFences (a0)) := by
  unfold State.settleFences
  extract_lets y0 y1 y2 y3 y4
  clear_value y0
  clear_value y1
  clear_value y2
  have k5 : Follows p s0 y3 := by
    subst y3
    refine Follows.update hp ?_ rfl rfl
    with_reducible assumption
  clear_value y3
  have k6 : Follows p s0 y4 := by
    subst y4
    refine Follows.forAll ?_ ?_
    · intro x7 x8 x9
      refine State.engBoundary_follows (hp.sub rfl) ?_
      refine State.engFence_follows (hp.sub rfl) ?_
      with_reducible assumption
    · refine Follows.foldl ?_ ?_
      · intro x10 x11 x12
        refine State.fenceDone_follows (hp.sub rfl) ?_
        with_reducible assumption
      · with_reducible assumption
  clear_value y4
  refine Follows.forAll ?_ ?_
  · intro x13 x14 x15
    refine State.askFence_follows (hp.sub rfl) ?_
    with_reducible assumption
  · with_reducible assumption

def State.unpowered_foot : Foot := ⟨0x1fffffff, 0x0⟩

theorem State.unpowered_follows {p s0} {a0} {a1} {a2} {a3} {a4} (hp : Foot.le State.unpowered_foot p) (h0 : Follows p s0 a0) :
    Follows p s0 (State.unpowered (a0) (a1) (a2) (a3) (a4)) := by
  unfold State.unpowered
  refine State.logErr_follows (hp.sub rfl) ?_
  refine State.bump_follows 38 hp ?_
  with_reducible assumption

def State.wotFail_foot : Foot := ⟨0x1fffffff, 0x0⟩

theorem State.wotFail_follows {p s0} {a0} {a1} (hp : Foot.le State.wotFail_foot p) (h0 : Follows p s0 a0) :
    Follows p s0 (State.wotFail (a0) (a1)) := by
  unfold State.wotFail
  refine State.finish_follows (hp.sub rfl) ?_
  refine State.unpowered_follows (hp.sub rfl) ?_
  with_reducible assumption

def State.wotDrop_foot : Foot := ⟨0x1fffffff, 0x0⟩

theorem State.wotDrop_follows {p s0} {a0} {a1} (hp : Foot.le State.wotDrop_foot p) (h0 : Follows p s0 a0) :
    Follows p s0 (State.wotDrop (a0) (a1)) := by
  unfold State.wotDrop
  extract_lets y0 y1 y2
  clear_value y0
  clear_value y1
  have k3 : Follows p s0 y2 := by
    subst y2
    refine Follows.update hp ?_ rfl rfl
    with_reducible assumption
  clear_value y2
  refine Follows.ite ?_ ?_
  · with_reducible assumption
  · refine State.settleFences_follows (hp.sub rfl) ?_
    refine State.unvote_follows (hp.sub rfl) ?_
    refine Follows.foldl ?_ ?_
    · intro x4 x5 x6
      refine State.wotFail_follows (hp.sub rfl) ?_
      with_reducible assumption
    · with_reducible assumption

def State.wotForced_foot : Foot := ⟨0x1fffffff, 0x0⟩

theorem State.wotForced_follows {p s0} {a0} (hp : Foot.le State.wotForced_foot p) (h0 : Follows p s0 a0) :
    Follows p s0 (State.wotForced (a0)) := by
  unfold State.wotForced
  refine Follows.foldl ?_ ?_
  · intro x0 x1 x2
    refine Follows.ite ?_ ?_
    · refine State.wotDrop_follows (hp.sub rfl) ?_
      with_reducible assumption
    · with_reducible assumption
  · with_reducible assumption

def execWotTimeout_foot : Foot := ⟨0x1fffffff, 0x0⟩

theorem execWotTimeout_follows {p s0} {a0} {a1} (hp : Foot.le execWotTimeout_foot p) (h1 : Follows p s0 a1) :
    FollowsOut p s0 (execWotTimeout (a0) (a1)) := by
  unfold execWotTimeout
  refine FollowsOut.next ?_
  refine Follows.ite ?_ ?_
  · with_reducible assumption
  · refine State.wotDrop_follows (hp.sub rfl) ?_
    with_reducible assumption

/-! ### Machine/RegAccess.lean -/

def State.readClears_foot : Foot := ⟨0x1fffffff, 0x0⟩

theorem State.readClears_follows {p s0} {a0} {a1} (hp : Foot.le State.readClears_foot p) (h0 : Follows p s0 a0) :
    Follows p s0 (State.readClears (a0) (a1)) := by
  unfold State.readClears
  refine Follows.foldl ?_ ?_
  · intro x0 x1 x2
    refine Follows.ite ?_ ?_
    · refine State.set_follows _ hp ?_
      with_reducible assumption
    · with_reducible assumption
  · with_reducible assumption

def State.readMarks_foot : Foot := ⟨0x4100010, 0x440000200000000000000000000000000000⟩

theorem State.readMarks_follows {p s0} {a0} {a1} (hp : Foot.le State.readMarks_foot p) (h0 : Follows p s0 a0) :
    Follows p s0 (State.readMarks (a0) (a1)) := by
  unfold State.readMarks
  extract_lets y0 y1
  clear_value y0
  clear_value y1
  refine Follows.ite ?_ ?_
  · refine State.set_follows 117 hp ?_
    with_reducible assumption
  · refine Follows.ite ?_ ?_
    · refine Follows.ite ?_ ?_
      · refine State.set_follows 138 hp ?_
        with_reducible assumption
      · refine Follows.ite ?_ ?_
        · refine State.set_follows 142 hp ?_
          with_reducible assumption
        · refine Follows.ite ?_ ?_
          · refine State.crcDone_follows (hp.sub rfl) ?_
            with_reducible assumption
          · refine Follows.ite ?_ ?_
            · refine Follows.update hp ?_ rfl rfl
              with_reducible assumption
            · with_reducible assumption
    · with_reducible assumption

def State.lmStep_foot : Foot := ⟨0x20000, 0x0⟩

theorem State.lmStep_follows {p s0} {a0} {a1} (hp : Foot.le State.lmStep_foot p) (h0 : Follows p s0 a0) :
    Follows p s0 (State.lmStep (a0) (a1)) := by
  unfold State.lmStep
  refine State.updEng_follows (hp.sub rfl) ?_
  with_reducible assumption

def State.ctlWrite_foot : Foot := ⟨0x20000, 0x0⟩

theorem State.ctlWrite_follows {p s0} {a0} {a1} {a2} {a3} (hp : Foot.le State.ctlWrite_foot p) (h0 : Follows p s0 a0) :
    Follows p s0 (State.ctlWrite (a0) (a1) (a2) (a3)).1 := by
  unfold State.ctlWrite
  split
  · extract_lets y1
    have k2 : Follows p s0 y1 := by
      subst y1
      refine State.updEng_follows (hp.sub rfl) ?_
      with_reducible assumption
    clear_value y1
    refine Follows.pair ?_
    refine Follows.ite ?_ ?_
    · refine State.engRun_follows (hp.sub rfl) ?_
      with_reducible assumption
    · refine State.engBoundary_follows (hp.sub rfl) ?_
      refine State.updEng_follows (hp.sub rfl) ?_
      with_reducible assumption
  · refine Follows.ite1 ?_ ?_
    · with_reducible assumption
    · refine Follows.pair ?_
      refine State.updEng_follows (hp.sub rfl) ?_
      with_reducible assumption
  · refine Follows.pair ?_
    refine State.engBoundary_follows (hp.sub rfl) ?_
    refine State.updEng_follows (hp.sub rfl) ?_
    with_reducible assumption
  · refine Follows.pair ?_
    refine State.engBoundary_follows (hp.sub rfl) ?_
    refine State.updEng_follows (hp.sub rfl) ?_
    with_reducible assumption
  · refine Follows.pair ?_
    refine State.engBoundary_follows (hp.sub rfl) ?_
    refine State.updEng_follows (hp.sub rfl) ?_
    with_reducible assumption
  · refine Follows.pair ?_
    refine State.engBoundary_follows (hp.sub rfl) ?_
    refine State.updEng_follows (hp.sub rfl) ?_
    with_reducible assumption
  · refine Follows.pair ?_
    refine State.updEng_follows (hp.sub rfl) ?_
    with_reducible assumption
  · refine Follows.pair ?_
    refine Follows.ite ?_ ?_
    · refine State.updEng_follows (hp.sub rfl) ?_
      with_reducible assumption
    · with_reducible assumption

def State.fieldWrite_foot : Foot := ⟨0x1fffffff, 0x0⟩

theorem State.fieldWrite_follows {p s0} {a0} {a1} {a2} {a3} (hp : Foot.le State.fieldWrite_foot p) (h0 : Follows p s0 a0) :
    Follows p s0 (State.fieldWrite (a0) (a1) (a2) (a3)) := by
  unfold State.fieldWrite
  extract_lets y0
  clear_value y0
  split
  · refine State.set_follows _ hp ?_
    with_reducible assumption
  · refine State.set_follows _ hp ?_
    with_reducible assumption
  · with_reducible assumption
  · with_reducible assumption
  · refine State.set_follows _ hp ?_
    with_reducible assumption
  · refine State.set_follows _ hp ?_
    with_reducible assumption
  · refine Follows.ite ?_ ?_
    · with_reducible assumption
    · refine State.set_follows _ hp ?_
      with_reducible assumption

def State.plainWrite_foot : Foot := ⟨0x1fffffff, 0x0⟩

theorem State.plainWrite_follows {p s0} {a0} {a1} {a2} (hp : Foot.le State.plainWrite_foot p) (h0 : Follows p s0 a0) :
    Follows p s0 (State.plainWrite (a0) (a1) (a2)) := by
  unfold State.plainWrite
  extract_lets y0
  clear_value y0
  refine Follows.foldl ?_ ?_
  · intro x1 x2 x3
    refine State.fieldWrite_follows (hp.sub rfl) ?_
    with_reducible assumption
  · with_reducible assumption

/-! ### Machine/RegWrite.lean -/

def State.plainOk_foot : Foot := ⟨0x1fffffff, 0x0⟩

theorem State.plainOk_follows {p s0} {a0} {a1} {a2} (hp : Foot.le State.plainOk_foot p) (h0 : Follows p s0 a0) :
    Follows p s0 (State.plainOk (a0) (a1) (a2)).1 := by
  unfold State.plainOk
  refine Follows.pair ?_
  refine State.plainWrite_follows (hp.sub rfl) ?_
  with_reducible assumption

def State.plainUnless_foot : Foot := ⟨0x1fffffff, 0x0⟩

theorem State.plainUnless_follows {p s0} {a0} {a1} {a2} {a3} (hp : Foot.le State.plainUnless_foot p) (h0 : Follows p s0 a0) :
    Follows p s0 (State.plainUnless (a0) (a1) (a2) (a3)).1 := by
  unfold State.plainUnless
  refine Follows.ite1 ?_ ?_
  · with_reducible assumption
  · refine State.plainOk_follows (hp.sub rfl) ?_
    with_reducible assumption

def State.writeHub_foot : Foot := ⟨0x1fffffff, 0x0⟩

theorem State.writeHub_follows {p s0} {a0} {a1} {a2} (hp : Foot.le State.writeHub_foot p) (h0 : Follows p s0 a0) :
    Follows p s0 (State.writeHub (a0) (a1) (a2)).1 := by
  unfold State.writeHub
  refine Follows.ite1 ?_ ?_
  · refine Follows.pair ?_
    refine State.funcModeWrite_follows (hp.sub rfl) ?_
    with_reducible assumption
  · refine Follows.ite1 ?_ ?_
    · refine State.gcommitWrite_follows (hp.sub rfl) ?_
      with_reducible assumption
    · refine Follows.ite1 ?_ ?_
      · extract_lets y0
        have k1 : Follows p s0 y0 := by
          subst y0
          refine State.plainWrite_follows (hp.sub rfl) ?_
          with_reducible assumption
        clear_value y0
        refine Follows.pair ?_
        refine Follows.ite ?_ ?_
        · refine State.wdogKick_follows (hp.sub rfl) ?_
          with_reducible assumption
        · with_reducible assumption
      · refine Follows.ite1 ?_ ?_
        · refine Follows.pair ?_
          refine State.wdogKick_follows (hp.sub rfl) ?_
          with_reducible assumption
        · refine State.plainOk_follows (hp.sub rfl) ?_
          with_reducible assumption

def State.pwrCfgWrite_foot : Foot := ⟨0x1fffffff, 0x0⟩

theorem State.pwrCfgWrite_follows {p s0} {a0} {a1} {a2} (hp : Foot.le State.pwrCfgWrite_foot p) (h0 : Follows p s0 a0) :
    Follows p s0 (State.pwrCfgWrite (a0) (a1) (a2)) := by
  unfold State.pwrCfgWrite
  extract_lets y0
  have k1 : Follows p s0 y0 := by
    subst y0
    refine State.plainWrite_follows (hp.sub rfl) ?_
    with_reducible assumption
  clear_value y0
  refine Follows.ite ?_ ?_
  · refine State.raiseRf_follows (hp.sub rfl) ?_
    with_reducible assumption
  · with_reducible assumption

def State.writePwr_foot : Foot := ⟨0x1fffffff, 0x0⟩

theorem State.writePwr_follows {p s0} {a0} {a1} {a2} {a3} (hp : Foot.le State.writePwr_foot p) (h0 : Follows p s0 a0) :
    Follows p s0 (State.writePwr (a0) (a1) (a2) (a3)).1 := by
  unfold State.writePwr
  refine Follows.ite1 ?_ ?_
  · extract_lets y0
    clear_value y0
    refine Follows.ite1 ?_ ?_
    · refine Follows.pair ?_
      refine State.voteSet_follows (hp.sub rfl) ?_
      with_reducible assumption
    · refine Follows.ite1 ?_ ?_
      · refine Follows.pair ?_
        refine State.voteClr_follows (hp.sub rfl) ?_
        with_reducible assumption
      · refine State.plainOk_follows (hp.sub rfl) ?_
        with_reducible assumption
  · refine Follows.ite1 ?_ ?_
    · refine Follows.pair ?_
      refine State.wotForced_follows (hp.sub rfl) ?_
      refine State.forceWrite_follows (hp.sub rfl) ?_
      with_reducible assumption
    · refine Follows.ite1 ?_ ?_
      · refine Follows.pair ?_
        refine State.gateWrite_follows (hp.sub rfl) ?_
        with_reducible assumption
      · refine Follows.ite1 ?_ ?_
        · refine Follows.pair ?_
          refine State.pwrCfgWrite_follows (hp.sub rfl) ?_
          with_reducible assumption
        · refine Follows.ite1 ?_ ?_
          · refine Follows.pair ?_
            refine State.settleCxi_follows (hp.sub rfl) ?_
            refine State.refreshCx_follows (hp.sub rfl) ?_
            refine State.plainWrite_follows (hp.sub rfl) ?_
            with_reducible assumption
          · refine Follows.ite1 ?_ ?_
            · refine State.mgmtCmd_follows (hp.sub rfl) ?_
              with_reducible assumption
            · refine Follows.ite1 ?_ ?_
              · refine Follows.pair ?_
                refine State.wotForced_follows (hp.sub rfl) ?_
                refine State.keelVoteWrite_follows (hp.sub rfl) ?_
                with_reducible assumption
              · refine State.plainOk_follows (hp.sub rfl) ?_
                with_reducible assumption

def State.writeIrq_foot : Foot := ⟨0x1fffffff, 0x0⟩

theorem State.writeIrq_follows {p s0} {a0} {a1} {a2} (hp : Foot.le State.writeIrq_foot p) (h0 : Follows p s0 a0) :
    Follows p s0 (State.writeIrq (a0) (a1) (a2)).1 := by
  unfold State.writeIrq
  refine Follows.ite1 ?_ ?_
  · refine Follows.pair ?_
    refine State.irqPendClear_follows (hp.sub rfl) ?_
    with_reducible assumption
  · refine Follows.ite1 ?_ ?_
    · refine Follows.pair ?_
      refine State.irqSet_follows (hp.sub rfl) ?_
      with_reducible assumption
    · refine Follows.ite1 ?_ ?_
      · refine Follows.pair ?_
        refine State.irqEoi_follows (hp.sub rfl) ?_
        with_reducible assumption
      · refine State.plainOk_follows (hp.sub rfl) ?_
        with_reducible assumption

def State.writeCell_foot : Foot := ⟨0x1fffffff, 0x0⟩

theorem State.writeCell_follows {p s0} {a0} {a1} {a2} {a3} (hp : Foot.le State.writeCell_foot p) (h0 : Follows p s0 a0) :
    Follows p s0 (State.writeCell (a0) (a1) (a2) (a3)).1 := by
  unfold State.writeCell
  refine Follows.ite1 ?_ ?_
  · refine Follows.pair ?_
    refine State.cellCtrlWrite_follows (hp.sub rfl) ?_
    with_reducible assumption
  · refine State.plainUnless_follows (hp.sub rfl) ?_
    with_reducible assumption

def State.writeYrn_foot : Foot := ⟨0x1fffffff, 0x0⟩

theorem State.writeYrn_follows {p s0} {a0} {a1} {a2} (hp : Foot.le State.writeYrn_foot p) (h0 : Follows p s0 a0) :
    Follows p s0 (State.writeYrn (a0) (a1) (a2)).1 := by
  unfold State.writeYrn
  refine Follows.ite1 ?_ ?_
  · refine Follows.pair ?_
    refine State.yrnFire_follows (hp.sub rfl) ?_
    with_reducible assumption
  · refine Follows.ite1 ?_ ?_
    · refine State.writeCell_follows (hp.sub rfl) ?_
      with_reducible assumption
    · refine Follows.ite1 ?_ ?_
      · refine Follows.pair ?_
        refine State.gpWritten_follows (hp.sub rfl) ?_
        refine State.plainWrite_follows (hp.sub rfl) ?_
        with_reducible assumption
      · refine State.plainOk_follows (hp.sub rfl) ?_
        with_reducible assumption

def State.writeTimer_foot : Foot := ⟨0x1fffffff, 0x0⟩

theorem State.writeTimer_follows {p s0} {a0} {a1} {a2} {a3} (hp : Foot.le State.writeTimer_foot p) (h0 : Follows p s0 a0) :
    Follows p s0 (State.writeTimer (a0) (a1) (a2) (a3)).1 := by
  unfold State.writeTimer
  refine Follows.ite1 ?_ ?_
  · refine State.tmrCtrlWrite_follows (hp.sub rfl) ?_
    with_reducible assumption
  · refine State.plainUnless_follows (hp.sub rfl) ?_
    with_reducible assumption

def State.writeWide_foot : Foot := ⟨0x1fffffff, 0x0⟩

theorem State.writeWide_follows {p s0} {a0} {a1} {a2} {a3} (hp : Foot.le State.writeWide_foot p) (h0 : Follows p s0 a0) :
    Follows p s0 (State.writeWide (a0) (a1) (a2) (a3)).1 := by
  unfold State.writeWide
  refine Follows.ite1 ?_ ?_
  · refine State.tmrCtrlWrite_follows (hp.sub rfl) ?_
    with_reducible assumption
  · refine State.plainUnless_follows (hp.sub rfl) ?_
    with_reducible assumption

def State.writeTmr_foot : Foot := ⟨0x1fffffff, 0x0⟩

theorem State.writeTmr_follows {p s0} {a0} {a1} {a2} (hp : Foot.le State.writeTmr_foot p) (h0 : Follows p s0 a0) :
    Follows p s0 (State.writeTmr (a0) (a1) (a2)).1 := by
  unfold State.writeTmr
  refine Follows.ite1 ?_ ?_
  · refine State.writeTimer_follows (hp.sub rfl) ?_
    with_reducible assumption
  · refine Follows.ite1 ?_ ?_
    · refine State.writeWide_follows (hp.sub rfl) ?_
      with_reducible assumption
    · refine Follows.ite1 ?_ ?_
      · extract_lets y0 y1
        clear_value y0
        have k2 : Follows p s0 y1 := by
          subst y1
          refine State.plainWrite_follows (hp.sub rfl) ?_
          with_reducible assumption
        clear_value y1
        refine Follows.pair ?_
        refine Follows.ite ?_ ?_
        · refine State.tsOutArm_follows (hp.sub rfl) ?_
          with_reducible assumption
        · with_reducible assumption
      · refine State.plainOk_follows (hp.sub rfl) ?_
        with_reducible assumption

def State.writeCrc_foot : Foot := ⟨0x1fffffff, 0x0⟩

theorem State.writeCrc_follows {p s0} {a0} {a1} {a2} {a3} (hp : Foot.le State.writeCrc_foot p) (h0 : Follows p s0 a0) :
    Follows p s0 (State.writeCrc (a0) (a1) (a2) (a3)).1 := by
  unfold State.writeCrc
  extract_lets y0 y1
  clear_value y0
  have k2 : Follows p s0 y1 := by
    subst y1
    refine Follows.ite ?_ ?_
    · with_reducible assumption
    · refine State.crcDone_follows (hp.sub rfl) ?_
      with_reducible assumption
  clear_value y1
  refine Follows.ite1 ?_ ?_
  · refine State.plainOk_follows (hp.sub rfl) ?_
    with_reducible assumption
  · refine Follows.ite1 ?_ ?_
    · refine Follows.pair ?_
      refine State.crcCfgWrite_follows (hp.sub rfl) ?_
      with_reducible assumption
    · refine Follows.ite1 ?_ ?_
      · refine Follows.pair ?_
        refine State.crcFeedUnit_follows (hp.sub rfl) ?_
        with_reducible assumption
      · refine Follows.ite1 ?_ ?_
        · refine Follows.pair ?_
          refine State.crcFeedUnit_follows (hp.sub rfl) ?_
          with_reducible assumption
        · refine Follows.ite1 ?_ ?_
          · refine Follows.pair ?_
            refine State.crcFeedUnit_follows (hp.sub rfl) ?_
            with_reducible assumption
          · refine State.plainOk_follows (hp.sub rfl) ?_
            with_reducible assumption

def State.writeSec_foot : Foot := ⟨0x1fffffff, 0x0⟩

theorem State.writeSec_follows {p s0} {a0} {a1} {a2} (hp : Foot.le State.writeSec_foot p) (h0 : Follows p s0 a0) :
    Follows p s0 (State.writeSec (a0) (a1) (a2)).1 := by
  unfold State.writeSec
  refine Follows.ite1 ?_ ?_
  · refine Follows.pair ?_
    refine State.refreshHold_follows (hp.sub rfl) ?_
    refine State.plainWrite_follows (hp.sub rfl) ?_
    with_reducible assumption
  · refine Follows.ite1 ?_ ?_
    · refine State.keyCommand_follows (hp.sub rfl) ?_
      with_reducible assumption
    · refine Follows.ite1 ?_ ?_
      · refine Follows.pair ?_
        refine Follows.ite ?_ ?_
        · refine State.rngRestart_follows (hp.sub rfl) ?_
          with_reducible assumption
        · with_reducible assumption
      · refine State.plainOk_follows (hp.sub rfl) ?_
        with_reducible assumption

def State.writePhy_foot : Foot := ⟨0x1fffffff, 0x0⟩

theorem State.writePhy_follows {p s0} {a0} {a1} {a2} (hp : Foot.le State.writePhy_foot p) (h0 : Follows p s0 a0) :
    Follows p s0 (State.writePhy (a0) (a1) (a2)).1 := by
  unfold State.writePhy
  refine Follows.ite1 ?_ ?_
  · refine Follows.pair ?_
    refine State.phyCfgWritten_follows (hp.sub rfl) ?_
    refine State.plainWrite_follows (hp.sub rfl) ?_
    with_reducible assumption
  · refine Follows.ite1 ?_ ?_
    · refine Follows.pair ?_
      refine State.softBeams_follows (hp.sub rfl) ?_
      with_reducible assumption
    · refine State.plainOk_follows (hp.sub rfl) ?_
      with_reducible assumption

def State.writeXng_foot : Foot := ⟨0x1fffffff, 0x0⟩

theorem State.writeXng_follows {p s0} {a0} {a1} {a2} {a3} (hp : Foot.le State.writeXng_foot p) (h0 : Follows p s0 a0) :
    Follows p s0 (State.writeXng (a0) (a1) (a2) (a3)).1 := by
  unfold State.writeXng
  refine Follows.ite1 ?_ ?_
  · extract_lets y0 y1
    clear_value y0
    have k2 : Follows p s0 y1 := by
      subst y1
      refine State.set_follows 198 hp ?_
      refine State.set_follows 197 hp ?_
      with_reducible assumption
    clear_value y1
    refine Follows.pair ?_
    refine Follows.ite ?_ ?_
    · with_reducible assumption
    · refine State.xngEnable_follows (hp.sub rfl) ?_
      with_reducible assumption
  · refine Follows.ite1 ?_ ?_
    · refine State.xngCommitWrite_follows (hp.sub rfl) ?_
      with_reducible assumption
    · refine Follows.ite1 ?_ ?_
      · extract_lets y3
        have k4 : Follows p s0 y3 := by
          subst y3
          refine Follows.ite ?_ ?_
          · refine State.set_follows 209 hp ?_
            with_reducible assumption
          · with_reducible assumption
        clear_value y3
        refine State.pushPtr_follows (hp.sub rfl) ?_
        with_reducible assumption
      · refine State.plainOk_follows (hp.sub rfl) ?_
        with_reducible assumption

def State.writeMac_foot : Foot := ⟨0x1fffffff, 0x0⟩

theorem State.writeMac_follows {p s0} {a0} {a1} {a2} (hp : Foot.le State.writeMac_foot p) (h0 : Follows p s0 a0) :
    Follows p s0 (State.writeMac (a0) (a1) (a2)).1 := by
  unfold State.writeMac
  refine Follows.ite1 ?_ ?_
  · refine State.nbrCommitWrite_follows (hp.sub rfl) ?_
    with_reducible assumption
  · refine Follows.ite1 ?_ ?_
    · refine State.plainUnless_follows (hp.sub rfl) ?_
      with_reducible assumption
    · refine Follows.ite1 ?_ ?_
      · refine Follows.pair ?_
        refine Follows.ite ?_ ?_
        · refine State.set_follows 230 hp ?_
          with_reducible assumption
        · with_reducible assumption
      · refine State.plainOk_follows (hp.sub rfl) ?_
        with_reducible assumption

def State.capCtrlWrite_foot : Foot := ⟨0x1fffffff, 0x0⟩

theorem State.capCtrlWrite_follows {p s0} {a0} {a1} {a2} (hp : Foot.le State.capCtrlWrite_foot p) (h0 : Follows p s0 a0) :
    Follows p s0 (State.capCtrlWrite (a0) (a1) (a2)).1 := by
  unfold State.capCtrlWrite
  refine Follows.ite1 ?_ ?_
  · with_reducible assumption
  · extract_lets y0
    have k1 : Follows p s0 y0 := by
      subst y0
      refine State.set_follows 269 hp ?_
      refine State.plainWrite_follows (hp.sub rfl) ?_
      with_reducible assumption
    clear_value y0
    refine Follows.pair ?_
    refine Follows.ite ?_ ?_
    · refine State.captureArm_follows (hp.sub rfl) ?_
      with_reducible assumption
    · with_reducible assumption

def State.writeBf_foot : Foot := ⟨0x1fffffff, 0x0⟩

theorem State.writeBf_follows {p s0} {a0} {a1} {a2} (hp : Foot.le State.writeBf_foot p) (h0 : Follows p s0 a0) :
    Follows p s0 (State.writeBf (a0) (a1) (a2)).1 := by
  unfold State.writeBf
  refine Follows.ite1 ?_ ?_
  · refine State.bfCommitWrite_follows (hp.sub rfl) ?_
    with_reducible assumption
  · refine Follows.ite1 ?_ ?_
    · refine Follows.ite1 ?_ ?_
      · refine State.preload_follows (hp.sub rfl) ?_
        with_reducible assumption
      · with_reducible assumption
    · refine Follows.ite1 ?_ ?_
      · refine Follows.pair ?_
        refine State.swapRequest_follows (hp.sub rfl) ?_
        with_reducible assumption
      · refine Follows.ite1 ?_ ?_
        · refine State.capCtrlWrite_follows (hp.sub rfl) ?_
          with_reducible assumption
        · refine Follows.ite1 ?_ ?_
          · extract_lets y0
            have k1 : Follows p s0 y0 := by
              subst y0
              refine State.plainWrite_follows (hp.sub rfl) ?_
              with_reducible assumption
            clear_value y0
            refine Follows.pair ?_
            refine Follows.forBits ?_ ?_
            · intro x2 x3 x4
              refine State.tensionAsk_follows (hp.sub rfl) ?_
              with_reducible assumption
            · with_reducible assumption
          · refine Follows.ite1 ?_ ?_
            · refine State.writeRfChan_follows (hp.sub rfl) ?_
              with_reducible assumption
            · refine Follows.ite1 ?_ ?_
              · refine Follows.pair ?_
                refine State.dirTouched_follows (hp.sub rfl) ?_
                refine State.clrPoison_follows hp ?_
                refine State.plainWrite_follows (hp.sub rfl) ?_
                with_reducible assumption
              · refine State.plainOk_follows (hp.sub rfl) ?_
                with_reducible assumption

def State.writeLanding_foot : Foot := ⟨0x1fffffff, 0x0⟩

theorem State.writeLanding_follows {p s0} {a0} {a1} {a2} {a3} (hp : Foot.le State.writeLanding_foot p) (h0 : Follows p s0 a0) :
    Follows p s0 (State.writeLanding (a0) (a1) (a2) (a3)).1 := by
  unfold State.writeLanding
  extract_lets y0 y1 y2
  clear_value y0
  have k3 : Follows p s0 y1 := by
    subst y1
    refine State.plainWrite_follows (hp.sub rfl) ?_
    with_reducible assumption
  clear_value y1
  clear_value y2
  split
  · refine Follows.ite1 ?_ ?_
    · with_reducible assumption
    · refine Follows.pair ?_
      refine Follows.ite ?_ ?_
      · refine Follows.update hp ?_ rfl rfl
        with_reducible assumption
      · with_reducible assumption
  · refine Follows.ite1 ?_ ?_
    · with_reducible assumption
    · refine State.plainOk_follows (hp.sub rfl) ?_
      with_reducible assumption
  · refine Follows.ite1 ?_ ?_
    · refine State.plainOk_follows (hp.sub rfl) ?_
      with_reducible assumption
    · with_reducible assumption
  · refine State.plainUnless_follows (hp.sub rfl) ?_
    with_reducible assumption
  · refine State.plainUnless_follows (hp.sub rfl) ?_
    with_reducible assumption
  · refine State.plainOk_follows (hp.sub rfl) ?_
    with_reducible assumption

def State.writeLnk_foot : Foot := ⟨0x1fffffff, 0x0⟩

theorem State.writeLnk_follows {p s0} {a0} {a1} {a2} (hp : Foot.le State.writeLnk_foot p) (h0 : Follows p s0 a0) :
    Follows p s0 (State.writeLnk (a0) (a1) (a2)).1 := by
  unfold State.writeLnk
  refine Follows.ite1 ?_ ?_
  · refine Follows.pair ?_
    refine State.refreshSerdes_follows (hp.sub rfl) ?_
    refine State.plainWrite_follows (hp.sub rfl) ?_
    with_reducible assumption
  · refine Follows.ite1 ?_ ?_
    · refine State.writeLanding_follows (hp.sub rfl) ?_
      with_reducible assumption
    · refine State.plainOk_follows (hp.sub rfl) ?_
      with_reducible assumption

def State.dropPeer_foot : Foot := ⟨0x200020, 0x800000000000000000000000000000000000000000000000000000000000000000000000000000000000000000000000000000004000000⟩

theorem State.dropPeer_follows {p s0} {a0} {a1} (hp : Foot.le State.dropPeer_foot p) (h0 : Follows p s0 a0) :
    Follows p s0 (State.dropPeer (a0) (a1)) := by
  unfold State.dropPeer
  refine Follows.ite ?_ ?_
  · with_reducible assumption
  · refine State.refreshSerdes_follows (hp.sub rfl) ?_
    refine State.setPeer_follows (hp.sub rfl) ?_
    refine State.updLink_follows (hp.sub rfl) ?_
    with_reducible assumption

def State.pntCtrlWrite_foot : Foot := ⟨0x1fffffff, 0x0⟩

theorem State.pntCtrlWrite_follows {p s0} {a0} {a1} {a2} (hp : Foot.le State.pntCtrlWrite_foot p) (h0 : Follows p s0 a0) :
    Follows p s0 (State.pntCtrlWrite (a0) (a1) (a2)) := by
  unfold State.pntCtrlWrite
  extract_lets y0 y1
  have k2 : Follows p s0 y0 := by
    subst y0
    refine State.plainWrite_follows (hp.sub rfl) ?_
    with_reducible assumption
  clear_value y0
  have k3 : Follows p s0 y1 := by
    subst y1
    refine Follows.forAll ?_ ?_
    · intro x4 x5 x6
      refine Follows.ite ?_ ?_
      · refine Follows.ite ?_ ?_
        · refine State.setPeer_follows (hp.sub rfl) ?_
          with_reducible assumption
        · with_reducible assumption
      · refine State.dropPeer_follows (hp.sub rfl) ?_
        with_reducible assumption
    · with_reducible assumption
  clear_value y1
  refine Follows.ite ?_ ?_
  · refine Follows.forAll ?_ ?_
    · intro x7 x8 x9
      refine Follows.ite ?_ ?_
      · refine State.linkTrain_follows (hp.sub rfl) ?_
        with_reducible assumption
      · with_reducible assumption
    · with_reducible assumption
  · refine State.set_follows 453 hp ?_
    refine State.set_follows 453 hp ?_
    refine State.set_follows 442 hp ?_
    with_reducible assumption

def State.writePnt_foot : Foot := ⟨0x1fffffff, 0x0⟩

theorem State.writePnt_follows {p s0} {a0} {a1} {a2} (hp : Foot.le State.writePnt_foot p) (h0 : Follows p s0 a0) :
    Follows p s0 (State.writePnt (a0) (a1) (a2)).1 := by
  unfold State.writePnt
  refine Follows.ite1 ?_ ?_
  · refine Follows.pair ?_
    refine State.pntCtrlWrite_follows (hp.sub rfl) ?_
    with_reducible assumption
  · refine State.plainOk_follows (hp.sub rfl) ?_
    with_reducible assumption

def State.writeFlc_foot : Foot := ⟨0x1fffffff, 0x0⟩

theorem State.writeFlc_follows {p s0} {a0} {a1} {a2} (hp : Foot.le State.writeFlc_foot p) (h0 : Follows p s0 a0) :
    Follows p s0 (State.writeFlc (a0) (a1) (a2)).1 := by
  unfold State.writeFlc
  refine Follows.ite1 ?_ ?_
  · refine State.spareWrite_follows (hp.sub rfl) ?_
    with_reducible assumption
  · refine State.plainOk_follows (hp.sub rfl) ?_
    with_reducible assumption

def State.writeErr_foot : Foot := ⟨0x1fffffff, 0x0⟩

theorem State.writeErr_follows {p s0} {a0} {a1} {a2} (hp : Foot.le State.writeErr_foot p) (h0 : Follows p s0 a0) :
    Follows p s0 (State.writeErr (a0) (a1) (a2)).1 := by
  unfold State.writeErr
  refine Follows.ite1 ?_ ?_
  · refine Follows.pair ?_
    refine State.unitWrite_follows (hp.sub rfl) ?_
    with_reducible assumption
  · refine State.plainOk_follows (hp.sub rfl) ?_
    with_reducible assumption

def State.writePmc_foot : Foot := ⟨0x1fffffff, 0x0⟩

theorem State.writePmc_follows {p s0} {a0} {a1} {a2} (hp : Foot.le State.writePmc_foot p) (h0 : Follows p s0 a0) :
    Follows p s0 (State.writePmc (a0) (a1) (a2)).1 := by
  unfold State.writePmc
  refine Follows.ite1 ?_ ?_
  · refine Follows.pair ?_
    refine State.pmcCtrlWrite_follows (hp.sub rfl) ?_
    with_reducible assumption
  · refine Follows.ite1 ?_ ?_
    · refine Follows.pair ?_
      refine State.pmcCntWrite_follows (hp.sub rfl) ?_
      with_reducible assumption
    · refine State.plainOk_follows (hp.sub rfl) ?_
      with_reducible assumption

def State.writeAon_foot : Foot := ⟨0x1fffffff, 0x0⟩

theorem State.writeAon_follows {p s0} {a0} {a1} {a2} (hp : Foot.le State.writeAon_foot p) (h0 : Follows p s0 a0) :
    Follows p s0 (State.writeAon (a0) (a1) (a2)).1 := by
  unfold State.writeAon
  refine Follows.ite1 ?_ ?_
  · refine Follows.pair ?_
    refine State.wkRefresh_follows (hp.sub rfl) ?_
    refine State.plainWrite_follows (hp.sub rfl) ?_
    with_reducible assumption
  · refine Follows.ite1 ?_ ?_
    · refine Follows.pair ?_
      refine Follows.ite ?_ ?_
      · with_reducible assumption
      · refine State.dutyWrite_follows (hp.sub rfl) ?_
        with_reducible assumption
    · refine Follows.ite1 ?_ ?_
      · refine State.bellRequest_follows (hp.sub rfl) ?_
        with_reducible assumption
      · refine Follows.ite1 ?_ ?_
        · extract_lets y0 y1
          have k2 : Follows p s0 y0 := by
            subst y0
            refine State.plainWrite_follows (hp.sub rfl) ?_
            with_reducible assumption
          clear_value y0
          clear_value y1
          refine Follows.pair ?_
          refine Follows.update hp ?_ rfl rfl
          with_reducible assumption
        · refine Follows.ite1 ?_ ?_
          · refine Follows.pair ?_
            refine State.blackBoxWrite_follows (hp.sub rfl) ?_
            with_reducible assumption
          · refine Follows.ite1 ?_ ?_
            · refine Follows.pair ?_
              refine State.bellKeyWrite_follows (hp.sub rfl) ?_
              with_reducible assumption
            · refine Follows.ite1 ?_ ?_
              · refine State.otpStart_follows (hp.sub rfl) ?_
                with_reducible assumption
              · refine State.plainOk_follows (hp.sub rfl) ?_
                with_reducible assumption

def State.writeElem_foot : Foot := ⟨0x1fffffff, 0x0⟩

theorem State.writeElem_follows {p s0} {a0} {a1} {a2} {a3} {a4} (hp : Foot.le State.writeElem_foot p) (h0 : Follows p s0 a0) :
    Follows p s0 (State.writeElem (a0) (a1) (a2) (a3) (a4)).1 := by
  unfold State.writeElem
  refine Follows.ite1 ?_ ?_
  · with_reducible assumption
  · refine Follows.ite1 ?_ ?_
    · refine Follows.pair ?_
      refine State.maskIfCaused_follows (hp.sub rfl) ?_
      refine State.plainWrite_follows (hp.sub rfl) ?_
      with_reducible assumption
    · refine Follows.ite1 ?_ ?_
      · extract_lets y0
        have k1 : Follows p s0 y0 := by
          subst y0
          refine State.plainWrite_follows (hp.sub rfl) ?_
          with_reducible assumption
        clear_value y0
        refine Follows.pair ?_
        refine State.set_follows 322 hp ?_
        with_reducible assumption
      · refine Follows.ite1 ?_ ?_
        · refine Follows.pair ?_
          refine State.calWritten_follows (hp.sub rfl) ?_
          refine State.plainWrite_follows (hp.sub rfl) ?_
          with_reducible assumption
        · refine Follows.ite1 ?_ ?_
          · refine Follows.pair ?_
            refine State.fineWritten_follows (hp.sub rfl) ?_
            refine State.plainWrite_follows (hp.sub rfl) ?_
            with_reducible assumption
          · refine State.plainOk_follows (hp.sub rfl) ?_
            with_reducible assumption

def State.writeTileReg_foot : Foot := ⟨0x1fffffff, 0x0⟩

theorem State.writeTileReg_follows {p s0} {a0} {a1} {a2} (hp : Foot.le State.writeTileReg_foot p) (h0 : Follows p s0 a0) :
    Follows p s0 (State.writeTileReg (a0) (a1) (a2)).1 := by
  unfold State.writeTileReg
  extract_lets y0
  clear_value y0
  split
  · refine State.writeElem_follows (hp.sub rfl) ?_
    with_reducible assumption
  · refine State.writeCell_follows (hp.sub rfl) ?_
    with_reducible assumption
  · refine State.writeTimer_follows (hp.sub rfl) ?_
    with_reducible assumption
  · refine Follows.ite1 ?_ ?_
    · refine State.tileCommitWrite_follows (hp.sub rfl) ?_
      with_reducible assumption
    · refine Follows.ite1 ?_ ?_
      · refine Follows.pair ?_
        refine State.yrnFire_follows (hp.sub rfl) ?_
        with_reducible assumption
      · refine State.plainOk_follows (hp.sub rfl) ?_
        with_reducible assumption

def State.regWrite_foot : Foot := ⟨0x1fffffff, 0x0⟩

theorem State.regWrite_follows {p s0} {a0} {a1} {a2} {a3} {a4} (hp : Foot.le State.regWrite_foot p) (h0 : Follows p s0 a0) :
    Follows p s0 (State.regWrite (a0) (a1) (a2) (a3) (a4)).1 := by
  unfold State.regWrite
  split
  · refine State.writeHub_follows (hp.sub rfl) ?_
    with_reducible assumption
  · refine State.writePwr_follows (hp.sub rfl) ?_
    with_reducible assumption
  · refine State.writeIrq_follows (hp.sub rfl) ?_
    with_reducible assumption
  · refine State.writeYrn_follows (hp.sub rfl) ?_
    with_reducible assumption
  · refine State.writeTmr_follows (hp.sub rfl) ?_
    with_reducible assumption
  · refine State.writeCrc_follows (hp.sub rfl) ?_
    with_reducible assumption
  · refine State.writeSec_follows (hp.sub rfl) ?_
    with_reducible assumption
  · refine State.writePhy_follows (hp.sub rfl) ?_
    with_reducible assumption
  · refine State.writeXng_follows (hp.sub rfl) ?_
    with_reducible assumption
  · refine State.writeMac_follows (hp.sub rfl) ?_
    with_reducible assumption
  · refine State.writeBf_follows (hp.sub rfl) ?_
    with_reducible assumption
  · refine State.writeLnk_follows (hp.sub rfl) ?_
    with_reducible assumption
  · refine State.writePnt_follows (hp.sub rfl) ?_
    with_reducible assumption
  · refine State.writeFlc_follows (hp.sub rfl) ?_
    with_reducible assumption
  · refine State.writeErr_follows (hp.sub rfl) ?_
    with_reducible assumption
  · refine State.writePmc_follows (hp.sub rfl) ?_
    with_reducible assumption
  · refine State.writeAon_follows (hp.sub rfl) ?_
    with_reducible assumption
  · refine Follows.ite1 ?_ ?_
    · refine State.writeTileReg_follows (hp.sub rfl) ?_
      with_reducible assumption
    · with_reducible assumption

/-! ### Machine/Device.lean -/

def State.keelDeny_foot : Foot := ⟨0x1fffffff, 0x0⟩

theorem State.keelDeny_follows {p s0} {a0} {a1} {a2} {a3} {a4} (hp : Foot.le State.keelDeny_foot p) (h0 : Follows p s0 a0) :
    Follows p s0 (State.keelDeny (a0) (a1) (a2) (a3) (a4)) := by
  unfold State.keelDeny
  extract_lets y0
  have k1 : Follows p s0 y0 := by
    subst y0
    refine State.set_follows 159 hp ?_
    refine State.bump_follows 158 hp ?_
    with_reducible assumption
  clear_value y0
  refine State.fire_follows (hp.sub rfl) ?_
  refine State.logErr_follows (hp.sub rfl) ?_
  with_reducible assumption

def State.decodeErr_foot : Foot := ⟨0x1fffffff, 0x0⟩

theorem State.decodeErr_follows {p s0} {a0} {a1} {a2} {a3} {a4} {a5} (hp : Foot.le State.decodeErr_foot p) (h0 : Follows p s0 a0) :
    Follows p s0 (State.decodeErr (a0) (a1) (a2) (a3) (a4) (a5)) := by
  unfold State.decodeErr
  refine State.logErr_follows (hp.sub rfl) ?_
  with_reducible assumption

def State.memSeen_foot : Foot := ⟨0x1fffffff, 0x0⟩

theorem State.memSeen_follows {p s0} {a0} {a1} {a2} {a3} {a4} (hp : Foot.le State.memSeen_foot p) (h0 : Follows p s0 a0) :
    Follows p s0 (State.memSeen (a0) (a1) (a2) (a3) (a4)).1 := by
  unfold State.memSeen
  extract_lets y0 y1 y2
  clear_value y0
  have k3 : Follows p s0 y1 := by
    subst y1
    refine State.hitPoison_follows (hp.sub rfl) ?_
    with_reducible assumption
  clear_value y1
  clear_value y2
  refine Follows.foldl1 ?_ ?_
  · intro x4 x5 x6
    split
    · with_reducible assumption
    · refine Follows.pair ?_
      refine State.corrected_follows (hp.sub rfl) ?_
      with_reducible assumption
    · refine Follows.pair ?_
      refine State.uncorrectable_follows (hp.sub rfl) ?_
      with_reducible assumption
  · with_reducible assumption

def State.memRead_foot : Foot := ⟨0x1fffffff, 0x0⟩

theorem State.memRead_follows {p s0} {a0} {a1} {a2} {a3} {a4} (hp : Foot.le State.memRead_foot p) (h0 : Follows p s0 a0) :
    Follows p s0 (State.memRead (a0) (a1) (a2) (a3) (a4)).1 := by
  unfold State.memRead
  extract_lets y0 y1
  have k2 : Follows p s0 y0.1 := by
    subst y0
    refine State.memSeen_follows (hp.sub rfl) ?_
    with_reducible assumption
  clear_value y0
  have k3 : Follows p s0 y1 := by
    subst y1
    with_reducible assumption
  clear_value y1
  refine Follows.ite1 ?_ ?_
  · refine Follows.pair ?_
    refine Follows.update hp ?_ rfl rfl
    with_reducible assumption
  · with_reducible assumption

def State.putByte_foot : Foot := ⟨0x1fffffff, 0x0⟩

theorem State.putByte_follows {p s0} {a0} {a1} {a2} (hp : Foot.le State.putByte_foot p) (h0 : Follows p s0 a0) :
    Follows p s0 (State.putByte (a0) (a1) (a2)) := by
  unfold State.putByte
  refine Follows.ite ?_ ?_
  · extract_lets y0 y1
    clear_value y0
    clear_value y1
    refine State.plainWrite_follows (hp.sub rfl) ?_
    with_reducible assumption
  · refine State.setByte_follows hp ?_
    with_reducible assumption

def State.touchFragments_foot : Foot := ⟨0x900, 0x600100000000000000000000000000000000000000000000000000000000000000000000000000000000000000⟩

theorem State.touchFragments_follows {p s0} {a0} {a1} {a2} (hp : Foot.le State.touchFragments_foot p) (h0 : Follows p s0 a0) :
    Follows p s0 (State.touchFragments (a0) (a1) (a2)) := by
  unfold State.touchFragments
  split
  · refine Follows.foldl ?_ ?_
    · intro x8 x9 x10
      refine State.fragTouched_follows (hp.sub rfl) ?_
      with_reducible assumption
    · with_reducible assumption
  · with_reducible assumption

def State.memWrite_foot : Foot := ⟨0x1fffffff, 0x0⟩

theorem State.memWrite_follows {p s0} {a0} {a1} {a2} (hp : Foot.le State.memWrite_foot p) (h0 : Follows p s0 a0) :
    Follows p s0 (State.memWrite (a0) (a1) (a2)).1 := by
  unfold State.memWrite
  extract_lets y0 y1 y2 y3 y4
  clear_value y0
  clear_value y1
  have k5 : Follows p s0 y2 := by
    subst y2
    refine Follows.update hp ?_ rfl rfl
    with_reducible assumption
  clear_value y2
  have k6 : Follows p s0 y3 := by
    subst y3
    refine Follows.foldl ?_ ?_
    · intro x7 x8 x9
      refine Follows.ite ?_ ?_
      · with_reducible assumption
      · refine State.putByte_follows (hp.sub rfl) ?_
        with_reducible assumption
    · with_reducible assumption
  clear_value y3
  have k10 : Follows p s0 y4 := by
    subst y4
    refine State.touchFragments_follows (hp.sub rfl) ?_
    with_reducible assumption
  clear_value y4
  with_reducible assumption

def State.regRead_foot : Foot := ⟨0x1fffffff, 0x0⟩

theorem State.regRead_follows {p s0} {a0} {a1} {a2} {a3} (hp : Foot.le State.regRead_foot p) (h0 : Follows p s0 a0) :
    Follows p s0 (State.regRead (a0) (a1) (a2) (a3)).1 := by
  unfold State.regRead
  refine Follows.ite1 ?_ ?_
  · extract_lets y0
    have k1 : Follows p s0 y0.1 := by
      subst y0
      refine State.rngRead_follows (hp.sub rfl) ?_
      with_reducible assumption
    clear_value y0
    with_reducible assumption
  · split
    · refine Follows.ite1 ?_ ?_
      · extract_lets y6
        have k7 : Follows p s0 y6.1 := by
          subst y6
          refine State.memRead_follows (hp.sub rfl) ?_
          with_reducible assumption
        clear_value y6
        refine Follows.pair ?_
        refine State.lmStep_follows (hp.sub rfl) ?_
        with_reducible assumption
      · refine Follows.pair ?_
        refine State.updEng_follows (hp.sub rfl) ?_
        with_reducible assumption
    · refine Follows.ite1 ?_ ?_
      · extract_lets y10 y11
        have k12 : Follows p s0 y10.1 := by
          subst y10
          refine State.memSeen_follows (hp.sub rfl) ?_
          with_reducible assumption
        clear_value y10
        have k13 : Follows p s0 y11 := by
          subst y11
          with_reducible assumption
        clear_value y11
        refine Follows.ite1 ?_ ?_
        · refine Follows.pair ?_
          refine Follows.update hp ?_ rfl rfl
          with_reducible assumption
        · with_reducible assumption
      · refine Follows.pair ?_
        refine State.readMarks_follows (hp.sub rfl) ?_
        refine State.readClears_follows (hp.sub rfl) ?_
        with_reducible assumption

def State.regPut_foot : Foot := ⟨0x1fffffff, 0x0⟩

theorem State.regPut_follows {p s0} {a0} {a1} {a2} {a3} {a4} (hp : Foot.le State.regPut_foot p) (h0 : Follows p s0 a0) :
    Follows p s0 (State.regPut (a0) (a1) (a2) (a3) (a4)).1 := by
  unfold State.regPut
  refine Follows.ite1 ?_ ?_
  · refine State.resetCmd_follows (hp.sub rfl) ?_
    with_reducible assumption
  · split
    · refine Follows.ite1 ?_ ?_
      · extract_lets y4
        have k5 : Follows p s0 y4.1 := by
          subst y4
          refine State.memWrite_follows (hp.sub rfl) ?_
          with_reducible assumption
        clear_value y4
        refine Follows.pair ?_
        refine State.lmStep_follows (hp.sub rfl) ?_
        with_reducible assumption
      · extract_lets y6
        have k7 : Follows p s0 y6.1 := by
          subst y6
          refine State.ctlWrite_follows (hp.sub rfl) ?_
          with_reducible assumption
        clear_value y6
        with_reducible assumption
    · extract_lets y10
      have k11 : Follows p s0 y10.1 := by
        subst y10
        refine State.regWrite_follows (hp.sub rfl) ?_
        with_reducible assumption
      clear_value y10
      with_reducible assumption

def State.refuseIf_foot : Foot := ⟨0x1fffffff, 0x0⟩

theorem State.refuseIf_follows {p s0} {a0} {a1} {a2} {a3} {a4} (hp : Foot.le State.refuseIf_foot p) (h0 : Follows p s0 a0) :
    Follows p s0 (State.refuseIf (a0) (a1) (a2) (a3) (a4)) := by
  unfold State.refuseIf
  refine Follows.ite ?_ ?_
  · refine State.keelDeny_follows (hp.sub rfl) ?_
    with_reducible assumption
  · with_reducible assumption

def State.putMem_foot : Foot := ⟨0x1fffffff, 0x0⟩

theorem State.putMem_follows {p s0} {a0} {a1} {a2} {a3} {a4} {a5} (hp : Foot.le State.putMem_foot p) (h0 : Follows p s0 a0) :
    Follows p s0 (State.putMem (a0) (a1) (a2) (a3) (a4) (a5)).1 := by
  unfold State.putMem
  refine Follows.ite1 ?_ ?_
  · extract_lets y0
    have k1 : Follows p s0 y0.1 := by
      subst y0
      refine State.flashWrite_follows (hp.sub rfl) ?_
      with_reducible assumption
    clear_value y0
    split
    · with_reducible assumption
    · refine Follows.pair ?_
      refine State.keelDeny_follows (hp.sub rfl) ?_
      with_reducible assumption
  · refine Follows.ite1 ?_ ?_
    · refine Follows.pair ?_
      refine State.decodeErr_follows (hp.sub rfl) ?_
      with_reducible assumption
    · refine Follows.ite1 ?_ ?_
      · with_reducible assumption
      · refine State.memWrite_follows (hp.sub rfl) ?_
        with_reducible assumption

def State.perform_foot : Foot := ⟨0x1fffffff, 0x0⟩

theorem State.perform_follows {p s0} {a0} {a1} {a2} {a3} {a4} {a5} {a6} {a7} {a8} {a9} (hp : Foot.le State.perform_foot p) (h0 : Follows p s0 a0) :
    Follows p s0 (State.perform (a0) (a1) (a2) (a3) (a4) (a5) (a6) (a7) (a8) (a9)).1 := by
  unfold State.perform
  refine Follows.ite1 ?_ ?_
  · with_reducible assumption
  · refine Follows.ite1 ?_ ?_
    · refine Follows.ite1 ?_ ?_
      · extract_lets y0
        have k1 : Follows p s0 y0.1 := by
          subst y0
          refine State.regPut_follows (hp.sub rfl) ?_
          with_reducible assumption
        clear_value y0
        refine Follows.pair ?_
        refine State.refuseIf_follows (hp.sub rfl) ?_
        with_reducible assumption
      · refine State.regRead_follows (hp.sub rfl) ?_
        with_reducible assumption
    · refine Follows.ite1 ?_ ?_
      · extract_lets y2
        have k3 : Follows p s0 y2.1 := by
          subst y2
          refine State.putMem_follows (hp.sub rfl) ?_
          with_reducible assumption
        clear_value y2
        with_reducible assumption
      · refine Follows.ite1 ?_ ?_
        · extract_lets y4 y5
          have k6 : Follows p s0 y4.1 := by
            subst y4
            refine State.flashRead_follows (hp.sub rfl) ?_
            with_reducible assumption
          clear_value y4
          have k7 : Follows p s0 y5 := by
            subst y5
            with_reducible assumption
          clear_value y5
          refine Follows.ite1 ?_ ?_
          · with_reducible assumption
          · refine Follows.pair ?_
            refine Follows.update hp ?_ rfl rfl
            with_reducible assumption
        · refine State.memRead_follows (hp.sub rfl) ?_
          with_reducible assumption

def State.forward_foot : Foot := ⟨0x4200000, 0xe808800000000000000000000000000000000000000000000000000000000000000000000000000000000000000000000000000000000000001000000000000000000⟩

theorem State.forward_follows {p s0} {a0} {a1} {a2} {a3} {a4} {a5} {a6} (hp : Foot.le State.forward_foot p) (h0 : Follows p s0 a0) :
    Follows p s0 (State.forward (a0) (a1) (a2) (a3) (a4) (a5) (a6)).1 := by
  unfold State.forward
  refine Follows.ite1 ?_ ?_
  · with_reducible assumption
  · refine Follows.ite1 ?_ ?_
    · refine Follows.pair ?_
      refine State.linkSend_follows (hp.sub rfl) ?_
      with_reducible assumption
    · split
      · with_reducible assumption
      · refine Follows.pair ?_
        refine State.linkSend_follows (hp.sub rfl) ?_
        refine State.updLink_follows (hp.sub rfl) ?_
        with_reducible assumption

def State.waitFor_foot : Foot := ⟨0x200020, 0x4000000⟩

theorem State.waitFor_follows {p s0} {a0} {a1} (hp : Foot.le State.waitFor_foot p) (h0 : Follows p s0 a0) :
    Follows p s0 (State.waitFor (a0) (a1)) := by
  unfold State.waitFor
  refine State.vote_follows (hp.sub rfl) ?_
  refine Follows.update hp ?_ rfl rfl
  with_reducible assumption

def State.accessOwn_foot : Foot := ⟨0x1fffffff, 0x0⟩

theorem State.accessOwn_follows {p s0} {a0} {a1} {a2} {a3} {a4} {a5} {a6} {a7} {a8} (hp : Foot.le State.accessOwn_foot p) (h0 : Follows p s0 a0) :
    Follows p s0 (State.accessOwn (a0) (a1) (a2) (a3) (a4) (a5) (a6) (a7) (a8)).1 := by
  unfold State.accessOwn
  extract_lets y0 y1 y2 y3
  clear_value y0
  clear_value y1
  clear_value y2
  have k4 : Follows p s0 y3.1 := by
    subst y3
    refine State.perform_follows (hp.sub rfl) ?_
    with_reducible assumption
  clear_value y3
  refine Follows.ite1 ?_ ?_
  · refine Follows.pair ?_
    refine State.decodeErr_follows (hp.sub rfl) ?_
    with_reducible assumption
  · refine Follows.ite1 ?_ ?_
    · refine Follows.pair ?_
      refine State.keelDeny_follows (hp.sub rfl) ?_
      with_reducible assumption
    · refine Follows.ite1 ?_ ?_
      · refine Follows.pair ?_
        refine State.decodeErr_follows (hp.sub rfl) ?_
        with_reducible assumption
      · split
        · refine Follows.ite1 ?_ ?_
          · with_reducible assumption
          · refine Follows.ite1 ?_ ?_
            · refine Follows.pair ?_
              refine State.waitFor_follows (hp.sub rfl) ?_
              with_reducible assumption
            · refine Follows.pair ?_
              refine State.unpowered_follows (hp.sub rfl) ?_
              with_reducible assumption
        · with_reducible assumption

def State.accessMirror_foot : Foot := ⟨0x1fffffff, 0x0⟩

theorem State.accessMirror_follows {p s0} {a0} {a1} {a2} {a3} {a4} {a5} {a6} {a7} {a8} (hp : Foot.le State.accessMirror_foot p) (h0 : Follows p s0 a0) :
    Follows p s0 (State.accessMirror (a0) (a1) (a2) (a3) (a4) (a5) (a6) (a7) (a8)).1 := by
  unfold State.accessMirror
  extract_lets y0
  clear_value y0
  refine Follows.ite1 ?_ ?_
  · refine State.accessOwn_follows (hp.sub rfl) ?_
    with_reducible assumption
  · refine Follows.ite1 ?_ ?_
    · refine Follows.pair ?_
      refine State.decodeErr_follows (hp.sub rfl) ?_
      with_reducible assumption
    · split
      · refine Follows.pair ?_
        refine State.decodeErr_follows (hp.sub rfl) ?_
        with_reducible assumption
      · refine State.forward_follows (hp.sub rfl) ?_
        with_reducible assumption

def State.access_foot : Foot := ⟨0x1fffffff, 0x0⟩

theorem State.access_follows {p s0} {a0} {a1} {a2} {a3} {a4} {a5} {a6} {a7} (hp : Foot.le State.access_foot p) (h0 : Follows p s0 a0) :
    Follows p s0 (State.access (a0) (a1) (a2) (a3) (a4) (a5) (a6) (a7)).1 := by
  unfold State.access
  refine Follows.ite1 ?_ ?_
  · extract_lets y0 y1
    clear_value y0
    clear_value y1
    refine Follows.pair ?_
    refine Follows.update hp ?_ rfl rfl
    with_reducible assumption
  · split
    · refine State.accessMirror_follows (hp.sub rfl) ?_
      with_reducible assumption
    · refine State.accessOwn_follows (hp.sub rfl) ?_
      with_reducible assumption

def State.device_foot : Foot := ⟨0x1fffffff, 0x0⟩

theorem State.device_follows {p s0} {a0} {a1} {a2} {a3} {a4} {a5} {a6} {a7} (hp : Foot.le State.device_foot p) (h0 : Follows p s0 a0) :
    Follows p s0 (State.device (a0) (a1) (a2) (a3) (a4) (a5) (a6) (a7)) := by
  unfold State.device
  extract_lets y0
  clear_value y0
  split
  · rename_i z1 z2 z3 z4 z5
    have k6 : Follows p s0 z2 := by
      refine Follows.fst_eq ?_ z5
      refine State.access_follows (hp.sub rfl) ?_
      with_reducible assumption
    refine Follows.ite ?_ ?_
    · refine Follows.update hp ?_ rfl rfl
      with_reducible assumption
    · refine State.finish_follows (hp.sub rfl) ?_
      with_reducible assumption
  · rename_i z7 z8 z9
    have k10 : Follows p s0 z8 := by
      refine Follows.fst_eq ?_ z9
      refine State.access_follows (hp.sub rfl) ?_
      with_reducible assumption
    with_reducible assumption

def State.ctlServe_foot : Foot := ⟨0x1fffffff, 0x0⟩

theorem State.ctlServe_follows {p s0} {a0} (hp : Foot.le State.ctlServe_foot p) (h0 : Follows p s0 a0) :
    Follows p s0 (State.ctlServe (a0)) := by
  unfold State.ctlServe
  extract_lets y0 y1 y2 y3 y4 y5
  clear_value y0
  clear_value y1
  clear_value y2
  have k6 : Follows p s0 y3 := by
    subst y3
    refine Follows.update hp ?_ rfl rfl
    with_reducible assumption
  clear_value y3
  have k7 : Follows p s0 y4 := by
    subst y4
    refine Follows.foldl ?_ ?_
    · intro x8 x9 x10
      refine State.finish_follows (hp.sub rfl) ?_
      with_reducible assumption
    · with_reducible assumption
  clear_value y4
  have k11 : Follows p s0 y5 := by
    subst y5
    refine Follows.foldl ?_ ?_
    · intro x12 x13 x14
      refine State.device_follows (hp.sub rfl) ?_
      with_reducible assumption
    · with_reducible assumption
  clear_value y5
  refine State.settleFences_follows (hp.sub rfl) ?_
  refine Follows.forAll ?_ ?_
  · intro x15 x16 x17
    refine State.fireHeld_follows (hp.sub rfl) ?_
    with_reducible assumption
  · with_reducible assumption

def State.wotServe_foot : Foot := ⟨0x1fffffff, 0x0⟩

theorem State.wotServe_follows {p s0} {a0} {a1} (hp : Foot.le State.wotServe_foot p) (h0 : Follows p s0 a0) :
    Follows p s0 (State.wotServe (a0) (a1)) := by
  unfold State.wotServe
  extract_lets y0 y1 y2 y3
  clear_value y0
  clear_value y1
  have k4 : Follows p s0 y2 := by
    subst y2
    refine Follows.update hp ?_ rfl rfl
    with_reducible assumption
  clear_value y2
  have k5 : Follows p s0 y3 := by
    subst y3
    refine Follows.foldl ?_ ?_
    · intro x6 x7 x8
      refine Follows.ite ?_ ?_
      · extract_lets y9
        have k10 : Follows p s0 y9.1 := by
          subst y9
          refine State.perform_follows (hp.sub rfl) ?_
          with_reducible assumption
        clear_value y9
        refine State.finish_follows (hp.sub rfl) ?_
        with_reducible assumption
      · refine State.wotFail_follows (hp.sub rfl) ?_
        with_reducible assumption
    · with_reducible assumption
  clear_value y3
  refine Follows.ite ?_ ?_
  · with_reducible assumption
  · refine State.settleFences_follows (hp.sub rfl) ?_
    refine State.unvote_follows (hp.sub rfl) ?_
    with_reducible assumption

def State.regWriteBy_foot : Foot := ⟨0x1fffffff, 0x0⟩

theorem State.regWriteBy_follows {p s0} {a0} {a1} {a2} {a3} (hp : Foot.le State.regWriteBy_foot p) (h0 : Follows p s0 a0) :
    Follows p s0 (State.regWriteBy (a0) (a1) (a2) (a3)) := by
  unfold State.regWriteBy
  refine Follows.ite ?_ ?_
  · refine State.device_follows (hp.sub rfl) ?_
    with_reducible assumption
  · with_reducible assumption

def State.regReadBy_foot : Foot := ⟨0x1fffffff, 0x0⟩

theorem State.regReadBy_follows {p s0} {a0} {a1} {a2} (hp : Foot.le State.regReadBy_foot p) (h0 : Follows p s0 a0) :
    Follows p s0 (State.regReadBy (a0) (a1) (a2)) := by
  unfold State.regReadBy
  refine Follows.ite ?_ ?_
  · refine State.device_follows (hp.sub rfl) ?_
    with_reducible assumption
  · with_reducible assumption

/-! ### Machine/DevCmds.lean -/

def State.takePosted_foot : Foot := ⟨0x1fffffff, 0x0⟩

theorem State.takePosted_follows {p s0} {a0} {a1} {a2} {a3} {a4} (hp : Foot.le State.takePosted_foot p) (h0 : Follows p s0 a0) :
    Follows p s0 (State.takePosted (a0) (a1) (a2) (a3) (a4)) := by
  unfold State.takePosted
  extract_lets y0
  clear_value y0
  refine State.device_follows (hp.sub rfl) ?_
  refine State.updLink_follows (hp.sub rfl) ?_
  with_reducible assumption

def State.postBy_foot : Foot := ⟨0x1fffffff, 0x0⟩

theorem State.postBy_follows {p s0} {a0} {a1} {a2} {a3} (hp : Foot.le State.postBy_foot p) (h0 : Follows p s0 a0) :
    Follows p s0 (State.postBy (a0) (a1) (a2) (a3)) := by
  unfold State.postBy
  split
  · refine State.takePosted_follows (hp.sub rfl) ?_
    with_reducible assumption
  · refine State.takePosted_follows (hp.sub rfl) ?_
    with_reducible assumption
  · refine State.device_follows (hp.sub rfl) ?_
    with_reducible assumption
  · refine State.device_follows (hp.sub rfl) ?_
    with_reducible assumption

def State.writeBy_foot : Foot := ⟨0x1fffffff, 0x0⟩

theorem State.writeBy_follows {p s0} {a0} {a1} {a2} {a3} {a4} (hp : Foot.le State.writeBy_foot p) (h0 : Follows p s0 a0) :
    Follows p s0 (State.writeBy (a0) (a1) (a2) (a3) (a4)) := by
  unfold State.writeBy
  refine Follows.ite ?_ ?_
  · with_reducible assumption
  · refine Follows.ite ?_ ?_
    · refine State.postBy_follows (hp.sub rfl) ?_
      with_reducible assumption
    · refine State.device_follows (hp.sub rfl) ?_
      with_reducible assumption

def State.readBy_foot : Foot := ⟨0x1fffffff, 0x0⟩

theorem State.readBy_follows {p s0} {a0} {a1} {a2} {a3} {a4} (hp : Foot.le State.readBy_foot p) (h0 : Follows p s0 a0) :
    Follows p s0 (State.readBy (a0) (a1) (a2) (a3) (a4)) := by
  unfold State.readBy
  refine Follows.ite ?_ ?_
  · refine State.device_follows (hp.sub rfl) ?_
    with_reducible assumption
  · with_reducible assumption

def execRegisterWrite_foot : Foot := ⟨0x1fffffff, 0x0⟩

theorem execRegisterWrite_follows {p s0} {a0} {a1} {a2} {a3} {a4} {a5} (hp : Foot.le execRegisterWrite_foot p) (h5 : Follows p s0 a5) :
    FollowsOut p s0 (execRegisterWrite (a0) (a1) (a2) (a3) (a4) (a5)) := by
  unfold execRegisterWrite
  refine FollowsOut.next ?_
  refine State.writeBy_follows (hp.sub rfl) ?_
  with_reducible assumption

def execHubFuncModeWrite_foot : Foot := ⟨0x1fffffff, 0x0⟩

theorem execHubFuncModeWrite_follows {p s0} {a0} {a1} {a2} (hp : Foot.le execHubFuncModeWrite_foot p) (h2 : Follows p s0 a2) :
    FollowsOut p s0 (execHubFuncModeWrite (a0) (a1) (a2)) := by
  unfold execHubFuncModeWrite
  refine FollowsOut.next ?_
  refine State.regWriteBy_follows (hp.sub rfl) ?_
  with_reducible assumption

def execHubGcommitWrite_foot : Foot := ⟨0x1fffffff, 0x0⟩

theorem execHubGcommitWrite_follows {p s0} {a0} {a1} {a2} (hp : Foot.le execHubGcommitWrite_foot p) (h2 : Follows p s0 a2) :
    FollowsOut p s0 (execHubGcommitWrite (a0) (a1) (a2)) := by
  unfold execHubGcommitWrite
  refine FollowsOut.next ?_
  refine State.regWriteBy_follows (hp.sub rfl) ?_
  with_reducible assumption

def execRfChanWrite_foot : Foot := ⟨0x1fffffff, 0x0⟩

theorem execRfChanWrite_follows {p s0} {a0} {a1} {a2} (hp : Foot.le execRfChanWrite_foot p) (h2 : Follows p s0 a2) :
    FollowsOut p s0 (execRfChanWrite (a0) (a1) (a2)) := by
  unfold execRfChanWrite
  refine FollowsOut.next ?_
  refine State.regWriteBy_follows (hp.sub rfl) ?_
  with_reducible assumption

def execBfCommit_foot : Foot := ⟨0x1fffffff, 0x0⟩

theorem execBfCommit_follows {p s0} {a0} {a1} {a2} (hp : Foot.le execBfCommit_foot p) (h2 : Follows p s0 a2) :
    FollowsOut p s0 (execBfCommit (a0) (a1) (a2)) := by
  unfold execBfCommit
  refine FollowsOut.next ?_
  refine State.regWriteBy_follows (hp.sub rfl) ?_
  with_reducible assumption

def execPreload_foot : Foot := ⟨0x1fffffff, 0x0⟩

theorem execPreload_follows {p s0} {a0} {a1} {a2} (hp : Foot.le execPreload_foot p) (h2 : Follows p s0 a2) :
    FollowsOut p s0 (execPreload (a0) (a1) (a2)) := by
  unfold execPreload
  refine FollowsOut.next ?_
  refine State.regWriteBy_follows (hp.sub rfl) ?_
  with_reducible assumption

def execSwapRequest_foot : Foot := ⟨0x1fffffff, 0x0⟩

theorem execSwapRequest_follows {p s0} {a0} {a1} {a2} (hp : Foot.le execSwapRequest_foot p) (h2 : Follows p s0 a2) :
    FollowsOut p s0 (execSwapRequest (a0) (a1) (a2)) := by
  unfold execSwapRequest
  refine FollowsOut.next ?_
  refine State.regWriteBy_follows (hp.sub rfl) ?_
  with_reducible assumption

def execCaptureArm_foot : Foot := ⟨0x1fffffff, 0x0⟩

theorem execCaptureArm_follows {p s0} {a0} {a1} {a2} (hp : Foot.le execCaptureArm_foot p) (h2 : Follows p s0 a2) :
    FollowsOut p s0 (execCaptureArm (a0) (a1) (a2)) := by
  unfold execCaptureArm
  refine FollowsOut.next ?_
  refine State.regWriteBy_follows (hp.sub rfl) ?_
  with_reducible assumption

def execTensionGo_foot : Foot := ⟨0x1fffffff, 0x0⟩

theorem execTensionGo_follows {p s0} {a0} {a1} {a2} (hp : Foot.le execTensionGo_foot p) (h2 : Follows p s0 a2) :
    FollowsOut p s0 (execTensionGo (a0) (a1) (a2)) := by
  unfold execTensionGo
  refine FollowsOut.next ?_
  refine State.regWriteBy_follows (hp.sub rfl) ?_
  with_reducible assumption

def execPhySoftBeamsWrite_foot : Foot := ⟨0x1fffffff, 0x0⟩

theorem execPhySoftBeamsWrite_follows {p s0} {a0} {a1} {a2} (hp : Foot.le execPhySoftBeamsWrite_foot p) (h2 : Follows p s0 a2) :
    FollowsOut p s0 (execPhySoftBeamsWrite (a0) (a1) (a2)) := by
  unfold execPhySoftBeamsWrite
  refine FollowsOut.next ?_
  refine State.regWriteBy_follows (hp.sub rfl) ?_
  with_reducible assumption

def execXngCommit_foot : Foot := ⟨0x1fffffff, 0x0⟩

theorem execXngCommit_follows {p s0} {a0} {a1} {a2} (hp : Foot.le execXngCommit_foot p) (h2 : Follows p s0 a2) :
    FollowsOut p s0 (execXngCommit (a0) (a1) (a2)) := by
  unfold execXngCommit
  refine FollowsOut.next ?_
  refine State.regWriteBy_follows (hp.sub rfl) ?_
  with_reducible assumption

def execXngEnable_foot : Foot := ⟨0x1fffffff, 0x0⟩

theorem execXngEnable_follows {p s0} {a0} {a1} {a2} (hp : Foot.le execXngEnable_foot p) (h2 : Follows p s0 a2) :
    FollowsOut p s0 (execXngEnable (a0) (a1) (a2)) := by
  unfold execXngEnable
  refine FollowsOut.next ?_
  refine State.regWriteBy_follows (hp.sub rfl) ?_
  with_reducible assumption

def execXngPushPtrWrite_foot : Foot := ⟨0x1fffffff, 0x0⟩

theorem execXngPushPtrWrite_follows {p s0} {a0} {a1} {a2} (hp : Foot.le execXngPushPtrWrite_foot p) (h2 : Follows p s0 a2) :
    FollowsOut p s0 (execXngPushPtrWrite (a0) (a1) (a2)) := by
  unfold execXngPushPtrWrite
  refine FollowsOut.next ?_
  refine State.regWriteBy_follows (hp.sub rfl) ?_
  with_reducible assumption

def execMacNbrCommit_foot : Foot := ⟨0x1fffffff, 0x0⟩

theorem execMacNbrCommit_follows {p s0} {a0} {a1} {a2} (hp : Foot.le execMacNbrCommit_foot p) (h2 : Follows p s0 a2) :
    FollowsOut p s0 (execMacNbrCommit (a0) (a1) (a2)) := by
  unfold execMacNbrCommit
  refine FollowsOut.next ?_
  refine State.regWriteBy_follows (hp.sub rfl) ?_
  with_reducible assumption

def execKeelVoteWrite_foot : Foot := ⟨0x1fffffff, 0x0⟩

theorem execKeelVoteWrite_follows {p s0} {a0} {a1} {a2} (hp : Foot.le execKeelVoteWrite_foot p) (h2 : Follows p s0 a2) :
    FollowsOut p s0 (execKeelVoteWrite (a0) (a1) (a2)) := by
  unfold execKeelVoteWrite
  refine FollowsOut.next ?_
  refine State.regWriteBy_follows (hp.sub rfl) ?_
  with_reducible assumption

def execSecKeyLoad_foot : Foot := ⟨0x1fffffff, 0x0⟩

theorem execSecKeyLoad_follows {p s0} {a0} {a1} {a2} (hp : Foot.le execSecKeyLoad_foot p) (h2 : Follows p s0 a2) :
    FollowsOut p s0 (execSecKeyLoad (a0) (a1) (a2)) := by
  unfold execSecKeyLoad
  refine FollowsOut.next ?_
  refine State.regWriteBy_follows (hp.sub rfl) ?_
  with_reducible assumption

def execSecKeyErase_foot : Foot := ⟨0x1fffffff, 0x0⟩

theorem execSecKeyErase_follows {p s0} {a0} {a1} {a2} (hp : Foot.le execSecKeyErase_foot p) (h2 : Follows p s0 a2) :
    FollowsOut p s0 (execSecKeyErase (a0) (a1) (a2)) := by
  unfold execSecKeyErase
  refine FollowsOut.next ?_
  refine State.regWriteBy_follows (hp.sub rfl) ?_
  with_reducible assumption

def execSecKeyBadOp_foot : Foot := ⟨0x1fffffff, 0x0⟩

theorem execSecKeyBadOp_follows {p s0} {a0} {a1} {a2} (hp : Foot.le execSecKeyBadOp_foot p) (h2 : Follows p s0 a2) :
    FollowsOut p s0 (execSecKeyBadOp (a0) (a1) (a2)) := by
  unfold execSecKeyBadOp
  refine FollowsOut.next ?_
  refine State.regWriteBy_follows (hp.sub rfl) ?_
  with_reducible assumption

def execRngRestart_foot : Foot := ⟨0x1fffffff, 0x0⟩

theorem execRngRestart_follows {p s0} {a0} {a1} {a2} (hp : Foot.le execRngRestart_foot p) (h2 : Follows p s0 a2) :
    FollowsOut p s0 (execRngRestart (a0) (a1) (a2)) := by
  unfold execRngRestart
  refine FollowsOut.next ?_
  refine State.regWriteBy_follows (hp.sub rfl) ?_
  with_reducible assumption

def execOtpProgram_foot : Foot := ⟨0x1fffffff, 0x0⟩

theorem execOtpProgram_follows {p s0} {a0} {a1} {a2} (hp : Foot.le execOtpProgram_foot p) (h2 : Follows p s0 a2) :
    FollowsOut p s0 (execOtpProgram (a0) (a1) (a2)) := by
  unfold execOtpProgram
  refine FollowsOut.next ?_
  refine State.regWriteBy_follows (hp.sub rfl) ?_
  with_reducible assumption

def execIrqSet_foot : Foot := ⟨0x1fffffff, 0x0⟩

theorem execIrqSet_follows {p s0} {a0} {a1} {a2} (hp : Foot.le execIrqSet_foot p) (h2 : Follows p s0 a2) :
    FollowsOut p s0 (execIrqSet (a0) (a1) (a2)) := by
  unfold execIrqSet
  refine FollowsOut.next ?_
  refine State.regWriteBy_follows (hp.sub rfl) ?_
  with_reducible assumption

def execIrqEoi_foot : Foot := ⟨0x1fffffff, 0x0⟩

theorem execIrqEoi_follows {p s0} {a0} {a1} {a2} (hp : Foot.le execIrqEoi_foot p) (h2 : Follows p s0 a2) :
    FollowsOut p s0 (execIrqEoi (a0) (a1) (a2)) := by
  unfold execIrqEoi
  refine FollowsOut.next ?_
  refine State.regWriteBy_follows (hp.sub rfl) ?_
  with_reducible assumption

def execPwrForceOffWrite_foot : Foot := ⟨0x1fffffff, 0x0⟩

theorem execPwrForceOffWrite_follows {p s0} {a0} {a1} {a2} (hp : Foot.le execPwrForceOffWrite_foot p) (h2 : Follows p s0 a2) :
    FollowsOut p s0 (execPwrForceOffWrite (a0) (a1) (a2)) := by
  unfold execPwrForceOffWrite
  refine FollowsOut.next ?_
  refine State.regWriteBy_follows (hp.sub rfl) ?_
  with_reducible assumption

def execPwrClkGateWrite_foot : Foot := ⟨0x1fffffff, 0x0⟩

theorem execPwrClkGateWrite_follows {p s0} {a0} {a1} {a2} (hp : Foot.le execPwrClkGateWrite_foot p) (h2 : Follows p s0 a2) :
    FollowsOut p s0 (execPwrClkGateWrite (a0) (a1) (a2)) := by
  unfold execPwrClkGateWrite
  refine FollowsOut.next ?_
  refine State.regWriteBy_follows (hp.sub rfl) ?_
  with_reducible assumption

def execWkRxEnable_foot : Foot := ⟨0x1fffffff, 0x0⟩

theorem execWkRxEnable_follows {p s0} {a0} {a1} {a2} (hp : Foot.le execWkRxEnable_foot p) (h2 : Follows p s0 a2) :
    FollowsOut p s0 (execWkRxEnable (a0) (a1) (a2)) := by
  unfold execWkRxEnable
  refine FollowsOut.next ?_
  refine State.regWriteBy_follows (hp.sub rfl) ?_
  with_reducible assumption

def execBellTxRequest_foot : Foot := ⟨0x1fffffff, 0x0⟩

theorem execBellTxRequest_follows {p s0} {a0} {a1} {a2} (hp : Foot.le execBellTxRequest_foot p) (h2 : Follows p s0 a2) :
    FollowsOut p s0 (execBellTxRequest (a0) (a1) (a2)) := by
  unfold execBellTxRequest
  refine FollowsOut.next ?_
  refine State.regWriteBy_follows (hp.sub rfl) ?_
  with_reducible assumption

def execWdogKick_foot : Foot := ⟨0x1fffffff, 0x0⟩

theorem execWdogKick_follows {p s0} {a0} {a1} {a2} (hp : Foot.le execWdogKick_foot p) (h2 : Follows p s0 a2) :
    FollowsOut p s0 (execWdogKick (a0) (a1) (a2)) := by
  unfold execWdogKick
  refine FollowsOut.next ?_
  refine State.regWriteBy_follows (hp.sub rfl) ?_
  with_reducible assumption

def execBlackBoxClear_foot : Foot := ⟨0x1fffffff, 0x0⟩

theorem execBlackBoxClear_follows {p s0} {a0} {a1} {a2} (hp : Foot.le execBlackBoxClear_foot p) (h2 : Follows p s0 a2) :
    FollowsOut p s0 (execBlackBoxClear (a0) (a1) (a2)) := by
  unfold execBlackBoxClear
  refine FollowsOut.next ?_
  refine State.regWriteBy_follows (hp.sub rfl) ?_
  with_reducible assumption

def execPmcSnapshot_foot : Foot := ⟨0x1fffffff, 0x0⟩

theorem execPmcSnapshot_follows {p s0} {a0} {a1} {a2} (hp : Foot.le execPmcSnapshot_foot p) (h2 : Follows p s0 a2) :
    FollowsOut p s0 (execPmcSnapshot (a0) (a1) (a2)) := by
  unfold execPmcSnapshot
  refine FollowsOut.next ?_
  refine State.regWriteBy_follows (hp.sub rfl) ?_
  with_reducible assumption

def execMgmtWrite_foot : Foot := ⟨0x1fffffff, 0x0⟩

theorem execMgmtWrite_follows {p s0} {a0} {a1} {a2} (hp : Foot.le execMgmtWrite_foot p) (h2 : Follows p s0 a2) :
    FollowsOut p s0 (execMgmtWrite (a0) (a1) (a2)) := by
  unfold execMgmtWrite
  refine FollowsOut.next ?_
  refine State.regWriteBy_follows (hp.sub rfl) ?_
  with_reducible assumption

def execMgmtRead_foot : Foot := ⟨0x1fffffff, 0x0⟩

theorem execMgmtRead_follows {p s0} {a0} {a1} {a2} (hp : Foot.le execMgmtRead_foot p) (h2 : Follows p s0 a2) :
    FollowsOut p s0 (execMgmtRead (a0) (a1) (a2)) := by
  unfold execMgmtRead
  refine FollowsOut.next ?_
  refine State.regWriteBy_follows (hp.sub rfl) ?_
  with_reducible assumption

def execTileCommit_foot : Foot := ⟨0x1fffffff, 0x0⟩

theorem execTileCommit_follows {p s0} {a0} {a1} {a2} {a3} (hp : Foot.le execTileCommit_foot p) (h3 : Follows p s0 a3) :
    FollowsOut p s0 (execTileCommit (a0) (a1) (a2) (a3)) := by
  unfold execTileCommit
  refine FollowsOut.next ?_
  refine State.regWriteBy_follows (hp.sub rfl) ?_
  with_reducible assumption

def execFragmentWrite_foot : Foot := ⟨0x1fffffff, 0x0⟩

theorem execFragmentWrite_follows {p s0} {a0} {a1} {a2} {a3} {a4} {a5} (hp : Foot.le execFragmentWrite_foot p) (h5 : Follows p s0 a5) :
    FollowsOut p s0 (execFragmentWrite (a0) (a1) (a2) (a3) (a4) (a5)) := by
  unfold execFragmentWrite
  refine FollowsOut.next ?_
  refine State.regWriteBy_follows (hp.sub rfl) ?_
  with_reducible assumption

def execDirectoryWrite_foot : Foot := ⟨0x1fffffff, 0x0⟩

theorem execDirectoryWrite_follows {p s0} {a0} {a1} {a2} {a3} {a4} (hp : Foot.le execDirectoryWrite_foot p) (h4 : Follows p s0 a4) :
    FollowsOut p s0 (execDirectoryWrite (a0) (a1) (a2) (a3) (a4)) := by
  unfold execDirectoryWrite
  refine FollowsOut.next ?_
  refine State.regWriteBy_follows (hp.sub rfl) ?_
  with_reducible assumption

def execCrcCfgWrite_foot : Foot := ⟨0x1fffffff, 0x0⟩

theorem execCrcCfgWrite_follows {p s0} {a0} {a1} {a2} {a3} (hp : Foot.le execCrcCfgWrite_foot p) (h3 : Follows p s0 a3) :
    FollowsOut p s0 (execCrcCfgWrite (a0) (a1) (a2) (a3)) := by
  unfold execCrcCfgWrite
  refine FollowsOut.next ?_
  refine State.regWriteBy_follows (hp.sub rfl) ?_
  with_reducible assumption

def execCrcStateWrite_foot : Foot := ⟨0x1fffffff, 0x0⟩

theorem execCrcStateWrite_follows {p s0} {a0} {a1} {a2} {a3} (hp : Foot.le execCrcStateWrite_foot p) (h3 : Follows p s0 a3) :
    FollowsOut p s0 (execCrcStateWrite (a0) (a1) (a2) (a3)) := by
  unfold execCrcStateWrite
  refine FollowsOut.next ?_
  refine State.regWriteBy_follows (hp.sub rfl) ?_
  with_reducible assumption

def execCrcFeedB_foot : Foot := ⟨0x1fffffff, 0x0⟩

theorem execCrcFeedB_follows {p s0} {a0} {a1} {a2} {a3} (hp : Foot.le execCrcFeedB_foot p) (h3 : Follows p s0 a3) :
    FollowsOut p s0 (execCrcFeedB (a0) (a1) (a2) (a3)) := by
  unfold execCrcFeedB
  refine FollowsOut.next ?_
  refine State.regWriteBy_follows (hp.sub rfl) ?_
  with_reducible assumption

def execCrcFeedH_foot : Foot := ⟨0x1fffffff, 0x0⟩

theorem execCrcFeedH_follows {p s0} {a0} {a1} {a2} {a3} (hp : Foot.le execCrcFeedH_foot p) (h3 : Follows p s0 a3) :
    FollowsOut p s0 (execCrcFeedH (a0) (a1) (a2) (a3)) := by
  unfold execCrcFeedH
  refine FollowsOut.next ?_
  refine State.regWriteBy_follows (hp.sub rfl) ?_
  with_reducible assumption

def execCrcFeedW_foot : Foot := ⟨0x1fffffff, 0x0⟩

theorem execCrcFeedW_follows {p s0} {a0} {a1} {a2} {a3} (hp : Foot.le execCrcFeedW_foot p) (h3 : Follows p s0 a3) :
    FollowsOut p s0 (execCrcFeedW (a0) (a1) (a2) (a3)) := by
  unfold execCrcFeedW
  refine FollowsOut.next ?_
  refine State.regWriteBy_follows (hp.sub rfl) ?_
  with_reducible assumption

def execYrnFire_foot : Foot := ⟨0x1fffffff, 0x0⟩

theorem execYrnFire_follows {p s0} {a0} {a1} {a2} {a3} {a4} (hp : Foot.le execYrnFire_foot p) (h4 : Follows p s0 a4) :
    FollowsOut p s0 (execYrnFire (a0) (a1) (a2) (a3) (a4)) := by
  unfold execYrnFire
  refine FollowsOut.next ?_
  refine State.regWriteBy_follows (hp.sub rfl) ?_
  with_reducible assumption

def execYrnCellCtrlWrite_foot : Foot := ⟨0x1fffffff, 0x0⟩

theorem execYrnCellCtrlWrite_follows {p s0} {a0} {a1} {a2} {a3} (hp : Foot.le execYrnCellCtrlWrite_foot p) (h3 : Follows p s0 a3) :
    FollowsOut p s0 (execYrnCellCtrlWrite (a0) (a1) (a2) (a3)) := by
  unfold execYrnCellCtrlWrite
  refine FollowsOut.next ?_
  refine State.regWriteBy_follows (hp.sub rfl) ?_
  with_reducible assumption

def execTimerEnable_foot : Foot := ⟨0x1fffffff, 0x0⟩

theorem execTimerEnable_follows {p s0} {a0} {a1} {a2} {a3} (hp : Foot.le execTimerEnable_foot p) (h3 : Follows p s0 a3) :
    FollowsOut p s0 (execTimerEnable (a0) (a1) (a2) (a3)) := by
  unfold execTimerEnable
  refine FollowsOut.next ?_
  refine State.regWriteBy_follows (hp.sub rfl) ?_
  with_reducible assumption

def execTimerDisable_foot : Foot := ⟨0x1fffffff, 0x0⟩

theorem execTimerDisable_follows {p s0} {a0} {a1} {a2} {a3} (hp : Foot.le execTimerDisable_foot p) (h3 : Follows p s0 a3) :
    FollowsOut p s0 (execTimerDisable (a0) (a1) (a2) (a3)) := by
  unfold execTimerDisable
  refine FollowsOut.next ?_
  refine State.regWriteBy_follows (hp.sub rfl) ?_
  with_reducible assumption

def execIrqPendClear_foot : Foot := ⟨0x1fffffff, 0x0⟩

theorem execIrqPendClear_follows {p s0} {a0} {a1} {a2} {a3} (hp : Foot.le execIrqPendClear_foot p) (h3 : Follows p s0 a3) :
    FollowsOut p s0 (execIrqPendClear (a0) (a1) (a2) (a3)) := by
  unfold execIrqPendClear
  refine FollowsOut.next ?_
  refine State.regWriteBy_follows (hp.sub rfl) ?_
  with_reducible assumption

def execBellKeyWrite_foot : Foot := ⟨0x1fffffff, 0x0⟩

theorem execBellKeyWrite_follows {p s0} {a0} {a1} {a2} {a3} (hp : Foot.le execBellKeyWrite_foot p) (h3 : Follows p s0 a3) :
    FollowsOut p s0 (execBellKeyWrite (a0) (a1) (a2) (a3)) := by
  unfold execBellKeyWrite
  refine FollowsOut.next ?_
  refine State.regWriteBy_follows (hp.sub rfl) ?_
  with_reducible assumption

def execPwrVoteSet_foot : Foot := ⟨0x1fffffff, 0x0⟩

theorem execPwrVoteSet_follows {p s0} {a0} {a1} {a2} {a3} (hp : Foot.le execPwrVoteSet_foot p) (h3 : Follows p s0 a3) :
    FollowsOut p s0 (execPwrVoteSet (a0) (a1) (a2) (a3)) := by
  unfold execPwrVoteSet
  refine FollowsOut.next ?_
  refine State.regWriteBy_follows (hp.sub rfl) ?_
  with_reducible assumption

def execPwrVoteClr_foot : Foot := ⟨0x1fffffff, 0x0⟩

theorem execPwrVoteClr_follows {p s0} {a0} {a1} {a2} {a3} (hp : Foot.le execPwrVoteClr_foot p) (h3 : Follows p s0 a3) :
    FollowsOut p s0 (execPwrVoteClr (a0) (a1) (a2) (a3)) := by
  unfold execPwrVoteClr
  refine FollowsOut.next ?_
  refine State.regWriteBy_follows (hp.sub rfl) ?_
  with_reducible assumption

def execSpareFill_foot : Foot := ⟨0x1fffffff, 0x0⟩

theorem execSpareFill_follows {p s0} {a0} {a1} {a2} {a3} (hp : Foot.le execSpareFill_foot p) (h3 : Follows p s0 a3) :
    FollowsOut p s0 (execSpareFill (a0) (a1) (a2) (a3)) := by
  unfold execSpareFill
  refine FollowsOut.next ?_
  refine State.regWriteBy_follows (hp.sub rfl) ?_
  with_reducible assumption

def execErrUnitClear_foot : Foot := ⟨0x1fffffff, 0x0⟩

theorem execErrUnitClear_follows {p s0} {a0} {a1} {a2} {a3} (hp : Foot.le execErrUnitClear_foot p) (h3 : Follows p s0 a3) :
    FollowsOut p s0 (execErrUnitClear (a0) (a1) (a2) (a3)) := by
  unfold execErrUnitClear
  refine FollowsOut.next ?_
  refine State.regWriteBy_follows (hp.sub rfl) ?_
  with_reducible assumption

def execEngineRun_foot : Foot := ⟨0x1fffffff, 0x0⟩

theorem execEngineRun_follows {p s0} {a0} {a1} {a2} {a3} (hp : Foot.le execEngineRun_foot p) (h3 : Follows p s0 a3) :
    FollowsOut p s0 (execEngineRun (a0) (a1) (a2) (a3)) := by
  unfold execEngineRun
  refine FollowsOut.next ?_
  refine State.regWriteBy_follows (hp.sub rfl) ?_
  with_reducible assumption

def execEngineHalt_foot : Foot := ⟨0x1fffffff, 0x0⟩

theorem execEngineHalt_follows {p s0} {a0} {a1} {a2} {a3} (hp : Foot.le execEngineHalt_foot p) (h3 : Follows p s0 a3) :
    FollowsOut p s0 (execEngineHalt (a0) (a1) (a2) (a3)) := by
  unfold execEngineHalt
  refine FollowsOut.next ?_
  refine State.regWriteBy_follows (hp.sub rfl) ?_
  with_reducible assumption

def execWarmReset_foot : Foot := ⟨0x1fffffff, 0x0⟩

theorem execWarmReset_follows {p s0} {a0} {a1} (hp : Foot.le execWarmReset_foot p) (h1 : Follows p s0 a1) :
    FollowsOut p s0 (execWarmReset (a0) (a1)) := by
  unfold execWarmReset
  refine FollowsOut.next ?_
  refine State.regWriteBy_follows (hp.sub rfl) ?_
  with_reducible assumption

def execResetCmdNone_foot : Foot := ⟨0x1fffffff, 0x0⟩

theorem execResetCmdNone_follows {p s0} {a0} {a1} {a2} (hp : Foot.le execResetCmdNone_foot p) (h2 : Follows p s0 a2) :
    FollowsOut p s0 (execResetCmdNone (a0) (a1) (a2)) := by
  unfold execResetCmdNone
  refine FollowsOut.next ?_
  refine State.regWriteBy_follows (hp.sub rfl) ?_
  with_reducible assumption

def execTileReset_foot : Foot := ⟨0x1fffffff, 0x0⟩

theorem execTileReset_follows {p s0} {a0} {a1} {a2} (hp : Foot.le execTileReset_foot p) (h2 : Follows p s0 a2) :
    FollowsOut p s0 (execTileReset (a0) (a1) (a2)) := by
  unfold execTileReset
  refine FollowsOut.next ?_
  refine State.regWriteBy_follows (hp.sub rfl) ?_
  with_reducible assumption

def execEngineReset_foot : Foot := ⟨0x1fffffff, 0x0⟩

theorem execEngineReset_follows {p s0} {a0} {a1} {a2} (hp : Foot.le execEngineReset_foot p) (h2 : Follows p s0 a2) :
    FollowsOut p s0 (execEngineReset (a0) (a1) (a2)) := by
  unfold execEngineReset
  refine FollowsOut.next ?_
  refine State.regWriteBy_follows (hp.sub rfl) ?_
  with_reducible assumption

def execTimerCapRead_foot : Foot := ⟨0x1fffffff, 0x0⟩

theorem execTimerCapRead_follows {p s0} {a0} {a1} {a2} (hp : Foot.le execTimerCapRead_foot p) (h2 : Follows p s0 a2) :
    FollowsOut p s0 (execTimerCapRead (a0) (a1) (a2)) := by
  unfold execTimerCapRead
  refine FollowsOut.next ?_
  refine State.regReadBy_follows (hp.sub rfl) ?_
  with_reducible assumption

def execTsiRead_foot : Foot := ⟨0x1fffffff, 0x0⟩

theorem execTsiRead_follows {p s0} {a0} {a1} (hp : Foot.le execTsiRead_foot p) (h1 : Follows p s0 a1) :
    FollowsOut p s0 (execTsiRead (a0) (a1)) := by
  unfold execTsiRead
  refine FollowsOut.next ?_
  refine State.regReadBy_follows (hp.sub rfl) ?_
  with_reducible assumption

def execRngDataRead_foot : Foot := ⟨0x1fffffff, 0x0⟩

theorem execRngDataRead_follows {p s0} {a0} {a1} (hp : Foot.le execRngDataRead_foot p) (h1 : Follows p s0 a1) :
    FollowsOut p s0 (execRngDataRead (a0) (a1)) := by
  unfold execRngDataRead
  refine FollowsOut.next ?_
  refine State.regReadBy_follows (hp.sub rfl) ?_
  with_reducible assumption

def execBellRawRead_foot : Foot := ⟨0x1fffffff, 0x0⟩

theorem execBellRawRead_follows {p s0} {a0} {a1} (hp : Foot.le execBellRawRead_foot p) (h1 : Follows p s0 a1) :
    FollowsOut p s0 (execBellRawRead (a0) (a1)) := by
  unfold execBellRawRead
  refine FollowsOut.next ?_
  refine State.regReadBy_follows (hp.sub rfl) ?_
  with_reducible assumption

def execEngLmDataAccess_foot : Foot := ⟨0x1fffffff, 0x0⟩

theorem execEngLmDataAccess_follows {p s0} {a0} {a1} {a2} {a3} (hp : Foot.le execEngLmDataAccess_foot p) (h3 : Follows p s0 a3) :
    FollowsOut p s0 (execEngLmDataAccess (a0) (a1) (a2) (a3)) := by
  unfold execEngLmDataAccess
  refine FollowsOut.next ?_
  split
  · refine State.regWriteBy_follows (hp.sub rfl) ?_
    with_reducible assumption
  · refine State.regReadBy_follows (hp.sub rfl) ?_
    with_reducible assumption

def execFlashRead_foot : Foot := ⟨0x1fffffff, 0x0⟩

theorem execFlashRead_follows {p s0} {a0} {a1} {a2} {a3} {a4} (hp : Foot.le execFlashRead_foot p) (h4 : Follows p s0 a4) :
    FollowsOut p s0 (execFlashRead (a0) (a1) (a2) (a3) (a4)) := by
  unfold execFlashRead
  refine FollowsOut.next ?_
  refine State.readBy_follows (hp.sub rfl) ?_
  with_reducible assumption

def execFlashUnlock1_foot : Foot := ⟨0x1fffffff, 0x0⟩

theorem execFlashUnlock1_follows {p s0} {a0} {a1} {a2} {a3} (hp : Foot.le execFlashUnlock1_foot p) (h3 : Follows p s0 a3) :
    FollowsOut p s0 (execFlashUnlock1 (a0) (a1) (a2) (a3)) := by
  unfold execFlashUnlock1
  refine FollowsOut.next ?_
  refine State.writeBy_follows (hp.sub rfl) ?_
  with_reducible assumption

def execFlashUnlock2_foot : Foot := ⟨0x1fffffff, 0x0⟩

theorem execFlashUnlock2_follows {p s0} {a0} {a1} {a2} {a3} (hp : Foot.le execFlashUnlock2_foot p) (h3 : Follows p s0 a3) :
    FollowsOut p s0 (execFlashUnlock2 (a0) (a1) (a2) (a3)) := by
  unfold execFlashUnlock2
  refine FollowsOut.next ?_
  refine State.writeBy_follows (hp.sub rfl) ?_
  with_reducible assumption

def execFlashStatus_foot : Foot := ⟨0x1fffffff, 0x0⟩

theorem execFlashStatus_follows {p s0} {a0} {a1} {a2} {a3} (hp : Foot.le execFlashStatus_foot p) (h3 : Follows p s0 a3) :
    FollowsOut p s0 (execFlashStatus (a0) (a1) (a2) (a3)) := by
  unfold execFlashStatus
  refine FollowsOut.next ?_
  refine State.writeBy_follows (hp.sub rfl) ?_
  with_reducible assumption

def execFlashExit_foot : Foot := ⟨0x1fffffff, 0x0⟩

theorem execFlashExit_follows {p s0} {a0} {a1} {a2} {a3} (hp : Foot.le execFlashExit_foot p) (h3 : Follows p s0 a3) :
    FollowsOut p s0 (execFlashExit (a0) (a1) (a2) (a3)) := by
  unfold execFlashExit
  refine FollowsOut.next ?_
  refine State.writeBy_follows (hp.sub rfl) ?_
  with_reducible assumption

def execFlashReset_foot : Foot := ⟨0x1fffffff, 0x0⟩

theorem execFlashReset_follows {p s0} {a0} {a1} {a2} {a3} (hp : Foot.le execFlashReset_foot p) (h3 : Follows p s0 a3) :
    FollowsOut p s0 (execFlashReset (a0) (a1) (a2) (a3)) := by
  unfold execFlashReset
  refine FollowsOut.next ?_
  refine State.writeBy_follows (hp.sub rfl) ?_
  with_reducible assumption

def execPageProgram_foot : Foot := ⟨0x1fffffff, 0x0⟩

theorem execPageProgram_follows {p s0} {a0} {a1} {a2} {a3} {a4} (hp : Foot.le execPageProgram_foot p) (h4 : Follows p s0 a4) :
    FollowsOut p s0 (execPageProgram (a0) (a1) (a2) (a3) (a4)) := by
  unfold execPageProgram
  refine FollowsOut.next ?_
  refine State.writeBy_follows (hp.sub rfl) ?_
  with_reducible assumption

def execBlockErase_foot : Foot := ⟨0x1fffffff, 0x0⟩

theorem execBlockErase_follows {p s0} {a0} {a1} {a2} {a3} {a4} (hp : Foot.le execBlockErase_foot p) (h4 : Follows p s0 a4) :
    FollowsOut p s0 (execBlockErase (a0) (a1) (a2) (a3) (a4)) := by
  unfold execBlockErase
  refine FollowsOut.next ?_
  refine State.writeBy_follows (hp.sub rfl) ?_
  with_reducible assumption

def execPageBufferWrite_foot : Foot := ⟨0x1fffffff, 0x0⟩

theorem execPageBufferWrite_follows {p s0} {a0} {a1} {a2} {a3} {a4} (hp : Foot.le execPageBufferWrite_foot p) (h4 : Follows p s0 a4) :
    FollowsOut p s0 (execPageBufferWrite (a0) (a1) (a2) (a3) (a4)) := by
  unfold execPageBufferWrite
  refine FollowsOut.next ?_
  refine State.writeBy_follows (hp.sub rfl) ?_
  with_reducible assumption

def execFlashStrayWrite_foot : Foot := ⟨0x1fffffff, 0x0⟩

theorem execFlashStrayWrite_follows {p s0} {a0} {a1} {a2} {a3} {a4} (hp : Foot.le execFlashStrayWrite_foot p) (h4 : Follows p s0 a4) :
    FollowsOut p s0 (execFlashStrayWrite (a0) (a1) (a2) (a3) (a4)) := by
  unfold execFlashStrayWrite
  refine FollowsOut.next ?_
  refine State.writeBy_follows (hp.sub rfl) ?_
  with_reducible assumption

/-! ### Machine/EngineDev.lean -/

def State.engStp_foot : Foot := ⟨0x1fffffff, 0x0⟩

theorem State.engStp_follows {p s0} {a0} {a1} {a2} {a3} {a4} {a5} {a6} (hp : Foot.le State.engStp_foot p) (h0 : Follows p s0 a0) :
    Follows p s0 (State.engStp (a0) (a1) (a2) (a3) (a4) (a5) (a6)) := by
  unfold State.engStp
  extract_lets y0 y1 y2
  clear_value y0
  clear_value y1
  clear_value y2
  refine State.engIssue_follows (hp.sub rfl) ?_ ?_
  · with_reducible assumption
  · intro x3 x4
    refine Follows.ite ?_ ?_
    · refine State.device_follows (hp.sub rfl) ?_
      with_reducible assumption
    · refine State.storeFailed_follows (hp.sub rfl) ?_
      with_reducible assumption

def State.engFenceIssue_foot : Foot := ⟨0x1fffffff, 0x0⟩

theorem State.engFenceIssue_follows {p s0} {a0} {a1} (hp : Foot.le State.engFenceIssue_foot p) (h0 : Follows p s0 a0) :
    Follows p s0 (State.engFenceIssue (a0) (a1)) := by
  unfold State.engFenceIssue
  refine State.settleFences_follows (hp.sub rfl) ?_
  refine State.engIssue_follows (hp.sub rfl) ?_ ?_
  · with_reducible assumption
  · intro x0 x1
    refine Follows.id ?_
    with_reducible assumption

def State.postedFaultTaken_foot : Foot := ⟨0x1fffffff, 0x0⟩

theorem State.postedFaultTaken_follows {p s0} {a0} {a1} (hp : Foot.le State.postedFaultTaken_foot p) (h0 : Follows p s0 a0) :
    Follows p s0 (State.postedFaultTaken (a0) (a1)) := by
  unfold State.postedFaultTaken
  refine Follows.ite ?_ ?_
  · with_reducible assumption
  · refine Follows.ite ?_ ?_
    · refine State.engFence_follows (hp.sub rfl) ?_
      with_reducible assumption
    · refine State.takeBoundary_follows (hp.sub rfl) ?_
      with_reducible assumption

def State.engComplete_foot : Foot := ⟨0x1fffffff, 0x0⟩

theorem State.engComplete_follows {p s0} {a0} {a1} {a2} (hp : Foot.le State.engComplete_foot p) (h0 : Follows p s0 a0) :
    Follows p s0 (State.engComplete (a0) (a1) (a2)) := by
  unfold State.engComplete
  extract_lets y0 y1
  clear_value y0
  clear_value y1
  refine Follows.ite ?_ ?_
  · refine State.settleFences_follows (hp.sub rfl) ?_
    with_reducible assumption
  · refine Follows.ite ?_ ?_
    · with_reducible assumption
    · split
      · refine State.device_follows (hp.sub rfl) ?_
        with_reducible assumption
      · with_reducible assumption

def execStp_foot : Foot := ⟨0x1fffffff, 0x0⟩

theorem execStp_follows {p s0} {a0} {a1} {a2} {a3} {a4} {a5} {a6} (hp : Foot.le execStp_foot p) (h6 : Follows p s0 a6) :
    FollowsOut p s0 (execStp (a0) (a1) (a2) (a3) (a4) (a5) (a6)) := by
  unfold execStp
  refine FollowsOut.next ?_
  refine State.engStp_follows (hp.sub rfl) ?_
  with_reducible assumption

def execFence_foot : Foot := ⟨0x1fffffff, 0x0⟩

theorem execFence_follows {p s0} {a0} {a1} {a2} {a3} {a4} {a5} (hp : Foot.le execFence_foot p) (h5 : Follows p s0 a5) :
    FollowsOut p s0 (execFence (a0) (a1) (a2) (a3) (a4) (a5)) := by
  unfold execFence
  refine FollowsOut.next ?_
  refine State.engFenceIssue_follows (hp.sub rfl) ?_
  with_reducible assumption

def execPostedFault_foot : Foot := ⟨0x1fffffff, 0x0⟩

theorem execPostedFault_follows {p s0} {a0} {a1} (hp : Foot.le execPostedFault_foot p) (h1 : Follows p s0 a1) :
    FollowsOut p s0 (execPostedFault (a0) (a1)) := by
  unfold execPostedFault
  refine FollowsOut.next ?_
  refine State.postedFaultTaken_follows (hp.sub rfl) ?_
  with_reducible assumption

def execDeviceCompletion_foot : Foot := ⟨0x1fffffff, 0x0⟩

theorem execDeviceCompletion_follows {p s0} {a0} {a1} {a2} (hp : Foot.le execDeviceCompletion_foot p) (h2 : Follows p s0 a2) :
    FollowsOut p s0 (execDeviceCompletion (a0) (a1) (a2)) := by
  unfold execDeviceCompletion
  refine FollowsOut.next ?_
  refine State.engComplete_follows (hp.sub rfl) ?_
  with_reducible assumption

end Sys2Proof.Machine
end

