-- ==== Sys2Proof/Laws/Access.lean ====
section
/-! SUPPORT. Laws/Access.lean: one register access that its block is open to, down to what the register itself does. -/

set_option Elab.async false

namespace Sys2Proof.Machine

open Sys2Proof

theorem toBytes_length : (n v : Nat) → (toBytes n v).length = n
  | 0, _ => rfl
  | n + 1, v => by rw [toBytes, List.length_cons, toBytes_length]

theorem ofBytes_toBytes : (n v : Nat) → ofBytes (toBytes n v) = v % 256 ^ n
  | 0, v => by simp [toBytes, ofBytes, Nat.mod_one]
  | n + 1, v => by
    rw [toBytes, ofBytes, ofBytes_toBytes, BitVec.toNat_ofNat]
    have e : v % (256 * 256 ^ n) = v % 256 + 256 * (v / 256 % 256 ^ n) := Nat.mod_mul
    rw [show (256 : Nat) ^ (n + 1) = 256 * 256 ^ n from by rw [Nat.pow_succ, Nat.mul_comm], e]

/-- An access of a whole register word that nothing refuses. -/
theorem State.accessOwn_reg {s : State} {src : AccSrc} {ini : Initiator} {deck isWrite : Bool} {a : Nat} {data : List Byte} {ecc : List (Nat × EccSeen)}
    (hr : (regionOf a).1 = .reg) (h4 : a % 4 = 0) (hk : (deck && keelOwned isWrite a 4 (ofBytes data)) = false)
    (dom : ∀ d : Nat, windowDomain a = some d → s.domRuns d = true) :
    s.accessOwn src ini deck isWrite a data 4 ecc =
      ((s.perform .reg ini deck isWrite src.isPosted a data 4 ecc).1, some (s.perform .reg ini deck isWrite src.isPosted a data 4 ecc).2) := by
  unfold State.accessOwn
  dsimp only
  simp only [show max 4 1 = 4 from rfl, hk, Bool.false_eq_true, if_false, h4]
  rw [if_neg (by rw [hr]; simp), if_neg (by rw [hr]; simp)]
  split
  · rename_i d e
    rw [if_pos (dom d e), hr]
  · rw [hr]

/-- A write of an open register does what the register does, and answers its status. -/
theorem State.regWriteBy_open {s : State} {ini : Initiator} {a v : Nat} (hr : (regionOf a).1 = .reg) (h4 : a % 4 = 0)
    (h : s.opens ini true a (v % 2 ^ 32)) :
    s.regWriteBy ini a v =
      ((s.regPut (!isKeel ini) false a (v % 2 ^ 32)).1.refuseIf (s.regPut (!isKeel ini) false a (v % 2 ^ 32)).2.2 ini false a).reply
        (s.regPut (!isKeel ini) false a (v % 2 ^ 32)).2.1 [] := by
  obtain ⟨up, keel, dom, go, back⟩ := h
  have lv : ofBytes (toBytes 4 v) = v % 2 ^ 32 := by rw [ofBytes_toBytes]; rfl
  have nk : (!isKeel ini && keelOwned true a 4 (ofBytes (toBytes 4 v))) = false := by
    rw [lv]; rcases keel with k | k <;> rw [k] <;> simp
  unfold State.regWriteBy State.reachable State.device State.access
  rw [if_pos up, go]
  have e := State.accessOwn_reg (src := .direct) (ini := ini) (ecc := []) hr h4 nk dom
  have p : s.perform .reg ini (!isKeel ini) true AccSrc.direct.isPosted a (toBytes 4 v) 4 [] =
      ((s.regPut (!isKeel ini) false a (v % 2 ^ 32)).1.refuseIf (s.regPut (!isKeel ini) false a (v % 2 ^ 32)).2.2 ini false a,
        (s.regPut (!isKeel ini) false a (v % 2 ^ 32)).2.1, []) := by
    unfold State.perform
    rw [if_neg (by decide), if_pos rfl, if_pos rfl, lv]
    rfl
  rw [p] at e
  simp only [Bool.false_eq_true, if_false, hr, e, back, Bool.false_and]
  rfl

/-- The same for a register outside HUB_RESET_CMD and the engines' control blocks. -/
theorem State.regWriteBy_block {s : State} {ini : Initiator} {a v : Nat} (hr : (regionOf a).1 = .reg) (h4 : a % 4 = 0)
    (hn : a ≠ 0x02000010) (he : engPlace a = none) (h : s.opens ini true a (v % 2 ^ 32)) :
    s.regWriteBy ini a v = (s.regWrite (!isKeel ini) false a (v % 2 ^ 32)).1.reply (s.regWrite (!isKeel ini) false a (v % 2 ^ 32)).2 [] := by
  rw [State.regWriteBy_open hr h4 h]
  unfold State.regPut
  rw [if_neg hn, he]
  rfl

/-- A read of an open register answers what the register answers. -/
theorem State.regReadBy_open {s : State} {ini : Initiator} {a : Nat} (hr : (regionOf a).1 = .reg) (h4 : a % 4 = 0)
    (h : s.opens ini false a 0) :
    s.regReadBy ini a = (s.regRead a [] ini).1.reply (s.regRead a [] ini).2.1 (s.regRead a [] ini).2.2 := by
  obtain ⟨up, keel, dom, go, back⟩ := h
  have nk : (!isKeel ini && keelOwned false a 4 (ofBytes [])) = false := by
    rcases keel with k | k
    · rw [k]; simp
    · rw [show ofBytes [] = 0 from rfl, k]; simp
  unfold State.regReadBy State.reachable State.device State.access
  rw [if_pos up, go]
  have e := State.accessOwn_reg (src := .direct) (ini := ini) (ecc := []) hr h4 nk dom
  have p : s.perform .reg ini (!isKeel ini) false AccSrc.direct.isPosted a [] 4 [] = s.regRead a [] ini := by
    unfold State.perform
    rw [if_neg (by decide), if_pos rfl, if_neg (by decide)]
  rw [p] at e
  simp only [Bool.false_eq_true, if_false, hr, e, back, Bool.false_and]
  rfl

/-! ### Plain hub SRAM -/

theorem eccSize_pos (p : Nat) : 0 < eccSize p := by unfold eccSize; split <;> decide

theorem State.putByte_plain (s : State) (a : Nat) (b : Byte) (h : 0x1005000 ≤ a) (h2 : a < 0x1C00000) : s.putByte a b = s.setByte a b := by
  unfold State.putByte overlaid
  rw [if_neg (by simp; omega)]

theorem zipIdx_put (s : State) (a : Nat) (h : 0x1005000 ≤ a) : (l : List Byte) → (k : Nat) → a + k + l.length ≤ 0x1C00000 →
    (l.zipIdx k).foldl (fun s (x : Byte × Nat) => if ([] : List Nat).contains (eccBase (a + x.2)) then s else s.putByte (a + x.2) x.1) s = s.setBytes (a + k) l
  | [], k, _ => rfl
  | x :: rest, k, hl => by
    rw [List.length_cons] at hl
    rw [List.zipIdx_cons, List.foldl_cons]
    simp only [List.contains_nil, Bool.false_eq_true, if_false]
    rw [State.putByte_plain _ _ _ (by omega) (by omega)]
    have := zipIdx_put (s.setByte (a + k) x) a h rest (k + 1) (by omega)
    simp only [List.contains_nil, Bool.false_eq_true, if_false] at this
    rw [this]
    rfl

theorem State.memWrite_plain {s : State} {a : Nat} {data : List Byte} (h : s.plainSram a data.length) :
    s.memWrite a data = (s.setBytes a data, .ok) := by
  obtain ⟨lo, hi, pos, _, np⟩ := h
  have np' : ∀ p ∈ s.poison, ¬ (p < a + data.length ∧ a < p + eccSize p) := by
    intro p hp c
    have := List.any_eq_false.mp np p hp
    simp at this; omega
  have stuck : (s.poison.filter fun p => p < a + data.length && a < p + eccSize p && !covers a data.length p) = [] := by
    rw [List.filter_eq_nil_iff]
    intro p hp; have := np' p hp; simp; omega
  have keep : (s.poison.filter fun p => !covers a data.length p) = s.poison := by
    rw [List.filter_eq_self]
    intro p hp
    have := np' p hp
    have e := eccSize_pos p
    unfold covers; simp; omega
  unfold State.memWrite
  dsimp only
  rw [stuck, keep]
  have z := zipIdx_put s a lo data 0 (by omega)
  have fr : ∀ x, x < 0x1C00000 → fragmentAt x = none := by
    intro x hx; unfold fragmentAt; rw [if_neg (by simp; omega)]
  rw [show ({ s with poison := s.poison } : State) = s from rfl, z]
  unfold State.touchFragments
  rw [fr a (by omega), fr _ (by omega)]
  rfl

theorem State.memSeen_plain {s : State} {a len : Nat} {ini : Initiator} (h : s.plainSram a len) : s.memSeen a len [] ini = (s, false) := by
  obtain ⟨lo, hi, pos, _, np⟩ := h
  have : (s.poison.filter fun p => p < a + len && a < p + eccSize p) = [] := by
    rw [List.filter_eq_nil_iff]
    intro p hp; have := List.any_eq_false.mp np p hp; exact this
  unfold State.memSeen State.hitPoison
  rw [this, np]; rfl

theorem regionOf_sram {a : Nat} (lo : 0x1005000 ≤ a) (hi : a < 0x1C00000) : regionOf a = (.sram, 0x01C00000) := by
  unfold regionOf; rw [if_neg (by omega), if_pos hi]

/-- A write of plain hub SRAM by any initiator. -/
theorem State.access_sram_write {s : State} {src : AccSrc} {ini : Initiator} {a : Nat} {data : List Byte} (h : s.plainSram a data.length)
    (go : s.ctlBlocked ini a false = false) :
    s.access src ini true a data data.length [] = (s.setBytes a data, some (.ok, [])) := by
  have h' := h
  obtain ⟨lo, hi, pos, small, np⟩ := h
  have r := regionOf_sram (a := a) lo (by omega)
  have k : keelOwned true a (max data.length 1) (ofBytes data) = false := by
    unfold keelOwned meets; simp; omega
  have mo : ((List.range data.length).any fun i => macOwned (a + i)) = false := by
    rw [List.any_eq_false]; intro i hi'; rw [List.mem_range] at hi'; unfold macOwned; simp; omega
  have p : s.perform .sram ini (!isKeel ini) true src.isPosted a data data.length [] = (s.setBytes a data, .ok, []) := by
    unfold State.perform State.putMem
    rw [if_neg (by omega), if_neg (by decide), if_pos rfl, if_neg (by decide), mo, if_neg (by decide), if_neg (by unfold meets; simp; omega),
      State.memWrite_plain h']
  unfold State.access State.accessOwn
  rw [r, go, if_neg Bool.false_ne_true]
  dsimp only
  rw [if_neg (by simp; omega), k, Bool.and_false, if_neg (by decide), if_neg (by simp)]
  rw [show windowDomain a = none from by unfold windowDomain; rw [if_neg (by omega), if_neg (by simp; omega)]]
  dsimp only
  rw [p]

/-- A read of plain hub SRAM by any initiator. -/
theorem State.access_sram_read {s : State} {src : AccSrc} {ini : Initiator} {a len : Nat} (h : s.plainSram a len)
    (go : s.ctlBlocked ini a false = false) :
    s.access src ini false a [] len [] = (s, some (.ok, s.bytes a len)) := by
  have h' := h
  obtain ⟨lo, hi, pos, small, np⟩ := h
  have r := regionOf_sram (a := a) lo (by omega)
  have k : keelOwned false a (max len 1) (ofBytes []) = false := by
    unfold keelOwned meets; simp; omega
  have d : ∀ i, i < len → s.devByte (a + i) = s.byte (a + i) := by
    intro i hi'; unfold State.devByte overlaid; rw [if_neg (by simp; omega)]
  have p : s.perform .sram ini (!isKeel ini) false src.isPosted a [] len [] = (s, .ok, s.bytes a len) := by
    unfold State.perform State.memRead
    rw [if_neg (by omega), if_neg (by decide), if_neg (by decide), if_neg (by decide), State.memSeen_plain h']
    simp only [Bool.false_eq_true, if_false, State.bytes]
    congr 2
    exact List.map_congr_left fun i hi' => d i (List.mem_range.mp hi')
  unfold State.access State.accessOwn
  rw [r, go, if_neg Bool.false_ne_true]
  dsimp only
  rw [if_neg (by simp; omega), k, Bool.and_false, if_neg (by decide), if_neg (by simp)]
  rw [show windowDomain a = none from by unfold windowDomain; rw [if_neg (by omega), if_neg (by simp; omega)]]
  dsimp only
  rw [p]

theorem State.setBytes_wrote (s : State) (a : Nat) (l : List Byte) : wroteBytes s (s.setBytes a l) a l := by
  intro b
  split
  · rename_i h
    obtain ⟨k, rfl⟩ := Nat.exists_eq_add_of_le h.1
    rw [State.byte_setBytes_in _ _ _ _ (by omega)]
    congr 1; omega
  · rename_i h; rw [State.byte_setBytes_out _ _ _ _ h]

end Sys2Proof.Machine
end

