-- ==== Sys2Proof/Laws/Words.lean ====
section
/-! SUPPORT. Laws/Words.lean: the operations on words of Machine/EngineAlu.lean, in the terms of Tables 6.5 and 6.6. -/

set_option Elab.async false

namespace Sys2Proof.Machine

open Sys2Proof

theorem wRor_eq (x y : Word) : wRor x y = x >>> (y.toNat % 32) ||| x <<< (32 - y.toNat % 32) := by
  unfold wRor; rw [BitVec.rotateRight_def, Nat.mod_mod]

theorem wSlt_eq (x y : Word) : wSlt x y = if x.toInt < y.toInt then 1 else 0 := by simp [wSlt, wBool]
theorem wSltu_eq (x y : Word) : wSltu x y = if x.toNat < y.toNat then 1 else 0 := by simp [wSltu, wBool]

theorem wMin_eq (x y : Word) : wMin x y = BitVec.ofInt 32 (min x.toInt y.toInt) := by
  unfold wMin
  split
  · rw [min_eq_left (by omega), BitVec.ofInt_toInt]
  · rw [min_eq_right (by omega), BitVec.ofInt_toInt]

theorem wMax_eq (x y : Word) : wMax x y = BitVec.ofInt 32 (max x.toInt y.toInt) := by
  unfold wMax
  split
  · rw [max_eq_right (by omega), BitVec.ofInt_toInt]
  · rw [max_eq_left (by omega), BitVec.ofInt_toInt]

/-! ### Masks by their bits -/

theorem mask_fold (p : Nat → Bool) (n : Nat) : maskOf n p < 2 ^ n ∧ ∀ i : Nat, (maskOf n p).testBit i = (decide (i < n) && p i) := by
  induction n with
  | zero => exact ⟨by simp [maskOf], fun i => by simp [maskOf]⟩
  | succ n ih =>
    have e : maskOf (n + 1) p = if p n then maskOf n p + 2 ^ n else maskOf n p := by
      unfold maskOf; rw [List.range_succ, List.foldl_append]; rfl
    rw [e]
    obtain ⟨lt, bits⟩ := ih
    by_cases c : p n = true
    · rw [if_pos c]
      refine ⟨by rw [pow_succ]; omega, fun i => ?_⟩
      rw [Nat.add_comm]
      by_cases e : i = n
      · subst e; rw [Nat.testBit_two_pow_add_eq, bits]; simp [c]
      · by_cases l : i < n
        · rw [Nat.testBit_two_pow_add_gt (by omega), bits]; simp [l, Nat.lt_succ_of_lt l]
        · have : maskOf n p + 2 ^ n < 2 ^ i := lt_of_lt_of_le (by rw [pow_succ]; omega : _ < 2 ^ (n + 1)) (Nat.pow_le_pow_right (by decide) (by omega))
          rw [Nat.add_comm, Nat.testBit_lt_two_pow this]
          simp only [Bool.false_eq, Bool.and_eq_false_iff, decide_eq_false_iff_not]
          omega
    · rw [if_neg c]
      refine ⟨lt.trans (Nat.pow_lt_pow_right (by decide) (by omega)), fun i => ?_⟩
      rw [bits]
      by_cases e : i = n
      · subst e; simp [c]
      · congr 1; simp only [decide_eq_decide]; omega

/-- Bit i of a mask. -/
theorem maskOf_testBit (n : Nat) (p : Nat → Bool) (i : Nat) : (maskOf n p).testBit i = (decide (i < n) && p i) := (mask_fold p n).2 i

theorem maskOf_word (n : Nat) (p : Nat → Bool) (i : Nat) (hi : i < 32) :
    (BitVec.ofNat 32 (maskOf n p)).getLsbD i = (decide (i < n) && p i) := by
  rw [BitVec.getLsbD_ofNat, maskOf_testBit]; simp [hi]

theorem wBrev_bit (x : Word) (i : Nat) (hi : i < 32) : (wBrev x).getLsbD i = x.getLsbD (31 - i) := by
  unfold wBrev; rw [maskOf_word _ _ _ hi]; simp [hi]

theorem wBrevb_bit (x : Word) (k i : Nat) (hk : k < 4) (hi : i < 8) : (wBrevb x).getLsbD (8 * k + i) = x.getLsbD (8 * k + (7 - i)) := by
  have e1 : (8 * k + i) / 8 * 8 + (7 - (8 * k + i) % 8) = 8 * k + (7 - i) := by omega
  unfold wBrevb; rw [maskOf_word _ _ _ (by omega), e1]; simp [show 8 * k + i < 32 by omega]

theorem wBswap_bit (x : Word) (k i : Nat) (hk : k < 4) (hi : i < 8) : (wBswap x).getLsbD (8 * k + i) = x.getLsbD (8 * (3 - k) + i) := by
  have e1 : (3 - (8 * k + i) / 8) * 8 + (8 * k + i) % 8 = 8 * (3 - k) + i := by omega
  unfold wBswap; rw [maskOf_word _ _ _ (by omega), e1]; simp [show 8 * k + i < 32 by omega]

/-- Parity by counting the set bits. -/
theorem parityOf_count (x : Word) (lo n : Nat) :
    parityOf x lo n = (((List.range n).filter fun i => x.getLsbD (lo + i)).length % 2 == 1) := by
  unfold parityOf
  induction n with
  | zero => rfl
  | succ n ih =>
    rw [List.range_succ, List.foldl_append, ih, List.filter_append, List.length_append]
    generalize ((List.range n).filter fun i => x.getLsbD (lo + i)).length = m
    cases c : x.getLsbD (lo + n) <;> rcases Nat.mod_two_eq_zero_or_one m with e | e <;> simp [c, Nat.add_mod, e]

theorem wPar_eq (x : Word) : wPar x = if ((List.range 32).filter fun i => x.getLsbD (0 + i)).length % 2 == 1 then 1 else 0 := by
  unfold wPar wBool; rw [parityOf_count]

theorem wParb_bit (x : Word) (i : Nat) (hi : i < 32) :
    (wParb x).getLsbD i = (decide (i < 4) && ((List.range 8).filter fun j => x.getLsbD (8 * i + j)).length % 2 == 1) := by
  unfold wParb; rw [maskOf_word _ _ _ hi, parityOf_count]

theorem wPopc_toNat (x : Word) : (wPopc x).toNat = ((List.range 32).filter fun i => x.getLsbD i).length := by
  unfold wPopc popcount
  rw [BitVec.toNat_ofNat, Nat.mod_eq_of_lt]
  · rfl
  · exact lt_of_le_of_lt (List.length_filter_le _ _) (by rw [List.length_range]; decide)

theorem wClz_toNat (x : Word) : (wClz x).toNat ≤ 32 ∧ (∀ i : Nat, i < (wClz x).toNat → x.getLsbD (31 - i) = false) ∧
    ((wClz x).toNat < 32 → x.getLsbD (31 - (wClz x).toNat) = true) := by
  unfold wClz
  cases h : (List.range 32).find? fun i => x.getLsbD (31 - i) with
  | none =>
    rw [List.find?_eq_none] at h
    refine ⟨by decide, fun i hi => ?_, fun l => absurd l (by decide)⟩
    have := h i (List.mem_range.mpr hi)
    simpa using this
  | some k =>
    have hk : k < 32 := List.mem_range.mp (List.mem_of_find?_eq_some h)
    have e : (BitVec.ofNat 32 ((some k).getD 32)).toNat = k := by
      rw [Option.getD_some, BitVec.toNat_ofNat, Nat.mod_eq_of_lt (by omega)]
    rw [e]
    have top := List.find?_some h
    refine ⟨by omega, fun i hi => ?_, fun _ => top⟩
    rw [List.find?_range_eq_some] at h
    simpa using h.2.2 i hi

end Sys2Proof.Machine
end

