-- ==== Sys2Proof/Laws/Engine.lean ====
section
/-! SUPPORT. Laws/Engine.lean: what issuing and retiring a word does, said once: the lemmas that the claims about engine words cite. -/

set_option Elab.async false

namespace Sys2Proof.Machine

open Sys2Proof

variable {s : State} {g : Nat}

/-! ### One engine among the others -/

theorem vget_vset_same {α : Type} {n : Nat} [NeZero n] (v : Vector α n) (i : Nat) (x : α) : vget (vset v i x) i = x := by
  simp [vget, vset]

theorem vget_vset_ne {α : Type} {n : Nat} [NeZero n] (v : Vector α n) (i j : Nat) (x : α) (h : j % n ≠ i % n) :
    vget (vset v i x) j = vget v j := by
  simp only [vget, vset]; rw [Vector.getElem_set_ne]; exact fun e => h e.symm

@[simp] theorem State.eng_updEng (s : State) (g : Nat) (f : Engine → Engine) : (s.updEng g f).eng g = f (s.eng g) := vget_vset_same _ _ _

theorem State.eng_updEng_ne (s : State) (g h : Nat) (f : Engine → Engine) (ne : h % 96 ≠ g % 96) : (s.updEng g f).eng h = s.eng h :=
  vget_vset_ne _ _ _ _ ne


theorem Follows.engs_eq {p : Foot} {s t : State} (h : Follows p s t) (e : p.comp 17 = false) (g : Nat) : t.eng g = s.eng g := by
  unfold State.eng; rw [h.engs e]

theorem Follows.bytes_eq {p : Foot} {s t : State} (h : Follows p s t) (e : p.comp 2 = false) (a : Nat) : t.byte a = s.byte a := by
  unfold State.byte; rw [h.mem e]

theorem State.pmcAt_is (s : State) (ev inst n : Nat) (pc : Option (Nat × Nat)) : Follows State.pmcAt_foot s (s.pmcAt ev inst n pc) :=
  State.pmcAt_follows (Foot.le_refl _) (Follows.refl _ _)

@[simp] theorem State.pmcAt_eng (s : State) (ev inst n : Nat) (pc : Option (Nat × Nat)) (g : Nat) : (s.pmcAt ev inst n pc).eng g = s.eng g :=
  (s.pmcAt_is ev inst n pc).engs_eq rfl g

@[simp] theorem State.pmcAt_byte (s : State) (ev inst n : Nat) (pc : Option (Nat × Nat)) (a : Nat) : (s.pmcAt ev inst n pc).byte a = s.byte a :=
  (s.pmcAt_is ev inst n pc).bytes_eq rfl a

theorem State.lmStore_is (s : State) (g : Nat) (l : List (Nat × List Byte)) : Follows State.lmStore_foot s (s.lmStore g l) :=
  State.lmStore_follows (Foot.le_refl _) (Follows.refl _ _)

@[simp] theorem State.lmStore_eng (s : State) (h : Nat) (l : List (Nat × List Byte)) (g : Nat) : (s.lmStore h l).eng g = s.eng g :=
  (s.lmStore_is h l).engs_eq rfl g

@[simp] theorem State.lmStore_get (s : State) (h : Nat) (l : List (Nat × List Byte)) (f : Field) : (s.lmStore h l).get f = s.get f :=
  (s.lmStore_is h l).get f (by simp only [Foot.row, State.lmStore_foot, Nat.zero_testBit, Bool.or_false]; decide)

@[simp] theorem State.lmStore_nil (s : State) (g : Nat) : s.lmStore g [] = s := rfl

/-- A footprint whose rows are all in a list leaves every other row. -/
theorem Foot.row_of {p : Foot} {l : List Nat} (n : Nat) (h1 : p.comps.testBit 1 = false) (h2 : p.rows < 2 ^ n)
    (h : ((List.range n).all fun k => !p.rows.testBit k || l.contains k) = true) {k : Nat} (hk : k ∉ l) : p.row k = false := by
  unfold Foot.row
  rw [h1, Bool.false_or]
  by_contra c
  rw [Bool.not_eq_false] at c
  have lt : k < n := by
    by_contra g
    rw [Nat.testBit_lt_two_pow (lt_of_lt_of_le h2 (Nat.pow_le_pow_right (by decide) (Nat.le_of_not_lt g)))] at c
    cases c
  have := List.all_eq_true.mp h k (List.mem_range.mpr lt)
  simp only [c, Bool.not_true, Bool.false_or, List.contains_iff_mem] at this
  exact hk this

/-- Rows outside the counters are outside the footprint of a counted event. -/
theorem counter_rows (k : Nat) (h : k ∉ counterRows) : State.pmcAt_foot.row k = false :=
  Foot.row_of 700 (by decide) (by decide +kernel) (by decide +kernel) h

theorem State.pmcAt_get (s : State) (ev inst n : Nat) (pc : Option (Nat × Nat)) (f : Field) (h : f.row ∉ counterRows) :
    (s.pmcAt ev inst n pc).get f = s.get f := (s.pmcAt_is ev inst n pc).get f (counter_rows _ h)

/-! ### The parts of an engine that a boundary leaves -/

/-- Register sets that agree on what neither the pc, the hardware loops, the return stack nor the writes of other agents touch. -/
def EngRegs.alike (a b : EngRegs) : Prop :=
  b.w = a.w ∧ b.v = a.v ∧ b.mode = a.mode ∧ b.estat = a.estat ∧ b.epc = a.epc ∧ b.ecause = a.ecause ∧ b.eaddr = a.eaddr ∧ b.ien = a.ien ∧
    b.fpctrl = a.fpctrl ∧ b.fpstat = a.fpstat ∧ b.scr = a.scr

theorem EngRegs.alike_refl (a : EngRegs) : a.alike a := ⟨rfl, rfl, rfl, rfl, rfl, rfl, rfl, rfl, rfl, rfl, rfl⟩

theorem EngRegs.alike_trans {a b c : EngRegs} (h : a.alike b) (k : b.alike c) : a.alike c := by
  unfold EngRegs.alike at *; simp_all

theorem Engine.agentWrite_alike (x : Engine) (w : Nat × Nat) : x.r.alike (x.agentWrite w).r := by
  unfold Engine.agentWrite; split <;> exact ⟨rfl, rfl, rfl, rfl, rfl, rfl, rfl, rfl, rfl, rfl, rfl⟩

theorem Engine.agentWrites_alike (l : List (Nat × Nat)) (x : Engine) : x.r.alike (l.foldl Engine.agentWrite x).r := by
  induction l generalizing x with
  | nil => exact EngRegs.alike_refl _
  | cons w rest ih => exact EngRegs.alike_trans (x.agentWrite_alike w) (ih _)

theorem EngRegs.retireAt_alike (r : EngRegs) (a : Nat) : r.alike (r.retireAt a) := by
  unfold EngRegs.retireAt EngRegs.outerEnd
  dsimp only
  repeat' split
  all_goals exact ⟨rfl, rfl, rfl, rfl, rfl, rfl, rfl, rfl, rfl, rfl, rfl⟩

theorem EngRegs.leaveLoops_alike (r : EngRegs) (t : Nat) : r.alike (r.leaveLoops t) := by
  unfold EngRegs.leaveLoops
  dsimp only
  repeat' split
  all_goals exact ⟨rfl, rfl, rfl, rfl, rfl, rfl, rfl, rfl, rfl, rfl, rfl⟩

theorem EngRegs.alike_ite {c : Prop} [Decidable c] {a x y : EngRegs} (hx : a.alike x) (hy : a.alike y) : a.alike (if c then x else y) := by
  split <;> assumption

theorem Engine.branchDone_alike (x : Engine) (r : EngRegs) (b : Nat) (t : Option Nat) (push pop leaves : Bool) :
    r.alike (x.branchDone r b t push pop leaves).r := by
  have same : ∀ a : EngRegs, a.alike a := EngRegs.alike_refl
  unfold Engine.branchDone
  extract_lets r1 full r2 wraps r3
  have h1 : r.alike r1 := EngRegs.alike_ite (same r) (same r)
  have h2 : r1.alike r2 := EngRegs.alike_ite (same r1) (same r1)
  have h3 : r2.alike r3 := by
    unfold r3
    cases t with
    | none => exact same r2
    | some k =>
      have := EngRegs.alike_ite (c := leaves = true) (EngRegs.leaveLoops_alike r2 k) (same r2)
      exact EngRegs.alike_trans this (same _)
  exact EngRegs.alike_trans h1 (EngRegs.alike_trans h2 h3)

theorem State.engBoundary_alike (s : State) (g : Nat) : (s.eng g).r.alike ((s.engBoundary g).eng g).r := by
  unfold State.engBoundary
  split
  · exact EngRegs.alike_refl _
  · rw [State.eng_updEng]
    dsimp only
    split <;> exact Engine.agentWrites_alike _ _

theorem State.engBoundary_ne (s : State) (g h : Nat) (ne : h % 96 ≠ g % 96) : (s.engBoundary g).eng h = s.eng h := by
  unfold State.engBoundary
  split
  · rfl
  · exact State.eng_updEng_ne _ _ _ _ ne

@[simp] theorem State.engBoundary_get (s : State) (g : Nat) (f : Field) : (s.engBoundary g).get f = s.get f := by
  unfold State.engBoundary; split <;> rfl
@[simp] theorem State.engBoundary_byte (s : State) (g a : Nat) : (s.engBoundary g).byte a = s.byte a := by
  unfold State.engBoundary; split <;> rfl

/-! ### Retiring a word -/

/-- The counts that a retired word gives to the performance counters. -/
theorem retire_count_eng (s : State) (g n : Nat) (pair : Bool) (p : Option (Nat × Nat)) (h : Nat) :
    (if pair = true then (s.pmcAt 0x010 g n p).pmcAt 0x011 g 1 p else s.pmcAt 0x010 g n p).eng h = s.eng h := by
  split <;> simp

theorem retire_count_byte (s : State) (g n : Nat) (pair : Bool) (p : Option (Nat × Nat)) (a : Nat) :
    (if pair = true then (s.pmcAt 0x010 g n p).pmcAt 0x011 g 1 p else s.pmcAt 0x010 g n p).byte a = s.byte a := by
  split <;> simp

theorem retire_count_get (s : State) (g n : Nat) (pair : Bool) (p : Option (Nat × Nat)) (f : Field) (hf : f.row ∉ counterRows) :
    (if pair = true then (s.pmcAt 0x010 g n p).pmcAt 0x011 g 1 p else s.pmcAt 0x010 g n p).get f = s.get f := by
  split <;> simp only [State.pmcAt_get _ _ _ _ _ f hf]

/-- A retired word leaves the general and vector registers and FPSTAT as it wrote them, wherever it stands. -/
theorem State.engRetire_wv (s : State) (g : Nat) (pair : Bool) (r : EngRegs) (st : List (Nat × List Byte)) :
    ((s.engRetire g pair r st).eng g).r.w = r.w ∧ ((s.engRetire g pair r st).eng g).r.v = r.v ∧
      ((s.engRetire g pair r st).eng g).r.fpstat = r.fpstat := by
  have key : ∀ (t : State) (x : EngRegs), (t.eng g).r = x → r.w = x.w → r.v = x.v → r.fpstat = x.fpstat →
      ((t.engBoundary g).eng g).r.w = r.w ∧ ((t.engBoundary g).eng g).r.v = r.v ∧ ((t.engBoundary g).eng g).r.fpstat = r.fpstat := by
    intro t x e hw hv hf
    obtain ⟨a, b, _, _, _, _, _, _, _, c, _⟩ := t.engBoundary_alike g
    rw [a, b, c, e, hw, hv, hf]; exact ⟨rfl, rfl, rfl⟩
  unfold State.engRetire
  dsimp only
  split
  · obtain ⟨a, b, _, _, _, _, _, _, _, c, _⟩ := r.retireAt_alike (s.eng g).r.pc
    exact key _ (r.retireAt (s.eng g).r.pc) (by rw [retire_count_eng, State.eng_updEng]) a.symm b.symm c.symm
  · rename_i b t push pop leaves _
    have e := Engine.branchDone_alike ((s.lmStore g st).eng g) r b t push pop leaves
    exact key _ (Engine.branchDone ((s.lmStore g st).eng g) r b t push pop leaves).r 
      (by rw [retire_count_eng, State.eng_updEng]) e.1.symm e.2.1.symm e.2.2.2.2.2.2.2.2.2.1.symm
  · rw [State.eng_updEng]; exact ⟨rfl, rfl, rfl⟩
  · rename_i m _ held _ _
    exact key _ { r with pc := pcNext (s.eng g).r.pc, mode := m } (by rw [retire_count_eng, State.eng_updEng]) rfl rfl rfl

theorem State.engRetire_ne (s : State) (g : Nat) (pair : Bool) (r : EngRegs) (st : List (Nat × List Byte)) (h : Nat) (ne : h % 96 ≠ g % 96) :
    (s.engRetire g pair r st).eng h = s.eng h := by
  unfold State.engRetire
  dsimp only
  split
  · rw [State.engBoundary_ne _ _ _ ne, retire_count_eng, State.eng_updEng_ne _ _ _ _ ne, State.lmStore_eng]
  · rw [State.engBoundary_ne _ _ _ ne, retire_count_eng, State.eng_updEng_ne _ _ _ _ ne, State.lmStore_eng]
  · rw [State.eng_updEng_ne _ _ _ _ ne]
  · rw [State.engBoundary_ne _ _ _ ne, retire_count_eng, State.eng_updEng_ne _ _ _ _ ne, State.lmStore_eng]

theorem State.engRetire_get (s : State) (g : Nat) (pair : Bool) (r : EngRegs) (st : List (Nat × List Byte)) (f : Field) (hf : f.row ∉ counterRows) :
    (s.engRetire g pair r st).get f = s.get f := by
  unfold State.engRetire
  dsimp only
  split
  · rw [State.engBoundary_get, retire_count_get _ _ _ _ _ f hf, State.updEng_get, State.lmStore_get]
  · rw [State.engBoundary_get, retire_count_get _ _ _ _ _ f hf, State.updEng_get, State.lmStore_get]
  · rw [State.updEng_get]
  · rw [State.engBoundary_get, retire_count_get _ _ _ _ _ f hf, State.updEng_get, State.lmStore_get]

/-- A word that stands alone: its stores go to memory, the pc and the loop levels move on, and what no loop and no other agent touches is as the word
wrote it. -/
theorem State.engRetire_alone (s : State) (g : Nat) (pair : Bool) (r : EngRegs) (st : List (Nat × List Byte)) (h : s.alone g) :
    (∀ a, (s.engRetire g pair r st).byte a = (s.lmStore g st).byte a) ∧ r.alike ((s.engRetire g pair r st).eng g).r := by
  unfold State.engRetire
  dsimp only
  unfold State.alone at h
  rw [h]
  refine ⟨fun a => ?_, ?_⟩
  · dsimp only; rw [State.engBoundary_byte, retire_count_byte, State.updEng_byte]
  · dsimp only
    refine EngRegs.alike_trans ?_ (State.engBoundary_alike _ _)
    rw [retire_count_eng, State.eng_updEng]
    exact r.retireAt_alike _

/-- Where no mode-change shadow holds them back, the stores of a word go to memory. -/
theorem State.engRetire_direct (s : State) (g : Nat) (pair : Bool) (r : EngRegs) (st : List (Nat × List Byte)) (h : s.direct g) (a : Nat) :
    (s.engRetire g pair r st).byte a = (s.lmStore g st).byte a := by
  unfold State.engRetire
  dsimp only
  split
  · rw [State.engBoundary_byte, retire_count_byte, State.updEng_byte]
  · rw [State.engBoundary_byte, retire_count_byte, State.updEng_byte]
  · rename_i e; exact absurd e (h _ _ _ _)
  · rename_i e; exact absurd e (h _ _ _ _)

theorem clrPoison_fold_byte (a : Nat) (l : List Nat) (s : State) (b : Nat) :
    (l.foldl (fun s i => s.clrPoison (a + i)) s).byte b = s.byte b := by
  induction l generalizing s with
  | nil => rfl
  | cons x rest ih => rw [List.foldl_cons, ih]; rfl

/-- One store to local memory: its bytes, and every other byte as before. -/
theorem State.lmStore_byte (s : State) (g a : Nat) (l : List Byte) (b : Nat) :
    (s.lmStore g [(a, l)]).byte b = if h : lmBase g + a ≤ b ∧ b < lmBase g + a + l.length then l[b - (lmBase g + a)]'(by omega) else s.byte b := by
  unfold State.lmStore
  rw [List.foldl_cons, List.foldl_nil]
  dsimp only
  rw [clrPoison_fold_byte]
  split
  · rename_i h
    obtain ⟨k, rfl⟩ := Nat.exists_eq_add_of_le h.1
    rw [State.byte_setBytes_in _ _ _ _ (by omega)]
    congr 1; omega
  · rename_i h; rw [State.byte_setBytes_out _ _ _ _ h]

/-! ### The engine after a retirement -/

/-- The engine after a word boundary; out tells that a posted store of it is still on its way. -/
def Engine.settled (y : Engine) (out : Bool) : Engine :=
  if !y.atBoundary then y
  else
    let z := { (y.agentWrites.foldl Engine.agentWrite y) with agentWrites := [] }
    if !z.run && z.state == .running && !out then { z with state := .halted } else z

theorem State.engBoundary_eng (s : State) (g : Nat) : (s.engBoundary g).eng g = (s.eng g).settled (s.postedOut fun src => src == .store g) := by
  unfold State.engBoundary Engine.settled
  cases e : (s.eng g).atBoundary
  · simp
  · simp only [Bool.not_true, Bool.false_eq_true, if_false]; rw [State.eng_updEng]

/-- What a word boundary leaves alone. -/
def Engine.near (x y : Engine) : Prop :=
  y.ctx = x.ctx ∧ y.wait = x.wait ∧ y.saved = x.saved ∧ y.mbox = x.mbox ∧ y.postedFault = x.postedFault ∧ y.run = x.run ∧ y.rsWraps = x.rsWraps ∧
    y.r.pc = x.r.pc ∧ y.r.rstack = x.r.rstack ∧ y.r.ls = x.r.ls ∧ y.r.le = x.r.le ∧ y.r.lc = x.r.lc ∧ y.r.ldepth = x.r.ldepth

theorem Engine.agentWrites_near (l : List (Nat × Nat)) (x : Engine) : x.near (l.foldl Engine.agentWrite x) := by
  induction l generalizing x with
  | nil => exact ⟨rfl, rfl, rfl, rfl, rfl, rfl, rfl, rfl, rfl, rfl, rfl, rfl, rfl⟩
  | cons w rest ih =>
    have h : x.near (x.agentWrite w) := by
      unfold Engine.agentWrite; split <;> exact ⟨rfl, rfl, rfl, rfl, rfl, rfl, rfl, rfl, rfl, rfl, rfl, rfl, rfl⟩
    have k := ih (x.agentWrite w)
    unfold Engine.near at *
    simp_all

theorem Engine.settled_near (x : Engine) (out : Bool) : x.near (x.settled out) := by
  unfold Engine.settled
  have h := Engine.agentWrites_near x.agentWrites x
  split
  · exact ⟨rfl, rfl, rfl, rfl, rfl, rfl, rfl, rfl, rfl, rfl, rfl, rfl, rfl⟩
  · dsimp only
    split <;> exact h

theorem Engine.settled_r (x : Engine) (out : Bool) (h : x.agentWrites = []) : (x.settled out).r = x.r := by
  unfold Engine.settled
  rw [h]
  split
  · rfl
  · dsimp only [List.foldl_nil]; split <;> rfl

/-- The engine as a word leaves it, before the boundary that follows. -/
def Engine.retired (x : Engine) (r : EngRegs) (st : List (Nat × List Byte)) : Engine :=
  match x.ctx with
  | .plain => { x with r := r.retireAt x.r.pc, wait := none, state := .running }
  | .delaySlot b target push pop leaves => { (x.branchDone r b target push pop leaves) with wait := none, state := .running }
  | .shadow sm m 1 held => { x with r := { r with pc := pcNext x.r.pc }, ctx := .shadow sm m 2 (held ++ st) }
  | .shadow _ m _ _ => { x with r := { r with pc := pcNext x.r.pc, mode := m }, ctx := .plain, saved := none,
                                timedOver := x.timedOver && !(m.testBit 0 && !r.timed),
                                timedTicks := if m.testBit 0 && !r.timed then 0 else x.timedTicks }

/-- The engine after a word retires: settled, but for the first word of a mode-change shadow, after which no boundary stands. -/
theorem State.engRetire_eng (s : State) (g : Nat) (pair : Bool) (r : EngRegs) (st : List (Nat × List Byte)) :
    ∃ out, (s.engRetire g pair r st).eng g = ((s.eng g).retired r st).settled out := by
  unfold State.engRetire Engine.retired
  dsimp only
  split
  · rename_i e; rw [State.engBoundary_eng, retire_count_eng, State.eng_updEng, State.lmStore_eng]; first | exact ⟨_, rfl⟩ | (simp only [e]; exact ⟨_, rfl⟩)
  · rename_i e; rw [State.engBoundary_eng, retire_count_eng, State.eng_updEng, State.lmStore_eng]; first | exact ⟨_, rfl⟩ | (simp only [e]; exact ⟨_, rfl⟩)
  · rename_i e; refine ⟨false, ?_⟩; rw [State.eng_updEng]; first | rfl | (simp only [e]; rfl)
  · rename_i e; rw [State.engBoundary_eng, retire_count_eng, State.eng_updEng, State.lmStore_eng]; first | exact ⟨_, rfl⟩ | (simp only [e]; exact ⟨_, rfl⟩)

/-! ### Issuing a word -/

/-- Where the decoders show nothing, a word that does not fault leaves the error log alone. -/
theorem State.engEcc_clean (s : State) (g : Nat) (words : List Nat) : s.engEcc g [] words none = s := by
  unfold State.engEcc
  dsimp only
  induction words with
  | nil => rfl
  | cons a rest ih => exact ih

/-- A word that may issue, whose fetch the decoders let pass, and that does not fault does what its operands say. -/
theorem State.engIssue_apply {s : State} {g : Nat} {k : WordKind} {pair : Bool} {op : EngRegs → OpRes} {after : State → State}
    {reads : EngRegs → List Nat} {seen : LmSeen} {res : OpRes} (h : s.issues g k) (hop : op (s.eng g).r = res)
    (hf : ∀ f keep, res ≠ .fault f keep) (fetch : s.fetchFault g seen = none) (he : s.engEcc g seen (reads (s.eng g).r) none = s) :
    s.engIssue g k pair op after seen reads = after (s.engApply g pair res) := by
  obtain ⟨ready, due, place, -⟩ := h
  have run : (s.eng g).state = .running := by
    simp only [State.engReady, Bool.and_eq_true, beq_iff_eq] at ready; exact ready.1.1.1
  unfold State.engIssue
  simp only [ready, Bool.not_true, Bool.false_eq_true, if_false, hop, fetch, place, worst, he, run, bne_self_eq_false]
  split
  · rename_i c
    simp only [Bool.and_eq_true] at c
    rw [due c.1] at c
    simp at c
  · rfl

/-- A word that may issue and that its operands do not fault retires with what it computes. -/
theorem State.engIssue_ok {s : State} {g : Nat} {k : WordKind} {pair : Bool} {op : EngRegs → OpRes} {after : State → State}
    {reads : EngRegs → List Nat} {r : EngRegs} {st : List (Nat × List Byte)} (h : s.issues g k) (hop : op (s.eng g).r = .ok r st) :
    s.engIssue g k pair op after [] reads = after (s.engRetire g pair r st) :=
  State.engIssue_apply h hop (fun _ _ => by simp) h.2.2.2 (s.engEcc_clean g _)

/-- A word that may issue and faults by itself takes its fault, once the poison that it may have met is accounted for. -/
theorem State.engIssue_fault {s : State} {g : Nat} {k : WordKind} {pair : Bool} {op : EngRegs → OpRes} {after : State → State}
    {reads : EngRegs → List Nat} {f : EFault} {keep : EngRegs} (h : s.issues g k) (hop : op (s.eng g).r = .fault f keep)
    (run : ((s.engEcc g [] (reads (s.eng g).r) (some f)).eng g).state = .running) :
    s.engIssue g k pair op after [] reads = (s.engEcc g [] (reads (s.eng g).r) (some f)).engFault g keep f := by
  obtain ⟨ready, due, place, fetch⟩ := h
  unfold State.engIssue
  simp only [ready, Bool.not_true, Bool.false_eq_true, if_false, hop, fetch, place, worst, run, bne_self_eq_false, if_true]
  split
  · rename_i c
    simp only [Bool.and_eq_true] at c
    rw [due c.1] at c
    simp at c
  · rfl

/-! ### Register words -/

theorem EngRegs.get_put (r : EngRegs) (d k : Nat) (x : Word) (hd : d < 16) (hk : k < 16) :
    (r.put d x).get k = if k = d ∧ d ≠ 0 then x else r.get k := by
  unfold EngRegs.put EngRegs.get
  rw [Nat.mod_eq_of_lt hd, Nat.mod_eq_of_lt hk]
  by_cases d0 : d = 0
  · simp [d0]
  · simp only [d0, if_false, ne_eq, not_false_eq_true, and_true]
    by_cases k0 : k = 0
    · simp [k0, Ne.symm d0]
    · simp only [k0, if_false]
      by_cases e : k = d
      · subst e; simp only [if_true]; exact vget_vset_same _ _ _
      · rw [if_neg e]; exact vget_vset_ne _ _ _ _ (by rw [Nat.mod_eq_of_lt hd, Nat.mod_eq_of_lt hk]; exact e)

theorem EngRegs.vec_putVec (r : EngRegs) (d k : Nat) (x : Vector Word 16) (hd : d < 4) (hk : k < 4) :
    (r.putVec d x).vec k = if k = d then x else r.vec k := by
  unfold EngRegs.putVec EngRegs.vec
  by_cases e : k = d
  · subst e; rw [if_pos rfl]; exact vget_vset_same _ _ _
  · rw [if_neg e]; exact vget_vset_ne _ _ _ _ (by rw [Nat.mod_eq_of_lt hd, Nat.mod_eq_of_lt hk]; exact e)

/-- A word that stores nothing keeps its frame. -/
theorem wordFrame_retire (s : State) (g : Nat) (pair : Bool) (r : EngRegs) (h : (s.eng g).r.mode = r.mode ∧ (s.eng g).r.estat = r.estat ∧
    (s.eng g).r.epc = r.epc ∧ (s.eng g).r.ecause = r.ecause ∧ (s.eng g).r.eaddr = r.eaddr ∧ (s.eng g).r.ien = r.ien ∧
    (s.eng g).r.fpctrl = r.fpctrl ∧ (s.eng g).r.scr = r.scr) : wordFrame s (s.engRetire g pair r []) g := by
  refine ⟨⟨fun x ne => State.engRetire_ne _ _ _ _ _ _ ne, fun f hf => State.engRetire_get _ _ _ _ _ _ hf⟩, fun al => ?_⟩
  obtain ⟨m, _, _, a3, a4, a5, a6, a7, a8, a9, _, a11⟩ := State.engRetire_alone s g pair r [] al
  obtain ⟨b1, b2, b3, b4, b5, b6, b7, b8⟩ := h
  refine ⟨fun a => by rw [m a, State.lmStore_nil], ?_⟩
  unfold sameSpecial
  exact ⟨a3.trans b1.symm, a4.trans b2.symm, a5.trans b3.symm, a6.trans b4.symm, a7.trans b5.symm, a8.trans b6.symm, a9.trans b7.symm,
    a11.trans b8.symm⟩

/-- A word that writes one general register. -/
theorem writes_of {s : State} {c : Instr} {k : WordKind} {g d : Nat} {v : Word} {op : EngRegs → OpRes} {pair : Bool} {reads : EngRegs → List Nat}
    (he : exec c s = .next (s.engIssue g k pair op (reads := reads))) (h : s.issues g k) (hop : op (s.eng g).r = .ok ((s.eng g).r.put d v) [])
    (hd : d < 16) : Writes s c g d v := by
  refine ⟨_, he, ?_⟩
  rw [State.engIssue_ok h hop]
  obtain ⟨hw, hv, _⟩ := State.engRetire_wv s g pair ((s.eng g).r.put d v) []
  refine ⟨fun k hk => ?_, fun k => ?_, wordFrame_retire _ _ _ _ ?_⟩
  · rw [← EngRegs.get_put _ _ _ _ hd hk]; unfold EngRegs.get; rw [id, hw]
  · unfold EngRegs.vec; rw [id, hv]; unfold EngRegs.put; split <;> rfl
  · unfold EngRegs.put; split <;> exact ⟨rfl, rfl, rfl, rfl, rfl, rfl, rfl, rfl⟩

/-- A word that writes one vector register, and perhaps FPSTAT. -/
theorem writesVec_of {s : State} {c : Instr} {k : WordKind} {g d : Nat} {v : Vector Word 16} {op : EngRegs → OpRes} {pair : Bool}
    {reads : EngRegs → List Nat} {r : EngRegs}
    (he : exec c s = .next (s.engIssue g k pair op (reads := reads))) (h : s.issues g k) (hop : op (s.eng g).r = .ok (r.putVec d v) [])
    (hr : ∃ n m, r = { (s.eng g).r with fpstat := n, gdone := m }) (hd : d < 4) : WritesVec s c g d v := by
  obtain ⟨n, m, rfl⟩ := hr
  refine ⟨_, he, ?_⟩
  rw [State.engIssue_ok h hop]
  obtain ⟨hw, hv, _⟩ := State.engRetire_wv s g pair (EngRegs.putVec { (s.eng g).r with fpstat := n, gdone := m } d v) []
  refine ⟨fun k hk => ?_, fun k => ?_, wordFrame_retire _ _ _ _ ⟨rfl, rfl, rfl, rfl, rfl, rfl, rfl, rfl⟩⟩
  · rw [show (s.eng g).r.vec k = EngRegs.vec { (s.eng g).r with fpstat := n, gdone := m } k from rfl, ← EngRegs.vec_putVec _ _ _ _ hd hk]
    unfold EngRegs.vec; rw [id, hv]
  · unfold EngRegs.get; rw [id, hw]; rfl

/-! ### Pair words -/

/-- A short operation that may stand in the word with the other: both slots write, from the registers as they stood before. -/
theorem State.engShort_ok {s : State} {g opc sub d b : Nat} {inB : Bool} {other : BitVec 15} (h : s.issues g .plain)
    (hres : ShortOp.reserved ⟨opc, d, b, sub⟩ = false) (hf : s.shortFault g ⟨opc, d, b, sub⟩ (s.eng g).r inB = none)
    (hp : s.pairs g inB ⟨opc, d, b, sub⟩ (ShortOp.ofBits other.toNat)) :
    let o : ShortOp := ⟨opc, d, b, sub⟩
    let p := ShortOp.ofBits other.toNat
    let r := (s.eng g).r
    s.engShort g opc sub inB d b other false = if inB
      then s.engRetire g true (s.shortPut g o r (s.shortPut g p r r)) (p.stores r ++ o.stores r)
      else s.engRetire g true (s.shortPut g p r (s.shortPut g o r r)) (o.stores r ++ p.stores r) := by
  intro o p r
  obtain ⟨h1, h2, h3⟩ := hp
  unfold State.engShort
  dsimp only
  cases inB with
  | true =>
    refine (State.engIssue_ok h ?_ : _ = id (s.engRetire g true _ _))
    simp only [if_true, Bool.not_true] at *
    simp only [State.pairOp, hres, h1, h2, h3, hf, faultIf, worst, Bool.or_false, Bool.false_eq_true, if_false]
    rfl
  | false =>
    refine (State.engIssue_ok h ?_ : _ = id (s.engRetire g true _ _))
    simp only [Bool.false_eq_true, if_false, Bool.not_false] at *
    simp only [State.pairOp, hres, h1, h2, h3, hf, faultIf, worst, Bool.or_false, Bool.false_eq_true, if_false]
    rfl

theorem ShortOp.writes_mem (o : ShortOp) (k : Nat) (h : k ∈ o.writes) : k = o.d ∧ o.d ≠ 0 := by
  unfold ShortOp.writes at h
  split at h
  · cases h
  · rename_i c
    simp only [Bool.or_eq_true, decide_eq_true_eq, not_or] at c
    exact ⟨List.mem_singleton.mp h, c.2⟩

theorem State.shortPut_get (s : State) (g : Nat) (o : ShortOp) (old r : EngRegs) (k : Nat) (hd : o.d < 16) (hk : k < 16) :
    (s.shortPut g o old r).get k = if k ∈ o.writes then s.shortValue g o old else r.get k := by
  unfold State.shortPut
  split
  · rename_i c
    rw [List.isEmpty_iff] at c
    simp [c]
  · rename_i c
    rw [EngRegs.get_put _ _ _ _ hd hk]
    have e : o.writes = [o.d] := by
      unfold ShortOp.writes at *
      split
      · rename_i c'; simp [c'] at c
      · rfl
    have n : o.d ≠ 0 := (o.writes_mem o.d (by rw [e]; exact List.mem_singleton.mpr rfl)).2
    rw [e]
    simp [n]

theorem State.shortPut_rest (s : State) (g : Nat) (o : ShortOp) (old r : EngRegs) : ∃ w, s.shortPut g o old r = { r with w := w } := by
  unfold State.shortPut EngRegs.put
  split
  · exact ⟨r.w, rfl⟩
  · split
    · exact ⟨r.w, rfl⟩
    · exact ⟨_, rfl⟩

theorem ShortOp.ofBits_d (v : Nat) : (ShortOp.ofBits v).d < 16 := by
  unfold ShortOp.ofBits bits; exact Nat.mod_lt _ (by decide)

/-- A pair word's registers, and its frame where neither slot stores. -/
theorem pair_result {s : State} {c : Instr} {g opc sub d b : Nat} {inB : Bool} {other : BitVec 15} {v : Word}
    (he : exec c s = .next (s.engShort g opc sub inB d b other false)) (h : s.issues g .plain)
    (hres : ShortOp.reserved ⟨opc, d, b, sub⟩ = false) (hf : s.shortFault g ⟨opc, d, b, sub⟩ (s.eng g).r inB = none)
    (hv : opc = 0 ∨ opc = 10 ∨ s.shortValue g ⟨opc, d, b, sub⟩ (s.eng g).r = v) (hd : d < 16) :
    s.pairs g inB ⟨opc, d, b, sub⟩ (ShortOp.ofBits other.toNat) →
    Leads s c fun t =>
      (∀ k : Nat, k < 16 → (t.eng g).r.get k = if k ∈ ShortOp.writes ⟨opc, d, b, sub⟩ then v
        else if k ∈ (ShortOp.ofBits other.toNat).writes then s.shortValue g (ShortOp.ofBits other.toNat) (s.eng g).r else (s.eng g).r.get k) ∧
      sameVecs s t g ∧ onlyEngine s t g ∧ (opc ≠ 10 → (ShortOp.ofBits other.toNat).opc ≠ 10 → wordFrame s t g) := by
  intro hp
  refine ⟨_, he, ?_⟩
  have e := State.engShort_ok h hres hf hp
  dsimp only at e
  rw [e]
  set o : ShortOp := ⟨opc, d, b, sub⟩
  set p := ShortOp.ofBits other.toNat
  set r := (s.eng g).r
  have hc := hp.2.1
  -- no register is written by both slots
  have once : ∀ k, k ∈ o.writes → k ∈ p.writes → False := by
    intro k ho hp'
    have e1 := (o.writes_mem k ho)
    have e2 := (p.writes_mem k hp')
    cases inB
    · simp only [Bool.false_eq_true, if_false, pairConflict, Bool.or_eq_false_iff, List.any_eq_false] at hc
      have := hc.1.1.1 k ho
      simp [hp'] at this
    · simp only [if_true, pairConflict, Bool.or_eq_false_iff, List.any_eq_false] at hc
      have := hc.1.1.1 k hp'
      simp [ho] at this
  have val : ∀ k, k ∈ o.writes → s.shortValue g o r = v := by
    intro k hk
    rcases hv with h0 | h0 | h0
    · simp [o, ShortOp.writes, h0] at hk
    · simp [o, ShortOp.writes, h0] at hk
    · exact h0
  have pd : p.d < 16 := ShortOp.ofBits_d _
  have nost : opc ≠ 10 → p.opc ≠ 10 → o.stores r ++ p.stores r = [] ∧ p.stores r ++ o.stores r = [] := by
    intro a b; simp [ShortOp.stores, o, a, b]
  have main : ∀ (q : EngRegs) (st : List (Nat × List Byte)),
      (∃ w, q = { r with w := w }) →
      (∀ k : Nat, k < 16 → q.get k = if k ∈ o.writes then v else if k ∈ p.writes then s.shortValue g p r else r.get k) →
      (opc ≠ 10 → p.opc ≠ 10 → st = []) →
      (∀ k : Nat, k < 16 → ((s.engRetire g true q st).eng g).r.get k =
        if k ∈ o.writes then v else if k ∈ p.writes then s.shortValue g p r else r.get k) ∧
      sameVecs s (s.engRetire g true q st) g ∧ onlyEngine s (s.engRetire g true q st) g ∧
      (opc ≠ 10 → p.opc ≠ 10 → wordFrame s (s.engRetire g true q st) g) := by
    rintro q st ⟨w, rfl⟩ hq hst
    obtain ⟨hw, hv', _⟩ := State.engRetire_wv s g true { r with w := w } st
    refine ⟨fun k hk => ?_, fun k => ?_, ⟨fun x ne => State.engRetire_ne _ _ _ _ _ _ ne, fun f hf => State.engRetire_get _ _ _ _ _ _ hf⟩, fun a b => ?_⟩
    · rw [← hq k hk]; unfold EngRegs.get; rw [hw]
    · unfold EngRegs.vec; rw [hv']
    · rw [hst a b]; exact wordFrame_retire _ _ _ _ ⟨rfl, rfl, rfl, rfl, rfl, rfl, rfl, rfl⟩
  have rest2 : ∀ a b : ShortOp, ∃ w, s.shortPut g a r (s.shortPut g b r r) = { r with w := w } := by
    intro a b
    obtain ⟨w1, e1⟩ := s.shortPut_rest g b r r
    rw [e1]
    obtain ⟨w2, e2⟩ := s.shortPut_rest g a r { r with w := w1 }
    exact ⟨w2, e2⟩
  cases inB with
  | true =>
    simp only [if_true]
    refine main _ _ (rest2 _ _) (fun k hk => ?_) fun a b => (nost a b).2
    rw [State.shortPut_get _ _ _ _ _ _ hd hk, State.shortPut_get _ _ _ _ _ _ pd hk]
    by_cases c : k ∈ o.writes
    · rw [if_pos c, if_pos c, val k c]
    · rw [if_neg c, if_neg c]
  | false =>
    simp only [Bool.false_eq_true, if_false]
    refine main _ _ (rest2 _ _) (fun k hk => ?_) fun a b => (nost a b).1
    rw [State.shortPut_get _ _ _ _ _ _ pd hk, State.shortPut_get _ _ _ _ _ _ hd hk]
    by_cases c : k ∈ o.writes
    · rw [if_pos c, if_pos c, val k c, if_neg fun x => once k c x]
    · rw [if_neg c, if_neg c]

end Sys2Proof.Machine
end

