-- ==== Sys2Proof/Laws/Errors.lean ====
section
/-! SUPPORT. Laws/Errors.lean: what logging an error may change where its class cannot escalate. -/

set_option Elab.async false

namespace Sys2Proof.Machine

open Sys2Proof

/-- The log, the black box, the counters and the unit's flags, and pending bits of sources. -/
def mildFoot : Foot := ⟨0x200000c, 0x1800000000000000000000000001dd00000000000000000000000000000000000000000000000000000000000000000000000000000000000000000000000000000000001000000000000000000⟩

/-- A class of severity below 3 never escalates (R417, Table 14.2). -/
theorem State.logErr_mild {p : Foot} {s0 s : State} {e : ErrIn} (hs : severity e.cls ≠ 3) (hp : mildFoot.le p) (h0 : Follows p s0 s) :
    Follows p s0 (s.logErr e) := by
  unfold State.logErr
  simp only [hs, decide_false, Bool.false_and, Bool.false_eq_true, if_false]
  refine Follows.ite ?_ (Follows.ite ?_ ?_)
  · refine State.bump_follows 508 hp ?_
    refine State.set_follows 507 hp ?_
    exact State.bump_follows 504 hp h0
  · refine State.writeRecord_follows (hp.sub rfl) ?_
    refine State.set_follows 506 hp ?_
    exact State.bump_follows 504 hp h0
  · refine State.limited_follows (hp.sub rfl) ?_
    exact State.bump_follows 504 hp h0

theorem State.logErr_is (s : State) (e : ErrIn) (hs : severity e.cls ≠ 3) : Follows mildFoot s (s.logErr e) :=
  State.logErr_mild hs (Foot.le_refl _) (Follows.refl _ _)

end Sys2Proof.Machine
end

