-- ==== Sys2Proof/Laws/FootLinks.lean ====
section
/-! SUPPORT. Laws/FootLinks.lean: one footprint and one lemma for each operation of
the links, the pontoon, the update and the tick (Laws/Follows.lean). -/

set_option Elab.async false

namespace Sys2Proof.Machine

open Sys2Proof

set_option maxRecDepth 20000

/-! ### Machine/Links.lean -/

def State.linkRecord_foot : Foot := ⟨0x1fffffff, 0x0⟩

theorem State.linkRecord_follows {p s0} {a0} {a1} {a2} (hp : Foot.le State.linkRecord_foot p) (h0 : Follows p s0 a0) :
    Follows p s0 (State.linkRecord (a0) (a1) (a2)) := by
  unfold State.linkRecord
  refine State.logHw_follows (hp.sub rfl) ?_
  with_reducible assumption

def State.flitReceive_foot : Foot := ⟨0x4200000, 0xe808800000000000000000000004000000000000000000000000000000000000000000000000000000000000000000000000000000000000001000000000000000000⟩

theorem State.flitReceive_follows {p s0} {a0} {a1} {a2} {a3} {a4} {a5} {a6} (hp : Foot.le State.flitReceive_foot p) (h0 : Follows p s0 a0) :
    Follows p s0 (State.flitReceive (a0) (a1) (a2) (a3) (a4) (a5) (a6)) := by
  unfold State.flitReceive
  refine Follows.ite ?_ ?_
  · with_reducible assumption
  · extract_lets y0 y1 y2
    have k3 : Follows p s0 y0 := by
      subst y0
      refine State.pmcAt_follows (hp.sub rfl) ?_
      refine State.add_follows 422 hp ?_
      refine State.add_follows 422 hp ?_
      with_reducible assumption
    clear_value y0
    clear_value y1
    have k4 : Follows p s0 y2 := by
      subst y2
      refine Follows.ite ?_ ?_
      · with_reducible assumption
      · refine State.bump_follows 422 hp ?_
        with_reducible assumption
    clear_value y2
    refine Follows.ite ?_ ?_
    · refine State.pmcAt_follows (hp.sub rfl) ?_
      refine State.updLink_follows (hp.sub rfl) ?_
      with_reducible assumption
    · refine Follows.ite ?_ ?_
      · refine State.updLink_follows (hp.sub rfl) ?_
        with_reducible assumption
      · with_reducible assumption

def State.ackReceive_foot : Foot := ⟨0x4200000, 0xe808800000000000000000000000000000000000000000000000000000000000000000000000000000000000000000000000000000000000001000000000000000000⟩

theorem State.ackReceive_follows {p s0} {a0} {a1} {a2} {a3} (hp : Foot.le State.ackReceive_foot p) (h0 : Follows p s0 a0) :
    Follows p s0 (State.ackReceive (a0) (a1) (a2) (a3)) := by
  unfold State.ackReceive
  refine Follows.ite ?_ ?_
  · with_reducible assumption
  · refine State.linkPump_follows (hp.sub rfl) ?_
    refine State.updLink_follows (hp.sub rfl) ?_
    with_reducible assumption

def State.nakReceive_foot : Foot := ⟨0x4200000, 0xe808800000000000000000000004000000000000000000000000000000000000000000000000000000000000000000000000000000000000001000000000000000000⟩

theorem State.nakReceive_follows {p s0} {a0} {a1} {a2} {a3} (hp : Foot.le State.nakReceive_foot p) (h0 : Follows p s0 a0) :
    Follows p s0 (State.nakReceive (a0) (a1) (a2) (a3)) := by
  unfold State.nakReceive
  refine Follows.ite ?_ ?_
  · with_reducible assumption
  · extract_lets y0
    have k1 : Follows p s0 y0 := by
      subst y0
      refine State.bump_follows 422 hp ?_
      refine State.updLink_follows (hp.sub rfl) ?_
      with_reducible assumption
    clear_value y0
    refine State.linkPump_follows (hp.sub rfl) ?_
    refine State.pmc_follows (hp.sub rfl) ?_
    with_reducible assumption

def State.retrainStart_foot : Foot := ⟨0x1fffffff, 0x0⟩

theorem State.retrainStart_follows {p s0} {a0} {a1} (hp : Foot.le State.retrainStart_foot p) (h0 : Follows p s0 a0) :
    Follows p s0 (State.retrainStart (a0) (a1)) := by
  unfold State.retrainStart
  refine Follows.ite ?_ ?_
  · with_reducible assumption
  · extract_lets y0
    have k1 : Follows p s0 y0 := by
      subst y0
      refine State.bump_follows 422 hp ?_
      refine State.updLink_follows (hp.sub rfl) ?_
      with_reducible assumption
    clear_value y0
    refine State.refreshSerdes_follows (hp.sub rfl) ?_
    refine State.linkRecord_follows (hp.sub rfl) ?_
    with_reducible assumption

def State.fenceHeard_foot : Foot := ⟨0x1fffffff, 0x0⟩

theorem State.fenceHeard_follows {p s0} {a0} {a1} {a2} (hp : Foot.le State.fenceHeard_foot p) (h0 : Follows p s0 a0) :
    Follows p s0 (State.fenceHeard (a0) (a1) (a2)) := by
  unfold State.fenceHeard
  extract_lets y0 y1 y2 y3 y4 y5
  clear_value y0
  clear_value y1
  clear_value y2
  clear_value y3
  clear_value y4
  have k6 : Follows p s0 y5 := by
    subst y5
    refine State.updLink_follows (hp.sub rfl) ?_
    with_reducible assumption
  clear_value y5
  refine State.settleFences_follows (hp.sub rfl) ?_
  with_reducible assumption

def State.ownEnd_foot : Foot := ⟨0x1fffffff, 0x0⟩

theorem State.ownEnd_follows {p s0} {a0} {a1} {a2} {a3} {a4} (hp : Foot.le State.ownEnd_foot p) (h0 : Follows p s0 a0) :
    Follows p s0 (State.ownEnd (a0) (a1) (a2) (a3) (a4)) := by
  unfold State.ownEnd
  split
  · with_reducible assumption
  · extract_lets y6
    have k7 : Follows p s0 y6 := by
      subst y6
      refine State.updLink_follows (hp.sub rfl) ?_
      with_reducible assumption
    clear_value y6
    split
    · refine Follows.ite ?_ ?_
      · refine State.fenceHeard_follows (hp.sub rfl) ?_
        with_reducible assumption
      · refine State.settleFences_follows (hp.sub rfl) ?_
        with_reducible assumption
    · refine State.finish_follows (hp.sub rfl) ?_
      with_reducible assumption
    · refine State.finish_follows (hp.sub rfl) ?_
      with_reducible assumption
    · refine State.finish_follows (hp.sub rfl) ?_
      with_reducible assumption
    · refine State.finish_follows (hp.sub rfl) ?_
      with_reducible assumption
    · refine State.finish_follows (hp.sub rfl) ?_
      with_reducible assumption

def State.dropOwn_foot : Foot := ⟨0x1fffffff, 0x0⟩

theorem State.dropOwn_follows {p s0} {a0} {a1} (hp : Foot.le State.dropOwn_foot p) (h0 : Follows p s0 a0) :
    Follows p s0 (State.dropOwn (a0) (a1)) := by
  unfold State.dropOwn
  extract_lets y0 y1 y2 y3 y4 y5
  clear_value y0
  clear_value y1
  clear_value y2
  clear_value y3
  have k6 : Follows p s0 y4 := by
    subst y4
    refine State.updLink_follows (hp.sub rfl) ?_
    with_reducible assumption
  clear_value y4
  have k7 : Follows p s0 y5 := by
    subst y5
    refine Follows.foldl ?_ ?_
    · intro x8 x9 x10
      refine State.ownEnd_follows (hp.sub rfl) ?_
      with_reducible assumption
    · with_reducible assumption
  clear_value y5
  refine State.settleFences_follows (hp.sub rfl) ?_
  refine Follows.foldl ?_ ?_
  · intro x11 x12 x13
    refine State.finish_follows (hp.sub rfl) ?_
    with_reducible assumption
  · with_reducible assumption

def State.peerLate_foot : Foot := ⟨0x1fffffff, 0x0⟩

theorem State.peerLate_follows {p s0} {a0} {a1} {a2} {a3} (hp : Foot.le State.peerLate_foot p) (h0 : Follows p s0 a0) :
    Follows p s0 (State.peerLate (a0) (a1) (a2) (a3)) := by
  unfold State.peerLate
  extract_lets y0 y1 y2 y3 y4 y5 y6
  clear_value y0
  clear_value y1
  clear_value y2
  clear_value y3
  clear_value y4
  have k7 : Follows p s0 y5 := by
    subst y5
    refine State.updLink_follows (hp.sub rfl) ?_
    with_reducible assumption
  clear_value y5
  have k8 : Follows p s0 y6 := by
    subst y6
    split
    · refine State.finish_follows (hp.sub rfl) ?_
      with_reducible assumption
    · with_reducible assumption
  clear_value y6
  refine State.settleFences_follows (hp.sub rfl) ?_
  with_reducible assumption

def State.lateReceive_foot : Foot := ⟨0x1fffffff, 0x0⟩

theorem State.lateReceive_follows {p s0} {a0} {a1} {a2} {a3} {a4} (hp : Foot.le State.lateReceive_foot p) (h0 : Follows p s0 a0) :
    Follows p s0 (State.lateReceive (a0) (a1) (a2) (a3) (a4)) := by
  unfold State.lateReceive
  refine Follows.ite ?_ ?_
  · with_reducible assumption
  · extract_lets y0
    have k1 : Follows p s0 y0 := by
      subst y0
      refine State.logLate_follows (hp.sub rfl) ?_
      with_reducible assumption
    clear_value y0
    refine Follows.ite ?_ ?_
    · with_reducible assumption
    · refine State.peerLate_follows (hp.sub rfl) ?_
      with_reducible assumption

def State.lateSend_foot : Foot := ⟨0x4200000, 0xe808800000000000000000000000000000000000000000000000000000000000000000000000000000000000000000000000000000000000001000000000000000000⟩

theorem State.lateSend_follows {p s0} {a0} {a1} (hp : Foot.le State.lateSend_foot p) (h0 : Follows p s0 a0) :
    Follows p s0 (State.lateSend (a0) (a1)) := by
  unfold State.lateSend
  split
  · with_reducible assumption
  · extract_lets y5 y6
    clear_value y5
    clear_value y6
    refine Follows.ite ?_ ?_
    · with_reducible assumption
    · refine State.linkSend_follows (hp.sub rfl) ?_
      refine Follows.update hp ?_ rfl rfl
      with_reducible assumption

def State.discardQueued_foot : Foot := ⟨0x200000, 0x0⟩

theorem State.discardQueued_follows {p s0} {a0} {a1} (hp : Foot.le State.discardQueued_foot p) (h0 : Follows p s0 a0) :
    Follows p s0 (State.discardQueued (a0) (a1)) := by
  unfold State.discardQueued
  extract_lets y0 y1 y2
  clear_value y0
  clear_value y1
  have k3 : Follows p s0 y2 := by
    subst y2
    refine Follows.update hp ?_ rfl rfl
    with_reducible assumption
  clear_value y2
  refine State.updLink_follows (hp.sub rfl) ?_
  with_reducible assumption

def State.resumeRequests_foot : Foot := ⟨0x1fffffff, 0x0⟩

theorem State.resumeRequests_follows {p s0} {a0} {a1} {a2} (hp : Foot.le State.resumeRequests_foot p) (h0 : Follows p s0 a0) :
    Follows p s0 (State.resumeRequests (a0) (a1) (a2)) := by
  unfold State.resumeRequests
  extract_lets y0 y1 y2 y3 y4 y5
  clear_value y0
  clear_value y1
  clear_value y2
  have k6 : Follows p s0 y3 := by
    subst y3
    refine Follows.update hp ?_ rfl rfl
    with_reducible assumption
  clear_value y3
  have k7 : Follows p s0 y4 := by
    subst y4
    refine State.updLink_follows (hp.sub rfl) ?_
    with_reducible assumption
  clear_value y4
  have k8 : Follows p s0 y5 := by
    subst y5
    refine Follows.foldl ?_ ?_
    · intro x9 x10 x11
      refine State.linkSend_follows (hp.sub rfl) ?_
      with_reducible assumption
    · refine State.discardQueued_follows (hp.sub rfl) ?_
      with_reducible assumption
  clear_value y5
  refine Follows.foldl ?_ ?_
  · intro x12 x13 x14
    refine State.ownEnd_follows (hp.sub rfl) ?_
    with_reducible assumption
  · with_reducible assumption

def State.freshRequests_foot : Foot := ⟨0x1fffffff, 0x0⟩

theorem State.freshRequests_follows {p s0} {a0} {a1} (hp : Foot.le State.freshRequests_foot p) (h0 : Follows p s0 a0) :
    Follows p s0 (State.freshRequests (a0) (a1)) := by
  unfold State.freshRequests
  extract_lets y0 y1 y2 y3 y4 y5 y6 y7 y8 y9
  clear_value y0
  clear_value y1
  have k10 : Follows p s0 y2 := by
    subst y2
    refine Follows.update hp ?_ rfl rfl
    with_reducible assumption
  clear_value y2
  clear_value y3
  have k11 : Follows p s0 y4 := by
    subst y4
    refine State.updLink_follows (hp.sub rfl) ?_
    with_reducible assumption
  clear_value y4
  have k12 : Follows p s0 y5 := by
    subst y5
    refine Follows.foldl ?_ ?_
    · intro x13 x14 x15
      refine Follows.ite ?_ ?_
      · with_reducible assumption
      · refine State.unvote_follows (hp.sub rfl) ?_
        with_reducible assumption
    · with_reducible assumption
  clear_value y5
  have k16 : Follows p s0 y6 := by
    subst y6
    refine State.updLink_follows (hp.sub rfl) ?_
    refine State.dropOwn_follows (hp.sub rfl) ?_
    with_reducible assumption
  clear_value y6
  have k17 : Follows p s0 y7 := by
    subst y7
    refine Follows.forAll ?_ ?_
    · intro x18 x19 x20
      refine State.set_follows 434 hp ?_
      with_reducible assumption
    · with_reducible assumption
  clear_value y7
  clear_value y8
  clear_value y9
  refine Follows.ite ?_ ?_
  · with_reducible assumption
  · refine Follows.update hp ?_ rfl rfl
    with_reducible assumption

def State.sendReady_foot : Foot := ⟨0x620004c, 0x1800000000000000000000e808800000000000000000000000000000000000000000000000000000000000000000000000000000000000000000000000000000000000001000000000000000000⟩

theorem State.sendReady_follows {p s0} {a0} (hp : Foot.le State.sendReady_foot p) (h0 : Follows p s0 a0) :
    Follows p s0 (State.sendReady (a0)) := by
  unfold State.sendReady
  refine Follows.ite ?_ ?_
  · with_reducible assumption
  · extract_lets y0 y1
    clear_value y0
    have k2 : Follows p s0 y1 := by
      subst y1
      refine Follows.update hp ?_ rfl rfl
      with_reducible assumption
    clear_value y1
    refine State.bootRecord_follows (hp.sub rfl) ?_
    refine State.linkSend_follows (hp.sub rfl) ?_
    with_reducible assumption

def State.vectorsAgain_foot : Foot := ⟨0x80020, 0x4000000⟩

theorem State.vectorsAgain_follows {p s0} {a0} (hp : Foot.le State.vectorsAgain_foot p) (h0 : Follows p s0 a0) :
    Follows p s0 (State.vectorsAgain (a0)) := by
  unfold State.vectorsAgain
  extract_lets y0
  clear_value y0
  refine State.queueVectors_follows (hp.sub rfl) ?_
  with_reducible assumption

def State.trainReports_foot : Foot := ⟨0x1fffffff, 0x0⟩

theorem State.trainReports_follows {p s0} {a0} {a1} {a2} {a3} {a4} (hp : Foot.le State.trainReports_foot p) (h0 : Follows p s0 a0) :
    Follows p s0 (State.trainReports (a0) (a1) (a2) (a3) (a4)) := by
  unfold State.trainReports
  extract_lets y0 y1
  have k2 : Follows p s0 y0 := by
    subst y0
    refine Follows.ite ?_ ?_
    · refine State.set_follows 421 hp ?_
      refine State.set_follows 420 hp ?_
      with_reducible assumption
    · refine State.setPeer_follows (hp.sub rfl) ?_
      refine State.set_follows 450 hp ?_
      with_reducible assumption
  clear_value y0
  have k3 : Follows p s0 y1 := by
    subst y1
    refine Follows.ite ?_ ?_
    · refine State.fire_follows (hp.sub rfl) ?_
      refine State.linkRecord_follows (hp.sub rfl) ?_
      with_reducible assumption
    · with_reducible assumption
  clear_value y1
  refine Follows.ite ?_ ?_
  · refine State.fire_follows (hp.sub rfl) ?_
    with_reducible assumption
  · with_reducible assumption

def State.linkTrained_foot : Foot := ⟨0x1fffffff, 0x0⟩

theorem State.linkTrained_follows {p s0} {a0} {a1} {a2} (hp : Foot.le State.linkTrained_foot p) (h0 : Follows p s0 a0) :
    Follows p s0 (State.linkTrained (a0) (a1) (a2)) := by
  unfold State.linkTrained
  extract_lets y0 y1 y2 y3
  clear_value y0
  clear_value y1
  clear_value y2
  clear_value y3
  refine Follows.ite ?_ ?_
  · with_reducible assumption
  · refine Follows.ite ?_ ?_
    · refine State.refreshSerdes_follows (hp.sub rfl) ?_
      refine State.setPeer_follows (hp.sub rfl) ?_
      refine State.updLink_follows (hp.sub rfl) ?_
      with_reducible assumption
    · split
      · with_reducible assumption
      · extract_lets y9 y10 y11 y12
        have k13 : Follows p s0 y9 := by
          subst y9
          refine State.trainReports_follows (hp.sub rfl) ?_
          with_reducible assumption
        clear_value y9
        have k14 : Follows p s0 y10 := by
          subst y10
          refine Follows.ite ?_ ?_
          · refine State.resumeRequests_follows (hp.sub rfl) ?_
            refine State.updLink_follows (hp.sub rfl) ?_
            with_reducible assumption
          · refine State.linkRecord_follows (hp.sub rfl) ?_
            refine State.updLink_follows (hp.sub rfl) ?_
            refine State.freshRequests_follows (hp.sub rfl) ?_
            with_reducible assumption
        clear_value y10
        have k15 : Follows p s0 y11 := by
          subst y11
          refine State.linkPump_follows (hp.sub rfl) ?_
          refine State.updLink_follows (hp.sub rfl) ?_
          with_reducible assumption
        clear_value y11
        have k16 : Follows p s0 y12 := by
          subst y12
          refine Follows.ite ?_ ?_
          · refine State.vectorsAgain_follows (hp.sub rfl) ?_
            refine State.sendReady_follows (hp.sub rfl) ?_
            with_reducible assumption
          · with_reducible assumption
        clear_value y12
        refine State.settleCancels_follows (hp.sub rfl) ?_
        refine State.refreshSerdes_follows (hp.sub rfl) ?_
        with_reducible assumption

def State.refclkSeen_foot : Foot := ⟨0x20, 0x0⟩

theorem State.refclkSeen_follows {p s0} {a0} (hp : Foot.le State.refclkSeen_foot p) (h0 : Follows p s0 a0) :
    Follows p s0 (State.refclkSeen (a0)) := by
  unfold State.refclkSeen
  refine Follows.update hp ?_ rfl rfl
  with_reducible assumption

def State.newRequest_foot : Foot := ⟨0x200000, 0x0⟩

theorem State.newRequest_follows {p s0} {a0} {a1} {a2} {a3} (hp : Foot.le State.newRequest_foot p) (h0 : Follows p s0 a0) :
    Follows p s0 (State.newRequest (a0) (a1) (a2) (a3)).1 := by
  unfold State.newRequest
  extract_lets y0 y1 y2 y3
  clear_value y0
  clear_value y1
  clear_value y2
  have k4 : Follows p s0 y3 := by
    subst y3
    refine Follows.update hp ?_ rfl rfl
    with_reducible assumption
  clear_value y3
  refine Follows.pair ?_
  refine State.updLink_follows (hp.sub rfl) ?_
  with_reducible assumption

def State.openRequest_foot : Foot := ⟨0x4200000, 0xe808800000000000000000000000000000000000000000000000000000000000000000000000000000000000000000000000000000000000001000000000000000000⟩

theorem State.openRequest_follows {p s0} {a0} {a1} {a2} {a3} {a4} (hp : Foot.le State.openRequest_foot p) (h0 : Follows p s0 a0) :
    Follows p s0 (State.openRequest (a0) (a1) (a2) (a3) (a4)).1 := by
  unfold State.openRequest
  split
  · split
    · refine Follows.pair ?_
      refine State.linkSend_follows (hp.sub rfl) ?_
      refine State.updLink_follows (hp.sub rfl) ?_
      with_reducible assumption
    · refine Follows.pair ?_
      refine State.updLink_follows (hp.sub rfl) ?_
      with_reducible assumption
    · refine State.newRequest_follows (hp.sub rfl) ?_
      with_reducible assumption
  · refine State.newRequest_follows (hp.sub rfl) ?_
    with_reducible assumption

def State.badRequest_foot : Foot := ⟨0x4200000, 0xe808800000000000000000000004000000000000000000000000000000000000000000000000000000000000000000000000000000000000001000000000000000000⟩

theorem State.badRequest_follows {p s0} {a0} {a1} {a2} (hp : Foot.le State.badRequest_foot p) (h0 : Follows p s0 a0) :
    Follows p s0 (State.badRequest (a0) (a1) (a2)) := by
  unfold State.badRequest
  refine State.linkSend_follows (hp.sub rfl) ?_
  refine State.bump_follows 422 hp ?_
  with_reducible assumption

def State.rdReceive_foot : Foot := ⟨0x1fffffff, 0x0⟩

theorem State.rdReceive_follows {p s0} {a0} {a1} {a2} {a3} (hp : Foot.le State.rdReceive_foot p) (h0 : Follows p s0 a0) :
    Follows p s0 (State.rdReceive (a0) (a1) (a2) (a3)) := by
  unfold State.rdReceive
  refine Follows.ite ?_ ?_
  · with_reducible assumption
  · refine Follows.ite ?_ ?_
    · refine State.badRequest_follows (hp.sub rfl) ?_
      with_reducible assumption
    · split
      · rename_i z0 z1 z2 z3
        have k4 : Follows p s0 z1 := by
          refine Follows.fst_eq ?_ z3
          refine State.openRequest_follows (hp.sub rfl) ?_
          with_reducible assumption
        refine State.device_follows (hp.sub rfl) ?_
        with_reducible assumption
      · rename_i z5 z6 z7
        have k8 : Follows p s0 z6 := by
          refine Follows.fst_eq ?_ z7
          refine State.openRequest_follows (hp.sub rfl) ?_
          with_reducible assumption
        with_reducible assumption

def State.wrReceive_foot : Foot := ⟨0x1fffffff, 0x0⟩

theorem State.wrReceive_follows {p s0} {a0} {a1} {a2} {a3} (hp : Foot.le State.wrReceive_foot p) (h0 : Follows p s0 a0) :
    Follows p s0 (State.wrReceive (a0) (a1) (a2) (a3)) := by
  unfold State.wrReceive
  refine Follows.ite ?_ ?_
  · with_reducible assumption
  · refine Follows.ite ?_ ?_
    · refine State.badRequest_follows (hp.sub rfl) ?_
      with_reducible assumption
    · split
      · rename_i z0 z1 z2 z3
        have k4 : Follows p s0 z1 := by
          refine Follows.fst_eq ?_ z3
          refine State.openRequest_follows (hp.sub rfl) ?_
          with_reducible assumption
        refine State.device_follows (hp.sub rfl) ?_
        with_reducible assumption
      · rename_i z5 z6 z7
        have k8 : Follows p s0 z6 := by
          refine Follows.fst_eq ?_ z7
          refine State.openRequest_follows (hp.sub rfl) ?_
          with_reducible assumption
        with_reducible assumption

def State.wrpReceive_foot : Foot := ⟨0x1fffffff, 0x0⟩

theorem State.wrpReceive_follows {p s0} {a0} {a1} {a2} {a3} (hp : Foot.le State.wrpReceive_foot p) (h0 : Follows p s0 a0) :
    Follows p s0 (State.wrpReceive (a0) (a1) (a2) (a3)) := by
  unfold State.wrpReceive
  refine Follows.ite ?_ ?_
  · with_reducible assumption
  · refine Follows.ite ?_ ?_
    · refine State.updLink_follows (hp.sub rfl) ?_
      refine State.bump_follows 422 hp ?_
      with_reducible assumption
    · refine State.takePosted_follows (hp.sub rfl) ?_
      with_reducible assumption

def State.fenceReceive_foot : Foot := ⟨0x1fffffff, 0x0⟩

theorem State.fenceReceive_follows {p s0} {a0} {a1} {a2} {a3} (hp : Foot.le State.fenceReceive_foot p) (h0 : Follows p s0 a0) :
    Follows p s0 (State.fenceReceive (a0) (a1) (a2) (a3)) := by
  unfold State.fenceReceive
  refine Follows.ite ?_ ?_
  · with_reducible assumption
  · split
    · rename_i z0 z1 z2 z3
      have k4 : Follows p s0 z1 := by
        refine Follows.fst_eq ?_ z3
        refine State.openRequest_follows (hp.sub rfl) ?_
        with_reducible assumption
      extract_lets y5 y6
      clear_value y5
      clear_value y6
      refine State.settleFences_follows (hp.sub rfl) ?_
      refine Follows.update hp ?_ rfl rfl
      with_reducible assumption
    · rename_i z7 z8 z9
      have k10 : Follows p s0 z8 := by
        refine Follows.fst_eq ?_ z9
        refine State.openRequest_follows (hp.sub rfl) ?_
        with_reducible assumption
      with_reducible assumption

def State.withdraw_foot : Foot := ⟨0x1fffffff, 0x0⟩

theorem State.withdraw_follows {p s0} {a0} {a1} {a2} (hp : Foot.le State.withdraw_foot p) (h0 : Follows p s0 a0) :
    Follows p s0 (State.withdraw (a0) (a1) (a2)).1 := by
  unfold State.withdraw
  split
  · with_reducible assumption
  · extract_lets y5 y6 y7
    clear_value y5
    have k8 : Follows p s0 y6 := by
      subst y6
      refine Follows.update hp ?_ rfl rfl
      with_reducible assumption
    clear_value y6
    have k9 : Follows p s0 y7 := by
      subst y7
      refine Follows.ite ?_ ?_
      · with_reducible assumption
      · refine State.unvote_follows (hp.sub rfl) ?_
        with_reducible assumption
    clear_value y7
    refine Follows.pair ?_
    refine State.finish_follows (hp.sub rfl) ?_
    with_reducible assumption

def State.cancelReceive_foot : Foot := ⟨0x1fffffff, 0x0⟩

theorem State.cancelReceive_follows {p s0} {a0} {a1} {a2} {a3} {a4} {a5} {a6} (hp : Foot.le State.cancelReceive_foot p) (h0 : Follows p s0 a0) :
    Follows p s0 (State.cancelReceive (a0) (a1) (a2) (a3) (a4) (a5) (a6)) := by
  unfold State.cancelReceive
  refine Follows.ite ?_ ?_
  · with_reducible assumption
  · split
    · rename_i z0 z1 z2
      have k3 : Follows p s0 z1 := by
        refine Follows.fst_eq ?_ z2
        refine State.openRequest_follows (hp.sub rfl) ?_
        with_reducible assumption
      with_reducible assumption
    · rename_i z4 z5 z6 z7
      have k8 : Follows p s0 z5 := by
        refine Follows.fst_eq ?_ z7
        refine State.openRequest_follows (hp.sub rfl) ?_
        with_reducible assumption
      refine Follows.ite ?_ ?_
      · refine Follows.ite ?_ ?_
        · extract_lets y9
          have k10 : Follows p s0 y9.1 := by
            subst y9
            refine State.cancelFrame_follows (hp.sub rfl) ?_
            with_reducible assumption
          clear_value y9
          refine State.linkDone_follows (hp.sub rfl) ?_
          with_reducible assumption
        · refine State.linkDone_follows (hp.sub rfl) ?_
          with_reducible assumption
      · extract_lets y11 y12
        have k13 : Follows p s0 y11.1 := by
          subst y11
          refine State.withdraw_follows (hp.sub rfl) ?_
          with_reducible assumption
        clear_value y11
        clear_value y12
        refine Follows.ite ?_ ?_
        · refine State.linkDone_follows (hp.sub rfl) ?_
          with_reducible assumption
        · refine Follows.ite ?_ ?_
          · refine State.linkDone_follows (hp.sub rfl) ?_
            with_reducible assumption
          · refine State.settleCancels_follows (hp.sub rfl) ?_
            refine Follows.update hp ?_ rfl rfl
            with_reducible assumption

def State.cmdDone_foot : Foot := ⟨0x200000, 0x0⟩

theorem State.cmdDone_follows {p s0} {a0} {a1} {a2} {a3} (hp : Foot.le State.cmdDone_foot p) (h0 : Follows p s0 a0) :
    Follows p s0 (State.cmdDone (a0) (a1) (a2) (a3)) := by
  unfold State.cmdDone
  extract_lets y0
  clear_value y0
  refine State.postEntry_follows (hp.sub rfl) ?_
  with_reducible assumption

def State.commandRead_foot : Foot := ⟨0x1200000, 0x20000000000000000000000000000000000000000000000000000000000000000000000000000000000000000000000000000000000000⟩

theorem State.commandRead_follows {p s0} {a0} {a1} (hp : Foot.le State.commandRead_foot p) (h0 : Follows p s0 a0) :
    Follows p s0 (State.commandRead (a0) (a1)) := by
  unfold State.commandRead
  refine Follows.ite ?_ ?_
  · with_reducible assumption
  · extract_lets y0 y1 y2 y3 y4 y5 y6 y7 y8 y9
    clear_value y0
    have k10 : Follows p s0 y1 := by
      subst y1
      refine State.ringTake_follows (hp.sub rfl) ?_
      with_reducible assumption
    clear_value y1
    clear_value y2
    clear_value y3
    clear_value y4
    clear_value y5
    clear_value y6
    have k11 : Follows p s0 y7 := by
      subst y7
      refine Follows.update hp ?_ rfl rfl
      with_reducible assumption
    clear_value y7
    have k12 : Follows p s0 y8 := by
      subst y8
      refine State.updLink_follows (hp.sub rfl) ?_
      with_reducible assumption
    clear_value y8
    clear_value y9
    refine Follows.ite ?_ ?_
    · with_reducible assumption
    · refine Follows.ite ?_ ?_
      · refine State.cmdDone_follows (hp.sub rfl) ?_
        with_reducible assumption
      · refine Follows.ite ?_ ?_
        · refine State.cmdDone_follows (hp.sub rfl) ?_
          with_reducible assumption
        · refine Follows.update hp ?_ rfl rfl
          with_reducible assumption

def State.sendInterrupt_foot : Foot := ⟨0x4280020, 0xe808800000000000000000000000000000000000000000000000000000000000000000000000000000000000000000000000000000000000001000000000004000000⟩

theorem State.sendInterrupt_follows {p s0} {a0} (hp : Foot.le State.sendInterrupt_foot p) (h0 : Follows p s0 a0) :
    Follows p s0 (State.sendInterrupt (a0)) := by
  unfold State.sendInterrupt
  split
  · with_reducible assumption
  · refine Follows.ite ?_ ?_
    · with_reducible assumption
    · extract_lets y6 y7
      clear_value y6
      have k8 : Follows p s0 y7 := by
        subst y7
        refine State.linkSend_follows (hp.sub rfl) ?_
        refine Follows.update hp ?_ rfl rfl
        with_reducible assumption
      clear_value y7
      refine Follows.ite ?_ ?_
      · refine State.unvote_follows (hp.sub rfl) ?_
        with_reducible assumption
      · with_reducible assumption

def State.enterStandby_foot : Foot := ⟨0x200020, 0x4000000⟩

theorem State.enterStandby_follows {p s0} {a0} {a1} (hp : Foot.le State.enterStandby_foot p) (h0 : Follows p s0 a0) :
    Follows p s0 (State.enterStandby (a0) (a1)) := by
  unfold State.enterStandby
  refine State.refreshSerdes_follows (hp.sub rfl) ?_
  refine State.updLink_follows (hp.sub rfl) ?_
  with_reducible assumption

def State.idleOver_foot : Foot := ⟨0x200010, 0x0⟩

theorem State.idleOver_follows {p s0} {a0} {a1} (hp : Foot.le State.idleOver_foot p) (h0 : Follows p s0 a0) :
    Follows p s0 (State.idleOver (a0) (a1)) := by
  unfold State.idleOver
  refine Follows.ite ?_ ?_
  · with_reducible assumption
  · refine State.updLink_follows (hp.sub rfl) ?_
    refine State.reach_follows (hp.sub rfl) ?_
    with_reducible assumption

def State.standbyReq_foot : Foot := ⟨0x200020, 0x4000000⟩

theorem State.standbyReq_follows {p s0} {a0} {a1} (hp : Foot.le State.standbyReq_foot p) (h0 : Follows p s0 a0) :
    Follows p s0 (State.standbyReq (a0) (a1)) := by
  unfold State.standbyReq
  refine Follows.ite ?_ ?_
  · refine State.enterStandby_follows (hp.sub rfl) ?_
    with_reducible assumption
  · with_reducible assumption

def State.standbyAck_foot : Foot := ⟨0x200020, 0x4000000⟩

theorem State.standbyAck_follows {p s0} {a0} {a1} (hp : Foot.le State.standbyAck_foot p) (h0 : Follows p s0 a0) :
    Follows p s0 (State.standbyAck (a0) (a1)) := by
  unfold State.standbyAck
  refine Follows.ite ?_ ?_
  · refine State.enterStandby_follows (hp.sub rfl) ?_
    with_reducible assumption
  · with_reducible assumption

def State.hostSignal_foot : Foot := ⟨0x304070, 0x400f8000800000000000000000000000000000000000000000000000000000000000000000000000000000000000000000000002800000000000000000001000000000004000000⟩

theorem State.hostSignal_follows {p s0} {a0} (hp : Foot.le State.hostSignal_foot p) (h0 : Follows p s0 a0) :
    Follows p s0 (State.hostSignal (a0)) := by
  unfold State.hostSignal
  refine Follows.ite ?_ ?_
  · extract_lets y0
    have k1 : Follows p s0 y0 := by
      subst y0
      refine State.fire_follows (hp.sub rfl) ?_
      with_reducible assumption
    clear_value y0
    refine Follows.ite ?_ ?_
    · refine State.linkTrain_follows (hp.sub rfl) ?_
      with_reducible assumption
    · with_reducible assumption
  · refine Follows.ite ?_ ?_
    · extract_lets y2
      have k3 : Follows p s0 y2 := by
        subst y2
        refine State.latch_follows (hp.sub rfl) ?_
        with_reducible assumption
      clear_value y2
      refine Follows.ite ?_ ?_
      · refine State.wake_follows (hp.sub rfl) ?_
        with_reducible assumption
      · with_reducible assumption
    · with_reducible assumption

def State.wakeSet_foot : Foot := ⟨0x304070, 0x400f8000800000000000000000000000000000000000000000000000000000000000000000000000000000000000000000000002800000000000000000001000000000004000000⟩

theorem State.wakeSet_follows {p s0} {a0} {a1} (hp : Foot.le State.wakeSet_foot p) (h0 : Follows p s0 a0) :
    Follows p s0 (State.wakeSet (a0) (a1)) := by
  unfold State.wakeSet
  refine Follows.ite ?_ ?_
  · extract_lets y0
    have k1 : Follows p s0 y0 := by
      subst y0
      refine Follows.ite ?_ ?_
      · refine State.fire_follows (hp.sub rfl) ?_
        with_reducible assumption
      · with_reducible assumption
    clear_value y0
    refine State.updLink_follows (hp.sub rfl) ?_
    with_reducible assumption
  · refine Follows.ite ?_ ?_
    · refine State.hostSignal_follows (hp.sub rfl) ?_
      with_reducible assumption
    · with_reducible assumption

def State.standbyExit_foot : Foot := ⟨0x4200030, 0xe808800000000000000000000000000000000000000000000000000000000000000000000000000000000000000000000000000000000000001000000000004000000⟩

theorem State.standbyExit_follows {p s0} {a0} {a1} (hp : Foot.le State.standbyExit_foot p) (h0 : Follows p s0 a0) :
    Follows p s0 (State.standbyExit (a0) (a1)) := by
  unfold State.standbyExit
  extract_lets y0 y1
  clear_value y0
  have k2 : Follows p s0 y1 := by
    subst y1
    refine State.reach_follows (hp.sub rfl) ?_
    with_reducible assumption
  clear_value y1
  refine Follows.ite ?_ ?_
  · refine State.linkPump_follows (hp.sub rfl) ?_
    refine State.refreshSerdes_follows (hp.sub rfl) ?_
    refine State.updLink_follows (hp.sub rfl) ?_
    with_reducible assumption
  · with_reducible assumption

def State.riseComplete_foot : Foot := ⟨0x1fffffff, 0x0⟩

theorem State.riseComplete_follows {p s0} {a0} {a1} {a2} (hp : Foot.le State.riseComplete_foot p) (h0 : Follows p s0 a0) :
    Follows p s0 (State.riseComplete (a0) (a1) (a2)) := by
  unfold State.riseComplete
  refine Follows.ite ?_ ?_
  · with_reducible assumption
  · extract_lets y0 y1 y2
    have k3 : Follows p s0 y0 := by
      subst y0
      refine State.domRisen_follows (hp.sub rfl) ?_
      with_reducible assumption
    clear_value y0
    have k4 : Follows p s0 y1 := by
      subst y1
      refine Follows.ite ?_ ?_
      · refine State.writeCoarse_follows (hp.sub rfl) ?_
        with_reducible assumption
      · with_reducible assumption
    clear_value y1
    have k5 : Follows p s0 y2 := by
      subst y2
      refine State.ctlServe_follows (hp.sub rfl) ?_
      refine Follows.ite ?_ ?_
      · refine State.wotServe_follows (hp.sub rfl) ?_
        with_reducible assumption
      · with_reducible assumption
    clear_value y2
    refine Follows.ite ?_ ?_
    · refine State.linkTrain_follows (hp.sub rfl) ?_
      with_reducible assumption
    · refine Follows.ite ?_ ?_
      · refine Follows.forAll ?_ ?_
        · intro x6 x7 x8
          refine Follows.ite ?_ ?_
          · refine State.linkTrain_follows (hp.sub rfl) ?_
            with_reducible assumption
          · with_reducible assumption
        · with_reducible assumption
      · with_reducible assumption

def execLaneRetrained_foot : Foot := ⟨0x1fffffff, 0x0⟩

theorem execLaneRetrained_follows {p s0} {a0} {a1} {a2} {a3} (hp : Foot.le execLaneRetrained_foot p) (h3 : Follows p s0 a3) :
    FollowsOut p s0 (execLaneRetrained (a0) (a1) (a2) (a3)) := by
  unfold execLaneRetrained
  refine FollowsOut.next ?_
  refine State.ctlServe_follows (hp.sub rfl) ?_
  refine State.laneBack_follows (hp.sub rfl) ?_
  with_reducible assumption

def execDomainFallComplete_foot : Foot := ⟨0x1fffffff, 0x0⟩

theorem execDomainFallComplete_follows {p s0} {a0} {a1} (hp : Foot.le execDomainFallComplete_foot p) (h1 : Follows p s0 a1) :
    FollowsOut p s0 (execDomainFallComplete (a0) (a1)) := by
  unfold execDomainFallComplete
  refine FollowsOut.next ?_
  refine State.ctlServe_follows (hp.sub rfl) ?_
  refine State.fallComplete_follows (hp.sub rfl) ?_
  with_reducible assumption

def execFlitReceive_foot : Foot := ⟨0x4200000, 0xe808800000000000000000000004000000000000000000000000000000000000000000000000000000000000000000000000000000000000001000000000000000000⟩

theorem execFlitReceive_follows {p s0} {a0} {a1} {a2} {a3} {a4} (hp : Foot.le execFlitReceive_foot p) (h4 : Follows p s0 a4) :
    FollowsOut p s0 (execFlitReceive (a0) (a1) (a2) (a3) (a4)) := by
  unfold execFlitReceive
  refine FollowsOut.next ?_
  refine State.flitReceive_follows (hp.sub rfl) ?_
  with_reducible assumption

def execAck_foot : Foot := ⟨0x4200000, 0xe808800000000000000000000000000000000000000000000000000000000000000000000000000000000000000000000000000000000000001000000000000000000⟩

theorem execAck_follows {p s0} {a0} {a1} {a2} {a3} {a4} {a5} (hp : Foot.le execAck_foot p) (h5 : Follows p s0 a5) :
    FollowsOut p s0 (execAck (a0) (a1) (a2) (a3) (a4) (a5)) := by
  unfold execAck
  refine FollowsOut.next ?_
  refine State.ackReceive_follows (hp.sub rfl) ?_
  with_reducible assumption

def execNak_foot : Foot := ⟨0x4200000, 0xe808800000000000000000000004000000000000000000000000000000000000000000000000000000000000000000000000000000000000001000000000000000000⟩

theorem execNak_follows {p s0} {a0} {a1} {a2} {a3} {a4} {a5} (hp : Foot.le execNak_foot p) (h5 : Follows p s0 a5) :
    FollowsOut p s0 (execNak (a0) (a1) (a2) (a3) (a4) (a5)) := by
  unfold execNak
  refine FollowsOut.next ?_
  refine State.nakReceive_follows (hp.sub rfl) ?_
  with_reducible assumption

def execRetrainStart_foot : Foot := ⟨0x1fffffff, 0x0⟩

theorem execRetrainStart_follows {p s0} {a0} {a1} (hp : Foot.le execRetrainStart_foot p) (h1 : Follows p s0 a1) :
    FollowsOut p s0 (execRetrainStart (a0) (a1)) := by
  unfold execRetrainStart
  refine FollowsOut.next ?_
  refine State.retrainStart_follows (hp.sub rfl) ?_
  with_reducible assumption

def execLinkTrained_foot : Foot := ⟨0x1fffffff, 0x0⟩

theorem execLinkTrained_follows {p s0} {a0} {a1} {a2} (hp : Foot.le execLinkTrained_foot p) (h2 : Follows p s0 a2) :
    FollowsOut p s0 (execLinkTrained (a0) (a1) (a2)) := by
  unfold execLinkTrained
  refine FollowsOut.next ?_
  refine State.linkTrained_follows (hp.sub rfl) ?_
  with_reducible assumption

def execHlRefclkDetected_foot : Foot := ⟨0x20, 0x0⟩

theorem execHlRefclkDetected_follows {p s0} {a0} (hp : Foot.le execHlRefclkDetected_foot p) (h0 : Follows p s0 a0) :
    FollowsOut p s0 (execHlRefclkDetected (a0)) := by
  unfold execHlRefclkDetected
  refine FollowsOut.next ?_
  refine State.refclkSeen_follows (hp.sub rfl) ?_
  with_reducible assumption

def execRd_foot : Foot := ⟨0x1fffffff, 0x0⟩

theorem execRd_follows {p s0} {a0} {a1} {a2} {a3} (hp : Foot.le execRd_foot p) (h3 : Follows p s0 a3) :
    FollowsOut p s0 (execRd (a0) (a1) (a2) (a3)) := by
  unfold execRd
  refine FollowsOut.next ?_
  refine State.rdReceive_follows (hp.sub rfl) ?_
  with_reducible assumption

def execWr_foot : Foot := ⟨0x1fffffff, 0x0⟩

theorem execWr_follows {p s0} {a0} {a1} {a2} {a3} (hp : Foot.le execWr_foot p) (h3 : Follows p s0 a3) :
    FollowsOut p s0 (execWr (a0) (a1) (a2) (a3)) := by
  unfold execWr
  refine FollowsOut.next ?_
  refine State.wrReceive_follows (hp.sub rfl) ?_
  with_reducible assumption

def execWrp_foot : Foot := ⟨0x1fffffff, 0x0⟩

theorem execWrp_follows {p s0} {a0} {a1} {a2} {a3} (hp : Foot.le execWrp_foot p) (h3 : Follows p s0 a3) :
    FollowsOut p s0 (execWrp (a0) (a1) (a2) (a3)) := by
  unfold execWrp
  refine FollowsOut.next ?_
  refine State.wrpReceive_follows (hp.sub rfl) ?_
  with_reducible assumption

def execRedraFence_foot : Foot := ⟨0x1fffffff, 0x0⟩

theorem execRedraFence_follows {p s0} {a0} {a1} {a2} {a3} (hp : Foot.le execRedraFence_foot p) (h3 : Follows p s0 a3) :
    FollowsOut p s0 (execRedraFence (a0) (a1) (a2) (a3)) := by
  unfold execRedraFence
  refine FollowsOut.next ?_
  refine State.fenceReceive_follows (hp.sub rfl) ?_
  with_reducible assumption

def execCancel_foot : Foot := ⟨0x1fffffff, 0x0⟩

theorem execCancel_follows {p s0} {a0} {a1} {a2} {a3} {a4} {a5} {a6} (hp : Foot.le execCancel_foot p) (h6 : Follows p s0 a6) :
    FollowsOut p s0 (execCancel (a0) (a1) (a2) (a3) (a4) (a5) (a6)) := by
  unfold execCancel
  refine FollowsOut.next ?_
  refine State.cancelReceive_follows (hp.sub rfl) ?_
  with_reducible assumption

def execCpl_foot : Foot := ⟨0x1fffffff, 0x0⟩

theorem execCpl_follows {p s0} {a0} {a1} {a2} {a3} (hp : Foot.le execCpl_foot p) (h3 : Follows p s0 a3) :
    FollowsOut p s0 (execCpl (a0) (a1) (a2) (a3)) := by
  unfold execCpl
  refine FollowsOut.next ?_
  refine Follows.ite ?_ ?_
  · refine State.ownEnd_follows (hp.sub rfl) ?_
    with_reducible assumption
  · with_reducible assumption

def execCpld_foot : Foot := ⟨0x1fffffff, 0x0⟩

theorem execCpld_follows {p s0} {a0} {a1} {a2} {a3} {a4} (hp : Foot.le execCpld_foot p) (h4 : Follows p s0 a4) :
    FollowsOut p s0 (execCpld (a0) (a1) (a2) (a3) (a4)) := by
  unfold execCpld
  refine FollowsOut.next ?_
  refine Follows.ite ?_ ?_
  · refine State.ownEnd_follows (hp.sub rfl) ?_
    with_reducible assumption
  · with_reducible assumption

def execLateFault_foot : Foot := ⟨0x4200000, 0xe808800000000000000000000000000000000000000000000000000000000000000000000000000000000000000000000000000000000000001000000000000000000⟩

theorem execLateFault_follows {p s0} {a0} {a1} (hp : Foot.le execLateFault_foot p) (h1 : Follows p s0 a1) :
    FollowsOut p s0 (execLateFault (a0) (a1)) := by
  unfold execLateFault
  refine FollowsOut.next ?_
  refine State.lateSend_follows (hp.sub rfl) ?_
  with_reducible assumption

def execHostLateFault_foot : Foot := ⟨0x1fffffff, 0x0⟩

theorem execHostLateFault_follows {p s0} {a0} {a1} {a2} {a3} {a4} (hp : Foot.le execHostLateFault_foot p) (h4 : Follows p s0 a4) :
    FollowsOut p s0 (execHostLateFault (a0) (a1) (a2) (a3) (a4)) := by
  unfold execHostLateFault
  refine FollowsOut.next ?_
  refine State.lateReceive_follows (hp.sub rfl) ?_
  with_reducible assumption

def execLnkLndTailWrite_foot : Foot := ⟨0x1fffffff, 0x0⟩

theorem execLnkLndTailWrite_follows {p s0} {a0} {a1} {a2} {a3} (hp : Foot.le execLnkLndTailWrite_foot p) (h3 : Follows p s0 a3) :
    FollowsOut p s0 (execLnkLndTailWrite (a0) (a1) (a2) (a3)) := by
  unfold execLnkLndTailWrite
  refine FollowsOut.next ?_
  refine State.regWriteBy_follows (hp.sub rfl) ?_
  with_reducible assumption

def execLnkLndHeadWrite_foot : Foot := ⟨0x1fffffff, 0x0⟩

theorem execLnkLndHeadWrite_follows {p s0} {a0} {a1} {a2} (hp : Foot.le execLnkLndHeadWrite_foot p) (h2 : Follows p s0 a2) :
    FollowsOut p s0 (execLnkLndHeadWrite (a0) (a1) (a2)) := by
  unfold execLnkLndHeadWrite
  refine FollowsOut.next ?_
  refine State.regWriteBy_follows (hp.sub rfl) ?_
  with_reducible assumption

def execCommandDescriptorRead_foot : Foot := ⟨0x1200000, 0x20000000000000000000000000000000000000000000000000000000000000000000000000000000000000000000000000000000000000⟩

theorem execCommandDescriptorRead_follows {p s0} {a0} {a1} (hp : Foot.le execCommandDescriptorRead_foot p) (h1 : Follows p s0 a1) :
    FollowsOut p s0 (execCommandDescriptorRead (a0) (a1)) := by
  unfold execCommandDescriptorRead
  refine FollowsOut.next ?_
  refine State.commandRead_follows (hp.sub rfl) ?_
  with_reducible assumption

def execStandbyReq_foot : Foot := ⟨0x200020, 0x4000000⟩

theorem execStandbyReq_follows {p s0} {a0} {a1} (hp : Foot.le execStandbyReq_foot p) (h1 : Follows p s0 a1) :
    FollowsOut p s0 (execStandbyReq (a0) (a1)) := by
  unfold execStandbyReq
  refine FollowsOut.next ?_
  refine State.standbyReq_follows (hp.sub rfl) ?_
  with_reducible assumption

def execStandbyAck_foot : Foot := ⟨0x200020, 0x4000000⟩

theorem execStandbyAck_follows {p s0} {a0} {a1} (hp : Foot.le execStandbyAck_foot p) (h1 : Follows p s0 a1) :
    FollowsOut p s0 (execStandbyAck (a0) (a1)) := by
  unfold execStandbyAck
  refine FollowsOut.next ?_
  refine State.standbyAck_follows (hp.sub rfl) ?_
  with_reducible assumption

def execLinkIdle_foot : Foot := ⟨0x200010, 0x0⟩

theorem execLinkIdle_follows {p s0} {a0} {a1} (hp : Foot.le execLinkIdle_foot p) (h1 : Follows p s0 a1) :
    FollowsOut p s0 (execLinkIdle (a0) (a1)) := by
  unfold execLinkIdle
  refine FollowsOut.next ?_
  refine State.idleOver_follows (hp.sub rfl) ?_
  with_reducible assumption

def execWakeOrderedSet_foot : Foot := ⟨0x304070, 0x400f8000800000000000000000000000000000000000000000000000000000000000000000000000000000000000000000000002800000000000000000001000000000004000000⟩

theorem execWakeOrderedSet_follows {p s0} {a0} {a1} (hp : Foot.le execWakeOrderedSet_foot p) (h1 : Follows p s0 a1) :
    FollowsOut p s0 (execWakeOrderedSet (a0) (a1)) := by
  unfold execWakeOrderedSet
  refine FollowsOut.next ?_
  refine State.wakeSet_follows (hp.sub rfl) ?_
  with_reducible assumption

def execStandbyExit_foot : Foot := ⟨0x4200030, 0xe808800000000000000000000000000000000000000000000000000000000000000000000000000000000000000000000000000000000000001000000000004000000⟩

theorem execStandbyExit_follows {p s0} {a0} {a1} (hp : Foot.le execStandbyExit_foot p) (h1 : Follows p s0 a1) :
    FollowsOut p s0 (execStandbyExit (a0) (a1)) := by
  unfold execStandbyExit
  refine FollowsOut.next ?_
  refine State.standbyExit_follows (hp.sub rfl) ?_
  with_reducible assumption

def execHostLaneSignal_foot : Foot := ⟨0x304070, 0x400f8000800000000000000000000000000000000000000000000000000000000000000000000000000000000000000000000002800000000000000000001000000000004000000⟩

theorem execHostLaneSignal_follows {p s0} {a0} (hp : Foot.le execHostLaneSignal_foot p) (h0 : Follows p s0 a0) :
    FollowsOut p s0 (execHostLaneSignal (a0)) := by
  unfold execHostLaneSignal
  refine FollowsOut.next ?_
  refine State.hostSignal_follows (hp.sub rfl) ?_
  with_reducible assumption

def execInterrupt_foot : Foot := ⟨0x4280020, 0xe808800000000000000000000000000000000000000000000000000000000000000000000000000000000000000000000000000000000000001000000000004000000⟩

theorem execInterrupt_follows {p s0} {a0} (hp : Foot.le execInterrupt_foot p) (h0 : Follows p s0 a0) :
    FollowsOut p s0 (execInterrupt (a0)) := by
  unfold execInterrupt
  refine FollowsOut.next ?_
  refine State.sendInterrupt_follows (hp.sub rfl) ?_
  with_reducible assumption

def execDomainRiseComplete_foot : Foot := ⟨0x1fffffff, 0x0⟩

theorem execDomainRiseComplete_follows {p s0} {a0} {a1} (hp : Foot.le execDomainRiseComplete_foot p) (h1 : Follows p s0 a1) :
    FollowsOut p s0 (execDomainRiseComplete (a0) (a1)) := by
  unfold execDomainRiseComplete
  refine FollowsOut.next ?_
  refine State.riseComplete_follows (hp.sub rfl) ?_
  with_reducible assumption

/-! ### Machine/Pontoon.lean -/

def State.soloSet_foot : Foot := ⟨0x0, 0x400000000000000000000000000000000000000000000000000000000000000000000000000000000000000000001000000000000000000⟩

theorem State.soloSet_follows {p s0} {a0} {a1} {a2} (hp : Foot.le State.soloSet_foot p) (h0 : Follows p s0 a0) :
    Follows p s0 (State.soloSet (a0) (a1) (a2)) := by
  unfold State.soloSet
  refine Follows.ite ?_ ?_
  · with_reducible assumption
  · refine State.fire_follows (hp.sub rfl) ?_
    refine State.setBit_follows 442 hp ?_
    with_reducible assumption

def State.beaconDigest_foot : Foot := ⟨0x400000, 0x400000000000000000000000000000000000000000000000000000000000000000000000000000000000000000001000000000000000000⟩

theorem State.beaconDigest_follows {p s0} {a0} {a1} (hp : Foot.le State.beaconDigest_foot p) (h0 : Follows p s0 a0) :
    Follows p s0 (State.beaconDigest (a0) (a1)) := by
  unfold State.beaconDigest
  refine Follows.ite ?_ ?_
  · extract_lets y0 y1 y2
    clear_value y0
    clear_value y1
    have k3 : Follows p s0 y2 := by
      subst y2
      refine Follows.update hp ?_ rfl rfl
      with_reducible assumption
    clear_value y2
    refine Follows.ite ?_ ?_
    · refine State.clrBit_follows 442 hp ?_
      with_reducible assumption
    · with_reducible assumption
  · extract_lets y4 y5 y6
    clear_value y4
    clear_value y5
    have k7 : Follows p s0 y6 := by
      subst y6
      refine Follows.update hp ?_ rfl rfl
      with_reducible assumption
    clear_value y6
    refine Follows.ite ?_ ?_
    · refine State.soloSet_follows (hp.sub rfl) ?_
      with_reducible assumption
    · with_reducible assumption

def State.beaconGeneration_foot : Foot := ⟨0x0, 0x400000000000000000000000000000000000000000000000000000000000000000000000000000000000000000001000000000000000000⟩

theorem State.beaconGeneration_follows {p s0} {a0} {a1} {a2} (hp : Foot.le State.beaconGeneration_foot p) (h0 : Follows p s0 a0) :
    Follows p s0 (State.beaconGeneration (a0) (a1) (a2)) := by
  unfold State.beaconGeneration
  refine Follows.ite ?_ ?_
  · with_reducible assumption
  · refine State.soloSet_follows (hp.sub rfl) ?_
    with_reducible assumption

def State.beaconHeard_foot : Foot := ⟨0x400000, 0x400000000000000000000000000000000000000000000000000000000000000000000000000000000000000000000000000000000000000⟩

theorem State.beaconHeard_follows {p s0} {a0} {a1} (hp : Foot.le State.beaconHeard_foot p) (h0 : Follows p s0 a0) :
    Follows p s0 (State.beaconHeard (a0) (a1)) := by
  unfold State.beaconHeard
  extract_lets y0 y1 y2
  clear_value y0
  clear_value y1
  have k3 : Follows p s0 y2 := by
    subst y2
    refine Follows.update hp ?_ rfl rfl
    with_reducible assumption
  clear_value y2
  refine Follows.ite ?_ ?_
  · refine State.clrBit_follows 442 hp ?_
    with_reducible assumption
  · with_reducible assumption

def State.beaconFilter_foot : Foot := ⟨0x400010, 0xb4000000000000000000000000000000000000001000000000000000000⟩

theorem State.beaconFilter_follows {p s0} {a0} {a1} {a2} (hp : Foot.le State.beaconFilter_foot p) (h0 : Follows p s0 a0) :
    Follows p s0 (State.beaconFilter (a0) (a1) (a2)) := by
  unfold State.beaconFilter
  extract_lets y0 y1 y2
  clear_value y0
  clear_value y1
  have k3 : Follows p s0 y2 := by
    subst y2
    refine Follows.update hp ?_ rfl rfl
    with_reducible assumption
  clear_value y2
  refine State.parentSample_follows (hp.sub rfl) ?_
  with_reducible assumption

def State.beaconRealign_foot : Foot := ⟨0x10, 0x4000000000000000000000000000000000000000000000000000000000⟩

theorem State.beaconRealign_follows {p s0} {a0} {a1} (hp : Foot.le State.beaconRealign_foot p) (h0 : Follows p s0 a0) :
    Follows p s0 (State.beaconRealign (a0) (a1)) := by
  unfold State.beaconRealign
  refine Follows.ite ?_ ?_
  · refine Follows.update hp ?_ rfl rfl
    with_reducible assumption
  · extract_lets y0 y1 y2
    clear_value y0
    clear_value y1
    have k3 : Follows p s0 y2 := by
      subst y2
      refine Follows.update hp ?_ rfl rfl
      with_reducible assumption
    clear_value y2
    refine Follows.ite ?_ ?_
    · refine State.setSlew_follows (hp.sub rfl) ?_
      with_reducible assumption
    · with_reducible assumption

def State.beaconTime_foot : Foot := ⟨0x400010, 0x804000000000000000000000000000000000000000000000000000b4000000000000000000000000000000000000001000000000000000000⟩

theorem State.beaconTime_follows {p s0} {a0} {a1} {a2} (hp : Foot.le State.beaconTime_foot p) (h0 : Follows p s0 a0) :
    Follows p s0 (State.beaconTime (a0) (a1) (a2)) := by
  unfold State.beaconTime
  extract_lets y0 y1 y2 y3 y4 y5
  have k6 : Follows p s0 y0 := by
    subst y0
    refine State.beaconFilter_follows (hp.sub rfl) ?_
    refine State.setS_follows 451 hp ?_
    with_reducible assumption
  clear_value y0
  have k7 : Follows p s0 y1 := by
    subst y1
    refine Follows.ite ?_ ?_
    · refine State.fire_follows (hp.sub rfl) ?_
      with_reducible assumption
    · with_reducible assumption
  clear_value y1
  clear_value y2
  clear_value y3
  have k8 : Follows p s0 y4 := by
    subst y4
    refine Follows.update hp ?_ rfl rfl
    with_reducible assumption
  clear_value y4
  have k9 : Follows p s0 y5 := by
    subst y5
    refine Follows.ite ?_ ?_
    · refine State.soloSet_follows (hp.sub rfl) ?_
      refine Follows.update hp ?_ rfl rfl
      with_reducible assumption
    · refine Follows.ite ?_ ?_
      · refine Follows.ite ?_ ?_
        · refine State.clrBit_follows 442 hp ?_
          with_reducible assumption
        · with_reducible assumption
      · refine Follows.update hp ?_ rfl rfl
        with_reducible assumption
  clear_value y5
  refine State.beaconRealign_follows (hp.sub rfl) ?_
  with_reducible assumption

def State.refreshYield_foot : Foot := ⟨0x0, 0x200000000000000000000000000000000000000000000000000000000000000000000000000000000000000000000000000000000000000000⟩

theorem State.refreshYield_follows {p s0} {a0} (hp : Foot.le State.refreshYield_foot p) (h0 : Follows p s0 a0) :
    Follows p s0 (State.refreshYield (a0)) := by
  unfold State.refreshYield
  extract_lets y0
  clear_value y0
  refine Follows.forAll ?_ ?_
  · intro x1 x2 x3
    refine State.set_follows 453 hp ?_
    with_reducible assumption
  · with_reducible assumption

def State.beacon_foot : Foot := ⟨0x400010, 0x288c000000000000000000000000000000000000000000000000000b4000000000000000000000000000000000000001000000000000000000⟩

theorem State.beacon_follows {p s0} {a0} {a1} {a2} (hp : Foot.le State.beacon_foot p) (h0 : Follows p s0 a0) :
    Follows p s0 (State.beacon (a0) (a1) (a2)) := by
  unfold State.beacon
  refine Follows.ite ?_ ?_
  · with_reducible assumption
  · extract_lets y0 y1 y2 y3 y4 y5 y6 y7 y8
    clear_value y0
    clear_value y1
    have k9 : Follows p s0 y2 := by
      subst y2
      refine State.setPeer_follows (hp.sub rfl) ?_
      refine State.reach_follows (hp.sub rfl) ?_
      with_reducible assumption
    clear_value y2
    clear_value y3
    have k10 : Follows p s0 y4 := by
      subst y4
      refine Follows.update hp ?_ rfl rfl
      with_reducible assumption
    clear_value y4
    have k11 : Follows p s0 y5 := by
      subst y5
      refine State.set_follows 447 hp ?_
      refine State.set_follows 447 hp ?_
      with_reducible assumption
    clear_value y5
    clear_value y6
    have k12 : Follows p s0 y7 := by
      subst y7
      refine Follows.ite ?_ ?_
      · refine State.beaconTime_follows (hp.sub rfl) ?_
        refine State.beaconGeneration_follows (hp.sub rfl) ?_
        refine State.beaconDigest_follows (hp.sub rfl) ?_
        refine State.beaconHeard_follows (hp.sub rfl) ?_
        with_reducible assumption
      · with_reducible assumption
    clear_value y7
    clear_value y8
    refine Follows.ite ?_ ?_
    · refine State.refreshYield_follows (hp.sub rfl) ?_
      refine Follows.update hp ?_ rfl rfl
      with_reducible assumption
    · with_reducible assumption

def State.silenceOver_foot : Foot := ⟨0x10, 0x0⟩

theorem State.silenceOver_follows {p s0} {a0} {a1} (hp : Foot.le State.silenceOver_foot p) (h0 : Follows p s0 a0) :
    Follows p s0 (State.silenceOver (a0) (a1)) := by
  unfold State.silenceOver
  refine Follows.ite ?_ ?_
  · with_reducible assumption
  · refine State.reach_follows (hp.sub rfl) ?_
    with_reducible assumption

def State.primarySilent_foot : Foot := ⟨0x1fffffff, 0x0⟩

theorem State.primarySilent_follows {p s0} {a0} (hp : Foot.le State.primarySilent_foot p) (h0 : Follows p s0 a0) :
    Follows p s0 (State.primarySilent (a0)) := by
  unfold State.primarySilent
  refine Follows.ite ?_ ?_
  · with_reducible assumption
  · extract_lets y0 y1 y2
    have k3 : Follows p s0 y0 := by
      subst y0
      refine State.silenceOver_follows (hp.sub rfl) ?_
      with_reducible assumption
    have k4 : Follows p s0 y2 := by
      subst y2
      refine State.soloSet_follows (hp.sub rfl) ?_
      refine Follows.update hp ?_ rfl rfl
      with_reducible assumption
    refine Follows.ite ?_ ?_
    · refine State.dropOwn_follows (hp.sub rfl) ?_
      with_reducible assumption
    · with_reducible assumption

def State.peerLost_foot : Foot := ⟨0x1fffffff, 0x0⟩

theorem State.peerLost_follows {p s0} {a0} {a1} (hp : Foot.le State.peerLost_foot p) (h0 : Follows p s0 a0) :
    Follows p s0 (State.peerLost (a0) (a1)) := by
  unfold State.peerLost
  refine Follows.ite ?_ ?_
  · with_reducible assumption
  · refine State.dropOwn_follows (hp.sub rfl) ?_
    refine State.fire_follows (hp.sub rfl) ?_
    refine State.setPeer_follows (hp.sub rfl) ?_
    refine State.silenceOver_follows (hp.sub rfl) ?_
    with_reducible assumption

def execBeacon_foot : Foot := ⟨0x400010, 0x288c000000000000000000000000000000000000000000000000000b4000000000000000000000000000000000000001000000000000000000⟩

theorem execBeacon_follows {p s0} {a0} {a1} {a2} (hp : Foot.le execBeacon_foot p) (h2 : Follows p s0 a2) :
    FollowsOut p s0 (execBeacon (a0) (a1) (a2)) := by
  unfold execBeacon
  refine FollowsOut.next ?_
  refine State.beacon_follows (hp.sub rfl) ?_
  with_reducible assumption

def execPrimarySilent_foot : Foot := ⟨0x1fffffff, 0x0⟩

theorem execPrimarySilent_follows {p s0} {a0} (hp : Foot.le execPrimarySilent_foot p) (h0 : Follows p s0 a0) :
    FollowsOut p s0 (execPrimarySilent (a0)) := by
  unfold execPrimarySilent
  refine FollowsOut.next ?_
  refine State.primarySilent_follows (hp.sub rfl) ?_
  with_reducible assumption

def execPontoonPeerLost_foot : Foot := ⟨0x1fffffff, 0x0⟩

theorem execPontoonPeerLost_follows {p s0} {a0} {a1} (hp : Foot.le execPontoonPeerLost_foot p) (h1 : Follows p s0 a1) :
    FollowsOut p s0 (execPontoonPeerLost (a0) (a1)) := by
  unfold execPontoonPeerLost
  refine FollowsOut.next ?_
  refine State.peerLost_follows (hp.sub rfl) ?_
  with_reducible assumption

/-! ### Machine/Update.lean -/

def State.loaderOps_foot : Foot := ⟨0x0, 0x17c000000000000000000000000000000000000000000000000000000000000000000000000000000000000000000000001000000000000000000⟩

theorem State.loaderOps_follows {p s0} {a0} {a1} {a2} {a3} {a4} (hp : Foot.le State.loaderOps_foot p) (h0 : Follows p s0 a0) :
    Follows p s0 (State.loaderOps (a0) (a1) (a2) (a3) (a4)) := by
  unfold State.loaderOps
  extract_lets y0
  have k1 : Follows p s0 y0 := by
    subst y0
    refine State.set_follows 462 hp ?_
    refine State.set_follows 461 hp ?_
    refine State.set_follows 464 hp ?_
    with_reducible assumption
  clear_value y0
  refine State.fire_follows (hp.sub rfl) ?_
  refine State.set_follows 460 hp ?_
  refine State.set_follows 459 hp ?_
  refine State.set_follows 458 hp ?_
  with_reducible assumption

def State.loaderProgram_foot : Foot := ⟨0x4, 0x17c000000000000000000000000000000000000000000000000000000000000000000000000000000000000000000000001000000000000000000⟩

theorem State.loaderProgram_follows {p s0} {a0} {a1} {a2} (hp : Foot.le State.loaderProgram_foot p) (h0 : Follows p s0 a0) :
    Follows p s0 (State.loaderProgram (a0) (a1) (a2)) := by
  unfold State.loaderProgram
  refine State.loaderOps_follows (hp.sub rfl) ?_
  refine State.setBytes_follows hp ?_
  with_reducible assumption

def State.loaderErase_foot : Foot := ⟨0x800004, 0x17c000000000000000000000000000000000000000000000000000000000000000000000000000000000000000000000001000000000000000000⟩

theorem State.loaderErase_follows {p s0} {a0} {a1} (hp : Foot.le State.loaderErase_foot p) (h0 : Follows p s0 a0) :
    Follows p s0 (State.loaderErase (a0) (a1)) := by
  unfold State.loaderErase
  refine State.loaderOps_follows (hp.sub rfl) ?_
  refine State.applyErase_follows (hp.sub rfl) ?_
  with_reducible assumption

def State.updDone_foot : Foot := ⟨0x1200000, 0x0⟩

theorem State.updDone_follows {p s0} {a0} {a1} {a2} (hp : Foot.le State.updDone_foot p) (h0 : Follows p s0 a0) :
    Follows p s0 (State.updDone (a0) (a1) (a2)) := by
  unfold State.updDone
  split
  · with_reducible assumption
  · refine State.cmdDone_follows (hp.sub rfl) ?_
    refine Follows.update hp ?_ rfl rfl
    with_reducible assumption

def State.relay_foot : Foot := ⟨0x1200000, 0x0⟩

theorem State.relay_follows {p s0} {a0} {a1} {a2} (hp : Foot.le State.relay_foot p) (h0 : Follows p s0 a0) :
    Follows p s0 (State.relay (a0) (a1) (a2)) := by
  unfold State.relay
  refine Follows.ite ?_ ?_
  · refine State.updDone_follows (hp.sub rfl) ?_
    with_reducible assumption
  · refine State.updDone_follows (hp.sub rfl) ?_
    with_reducible assumption

def State.handKeel_foot : Foot := ⟨0x1402000c, 0xe808800000000000000000000000000000000000000000000000000000000000000000000000000000000000000000000000000000000000001000000000000000000⟩

theorem State.handKeel_follows {p s0} {a0} (hp : Foot.le State.handKeel_foot p) (h0 : Follows p s0 a0) :
    Follows p s0 (State.handKeel (a0)) := by
  unfold State.handKeel
  extract_lets y0
  have k1 : Follows p s0 y0 := by
    subst y0
    refine State.mboxDeliver_follows (hp.sub rfl) ?_
    with_reducible assumption
  clear_value y0
  refine Follows.update hp ?_ rfl rfl
  with_reducible assumption

def State.beginFlash_foot : Foot := ⟨0x15a2000c, 0xe80880000000007017c000000000000000000000000000000000000000000000000000000000000000000000000000000000000000000000001000000000000000000⟩

theorem State.beginFlash_follows {p s0} {a0} {a1} {a2} (hp : Foot.le State.beginFlash_foot p) (h0 : Follows p s0 a0) :
    Follows p s0 (State.beginFlash (a0) (a1) (a2)) := by
  unfold State.beginFlash
  extract_lets y0 y1 y2 y3 y4 y5 y6 y7
  clear_value y0
  have k8 : Follows p s0 y1 := by
    subst y1
    refine Follows.ite ?_ ?_
    · refine State.handKeel_follows (hp.sub rfl) ?_
      with_reducible assumption
    · with_reducible assumption
  clear_value y1
  clear_value y2
  have k9 : Follows p s0 y3.1 := by
    subst y3
    refine State.holdupFor_follows (hp.sub rfl) ?_
    with_reducible assumption
  clear_value y3
  clear_value y4
  have k10 : Follows p s0 y5 := by
    subst y5
    refine State.loaderProgram_follows (hp.sub rfl) ?_
    refine State.loaderErase_follows (hp.sub rfl) ?_
    with_reducible assumption
  clear_value y5
  have k11 : Follows p s0 y6 := by
    subst y6
    refine State.loaderProgram_follows (hp.sub rfl) ?_
    with_reducible assumption
  clear_value y6
  clear_value y7
  split
  · refine State.updDone_follows (hp.sub rfl) ?_
    with_reducible assumption
  · refine Follows.ite ?_ ?_
    · refine State.updDone_follows (hp.sub rfl) ?_
      with_reducible assumption
    · refine Follows.ite ?_ ?_
      · refine State.updDone_follows (hp.sub rfl) ?_
        with_reducible assumption
      · refine State.updDone_follows (hp.sub rfl) ?_
        refine Follows.update hp ?_ rfl rfl
        with_reducible assumption

def State.beginRam_foot : Foot := ⟨0x1200000, 0x0⟩

theorem State.beginRam_follows {p s0} {a0} {a1} (hp : Foot.le State.beginRam_foot p) (h0 : Follows p s0 a0) :
    Follows p s0 (State.beginRam (a0) (a1)) := by
  unfold State.beginRam
  extract_lets y0 y1
  clear_value y0
  clear_value y1
  refine Follows.ite ?_ ?_
  · refine State.updDone_follows (hp.sub rfl) ?_
    with_reducible assumption
  · refine Follows.ite ?_ ?_
    · refine State.updDone_follows (hp.sub rfl) ?_
      with_reducible assumption
    · refine Follows.ite ?_ ?_
      · refine State.updDone_follows (hp.sub rfl) ?_
        with_reducible assumption
      · split
        · refine Follows.ite ?_ ?_
          · refine State.updDone_follows (hp.sub rfl) ?_
            with_reducible assumption
          · refine Follows.ite ?_ ?_
            · refine State.updDone_follows (hp.sub rfl) ?_
              with_reducible assumption
            · refine State.updDone_follows (hp.sub rfl) ?_
              refine Follows.update hp ?_ rfl rfl
              with_reducible assumption
        · refine State.updDone_follows (hp.sub rfl) ?_
          refine Follows.update hp ?_ rfl rfl
          with_reducible assumption

def State.imageBegin_foot : Foot := ⟨0x15a2000c, 0xe80880000000007017c000000000000000000000000000000000000000000000000000000000000000000000000000000000000000000000001000000000000000000⟩

theorem State.imageBegin_follows {p s0} {a0} {a1} {a2} (hp : Foot.le State.imageBegin_foot p) (h0 : Follows p s0 a0) :
    Follows p s0 (State.imageBegin (a0) (a1) (a2)) := by
  unfold State.imageBegin
  split
  · with_reducible assumption
  · refine Follows.ite ?_ ?_
    · with_reducible assumption
    · refine Follows.ite ?_ ?_
      · refine State.relay_follows (hp.sub rfl) ?_
        with_reducible assumption
      · refine Follows.ite ?_ ?_
        · refine State.beginRam_follows (hp.sub rfl) ?_
          with_reducible assumption
        · refine Follows.ite ?_ ?_
          · with_reducible assumption
          · refine State.beginFlash_follows (hp.sub rfl) ?_
            with_reducible assumption

def State.unstage_foot : Foot := ⟨0x1000000, 0x0⟩

theorem State.unstage_follows {p s0} {a0} {a1} (hp : Foot.le State.unstage_foot p) (h0 : Follows p s0 a0) :
    Follows p s0 (State.unstage (a0) (a1)) := by
  unfold State.unstage
  refine Follows.update hp ?_ rfl rfl
  with_reducible assumption

def State.writeBlock_foot : Foot := ⟨0x1a00004, 0x7017c000000000000000000000000000000000000000000000000000000000000000000000000000000000000000000000001000000000000000000⟩

theorem State.writeBlock_follows {p s0} {a0} {a1} {a2} {a3} (hp : Foot.le State.writeBlock_foot p) (h0 : Follows p s0 a0) :
    Follows p s0 (State.writeBlock (a0) (a1) (a2) (a3)) := by
  unfold State.writeBlock
  extract_lets y0 y1 y2 y3 y4 y5 y6 y7 y8 y9 y10 y11 y12
  clear_value y0
  have k13 : Follows p s0 y1.1 := by
    subst y1
    refine State.holdupFor_follows (hp.sub rfl) ?_
    with_reducible assumption
  clear_value y1
  clear_value y2
  have k14 : Follows p s0 y3 := by
    subst y3
    with_reducible assumption
  clear_value y3
  clear_value y4
  clear_value y5
  have k15 : Follows p s0 y6 := by
    subst y6
    refine State.loaderErase_follows (hp.sub rfl) ?_
    with_reducible assumption
  clear_value y6
  clear_value y7
  have k16 : Follows p s0 y8 := by
    subst y8
    refine Follows.update hp ?_ rfl rfl
    with_reducible assumption
  clear_value y8
  clear_value y9
  have k17 : Follows p s0 y10 := by
    subst y10
    refine State.loaderProgram_follows (hp.sub rfl) ?_
    refine State.loaderErase_follows (hp.sub rfl) ?_
    with_reducible assumption
  clear_value y10
  clear_value y11
  have k18 : Follows p s0 y12 := by
    subst y12
    refine State.loaderProgram_follows (hp.sub rfl) ?_
    with_reducible assumption
  clear_value y12
  refine Follows.ite ?_ ?_
  · refine Follows.ite ?_ ?_
    · refine State.updDone_follows (hp.sub rfl) ?_
      refine State.unstage_follows (hp.sub rfl) ?_
      with_reducible assumption
    · refine Follows.update hp ?_ rfl rfl
      with_reducible assumption
  · refine Follows.ite ?_ ?_
    · refine State.updDone_follows (hp.sub rfl) ?_
      refine State.unstage_follows (hp.sub rfl) ?_
      with_reducible assumption
    · refine State.updDone_follows (hp.sub rfl) ?_
      refine State.fire_follows (hp.sub rfl) ?_
      refine State.unstage_follows (hp.sub rfl) ?_
      with_reducible assumption

def State.blockFlash_foot : Foot := ⟨0x15a2000c, 0xe80880000000007017c000000000000000000000000000000000000000000000000000000000000000000000000000000000000000000000001000000000000000000⟩

theorem State.blockFlash_follows {p s0} {a0} {a1} {a2} {a3} (hp : Foot.le State.blockFlash_foot p) (h0 : Follows p s0 a0) :
    Follows p s0 (State.blockFlash (a0) (a1) (a2) (a3)) := by
  unfold State.blockFlash
  split
  · refine State.updDone_follows (hp.sub rfl) ?_
    with_reducible assumption
  · extract_lets y5 y6 y7 y8 y9
    clear_value y5
    clear_value y6
    have k10 : Follows p s0 y7 := by
      subst y7
      refine Follows.ite ?_ ?_
      · refine State.handKeel_follows (hp.sub rfl) ?_
        with_reducible assumption
      · with_reducible assumption
    clear_value y7
    clear_value y8
    have k11 : Follows p s0 y9 := by
      subst y9
      refine Follows.update hp ?_ rfl rfl
      with_reducible assumption
    clear_value y9
    refine Follows.ite ?_ ?_
    · refine State.updDone_follows (hp.sub rfl) ?_
      with_reducible assumption
    · refine Follows.ite ?_ ?_
      · refine State.updDone_follows (hp.sub rfl) ?_
        with_reducible assumption
      · refine Follows.ite ?_ ?_
        · refine State.updDone_follows (hp.sub rfl) ?_
          with_reducible assumption
        · refine Follows.ite ?_ ?_
          · refine State.updDone_follows (hp.sub rfl) ?_
            with_reducible assumption
          · refine Follows.ite ?_ ?_
            · refine State.writeBlock_follows (hp.sub rfl) ?_
              with_reducible assumption
            · refine State.updDone_follows (hp.sub rfl) ?_
              with_reducible assumption

def State.blockRam_foot : Foot := ⟨0x1200000, 0x0⟩

theorem State.blockRam_follows {p s0} {a0} {a1} {a2} (hp : Foot.le State.blockRam_foot p) (h0 : Follows p s0 a0) :
    Follows p s0 (State.blockRam (a0) (a1) (a2)) := by
  unfold State.blockRam
  split
  · refine State.updDone_follows (hp.sub rfl) ?_
    with_reducible assumption
  · extract_lets y5 y6
    clear_value y5
    clear_value y6
    refine Follows.ite ?_ ?_
    · refine State.updDone_follows (hp.sub rfl) ?_
      with_reducible assumption
    · refine Follows.ite ?_ ?_
      · refine State.updDone_follows (hp.sub rfl) ?_
        with_reducible assumption
      · refine State.updDone_follows (hp.sub rfl) ?_
        refine Follows.update hp ?_ rfl rfl
        with_reducible assumption

def State.imageBlock_foot : Foot := ⟨0x15a2000c, 0xe80880000000007017c000000000000000000000000000000000000000000000000000000000000000000000000000000000000000000000001000000000000000000⟩

theorem State.imageBlock_follows {p s0} {a0} {a1} {a2} {a3} (hp : Foot.le State.imageBlock_foot p) (h0 : Follows p s0 a0) :
    Follows p s0 (State.imageBlock (a0) (a1) (a2) (a3)) := by
  unfold State.imageBlock
  split
  · with_reducible assumption
  · refine Follows.ite ?_ ?_
    · with_reducible assumption
    · refine Follows.ite ?_ ?_
      · refine State.relay_follows (hp.sub rfl) ?_
        with_reducible assumption
      · refine Follows.ite ?_ ?_
        · refine State.blockRam_follows (hp.sub rfl) ?_
          with_reducible assumption
        · refine Follows.ite ?_ ?_
          · with_reducible assumption
          · refine State.blockFlash_follows (hp.sub rfl) ?_
            with_reducible assumption

def State.holdupRetry_foot : Foot := ⟨0x1a00004, 0x7017c000000000000000000000000000000000000000000000000000000000000000000000000000000000000000000000001000000000000000000⟩

theorem State.holdupRetry_follows {p s0} {a0} {a1} (hp : Foot.le State.holdupRetry_foot p) (h0 : Follows p s0 a0) :
    Follows p s0 (State.holdupRetry (a0) (a1)) := by
  unfold State.holdupRetry
  split
  · refine Follows.ite ?_ ?_
    · with_reducible assumption
    · refine State.writeBlock_follows (hp.sub rfl) ?_
      with_reducible assumption
  · with_reducible assumption

def State.commitFlash_foot : Foot := ⟨0x1fffffff, 0x0⟩

theorem State.commitFlash_follows {p s0} {a0} {a1} (hp : Foot.le State.commitFlash_foot p) (h0 : Follows p s0 a0) :
    Follows p s0 (State.commitFlash (a0) (a1)) := by
  unfold State.commitFlash
  split
  · refine State.updDone_follows (hp.sub rfl) ?_
    with_reducible assumption
  · extract_lets y5 y6 y7
    have k8 : Follows p s0 y5 := by
      subst y5
      refine Follows.foldl ?_ ?_
      · intro x9 x10 x11
        refine State.flashUncorrectable_follows (hp.sub rfl) ?_
        with_reducible assumption
      · with_reducible assumption
    clear_value y5
    have k12 : Follows p s0 y6.1 := by
      subst y6
      refine State.holdupFor_follows (hp.sub rfl) ?_
      with_reducible assumption
    clear_value y6
    have k13 : Follows p s0 y7 := by
      subst y7
      refine Follows.ite ?_ ?_
      · refine State.handKeel_follows (hp.sub rfl) ?_
        with_reducible assumption
      · with_reducible assumption
    clear_value y7
    refine Follows.ite ?_ ?_
    · refine State.updDone_follows (hp.sub rfl) ?_
      with_reducible assumption
    · refine Follows.ite ?_ ?_
      · refine State.updDone_follows (hp.sub rfl) ?_
        with_reducible assumption
      · refine Follows.ite ?_ ?_
        · refine State.updDone_follows (hp.sub rfl) ?_
          with_reducible assumption
        · split
          · refine State.updDone_follows (hp.sub rfl) ?_
            with_reducible assumption
          · refine Follows.ite ?_ ?_
            · refine State.updDone_follows (hp.sub rfl) ?_
              with_reducible assumption
            · refine State.updDone_follows (hp.sub rfl) ?_
              refine State.fire_follows (hp.sub rfl) ?_
              refine State.loaderProgram_follows (hp.sub rfl) ?_
              with_reducible assumption

def State.hostBoot_foot : Foot := ⟨0x622052c, 0x1800000000000000000000e80880000000000000003000000000000000000000020010007fe01800000000000000000000000000000000000000000000000000000000001000000000004240000⟩

theorem State.hostBoot_follows {p s0} {a0} {a1} (hp : Foot.le State.hostBoot_foot p) (h0 : Follows p s0 a0) :
    Follows p s0 (State.hostBoot (a0) (a1)) := by
  unfold State.hostBoot
  extract_lets y0
  have k1 : Follows p s0 y0 := by
    subst y0
    refine State.bootRun_follows (hp.sub rfl) ?_
    with_reducible assumption
  clear_value y0
  refine State.bootRecord_follows (hp.sub rfl) ?_
  refine State.linkSend_follows (hp.sub rfl) ?_
  with_reducible assumption

def State.commitRam_foot : Foot := ⟨0x722056c, 0x1800000000000000000000e80880000000000000003000000000000000000000020010007fe01800000000000000000000000000000000000000000000000000000000001000000000004240000⟩

theorem State.commitRam_follows {p s0} {a0} {a1} (hp : Foot.le State.commitRam_foot p) (h0 : Follows p s0 a0) :
    Follows p s0 (State.commitRam (a0) (a1)) := by
  unfold State.commitRam
  split
  · refine State.updDone_follows (hp.sub rfl) ?_
    with_reducible assumption
  · extract_lets y5 y6 y7 y8 y9
    clear_value y5
    clear_value y6
    clear_value y7
    clear_value y8
    have k10 : Follows p s0 y9 := by
      subst y9
      refine Follows.update hp ?_ rfl rfl
      with_reducible assumption
    clear_value y9
    refine Follows.ite ?_ ?_
    · refine State.updDone_follows (hp.sub rfl) ?_
      with_reducible assumption
    · refine Follows.ite ?_ ?_
      · refine State.updDone_follows (hp.sub rfl) ?_
        with_reducible assumption
      · refine Follows.ite ?_ ?_
        · refine State.slipway_follows (hp.sub rfl) ?_
          refine State.updDone_follows (hp.sub rfl) ?_
          with_reducible assumption
        · refine Follows.ite ?_ ?_
          · refine State.updDone_follows (hp.sub rfl) ?_
            with_reducible assumption
          · refine Follows.ite ?_ ?_
            · refine State.hostBoot_follows (hp.sub rfl) ?_
              refine State.updDone_follows (hp.sub rfl) ?_
              with_reducible assumption
            · refine State.updDone_follows (hp.sub rfl) ?_
              with_reducible assumption

def State.imageCommit_foot : Foot := ⟨0x1fffffff, 0x0⟩

theorem State.imageCommit_follows {p s0} {a0} {a1} {a2} (hp : Foot.le State.imageCommit_foot p) (h0 : Follows p s0 a0) :
    Follows p s0 (State.imageCommit (a0) (a1) (a2)) := by
  unfold State.imageCommit
  split
  · with_reducible assumption
  · refine Follows.ite ?_ ?_
    · with_reducible assumption
    · refine Follows.ite ?_ ?_
      · refine State.relay_follows (hp.sub rfl) ?_
        with_reducible assumption
      · refine Follows.ite ?_ ?_
        · refine State.commitRam_follows (hp.sub rfl) ?_
          with_reducible assumption
        · refine Follows.ite ?_ ?_
          · with_reducible assumption
          · refine State.commitFlash_follows (hp.sub rfl) ?_
            with_reducible assumption

def State.imageStatus_foot : Foot := ⟨0x5200000, 0xe808800000000000000000000000000000000000000000000000000000000000000000000000000000000000000000000000000000000000001000000000000000000⟩

theorem State.imageStatus_follows {p s0} {a0} {a1} (hp : Foot.le State.imageStatus_foot p) (h0 : Follows p s0 a0) :
    Follows p s0 (State.imageStatus (a0) (a1)) := by
  unfold State.imageStatus
  split
  · with_reducible assumption
  · refine Follows.ite ?_ ?_
    · with_reducible assumption
    · refine Follows.ite ?_ ?_
      · refine Follows.ite ?_ ?_
        · refine State.updDone_follows (hp.sub rfl) ?_
          refine State.hostWrite_follows (hp.sub rfl) ?_
          with_reducible assumption
        · refine State.updDone_follows (hp.sub rfl) ?_
          with_reducible assumption
      · refine Follows.ite ?_ ?_
        · refine State.updDone_follows (hp.sub rfl) ?_
          refine State.hostWrite_follows (hp.sub rfl) ?_
          with_reducible assumption
        · refine Follows.ite ?_ ?_
          · with_reducible assumption
          · refine State.updDone_follows (hp.sub rfl) ?_
            refine State.hostWrite_follows (hp.sub rfl) ?_
            with_reducible assumption

def execImageBegin_foot : Foot := ⟨0x15a2000c, 0xe80880000000007017c000000000000000000000000000000000000000000000000000000000000000000000000000000000000000000000001000000000000000000⟩

theorem execImageBegin_follows {p s0} {a0} {a1} {a2} (hp : Foot.le execImageBegin_foot p) (h2 : Follows p s0 a2) :
    FollowsOut p s0 (execImageBegin (a0) (a1) (a2)) := by
  unfold execImageBegin
  refine FollowsOut.next ?_
  refine State.imageBegin_follows (hp.sub rfl) ?_
  with_reducible assumption

def execImageBlock_foot : Foot := ⟨0x15a2000c, 0xe80880000000007017c000000000000000000000000000000000000000000000000000000000000000000000000000000000000000000000001000000000000000000⟩

theorem execImageBlock_follows {p s0} {a0} {a1} {a2} {a3} (hp : Foot.le execImageBlock_foot p) (h3 : Follows p s0 a3) :
    FollowsOut p s0 (execImageBlock (a0) (a1) (a2) (a3)) := by
  unfold execImageBlock
  refine FollowsOut.next ?_
  refine State.imageBlock_follows (hp.sub rfl) ?_
  with_reducible assumption

def execHoldupRetry_foot : Foot := ⟨0x1a00004, 0x7017c000000000000000000000000000000000000000000000000000000000000000000000000000000000000000000000001000000000000000000⟩

theorem execHoldupRetry_follows {p s0} {a0} {a1} (hp : Foot.le execHoldupRetry_foot p) (h1 : Follows p s0 a1) :
    FollowsOut p s0 (execHoldupRetry (a0) (a1)) := by
  unfold execHoldupRetry
  refine FollowsOut.next ?_
  refine State.holdupRetry_follows (hp.sub rfl) ?_
  with_reducible assumption

def execImageCommit_foot : Foot := ⟨0x1fffffff, 0x0⟩

theorem execImageCommit_follows {p s0} {a0} {a1} {a2} (hp : Foot.le execImageCommit_foot p) (h2 : Follows p s0 a2) :
    FollowsOut p s0 (execImageCommit (a0) (a1) (a2)) := by
  unfold execImageCommit
  refine FollowsOut.next ?_
  refine State.imageCommit_follows (hp.sub rfl) ?_
  with_reducible assumption

def execImageStatus_foot : Foot := ⟨0x5200000, 0xe808800000000000000000000000000000000000000000000000000000000000000000000000000000000000000000000000000000000000001000000000000000000⟩

theorem execImageStatus_follows {p s0} {a0} {a1} (hp : Foot.le execImageStatus_foot p) (h1 : Follows p s0 a1) :
    FollowsOut p s0 (execImageStatus (a0) (a1)) := by
  unfold execImageStatus
  refine FollowsOut.next ?_
  refine State.imageStatus_follows (hp.sub rfl) ?_
  with_reducible assumption

/-! ### Machine/Tick.lean -/

def State.advance_foot : Foot := ⟨0x400010, 0x80000000000000000000000000000000000000000000000000000000000000000000000000000000000000000000000000⟩

theorem State.advance_follows {p s0} {a0} (hp : Foot.le State.advance_foot p) (h0 : Follows p s0 a0) :
    Follows p s0 (State.advance (a0)) := by
  unfold State.advance
  extract_lets y0 y1 y2 y3
  clear_value y0
  clear_value y1
  have k4 : Follows p s0 y2 := by
    subst y2
    refine Follows.update hp ?_ rfl rfl
    with_reducible assumption
  clear_value y2
  clear_value y3
  refine State.slewSettle_follows (hp.sub rfl) ?_
  refine Follows.update hp ?_ rfl rfl
  with_reducible assumption

def State.fabricCycle_foot : Foot := ⟨0x40180, 0x100200000000000000000000000000000000000000280000000000000000000000000000000000000000000000000000007fc043f0402c00501000000000000000000⟩

theorem State.fabricCycle_follows {p s0} {a0} {a1} (hp : Foot.le State.fabricCycle_foot p) (h0 : Follows p s0 a0) :
    Follows p s0 (State.fabricCycle (a0) (a1)) := by
  unfold State.fabricCycle
  refine Follows.ite ?_ ?_
  · with_reducible assumption
  · extract_lets y0 y1 y2 y3 y4 y5 y6
    clear_value y0
    clear_value y1
    clear_value y2
    have k7 : Follows p s0 y3 := by
      subst y3
      refine Follows.update hp ?_ rfl rfl
      with_reducible assumption
    clear_value y3
    have k8 : Follows p s0 y4 := by
      subst y4
      refine Follows.ite ?_ ?_
      · refine State.gpCycle_follows (hp.sub rfl) ?_
        with_reducible assumption
      · with_reducible assumption
    clear_value y4
    have k9 : Follows p s0 y5 := by
      subst y5
      refine Follows.foldl ?_ ?_
      · intro x10 x11 x12
        refine State.yarnFlags_follows (hp.sub rfl) ?_
        with_reducible assumption
      · with_reducible assumption
    clear_value y5
    have k13 : Follows p s0 y6 := by
      subst y6
      refine Follows.forAll ?_ ?_
      · intro x14 x15 x16
        refine State.cellStep_follows (hp.sub rfl) ?_
        with_reducible assumption
      · with_reducible assumption
    clear_value y6
    refine Follows.ite ?_ ?_
    · with_reducible assumption
    · refine Follows.foldl ?_ ?_
      · intro x17 x18 x19
        refine State.tmrYarns_follows (hp.sub rfl) ?_
        with_reducible assumption
      · with_reducible assumption

def State.fabricsCycle_foot : Foot := ⟨0x4040180, 0x100200000000000000000000000000000000000000280000000000000000000000000000000000000000000000000000007fc043f0402c00501000000000000000000⟩

theorem State.fabricsCycle_follows {p s0} {a0} (hp : Foot.le State.fabricsCycle_foot p) (h0 : Follows p s0 a0) :
    Follows p s0 (State.fabricsCycle (a0)) := by
  unfold State.fabricsCycle
  extract_lets y0 y1 y2
  have k3 : Follows p s0 y0 := by
    subst y0
    refine Follows.forAll ?_ ?_
    · intro x4 x5 x6
      refine State.fabricCycle_follows (hp.sub rfl) ?_
      with_reducible assumption
    · refine State.importsDue_follows (hp.sub rfl) ?_
      with_reducible assumption
  clear_value y0
  have k7 : Follows p s0 y1 := by
    subst y1
    refine State.ageYarns_follows (hp.sub rfl) ?_
    with_reducible assumption
  clear_value y1
  clear_value y2
  refine Follows.update hp ?_ rfl rfl
  with_reducible assumption

def State.cycleCounts_foot : Foot := ⟨0x4000000, 0xe808800000000000000000000000000000000000000000000000000000000000000000000000000000000000000000000000000000000000001000000000000000000⟩

theorem State.cycleCounts_follows {p s0} {a0} (hp : Foot.le State.cycleCounts_foot p) (h0 : Follows p s0 a0) :
    Follows p s0 (State.cycleCounts (a0)) := by
  unfold State.cycleCounts
  extract_lets y0
  have k1 : Follows p s0 y0 := by
    subst y0
    refine State.pmcAt_follows (hp.sub rfl) ?_
    refine State.pmcAt_follows (hp.sub rfl) ?_
    with_reducible assumption
  clear_value y0
  refine Follows.forAll ?_ ?_
  · intro x2 x3 x4
    refine Follows.ite ?_ ?_
    · refine State.pmc_follows (hp.sub rfl) ?_
      with_reducible assumption
    · with_reducible assumption
  · with_reducible assumption

def State.hubCycle_foot : Foot := ⟨0x4440190, 0xf80a80000000000000000000000000000008000000280000000000000000000000000000000000000000000000000000007fc043f0402c00501000000000000000000⟩

theorem State.hubCycle_follows {p s0} {a0} (hp : Foot.le State.hubCycle_foot p) (h0 : Follows p s0 a0) :
    Follows p s0 (State.hubCycle (a0)) := by
  unfold State.hubCycle
  refine State.advance_follows (hp.sub rfl) ?_
  refine State.cycleCounts_follows (hp.sub rfl) ?_
  refine State.fabricsCycle_follows (hp.sub rfl) ?_
  with_reducible assumption

def State.keeperEdge_foot : Foot := ⟨0x100010, 0x0⟩

theorem State.keeperEdge_follows {p s0} {a0} (hp : Foot.le State.keeperEdge_foot p) (h0 : Follows p s0 a0) :
    Follows p s0 (State.keeperEdge (a0)) := by
  unfold State.keeperEdge
  extract_lets y0 y1 y2 y3
  clear_value y0
  clear_value y1
  have k4 : Follows p s0 y2 := by
    subst y2
    refine State.crystalEdge_follows (hp.sub rfl) ?_
    with_reducible assumption
  clear_value y2
  clear_value y3
  refine Follows.update hp ?_ rfl rfl
  with_reducible assumption

def State.tick_foot : Foot := ⟨0x4540190, 0xf80a80000000000000000000000000000008000000280000000000000000000000000000000000000000000000000000007fc043f0402c00501000000000000000000⟩

theorem State.tick_follows {p s0} {a0} (hp : Foot.le State.tick_foot p) (h0 : Follows p s0 a0) :
    Follows p s0 (State.tick (a0)) := by
  unfold State.tick
  split
  · refine State.hubCycle_follows (hp.sub rfl) ?_
    with_reducible assumption
  · refine State.keeperEdge_follows (hp.sub rfl) ?_
    with_reducible assumption
  · with_reducible assumption

def State.filterCycles_foot : Foot := ⟨0x4440190, 0xf80a80000000000000000000000000000008000000280000000000000000000000000000000000000000000000000000007fc043f0402c00501000000000000000000⟩

theorem State.filterCycles_follows : ∀ {p s0} {a0} {a1} {a2} (_hp : Foot.le State.filterCycles_foot p) (_h2 : Follows p s0 a2),
    Follows p s0 (State.filterCycles (a0) (a1) (a2)) := by
  intro p s0 a0 a1 a2 hp h2
  induction a1 generalizing a0 a2
  · unfold State.filterCycles
    with_reducible assumption
  · rename_i z2 z5
    unfold State.filterCycles
    refine Follows.ite ?_ ?_
    · apply z5
      refine State.hubCycle_follows (hp.sub rfl) ?_
      with_reducible assumption
    · with_reducible assumption

def execStitchFilterSettle_foot : Foot := ⟨0x4440190, 0xf80a80000000000000000000000000000008000000280000000000000000000000000000000000000000000000000000007fc043f0402c00501000000000000000000⟩

theorem execStitchFilterSettle_follows {p s0} {a0} {a1} (hp : Foot.le execStitchFilterSettle_foot p) (h1 : Follows p s0 a1) :
    FollowsOut p s0 (execStitchFilterSettle (a0) (a1)) := by
  unfold execStitchFilterSettle
  refine FollowsOut.next ?_
  refine State.filterCycles_follows (hp.sub rfl) ?_
  with_reducible assumption

end Sys2Proof.Machine
end

