-- ==== Sys2Proof/Machine/Air.lean ====
section
/-! DEFINITION. Machine/Air.lean: the symbols that a beam slot puts on the air, block by block, as the state fixes them: guards, leads, headers,
payload, tail guard and sweep blocks (chapter 4, R113 to R119, R122, R123, R126 to R128, R136). No command changes them: they are what the state of
the slot and of its crossing shows to the outside. -/

namespace Sys2Proof.Machine

open Sys2Proof

/-- A symbol: its level on each axis, each to be divided by the square root of scale (Table 4.1). -/
structure Symbol where
  i : Int
  q : Int
  scale : Nat
  deriving DecidableEq, Repr

/-! ### Modulation (R116, R117, Table 4.1) -/

/-- A symbol multiplied by j^k. -/
def Symbol.rotate (x : Symbol) (k : Nat) : Symbol :=
  match k % 4 with
  | 0 => x
  | 1 => { x with i := -x.q, q := x.i }
  | 2 => { x with i := -x.i, q := -x.q }
  | _ => { x with i := x.q, q := -x.i }

/-- Symbols from position k of a block on, each rotated by its position. -/
def rotateFrom : Nat → List Symbol → List Symbol
  | _, [] => []
  | k, x :: l => x.rotate k :: rotateFrom (k + 1) l

/-- A value of plus or minus 1 as a symbol before rotation. -/
def bpsk (x : Int) : Symbol := ⟨x, 0, 1⟩

/-- The value of a bit. -/
def bitLevel (b : Bool) : Int := if b then 1 else -1

/-- Bits per symbol of a scheme (Table 4.3). -/
def mcsBits (m : Nat) : Nat := if m ≤ 2 then 1 else if m ≤ 6 then 2 else if m ≤ 10 then 4 else 6

/-- Levels of an axis: 16QAM from two bits, 64QAM from three. -/
def level16 (a b : Bool) : Int := match a, b with | false, false => -3 | false, true => -1 | true, true => 1 | true, false => 3
def level64 (a b c : Bool) : Int :=
  match a, b, c with
  | false, false, false => -7 | false, false, true => -5 | false, true, true => -3 | false, true, false => -1
  | true, true, false => 1 | true, true, true => 3 | true, false, true => 5 | true, false, false => 7

/-- The symbol of bits b0, b1, … of a scheme, before rotation. -/
def mapBits (m : Nat) (b : List Bool) : Symbol :=
  let x (n : Nat) : Bool := b.getD n false
  match mcsBits m with
  | 1 => bpsk (bitLevel (x 0))
  | 2 => ⟨bitLevel (x 0), bitLevel (x 1), 2⟩
  | 4 => ⟨level16 (x 0) (x 1), level16 (x 2) (x 3), 10⟩
  | _ => ⟨level64 (x 0) (x 1) (x 2), level64 (x 3) (x 4) (x 5), 42⟩

/-- The 448 symbols of a data field from its coded bits, before rotation: at MCS 0 each bit becomes x, -x, x, -x (R117). -/
def dataSymbols (m : Nat) (bits : List Bool) : List Symbol :=
  if m = 0 then
    (List.range 112).flatMap fun n => let x := bitLevel (bits.getD n false); [bpsk x, bpsk (-x), bpsk x, bpsk (-x)]
  else
    let w := mcsBits m
    (List.range 448).map fun n => mapBits m ((bits.drop (w * n)).take w)

/-- The guard, in symbols 0 to 63 of a block: always rotated (R114, R116). -/
def guardSymbols : List Symbol := rotateFrom 0 (ga64.map bpsk)

/-- A block: the guard, then its data field from symbol 64 on, rotated but in 16QAM and 64QAM. -/
def airBlock (rotated : Bool) (field : List Symbol) : List Symbol := guardSymbols ++ if rotated then rotateFrom 64 field else field

/-! ### The header's code (R123) -/

/-- One output bit of a generator at position n of a cyclic bit string: bit 6 of the generator takes the input bit itself, bit 0 the input six
positions before it (log 124). -/
def convBit (gen : Nat) (u : List Bool) (n : Nat) : Bool :=
  (List.range 7).foldl (fun x d => x != (gen.testBit (6 - d) && u.getD ((n + u.length - d) % u.length) false)) false

/-- The tail-biting code of rate 1/2 with generators 133 and 171, octal. -/
def convEncode (u : List Bool) : List Bool := (List.range u.length).flatMap fun n => [convBit 0o133 u n, convBit 0o171 u n]

/-! ### Frames and sweeps -/

/-- The coded bits of a frame's payload, codeword after codeword (R126, R127). -/
def payloadBits (f : PhyFrame) : List Bool :=
  (List.range f.ncw).flatMap fun k => ldpcEncode (mcsRows f.mcs) (codewordInfo f.mcs f.seq f.ncw k f.body)

/-- Block n of a frame with lead code c: the lead, the header blocks, the payload blocks, the tail guard with nothing after it, and nothing from
then on (R115, R118, R123, R128). -/
def frameBlock (c : Nat) (f : PhyFrame) (n : Nat) : List Symbol :=
  if n < 4 then airBlock true ((leadField c n).map bpsk)
  else if n < 4 + f.heads then airBlock true ((convEncode (bytesBits f.hdr)).map fun b => bpsk (bitLevel b))
  else if n < frameLength f then
    airBlock (mcsBits f.mcs ≤ 2) (dataSymbols f.mcs (((payloadBits f).drop (mcsBlockBits f.mcs * (n - 4 - f.heads))).take (mcsBlockBits f.mcs)))
  else if n = frameLength f then guardSymbols
  else []

/-- The symbols of block n, counted from its lead, of what a slot transmits now: its frame, or the sweep of its crossing, whose blocks all have the
content of lead block 0 after the lead (R136), or what is left of a frame that has ended: the block in progress, and the tail guard with nothing after
it (R115, R134). Empty where it sends nothing. -/
def State.onAir (s : State) (slot n : Nat) : List Symbol :=
  let x := s.slot slot
  match x.tx, x.tail, s.running slot with
  | some f, _, _ => if f.hdr.isEmpty then [] else frameBlock x.code f n
  | none, some (f, k), _ => if n < k then frameBlock x.code f n else if n = k then guardSymbols else []
  | none, none, some c =>
    if c.d.dir = 1 && c.d.sweep && n < 4 + c.d.len then airBlock true ((leadField x.code (if n < 4 then n else 0)).map bpsk) else []
  | none, none, none => []

end Sys2Proof.Machine
end

