-- ==== Sys2Proof/WellFormed.lean ====
section
/-! DEFINITION. WellFormed.lean: which operand values a command can carry: the widths that the spec's formats give them (R5, R252, R342 to R349,
R368, R401, Tables 5.7, 10.9, 12.3, 12.8, 12.9, 13.10). exec is defined for ill-formed commands too. -/

namespace Sys2Proof

/-- A receive descriptor (Table 12.8). -/
def landDescOk (d : LandDesc) : Bool := d.addr < 2 ^ 64 && d.cap < 2 ^ 16 && d.tag < 2 ^ 16

/-- A transmit descriptor (Table 12.8). -/
def txDescOk (d : TxDesc) : Bool := d.buf < 2 ^ 64 && d.len < 2 ^ 16 && d.nbr < 64 && d.cls < 8 && d.tag < 2 ^ 16

/-- A command descriptor (Table 12.8). -/
def cmdDescOk (d : CmdDesc) : Bool := d.buf < 2 ^ 64 && d.len < 2 ^ 32 && d.opcode < 256 && d.tag < 1024 && d.args.length = 16

/-- A soft block (Table 4.8). -/
def softBlockOk (b : SoftBlock) : Bool := b.noise < 2 ^ 16 && b.taps.length ≤ 64 && b.symbols.length ≤ 896

/-- A bell (Table 10.9). -/
def bellOk (b : Bell) : Bool := b.target < 2 ^ 16 && b.command < 256 && b.time < 2 ^ 16 && b.tag < 2 ^ 16 && b.crc < 2 ^ 16

/-- What a training reports (R342, R347, R367). -/
def trainOk (t : TrainSeen) : Bool :=
  t.lanes < 2 ^ 16 && t.peerEpoch < 2 ^ 16 && t.peerResume < 4096 && t.peerIndex < 4 && t.delay < 2 ^ 16

/-- A packet header (Table 12.3). -/
def packetOk (p : Packet) : Bool := p.tag < 1024 && p.addr < 2 ^ 32 && p.len < 2 ^ 16

/-- A beacon (Table 12.9). -/
def beaconOk (b : BeaconSeen) : Bool :=
  b.digest < 2 ^ 64 && b.minor < 256 && b.major < 256 && b.claims.length ≤ 64 && b.claims.all (fun id => id < 2 ^ 48) && b.time < 2 ^ 64 && b.cycle < 2 ^ 64

/-- A command's operands lie within the widths of their formats. -/
def WellFormed (i : Instr) : Bool :=
  match i with
  | .registerWrite _ _ _ size _ => size ≤ 4
  | .laneFail _ _ _ => true
  | .rxFrameLanding _ descs => descs.all landDescOk
  | .hlRefclkDetected => true
  | .keeperCalibration _ => true
  | .windowBoundary _ => true
  | .cycleBoundary => true
  | .hubFuncModeWrite _ _ => true
  | .hubGcommitWrite _ _ => true
  | .rxOvl _ => true
  | .adcSaturation _ => true
  | .loLock _ _ => true
  | .rfChanWrite _ _ => true
  | .loUnlock _ _ => true
  | .fragmentWrite _ _ _ _ _ => true
  | .directoryWrite _ _ _ _ => true
  | .tileCommit _ _ _ => true
  | .bfCommit _ _ => true
  | .preload _ _ => true
  | .preloadReport _ _ => true
  | .swapRequest _ _ => true
  | .armCutoff _ => true
  | .bankSwap _ => true
  | .captureArm _ _ => true
  | .captureTick samples => samples.all fun (x : Nat × List Nat) => x.1 < 512 && x.2.length ≤ 256
  | .captureDone => true
  | .tensionTrigger _ _ => true
  | .tensionGo _ _ => true
  | .tensionComplete _ couplings seams => (couplings ++ seams).all fun (m : Nat × Nat × Int × Int) => m.1 < 512 && m.2.1 < 8
  | .tensionTimeout _ => true
  | .blockBoundary _ => true
  | .leadDetect _ _ => true
  | .leadMiss _ => true
  | .headerDecode _ bytes => bytes.length = 28
  | .decoderStart _ => true
  | .codewordDecoded _ _ _ => true
  | .txLeadStart _ => true
  | .codewordEncoded _ => true
  | .txUnderrun _ => true
  | .blockEqualised _ b => softBlockOk b
  | .phySoftBeamsWrite _ _ => true
  | .xngCommit _ _ => true
  | .xngEnable _ _ => true
  | .crossingFetch => true
  | .tileWarmCommand _ => true
  | .turnCommand _ => true
  | .crossingStart _ => true
  | .readinessCheck _ _ => true
  | .voteScan _ => true
  | .crossingEnd _ _ => true
  | .xngPushPtrWrite _ _ => true
  | .pushEntryRead => true
  | .txDescriptorRead _ desc => txDescOk desc
  | .ackDeadline _ => true
  | .horizonExpiry _ tag => tag < 2 ^ 16
  | .condReplyDecision _ => true
  | .parentSilent => true
  | .timeStep => true
  | .macNbrCommit _ _ => true
  | .neighbourCopy _ => true
  | .mfs _ _ _ _ _ => true
  | .mts _ _ _ _ _ => true
  | .add _ _ _ _ _ => true
  | .sub _ _ _ _ _ => true
  | .and _ _ _ _ _ => true
  | .or _ _ _ _ _ => true
  | .xor _ _ _ _ _ => true
  | .shl _ _ _ _ _ => true
  | .shr _ _ _ _ _ => true
  | .sra _ _ _ _ _ => true
  | .ror _ _ _ _ _ => true
  | .mul _ _ _ _ _ => true
  | .mulhu _ _ _ _ _ => true
  | .mulhs _ _ _ _ _ => true
  | .slt _ _ _ _ _ => true
  | .sltu _ _ _ _ _ => true
  | .min _ _ _ _ _ => true
  | .max _ _ _ _ _ => true
  | .par _ _ _ _ _ => true
  | .parb _ _ _ _ _ => true
  | .brev _ _ _ _ _ => true
  | .brevb _ _ _ _ _ => true
  | .bswap _ _ _ _ _ => true
  | .clz _ _ _ _ _ => true
  | .popc _ _ _ _ _ => true
  | .vmov _ _ _ _ _ => true
  | .vsplat _ _ _ _ _ => true
  | .vget _ _ _ _ _ => true
  | .vput _ _ _ _ _ => true
  | .addi _ _ _ _ => true
  | .slti _ _ _ _ => true
  | .andi _ _ _ _ => true
  | .ori _ _ _ _ => true
  | .xori _ _ _ _ => true
  | .shli _ _ _ _ => true
  | .shri _ _ _ _ => true
  | .srai _ _ _ _ => true
  | .lui _ _ _ _ => true
  | .nop _ _ _ _ _ _ => true
  | .sMov _ _ _ _ _ _ => true
  | .sMovImmZx _ _ _ _ _ _ => true
  | .sMovImmSx _ _ _ _ _ _ => true
  | .sAdd _ _ _ _ _ _ => true
  | .sSub _ _ _ _ _ _ => true
  | .sAnd _ _ _ _ _ _ => true
  | .sOr _ _ _ _ _ _ => true
  | .sXor _ _ _ _ _ _ => true
  | .sShl _ _ _ _ _ _ => true
  | .sShr _ _ _ _ _ _ => true
  | .sSra _ _ _ _ _ _ => true
  | .sAddImm4 _ _ _ _ _ _ => true
  | .sSubImm4 _ _ _ _ _ _ => true
  | .sShlImm4 _ _ _ _ _ _ => true
  | .sShrImm4 _ _ _ _ _ _ => true
  | .sSeq _ _ _ _ _ _ => true
  | .sSne _ _ _ _ _ _ => true
  | .sSlt _ _ _ _ _ _ => true
  | .sSltu _ _ _ _ _ _ => true
  | .sMul _ _ _ _ _ _ => true
  | .sPar _ _ _ _ _ _ => true
  | .sParb _ _ _ _ _ _ => true
  | .sBrev _ _ _ _ _ _ => true
  | .sBswap _ _ _ _ _ _ => true
  | .sBrevb _ _ _ _ _ _ => true
  | .ldlB _ _ _ _ _ _ => true
  | .ldlH _ _ _ _ _ _ => true
  | .ldlW _ _ _ _ _ _ => true
  | .stlB _ _ _ _ _ _ => true
  | .stlH _ _ _ _ _ _ => true
  | .stlW _ _ _ _ _ _ => true
  | .ld _ _ _ _ _ _ _ => true
  | .lds _ _ _ _ _ _ _ => true
  | .st _ _ _ _ _ _ => true
  | .vld _ _ _ _ _ _ _ => true
  | .vst _ _ _ _ _ _ => true
  | .deviceCompletion _ _ => true
  | .fence _ _ _ _ _ => true
  | .stp _ _ _ _ _ _ => true
  | .postedFault _ => true
  | .beq _ _ _ _ => true
  | .bne _ _ _ _ => true
  | .blt _ _ _ _ => true
  | .bge _ _ _ _ => true
  | .bltu _ _ _ _ => true
  | .bgeu _ _ _ _ => true
  | .j _ _ _ _ => true
  | .jr _ _ _ _ => true
  | .rssave _ _ _ _ _ => true
  | .rsload _ _ _ _ _ => true
  | .call _ _ _ _ => true
  | .callr _ _ _ _ => true
  | .ret _ _ _ _ => true
  | .loop _ _ _ _ => true
  | .setmode _ _ _ _ _ => true
  | .timedOverrun _ => true
  | .crcB _ _ _ _ _ => true
  | .crcH _ _ _ _ _ => true
  | .crcW _ _ _ _ _ => true
  | .sCrcB _ _ _ _ _ _ => true
  | .sCrcH _ _ _ _ _ _ => true
  | .sCrcW _ _ _ _ _ _ => true
  | .hadd _ _ _ _ _ => true
  | .hsub _ _ _ _ _ => true
  | .hmul _ _ _ _ _ => true
  | .cmul _ _ _ _ _ => true
  | .cfma _ _ _ _ _ => true
  | .cvtq _ _ _ _ _ => true
  | .cvth _ _ _ _ _ => true
  | .gather _ _ _ _ _ => true
  | .msend _ _ _ _ _ => true
  | .mrecv _ _ _ _ _ => true
  | .mtime _ _ _ _ _ => true
  | .eret _ _ _ _ _ => true
  | .brk _ _ _ _ _ => true
  | .sysc _ _ _ _ _ => true
  | .wfi _ _ _ _ _ => true
  | .wfiWake _ => true
  | .interruptTaken _ => true
  | .engineRun _ _ _ => true
  | .engineHalt _ _ _ => true
  | .engLmDataAccess _ _ _ => true
  | .keelVoteWrite _ _ => true
  | .vcoreLoss => true
  | .pipeEntry _ _ => true
  | .tagVerified _ => true
  | .keySlotApply => true
  | .secKeyLoad _ _ => true
  | .secKeyErase _ _ => true
  | .secKeyBadOp _ _ => true
  | .entropyBit _ => true
  | .rngRestart _ _ => true
  | .rngDataRead _ => true
  | .otpProgram _ _ => true
  | .otpProgramDone _ => true
  | .bellKeyWrite _ _ _ => true
  | .crcFeedB _ _ _ => true
  | .crcFeedH _ _ _ => true
  | .crcFeedW _ _ _ => true
  | .crcStateWrite _ _ _ => true
  | .crcCfgWrite _ _ _ => true
  | .yarnImportDelivery _ _ => true
  | .yrnFire _ _ _ _ => true
  | .stitchFilterSettle _ => true
  | .yrnCellCtrlWrite _ _ _ => true
  | .gpInputEdge _ _ => true
  | .gpPulseEnd _ => true
  | .timerNoclk _ => true
  | .timerEnable _ _ _ => true
  | .timerWrap _ => true
  | .timerMatch _ => true
  | .timerCountedEdge _ => true
  | .timerTrigger _ => true
  | .timerCapture _ => true
  | .timerCapRead _ _ => true
  | .timerDisable _ _ _ => true
  | .wideAlarm _ => true
  | .tsInEdge => true
  | .tsiRead _ => true
  | .tsOutPulse => true
  | .tsOutPulseEnd => true
  | .wakeNFall => true
  | .pntSyncEdge => true
  | .irqSet _ _ => true
  | .irqDelivery => true
  | .irqEoi _ _ => true
  | .irqPendClear _ _ _ => true
  | .interrupt => true
  | .holdoffEnd _ => true
  | .domainRiseComplete _ => true
  | .pwrVoteSet _ _ _ => true
  | .pwrVoteClr _ _ _ => true
  | .lingerEnd _ => true
  | .rfRailOff => true
  | .timetableWake => true
  | .pwrForceOffWrite _ _ => true
  | .pwrClkGateWrite _ _ => true
  | .wotTimeout _ => true
  | .wakeSourceEdge _ _ => true
  | .aonTimer => true
  | .enterOff => true
  | .wkRxEnable _ _ => true
  | .sniff _ _ => true
  | .detectTimeout _ => true
  | .bellReceived _ bell _ => bellOk bell
  | .wakeNPulseEnd => true
  | .keeperSlewEnd => true
  | .bellRawRead _ => true
  | .bellTxRequest _ _ => true
  | .bellTxStart _ => true
  | .bellTxEnd => true
  | .coexRequest _ => true
  | .cxiReqRise _ => true
  | .cxiReqFall => true
  | .tcxoReady => true
  | .pllLock seen => seen.bootSel < 4
  | .crystalStable => true
  | .crystalTimeout => true
  | .pwrGoodDrop _ => true
  | .railFailure _ => true
  | .railRetry => true
  | .bootTimeout => true
  | .por _ => true
  | .pinReset => true
  | .warmReset _ => true
  | .resetCmdNone _ _ => true
  | .wdogKick _ _ => true
  | .wdogWarning => true
  | .wdogExpiry => true
  | .tileReset _ _ => true
  | .tileResetRelease _ => true
  | .engineReset _ _ => true
  | .flitReceive _ _ _ _ => true
  | .ack _ _ _ _ _ => true
  | .nak _ _ _ _ _ => true
  | .retrainStart _ => true
  | .linkTrained _ seen => trainOk seen
  | .rd _ p _ => packetOk p && p.len ≤ 4096
  | .wr _ p data => packetOk p && data.length ≤ 4096
  | .cpl _ _ _ => true
  | .cpld _ _ _ data => data.length ≤ 4096
  | .cancel _ _ _ _ _ _ => true
  | .wrp _ p data => packetOk p && data.length ≤ 4096
  | .lateFault _ => true
  | .redraFence _ _ _ => true
  | .hostLateFault _ _ _ _ => true
  | .lnkLndTailWrite _ _ _ => true
  | .lnkLndHeadWrite _ _ => true
  | .commandDescriptorRead desc => cmdDescOk desc
  | .completionEntryWrite => true
  | .standbyReq _ => true
  | .standbyAck _ => true
  | .linkIdle _ => true
  | .wakeOrderedSet _ => true
  | .standbyExit _ => true
  | .hostLaneSignal => true
  | .beacon _ b => beaconOk b
  | .primarySilent => true
  | .pontoonPeerLost _ => true
  | .flashRead _ _ size _ => size ≤ 4096
  | .flashUnlock1 _ _ _ => true
  | .flashUnlock2 _ _ _ => true
  | .sequenceTimeout _ => true
  | .pageProgram _ _ _ _ => true
  | .blockErase _ _ _ _ => true
  | .flashStatus _ _ _ => true
  | .flashExit _ _ _ => true
  | .flashReset _ _ _ => true
  | .pageBufferWrite _ _ _ data => 0 < data.length && data.length ≤ 4096
  | .flashOpDone _ _ unc => unc ≤ 1024
  | .flashStrayWrite _ _ _ data => 0 < data.length && data.length ≤ 4096
  | .holdupCompare _ => true
  | .spareFill _ _ _ => true
  | .imageBegin manifest relayed => manifest.length = 256 && relayed.1 < 256 && relayed.2 < 256
  | .imageBlock data _ relayed => data.length ≤ 4096 && relayed.1 < 256 && relayed.2 < 256
  | .holdupRetry _ => true
  | .imageCommit _ relayed => relayed.1 < 256 && relayed.2 < 256
  | .imageStatus relayed => relayed.length ≤ 16
  | .errUnitClear _ _ _ => true
  | .unitResetEnd _ => true
  | .laneRetrained _ _ _ => true
  | .scrubWord _ _ => true
  | .flashScrub _ => true
  | .blackBoxClear _ _ => true
  | .pmcOverflow _ _ => true
  | .pmcSnapshot _ _ => true
  | .markerSample _ _ _ _ => true
  | .pwrGoodRise _ => true
  | .domainFallComplete _ => true
  | .enableLowHoldEnd _ => true
  | .tempSample _ _ => true
  | .thermalRecovery => true
  | .thermNLow => true
  | .mgmtWrite _ _ => true
  | .mgmtRead _ _ => true
  | .mgmtDone _ _ => true
  | .mgmtTimeout => true
  | .hubReady => true

end Sys2Proof
end

