-- ==== Sys2Proof/Tests/Slice0.lean ====
section
/-! SUPPORT. Tests/Slice0.lean: the author's own tests. First small states; then the smoke of WellFormed, one refused term for each check; then
check values and worked numbers of the spec; then, for each statement with hypotheses, a state and operands that meet them. -/

set_option autoImplicit false
set_option maxRecDepth 20000
set_option Elab.async false
set_option linter.unusedSimpArgs false
set_option linter.unusedTactic false
set_option linter.unreachableTactic false
set_option linter.unusedVariables false
set_option linter.dupNamespace false
set_option linter.unnecessarySeqFocus false

namespace Sys2Proof
open Sys2Proof.Machine

/-- 32-bit words stored from an address on. -/
def Machine.State.words (s : State) (a : Nat) (l : List Nat) : State := s.setBytes a (l.flatMap fun (w : Nat) => toBytes 4 w)

namespace Tests

/-! ### Small states -/

/-- Hub up and ready, every domain up, every tile WARM. -/
def up : State :=
  { State.reset with
    pwr := { State.reset.pwr with
             dom := .replicate 16 .up, mode := .run, pwrEn := 15, pwrGood := 15, tcxoEn := true, tcxoReady := true, pllLocked := true, xtalStable := true, refclk := true }
    boot := { State.reset.boot with step := 0, ready := true }
    clk := { State.reset.clk with holder := .hub }
    tiles := .replicate 8 { TileSt.initial with radio := .warm }
    regs := [] }
def run0 (x : Engine) : Engine :=
  { x with
    run := true, state := .running, ran := true
    r := { x.r with
           pc := 0x100
           w := #v[0, 0x12345678, 0x80000001, 7, 64, 0x20000, 2, 1, 0xFFFFFFFF, 9, 10, 11, 12, 13, 14, 15]
           v := #v[.ofFn fun (i : Fin 16) => BitVec.ofNat 32 (0x3C003C00 + 0x10001 * i.val), .ofFn fun (i : Fin 16) => BitVec.ofNat 32 (0x4000BC00 + i.val),
                   .replicate 16 0x38003400, .ofFn fun (i : Fin 16) => BitVec.ofNat 32 (4 * i.val)] } }
/-- Engine 0 runs at supervisor level. -/
def eng0 : State := up.updEng 0 run0
def er (f : EngRegs → EngRegs) : State := eng0.updEng 0 fun x => { x with r := f x.r }
def ee (f : Engine → Engine) : State := eng0.updEng 0 f
/-- Engine 0 stands at the word ADD w1, w2, w3. -/
def issuesAdd : State := eng0.setBytes (lmBase 0 + 0x100) (toBytes 4 (1 * 2 ^ 21 + 2 * 2 ^ 17 + 3 * 2 ^ 13))
def lnkUp (l : Nat) : State := up.updLink l fun x => { x with state := .active, kept := true, berths := (256, 512, 512) }
/-- descriptor words: window 40, slot 0, nbr 1, dir 0, len 3, swatch 5 -/
def dw0 (win dir slot : Nat) : Nat := 2 ^ 31 + 3 * 2 ^ 27 + dir * 2 ^ 26 + 1 * 2 ^ 20 + slot * 2 ^ 16 + win
def dw1 : Nat := 5 * 4096 + 3
/-- image 0 at 0x1005000 with one descriptor at window 40, swatch 5 on tile 0 -/
def img : State :=
  ((((({ up with xng := { up.xng with fetchFrom := 1280 * 20 } }.words 0x1005000 [dw0 40 0 0, dw1, 7, 0]).set (R.XNG_WINDOW_BASE_base 0) 0x100500).set (R.XNG_WINDOW_COUNT_count 0) 1).set R.XNG_CTRL_enable 1).set (R.DIR0_use 5) 3).set (R.DIR0_tiles 5) 1
/-- push ring at 0x1006000 with one entry: window 80 at 80 * 1280 -/
def psh : State := (((img.words 0x1006000 [dw0 100 0 1, dw1, 7, 0, 100 * 1280, 0, 0, 0]).set R.XNG_PUSH_BASE_base (0x1006000 / 32)).set R.XNG_PUSH_PTR_wr 1)
/-- A receive descriptor for neighbour 1 on slot 0. -/
def dsc : Desc :=
  { valid := true, mcs := 3, dir := 0, nbr := 1, slot := 0, start := 0, window := 0, hipri := false, ret := 1, rclass := 0, pair := false, cond := false, sweep := false, swatch := 5, len := 3,
    useRef := false, ref := 0, xid := 7, user := 0, raw := [] }
def cx : Crossing :=
  { id := 1, src := .image 0 0, d := dsc, winStart := 128000, b0 := 128000, ends := 160000, tiles := 1, swatch := 5, pushed := false, checked := true, started := true, txTag := none, ackOnly := false,
    leadHeard := false, searchEnded := false, coexAsked := false, coexHeld := false }
def cxTx : Crossing := { cx with d := { dsc with dir := 1 }, ackOnly := true, started := false }
def pfr : PhyFrame :=
  { nbr := 1, crossing := 1, heads := 2, ends := 160000, xid := 7, cut := none, lead := 2048000, leadErr := 0, broadcast := false, cfo := 0, snr := 20, agc := 0, press := 0, maxIter := 12, hdrDone := false, mcs := 3, ncw := 0,
    lastBytes := 0, hdr := [], blocks := 0, queued := 0, words := [], failed := 0, iters := 0, soft := false, softTrunc := false, softHeld := [], softDesc := none, encoded := 0, body := [], tag := 0,
    seq := 0, ackOnly := false, pipe := none }
def cwd : Codeword := { slot := 0, crossing := 1, index := 0, mcs := 3, press := 0, maxIter := 12, limit := 12, under := false }
def cfr : PipeFrame :=
  { rx := false, nbr := 1, slot := 0, segs := 1, keySlot := none, hdr := List.replicate 24 0, body := [], lead := 2048000, snr := 20, xid := 7, timed := false, ok := none, pipe := none }
def txd : TxDesc := ⟨.ok, 0, 4, 1, 2, false, false, false, 7, [1, 2, 3, 4]⟩
def txf : TxFrame := { tag := 7, index := 0, cls := 2, once := false, data := [1, 2, 3, 4], horizon := 100, seq := some 5, attempts := 1, phase := .sent, lastTxEnd := 50, twins := [] }
def rxf : RxFrame := { cls := 2, seq := 5, lead := 2048000, snr := 20, synced := true, broadcast := false, data := [1, 2, 3, 4], pool := none, pipe := 0, segs := 1 }
def hdr0 : List Byte := [0, 0, 0, 0, 1, 0, 1, 0, 2, 0, 5, 0, 0, 0, 0, 0, 0, 0, 0, 0, 0, 0, 4, 0, 0, 0x10, 0, 0]
def cfrx : PipeFrame := { cfr with rx := true, hdr := hdr0, body := [1, 2, 3, 4] ++ toBytes 4 (frameCheck (hdrDst hdr0) (hdrSrc hdr0) (hdrSeq hdr0) 7 [1, 2, 3, 4]) }
def nb (n : Nat) (f : NbrSt → NbrSt) : State := up.updNbr n f
def ks : KeySlot := ⟨List.replicate 16 1, 3, 1000, 900, 5⟩
def pip (s : State) (f : Pipe → Pipe) : State := { s with pipes := s.pipes.set 0 (f s.pipes[0]) }
def dm (d : Nat) (x : DomPhase) : State := { up with pwr := { up.pwr with dom := Vector.ofFn fun (i : Fin 16) => if i.val = d then x else up.pwr.dom[i] } }
def dms (s : State) (f : Pwr → Pwr) : State := { s with pwr := f s.pwr }
def lk (l : Nat) (f : Link → Link) : State := (lnkUp l).updLink l f
def sn : TrainSeen := ⟨15, 0, 0, 2, true, 5⟩
def fb (k : Nat) (f : FlashBank → FlashBank) : State := up.updFbank k f
def fz (k : Nat) (f : FlashBank → FlashBank) : State := (fb k f).set R.FLC_HOLDUP_CTRL_check 0
def lks (s : State) (l : Nat) (f : Link → Link) : State := s.updLink l f
def cd : CmdDesc := ⟨0x8000, 4096, 0x41, false, 6, List.replicate 16 0⟩
/-- own target 0xFF, offset o, crc c -/
def blockArgs (o c tgt : Nat) : List Byte := toBytes 4 o ++ toBytes 4 c ++ toBytes 1 tgt ++ List.replicate 7 0
/-- stage RUN, command d served, session of kind 2 and size n open, check off -/
def upd (d : CmdDesc) (f : State → State) : State :=
  let s := ((lnkUp 4).set R.HUB_BOOT_STATUS_stage 2).set R.FLC_HOLDUP_CTRL_check 0
  f { s with upd := { s.upd with cmd := some d }, lnk := { s.lnk with cmds := [(d.tag, 3)] } }
def sess (n : Nat) (s : State) : State := s.setBytes (journalBase + 256) (sessionBytes 1 2 255 n)
def xs (n : Nat) : Session := ⟨1, 2, 255, n, false⟩
def rec (j : Nat) (s : State) : State := s.setBytes (journalBase + 512 + 8 * j + 6) (toBytes 2 0x5D5D)
def ch (d : Nat) : List Byte := List.replicate d 7
def xn (f : Xng → Xng) : State := { up with xng := f up.xng }
def sl (f : SlotSt → SlotSt) : State := up.updSlot 0 f

/-! ### Hypotheses in a form that can be evaluated -/

theorem opens_iff (s : State) (ini : Initiator) (w : Bool) (a v : Nat) :
    s.opens ini w a v ↔ s.hubUp = true ∧ (isKeel ini || !keelOwned w a 4 v) = true ∧ (windowDomain a).all (fun d => s.domRuns d) = true ∧
      s.ctlBlocked ini a false = false ∧ s.ctlBlocked ini a true = false := by
  unfold State.opens State.lanesFree
  cases windowDomain a <;> simp

theorem noWait_iff (x : Option EngWait) : (∀ p : EngWait, x ≠ some p) ↔ x = none := by
  cases x <;> simp

theorem direct_iff (s : State) (g : Nat) : s.direct g ↔ (match (s.eng g).ctx with | .shadow _ _ _ _ => false | _ => true) = true := by
  unfold State.direct
  cases (s.eng g).ctx <;> simp

theorem engWait_none (s : State) (h : ∀ g : Fin 96, (s.engs[g]).wait = none) (g : Nat) : (s.eng g).wait = none :=
  h ⟨g % 96, Nat.mod_lt _ (by decide)⟩

theorem hub_lanes (s : State) (ini : Initiator) (a : Nat) (h : iniTile ini = none) (k : addrTile a = none) : s.lanesFree ini a := by
  unfold State.lanesFree State.ctlBlocked
  simp only [h, k, bne_self_eq_false, Bool.false_and, and_self]
theorem sram_lanes (s : State) (a : Nat) (_ : 0x1005000 ≤ a) (h : a < 0x1C00000) : s.lanesFree (engIni 0) a :=
  hub_lanes s _ a (by decide) (by unfold addrTile; simp only [Bool.and_eq_true, decide_eq_true_eq]; rw [if_neg]; omega)
theorem quiet_boundary (s : State) (g : Nat) (a : (s.eng g).agentWrites = []) (r : ((s.eng g).run || (s.eng g).state != .running) = true) :
    s.engBoundary g = s := by
  have c : ∀ b : Bool, (!(s.eng g).run && (s.eng g).state == .running && b) = false := by
    intro b
    cases hr : (s.eng g).run <;> simp_all
  have e : ({ s.eng g with agentWrites := [] } : Engine) = s.eng g := by rw [← a]
  unfold State.engBoundary
  simp only [State.updEng, a, List.foldl_nil, e, c, Bool.false_eq_true, if_false]
  split
  · rfl
  · have v : vset s.engs g (s.eng g) = s.engs := Vector.set_getElem_self _
    rw [v]
theorem quiet_boundaries (s : State) (h : ∀ g : Fin 96, (s.engs[g]).agentWrites = [] ∧ ((s.engs[g]).run || (s.engs[g]).state != .running) = true) (g : Nat) :
    s.engBoundary g = s :=
  quiet_boundary s g (h ⟨g % 96, Nat.mod_lt _ (by decide)⟩).1 (h ⟨g % 96, Nat.mod_lt _ (by decide)⟩).2

/-- The manifest of an image of kind 2, version 0, with an empty body (Table 7.7): its hash, public key and signature were computed outside the model. -/
def manifest : List Byte :=
  [0x4C, 0x4E, 0x4D, 0x46, 2, 0, 0, 0, 0xFF, 0xFF, 0xFF, 0xFF] ++ List.replicate 12 0 ++
    bytesOf (numBytes 32 0xE3B0C44298FC1C149AFBF4C8996FB92427AE41E4649B934CA495991B7852B855) ++
    bytesOf (numBytes 32 0x60FED4BA255A9D31C961EB74C6356D68C049B8923B61FA6CE669622E60F29FB6) ++
    bytesOf (numBytes 32 0x7903FE1008B8BC99A41AE9E95628BC64F2F1B20C2D7E9F5177A3C294D4462299) ++
    bytesOf (numBytes 32 0xEFD48B2AACB6A8FD1140DD9CD45E81D69D2C877B56AAF991C34D0EA84EAF3716) ++
    bytesOf (numBytes 32 0xD2535F1976C232AF408946AC8E85A1FFDF2BCE5B296B1F3CDD87982A6333FE45) ++ List.replicate 72 0
/-- The hash of its public key, which the fuses hold. -/
def rootHash : List Byte := bytesOf (numBytes 32 0xD6C23E2744A840CB3A5A14B6554CCE7C070057C4E3298CB93577DE687EECE659)
def fused (s : State) : State := s.setBytes otpBase rootHash

theorem getD_false (n k : Nat) : (List.replicate n false).getD k false = false := by
  simp only [List.getD_eq_getElem?_getD, List.getElem?_replicate]
  split <;> rfl
theorem bitBlocks_false : bitBlocks (List.replicate 2048 false) 32 = List.replicate 32 0 := by
  unfold bitBlocks
  simp only [getD_false]
  decide +kernel
theorem noBits_check : ldpcChecks (mcsRows 3) (bitBlocks (List.replicate 2048 false) 32) = true := by
  rw [bitBlocks_false]
  decide +kernel

/-- A bell for everyone with the tag of the module's key, in a window of receiver 1: AES-CMAC of its six bytes under the zero key begins with 0x4317, as computed
outside the model. -/
def belled : State := { (up.set R.AON_WK_STATE_states 8).set R.AON_BELL_CTRL_key_valid 1 with clk := { up.clk with mesh := 17920000 } }
def bellIn : Bell := ⟨0xFFFF, 0x90, 0, 0x4317, bellCrc 0xFFFF 0x90 0 0x4317⟩
theorem test_bell_tag : belled.bellTag 0xFFFF 0x90 0 = 0x4317 := by decide +kernel
theorem bellIn_auth : belled.bellAuth bellIn = true := by
  have h : belled.on R.AON_BELL_CTRL_key_valid = true := by decide +kernel
  unfold State.bellAuth bellIn
  simp only [h, test_bell_tag]
  decide

/-- The whole session of the manifest is written: COMMIT is the next command. -/
def written : State := upd { cd with opcode := 0x42, args := [255] } fun s => (rec 0 (sess 256 (fused s))).setBytes (imageBase 2) manifest
/-- FIPS 180-4 and FIPS 186: the key's hash, the empty body's hash and the signature, against values computed outside the model. -/
theorem test_key_hash : sha256 (slice manifest 56 64) = rootHash := by decide +kernel
theorem test_empty_hash : sha256 [] = slice manifest 24 32 := by decide +kernel
theorem test_signature : ecdsaVerify (slice manifest 56 64) (slice manifest 0 120) (slice manifest 120 64) = true := by decide +kernel
theorem manifest_good (s : State) (kinds : List Nat) (k : kinds.contains 2 = true) (h : s.bytes otpBase 32 = rootHash)
    (r : (ofBytes (s.bytes (otpBase + 0x80) 4)).testBit 0 = false) (v : s.minVersion 2 = 0) : s.manifestCheck manifest kinds = 0 := by
  have e4 : field manifest 4 1 = 2 := by decide +kernel
  have e5 : field manifest 5 1 = 0 := by decide +kernel
  have e6 : field manifest 6 2 = 0 := by decide +kernel
  have e0 : field manifest 0 4 = 0x464D4E4C := by decide +kernel
  have z1 : zeros manifest 20 4 = true := by decide +kernel
  have z2 : zeros manifest 184 72 = true := by decide +kernel
  unfold State.manifestCheck
  simp only [e4, e5, e6, e0, z1, z2, k, test_key_hash, test_signature, h, r, v, Nat.mul_zero, Nat.add_zero]
  decide
theorem written_manifest : written.flashManifest 2 = manifest := by decide +kernel
theorem written_body : written.flashBytes (imageBase 2 + 256) 0 = [] := by decide +kernel
theorem written_ok : written.flashImageOk 2 [] = true := by
  have l : bodyLength manifest = 0 := by decide +kernel
  have c : written.manifestCheck manifest [2] = 0 :=
    manifest_good written [2] (by decide) (by decide +kernel) (by decide +kernel) (by decide +kernel)
  unfold State.flashImageOk State.imageCheck
  simp only [written_manifest, l, written_body, c, test_empty_hash]
  decide

/-! ### WellFormed: one refused term for each check -/

theorem test_wellFormed_refuses_accesses :
    WellFormed (.registerWrite .host false 0 5 0) = false ∧ WellFormed (.flashRead .host 0 4097 []) = false ∧
    WellFormed (.pageBufferWrite .host false 0 []) = false ∧ WellFormed (.flashStrayWrite .host false 0 []) = false ∧
    WellFormed (.flashOpDone 0 false 1025) = false := by decide

theorem test_wellFormed_refuses_packets :
    WellFormed (.rd 4 ⟨false, 1024, 0, 4⟩ []) = false ∧ WellFormed (.rd 4 ⟨false, 0, 2 ^ 32, 4⟩ []) = false ∧
    WellFormed (.rd 4 ⟨false, 0, 0, 4097⟩ []) = false ∧ WellFormed (.wr 4 ⟨false, 1024, 0, 4⟩ []) = false ∧
    WellFormed (.wrp 4 ⟨false, 1024, 0, 4⟩ []) = false := by decide

theorem test_wellFormed_refuses_long_data :
    WellFormed (.wr 4 ⟨false, 0, 0, 4⟩ (List.replicate 4097 0)) = false ∧ WellFormed (.wrp 4 ⟨false, 0, 0, 4⟩ (List.replicate 4097 0)) = false ∧
    WellFormed (.cpld 4 0 .ok (List.replicate 4097 0)) = false ∧ WellFormed (.pageBufferWrite .host false 0 (List.replicate 4097 0)) = false ∧
    WellFormed (.flashStrayWrite .host false 0 (List.replicate 4097 0)) = false := by
  simp only [WellFormed, List.length_replicate]
  decide

theorem test_wellFormed_refuses_descriptors :
    WellFormed (.rxFrameLanding 0 [⟨2 ^ 64, 0, 0⟩]) = false ∧ WellFormed (.rxFrameLanding 0 [⟨0, 65536, 0⟩]) = false ∧
    WellFormed (.rxFrameLanding 0 [⟨0, 0, 65536⟩]) = false ∧ WellFormed (.txDescriptorRead 0 { txd with buf := 2 ^ 64 }) = false ∧
    WellFormed (.txDescriptorRead 0 { txd with len := 65536 }) = false ∧ WellFormed (.txDescriptorRead 0 { txd with nbr := 64 }) = false ∧
    WellFormed (.txDescriptorRead 0 { txd with cls := 8 }) = false ∧ WellFormed (.txDescriptorRead 0 { txd with tag := 65536 }) = false ∧
    WellFormed (.commandDescriptorRead { cd with buf := 2 ^ 64 }) = false ∧ WellFormed (.commandDescriptorRead { cd with len := 2 ^ 32 }) = false ∧
    WellFormed (.commandDescriptorRead { cd with opcode := 256 }) = false ∧ WellFormed (.commandDescriptorRead { cd with tag := 1024 }) = false ∧
    WellFormed (.commandDescriptorRead { cd with args := [] }) = false := by decide

theorem test_wellFormed_refuses_air :
    WellFormed (.headerDecode 0 []) = false ∧ WellFormed (.blockEqualised 0 ⟨[], 65536, [], [], none⟩) = false ∧
    WellFormed (.captureTick [(512, [])]) = false ∧ WellFormed (.tensionComplete 0 [(512, 0, 0, 0)] []) = false ∧
    WellFormed (.tensionComplete 0 [] [(0, 8, 0, 0)]) = false ∧ WellFormed (.horizonExpiry 0 65536) = false := by decide

theorem test_wellFormed_refuses_long_blocks :
    WellFormed (.captureTick [(0, List.replicate 257 0)]) = false ∧
    WellFormed (.blockEqualised 0 ⟨[], 0, List.replicate 65 0, [], none⟩) = false ∧
    WellFormed (.blockEqualised 0 ⟨[], 0, [], List.replicate 897 0, none⟩) = false := by
  simp only [WellFormed, softBlockOk, List.length_replicate, List.all_cons, List.all_nil]
  decide

theorem test_wellFormed_refuses_bells_and_boots :
    WellFormed (.bellReceived 0 ⟨65536, 0, 0, 0, 0⟩ true) = false ∧ WellFormed (.bellReceived 0 ⟨0, 256, 0, 0, 0⟩ true) = false ∧
    WellFormed (.bellReceived 0 ⟨0, 0, 65536, 0, 0⟩ true) = false ∧ WellFormed (.bellReceived 0 ⟨0, 0, 0, 65536, 0⟩ true) = false ∧
    WellFormed (.bellReceived 0 ⟨0, 0, 0, 0, 65536⟩ true) = false ∧ WellFormed (.pllLock ⟨4, []⟩) = false := by decide

theorem test_wellFormed_refuses_trainings_and_beacons :
    WellFormed (.linkTrained 0 { sn with lanes := 65536 }) = false ∧
    WellFormed (.linkTrained 0 { sn with peerEpoch := 65536 }) = false ∧ WellFormed (.linkTrained 0 { sn with peerResume := 4096 }) = false ∧
    WellFormed (.linkTrained 0 { sn with peerIndex := 4 }) = false ∧ WellFormed (.linkTrained 0 { sn with delay := 65536 }) = false ∧
    WellFormed (.beacon 0 ⟨2 ^ 64, 0, 0, [], 0, 0, 0⟩) = false ∧ WellFormed (.beacon 0 ⟨0, 256, 0, [], 0, 0, 0⟩) = false ∧
    WellFormed (.beacon 0 ⟨0, 0, 256, [], 0, 0, 0⟩) = false ∧ WellFormed (.beacon 0 ⟨0, 0, 0, [2 ^ 48], 0, 0, 0⟩) = false ∧
    WellFormed (.beacon 0 ⟨0, 0, 0, List.replicate 65 0, 0, 0, 0⟩) = false ∧ WellFormed (.beacon 0 ⟨0, 0, 0, [], 2 ^ 64, 0, 0⟩) = false ∧
    WellFormed (.beacon 0 ⟨0, 0, 0, [], 0, 2 ^ 64, 0⟩) = false := by decide

theorem test_wellFormed_refuses_images :
    WellFormed (.imageBegin [] (0, 0)) = false ∧ WellFormed (.imageBegin (List.replicate 256 0) (256, 0)) = false ∧
    WellFormed (.imageBegin (List.replicate 256 0) (0, 256)) = false ∧ WellFormed (.imageBlock (List.replicate 4097 0) 0 (0, 0)) = false ∧
    WellFormed (.imageBlock [] 0 (256, 0)) = false ∧ WellFormed (.imageBlock [] 0 (0, 256)) = false ∧ WellFormed (.imageCommit [] (256, 0)) = false ∧
    WellFormed (.imageCommit [] (0, 256)) = false ∧ WellFormed (.imageStatus (List.replicate 17 0)) = false := by
  simp only [WellFormed, List.length_replicate]
  decide

/-! ### Worked numbers of the spec -/

/-- The nine bytes of Example 6.2. -/
def nine : List Byte := [0x31, 0x32, 0x33, 0x34, 0x35, 0x36, 0x37, 0x38, 0x39]

/-- Example 6.2: the check values of the four polynomials. -/
theorem test_check_values :
    crc32c nine = 0xE3069283 ∧ crcBytes 1 0 0xFFFFFFFF nine ^^^ 0xFFFFFFFF = 0xCBF43926 ∧ headerCrc nine = 0x29B1 ∧ phyCrc nine = 0xF4 := by
  decide +kernel

/-- Example 4.1: 4,116 bytes at MCS 14 are 19 codewords, the last of 84 bytes, in a frame of 20 blocks. -/
theorem test_frame_of_example : splitPayload 14 4116 = (19, 84) ∧ frameBlocks 14 19 = 20 := by decide +kernel

/-- Example 7.1: the nonce of a third transmission. -/
theorem test_nonce : nonce 0x1A2B3C4D 1000 0x0102 2 0x05 false = [0x1A, 0x2B, 0x3C, 0x4D, 0, 0, 0x03, 0xE8, 0x01, 0x02, 0x20, 0x05] := by
  decide +kernel

/-- Example 8.1: the fold of a frame. -/
theorem test_fold : fold 0x0207 0x0102 1000 0x0031 = [0x07, 0x02, 0x02, 0x01, 0xE8, 0x03, 0, 0, 0x31, 0] := by decide +kernel

/-- Example 6.1: the two short operations of the pair word 0x88D0_4AB4. -/
theorem test_short_operations : ShortOp.ofBits 0x8D0 = ⟨2, 3, 4, 0⟩ ∧ ShortOp.ofBits 0x255A = ⟨9, 5, 6, 2⟩ := by decide +kernel

/-- Example 6.3: binary16 to a fragment word, without a flag. -/
theorem test_narrowing : laneToQ false 0x35A8B5A8 = (0x002D4D2C, 0) := by decide +kernel

/-- Example 2.3: a lost tile costs 74/64 dB. -/
theorem test_mask_loss : maskLoss (512 * 2047) (448 * 2047) = 74 := by decide +kernel

/-- R24: the first window boundary after reset of mesh time is at 1,280 ticks. -/
theorem test_window_boundary : (match exec (.windowBoundary []) up with | .next t => t.clk.mesh | _ => 0) = 1280 := by decide +kernel

/-- Table 0.1: a write to an unassigned address inside a block changes no register (R6). -/
theorem test_unassigned_write : (match exec (.registerWrite .host false 0x020000F0 4 5) up with | .next t => t.regs | _ => [((R.HUB_ID_part).key, 0)]) = [] := by
  decide +kernel

/-- R118: the sixteen lead codes are mutually orthogonal at zero lag. -/
theorem test_lead_codes_orthogonal :
    ∀ c d : Fin 16, c ≠ d → ((leadSeq c.val).zip (leadSeq d.val)).foldl (fun n p => n + p.1 * p.2) 0 = 0 := by decide +kernel

/-- R123: a single 1 comes out as the generators' own bits, 133 before 171. -/
theorem test_header_code :
    ((convEncode (true :: List.replicate 223 false)).take 14) =
      [true, true, false, true, true, true, true, true, false, false, true, false, true, true] := by decide +kernel

/-- R113: a block is 512 symbols. -/
theorem test_block_length : (airBlock true (dataSymbols 0 [])).length = 512 ∧ (airBlock false (dataSymbols 14 [])).length = 512 := by decide +kernel

/-- No word of the table spells a command. -/
theorem test_no_word (n w : Nat) : decodeTableWord n w = none := rfl

/-! ### States and operands that meet the hypotheses of the statements -/

theorem test_hypotheses_LongWords :
    (∃ (s : State) (g : Fin 96), s.issues g.val WordKind.plain) ∧
    (∃ (s : State) (g : Fin 96) (imm : BitVec 17), s.issues g.val WordKind.plain ∧ imm.toNat < 32) := by
  refine ⟨⟨eng0, default, ?_⟩, ⟨eng0, default, 5, ?_⟩⟩ <;>
    (try simp only [opens_iff, noWait_iff, direct_iff, State.issues, State.mayFault, State.pairs, State.plainSram, State.alone, State.linkClear,
      State.lanesFree, State.unfenced]) <;> decide +kernel

theorem test_hypotheses_ShortAndCrcWords :
    (∃ (s : State) (g : Fin 96) (inB : Bool) (d : Fin 16) (b : Fin 16) (other : BitVec 15), s.issues g.val WordKind.plain ∧
     s.pairs g.val inB { opc := 1, d := d.val, sv := b.val, sub := 0 } (ShortOp.ofBits other.toNat)) ∧
    (∃ (s : State) (g : Fin 96) (inB : Bool) (d : Fin 16) (b : Fin 16) (other : BitVec 15), s.issues g.val WordKind.plain ∧
     s.pairs g.val inB { opc := 1, d := d.val, sv := b.val, sub := 1 } (ShortOp.ofBits other.toNat)) ∧
    (∃ (s : State) (g : Fin 96) (inB : Bool) (d : Fin 16) (b : Fin 16) (other : BitVec 15), s.issues g.val WordKind.plain ∧
     s.pairs g.val inB { opc := 1, d := d.val, sv := b.val, sub := 2 } (ShortOp.ofBits other.toNat)) ∧
    (∃ (s : State) (g : Fin 96) (inB : Bool) (d : Fin 16) (b : Fin 16) (other : BitVec 15), s.issues g.val WordKind.plain ∧
     s.pairs g.val inB { opc := 2, d := d.val, sv := b.val, sub := 0 } (ShortOp.ofBits other.toNat)) ∧
    (∃ (s : State) (g : Fin 96) (inB : Bool) (d : Fin 16) (b : Fin 16) (other : BitVec 15), s.issues g.val WordKind.plain ∧
     s.pairs g.val inB { opc := 2, d := d.val, sv := b.val, sub := 1 } (ShortOp.ofBits other.toNat)) ∧
    (∃ (s : State) (g : Fin 96) (inB : Bool) (d : Fin 16) (b : Fin 16) (other : BitVec 15), s.issues g.val WordKind.plain ∧
     s.pairs g.val inB { opc := 2, d := d.val, sv := b.val, sub := 2 } (ShortOp.ofBits other.toNat)) ∧
    (∃ (s : State) (g : Fin 96) (inB : Bool) (d : Fin 16) (b : Fin 16) (other : BitVec 15), s.issues g.val WordKind.plain ∧
     s.pairs g.val inB { opc := 2, d := d.val, sv := b.val, sub := 3 } (ShortOp.ofBits other.toNat)) ∧
    (∃ (s : State) (g : Fin 96) (inB : Bool) (d : Fin 16) (b : Fin 16) (other : BitVec 15), s.issues g.val WordKind.plain ∧
     s.pairs g.val inB { opc := 3, d := d.val, sv := b.val, sub := 0 } (ShortOp.ofBits other.toNat)) ∧
    (∃ (s : State) (g : Fin 96) (inB : Bool) (d : Fin 16) (b : Fin 16) (other : BitVec 15), s.issues g.val WordKind.plain ∧
     s.pairs g.val inB { opc := 3, d := d.val, sv := b.val, sub := 1 } (ShortOp.ofBits other.toNat)) ∧
    (∃ (s : State) (g : Fin 96) (inB : Bool) (d : Fin 16) (b : Fin 16) (other : BitVec 15), s.issues g.val WordKind.plain ∧
     s.pairs g.val inB { opc := 3, d := d.val, sv := b.val, sub := 2 } (ShortOp.ofBits other.toNat)) ∧
    (∃ (s : State) (g : Fin 96) (inB : Bool) (d : Fin 16) (b : Fin 16) (other : BitVec 15), s.issues g.val WordKind.plain ∧
     s.pairs g.val inB { opc := 3, d := d.val, sv := b.val, sub := 3 } (ShortOp.ofBits other.toNat)) ∧
    (∃ (s : State) (g : Fin 96) (inB : Bool) (d : Fin 16) (b : Fin 16) (other : BitVec 15), s.issues g.val WordKind.plain ∧
     s.pairs g.val inB { opc := 4, d := d.val, sv := b.val, sub := 0 } (ShortOp.ofBits other.toNat)) ∧
    (∃ (s : State) (g : Fin 96) (inB : Bool) (d : Fin 16) (b : Fin 16) (other : BitVec 15), s.issues g.val WordKind.plain ∧
     s.pairs g.val inB { opc := 4, d := d.val, sv := b.val, sub := 1 } (ShortOp.ofBits other.toNat)) ∧
    (∃ (s : State) (g : Fin 96) (inB : Bool) (d : Fin 16) (b : Fin 16) (other : BitVec 15), s.issues g.val WordKind.plain ∧
     s.pairs g.val inB { opc := 4, d := d.val, sv := b.val, sub := 2 } (ShortOp.ofBits other.toNat)) ∧
    (∃ (s : State) (g : Fin 96) (inB : Bool) (d : Fin 16) (b : Fin 16) (other : BitVec 15), s.issues g.val WordKind.plain ∧
     s.pairs g.val inB { opc := 4, d := d.val, sv := b.val, sub := 3 } (ShortOp.ofBits other.toNat)) ∧
    (∃ (s : State) (g : Fin 96) (inB : Bool) (d : Fin 16) (b : Fin 16) (other : BitVec 15), s.issues g.val WordKind.plain ∧
     s.pairs g.val inB { opc := 5, d := d.val, sv := b.val, sub := 0 } (ShortOp.ofBits other.toNat)) ∧
    (∃ (s : State) (g : Fin 96) (inB : Bool) (d : Fin 16) (b : Fin 16) (other : BitVec 15), s.issues g.val WordKind.plain ∧
     s.pairs g.val inB { opc := 5, d := d.val, sv := b.val, sub := 1 } (ShortOp.ofBits other.toNat)) ∧
    (∃ (s : State) (g : Fin 96) (inB : Bool) (d : Fin 16) (b : Fin 16) (other : BitVec 15), s.issues g.val WordKind.plain ∧
     s.pairs g.val inB { opc := 5, d := d.val, sv := b.val, sub := 2 } (ShortOp.ofBits other.toNat)) ∧
    (∃ (s : State) (g : Fin 96) (inB : Bool) (d : Fin 16) (b : Fin 16) (other : BitVec 15), s.issues g.val WordKind.plain ∧
     s.pairs g.val inB { opc := 5, d := d.val, sv := b.val, sub := 3 } (ShortOp.ofBits other.toNat)) ∧
    (∃ (s : State) (g : Fin 96) (inB : Bool) (d : Fin 16) (b : Fin 16) (other : BitVec 15), s.issues g.val WordKind.plain ∧
     s.pairs g.val inB { opc := 6, d := d.val, sv := b.val, sub := 0 } (ShortOp.ofBits other.toNat)) ∧
    (∃ (s : State) (g : Fin 96) (inB : Bool) (d : Fin 16) (b : Fin 16) (other : BitVec 15), s.issues g.val WordKind.plain ∧
     s.pairs g.val inB { opc := 7, d := d.val, sv := b.val, sub := 0 } (ShortOp.ofBits other.toNat)) ∧
    (∃ (s : State) (g : Fin 96) (inB : Bool) (d : Fin 16) (b : Fin 16) (other : BitVec 15), s.issues g.val WordKind.plain ∧
     s.pairs g.val inB { opc := 7, d := d.val, sv := b.val, sub := 1 } (ShortOp.ofBits other.toNat)) ∧
    (∃ (s : State) (g : Fin 96) (inB : Bool) (d : Fin 16) (b : Fin 16) (other : BitVec 15), s.issues g.val WordKind.plain ∧
     s.pairs g.val inB { opc := 7, d := d.val, sv := b.val, sub := 2 } (ShortOp.ofBits other.toNat)) ∧
    (∃ (s : State) (g : Fin 96) (inB : Bool) (d : Fin 16) (b : Fin 16) (other : BitVec 15), s.issues g.val WordKind.plain ∧
     s.pairs g.val inB { opc := 7, d := d.val, sv := b.val, sub := 3 } (ShortOp.ofBits other.toNat)) ∧
    (∃ (s : State) (g : Fin 96) (inB : Bool) (d : Fin 16) (b : Fin 16) (other : BitVec 15), s.issues g.val WordKind.plain ∧
     s.pairs g.val inB { opc := 8, d := d.val, sv := b.val, sub := 0 } (ShortOp.ofBits other.toNat)) ∧
    (∃ (s : State) (g : Fin 96) (inB : Bool) (d : Fin 16) (b : Fin 16) (other : BitVec 15), s.issues g.val WordKind.plain ∧
     s.pairs g.val inB { opc := 8, d := d.val, sv := b.val, sub := 1 } (ShortOp.ofBits other.toNat)) ∧
    (∃ (s : State) (g : Fin 96) (inB : Bool) (d : Fin 16) (b : Fin 16) (other : BitVec 15), s.issues g.val WordKind.plain ∧
     s.pairs g.val inB { opc := 8, d := d.val, sv := b.val, sub := 2 } (ShortOp.ofBits other.toNat)) ∧
    (∃ (s : State) (g : Fin 96) (inB : Bool) (d : Fin 16) (b : Fin 16) (other : BitVec 15), s.issues g.val WordKind.plain ∧
     s.pairs g.val inB { opc := 8, d := d.val, sv := b.val, sub := 3 } (ShortOp.ofBits other.toNat)) ∧
    (∃ (s : State) (g : Fin 96) (inB : Bool) (other : BitVec 15), s.issues g.val WordKind.plain ∧
     s.pairs g.val inB { opc := 0, d := 0, sv := 0, sub := 0 } (ShortOp.ofBits other.toNat)) ∧
    (∃ (s : State) (g : Fin 96) (inB : Bool) (d : Fin 16) (b : Fin 16) (other : BitVec 15) (sub : ℕ), s.issues g.val WordKind.plain ∧ sub < 3 ∧
     s.pairs g.val inB { opc := 9, d := d.val, sv := b.val, sub := sub } (ShortOp.ofBits other.toNat) ∧
     s.localFault g.val (BitVec.toNat ((s.eng g.val).r.get b.val)) (2 ^ sub) (2 ^ sub) true = none) ∧
    (∃ (s : State) (g : Fin 96) (inB : Bool) (d : Fin 16) (b : Fin 16) (other : BitVec 15) (sub : ℕ), s.issues g.val WordKind.plain ∧ sub < 3 ∧
     s.pairs g.val inB { opc := 10, d := d.val, sv := b.val, sub := sub } (ShortOp.ofBits other.toNat) ∧ s.direct g.val ∧
     s.localFault g.val (BitVec.toNat ((s.eng g.val).r.get d.val)) (2 ^ sub) (2 ^ sub) false = none) ∧
    (∃ (s : State) (g : Fin 96) (inB : Bool) (d : Fin 16) (b : Fin 16) (other : BitVec 15) (sub : ℕ), s.issues g.val WordKind.plain ∧ sub < 3 ∧
     s.pairs g.val inB { opc := 10, d := d.val, sv := b.val, sub := sub } (ShortOp.ofBits other.toNat) ∧
     s.localFault g.val (BitVec.toNat ((s.eng g.val).r.get d.val)) (2 ^ sub) (2 ^ sub) false = none) ∧
    (∃ (s : State) (g : Fin 96), s.issues g.val WordKind.plain) := by
  refine ⟨⟨eng0, default, default, 1, 3, default, ?_⟩, ⟨eng0, default, default, 1, 3, default, ?_⟩, ⟨eng0, default, default, 1, 3, default, ?_⟩,
    ⟨eng0, default, default, 1, 3, default, ?_⟩, ⟨eng0, default, default, 1, 3, default, ?_⟩, ⟨eng0, default, default, 1, 3, default, ?_⟩,
    ⟨eng0, default, default, 1, 3, default, ?_⟩, ⟨eng0, default, default, 1, 3, default, ?_⟩, ⟨eng0, default, default, 1, 3, default, ?_⟩,
    ⟨eng0, default, default, 1, 3, default, ?_⟩, ⟨eng0, default, default, 1, 3, default, ?_⟩, ⟨eng0, default, default, 1, 3, default, ?_⟩,
    ⟨eng0, default, default, 1, 3, default, ?_⟩, ⟨eng0, default, default, 1, 3, default, ?_⟩, ⟨eng0, default, default, 1, 3, default, ?_⟩,
    ⟨eng0, default, default, 1, 3, default, ?_⟩, ⟨eng0, default, default, 1, 3, default, ?_⟩, ⟨eng0, default, default, 1, 3, default, ?_⟩,
    ⟨eng0, default, default, 1, 3, default, ?_⟩, ⟨eng0, default, default, 1, default, default, ?_⟩, ⟨eng0, default, default, 1, default, default, ?_⟩,
    ⟨eng0, default, default, 1, default, default, ?_⟩, ⟨eng0, default, default, 1, default, default, ?_⟩,
    ⟨eng0, default, default, 1, default, default, ?_⟩, ⟨eng0, default, default, 1, default, default, ?_⟩,
    ⟨eng0, default, default, 1, default, default, ?_⟩, ⟨eng0, default, default, 1, default, default, ?_⟩,
    ⟨eng0, default, default, 1, default, default, ?_⟩, ⟨eng0, default, default, default, ?_⟩,
    ⟨eng0, default, default, default, default, default, default, ?_⟩, ⟨eng0, default, default, default, default, default, default, ?_⟩,
    ⟨eng0, default, default, default, default, default, default, ?_⟩, ⟨eng0, default, ?_⟩⟩ <;>
    (try simp only [opens_iff, noWait_iff, direct_iff, State.issues, State.mayFault, State.pairs, State.plainSram, State.alone, State.linkClear,
      State.lanesFree, State.unfenced]) <;> decide +kernel

theorem test_hypotheses_VectorWords :
    (∃ (s : State) (g : Fin 96) (d : Fin 16) (a : Fin 16), s.issues g.val WordKind.plain ∧ d.val < 4 ∧ a.val < 4) ∧
    (∃ (s : State) (g : Fin 96) (d : Fin 16), s.issues g.val WordKind.plain ∧ d.val < 4) ∧
    (∃ (s : State) (g : Fin 96) (a : Fin 16), s.issues g.val WordKind.plain ∧ a.val < 4) ∧
    (∃ (s : State) (g : Fin 96) (d : Fin 16) (a : Fin 16) (b : Fin 16), s.issues g.val WordKind.plain ∧ d.val < 4 ∧ a.val < 4 ∧ b.val < 4 ∧ (∀ i < 16,
     (vget ((fun (f : Word → Word → Word × ℕ) => Vector.ofFn fun (i : Fin 16) => f ((s.eng g.val).r.vec a.val)[i] ((s.eng g.val).r.vec b.val)[i]) (laneAdd ((s.eng g.val).r.fpctrl.testBit (0)) ((s.eng g.val).r.fpctrl.testBit (1)))) i).2 &&& (s.eng g.val).r.fpctrl / 256 % 16 = 0)) ∧
    (∃ (s : State) (g : Fin 96) (d : Fin 16) (a : Fin 16) (b : Fin 16), s.issues g.val WordKind.plain ∧ d.val < 4 ∧ a.val < 4 ∧ b.val < 4 ∧ (∀ i < 16,
     (vget ((fun (f : Word → Word → Word × ℕ) => Vector.ofFn fun (i : Fin 16) => f ((s.eng g.val).r.vec a.val)[i] ((s.eng g.val).r.vec b.val)[i]) (laneSub ((s.eng g.val).r.fpctrl.testBit (0)) ((s.eng g.val).r.fpctrl.testBit (1)))) i).2 &&& (s.eng g.val).r.fpctrl / 256 % 16 = 0)) ∧
    (∃ (s : State) (g : Fin 96) (d : Fin 16) (a : Fin 16) (b : Fin 16), s.issues g.val WordKind.plain ∧ d.val < 4 ∧ a.val < 4 ∧ b.val < 4 ∧ (∀ i < 16,
     (vget ((fun (f : Word → Word → Word × ℕ) => Vector.ofFn fun (i : Fin 16) => f ((s.eng g.val).r.vec a.val)[i] ((s.eng g.val).r.vec b.val)[i]) (laneMul ((s.eng g.val).r.fpctrl.testBit (0)) ((s.eng g.val).r.fpctrl.testBit (1)))) i).2 &&& (s.eng g.val).r.fpctrl / 256 % 16 = 0)) ∧
    (∃ (s : State) (g : Fin 96) (d : Fin 16) (a : Fin 16) (b : Fin 16), s.issues g.val WordKind.plain ∧ d.val < 4 ∧ a.val < 4 ∧ b.val < 4 ∧ (∀ i < 16,
     (vget ((fun (f : Word → Word → Word × ℕ) => Vector.ofFn fun (i : Fin 16) => f ((s.eng g.val).r.vec a.val)[i] ((s.eng g.val).r.vec b.val)[i]) (laneCmul ((s.eng g.val).r.fpctrl.testBit (0)) ((s.eng g.val).r.fpctrl.testBit (1)) none)) i).2 &&& (s.eng g.val).r.fpctrl / 256 % 16 = 0)) ∧
    (∃ (s : State) (g : Fin 96) (d : Fin 16) (a : Fin 16) (b : Fin 16), s.issues g.val WordKind.plain ∧ d.val < 4 ∧ a.val < 4 ∧ b.val < 4 ∧ (∀ i < 16,
     (vget (Vector.ofFn fun (i : Fin 16) => laneCmul ((s.eng g.val).r.fpctrl.testBit (0)) ((s.eng g.val).r.fpctrl.testBit (1)) (some ((s.eng g.val).r.vec d.val)[i]) ((s.eng g.val).r.vec a.val)[i] ((s.eng g.val).r.vec b.val)[i]) i).2 &&& (s.eng g.val).r.fpctrl / 256 % 16 = 0)) ∧
    (∃ (s : State) (g : Fin 96) (d : Fin 16) (a : Fin 16), s.issues g.val WordKind.plain ∧ d.val < 4 ∧ a.val < 4 ∧ (∀ i < 16,
     (vget (Vector.map (laneToQ ((s.eng g.val).r.fpctrl.testBit (0))) ((s.eng g.val).r.vec a.val)) i).2 &&& (s.eng g.val).r.fpctrl / 256 % 16 = 0)) := by
  refine ⟨⟨eng0, default, 1, 2, ?_⟩, ⟨eng0, default, 1, ?_⟩, ⟨eng0, default, 2, ?_⟩, ⟨eng0, default, 1, 2, 0, ?_⟩, ⟨eng0, default, 1, 2, 0, ?_⟩,
    ⟨eng0, default, 1, 2, 0, ?_⟩, ⟨eng0, default, 1, 2, 0, ?_⟩, ⟨eng0, default, 1, 2, 0, ?_⟩, ⟨eng0, default, 1, 2, ?_⟩⟩ <;>
    (try simp only [opens_iff, noWait_iff, direct_iff, State.issues, State.mayFault, State.pairs, State.plainSram, State.alone, State.linkClear,
      State.lanesFree, State.unfenced]) <;> decide +kernel

theorem test_hypotheses_FragmentRoundTrip :
    ∃ (v : ℕ), v < 4096 := by
  refine ⟨default, ?_⟩ <;>
    (try simp only [opens_iff, noWait_iff, direct_iff, State.issues, State.mayFault, State.pairs, State.plainSram, State.alone, State.linkClear,
      State.lanesFree, State.unfenced]) <;> decide +kernel

theorem test_hypotheses_LocalMemoryWords :
    (∃ (s : State) (g : Fin 96) (a : Fin 16) (size : Fin 4) (off : BitVec 14), s.issues g.val WordKind.plain ∧ size.val < 3 ∧
     s.localFault g.val (BitVec.toNat ((s.eng g.val).r.get a.val + BitVec.ofInt (32) off.toInt)) (2 ^ size.val) (2 ^ size.val) true = none) ∧
    (∃ (s : State) (g : Fin 96) (d : Fin 16) (a : Fin 16) (off : BitVec 14), s.issues g.val WordKind.plain ∧ d.val < 4 ∧
     s.localFault g.val (BitVec.toNat ((s.eng g.val).r.get a.val + BitVec.ofInt (32) off.toInt)) (64) (4) true = none) ∧
    (∃ (s : State) (g : Fin 96) (a : Fin 16) (size : Fin 4) (off : BitVec 14), s.issues g.val WordKind.plain ∧ s.direct g.val ∧ size.val < 3 ∧
     s.localFault g.val (BitVec.toNat ((s.eng g.val).r.get a.val + BitVec.ofInt (32) off.toInt)) (2 ^ size.val) (2 ^ size.val) false = none) ∧
    (∃ (s : State) (g : Fin 96) (d : Fin 16) (a : Fin 16) (off : BitVec 14), s.issues g.val WordKind.plain ∧ s.direct g.val ∧ d.val < 4 ∧
     s.localFault g.val (BitVec.toNat ((s.eng g.val).r.get a.val + BitVec.ofInt (32) off.toInt)) (64) (4) false = none) ∧
    (∃ (s : State) (g : Fin 96) (d : Fin 16) (a : Fin 16) (b : Fin 16) (func : BitVec 13), s.issues g.val WordKind.plain ∧ d.val < 4 ∧ b.val < 4 ∧
     d ≠ b ∧ func.getLsbD (0) = false ∧ (∀ i < 16, (s.eng g.val).r.gdone.testBit i = false →
     s.localFault g.val ((fun (i : ℕ) => BitVec.toNat ((s.eng g.val).r.get a.val + vget ((s.eng g.val).r.vec b.val) i)) i) (4) (4) true = none)) := by
  refine ⟨⟨eng0, default, 4, default, default, ?_⟩, ⟨eng0, default, 1, 4, default, ?_⟩, ⟨eng0, default, 4, default, default, ?_⟩,
    ⟨eng0, default, 1, 4, default, ?_⟩, ⟨eng0, default, 1, 4, 3, default, ?_⟩⟩ <;>
    (try simp only [opens_iff, noWait_iff, direct_iff, State.issues, State.mayFault, State.pairs, State.plainSram, State.alone, State.linkClear,
      State.lanesFree, State.unfenced]) <;> decide +kernel

theorem test_hypotheses_BranchesAndJumps :
    (∃ (s : State) (g : Fin 96) (a : Fin 16) (b : Fin 16) (off : BitVec 17), s.issues g.val WordKind.branch ∧
     (s.eng g.val).r.get a.val = (s.eng g.val).r.get b.val ∧ 0 ≤ (s.eng g.val).r.pc.cast + 4 * off.toInt ∧
     (s.eng g.val).r.pc.cast + 4 * off.toInt < 65536 ∧ ((s.eng g.val).r.pc.cast + 4 * off.toInt) % 4 = 0) ∧
    (∃ (s : State) (g : Fin 96) (a : Fin 16) (b : Fin 16), s.issues g.val WordKind.branch ∧ ¬(s.eng g.val).r.get a.val = (s.eng g.val).r.get b.val) ∧
    (∃ (s : State) (g : Fin 96) (a : Fin 16) (b : Fin 16) (off : BitVec 17), s.issues g.val WordKind.branch ∧
     (s.eng g.val).r.get a.val ≠ (s.eng g.val).r.get b.val ∧ 0 ≤ (s.eng g.val).r.pc.cast + 4 * off.toInt ∧
     (s.eng g.val).r.pc.cast + 4 * off.toInt < 65536 ∧ ((s.eng g.val).r.pc.cast + 4 * off.toInt) % 4 = 0) ∧
    (∃ (s : State) (g : Fin 96) (a : Fin 16) (b : Fin 16), s.issues g.val WordKind.branch ∧ ¬(s.eng g.val).r.get a.val ≠ (s.eng g.val).r.get b.val) ∧
    (∃ (s : State) (g : Fin 96) (a : Fin 16) (b : Fin 16) (off : BitVec 17), s.issues g.val WordKind.branch ∧
     BitVec.toInt ((s.eng g.val).r.get a.val) < BitVec.toInt ((s.eng g.val).r.get b.val) ∧ 0 ≤ (s.eng g.val).r.pc.cast + 4 * off.toInt ∧
     (s.eng g.val).r.pc.cast + 4 * off.toInt < 65536 ∧ ((s.eng g.val).r.pc.cast + 4 * off.toInt) % 4 = 0) ∧
    (∃ (s : State) (g : Fin 96) (a : Fin 16) (b : Fin 16), s.issues g.val WordKind.branch ∧
     ¬BitVec.toInt ((s.eng g.val).r.get a.val) < BitVec.toInt ((s.eng g.val).r.get b.val)) ∧
    (∃ (s : State) (g : Fin 96) (a : Fin 16) (b : Fin 16) (off : BitVec 17), s.issues g.val WordKind.branch ∧
     BitVec.toInt ((s.eng g.val).r.get b.val) ≤ BitVec.toInt ((s.eng g.val).r.get a.val) ∧ 0 ≤ (s.eng g.val).r.pc.cast + 4 * off.toInt ∧
     (s.eng g.val).r.pc.cast + 4 * off.toInt < 65536 ∧ ((s.eng g.val).r.pc.cast + 4 * off.toInt) % 4 = 0) ∧
    (∃ (s : State) (g : Fin 96) (a : Fin 16) (b : Fin 16), s.issues g.val WordKind.branch ∧
     ¬BitVec.toInt ((s.eng g.val).r.get b.val) ≤ BitVec.toInt ((s.eng g.val).r.get a.val)) ∧
    (∃ (s : State) (g : Fin 96) (a : Fin 16) (b : Fin 16) (off : BitVec 17), s.issues g.val WordKind.branch ∧
     BitVec.toNat ((s.eng g.val).r.get a.val) < BitVec.toNat ((s.eng g.val).r.get b.val) ∧ 0 ≤ (s.eng g.val).r.pc.cast + 4 * off.toInt ∧
     (s.eng g.val).r.pc.cast + 4 * off.toInt < 65536 ∧ ((s.eng g.val).r.pc.cast + 4 * off.toInt) % 4 = 0) ∧
    (∃ (s : State) (g : Fin 96) (a : Fin 16) (b : Fin 16), s.issues g.val WordKind.branch ∧
     ¬BitVec.toNat ((s.eng g.val).r.get a.val) < BitVec.toNat ((s.eng g.val).r.get b.val)) ∧
    (∃ (s : State) (g : Fin 96) (a : Fin 16) (b : Fin 16) (off : BitVec 17), s.issues g.val WordKind.branch ∧
     BitVec.toNat ((s.eng g.val).r.get b.val) ≤ BitVec.toNat ((s.eng g.val).r.get a.val) ∧ 0 ≤ (s.eng g.val).r.pc.cast + 4 * off.toInt ∧
     (s.eng g.val).r.pc.cast + 4 * off.toInt < 65536 ∧ ((s.eng g.val).r.pc.cast + 4 * off.toInt) % 4 = 0) ∧
    (∃ (s : State) (g : Fin 96) (a : Fin 16) (b : Fin 16), s.issues g.val WordKind.branch ∧
     ¬BitVec.toNat ((s.eng g.val).r.get b.val) ≤ BitVec.toNat ((s.eng g.val).r.get a.val)) ∧
    (∃ (s : State) (g : Fin 96) (off : BitVec 17), s.issues g.val WordKind.branch ∧ 0 ≤ (s.eng g.val).r.pc.cast + 4 * off.toInt ∧
     (s.eng g.val).r.pc.cast + 4 * off.toInt < 65536 ∧ ((s.eng g.val).r.pc.cast + 4 * off.toInt) % 4 = 0) ∧
    (∃ (s : State) (g : Fin 96) (off : BitVec 17), s.issues g.val WordKind.branch ∧ 0 ≤ (s.eng g.val).r.pc.cast + 4 * off.toInt ∧
     (s.eng g.val).r.pc.cast + 4 * off.toInt < 65536 ∧ ((s.eng g.val).r.pc.cast + 4 * off.toInt) % 4 = 0 ∧
     ((s.eng g.val).rsMode = false ∨ (s.eng g.val).r.rstack.length < 8)) ∧
    (∃ (s : State) (g : Fin 96) (a : Fin 16), s.issues g.val WordKind.branch ∧ BitVec.toNat ((s.eng g.val).r.get a.val) < 65536 ∧
     BitVec.toNat ((s.eng g.val).r.get a.val) % 4 = 0) ∧
    (∃ (s : State) (g : Fin 96) (a : Fin 16), s.issues g.val WordKind.branch ∧ BitVec.toNat ((s.eng g.val).r.get a.val) < 65536 ∧
     BitVec.toNat ((s.eng g.val).r.get a.val) % 4 = 0 ∧ ((s.eng g.val).rsMode = false ∨ (s.eng g.val).r.rstack.length < 8)) ∧
    (∃ (s : State) (g : Fin 96) (top : ℕ), s.issues g.val WordKind.branch ∧ (s.eng g.val).r.rstack.getLast? = some top ∧ top < 65536 ∧ top % 4 = 0) ∧
    (∃ (s : State) (g : Fin 96) (b : ℕ) (target : Option ℕ) (push : Bool) (pop : Bool) (leaves : Bool), s.issues g.val WordKind.plain ∧
     (s.eng g.val).ctx = EngCtx.delaySlot b target push pop leaves) := by
  refine ⟨⟨eng0, default, 2, 2, 5, ?_⟩, ⟨eng0, default, 2, 3, ?_⟩, ⟨eng0, default, 2, 3, 5, ?_⟩, ⟨eng0, default, 2, 2, ?_⟩, ⟨eng0, default, 2, 3, 5, ?_⟩,
    ⟨eng0, default, 2, 2, ?_⟩, ⟨eng0, default, 2, 2, 5, ?_⟩, ⟨eng0, default, 2, 3, ?_⟩, ⟨eng0, default, 3, 2, 5, ?_⟩, ⟨eng0, default, 2, 2, ?_⟩,
    ⟨eng0, default, 2, 2, 5, ?_⟩, ⟨eng0, default, 3, 2, ?_⟩, ⟨eng0, default, 3, ?_⟩, ⟨eng0, default, 3, ?_⟩, ⟨eng0, default, 4, ?_⟩,
    ⟨eng0, default, 4, ?_⟩, ⟨(er fun r => { r with rstack := [8, 16] } : State), default, (16 : ℕ), ?_⟩,
    ⟨(ee fun x => { x with ctx := .delaySlot 0xFC (some 0x200) true false true } : State), default, (0xFC : ℕ), (some 0x200 : Option ℕ), true, false, true, ?_⟩⟩ <;>
    (try simp only [opens_iff, noWait_iff, direct_iff, State.issues, State.mayFault, State.pairs, State.plainSram, State.alone, State.linkClear,
      State.lanesFree, State.unfenced]) <;> decide +kernel

theorem test_hypotheses_LoopsAndReturnStack :
    (∃ (s : State) (g : Fin 96) (off : BitVec 17), s.issues g.val WordKind.loop ∧ 1 ≤ off.toInt ∧ (s.eng g.val).r.ldepth < 2) ∧
    (∃ (s : State) (g : Fin 96), s.issues g.val WordKind.plain ∧ s.alone g.val) ∧
    (∃ (s : State) (g : Fin 96) (a : Fin 16), s.issues g.val WordKind.rstack ∧ s.direct g.val ∧
     s.localFault g.val (BitVec.toNat ((s.eng g.val).r.get a.val)) (36) (4) false = none) ∧
    (∃ (s : State) (g : Fin 96) (a : Fin 16), s.issues g.val WordKind.rstack ∧ s.direct g.val ∧
     s.localFault g.val (BitVec.toNat ((s.eng g.val).r.get a.val)) (36) (4) true = none) := by
  refine ⟨⟨eng0, default, 3, ?_⟩, ⟨eng0, default, ?_⟩, ⟨eng0, default, default, ?_⟩, ⟨eng0, default, default, ?_⟩⟩ <;>
    (try simp only [opens_iff, noWait_iff, direct_iff, State.issues, State.mayFault, State.pairs, State.plainSram, State.alone, State.linkClear,
      State.lanesFree, State.unfenced]) <;> decide +kernel

theorem test_hypotheses_SpecialRegisterWords :
    (∃ (s : State) (g : Fin 96) (k : BitVec 8), s.issues g.val WordKind.plain ∧ k.toNat ≤ 21 ∧
     ((s.eng g.val).r.mode.testBit (1) = false ∨ k.toNat ∉ [0, 1, 2, 3, 5, 6, 20, 21])) ∧
    (∃ (s : State) (g : Fin 96) (k : BitVec 8), s.issues g.val WordKind.plain ∧ s.alone g.val ∧ (s.eng g.val).agentWrites = [] ∧ k.toNat ≤ 21 ∧
     ((s.eng g.val).r.mode.testBit (1) = false ∨ k.toNat ∉ [0, 1, 2, 3, 5, 6, 20, 21]) ∧ (s.eng g.val).r.pc ≠ (s.eng g.val).r.le.1 ∧
     (s.eng g.val).r.pc ≠ (s.eng g.val).r.le.2) ∧
    (∃ (s : State) (g : Fin 96) (m : BitVec 8), m.toNat < 8 ∧ s.issues g.val WordKind.setmode ∧ ((s.eng g.val).r.mode.testBit (1) = true →
     m.toNat ^^^ (s.eng g.val).r.mode = 0 ∨ m.toNat ^^^ (s.eng g.val).r.mode = 1 ∧ (s.eng g.val).taskTimed = true)) ∧
    (∃ (s : State) (g : Fin 96) (m : BitVec 8) (at_ : ℕ) (mode : ℕ) (held : List (ℕ × List Byte)), m.toNat < 8 ∧ s.issues g.val WordKind.plain ∧
     (s.eng g.val).ctx = EngCtx.shadow at_ mode (1) held) ∧
    (∃ (s : State) (g : Fin 96) (m : BitVec 8) (at_ : ℕ) (mode : ℕ) (n : ℕ) (held : List (ℕ × List Byte)), m.toNat < 8 ∧
     s.issues g.val WordKind.plain ∧ (s.eng g.val).ctx = EngCtx.shadow at_ mode n held ∧ n ≠ 1) := by
  refine ⟨⟨eng0, default, 8, ?_⟩, ⟨(er fun r => { r with le := (4, 4) } : State), default, 9, ?_⟩, ⟨eng0, default, default, ?_⟩,
    ⟨(ee fun x => { x with ctx := .shadow 0xF8 2 1 [(0, [1])], saved := some x.r } : State), default, default, (0xF8 : ℕ), (2 : ℕ), ([(0, [1])] : List (ℕ × List Byte)), ?_⟩,
    ⟨(ee fun x => { x with ctx := .shadow 0xF8 2 2 [(0, [1])], saved := some x.r } : State), default, default, (0xF8 : ℕ), (2 : ℕ), (2 : ℕ), ([(0, [1])] : List (ℕ × List Byte)), ?_⟩⟩ <;>
    (try simp only [opens_iff, noWait_iff, direct_iff, State.issues, State.mayFault, State.pairs, State.plainSram, State.alone, State.linkClear,
      State.lanesFree, State.unfenced]) <;> decide +kernel

theorem test_hypotheses_MeshTimeWord :
    (∃ (s : State) (g : Fin 96) (d : Fin 16), s.issues g.val WordKind.plain ∧ d.val % 2 = 0 ∧ 2 ≤ d.val) ∧
    (∃ (s : State) (g : Fin 96) (d : Fin 16), s.mayFault g.val WordKind.plain ∧ (d.val % 2 = 1 ∨ d.val = 0)) := by
  refine ⟨⟨({ eng0 with clk := { eng0.clk with mesh := 0x1234567890 } } : State), default, 2, ?_⟩,
    ⟨({ eng0 with clk := { eng0.clk with mesh := 0x1234567890 } } : State), default, 3, ?_⟩⟩ <;>
    (try simp only [opens_iff, noWait_iff, direct_iff, State.issues, State.mayFault, State.pairs, State.plainSram, State.alone, State.linkClear,
      State.lanesFree, State.unfenced]) <;> decide +kernel

theorem test_hypotheses_ExceptionEntries :
    (∃ (s : State) (g : Fin 96), s.mayFault g.val WordKind.trap) ∧
    (∃ (s : State) (g : Fin 96), s.issues g.val WordKind.eret ∧ (s.eng g.val).r.mode.testBit (1) = false) ∧
    (∃ (s : State) (g : Fin 96) (u : BitVec 8), s.mayFault g.val WordKind.plain ∧ u ≠ 0) ∧
    (∃ (s : State) (g : Fin 96), s.mayFault g.val WordKind.eret ∧ (s.eng g.val).r.mode.testBit (1) = true) ∧
    (∃ (s : State) (g : Fin 96) (a : Fin 16) (size : Fin 4) (off : BitVec 14), s.mayFault g.val WordKind.plain ∧ size.val < 3 ∧
     BitVec.toNat ((s.eng g.val).r.get a.val + BitVec.ofInt (32) off.toInt) % 2 ^ size.val ≠ 0) := by
  refine ⟨⟨eng0, default, ?_⟩, ⟨eng0, default, ?_⟩, ⟨eng0, default, 1, ?_⟩, ⟨(er fun r => { r with mode := 2 } : State), default, ?_⟩,
    ⟨eng0, default, 3, 2, default, ?_⟩⟩ <;>
    (try simp only [opens_iff, noWait_iff, direct_iff, State.issues, State.mayFault, State.pairs, State.plainSram, State.alone, State.linkClear,
      State.lanesFree, State.unfenced]) <;> decide +kernel

theorem test_hypotheses_BoundaryExceptions :
    (∃ (s : State) (g : Fin 96) (addr : ℕ) (status : ℕ), s.engPowered g.val = true ∧ (s.eng g.val).state = EngState.running ∧
     (s.eng g.val).ctx = EngCtx.plain ∧ (s.eng g.val).wait = none ∧ (s.eng g.val).run = true ∧ (s.eng g.val).r.exc = false ∧
     (s.eng g.val).postedFault = some (addr, status)) ∧
    (∃ (s : State) (g : Fin 96), s.engPowered g.val = true ∧ (s.eng g.val).state = EngState.running ∧ (s.eng g.val).ctx = EngCtx.plain ∧
     (s.eng g.val).wait = none ∧ (s.eng g.val).run = true ∧ (s.eng g.val).r.exc = false ∧ (s.eng g.val).postedFault = none ∧
     (s.eng g.val).timedMax ≠ 0 ∧ (s.eng g.val).r.timed = true) ∧
    (∃ (s : State) (g : Fin 96) (line : ℕ), s.engPowered g.val = true ∧ (s.eng g.val).state = EngState.running ∧ (s.eng g.val).ctx = EngCtx.plain ∧
     (s.eng g.val).wait = none ∧ (s.eng g.val).run = true ∧ (s.eng g.val).r.exc = false ∧ line < 8 ∧ (s.eng g.val).postedFault = none ∧
     (s.eng g.val).timedOver = false ∧ (s.eng g.val).r.timed = false ∧ ((s.eng g.val).r.ien &&& s.ipend g.val).testBit line = true ∧ (∀ l < line,
     ((s.eng g.val).r.ien &&& s.ipend g.val).testBit l = false)) ∧
    (∃ (s : State) (g : Fin 96), s.issues g.val WordKind.trap ∧ s.alone g.val ∧ (s.eng g.val).r.exc = true) := by
  refine ⟨⟨(ee fun x => { x with postedFault := some (0x1005000, 3) } : State), default, (0x1005000 : ℕ), (3 : ℕ), ?_⟩,
    ⟨(ee fun x => { x with timedMax := 100, r := { x.r with mode := 1 } } : State), default, ?_⟩,
    ⟨({ (er fun r => { r with ien := 1 }) with irq := { eng0.irq with dest := [(0, 2, 0, 0)] } } : State), default, (0 : ℕ), ?_⟩,
    ⟨(er fun r => { r with mode := 5 } : State), default, ?_⟩⟩ <;>
    (try simp only [opens_iff, noWait_iff, direct_iff, State.issues, State.mayFault, State.pairs, State.plainSram, State.alone, State.linkClear,
      State.lanesFree, State.unfenced]) <;> decide +kernel

theorem test_hypotheses_WaitsAndMessages :
    (∃ (s : State) (g : Fin 96) (a : Fin 16) (size : Fin 4) (off : BitVec 14) (ecc : List (ℕ × EccSeen)), s.issues g.val WordKind.device ∧
     LmSeen.bad ecc (s.eng g.val).r.pc = false ∧ ((s.eng g.val).r.mode.testBit (1) = true → (s.eng g.val).taskDev = true) ∧ size.val < 3 ∧
     BitVec.toNat ((s.eng g.val).r.get a.val + BitVec.ofInt (32) off.toInt) % 2 ^ size.val = 0) ∧
    (∃ (s : State) (g : Fin 96) (d : Fin 16) (a : Fin 16) (off : BitVec 14) (ecc : List (ℕ × EccSeen)), s.issues g.val WordKind.device ∧
     LmSeen.bad ecc (s.eng g.val).r.pc = false ∧ ((s.eng g.val).r.mode.testBit (1) = true → (s.eng g.val).taskDev = true) ∧ d.val < 4 ∧
     BitVec.toNat ((s.eng g.val).r.get a.val + BitVec.ofInt (32) off.toInt) % 4 = 0) ∧
    (∃ (s : State) (g : Fin 96) (d : Fin 16) (a : Fin 16) (b : Fin 16) (func : BitVec 13) (ecc : List (ℕ × EccSeen)) (i : ℕ),
     s.issues g.val WordKind.device ∧ LmSeen.bad ecc (s.eng g.val).r.pc = false ∧ ((s.eng g.val).r.mode.testBit (1) = true →
     (s.eng g.val).taskDev = true) ∧ d.val < 4 ∧ b.val < 4 ∧ d ≠ b ∧ func.getLsbD (0) = true ∧ i < 16 ∧ (∀ j < i,
     (s.eng g.val).r.gdone.testBit j = true) ∧ (s.eng g.val).r.gdone.testBit i = false ∧
     (fun (i : ℕ) => BitVec.toNat ((s.eng g.val).r.get a.val + vget ((s.eng g.val).r.vec b.val) i)) i % 4 = 0) ∧
    (∃ (s : State) (g : Fin 96) (d : Fin 16) (b : Fin 16) (func : BitVec 13) (ecc : List (ℕ × EccSeen)), s.issues g.val WordKind.device ∧
     LmSeen.bad ecc (s.eng g.val).r.pc = false ∧ ((s.eng g.val).r.mode.testBit (1) = true → (s.eng g.val).taskDev = true) ∧ d.val < 4 ∧ b.val < 4 ∧
     d ≠ b ∧ func.getLsbD (0) = true ∧ (∀ i < 16, (s.eng g.val).r.gdone.testBit i = true)) ∧
    (∃ (s : State) (g : Fin 96) (a : Fin 16) (b : Fin 16), s.issues g.val WordKind.mbox ∧ a.val < 4 ∧ BitVec.toNat ((s.eng g.val).r.get b.val) < 96 ∧
     s.domUp (engDomain (BitVec.toNat ((s.eng g.val).r.get b.val))) = true ∧ s.mailHeld g.val (BitVec.toNat ((s.eng g.val).r.get b.val)) = false ∧
     (s.eng (BitVec.toNat ((s.eng g.val).r.get b.val))).mbox.length < 16 ∧ (s.eng (BitVec.toNat ((s.eng g.val).r.get b.val))).wait = none) ∧
    (∃ (s : State) (g : Fin 96) (a : Fin 16) (b : Fin 16), s.issues g.val WordKind.mbox ∧ a.val < 4 ∧ BitVec.toNat ((s.eng g.val).r.get b.val) < 96 ∧
     s.domUp (engDomain (BitVec.toNat ((s.eng g.val).r.get b.val))) = true ∧ s.mailHeld g.val (BitVec.toNat ((s.eng g.val).r.get b.val)) = false ∧
     16 ≤ (s.eng (BitVec.toNat ((s.eng g.val).r.get b.val))).mbox.length) ∧
    (∃ (s : State) (g : Fin 96) (a : Fin 16) (b : Fin 16), s.issues g.val WordKind.mbox ∧ a.val < 4 ∧ BitVec.toNat ((s.eng g.val).r.get b.val) < 96 ∧
     s.domUp (engDomain (BitVec.toNat ((s.eng g.val).r.get b.val))) = true ∧ s.mailHeld g.val (BitVec.toNat ((s.eng g.val).r.get b.val)) = true) ∧
    (∃ (s : State) (g : Fin 96) (d : Fin 16) (m : ℕ × List Word × ℕ) (rest : List (ℕ × List Word × ℕ)), s.issues g.val WordKind.mbox ∧ d.val < 4 ∧
     (s.eng g.val).mbox = m :: rest ∧ (∀ (h a' b' : ℕ), (s.eng h).wait ≠ some (EngWait.msend a' b'))) ∧
    (∃ (s : State) (g : Fin 96) (d : Fin 16) (arg : BitVec 8), s.issues g.val WordKind.mbox ∧ d.val < 4 ∧ (s.eng g.val).mbox = [] ∧
     arg.getLsbD (0) = false) ∧
    (∃ (s : State) (g : Fin 96) (d : Fin 16) (arg : BitVec 8), s.issues g.val WordKind.mbox ∧ d.val < 4 ∧ (s.eng g.val).mbox = [] ∧
     arg.getLsbD (0) = true) ∧
    (∃ (s : State) (g : Fin 96), s.issues g.val WordKind.wfi) ∧
    (∃ (s : State) (g : Fin 96), (s.eng g.val).wait = some EngWait.wfi ∧ s.alone g.val ∧ s.engPowered g.val = true ∧
     (s.lineReady g.val = true ∨ (s.eng g.val).mbox ≠ [])) ∧
    (∃ (s : State) (g : Fin 96), (s.eng g.val).wait = some EngWait.wfi ∧ s.lineReady g.val = false ∧ (s.eng g.val).mbox = []) ∧
    (∃ (s : State) (g : Fin 96), s.issues g.val WordKind.plain ∧ (s.eng g.val).postedFault = none ∧ s.lnk.fences = [] ∧ (∀ (h : ℕ),
     (s.eng h).wait ≠ some EngWait.fence ∧ s.engBoundary h = s) ∧ (s.postedOut fun (src : AccSrc) => src == AccSrc.store g.val) = false) ∧
    (∃ (s : State) (g : Fin 96), s.issues g.val WordKind.plain ∧ (s.eng g.val).postedFault = none ∧ s.lnk.fences = [] ∧ (∀ (h : ℕ),
     (s.eng h).wait ≠ some EngWait.fence ∧ s.engBoundary h = s) ∧ (s.postedOut fun (src : AccSrc) => src == AccSrc.store g.val) = true) := by
  refine ⟨⟨eng0, default, 4, default, default, default, ?_⟩, ⟨eng0, default, 1, 4, default, default, ?_⟩,
    ⟨eng0, default, 1, 4, 3, 1, default, default, ?_⟩, ⟨(er fun r => { r with gdone := 0xFFFF } : State), default, 1, 3, 1, default, ?_⟩,
    ⟨eng0, default, 1, 7, ?_⟩, ⟨(eng0.updEng 1 fun x => { x with mbox := List.replicate 16 (0, [], 0) } : State), default, 1, 7, ?_⟩,
    ⟨(((er fun r => { r with w := r.w.set 7 32 }).updEng 32 run0).updTile 0 (fun x => { x with lanesDown := [64 + 46, 64 + 47] }) : State), default, 1, 7, ?_⟩,
    ⟨(ee fun x => { x with mbox := [(3, [1, 2, 3, 4], 0)] } : State), default, default, ((3, [1, 2, 3, 4], 0) : ℕ × List Word × ℕ), ([] : List (ℕ × List Word × ℕ)), by
      refine ⟨by simp only [State.issues]; decide +kernel, by decide +kernel, by decide +kernel, fun h a b => ?_⟩
      rw [engWait_none _ (by decide +kernel)]; simp⟩,
    ⟨eng0, default, default, 0, ?_⟩, ⟨eng0, default, default, 1, ?_⟩, ⟨eng0, default, ?_⟩,
    ⟨(ee fun x => { x with wait := some .wfi, state := .waiting, mbox := [(0, [], 0)] } : State), default, ?_⟩,
    ⟨(ee fun x => { x with wait := some .wfi, state := .waiting } : State), default, ?_⟩, ⟨eng0, default, by
      refine ⟨by simp only [State.issues]; decide +kernel, by decide +kernel, by decide +kernel, fun h => ⟨?_, quiet_boundaries _ (by decide +kernel) h⟩, by decide +kernel⟩
      rw [engWait_none _ (by decide +kernel)]; simp⟩,
    ⟨(eng0.updLink 0 fun x => { x with fwdPosted := [(0, 0, .store 0)] } : State), default, by
      refine ⟨by simp only [State.issues]; decide +kernel, by decide +kernel, by decide +kernel, fun h => ⟨?_, quiet_boundaries _ (by decide +kernel) h⟩, by decide +kernel⟩
      rw [engWait_none _ (by decide +kernel)]; simp⟩⟩ <;>
    (try simp only [opens_iff, noWait_iff, direct_iff, State.issues, State.mayFault, State.pairs, State.plainSram, State.alone, State.linkClear,
      State.lanesFree, State.unfenced]) <;> decide +kernel

theorem test_hypotheses_StoresAndCompletions :
    (∃ (s : State) (g : Fin 96) (a : Fin 16) (size : Fin 4) (off : BitVec 14), s.issues g.val WordKind.device ∧ size.val < 3 ∧
     BitVec.toNat ((s.eng g.val).r.get a.val + BitVec.ofInt (32) off.toInt) % 2 ^ size.val = 0 ∧ ((s.eng g.val).r.mode.testBit (1) = true →
     (s.eng g.val).taskDev = true) ∧ s.hubUp = true ∧
     s.plainSram (BitVec.toNat ((s.eng g.val).r.get a.val + BitVec.ofInt (32) off.toInt)) (2 ^ size.val) ∧
     s.lanesFree (engIni g.val) (BitVec.toNat ((s.eng g.val).r.get a.val + BitVec.ofInt (32) off.toInt))) ∧
    (∃ (s : State) (g : Fin 96) (a : Fin 16) (size : Fin 4) (off : BitVec 14), s.issues g.val WordKind.device ∧ size.val < 3 ∧
     BitVec.toNat ((s.eng g.val).r.get a.val + BitVec.ofInt (32) off.toInt) % 2 ^ size.val = 0 ∧ ((s.eng g.val).r.mode.testBit (1) = true →
     (s.eng g.val).taskDev = true) ∧ s.hubUp = false ∧ (s.eng g.val).postedFault = none) ∧
    (∃ (s : State) (g : Fin 96) (addr : ℕ) (n : ℕ) (dst : ℕ) (sx : Bool), s.hubUp = true ∧ s.engAway g.val = false ∧ (s.eng g.val).discard = none ∧
     s.direct g.val ∧ (∀ (a : ℕ), 16797696 ≤ a → a < 29360128 → s.lanesFree (engIni g.val) a) ∧
     (s.eng g.val).wait = some (EngWait.load addr n dst sx) ∧ dst < 16 ∧ s.plainSram addr n) ∧
    (∃ (s : State) (g : Fin 96) (addr : ℕ) (dst : ℕ), s.hubUp = true ∧ s.engAway g.val = false ∧ (s.eng g.val).discard = none ∧ s.direct g.val ∧
     (∀ (a : ℕ), 16797696 ≤ a → a < 29360128 → s.lanesFree (engIni g.val) a) ∧ (s.eng g.val).wait = some (EngWait.vload addr dst) ∧ dst < 4 ∧
     s.plainSram addr (64)) ∧
    (∃ (s : State) (g : Fin 96) (addr : ℕ) (n : ℕ) (v : ℕ), s.hubUp = true ∧ s.engAway g.val = false ∧ (s.eng g.val).discard = none ∧ s.direct g.val ∧
     (∀ (a : ℕ), 16797696 ≤ a → a < 29360128 → s.lanesFree (engIni g.val) a) ∧ (s.eng g.val).wait = some (EngWait.store addr n v) ∧ s.plainSram addr n) ∧
    (∃ (s : State) (g : Fin 96) (addr : ℕ) (data : List Byte), s.hubUp = true ∧ s.engAway g.val = false ∧ (s.eng g.val).discard = none ∧
     s.direct g.val ∧ (∀ (a : ℕ), 16797696 ≤ a → a < 29360128 → s.lanesFree (engIni g.val) a) ∧ (s.eng g.val).wait = some (EngWait.vstore addr data) ∧
     s.plainSram addr data.length) := by
  refine ⟨⟨(er fun r => { r with w := r.w.set 4 0x1005000 } : State), default, 4, 2, default, ?_⟩,
    ⟨({ (up.updEng 32 fun x => { run0 x with r := { (run0 x).r with w := (run0 x).r.w.set 4 0x1005000 } }) with pwr := { up.pwr with dom := up.pwr.dom.set 0 .falling } } : State), 32, 4, 2, default, ?_⟩,
    ⟨(ee fun x => { x with wait := some (.load 0x1005000 2 1 true), state := .waiting } : State), default, (0x1005000 : ℕ), (2 : ℕ), (1 : ℕ), true, by
      and_intros
      iterate 3 decide +kernel
      · rw [direct_iff]; decide +kernel
      · exact fun a lo hi => sram_lanes _ a lo hi
      all_goals decide +kernel⟩,
    ⟨(ee fun x => { x with wait := some (.vload 0x1005000 1), state := .waiting } : State), default, (0x1005000 : ℕ), (1 : ℕ), by
      and_intros
      iterate 3 decide +kernel
      · rw [direct_iff]; decide +kernel
      · exact fun a lo hi => sram_lanes _ a lo hi
      all_goals decide +kernel⟩,
    ⟨(ee fun x => { x with wait := some (.store 0x1005000 4 77), state := .waiting } : State), default, (0x1005000 : ℕ), (4 : ℕ), (77 : ℕ), by
      and_intros
      iterate 3 decide +kernel
      · rw [direct_iff]; decide +kernel
      · exact fun a lo hi => sram_lanes _ a lo hi
      all_goals decide +kernel⟩,
    ⟨(ee fun x => { x with wait := some (.vstore 0x1005000 [1, 2, 3]), state := .waiting } : State), default, (0x1005000 : ℕ), ([1, 2, 3] : List Byte), by
      and_intros
      iterate 3 decide +kernel
      · rw [direct_iff]; decide +kernel
      · exact fun a lo hi => sram_lanes _ a lo hi
      all_goals decide +kernel⟩⟩ <;>
    (try simp only [opens_iff, noWait_iff, direct_iff, State.issues, State.mayFault, State.pairs, State.plainSram, State.alone, State.linkClear,
      State.lanesFree, State.unfenced]) <;> decide +kernel

theorem test_hypotheses_EngineControl :
    (∃ (s : State) (ini : Initiator) (g : Fin 96),
     s.opens ini true (if g.val < 32 then 34603008 + 4096 * g.val else 67108864 + (g.val - 32) / 8 * 8388608 + 32768 + 2048 * (g.val % 8)) (0)) ∧
    (∃ (s : State) (ini : Initiator) (g : Fin 96),
     s.opens ini true ((if g.val < 32 then 34603008 + 4096 * g.val else 67108864 + (g.val - 32) / 8 * 8388608 + 32768 + 2048 * (g.val % 8)) + 68) (0) ∧
     (s.eng g.val).lmAddr < 2 ^ 14 ∧ s.poisonedIn (4294967296 + g.val * 65536 + 4 * (s.eng g.val).lmAddr) (4) = false) ∧
    (∃ (s : State) (ini : Initiator) (g : Fin 96),
     s.opens ini false ((if g.val < 32 then 34603008 + 4096 * g.val else 67108864 + (g.val - 32) / 8 * 8388608 + 32768 + 2048 * (g.val % 8)) + 68) (0) ∧
     (s.eng g.val).lmAddr < 2 ^ 14 ∧ s.poisonedIn (4294967296 + g.val * 65536 + 4 * (s.eng g.val).lmAddr) (4) = false) := by
  refine ⟨⟨up, .bootRom, default, ?_⟩, ⟨up, .bootRom, default, ?_⟩, ⟨up, .bootRom, default, ?_⟩⟩ <;>
    (try simp only [opens_iff, noWait_iff, direct_iff, State.issues, State.mayFault, State.pairs, State.plainSram, State.alone, State.linkClear,
      State.lanesFree, State.unfenced]) <;> decide +kernel

theorem test_hypotheses_StepRunsFront :
    ∃ (s : State) (c : Instr) (rest : List Instr), s.pending = c :: rest :=
  ⟨{ up with pending := [.windowBoundary []] }, .windowBoundary [], [], rfl⟩

theorem test_hypotheses_IdleTick :
    (∃ (s : State), s.pending = []) ∧
    (∃ (s : State) (g : Fin 96) (d : Fin 16) (a : Fin 16) (b : Fin 16), s.pending = [] ∧ s.clk.holder = TimeHolder.hub ∧
     s.issues g.val WordKind.plain ∧ s.alone g.val ∧ (s.eng g.val).agentWrites = [] ∧ (s.eng g.val).results = [] ∧ (s.eng g.val).r.timed = false ∧
     (∀ h < 96, h ≠ g.val → (s.eng h).state = EngState.halted ∧ (s.eng h).wait = none) ∧
     s.lmRead g.val (s.eng g.val).r.pc (4) = d.val * 2 ^ 21 + a.val * 2 ^ 17 + b.val * 2 ^ 13) := by
  refine ⟨⟨up, ?_⟩, ⟨issuesAdd, default, 1, 2, 3, ?_⟩⟩ <;>
    (try simp only [opens_iff, noWait_iff, direct_iff, State.issues, State.mayFault, State.pairs, State.plainSram, State.alone, State.linkClear,
      State.lanesFree, State.unfenced]) <;> decide +kernel

theorem test_hypotheses_EveryCommandGoesOn :
    ∃ (c : Instr) (s : State) (t : State), exec c s = Host.Outcome.next t :=
  ⟨.windowBoundary [], State.reset, State.reset, rfl⟩

theorem test_hypotheses_CanonicalKept :
    ∃ (s : State) (t : State), s.canonical = true ∧ step s = Host.Outcome.next t :=
  ⟨{ State.reset with pending := [.windowBoundary []] }, State.reset, by decide +kernel, rfl⟩

theorem test_hypotheses_StateAfterReset :
    (∃ (d : ℕ), d < 16) ∧
    (∃ (n : ℕ), n < 512) := by
  refine ⟨⟨default, ?_⟩, ⟨default, ?_⟩⟩ <;>
    (try simp only [opens_iff, noWait_iff, direct_iff, State.issues, State.mayFault, State.pairs, State.plainSram, State.alone, State.linkClear,
      State.lanesFree, State.unfenced]) <;> decide +kernel

theorem test_hypotheses_RegisterWrites :
    (∃ (s : State) (ini : Initiator) (data : Word) (d : Fin 16), s.opens ini true (33619980 + 16 * d.val) (BitVec.toNat data)) ∧
    (∃ (s : State) (ini : Initiator) (data : Word), s.opens ini true (33554432) (BitVec.toNat data)) ∧
    (∃ (s : State) (ini : Initiator) (data : Word) (i : Fin 4), s.opens ini true (33751040 + 4 * i.val) (BitVec.toNat data)) ∧
    (∃ (s : State) (ini : Initiator) (data : Word), s.opens ini true (34211856) (BitVec.toNat data)) ∧
    (∃ (s : State) (ini : Initiator) (data : Word), s.opens ini true (33554464) (BitVec.toNat data)) ∧
    (∃ (s : State) (ini : Initiator) (data : Word), s.opens ini true (33554480) (BitVec.toNat data) ∧ s.get R.HUB_GCOMMIT_busy = 0 ∧
     BitVec.toNat data % 2048 ≠ 0) ∧
    (∃ (s : State) (ini : Initiator) (data : Word), s.opens ini true (33554480) (BitVec.toNat data) ∧ s.get R.HUB_GCOMMIT_busy = 0 ∧
     BitVec.toNat data % 2048 = 0) ∧
    (∃ (s : State) (ini : Initiator) (data : Word), s.opens ini true (33554480) (BitVec.toNat data) ∧ s.get R.HUB_GCOMMIT_busy = 1) := by
  refine ⟨⟨eng0, .bootRom, default, default, ?_⟩, ⟨eng0, .bootRom, default, ?_⟩, ⟨eng0, .bootRom, default, default, ?_⟩, ⟨eng0, .bootRom, default, ?_⟩,
    ⟨eng0, .bootRom, (0x101 : Word), ?_⟩, ⟨eng0, .bootRom, (0x101 : Word), ?_⟩, ⟨eng0, .bootRom, (0x10000 : Word), ?_⟩,
    ⟨(up.set R.HUB_GCOMMIT_busy 1), .bootRom, (0x101 : Word), ?_⟩⟩ <;>
    (try simp only [opens_iff, noWait_iff, direct_iff, State.issues, State.mayFault, State.pairs, State.plainSram, State.alone, State.linkClear,
      State.lanesFree, State.unfenced]) <;> decide +kernel

theorem test_hypotheses_ArmedElementsRefuse :
    ∃ (s : State) (ini : Initiator) (e : Fin 512) (shadow : Bool) (data : Word),
    s.opens ini true (67174400 + 8388608 * (e.val / 64) + 256 * (e.val % 64) + if shadow = true then 12 else 0) (BitVec.toNat data) ∧
    s.tileRuns (e.val / 64) = true ∧ s.get (R.ELEM_STATUS_armed e.val) = 1 := by
  refine ⟨(up.set (R.ELEM_STATUS_armed 70) 1 : State), .bootRom, 70, true, default, ?_⟩ <;>
    (try simp only [opens_iff, noWait_iff, direct_iff, State.issues, State.mayFault, State.pairs, State.plainSram, State.alone, State.linkClear,
      State.lanesFree, State.unfenced]) <;> decide +kernel

theorem test_hypotheses_MeshTimeBoundaries :
    (∃ (s : State), s.hubUp = true) ∧
    (∃ (s : State), s.hubUp = true ∧ s.pwr.pllLocked = true) := by
  refine ⟨⟨eng0, ?_⟩, ⟨eng0, ?_⟩⟩ <;>
    (try simp only [opens_iff, noWait_iff, direct_iff, State.issues, State.mayFault, State.pairs, State.plainSram, State.alone, State.linkClear,
      State.lanesFree, State.unfenced]) <;> decide +kernel

theorem test_hypotheses_ElementsAndLanes :
    (∃ (s : State) (e : Fin 512) (mdbm : ℤ), (s.tile (e.val / 64)).radio = Radio.rx ∧ s.get (R.ELEM_STATUS_masked e.val) = 0 ∧
     -60000 + 250 * (s.get (R.ELEM_PDET_CFG_ovl e.val)).cast < mdbm) ∧
    (∃ (s : State) (e : Fin 512) (mdbm : ℤ), (s.tile (e.val / 64)).radio = Radio.rx ∧ s.get (R.ELEM_STATUS_masked e.val) = 0 ∧
     mdbm ≤ -60000 + 250 * (s.get (R.ELEM_PDET_CFG_ovl e.val)).cast) ∧
    (∃ (s : State) (e : Fin 512), (s.tile (e.val / 64)).radio = Radio.rx ∧ s.get (R.ELEM_STATUS_masked e.val) = 0) ∧
    (∃ (s : State) (t : Fin 8), s.tileRuns t.val = true) ∧
    (∃ (s : State), s.unfenced ∧ s.lnk.ctlBack = [] ∧ (∀ k < 8, (s.tile k).irqHeld = 0)) ∧
    (∃ (s : State) (t : Fin 8) (synB : Bool), s.tileRuns t.val = true ∧ (s.tile t.val).radio ≠ Radio.off ∧
     s.get (if synB = true then R.RF_CHAN_ch_b else R.RF_CHAN_ch_a) ≠ 0) ∧
    (∃ (s : State) (ini : Initiator) (data : Word), s.opens ini true (34211840) (BitVec.toNat data) ∧ s.get R.RF_CHAN_STATUS_live_sel = 0 ∧
     BitVec.toNat data / 256 % 32 = s.get R.RF_CHAN_ch_a ∧ (BitVec.toNat data / 65536 % 32 = 0 ∨ channelOk (BitVec.toNat data / 65536 % 32) = true)) ∧
    (∃ (s : State) (ini : Initiator) (data : Word), s.opens ini true (34211840) (BitVec.toNat data) ∧ s.get R.RF_CHAN_STATUS_live_sel = 0 ∧
     BitVec.toNat data / 256 % 32 = s.get R.RF_CHAN_ch_a ∧ BitVec.toNat data / 65536 % 32 ≠ 0 ∧ channelOk (BitVec.toNat data / 65536 % 32) = false) ∧
    (∃ (s : State) (ini : Initiator) (data : Word), s.opens ini true (34211840) (BitVec.toNat data) ∧ s.get R.RF_CHAN_STATUS_live_sel = 0 ∧
     (BitVec.toNat data / 256 % 32 = 0 ∨ channelOk (BitVec.toNat data / 256 % 32) = true) ∧ BitVec.toNat data / 256 % 32 ≠ s.get R.RF_CHAN_ch_a) := by
  refine ⟨⟨(up.updTile 0 (fun x => { x with radio := .rx }) |>.set (R.ELEM_CTRL_mask 0) 0 |>.set (R.ELEM_STATUS_masked 0) 0 : State), default, default, ?_⟩,
    ⟨(up.updTile 0 (fun x => { x with radio := .rx }) |>.set (R.ELEM_CTRL_mask 0) 0 |>.set (R.ELEM_STATUS_masked 0) 0 : State), default, (-70000 : ℤ), ?_⟩,
    ⟨(up.updTile 0 (fun x => { x with radio := .rx }) |>.set (R.ELEM_CTRL_mask 0) 0 |>.set (R.ELEM_STATUS_masked 0) 0 : State), default, ?_⟩,
    ⟨eng0, default, ?_⟩, ⟨eng0, ?_⟩, ⟨(up.set R.RF_CHAN_ch_a 1), default, default, ?_⟩, ⟨eng0, .bootRom, default, ?_⟩,
    ⟨eng0, .bootRom, (0xF0000 : Word), ?_⟩, ⟨up, .bootRom, (0x200 : Word), ?_⟩⟩ <;>
    (try simp only [opens_iff, noWait_iff, direct_iff, State.issues, State.mayFault, State.pairs, State.plainSram, State.alone, State.linkClear,
      State.lanesFree, State.unfenced]) <;> decide +kernel

theorem test_hypotheses_SwatchesAndCommits :
    (∃ (s : State) (ini : Initiator) (t : Fin 8) (sw : Fin 2048) (k : Fin 64) (data : Word),
     s.opens ini true (67108864 + t.val * 8388608 + 1048576 + sw.val * 256 + 4 * k.val) (BitVec.toNat data) ∧ (∀ p ∈ s.poison,
     p = 67108864 + t.val * 8388608 + 1048576 + sw.val * 256 + 4 * k.val ∨ p + 8 ≤ 67108864 + t.val * 8388608 + 1048576 + sw.val * 256 + 4 * k.val ∨ 67108864 + t.val * 8388608 + 1048576 + sw.val * 256 + 4 * k.val + 4 ≤ p)) ∧
    (∃ (s : State) (ini : Initiator) (sw : Fin 2048) (w : Fin 4) (data : Word),
     s.opens ini true (34242560 + 16 * sw.val + 4 * w.val) (BitVec.toNat data)) ∧
    (∃ (s : State) (ini : Initiator) (t : Fin 8) (data : Word), s.get R.HUB_GCOMMIT_busy = 0 ∧ BitVec.getLsbD data (0) = true ∧
     s.opens ini true (67108864 + t.val * 8388608) (BitVec.toNat data)) ∧
    (∃ (s : State) (ini : Initiator) (data : Word), s.get R.HUB_GCOMMIT_busy = 0 ∧ BitVec.getLsbD data (0) = true ∧
     s.opens ini true (34209792) (BitVec.toNat data)) := by
  refine ⟨⟨eng0, .bootRom, default, 33, default, (0xABCDEF : Word), ?_⟩, ⟨eng0, .bootRom, 33, default, (0xABCDEF : Word), ?_⟩,
    ⟨(up.updTile 0 fun x => { x with opened := [5] } : State), .bootRom, default, (1 : Word), ?_⟩,
    ⟨(up.set (R.DIR0_open 5) 1 : State), .bootRom, (1 : Word), ?_⟩⟩ <;>
    (try simp only [opens_iff, noWait_iff, direct_iff, State.issues, State.mayFault, State.pairs, State.plainSram, State.alone, State.linkClear,
      State.lanesFree, State.unfenced]) <;> decide +kernel

theorem test_hypotheses_PreloadsAndSwaps :
    (∃ (s : State) (ini : Initiator) (data : Word), s.opens ini true (34209808) (BitVec.toNat data) ∧ BitVec.getLsbD data (31) = true ∧
     s.get (R.BF_BANK_armed (BitVec.toNat data / 65536 % 16)) ≠ 0) ∧
    (∃ (s : State) (ini : Initiator) (data : Word), s.opens ini true (34209808) (BitVec.toNat data) ∧ BitVec.getLsbD data (31) = true ∧
     s.get (R.BF_BANK_armed (BitVec.toNat data / 65536 % 16)) = 0 ∧ s.get (R.DIR0_poisoned (BitVec.toNat data % 2048)) ≠ 0) ∧
    (∃ (s : State) (ini : Initiator) (data : Word), s.opens ini true (34209808) (BitVec.toNat data) ∧ BitVec.getLsbD data (31) = true ∧
     s.get (R.BF_BANK_armed (BitVec.toNat data / 65536 % 16)) = 0 ∧ s.get (R.DIR0_poisoned (BitVec.toNat data % 2048)) = 0 ∧
     s.get (R.DIR0_sealed (BitVec.toNat data % 2048)) = 0) ∧
    (∃ (s : State) (ini : Initiator) (data : Word), s.opens ini true (34209808) (BitVec.toNat data) ∧ BitVec.getLsbD data (31) = true ∧
     s.get (R.BF_BANK_armed (BitVec.toNat data / 65536 % 16)) = 0 ∧ s.get (R.DIR0_poisoned (BitVec.toNat data % 2048)) = 0 ∧
     s.get (R.DIR0_sealed (BitVec.toNat data % 2048)) = 1 ∧
     (s.get (R.DIR0_use (BitVec.toNat data % 2048))).testBit (BitVec.toNat data / 2 ^ 24 % 2) = true ∧ (∀ i < 8, s.tileRuns i = true)) ∧
    (∃ (s : State) (t : Fin 8) (n : Fin 16) (c : HubCopy), (s.slot n.val).waiting = 2 ^ t.val ∧ (s.slot n.val).failTile = none ∧
     (s.slot n.val).shadow = some c ∧ c.tiles.testBit t.val = true ∧
     s.fragReason t.val (s.get (R.BF_BANK_shadow_swatch n.val)) ((s.slot n.val).opened.testBit t.val) = 0) ∧
    (∃ (s : State) (t : Fin 8) (n : Fin 16) (c : HubCopy), (s.slot n.val).waiting = 2 ^ t.val ∧ (s.slot n.val).failTile = none ∧
     (s.slot n.val).shadow = some c ∧ c.tiles.testBit t.val = true ∧ s.fragPoisoned t.val (s.get (R.BF_BANK_shadow_swatch n.val)) = false ∧
     s.fragReason t.val (s.get (R.BF_BANK_shadow_swatch n.val)) ((s.slot n.val).opened.testBit t.val) ≠ 0) ∧
    (∃ (s : State) (t : Fin 8) (n : Fin 16) (c : HubCopy), (s.slot n.val).waiting = 2 ^ t.val ∧ (s.slot n.val).failTile = none ∧
     (s.slot n.val).shadow = some c ∧ c.tiles.testBit t.val = false) ∧
    (∃ (s : State) (ini : Initiator) (data : Word) (n : Fin 16), s.opens ini true (34209820) (BitVec.toNat data) ∧ BitVec.getLsbD data n.val = true ∧
     s.now + 400 ≤ if (s.slot n.val).shadowDir = 1 then s.swapAt.1 else s.swapAt.1 + s.swapAt.2) ∧
    (∃ (s : State) (ini : Initiator) (data : Word) (n : Fin 16), s.opens ini true (34209820) (BitVec.toNat data) ∧ BitVec.getLsbD data n.val = true ∧
     (if (s.slot n.val).shadowDir = 1 then s.swapAt.1 else s.swapAt.1 + s.swapAt.2) < s.now + 400) ∧
    (∃ (s : State) (n : Fin 16) (r : SwapReq), (s.slot n.val).swaps = [r] ∧ r.armed = false ∧ r.sweepStep = false ∧ r.crossing = none ∧
     s.get (R.BF_BANK_state n.val) = 2 ∧ s.loadable (s.get (R.BF_BANK_shadow_swatch n.val)) (s.slot n.val).shadowDir = true) ∧
    (∃ (s : State) (n : Fin 16) (r : SwapReq), (s.slot n.val).swaps = [r] ∧ r.armed = false ∧ r.sweepStep = false ∧ r.crossing = none ∧
     s.get (R.BF_BANK_state n.val) ≠ 2) ∧
    (∃ (s : State) (n : Fin 16) (r : SwapReq), (s.slot n.val).swaps = [r] ∧ r.armed = true ∧ r.crossing = none) := by
  refine ⟨⟨(up.set (R.BF_BANK_armed 1) 1 : State), .bootRom, (0x80010005 : Word), ?_⟩,
    ⟨(up.set (R.DIR0_poisoned 5) 1 : State), .bootRom, (0x80010005 : Word), ?_⟩, ⟨eng0, .bootRom, (0x80010005 : Word), ?_⟩,
    ⟨((up.set (R.DIR0_sealed 5) 1).set (R.DIR0_use 5) 3 : State), .bootRom, (0x80010005 : Word), ?_⟩,
    ⟨((((up.set (R.DIR0_sealed 5) 1).set (R.TILE_SEAL_MAP_sealed 0 0) 32).set (R.BF_BANK_shadow_swatch 0) 5).updSlot 0 fun x => { x with waiting := 1, shadow := some ⟨0, 1, 0, 0⟩ } : State), default, default, (⟨0, 1, 0, 0⟩ : HubCopy), ?_⟩,
    ⟨((up.set (R.BF_BANK_shadow_swatch 0) 5).updSlot 0 fun x => { x with waiting := 1, shadow := some ⟨0, 1, 0, 0⟩ } : State), default, default, (⟨0, 1, 0, 0⟩ : HubCopy), ?_⟩,
    ⟨((up.set (R.BF_BANK_shadow_swatch 0) 5).updSlot 0 fun x => { x with waiting := 1, shadow := some ⟨0, 0, 0, 0⟩ } : State), default, default, (⟨0, 0, 0, 0⟩ : HubCopy), ?_⟩,
    ⟨(up.set R.BF_SWAP_AT_window 10), .bootRom, (1 : Word), default, ?_⟩, ⟨eng0, .bootRom, (1 : Word), default, ?_⟩,
    ⟨((((up.set (R.DIR0_sealed 0) 1).set (R.DIR0_use 0) 3).set (R.BF_BANK_state 0) 2).updSlot 0 fun x => { x with swaps := [⟨1000, 0, none, false, false⟩], shadow := some ⟨0, 1, 0, 0⟩ } : State), default, (⟨1000, 0, none, false, false⟩ : SwapReq), ?_⟩,
    ⟨(up.updSlot 0 fun x => { x with swaps := [⟨1000, 0, none, false, false⟩] } : State), default, (⟨1000, 0, none, false, false⟩ : SwapReq), ?_⟩,
    ⟨((up.set (R.BF_BANK_shadow_swatch 0) 7).updSlot 0 fun x => { x with swaps := [⟨1000, 0, none, true, false⟩] } : State), default, (⟨1000, 0, none, true, false⟩ : SwapReq), ?_⟩⟩ <;>
    (try simp only [opens_iff, noWait_iff, direct_iff, State.issues, State.mayFault, State.pairs, State.plainSram, State.alone, State.linkClear,
      State.lanesFree, State.unfenced]) <;> decide +kernel

theorem test_hypotheses_Captures :
    (∃ (s : State) (ini : Initiator) (data : Word), s.opens ini true (34210304) (BitVec.toNat data) ∧ s.get R.BF_CAP_CTRL_arm = 0 ∧
     BitVec.getLsbD data (9) = true ∧ s.now + 2500 ≤ s.captureTime) ∧
    (∃ (s : State) (t : Fin 8), s.front.capTiles = 2 ^ t.val ∧ s.tileRuns t.val = true ∧ (s.tile t.val).radio = Radio.rx) ∧
    (∃ (s : State) (t : Fin 8), s.front.capTiles = 2 ^ t.val ∧ s.tileRuns t.val = true ∧ (s.tile t.val).radio ≠ Radio.rx) ∧
    (∃ (s : State), s.get R.BF_CAP_CTRL_arm = 1 ∧ s.front.capTiles = 0) := by
  refine ⟨⟨(up.set2 R.BF_CAP_TIME_tick 5000), .bootRom, (0x203 : Word), ?_⟩,
    ⟨(({ up with front := ⟨[], [], 1, []⟩ }).updTile 0 (fun x => { x with radio := .rx }) |>.set (R.ELEM_STATUS_masked 1) 0 : State), default, ?_⟩,
    ⟨({ up with front := ⟨[], [], 1, []⟩ } : State), default, ?_⟩, ⟨(up.set R.BF_CAP_CTRL_arm 1), ?_⟩⟩ <;>
    (try simp only [opens_iff, noWait_iff, direct_iff, State.issues, State.mayFault, State.pairs, State.plainSram, State.alone, State.linkClear,
      State.lanesFree, State.unfenced]) <;> decide +kernel

theorem test_hypotheses_TensionCycles :
    (∃ (s : State) (ini : Initiator) (data : Word) (t : Fin 8), s.opens ini true (34210816) (BitVec.toNat data) ∧ BitVec.getLsbD data t.val = true) ∧
    (∃ (s : State) (t : Fin 8), s.bit R.HUB_FUNC_MODE_bits (6) = false ∧ (s.tile t.val).tension = none ∧ s.get R.BF_TENSION_CTRL_period ≠ 0) ∧
    (∃ (s : State) (t : Fin 8), s.bit R.HUB_FUNC_MODE_bits (6) = false ∧ (s.tile t.val).tension = none ∧ s.get R.BF_TENSION_CTRL_dtemp ≠ 0 ∧
     5 * s.get R.BF_TENSION_CTRL_dtemp < (s.getS (R.TEMP_temp t.val) - (s.tile t.val).tensionTemp).natAbs) ∧
    (∃ (s : State) (t : Fin 8) (c : Tension), (s.tile t.val).tension = some c ∧ passWindows t.val c.passes = none) ∧
    (∃ (s : State) (t : Fin 8) (c : Tension), (s.tile t.val).tension = some c) := by
  refine ⟨⟨eng0, .bootRom, (1 : Word), default, ?_⟩, ⟨(up.set R.BF_TENSION_CTRL_period 1), default, ?_⟩,
    ⟨((up.set R.BF_TENSION_CTRL_dtemp 1).set (R.TEMP_temp 0) 50 : State), default, ?_⟩,
    ⟨(up.updTile 0 fun x => { x with tension := some ⟨0, 999, none, false⟩ } : State), default, (⟨0, 999, none, false⟩ : Tension), ?_⟩,
    ⟨(up.updTile 0 fun x => { x with tension := some ⟨0, 3, none, false⟩ } : State), default, (⟨0, 3, none, false⟩ : Tension), ?_⟩⟩ <;>
    (try simp only [opens_iff, noWait_iff, direct_iff, State.issues, State.mayFault, State.pairs, State.plainSram, State.alone, State.linkClear,
      State.lanesFree, State.unfenced]) <;> decide +kernel

theorem test_hypotheses_BlockBoundary :
    ∃ (s : State), s.hubUp = true := by
  refine ⟨({ up with front := ⟨[3], [4], 0, []⟩ } : State), ?_⟩ <;>
    (try simp only [opens_iff, noWait_iff, direct_iff, State.issues, State.mayFault, State.pairs, State.plainSram, State.alone, State.linkClear,
      State.lanesFree, State.unfenced]) <;> decide +kernel

theorem test_hypotheses_LeadsAndHeaders :
    (∃ (s : State) (n : Fin 16) (m : LeadMeas) (c : Crossing), s.running n.val = some c ∧ c.d.dir ≠ 1 ∧ c.leadHeard = false ∧ c.searchEnded = false ∧
     c.d.sweep = false ∧ (s.slot n.val).thresh ≤ m.corrUni ∧ ((m.start : Int) - (s.expectedLead c.d c.b0 : Int)).natAbs ≤ 16 * (s.slot n.val).search) ∧
    (∃ (s : State) (n : Fin 16) (c : Crossing), s.running n.val = some c ∧ c.d.dir ≠ 1 ∧ c.leadHeard = false ∧ c.searchEnded = false) ∧
    (∃ (s : State) (n : Fin 16) (h : List Byte) (f : PhyFrame), (s.slot n.val).rx = [f] ∧ f.hdrDone = false ∧ headerCrcOk h = false) ∧
    (∃ (s : State) (n : Fin 16) (h : List Byte) (f : PhyFrame), (s.slot n.val).rx = [f] ∧ f.hdrDone = false ∧ headerCrcOk h = true ∧
     headerValid f.heads h = true ∧ f.soft = false ∧ f.cut = none ∧ phyNcw h ≠ 0 ∧
     frameLength { nbr := f.nbr, crossing := f.crossing, heads := f.heads, ends := f.ends, xid := f.xid, cut := f.cut, lead := f.lead, leadErr := f.leadErr, broadcast := f.broadcast, cfo := f.cfo, snr := f.snr, agc := f.agc, press := f.press, maxIter := f.maxIter, hdrDone := true, mcs := phyMcs h, ncw := phyNcw h, lastBytes := phyLast h, hdr := h, blocks := f.blocks, queued := f.queued, words := f.words, failed := f.failed, iters := f.iters, soft := f.soft, softTrunc := f.softTrunc, softHeld := f.softHeld, softDesc := f.softDesc, encoded := f.encoded, body := f.body, tag := f.tag, seq := f.seq, ackOnly := f.ackOnly, pipe := f.pipe } + 1 ≤ (16 * f.ends - f.lead) / (16 * s.blockTicks)) := by
  refine ⟨⟨(xn fun x => { x with fetched := [cx] } : State), default, (⟨300, 10, 2048000, 0, []⟩ : LeadMeas), (cx : Crossing), ?_⟩,
    ⟨(xn fun x => { x with fetched := [cx] } : State), default, (cx : Crossing), ?_⟩,
    ⟨(sl fun x => { x with rx := [pfr] } : State), default, ([1] : List Byte), (pfr : PhyFrame), ?_⟩,
    ⟨(sl fun x => { x with rx := [pfr] } : State), default, ((let a := phyField 3 1 10; let b := List.replicate 22 (5 : Byte); a ++ b ++ toBytes 2 (headerCrc b)) : List Byte), (pfr : PhyFrame), ?_⟩⟩ <;>
    (try simp only [opens_iff, noWait_iff, direct_iff, State.issues, State.mayFault, State.pairs, State.plainSram, State.alone, State.linkClear,
      State.lanesFree, State.unfenced]) <;> decide +kernel

theorem test_hypotheses_CodewordsAndTransmission :
    (∃ (s : State) (d : Fin 16) (w : Codeword) (rest : List Codeword), s.domRuns (11) = true ∧ vget s.phy.decoders d.val = none ∧
     s.phy.queue = w :: rest ∧ s.phy.decReset.testBit d.val = false) ∧
    (∃ (s : State) (d : Fin 16) (n : Fin 16) (iters : ℕ) (word : List Bool) (w : Codeword) (f : PhyFrame), s.domRuns (11) = true ∧
     vget s.phy.decoders d.val = some w ∧ w.slot = n.val ∧ (s.slot n.val).rx = [f] ∧ f.crossing = w.crossing ∧ f.failed = 0 ∧ iters ≤ w.limit ∧
     word.length = 2048 ∧ ldpcChecks (mcsRows w.mcs) (bitBlocks word (32)) = true ∧ f.words.length + 1 ≠ f.ncw) ∧
    (∃ (s : State) (d : Fin 16) (n : Fin 16) (iters : ℕ) (w : Codeword) (f : PhyFrame), s.domRuns (11) = true ∧ vget s.phy.decoders d.val = some w ∧
     w.slot = n.val ∧ (s.slot n.val).rx = [f] ∧ f.crossing = w.crossing ∧ f.failed = 0 ∧ w.limit < iters ∧ (∀ (e : Fin 16), e ≠ d →
     vget s.phy.decoders e.val = none)) ∧
    (∃ (s : State) (n : Fin 16) (f : PhyFrame), s.domRuns (11) = true ∧ (s.slot n.val).rx = [f] ∧ f.soft = false ∧ f.hdrDone = false) ∧
    (∃ (s : State) (n : Fin 16) (c : Crossing), s.txCrossing n.val = some c ∧ s.txPiped n.val = true ∧ (s.slot n.val).tx = none ∧ c.started = false ∧
     c.txTag = none ∧ c.ackOnly = true ∧ c.d.mcs ≠ 15 ∧ frameBlocks c.d.mcs (splitPayload c.d.mcs (24 + s.frameExtra c.d.nbr)).1 + 1 ≤ c.d.blocks) ∧
    (∃ (s : State) (n : Fin 16) (c : Crossing) (g : PipeFrame) (f : PhyFrame),
     (s.nextOn n.val fun (y : Crossing) => y.checked && !y.started) = some c ∧ c.d.dir = 1 ∧ c.txTag = none ∧ (s.slot n.val).tx = some f ∧
     f.hdr = [] ∧
     List.findSome? (fun (p : ℕ) => List.find? (fun (x : PipeFrame) => !x.rx && x.slot == n.val) (s.pipe p).frames) (List.range (8)) = some g ∧
     s.isBroadcast c.d.nbr = false) ∧
    (∃ (s : State) (n : Fin 16) (e : Fin 16) (f : PhyFrame) (k : ℕ), s.domRuns (11) = true ∧ vget s.phy.encoders e.val = some (n.val, k) ∧
     (s.slot n.val).tx = some f) ∧
    (∃ (s : State) (n : Fin 16) (f : PhyFrame), (s.slot n.val).tx = some f ∧ f.encoded + s.encodingOn n.val < f.ncw) ∧
    (∃ (s : State) (ini : Initiator) (data : Word), s.opens ini true (34013216) (BitVec.toNat data) ∧ popcount (16) (BitVec.toNat data) ≤ 4) ∧
    (∃ (s : State) (ini : Initiator) (data : Word), s.opens ini true (34013216) (BitVec.toNat data) ∧ 4 < popcount (16) (BitVec.toNat data)) := by
  refine ⟨⟨({ up with phy := { up.phy with queue := [cwd] } } : State), default, (cwd : Codeword), ([] : List Codeword), ?_⟩,
    ⟨({ (sl fun x => { x with rx := [{ pfr with ncw := 5 }] }) with phy := { up.phy with decoders := up.phy.decoders.set 0 (some cwd) } } : State), default, default, (3 : ℕ), (List.replicate 2048 false : List Bool), (cwd : Codeword), ({ pfr with ncw := 5 } : PhyFrame), by
      and_intros
      iterate 7 decide +kernel
      · exact List.length_replicate
      · exact noBits_check
      · decide +kernel⟩,
    ⟨({ (sl fun x => { x with rx := [{ pfr with ncw := 5 }] }) with phy := { up.phy with decoders := up.phy.decoders.set 0 (some cwd) } } : State), default, default, (13 : ℕ), (cwd : Codeword), ({ pfr with ncw := 5 } : PhyFrame), ?_⟩,
    ⟨(sl fun x => { x with rx := [{ pfr with ncw := 5 }] } : State), default, ({ pfr with ncw := 5 } : PhyFrame), ?_⟩,
    ⟨({ (xn fun x => { x with fetched := [{ cxTx with d := { cxTx.d with len := 40 } }] }) with pipes := up.pipes.set 0 { frames := [cfr], lfsr := true, cmLevel := 3, inReset := false } } : State), default, ({ cxTx with d := { cxTx.d with len := 40 } } : Crossing), ?_⟩,
    ⟨({ ((xn fun x => { x with fetched := [{ cxTx with d := { cxTx.d with len := 40 } }] }).updSlot 0 fun x => { x with tx := some pfr }) with pipes := up.pipes.set 0 { frames := [cfr], lfsr := true, cmLevel := 3, inReset := false } } : State), default, ({ cxTx with d := { cxTx.d with len := 40 } } : Crossing), (cfr : PipeFrame), (pfr : PhyFrame), ?_⟩,
    ⟨({ (sl fun x => { x with tx := some { pfr with ncw := 5, body := List.replicate 300 1 } }) with phy := { up.phy with encoders := up.phy.encoders.set 0 (some (0, 0)) } } : State), default, default, ({ pfr with ncw := 5, body := List.replicate 300 1 } : PhyFrame), (0 : ℕ), ?_⟩,
    ⟨(sl fun x => { x with tx := some { pfr with ncw := 5, body := List.replicate 300 1 } } : State), default, ({ pfr with ncw := 5, body := List.replicate 300 1 } : PhyFrame), ?_⟩,
    ⟨(sl fun x => { x with tx := some { pfr with ncw := 5, body := List.replicate 300 1 } } : State), .bootRom, (0xF : Word), ?_⟩,
    ⟨(sl fun x => { x with tx := some { pfr with ncw := 5, body := List.replicate 300 1 } } : State), .bootRom, (0x1F : Word), ?_⟩⟩ <;>
    (try simp only [opens_iff, noWait_iff, direct_iff, State.issues, State.mayFault, State.pairs, State.plainSram, State.alone, State.linkClear,
      State.lanesFree, State.unfenced]) <;> decide +kernel

theorem test_hypotheses_CrossingFetches :
    (∃ (s : State) (ini : Initiator) (data : Word), s.opens ini true (34078724) (BitVec.toNat data) ∧ s.get R.HUB_GCOMMIT_busy = 0 ∧
     BitVec.getLsbD data (0) = true) ∧
    (∃ (s : State) (ini : Initiator) (data : Word), s.opens ini true (34078720) (BitVec.toNat data) ∧ BitVec.getLsbD data (0) = true ∧
     s.get R.XNG_CTRL_enable = 0) ∧
    (∃ (s : State) (ini : Initiator) (data : Word), s.opens ini true (34078756) (BitVec.toNat data) ∧
     (fun (p : ℕ) => (p % 256 + 256 - s.get R.XNG_PUSH_PTR_rd) % 256) (s.get R.XNG_PUSH_PTR_wr) ≤ (fun (p : ℕ) => (p % 256 + 256 - s.get R.XNG_PUSH_PTR_rd) % 256) (BitVec.toNat data / 65536 % 256)) ∧
    (∃ (s : State) (ini : Initiator) (data : Word), s.opens ini true (34078756) (BitVec.toNat data) ∧
     (fun (p : ℕ) => (p % 256 + 256 - s.get R.XNG_PUSH_PTR_rd) % 256) (BitVec.toNat data / 65536 % 256) < (fun (p : ℕ) => (p % 256 + 256 - s.get R.XNG_PUSH_PTR_rd) % 256) (s.get R.XNG_PUSH_PTR_wr)) ∧
    (∃ (s : State), s.hubUp = true ∧ s.get R.XNG_PUSH_PTR_rd ≠ s.get R.XNG_PUSH_PTR_wr ∧ s.xng.held.length < 256 ∧
     inSram (s.get R.XNG_PUSH_BASE_base * 32 + 32 * s.get R.XNG_PUSH_PTR_rd) (32) = true ∧
     s.poisonedIn (s.get R.XNG_PUSH_BASE_base * 32 + 32 * s.get R.XNG_PUSH_PTR_rd) (32) = false ∧
     (s.descAt (s.get R.XNG_PUSH_BASE_base * 32 + 32 * s.get R.XNG_PUSH_PTR_rd)).valid = true ∧
     s.pushReason (s.descAt (s.get R.XNG_PUSH_BASE_base * 32 + 32 * s.get R.XNG_PUSH_PTR_rd)) (s.word (s.get R.XNG_PUSH_BASE_base * 32 + 32 * s.get R.XNG_PUSH_PTR_rd + 16) + 2 ^ 32 * s.word (s.get R.XNG_PUSH_BASE_base * 32 + 32 * s.get R.XNG_PUSH_PTR_rd + 20)) = 0) ∧
    (∃ (s : State) (u : State) (src : XSrc) (d : Desc) (w : ℕ), s.hubUp = true ∧ s.get R.XNG_CTRL_enable = 1 ∧ s.walkNext walkFuel = (u,
     some (WalkItem.fetch src d w)) ∧ u.firstHeld = none ∧ (u.reach (w - 16 * 1280)).fetchReason d w = 0 ∧ (s.eng d.slot).mbox.length < 16 ∧
     (∀ (p : EngWait), (s.eng d.slot).wait ≠ some p)) ∧
    (∃ (s : State) (src : XSrc) (d : Desc) (w : ℕ) (x : XRef) (i : ℕ) (next : Bool), x = XRef.image i next ∧ s.lookAhead x = some (src, d, w) ∧
     (∀ v ∈ s.xng.votes, v.src ≠ src)) := by
  refine ⟨⟨eng0, .bootRom, (1 : Word), ?_⟩, ⟨eng0, .bootRom, (0x1 : Word), ?_⟩, ⟨(up.set R.XNG_PUSH_PTR_rd 250), .bootRom, (0x50000 : Word), ?_⟩,
    ⟨((up.set R.XNG_PUSH_PTR_rd 250).set R.XNG_PUSH_PTR_wr 9 : State), .bootRom, (0x50000 : Word), ?_⟩,
    ⟨({ psh with xng := { psh.xng with hostSched := true } } : State), ?_⟩,
    ⟨img, ((img.walkNext walkFuel).1 : State), (.image 0 0 : XSrc), (img.descAt 0x1005000 : Desc), (40 * 1280 : ℕ), by
      and_intros
      iterate 2 decide +kernel
      · rw [← show (img.walkNext walkFuel).2 = some (WalkItem.fetch (XSrc.image 0 0) (img.descAt 0x1005000) (40 * 1280)) from by decide +kernel]
      iterate 3 decide +kernel
      exact (noWait_iff _).2 (by decide +kernel)⟩,
    ⟨img, (.image 0 0 : XSrc), (img.descAt 0x1005000 : Desc), (40 * 1280 : ℕ), (.image 0 false : XRef), (0 : ℕ), false, ?_⟩⟩ <;>
    (try simp only [opens_iff, noWait_iff, direct_iff, State.issues, State.mayFault, State.pairs, State.plainSram, State.alone, State.linkClear,
      State.lanesFree, State.unfenced]) <;> decide +kernel

theorem test_hypotheses_CrossingRuns :
    (∃ (s : State) (x : XRef) (src : XSrc) (d : Desc) (w : ℕ), s.lookAhead x = some (src, d, w)) ∧
    (∃ (s : State) (n : Fin 16) (c : Crossing), (s.nextOn n.val fun (y : Crossing) => y.checked && !y.started) = some c) ∧
    (∃ (s : State) (n : Fin 16) (c : Crossing), (s.nextOn n.val fun (y : Crossing) => y.checked && !y.started) = some c) ∧
    (∃ (s : State) (n : Fin 16) (c : Crossing) (gnt : Bool), (s.nextOn n.val fun (y : Crossing) => !y.checked) = some c ∧ s.readyReason c gnt = 0) ∧
    (∃ (s : State) (n : Fin 16) (c : Crossing) (gnt : Bool), (s.nextOn n.val fun (y : Crossing) => !y.checked) = some c ∧ s.readyReason c gnt ≠ 0) ∧
    (∃ (s : State) (n : Fin 16) (c : Crossing), (s.nextOn n.val fun (y : Crossing) => y.checked && !y.started && y.d.cond) = some c ∧
     s.pairFor c = none) ∧
    (∃ (s : State) (n : Fin 16) (c : Crossing), s.running n.val = some c) ∧
    (∃ (s : State) (n : Fin 16) (c : Crossing),
     (s.nextOn n.val fun (y : Crossing) => !y.started && !y.coexAsked && if y.d.dir = 1 then s.on R.COEX_CFG_tx_xng else s.on R.COEX_CFG_rx_xng) = some c) ∧
    (∃ (s : State), s.pins.cxiGnt = false ∧ (s.hubUp = true → s.get R.COEX_CFG_cxi_en = 1) ∧ (∀ y ∈ s.inProgress, y.d.dir = 0)) := by
  refine ⟨⟨img, (.image 0 false : XRef), (.image 0 0 : XSrc), (img.descAt 0x1005000 : Desc), (40 * 1280 : ℕ), ?_⟩,
    ⟨((xn fun x => { x with fetched := [{ cx with started := false }] }).updTile 0 (fun t => { t with radio := .idle }) : State), default, ({ cx with started := false } : Crossing), ?_⟩,
    ⟨((xn fun x => { x with fetched := [{ cx with started := false }] }) : State), default, ({ cx with started := false } : Crossing), ?_⟩,
    ⟨(((((xn fun x => { x with fetched := [{ cx with started := false, checked := false }] }).updTile 0 (fun t => { t with lockA := true, lockB := true })).set R.RF_CHAN_ch_a 1).set R.RF_CHAN_ch_b 2).set (R.NBR_CFG_enabled 1) 1 : State), default, ({ cx with started := false, checked := false } : Crossing), default, ?_⟩,
    ⟨((xn fun x => { x with fetched := [{ cx with started := false, checked := false }] }) : State), default, ({ cx with started := false, checked := false } : Crossing), default, ?_⟩,
    ⟨((xn fun x => { x with fetched := [{ cx with started := false, d := { dsc with cond := true, dir := 1 } }] }) : State), default, ({ cx with started := false, d := { dsc with cond := true, dir := 1 } } : Crossing), ?_⟩,
    ⟨(xn fun x => { x with fetched := [cx] } : State), default, (cx : Crossing), ?_⟩,
    ⟨((xn fun x => { x with fetched := [{ cx with started := false }] }).set R.COEX_CFG_rx_xng 1 : State), default, ({ cx with started := false } : Crossing), ?_⟩,
    ⟨((xn fun x => { x with fetched := [cx] }).set R.COEX_CFG_cxi_en 1 : State), ?_⟩⟩ <;>
    (try simp only [opens_iff, noWait_iff, direct_iff, State.issues, State.mayFault, State.pairs, State.plainSram, State.alone, State.linkClear,
      State.lanesFree, State.unfenced]) <;> decide +kernel

theorem test_hypotheses_FrameDescriptors :
    (∃ (s : State) (n : Fin 64) (d : TxDesc), s.hears hostLink = true ∧ s.ringPosted n.val ≠ 0 ∧ (s.nbr n.val).frames.length < 64 ∧
     d.tag ∉ (s.nbr n.val).cancelAhead ∧ d.once = false ∧ d.nbr = n.val ∧ d.len ≤ 32768 ∧ d.cipherBypass = s.cipherBypass n.val ∧
     d.crcBypass = s.crcBypass n.val ∧ d.read = Status.ok) ∧
    (∃ (s : State) (n : Fin 64) (d : TxDesc), s.hears hostLink = true ∧ s.ringPosted n.val ≠ 0 ∧ (s.nbr n.val).frames.length < 64 ∧
     d.tag ∉ (s.nbr n.val).cancelAhead ∧ d.once = false ∧ (d.nbr ≠ n.val ∨ 32768 < d.len)) ∧
    (∃ (s : State) (n : Fin 64) (f : TxFrame), (s.nbr n.val).frames = [f] ∧ f.attempts ≠ 0 ∧ f.lastTxEnd ≤ (s.nbr n.val).lastRxStart ∧
     f.attempts ≤ s.get (R.NBR_CFG_retry_limit n.val) ∧ f.phase = FramePhase.sent) ∧
    (∃ (s : State) (n : Fin 64) (f : TxFrame), (s.nbr n.val).frames = [f] ∧ f.attempts ≠ 0 ∧ f.lastTxEnd ≤ (s.nbr n.val).lastRxStart ∧
     s.get (R.NBR_CFG_retry_limit n.val) < f.attempts ∧ f.twins = []) ∧
    (∃ (s : State) (n : Fin 64) (f : TxFrame), (s.nbr n.val).frames = [f] ∧ f.twins = []) ∧
    (∃ (s : State) (n : Fin 64) (g : RxFrame) (rest : List RxFrame) (descs : List LandDesc) (used : List LandDesc),
     (s.nbr n.val).rxQueue = g :: rest ∧ g.pool = none ∧ descsFor g.data.length (List.take (s.ringPosted (64 + g.cls)) descs) = some used ∧
     (∀ h ∈ s.rxFramesOf n.val, g.lead ≤ h.2.lead ∧ h.2.ok = none)) := by
  refine ⟨⟨(((lnkUp 4).set (R.LNK_LND_CFG_en 1) 1).set (R.LNK_LND_TAIL_tail 1) 3 : State), 1, (txd : TxDesc), ?_⟩,
    ⟨(((lnkUp 4).set (R.LNK_LND_CFG_en 1) 1).set (R.LNK_LND_TAIL_tail 1) 3 : State), 1, ({ txd with nbr := 2 } : TxDesc), ?_⟩,
    ⟨((nb 1 fun x => { x with frames := [txf], lastRxStart := 60 }).set (R.NBR_CFG_retry_limit 1) 3 : State), 1, (txf : TxFrame), ?_⟩,
    ⟨((nb 1 fun x => { x with frames := [{ txf with attempts := 9 }], lastRxStart := 60 }).set (R.NBR_CFG_retry_limit 1) 3 : State), 1, ({ txf with attempts := 9 } : TxFrame), ?_⟩,
    ⟨(nb 1 fun x => { x with frames := [txf] } : State), 1, (txf : TxFrame), ?_⟩,
    ⟨(((nb 1 fun x => { x with rxQueue := [rxf] }).set (R.LNK_LND_CFG_en 66) 1).set (R.LNK_LND_TAIL_tail 66) 3 : State), 1, (rxf : RxFrame), ([] : List RxFrame), ([⟨0x1000, 64, 9⟩, ⟨0x2000, 64, 10⟩] : List LandDesc), ([⟨0x1000, 64, 9⟩] : List LandDesc), by
      and_intros
      iterate 3 decide +kernel
      · intro h hm
        rw [show State.rxFramesOf _ _ = [] from by decide +kernel] at hm
        simp at hm⟩⟩ <;>
    (try simp only [opens_iff, noWait_iff, direct_iff, State.issues, State.mayFault, State.pairs, State.plainSram, State.alone, State.linkClear,
      State.lanesFree, State.unfenced]) <;> decide +kernel

theorem test_hypotheses_TimeAndNeighbours :
    (∃ (s : State) (ticks : ℕ) (who : ℕ), s.clk.stepWait = some (ticks, who) ∧ s.hubUp = true ∧ s.inProgress = [] ∧ s.clk.mesh % 1280 = 0) ∧
    (∃ (s : State), s.hubUp = true ∧ s.xng.hostTime = false) ∧
    (∃ (s : State) (ini : Initiator) (data : Word) (n : Fin 64), s.opens ini true (34144256) (BitVec.toNat data) ∧
     s.get R.MAC_NBR_COMMIT_pending = 0 ∧ s.get R.HUB_GCOMMIT_busy = 0 ∧ BitVec.getLsbD data (0) = true ∧
     s.bit (R.MAC_NBR_SEL_nbrs (n.val / 32)) (n.val % 32) = true) ∧
    (∃ (s : State) (n : Fin 64), (s.nbr n.val).copyWait = true ∧ s.nbrIdle n.val = true ∧ s.hubUp = true ∧
     s.poisonedIn (16793600 + 64 * n.val) (64) = false) := by
  refine ⟨⟨({ (xn fun x => { x with fetched := [{ cx with started := false, winStart := 64000 }] }) with clk := { up.clk with stepWait := some (128000, 1) } } : State), (128000 : ℕ), (1 : ℕ), ?_⟩,
    ⟨(up.set R.MAC_TIME_STATUS_locked 1), ?_⟩, ⟨(up.set (R.MAC_NBR_SEL_nbrs 0) 2 : State), .bootRom, (1 : Word), 1, ?_⟩,
    ⟨(((nb 1 fun x => { x with copyWait := true }).set (R.SH_CFG_enabled 1) 1).set (R.SH_ADDR_short 1) 77 : State), 1, ?_⟩⟩ <;>
    (try simp only [opens_iff, noWait_iff, direct_iff, State.issues, State.mayFault, State.pairs, State.plainSram, State.alone, State.linkClear,
      State.lanesFree, State.unfenced]) <;> decide +kernel

theorem test_hypotheses_CipherPipes :
    (∃ (s : State) (n : Fin 16) (p : Fin 8) (c : Crossing), s.txCrossing n.val = some c ∧ s.pipeFor (1) = some p.val ∧
     (c.txTag.isSome || c.ackOnly) = true ∧ s.txPiped n.val = false ∧ s.cipherBypass c.d.nbr = true) ∧
    (∃ (s : State) (n : Fin 16) (p : Fin 8) (c : Crossing) (k : KeySlot), s.txCrossing n.val = some c ∧ s.pipeFor (1) = some p.val ∧
     (c.txTag.isSome || c.ackOnly) = true ∧ s.txPiped n.val = false ∧ s.cipherBypass c.d.nbr = false ∧ s.cipherHold = false ∧
     s.slotUsable c.d.nbr (s.txKeySlot c.d.nbr) = true ∧ s.keySlot (s.txKeySlot c.d.nbr) = some k) ∧
    (∃ (s : State) (n : Fin 16) (p : Fin 8) (f : PipeFrame), s.phy.waiting = [f] ∧ f.slot = n.val ∧ (f.pipe = none ∧
     s.pipeFor f.segs = some p.val ∨ f.pipe = some p.val ∧ s.domRuns (12) = true ∧ (s.pipe p.val).inReset = false) ∧ (∀ (i : ℕ),
     s.txCrossing i = none)) ∧
    (∃ (s : State) (p : Fin 8) (f : PipeFrame), s.domRuns (12) = true ∧
     List.find? (fun (x : PipeFrame) => x.rx && x.ok.isNone) (s.pipe p.val).frames = some f ∧ (hdrFlags f.hdr).testBit (4) = true ∧
     (hdrFlags f.hdr).testBit (5) = false ∧ hdrLen f.hdr + 4 ≤ f.body.length ∧
     ofBytes (List.take (4) (List.drop (hdrLen f.hdr) f.body)) ≠ frameCheck (hdrDst f.hdr) (hdrSrc f.hdr) (hdrSeq f.hdr) f.xid (List.take (hdrLen f.hdr) f.body)) ∧
    (∃ (s : State) (p : Fin 8) (f : PipeFrame), s.domRuns (12) = true ∧
     List.find? (fun (x : PipeFrame) => x.rx && x.ok.isNone) (s.pipe p.val).frames = some f ∧ (hdrFlags f.hdr).testBit (4) = true ∧
     (hdrFlags f.hdr).testBit (5) = false ∧ hdrLen f.hdr + 4 ≤ f.body.length ∧
     ofBytes (List.take (4) (List.drop (hdrLen f.hdr) f.body)) = frameCheck (hdrDst f.hdr) (hdrSrc f.hdr) (hdrSeq f.hdr) f.xid (List.take (hdrLen f.hdr) f.body) ∧
     s.rxFramesOf f.nbr = [(p.val, f)] ∧ s.aheadInPhy f.nbr f.lead = false ∧ hdrDst f.hdr ≠ 65535 ∧ hdrCtl f.hdr % 16 = 1 ∧
     (hdrFlags f.hdr).testBit (3) = false ∧ s.get (R.NBR_LIVE_rx_any f.nbr) = 0) := by
  refine ⟨⟨((xn fun x => { x with fetched := [{ cxTx with txTag := some 7 }], hostTime := false }).updNbr 1 (fun x => { x with permSec := true, frames := [txf] }) |>.set (R.NBR_CFG_cipher_bypass 1) 1 : State), default, default, ({ cxTx with txTag := some 7 } : Crossing), ?_⟩,
    ⟨({ (((xn fun x => { x with fetched := [{ cxTx with txTag := some 7 }] }).updNbr 1 fun x => { x with frames := [txf] }).set (R.NBR_CFG_cipher_mode 1) 1 |>.set (R.SEC_SLOT0_state 4) 1 |>.set R.SEC_POLICY_cipher_hold_until_rng 0) with sec := { up.sec with slots := [(4, ks)] } } : State), default, default, ({ cxTx with txTag := some 7 } : Crossing), (ks : KeySlot), ?_⟩,
    ⟨({ up with phy := { up.phy with waiting := [cfrx] } } : State), default, default, (cfrx : PipeFrame), ⟨by decide +kernel, by decide +kernel, by decide +kernel, fun _ => rfl⟩⟩,
    ⟨(pip up fun x => { x with frames := [{ cfrx with body := [1, 2, 3, 4, 5, 6, 7, 8] }] } : State), default, ({ cfrx with body := [1, 2, 3, 4, 5, 6, 7, 8] } : PipeFrame), ?_⟩,
    ⟨(pip up fun x => { x with frames := [cfrx] } : State), default, (cfrx : PipeFrame), ?_⟩⟩ <;>
    (try simp only [opens_iff, noWait_iff, direct_iff, State.issues, State.mayFault, State.pairs, State.plainSram, State.alone, State.linkClear,
      State.lanesFree, State.unfenced]) <;> decide +kernel

theorem test_hypotheses_KeyCommands :
    (∃ (s : State) (ini : Initiator) (data : Word), s.opens ini true (33948208) (BitVec.toNat data) ∧ s.get R.SEC_KEY_STATUS_busy = 0 ∧
     BitVec.toNat data / 65536 % 4 = 1 ∧ ¬(s.slotHolds (BitVec.toNat data % 256) = true ∧ s.slotSelectable (BitVec.toNat data % 256) = true)) ∧
    (∃ (s : State) (ini : Initiator) (data : Word), s.opens ini true (33948208) (BitVec.toNat data) ∧ s.get R.SEC_KEY_STATUS_busy = 0 ∧
     BitVec.toNat data / 65536 % 4 = 1 ∧ s.slotHolds (BitVec.toNat data % 256) = true ∧ s.slotSelectable (BitVec.toNat data % 256) = true) ∧
    (∃ (s : State) (ini : Initiator) (data : Word), s.opens ini true (33948208) (BitVec.toNat data) ∧ s.get R.SEC_KEY_STATUS_busy = 0 ∧
     BitVec.toNat data / 65536 % 4 = 2) ∧
    (∃ (s : State) (ini : Initiator) (data : Word), s.opens ini true (33948208) (BitVec.toNat data) ∧ s.get R.SEC_KEY_STATUS_busy = 0 ∧
     (BitVec.toNat data / 65536 % 4 = 0 ∨ BitVec.toNat data / 65536 % 4 = 3)) ∧
    (∃ (s : State) (k : ℕ) (load : Option (KeySlot × ℕ × Bool)), s.sec.staged = some (k, load) ∧ s.nbrIdle (k / 4) = true) ∧
    (∃ (s : State) (ini : Initiator) (data : Word) (w : Fin 4), s.opens ini true (50364432 + 4 * w.val) (BitVec.toNat data)) := by
  refine ⟨⟨eng0, .bootRom, (0x10005 : Word), ?_⟩, ⟨(up.set (R.SEC_SLOT0_state 6) 1 : State), .bootRom, (0x10006 : Word), ?_⟩,
    ⟨eng0, .bootRom, (0x20005 : Word), ?_⟩, ⟨eng0, .bootRom, (0x30005 : Word), ?_⟩,
    ⟨({ up with sec := { up.sec with staged := some (5, some (ks, 9, false)), slots := [(5, ks), (6, ks)] } } : State), (5 : ℕ), (some (ks, 9, false) : Option (KeySlot × ℕ × Bool)), ?_⟩,
    ⟨eng0, .bootRom, (77 : Word), 3, ?_⟩⟩ <;>
    (try simp only [opens_iff, noWait_iff, direct_iff, State.issues, State.mayFault, State.pairs, State.plainSram, State.alone, State.linkClear,
      State.lanesFree, State.unfenced]) <;> decide +kernel

theorem test_hypotheses_RandomAndFuses :
    (∃ (s : State) (b : Bool), s.sec.source = true ∧ s.get R.SEC_STATUS_rng = 1 ∧ s.hubUp = true ∧ 1023 ≤ s.sec.bits.length ∧
     (s.takeBit b).healthFault = 0) ∧
    (∃ (s : State) (b : Bool), s.sec.source = true ∧ s.get R.SEC_STATUS_rng = 2 ∧ s.sec.run = 40 ∧ s.sec.lastBit = b) ∧
    (∃ (s : State) (ini : Initiator) (data : Word), s.opens ini true (33955840) (BitVec.toNat data) ∧ BitVec.getLsbD data (0) = true ∧
     s.get R.SEC_STATUS_rng = 4) ∧
    (∃ (s : State) (ini : Initiator), s.opens ini false (33955848) (0) ∧ s.get R.SEC_STATUS_rng = 2) ∧
    (∃ (s : State) (ini : Initiator), s.opens ini false (33955848) (0) ∧ s.get R.SEC_STATUS_rng ≠ 2) ∧
    (∃ (s : State) (ini : Initiator) (data : Word), s.opens ini true (50364484) (BitVec.toNat data) ∧ s.get R.AON_OTP_PROG_busy = 0 ∧
     s.otpLocked (s.get R.AON_OTP_PROG_addr / 4 * 4) = false) ∧
    (∃ (s : State) (ini : Initiator) (data : Word), s.opens ini true (50364484) (BitVec.toNat data) ∧ s.get R.AON_OTP_PROG_busy = 0 ∧
     s.otpLocked (s.get R.AON_OTP_PROG_addr / 4 * 4) = true) ∧
    (∃ (s : State) (a : ℕ) (v : ℕ), s.sec.otpBusy = some (a, v) ∧ v < 2 ^ 32) ∧
    (∃ (s : State) (ini : Initiator) (data : Word), s.opens ini true (33623808) (BitVec.toNat data) ∧ s.get R.PWR_FORCE_OFF_force = 0 ∧
     s.pwr.deferForce = 0 ∧ s.lnk.wot = []) := by
  refine ⟨⟨({ (up.set R.SEC_STATUS_rng 1) with sec := { up.sec with source := true, bits := List.replicate 1023 true } } : State), true, ?_⟩,
    ⟨({ (up.set R.SEC_STATUS_rng 2) with sec := { up.sec with source := true, run := 40, lastBit := true } } : State), true, ?_⟩,
    ⟨(up.set R.SEC_STATUS_rng 4), .bootRom, (0x1 : Word), ?_⟩, ⟨(up.set R.SEC_STATUS_rng 2), .bootRom, ?_⟩, ⟨eng0, .bootRom, ?_⟩,
    ⟨(up.set R.AON_OTP_PROG_addr 0x100), .bootRom, (0x1 : Word), ?_⟩,
    ⟨((up.set R.AON_OTP_PROG_addr 0x10).setBytes 0x03009000 (List.replicate 0x100 0xFF) : State), .bootRom, (0x1 : Word), ?_⟩,
    ⟨({ up with sec := { up.sec with otpBusy := some (0x10, 0x77) } } : State), (0x10 : ℕ), (0x77 : ℕ), ?_⟩,
    ⟨({ (up.set R.PWR_KEEL_VOTE_vote 2) with pwr := { up.pwr with deferGate := 2 } } : State), .bootRom, (0x1 : Word), ?_⟩⟩ <;>
    (try simp only [opens_iff, noWait_iff, direct_iff, State.issues, State.mayFault, State.pairs, State.plainSram, State.alone, State.linkClear,
      State.lanesFree, State.unfenced]) <;> decide +kernel

theorem test_hypotheses_ChecksAndYarns :
    (∃ (s : State) (ini : Initiator) (u : Fin 8) (data : Word), s.opens ini true (33882368 + 64 * u.val + 16) (BitVec.toNat data)) ∧
    (∃ (s : State) (ini : Initiator) (u : Fin 8) (data : Word), s.opens ini true (33882368 + 64 * u.val + 20) (BitVec.toNat data)) ∧
    (∃ (s : State) (ini : Initiator) (u : Fin 8) (data : Word), s.opens ini true (33882368 + 64 * u.val + 24) (BitVec.toNat data)) ∧
    (∃ (s : State) (ini : Initiator) (u : Fin 8) (data : Word), s.opens ini true (33882368 + 64 * u.val + 4) (BitVec.toNat data)) ∧
    (∃ (s : State) (ini : Initiator) (u : Fin 8) (data : Word), s.opens ini true (33882368 + 64 * u.val) (BitVec.toNat data)) ∧
    (∃ (s : State) (ini : Initiator) (w : Fin 4) (data : Word), s.opens ini true (33751056 + 4 * w.val) (BitVec.toNat data)) ∧
    (∃ (s : State) (ini : Initiator) (t : Fin 8) (data : Word), s.opens ini true (67110916 + t.val * 8388608) (BitVec.toNat data) ∧
     s.tileRuns t.val = true) ∧
    (∃ (s : State) (k : Fin 64) (left : ℕ) (from_ : ℕ) (q : List (ℕ × ℕ)), vget s.yrn.hubImp k.val = (left, from_) :: q) ∧
    (∃ (s : State) (k : Fin 64) (left : ℕ) (q : List ℕ), vget s.yrn.tileImp k.val = left :: q) ∧
    (∃ (s : State) (c : Fin 96), s.filterWaits c.val = false) ∧
    (∃ (s : State) (ini : Initiator) (data : Word) (c : Fin 96), s.opens ini true (cellAddr c.val) (BitVec.toNat data) ∧
     s.get (R.YRN_CELL_CTRL_en c.val) = (!BitVec.getLsbD data (0)).toNat) ∧
    (∃ (s : State) (g : Fin 16) (level : Bool), s.hubUp = true ∧ s.pins.gpIn.testBit g.val = !level ∧
     ((s.get (R.YRN_GP_edge g.val) = if level = true then 1 else 2) ∨ s.get (R.YRN_GP_edge g.val) = 3)) ∧
    (∃ (s : State) (g : Fin 16), s.hubUp = true ∧ vget s.pins.gpPulse g.val ≠ 0) := by
  refine ⟨⟨((up.set (R.CRC_CFG_poly 3) 1).set (R.CRC_STATE_state 3) 0xCAFEBABE : State), .bootRom, 3, (0x12345602 : Word), ?_⟩,
    ⟨((up.set (R.CRC_CFG_poly 3) 1).set (R.CRC_STATE_state 3) 0xCAFEBABE : State), .bootRom, 3, (0x12345602 : Word), ?_⟩,
    ⟨((up.set (R.CRC_CFG_poly 3) 1).set (R.CRC_STATE_state 3) 0xCAFEBABE : State), .bootRom, 3, (0x12345602 : Word), ?_⟩,
    ⟨((up.set (R.CRC_CFG_poly 3) 1).set (R.CRC_STATE_state 3) 0xCAFEBABE : State), .bootRom, 3, (0x12345602 : Word), ?_⟩,
    ⟨((up.set (R.CRC_CFG_poly 3) 1).set (R.CRC_STATE_state 3) 0xCAFEBABE : State), .bootRom, 3, (0x12345602 : Word), ?_⟩,
    ⟨eng0, .bootRom, 1, (0xF0 : Word), ?_⟩, ⟨eng0, .bootRom, 2, (0xF0 : Word), ?_⟩,
    ⟨({ up with yrn := { up.yrn with hubImp := up.yrn.hubImp.set 5 [(2, 3)] } } : State), 5, (2 : ℕ), (3 : ℕ), default, ?_⟩,
    ⟨({ up with yrn := { up.yrn with tileImp := up.yrn.tileImp.set 5 [2] } } : State), 5, (2 : ℕ), default, ?_⟩, ⟨up, 3, ?_⟩,
    ⟨(up.set (R.YRN_CELL_CTRL_en 3) 1 : State), .bootRom, (0xF0 : Word), 3, ?_⟩, ⟨(up.set (R.YRN_GP_edge 2) 1 : State), 2, true, ?_⟩,
    ⟨({ up with pins := { up.pins with gpPulse := up.pins.gpPulse.set 2 4, gpOut := 4 } } : State), 2, ?_⟩⟩ <;>
    (try simp only [opens_iff, noWait_iff, direct_iff, State.issues, State.mayFault, State.pairs, State.plainSram, State.alone, State.linkClear,
      State.lanesFree, State.unfenced]) <;> decide +kernel

theorem test_hypotheses_TimersAndStamps :
    (∃ (s : State) (ini : Initiator) (r : TimerRef) (data : Word), s.opens ini true (timerAddr r) (putBitOf (BitVec.toNat data) (0) true) ∧
     s.get (tmEn r) = 0 ∧
     s.tmrReload r <   (match r with | TimerRef.wide m => 2 ^ 48 | x => 2 ^ 32) ∧ s.tmrPre r <   (match r with | TimerRef.wide m => 2 ^ 48 | x => 2 ^ 32)) ∧
    (∃ (s : State) (ini : Initiator) (r : TimerRef) (data : Word), s.opens ini true (timerAddr r) (putBitOf (BitVec.toNat data) (0) false) ∧
     s.get (tmEn r) = 1 ∧ (BitVec.toNat data / 256 % 4 = s.get (tmClk r) ∧ BitVec.toNat data / 16 % 4 = s.get (tmEvt r) ∧
     BitVec.toNat data / 2 % 2 = s.get (tmOneshot r) ∧ ∀ (m : Fin 4), r = TimerRef.wide m →
     BitVec.toNat data / 4096 % 2 = s.get (R.TMR_W_CTRL_mode m.val))) ∧
    (∃ (s : State) (ini : Initiator) (r : TimerRef) (data : Word), s.opens ini true (timerAddr r) (putBitOf (BitVec.toNat data) (0) false) ∧
     s.get (tmEn r) = 1 ∧ BitVec.toNat data / 256 % 4 ≠ s.get (tmClk r)) ∧
    (∃ (s : State) (r : TimerRef), s.tmrCounts r = true ∧ s.tmrCount r = 0 ∧ s.get (tmOneshot r) = 1) ∧
    (∃ (s : State) (r : TimerRef), s.tmrCounts r = true ∧ s.tmrCount r = 0 ∧ s.get (tmOneshot r) = 0 ∧
     s.tmrReload r <   (match r with | TimerRef.wide m => 2 ^ 48 | x => 2 ^ 32) ∧ s.tmrPre r <   (match r with | TimerRef.wide m => 2 ^ 48 | x => 2 ^ 32)) ∧
    (∃ (s : State) (r : TimerRef) (n : Fin 16), s.tmrCounts r = true ∧ s.tmrCount r = 0 ∧ r = TimerRef.hub n ∧ (s.get (tmEvt r)).testBit (0) = true) ∧
    (∃ (s : State) (r : TimerRef), s.tmrCounts r = true ∧ s.tmrCount r ≠ 0 ∧
     s.tmrCount r <   (match r with | TimerRef.wide m => 2 ^ 48 | x => 2 ^ 32) ∧ s.tmrCount r - 1 = s.tmrCmp r) ∧
    (∃ (s : State) (r : TimerRef), s.tmrCounts r = true ∧ s.tmrCount r ≠ 0 ∧
     s.tmrCount r <   (match r with | TimerRef.wide m => 2 ^ 48 | x => 2 ^ 32) ∧ s.tmrCount r - 1 ≠ s.tmrCmp r) ∧
    (∃ (s : State) (r : TimerRef), s.tmrRuns r = true ∧ s.tmrHasClock r = true ∧ s.get (tmEn r) = 0) ∧
    (∃ (s : State) (r : TimerRef), s.tmrRuns r = true ∧ s.isAlarm r = false ∧ s.get (tmClk r) ≠ 3) ∧
    (∃ (s : State) (r : TimerRef), s.tmrRuns r = true ∧ s.get (tmEn r) = 1 ∧ s.isAlarm r = false ∧ tmSelects r (s.get (tmTrigSel r)) = true ∧
     s.tmrReload r <   (match r with | TimerRef.wide m => 2 ^ 48 | x => 2 ^ 32) ∧ s.tmrPre r <   (match r with | TimerRef.wide m => 2 ^ 48 | x => 2 ^ 32)) ∧
    (∃ (s : State) (r : TimerRef), s.tmrRuns r = true ∧ tmSelects r (s.get (tmCapSel r)) = true ∧ s.get (tmCapFull r) = 0 ∧ s.isAlarm r = false ∧
     s.tmrCount r <   (match r with | TimerRef.wide m => 2 ^ 48 | x => 2 ^ 32)) ∧
    (∃ (s : State) (r : TimerRef), s.tmrRuns r = true ∧ tmSelects r (s.get (tmCapSel r)) = true ∧ s.get (tmCapFull r) = 1) ∧
    (∃ (s : State) (ini : Initiator) (r : TimerRef), s.opens ini false (timerCapAddr r) (0)) ∧
    (∃ (s : State) (m : Fin 4), s.hubUp = true ∧ s.get (R.TMR_W_CTRL_mode m.val) = 1 ∧ s.get (R.TMR_W_CTRL_en m.val) = 1 ∧ s.alarmDue m.val = true) ∧
    (∃ (s : State), s.hubUp = true) ∧
    (∃ (s : State) (ini : Initiator), s.opens ini false (33818644) (0)) ∧
    (∃ (s : State), s.hubUp = true ∧ s.get R.TMR_TSO_CTRL_en = 1) ∧
    (∃ (s : State), s.pins.tsOut = true) ∧
    (∃ (s : State), s.hubUp = true ∧ s.aon.wakeDrive = false ∧ s.aon.wakeQuiet ≤ s.clk.mesh) := by
  refine ⟨⟨((up.set (R.TMR_RELOAD_reload 3) 100).set (R.TMR_CMP_cmp 3) 20 : State), .bootRom, (.hub 3 : TimerRef), (0x11 : Word), ?_⟩,
    ⟨((((up.set (tmEn (.hub 3)) 1).set (tmClk (.hub 3)) 0).set (tmEvt (.hub 3)) 0).set (tmOneshot (.hub 3)) 0 : State), .bootRom, (.hub 3 : TimerRef), (0x0 : Word), ?_⟩,
    ⟨((((up.set (tmEn (.hub 3)) 1).set (tmClk (.hub 3)) 0).set (tmEvt (.hub 3)) 0).set (tmOneshot (.hub 3)) 0 : State), .bootRom, (.hub 3 : TimerRef), (0x100 : Word), ?_⟩,
    ⟨((up.set (tmEn (.hub 3)) 1).set (tmOneshot (.hub 3)) 1 : State), (.hub 3 : TimerRef), ?_⟩,
    ⟨(((up.set (tmEn (.hub 3)) 1).set (R.TMR_RELOAD_reload 3) 100).set (tmEvt (.hub 3)) 3 : State), (.hub 3 : TimerRef), ?_⟩,
    ⟨(((up.set (tmEn (.hub 3)) 1).set (R.TMR_RELOAD_reload 3) 100).set (tmEvt (.hub 3)) 3 : State), (.hub 3 : TimerRef), 3, ?_⟩,
    ⟨(((up.set (tmEn (.hub 3)) 1).set (R.TMR_COUNT_count 3) 100).set (R.TMR_CMP_cmp 3) 99 : State), (.hub 3 : TimerRef), ?_⟩,
    ⟨(((up.set (tmEn (.hub 3)) 1).set (R.TMR_COUNT_count 3) 100).set (R.TMR_CMP_cmp 3) 90 : State), (.hub 3 : TimerRef), ?_⟩,
    ⟨up, (.hub 3 : TimerRef), ?_⟩, ⟨eng0, (.hub 3 : TimerRef), ?_⟩,
    ⟨((((up.set (tmEn (.hub 3)) 1).set (tmTrigSel (.hub 3)) 5).set (R.TMR_RELOAD_reload 3) 100) : State), (.hub 3 : TimerRef), ?_⟩,
    ⟨(((up.set (tmEn (.hub 3)) 1).set (tmCapSel (.hub 3)) 5).set (R.TMR_COUNT_count 3) 100 : State), (.hub 3 : TimerRef), ?_⟩,
    ⟨(((up.set (tmEn (.hub 3)) 1).set (tmCapSel (.hub 3)) 5).set (tmCapFull (.hub 3)) 1 : State), (.hub 3 : TimerRef), ?_⟩,
    ⟨eng0, .bootRom, (.hub 3 : TimerRef), ?_⟩, ⟨((up.set (R.TMR_W_CTRL_mode 2) 1).set (R.TMR_W_CTRL_en 2) 1 : State), 2, ?_⟩, ⟨eng0, ?_⟩,
    ⟨eng0, .bootRom, ?_⟩, ⟨((up.set R.TMR_TSO_CTRL_en 1) : State), ?_⟩,
    ⟨({ up with pins := { up.pins with tsOut := true, tsOutEnd := 500 } } : State), ?_⟩, ⟨eng0, ?_⟩⟩ <;>
    (try simp only [opens_iff, noWait_iff, direct_iff, State.issues, State.mayFault, State.pairs, State.plainSram, State.alone, State.linkClear,
      State.lanesFree, State.unfenced]) <;> decide +kernel

theorem test_hypotheses_Interrupts :
    (∃ (s : State) (ini : Initiator) (data : Word), s.opens ini true (33687680) (BitVec.toNat data)) ∧
    (∃ (s : State), s.hubUp = true) ∧
    (∃ (s : State) (ini : Initiator) (data : Word), s.opens ini true (33687684) (BitVec.toNat data) ∧ s.irqA (BitVec.toNat data % 512) = true) ∧
    (∃ (s : State) (ini : Initiator) (data : Word), s.opens ini true (33687684) (BitVec.toNat data) ∧ s.irqA (BitVec.toNat data % 512) = false) ∧
    (∃ (s : State) (ini : Initiator) (data : Word) (w : Fin 16), s.opens ini true (33687552 + 4 * w.val) (BitVec.toNat data)) ∧
    (∃ (s : State), s.hubUp = true) := by
  refine ⟨⟨eng0, .bootRom, (33 : Word), ?_⟩, ⟨(((up.setBit (R.IRQ_PEND_pend 1) 1).set (R.IRQ_ROUTE_en 33) 1).set (R.IRQ_ROUTE_kind 33) 2 : State), ?_⟩,
    ⟨(up.setBit (R.IRQ_ACTIVE_active 1) 1 : State), .bootRom, (33 : Word), ?_⟩, ⟨eng0, .bootRom, (33 : Word), ?_⟩,
    ⟨eng0, .bootRom, (33 : Word), 1, ?_⟩, ⟨eng0, ?_⟩⟩ <;>
    (try simp only [opens_iff, noWait_iff, direct_iff, State.issues, State.mayFault, State.pairs, State.plainSram, State.alone, State.linkClear,
      State.lanesFree, State.unfenced]) <;> decide +kernel

theorem test_hypotheses_DomainSteps :
    (∃ (s : State) (ini : Initiator) (d : Fin 16) (data : Word), s.opens ini true (33619972 + 16 * d.val) (BitVec.toNat data) ∧
     BitVec.toNat data % 2 ^ 24 ≠ 0) ∧
    (∃ (s : State) (ini : Initiator) (d : Fin 16) (data : Word), s.opens ini true (33619976 + 16 * d.val) (BitVec.toNat data) ∧
     s.get (R.PWR_VOTE_votes d.val) ≠ 0 ∧ s.get (R.PWR_VOTE_votes d.val) = BitVec.toNat data % 2 ^ 25) ∧
    (∃ (s : State) (d : Fin 16), s.dom d.val = DomPhase.linger ∧ s.wanted d.val = false ∧ (d.val = 0 →
     (s.domSpan (0)).refreshVotes.wanted (0) = false)) ∧
    (∃ (s : State) (d : Fin 16), (s.unfenced ∧ s.lnk.ctlBack = [] ∧ ∀ k < 8, (s.tile k).irqHeld = 0) ∧ s.dom d.val = DomPhase.falling ∧
     s.drained d.val = true ∧ s.wanted d.val = false ∧ 1 ≤ d.val ∧ s.flc.scrubDue = false) ∧
    (∃ (s : State) (d : Fin 16), (s.unfenced ∧ s.lnk.ctlBack = [] ∧ ∀ k < 8, (s.tile k).irqHeld = 0) ∧ s.dom d.val = DomPhase.falling ∧
     s.drained d.val = true ∧ s.wanted d.val = false ∧ d.val = 0 ∧ (∀ (k : ℕ), 1 ≤ k → k ≤ 13 → s.dom k = DomPhase.down) ∧
     s.pwr.riseAgain.testBit (0) = false ∧ s.wanted (15) = true) ∧
    (∃ (s : State) (d : Fin 16), (s.unfenced ∧ s.lnk.ctlBack = [] ∧ ∀ k < 8, (s.tile k).irqHeld = 0) ∧ s.dom d.val = DomPhase.falling ∧
     s.drained d.val = true ∧ s.wanted d.val = false ∧ d.val = 0 ∧ (∀ (k : ℕ), 1 ≤ k → k ≤ 13 → s.dom k = DomPhase.down) ∧
     s.pwr.riseAgain.testBit (0) = false ∧ s.wanted (15) = false) ∧
    (∃ (s : State) (d : Fin 16), (s.unfenced ∧ s.lnk.ctlBack = [] ∧ ∀ k < 8, (s.tile k).irqHeld = 0) ∧ s.dom d.val = DomPhase.rising ∧ d.val ≠ 0 ∧
     s.wanted d.val = true ∧ (d.val ≤ 8 → s.pwr.pwrGood.testBit (2) = true ∧ s.pwr.pwrGood.testBit (3) = true ∧ (s.tile (d.val - 1)).inReset = false)) ∧
    (∃ (s : State), s.dom (0) = DomPhase.rising ∧ s.pwr.pwrGood.testBit (1) = true ∧ s.bit (R.PWR_VOTE_votes (0)) (24) = true) := by
  refine ⟨⟨(dm 3 .down), .bootRom, 3, (4 : Word), ?_⟩, ⟨(up.set (R.PWR_VOTE_votes 3) 4 : State), .bootRom, 3, (4 : Word), ?_⟩, ⟨(dm 3 .linger), 3, ?_⟩,
    ⟨(dm 3 .falling), 3, ?_⟩,
    ⟨(dms ((up.set (R.PWR_VOTE_votes 0) 0).set (R.PWR_VOTE_votes 15) 1) fun p => { p with dom := (Vector.replicate 16 .down).set 0 .falling } : State), 0, ?_⟩,
    ⟨(dms ((up.set (R.PWR_VOTE_votes 0) 0).set (R.PWR_VOTE_votes 15) 0) fun p => { p with dom := (Vector.replicate 16 .down).set 0 .falling } : State), 0, ?_⟩,
    ⟨((dm 3 .rising).set (R.PWR_VOTE_votes 3) 4 : State), 3, ?_⟩, ⟨((dm 0 .rising).set (R.PWR_VOTE_votes 0) (2 ^ 24) : State), ?_⟩⟩ <;>
    (try simp only [opens_iff, noWait_iff, direct_iff, State.issues, State.mayFault, State.pairs, State.plainSram, State.alone, State.linkClear,
      State.lanesFree, State.unfenced]) <;> decide +kernel

theorem test_hypotheses_ForcesAndGates :
    (∃ (s : State) (ini : Initiator) (data : Word), s.opens ini true (33620240) (BitVec.toNat data) ∧ s.lnk.wot = []) ∧
    (∃ (s : State) (ini : Initiator) (data : Word), s.opens ini true (33620244) (BitVec.toNat data)) ∧
    (∃ (s : State) (d : Fin 16) (w : WotAccess), s.domUp d.val = false ∧ s.lnk.wot = [w] ∧ w.dom = d.val ∧ w.src = AccSrc.direct) ∧
    (∃ (s : State), s.hubUp = true ∧ s.get R.PWR_CFG_rf_in_doze = 0 ∧ (∀ (k : ℕ), 1 ≤ k → k ≤ 8 → s.dom k = DomPhase.down)) := by
  refine ⟨⟨(up.set R.PWR_KEEL_VOTE_vote 0x200), .host, (0x208 : Word), ?_⟩, ⟨(up.set R.PWR_KEEL_VOTE_vote 0x200), .host, (0x208 : Word), ?_⟩,
    ⟨({ (dm 3 .down) with lnk := { up.lnk with wot := [⟨.direct, .host, 3, false, false, 0x2070000, [], 4⟩] } } : State), 3, (⟨.direct, .host, 3, false, false, 0x2070000, [], 4⟩ : WotAccess), ?_⟩,
    ⟨((dms up fun p => { p with dom := (Vector.replicate 16 .down).set 0 .up }).set R.PWR_CFG_rf_in_doze 0 : State), ?_⟩⟩ <;>
    (try simp only [opens_iff, noWait_iff, direct_iff, State.issues, State.mayFault, State.pairs, State.plainSram, State.alone, State.linkClear,
      State.lanesFree, State.unfenced]) <;> decide +kernel

theorem test_hypotheses_WakeSources :
    (∃ (s : State), s.pwr.mode = ModState.moor ∧ s.dom (0) = DomPhase.down ∧ s.boot.step = 0 ∧ s.pwr.railsHeld = false ∧ s.aon.wakeDrive = false ∧
     s.aon.wakeQuiet ≤ s.clk.mesh ∧ s.bit R.AON_WAKE_EN_codes (2) = true) ∧
    (∃ (s : State), s.pwr.mode = ModState.moor ∧ s.dom (0) = DomPhase.down ∧ s.boot.step = 0 ∧ s.pwr.railsHeld = false ∧ s.aon.wakeDrive = false ∧
     s.aon.wakeQuiet ≤ s.clk.mesh ∧ s.bit R.AON_LATCH_EN_sources (16) = true) ∧
    (∃ (s : State) (g : Fin 16), s.pwr.mode = ModState.moor ∧ s.dom (0) = DomPhase.down ∧ s.boot.step = 0 ∧ s.pwr.railsHeld = false ∧
     (s.get R.AON_WAKE_EDGE_edges / 4 ^ g.val % 4).testBit (0) = true ∧ s.bit R.AON_WAKE_EN_codes (4) = true) ∧
    (∃ (s : State), s.pwr.mode = ModState.moor ∧ s.dom (0) = DomPhase.down ∧ s.boot.step = 0 ∧ s.pwr.railsHeld = false ∧
     s.get R.AON_TIMER_CTRL_en = 1 ∧ s.clk.holder ≠ TimeHolder.stopped ∧ s.bit R.AON_WAKE_EN_codes (3) = true) ∧
    (∃ (s : State), s.pwr.mode = ModState.moor ∧ s.dom (0) = DomPhase.down ∧ s.boot.step = 0 ∧ s.pwr.railsHeld = false ∧ s.aon.ttArmed = true) ∧
    (∃ (s : State), s.hubUp = true ∧ s.get R.AON_TIMER_CTRL_en = 1 ∧ s.clk.holder ≠ TimeHolder.stopped) ∧
    (∃ (s : State), s.pwr.mode = ModState.vigil ∧ s.boot.step = 0 ∧ s.dom (0) = DomPhase.down ∧ s.get R.AON_PWR_CMD_off_arm = 1) ∧
    (∃ (s : State), s.aon.wakeDrive = true) := by
  refine ⟨⟨(((dms up fun p => { p with mode := .moor, dom := .replicate 16 .down })).set R.AON_WAKE_EN_codes 0xFFF : State), ?_⟩,
    ⟨(((dms up fun p => { p with mode := .moor, dom := .replicate 16 .down })).set R.AON_LATCH_EN_sources 0x1FFFF : State), ?_⟩,
    ⟨((((dms up fun p => { p with mode := .moor, dom := .replicate 16 .down })).set R.AON_WAKE_EN_codes 0xFFF).set R.AON_WAKE_EDGE_edges 0xFF : State), 3, ?_⟩,
    ⟨((((dms up fun p => { p with mode := .moor, dom := .replicate 16 .down })).set R.AON_WAKE_EN_codes 0xFFF).set R.AON_TIMER_CTRL_en 1 : State), ?_⟩,
    ⟨(let x := (dms up fun p => { p with mode := .moor, dom := .replicate 16 .down }); { x with aon := { x.aon with ttArmed := true } } : State), ?_⟩,
    ⟨(up.set R.AON_TIMER_CTRL_en 1), ?_⟩,
    ⟨((dms up fun p => { p with mode := .vigil, dom := .replicate 16 .down }).set R.AON_PWR_CMD_off_arm 1 : State), ?_⟩,
    ⟨({ up with aon := { up.aon with wakeDrive := true } } : State), ?_⟩⟩ <;>
    (try simp only [opens_iff, noWait_iff, direct_iff, State.issues, State.mayFault, State.pairs, State.plainSram, State.alone, State.linkClear,
      State.lanesFree, State.unfenced]) <;> decide +kernel

theorem test_hypotheses_Bells :
    (∃ (s : State) (ini : Initiator) (data : Word), s.opens ini true (50331788) (BitVec.toNat data)) ∧
    (∃ (s : State) (r : Fin 4) (energy : Fin 256), s.wkState r.val = 1 ∧ s.get R.AON_WK_CFG_thresh < energy.val) ∧
    (∃ (s : State) (r : Fin 4), s.wkState r.val = 2) ∧
    (∃ (s : State) (r : Fin 4) (b : Bell), s.wkState r.val = 2 ∧ s.hubUp = true ∧ b.target < 65536 ∧ b.command < 256 ∧ b.time < 65536 ∧
     b.tag < 65536 ∧ b.crc < 65536 ∧ s.bit R.HUB_FUNC_MODE_bits (7) = false ∧ bellCrcOk b = false) ∧
    (∃ (s : State) (r : Fin 4) (b : Bell), s.wkState r.val = 2 ∧ s.hubUp = true ∧ b.target < 65536 ∧ b.command < 256 ∧ b.time < 65536 ∧
     b.tag < 65536 ∧ b.crc < 65536 ∧ s.bit R.HUB_FUNC_MODE_bits (7) = false ∧ bellCrcOk b = true ∧ s.bellForMe b = true ∧ s.bellAuth b = true ∧
     -2 ≤ s.bellSkew b ∧ s.bellSkew b ≤ 2 ∧ s.bellReplay b = false) ∧
    (∃ (s : State) (r : Fin 4) (b : Bell), s.wkState r.val = 2 ∧ s.hubUp = true ∧ b.target < 65536 ∧ b.command < 256 ∧ b.time < 65536 ∧
     b.tag < 65536 ∧ b.crc < 65536 ∧ s.bit R.HUB_FUNC_MODE_bits (7) = true) ∧
    (∃ (s : State) (ini : Initiator), s.opens ini false (50331864) (0)) ∧
    (∃ (s : State) (ini : Initiator) (data : Word), s.opens ini true (50331824) (BitVec.toNat data) ∧ BitVec.getLsbD data (0) = true ∧
     s.aon.bellTx = BellTxSt.none ∧ s.get R.AON_BELL_CTRL_key_valid = 1) ∧
    (∃ (s : State) (ini : Initiator) (data : Word), s.opens ini true (50331824) (BitVec.toNat data) ∧ BitVec.getLsbD data (0) = true ∧
     s.aon.bellTx = BellTxSt.none ∧ s.get R.AON_BELL_CTRL_key_valid = 0) ∧
    (∃ (s : State) (ini : Initiator) (data : Word), s.opens ini true (50331824) (BitVec.toNat data) ∧ BitVec.getLsbD data (0) = true ∧
     s.aon.bellTx ≠ BellTxSt.none) ∧
    (∃ (s : State) (gnt : Bool), s.aon.bellTx = BellTxSt.pending ∧ s.domRuns (14) = true ∧ s.wkUsable (s.on R.AON_BELL_TX_chan) = true ∧
     (s.duty = 0 ∨ bellCost ≤ s.aon.bucket) ∧ (s.get R.COEX_CFG_bell = 0 ∨ gnt = true) ∧ s.pins.cxiGnt = false) ∧
    (∃ (s : State), s.aon.bellTx = BellTxSt.onAir) := by
  refine ⟨⟨eng0, .bootRom, (0x52 : Word), ?_⟩, ⟨((up.set R.AON_WK_STATE_states 4) : State), 1, 200, ?_⟩,
    ⟨((up.set R.AON_WK_STATE_states 8) : State), 1, ?_⟩, ⟨((up.set R.AON_WK_STATE_states 8) : State), 1, (⟨5, 0x90, 7, 0, 0⟩ : Bell), ?_⟩,
    ⟨belled, 1, (bellIn : Bell), by
      and_intros
      iterate 10 decide +kernel
      · exact bellIn_auth
      all_goals decide +kernel⟩, ⟨((up.set R.AON_WK_STATE_states 8).setBit R.HUB_FUNC_MODE_bits 7 : State), 1, (⟨5, 0x90, 7, 0, 0⟩ : Bell), ?_⟩,
    ⟨eng0, .bootRom, ?_⟩, ⟨(up.set R.AON_BELL_CTRL_key_valid 1), .bootRom, (0x00051101 : Word), ?_⟩, ⟨up, .bootRom, (0x00051101 : Word), ?_⟩,
    ⟨({ up with aon := { up.aon with bellTx := .pending } } : State), .bootRom, (0x00051101 : Word), ?_⟩,
    ⟨({ (up.set R.AON_BELL_CTRL_key_valid 1) with aon := { up.aon with bellTx := .pending } } : State), default, ?_⟩,
    ⟨({ (up.set R.AON_BELL_CTRL_key_valid 1) with aon := { up.aon with bellTx := .onAir } } : State), ?_⟩⟩ <;>
    (try simp only [opens_iff, noWait_iff, direct_iff, State.issues, State.mayFault, State.pairs, State.plainSram, State.alone, State.linkClear,
      State.lanesFree, State.unfenced]) <;> decide +kernel

theorem test_hypotheses_RailsAndBoots :
    (∃ (s : State), s.pwr.mode ≠ ModState.off ∧ s.pwr.xtalStable = false) ∧
    (∃ (s : State), s.boot.step = 1 ∧ s.pwr.xtalStable = false ∧ s.pwr.pwrGood = 0 ∧ s.pwr.lowHold = 0) ∧
    (∃ (s : State), s.pwr.tcxoEn = true) ∧
    (∃ (s : State) (k : Fin 4), s.pwr.pwrEn.testBit k.val = true ∧ s.pwr.pwrGood = 2 ^ k.val - 1 ∧ s.boot.step = 2 ∧ s.pwr.lowHold = 0) ∧
    (∃ (s : State) (k : Fin 4), s.pwr.pwrEn.testBit k.val = true ∧ s.pwr.pwrGood.testBit k.val = false) ∧
    (∃ (s : State) (k : Fin 4), s.pwr.pwrEn.testBit k.val = true ∧ s.pwr.pwrGood.testBit k.val = true) ∧
    (∃ (s : State), s.boot.kind = StartKind.rail ∧ s.boot.step = 2 ∧ s.pwr.pwrEn = 0 ∧ s.pwr.railsHeld = false ∧ s.pwr.pwrGood = 0 ∧ s.pwr.lowHold = 0) ∧
    (∃ (s : State) (seen : BootSeen), s.boot.step = 3 ∧ s.boot.kind ≠ StartKind.bootTimeout ∧ seen.bootSel = 1) ∧
    (∃ (s : State), s.hubUp = true ∧ s.boot.ready = false ∧ 3 ≤ s.boot.step ∧ s.boot.timeouts = 0) := by
  refine ⟨⟨State.reset, ?_⟩, ⟨State.reset, ?_⟩, ⟨eng0, ?_⟩,
    ⟨(dms up (fun p => { p with pwrGood := 1 }) |> fun s => { s with boot := { s.boot with step := 2 } } : State), 1, ?_⟩,
    ⟨(dms up (fun p => { p with pwrGood := 1 }) |> fun s => { s with boot := { s.boot with step := 2 } } : State), 1, ?_⟩, ⟨eng0, 1, ?_⟩,
    ⟨({ State.reset with boot := { State.reset.boot with step := 2, kind := .rail } } : State), ?_⟩,
    ⟨({ (dms State.reset fun p => { p with pwrEn := 15, pwrGood := 15, tcxoEn := true, tcxoReady := true }) with boot := { State.reset.boot with step := 3 } } : State), (⟨1, []⟩ : BootSeen), ?_⟩,
    ⟨({ up with boot := { up.boot with step := 8, ready := false } } : State), ?_⟩⟩ <;>
    (try simp only [opens_iff, noWait_iff, direct_iff, State.issues, State.mayFault, State.pairs, State.plainSram, State.alone, State.linkClear,
      State.lanesFree, State.unfenced]) <;> decide +kernel

theorem test_hypotheses_Resets :
    (∃ (s : State) (ini : Initiator), s.opens ini true (33554448) (resetWord (3) (0)) ∧ s.boot.ready = true) ∧
    (∃ (s : State) (ini : Initiator) (target : Fin 128), s.opens ini true (33554448) (resetWord (0) target.val) ∧ s.boot.ready = true) ∧
    (∃ (s : State) (ini : Initiator) (target : Fin 128), s.opens ini true (33554448) (resetWord (0) target.val) ∧ s.boot.ready = false) ∧
    (∃ (s : State) (ini : Initiator) (target : Fin 128), s.opens ini true (33554448) (resetWord (2) target.val) ∧ s.boot.ready = true ∧
     target.val < 8 ∧ (s.tile target.val).inReset = false) ∧
    (∃ (s : State) (ini : Initiator) (target : Fin 128), s.opens ini true (33554448) (resetWord (2) target.val) ∧ s.boot.ready = true ∧ 8 ≤ target.val) ∧
    (∃ (s : State) (ini : Initiator) (target : Fin 128), s.opens ini true (33554448) (resetWord (1) target.val) ∧ s.boot.ready = true ∧
     target.val < 96 ∧ (isKeel ini = true ∨ target.val ≠ 30 ∧ target.val ≠ 31)) ∧
    (∃ (s : State) (k : Fin 8), (s.tile k.val).inReset = true) ∧
    (∃ (s : State) (ini : Initiator) (data : Word), s.opens ini true (33554516) (BitVec.toNat data)) ∧
    (∃ (s : State), s.wdogRuns = true ∧ s.sys.wdogHalf = false) ∧
    (∃ (s : State), s.wdogRuns = true) := by
  refine ⟨⟨eng0, .bootRom, ?_⟩, ⟨eng0, .bootRom, 5, ?_⟩, ⟨({ up with boot := { up.boot with ready := false } } : State), .bootRom, 5, ?_⟩,
    ⟨eng0, .bootRom, 5, ?_⟩, ⟨eng0, .bootRom, 9, ?_⟩, ⟨eng0, .bootRom, 5, ?_⟩,
    ⟨((dm 4 .down).updTile 3 (fun t => { t with inReset := true }) |>.set (R.PWR_VOTE_votes 4) 1 : State), 3, ?_⟩, ⟨eng0, .bootRom, default, ?_⟩,
    ⟨(up.set R.HUB_WDOG_CTRL_en 1), ?_⟩, ⟨(up.set R.HUB_WDOG_CTRL_en 1), ?_⟩⟩ <;>
    (try simp only [opens_iff, noWait_iff, direct_iff, State.issues, State.mayFault, State.pairs, State.plainSram, State.alone, State.linkClear,
      State.lanesFree, State.unfenced]) <;> decide +kernel

theorem test_hypotheses_LinkFlits :
    (∃ (s : State) (l : Fin 5) (seq : Fin 4096), s.hears l.val = true ∧ seq.val = (s.link l.val).rxNext) ∧
    (∃ (s : State) (l : Fin 5) (seq : Fin 4096) (ok : Bool), s.hears l.val = true ∧ (ok = false ∨ seq.val ≠ (s.link l.val).rxNext)) ∧
    (∃ (s : State) (l : Fin 5), s.hears l.val = true ∧ (s.link l.val).vc0 = [] ∧ (s.link l.val).vc1 = [] ∧ (s.link l.val).vc2 = []) ∧
    (∃ (s : State) (l : Fin 5), s.hears l.val = true) ∧
    (∃ (s : State) (l : Fin 5) (v : ℕ) (rest : List ℕ), s.irq.waiting = v :: rest ∧ l.val = 4 ∧ (s.link l.val).vc0 = [] ∧ (s.link l.val).vc1 = [] ∧
     (s.link l.val).vc2 = [] ∧ (s.link l.val).canSend (OutPacket.interrupt v) = true) ∧
    (∃ (s : State) (l : Fin 5) (w : ℕ) (sq : ℕ) (a : ℕ) (status : Status) (rest : List (ℕ × ℕ × ℕ × Status × ℕ)), s.lnk.lateWait = (w, l.val, sq,
     status, a) :: rest ∧ (s.link l.val).vc0 = [] ∧ (s.link l.val).vc1 = [] ∧ (s.link l.val).vc2 = [] ∧ (w, l.val, sq, status, a) ∉ rest ∧
     (s.link l.val).canSend (OutPacket.lateFault sq status a) = true) := by
  refine ⟨⟨(lk 4 fun x => { x with rxNext := 5, replay := [(4, 1, .interrupt 3), (5, 1, .interrupt 4), (6, 1, .interrupt 4)], txNext := 7 } : State), 4, 5, ?_⟩,
    ⟨(lk 4 fun x => { x with rxNext := 5, replay := [(4, 1, .interrupt 3), (5, 1, .interrupt 4), (6, 1, .interrupt 4)], txNext := 7 } : State), 4, 8, true, ?_⟩,
    ⟨(lk 4 fun x => { x with rxNext := 5, replay := [(4, 1, .interrupt 3), (5, 1, .interrupt 4), (6, 1, .interrupt 4)], txNext := 7 } : State), 4, ?_⟩,
    ⟨(lk 4 fun x => { x with rxNext := 5, replay := [(4, 1, .interrupt 3), (5, 1, .interrupt 4), (6, 1, .interrupt 4)], txNext := 7 } : State), 4, ?_⟩,
    ⟨(let s1 := lk 4 fun x => { x with rxNext := 5, txNext := 7 }; { s1 with irq := { s1.irq with waiting := [3, 4] } } : State), 4, (3 : ℕ), ([4] : List ℕ), ?_⟩,
    ⟨({ (lk 4 fun x => { x with rxNext := 5, txNext := 7 }) with lnk := { (lk 4 fun x => { x with rxNext := 5, txNext := 7 }).lnk with lateWait := [(9, 4, 3, .denied, 0x1000)] } } : State), 4, (9 : ℕ), (3 : ℕ), (0x1000 : ℕ), (.denied : Status), ([] : List (ℕ × ℕ × ℕ × Status × ℕ)), ?_⟩⟩ <;>
    (try simp only [opens_iff, noWait_iff, direct_iff, State.issues, State.mayFault, State.pairs, State.plainSram, State.alone, State.linkClear,
      State.lanesFree, State.unfenced]) <;> decide +kernel

theorem test_hypotheses_LinkTrainings :
    (∃ (s : State) (l : Fin 5) (seen : TrainSeen), s.hubUp = true ∧ s.domUp (linkDomain l.val) = true ∧ s.pwr.refclk = true ∧
     ((s.link l.val).state = LinkState.training ∨ (s.link l.val).state = LinkState.retrain) ∧ l.val ≠ 4 ∧ seen.peerIndex ≠ l.val) ∧
    (∃ (s : State) (l : Fin 5) (seen : TrainSeen), s.hubUp = true ∧ s.domUp (linkDomain l.val) = true ∧ s.pwr.refclk = true ∧
     ((s.link l.val).state = LinkState.training ∨ (s.link l.val).state = LinkState.retrain) ∧ l.val = 4 ∧ s.trainedWidth (4) seen.lanes = none) ∧
    (∃ (s : State) (l : Fin 5) (seen : TrainSeen) (width : ℕ), s.hubUp = true ∧ s.domUp (linkDomain l.val) = true ∧ s.pwr.refclk = true ∧
     ((s.link l.val).state = LinkState.training ∨ (s.link l.val).state = LinkState.retrain) ∧ (l.val = 4 ∨ seen.peerIndex = l.val ∧
     seen.peerIndex ≠ s.get R.HUB_ID_pontoon_index) ∧ s.unfenced ∧ s.linkClear l.val ∧ s.boot.step ≠ 8 ∧
     s.trainedWidth l.val seen.lanes = some width ∧ (s.link l.val).prevOwn = some (s.link l.val).epoch ∧
     (s.link l.val).prevPeer = some seen.peerEpoch ∧ (s.link l.val).kept = true ∧ (s.link l.val).holdsResume seen.peerResume = true ∧
     seen.inBuffer = true ∧ (∀ r ∈ (s.link l.val).replay, r.2.2.ownTag = none)) ∧
    (∃ (s : State) (l : Fin 5) (seen : TrainSeen) (width : ℕ), s.hubUp = true ∧ s.domUp (linkDomain l.val) = true ∧ s.pwr.refclk = true ∧
     ((s.link l.val).state = LinkState.training ∨ (s.link l.val).state = LinkState.retrain) ∧ (l.val = 4 ∨ seen.peerIndex = l.val ∧
     seen.peerIndex ≠ s.get R.HUB_ID_pontoon_index) ∧ s.unfenced ∧ s.linkClear l.val ∧ s.boot.step ≠ 8 ∧
     s.trainedWidth l.val seen.lanes = some width ∧
     ((s.link l.val).prevOwn ≠ some (s.link l.val).epoch ∨ (s.link l.val).prevPeer ≠ some seen.peerEpoch)) := by
  refine ⟨⟨(lk 3 fun x => { x with state := .training } : State), 3, (sn : TrainSeen), ?_⟩,
    ⟨(lk 4 fun x => { x with state := .training } : State), 4, ({ sn with lanes := 0 } : TrainSeen), ?_⟩,
    ⟨(lk 2 fun x => { x with state := .training, epoch := 3, prevOwn := some 3, prevPeer := some 0, replay := [(0, 1, .interrupt 4)], txNext := 1, rxNext := 6 } : State), 2, ({ sn with peerResume := 0 } : TrainSeen), (2 : ℕ), ?_⟩,
    ⟨(lk 2 fun x => { x with state := .training } : State), 2, (sn : TrainSeen), (2 : ℕ), ?_⟩⟩ <;>
    (try simp only [opens_iff, noWait_iff, direct_iff, State.issues, State.mayFault, State.pairs, State.plainSram, State.alone, State.linkClear,
      State.lanesFree, State.unfenced]) <;> decide +kernel

theorem test_hypotheses_LinkStandby :
    (∃ (s : State) (l : Fin 5), s.hears l.val = true ∧ s.linkQuiet l.val = true ∧ s.get R.LNK_CFG_idle_us ≠ 0) ∧
    (∃ (s : State) (l : Fin 5), s.hears l.val = true ∧ s.linkQuiet l.val = true ∧ s.get R.LNK_CFG_idle_us ≠ 0 ∧
     (s.link l.val).idleSince + 1250 * s.get R.LNK_CFG_idle_us ≤ s.clk.mesh) ∧
    (∃ (s : State) (l : Fin 5), s.hears l.val = true ∧ s.linkQuiet l.val = true ∧ (s.link l.val).standbyAsked = true) ∧
    (∃ (s : State) (l : Fin 5), (s.link l.val).state = LinkState.standby ∧ s.hubUp = true) ∧
    (∃ (s : State) (l : Fin 5), (s.link l.val).state = LinkState.standby ∧
     ((s.link l.val).wakeAt ≠ none ∨ (s.link l.val).vc0 ≠ [] ∨ (s.link l.val).vc1 ≠ [] ∨ (s.link l.val).vc2 ≠ [])) ∧
    (∃ (s : State), s.hubUp = true ∧ s.pwr.mode ≠ ModState.off ∧ (s.link (4)).state = LinkState.down) ∧
    (∃ (s : State), s.pwr.mode = ModState.moor ∧ s.dom (0) = DomPhase.down ∧ s.boot.step = 0 ∧ s.pwr.railsHeld = false ∧
     s.bit R.AON_WAKE_EN_codes (1) = true) := by
  refine ⟨⟨((lk 4 fun x => { x with idleSince := 0 }).set R.LNK_CFG_idle_us 5 : State), 4, ?_⟩,
    ⟨(let x := (lk 4 fun x => { x with idleSince := 0 }).set R.LNK_CFG_idle_us 5; { x with clk := { x.clk with mesh := 10000 } } : State), 4, ?_⟩,
    ⟨(lk 4 fun x => { x with standbyAsked := true, idleSince := 0 } : State), 4, ?_⟩, ⟨(lk 4 fun x => { x with state := .standby } : State), 4, ?_⟩,
    ⟨(lk 4 fun x => { x with state := .standby, wakeAt := some 5000 } : State), 4, ?_⟩, ⟨(up.set R.LNK_CFG_auto_up 1), ?_⟩,
    ⟨(((dms up fun p => { p with mode := .moor, dom := .replicate 16 .down })).set R.AON_WAKE_EN_codes 0xFFF : State), ?_⟩⟩ <;>
    (try simp only [opens_iff, noWait_iff, direct_iff, State.issues, State.mayFault, State.pairs, State.plainSram, State.alone, State.linkClear,
      State.lanesFree, State.unfenced]) <;> decide +kernel

theorem test_hypotheses_RequestPackets :
    (∃ (s : State) (l : Fin 5) (p : Packet), s.hears l.val = true ∧ s.lnk.cancels = [] ∧ s.linkClear l.val ∧ (p.once = false ∨ l.val ≠ 4) ∧
     s.plainSram p.addr p.len ∧ (s.link l.val).canSend (OutPacket.cpld p.tag Status.ok (s.bytes p.addr p.len)) = true) ∧
    (∃ (s : State) (l : Fin 5) (p : Packet) (data : List Byte), s.hears l.val = true ∧ s.lnk.cancels = [] ∧ s.linkClear l.val ∧
     (p.once = false ∨ l.val ≠ 4) ∧ s.plainSram p.addr data.length ∧ p.len = data.length ∧
     (s.link l.val).canSend (OutPacket.cpl p.tag Status.ok) = true) ∧
    (∃ (s : State) (l : Fin 5) (p : Packet), s.hears l.val = true ∧ s.lnk.cancels = [] ∧ s.linkClear l.val ∧ 4096 < p.len ∧
     (s.link l.val).canSend (OutPacket.cpl p.tag Status.denied) = true) ∧
    (∃ (s : State) (l : Fin 5) (p : Packet) (o : OnceEntry), s.hears l.val = true ∧ s.lnk.cancels = [] ∧ s.linkClear l.val ∧ l.val = 4 ∧
     p.once = true ∧ p.len ≤ 4096 ∧ o.state = OnceState.open_ ∧
     List.find? (fun (e : OnceEntry) => e.tag == p.tag && e.crc == crc32c (requestBytes (1) p.tag p.addr p.len [])) (s.link l.val).once = some o ∧
     (s.link l.val).canSend (answerPacket p.tag o.status o.data) = true) ∧
    (∃ (s : State) (l : Fin 5) (tag : Fin 1024) (once : Bool), s.hears l.val = true ∧ s.lnk.cancels = [] ∧ s.linkClear l.val ∧
     (once = false ∨ l.val ≠ 4) ∧ s.unfenced ∧ (∀ k < 4, s.linkClear k) ∧
     (s.link l.val).canSend (OutPacket.cpld tag.val Status.ok (s.fenceData { link := l.val, tag := tag.val, seq := ((s.link l.val).postRx + 65535) % 65536, serial := s.lnk.serial })) = true) ∧
    (∃ (s : State) (l : Fin 5) (tag : Fin 1024) (once : Bool) (tx : Bool) (target : Fin 65536), s.hears l.val = true ∧ s.lnk.cancels = [] ∧
     s.linkClear l.val ∧ (once = false ∨ l.val ≠ 4) ∧ tx = false ∧ target.val ≠ tag.val ∧ s.lnk.wot = [] ∧ (l.val = 4 → ∀ c ∈ s.lnk.cmds,
     c.1 ≠ target.val) ∧ (s.link l.val).canSend (OutPacket.cpl tag.val Status.alreadyComplete) = true) ∧
    (∃ (s : State) (l : Fin 5) (tag : Fin 1024) (once : Bool) (tx : Bool) (landing : Fin 256), s.hears l.val = true ∧ s.lnk.cancels = [] ∧
     s.linkClear l.val ∧ (once = false ∨ l.val ≠ 4) ∧ tx = true ∧ landing.val < 64 ∧ (s.nbr landing.val).frames = [] ∧ (s.nbr landing.val).tags = [] ∧
     s.ringPosted landing.val ≠ 0 ∧ (s.link l.val).canSend (OutPacket.cpl tag.val Status.cancelled) = true) ∧
    (∃ (s : State) (l : Fin 5) (tag : Fin 1024) (once : Bool) (target : Fin 65536) (w : WotAccess) (k : ℕ), s.hears l.val = true ∧
     s.lnk.cancels = [] ∧ s.lnk.wot = [w] ∧ w.src = AccSrc.link l.val target.val k ∧ (s.link l.val).openTags = [(target.val, k)] ∧
     (s.link l.val).vc0 = [] ∧ (s.link l.val).vc1 = [] ∧ (s.link l.val).vc2 = [] ∧ target.val ≠ tag.val ∧ once = false ∧
     (s.link l.val).canSend (OutPacket.cpl target.val Status.cancelled) = true ∧
     ((s.link l.val).sent (OutPacket.cpl target.val Status.cancelled)).canSend (OutPacket.cpl tag.val Status.cancelled) = true) ∧
    (∃ (s : State) (l : Fin 5) (p : Packet) (data : List Byte), s.hears l.val = true ∧ s.lnk.cancels = [] ∧ p.len = data.length ∧
     s.plainSram p.addr data.length) ∧
    (∃ (s : State) (l : Fin 5) (p : Packet) (data : List Byte), s.hears l.val = true ∧ s.lnk.cancels = [] ∧ p.len ≠ data.length) := by
  refine ⟨⟨(lnkUp 4), 4, (⟨false, 9, 0x1005000, 4⟩ : Packet), ?_⟩, ⟨(lnkUp 4), 4, (⟨false, 9, 0x1005000, 4⟩ : Packet), ([1, 2, 3, 4] : List Byte), ?_⟩,
    ⟨(lnkUp 4), 4, (⟨false, 9, 0x1005000, 5000⟩ : Packet), ?_⟩,
    ⟨(lk 4 fun x => { x with once := [⟨9, crc32c (requestBytes 1 9 0x1005000 4 []), .open_, .ok, [1, 2, 3, 4], 0⟩] } : State), 4, (⟨true, 9, 0x1005000, 4⟩ : Packet), (⟨9, crc32c (requestBytes 1 9 0x1005000 4 []), .open_, .ok, [1, 2, 3, 4], 0⟩ : OnceEntry), ?_⟩,
    ⟨(lk 4 fun x => { x with fails := [3], postRx := 5 } : State), 4, 9, default, ?_⟩, ⟨(lnkUp 4), 4, 9, default, default, 8, ?_⟩,
    ⟨(((lnkUp 4).set (R.LNK_LND_CFG_en 1) 1).set (R.LNK_LND_TAIL_tail 1) 3 : State), 4, 9, default, true, 1, ?_⟩,
    ⟨(let s1 := lk 4 fun x => { x with openTags := [(8, 3)] }; { s1 with lnk := { s1.lnk with wot := [⟨.link 4 8 3, .host, 3, false, false, 0x2070000, [], 4⟩] } } : State), 4, 9, default, 8, (⟨.link 4 8 3, .host, 3, false, false, 0x2070000, [], 4⟩ : WotAccess), (3 : ℕ), ?_⟩,
    ⟨(lnkUp 4), 4, (⟨false, 9, 0x1005000, 4⟩ : Packet), ([1, 2, 3, 4] : List Byte), ?_⟩,
    ⟨(lnkUp 4), 4, (⟨false, 9, 0x1005000, 5⟩ : Packet), ([1, 2, 3, 4] : List Byte), ?_⟩⟩ <;>
    (try simp only [opens_iff, noWait_iff, direct_iff, State.issues, State.mayFault, State.pairs, State.plainSram, State.alone, State.linkClear,
      State.lanesFree, State.unfenced]) <;> decide +kernel

theorem test_hypotheses_CompletionPackets :
    (∃ (s : State) (l : Fin 5) (tag : Fin 1024), s.hears l.val = true ∧
     List.find? (fun (r : ℕ × AccSrc) => r.1 == tag.val) (s.link l.val).ownReqs = none) ∧
    (∃ (s : State) (l : Fin 5) (tag : Fin 1024), s.hears l.val = true ∧
     List.find? (fun (r : ℕ × AccSrc) => r.1 == tag.val) (s.link l.val).ownReqs = some (tag.val, AccSrc.direct)) ∧
    (∃ (s : State) (l : Fin 5) (tag : Fin 1024) (st : Status) (data : List Byte) (k : ℕ) (n : ℕ), s.hears l.val = true ∧
     List.find? (fun (r : ℕ × AccSrc) => r.1 == tag.val) (s.link l.val).ownReqs = some (tag.val, AccSrc.link (4) k n) ∧ l.val ≠ 4 ∧
     s.lnk.cancels = [] ∧ (s.link (4)).openTags = [(k, n)] ∧ (s.link (4)).vc0 = [] ∧ (s.link (4)).vc1 = [] ∧ (s.link (4)).vc2 = [] ∧
     (s.link (4)).canSend (answerPacket k st data) = true) ∧
    (∃ (s : State) (l : Fin 5), s.hears l.val = true ∧ l.val = 4) := by
  refine ⟨⟨(lnkUp 4), 4, 9, ?_⟩, ⟨(lk 4 fun x => { x with ownReqs := [(9, .direct)] } : State), 4, 9, ?_⟩,
    ⟨(lks (lk 4 fun x => { x with openTags := [(8, 3)] }) 2 fun x => { x with state := .active, ownReqs := [(9, .link 4 8 3)] } : State), 2, 9, (.ok : Status), ([1] : List Byte), (8 : ℕ), (3 : ℕ), ?_⟩,
    ⟨(lnkUp 4), 4, ?_⟩⟩ <;>
    (try simp only [opens_iff, noWait_iff, direct_iff, State.issues, State.mayFault, State.pairs, State.plainSram, State.alone, State.linkClear,
      State.lanesFree, State.unfenced]) <;> decide +kernel

theorem test_hypotheses_Landings :
    (∃ (s : State) (ini : Initiator) (n : Fin 74) (data : Word), s.opens ini true (34279436 + 32 * n.val) (BitVec.toNat data)) ∧
    (∃ (s : State) (ini : Initiator) (data : Word), s.opens ini true (34279440 + 32 * 73) (BitVec.toNat data)) ∧
    (∃ (s : State) (d : CmdDesc), s.hears (4) = true ∧ s.ringPosted (72) ≠ 0 ∧ d.once = false ∧ 64 ≤ d.opcode ∧ d.opcode ≤ 67 ∧ s.upd.cmd = none) ∧
    (∃ (s : State) (d : CmdDesc), s.hears (4) = true ∧ s.ringPosted (72) ≠ 0 ∧ d.once = false ∧ (d.opcode < 64 ∨ 67 < d.opcode) ∧ (∀ c ∈ s.lnk.cmds,
     c.1 ≠ d.tag)) ∧
    (∃ (s : State) (e : RingEntry) (rest : List RingEntry), s.lnk.entries = e :: rest ∧
     (s.get (R.LNK_LND_CFG_en (73)) = 0 ∨ (s.ringTail (73) + 1) % s.ringSize (73) = s.ringHead (73))) ∧
    (∃ (s : State) (e : RingEntry) (rest : List RingEntry), s.lnk.entries = e :: rest ∧ s.get (R.LNK_LND_CFG_en (73)) ≠ 0 ∧
     (s.ringTail (73) + 1) % s.ringSize (73) ≠ s.ringHead (73) ∧ s.lnk.cancels = [] ∧ s.linkClear (4) ∧
     (s.link (4)).canSend (OutPacket.write (s.ringAddr (73) (s.ringTail (73)) (16)) (ringBytes e s.lnk.phase)) = true) := by
  refine ⟨⟨eng0, .bootRom, 73, (5 : Word), ?_⟩, ⟨eng0, .bootRom, (5 : Word), ?_⟩,
    ⟨(((lnkUp 4).set (R.LNK_LND_CFG_en 72) 1).set (R.LNK_LND_TAIL_tail 72) 3 : State), (⟨0, 64, 0x41, false, 6, []⟩ : CmdDesc), ?_⟩,
    ⟨(((lnkUp 4).set (R.LNK_LND_CFG_en 72) 1).set (R.LNK_LND_TAIL_tail 72) 3 : State), (⟨0, 64, 0x44, false, 6, []⟩ : CmdDesc), ?_⟩,
    ⟨({ lnkUp 4 with lnk := { (lnkUp 4).lnk with entries := [⟨3, 4, 1, 72, 0, 0, 0, []⟩] } } : State), (⟨3, 4, 1, 72, 0, 0, 0, []⟩ : RingEntry), ([] : List RingEntry), ?_⟩,
    ⟨({ ((lnkUp 4).set (R.LNK_LND_CFG_en 73) 1).set (R.LNK_LND_TAIL_tail 73) 62 with lnk := { (lnkUp 4).lnk with entries := [⟨3, 4, 1, 72, 0, 0, 0, []⟩] } } : State), (⟨3, 4, 1, 72, 0, 0, 0, []⟩ : RingEntry), ([] : List RingEntry), ?_⟩⟩ <;>
    (try simp only [opens_iff, noWait_iff, direct_iff, State.issues, State.mayFault, State.pairs, State.plainSram, State.alone, State.linkClear,
      State.lanesFree, State.unfenced]) <;> decide +kernel

theorem test_hypotheses_Pontoons :
    (∃ (s : State) (p : Fin 4), s.hears p.val = true ∧ s.peerWanted p.val = true ∧ (s.peerState p.val = 2 ∨ s.peerState p.val = 3)) ∧
    (∃ (s : State), s.hubUp = true ∧ s.pontoonSecondary = true ∧ s.bit R.PNT_STATUS_solo (3) = false ∧ (s.link (0)).state ≠ LinkState.down) ∧
    (∃ (s : State) (p : Fin 4), s.hubUp = true ∧ s.peerWanted p.val = true ∧ p.val ≠ 0 ∧ s.peerState p.val = 2 ∧
     (s.link p.val).state ≠ LinkState.down ∧ s.linkClear p.val ∧ s.unfenced) := by
  refine ⟨⟨(((((lnkUp 0).set R.PNT_CTRL_en 1).set R.PNT_CTRL_peers 1).set R.HUB_ID_pontoon_index 2).set R.PNT_STATUS_peer 2 : State), 0, ?_⟩,
    ⟨(((((lnkUp 0).set R.PNT_CTRL_en 1).set R.PNT_CTRL_peers 1).set R.HUB_ID_pontoon_index 2).set R.PNT_STATUS_peer 2 : State), ?_⟩,
    ⟨(((((lnkUp 1).set R.PNT_CTRL_en 1).set R.PNT_CTRL_peers 2).set R.HUB_ID_pontoon_index 2).set R.PNT_STATUS_peer 0x10 : State), 1, ?_⟩⟩ <;>
    (try simp only [opens_iff, noWait_iff, direct_iff, State.issues, State.mayFault, State.pairs, State.plainSram, State.alone, State.linkClear,
      State.lanesFree, State.unfenced]) <;> decide +kernel

theorem test_hypotheses_FlashSequences :
    (∃ (s : State) (ini : Initiator) (k : Fin 4), s.hubUp = true ∧ s.domRuns (13) = true ∧
     ((s.fbank k.val).owner = none ∨ (s.fbank k.val).owner = some ini) ∧ ((s.fbank k.val).seq = SeqState.read ∨ (s.fbank k.val).seq = SeqState.busy) ∧
     ((s.fbank k.val).inSeq = true → s.clk.mesh ≤ (s.fbank k.val).wroteAt + 125000)) ∧
    (∃ (s : State) (ini : Initiator) (k : Fin 4), s.hubUp = true ∧ s.domRuns (13) = true ∧
     ((s.fbank k.val).owner = none ∨ (s.fbank k.val).owner = some ini) ∧ (s.fbank k.val).seq = SeqState.unlock1 ∧ ((s.fbank k.val).inSeq = true →
     s.clk.mesh ≤ (s.fbank k.val).wroteAt + 125000)) ∧
    (∃ (s : State) (ini : Initiator) (k : Fin 4) (block : Fin 64), s.hubUp = true ∧ s.domRuns (13) = true ∧
     ((s.fbank k.val).owner = none ∨ (s.fbank k.val).owner = some ini) ∧ (s.fbank k.val).seq = SeqState.unlock2 ∧ (s.fbank k.val).op = 0 ∧
     (isKeel ini = true ∨ 64 * k.val + block.val ≠ 0) ∧ 64 * k.val + block.val ≠ 255 ∧ s.markedBad (64 * k.val + block.val) = false ∧
     ((s.fbank k.val).inSeq = true → s.clk.mesh ≤ (s.fbank k.val).wroteAt + 125000)) ∧
    (∃ (s : State) (ini : Initiator) (k : Fin 4) (block : Fin 64), s.hubUp = true ∧ s.domRuns (13) = true ∧
     ((s.fbank k.val).owner = none ∨ (s.fbank k.val).owner = some ini) ∧ (s.fbank k.val).seq = SeqState.unlock2 ∧ (s.fbank k.val).op = 0 ∧
     (isKeel ini = true ∨ 64 * k.val + block.val ≠ 0) ∧ 64 * k.val + block.val ≠ 255 ∧ s.markedBad (64 * k.val + block.val) = false ∧
     s.factoryBad (64 * k.val + block.val) = false ∧ s.get R.FLC_HOLDUP_CTRL_check = 0 ∧ ((s.fbank k.val).inSeq = true →
     s.clk.mesh ≤ (s.fbank k.val).wroteAt + 125000)) ∧
    (∃ (s : State) (ini : Initiator) (k : Fin 4) (block : Fin 64), s.hubUp = true ∧ s.domRuns (13) = true ∧
     ((s.fbank k.val).owner = none ∨ (s.fbank k.val).owner = some ini) ∧ (s.fbank k.val).seq = SeqState.unlock2 ∧ (s.fbank k.val).op = 0 ∧
     (isKeel ini = true ∨ 64 * k.val + block.val ≠ 0) ∧ 64 * k.val + block.val ≠ 255 ∧ s.markedBad (64 * k.val + block.val) = false ∧
     s.factoryBad (64 * k.val + block.val) = false ∧ s.get R.FLC_HOLDUP_CTRL_check ≠ 0 ∧ s.pins.holdupCode = 0 ∧ ((s.fbank k.val).inSeq = true →
     s.clk.mesh ≤ (s.fbank k.val).wroteAt + 125000)) ∧
    (∃ (s : State) (ini : Initiator) (k : Fin 4) (block : Fin 64), s.hubUp = true ∧ s.domRuns (13) = true ∧
     ((s.fbank k.val).owner = none ∨ (s.fbank k.val).owner = some ini) ∧ (s.fbank k.val).seq = SeqState.unlock2 ∧ (s.fbank k.val).op = 0 ∧
     (isKeel ini = true ∨ 64 * k.val + block.val ≠ 0) ∧ 64 * k.val + block.val = 255 ∧ ((s.fbank k.val).inSeq = true →
     s.clk.mesh ≤ (s.fbank k.val).wroteAt + 125000)) ∧
    (∃ (s : State) (ini : Initiator) (k : Fin 4), s.hubUp = true ∧ s.domRuns (13) = true ∧
     ((s.fbank k.val).owner = none ∨ (s.fbank k.val).owner = some ini) ∧ (s.fbank k.val).seq = SeqState.unlock2 ∧ ((s.fbank k.val).inSeq = true →
     s.clk.mesh ≤ (s.fbank k.val).wroteAt + 125000)) ∧
    (∃ (s : State) (ini : Initiator) (k : Fin 4), s.hubUp = true ∧ s.domRuns (13) = true ∧
     ((s.fbank k.val).owner = none ∨ (s.fbank k.val).owner = some ini) ∧ (s.fbank k.val).seq = SeqState.unlock2 ∧ ((s.fbank k.val).inSeq = true →
     s.clk.mesh ≤ (s.fbank k.val).wroteAt + 125000)) ∧
    (∃ (s : State) (ini : Initiator) (k : Fin 4), s.hubUp = true ∧ s.domRuns (13) = true ∧
     ((s.fbank k.val).owner = none ∨ (s.fbank k.val).owner = some ini) ∧
     ((s.fbank k.val).seq = SeqState.unlock1 ∨ (s.fbank k.val).seq = SeqState.unlock2 ∨ (s.fbank k.val).seq = SeqState.loading) ∧
     (s.fbank k.val).op = 0) ∧
    (∃ (s : State) (ini : Initiator) (k : Fin 4), s.hubUp = true ∧ s.domRuns (13) = true ∧
     ((s.fbank k.val).owner = none ∨ (s.fbank k.val).owner = some ini) ∧ (s.fbank k.val).inSeq = true ∧ (s.fbank k.val).op = 0 ∧
     (s.fbank k.val).wroteAt + 125000 < s.clk.mesh) := by
  refine ⟨⟨eng0, .bootRom, 1, ?_⟩, ⟨(fb 1 fun x => { x with seq := .unlock1 } : State), .bootRom, 1, ?_⟩,
    ⟨(fb 1 fun x => { x with seq := .unlock2 } : State), .bootRom, 1, 5, ?_⟩,
    ⟨({ fz 1 fun x => { x with seq := .unlock2 } with flc := { (fb 1 fun x => { x with seq := .unlock2 }).flc with spareErased := 2 ^ 256 - 1 } } : State), .bootRom, 1, 5, ?_⟩,
    ⟨({ fb 1 fun x => { x with seq := .unlock2 } with flc := { (fb 1 fun x => { x with seq := .unlock2 }).flc with spareErased := 2 ^ 256 - 1 } } : State), .bootRom, 1, 5, ?_⟩,
    ⟨(fb 3 fun x => { x with seq := .unlock2 } : State), .bootRom, 3, 63, ?_⟩, ⟨(fb 1 fun x => { x with seq := .unlock2 } : State), .bootRom, 1, ?_⟩,
    ⟨(fb 1 fun x => { x with seq := .unlock2, op := 2, unit := 70 } : State), .bootRom, 1, ?_⟩,
    ⟨(fb 1 fun x => { x with seq := .loading } : State), .bootRom, 1, ?_⟩,
    ⟨({ fb 1 fun x => { x with seq := .unlock1 } with clk := { up.clk with mesh := 200000 } } : State), .bootRom, 1, ?_⟩⟩ <;>
    (try simp only [opens_iff, noWait_iff, direct_iff, State.issues, State.mayFault, State.pairs, State.plainSram, State.alone, State.linkClear,
      State.lanesFree, State.unfenced]) <;> decide +kernel

theorem test_hypotheses_FlashContents :
    (∃ (s : State) (ini : Initiator) (k : Fin 4) (addr : Word) (data : List Byte), s.hubUp = true ∧ s.domRuns (13) = true ∧
     BitVec.toNat addr / 4194304 = k.val ∧ ((s.fbank k.val).owner = none ∨ (s.fbank k.val).owner = some ini) ∧ data ≠ [] ∧
     ((s.fbank k.val).inSeq = true → s.clk.mesh ≤ (s.fbank k.val).wroteAt + 125000) ∧ (s.fbank k.val).seq = SeqState.loading ∧
     BitVec.toNat addr / 65536 = 64 * k.val + (s.fbank k.val).target ∧
     ((s.fbank k.val).page = none ∨ (s.fbank k.val).page = some (BitVec.toNat addr / 256 * 256)) ∧ (∀ p ∈ (s.fbank k.val).buffer,
     p.1 < BitVec.toNat addr % 256 ∨ BitVec.toNat addr % 256 + data.length ≤ p.1) ∧ BitVec.toNat addr % 256 + data.length < 256) ∧
    (∃ (s : State) (ini : Initiator) (k : Fin 4) (addr : Word) (data : List Byte), s.hubUp = true ∧ s.domRuns (13) = true ∧
     BitVec.toNat addr / 4194304 = k.val ∧ ((s.fbank k.val).owner = none ∨ (s.fbank k.val).owner = some ini) ∧ data ≠ [] ∧
     ((s.fbank k.val).inSeq = true → s.clk.mesh ≤ (s.fbank k.val).wroteAt + 125000) ∧ (s.fbank k.val).seq = SeqState.loading ∧
     BitVec.toNat addr / 65536 = 64 * k.val + (s.fbank k.val).target ∧
     ((s.fbank k.val).page = none ∨ (s.fbank k.val).page = some (BitVec.toNat addr / 256 * 256)) ∧ (∀ p ∈ (s.fbank k.val).buffer,
     p.1 < BitVec.toNat addr % 256 ∨ BitVec.toNat addr % 256 + data.length ≤ p.1) ∧ BitVec.toNat addr % 256 + data.length = 256 ∧
     (∀ i ∈ bufferWords ((s.fbank k.val).buffer ++ List.map (fun (i : ℕ) => (BitVec.toNat addr % 256 + i, BitVec.toNat (data.getD i (0)))) (List.range data.length)),
     s.wordErased (BitVec.toNat addr / 256 * 256 + 8 * i) = true) ∧ s.get R.FLC_HOLDUP_CTRL_check = 0) ∧
    (∃ (s : State) (ini : Initiator) (k : Fin 4) (addr : Word) (data : List Byte), s.hubUp = true ∧ s.domRuns (13) = true ∧
     BitVec.toNat addr / 4194304 = k.val ∧ ((s.fbank k.val).owner = none ∨ (s.fbank k.val).owner = some ini) ∧ data ≠ [] ∧
     ((s.fbank k.val).inSeq = true → s.clk.mesh ≤ (s.fbank k.val).wroteAt + 125000) ∧ (s.fbank k.val).seq = SeqState.loading ∧
     BitVec.toNat addr / 65536 = 64 * k.val + (s.fbank k.val).target ∧
     ((s.fbank k.val).page = none ∨ (s.fbank k.val).page = some (BitVec.toNat addr / 256 * 256)) ∧ (∀ p ∈ (s.fbank k.val).buffer,
     p.1 < BitVec.toNat addr % 256 ∨ BitVec.toNat addr % 256 + data.length ≤ p.1) ∧ BitVec.toNat addr % 256 + data.length = 256 ∧
     (∃ i ∈ bufferWords ((s.fbank k.val).buffer ++ List.map (fun (i : ℕ) => (BitVec.toNat addr % 256 + i, BitVec.toNat (data.getD i (0)))) (List.range data.length)),
     s.wordErased (BitVec.toNat addr / 256 * 256 + 8 * i) = false)) ∧
    (∃ (s : State) (ini : Initiator) (k : Fin 4) (addr : Word) (data : List Byte), s.hubUp = true ∧ s.domRuns (13) = true ∧
     BitVec.toNat addr / 4194304 = k.val ∧ ((s.fbank k.val).owner = none ∨ (s.fbank k.val).owner = some ini) ∧ data ≠ [] ∧
     ((s.fbank k.val).inSeq = true → s.clk.mesh ≤ (s.fbank k.val).wroteAt + 125000) ∧
     ((s.fbank k.val).seq = SeqState.read ∨ (s.fbank k.val).seq = SeqState.busy) ∧ BitVec.toNat addr + data.length ≤ 16777216 ∧ data.length ≤ 4096 ∧
     (BitVec.toNat addr % 4194304 ≠ 2730 ∨ data ≠ [BitVec.ofNat (8) (180)]) ∧ BitVec.toNat addr < 16744448) ∧
    (∃ (s : State) (ini : Initiator) (k : Fin 4) (addr : Word) (data : List Byte), s.hubUp = true ∧ s.domRuns (13) = true ∧
     BitVec.toNat addr / 4194304 = k.val ∧ ((s.fbank k.val).owner = none ∨ (s.fbank k.val).owner = some ini) ∧ data ≠ [] ∧
     ((s.fbank k.val).inSeq = true → s.clk.mesh ≤ (s.fbank k.val).wroteAt + 125000) ∧
     ((s.fbank k.val).seq = SeqState.read ∨ (s.fbank k.val).seq = SeqState.busy) ∧ BitVec.toNat addr + data.length ≤ 16777216 ∧ data.length ≤ 4096 ∧
     (BitVec.toNat addr % 4194304 ≠ 2730 ∨ data ≠ [BitVec.ofNat (8) (180)]) ∧ 16744448 ≤ BitVec.toNat addr) ∧
    (∃ (s : State) (ini : Initiator) (k : Fin 4) (addr : Word) (size : ℕ), s.hubUp = true ∧ s.domRuns (13) = true ∧
     BitVec.toNat addr / 4194304 = k.val ∧ 0 < size ∧ size ≤ 4096 ∧ BitVec.toNat addr % 4194304 + size ≤ 4194304 ∧
     (isKeel ini = true ∨ 65536 ≤ BitVec.toNat addr) ∧ (s.fbank k.val).op = 0 ∧ s.get (R.FLC_BANK_status_mode k.val) = 0 ∧ (∀ i < size,
     s.flashUndef (BitVec.toNat addr + i) = false)) ∧
    (∃ (s : State) (ini : Initiator) (k : Fin 4) (addr : Word) (size : ℕ), s.hubUp = true ∧ s.domRuns (13) = true ∧
     BitVec.toNat addr / 4194304 = k.val ∧ 0 < size ∧ size ≤ 4096 ∧ BitVec.toNat addr % 4194304 + size ≤ 4194304 ∧
     (isKeel ini = true ∨ 65536 ≤ BitVec.toNat addr) ∧ ((s.fbank k.val).op ≠ 0 ∨ s.get (R.FLC_BANK_status_mode k.val) ≠ 0)) ∧
    (∃ (s : State) (k : Fin 4), s.hubUp = true ∧ s.domRuns (13) = true ∧ (s.fbank k.val).op ≠ 0) := by
  refine ⟨⟨(fz 1 fun x => { x with seq := .loading, target := 5 } : State), .bootRom, 1, (0x4500F8 : Word), ([1, 2, 3, 4] : List Byte), ?_⟩,
    ⟨(fz 1 fun x => { x with seq := .loading, target := 5 } : State), .bootRom, 1, (0x4500FC : Word), ([1, 2, 3, 4] : List Byte), ?_⟩,
    ⟨((fz 1 fun x => { x with seq := .loading, target := 5 }).setBytes 0x4500F8 [1] : State), .bootRom, 1, (0x4500FC : Word), ([1, 2, 3, 4] : List Byte), ?_⟩,
    ⟨up, .bootRom, 1, (0x4500F8 : Word), ([1, 2, 3, 4] : List Byte), ?_⟩, ⟨up, .bootRom, 3, (0xFF8000 : Word), ([1, 2, 3, 4] : List Byte), ?_⟩,
    ⟨(up.setBytes 0x4500F8 [1]), .bootRom, 1, (0x4500F8 : Word), (8 : ℕ), ?_⟩,
    ⟨(fb 1 fun x => { x with seq := .busy, op := 1, unit := 0x4500 } : State), .bootRom, 1, (0x4500F8 : Word), (8 : ℕ), ?_⟩,
    ⟨(fb 1 fun x => { x with seq := .busy, op := 1, unit := 0x4500, buffer := [(8, 5), (9, 255), (17, 255)] } : State), 1, ?_⟩⟩ <;>
    (try simp only [opens_iff, noWait_iff, direct_iff, State.issues, State.mayFault, State.pairs, State.plainSram, State.alone, State.linkClear,
      State.lanesFree, State.unfenced]) <;> decide +kernel

theorem test_hypotheses_HoldupAndSpares :
    (∃ (s : State) (ini : Initiator) (n : Fin 16) (data : Word), s.opens ini true (34407168 + 4 * n.val) (BitVec.toNat data) ∧
     s.get R.HUB_BOOT_STATUS_stage = 2) ∧
    (∃ (s : State) (ini : Initiator) (n : Fin 16) (data : Word), s.opens ini true (34407168 + 4 * n.val) (BitVec.toNat data) ∧
     s.get R.HUB_BOOT_STATUS_stage ≠ 2 ∧ BitVec.getLsbD data (31) = true ∧ BitVec.getLsbD data (30) = true ∧ s.get (R.FLC_SPARE_state n.val) = 0 ∧
     (s.fbank (n.val / 4)).op = 0 ∧ s.get R.FLC_HOLDUP_CTRL_check = 0) := by
  refine ⟨⟨(up.set R.HUB_BOOT_STATUS_stage 2), .bootRom, 3, (0xC0050010 : Word), ?_⟩,
    ⟨((up.set R.AON_HOLDUP_THR_code 9).set R.FLC_HOLDUP_CTRL_check 0 : State), .bootRom, 3, (0xC0050010 : Word), ?_⟩⟩ <;>
    (try simp only [opens_iff, noWait_iff, direct_iff, State.issues, State.mayFault, State.pairs, State.plainSram, State.alone, State.linkClear,
      State.lanesFree, State.unfenced]) <;> decide +kernel

theorem test_hypotheses_Updates :
    (∃ (s : State) (d : CmdDesc) (i : ℕ) (m : List Byte), s.hubUp = true ∧ s.upd.cmd = some d ∧ s.lnk.cmds = [(d.tag, i)] ∧ s.flc.undef = [] ∧
     d.opcode = 64 ∧ m.length = 256 ∧ s.targetOwn (argByte d (0)) = false ∧ argByte d (0) < 4 ∧ s.peerTrained (argByte d (0)) = true) ∧
    (∃ (s : State) (d : CmdDesc) (i : ℕ) (m : List Byte), s.hubUp = true ∧ s.upd.cmd = some d ∧ s.lnk.cmds = [(d.tag, i)] ∧ s.flc.undef = [] ∧
     d.opcode = 64 ∧ m.length = 256 ∧ s.targetOwn (argByte d (0)) = false ∧ s.peerTrained (argByte d (0)) = false) ∧
    (∃ (s : State) (d : CmdDesc) (i : ℕ) (m : List Byte) (e : ℕ × ℕ), s.hubUp = true ∧ s.upd.cmd = some d ∧ s.lnk.cmds = [(d.tag, i)] ∧
     s.flc.undef = [] ∧ d.opcode = 64 ∧ m.length = 256 ∧ s.targetOwn (argByte d (0)) = true ∧ s.get R.HUB_BOOT_STATUS_stage ≠ 0 ∧
     s.loaderFree (0) = true ∧ field m (4) (1) ≠ 1 ∧ s.beginFault m = some e) ∧
    (∃ (s : State) (d : CmdDesc) (i : ℕ) (m : List Byte), s.hubUp = true ∧ s.upd.cmd = some d ∧ s.lnk.cmds = [(d.tag, i)] ∧ s.flc.undef = [] ∧
     d.opcode = 64 ∧ m.length = 256 ∧ s.targetOwn (argByte d (0)) = true ∧ s.get R.HUB_BOOT_STATUS_stage ≠ 0 ∧ s.loaderFree (0) = true ∧
     field m (4) (1) ≠ 1 ∧ s.beginFault m = none ∧ s.session = none ∧ s.get R.FLC_HOLDUP_CTRL_check = 0) ∧
    (∃ (s : State) (d : CmdDesc) (i : ℕ) (data : List Byte) (x : Session), s.hubUp = true ∧ s.upd.cmd = some d ∧ s.lnk.cmds = [(d.tag, i)] ∧
     s.flc.undef = [] ∧ d.opcode = 65 ∧ s.upd.retry = none ∧ data.length = d.len ∧ s.targetOwn (argByte d (8)) = true ∧
     s.get R.HUB_BOOT_STATUS_stage ≠ 0 ∧ s.session = some x ∧ x.committed = false ∧ (x.kind = 2 ∨ x.kind = 3 ∨ x.kind = 4) ∧
     s.blockFree (ofBytes (List.take (4) d.args)) = true ∧
     (ofBytes (List.take (4) d.args) % 4096 ≠ 0 ∨ x.size < ofBytes (List.take (4) d.args) + d.len)) ∧
    (∃ (s : State) (d : CmdDesc) (i : ℕ) (data : List Byte) (x : Session), s.hubUp = true ∧ s.upd.cmd = some d ∧ s.lnk.cmds = [(d.tag, i)] ∧
     s.flc.undef = [] ∧ d.opcode = 65 ∧ s.upd.retry = none ∧ data.length = d.len ∧ s.targetOwn (argByte d (8)) = true ∧
     s.get R.HUB_BOOT_STATUS_stage ≠ 0 ∧ s.session = some x ∧ x.committed = false ∧ (x.kind = 2 ∨ x.kind = 3 ∨ x.kind = 4) ∧
     s.blockFree (ofBytes (List.take (4) d.args)) = true ∧ ofBytes (List.take (4) d.args) % 4096 = 0 ∧
     (d.len = 4096 ∨ ofBytes (List.take (4) d.args) + d.len = x.size) ∧ ofBytes (List.take (4) d.args) + d.len ≤ x.size ∧ d.len ≠ 0 ∧
     crc32c data ≠ ofBytes (List.take (4) (List.drop (4) d.args))) ∧
    (∃ (s : State) (d : CmdDesc) (i : ℕ) (data : List Byte) (x : Session), s.hubUp = true ∧ s.upd.cmd = some d ∧ s.lnk.cmds = [(d.tag, i)] ∧
     s.flc.undef = [] ∧ d.opcode = 65 ∧ s.upd.retry = none ∧ data.length = d.len ∧ s.targetOwn (argByte d (8)) = true ∧
     s.get R.HUB_BOOT_STATUS_stage ≠ 0 ∧ s.session = some x ∧ x.committed = false ∧ (x.kind = 2 ∨ x.kind = 3 ∨ x.kind = 4) ∧
     s.blockFree (ofBytes (List.take (4) d.args)) = true ∧ ofBytes (List.take (4) d.args) % 4096 = 0 ∧
     (d.len = 4096 ∨ ofBytes (List.take (4) d.args) + d.len = x.size) ∧ ofBytes (List.take (4) d.args) + d.len ≤ x.size ∧ d.len ≠ 0 ∧
     crc32c data = ofBytes (List.take (4) (List.drop (4) d.args)) ∧ s.recorded (ofBytes (List.take (4) d.args) / 65536) = true) ∧
    (∃ (s : State) (d : CmdDesc) (i : ℕ) (data : List Byte) (x : Session), s.hubUp = true ∧ s.upd.cmd = some d ∧ s.lnk.cmds = [(d.tag, i)] ∧
     s.flc.undef = [] ∧ d.opcode = 65 ∧ s.upd.retry = none ∧ data.length = d.len ∧ s.targetOwn (argByte d (8)) = true ∧
     s.get R.HUB_BOOT_STATUS_stage ≠ 0 ∧ s.session = some x ∧ x.committed = false ∧ (x.kind = 2 ∨ x.kind = 3 ∨ x.kind = 4) ∧
     s.blockFree (ofBytes (List.take (4) d.args)) = true ∧ ofBytes (List.take (4) d.args) % 4096 = 0 ∧
     (d.len = 4096 ∨ ofBytes (List.take (4) d.args) + d.len = x.size) ∧ ofBytes (List.take (4) d.args) + d.len ≤ x.size ∧ d.len ≠ 0 ∧
     crc32c data = ofBytes (List.take (4) (List.drop (4) d.args)) ∧ s.recorded (ofBytes (List.take (4) d.args) / 65536) = false ∧ s.upd.chunks = [] ∧
     (∃ o ∈ chunkOffsets (ofBytes (List.take (4) d.args) / 65536) x.size, o ≠ ofBytes (List.take (4) d.args))) ∧
    (∃ (s : State) (d : CmdDesc) (i : ℕ) (data : List Byte) (fails : ℕ) (x : Session), s.hubUp = true ∧ s.upd.cmd = some d ∧
     s.lnk.cmds = [(d.tag, i)] ∧ s.flc.undef = [] ∧ d.opcode = 65 ∧ s.upd.retry = none ∧ data.length = d.len ∧ s.targetOwn (argByte d (8)) = true ∧
     s.get R.HUB_BOOT_STATUS_stage ≠ 0 ∧ s.session = some x ∧ x.committed = false ∧ (x.kind = 2 ∨ x.kind = 3 ∨ x.kind = 4) ∧
     s.blockFree (ofBytes (List.take (4) d.args)) = true ∧ ofBytes (List.take (4) d.args) % 4096 = 0 ∧
     (d.len = 4096 ∨ ofBytes (List.take (4) d.args) + d.len = x.size) ∧ ofBytes (List.take (4) d.args) + d.len ≤ x.size ∧ d.len ≠ 0 ∧
     crc32c data = ofBytes (List.take (4) (List.drop (4) d.args)) ∧ s.recorded (ofBytes (List.take (4) d.args) / 65536) = false ∧ s.upd.chunks = [] ∧
     ofBytes (List.take (4) d.args) = 0 ∧ d.len = x.size ∧ x.size ≤ 4096 ∧ s.get R.FLC_HOLDUP_CTRL_check = 0 ∧ fails < 2) ∧
    (∃ (s : State) (d : CmdDesc) (i : ℕ) (x : Session) (j : ℕ) (n : ℕ), s.hubUp = true ∧ s.upd.cmd = some d ∧ s.lnk.cmds = [(d.tag, i)] ∧
     s.flc.undef = [] ∧ s.upd.retry = some (j, n) ∧ s.session = some x ∧ s.blockFree (65536 * j) = true ∧ s.get R.FLC_HOLDUP_CTRL_check ≠ 0 ∧
     s.pins.holdupCode = 0 ∧ n < 100) ∧
    (∃ (s : State) (d : CmdDesc) (i : ℕ) (x : Session) (j : ℕ) (n : ℕ), s.hubUp = true ∧ s.upd.cmd = some d ∧ s.lnk.cmds = [(d.tag, i)] ∧
     s.flc.undef = [] ∧ s.upd.retry = some (j, n) ∧ s.session = some x ∧ s.blockFree (65536 * j) = true ∧ s.get R.FLC_HOLDUP_CTRL_check ≠ 0 ∧
     s.pins.holdupCode = 0 ∧ 100 ≤ n) ∧
    (∃ (s : State) (d : CmdDesc) (i : ℕ) (fails : ℕ) (x : Session) (j : ℕ) (n : ℕ), s.hubUp = true ∧ s.upd.cmd = some d ∧ s.lnk.cmds = [(d.tag, i)] ∧
     s.flc.undef = [] ∧ s.upd.retry = some (j, n) ∧ s.session = some x ∧ s.blockFree (65536 * j) = true ∧ s.get R.FLC_HOLDUP_CTRL_check = 0 ∧
     fails < 2 ∧ (x.kind = 2 ∨ x.kind = 3 ∨ x.kind = 4)) ∧
    (∃ (s : State) (d : CmdDesc) (i : ℕ) (x : Session), s.hubUp = true ∧ s.upd.cmd = some d ∧ s.lnk.cmds = [(d.tag, i)] ∧ s.flc.undef = [] ∧
     d.opcode = 66 ∧ s.targetOwn (argByte d (0)) = true ∧ s.get R.HUB_BOOT_STATUS_stage ≠ 0 ∧ s.loaderFree (0) = true ∧ s.session = some x ∧
     x.kind ≠ 1 ∧ x.committed = false ∧ s.missing x.size ≠ 0) ∧
    (∃ (s : State) (d : CmdDesc) (i : ℕ) (x : Session), s.hubUp = true ∧ s.upd.cmd = some d ∧ s.lnk.cmds = [(d.tag, i)] ∧ s.flc.undef = [] ∧
     d.opcode = 66 ∧ s.targetOwn (argByte d (0)) = true ∧ s.get R.HUB_BOOT_STATUS_stage ≠ 0 ∧ s.loaderFree (0) = true ∧ s.session = some x ∧
     x.kind ≠ 1 ∧ x.committed = false ∧ s.missing x.size = 0 ∧ s.flashImageOk x.kind [] = false) ∧
    (∃ (s : State) (d : CmdDesc) (i : ℕ) (x : Session), s.hubUp = true ∧ s.upd.cmd = some d ∧ s.lnk.cmds = [(d.tag, i)] ∧ s.flc.undef = [] ∧
     d.opcode = 66 ∧ s.targetOwn (argByte d (0)) = true ∧ s.get R.HUB_BOOT_STATUS_stage ≠ 0 ∧ s.loaderFree (0) = true ∧ s.session = some x ∧
     x.kind ≠ 1 ∧ x.committed = false ∧ s.missing x.size = 0 ∧ s.flashImageOk x.kind [] = true ∧
     s.conflictKind (s.flashManifest x.kind) x.kind = none ∧ s.get R.FLC_HOLDUP_CTRL_check = 0) ∧
    (∃ (s : State) (d : CmdDesc) (i : ℕ), s.hubUp = true ∧ s.upd.cmd = some d ∧ s.lnk.cmds = [(d.tag, i)] ∧ s.flc.undef = [] ∧ d.opcode = 66 ∧
     s.targetOwn (argByte d (0)) = false ∧ argByte d (0) < 4 ∧ s.peerTrained (argByte d (0)) = true) ∧
    (∃ (s : State) (d : CmdDesc) (i : ℕ), s.hubUp = true ∧ s.upd.cmd = some d ∧ s.lnk.cmds = [(d.tag, i)] ∧ s.flc.undef = [] ∧ d.opcode = 67 ∧
     s.targetOwn (argByte d (0)) = true ∧ s.get R.HUB_BOOT_STATUS_stage ≠ 0 ∧ s.domRuns (13) = true ∧ s.linkClear (4) ∧
     (s.link (4)).canSend (OutPacket.write d.buf s.statusRecord) = true) := by
  refine ⟨⟨((((lks (upd { cd with opcode := 0x40, args := [1] } id) 1 fun x => { x with state := .active }).set R.PNT_CTRL_en 1).set R.PNT_CTRL_peers 2).set R.PNT_STATUS_peer 0x10 : State), ({ cd with opcode := 0x40, args := [1] } : CmdDesc), (3 : ℕ), (List.replicate 256 0 : List Byte), ?_⟩,
    ⟨(upd { cd with opcode := 0x40, args := [1] } id : State), ({ cd with opcode := 0x40, args := [1] } : CmdDesc), (3 : ℕ), (List.replicate 256 0 : List Byte), ?_⟩,
    ⟨(upd { cd with opcode := 0x40, args := [255] } id : State), ({ cd with opcode := 0x40, args := [255] } : CmdDesc), (3 : ℕ), (List.replicate 256 0 : List Byte), ((1, 1) : ℕ × ℕ), ?_⟩,
    ⟨(fused (upd { cd with opcode := 0x40, args := [255] } id) : State), ({ cd with opcode := 0x40, args := [255] } : CmdDesc), (3 : ℕ), (manifest : List Byte), by
      and_intros
      iterate 10 decide +kernel
      · unfold State.beginFault
        rw [manifest_good _ _ (by decide) (by decide +kernel) (by decide +kernel) (by decide +kernel)]
        decide +kernel
      all_goals decide +kernel⟩,
    ⟨(upd { cd with len := 10, args := blockArgs 5 0 255 } (sess 3000) : State), ({ cd with len := 10, args := blockArgs 5 0 255 } : CmdDesc), (3 : ℕ), (ch 10 : List Byte), (xs 3000 : Session), ?_⟩,
    ⟨(upd { cd with len := 10, args := blockArgs 0 0 255 } (sess 10) : State), ({ cd with len := 10, args := blockArgs 0 0 255 } : CmdDesc), (3 : ℕ), (ch 10 : List Byte), (xs 10 : Session), ?_⟩,
    ⟨(upd { cd with len := 10, args := blockArgs 0 (crc32c (ch 10)) 255 } (rec 0 ∘ sess 10) : State), ({ cd with len := 10, args := blockArgs 0 (crc32c (ch 10)) 255 } : CmdDesc), (3 : ℕ), (ch 10 : List Byte), (xs 10 : Session), ?_⟩,
    ⟨(upd { cd with len := 10, args := blockArgs 4096 (crc32c (ch 10)) 255 } (sess 4106) : State), ({ cd with len := 10, args := blockArgs 4096 (crc32c (ch 10)) 255 } : CmdDesc), (3 : ℕ), (ch 10 : List Byte), (xs 4106 : Session), ?_⟩,
    ⟨(upd { cd with len := 10, args := blockArgs 0 (crc32c (ch 10)) 255 } (sess 10) : State), ({ cd with len := 10, args := blockArgs 0 (crc32c (ch 10)) 255 } : CmdDesc), (3 : ℕ), (ch 10 : List Byte), (1 : ℕ), (xs 10 : Session), ?_⟩,
    ⟨(upd cd fun s => let s := sess 10 s; ({ s with upd := { s.upd with retry := some (0, 5), chunks := [(0, ch 10)] } }).set R.FLC_HOLDUP_CTRL_check 1 : State), (cd : CmdDesc), (3 : ℕ), (xs 10 : Session), (0 : ℕ), (5 : ℕ), ?_⟩,
    ⟨(upd cd fun s => let s := sess 10 s; ({ s with upd := { s.upd with retry := some (0, 100), chunks := [(0, ch 10)] } }).set R.FLC_HOLDUP_CTRL_check 1 : State), (cd : CmdDesc), (3 : ℕ), (xs 10 : Session), (0 : ℕ), (100 : ℕ), ?_⟩,
    ⟨(upd cd fun s => let s := sess 10 s; ({ s with upd := { s.upd with retry := some (0, 5), chunks := [(0, ch 10)] } }) : State), (cd : CmdDesc), (3 : ℕ), default, (xs 10 : Session), (0 : ℕ), (5 : ℕ), ?_⟩,
    ⟨(upd { cd with opcode := 0x42, args := [255] } (sess 10) : State), ({ cd with opcode := 0x42, args := [255] } : CmdDesc), (3 : ℕ), (xs 10 : Session), ?_⟩,
    ⟨(upd { cd with opcode := 0x42, args := [255] } (rec 0 ∘ sess 10) : State), ({ cd with opcode := 0x42, args := [255] } : CmdDesc), (3 : ℕ), (xs 10 : Session), ?_⟩,
    ⟨written, ({ cd with opcode := 0x42, args := [255] } : CmdDesc), (3 : ℕ), (xs 256 : Session), by
      and_intros
      iterate 12 decide +kernel
      · exact written_ok
      all_goals decide +kernel⟩,
    ⟨((((lks (upd { cd with opcode := 0x42, args := [1] } id) 1 fun x => { x with state := .active }).set R.PNT_CTRL_en 1).set R.PNT_CTRL_peers 2).set R.PNT_STATUS_peer 0x10 : State), ({ cd with opcode := 0x42, args := [1] } : CmdDesc), (3 : ℕ), ?_⟩,
    ⟨(upd { cd with opcode := 0x43, args := [255] } (rec 0 ∘ sess 10) : State), ({ cd with opcode := 0x43, args := [255] } : CmdDesc), (3 : ℕ), ?_⟩⟩ <;>
    (try simp only [opens_iff, noWait_iff, direct_iff, State.issues, State.mayFault, State.pairs, State.plainSram, State.alone, State.linkClear,
      State.lanesFree, State.unfenced]) <;> decide +kernel

theorem test_hypotheses_UnitsAndScrubbers :
    (∃ (s : State) (ini : Initiator) (u : Fin 166) (data : Word), s.opens ini true (34472960 + 4 * u.val) (BitVec.toNat data)) ∧
    (∃ (s : State) (u : Fin 166), 116 ≤ u.val ∧ u.val < 124 ∧ (s.pipe (u.val - 116)).inReset = true) ∧
    (∃ (s : State) (u : Fin 166), 124 ≤ u.val ∧ u.val < 140 ∧ s.phy.decReset.testBit (u.val - 124) = true) ∧
    (∃ (s : State) (u : Fin 166), 140 ≤ u.val ∧ u.val < 156 ∧ s.phy.encReset.testBit (u.val - 140) = true) ∧
    (∃ (s : State) (m : Fin 5), s.bit R.ERR_SCRUB_CTRL_en m.val = true ∧ s.scrubbable m.val = true ∧
     (s.poisoned (scrubAddr m.val (if m.val = 2 ∨ m.val = 3 then s.scrubSkip m.val (8) (vget s.err.scrubPos m.val) else vget s.err.scrubPos m.val)) = false)) ∧
    (∃ (s : State) (m : Fin 5), s.bit R.ERR_SCRUB_CTRL_en m.val = true ∧ s.scrubbable m.val = true ∧ m.val = 0 ∧
     ((if m.val = 2 ∨ m.val = 3 then s.scrubSkip m.val (8) (vget s.err.scrubPos m.val) else vget s.err.scrubPos m.val) < 1572864) ∧
     (s.poisoned (scrubAddr (0) (if m.val = 2 ∨ m.val = 3 then s.scrubSkip m.val (8) (vget s.err.scrubPos m.val) else vget s.err.scrubPos m.val)) = false)) ∧
    (∃ (s : State), s.hubUp = false) ∧
    (∃ (s : State), s.hubUp = true ∧ s.bit R.ERR_SCRUB_CTRL_en (5) = true ∧ s.domRuns (13) = true ∧
     s.flashBusy (scrubList.getD s.flc.scrubBlock (0) / 64) = false) ∧
    (∃ (s : State) (ini : Initiator) (data : Word), s.opens ini true (50332032) (BitVec.toNat data) ∧ BitVec.toNat data / 2 ^ 24 = 165 ∧
     BitVec.getLsbD data (0) = true) ∧
    (∃ (s : State) (ini : Initiator) (data : Word), s.opens ini true (50332032) (BitVec.toNat data) ∧ BitVec.toNat data / 2 ^ 24 ≠ 165) := by
  refine ⟨⟨(((up.set (R.ERR_UNIT_active 0x75) 1).set (R.ERR_UNIT_ovf 0x75) 1) : State), .bootRom, 0x75, (0x80000000 : Word), ?_⟩,
    ⟨({ (up.set (R.ERR_UNIT_active 0x75) 1) with pipes := up.pipes.set 1 { up.pipes[1] with inReset := true } } : State), 0x75, ?_⟩,
    ⟨({ (up.set (R.ERR_UNIT_active 0x80) 1) with phy := { up.phy with decReset := 16 } } : State), 0x80, ?_⟩,
    ⟨({ (up.set (R.ERR_UNIT_active 0x90) 1) with phy := { up.phy with encReset := 16 } } : State), 0x90, ?_⟩,
    ⟨(up.set R.ERR_SCRUB_CTRL_en 63), 0, ?_⟩, ⟨(up.set R.ERR_SCRUB_CTRL_en 63), 0, ?_⟩, ⟨State.reset, ?_⟩,
    ⟨({ up.set R.ERR_SCRUB_CTRL_en 63 with flc := { up.flc with scrubBlock := 41 } } : State), ?_⟩,
    ⟨(up.setBytes 0x03010110 [1, 2, 3]), .bootRom, (0xA5000001 : Word), ?_⟩, ⟨eng0, .bootRom, (0x80000000 : Word), ?_⟩⟩ <;>
    (try simp only [opens_iff, noWait_iff, direct_iff, State.issues, State.mayFault, State.pairs, State.plainSram, State.alone, State.linkClear,
      State.lanesFree, State.unfenced]) <;> decide +kernel

theorem test_hypotheses_CountersAndMarkers :
    (∃ (s : State) (i : Fin 32), s.hubUp = true ∧ s.get R.PMC_CTRL_freeze = 0 ∧ s.get (R.PMC_CFG_en i.val) ≠ 0 ∧ s.pmcChained i.val = false ∧
     s.pmcChained (i.val + 1) = false ∧ s.get (R.PMC_CFG_sat i.val) = 0 ∧ s.get (R.PMC_CNT_count i.val) < 2 ^ 32) ∧
    (∃ (s : State) (ini : Initiator) (data : Word), s.opens ini true (34537472) (putBitOf (BitVec.toNat data) (16) true)) ∧
    (∃ (s : State) (g : Fin 96), s.hubUp = true ∧ s.get R.PMC_MARK_CTRL_en ≠ 0 ∧ s.bit (R.PMC_MARK_SEL_engines (g.val / 32)) (g.val % 32) = true ∧
     s.engPowered g.val = true ∧ (s.get R.PMC_MARK_PTR_wr + 1) % 64 ≠ s.get R.PMC_MARK_PTR_rd) ∧
    (∃ (s : State) (g : Fin 96), s.hubUp = true ∧ s.get R.PMC_MARK_CTRL_en ≠ 0 ∧ s.bit (R.PMC_MARK_SEL_engines (g.val / 32)) (g.val % 32) = true ∧
     s.engPowered g.val = true ∧ (s.get R.PMC_MARK_PTR_wr + 1) % 64 = s.get R.PMC_MARK_PTR_rd) := by
  refine ⟨⟨(((up.set (R.PMC_CFG_en 3) 1).set (R.PMC_CNT_count 3) 0xFFFFFFFF).set R.PMC_CTRL_freeze_on_ovf 1 : State), 3, ?_⟩,
    ⟨(up.set (R.PMC_CNT_count 3) 0xFFFFFFFF : State), .bootRom, (0x80000500 : Word), ?_⟩,
    ⟨((((up.set R.PMC_MARK_CTRL_en 1).set (R.PMC_MARK_SEL_engines 0) 4).set R.PMC_MARK_PTR_wr 63).set R.PMC_MARK_PTR_rd 5 : State), 2, ?_⟩,
    ⟨((((up.set R.PMC_MARK_CTRL_en 1).set (R.PMC_MARK_SEL_engines 0) 4).set R.PMC_MARK_PTR_wr 63) : State), 2, ?_⟩⟩ <;>
    (try simp only [opens_iff, noWait_iff, direct_iff, State.issues, State.mayFault, State.pairs, State.plainSram, State.alone, State.linkClear,
      State.lanesFree, State.unfenced]) <;> decide +kernel

theorem test_hypotheses_TemperatureAndManagement :
    (∃ (s : State) (k : Fin 10) (temp : ℤ), s.sensorUp k.val = true ∧ -2048 ≤ temp ∧ temp ≤ 2047 ∧ temp ≤ s.getS (R.TEMP_thresh k.val) ∧ temp < 1250) ∧
    (∃ (s : State) (k : Fin 10) (temp : ℤ), s.sensorUp k.val = true ∧ -2048 ≤ temp ∧ temp ≤ 2047 ∧ s.getS (R.TEMP_thresh k.val) < temp ∧
     s.get (R.TEMP_valid k.val) = 0 ∧ temp < 1250) ∧
    (∃ (s : State) (k : Fin 10) (temp : ℤ), s.sensorUp k.val = true ∧ -2048 ≤ temp ∧ temp ≤ 2047 ∧ 1250 ≤ temp ∧ s.get R.PWR_THERM_shut = 0) ∧
    (∃ (s : State), s.get R.PWR_THERM_shut ≠ 0 ∧ (∀ j < 10, s.sensorUp j = true → s.sys.hot.testBit j = false)) ∧
    (∃ (s : State), s.pins.thermNLow = false ∧ s.hubUp = true) ∧
    (∃ (s : State) (ini : Initiator) (data : Word), s.opens ini true (33623044) (putBitOf (putBitOf (BitVec.toNat data) (31) true) (24) false) ∧
     s.get R.MGMT_STATUS_busy ≠ 0) ∧
    (∃ (s : State) (ini : Initiator) (data : Word), s.opens ini true (33623044) (putBitOf (putBitOf (BitVec.toNat data) (31) true) (24) false) ∧
     s.get R.MGMT_STATUS_busy = 0 ∧ s.get R.MGMT_CTRL_en ≠ 0) ∧
    (∃ (s : State) (ini : Initiator) (data : Word), s.opens ini true (33623044) (putBitOf (putBitOf (BitVec.toNat data) (31) true) (24) true) ∧
     s.get R.MGMT_STATUS_busy ≠ 0) ∧
    (∃ (s : State) (ini : Initiator) (data : Word), s.opens ini true (33623044) (putBitOf (putBitOf (BitVec.toNat data) (31) true) (24) true) ∧
     s.get R.MGMT_STATUS_busy = 0 ∧ s.get R.MGMT_CTRL_en ≠ 0) ∧
    (∃ (s : State), s.get R.MGMT_STATUS_busy ≠ 0) := by
  refine ⟨⟨(up.set (R.TEMP_thresh 4) 1000 : State), 4, (300 : ℤ), ?_⟩, ⟨(up.set (R.TEMP_thresh 4) 1000 : State), 4, (1100 : ℤ), ?_⟩,
    ⟨eng0, 4, (1300 : ℤ), ?_⟩, ⟨(up.set R.PWR_THERM_shut 1), ?_⟩, ⟨eng0, ?_⟩, ⟨(up.set R.MGMT_STATUS_busy 1), .bootRom, (0x00051234 : Word), ?_⟩,
    ⟨(up.set R.MGMT_CTRL_en 1), .bootRom, (0x00051234 : Word), ?_⟩, ⟨(up.set R.MGMT_STATUS_busy 1), .bootRom, (0x00051234 : Word), ?_⟩,
    ⟨(up.set R.MGMT_CTRL_en 1), .bootRom, (0x00051234 : Word), ?_⟩, ⟨((up.set R.MGMT_STATUS_busy 1).set R.MGMT_CMD_read 1 : State), ?_⟩⟩ <;>
    (try simp only [opens_iff, noWait_iff, direct_iff, State.issues, State.mayFault, State.pairs, State.plainSram, State.alone, State.linkClear,
      State.lanesFree, State.unfenced]) <;> decide +kernel

end Tests

end Sys2Proof
end

section
/-! Writes of plain registers and of the hub's mode and commit registers: one rule for an access to a hub register block, one equation for each
register that a claim names, and the claim. -/

namespace Sys2Proof.Machine

open Sys2Proof

/-! ### Bits of numbers -/

theorem and_mod_two (x n : Nat) : (x &&& n) % 2 = x % 2 * (n % 2) := by
  rw [show (x &&& n) % 2 = (x % 2) &&& (n % 2) from Nat.and_mod_two_pow (n := 1)]
  rcases Nat.mod_two_eq_zero_or_one x with hx | hx <;> rcases Nat.mod_two_eq_zero_or_one n with hn | hn <;> rw [hx, hn] <;> rfl

/-- Taking the bits of n out of x (Table 0.1, W1C). -/
theorem testBit_sub_and (x n k : Nat) : (x - (x &&& n)).testBit k = (x.testBit k && !n.testBit k) := by
  have low := and_mod_two x n
  have le : x &&& n ≤ x := Nat.and_le_left
  induction k generalizing x n with
  | zero =>
    generalize x &&& n = w at *
    simp only [Nat.testBit_zero]
    rcases Nat.mod_two_eq_zero_or_one x with hx | hx <;> rcases Nat.mod_two_eq_zero_or_one n with hn | hn <;>
      simp [hx, hn] at low ⊢ <;> omega
  | succ k ih =>
    have half : (x &&& n) / 2 = x / 2 &&& n / 2 := Nat.and_div_two
    have carry : (x &&& n) % 2 ≤ x % 2 := by
      rw [low]; exact mul_le_of_le_one_right (Nat.zero_le _) (by omega)
    have split : (x - (x &&& n)) / 2 = x / 2 - (x / 2 &&& n / 2) := by
      rw [← half]; generalize x &&& n = w at *; omega
    rw [Nat.testBit_succ, split, ih _ _ (and_mod_two _ _) Nat.and_le_left, ← Nat.testBit_succ, ← Nat.testBit_succ]

theorem forBits_succ {α : Type} (n m : Nat) (f : Nat → α → α) (a : α) :
    forBits (n + 1) m f a = if m.testBit n then f n (forBits n m f a) else forBits n m f a := by
  unfold forBits; rw [List.range_succ, List.foldl_append]; rfl

/-! ### One access to a register block of the hub -/

theorem regionOf_hub {a : Nat} (lo : 0x02000000 ≤ a) (hi : a < 0x02100000) : (regionOf a).1 = .reg := by
  unfold regionOf
  rw [if_neg (by omega), if_neg (by omega), if_neg (by omega), if_pos (by omega)]

theorem engPlace_hub {a : Nat} (lo : 0x02000000 ≤ a) (hi : a < 0x02100000) : engPlace a = none := by
  unfold engPlace
  rw [if_neg (by simp; omega), if_neg (by simp; omega)]

/-- a is the address of a register of the hub's blocks, HUB_RESET_CMD left out. -/
def hubReg (a : Nat) : Prop := 0x02000000 ≤ a ∧ a < 0x02100000 ∧ a % 4 = 0 ∧ a ≠ 0x02000010

/-- Whoever writes an open register of the hub's blocks, the block does its work and the outcome goes to the source of the access. -/
theorem State.device_hubReg {s : State} {src : AccSrc} {ini : Initiator} {a : Nat} {data : Word} (ha : hubReg a) (h : s.opens ini true a data.toNat) :
    s.device src ini true a (toBytes 4 data.toNat) 4 [] =
      (s.regWrite (!isKeel ini) src.isPosted a data.toNat).1.finish src (s.regWrite (!isKeel ini) src.isPosted a data.toNat).2 a [] := by
  obtain ⟨lo, hi, h4, hn⟩ := ha
  obtain ⟨-, keel, dom, go, back⟩ := h
  have hr : (regionOf a).1 = .reg := regionOf_hub lo hi
  have word : ofBytes (toBytes 4 data.toNat) = data.toNat := by
    rw [ofBytes_toBytes]; exact Nat.mod_eq_of_lt data.isLt
  have nk : (!isKeel ini && keelOwned true a 4 (ofBytes (toBytes 4 data.toNat))) = false := by
    rw [word]; rcases keel with k | k <;> rw [k] <;> simp
  have put : s.regPut (!isKeel ini) src.isPosted a data.toNat =
      ((s.regWrite (!isKeel ini) src.isPosted a data.toNat).1, (s.regWrite (!isKeel ini) src.isPosted a data.toNat).2, false) := by
    unfold State.regPut; rw [if_neg hn, engPlace_hub lo hi]
  have work : s.perform .reg ini (!isKeel ini) true src.isPosted a (toBytes 4 data.toNat) 4 [] =
      ((s.regWrite (!isKeel ini) src.isPosted a data.toNat).1, (s.regWrite (!isKeel ini) src.isPosted a data.toNat).2, []) := by
    unfold State.perform
    rw [if_neg (by decide), if_pos rfl, if_pos rfl, word, put]
    rfl
  have own := State.accessOwn_reg (s := s) (src := src) (ini := ini) (ecc := []) hr h4 nk dom
  rw [work] at own
  unfold State.device State.access
  simp only [go, hr, own, back, Bool.false_eq_true, if_false, Bool.false_and]

/-- A non-posted write of an open register of the hub's blocks answers the block's status. -/
theorem State.regWriteBy_hubReg {s : State} {ini : Initiator} {a : Nat} {data : Word} (ha : hubReg a) (h : s.opens ini true a data.toNat) :
    s.regWriteBy ini a data.toNat =
      (s.regWrite (!isKeel ini) false a data.toNat).1.reply (s.regWrite (!isKeel ini) false a data.toNat).2 [] := by
  unfold State.regWriteBy State.reachable
  rw [if_pos h.1, State.device_hubReg ha h]
  rfl

/-! ### Plain writes (Table 0.1) -/

/-- a is the address of a register without behaviour of its own. -/
def plainReg (a : Nat) : Prop := ∀ (s : State) (deck posted : Bool) (v : Nat), s.regWrite deck posted a v = s.plainOk a v

theorem State.fieldWrite_updLink (s : State) (locked : Bool) (v l : Nat) (f : Link → Link) (x : Row × Field) :
    (s.updLink l f).fieldWrite locked v x = (s.fieldWrite locked v x).updLink l f := by
  unfold State.fieldWrite
  cases x.1.acc with
  | rwl => cases locked <;> rfl
  | _ => rfl

/-- What opens a register is not in the links. -/
theorem State.opens_updLink (s : State) (l : Nat) (f : Link → Link) (ini : Initiator) (w : Bool) (a v : Nat) :
    (s.updLink l f).opens ini w a v ↔ s.opens ini w a v := Iff.rfl

/-- A plain write does not look at the links. -/
theorem State.plainWrite_updLink (s : State) (a v l : Nat) (f : Link → Link) :
    (s.updLink l f).plainWrite a v = (s.plainWrite a v).updLink l f :=
  List.foldl_hom (fun u : State => u.updLink l f) (H := fun u x => u.fieldWrite_updLink _ v l f x)

/-- A posted write of a plain register leaves what the write leaves; beside that a link counts it, and what the boot ROM writes is answered. -/
theorem State.postBy_plain {s : State} {ini : Initiator} {a : Nat} {data : Word} (ha : hubReg a) (hp : plainReg a) (h : s.opens ini true a data.toNat) :
    (s.postBy ini a (toBytes 4 data.toNat)).regs = (s.plainWrite a data.toNat).regs ∧
      (s.postBy ini a (toBytes 4 data.toNat)).mem = (s.plainWrite a data.toNat).mem := by
  have plain (u : State) (src : AccSrc) (hu : u.opens ini true a data.toNat) :
      u.device src ini true a (toBytes 4 data.toNat) 4 [] = (u.plainWrite a data.toNat).finish src .ok a [] := by
    rw [State.device_hubReg ha hu, hp]; rfl
  have link (l : Nat) : (s.takePosted l ini a (toBytes 4 data.toNat)).regs = (s.plainWrite a data.toNat).regs ∧
      (s.takePosted l ini a (toBytes 4 data.toNat)).mem = (s.plainWrite a data.toNat).mem := by
    unfold State.takePosted
    dsimp only
    rw [toBytes_length, plain _ _ ((State.opens_updLink ..).2 h), State.plainWrite_updLink]
    exact ⟨rfl, rfl⟩
  unfold State.postBy
  cases ini with
  | host => exact link hostLink
  | peer p => exact link p.val
  | engine g => dsimp only; rw [toBytes_length, plain _ _ h]; exact ⟨rfl, rfl⟩
  | bootRom => dsimp only; rw [toBytes_length, plain _ _ h]; exact ⟨rfl, rfl⟩

theorem State.fieldWrite_mem (s : State) (locked : Bool) (v : Nat) (x : Row × Field) : (s.fieldWrite locked v x).mem = s.mem := by
  unfold State.fieldWrite
  cases x.1.acc with
  | rwl => cases locked <;> rfl
  | _ => rfl

/-- A plain write changes no byte. -/
theorem State.plainWrite_mem (s : State) (a v : Nat) : (s.plainWrite a v).mem = s.mem := by
  unfold State.plainWrite
  extract_lets locked
  clear_value locked
  generalize fieldsAt a = fields
  induction fields generalizing s with
  | nil => rfl
  | cons x rest ih => rw [List.foldl_cons, ih, State.fieldWrite_mem]

/-- What t holds after a plain write of v at a in s: the fields as the access codes say, and every byte as before. -/
def PlainWritten (s : State) (a v : Nat) (t : State) : Prop := (∀ f : Field, t.get f = (s.plainWrite a v).get f) ∧ sameBytes s t

theorem PlainWritten.of_eq {s t : State} {a v : Nat} (hr : t.regs = (s.plainWrite a v).regs) (hm : t.mem = (s.plainWrite a v).mem) :
    PlainWritten s a v t :=
  ⟨fun f => congrArg (fun r : RegFile => r.read f) hr, fun b => congrArg (Memory.read · b) (hm.trans (s.plainWrite_mem a v))⟩

section Write

variable {s : State} {ini : Initiator} {a : Nat} {data : Word} {p : State → Prop}

theorem hubReg.toNat_ofNat (ha : hubReg a) : (BitVec.ofNat 32 a).toNat = a := by
  obtain ⟨-, hi, -, -⟩ := ha
  rw [BitVec.toNat_ofNat]; exact Nat.mod_eq_of_lt (by omega)

/-- REGISTER_WRITE of a plain register, not posted: it is answered OK (R7). -/
theorem answers_plainWrite (ha : hubReg a) (hp : plainReg a) (h : s.opens ini true a data.toNat)
    (hw : ∀ t, PlainWritten s a data.toNat t → p t) : Answers s (.registerWrite ini false (BitVec.ofNat 32 a) 4 data) .ok p := by
  have e : s.writeBy ini false a (toBytes 4 data.toNat) = (s.plainWrite a data.toNat).reply .ok [] := by
    unfold State.writeBy State.reachable
    rw [h.1, toBytes_length, State.device_hubReg ha h, hp]
    rfl
  refine ⟨_, rfl, ?_⟩
  rw [ha.toNat_ofNat, e]
  exact ⟨rfl, hw _ (.of_eq rfl rfl)⟩

/-- REGISTER_WRITE of a plain register, posted: the same effect. -/
theorem leads_postedWrite (ha : hubReg a) (hp : plainReg a) (h : s.opens ini true a data.toNat)
    (hw : ∀ t, PlainWritten s a data.toNat t → p t) : Leads s (.registerWrite ini true (BitVec.ofNat 32 a) 4 data) p := by
  have e : s.writeBy ini true a (toBytes 4 data.toNat) = s.postBy ini a (toBytes 4 data.toNat) := by
    unfold State.writeBy State.reachable
    rw [h.1]
    rfl
  obtain ⟨regs, mem⟩ := State.postBy_plain ha hp h
  refine ⟨_, rfl, ?_⟩
  rw [ha.toNat_ofNat, e]
  exact hw _ (.of_eq regs mem)

end Write

/-! ### The plain registers of the claim -/

theorem State.regWrite_pwr (s : State) (deck posted : Bool) {a v : Nat} (h : a / 0x10000 = 0x201) :
    s.regWrite deck posted a v = s.writePwr deck a v := by
  unfold State.regWrite; rw [h]; rfl

theorem State.regWrite_yrn (s : State) (deck posted : Bool) {a v : Nat} (h : a / 0x10000 = 0x203) :
    s.regWrite deck posted a v = s.writeYrn a v := by
  unfold State.regWrite; rw [h]; rfl

/-- A write of a field leaves the fields of the other rows. -/
theorem State.set_sameFields (s : State) (f : Field) (v : Nat) : sameFields [f.row] s (s.set f v) := fun _ h =>
  State.get_set_row _ _ _ _ (List.ne_of_not_mem_cons h)

theorem hubReg_linger (d : Fin 16) : hubReg (0x0201000C + 16 * d.val) := by unfold hubReg; omega

theorem plainReg_linger (d : Fin 16) : plainReg (0x0201000C + 16 * d.val) := by
  intro s deck posted v
  rw [State.regWrite_pwr _ _ _ (by omega)]
  unfold State.writePwr
  rw [if_pos (by omega)]
  dsimp only
  rw [if_neg (by omega), if_neg (by omega)]

theorem fieldsAt_linger (d : Fin 16) :
    fieldsAt (0x0201000C + 16 * d.val) = [(⟨"PWR_LINGER", "us", .hub, 0x201000C, 16, 16, 0, 10, .rw, 0, .moorTile⟩, R.PWR_LINGER_us d.val)] := by
  revert d; decide +kernel

/-- PWR_LINGER takes the value cut to its ten bits. -/
theorem State.plainWrite_linger (s : State) (d : Fin 16) (v : Nat) :
    s.plainWrite (0x0201000C + 16 * d.val) v = s.set (R.PWR_LINGER_us d.val) (v / 2 ^ 0 % 2 ^ 10) := by
  unfold State.plainWrite; rw [fieldsAt_linger]; rfl

theorem PlainWritten.linger {s t : State} {d : Fin 16} {v : Nat} (h : PlainWritten s (0x0201000C + 16 * d.val) v t) :
    t.get (R.PWR_LINGER_us d.val) = v % 1024 ∧ sameFields [(R.PWR_LINGER_us 0).row] s t ∧ sameBytes s t := by
  obtain ⟨fields, bytes⟩ := h
  rw [State.plainWrite_linger] at fields
  refine ⟨?_, fun f hf => (fields f).trans (State.set_sameFields _ _ _ f hf), bytes⟩
  rw [fields, State.get_set_same]; simp

theorem hubReg_hubId : hubReg 0x02000000 := by unfold hubReg; omega

theorem plainReg_hubId : plainReg 0x02000000 := fun _ _ _ _ => rfl

/-- HUB_ID is read-only. -/
theorem State.plainWrite_hubId (s : State) (v : Nat) : s.plainWrite 0x02000000 v = s := by
  have fields : fieldsAt 0x02000000 = [
      (⟨"HUB_ID", "pontoon_index", .hub, 0x2000000, 0, 1, 24, 2, .ro, 0, .porOnly⟩, R.HUB_ID_pontoon_index),
      (⟨"HUB_ID", "part", .hub, 0x2000000, 0, 1, 8, 16, .ro, 1298, .porOnly⟩, R.HUB_ID_part),
      (⟨"HUB_ID", "silicon_rev", .hub, 0x2000000, 0, 1, 0, 8, .ro, 176, .porOnly⟩, R.HUB_ID_silicon_rev)] := by decide +kernel
  unfold State.plainWrite; rw [fields]; rfl

theorem PlainWritten.hubId {s t : State} {v : Nat} (h : PlainWritten s 0x02000000 v t) : sameFields [] s t ∧ sameBytes s t := by
  obtain ⟨fields, bytes⟩ := h
  rw [State.plainWrite_hubId] at fields
  exact ⟨fun f _ => fields f, bytes⟩

theorem hubReg_yrnSeen (i : Fin 4) : hubReg (0x02030000 + 4 * i.val) := by unfold hubReg; omega

theorem plainReg_yrnSeen (i : Fin 4) : plainReg (0x02030000 + 4 * i.val) := by
  intro s deck posted v
  have hub : (regPlace (0x02030000 + 4 * i.val)).owner = .hub := by revert i; decide
  rw [State.regWrite_yrn _ _ _ (by omega)]
  unfold State.writeYrn
  rw [if_neg (by simp; omega), hub, if_neg (by decide), if_neg (by simp; omega)]

theorem fieldsAt_yrnSeen (i : Fin 4) :
    fieldsAt (0x02030000 + 4 * i.val) = [(⟨"YRN_SEEN", "seen", .hub, 0x2030000, 4, 4, 0, 32, .w1c, 0, .moorTile⟩, R.YRN_SEEN_seen i.val)] := by
  revert i; decide +kernel

/-- YRN_SEEN loses the bits written 1. -/
theorem State.plainWrite_yrnSeen (s : State) (i : Fin 4) (v : Nat) :
    s.plainWrite (0x02030000 + 4 * i.val) v =
      s.set (R.YRN_SEEN_seen i.val) (s.get (R.YRN_SEEN_seen i.val) - (s.get (R.YRN_SEEN_seen i.val) &&& v / 2 ^ 0 % 2 ^ 32)) := by
  unfold State.plainWrite; rw [fieldsAt_yrnSeen]; rfl

theorem PlainWritten.yrnSeen {s t : State} {i : Fin 4} {data : Word} (h : PlainWritten s (0x02030000 + 4 * i.val) data.toNat t) :
    (∀ k : Nat, k < 32 → t.bit (R.YRN_SEEN_seen i.val) k = (s.bit (R.YRN_SEEN_seen i.val) k && !data.getLsbD k)) ∧
      sameFields [(R.YRN_SEEN_seen 0).row] s t ∧ sameBytes s t := by
  obtain ⟨fields, bytes⟩ := h
  rw [State.plainWrite_yrnSeen] at fields
  refine ⟨fun k hk => ?_, fun f hf => (fields f).trans (State.set_sameFields _ _ _ f hf), bytes⟩
  unfold State.bit
  rw [fields, State.get_set_same, Nat.testBit_mod_two_pow, testBit_sub_and, Nat.testBit_mod_two_pow]
  simp [hk, BitVec.getLsbD]

theorem hubReg_eirpCtrl : hubReg 0x020A0810 := by unfold hubReg; omega

theorem plainReg_eirpCtrl : plainReg 0x020A0810 := fun _ _ _ _ => rfl

/-- While EIRP_CTRL.lock is 1, a write of EIRP_CTRL sets lock alone. -/
theorem State.plainWrite_eirpCtrl_locked (s : State) (v : Nat) (lock : s.get R.EIRP_CTRL_lock = 1) :
    s.plainWrite 0x020A0810 v = s.set R.EIRP_CTRL_lock (1 ||| v / 2 ^ 31 % 2 ^ 1) := by
  have fields : fieldsAt 0x020A0810 = [
      (⟨"EIRP_CTRL", "lock", .hub, 0x20A0810, 0, 1, 31, 1, .w1s, 0, .moorTile⟩, R.EIRP_CTRL_lock),
      (⟨"EIRP_CTRL", "region", .hub, 0x20A0810, 0, 1, 0, 2, .rwl, 0, .moorTile⟩, R.EIRP_CTRL_region)] := by decide +kernel
  have guard : lockOf 0x020A0810 = some R.EIRP_CTRL_lock := by decide
  have on : s.on R.EIRP_CTRL_lock = true := by unfold State.on; rw [lock]; rfl
  unfold State.plainWrite
  simp only [fields, guard, on, List.foldl_cons, List.foldl_nil]
  unfold State.fieldWrite
  simp only [lock, if_true]

theorem PlainWritten.eirpCtrl {s t : State} {v : Nat} (h : PlainWritten s 0x020A0810 v t) :
    (s.get R.EIRP_CTRL_lock = 1 → t.get R.EIRP_CTRL_region = s.get R.EIRP_CTRL_region ∧ t.get R.EIRP_CTRL_lock = 1) ∧ sameBytes s t := by
  obtain ⟨fields, bytes⟩ := h
  refine ⟨fun lock => ?_, bytes⟩
  rw [fields, fields, State.plainWrite_eirpCtrl_locked _ _ lock]
  constructor
  · rw [State.get_set_row _ _ _ _ (by decide)]
  · rw [State.get_set_same]
    rcases Nat.mod_two_eq_zero_or_one (v / 2 ^ 31) with e | e <;> rw [pow_one, e] <;> rfl

/-! ### HUB_FUNC_MODE (R28, R31) -/

theorem hubReg_funcMode : hubReg 0x02000020 := by unfold hubReg; omega

/-- What a write of HUB_FUNC_MODE may change beside the modes themselves. -/
def funcModeRest : Foot := ⟨0x112000, State.nbrPoke_foot.rows⟩

/-- HUB_FUNC_STATUS is refreshed last, from a state that holds the written modes. -/
theorem State.funcModeWrite_eq (s : State) (v : Nat) :
    ∃ u : State, s.funcModeWrite v = u.refreshFunc ∧ u.get R.HUB_FUNC_MODE_bits = v % 256 := by
  have le : Foot.le funcModeRest funcModeRest := Foot.le_refl _
  have mode (u : State) (h : Follows funcModeRest (s.set R.HUB_FUNC_MODE_bits v) u) : u.get R.HUB_FUNC_MODE_bits = v % 256 := by
    rw [h.get _ rfl, State.get_set_same]; rfl
  refine ⟨_, rfl, mode _ (Follows.forAll (fun n u hu => State.nbrPoke_follows (le.sub rfl) hu) (Follows.ite ?_ (Follows.update le ?_ rfl rfl)))⟩
  all_goals exact State.set_follows 4 le (State.softChanged_follows (le.sub rfl) (Follows.refl _ _))

/-- Calibration and the wake plane are effective as HUB_FUNC_MODE stands. -/
theorem State.refreshFunc_effective (s : State) {k : Nat} (lo : 6 ≤ k) (hi : k < 8) :
    s.refreshFunc.bit R.HUB_FUNC_STATUS_effective k = s.bit R.HUB_FUNC_MODE_bits k := by
  have acts : s.funcActs k = s.bit R.HUB_FUNC_MODE_bits k := by
    obtain rfl | rfl : k = 6 ∨ k = 7 := by omega
    all_goals rfl
  unfold State.refreshFunc State.bit
  rw [State.get_set_same, Nat.testBit_mod_two_pow, maskOf_testBit, acts]
  simp [hi, State.bit]

theorem State.refreshFunc_mode (s : State) : s.refreshFunc.get R.HUB_FUNC_MODE_bits = s.get R.HUB_FUNC_MODE_bits :=
  (State.refreshFunc_follows (Foot.le_refl _) (Follows.refl _ s)).get _ rfl

theorem State.funcModeWrite_sameBytes (s : State) (v : Nat) : sameBytes s (s.funcModeWrite v) := fun b =>
  congrArg (Memory.read · b) ((State.funcModeWrite_follows (Foot.le_refl _) (Follows.refl _ s)).mem rfl)

/-! ### HUB_GCOMMIT (R33) -/

theorem hubReg_gcommit : hubReg 0x02000030 := by unfold hubReg; omega

/-- Skipped bits written 1 are cleared. -/
def State.gcClear (s : State) (v : Nat) : State :=
  s.set R.HUB_GCOMMIT_skipped (s.get R.HUB_GCOMMIT_skipped - (s.get R.HUB_GCOMMIT_skipped &&& bits v 23 16))

/-- The hub's own commit registers keep a selection and wait. -/
def State.gcKeep (s : State) (v : Nat) : State :=
  ((((s.set R.HUB_GCOMMIT_tiles v).set R.HUB_GCOMMIT_bf (bits v 8 8)).set R.HUB_GCOMMIT_xng (bits v 9 9)).set R.HUB_GCOMMIT_mac_nbr
    (bits v 10 10)).set R.HUB_GCOMMIT_busy 1

/-- Every selected tile shows that a global commit waits for it. -/
def State.gcMark (s : State) (v : Nat) : State := forBits 8 (v % 256) (fun t s => s.set (R.TILE_COMMIT_gc_pending t) 1) s

theorem State.gcommitWrite_busy {s : State} (v : Nat) (busy : s.get R.HUB_GCOMMIT_busy = 1) : s.gcommitWrite v = (s, .busy) := by
  have on : s.on R.HUB_GCOMMIT_busy = true := by unfold State.on; rw [busy]; rfl
  unfold State.gcommitWrite; rw [if_pos on]

theorem State.gcommitWrite_free {s : State} (v : Nat) (free : s.get R.HUB_GCOMMIT_busy = 0) :
    s.gcommitWrite v = if v % 2048 = 0 then (s.gcClear v, .ok) else (((s.gcClear v).gcKeep v).gcMark v, .ok) := by
  have off : s.on R.HUB_GCOMMIT_busy = false := by unfold State.on; rw [free]; rfl
  unfold State.gcommitWrite
  rw [off, if_neg Bool.false_ne_true]
  rfl

theorem State.gcClear_skipped (s : State) (v i : Nat) (hi : i < 8) :
    (s.gcClear v).bit R.HUB_GCOMMIT_skipped i = (s.bit R.HUB_GCOMMIT_skipped i && !v.testBit (16 + i)) := by
  unfold State.gcClear State.bit bits
  rw [State.get_set_same, Nat.testBit_mod_two_pow, testBit_sub_and, Nat.testBit_mod_two_pow, Nat.testBit_div_two_pow]
  simp [hi, Nat.add_comm]

/-- The selection as HUB_GCOMMIT shows it while it waits. -/
theorem State.gcKeep_get (s : State) (v : Nat) :
    (s.gcKeep v).get R.HUB_GCOMMIT_busy = 1 ∧ (s.gcKeep v).get R.HUB_GCOMMIT_tiles = v % 256 ∧
      (s.gcKeep v).get R.HUB_GCOMMIT_bf = (v.testBit 8).toNat ∧ (s.gcKeep v).get R.HUB_GCOMMIT_xng = (v.testBit 9).toNat ∧
      (s.gcKeep v).get R.HUB_GCOMMIT_mac_nbr = (v.testBit 10).toNat := by
  have cut (k : Nat) : bits v k k % 2 ^ 1 = (v.testBit k).toNat := by
    unfold bits; rw [Nat.toNat_testBit, Nat.add_sub_cancel_left, pow_one, Nat.mod_mod]
  unfold State.gcKeep
  refine ⟨by rw [State.get_set_same]; rfl, ?_, ?_, ?_, ?_⟩
  · iterate 4 rw [State.get_set_row _ _ _ _ (by decide)]
    rw [State.get_set_same]; rfl
  · iterate 3 rw [State.get_set_row _ _ _ _ (by decide)]
    rw [State.get_set_same, cut]
  · iterate 2 rw [State.get_set_row _ _ _ _ (by decide)]
    rw [State.get_set_same, cut]
  · rw [State.get_set_row _ _ _ _ (by decide), State.get_set_same, cut]

/-- Marking a tile changes no other field. -/
theorem State.gcMark_get (s : State) (v : Nat) (f : Field) (hf : f.row ≠ (R.TILE_COMMIT_gc_pending 0).row) : (s.gcMark v).get f = s.get f := by
  unfold State.gcMark
  generalize 8 = n
  induction n with
  | zero => rfl
  | succ n ih =>
    rw [forBits_succ]
    split
    · exact (State.get_set_row _ (R.TILE_COMMIT_gc_pending n) _ _ hf).trans ih
    · exact ih

theorem State.gcMark_pending (s : State) (v i : Nat) (hi : i < 8) (sel : v.testBit i = true) :
    (s.gcMark v).get (R.TILE_COMMIT_gc_pending i) = 1 := by
  have sel' : (v % 256).testBit i = true := by
    rw [show 256 = 2 ^ 8 from rfl, Nat.testBit_mod_two_pow, sel]; simpa using hi
  unfold State.gcMark
  revert hi
  generalize 8 = n
  intro hi
  induction n with
  | zero => omega
  | succ n ih =>
    rw [forBits_succ]
    by_cases e : i = n
    · subst e; rw [if_pos sel', State.get_set_same]; rfl
    · have key : (R.TILE_COMMIT_gc_pending i).key ≠ (R.TILE_COMMIT_gc_pending n).key := by simpa using e
      split
      · rw [State.get_set_ne _ _ _ _ key, ih (by omega)]
      · exact ih (by omega)

theorem State.gcommitWrite_sameBytes (s : State) (v : Nat) : sameBytes s (s.gcommitWrite v).1 := fun b =>
  congrArg (Memory.read · b) ((State.gcommitWrite_follows (Foot.le_refl _) (Follows.refl _ s)).mem rfl)


/-! ### The commands -/

theorem answers_funcModeWrite {s : State} {ini : Initiator} {data : Word} {p : State → Prop} (h : s.opens ini true 0x02000020 data.toNat)
    (hp : p ((s.funcModeWrite data.toNat).reply .ok [])) : Answers s (.hubFuncModeWrite ini data) .ok p := by
  refine ⟨_, rfl, ?_⟩
  rw [State.regWriteBy_hubReg hubReg_funcMode h]
  exact ⟨rfl, hp⟩

theorem answers_gcommitWrite {s u : State} {ini : Initiator} {data : Word} {st : Status} {p : State → Prop}
    (h : s.opens ini true 0x02000030 data.toNat) (e : s.gcommitWrite data.toNat = (u, st)) (hp : p (u.reply st [])) :
    Answers s (.hubGcommitWrite ini data) st p := by
  have w (deck : Bool) : s.regWrite deck false 0x02000030 data.toNat = (u, st) := e
  refine ⟨_, rfl, ?_⟩
  rw [State.regWriteBy_hubReg hubReg_gcommit h, w]
  exact ⟨rfl, hp⟩

/-- HUB_FUNC_MODE takes its eight bits; those of calibration and wake plane are effective at once (R28). -/
theorem funcModeWrite_result (s : State) (data : Word) :
    (s.funcModeWrite data.toNat).get R.HUB_FUNC_MODE_bits = data.toNat % 256 ∧
      (s.funcModeWrite data.toNat).bit R.HUB_FUNC_STATUS_effective 6 = data.getLsbD 6 ∧
      (s.funcModeWrite data.toNat).bit R.HUB_FUNC_STATUS_effective 7 = data.getLsbD 7 := by
  obtain ⟨u, e, mode⟩ := s.funcModeWrite_eq data.toNat
  have eff (k : Nat) (lo : 6 ≤ k) (hi : k < 8) : u.refreshFunc.bit R.HUB_FUNC_STATUS_effective k = data.getLsbD k := by
    rw [State.refreshFunc_effective _ lo hi]
    unfold State.bit
    rw [mode, show 256 = 2 ^ 8 from rfl, Nat.testBit_mod_two_pow]
    simp [hi, BitVec.getLsbD]
  rw [e, State.refreshFunc_mode]
  exact ⟨mode, eff 6 (by omega) (by omega), eff 7 (by omega) (by omega)⟩

/-- A selection waits busy, and each selected tile shows it (R33). -/
theorem gcommitWrite_selection (s : State) (data : Word) :
    let t := ((s.gcClear data.toNat).gcKeep data.toNat).gcMark data.toNat
    t.get R.HUB_GCOMMIT_busy = 1 ∧ t.get R.HUB_GCOMMIT_tiles = data.toNat % 256 ∧ t.get R.HUB_GCOMMIT_bf = (data.getLsbD 8).toNat ∧
      t.get R.HUB_GCOMMIT_xng = (data.getLsbD 9).toNat ∧ t.get R.HUB_GCOMMIT_mac_nbr = (data.getLsbD 10).toNat ∧
      (∀ i : Nat, i < 8 → data.getLsbD i = true → t.get (R.TILE_COMMIT_gc_pending i) = 1) := by
  obtain ⟨busy, tiles, bf, xng, nbr⟩ := (s.gcClear data.toNat).gcKeep_get data.toNat
  dsimp only
  iterate 5 rw [State.gcMark_get _ _ _ (by decide)]
  exact ⟨busy, tiles, bf, xng, nbr, fun i hi sel => State.gcMark_pending _ _ i hi sel⟩

/-- Settles O20, by what the block of each register does with a written word: the plain registers by their fields' access codes, HUB_FUNC_MODE
and HUB_GCOMMIT by their own rules. -/
theorem registerWrites : Obligations.RegisterWrites := by
  unfold Obligations.RegisterWrites
  refine ⟨fun s ini data => ⟨fun d h => ⟨?_, ?_⟩, fun h => ?_, fun i h => ?_, fun h => ?_⟩,
    fun s ini data => ⟨fun h => ?_, fun h => ⟨fun free picks => ?_, fun free skips => ?_, fun busy => ?_⟩⟩⟩
  · exact answers_plainWrite (hubReg_linger d) (plainReg_linger d) h fun _ => PlainWritten.linger
  · exact leads_postedWrite (hubReg_linger d) (plainReg_linger d) h fun _ => PlainWritten.linger
  · exact answers_plainWrite hubReg_hubId plainReg_hubId h fun _ => PlainWritten.hubId
  · exact answers_plainWrite (hubReg_yrnSeen i) (plainReg_yrnSeen i) h fun _ => PlainWritten.yrnSeen
  · exact answers_plainWrite hubReg_eirpCtrl plainReg_eirpCtrl h fun _ => PlainWritten.eirpCtrl
  · obtain ⟨mode, eff6, eff7⟩ := funcModeWrite_result s data
    have bytes := s.funcModeWrite_sameBytes data.toNat
    refine answers_funcModeWrite h ?_
    generalize s.funcModeWrite data.toNat = t at *
    exact ⟨mode, eff6, eff7, bytes⟩
  · have e := (State.gcommitWrite_free data.toNat free).trans (if_neg picks)
    obtain ⟨waits, tiles, bf, xng, nbr, marks⟩ := gcommitWrite_selection s data
    have bytes := s.gcommitWrite_sameBytes data.toNat
    rw [e] at bytes
    exact answers_gcommitWrite h e ⟨waits, tiles, bf, xng, nbr, marks, bytes⟩
  · exact answers_gcommitWrite h ((State.gcommitWrite_free data.toNat free).trans (if_pos skips))
      ⟨s.gcClear_skipped _, s.set_sameFields _ _, fun _ => rfl⟩
  · exact answers_gcommitWrite h (State.gcommitWrite_busy _ busy) ⟨fun _ _ => rfl, fun _ => rfl⟩

end Sys2Proof.Machine
end

section
/-! Words of an engine that wait, and messages between engines: what the engine holds after such a word is issued or goes on, and the claim. -/

namespace Sys2Proof.Machine

open Sys2Proof

/-! ### One engine and its issue -/

/-- An engine's number counts modulo 96. -/
theorem State.eng_mod (s : State) {g h : Nat} (e : h % 96 = g % 96) : s.eng h = s.eng g := by
  simp only [State.eng, vget, e]

theorem State.issues_wait {s : State} {g : Nat} {k : WordKind} (h : s.issues g k) : (s.eng g).wait = none := by
  have ready := h.1
  simp only [State.engReady, Bool.and_eq_true, Option.isNone_iff_eq_none] at ready
  exact ready.1.1.2

/-- A fetch that no poisoned word and no decoder meets is clean. -/
theorem State.fetchFault_clean {s : State} {g : Nat} {seen : LmSeen} (h : s.fetchFault g = none) (clean : seen.bad (s.eng g).r.pc = false) :
    s.fetchFault g seen = none := by
  have np : s.poisoned (lmBase g + (s.eng g).r.pc) = false := by
    by_contra c
    simp [State.fetchFault, faultIf, Bool.of_not_eq_false c] at h
  simp [State.fetchFault, faultIf, np, clean]

/-- A word that reads no local word and has to wait leaves the engine waiting, and nothing else changes but what after does. -/
theorem State.engIssue_wait {s : State} {g : Nat} {k : WordKind} {op : EngRegs → OpRes} {after : State → State} {seen : LmSeen}
    {reads : EngRegs → List Nat} {w : EngWait} (h : s.issues g k) (fetch : s.fetchFault g seen = none) (none_read : reads (s.eng g).r = [])
    (hop : op (s.eng g).r = .wait w) : s.engIssue g k false op after seen reads = after (s.waitingOn g w) :=
  State.engIssue_apply h hop (fun _ _ => by simp) fetch (by rw [none_read]; rfl)

/-- A word that reads no local word and does not fault retires with what it computes. -/
theorem State.engIssue_retire {s : State} {g : Nat} {k : WordKind} {op : EngRegs → OpRes} {after : State → State} {seen : LmSeen}
    {reads : EngRegs → List Nat} {r : EngRegs} (h : s.issues g k) (fetch : s.fetchFault g seen = none) (none_read : reads (s.eng g).r = [])
    (hop : op (s.eng g).r = .ok r []) : s.engIssue g k false op after seen reads = after (s.engRetire g false r []) :=
  State.engIssue_apply h hop (fun _ _ => by simp) fetch (by rw [none_read]; rfl)

/-! ### The engine after a retirement -/

theorem Engine.retired_wait {x : Engine} (r : EngRegs) (st : List (Nat × List Byte)) (h : x.wait = none) : (x.retired r st).wait = none := by
  unfold Engine.retired
  split
  · rfl
  · rfl
  · exact h
  · exact h

theorem Engine.retired_mbox (x : Engine) (r : EngRegs) (st : List (Nat × List Byte)) : (x.retired r st).mbox = x.mbox := by
  unfold Engine.retired
  split <;> rfl

theorem State.engRetire_wait {s : State} {g : Nat} (r : EngRegs) (h : (s.eng g).wait = none) : ((s.engRetire g false r []).eng g).wait = none := by
  obtain ⟨out, e⟩ := s.engRetire_eng g false r []
  rw [e, (Engine.settled_near _ out).2.1]
  exact Engine.retired_wait r [] h

/-- No mailbox changes as a word retires. -/
theorem State.engRetire_mbox (s : State) (g : Nat) (r : EngRegs) (h : Nat) : ((s.engRetire g false r []).eng h).mbox = (s.eng h).mbox := by
  by_cases e : h % 96 = g % 96
  · rw [State.eng_mod _ e, State.eng_mod s e]
    obtain ⟨out, e⟩ := s.engRetire_eng g false r []
    rw [e, (Engine.settled_near _ out).2.2.2.1]
    exact Engine.retired_mbox _ _ _
  · rw [State.engRetire_ne _ _ _ _ _ _ e]

theorem sameRegs_engRetire (s : State) (g : Nat) {r : EngRegs} (h : r.w = (s.eng g).r.w) : sameRegs s (s.engRetire g false r []) g := by
  intro k
  unfold EngRegs.get
  rw [(s.engRetire_wv g false r []).1, h]

theorem sameVecs_engRetire (s : State) (g : Nat) {r : EngRegs} (h : r.v = (s.eng g).r.v) : sameVecs s (s.engRetire g false r []) g := by
  intro k
  unfold EngRegs.vec
  rw [(s.engRetire_wv g false r []).2.1, h]

/-- A vector register that a word writes as it retires. -/
theorem wroteVec_engRetire (s : State) (g : Nat) {d : Nat} (hd : d < 4) (v : Vector Word 16) :
    wroteVec s (s.engRetire g false ((s.eng g).r.putVec d v) []) g d v := by
  intro k hk
  rw [← EngRegs.vec_putVec _ _ _ _ hd hk]
  unfold EngRegs.vec
  rw [(s.engRetire_wv g false ((s.eng g).r.putVec d v) []).2.1]

/-- A word that retires without a store, without a change of the exception registers, leaves its frame. -/
theorem wordFrame_plain (s : State) (g : Nat) : wordFrame s (s.engRetire g false (s.eng g).r []) g :=
  wordFrame_retire s g false _ ⟨rfl, rfl, rfl, rfl, rfl, rfl, rfl, rfl⟩

/-- A change of an engine outside its registers keeps the frame of the word before it. -/
theorem wordFrame_updEng {s t : State} {g : Nat} (f : Engine → Engine) (hf : (f (t.eng g)).r = (t.eng g).r) (h : wordFrame s t g) :
    wordFrame s (t.updEng g f) g := by
  obtain ⟨⟨others, fields⟩, alone⟩ := h
  refine ⟨⟨fun x ne => (State.eng_updEng_ne _ _ _ _ ne).trans (others x ne), fields⟩, fun al => ⟨(alone al).1, ?_⟩⟩
  have special := (alone al).2
  unfold sameSpecial at *
  rw [State.eng_updEng, hf]
  exact special

/-! ### Device accesses (R195, R196, R213) -/

section Access

variable {s : State} {g : Nat} {ecc : LmSeen}

theorem State.devPriv_none {dev : Bool} {r : EngRegs} (task : r.mode.testBit 1 = true → (s.eng g).taskDev = true) : s.devPriv g dev r = none := by
  unfold State.devPriv faultIf EngRegs.task
  by_cases m : r.mode.testBit 1 = true
  · simp [task m]
  · simp [Bool.of_not_eq_true m]

/-- An aligned device access passes the checks of its address. -/
theorem State.memFault_device {a n : Nat} {load : Bool} (h : a % n = 0) (m : Nat) : s.memFault g a m n true load ecc = none := by
  simp [State.memFault, faultIf, h]

/-- The next lane of a GATHER, told by the bits of ENG_GDONE. -/
theorem gatherLane_eq {r : EngRegs} {i : Nat} (hi : i < 16) (below : ∀ j : Nat, j < i → r.gdone.testBit j = true)
    (at_i : r.gdone.testBit i = false) :
    gatherLane r = i := by
  have : (List.range 16).find? (fun j => !r.gdone.testBit j) = some i := by
    rw [List.find?_range_eq_some]
    exact ⟨by simpa using at_i, List.mem_range.mpr hi, fun j hj => by simpa using below j hj⟩
  unfold gatherLane
  rw [this]
  rfl

theorem gatherLane_done {r : EngRegs} (all : ∀ i : Nat, i < 16 → r.gdone.testBit i = true) : gatherLane r = 16 := by
  have : (List.range 16).find? (fun j => !r.gdone.testBit j) = none := by
    rw [List.find?_eq_none]
    intro j hj
    simpa using all j (List.mem_range.mp hj)
  unfold gatherLane
  rw [this]
  rfl

theorem gather_legal {d b : Nat} (hd : d < 4) (hb : b < 4) (ne : d ≠ b) : illegalIf (badVec [d, b] || d == b) = none := by
  simp [illegalIf, faultIf, badVec, ne]; omega

variable (h : s.issues g .device) (task : (s.eng g).r.mode.testBit 1 = true → (s.eng g).taskDev = true)
include h task

/-- A load of device space waits for its completion. -/
theorem State.engLoad_device {d a size : Nat} {sx : Bool} {off : BitVec 14} (clean : ecc.bad (s.eng g).r.pc = false) (small : size < 3)
    (al : lmAddress (s.eng g).r a off % 2 ^ size = 0) :
    s.engLoad g d a true sx size off ecc = s.waitingOn g (.load (lmAddress (s.eng g).r a off) (2 ^ size) d sx) := by
  refine State.engIssue_wait h (State.fetchFault_clean h.2.2.2 clean) rfl ?_
  have three : illegalIf (size == 3) = none := by simp [illegalIf, faultIf]; omega
  dsimp only
  rw [three, State.devPriv_none task, State.memFault_device al]
  rfl

/-- A store to device space waits for its completion. -/
theorem State.engStore_device {d a size : Nat} {off : BitVec 14} (small : size < 3) (al : lmAddress (s.eng g).r a off % 2 ^ size = 0) :
    s.engStore g d a true size off = s.waitingOn g (.store (lmAddress (s.eng g).r a off) (2 ^ size) ((s.eng g).r.get d).toNat) := by
  refine State.engIssue_wait h h.2.2.2 rfl ?_
  have three : illegalIf (size == 3) = none := by simp [illegalIf, faultIf]; omega
  dsimp only
  rw [three, State.devPriv_none task, State.memFault_device al]
  rfl

/-- A vector load or store of device space waits for its completion. -/
theorem State.engVmem_device {d a : Nat} {load : Bool} {off : BitVec 14} (clean : ecc.bad (s.eng g).r.pc = false) (hd : d < 4)
    (al : lmAddress (s.eng g).r a off % 4 = 0) :
    s.engVmem g d a load true 0 off ecc = s.waitingOn g (if load then .vload (lmAddress (s.eng g).r a off) d
      else .vstore (lmAddress (s.eng g).r a off) (vecBytes ((s.eng g).r.vec d))) := by
  refine State.engIssue_wait h (State.fetchFault_clean h.2.2.2 clean) (by simp) ?_
  have legal : illegalIf (0 != 0 || badVec [d]) = none := by simp [illegalIf, faultIf, badVec]; omega
  dsimp only
  rw [legal, State.devPriv_none task, State.memFault_device al]
  rfl

/-- A GATHER from device space whose next lane is aligned waits for that lane. -/
theorem State.engGather_lane {d a b : Nat} {func : BitVec 13} (clean : ecc.bad (s.eng g).r.pc = false) (hd : d < 4) (hb : b < 4) (ne : d ≠ b)
    (dev : func.getLsbD 0 = true) (more : gatherLane (s.eng g).r < 16)
    (al : gatherAddr (s.eng g).r a b (gatherLane (s.eng g).r) % 4 = 0) : s.engGather g d a b func ecc = s.waitingOn g (.gather a d b) := by
  unfold State.engGather
  rw [dev]
  refine State.engIssue_wait h (State.fetchFault_clean h.2.2.2 clean) rfl ?_
  have aligned : gatherAlign (s.eng g).r a b = none := by simp [gatherAlign, faultIf, al]
  rw [gather_legal hd hb ne, State.devPriv_none task]
  simp only [worst, Bool.not_true, Bool.false_eq_true, if_false, if_neg (Nat.not_le.mpr more), aligned]

/-- A GATHER with every lane done retires without an access. -/
theorem State.engGather_done {d a b : Nat} {func : BitVec 13} (clean : ecc.bad (s.eng g).r.pc = false) (hd : d < 4) (hb : b < 4) (ne : d ≠ b)
    (dev : func.getLsbD 0 = true) (all : gatherLane (s.eng g).r = 16) :
    s.engGather g d a b func ecc = s.engRetire g false { (s.eng g).r with gdone := 0 } [] := by
  unfold State.engGather
  rw [dev]
  refine State.engIssue_retire h (State.fetchFault_clean h.2.2.2 clean) rfl ?_
  rw [gather_legal hd hb ne, State.devPriv_none task]
  simp only [worst, Bool.not_true, Bool.false_eq_true, if_false, all, le_refl, if_true]

end Access

/-! ### Mailboxes (R15, R215) -/

theorem State.domUp_pwr {s t : State} {p : Foot} (h : Follows p s t) (e : p.comp 5 = false) (d : Nat) : t.domUp d = s.domUp d := by
  unfold State.domUp State.dom; rw [h.pwr e]

theorem State.engRetire_is (s : State) (g : Nat) (pair : Bool) (r : EngRegs) (st : List (Nat × List Byte)) :
    Follows State.engRetire_foot s (s.engRetire g pair r st) := State.engRetire_follows (Foot.le_refl _) (Follows.refl _ _)

theorem State.fire_is (s : State) (n : Nat) : Follows State.fire_foot s (s.fire n) := State.fire_follows (Foot.le_refl _) (Follows.refl _ _)

@[simp] theorem State.fire_eng (s : State) (n g : Nat) : (s.fire n).eng g = s.eng g := (s.fire_is n).engs_eq rfl g

@[simp] theorem State.fire_byte (s : State) (n a : Nat) : (s.fire n).byte a = s.byte a := (s.fire_is n).bytes_eq rfl a

/-- A source outside the tiles fires while the hub is up. -/
theorem State.fire_pends {s : State} {n : Nat} (up : s.hubUp = true) (hub : n < 320 ∨ 448 ≤ n) : (s.fire n).pends n = true := by
  have on : (s.hubUp && (n < 320 || 448 ≤ n || s.tileUp ((n - 320) / 16))) = true := by
    simp only [up, Bool.true_and, Bool.or_eq_true, decide_eq_true_eq]; exact .inl hub
  unfold State.fire
  rw [if_pos on]
  unfold State.pends State.bit State.setBit
  rw [State.get_set_same, Nat.testBit_mod_two_pow, Nat.testBit_or, Nat.testBit_two_pow_self]
  simp only [Bool.or_true, Bool.and_true, decide_eq_true_eq]
  exact Nat.mod_lt _ (by decide)

/-- A message to an engine that waits for nothing joins its mailbox, and its source fires. -/
theorem State.mboxDeliver_idle {s : State} {dst : Nat} (m : Nat × List Word × Nat) (h : (s.eng dst).wait = none) :
    s.mboxDeliver dst m = (s.updEng dst fun x => { x with mbox := x.mbox ++ [m] }).fire (224 + dst) := by
  unfold State.mboxDeliver State.mrecvWake
  rw [State.fire_eng, State.eng_updEng]
  dsimp only
  rw [h]

/-- With no engine waiting to send, a free berth changes nothing. -/
theorem State.berthFree_none {s : State} {dst : Nat} (h : ∀ g a b : Nat, (s.eng g).wait ≠ some (.msend a b)) : s.berthFree dst = s := by
  unfold State.berthFree
  split
  · rename_i k e
    have sends := List.find?_some e
    split at sends
    · rename_i w; exact absurd w (h k _ _)
    · exact absurd sends Bool.false_ne_true
  · rfl

/-- No engine comes to wait as a word of one that does not wait retires. -/
theorem State.engRetire_waits {s : State} {g : Nat} (r : EngRegs) (h : (s.eng g).wait = none) {w : EngWait}
    (others : ∀ k : Nat, (s.eng k).wait ≠ some w)
    (k : Nat) : ((s.engRetire g false r []).eng k).wait ≠ some w := by
  by_cases e : k % 96 = g % 96
  · rw [State.eng_mod _ e, State.engRetire_wait r h]; exact nofun
  · rw [State.engRetire_ne _ _ _ _ _ _ e]; exact others k

section Mail

variable {s : State} {g : Nat} (h : s.issues g .mbox)
include h

/-- MSEND to an engine that is up: it retires and its message is delivered, or it waits, as the mailbox has a free berth and the way is open or not. -/
theorem State.engMsend_up {a b : Nat} (ha : a < 4) (small : s.msendTo g b < 96) (up : s.domUp (engDomain (s.msendTo g b)) = true) :
    s.engMsend g a b = if s.mailHeld g (s.msendTo g b) = false ∧ (s.eng (s.msendTo g b)).mbox.length < 16
      then (s.engRetire g false (s.eng g).r []).mboxDeliver (s.msendTo g b) (s.mboxMessage g a) else s.waitingOn g (.msend a b) := by
  have legal : illegalIf (badVec [a]) = none := by simp [illegalIf, faultIf, badVec]; omega
  have reach : faultIf (decide (95 < s.msendTo g b)) (EFault.plain exMbox) = none := by simp [faultIf]; omega
  unfold State.engMsend
  dsimp only
  by_cases free : s.mailHeld g (s.msendTo g b) = false ∧ (s.eng (s.msendTo g b)).mbox.length < 16
  · have open_ : (decide (s.msendTo g b < 96) && s.domUp (engDomain (s.msendTo g b)) && !s.mailHeld g (s.msendTo g b) &&
        decide ((s.eng (s.msendTo g b)).mbox.length < mboxBerths)) = true := by simp [small, up, free, mboxBerths]
    rw [if_pos free, open_]
    exact State.engIssue_retire h h.2.2.2 rfl (by rw [legal, reach, up]; rfl)
  · have shut : (decide (s.msendTo g b < 96) && s.domUp (engDomain (s.msendTo g b)) && !s.mailHeld g (s.msendTo g b) &&
        decide ((s.eng (s.msendTo g b)).mbox.length < mboxBerths)) = false := by
      rw [Bool.eq_false_iff]
      intro c
      simp only [small, up, mboxBerths, decide_true, Bool.true_and, Bool.and_eq_true, Bool.not_eq_true'] at c
      exact free ⟨c.1, of_decide_eq_true c.2⟩
    rw [if_neg free, shut]
    exact State.engIssue_wait h h.2.2.2 rfl (by rw [legal, reach, up]; rfl)

/-- A message word stands in no mode-change shadow (R207). -/
theorem State.mbox_direct : s.direct g := by
  obtain ⟨-, -, place, -⟩ := h
  intro a m n held ctx
  simp [Engine.placeFault, ctx, illegalIf, faultIf] at place

/-- What a message that has gone leaves: it is the newest of its mailbox, its source is pending, and no register and no byte has changed. -/
theorem State.msend_delivered {dst : Nat} (hd : dst < 96) (m : Nat × List Word × Nat) (idle : (s.eng dst).wait = none) {t : State}
    (ht : t = (s.engRetire g false (s.eng g).r []).mboxDeliver dst m) :
    (t.eng dst).mbox = (s.eng dst).mbox ++ [m] ∧ (s.hubUp = true → t.pends (224 + dst) = true) ∧ sameRegs s t g ∧ sameVecs s t g ∧ sameBytes s t := by
  have waits : ((s.engRetire g false (s.eng g).r []).eng dst).wait = none := by
    by_cases e : dst % 96 = g % 96
    · rw [State.eng_mod _ e]; exact State.engRetire_wait _ (State.issues_wait h)
    · rw [State.engRetire_ne _ _ _ _ _ _ e]; exact idle
  rw [State.mboxDeliver_idle m waits] at ht
  have regs : (t.eng g).r = ((s.engRetire g false (s.eng g).r []).eng g).r := by
    rw [ht, State.fire_eng]
    by_cases e : g % 96 = dst % 96
    · rw [State.eng_mod _ e, State.eng_updEng, State.eng_mod _ e.symm]
    · rw [State.eng_updEng_ne _ _ _ _ e]
  refine ⟨?_, fun up => ?_, fun k => ?_, fun k => ?_, fun a => ?_⟩
  · rw [ht, State.fire_eng, State.eng_updEng]
    exact congrArg (· ++ [m]) (State.engRetire_mbox s g _ dst)
  · rw [ht]
    refine State.fire_pends ?_ (.inl (by omega))
    exact (State.domUp_pwr (s.engRetire_is g false (s.eng g).r []) rfl 0).trans up
  · rw [regs]; exact sameRegs_engRetire s g rfl k
  · rw [regs]; exact sameVecs_engRetire s g rfl k
  · rw [ht, State.fire_byte, State.updEng_byte, State.engRetire_direct _ _ _ _ _ (State.mbox_direct h), State.lmStore_nil]

/-- MRECV with a message: it is taken, and the vector register holds it. -/
theorem State.engMrecv_takes {d : Nat} {arg : BitVec 8} (hd : d < 4) {m : Nat × List Word × Nat} {rest : List (Nat × List Word × Nat)}
    (head : (s.eng g).mbox = m :: rest) (nobody : ∀ k a b : Nat, (s.eng k).wait ≠ some (.msend a b)) :
    s.engMrecv g d arg = (s.engRetire g false ((s.eng g).r.putVec d (mboxVector m)) []).updEng g fun x => { x with mbox := rest } := by
  have legal : badVec [d] = false := by simp [badVec]; omega
  unfold State.engMrecv
  rw [head]
  dsimp only
  rw [State.engIssue_retire h h.2.2.2 rfl (by rw [legal]; rfl)]
  refine State.berthFree_none fun k a b => ?_
  have others := State.engRetire_waits ((s.eng g).r.putVec d (mboxVector m)) (State.issues_wait h) (fun k => nobody k a b)
  by_cases e : k % 96 = g % 96
  · rw [State.eng_mod _ e, State.eng_updEng]; exact others g
  · rw [State.eng_updEng_ne _ _ _ _ e]; exact others k

/-- MRECV without a message waits. -/
theorem State.engMrecv_waits {d : Nat} {arg : BitVec 8} (hd : d < 4) (empty : (s.eng g).mbox = []) (wait : arg.getLsbD 0 = false) :
    s.engMrecv g d arg = s.waitingOn g (.mrecv d) := by
  have legal : badVec [d] = false := by simp [badVec]; omega
  unfold State.engMrecv
  rw [empty]
  exact State.engIssue_wait h h.2.2.2 rfl (by rw [legal, wait]; rfl)

/-- MRECV without a message and with nowait answers all ones in lane 4. -/
theorem State.engMrecv_nowait {d : Nat} {arg : BitVec 8} (hd : d < 4) (empty : (s.eng g).mbox = []) (nowait : arg.getLsbD 0 = true) :
    s.engMrecv g d arg = s.engRetire g false ((s.eng g).r.putVec d (vset (.replicate 16 0) 4 0xFFFFFFFF)) [] := by
  have legal : badVec [d] = false := by simp [badVec]; omega
  unfold State.engMrecv
  rw [empty]
  exact State.engIssue_retire h h.2.2.2 rfl (by rw [legal, nowait]; rfl)

end Mail

/-! ### WFI (R220) -/

/-- A word that stands alone moves the pc on as it retires. -/
theorem State.engRetire_pc {s : State} {g : Nat} (alone : s.alone g) :
    ((s.engRetire g false (s.eng g).r []).eng g).r.pc = ((s.eng g).r.retireAt (s.eng g).r.pc).pc := by
  obtain ⟨out, e⟩ := s.engRetire_eng g false (s.eng g).r []
  obtain ⟨-, -, -, -, -, -, -, pc, -⟩ := Engine.settled_near ((s.eng g).retired (s.eng g).r []) out
  rw [e, pc]
  unfold Engine.retired
  rw [show (s.eng g).ctx = .plain from alone]

/-- A word that stands alone ends the engine's waiting as it retires. -/
theorem State.engRetire_ends_wait {s : State} {g : Nat} (r : EngRegs) (alone : s.alone g) : ((s.engRetire g false r []).eng g).wait = none := by
  obtain ⟨out, e⟩ := s.engRetire_eng g false r []
  rw [e, (Engine.settled_near _ out).2.1]
  unfold Engine.retired
  rw [show (s.eng g).ctx = .plain from alone]

/-! ### FENCE (R197) -/

/-- An engine that waits stands at no word boundary. -/
theorem Engine.settled_waiting {x : Engine} (out : Bool) (h : x.wait ≠ none) : x.settled out = x := by
  have inside : x.atBoundary = false := by
    unfold Engine.atBoundary
    rw [Option.isNone_eq_false_iff.mpr (Option.isSome_iff_ne_none.mpr h), Bool.and_false]
  unfold Engine.settled
  rw [inside]
  rfl

/-- What settling the fences leaves of an engine, where x was the engine before: the registers but those of other agents' writes, and everything at all
of an engine that a word boundary leaves as it is. -/
def Engine.kept (x y : Engine) (out : Bool) : Prop := x.near y ∧ x.r.alike y.r ∧ (x.settled out = x → y = x)

theorem Engine.kept_refl (x : Engine) (out : Bool) : x.kept x out :=
  ⟨⟨rfl, rfl, rfl, rfl, rfl, rfl, rfl, rfl, rfl, rfl, rfl, rfl, rfl⟩, EngRegs.alike_refl _, fun _ => rfl⟩

theorem Engine.near_trans {x y z : Engine} (h : x.near y) (k : y.near z) : x.near z := by unfold Engine.near at *; simp_all

theorem Engine.settled_alike (x : Engine) (out : Bool) : x.r.alike (x.settled out).r := by
  unfold Engine.settled
  split
  · exact EngRegs.alike_refl _
  · dsimp only; split <;> exact Engine.agentWrites_alike _ _

theorem Engine.kept_settled {x y : Engine} {out : Bool} (h : x.kept y out) : x.kept (y.settled out) out :=
  ⟨Engine.near_trans h.1 (y.settled_near out), EngRegs.alike_trans h.2.1 (y.settled_alike out), fun e => by rw [h.2.2 e]; exact e⟩

/-- What settling the fences leaves of state s, as long as no FENCE of a link completes and no engine's FENCE ends. -/
structure FencesSettled (s t : State) : Prop where
  lnk : t.lnk = s.lnk
  mem : t.mem = s.mem
  regs : t.regs = s.regs
  eng : ∀ g : Nat, g < 96 → (s.eng g).kept (t.eng g) (s.postedOut fun src => src == .store g)

/-- Posted writes on their way are the links'. -/
theorem State.postedOut_lnk {s t : State} (h : t.lnk = s.lnk) (p : AccSrc → Bool) : t.postedOut p = s.postedOut p := by
  unfold State.postedOut State.link; rw [h]

/-- A FENCE that has not ended, and an engine that waits for something else, stay as they are. -/
theorem State.engFence_idle {s : State} {g : Nat}
    (h : (s.eng g).wait = some .fence → (s.eng g).postedFault = none ∧ s.postedOut (fun src => src == .store g) = true) : s.engFence g = s := by
  unfold State.engFence
  by_cases w : (s.eng g).wait = some .fence
  · obtain ⟨fault, out⟩ := h w
    simp [w, fault, out]
  · simp [w]

theorem FencesSettled.step {s t : State} (h : FencesSettled s t) {i : Nat} (hi : i < 96)
    (idle : (s.eng i).wait = some .fence → (s.eng i).postedFault = none ∧ s.postedOut (fun src => src == .store i) = true) :
    FencesSettled s ((t.engFence i).engBoundary i) := by
  obtain ⟨lnk, mem, regs, eng⟩ := h
  obtain ⟨-, wait, -, -, fault, -⟩ := (eng i hi).1
  rw [State.engFence_idle (by rw [wait, fault, State.postedOut_lnk lnk]; exact idle)]
  refine ⟨?_, ?_, ?_, fun g hg => ?_⟩
  · exact ((State.engBoundary_follows (Foot.le_refl _) (Follows.refl _ t)).lnk rfl).trans lnk
  · exact ((State.engBoundary_follows (Foot.le_refl _) (Follows.refl _ t)).mem rfl).trans mem
  · unfold State.engBoundary; split <;> exact regs
  · by_cases e : g = i
    · subst e
      rw [State.engBoundary_eng, State.postedOut_lnk lnk]
      exact Engine.kept_settled (eng g hg)
    · rw [State.engBoundary_ne _ _ _ (by rwa [Nat.mod_eq_of_lt hg, Nat.mod_eq_of_lt hi])]
      exact eng g hg

/-- What every number below n keeps, all of them keep in turn. -/
theorem forAll_keeps {α : Type} {P : α → Prop} {n : Nat} {f : Nat → α → α} {a : α} (h : P a)
    (step : ∀ i : Nat, i < n → ∀ b : α, P b → P (f i b)) :
    P (forAll n f a) :=
  List.foldlRecOn (List.range n) _ h fun b hb i hi => step i (List.mem_range.mp hi) b hb

/-- Settling the fences where none ends: the engines come to their word boundaries, and peers may be asked. -/
theorem State.settleFences_idle {s : State} (noLink : s.lnk.fences = [])
    (idle : ∀ g : Nat, g < 96 → (s.eng g).wait = some .fence → (s.eng g).postedFault = none ∧ s.postedOut (fun src => src == .store g) = true) :
    ∃ u, FencesSettled s u ∧ Follows State.askFence_foot u s.settleFences := by
  have same : (s.lnk.fences.filter fun f : FenceWait => !!s.postedOut f.covers) = s.lnk.fences := by rw [noLink]; rfl
  have none_done : (s.lnk.fences.filter fun f : FenceWait => !s.postedOut f.covers) = [] := by rw [noLink]; rfl
  have e : s.settleFences = forAll 4 (fun p s => s.askFence p) (forAll 96 (fun g s => (s.engFence g).engBoundary g) s) := by
    unfold State.settleFences
    dsimp only
    rw [same, none_done]
    rfl
  refine ⟨forAll 96 (fun g s => (s.engFence g).engBoundary g) s, ?_, ?_⟩
  · exact forAll_keeps (P := FencesSettled s) ⟨rfl, rfl, rfl, fun g _ => (s.eng g).kept_refl _⟩ fun i hi b hb => hb.step hi (idle i hi)
  · rw [e]
    exact Follows.forAll (fun p t ht => State.askFence_follows (Foot.le_refl _) ht) (Follows.refl _ _)

/-- Asking a peer to fence changes no register but the counters. -/
theorem askFence_rows (k : Nat) (h : k ∉ counterRows) : State.askFence_foot.row k = false :=
  Foot.row_of 700 (by decide) (by decide +kernel) (by decide +kernel) h

/-- Settled fences leave an engine what a word boundary leaves it, and the rest as it was. -/
theorem FencesSettled.frame {s u t : State} (h : FencesSettled s u) (asked : Follows State.askFence_foot u t) :
    (∀ g : Nat, g < 96 → (s.eng g).kept (t.eng g) (s.postedOut fun src => src == .store g)) ∧ sameFields counterRows s t ∧ sameBytes s t := by
  obtain ⟨lnk, mem, regs, eng⟩ := h
  refine ⟨fun g hg => ?_, fun f hf => ?_, fun a => ?_⟩
  · rw [asked.engs_eq rfl]; exact eng g hg
  · rw [asked.get f (askFence_rows _ hf)]; unfold State.get; rw [regs]
  · rw [asked.bytes_eq rfl]; unfold State.byte; rw [mem]

section Fence

variable {s : State} {g : Nat} (h : s.issues g .plain) (fault : (s.eng g).postedFault = none) (noLink : s.lnk.fences = [])
  (others : ∀ k : Nat, (s.eng k).wait ≠ some .fence ∧ s.engBoundary k = s)
include h fault

/-- A FENCE at issue: it waits while a posted store of its engine is on its way. -/
theorem State.engFenceIssue_eq : s.engFenceIssue g =
    (if s.postedOut (fun src => src == .store g) = true then s.waitingOn g .fence else s.engRetire g false (s.eng g).r []).settleFences := by
  unfold State.engFenceIssue
  by_cases out : s.postedOut (fun src => src == .store g) = true
  · rw [if_pos out, State.engIssue_wait (after := id) h h.2.2.2 rfl (by rw [fault, out]; rfl)]; rfl
  · rw [if_neg out, State.engIssue_retire (after := id) h h.2.2.2 rfl (by rw [fault, Bool.of_not_eq_true out]; rfl)]; rfl

include noLink others

/-- A FENCE with no posted store on its way retires at once. -/
theorem State.fence_retires (hg : g < 96) (out : s.postedOut (fun src => src == .store g) = false) :
    ((s.engFenceIssue g).eng g).wait = none ∧ sameRegs s (s.engFenceIssue g) g ∧ sameVecs s (s.engFenceIssue g) g ∧ wordFrame s (s.engFenceIssue g) g := by
  have foot := s.engRetire_is g false (s.eng g).r []
  have noWait := State.engRetire_waits (s.eng g).r (State.issues_wait h) fun k => (others k).1
  have regs := sameRegs_engRetire s g (r := (s.eng g).r) rfl
  have vecs := sameVecs_engRetire s g (r := (s.eng g).r) rfl
  have wait := State.engRetire_wait (s.eng g).r (State.issues_wait h)
  have frame := wordFrame_plain s g
  have ne (k : Nat) (e : k % 96 ≠ g % 96) := s.engRetire_ne g false (s.eng g).r [] k e
  rw [State.engFenceIssue_eq h fault, out, if_neg Bool.false_ne_true]
  generalize s.engRetire g false (s.eng g).r [] = v at *
  obtain ⟨u, settled, asked⟩ := v.settleFences_idle (by rw [foot.lnk rfl]; exact noLink) fun k _ w => absurd w (noWait k)
  obtain ⟨eng, fields, bytes⟩ := settled.frame asked
  generalize v.settleFences = t at *
  obtain ⟨⟨-, fields'⟩, special⟩ := frame
  obtain ⟨⟨-, endWait, -⟩, alike, -⟩ := eng g hg
  obtain ⟨w, v', mode, estat, epc, ecause, eaddr, ien, fpctrl, -, scr⟩ := alike
  refine ⟨endWait.trans wait, fun k => ?_, fun k => ?_, ⟨fun k e => ?_, fun f hf => (fields f hf).trans (fields' f hf)⟩, fun al => ⟨fun a => ?_, ?_⟩⟩
  · rw [← regs k]; unfold EngRegs.get; rw [w]
  · rw [← vecs k]; unfold EngRegs.vec; rw [v']
  · have lt : k % 96 < 96 := Nat.mod_lt _ (by decide)
    have mod (x : State) : x.eng k = x.eng (k % 96) := State.eng_mod x (Nat.mod_mod k 96).symm
    have fixed : (s.eng (k % 96)).settled (s.postedOut fun src => src == .store (k % 96)) = s.eng (k % 96) := by
      rw [← State.engBoundary_eng, (others _).2]
    have same := ne (k % 96) (by rwa [Nat.mod_mod])
    rw [mod t, mod s, ← same]
    refine (eng _ lt).2.2 ?_
    rw [same, State.postedOut_lnk (foot.lnk rfl)]
    exact fixed
  · exact (bytes a).trans ((special al).1 a)
  · obtain ⟨mode', estat', epc', ecause', eaddr', ien', fpctrl', scr'⟩ := (special al).2
    exact ⟨mode.trans mode', estat.trans estat', epc.trans epc', ecause.trans ecause', eaddr.trans eaddr', ien.trans ien', fpctrl.trans fpctrl',
      scr.trans scr'⟩

/-- A FENCE waits while a posted store of its engine is on its way. -/
theorem State.fence_waits (hg : g < 96) (out : s.postedOut (fun src => src == .store g) = true) :
    ((s.engFenceIssue g).eng g).wait = some .fence ∧ ((s.engFenceIssue g).eng g).state = .waiting ∧ sameRegs s (s.engFenceIssue g) g ∧
      sameBytes s (s.engFenceIssue g) := by
  rw [State.engFenceIssue_eq h fault, if_pos out]
  have mine : (s.waitingOn g .fence).eng g = { s.eng g with wait := some .fence, state := .waiting } := State.eng_updEng _ _ _
  obtain ⟨u, settled, asked⟩ := (s.waitingOn g .fence).settleFences_idle noLink fun k hk w => by
    by_cases e : k = g
    · subst e; rw [mine]; exact ⟨fault, out⟩
    · have ne : k % 96 ≠ g % 96 := by rwa [Nat.mod_eq_of_lt hk, Nat.mod_eq_of_lt hg]
      have same : (s.waitingOn g .fence).eng k = s.eng k := State.eng_updEng_ne _ _ _ _ ne
      rw [same] at w
      exact absurd w (others k).1
  obtain ⟨eng, -, bytes⟩ := settled.frame asked
  have kept := (eng g hg).2.2 (Engine.settled_waiting _ (by rw [mine]; exact nofun))
  rw [kept, mine]
  exact ⟨rfl, rfl, fun k => by rw [kept, mine], fun a => (bytes a).trans rfl⟩

end Fence

/-- Outcomes that go on to the same state. -/
theorem next_congr {t u : State} (e : t = u) : (.next t : Out) = .next u := congrArg Host.Outcome.next e

/-- Settles O12, by what the issue of each waiting word leaves: the engine waits and nothing else changes, or it retires. -/
theorem waitsAndMessages : Obligations.WaitsAndMessages := by
  unfold Obligations.WaitsAndMessages
  refine ⟨fun s g d a b size off func ecc h => ?_, fun s g d a b arg h => ⟨fun ha small up open_ => ⟨fun room idle => ?_, fun full => ?_⟩,
    fun ha small up held => ?_, fun hd => ⟨fun m rest head nobody => ?_, fun empty wait => ?_, fun empty nowait => ?_⟩⟩,
    fun s g d a b arg => ⟨fun h => ?_, fun wait alone power ready => ?_, fun wait noLine empty => ?_⟩,
    fun s g d a b arg h fault noLink others => ⟨fun out => ?_, fun out => ?_⟩⟩
  · intro x clean addr n task
    refine ⟨fun small al => ⟨next_congr ?_, next_congr ?_, next_congr ?_⟩, fun hd al => ⟨next_congr ?_, next_congr ?_⟩,
      fun hd hb ne dev => ?_⟩
    · exact State.engLoad_device h task clean small al
    · exact State.engLoad_device h task clean small al
    · exact State.engStore_device h task small al
    · exact State.engVmem_device (load := true) h task clean hd al
    · exact State.engVmem_device (load := false) (ecc := []) h task rfl hd al
    · have ne' : d.val ≠ b.val := fun e => ne (Fin.ext e)
      refine ⟨fun i hi below at_i al => next_congr ?_, fun all => ?_⟩
      · have lane := gatherLane_eq hi below at_i
        exact State.engGather_lane h task clean hd hb ne' dev (by rw [lane]; exact hi) (by rw [lane]; exact al)
      · have done := State.engGather_done (a := a.val) h task clean hd hb ne' dev (gatherLane_done all)
        have wait := State.issues_wait h
        exact ⟨_, next_congr done, (State.engRetire_wait _ wait).trans wait.symm, sameRegs_engRetire _ _ rfl, sameVecs_engRetire _ _ rfl,
          wordFrame_retire _ _ _ _ ⟨rfl, rfl, rfl, rfl, rfl, rfl, rfl, rfl⟩⟩
  · have sends := (State.engMsend_up h ha small up).trans (if_pos ⟨open_, room⟩)
    exact ⟨_, next_congr sends, State.msend_delivered h small _ idle rfl⟩
  · exact next_congr ((State.engMsend_up h ha small up).trans (if_neg fun c => absurd c.2 (Nat.not_lt.mpr full)))
  · exact next_congr ((State.engMsend_up h ha small up).trans (if_neg fun c => Bool.false_ne_true (c.1.symm.trans held)))
  · refine ⟨_, next_congr (State.engMrecv_takes h hd head nobody), ?_⟩
    have regs := sameRegs_engRetire s g.val (r := (s.eng g.val).r.putVec d.val (mboxVector m)) rfl
    have frame := wordFrame_retire s g.val false ((s.eng g.val).r.putVec d.val (mboxVector m)) ⟨rfl, rfl, rfl, rfl, rfl, rfl, rfl, rfl⟩
    refine ⟨fun k hk => ?_, ?_, fun k => ?_, wordFrame_updEng _ rfl frame⟩
    · rw [State.eng_updEng]; exact wroteVec_engRetire s g.val hd _ k hk
    · rw [State.eng_updEng]
    · rw [State.eng_updEng]; exact regs k
  · exact next_congr (State.engMrecv_waits h hd empty wait)
  · exact ⟨_, next_congr (State.engMrecv_nowait h hd empty nowait), wroteVec_engRetire s g.val hd _, sameRegs_engRetire _ _ rfl,
      wordFrame_retire _ _ _ _ ⟨rfl, rfl, rfl, rfl, rfl, rfl, rfl, rfl⟩⟩
  · exact next_congr (State.engIssue_wait h h.2.2.2 rfl rfl)
  · have wakes : (((s.eng g.val).wait == some .wfi) && s.engPowered g.val && (s.lineReady g.val || !(s.eng g.val).mbox.isEmpty)) = true := by
      rcases ready with r | r <;> simp [wait, power, r]
    exact ⟨_, next_congr (if_pos wakes), State.engRetire_ends_wait _ alone, State.engRetire_pc alone, sameRegs_engRetire _ _ rfl,
      sameVecs_engRetire _ _ rfl, wordFrame_plain s g.val⟩
  · have sleeps : (((s.eng g.val).wait == some .wfi) && s.engPowered g.val && (s.lineReady g.val || !(s.eng g.val).mbox.isEmpty)) ≠ true := by
      simp [noLine, empty]
    exact next_congr (if_neg sleeps)
  · exact ⟨_, rfl, State.fence_retires h fault noLink others g.isLt out⟩
  · exact ⟨_, rfl, State.fence_waits h fault noLink others g.isLt out⟩

end Sys2Proof.Machine
end

section
/-! Window and cycle boundaries: the tick that a boundary brings mesh time to, what stays of it through the work that follows, and the claim. -/

namespace Sys2Proof.Machine

open Sys2Proof

/-! ### The next multiple (R24) -/

/-- The boundary that is due: a multiple of the span, not before now, after the last that was acted on. -/
theorem nextMultiple_spec (now last : Nat) {span : Nat} (pos : 0 < span) :
    nextMultiple now last span % span = 0 ∧ last < nextMultiple now last span ∧ now ≤ nextMultiple now last span := by
  have up : now ≤ (now + span - 1) / span * span := by
    have := Nat.div_add_mod (now + span - 1) span
    have := Nat.mod_lt (now + span - 1) pos
    rw [Nat.mul_comm]; omega
  have after : last < (last / span + 1) * span := Nat.lt_mul_of_div_lt (Nat.lt_succ_self _) pos
  unfold nextMultiple
  dsimp only
  split
  · exact ⟨Nat.mul_mod_left _ _, after, by omega⟩
  · exact ⟨Nat.mul_mod_left _ _, by omega, up⟩

/-! ### The window boundary -/

/-- What a window boundary may change once its tick is kept and a waiting commit is no longer busy. -/
def windowRest : Foot := ⟨0x4443920, 0xe808800000000000000004000000000000080000000210110018001ffc1400b100e000000400001000100000000000000000000000000000001000000000004000080⟩

/-- A slew step moves no mesh time (R178). -/
theorem State.slewSettle_clk (s : State) :
    s.slewSettle.clk.mesh = s.clk.mesh ∧ s.slewSettle.clk.cycleAt = s.clk.cycleAt := by
  unfold State.slewSettle
  dsimp only
  split
  · exact ⟨rfl, rfl⟩
  · rw [(State.shiftOffsets_follows (Foot.le_refl _) (Follows.refl _ _)).clk rfl]
    exact ⟨rfl, rfl⟩

/-- A global commit that waits is no longer busy, and does its work from there on (R33). -/
theorem State.globalCommit_is {s : State} (on : s.on R.HUB_GCOMMIT_busy = true) :
    Follows windowRest (s.set R.HUB_GCOMMIT_busy 0) s.globalCommit := by
  have le : Foot.le windowRest windowRest := Foot.le_refl _
  unfold State.globalCommit
  rw [on, Bool.not_true, if_neg Bool.false_ne_true]
  extract_lets tiles start picked beams image nbrs
  have hpicked : Follows windowRest start picked := Follows.forBits (fun t u h =>
    have cleared := State.set_follows 340 (f := R.TILE_COMMIT_gc_pending t) (v := 0) le h
    Follows.ite (State.tileCommitNow_follows (le.sub rfl) cleared) (State.setBit_follows 7 le cleared)) (Follows.refl _ _)
  have hbeams : Follows windowRest start beams := Follows.ite (State.bfCommitNow_follows (le.sub rfl) hpicked) hpicked
  have himage : Follows windowRest start image := Follows.ite (State.xngCommit_follows (le.sub rfl) hbeams) hbeams
  have hnbrs : Follows windowRest start nbrs := Follows.ite (State.nbrCommit_follows (le.sub rfl) himage) himage
  exact State.fire_follows (le.sub rfl) hnbrs

/-- At a window boundary no global commit stays busy, and mesh time stands as it did. -/
theorem State.globalCommit_keeps (s : State) : s.globalCommit.get R.HUB_GCOMMIT_busy = 0 ∧ s.globalCommit.clk = s.clk := by
  by_cases on : s.on R.HUB_GCOMMIT_busy = true
  · have h := State.globalCommit_is on
    exact ⟨(h.get _ rfl).trans (State.get_set_same _ _ _), h.clk rfl⟩
  · have zero : s.get R.HUB_GCOMMIT_busy = 0 := by simpa [State.on] using on
    have e : s.globalCommit = s := by unfold State.globalCommit; exact if_pos (by simpa using on)
    rw [e]
    exact ⟨zero, rfl⟩

/-- The window boundary: mesh time stands at it, and it is kept as the last one (R24). -/
theorem State.windowBoundary_spec {s : State} (codes : List (Nat × Nat × Int × Int)) (up : s.hubUp = true) :
    (s.windowBoundary codes).clk.windowAt = nextMultiple s.now s.clk.windowAt windowTicks ∧
      (s.windowBoundary codes).clk.mesh = max s.now (nextMultiple s.now s.clk.windowAt windowTicks) ∧
      (s.windowBoundary codes).clk.cycleAt = s.clk.cycleAt ∧ (s.windowBoundary codes).get R.HUB_GCOMMIT_busy = 0 := by
  have le : Foot.le windowRest windowRest := Foot.le_refl _
  unfold State.windowBoundary
  rw [up, Bool.not_true, if_neg Bool.false_ne_true]
  extract_lets b voted clk kept sampled governed
  have hkept : kept.clk.windowAt = b ∧ kept.clk.mesh = max s.now b ∧ kept.clk.cycleAt = s.clk.cycleAt := by
    have votes : voted.clk = (s.reach b).slewSettle.clk := (State.refreshVotes_follows (Foot.le_refl _) (Follows.refl _ _)).clk rfl
    obtain ⟨mesh, cycle⟩ := (s.reach b).slewSettle_clk
    exact ⟨rfl, (congrArg Clk.mesh votes).trans mesh, (congrArg Clk.cycleAt votes).trans cycle⟩
  have hsampled : Follows windowRest kept sampled := Follows.ite (State.sampleModes_follows (le.sub rfl) (Follows.refl _ _)) (Follows.refl _ _)
  have hyarn : Follows windowRest kept (sampled.yarn 32) := State.yarn_follows (le.sub rfl) hsampled
  have rest : Follows windowRest (sampled.yarn 32).globalCommit (forAll 8 (fun t s => s.tensionWindow t codes) governed) :=
    Follows.forAll (fun t u h => State.tensionWindow_follows (le.sub rfl) h)
      (State.govern_follows (le.sub rfl) (State.selSwitch_follows (le.sub rfl) (State.slotsLive_follows (le.sub rfl) (Follows.refl _ _))))
  obtain ⟨busy, commit⟩ := (sampled.yarn 32).globalCommit_keeps
  rw [rest.clk rfl, rest.get _ rfl, commit, hyarn.clk rfl]
  exact ⟨hkept.1, hkept.2.1, hkept.2.2, busy⟩

/-! ### The cycle boundary -/

/-- Votes that no longer stand go; what the cycle's modes are stays. -/
theorem State.pruneVotes_modes (s : State) :
    s.pruneVotes.clk = s.clk ∧ s.pruneVotes.xng.hostSched = s.xng.hostSched ∧ s.pruneVotes.xng.hostTime = s.xng.hostTime := by
  have h (t : State) : Follows State.refreshVotes_foot t t.refreshVotes := State.refreshVotes_follows (Foot.le_refl _) (Follows.refl _ _)
  unfold State.pruneVotes
  rw [(h _).clk rfl, (h _).xng rfl]
  exact ⟨rfl, rfl, rfl⟩

/-- A committed image that becomes live changes none of the cycle's modes. -/
theorem State.imageSwitch_modes (s : State) :
    s.imageSwitch.clk = s.clk ∧ s.imageSwitch.xng.hostSched = s.xng.hostSched ∧ s.imageSwitch.xng.hostTime = s.xng.hostTime := by
  unfold State.imageSwitch
  dsimp only
  split
  · exact ⟨rfl, rfl, rfl⟩
  · have fired (u : State) : (u.fire 71).pruneVotes.clk = u.clk ∧ (u.fire 71).pruneVotes.xng.hostSched = u.xng.hostSched ∧
        (u.fire 71).pruneVotes.xng.hostTime = u.xng.hostTime := by
      obtain ⟨clk, sched, time⟩ := (u.fire 71).pruneVotes_modes
      rw [clk, sched, time, (u.fire_is 71).clk rfl, (u.fire_is 71).xng rfl]
      exact ⟨rfl, rfl, rfl⟩
    exact fired _

/-- Host time applies from the boundary on without moving mesh time (R180). -/
theorem State.hostTimeApply_clk (s : State) :
    s.hostTimeApply.clk.mesh = s.clk.mesh ∧ s.hostTimeApply.clk.cycleAt = s.clk.cycleAt ∧ s.hostTimeApply.clk.windowAt = s.clk.windowAt := by
  have slew (v : Int) : (s.setSlew v).clk.mesh = s.clk.mesh ∧ (s.setSlew v).clk.cycleAt = s.clk.cycleAt ∧
      (s.setSlew v).clk.windowAt = s.clk.windowAt := by
    unfold State.setSlew
    dsimp only
    split <;> exact ⟨rfl, rfl, rfl⟩
  unfold State.hostTimeApply
  dsimp only
  split
  · exact ⟨rfl, rfl, rfl⟩
  · split
    · exact slew _
    · exact slew _

/-- What beacons and the cycle yarn may change. -/
def cycleRest : Foot := ⟨0x4240000, State.sendBeacons_foot.rows⟩

/-- The cycle boundary: mesh time stands at it, it is kept as the last one, and the sampled modes are in force (R24, R28). -/
theorem State.cycleBoundary_spec {s : State} (up : s.hubUp = true) :
    s.cycleBoundary.clk.cycleAt = nextMultiple s.now s.clk.cycleAt cycleTicks ∧
      s.cycleBoundary.clk.mesh = max s.now (nextMultiple s.now s.clk.cycleAt cycleTicks) ∧ s.cycleBoundary.clk.windowAt = s.clk.windowAt ∧
      s.cycleBoundary.xng.hostSched = s.xng.sampledSched ∧ s.cycleBoundary.xng.hostTime = s.xng.sampledTime := by
  have le : Foot.le cycleRest cycleRest := Foot.le_refl _
  unfold State.cycleBoundary
  rw [up, Bool.not_true, if_neg Bool.false_ne_true]
  extract_lets b reached clk kept xng modes applied
  have func : Follows State.refreshFunc_foot modes modes.refreshFunc := State.refreshFunc_follows (Foot.le_refl _) (Follows.refl _ _)
  have image := modes.refreshFunc.imageSwitch_modes
  have votes := modes.refreshFunc.imageSwitch.pruneVotes_modes
  obtain ⟨mesh, cycle, window⟩ := modes.refreshFunc.imageSwitch.pruneVotes.hostTimeApply_clk
  have time : Follows State.hostTimeApply_foot modes.refreshFunc.imageSwitch.pruneVotes applied :=
    State.hostTimeApply_follows (Foot.le_refl _) (Follows.refl _ _)
  have rest : Follows cycleRest applied ((if applied.on R.PNT_CTRL_en then applied.sendBeacons else applied).yarn 33) :=
    State.yarn_follows (le.sub rfl) (Follows.ite (State.sendBeacons_follows (le.sub rfl) (Follows.refl _ _)) (Follows.refl _ _))
  rw [votes.1, image.1, func.clk rfl] at mesh cycle window
  rw [rest.clk rfl, rest.xng rfl, time.xng rfl, votes.2.1, votes.2.2, image.2.1, image.2.2, func.xng rfl]
  exact ⟨cycle, mesh, window, rfl, rfl⟩

/-- Settles O22, by the boundary that is due and by what the work at it leaves of mesh time. -/
theorem meshTimeBoundaries : Obligations.MeshTimeBoundaries := by
  unfold Obligations.MeshTimeBoundaries
  refine ⟨fun s codes up => ⟨⟨_, rfl, ?_⟩, ⟨_, rfl, ?_⟩⟩, fun s count up locked => ?_⟩
  · obtain ⟨multiple, after, reached⟩ := nextMultiple_spec s.now s.clk.windowAt (span := windowTicks) (by decide)
    obtain ⟨window, mesh, cycle, busy⟩ := State.windowBoundary_spec codes up
    have foot : Follows State.windowBoundary_foot s (s.windowBoundary codes) := State.windowBoundary_follows (Foot.le_refl _) (Follows.refl _ _)
    rw [window, mesh, max_eq_right reached]
    exact ⟨multiple, after, reached, rfl, busy, cycle, foot.engs_eq rfl, foot.bytes_eq rfl⟩
  · obtain ⟨multiple, after, reached⟩ := nextMultiple_spec s.now s.clk.cycleAt (span := cycleTicks) (by decide)
    obtain ⟨cycle, mesh, window, sched, time⟩ := State.cycleBoundary_spec up
    have foot : Follows State.cycleBoundary_foot s s.cycleBoundary := State.cycleBoundary_follows (Foot.le_refl _) (Follows.refl _ _)
    rw [cycle, mesh, max_eq_right reached]
    exact ⟨multiple, after, reached, rfl, sched, time, window, foot.engs_eq rfl, foot.bytes_eq rfl⟩
  · have both : (s.hubUp && s.pwr.pllLocked) = true := by rw [up, locked]; rfl
    have scale : count * 2 ^ 17 = count * 2 ^ 32 / 32768 := by omega
    refine next_congr ?_
    unfold State.calibrateKeeper
    rw [if_pos both, scale]

end Sys2Proof.Machine
end

section
/-! Completions of the module's own requests and the host's late faults: what goes out on a link with nothing under way, and the claim. -/

namespace Sys2Proof.Machine

open Sys2Proof

/-! ### One link among the others -/

@[simp] theorem State.link_updLink (s : State) (l : Nat) (f : Link → Link) : (s.updLink l f).link l = f (s.link l) := vget_vset_same _ _ _

theorem State.link_updLink_ne (s : State) (l k : Nat) (f : Link → Link) (ne : k % 5 ≠ l % 5) : (s.updLink l f).link k = s.link k :=
  vget_vset_ne _ _ _ _ ne

theorem State.pmcAt_lnk (s : State) (ev inst n : Nat) (pc : Option (Nat × Nat)) : (s.pmcAt ev inst n pc).lnk = s.lnk :=
  (s.pmcAt_is ev inst n pc).lnk rfl

@[simp] theorem State.pmcAt_link (s : State) (ev inst n : Nat) (pc : Option (Nat × Nat)) (l : Nat) : (s.pmcAt ev inst n pc).link l = s.link l := by
  unfold State.link; rw [State.pmcAt_lnk]

/-! ### A completion on a link with nothing under way (R344, R345, R349) -/

/-- A link whose only packet under way is a completion sends it at once. -/
theorem Link.pump_completion {x : Link} {p : OutPacket} (h0 : x.vc0 = []) (h1 : x.vc1 = []) (h2 : x.vc2 = [p]) (can : x.canSend p = true) :
    x.pump = { x.sent p with vc0 := [], vc1 := [], vc2 := [] } := by
  unfold Link.pump
  simp only [h0, h1, h2, Link.sendAll, Link.sendRequests, can, if_true]

/-- Where a link sends what it can, its packets under way and its open tags are those of the pump. -/
theorem State.linkPump_sends (s : State) (l : Nat) :
    let y := Link.pump { s.link l with vc1 := (s.link l).vc1.map (OutPacket.stamped s.now) }
    ((s.linkPump l).link l).replay = y.replay ∧ ((s.linkPump l).link l).openTags = y.openTags := by
  unfold State.linkPump
  dsimp only
  split
  · simp
  · simp

/-- A completion for a link with nothing under way goes out at once. -/
theorem State.linkSend_completion {s : State} {l : Nat} {p : OutPacket} (h0 : (s.link l).vc0 = []) (h1 : (s.link l).vc1 = [])
    (h2 : (s.link l).vc2 = []) (hp : p.vc = 2) (can : (s.link l).canSend p = true) :
    ((s.linkSend l p).link l).replay = ((s.link l).sent p).replay ∧ ((s.linkSend l p).link l).openTags = (s.link l).openTags := by
  have active : (s.link l).state = .active := by
    simp only [Link.canSend, Bool.and_eq_true, beq_iff_eq] at can; exact can.1.1
  have queued : ((s.link l).queue p).wakes s.now = { s.link l with vc2 := [p] } := by
    unfold Link.queue
    rw [hp, h2]
    unfold Link.wakes
    simp [active]
  have pumped : Link.pump { s.link l with vc1 := [], vc2 := [p] } = { (s.link l).sent p with vc0 := [], vc1 := [], vc2 := [] } :=
    Link.pump_completion h0 rfl rfl can
  obtain ⟨replay, tags⟩ := (s.updLink l fun x => (x.queue p).wakes s.now).linkPump_sends l
  rw [State.link_updLink, queued, h1, List.map_nil, pumped] at replay tags
  exact ⟨replay, tags⟩

theorem answerPacket_vc (k : Nat) (st : Status) (data : List Byte) : (answerPacket k st data).vc = 2 := by
  unfold answerPacket
  split
  · rfl
  · rfl

theorem State.settleCancels_nil {s : State} (h : s.lnk.cancels = []) : s.settleCancels = s := by
  unfold State.settleCancels
  dsimp only
  rw [h]
  rfl

/-- A packet that a link sends changes nothing of the host interface but the links. -/
theorem State.linkSend_lnk (s : State) (l : Nat) (p : OutPacket) : (s.linkSend l p).lnk = { s.lnk with links := (s.linkSend l p).lnk.links } := by
  unfold State.linkSend State.linkPump
  dsimp only
  split
  · rfl
  · rw [State.pmcAt_lnk]; rfl

theorem State.linkSend_ne (s : State) {l k : Nat} (p : OutPacket) (ne : k % 5 ≠ l % 5) : (s.linkSend l p).link k = s.link k := by
  unfold State.linkSend State.linkPump
  dsimp only
  split
  · rw [State.link_updLink_ne _ _ _ _ ne, State.link_updLink_ne _ _ _ _ ne]
  · rw [State.pmcAt_link, State.link_updLink_ne _ _ _ _ ne, State.link_updLink_ne _ _ _ _ ne, State.link_updLink_ne _ _ _ _ ne]

theorem linkSend_rows (k : Nat) (h : k ∉ counterRows) : State.linkSend_foot.row k = false :=
  Foot.row_of 700 (by decide) (by decide +kernel) (by decide +kernel) h

/-- The request with the only open tag of a link ends: its completion goes out at once, and the link has no open tag left. -/
theorem State.linkDone_only {s : State} {l k n : Nat} {st : Status} {data : List Byte} (none_left : s.lnk.cancels = [])
    (only : (s.link l).openTags = [(k, n)]) (h0 : (s.link l).vc0 = []) (h1 : (s.link l).vc1 = []) (h2 : (s.link l).vc2 = [])
    (can : (s.link l).canSend (answerPacket k st data) = true) :
    ((s.linkDone l k n st data).link l).replay = ((s.link l).sent (answerPacket k st data)).replay ∧
      ((s.linkDone l k n st data).link l).openTags = [] ∧ (∀ m : Nat, m % 5 ≠ l % 5 → (s.linkDone l k n st data).link m = s.link m) ∧
      sameFields counterRows s (s.linkDone l k n st data) ∧ sameBytes s (s.linkDone l k n st data) := by
  have live : (s.link l).openTags.contains (k, n) = true := by simp [only]
  unfold State.linkDone
  dsimp only
  rw [if_pos live]
  generalize hu : s.updLink l _ = u
  have link : u.link l = { s.link l with
      openTags := (s.link l).openTags.filter fun (t : Nat × Nat) => t != (k, n)
      once := (s.link l).once.map (onceEnd n st data ((s.link l).openTags.contains (k, n))) } := by rw [← hu, State.link_updLink]
  rw [State.settleCancels_nil (by rw [State.linkSend_lnk, ← hu]; exact none_left)]
  have foot : Follows State.linkSend_foot s (u.linkSend l (answerPacket k st data)) :=
    State.linkSend_follows (Foot.le_refl _) (by rw [← hu]; exact State.updLink_follows (Foot.le_refl _ |>.sub rfl) (Follows.refl _ _))
  obtain ⟨replay, tags⟩ := State.linkSend_completion (s := u) (l := l) (by rw [link]; exact h0) (by rw [link]; exact h1) (by rw [link]; exact h2)
    (answerPacket_vc k st data) (by rw [link]; exact can)
  refine ⟨?_, ?_, fun m ne => ?_, fun f hf => foot.get f (linkSend_rows _ hf), fun a => foot.bytes_eq rfl a⟩
  · rw [replay, link]; rfl
  · rw [tags, link, only]; simp
  · rw [State.linkSend_ne _ _ ne, ← hu, State.link_updLink_ne _ _ _ _ ne]

/-- A completion ends the own request with its tag, and its source hears of it. -/
theorem State.ownEnd_some {s : State} {l tag r : Nat} {src : AccSrc} (st : Status) (data : List Byte) (nf : src ≠ .fence)
    (h : (s.link l).ownReqs.find? (fun (r : Nat × AccSrc) => r.1 == tag) = some (r, src)) :
    s.ownEnd l tag st data =
      (s.updLink l fun x => { x with ownReqs := x.ownReqs.filter fun (r : Nat × AccSrc) => r.1 != tag }).finish src st 0 data := by
  unfold State.ownEnd
  rw [h]
  cases src with
  | fence => exact absurd rfl nf
  | direct => rfl
  | link => rfl
  | posted => rfl
  | engine => rfl
  | store => rfl

/-! ### Late faults (R359) -/

/-- What a late fault writes into entry w of the ring, after state v. -/
def State.lateEntry (v : State) (w dir l seq : Nat) (st : Status) (addr now : Nat) : State :=
  ((((((v.set (R.LNK_LATE_FAULT0_dir w) dir).set (R.LNK_LATE_FAULT0_link w) l).set (R.LNK_LATE_FAULT0_status w) st.code).set
    (R.LNK_LATE_FAULT0_seq w) seq).set (R.LNK_LATE_FAULT1_addr w) addr).set (R.LNK_LATE_FAULT2_time w) now).set R.LNK_LATE_PTR_wr ((w + 1) % 32)

theorem State.fire_get (s : State) (n : Nat) (f : Field) (h : f.row ≠ 72) : (s.fire n).get f = s.get f := by
  unfold State.fire
  split
  · exact State.get_set_row _ _ _ _ h
  · rfl

theorem State.lateEntry_get (v : State) (w dir l seq : Nat) (st : Status) (addr now : Nat) :
    let t := (v.lateEntry w dir l seq st addr now).fire 480
    t.get (R.LNK_LATE_FAULT0_dir w) = dir % 2 ∧ t.get (R.LNK_LATE_FAULT0_link w) = l % 8 ∧ t.get (R.LNK_LATE_FAULT0_status w) = st.code % 16 ∧
      t.get (R.LNK_LATE_FAULT0_seq w) = seq % 2 ^ 16 ∧ t.get (R.LNK_LATE_FAULT1_addr w) = addr % 2 ^ 32 ∧
      t.get (R.LNK_LATE_FAULT2_time w) = now % 2 ^ 32 ∧ t.get R.LNK_LATE_PTR_wr = (w + 1) % 32 := by
  unfold State.lateEntry
  simp [State.fire_get, State.get_set_row]
  omega

/-- A late fault is written into the entry that LNK_LATE_PTR names, and source 480 fires; no link and no rail changes. -/
theorem State.logLate_is (s : State) (dir l seq : Nat) (st : Status) (addr : Nat) :
    ∃ v : State, s.logLate dir l seq st addr = (v.lateEntry (s.get R.LNK_LATE_PTR_wr % 32) dir l seq st addr s.clk.mesh).fire 480 ∧
      v.pwr = s.pwr ∧ v.lnk.links = s.lnk.links := by
  unfold State.logLate
  extract_lets w lost counted lnk waited named entry
  have hcounted : counted.clk = s.clk ∧ counted.pwr = s.pwr ∧ counted.lnk = s.lnk := by
    unfold counted; split <;> exact ⟨rfl, rfl, rfl⟩
  obtain ⟨clk, pwr, links⟩ := hcounted
  refine ⟨waited, ?_, pwr, (congrArg Lnk.links links : counted.lnk.links = s.lnk.links)⟩
  have now : named.now = s.clk.mesh := congrArg Clk.mesh clk
  unfold entry
  rw [now]
  rfl

/-- Settles O51, by the own request that a completion ends and by the entry that a late fault fills. -/
theorem completionPackets : Obligations.CompletionPackets := by
  unfold Obligations.CompletionPackets
  intro s l tag st data seq addr x req left hears
  have ends (d : List Byte) : (if s.hears l.val then s.ownEnd l.val tag.val st d else s) = s.ownEnd l.val tag.val st d := if_pos hears
  have cpl : exec (.cpl l tag st) s = .next (s.ownEnd l.val tag.val st []) := next_congr (ends [])
  have cpld : exec (.cpld l tag st data) s = .next (s.ownEnd l.val tag.val st data) := next_congr (ends data)
  unfold Leads
  rw [cpl, cpld]
  refine ⟨fun no => ?_, fun direct => ?_, fun k n link ne none_left only h0 h1 h2 can => ⟨_, rfl, ?_⟩, fun host => ⟨_, rfl, ?_⟩⟩
  · have same (d : List Byte) : s.ownEnd l.val tag.val st d = s := by unfold State.ownEnd; rw [no]
    rw [same, same]; exact ⟨rfl, rfl⟩
  · have told (d : List Byte) := State.ownEnd_some st d (by simp) direct
    rw [told, told]
    have ended := congrArg Link.ownReqs (State.link_updLink s l.val fun x =>
      { x with ownReqs := x.ownReqs.filter fun (r : Nat × AccSrc) => r.1 != tag.val })
    exact ⟨⟨_, rfl, rfl, ended, fun f _ => rfl, fun a => rfl⟩, ⟨_, rfl, rfl, ended, fun f _ => rfl, fun a => rfl⟩⟩
  · rw [State.ownEnd_some st data (by simp) link]
    generalize hu : s.updLink l.val _ = u
    have ne4 : (4 : Nat) % 5 ≠ l.val % 5 := by have := l.isLt; omega
    have four : u.link 4 = s.link 4 := by rw [← hu, State.link_updLink_ne _ _ _ _ ne4]
    have cancels : u.lnk.cancels = [] := by rw [← hu]; exact none_left
    obtain ⟨replay, tags, others, fields, bytes⟩ := State.linkDone_only (s := u) (l := 4) (k := k) (n := n) (st := st) (data := data) cancels
      (by rw [four]; exact only) (by rw [four]; exact h0) (by rw [four]; exact h1) (by rw [four]; exact h2) (by rw [four]; exact can)
    rw [four] at replay
    refine ⟨?_, replay, tags, fun f hf => (fields f hf).trans ?_, fun a => (bytes a).trans ?_⟩
    · exact (congrArg Link.ownReqs ((others l.val ne4.symm).trans (by rw [← hu, State.link_updLink]))).trans rfl
    · rw [← hu]; rfl
    · rw [← hu]; rfl
  · have up : s.hubUp = true := by
      simp only [State.hears, Bool.and_eq_true] at hears; exact hears.1
    have late : s.lateReceive l.val seq.val st addr.toNat = s.logLate 1 4 seq.val st addr.toNat := by
      unfold State.lateReceive
      rw [hears, host]
      rfl
    rw [late]
    have foot : Follows State.logLate_foot s (s.logLate 1 4 seq.val st addr.toNat) := State.logLate_follows (Foot.le_refl _) (Follows.refl _ _)
    obtain ⟨v, e, pwr, links⟩ := s.logLate_is 1 4 seq.val st addr.toNat
    obtain ⟨dir, lnk, status, num, ad, time, wr⟩ := v.lateEntry_get (s.get R.LNK_LATE_PTR_wr % 32) 1 4 seq.val st addr.toNat s.clk.mesh
    have fires := State.fire_is (v.lateEntry (s.get R.LNK_LATE_PTR_wr % 32) 1 4 seq.val st addr.toNat s.clk.mesh) 480
    have code : st.code % 16 = st.code := by cases st <;> rfl
    refine ⟨?_, ?_, ?_, ?_, ?_, ?_, ?_, ?_, fun k _ => ?_, fun a => foot.bytes_eq rfl a⟩
    · rw [e]; exact dir
    · rw [e]; exact lnk
    · rw [e]; exact status.trans code
    · rw [e]; exact num.trans (Nat.mod_eq_of_lt seq.isLt)
    · rw [e]; exact ad.trans (Nat.mod_eq_of_lt addr.isLt)
    · rw [e]; exact time
    · rw [e]; exact wr
    · rw [e]
      have same : v.hubUp = s.hubUp := by unfold State.hubUp State.domUp State.dom; rw [pwr]
      exact State.fire_pends (same.trans up) (.inr (by decide))
    · rw [e]
      unfold State.link
      rw [fires.lnk rfl]
      exact congrArg (fun x => vget x k) links

end Sys2Proof.Machine
end

section
/-! Overloads behind a retraining control lane: the state in which a source of a tile fires and its message waits. -/

namespace Sys2Proof.Machine

open Sys2Proof

/-- The hub and tile 0 are up, the tile receives on element 0, which is unmasked, and its upward control lane 46 retrains (R419). -/
def retrainingReceiver : State :=
  (((State.reset.setDom 0 .up).setDom 1 .up).updTile 0 fun x => { x with radio := .rx, lanesDown := [46] }).set (R.ELEM_STATUS_masked 0) 0

/-- Element 0 of the receiver is not masked and has had no overload, whose limit is −30 dBm, and hub and tile are up. -/
theorem retrainingReceiver_is :
    (retrainingReceiver.tile 0).radio = .rx ∧ retrainingReceiver.get (R.ELEM_STATUS_masked 0) = 0 ∧
      retrainingReceiver.get (R.ELEM_STATUS_rx_ovl 0) = 0 ∧ retrainingReceiver.get (R.ELEM_PDET_CFG_ovl 0) = 120 ∧
      retrainingReceiver.hubUp = true ∧ retrainingReceiver.tileUp 0 = true := by
  decide +kernel

/-- An overload of 0 dBm on element 0: its source waits behind the control lane, so it is not pending. -/
theorem retrainingReceiver_overload : (retrainingReceiver.rxOverload 0 0).pends 330 = false := by
  decide +kernel

/-- Refutes O23: the first overload of an element sets no pending bit while a control lane of its tile retrains, where the source's message waits
at the tile (R419). -/
theorem not_elementsAndLanes : ¬ Obligations.ElementsAndLanes := by
  unfold Obligations.ElementsAndLanes
  rintro ⟨overloads, -⟩
  obtain ⟨radio, mask, first, ovl, hub, tile⟩ := retrainingReceiver_is
  obtain ⟨above, -⟩ := overloads retrainingReceiver 0 0 radio mask
  obtain ⟨t, run, -, fired, -⟩ := above (by rw [show ((0 : Fin 512).val) = 0 from rfl, ovl]; decide)
  have same : retrainingReceiver.rxOverload 0 0 = t := Host.Outcome.next.inj run
  have pending : t.pends 330 = true := fired hub tile first
  rw [← same, retrainingReceiver_overload] at pending
  exact absurd pending Bool.false_ne_true

end Sys2Proof.Machine
end

section
/-! Frames to and from the host: the table of a neighbour's frames, the completion entries, the landing of a received frame, and the claim. -/

namespace Sys2Proof.Machine

open Sys2Proof

/-! ### The table of neighbours -/

@[simp] theorem State.nbr_updNbr (s : State) (n : Nat) (f : NbrSt → NbrSt) : (s.updNbr n f).nbr n = f (s.nbr n) := vget_vset_same _ _ _

@[simp] theorem State.nbr_set (s : State) (f : Field) (v n : Nat) : (s.set f v).nbr n = s.nbr n := rfl

@[simp] theorem State.nbr_postEntry (s : State) (e : RingEntry) (n : Nat) : (s.postEntry e).nbr n = s.nbr n := rfl

/-- A step that leaves the neighbours leaves each of them. -/
theorem State.nbr_is {s t : State} {p : Foot} (h : Follows p s t) (e : p.comp 13 = false) (n : Nat) : t.nbr n = s.nbr n := by
  unfold State.nbr; rw [h.nbrs e]

/-! ### A frame that ends (R168, R171) -/

/-- What a finished frame may change once it has left its table. -/
def tallyRest : Foot := ⟨0x4000000, State.finishFrame_foot.rows⟩

/-- The only frame of a neighbour fails: its table is empty, and its entry goes to the completion ring. -/
theorem State.finishFrame_only {s : State} {n : Nat} {f : TxFrame} (only : (s.nbr n).frames = [f]) (alone : f.twins = []) (reason : Nat) :
    ((s.finishFrame n f.tag .failedRetry reason).nbr n).frames = [] ∧
      (s.finishFrame n f.tag .failedRetry reason).lnk.entries = s.lnk.entries ++ [txEntry n f.tag f.index f.attempts reason .failedRetry] ∧
      (s.finishFrame n f.tag .failedRetry reason).clk = s.clk ∧ sameBytes s (s.finishFrame n f.tag .failedRetry reason) := by
  have foot : Follows State.finishFrame_foot s (s.finishFrame n f.tag .failedRetry reason) :=
    State.finishFrame_follows (Foot.le_refl _) (Follows.refl _ _)
  refine ⟨?_, ?_, foot.clk rfl, fun a => foot.bytes_eq rfl a⟩
  all_goals
    unfold State.finishFrame
    rw [only]
    simp only [List.find?_cons, beq_self_eq_true, if_true, alone, List.foldl_nil]
    generalize hu : s.updNbr n _ = u
    have tally : Follows tallyRest u (((u.set (R.NBR_LIVE_held n) (u.nbr n).frames.length).nbrStat n 11).pmc 0x084 n) :=
      have le : Foot.le tallyRest tallyRest := Foot.le_refl _
      State.pmc_follows (le.sub rfl) (State.nbrStat_follows (le.sub rfl) (State.set_follows 378 le (Follows.refl _ _)))
  · exact (congrArg NbrSt.frames (State.nbr_is tally rfl n)).trans (by rw [← hu]; simp [only])
  · exact congrArg (fun e => e ++ _) ((congrArg Lnk.entries (tally.lnk rfl)).trans (by rw [← hu]; rfl))

/-! ### Deadlines (R170, R171) -/

section Deadline

variable {s : State} {n : Nat} {f : TxFrame} (only : (s.nbr n).frames = [f]) (sent : f.attempts ≠ 0)
  (due : f.lastTxEnd ≤ (s.nbr n).lastRxStart)
include only sent due

theorem State.ackDeadline_only : s.ackDeadline n =
    if s.atLimit n f then s.finishFrame n f.tag .failedRetry 1 else if f.phase = .sent then s.frameToRetry n f.tag else s := by
  unfold State.ackDeadline
  rw [only, List.foldl_cons, List.foldl_nil, if_neg]
  simp [sent, Nat.not_lt.mpr due]

/-- A sent frame with attempts left awaits retry. -/
theorem State.ackDeadline_retry (left : f.attempts ≤ s.get (R.NBR_CFG_retry_limit n)) (phase : f.phase = .sent) :
    s.ackDeadline n = s.updNbr n fun x => { x with frames := x.frames.map fun y => if y.tag = f.tag then { y with phase := .awaitRetry } else y } := by
  have more : s.atLimit n f ≠ true := by unfold State.atLimit; simp; omega
  rw [State.ackDeadline_only only sent due, if_neg more, if_pos phase]
  unfold State.frameToRetry
  simp only [only, List.find?_cons, beq_self_eq_true, if_neg more]

end Deadline

theorem State.rememberTag_frames (s : State) (n tag : Nat) (st : Option (Nat × Nat)) :
    ((s.rememberTag n tag st).nbr n).frames = (s.nbr n).frames := by
  unfold State.rememberTag
  rw [State.nbr_updNbr]

theorem State.ringSize_le (s : State) (n : Nat) : s.ringSize n ≤ 4096 :=
  Nat.pow_le_pow_right (n := 2) (by decide) (Nat.min_le_right _ _)

theorem State.ringTake_bypass (s : State) (n k m : Nat) :
    (s.ringTake n k).cipherBypass m = s.cipherBypass m ∧ (s.ringTake n k).crcBypass m = s.crcBypass m := by
  have same : (s.ringTake n k).nbr m = s.nbr m := rfl
  unfold State.cipherBypass State.crcBypass State.on
  rw [same]
  unfold State.ringTake
  simp [State.get_set_row]

/-- The frame that a descriptor becomes (R168). -/
def freshFrame (d : TxDesc) (index now : Nat) : TxFrame :=
  { tag := d.tag, index := index, cls := d.cls % 8, once := d.once, data := (d.data ++ List.replicate d.len 0).take d.len, horizon := now,
    seq := none, attempts := 0, phase := .fresh, lastTxEnd := 0, twins := [] }

/-! ### Descriptors of the host (R168) -/

section Descriptor

variable {s : State} {n : Nat} {d : TxDesc} (hears : s.hears hostLink = true) (posted : s.ringPosted n ≠ 0) (room : (s.nbr n).frames.length < 64)
  (ahead : d.tag ∉ (s.nbr n).cancelAhead) (plain : d.once = false)
include hears posted room ahead plain

/-- A descriptor for another neighbour or beyond 32,768 bytes is refused. -/
theorem State.txDescriptor_refused (bad : d.nbr ≠ n ∨ 32768 < d.len) :
    s.txDescriptor n d = ((s.ringTake n 1).rememberTag n d.tag (some (Status.denied.code, 0))).postEntry (txEntry n d.tag (s.ringHead n) 0 0 .denied) := by
  have kept : ((s.ringTake n 1).nbr n).cancelAhead = (s.nbr n).cancelAhead := rfl
  have refused : (d.nbr != n || 32768 < d.len) = true := by simpa using bad
  unfold State.txDescriptor
  rw [if_neg (by simp [hears, posted, room])]
  dsimp only
  rw [if_neg (by simpa [kept] using ahead), if_neg (by simp [plain])]
  simp [refused]

/-- A descriptor that is in order becomes a fresh frame. -/
theorem State.txDescriptor_fresh (own : d.nbr = n) (fits : d.len ≤ 32768) (cipher : d.cipherBypass = s.cipherBypass n)
    (crc : d.crcBypass = s.crcBypass n) (read : d.read = .ok) :
    ∃ u : State, s.txDescriptor n d = u.set (R.NBR_LIVE_held n) (u.nbr n).frames.length ∧
      (u.nbr n).frames = (s.nbr n).frames ++ [freshFrame d (s.ringHead n) s.clk.mesh] ∧ ∀ f : Field, u.get f = (s.ringTake n 1).get f := by
  have kept : ((s.ringTake n 1).nbr n).cancelAhead = (s.nbr n).cancelAhead := rfl
  obtain ⟨cipher', crc'⟩ := s.ringTake_bypass n 1 n
  unfold State.txDescriptor
  rw [if_neg (by simp [hears, posted, room])]
  dsimp only
  rw [if_neg (by simpa [kept] using ahead), if_neg (by simp [plain])]
  have inOrder : (d.nbr != n || decide (32768 < d.len) || d.cipherBypass != (s.ringTake n 1).cipherBypass n ||
      d.crcBypass != (s.ringTake n 1).crcBypass n) = false := by simp [own, fits, cipher, crc, cipher', crc']
  rw [if_neg (by rw [inOrder]; exact Bool.false_ne_true), read]
  refine ⟨_, rfl, ?_, fun f => rfl⟩
  rw [State.nbr_updNbr]
  exact congrArg (fun l => l ++ _) ((s.ringTake n 1).rememberTag_frames n d.tag none)

end Descriptor

/-! ### A received frame lands (R16, R18) -/

/-- A choice made along a list keeps what it had or names a member. -/
theorem foldl_picks {α : Type} {f : Option α → α → Option α} (pick : ∀ b x, f b x = b ∨ f b x = some x) (l : List α) (b : Option α) :
    l.foldl f b = b ∨ ∃ x, x ∈ l ∧ l.foldl f b = some x := by
  induction l generalizing b with
  | nil => exact .inl rfl
  | cons x l ih =>
    rw [List.foldl_cons]
    rcases ih (f b x) with e | ⟨y, hy, e⟩
    · rcases pick b x with k | k
      · exact .inl (e.trans k)
      · exact .inr ⟨x, List.mem_cons_self, e.trans k⟩
    · exact .inr ⟨y, List.mem_cons_of_mem _ hy, e⟩

/-- While no frame of a neighbour is verified, none is released. -/
theorem State.releaseFrames_idle {s : State} {n : Nat} (h : ∀ x : Nat × PipeFrame, x ∈ s.rxFramesOf n → x.2.ok = none) (k : Nat) :
    s.releaseFrames n k = s := by
  cases k with
  | zero => rfl
  | succ k =>
    unfold State.releaseFrames
    extract_lets oldest
    have member : oldest = none ∨ ∃ x, x ∈ s.rxFramesOf n ∧ oldest = some x := by
      refine foldl_picks (fun b x => ?_) _ _
      cases b with
      | none => exact .inr rfl
      | some b =>
        by_cases lt : x.2.lead < b.2.lead
        · exact .inr (if_pos lt)
        · exact .inl (if_neg lt)
    rcases member with e | ⟨x, hx, e⟩
    · rw [e]
    · rw [e]
      dsimp only
      rw [h x hx]
      split <;> rfl

theorem State.hostWrite_entries (s : State) (addr : Nat) (data : List Byte) : (s.hostWrite addr data).lnk.entries = s.lnk.entries := by
  unfold State.hostWrite
  refine List.foldlRecOn _ _ (motive := fun t : State => t.lnk.entries = s.lnk.entries) rfl fun t h i _ => ?_
  rw [State.linkSend_lnk]
  exact h

theorem State.fillDescs_entries (s : State) (data : List Byte) (ds : List LandDesc) : (s.fillDescs data ds).lnk.entries = s.lnk.entries := by
  induction ds generalizing s data with
  | nil => rfl
  | cons d ds ih =>
    unfold State.fillDescs
    dsimp only
    rw [ih]
    split
    · rfl
    · exact s.hostWrite_entries _ _

theorem State.backDescs_entries (s : State) (n : Nat) (f : RxFrame) (head i left : Nat) (ds : List LandDesc) :
    (s.backDescs n f head i left ds).lnk.entries = s.lnk.entries := by
  induction ds generalizing s i left with
  | nil => rfl
  | cons d ds ih =>
    unfold State.backDescs
    dsimp only
    rw [ih, State.hostWrite_entries]

/-- A poke of an idle neighbour leaves its received frames. -/
theorem State.nbrPoke_rxQueue (s : State) (n : Nat) : ((s.nbrPoke n).nbr n).rxQueue = (s.nbr n).rxQueue := by
  have sample : ((s.nbrSample n).nbr n).rxQueue = (s.nbr n).rxQueue := by
    unfold State.nbrSample
    split
    · rfl
    · dsimp only
      rw [State.nbr_is (State.refreshFunc_follows (Foot.le_refl _) (Follows.refl _ _)) rfl, State.nbr_updNbr]
  unfold State.nbrPoke
  split
  · rfl
  · rw [State.nbr_is (State.refreshFunc_follows (Foot.le_refl _) (Follows.refl _ _)) rfl,
      State.nbr_is (State.refreshSpent_follows (Foot.le_refl _) (Follows.refl _ _)) rfl, sample]

/-- What the landing of a frame that is not in the pool may change. -/
def landRest : Foot := ⟨0x4202020, State.landFrame_foot.rows⟩

/-- The entry of a received frame that lands in order (Table 12.8). -/
def rxEntry (ring head : Nat) (used : List LandDesc) : RingEntry :=
  { kind := 2, status := Status.ok.code, tag := match used with | d :: _ => d.tag | [] => 0, ring := ring, reason := 0, index := head,
    count := used.length, result := [] }

/-- What a frame that lands in order leaves, before the votes and the neighbour's idle functions are looked at again. -/
def State.landed (s : State) (n : Nat) (f : RxFrame) (rest : List RxFrame) (used : List LandDesc) : State :=
  (((((s.fillDescs f.data used).backDescs n f (s.ringHead (64 + f.cls)) 0 f.data.length used).ringTake (64 + f.cls) used.length).updNbr n
    fun x => { x with rxQueue := rest })).postEntry (rxEntry (64 + f.cls) (s.ringHead (64 + f.cls)) used)

theorem State.landed_spec (s : State) (n : Nat) (f : RxFrame) (rest : List RxFrame) (used : List LandDesc) :
    ((s.landed n f rest used).nbr n).rxQueue = rest ∧
      (s.landed n f rest used).lnk.entries = s.lnk.entries ++ [rxEntry (64 + f.cls) (s.ringHead (64 + f.cls)) used] ∧
      Follows landRest s (s.landed n f rest used) := by
  have le : Foot.le landRest landRest := Foot.le_refl _
  refine ⟨?_, ?_, State.postEntry_follows (le.sub rfl) (State.updNbr_follows (le.sub rfl)
    (State.ringTake_follows (le.sub rfl) (State.backDescs_follows (le.sub rfl) (State.fillDescs_follows (le.sub rfl) (Follows.refl _ _)))))⟩
  · unfold State.landed
    rw [State.nbr_postEntry, State.nbr_updNbr]
  · exact congrArg (fun e => e ++ _) ((State.backDescs_entries _ _ _ _ _ _ _).trans (State.fillDescs_entries _ _ _))

section Landing

variable {s : State} {n : Nat} {g : RxFrame} {rest : List RxFrame} {descs used : List LandDesc} (queue : (s.nbr n).rxQueue = g :: rest)
  (held : g.pool = none) (fill : descsFor g.data.length (descs.take (s.ringPosted (64 + g.cls))) = some used)
  (first : ∀ h : Nat × PipeFrame, h ∈ s.rxFramesOf n → g.lead ≤ h.2.lead)
include queue held fill first

/-- The oldest frame of a neighbour lands. -/
theorem State.landFrame_lands : s.landFrame n descs = ((s.landed n g rest used).refreshVotes).nbrPoke n := by
  have earlier : ((List.range 8).any fun p => (s.pipe p).frames.any fun h => h.rx && h.nbr == n && h.lead < g.lead) = false := by
    rw [List.any_eq_false]
    rintro p hp c
    simp only [List.any_eq_true, Bool.and_eq_true, beq_iff_eq, decide_eq_true_eq] at c
    obtain ⟨h, hh, ⟨rx, nbr⟩, lt⟩ := c
    refine absurd (first (p, h) ?_) (Nat.not_le.mpr lt)
    unfold State.rxFramesOf
    simp only [List.mem_append, List.mem_flatMap, List.mem_map, List.mem_filter]
    exact .inr ⟨p, hp, h, ⟨hh, by simp [rx, nbr]⟩, rfl⟩
  unfold State.landFrame
  rw [queue]
  dsimp only
  rw [fill]
  dsimp only
  rw [earlier, held, if_neg Bool.false_ne_true]
  rfl

end Landing

/-- Settles O33, by what each descriptor, deadline and landing leaves of the neighbour's frames and of the completion entries. -/
theorem frameDescriptors : Obligations.FrameDescriptors := by
  unfold Obligations.FrameDescriptors
  intro s n d f g rest descs used
  refine ⟨fun hears posted room ahead plain => ⟨fun own fits cipher crc read => ⟨_, rfl, ?_⟩, fun bad => ⟨_, rfl, ?_⟩⟩,
    fun only sent due => ⟨fun left phase => ⟨_, rfl, ?_⟩, fun past alone => ⟨_, rfl, ?_⟩⟩, fun only alone => ⟨_, rfl, ?_⟩,
    fun queue held fill first => ⟨_, rfl, ?_⟩⟩
  · have foot : Follows State.txDescriptor_foot s (s.txDescriptor n.val d) := State.txDescriptor_follows (Foot.le_refl _) (Follows.refl _ _)
    obtain ⟨u, e, frames, same⟩ := State.txDescriptor_fresh hears posted room ahead plain own fits cipher crc read
    have small := s.ringSize_le n.val
    have turn : (s.ringHead n.val + 1) % s.ringSize n.val < s.ringSize n.val := Nat.mod_lt _ (Nat.two_pow_pos _)
    refine ⟨⟨freshFrame d (s.ringHead n.val) s.clk.mesh, ?_, rfl, rfl, rfl, rfl, rfl, rfl, rfl⟩, ?_, ?_, fun a => foot.bytes_eq rfl a⟩
    · rw [e, State.nbr_set, frames]
    · rw [e, State.get_set_same, frames, List.length_append]
      exact Nat.mod_eq_of_lt (show (s.nbr n.val).frames.length + 1 < 128 by omega)
    · rw [e, State.get_set_row _ _ _ _ (by simp), same]
      unfold State.ringTake
      rw [State.get_set_same]
      exact Nat.mod_eq_of_lt (show _ < 4096 by omega)
  · have foot : Follows State.txDescriptor_foot s (s.txDescriptor n.val d) := State.txDescriptor_follows (Foot.le_refl _) (Follows.refl _ _)
    refine ⟨?_, ?_, fun a => foot.bytes_eq rfl a⟩
    all_goals rw [State.txDescriptor_refused hears posted room ahead plain bad]
    · rw [State.nbr_postEntry, State.rememberTag_frames]
      rfl
    · rfl
  · rw [State.ackDeadline_retry only sent due left phase]
    refine ⟨?_, fun _ _ => rfl, fun _ => rfl⟩
    rw [State.nbr_updNbr]
    simp [only]
  · have spent : s.atLimit n.val f = true := by unfold State.atLimit; simp; omega
    rw [State.ackDeadline_only only sent due, if_pos spent]
    obtain ⟨frames, entries, -, bytes⟩ := State.finishFrame_only only alone 1
    exact ⟨frames, entries, bytes⟩
  · have reach : s.horizonExpiry n.val f.tag = (s.reach (f.horizon + sendSpan + 625000)).finishFrame n.val f.tag .failedRetry 2 := by
      unfold State.horizonExpiry
      simp [only]
    rw [reach]
    obtain ⟨frames, entries, clk, bytes⟩ := State.finishFrame_only (s := s.reach (f.horizon + sendSpan + 625000)) only alone 2
    exact ⟨congrArg Clk.mesh clk, frames, entries, bytes⟩
  · have le : Foot.le landRest landRest := Foot.le_refl _
    rw [State.releaseFrames_idle fun x hx => (first x hx).2, State.landFrame_lands queue held fill fun x hx => (first x hx).1]
    obtain ⟨queued, entries, foot⟩ := s.landed_spec n.val g rest used
    have votes : Follows State.refreshVotes_foot (s.landed n.val g rest used) (s.landed n.val g rest used).refreshVotes :=
      State.refreshVotes_follows (Foot.le_refl _) (Follows.refl _ _)
    have poke : Follows State.nbrPoke_foot (s.landed n.val g rest used).refreshVotes ((s.landed n.val g rest used).refreshVotes.nbrPoke n.val) :=
      State.nbrPoke_follows (Foot.le_refl _) (Follows.refl _ _)
    refine ⟨?_, fun k => ?_, fun a => ?_, _, (congrArg Lnk.entries ((poke.lnk rfl).trans (votes.lnk rfl))).trans entries, rfl, rfl, rfl, rfl, rfl⟩
    · rw [State.nbrPoke_rxQueue, State.nbr_is votes rfl, queued]
    · rw [poke.engs_eq rfl, votes.engs_eq rfl, foot.engs_eq rfl]
    · rw [poke.bytes_eq rfl, votes.bytes_eq rfl, foot.bytes_eq rfl]

end Sys2Proof.Machine
end

section
/-! Rails: what raising and lowering the enables leaves, and what the crystal, the TCXO, PWR_GOOD and a rail failure lead to. -/

namespace Sys2Proof.Machine

open Sys2Proof

/-! ### Steps that write no register -/

/-- A step whose footprint names no row leaves every register field. -/
theorem sameFields_rowless {p : Foot} {s t : State} (h : Follows p s t) (regs : p.comps.testBit 1 = false) (none_ : p.rows = 0) (rows : List Nat) :
    sameFields rows s t := fun f _ => h.get f (by simp [Foot.row, regs, none_])

theorem sameFields_set (s : State) (f : Field) (v : Nat) : sameFields [f.row] s (s.set f v) := fun g hg =>
  State.get_set_row _ _ _ _ fun e => hg (by simp [e])

theorem testBit_sub_two_pow {v k : Nat} (h : v.testBit k = true) (j : Nat) : (v - 2 ^ k).testBit j = (v.testBit j && decide (k ≠ j)) := by
  have e : v &&& 2 ^ k = 2 ^ k := by rw [Nat.and_two_pow, h]; exact Nat.one_mul _
  have out := testBit_sub_and v (2 ^ k) j
  rw [e, Nat.testBit_two_pow] at out
  rw [out, decide_not]

/-! ### Enables (R323, R436, R438) -/

section Rail

variable (s : State)

/-- What raising an enable leaves of the power state. -/
theorem State.enableRail_pwr (k : Nat) :
    (s.enableRail k).pwr.pwrGood = s.pwr.pwrGood ∧ (s.enableRail k).pwr.lowHold = s.pwr.lowHold ∧
      (s.enableRail k).pwr.tcxoReady = s.pwr.tcxoReady ∧ (s.enableRail k).pwr.xtalStable = s.pwr.xtalStable ∧
      (s.enableRail k).pwr.dom = s.pwr.dom := by
  unfold State.enableRail
  split
  · exact ⟨rfl, rfl, rfl, rfl, rfl⟩
  · split
    · exact ⟨rfl, rfl, rfl, rfl, rfl⟩
    · exact ⟨rfl, rfl, rfl, rfl, rfl⟩

variable {s} {k : Nat}

/-- An enable that is not held low rises. -/
theorem State.enableRail_raises (free : s.pwr.lowHold.testBit k = false) :
    (s.enableRail k).pwr.pwrEn = s.pwr.pwrEn ||| 2 ^ k ∧ (s.enableRail k).pwr.wakeHeld = s.pwr.wakeHeld := by
  unfold State.enableRail
  rw [if_neg (by simp [free])]
  split
  next on =>
    refine ⟨Nat.eq_of_testBit_eq fun j => ?_, rfl⟩
    rw [Nat.testBit_or, Nat.testBit_two_pow]
    by_cases e : k = j
    · subst e; simp [on]
    · simp [e]
  next => exact ⟨rfl, rfl⟩

/-- An enable that is held low is asked for; no other is. -/
theorem State.enableRail_asks (free : s.pwr.lowHold.testBit k = false) (j : Nat) :
    (s.enableRail j).pwr.wakeHeld.testBit k = s.pwr.wakeHeld.testBit k := by
  by_cases low : s.pwr.lowHold.testBit j = true
  · have ne : j ≠ k := fun e => by subst e; rw [free] at low; exact absurd low Bool.false_ne_true
    unfold State.enableRail
    rw [if_pos low]
    simp [ne]
  · rw [(State.enableRail_raises (Bool.of_not_eq_true low)).2]

/-- The first PWR_GOOD that is low, where those below k alone are high. -/
theorem firstLow {good : Nat} (hk : k < 4) (h : good = 2 ^ k - 1) : ((List.range 4).find? fun j => !good.testBit j) = some k := by
  rw [List.find?_range_eq_some]
  refine ⟨by simp [h], List.mem_range.mpr hk, fun j hj => by simp [h, hj]⟩

/-- Step 2 with the PWR_GOOD inputs below k high raises enable k, and the TCXO's with enable 0. -/
theorem State.railsOn_next (hk : k < 4) (good : s.pwr.pwrGood = 2 ^ k - 1) (free : s.pwr.lowHold = 0) :
    s.railsOn.pwr.pwrEn = s.pwr.pwrEn ||| 2 ^ k ∧ s.railsOn.boot = s.boot ∧
      (k = 0 → s.railsOn.pwr.tcxoEn = true) := by
  obtain ⟨en, -⟩ := State.enableRail_raises (s := s) (k := k) (by simp [free])
  have boot : (s.enableRail k).boot = s.boot := (State.enableRail_follows (Foot.le_refl _) (Follows.refl _ _)).boot rfl
  unfold State.railsOn
  rw [firstLow hk good]
  dsimp only
  split
  next => exact ⟨en, boot, fun _ => rfl⟩
  next off =>
    refine ⟨en, boot, fun e => absurd ?_ off⟩
    subst e
    rw [en]
    simp

/-- With every PWR_GOOD high and the TCXO ready step 3 follows. -/
theorem State.railsOn_done (good : s.pwr.pwrGood = 15) (ready : s.pwr.tcxoReady = true) :
    s.railsOn.boot.step = 3 ∧ s.railsOn.pwr.railFails = 0 := by
  unfold State.railsOn
  rw [good, show ((List.range 4).find? fun j => !(15 : Nat).testBit j) = none from by decide]
  dsimp only
  rw [if_pos ready]
  exact ⟨rfl, rfl⟩

variable (s)

/-- What step 2 leaves of the power state. -/
theorem State.railsOn_pwr :
    s.railsOn.pwr.lowHold = s.pwr.lowHold ∧ s.railsOn.pwr.tcxoReady = s.pwr.tcxoReady ∧ s.railsOn.pwr.xtalStable = s.pwr.xtalStable ∧
      s.railsOn.pwr.pwrGood = s.pwr.pwrGood ∧
      ∀ k : Nat, s.pwr.lowHold.testBit k = false → s.railsOn.pwr.wakeHeld.testBit k = s.pwr.wakeHeld.testBit k := by
  unfold State.railsOn
  split
  next j _ =>
    obtain ⟨good, low, ready, stable, -⟩ := s.enableRail_pwr j
    dsimp only
    split
    · exact ⟨low, ready, stable, good, fun k free => State.enableRail_asks free j⟩
    · exact ⟨low, ready, stable, good, fun k free => State.enableRail_asks free j⟩
  next =>
    dsimp only
    split
    · exact ⟨rfl, rfl, rfl, rfl, fun _ _ => rfl⟩
    · exact ⟨rfl, rfl, rfl, rfl, fun _ _ => rfl⟩

/-- A start joins step 2 with no PWR_GOOD high. -/
theorem State.startRails_first (kind : StartKind) (good : s.pwr.pwrGood = 0) (free : s.pwr.lowHold = 0) :
    (s.startRails kind).pwr.pwrEn.testBit 0 = true ∧ (s.startRails kind).pwr.tcxoEn = true ∧
      (s.startRails kind).boot = { kind := kind, step := 2, ready := false, timeouts := 0, slipway := false, slow := false } := by
  obtain ⟨en, boot, tcxo⟩ := State.railsOn_next (s := (s.startAt kind 2).setDom 15 .up) (k := 0) (by decide) good free
  exact ⟨by unfold State.startRails; rw [en]; simp, tcxo rfl, boot⟩

/-! ### Rails that fail or drop (R326) -/

/-- Lowering enables clears their bits and moves no domain. -/
theorem State.lowerRails_spec (ks : List Nat) :
    (∀ j : Nat, (s.lowerRails ks).pwr.pwrEn.testBit j = (s.pwr.pwrEn.testBit j && decide (j ∉ ks))) ∧ (s.lowerRails ks).pwr.dom = s.pwr.dom := by
  unfold State.lowerRails
  induction ks generalizing s with
  | nil => simp
  | cons k ks ih =>
    rw [List.foldl_cons]
    refine ⟨fun j => ((ih _).1 j).trans ?_, (ih _).2.trans ?_⟩
    · dsimp only
      split
      next on =>
        refine (congrArg (· && decide (j ∉ ks)) (testBit_sub_two_pow on j)).trans ?_
        by_cases e : j = k
        · subst e; simp
        · simp [e, Ne.symm e]
      next off =>
        dsimp only
        by_cases e : j = k
        · subst e; simp [off]
        · simp [e]
    · dsimp only
      split
      · rfl
      · rfl

/-- A reset on a supply failure brings every domain down. -/
theorem State.cold_supply_hub : (s.cold .supply).hubUp = false := by
  unfold State.cold
  dsimp only
  unfold State.hubUp State.domUp State.dom
  rw [(State.wkResume_follows (Foot.le_refl _) (Follows.refl _ _)).pwr rfl]
  rfl

/-- What the failure of a rail leaves. -/
theorem State.railDown_spec (k : Nat) (dropped : Bool) :
    let t := s.railDown k dropped
    (∀ j : Nat, j ≤ 3 → t.pwr.pwrEn.testBit j = false) ∧ t.pwr.railFails = s.pwr.railFails + 1 ∧ t.boot.kind = .rail ∧ t.hubUp = false ∧
      t.boot.step = (if s.pwr.railFails + 1 < 3 then 2 else 0) ∧ (t.pwr.railsHeld = true ↔ 3 ≤ s.pwr.railFails + 1) := by
  unfold State.railDown
  extract_lets recorded n lowered now held t
  have pwr : recorded.pwr = s.pwr := (State.blackBoxOnly_follows (Foot.le_refl _) (Follows.refl _ _)).pwr rfl
  have fails : n = s.pwr.railFails + 1 := congrArg (fun p => p.railFails + 1) pwr
  obtain ⟨bits, dom⟩ := (recorded.cold .supply).lowerRails_spec [3, 2, 1, 0]
  refine ⟨fun j hj => (bits j).trans ?_, fails, rfl, ?_, ?_, ?_⟩
  · have low : j ∈ [3, 2, 1, 0] := by simp; omega
    simp [low]
  · have hub : t.hubUp = (recorded.cold .supply).hubUp := congrArg (fun d => vget d 0 == DomPhase.up || vget d 0 == DomPhase.linger) dom
    rw [hub, State.cold_supply_hub]
  · rw [← fails]; rfl
  · rw [← fails]; exact decide_eq_true_iff

end Rail

/-! ### The events of steps 1 and 2 -/

/-- The crystal is stable: what changes before a start goes on. -/
def State.onCrystal (s : State) : State :=
  { s with pwr := { s.pwr with xtalStable := true }, clk := { s.clk with incr := nominalIncr } }.set R.AON_CLK_STATUS_on_xtal 1

/-- The TCXO is ready, and PWR_GOOD[k] is high: what changes before step 2 goes on. -/
def State.tcxoMark (s : State) : State := { s with pwr := { s.pwr with tcxoReady := true } }
def State.goodMark (s : State) (k : Nat) : State := { s with pwr := { s.pwr with pwrGood := s.pwr.pwrGood + 2 ^ k } }

/-- The 2 ms of an enable end: what changes before an enable that was asked for rises. -/
def State.holdMark (s : State) (k : Nat) : State :=
  let u := if s.pwr.lowHold.testBit k then s.reach (vget s.pwr.railEnd k) else s
  { u with pwr := { u.pwr with lowHold := withBit u.pwr.lowHold k false, wakeHeld := withBit u.pwr.wakeHeld k false } }

theorem withBit_false (v k : Nat) : (withBit v k false).testBit k = false := by
  unfold withBit
  rw [if_neg Bool.false_ne_true]
  split
  next on => rw [testBit_sub_two_pow on]; simp
  next off => exact Bool.of_not_eq_true off

theorem State.holdMark_spec (s : State) (k : Nat) :
    (s.holdMark k).pwr.lowHold.testBit k = false ∧ (s.holdMark k).pwr.wakeHeld.testBit k = false ∧ (s.holdMark k).pwr.pwrEn = s.pwr.pwrEn ∧
      (s.holdMark k).boot = s.boot ∧ sameFields [] s (s.holdMark k) ∧ sameBytes s (s.holdMark k) := by
  unfold State.holdMark
  dsimp only
  split
  · exact ⟨withBit_false _ _, withBit_false _ _, rfl, rfl, fun _ _ => rfl, fun _ => rfl⟩
  · exact ⟨withBit_false _ _, withBit_false _ _, rfl, rfl, fun _ _ => rfl, fun _ => rfl⟩

section Start

variable {s : State} {k : Nat}

theorem State.railsOn_is (s : State) : Follows State.railsOn_foot s s.railsOn := State.railsOn_follows (Foot.le_refl _) (Follows.refl _ _)

theorem State.startRails_is (s : State) (kind : StartKind) : Follows State.startRails_foot s (s.startRails kind) :=
  State.startRails_follows (Foot.le_refl _) (Follows.refl _ _)

/-- The crystal is stable (R323 to R325). -/
theorem State.crystalStable_is (on : s.pwr.mode ≠ .off) (wait : s.pwr.xtalStable = false) :
    s.crystalStable = if s.boot.step = 1 then s.onCrystal.startRails s.boot.kind else s.onCrystal := by
  unfold State.crystalStable
  rw [if_neg (by simp [on, wait])]
  rfl

theorem State.crystalStable_spec (on : s.pwr.mode ≠ .off) (wait : s.pwr.xtalStable = false) :
    let t := s.crystalStable
    t.pwr.xtalStable = true ∧ t.get R.AON_CLK_STATUS_on_xtal = 1 ∧ t.clk.incr = 0x00009502F9000000 ∧
      (s.boot.step = 1 → s.pwr.pwrGood = 0 → s.pwr.lowHold = 0 → t.boot.step = 2 ∧ t.pwr.pwrEn.testBit 0 = true ∧ t.pwr.tcxoEn = true) ∧
      (s.boot.step ≠ 1 → t.boot = s.boot) ∧ sameFields [R.AON_CLK_STATUS_on_xtal.row] s t ∧ sameBytes s t := by
  intro t
  have fields : sameFields [R.AON_CLK_STATUS_on_xtal.row] s s.onCrystal := sameFields_set { s with
    pwr := { s.pwr with xtalStable := true }, clk := { s.clk with incr := nominalIncr } } _ 1
  have mark : s.onCrystal.get R.AON_CLK_STATUS_on_xtal = 1 := State.get_set_same _ _ _
  by_cases one : s.boot.step = 1
  · have e : t = s.onCrystal.startRails s.boot.kind := (State.crystalStable_is on wait).trans (if_pos one)
    have rails := s.onCrystal.startRails_is s.boot.kind
    have same := sameFields_rowless rails rfl rfl [R.AON_CLK_STATUS_on_xtal.row]
    have stable : t.pwr.xtalStable = true := by
      rw [e]; exact ((s.onCrystal.startAt s.boot.kind 2).setDom 15 .up).railsOn_pwr.2.2.1
    refine ⟨stable, ?_, ?_, fun _ good free => ?_, fun ne => absurd one ne, fun f hf => ?_, fun a => ?_⟩
    · rw [e, sameFields_rowless rails rfl rfl [] _ List.not_mem_nil, mark]
    · rw [e]; exact congrArg Clk.incr (rails.clk rfl)
    · obtain ⟨en, tcxo, boot⟩ := s.onCrystal.startRails_first s.boot.kind good free
      rw [e]
      exact ⟨(congrArg Boot.step boot).trans rfl, en, tcxo⟩
    · rw [e]; exact (same f hf).trans (fields f hf)
    · rw [e]; exact rails.bytes_eq rfl a
  · have e : t = s.onCrystal := (State.crystalStable_is on wait).trans (if_neg one)
    rw [e]
    exact ⟨rfl, mark, rfl, fun c => absurd c one, fun _ => rfl, fields, fun _ => rfl⟩

/-- Step 2 begins without a stable crystal (R324). -/
theorem State.crystalTimeout_spec (one : s.boot.step = 1) (wait : s.pwr.xtalStable = false) (good : s.pwr.pwrGood = 0) (free : s.pwr.lowHold = 0) :
    let t := s.crystalTimeout
    t.get R.AON_CLK_STATUS_xtal_fail = 1 ∧ t.boot.step = 2 ∧ t.boot.slow = true ∧ t.boot.kind = s.boot.kind ∧ t.pwr.pwrEn.testBit 0 = true ∧
      sameFields [R.AON_CLK_STATUS_xtal_fail.row] s t ∧ sameBytes s t := by
  unfold State.crystalTimeout
  rw [if_pos (by simp [one, wait])]
  dsimp only
  generalize hu : s.set R.AON_CLK_STATUS_xtal_fail 1 = u
  have fields : sameFields [R.AON_CLK_STATUS_xtal_fail.row] s u := by rw [← hu]; exact sameFields_set s _ 1
  have mark : u.get R.AON_CLK_STATUS_xtal_fail = 1 := by rw [← hu]; exact State.get_set_same _ _ _
  have rails := u.startRails_is s.boot.kind
  have same := sameFields_rowless rails rfl rfl [R.AON_CLK_STATUS_xtal_fail.row]
  obtain ⟨en, -, boot⟩ := u.startRails_first s.boot.kind (by rw [← hu]; exact good) (by rw [← hu]; exact free)
  exact ⟨(sameFields_rowless rails rfl rfl [] _ List.not_mem_nil).trans mark, (congrArg Boot.step boot).trans rfl, rfl, (congrArg Boot.kind boot).trans rfl, en, fun f hf => (same f hf).trans (fields f hf),
    fun a => (rails.bytes_eq rfl a).trans (by rw [← hu]; rfl)⟩

/-- The TCXO is ready (R323). -/
theorem State.tcxoUp_spec (on : s.pwr.tcxoEn = true) :
    let t := s.tcxoUp
    t.pwr.tcxoReady = true ∧ (s.boot.step = 2 → s.pwr.pwrGood = 15 → t.boot.step = 3 ∧ t.pwr.railFails = 0) ∧ sameFields [] s t ∧ sameBytes s t := by
  intro t
  have e : t = if s.boot.step = 2 then s.tcxoMark.railsOn else s.tcxoMark := by
    unfold t State.tcxoUp
    rw [if_neg (by simp [on])]
    rfl
  by_cases two : s.boot.step = 2
  · rw [if_pos two] at e
    have rails := s.tcxoMark.railsOn_is
    obtain ⟨-, ready, -⟩ := s.tcxoMark.railsOn_pwr
    refine ⟨by rw [e, ready]; rfl, fun _ good => ?_, by rw [e]; exact sameFields_rowless rails rfl rfl [],
      fun a => by rw [e]; exact rails.bytes_eq rfl a⟩
    rw [e]
    exact State.railsOn_done good rfl
  · rw [if_neg two] at e
    rw [e]
    exact ⟨rfl, fun c => absurd c two, fun _ _ => rfl, fun _ => rfl⟩

/-- PWR_GOOD[k] rises in step 2 (R323). -/
theorem State.pwrGoodRise_spec (hk : k < 4) (on : s.pwr.pwrEn.testBit k = true) (good : s.pwr.pwrGood = 2 ^ k - 1) (two : s.boot.step = 2)
    (free : s.pwr.lowHold = 0) :
    let t := s.pwrGoodRise k
    t.pwr.pwrGood = 2 ^ (k + 1) - 1 ∧ (k < 3 → t.pwr.pwrEn.testBit (k + 1) = true) ∧ (k = 3 → s.pwr.tcxoReady = true → t.boot.step = 3) ∧
      sameFields [] s t ∧ sameBytes s t := by
  intro t
  have low : s.pwr.pwrGood.testBit k = false := by simp [good]
  have e : t = (s.goodMark k).railsOn := by
    unfold t State.pwrGoodRise
    rw [if_neg (by simp [on, low])]
    exact if_pos two
  have next : (s.goodMark k).pwr.pwrGood = 2 ^ (k + 1) - 1 := by
    have pos := Nat.two_pow_pos k
    have sum : (s.goodMark k).pwr.pwrGood = s.pwr.pwrGood + 2 ^ k := rfl
    rw [sum, good, Nat.pow_succ]
    omega
  have rails := (s.goodMark k).railsOn_is
  rw [e]
  refine ⟨(s.goodMark k).railsOn_pwr.2.2.2.1.trans next, fun below => ?_, fun last ready => ?_, sameFields_rowless rails rfl rfl [], fun a => rails.bytes_eq rfl a⟩
  · rw [(State.railsOn_next (k := k + 1) (by omega) next free).1]
    simp
  · subst last
    exact (State.railsOn_done (s := s.goodMark 3) next ready).1

/-- The 100 ms after a rail failure end (R326). -/
theorem State.railRetry_spec (kind : s.boot.kind = .rail) (two : s.boot.step = 2) (off : s.pwr.pwrEn = 0) (held : s.pwr.railsHeld = false)
    (good : s.pwr.pwrGood = 0) (free : s.pwr.lowHold = 0) :
    let t := s.railRetry
    t.pwr.pwrEn = 1 ∧ t.pwr.tcxoEn = true ∧ t.boot = s.boot ∧ sameFields [] s t ∧ sameBytes s t := by
  unfold State.railRetry
  rw [if_pos (by simp [kind, two, off, held])]
  generalize hu : (s.reach s.pwr.retryAt).setDom 15 .up = u
  have off' : u.pwr.pwrEn = 0 := by rw [← hu]; exact off
  have boot' : u.boot = s.boot := by rw [← hu]; rfl
  obtain ⟨en, boot, tcxo⟩ := State.railsOn_next (s := u) (k := 0) (by decide) (by rw [← hu]; exact good) (by rw [← hu]; exact free)
  refine ⟨by rw [en, off']; rfl, tcxo rfl, boot.trans boot', fun f hf => (sameFields_rowless u.railsOn_is rfl rfl [] f hf).trans (by rw [← hu]; rfl),
    fun a => (u.railsOn_is.bytes_eq rfl a).trans (by rw [← hu]; rfl)⟩

/-- The 2 ms for which an enable was held low end (R438). -/
theorem State.lowHoldEnd_spec (s : State) (k : Nat) :
    let t := s.lowHoldEnd k
    t.pwr.lowHold.testBit k = false ∧ t.pwr.wakeHeld.testBit k = false ∧ (s.pwr.wakeHeld.testBit k = false → t.pwr.pwrEn = s.pwr.pwrEn) ∧
      (s.pwr.wakeHeld.testBit k = true → s.boot.step ≠ 2 → t.pwr.pwrEn.testBit k = true) ∧ sameFields [] s t ∧ sameBytes s t := by
  intro t
  obtain ⟨free, idle, en, boot, fields, bytes⟩ := s.holdMark_spec k
  have e : t = if s.pwr.wakeHeld.testBit k = true then (if (s.holdMark k).boot.step = 2 then (s.holdMark k).railsOn else (s.holdMark k).enableRail k)
      else s.holdMark k := by
    unfold t State.lowHoldEnd
    cases s.pwr.wakeHeld.testBit k with
    | true => rfl
    | false => rfl
  by_cases asked : s.pwr.wakeHeld.testBit k = true
  · rw [if_pos asked] at e
    by_cases two : (s.holdMark k).boot.step = 2
    · rw [if_pos two] at e
      have rails := (s.holdMark k).railsOn_is
      obtain ⟨low, -, -, -, held⟩ := (s.holdMark k).railsOn_pwr
      rw [e]
      refine ⟨by rw [low, free], by rw [held k free, idle], fun c => absurd (c.symm.trans asked) Bool.false_ne_true, fun _ ne => ?_,
        fun f hf => (sameFields_rowless rails rfl rfl [] f hf).trans (fields f hf), fun a => (rails.bytes_eq rfl a).trans (bytes a)⟩
      exact absurd ((congrArg Boot.step boot).symm.trans two) ne
    · rw [if_neg two] at e
      have rail : Follows State.enableRail_foot (s.holdMark k) ((s.holdMark k).enableRail k) :=
        State.enableRail_follows (Foot.le_refl _) (Follows.refl _ _)
      obtain ⟨up, held⟩ := State.enableRail_raises free
      obtain ⟨-, low, -⟩ := (s.holdMark k).enableRail_pwr k
      rw [e]
      exact ⟨by rw [low, free], by rw [held, idle], fun c => absurd (c.symm.trans asked) Bool.false_ne_true, fun _ _ => by rw [up]; simp,
        fun f hf => (sameFields_rowless rail rfl rfl [] f hf).trans (fields f hf), fun a => (rail.bytes_eq rfl a).trans (bytes a)⟩
  · rw [if_neg asked] at e
    rw [e]
    exact ⟨free, idle, fun _ => en, fun c => absurd c asked, fields, bytes⟩

/-- A PWR_GOOD input that does not rise in time, and one that drops, bring the rails down (R326). -/
theorem State.railFailure_is (on : s.pwr.pwrEn.testBit k = true) (low : s.pwr.pwrGood.testBit k = false) :
    s.railFailure k = (s.reach (vget s.pwr.railEnd k)).railDown k false := by
  unfold State.railFailure
  exact if_pos (by simp [on, low])

theorem State.pwrGoodDrop_is (on : s.pwr.pwrEn.testBit k = true) (high : s.pwr.pwrGood.testBit k = true) :
    ∃ u : State, s.pwrGoodDrop k = u.railDown k true ∧ u.pwr.railFails = s.pwr.railFails := by
  have source : Follows State.aonSource_foot s (s.aonSource 23) := State.aonSource_follows (Foot.le_refl _) (Follows.refl _ _)
  have fails : (s.aonSource 23).pwr.railFails = s.pwr.railFails := congrArg Pwr.railFails (source.pwr rfl)
  unfold State.pwrGoodDrop
  exact ⟨_, if_pos (by simp [on, high]), fails⟩

end Start

end Sys2Proof.Machine
end

section
/-! The boot from step 3 to step 8: what a boot keeps of the hub, of the start and of the host link, and the claim. -/

namespace Sys2Proof.Machine

open Sys2Proof

/-! ### The hub core under votes (R295, R296) -/

theorem State.hubUp_dom {s t : State} (h : t.pwr.dom = s.pwr.dom) : t.hubUp = s.hubUp := by
  unfold State.hubUp State.domUp State.dom
  rw [h]

/-- Bits of register fields move no domain. -/
theorem State.hubUp_bits (s : State) (f : Field) (k : Nat) : (s.setBit f k).hubUp = s.hubUp ∧ (s.clrBit f k).hubUp = s.hubUp := by
  refine ⟨State.hubUp_dom rfl, ?_⟩
  unfold State.clrBit
  split
  · exact State.hubUp_dom rfl
  · rfl

theorem State.hubUp_updLink (s : State) (l : Nat) (f : Link → Link) : (s.updLink l f).hubUp = s.hubUp := State.hubUp_dom rfl

/-- No other domain's phase is the hub's. -/
theorem State.hubUp_setDom (s : State) (d : Nat) (p : DomPhase) (other : d % 16 ≠ 0) : (s.setDom d p).hubUp = s.hubUp := by
  have same : (s.setDom d p).dom 0 = s.dom 0 := vget_vset_ne _ _ _ _ (Ne.symm other)
  unfold State.hubUp State.domUp
  rw [same]

theorem State.hubUp_beginDom (s : State) (d : Nat) (p : DomPhase) : (s.beginDom d p).hubUp = (s.setDom d p).hubUp := State.hubUp_dom rfl

theorem State.hubUp_setDom_zero (s : State) (p : DomPhase) : (s.setDom 0 p).hubUp = (p == .up || p == .linger) := by
  have same : (s.setDom 0 p).dom 0 = p := vget_vset_same _ _ _
  unfold State.hubUp State.domUp
  rw [same]

theorem State.refreshMode_hubUp (s : State) : s.refreshMode.hubUp = s.hubUp := by
  unfold State.refreshMode
  split
  · rfl
  · split
    · rfl
    · rfl

section Votes

variable {s : State} (up : s.hubUp = true)
include up

/-- A hub core that is up comes to linger, or out of its linger, under its votes, but not down. -/
theorem State.settleHub_up : s.settleHub.hubUp = true := by
  unfold State.settleHub
  split
  · rw [State.hubUp_setDom_zero]; rfl
  · exact up
  · rw [State.hubUp_beginDom, State.hubUp_setDom_zero]; rfl
  · exact up

theorem State.refreshDep_up : s.refreshDep.hubUp = true := by
  unfold State.refreshDep State.putBit
  refine State.settleHub_up ?_
  split
  · exact (s.hubUp_bits _ _).1.trans up
  · exact (s.hubUp_bits _ _).2.trans up

theorem State.riseDom_up {d : Nat} (other : d % 16 ≠ 0) : (s.riseDom d).hubUp = true := by
  have dep : ((s.beginDom d .rising).refreshDep).hubUp = true := by
    refine State.refreshDep_up ?_
    rw [State.hubUp_beginDom, State.hubUp_setDom _ _ _ other, up]
  have rf (u : State) : u.raiseRf.hubUp = u.hubUp := by
    unfold State.raiseRf
    split
    · rfl
    · split
      · exact State.hubUp_dom (u.enableRail_pwr 2).2.2.2.2
      · split
        · exact State.hubUp_dom (u.enableRail_pwr 3).2.2.2.2
        · rfl
  unfold State.riseDom
  dsimp only
  rw [State.refreshMode_hubUp]
  split
  · rw [rf, dep]
  · exact dep

theorem State.settle_up {d : Nat} (other : d % 16 ≠ 0) : (s.settle d).hubUp = true := by
  have zero : (d == 0) = false := by simp; omega
  unfold State.settle
  rw [zero, if_neg Bool.false_ne_true]
  split
  · split
    · rw [State.hubUp_setDom _ _ _ (by decide), up]
    · split
      · exact State.riseDom_up up other
      · exact up
  · rw [State.hubUp_setDom _ _ _ other, up]
  · exact up
  · rw [State.hubUp_beginDom, State.hubUp_setDom _ _ _ other, up]
  · exact up

theorem State.putVote_up {d : Nat} (other : d % 16 ≠ 0) (k : Nat) (b : Bool) : (s.putVote d k b).hubUp = true := by
  unfold State.putVote State.vote State.unvote
  split
  · exact State.settle_up ((s.hubUp_bits _ _).1.trans up) other
  · exact State.settle_up ((s.hubUp_bits _ _).2.trans up) other

theorem State.aimVote_up {d : Nat} (other : d % 16 ≠ 0) (k : Nat) (b : Bool) : (s.aimVote d k b).hubUp = true := by
  unfold State.aimVote
  split
  · exact up
  · exact State.putVote_up up other k b

end Votes

/-! ### What a boot keeps -/

/-- Nothing of the start, of the hub's being up, of the boot's counts and of the host link's state is lost from s to t. -/
structure BootKept (s t : State) : Prop where
  boot : t.boot = s.boot
  hub : s.hubUp = true → t.hubUp = true
  cause : t.get R.HUB_RESET_CAUSE_cause = s.get R.HUB_RESET_CAUSE_cause
  sel : t.get R.HUB_BOOT_STATUS_boot_sel = s.get R.HUB_BOOT_STATUS_boot_sel
  count : t.get R.BOOT_COUNT_count = s.get R.BOOT_COUNT_count
  link : (t.link 4).state = (s.link 4).state

theorem BootKept.refl (s : State) : BootKept s s := ⟨rfl, id, rfl, rfl, rfl, rfl⟩

theorem BootKept.trans {s t u : State} (h : BootKept s t) (k : BootKept t u) : BootKept s u :=
  ⟨k.boot.trans h.boot, fun up => k.hub (h.hub up), k.cause.trans h.cause, k.sel.trans h.sel, k.count.trans h.count, k.link.trans h.link⟩

/-- A footprint that leaves the start and the boot's counts. -/
def Foot.keepsBoot (p : Foot) : Bool := !p.comp 6 && !p.row 17 && !p.row 19 && !p.row 613

/-- A step that leaves the start and the boot's counts, the hub's being up and the host link. -/
theorem BootKept.of_follows {p : Foot} {s t : State} (h : Follows p s t) (quiet : p.keepsBoot = true) (hub : s.hubUp = true → t.hubUp = true)
    (link : (t.link 4).state = (s.link 4).state) : BootKept s t := by
  simp only [Foot.keepsBoot, Bool.and_eq_true, Bool.not_eq_true'] at quiet
  obtain ⟨⟨⟨boot, cause⟩, sel⟩, count⟩ := quiet
  exact ⟨h.boot boot, hub, h.get _ cause, h.get _ sel, h.get _ count, link⟩

theorem State.link_is {p : Foot} {s t : State} (h : Follows p s t) (e : p.comp 21 = false) (l : Nat) : t.link l = s.link l := by
  unfold State.link; rw [h.lnk e]

/-- A step that leaves the power state and the links too. -/
theorem BootKept.of_quiet {p : Foot} {s t : State} (h : Follows p s t) (quiet : (p.keepsBoot && !p.comp 5 && !p.comp 21) = true) : BootKept s t := by
  simp only [Bool.and_eq_true, Bool.not_eq_true'] at quiet
  obtain ⟨⟨boot, pwr⟩, lnk⟩ := quiet
  exact .of_follows h boot (fun up => (State.domUp_pwr h pwr 0).trans up) (by rw [State.link_is h lnk])

/-! ### The neighbour entries after a WARM or WDOG reset (R336) -/

theorem RegFile.find_filter (r : RegFile) (p : RegKey × Nat → Bool) (k : RegKey) (h : ∀ v : Nat, p (k, v) = true) :
    RegFile.find (r.filter p) k = RegFile.find r k := by
  induction r with
  | nil => rfl
  | cons c r ih =>
    obtain ⟨q, v⟩ := c
    by_cases e : q = k
    · subst e
      rw [List.filter_cons, if_pos (h v)]
      unfold RegFile.find
      rw [if_pos rfl, if_pos rfl]
    · have skip : RegFile.find ((q, v) :: r) k = RegFile.find r k := if_neg e
      rw [List.filter_cons, skip]
      split
      · exact (if_neg e).trans ih
      · exact ih

/-- The live state of an entry starts over in rows 378 to 398 alone. -/
theorem State.nbrClear_get (s : State) (n : Nat) (f : Field) (h : f.row < 378 ∨ 399 ≤ f.row) : (s.nbrClear n).get f = s.get f := by
  unfold State.nbrClear State.propFromSeed
  dsimp only
  rw [State.get_set_row _ _ _ _ (by dsimp only; omega), State.get_set_row _ _ _ _ (by dsimp only; omega),
    State.get_set_row _ _ _ _ (by dsimp only; omega), State.get_set_row _ _ _ _ (by dsimp only; omega), State.updNbr_get]
  refine congrArg (fun v : Option Nat => v.getD f.rst) (RegFile.find_filter s.regs _ f.key fun v => ?_)
  simp only [Bool.not_eq_true', Bool.and_eq_false_iff, decide_eq_false_iff_not]
  omega

theorem BootKept.nbrClear (s : State) (n : Nat) : BootKept s (s.nbrClear n) :=
  ⟨rfl, id, s.nbrClear_get n _ (by decide), s.nbrClear_get n _ (by decide), s.nbrClear_get n _ (by decide), rfl⟩

/-- A finished frame leaves the links. -/
theorem State.finishFrame_links (s : State) (n tag : Nat) (st : Status) (reason : Nat) :
    (s.finishFrame n tag st reason).lnk.links = s.lnk.links := by
  have tally (u : State) : ((u.nbrStat n 11).pmc 0x084 n).lnk.links = u.lnk.links := congrArg Lnk.links ((State.pmcAt_lnk _ _ _ _ _).trans rfl)
  unfold State.finishFrame
  split
  · rfl
  · extract_lets left held tallied
    have kept : tallied.lnk.links = s.lnk.links := by
      unfold tallied
      split
      · exact tally _
      · rfl
    exact List.foldlRecOn _ _ (motive := fun t : State => t.lnk.links = s.lnk.links) kept fun t h i _ => h

theorem BootKept.nbrReinit (s : State) (n : Nat) : BootKept s (s.nbrReinit n) := by
  unfold State.nbrReinit
  refine .trans (List.foldlRecOn _ _ (motive := BootKept s) (.refl s) fun t h f _ => h.trans ?_) (.nbrClear _ n)
  have foot : Follows State.finishFrame_foot t (t.finishFrame n f.tag .failedRetry 3) := State.finishFrame_follows (Foot.le_refl _) (Follows.refl _ _)
  exact .of_follows foot rfl (fun up => (State.domUp_pwr foot rfl 0).trans up)
    (by unfold State.link; rw [t.finishFrame_links])

/-! ### Step 4 (R327, R336, R388, R390) -/

theorem BootKept.forAll (m : Nat) {f : Nat → State → State} {s t : State} (step : ∀ (i : Nat) (u : State), BootKept u (f i u)) (h : BootKept s t) :
    BootKept s (forAll m f t) :=
  forAll_keeps h fun i _ u k => k.trans (step i u)

/-- What step 4 writes besides the neighbour entries. -/
def tablesFoot : Foot := ⟨0x0, 0x780000000000000000000000000e800f80000400000000000000000000000000000000000000000000000000000000000000000000000000000000000000000000000000000000000000000⟩

theorem BootKept.bootTables (s : State) (bad : List (Nat × Nat)) : BootKept s (s.bootTables bad) := by
  unfold State.bootTables
  extract_lets named tables
  have le : Foot.le tablesFoot tablesFoot := Foot.le_refl _
  have hnamed : Follows tablesFoot s named :=
    State.set_follows 477 le (State.set_follows 476 le (State.set_follows 475 le (Follows.refl _ _)))
  have htables : Follows tablesFoot s tables :=
    State.loadBad_follows (le.sub rfl) (State.noteOp_follows (le.sub rfl) (State.set_follows 478 le hnamed))
  split
  · refine .forAll 64 (fun n u => ?_) (.of_quiet htables rfl)
    split
    · exact .trans (.nbrReinit u n) (.of_quiet (State.refreshSpent_follows (Foot.le_refl _) (Follows.refl _ _)) rfl)
    · exact ⟨rfl, id, State.get_set_row _ _ _ _ (by simp), State.get_set_row _ _ _ _ (by simp), State.get_set_row _ _ _ _ (by simp), rfl⟩
  · exact .of_quiet htables rfl

/-! ### Step 3 (R23, R243, R294, R329, R347) -/

/-- The boot counter rises, and the cause of the start is told (Table 11.8). -/
theorem State.countBoot_spec (s : State) :
    s.countBoot.get R.BOOT_COUNT_count = (s.get R.BOOT_COUNT_count + 1) % 2 ^ 32 ∧ s.countBoot.get R.HUB_RESET_CAUSE_cause = s.boot.kind.cause ∧
      s.countBoot.get R.HUB_BOOT_STATUS_boot_sel = s.get R.HUB_BOOT_STATUS_boot_sel := by
  have small : s.boot.kind.cause < 16 := by cases s.boot.kind <;> decide
  unfold State.countBoot
  simp [State.get_set_row, small]

/-- A failed entropy source is reported without an escalation (R244, Table 14.2). -/
theorem BootKept.reportRng (s : State) : BootKept s s.reportRng := by
  have logged : Follows mildFoot s (s.logHw 10 0xA3 s.healthFault) := s.logErr_is _ (show severity 10 ≠ 3 by decide)
  unfold State.reportRng
  split
  · exact .trans (.of_quiet logged rfl) (.of_quiet (State.fire_is _ _) rfl)
  · exact .refl s

/-- The votes and the mode at the end of step 3. -/
theorem BootKept.hubVotes (s : State) : BootKept s (s.refreshFlashVote.refreshDep).refreshMode.tsOutArm := by
  have flash : Follows State.refreshFlashVote_foot s s.refreshFlashVote := State.refreshFlashVote_follows (Foot.le_refl _) (Follows.refl _ _)
  have flashUp (up : s.hubUp = true) : s.refreshFlashVote.hubUp = true := by
    unfold State.refreshFlashVote
    dsimp only
    split
    · exact up
    · exact State.putVote_up up (by decide) _ _
  have dep : Follows State.refreshDep_foot s.refreshFlashVote s.refreshFlashVote.refreshDep :=
    State.refreshDep_follows (Foot.le_refl _) (Follows.refl _ _)
  generalize hu : s.refreshFlashVote.refreshDep = u at dep
  have mode : Follows State.refreshMode_foot u u.refreshMode := State.refreshMode_follows (Foot.le_refl _) (Follows.refl _ _)
  have out : Follows State.tsOutArm_foot u.refreshMode u.refreshMode.tsOutArm := State.tsOutArm_follows (Foot.le_refl _) (Follows.refl _ _)
  refine .trans (.of_follows flash rfl flashUp (by rw [State.link_is flash rfl])) (.trans (t := u) ?_ (.trans (t := u.refreshMode) ?_ (.of_quiet out rfl)))
  · exact .of_follows dep rfl (fun up => by rw [← hu]; exact State.refreshDep_up up) (by rw [State.link_is dep rfl])
  · exact .of_follows mode rfl (fun up => u.refreshMode_hubUp.trans up) (by rw [State.link_is mode rfl])

/-- The hub takes mesh time back without a loss. -/
theorem BootKept.takeBack (s : State) : BootKept s s.takeBack :=
  have foot : Follows State.takeBack_foot s s.takeBack := State.takeBack_follows (Foot.le_refl _) (Follows.refl _ _)
  .of_follows foot rfl (fun up => (State.hubUp_dom rfl).trans up) (by rw [State.link_is foot rfl])

theorem State.hubRelease_spec (s : State) (sel : Nat) :
    let t := s.hubRelease sel
    t.hubUp = true ∧ t.boot = s.boot ∧ t.get R.HUB_BOOT_STATUS_boot_sel = sel % 4 ∧ t.get R.HUB_RESET_CAUSE_cause = s.boot.kind.cause ∧
      t.get R.BOOT_COUNT_count = (s.get R.BOOT_COUNT_count + 1) % 2 ^ 32 ∧ (t.link 4).state = (s.link 4).state := by
  unfold State.hubRelease
  extract_lets fresh taken clk clocked woken pins err sampled counted lnk linked started failed random t
  have raised : ((s.setDom 0 .up).setDom 15 .up).hubUp = true := by
    rw [State.hubUp_setDom _ _ _ (by decide), State.hubUp_setDom_zero]; rfl
  have hwoken : woken.hubUp = true ∧ woken.boot = s.boot ∧ woken.get R.BOOT_COUNT_count = s.get R.BOOT_COUNT_count ∧
      (woken.link 4).state = (s.link 4).state := by
    by_cases up : s.hubUp = true
    · have e : woken = s := if_neg (by simp [fresh, up])
      rw [e]
      exact ⟨up, rfl, rfl, rfl⟩
    · have e : woken = (clocked.pmc 0x121 0).latchesToPending := if_pos (by simp [fresh, up])
      have counted : BootKept clocked (clocked.pmc 0x121 0) := .of_quiet (State.pmc_follows (Foot.le_refl _) (Follows.refl _ _)) rfl
      have latched : BootKept (clocked.pmc 0x121 0) (clocked.pmc 0x121 0).latchesToPending :=
        .of_quiet (State.latchesToPending_follows (Foot.le_refl _) (Follows.refl _ _)) rfl
      have slow : BootKept taken clocked := ⟨rfl, id, rfl, rfl, rfl, rfl⟩
      obtain ⟨boot, hub, -, -, count, link⟩ := (((BootKept.takeBack _).trans slow).trans counted).trans latched
      rw [e]
      exact ⟨hub raised, boot, count, link⟩
  obtain ⟨up, boot, count, link⟩ := hwoken
  obtain ⟨counts, cause, sels⟩ := sampled.countBoot_spec
  have sampledSel : sampled.get R.HUB_BOOT_STATUS_boot_sel = sel % 4 := State.get_set_same _ _ _
  have sampledCount : sampled.get R.BOOT_COUNT_count = woken.get R.BOOT_COUNT_count := State.get_set_row _ _ _ _ (by decide)
  have seeded : BootKept sampled.countBoot counted := .of_quiet (State.seedLfsr_follows (Foot.le_refl _) (Follows.refl _ _)) rfl
  have epochs : BootKept counted linked := ⟨rfl, id, rfl, rfl, rfl, by simp [State.link, vget, linked]⟩
  have source : BootKept linked started := by
    unfold started
    split
    · exact .refl linked
    · exact .of_quiet (State.sourceStart_follows (Foot.le_refl _) (Follows.refl _ _)) rfl
  have rng : BootKept started random := by
    refine .trans ?_ (.of_quiet (State.refreshHold_follows (Foot.le_refl _) (Follows.refl _ _)) rfl)
    split
    · exact .reportRng started
    · split
      · exact .of_quiet (State.rngInstantiate_follows (Foot.le_refl _) (Follows.refl _ _)) rfl
      · exact .refl started
  obtain ⟨boot', hub, cause', sel', count', link'⟩ := (((seeded.trans epochs).trans source).trans rng).trans (.hubVotes random)
  refine ⟨hub ?_, ?_, ?_, ?_, ?_, ?_⟩
  · exact up
  · exact boot'.trans boot
  · rw [sel', sels, sampledSel]
  · rw [cause', cause]; exact congrArg (fun b => StartKind.cause (Boot.kind b)) boot
  · rw [count', counts, sampledCount, count]
  · exact link'.trans link

/-! ### Step 8 (R19, R323, R367) -/

theorem State.linkTrain_is (s : State) (l : Nat) : Follows State.linkTrain_foot s (s.linkTrain l) :=
  State.linkTrain_follows (Foot.le_refl _) (Follows.refl _ _)

theorem State.refreshSerdes_is (s : State) : Follows State.refreshSerdes_foot s s.refreshSerdes :=
  State.refreshSerdes_follows (Foot.le_refl _) (Follows.refl _ _)

theorem State.refreshSerdes_up {s : State} (up : s.hubUp = true) : s.refreshSerdes.hubUp = true := by
  unfold State.refreshSerdes
  exact State.aimVote_up (State.aimVote_up up (by decide) _ _) (by decide) _ _

/-- A training leaves the hub up. -/
theorem State.linkTrain_up {s : State} (up : s.hubUp = true) (l : Nat) : (s.linkTrain l).hubUp = true := by
  unfold State.linkTrain
  split
  · exact up
  · exact State.refreshSerdes_up ((s.hubUp_updLink l _).trans up)

/-- A link that is down trains; no other link changes. -/
theorem State.linkTrain_state (s : State) (l : Nat) (down : (s.link l).state = .down) : ((s.linkTrain l).link l).state = .training := by
  unfold State.linkTrain
  rw [if_neg (by simp [down]), State.link_is (State.refreshSerdes_is _) rfl, State.link_updLink]

theorem State.linkTrain_ne (s : State) {l k : Nat} (ne : k % 5 ≠ l % 5) : (s.linkTrain l).link k = s.link k := by
  unfold State.linkTrain
  split
  · rfl
  · rw [State.link_is (State.refreshSerdes_is _) rfl, State.link_updLink_ne _ _ _ _ ne]

/-- With the links' training the hub stays up, and a host link that was down trains. -/
theorem State.trainLinks_spec {s : State} (up : s.hubUp = true) :
    s.trainLinks.hubUp = true ∧ ((s.link 4).state = .down → (s.trainLinks.link 4).state = .training) := by
  have peers : s.trainLinks.hubUp = true ∧ s.trainLinks.link 4 = (s.linkTrain 4).link 4 := by
    unfold State.trainLinks
    refine forAll_keeps (P := fun t : State => t.hubUp = true ∧ t.link 4 = (s.linkTrain 4).link 4) ⟨State.linkTrain_up up 4, rfl⟩ fun p hp t h => ?_
    obtain ⟨hub, link⟩ := h
    split
    · exact ⟨State.linkTrain_up hub p, (t.linkTrain_ne (by omega)).trans link⟩
    · exact ⟨hub, link⟩
  obtain ⟨hub, link⟩ := peers
  exact ⟨hub, fun down => by rw [link]; exact s.linkTrain_state 4 down⟩

/-- The digital clock locks, BOOT_SEL 01: the boot ROM waits in stage 0, and the links train (R323, R327, R329). -/
theorem State.bootSteps_wait {s : State} {seen : BootSeen} (first : s.boot.kind ≠ .bootTimeout) (sel : seen.bootSel = 1) :
    ∃ u : State, s.bootSteps seen =
        ({ u.bootStatus 0 u.slowResult with boot := { (u.bootStatus 0 u.slowResult).boot with step := 8 } } : State).trainLinks ∧
      u.hubUp = true ∧ u.boot = s.boot ∧ u.get R.HUB_BOOT_STATUS_boot_sel = 1 ∧ u.get R.HUB_RESET_CAUSE_cause = s.boot.kind.cause ∧
      u.get R.BOOT_COUNT_count = (s.get R.BOOT_COUNT_count + 1) % 2 ^ 32 ∧ (u.link 4).state = (s.link 4).state := by
  obtain ⟨up, boot, sels, cause, count, link⟩ := s.hubRelease_spec seen.bootSel
  have tables := BootKept.bootTables (s.hubRelease seen.bootSel) seen.bad
  have one : ((s.hubRelease seen.bootSel).bootTables seen.bad).get R.HUB_BOOT_STATUS_boot_sel = 1 := by rw [tables.sel, sels, sel]
  refine ⟨(s.hubRelease seen.bootSel).bootTables seen.bad, ?_, tables.hub up, tables.boot.trans boot, one, tables.cause.trans cause,
    tables.count.trans count, tables.link.trans link⟩
  unfold State.bootSteps
  dsimp only
  rw [one, if_neg (by simp [first])]

theorem State.pllLock_spec {s : State} {seen : BootSeen} (first : s.boot.kind ≠ .bootTimeout) (sel : seen.bootSel = 1) :
    let t := s.bootSteps seen
    t.hubUp = true ∧ t.boot.step = 8 ∧ t.get R.HUB_BOOT_STATUS_boot_sel = 1 ∧ t.get R.HUB_BOOT_STATUS_stage = 0 ∧
      t.get R.HUB_BOOT_STATUS_result = s.slowResult ∧ t.get R.HUB_RESET_CAUSE_cause = s.boot.kind.cause ∧
      t.get R.BOOT_COUNT_count = (s.get R.BOOT_COUNT_count + 1) % 2 ^ 32 ∧ ((s.link 4).state = .down → (t.link 4).state = .training) := by
  obtain ⟨u, e, up, boot, one, cause, count, link⟩ := State.bootSteps_wait first sel
  have small : u.slowResult % 2 ^ 4 = s.slowResult := by
    unfold State.slowResult
    rw [boot]
    split
    · rfl
    · rfl
  intro t
  have he : t = _ := e
  generalize hv : ({ u.bootStatus 0 u.slowResult with boot := { (u.bootStatus 0 u.slowResult).boot with step := 8 } } : State) = v at he
  have fields (f : Field) : v.get f = (u.bootStatus 0 u.slowResult).get f := by rw [← hv]; rfl
  have other (f : Field) (ne : f.row ≠ 18) (ne' : f.row ≠ 21) : v.get f = u.get f :=
    (fields f).trans ((State.get_set_row _ _ _ _ ne').trans (State.get_set_row _ _ _ _ ne))
  have stage : v.get R.HUB_BOOT_STATUS_stage = 0 :=
    (fields _).trans ((State.get_set_row _ _ _ _ (by decide)).trans (State.get_set_same _ _ _))
  have result : v.get R.HUB_BOOT_STATUS_result = u.slowResult % 2 ^ 4 := (fields _).trans (State.get_set_same _ _ _)
  have foot : Follows State.trainLinks_foot v v.trainLinks := State.trainLinks_follows (Foot.le_refl _) (Follows.refl _ _)
  obtain ⟨hub, train⟩ := State.trainLinks_spec (s := v) (by rw [← hv]; exact up)
  have step : v.boot.step = 8 := by rw [← hv]
  have linkV : (v.link 4).state = (s.link 4).state := by rw [← link, ← hv]; rfl
  rw [he]
  refine ⟨hub, (congrArg Boot.step (foot.boot rfl)).trans step, ?_, ?_, ?_, ?_, ?_, fun down => train (linkV.trans down)⟩
  · rw [foot.get _ rfl, other _ (by decide) (by decide), one]
  · rw [foot.get _ rfl, stage]
  · rw [foot.get _ rfl, result, small]
  · rw [foot.get _ rfl, other _ (by decide) (by decide), cause]
  · rw [foot.get R.BOOT_COUNT_count (by decide), other _ (by decide) (by decide), count]

/-! ### A boot that takes too long (R330) -/

theorem State.bootTimeout_spec {s : State} (up : s.hubUp = true) (waits : s.boot.ready = false) (late : 3 ≤ s.boot.step)
    (first : s.boot.timeouts = 0) :
    let t := s.bootTimeout
    t.boot.kind = .bootTimeout ∧ t.boot.step = 3 ∧ t.boot.timeouts = 1 ∧ t.boot.slipway = true ∧ t.get R.HUB_BOOT_STATUS_result = 6 ∧
      (∀ g : Nat, t.eng g = s.eng g) := by
  unfold State.bootTimeout
  rw [if_neg (by simp [up, waits, late]), if_pos first]
  extract_lets boot u t
  have foot : Follows State.bootRecord_foot (u.bootStatus (u.get R.HUB_BOOT_STATUS_stage) 6) t :=
    State.bootRecord_follows (Foot.le_refl _) (Follows.refl _ _)
  have kept := foot.boot rfl
  refine ⟨congrArg Boot.kind kept, congrArg Boot.step kept, congrArg Boot.timeouts kept, congrArg Boot.slipway kept,
    (foot.get _ rfl).trans (State.get_set_same _ _ _), fun g => foot.engs_eq rfl g⟩

/-- Settles O45, by what each event of steps 1 to 3 leaves of the rails, of the start and of the hub. -/
theorem railsAndBoots : Obligations.RailsAndBoots := by
  unfold Obligations.RailsAndBoots
  refine ⟨fun s k => ⟨fun on wait => ⟨_, rfl, State.crystalStable_spec on wait⟩,
    fun one wait good free => ⟨_, rfl, State.crystalTimeout_spec one wait good free⟩, fun on => ⟨_, rfl, State.tcxoUp_spec on⟩,
    fun on good two free => ⟨_, rfl, State.pwrGoodRise_spec k.isLt on good two free⟩, fun on => ⟨fun low => ?_, fun high => ?_⟩,
    fun kind two off held good free => ⟨_, rfl, State.railRetry_spec kind two off held good free⟩,
    ⟨_, rfl, State.lowHoldEnd_spec s k.val⟩⟩,
    fun s seen => ⟨rfl, fun three first sel => ⟨_, rfl, ?_⟩,
      fun up waits late first => ⟨_, rfl, State.bootTimeout_spec up waits late first⟩⟩⟩
  · exact ⟨_, next_congr (State.railFailure_is on low), State.railDown_spec _ _ _⟩
  · obtain ⟨u, e, fails⟩ := State.pwrGoodDrop_is on high
    have down := u.railDown_spec k.val true
    rw [fails] at down
    exact ⟨_, next_congr e, down⟩
  · rw [if_pos three]
    exact State.pllLock_spec first sel

end Sys2Proof.Machine
end

section
/-! Element registers of a tile that is armed: what a write of a shadow or of the control word meets, and the claim. -/

namespace Sys2Proof.Machine

open Sys2Proof

/-! ### The guarded registers of an element (Table 2.6, R40) -/

/-- The offset of ELEM_RX_GAIN_SH, or of ELEM_CTRL, in an element's block. -/
def elemOff (shadow : Bool) : Nat := if shadow then 0x0C else 0

/-- The address of that register of element e. -/
def elemReg (e : Nat) (shadow : Bool) : Nat := 0x04010000 + 0x800000 * (e / 64) + 0x100 * (e % 64) + elemOff shadow

theorem elemOff_cases (shadow : Bool) : elemOff shadow = 0 ∨ elemOff shadow = 0x0C := by
  cases shadow
  · exact .inl rfl
  · exact .inr rfl

theorem regionOf_tile {a : Nat} (lo : 0x04000000 ≤ a) (hi : a < 0x08000000) :
    regionOf a = ((tileRegion ((a - 0x04000000) % 0x800000)).1, a / 0x800000 * 0x800000 + (tileRegion ((a - 0x04000000) % 0x800000)).2) := by
  unfold regionOf
  iterate 8 rw [if_neg (by omega)]
  rw [if_pos hi]

section Place

variable {e : Nat} (he : e < 512) (shadow : Bool)
include he

/-- Where the register stands: in the window of its tile, past the tile's own blocks. -/
theorem elemReg_offset :
    (elemReg e shadow - 0x04000000) / 0x800000 = e / 64 ∧ elemReg e shadow % 0x800000 = 0x10000 + 0x100 * (e % 64) + elemOff shadow := by
  have := elemOff_cases shadow
  unfold elemReg
  omega

theorem elemReg_window : 0x04000000 ≤ elemReg e shadow ∧ elemReg e shadow < 0x08000000 ∧ elemReg e shadow % 4 = 0 := by
  have := elemOff_cases shadow
  unfold elemReg
  omega

theorem regionOf_elemReg : (regionOf (elemReg e shadow)).1 = .reg := by
  obtain ⟨lo, hi, -⟩ := elemReg_window he shadow
  obtain ⟨-, off⟩ := elemReg_offset he shadow
  have := elemOff_cases shadow
  have elems : tileRegion ((elemReg e shadow - 0x04000000) % 0x800000) = (.reg, 0x14000) := by
    unfold tileRegion
    rw [if_neg (by omega), if_pos (by omega)]
  rw [regionOf_tile lo hi, elems]

theorem engPlace_elemReg : engPlace (elemReg e shadow) = none := by
  obtain ⟨lo, hi, -⟩ := elemReg_window he shadow
  obtain ⟨-, off⟩ := elemReg_offset he shadow
  unfold engPlace
  rw [if_neg (by simp; omega), if_neg (by simp; omega)]

theorem regPlace_elemReg : regPlace (elemReg e shadow) = ⟨.elem, e, elemOff shadow⟩ := by
  obtain ⟨lo, hi, -⟩ := elemReg_window he shadow
  obtain ⟨tile, off⟩ := elemReg_offset he shadow
  have := elemOff_cases shadow
  unfold regPlace
  iterate 5 rw [if_neg (by simp; omega)]
  rw [if_pos (by simp; omega), tile, off]
  unfold tilePlace
  rw [if_pos (by omega)]
  congr 1 <;> omega

/-- A write of the register is the element's business. -/
theorem State.regWrite_elemReg (s : State) (deck posted : Bool) (v : Nat) :
    s.regWrite deck posted (elemReg e shadow) v = s.writeElem e (elemOff shadow) (elemReg e shadow) v := by
  obtain ⟨lo, hi, -⟩ := elemReg_window he shadow
  have block : s.writeTileReg (elemReg e shadow) v = s.writeElem e (elemOff shadow) (elemReg e shadow) v := by
    unfold State.writeTileReg
    rw [regPlace_elemReg he shadow]
  unfold State.regWrite
  split
  case h_18 => rw [if_pos (by simp [lo, hi]), block]
  all_goals omega

end Place

/-- An armed element refuses both registers, and nothing changes (R40). -/
theorem State.writeElem_armed {s : State} {e : Nat} (armed : s.get (R.ELEM_STATUS_armed e) = 1) (shadow : Bool) (a v : Nat) :
    s.writeElem e (elemOff shadow) a v = (s, .busy) := by
  have on : s.on (R.ELEM_STATUS_armed e) = true := by unfold State.on; rw [armed]; rfl
  have guarded : ((elemOff shadow = 0 || elemOff shadow = 0x0C) && s.on (R.ELEM_STATUS_armed e)) = true := by
    rw [on]; cases shadow <;> rfl
  unfold State.writeElem
  rw [if_pos guarded]

/-- REGISTER_WRITE of a word, not posted, is the access that the named registers' commands make. -/
theorem State.writeBy_word (s : State) (ini : Initiator) (a v : Nat) : s.writeBy ini false a (toBytes 4 v) = s.regWriteBy ini a v := by
  unfold State.writeBy State.regWriteBy
  cases s.reachable <;> rfl

/-- Settles O21, by the place of the two registers and the element's refusal while it is armed. -/
theorem armedElementsRefuse : Obligations.ArmedElementsRefuse := by
  unfold Obligations.ArmedElementsRefuse
  intro s ini e shadow data a opens _ armed
  have small : elemReg e.val shadow < 2 ^ 32 := (elemReg_window e.isLt shadow).2.1.trans (by decide)
  have word : data.toNat % 2 ^ 32 = data.toNat := Nat.mod_eq_of_lt data.isLt
  have write : s.regWriteBy ini (elemReg e.val shadow) data.toNat = s.reply .busy [] := by
    have o : s.opens ini true (elemReg e.val shadow) (data.toNat % 2 ^ 32) := by rw [word]; exact opens
    obtain ⟨lo, -, aligned⟩ := elemReg_window e.isLt shadow
    rw [State.regWriteBy_block (regionOf_elemReg e.isLt shadow) aligned (by omega) (engPlace_elemReg e.isLt shadow) o,
      State.regWrite_elemReg e.isLt shadow, State.writeElem_armed armed]
  refine ⟨s.reply .busy [], next_congr ?_, rfl, rfl, fun _ _ => rfl, fun _ => rfl⟩
  rw [show (BitVec.ofNat 32 a).toNat = elemReg e.val shadow from (BitVec.toNat_ofNat ..).trans (Nat.mod_eq_of_lt small), State.writeBy_word, write]

end Sys2Proof.Machine
end

section
/-! Crossings from the warm command to the end: what stands at a tile's radio, what stays of the fetched crossings, and the claim. -/

namespace Sys2Proof.Machine

open Sys2Proof

/-! ### What stands at a tile's radio -/

/-- The radio of a tile, the locks of its synthesisers, and whether a TILE reset holds it. -/
structure TileFace where
  radio : Radio
  lockA : Bool
  lockB : Bool
  inReset : Bool

def TileSt.face (x : TileSt) : TileFace := ⟨x.radio, x.lockA, x.lockB, x.inReset⟩

def State.face (s : State) (k : Nat) : TileFace := (s.tile k).face

/-- The radio in state r, and the rest as it stands. -/
def TileFace.at (x : TileFace) (r : Radio) : TileFace := { x with radio := r }

/-- A tile's number counts modulo 8. -/
theorem State.tile_mod (s : State) {k t : Nat} (e : k % 8 = t % 8) : s.tile k = s.tile t := by simp only [State.tile, vget, e]

/-- No tile's radio, locks or reset have changed from s to t. -/
def sameFaces (s t : State) : Prop := ∀ k : Nat, t.face k = s.face k

theorem sameFaces.refl (s : State) : sameFaces s s := fun _ => rfl

theorem sameFaces.trans {s t u : State} (h : sameFaces s t) (g : sameFaces t u) : sameFaces s u := fun k => (g k).trans (h k)

theorem sameFaces.ite {c : Prop} [Decidable c] {s a b : State} (ha : sameFaces s a) (hb : sameFaces s b) : sameFaces s (if c then a else b) := by
  split
  · exact ha
  · exact hb

theorem sameFaces.of_follows {p : Foot} {s t : State} (h : Follows p s t) (e : p.comp 8 = false) : sameFaces s t := fun k => by
  unfold State.face State.tile; rw [h.tiles e]

theorem State.face_updTile (s : State) (t k : Nat) (f : TileSt → TileSt) :
    (s.updTile t f).face k = if k % 8 = t % 8 then (f (s.tile k)).face else s.face k := by
  by_cases e : k % 8 = t % 8
  · unfold State.face
    rw [if_pos e, s.tile_mod e, State.tile_mod _ e]
    exact congrArg TileSt.face (vget_vset_same _ _ _)
  · rw [if_neg e]
    exact congrArg TileSt.face (vget_vset_ne _ _ _ _ e)

/-- A change of a tile that is none of its radio's. -/
theorem sameFaces_updTile (s : State) (t : Nat) {f : TileSt → TileSt} (keep : ∀ x : TileSt, (f x).face = x.face) : sameFaces s (s.updTile t f) :=
  fun k => by
    rw [State.face_updTile]
    split
    · exact keep _
    · rfl

/-- From s to t tile i alone has changed at its radio: x stands there now. -/
def onlyFace (s t : State) (i : Nat) (x : TileFace) : Prop := ∀ k : Nat, t.face k = if k % 8 = i % 8 then x else s.face k

theorem onlyFace.refl (s : State) (i : Nat) : onlyFace s s i (s.face i) := fun k => by
  split
  next e => exact congrArg TileSt.face (s.tile_mod e)
  next => rfl

/-- Steps that change no radio may come before and after. -/
theorem onlyFace.between {s u v t : State} {i : Nat} {x : TileFace} (before : sameFaces s u) (h : onlyFace u v i x) (after : sameFaces v t) :
    onlyFace s t i x := fun k => by rw [after k, h k, before k]

theorem onlyFace_updTile (s : State) (i : Nat) (f : TileSt → TileSt) : onlyFace s (s.updTile i f) i (f (s.tile i)).face := fun k => by
  rw [State.face_updTile]
  split
  next e => rw [s.tile_mod e]
  next => rfl

theorem sameFaces_updBank (s : State) (t n : Nat) (f : BankPair → BankPair) : sameFaces s (s.updBank t n f) :=
  sameFaces_updTile s t fun _ => rfl

/-! ### Elements leave the radios (R44 to R56) -/

theorem sameFaces_maskNow (s : State) (e : Nat) : sameFaces s (s.maskNow e) := by
  unfold State.maskNow State.recomputeLive
  exact .ite (.refl s) (.trans (fun _ => rfl) (sameFaces_updTile _ _ fun _ => rfl))

theorem sameFaces_fireTile (s : State) (t k : Nat) : sameFaces s (s.fireTile t k) := by
  unfold State.fireTile
  exact .ite (sameFaces_updTile _ _ fun _ => rfl) (.of_follows (s.fire_is _) rfl)

theorem sameFaces_dcCheck (s : State) (e : Nat) : sameFaces s (s.dcCheck e) := by
  unfold State.dcCheck
  refine .ite (.refl s) ?_
  extract_lets was railed fired
  have hfired : sameFaces s fired := .ite (fun _ => rfl) (.trans (t := railed) (fun _ => rfl) (sameFaces_fireTile _ _ _))
  exact .ite (hfired.trans (sameFaces_maskNow _ _)) hfired

theorem sameFaces_restoreRx (s : State) (e : Nat) : sameFaces s (s.restoreRx e) := by
  unfold State.restoreRx
  exact .ite (.refl s) (.trans (fun _ => rfl) (sameFaces_dcCheck _ _))

theorem sameFaces_restoreTile (s : State) (t : Nat) : sameFaces s (s.restoreTile t) := by
  unfold State.restoreTile
  split
  · exact forAll_keeps (.refl s) fun j _ u h => h.trans (sameFaces_restoreRx _ _)
  · exact forAll_keeps (.refl s) fun j _ u h =>
      h.trans (.of_follows (State.restoreTx_follows (Foot.le_refl _) (Follows.refl _ _)) rfl)
  · exact .refl s

theorem sameFaces_updatePoint (s : State) (t : Nat) : sameFaces s (s.updatePoint t) := by
  unfold State.updatePoint
  extract_lets may was updated freed
  have hupdated : sameFaces s updated :=
    .trans (forAll_keeps (.refl s) fun j _ u h => h.trans (.of_follows (State.elemUpdate_follows (Foot.le_refl _) (Follows.refl _ _)) rfl))
      (sameFaces_updTile _ _ fun _ => rfl)
  exact .ite (hupdated.trans (.of_follows (State.govern_follows (Foot.le_refl _) (Follows.refl _ _)) rfl)) hupdated

/-! ### A tile's radio takes a state (Table 5.5) -/

/-- What the elements of a tile may change as they leave RX or TX. -/
def leaveFoot : Foot := ⟨0x200, State.writeBackFine_foot.rows⟩

/-- Out of OFF, the tile's radio is in its new state, and nothing else stands otherwise at any radio. -/
theorem State.tileRadio_face (s : State) (t : Nat) {r : Radio} (on : r ≠ .off) : onlyFace s (s.tileRadio t r) t ((s.face t).at r) := by
  unfold State.tileRadio
  extract_lets old left moved turn updated restored locked
  by_cases e : old = r
  · rw [if_pos e, ← e]
    exact .refl s t
  · rw [if_neg e]
    have le : Foot.le leaveFoot leaveFoot := Foot.le_refl _
    have hleft : Follows leaveFoot s left :=
      Follows.ite
        (Follows.forAll (fun j u h => Follows.ite h (State.writeBackFine_follows (le.sub rfl) h)) (Follows.refl _ _))
        (Follows.ite (Follows.forAll (fun j u h => State.updElem_follows (le.sub rfl) h) (Follows.refl _ _)) (Follows.refl _ _))
    have before : sameFaces s left := .of_follows hleft rfl
    have hupdated : sameFaces moved updated := .ite (sameFaces_updatePoint _ _) (.refl _)
    have hlocked : sameFaces moved locked := by
      unfold locked
      rw [if_neg on]
      exact hupdated.trans (sameFaces_restoreTile _ _)
    have tile : left.face t = s.face t := before t
    rw [← tile]
    exact .between before (onlyFace_updTile _ _ _)
      (hlocked.trans (.of_follows (State.refreshLocks_follows (Foot.le_refl _) (Follows.refl _ _)) rfl))

/-- A radio that arrives in WARM, with every synthesiser that has a channel locked (R59). -/
def State.inWarm (s : State) (x : TileFace) : TileFace :=
  { radio := .warm, lockA := s.get R.RF_CHAN_ch_a != 0, lockB := s.get R.RF_CHAN_ch_b != 0, inReset := x.inReset }

theorem State.tileToWarm_face (s : State) (t : Nat) : onlyFace s (s.tileToWarm t) t (s.inWarm (s.face t)) := by
  unfold State.tileToWarm
  extract_lets warm
  have hwarm : Follows State.tileRadio_foot s warm := State.tileRadio_follows (Foot.le_refl _) (Follows.refl _ _)
  have moved : onlyFace s warm t ((s.face t).at .warm) := s.tileRadio_face t (by decide)
  have tile : warm.face t = (s.face t).at .warm := (moved t).trans (if_pos rfl)
  have on : (warm.tile t).radio = .warm := congrArg TileFace.radio tile
  have reset : (warm.tile t).inReset = (s.face t).inReset := congrArg TileFace.inReset tile
  have locked := onlyFace_updTile warm t fun x => { x with lockA := warm.get R.RF_CHAN_ch_a != 0, lockB := warm.get R.RF_CHAN_ch_b != 0 }
  refine fun k => (sameFaces.of_follows (State.refreshLocks_follows (Foot.le_refl _) (Follows.refl _ _)) rfl k).trans ((locked k).trans ?_)
  split
  next =>
    unfold TileSt.face State.inWarm
    dsimp only
    rw [on, reset, hwarm.get R.RF_CHAN_ch_a (by decide), hwarm.get R.RF_CHAN_ch_b (by decide)]
  next e => rw [moved k, if_neg e]

/-! ### Loops over the tiles of a crossing -/

/-- A loop over tiles whose step i changes what stands at tile i's radio alone, and that in one way in every state that keeps I. -/
theorem forBits_faces {I : State → Prop} {new : Nat → TileFace → TileFace} {m : Nat} {f : Nat → State → State} {s : State} (start : I s)
    (step : ∀ (i : Nat) (u : State), I u → I (f i u) ∧ onlyFace u (f i u) i (new i (u.face i))) :
    I (forBits 8 m f s) ∧ ∀ k : Nat, k < 8 → (forBits 8 m f s).face k = if m.testBit k then new k (s.face k) else s.face k := by
  have upTo : ∀ j : Nat, j ≤ 8 → I (forBits j m f s) ∧
      ∀ k : Nat, k < 8 → (forBits j m f s).face k = if k < j ∧ m.testBit k = true then new k (s.face k) else s.face k := by
    intro j
    induction j with
    | zero => exact fun _ => ⟨start, fun k _ => by simp [forBits]⟩
    | succ j ih =>
      intro hj
      obtain ⟨inv, faces⟩ := ih (by omega)
      obtain ⟨inv', only⟩ := step j _ inv
      have here {k : Nat} (hk : k < 8) : k % 8 = j % 8 ↔ k = j := by omega
      have earlier {k : Nat} (ne : k ≠ j) : k < j + 1 ↔ k < j := by omega
      rw [forBits_succ]
      by_cases bit : m.testBit j = true
      · rw [if_pos bit]
        refine ⟨inv', fun k hk => ?_⟩
        rw [only k]
        by_cases e : k = j
        · subst e; simp [faces k hk, bit]
        · simp only [here hk, if_neg e, faces k hk, earlier e]
      · rw [if_neg bit]
        refine ⟨inv, fun k hk => ?_⟩
        by_cases e : k = j
        · subst e; simp [faces k hk, bit]
        · simp only [faces k hk, earlier e]
  obtain ⟨inv, faces⟩ := upTo 8 (Nat.le_refl 8)
  exact ⟨inv, fun k hk => by rw [faces k hk]; simp only [hk, true_and]⟩

/-! ### Commands to the tiles of a crossing (R60, R151, R153) -/

/-- A domain runs as before where its phase, its force-off and its clock gate are. -/
theorem State.domRuns_is {p : Foot} {s t : State} (h : Follows p s t)
    (quiet : (!p.comp 5 && !p.row R.PWR_FORCE_OFF_force.row && !p.row R.PWR_CLK_GATE_gate.row) = true) (d : Nat) : t.domRuns d = s.domRuns d := by
  simp only [Bool.and_eq_true, Bool.not_eq_true'] at quiet
  obtain ⟨⟨pwr, force⟩, gate⟩ := quiet
  unfold State.domRuns State.bit
  rw [State.domUp_pwr h pwr, h.get _ force, h.get _ gate]

/-- What stands at tile k's radio after the warm command: a tile in OFF whose logic runs is in WARM (R59, R151). -/
def State.warmed (s : State) (k : Nat) (x : TileFace) : TileFace :=
  if s.domRuns (k % 8 + 1) && !x.inReset && x.radio == .off then s.inWarm x else x

theorem State.warmCommand_face {s : State} {x : XRef} {src : XSrc} {d : Desc} {w : Nat} (ahead : s.lookAhead x = some (src, d, w))
    (codes : List (Nat × Nat × Int × Int)) {k : Nat} (hk : k < 8) :
    (s.warmCommand x codes).face k = if (s.descTiles d).testBit k then s.warmed k (s.face k) else s.face k := by
  unfold State.warmCommand
  split
  next no => rw [ahead] at no; cases no
  next src' d' w' it =>
    obtain ⟨-, rfl, rfl⟩ : src = src' ∧ d = d' ∧ w = w' := by simpa using ahead.symm.trans it
    extract_lets reached
    have le : Foot.le State.warmCommand_foot State.warmCommand_foot := Foot.le_refl _
    refine (forBits_faces (I := Follows State.warmCommand_foot reached) (new := s.warmed) (Follows.refl _ _) fun i u h => ⟨?_, ?_⟩).2 k hk
    · exact Follows.ite (State.writeCoarse_follows (le.sub rfl) (State.tileToWarm_follows (le.sub rfl) h)) h
    · have runs : u.tileRuns i = (s.domRuns (i % 8 + 1) && !(u.face i).inReset) :=
        congrArg (fun b => b && !(u.tile i).inReset) (State.domRuns_is h (by decide) _)
      have radio : (u.tile i).radio = (u.face i).radio := rfl
      have warm : u.inWarm (u.face i) = s.inWarm (u.face i) := by
        unfold State.inWarm
        rw [h.get R.RF_CHAN_ch_a (by decide), h.get R.RF_CHAN_ch_b (by decide)]
        rfl
      rw [runs, radio]
      unfold State.warmed
      split
      next =>
        rw [← warm]
        exact .between (.refl u) (u.tileToWarm_face i) (.of_follows (State.writeCoarse_follows (Foot.le_refl _) (Follows.refl _ _)) rfl)
      next => exact .refl u i

theorem State.nextOn_eq {s : State} {slot : Nat} {p : Crossing → Bool} {c d : Crossing} (h : s.nextOn slot p = some c) (g : s.nextOn slot p = some d) :
    d = c := Option.some.inj (g.symm.trans h)

/-- The synthesiser that feeds the elements has a channel, and what stands at a radio is locked on it (R60). -/
def State.faceLocked (s : State) (x : TileFace) : Bool :=
  s.liveChannel != 0 && (if s.on R.RF_CHAN_STATUS_live_sel then x.lockB else x.lockA)

/-- What stands at a tile's radio after the turn: a locked tile in IDLE is in RX or TX. -/
def State.turned (s : State) (tx : Bool) (x : TileFace) : TileFace :=
  if x.radio == .idle && s.faceLocked x then x.at (if tx then .tx else .rx) else x

/-- A tile turns to TX or RX where it was in IDLE with its synthesiser locked. -/
theorem State.turned_radio (s : State) (k dir : Nat) :
    (s.turned (dir == 1) (s.face k)).radio =
      if (s.tile k).radio == .idle && s.tileLocked k then (if dir = 1 then .tx else .rx) else (s.tile k).radio := by
  have due : ((s.face k).radio == .idle && s.faceLocked (s.face k)) = ((s.tile k).radio == .idle && s.tileLocked k) := rfl
  unfold State.turned
  rw [due]
  split
  · by_cases tx : dir = 1
    · rw [if_pos tx, if_pos (beq_iff_eq.mpr tx)]
      rfl
    · rw [if_neg tx, if_neg (by rw [beq_iff_eq]; exact tx)]
      rfl
  · rfl

theorem State.turnCommand_face {s : State} {slot : Nat} {c : Crossing} (next : s.nextOn slot (fun y => y.checked && !y.started) = some c)
    {k : Nat} (hk : k < 8) :
    (s.turnCommand slot).face k = if c.tiles.testBit k then s.turned (c.d.dir == 1) (s.face k) else s.face k := by
  unfold State.turnCommand
  split
  next no => rw [next] at no; cases no
  next d it =>
    obtain rfl := State.nextOn_eq next it
    extract_lets tx reached
    have le : Foot.le State.turnCommand_foot State.turnCommand_foot := Foot.le_refl _
    refine (forBits_faces (I := Follows State.turnCommand_foot reached) (new := fun _ => s.turned tx) (Follows.refl _ _)
      fun i u h => ⟨?_, ?_⟩).2 k hk
    · exact Follows.ite (State.tileTurn_follows (le.sub rfl) h) h
    · have locked : u.tileLocked i = s.faceLocked (u.face i) := by
        unfold State.tileLocked State.faceLocked State.liveChannel State.on
        rw [h.get R.RF_CHAN_STATUS_live_sel (by decide), h.get R.RF_CHAN_ch_a (by decide), h.get R.RF_CHAN_ch_b (by decide)]
        rfl
      have radio : (u.tile i).radio = (u.face i).radio := rfl
      unfold State.tileTurn State.turned
      rw [locked, radio]
      by_cases idle : ((u.face i).radio == .idle) = true
      · by_cases lock : s.faceLocked (u.face i) = true
        · have both : ((u.face i).radio == .idle && s.faceLocked (u.face i)) = true := by rw [idle, lock]; rfl
          have on : (if tx then Radio.tx else .rx) ≠ .off := by cases tx <;> decide
          rw [if_pos idle, if_pos lock, if_pos both]
          exact u.tileRadio_face i on
        · rw [if_pos idle, if_neg lock, if_neg (by simp [lock])]
          exact .refl u i
      · rw [if_neg idle, if_neg (by simp [idle])]
        exact .refl u i

/-- What stands at a tile's radio after the readiness check has passed: a tile in WARM is in IDLE. -/
def TileFace.readied (x : TileFace) : TileFace := if x.radio == .warm then x.at .idle else x

/-- The tiles in WARM that a crossing uses go to IDLE (R153). -/
def State.readyTiles (s : State) (tiles : Nat) : State :=
  forBits 8 tiles (fun t s => if (s.tile t).radio == .warm then s.tileRadio t .idle else s) s

theorem State.readyTiles_spec (s : State) (tiles : Nat) :
    Follows State.tileRadio_foot s (s.readyTiles tiles) ∧
      ∀ k : Nat, k < 8 → (s.readyTiles tiles).face k = if tiles.testBit k then (s.face k).readied else s.face k := by
  refine forBits_faces (new := fun _ => TileFace.readied) (Follows.refl _ _) fun i u h => ⟨?_, ?_⟩
  · exact Follows.ite (State.tileRadio_follows (Foot.le_refl _) h) h
  · have radio : (u.tile i).radio = (u.face i).radio := rfl
    rw [radio]
    unfold TileFace.readied
    split
    next => exact u.tileRadio_face i (by decide)
    next => exact .refl u i

/-! ### Fetched crossings -/

/-- What a crossing given a new form is: the new form of one with that number, or another as it was. -/
theorem State.updCrossing_mem {s : State} {id : Nat} {f : Crossing → Crossing} {y : Crossing} (h : y ∈ (s.updCrossing id f).xng.fetched) :
    ∃ x ∈ s.xng.fetched, y = if x.id = id then f x else x := by
  obtain ⟨x, hx, rfl⟩ := List.mem_map.mp h
  exact ⟨x, hx, rfl⟩

/-- A mark that a change sets in the crossing with a number stands in every crossing of that number. -/
theorem State.updCrossing_mark {s : State} {id : Nat} {f : Crossing → Crossing} {p : Crossing → Prop} (set : ∀ x : Crossing, p (f x))
    {y : Crossing} (h : y ∈ (s.updCrossing id f).xng.fetched) (own : y.id = id) : p y := by
  obtain ⟨x, -, rfl⟩ := State.updCrossing_mem h
  by_cases e : x.id = id
  · rw [if_pos e]; exact set x
  · rw [if_neg e] at own; exact absurd own e

/-- What a choice along a list comes to is a member. -/
theorem foldl_picks_mem {α : Type} {f : Option α → α → Option α} (pick : ∀ b x, f b x = b ∨ f b x = some x) {l : List α} {c : α}
    (h : l.foldl f none = some c) : c ∈ l := by
  rcases foldl_picks pick l none with e | ⟨x, hx, e⟩
  · cases e.symm.trans h
  · rw [← Option.some.inj (e.symm.trans h)]
    exact hx

theorem State.nextOn_mem {s : State} {slot : Nat} {p : Crossing → Bool} {c : Crossing} (h : s.nextOn slot p = some c) : c ∈ s.xng.fetched := by
  unfold State.nextOn at h
  refine List.mem_of_mem_filter (foldl_picks_mem (fun b x => ?_) h)
  cases b with
  | none => exact .inr rfl
  | some b =>
    by_cases lt : x.b0 < b.b0
    · exact .inr (if_pos lt)
    · exact .inl (if_neg lt)

/-- No fetched crossing has this number. -/
def State.gone (s : State) (id : Nat) : Prop := ∀ y : Crossing, y ∈ s.xng.fetched → y.id ≠ id

theorem State.gone.of_fetched {s t : State} {id : Nat} (h : s.gone id) (e : t.xng.fetched = s.xng.fetched) : t.gone id := by
  unfold State.gone
  rw [e]
  exact h

theorem State.gone.of_follows {p : Foot} {s t : State} {id : Nat} (h : s.gone id) (f : Follows p s t) (e : p.comp 12 = false) : t.gone id :=
  h.of_fetched (by rw [f.xng e])

/-- A crossing taken out of the fetched ones is gone. -/
theorem filter_gone (l : List Crossing) (id : Nat) : ∀ y : Crossing, y ∈ l.filter (fun y => y.id != id) → y.id ≠ id := fun _ hy =>
  bne_iff_ne.mp (List.mem_filter.mp hy).2

theorem State.unvoteFor_fetched (s : State) (src : XSrc) : (s.unvoteFor src).xng.fetched = s.xng.fetched := by
  unfold State.unvoteFor
  rw [(State.refreshVotes_follows (Foot.le_refl _) (Follows.refl _ _)).xng rfl]

/-! ### Skips (R161) -/

/-- What a skip record may change once its reason is counted. -/
def recordRest : Foot := ⟨0x40004, 0x500000000000000000000000000000000001000000000000000000⟩

/-- What goes of a skipped crossing's slot: its swaps, its request for the band, its frames. -/
def dropFoot : Foot := ⟨0x8880, State.dropSwaps_foot.rows⟩

/-- What the return of a crossing's tiles and its neighbour's idle instant may change. -/
def returnFoot : Foot := ⟨0x4042b00, State.returnTiles_foot.rows ||| State.nbrPoke_foot.rows⟩

/-- Row 215 holds the counts of the skips' reasons. -/
theorem Follows.skipCount {p : Foot} {s t : State} (h : Follows p s t) (e : p.row 215 = false) (reason : Nat) :
    t.get (R.XNG_SKIP_CNT_count reason) = s.get (R.XNG_SKIP_CNT_count reason) := h.get _ e

/-- A skip counts its reason. -/
theorem State.skipRing_count (s : State) (d : Desc) (w : Nat) (pushed : Bool) (reason : Nat) :
    (s.skipRing d w pushed reason).get (R.XNG_SKIP_CNT_count reason) = min (s.get (R.XNG_SKIP_CNT_count reason) + 1) (2 ^ 32 - 1) := by
  have le : Foot.le recordRest recordRest := Foot.le_refl _
  unfold State.skipRing
  extract_lets counted wr w0 w1
  have here : counted.get (R.XNG_SKIP_CNT_count reason) = min (s.get (R.XNG_SKIP_CNT_count reason) + 1) (2 ^ 32 - 1) :=
    (State.get_set_same _ _ _).trans (Nat.mod_eq_of_lt (show min (s.get (R.XNG_SKIP_CNT_count reason) + 1) (2 ^ 32 - 1) < 2 ^ 32 by omega))
  rw [← here]
  refine Follows.skipCount (p := recordRest) (Follows.ite ?_ ?_) (by decide) reason
  · exact State.fire_follows (le.sub rfl) (State.set_follows 212 le (Follows.refl _ _))
  · exact State.fire_follows (le.sub rfl) (State.yarn_follows (le.sub rfl)
      (State.set_follows 214 le (State.setWords_follows (le.sub rfl) (Follows.refl _ _))))

theorem State.skipRecord_count (s : State) (d : Desc) (w : Nat) (pushed : Bool) (reason : Nat) :
    (s.skipRecord d w pushed reason).get (R.XNG_SKIP_CNT_count reason) = min (s.get (R.XNG_SKIP_CNT_count reason) + 1) (2 ^ 32 - 1) := by
  have stat : Follows State.nbrStat_foot s (s.nbrStat d.nbr 13) := State.nbrStat_follows (Foot.le_refl _) (Follows.refl _ _)
  have tally : Follows State.pmc_foot (s.nbrStat d.nbr 13) ((s.nbrStat d.nbr 13).pmc 0x041 d.slot) :=
    State.pmc_follows (Foot.le_refl _) (Follows.refl _ _)
  unfold State.skipRecord
  rw [State.skipRing_count, tally.skipCount (by decide), stat.skipCount (by decide)]

/-- A crossing's tiles take its return state, and its neighbour may be idle. -/
theorem State.returned_is (s : State) (tiles ret nbr : Nat) : Follows returnFoot s ((s.returnTiles tiles ret).nbrPoke nbr) :=
  have le : Foot.le returnFoot returnFoot := Foot.le_refl _
  State.nbrPoke_follows (le.sub rfl) (State.returnTiles_follows (le.sub rfl) (Follows.refl _ _))

/-- A skipped crossing is no longer fetched, and its reason is counted. -/
theorem State.skipCrossing_spec (s : State) (c : Crossing) (reason : Nat) :
    (s.skipCrossing c reason).gone c.id ∧
      (s.skipCrossing c reason).get (R.XNG_SKIP_CNT_count reason) = min (s.get (R.XNG_SKIP_CNT_count reason) + 1) (2 ^ 32 - 1) := by
  unfold State.skipCrossing
  extract_lets xng out swaps tx dropped noted
  have le : Foot.le dropFoot dropFoot := Foot.le_refl _
  have record : Follows State.skipRecord_foot out (out.skipRecord c.d c.winStart c.pushed reason) :=
    State.skipRecord_follows (Foot.le_refl _) (Follows.refl _ _)
  have hswaps : Follows dropFoot (out.skipRecord c.d c.winStart c.pushed reason) swaps :=
    State.refreshCx_follows (le.sub rfl) (State.dropSwaps_follows (le.sub rfl) (Follows.refl _ _))
  have hdropped : Follows dropFoot (out.skipRecord c.d c.winStart c.pushed reason) dropped :=
    Follows.ite (Follows.forAll (fun p u h => State.updPipe_follows (le.sub rfl) h) (State.updSlot_follows (le.sub rfl) hswaps)) hswaps
  obtain ⟨fetched, regs⟩ : noted.xng.fetched = dropped.xng.fetched ∧ noted.regs = dropped.regs := by
    unfold noted
    split <;> exact ⟨rfl, rfl⟩
  have unvoted : Follows State.unvoteFor_foot noted (noted.unvoteFor c.src) := State.unvoteFor_follows (Foot.le_refl _) (Follows.refl _ _)
  have rest := (noted.unvoteFor c.src).returned_is c.tiles c.d.ret c.d.nbr
  constructor
  · have left : out.gone c.id := filter_gone _ _
    have kept : dropped.gone c.id := (left.of_follows record rfl).of_follows hdropped rfl
    exact ((kept.of_fetched fetched).of_fetched (noted.unvoteFor_fetched c.src)).of_follows rest rfl
  · have same : noted.get (R.XNG_SKIP_CNT_count reason) = dropped.get (R.XNG_SKIP_CNT_count reason) := congrArg (fun r : RegFile => r.read _) regs
    rw [rest.skipCount (by decide), unvoted.skipCount (by decide), same, hdropped.skipCount (by decide), State.skipRecord_count]
    rfl

/-! ### The readiness check (R153) -/

/-- What every step keeps, a loop over the set bits of a mask keeps. -/
theorem forBits_keeps {α : Type} {P : α → Prop} {n m : Nat} {f : Nat → α → α} {a : α} (h : P a) (step : ∀ (i : Nat) (b : α), P b → P (f i b)) :
    P (forBits n m f a) :=
  List.foldlRecOn (List.range n) _ h fun b hb i _ => by
    split
    · exact step i b hb
    · exact hb

/-- A preload empties shadow banks, and touches no radio. -/
theorem sameFaces_preload (s : State) (slot sw dir : Nat) : sameFaces s (s.preload slot sw dir).1 := by
  unfold State.preload
  split
  · exact .refl s
  · extract_lets superseded cleared r c wait copied emptied shown failed
    have hcleared : sameFaces s cleared := fun _ => rfl
    have hcopied : sameFaces s copied := fun _ => rfl
    have hemptied : sameFaces s emptied := forBits_keeps hcopied fun t u h => h.trans (sameFaces_updBank _ _ _ _)
    have hshown : sameFaces s shown := hemptied.trans fun _ => rfl
    have hfailed : sameFaces s failed :=
      forBits_keeps hshown fun t u h => .ite h (h.trans (.of_follows (State.preloadFail_follows (Foot.le_refl _) (Follows.refl _ _)) rfl))
    split
    · exact hcleared
    · split
      · exact hfailed
      · exact hfailed

/-- The preload and the swap request of a crossing touch no radio, no fetched crossing and no mesh time. -/
theorem State.askForSwatch_spec (s : State) (c : Crossing) :
    sameFaces s (s.askForSwatch c) ∧ (s.askForSwatch c).xng = s.xng ∧ (s.askForSwatch c).clk = s.clk := by
  have foot : Follows State.askForSwatch_foot s (s.askForSwatch c) := State.askForSwatch_follows (Foot.le_refl _) (Follows.refl _ _)
  refine ⟨?_, foot.xng rfl, foot.clk rfl⟩
  unfold State.askForSwatch
  extract_lets loaded
  have hloaded : sameFaces s loaded := .ite (sameFaces_preload _ _ _ _) (.refl s)
  exact hloaded.trans (.of_follows (State.askSwap_follows (Foot.le_refl _) (Follows.refl _ _)) rfl)

/-- The MAC's choice for a crossing is noted with it: no mark of a check goes. -/
theorem State.chooseFor_checked {s : State} {c y : Crossing} (h : y ∈ (s.chooseFor c).xng.fetched) :
    ∃ x ∈ s.xng.fetched, y.id = x.id ∧ y.checked = x.checked := by
  unfold State.chooseFor at h
  split at h
  · exact ⟨y, h, rfl, rfl⟩
  · generalize s.chooseFrame c = choice at h
    obtain ⟨tag, ack, nofit⟩ := choice
    obtain ⟨x, hx, rfl⟩ := State.updCrossing_mem h
    have same : (if nofit = true then s.nbrStat c.d.nbr 14 else s).xng = s.xng := by split <;> rfl
    rw [same] at hx
    exact ⟨x, hx, by split <;> rfl, by split <;> rfl⟩

/-- A crossing that passes its readiness check is checked at its time, and its tiles in WARM are in IDLE. -/
theorem State.readiness_passed {s : State} {slot : Nat} {c : Crossing} (next : s.nextOn slot (fun y => !y.checked) = some c) (gnt : Bool)
    (ready : s.readyReason c gnt = 0) :
    (∀ y : Crossing, y ∈ (s.readiness slot gnt).xng.fetched → y.id = c.id → y.checked = true) ∧
      (s.readiness slot gnt).clk.mesh = max s.clk.mesh (c.b0 - 2560) ∧
      ∀ k : Nat, k < 8 → (s.readiness slot gnt).face k = if c.tiles.testBit k then (s.face k).readied else s.face k := by
  unfold State.readiness
  split
  next no => rw [next] at no; cases no
  next d it =>
    obtain rfl := State.nextOn_eq next it
    extract_lets reached pins sampled r readied checked
    have pass : (r != 0) = false := bne_eq_false_iff_eq.mpr ready
    rw [if_neg (by rw [pass]; exact Bool.false_ne_true)]
    obtain ⟨hreadied, faces⟩ : Follows State.tileRadio_foot sampled readied ∧ _ := sampled.readyTiles_spec d.tiles
    have chosen : Follows State.chooseFor_foot checked (checked.chooseFor d) := State.chooseFor_follows (Foot.le_refl _) (Follows.refl _ _)
    obtain ⟨asked, xng, clk⟩ := (checked.chooseFor d).askForSwatch_spec d
    rw [xng, clk, chosen.clk rfl]
    refine ⟨fun y hy own => ?_, congrArg Clk.mesh (hreadied.clk rfl), fun k hk => ?_⟩
    · obtain ⟨x, hx, id, mark⟩ := State.chooseFor_checked hy
      rw [mark]
      exact State.updCrossing_mark (p := fun y => y.checked = true) (fun _ => rfl) hx (id.symm.trans own)
    · rw [asked k, sameFaces.of_follows chosen rfl k]
      exact faces k hk

/-- A crossing that fails its readiness check is skipped with its reason (R153, R161). -/
theorem State.readiness_failed {s : State} {slot : Nat} {c : Crossing} (next : s.nextOn slot (fun y => !y.checked) = some c) (gnt : Bool)
    (fails : s.readyReason c gnt ≠ 0) :
    ∃ u : State, s.readiness slot gnt = u.skipCrossing c (s.readyReason c gnt) ∧ u.regs = s.regs := by
  unfold State.readiness
  split
  next no => rw [next] at no; cases no
  next d it =>
    obtain rfl := State.nextOn_eq next it
    extract_lets reached pins sampled r readied checked
    have fail : (r != 0) = true := bne_iff_ne.mpr fails
    rw [if_pos fail]
    exact ⟨sampled, rfl, rfl⟩

/-! ### A crossing starts (R99, R151, R263) -/

/-- An event under way stays under way as another is produced. -/
theorem State.yarn_keeps {s : State} {x : Nat × Nat × Nat} (w : Nat) (h : x ∈ s.yrn.flying) : x ∈ (s.yarn w).yrn.flying := by
  unfold State.yarn State.produce
  split
  · exact List.mem_append_left _ h
  · exact h

/-- While the hub's fabric runs, a yarn's event is under way once it is produced (R266). -/
theorem State.yarn_flies {s : State} (w : Nat) (runs : s.fabricRuns 0 = true) : (0, w, 2) ∈ (s.yarn w).yrn.flying := by
  unfold State.yarn State.produce
  split
  · exact List.mem_append_right _ List.mem_cons_self
  next already => simpa [runs] using already

theorem State.pmc_yrn (s : State) (ev inst : Nat) : (s.pmc ev inst).yrn = s.yrn := (s.pmcAt_is ev inst 1 none).yrn rfl

theorem State.fire_yrn (s : State) (n : Nat) : (s.fire n).yrn = s.yrn := (s.fire_is n).yrn rfl

/-- A backoff reports its clip, and takes no event off its way. -/
theorem State.applyBackoff_keeps {s : State} {x : Nat × Nat × Nat} (b : Beam) (back : Nat) (off : Bool) (h : x ∈ s.yrn.flying) :
    x ∈ (s.applyBackoff b back off).yrn.flying := by
  unfold State.applyBackoff
  extract_lets n prev hold muted clipped silenced kept applied code
  have hclipped : x ∈ clipped.yrn.flying := by
    unfold clipped
    split
    · have before : x ∈ ((s.setBit R.EIRP_STATUS_clip n).bump (R.BF_CLIP_COUNT_count n)).yrn.flying := h
      rw [State.pmc_yrn, State.fire_yrn]
      exact State.yarn_keeps 34 before
    · exact h
  have hsilenced : silenced.yrn = clipped.yrn := by
    unfold silenced
    split
    · exact State.fire_yrn _ _
    · rfl
  rw [← hsilenced] at hclipped
  exact hclipped

theorem State.govern_keeps {s : State} {x : Nat × Nat × Nat} (h : x ∈ s.yrn.flying) : x ∈ s.govern.yrn.flying := by
  unfold State.govern
  extract_lets
  exact List.foldlRecOn _ _ (motive := fun u : State => x ∈ u.yrn.flying) h fun u hu b _ => State.applyBackoff_keeps _ _ _ hu

/-- What the start of a crossing may change once mesh time has come and the crossing is marked. -/
def startRest : Foot := ⟨0x4052900, State.crossingStart_foot.rows⟩

theorem State.crossingStart_spec {s : State} {slot : Nat} {c : Crossing} (next : s.nextOn slot (fun y => y.checked && !y.started) = some c) :
    (s.crossingStart slot).clk.mesh = max s.clk.mesh c.b0 ∧
      (∀ y : Crossing, y ∈ (s.crossingStart slot).xng.fetched → y.id = c.id → y.started = true) ∧
      (s.fabricRuns 0 = true → (0, slot, 2) ∈ (s.crossingStart slot).yrn.flying) := by
  unfold State.crossingStart
  split
  next no => rw [next] at no; cases no
  next d it =>
    obtain rfl := State.nextOn_eq next it
    extract_lets reached started code sampled code'
    have le : Foot.le startRest startRest := Foot.le_refl _
    have marked : Follows startRest (reached.updCrossing d.id fun y => { y with started := true }) started :=
      State.pmc_follows (le.sub rfl) (State.yarn_follows (le.sub rfl) (State.tensionTaken_follows (le.sub rfl) (Follows.refl _ _)))
    have flies (runs : s.fabricRuns 0 = true) : (0, slot, 2) ∈ started.yrn.flying := by
      have taken : Follows State.tensionTaken_foot (reached.updCrossing d.id fun y => { y with started := true })
          ((reached.updCrossing d.id fun y => { y with started := true }).tensionTaken d.tiles) :=
        State.tensionTaken_follows (Foot.le_refl _) (Follows.refl _ _)
      unfold started
      rw [State.pmc_yrn]
      exact State.yarn_flies slot ((State.domUp_pwr taken rfl 0).trans runs)
    have begun (t : State) (h : Follows startRest started t) (keeps : ∀ x : Nat × Nat × Nat, x ∈ started.yrn.flying → x ∈ t.yrn.flying) :
        t.clk.mesh = max s.clk.mesh d.b0 ∧ (∀ y : Crossing, y ∈ t.xng.fetched → y.id = d.id → y.started = true) ∧
          (s.fabricRuns 0 = true → (0, slot, 2) ∈ t.yrn.flying) := by
      rw [h.clk rfl, h.xng rfl, marked.clk rfl, marked.xng rfl]
      exact ⟨rfl, fun y hy own => State.updCrossing_mark (p := fun y => y.started = true) (fun _ => rfl) hy own, fun runs => keeps _ (flies runs)⟩
    split
    · refine begun _ (State.txBuild_follows (le.sub rfl) (State.govern_follows (le.sub rfl) (State.updSlot_follows (le.sub rfl) (Follows.refl _ _))))
        fun x hx => ?_
      rw [(State.txBuild_follows (Foot.le_refl _) (Follows.refl _ _)).yrn rfl]
      exact State.govern_keeps hx
    · exact begun _ (State.updSlot_follows (le.sub rfl) (State.phySample_follows (le.sub rfl) (Follows.refl _ _))) fun x hx => by
        have same : sampled.yrn = started.yrn := (State.phySample_follows (Foot.le_refl _) (Follows.refl _ _)).yrn rfl
        rw [← same] at hx
        exact hx

/-! ### A conditional reply (R173) -/

/-- A conditional reply that no pair stands for is skipped as PAIR_ABSENT. -/
theorem State.condDecision_absent {s : State} {slot : Nat} {c : Crossing}
    (next : s.nextOn slot (fun y => y.checked && !y.started && y.d.cond) = some c) (absent : s.pairFor c = none) :
    s.condDecision slot = (s.reach (c.b0 - 50)).skipCrossing c 10 := by
  unfold State.condDecision
  split
  next no => rw [next] at no; cases no
  next d it =>
    obtain rfl := State.nextOn_eq next it
    have none_heard : ((s.reach (d.b0 - 50)).pairFor d).any (·.heard) = false := by
      rw [show (s.reach (d.b0 - 50)).pairFor d = s.pairFor d from rfl, absent]
      rfl
    dsimp only
    rw [if_neg (by rw [none_heard]; exact Bool.false_ne_true)]

/-! ### A crossing ends (R133, R156, R321) -/

/-- What follows the end in the pins and the tiles. -/
def afterEnd : Foot := ⟨0x435aba4, State.crossingEnd_foot.rows⟩

/-- The crossing that ends is no longer fetched, and mesh time has come to its end. -/
theorem State.crossingEnd_spec {s : State} {slot : Nat} {c : Crossing} (runs : s.running slot = some c) (gnt : Bool) :
    (s.crossingEnd slot gnt).gone c.id ∧ (s.crossingEnd slot gnt).clk.mesh = max s.clk.mesh c.ends := by
  unfold State.crossingEnd
  split
  next no => rw [runs] at no; cases no
  next d it =>
    obtain rfl : d = c := Option.some.inj (it.symm.trans runs)
    extract_lets reached framed revoked pins granted now xng out yarned heard returned
    have le : Foot.le afterEnd afterEnd := Foot.le_refl _
    have frames : Follows State.endFrames_foot reached (reached.endFrames d) := State.endFrames_follows (Foot.le_refl _) (Follows.refl _ _)
    have sweep : Follows State.endSweep_foot (reached.endFrames d) framed := State.endSweep_follows (Foot.le_refl _) (Follows.refl _ _)
    have counted : revoked.clk = framed.clk := by
      unfold revoked
      split <;> rfl
    have here : out.clk = framed.clk := counted
    have hheard : Follows afterEnd out heard := Follows.ite
      (State.updNbr_follows (le.sub rfl) (State.yarn_follows (le.sub rfl) (Follows.refl _ _))) (State.yarn_follows (le.sub rfl) (Follows.refl _ _))
    have hreturned : Follows afterEnd out returned :=
      State.returnTiles_follows (le.sub rfl) (State.settleCxi_follows (le.sub rfl) (State.refreshCx_follows (le.sub rfl) hheard))
    have unvoted : Follows State.unvoteFor_foot returned (returned.unvoteFor d.src) := State.unvoteFor_follows (Foot.le_refl _) (Follows.refl _ _)
    have poked : Follows State.nbrPoke_foot (returned.unvoteFor d.src) ((returned.unvoteFor d.src).nbrPoke d.d.nbr) :=
      State.nbrPoke_follows (Foot.le_refl _) (Follows.refl _ _)
    constructor
    · have left : out.gone d.id := filter_gone _ _
      exact ((left.of_follows hreturned rfl).of_fetched (returned.unvoteFor_fetched d.src)).of_follows poked rfl
    · rw [poked.clk rfl, unvoted.clk rfl, hreturned.clk rfl, here, sweep.clk rfl, frames.clk rfl]
      rfl

/-! ### Coexistence (R320, R321) -/

/-- A covered crossing asks for the band at its time. -/
theorem State.coexRequest_spec {s : State} {slot : Nat} {c : Crossing}
    (next : s.nextOn slot (fun y => !y.started && !y.coexAsked && (if y.d.dir = 1 then s.on R.COEX_CFG_tx_xng else s.on R.COEX_CFG_rx_xng)) = some c) :
    (s.coexRequest slot).pins.cxReq = true ∧ (s.coexRequest slot).clk.mesh = max s.clk.mesh (c.b0 - 5120) := by
  unfold State.coexRequest
  extract_lets covered
  split
  next no => rw [next] at no; cases no
  next d it =>
    obtain rfl := State.nextOn_eq next it
    refine ⟨?_, rfl⟩
    have asks : { d with coexAsked := true } ∈
        ((s.reach (d.b0 - 5120)).updCrossing d.id fun y => { y with coexAsked := true }).xng.fetched.filter (·.coexAsked) :=
      List.mem_filter.mpr ⟨List.mem_map.mpr ⟨d, State.nextOn_mem next, if_pos rfl⟩, rfl⟩
    unfold State.refreshCx
    simp [List.isEmpty_eq_false_iff_exists_mem.mpr ⟨_, asks⟩]

/-- CXI_REQ has risen, with a level of CXI_PRI. -/
def State.cxiAsks (s : State) (pri : Bool) : State := { s with pins := { s.pins with cxiReq := true, cxiPri := pri } }

/-- CXI_GNT is given. -/
def State.cxiGranted (s : State) : State := { s with pins := { s.pins with cxiGnt := true } }

/-- A bell on the air stops, to be resent in full, and the blanked receivers resume. -/
def State.bellStops (s : State) : State :=
  ({ s with aon := { s.aon with bellTx := .pending }, pins := { s.pins with wkTr := false } }).refreshCx.wkResume

theorem State.bellStops_spec (s : State) :
    s.bellStops.pins.cxiReq = s.pins.cxiReq ∧ s.bellStops.pins.cxiGnt = s.pins.cxiGnt ∧ s.bellStops.aon.bellTx = .pending ∧
      sameFields [R.AON_WK_STATE_states.row] s s.bellStops ∧ sameBytes s s.bellStops := by
  unfold State.bellStops
  generalize hu : State.refreshCx _ = u
  have resumed : Follows State.wkResume_foot u u.wkResume := State.wkResume_follows (Foot.le_refl _) (Follows.refl _ _)
  rw [resumed.pins rfl, resumed.aon rfl]
  subst hu
  refine ⟨rfl, rfl, rfl, fun f hf => (resumed.get f ?_).trans rfl, fun a => resumed.bytes_eq rfl a⟩
  exact Foot.row_of 571 (by decide) (by decide +kernel) (by decide +kernel) hf

/-- Where no crossing transmits and the band may be given, a request is granted at once (R321). -/
theorem State.settleCxi_grants {s : State} (asks : s.pins.cxiReq = true) (idle : s.pins.cxiGnt = false)
    (allowed : s.hubUp = true → s.get R.COEX_CFG_cxi_en = 1) (receives : ∀ y : Crossing, y ∈ s.inProgress → y.d.dir = 0) :
    s.settleCxi = if s.aon.bellTx == .onAir then s.cxiGranted.bellStops else s.cxiGranted := by
  have noPri : s.hipriTx = false := List.any_eq_false.mpr fun y hy => by simp [receives y hy]
  have enabled : (s.hubUp && !s.on R.COEX_CFG_cxi_en) = false := by
    by_cases up : s.hubUp = true
    · simp [State.on, allowed up]
    · simp [up]
  have free : ¬ (!s.pins.cxiReq || s.pins.cxiGnt || (s.hubUp && (!s.on R.COEX_CFG_cxi_en || (s.hipriTx && !s.pins.cxiPri)))) = true := by
    simp [asks, idle, noPri, enabled]
  unfold State.settleCxi
  rw [if_neg free]
  extract_lets pins granted cut
  have none_cut : cut = granted := by
    have tx : (granted.inProgress.filter fun c => c.d.dir == 1 && (granted.slot c.d.slot).tx.isSome) = [] :=
      List.filter_eq_nil_iff.mpr fun y hy => by simp [receives y hy]
    unfold cut
    rw [tx]
    rfl
  clear_value cut
  subst none_cut
  rfl

/-- With the band free of transmissions CXI_REQ is granted at once, and a bell on the air stops to be resent in full. -/
theorem State.cxiRise_spec {s : State} (pri : Bool) (idle : s.pins.cxiGnt = false) (allowed : s.hubUp = true → s.get R.COEX_CFG_cxi_en = 1)
    (receives : ∀ y : Crossing, y ∈ s.inProgress → y.d.dir = 0) :
    (s.cxiRise pri).pins.cxiReq = true ∧ (s.cxiRise pri).pins.cxiGnt = true ∧ (s.aon.bellTx = .onAir → (s.cxiRise pri).aon.bellTx = .pending) ∧
      sameFields [R.AON_WK_STATE_states.row] s (s.cxiRise pri) ∧ sameBytes s (s.cxiRise pri) := by
  have grants : s.cxiRise pri = if s.aon.bellTx == .onAir then (s.cxiAsks pri).cxiGranted.bellStops else (s.cxiAsks pri).cxiGranted :=
    State.settleCxi_grants (s := s.cxiAsks pri) rfl idle allowed receives
  rw [grants]
  split
  next =>
    obtain ⟨req, gnt, bell, fields, bytes⟩ := (s.cxiAsks pri).cxiGranted.bellStops_spec
    exact ⟨req, gnt, fun _ => bell, fields, bytes⟩
  next off => exact ⟨rfl, rfl, fun on => absurd (beq_iff_eq.mpr on) off, fun _ _ => rfl, fun _ => rfl⟩

/-! ### The claim -/

/-- Settles O32, by what each command of a crossing leaves of the radios, of the fetched crossings and of the coexistence pins. -/
theorem crossingRuns : Obligations.CrossingRuns := by
  unfold Obligations.CrossingRuns
  intro s x codes src d w n c gnt pri
  refine ⟨fun ahead => ⟨_, rfl, ?_⟩, fun next => ⟨⟨_, rfl, fun k hk => ?_⟩, ⟨_, rfl, ?_⟩⟩,
    fun next => ⟨fun ready => ⟨_, rfl, ?_⟩, fun fails => ⟨_, rfl, ?_⟩⟩, fun next none_ => ⟨_, rfl, ?_⟩, fun runs => ⟨_, rfl, ?_⟩,
    fun next => ⟨_, rfl, ?_⟩, fun idle allowed receives => ⟨_, rfl, State.cxiRise_spec pri idle allowed receives⟩, rfl⟩
  · have foot : Follows State.warmCommand_foot s (s.warmCommand x codes) := State.warmCommand_follows (Foot.le_refl _) (Follows.refl _ _)
    have face {k : Nat} (hk : k < 8) := State.warmCommand_face ahead codes hk
    refine ⟨fun k hk bit runs off => ?_, fun k hk on => ?_, foot.bytes_eq rfl⟩
    · have due : (s.domRuns (k % 8 + 1) && !(s.face k).inReset && (s.face k).radio == .off) = true := by
        rw [show (s.face k).radio = .off from off]
        exact (Bool.and_true _).trans runs
      have warm : (s.warmCommand x codes).face k = s.inWarm (s.face k) := by
        rw [face hk, if_pos bit]
        exact if_pos due
      exact congrArg TileFace.radio warm
    · have keeps : s.warmed k (s.face k) = s.face k := if_neg (by simp [show (s.face k).radio ≠ .off from on])
      have same : (s.warmCommand x codes).face k = s.face k := by
        rw [face hk, keeps, ite_self]
      exact congrArg TileFace.radio same
  · have radio := congrArg TileFace.radio (State.turnCommand_face next hk)
    refine radio.trans ?_
    cases bit : c.tiles.testBit k with
    | true => exact s.turned_radio k c.d.dir
    | false => rfl
  · have foot : Follows State.crossingStart_foot s (s.crossingStart n) := State.crossingStart_follows (Foot.le_refl _) (Follows.refl _ _)
    obtain ⟨mesh, started, flies⟩ := State.crossingStart_spec next
    exact ⟨mesh, started, flies, foot.engs_eq rfl, foot.bytes_eq rfl⟩
  · obtain ⟨checked, mesh, faces⟩ := State.readiness_passed next gnt ready
    refine ⟨checked, mesh, fun k hk bit warm => ?_⟩
    have idle : (s.face k).readied = (s.face k).at .idle := if_pos (beq_iff_eq.mpr warm)
    have face : (s.readiness n gnt).face k = (s.face k).at .idle := by rw [faces k hk, if_pos bit, idle]
    exact congrArg TileFace.radio face
  · obtain ⟨u, e, regs⟩ := State.readiness_failed next gnt fails
    obtain ⟨gone, count⟩ := u.skipCrossing_spec c (s.readyReason c gnt)
    have same : u.get (R.XNG_SKIP_CNT_count (s.readyReason c gnt)) = s.get (R.XNG_SKIP_CNT_count (s.readyReason c gnt)) :=
      congrArg (fun r : RegFile => r.read _) regs
    rw [e]
    exact ⟨gone, count.trans (by rw [same])⟩
  · rw [State.condDecision_absent next none_]
    exact (s.reach (c.b0 - 50)).skipCrossing_spec c 10
  · have foot : Follows State.crossingEnd_foot s (s.crossingEnd n gnt) := State.crossingEnd_follows (Foot.le_refl _) (Follows.refl _ _)
    obtain ⟨gone, mesh⟩ := State.crossingEnd_spec runs gnt
    exact ⟨gone, mesh, foot.engs_eq rfl⟩
  · have foot : Follows State.coexRequest_foot s (s.coexRequest n) := State.coexRequest_follows (Foot.le_refl _) (Follows.refl _ _)
    obtain ⟨req, mesh⟩ := State.coexRequest_spec next
    exact ⟨req, mesh, sameFields_rowless foot rfl rfl _, foot.bytes_eq rfl⟩

end Sys2Proof.Machine
end

section
/-! Tension cycles: asked for, solved and timed out, and the claim; with it the rules for a write of the BF block, for one tile, slot and bank among the
others, and for loops that bring something about at one of their steps. -/

namespace Sys2Proof.Machine

open Sys2Proof

/-! ### One tile, slot and bank among the others -/

@[simp] theorem State.tile_updTile (s : State) (t : Nat) (f : TileSt → TileSt) : (s.updTile t f).tile t = f (s.tile t) := vget_vset_same _ _ _

theorem State.tile_updTile_ne (s : State) (t k : Nat) (f : TileSt → TileSt) (ne : k % 8 ≠ t % 8) : (s.updTile t f).tile k = s.tile k :=
  vget_vset_ne _ _ _ _ ne

@[simp] theorem State.tile_set (s : State) (f : Field) (v k : Nat) : (s.set f v).tile k = s.tile k := rfl

/-- A step that leaves the tiles leaves each of them. -/
theorem Follows.tile_eq {p : Foot} {s t : State} (h : Follows p s t) (e : p.comp 8 = false) (k : Nat) : t.tile k = s.tile k := by
  unfold State.tile; rw [h.tiles e]

/-- A step leaves the fields of a row that its footprint does not name. -/
theorem Follows.row {p : Foot} {s t : State} (h : Follows p s t) (k : Nat) {f : Field} (hk : f.row = k := by rfl)
    (out : p.row k = false := by decide) : t.get f = s.get f := h.get f (by rw [hk, out])

/-- A source of a tile fires, or its message waits at the tile: no more of a tile changes (R15, R289). -/
theorem State.fireTile_tile (s : State) (t n k : Nat) : ∃ held : Nat, (s.fireTile t n).tile k = { s.tile k with irqHeld := held } := by
  unfold State.fireTile
  split
  · by_cases e : k % 8 = t % 8
    · rw [State.tile_mod _ e, s.tile_mod e, State.tile_updTile]
      exact ⟨_, rfl⟩
    · exact ⟨_, s.tile_updTile_ne _ _ _ e⟩
  · exact ⟨_, (s.fire_is _).tile_eq rfl k⟩

theorem State.fireTile_is (s : State) (t n : Nat) : Follows State.fireTile_foot s (s.fireTile t n) :=
  State.fireTile_follows (Foot.le_refl _) (Follows.refl _ _)

/-! ### What one step of a loop brings about -/

/-- What the step at x of a list brings about from where I holds, and the other steps leave, stands after them all. -/
theorem foldl_sets {α β : Type} {I P : β → Prop} {f : β → α → β} {l : List α} {x : α} (hx : x ∈ l) {b : β} (start : I b)
    (inv : ∀ (b : β) (y : α), I b → I (f b y)) (set : ∀ b : β, I b → P (f b x)) (keep : ∀ (b : β) (y : α), P b → P (f b y)) : P (l.foldl f b) := by
  induction l generalizing b with
  | nil => exact absurd hx List.not_mem_nil
  | cons y l ih =>
    rw [List.foldl_cons]
    rcases List.mem_cons.mp hx with rfl | hx
    · exact List.foldlRecOn l f (set b start) fun c hc z _ => keep c z hc
    · exact ih hx (inv b y start)

/-- What step i of a loop brings about, and the other steps leave, stands after it. -/
theorem forAll_sets {α : Type} {P : α → Prop} {n i : Nat} {f : Nat → α → α} {a : α} (hi : i < n) (set : ∀ b : α, P (f i b))
    (keep : ∀ (j : Nat) (b : α), P b → P (f j b)) : P (forAll n f a) :=
  foldl_sets (I := fun _ => True) (List.mem_range.mpr hi) trivial (fun _ _ _ => trivial) (fun b _ => set b) fun b j h => keep j b h

/-- The same for a loop over set bits. -/
theorem forBits_sets {α : Type} {P : α → Prop} {n m i : Nat} {f : Nat → α → α} {a : α} (hi : i < n) (bit : m.testBit i = true)
    (set : ∀ b : α, P (f i b)) (keep : ∀ (j : Nat) (b : α), P b → P (f j b)) : P (forBits n m f a) := by
  refine forAll_sets (f := fun j b => if m.testBit j then f j b else b) hi (fun b => ?_) fun j b h => ?_
  · rw [if_pos bit]
    exact set b
  · split
    · exact keep j b h
    · exact h

/-! ### A write of a register of block BF -/

theorem State.regWrite_bf (s : State) (deck posted : Bool) {a v : Nat} (h : a / 0x10000 = 0x20A) : s.regWrite deck posted a v = s.writeBf a v := by
  unfold State.regWrite; rw [h]; rfl

/-- A command that is one write of an open register of block BF answers what the block does. -/
theorem answers_writeBf {s u : State} {ini : Initiator} {c : Instr} {a : Nat} {data : Word} {st : Status} {p : State → Prop}
    (run : exec c s = .next (s.regWriteBy ini a data.toNat)) (ha : hubReg a) (bf : a / 0x10000 = 0x20A) (h : s.opens ini true a data.toNat)
    (e : s.writeBf a data.toNat = (u, st)) (hp : p (u.reply st [])) : Answers s c st p := by
  refine ⟨u.reply st [], run.trans (next_congr ?_), rfl, hp⟩
  rw [State.regWriteBy_hubReg ha h, State.regWrite_bf _ _ _ bf, e]

/-! ### A cycle is asked for (R107) -/

theorem State.tensionAsk_waits (s : State) (t : Nat) : ((s.tensionAsk t).tile t).tensionWait = true := by
  unfold State.tensionAsk
  rw [State.tile_updTile]

/-- A tile that waits for a cycle waits on as another is asked. -/
theorem State.tensionAsk_keeps {s : State} {t : Nat} (h : (s.tile t).tensionWait = true) (k : Nat) : ((s.tensionAsk k).tile t).tensionWait = true := by
  by_cases e : t % 8 = k % 8
  · rw [State.tile_mod _ e]
    exact s.tensionAsk_waits k
  · unfold State.tensionAsk
    rw [State.tile_updTile_ne _ _ _ _ e, h]

/-- BF_TENSION_CTRL asks every marked tile. -/
theorem State.tensionGo_spec (s : State) (v : Nat) {t : Nat} (ht : t < 8) (bit : v.testBit t = true) :
    ((forBits 8 v (fun t s => s.tensionAsk t) s).tile t).tensionWait = true :=
  forBits_sets (P := fun u : State => (u.tile t).tensionWait = true) ht bit (fun u => u.tensionAsk_waits t) fun k _ h => State.tensionAsk_keeps h k

theorem State.tensionAsk_is (s : State) (t : Nat) : Follows State.tensionAsk_foot s (s.tensionAsk t) :=
  State.tensionAsk_follows (Foot.le_refl _) (Follows.refl _ _)

/-- In hardware calibration mode a tile without a cycle is asked for one as its period ends. -/
theorem State.tensionTrigger_period {s : State} {t : Nat} (mode : s.bit R.HUB_FUNC_MODE_bits 6 = false) (idle : (s.tile t).tension = none)
    (period : s.get R.BF_TENSION_CTRL_period ≠ 0) :
    s.tensionTrigger t false = (s.reach ((s.tile t).tensionLast + s.get R.BF_TENSION_CTRL_period * 1250000000)).tensionAsk t := by
  have free : ¬ (s.bit R.HUB_FUNC_MODE_bits 6 || (s.tile t).tension.isSome) = true := by simp [mode, idle]
  unfold State.tensionTrigger
  rw [if_neg free]
  dsimp only
  rw [if_neg Bool.false_ne_true, if_neg period]

/-- So it is where its temperature has moved by more than the trigger's steps. -/
theorem State.tensionTrigger_temp {s : State} {t : Nat} (mode : s.bit R.HUB_FUNC_MODE_bits 6 = false) (idle : (s.tile t).tension = none)
    (on : s.get R.BF_TENSION_CTRL_dtemp ≠ 0) (moved : 5 * s.get R.BF_TENSION_CTRL_dtemp < (s.getS (R.TEMP_temp t) - (s.tile t).tensionTemp).natAbs) :
    s.tensionTrigger t true = s.tensionAsk t := by
  have free : ¬ (s.bit R.HUB_FUNC_MODE_bits 6 || (s.tile t).tension.isSome) = true := by simp [mode, idle]
  have due : (s.get R.BF_TENSION_CTRL_dtemp != 0 && decide (5 * s.get R.BF_TENSION_CTRL_dtemp < (s.tileTemp t - (s.tile t).tensionTemp).natAbs)) = true := by
    simp only [Bool.and_eq_true, bne_iff_ne, decide_eq_true_eq]
    exact ⟨on, moved⟩
  unfold State.tensionTrigger
  rw [if_neg free]
  dsimp only
  rw [if_pos rfl, if_pos due]

/-! ### A cycle leaves its tile (R110, R111) -/

theorem State.tensionEnd_is (s : State) (t : Nat) : Follows State.tensionEnd_foot s (s.tensionEnd t) :=
  State.tensionEnd_follows (Foot.le_refl _) (Follows.refl _ _)

/-- The tile has no cycle and is not busy; the rest of it stands. -/
theorem State.tensionEnd_spec (s : State) (t : Nat) :
    (s.tensionEnd t).tile t = { s.tile t with tension := none } ∧ (s.tensionEnd t).get (R.TILE_TENSION_STATUS_busy t) = 0 := by
  have votes (u : State) (d k : Nat) : Follows State.unvote_foot u (u.unvote d k) := State.unvote_follows (Foot.le_refl _) (Follows.refl _ _)
  unfold State.tensionEnd
  constructor
  · rw [(votes _ _ _).tile_eq rfl, State.tile_set, State.tile_updTile]
  · exact ((votes _ _ _).row 352).trans (State.get_set_same ..)

/-- A cycle that has run for 100 ms is discarded, and the tile waits for another. -/
theorem State.tensionTimeout_spec {s : State} {t : Nat} {c : Tension} (runs : (s.tile t).tension = some c) :
    ((s.tensionTimeout t).tile t).tension = none ∧ ((s.tensionTimeout t).tile t).tensionWait = true ∧
      (s.tensionTimeout t).get (R.TILE_TENSION_STATUS_busy t) = 0 ∧ (s.tensionTimeout t).clk.mesh = max s.clk.mesh (c.start + 125000000) := by
  have e : s.tensionTimeout t = ((s.reach (c.start + 125000000)).tensionEnd t).tensionAsk t := by
    unfold State.tensionTimeout; rw [runs]
  obtain ⟨tile, busy⟩ := (s.reach (c.start + 125000000)).tensionEnd_spec t
  have clk := ((s.reach (c.start + 125000000)).tensionEnd_is t).clk rfl
  rw [e]
  refine ⟨?_, State.tensionAsk_waits _ _, busy, congrArg Clk.mesh clk⟩
  unfold State.tensionAsk
  rw [State.tile_updTile, tile]

/-! ### A solve (R109, R110) -/

/-- What the end of a cycle may change beside the tile's cycle and its busy bit. -/
def cycleEnd (s : State) (t : Nat) : State := ((s.tensionEnd t).tileYarn t 6).fireTile t 8

theorem cycleEnd_spec (s : State) (t : Nat) :
    ((cycleEnd s t).tile t).tension = none ∧ ((cycleEnd s t).tile t).tensionLast = (s.tile t).tensionLast ∧
      (cycleEnd s t).get (R.TILE_TENSION_STATUS_busy t) = 0 ∧
      (cycleEnd s t).get (R.TILE_TENSION_STATUS_cycles t) = s.get (R.TILE_TENSION_STATUS_cycles t) ∧
      (cycleEnd s t).get (R.TILE_TENSION_STATUS_reject t) = s.get (R.TILE_TENSION_STATUS_reject t) := by
  obtain ⟨tile, busy⟩ := s.tensionEnd_spec t
  have ends := s.tensionEnd_is t
  have yarn : Follows State.tileYarn_foot (s.tensionEnd t) ((s.tensionEnd t).tileYarn t 6) :=
    State.tileYarn_follows (Foot.le_refl _) (Follows.refl _ _)
  have fired := ((s.tensionEnd t).tileYarn t 6).fireTile_is t 8
  obtain ⟨held, kept⟩ := ((s.tensionEnd t).tileYarn t 6).fireTile_tile t 8 t
  have here : (cycleEnd s t).tile t = { s.tile t with tension := none, irqHeld := held } := by
    unfold cycleEnd; rw [kept, yarn.tile_eq rfl, tile]
  rw [here]
  exact ⟨rfl, rfl, (fired.row 352).trans ((yarn.row 352).trans busy), (fired.row 355).trans ((yarn.row 355).trans (ends.row 355)),
    (fired.row 353).trans ((yarn.row 353).trans (ends.row 353))⟩

/-- The trims, the marks of suspects and the trims that wait for a block boundary: what the drifts of an accepted cycle may change. -/
def driftFoot : Foot := ⟨0x400, 0x100000007800000000000000000000000000000000000000000000000000000000000000000000000000000000⟩

theorem State.applyDrift_follows {s s0 : State} (d : Drift) (factory : Nat × Nat) (h : Follows driftFoot s0 s) :
    Follows driftFoot s0 (s.applyDrift d factory) := by
  have le : Foot.le driftFoot driftFoot := Foot.le_refl _
  unfold State.applyDrift
  extract_lets e ph gn
  refine State.calWritten_follows (le.sub rfl) ?_
  refine State.set_follows 326 le ?_
  refine State.set_follows 325 le ?_
  refine State.set_follows 324 le ?_
  exact State.set_follows 323 le h

/-- One drift of an accepted cycle: a suspect is marked, another element takes its trims where BF_TENSION_CTRL.apply says so (R110). -/
def State.takeDrift (s : State) (t : Nat) (d : Drift) : State :=
  if driftSuspect d then s.setBit (R.TILE_TENSION_SUSPECT_elems t (d.elem % 64 / 32)) (d.elem % 32)
  else if s.on R.BF_TENSION_CTRL_apply then s.applyDrift d (s.factoryTrims d.elem) else s

theorem State.takeDrifts_follows (s : State) (t : Nat) (l : List Drift) : Follows driftFoot s (l.foldl (fun u d => u.takeDrift t d) s) :=
  have le : Foot.le driftFoot driftFoot := Foot.le_refl _
  Follows.foldl (fun u d h => Follows.ite (State.setBit_follows 356 le h (hr := by decide)) (Follows.ite (State.applyDrift_follows _ _ h) h)) (Follows.refl _ _)

section Solve

variable {s : State} {t : Nat} {c : Tension} (runs : (s.tile t).tension = some c) (done : passWindows t c.passes = none)
  (couplings : List (Nat × Nat × Int × Int))

/-- The pairs of elements within tile t that the couplings give. -/
def State.ownPairs (s : State) (t : Nat) (couplings : List (Nat × Nat × Int × Int)) : List PairDrift :=
  (couplings.filterMap s.pairDrift).filter fun p => p.tx / 64 == t % 8 && p.rx / 64 == t % 8

/-- The residuals of a tile's own pairs stay within 1.5 degrees and 0.15 dB RMS. -/
def solveAccepted (own : List PairDrift) : Prop :=
  residualSum own (fun p => p.phase) (tileSolve own fun p => p.phase) ≤ (own.length : Rat) * 1500 ^ 2 ∧
    residualSum own (fun p => p.gain) (tileSolve own fun p => p.gain) ≤ (own.length : Rat) * 150 ^ 2

include runs done

/-- A finished cycle is judged, and leaves its tile: an accepted one counts from now on, another is rejected. -/
theorem State.tensionComplete_judged :
    ∃ judged : State, s.tensionComplete t couplings = cycleEnd judged t ∧
      (solveAccepted (s.ownPairs t couplings) →
        judged.get (R.TILE_TENSION_STATUS_cycles t) = (s.get (R.TILE_TENSION_STATUS_cycles t) + 1) % 65536 ∧
          (judged.tile t).tensionLast = s.clk.mesh) ∧
      (¬ solveAccepted (s.ownPairs t couplings) → judged.get (R.TILE_TENSION_STATUS_reject t) = 1) ∧ sameBytes s judged := by
  unfold State.tensionComplete
  split
  next no => rw [runs] at no; cases no
  next d it =>
    obtain rfl : d = c := Option.some.inj (it.symm.trans runs)
    rw [if_neg (by rw [done]; exact Bool.false_ne_true)]
    extract_lets all own seam phase gain sumP shown fresh kept seams pairs offP offG drifts now temp front joined counted judged
    have within : (decide (sumP ≤ (own.length : Rat) * 1500 ^ 2) && decide (residualSum own (·.gain) gain ≤ (own.length : Rat) * 150 ^ 2)) = true ↔
        solveAccepted (s.ownPairs t couplings) := by
      rw [Bool.and_eq_true, decide_eq_true_eq, decide_eq_true_eq]
      rfl
    refine ⟨judged, rfl, ?_⟩
    unfold judged
    by_cases good : solveAccepted (s.ownPairs t couplings)
    · rw [if_pos (within.mpr good)]
      have drifted : Follows driftFoot counted _ := counted.takeDrifts_follows t drifts
      refine ⟨fun _ => ⟨(drifted.row 355).trans ?_, (congrArg TileSt.tensionLast (drifted.tile_eq rfl t)).trans ?_⟩,
        fun bad => absurd good bad, fun a => drifted.bytes_eq rfl a⟩
      · have before : shown.get (R.TILE_TENSION_STATUS_cycles t) = s.get (R.TILE_TENSION_STATUS_cycles t) := State.get_set_row _ _ _ _ (by simp)
        refine (State.get_set_same ..).trans ?_
        rw [Nat.mod_mod, ← before]
        rfl
      · unfold counted State.bumpWrap
        rw [State.tile_set, State.tile_updTile]
        rfl
    · rw [if_neg (mt within.mp good)]
      exact ⟨fun g => absurd g good, fun _ => State.get_set_same .., fun _ => rfl⟩

end Solve

theorem cycleEnd_bytes (s : State) (t : Nat) : sameBytes s (cycleEnd s t) := fun a =>
  (((State.fireTile_is _ _ _).bytes_eq rfl a).trans
    ((State.tileYarn_follows (Foot.le_refl _) (Follows.refl _ _) : Follows State.tileYarn_foot (s.tensionEnd t) _).bytes_eq rfl a)).trans
    ((s.tensionEnd_is t).bytes_eq rfl a)

/-! ### The claim -/

theorem hubReg_tensionCtrl : hubReg 0x020A0400 := by unfold hubReg; omega

/-- Settles O27, by the asking of a tile, the judgement of a solve and the end of a cycle. -/
theorem tensionCycles : Obligations.TensionCycles := by
  unfold Obligations.TensionCycles
  intro s ini data t couplings seams
  refine ⟨fun opens bit => ?_, fun mode idle => ⟨fun period => ⟨_, rfl, ?_⟩, fun on moved => ⟨_, rfl, ?_⟩⟩, fun c runs done => ⟨_, rfl, ?_⟩,
    fun c runs => ⟨_, rfl, ?_⟩⟩
  · refine answers_writeBf rfl hubReg_tensionCtrl (by decide) opens rfl ⟨State.tensionGo_spec _ _ t.isLt bit, fun a => ?_⟩
    have asked : Follows State.tensionAsk_foot (s.plainWrite 0x020A0400 data.toNat)
        (forBits 8 data.toNat (fun k u => u.tensionAsk k) (s.plainWrite 0x020A0400 data.toNat)) :=
      Follows.forBits (fun k u h => State.tensionAsk_follows (Foot.le_refl _) h) (Follows.refl _ _)
    exact (asked.bytes_eq rfl a).trans (congrArg (Memory.read · a) (s.plainWrite_mem _ _))
  · rw [State.tensionTrigger_period mode idle period]
    have asked := State.tensionAsk_is (s.reach ((s.tile t).tensionLast + s.get R.BF_TENSION_CTRL_period * 1250000000)) t
    exact ⟨State.tensionAsk_waits _ _, congrArg Clk.mesh (asked.clk rfl), sameFields_rowless asked rfl rfl _, asked.bytes_eq rfl⟩
  · rw [State.tensionTrigger_temp mode idle on moved]
    have asked := s.tensionAsk_is t
    exact ⟨State.tensionAsk_waits _ _, sameFields_rowless asked rfl rfl _, asked.bytes_eq rfl⟩
  · obtain ⟨judged, e, accepted, rejected, bytes⟩ := State.tensionComplete_judged runs done (couplings ++ seams)
    unfold State.ownPairs at accepted rejected
    rw [Nat.mod_eq_of_lt t.isLt] at accepted rejected
    obtain ⟨free, last, busy, cycles, reject⟩ := cycleEnd_spec judged t
    rw [e]
    refine ⟨free, busy, fun good => ?_, fun bad => reject.trans (rejected bad), fun a => (cycleEnd_bytes judged t a).trans (bytes a)⟩
    obtain ⟨counts, since⟩ := accepted good
    exact ⟨cycles.trans counts, last.trans since⟩
  · have foot : Follows State.tensionTimeout_foot s (s.tensionTimeout t) := State.tensionTimeout_follows (Foot.le_refl _) (Follows.refl _ _)
    obtain ⟨free, waits, busy, mesh⟩ := State.tensionTimeout_spec runs
    exact ⟨free, waits, busy, mesh, foot.bytes_eq rfl⟩

end Sys2Proof.Machine
end

section
/-! Sample captures: what a tick stores for the elements of a tile, and the claim. -/

namespace Sys2Proof.Machine

open Sys2Proof

/-! ### Runs of bytes -/

/-- A stored run reads back. -/
theorem State.bytes_setBytes_same (s : State) (a : Nat) (l : List Byte) : (s.setBytes a l).bytes a l.length = l :=
  List.ext_getElem (by simp [State.bytes]) fun i _ hi => by
    simp only [State.bytes, List.getElem_map, List.getElem_range]
    exact State.byte_setBytes_in l s a i hi

theorem sameBytes.bytes {s t : State} (h : sameBytes s t) (a n : Nat) : t.bytes a n = s.bytes a n := List.map_congr_left fun _ _ => h _

/-- A run beside a stored one reads as before. -/
theorem State.bytes_setBytes_apart (s : State) {a b n : Nat} {l : List Byte} (apart : b + n ≤ a ∨ a + l.length ≤ b) :
    (s.setBytes a l).bytes b n = s.bytes b n :=
  List.map_congr_left fun i hi => State.byte_setBytes_out _ _ _ _ (by have := List.mem_range.mp hi; omega)

theorem State.store_bytes (s : State) (a : Nat) (l : List Byte) (b n : Nat) : (s.store a l).bytes b n = (s.setBytes a l).bytes b n := rfl

/-- A loop over the set bits of a mask with bit t alone is step t. -/
theorem forBits_two_pow {α : Type} {n t : Nat} (ht : t < n) (f : Nat → α → α) (a : α) : forBits n (2 ^ t) f a = f t a := by
  have upTo : forBits n (2 ^ t) f a = if t < n then f t a else a := by
    clear ht
    induction n with
    | zero => rfl
    | succ n ih =>
      rw [forBits_succ, ih, Nat.testBit_two_pow]
      by_cases e : t = n
      · subst e
        rw [if_pos (decide_eq_true rfl), if_neg (Nat.lt_irrefl t), if_pos (Nat.lt_succ_self t)]
      · have same : t < n + 1 ↔ t < n := by omega
        rw [if_neg (by simpa using e)]
        simp only [same]
  rw [upTo, if_pos ht]

/-! ### A capture is armed (R104) -/

theorem fieldsAt_capCtrl :
    fieldsAt 0x020A0200 = [(⟨"BF_CAP_CTRL", "done", .hub, 0x20A0200, 0, 1, 31, 1, .w1c, 0, .moorTile⟩, R.BF_CAP_CTRL_done),
      (⟨"BF_CAP_CTRL", "arm", .hub, 0x20A0200, 0, 1, 9, 1, .w1s, 0, .runNone⟩, R.BF_CAP_CTRL_arm),
      (⟨"BF_CAP_CTRL", "point", .hub, 0x20A0200, 0, 1, 8, 1, .rw, 0, .moorTile⟩, R.BF_CAP_CTRL_point),
      (⟨"BF_CAP_CTRL", "tiles", .hub, 0x20A0200, 0, 1, 0, 8, .rw, 255, .moorTile⟩, R.BF_CAP_CTRL_tiles)] := by decide +kernel

/-- A write of BF_CAP_CTRL takes the tiles, and leaves the capture tick. -/
theorem State.plainWrite_capCtrl (s : State) (v : Nat) :
    (s.plainWrite 0x020A0200 v).get R.BF_CAP_CTRL_tiles = v % 256 ∧ (s.plainWrite 0x020A0200 v).captureTime = s.captureTime ∧
      (s.plainWrite 0x020A0200 v).clk = s.clk := by
  unfold State.plainWrite
  rw [fieldsAt_capCtrl]
  refine ⟨?_, ?_, rfl⟩
  · refine (State.get_set_same ..).trans ?_
    rw [Nat.mod_mod, pow_zero, Nat.div_one]
    rfl
  · have tick (i : Nat) (u : State) (f : Field) (w : Nat) (h : f.row ≠ 272) : (u.set f w).get (R.BF_CAP_TIME_tick i) = u.get (R.BF_CAP_TIME_tick i) :=
      State.get_set_row _ _ _ _ (Ne.symm h)
    simp only [State.captureTime, State.get2, List.foldl_cons, List.foldl_nil, State.fieldWrite]
    iterate 8 rw [tick _ _ _ _ (by decide)]

/-- BF_CAP_CTRL.arm arms a capture on its tiles where the tick lies 2 µs ahead. -/
theorem State.capCtrlWrite_arms {s : State} {v : Nat} (free : s.get R.BF_CAP_CTRL_arm = 0) (go : v.testBit 9 = true)
    (ahead : s.now + 2500 ≤ s.captureTime) :
    ∃ u : State, s.capCtrlWrite 0x020A0200 v = (u, .ok) ∧ u.get R.BF_CAP_CTRL_arm = 1 ∧ u.get R.BF_CAP_CTRL_tiles = v % 256 ∧
      u.front.capTiles = v % 256 ∧ sameBytes s u := by
  obtain ⟨tiles, tick, clk⟩ := s.plainWrite_capCtrl v
  have off : s.on R.BF_CAP_CTRL_arm = false := by unfold State.on; rw [free]; rfl
  have bytes : sameBytes s (s.plainWrite 0x020A0200 v) := fun a => congrArg (Memory.read · a) (s.plainWrite_mem _ _)
  unfold State.capCtrlWrite
  rw [if_neg (by rw [off]; exact Bool.false_ne_true)]
  dsimp only
  rw [if_pos go]
  generalize s.plainWrite 0x020A0200 v = w at *
  have tiles' : ((w.set R.BF_CAP_CTRL_arm 0).set R.BF_CAP_CTRL_arm 1).get R.BF_CAP_CTRL_tiles = v % 256 := by
    iterate 2 rw [State.get_set_row _ _ _ _ (by decide)]
    exact tiles
  have tick' : ((w.set R.BF_CAP_CTRL_arm 0).set R.BF_CAP_CTRL_arm 1).captureTime = s.captureTime := by
    rw [← tick]
    unfold State.captureTime State.get2
    iterate 4 rw [State.get_set_row _ _ _ _ (by decide)]
  have arm : ((w.set R.BF_CAP_CTRL_arm 0).set R.BF_CAP_CTRL_arm 1).get R.BF_CAP_CTRL_arm = 1 := State.get_set_same _ _ _
  have now : ((w.set R.BF_CAP_CTRL_arm 0).set R.BF_CAP_CTRL_arm 1).now = s.now := congrArg Clk.mesh clk
  unfold State.captureArm
  dsimp only
  rw [if_neg (by rw [tick', now]; omega)]
  refine ⟨_, rfl, arm, tiles', ?_, bytes⟩
  exact (State.get_set_row _ _ _ _ (by decide)).trans tiles

/-! ### The capture tick (R105, R106) -/

/-- The bytes that element e's 256 samples take: zeros where it is masked. -/
def State.packedElem (s : State) (samples : List (Nat × List Nat)) (e : Nat) : List Byte :=
  packSamples ((if s.masked e then [] else ((samples.find? fun p => p.1 == e).map (·.2)).getD []).map (s.captured e))

theorem State.packedElem_length (s : State) (samples : List (Nat × List Nat)) (e : Nat) : (s.packedElem samples e).length = 640 := toBytes_length _ _

/-- The bytes do not rest on mesh time. -/
theorem State.packedElem_reach (s : State) (tick : Nat) (samples : List (Nat × List Nat)) (e : Nat) :
    (s.reach tick).packedElem samples e = s.packedElem samples e := by
  have sample : (s.reach tick).captured e = s.captured e := rfl
  have masked : (s.reach tick).masked e = s.masked e := rfl
  unfold State.packedElem
  rw [sample, masked]

/-- What storing samples changes: memory and the words' poison. -/
def storeFoot : Foot := ⟨0xC, 0⟩

/-- What an element's samples come to rests on its registers and its trims. -/
theorem State.packedElem_is {s u : State} (h : Follows storeFoot s u) (samples : List (Nat × List Nat)) (e : Nat) :
    u.packedElem samples e = s.packedElem samples e := by
  have fields (f : Field) : u.get f = s.get f := sameFields_rowless h rfl rfl [] f List.not_mem_nil
  have front : u.frontEnd e = s.frontEnd e := by unfold State.frontEnd State.elem; rw [h.elems rfl]
  have sample : u.captured e = s.captured e := by
    funext v
    unfold State.captured State.on
    rw [fields, front]
  unfold State.packedElem State.masked State.on
  rw [sample, fields]

/-- The samples of the first n elements of a tile stored in their order from base on. -/
def State.storeSamples (s : State) (samples : List (Nat × List Nat)) (t base n : Nat) : State :=
  forAll n (fun j u => u.store (base + 640 * j) (u.packedElem samples (64 * t + j))) s

theorem State.storeSamples_spec (s : State) (samples : List (Nat × List Nat)) (t base n : Nat) :
    Follows storeFoot s (s.storeSamples samples t base n) ∧
      ∀ j : Nat, j < n → (s.storeSamples samples t base n).bytes (base + 640 * j) 640 = s.packedElem samples (64 * t + j) := by
  induction n with
  | zero => exact ⟨Follows.refl _ _, fun j hj => absurd hj (Nat.not_lt_zero j)⟩
  | succ n ih =>
    obtain ⟨foot, packed⟩ := ih
    have step : s.storeSamples samples t base (n + 1) =
        (s.storeSamples samples t base n).store (base + 640 * n) (s.packedElem samples (64 * t + n)) := by
      rw [← State.packedElem_is foot]
      unfold State.storeSamples forAll
      rw [List.range_succ, List.foldl_append]
      rfl
    have length := s.packedElem_length samples (64 * t + n)
    rw [step]
    generalize s.storeSamples samples t base n = u at *
    refine ⟨State.store_follows (Foot.le_refl _) foot, fun j hj => ?_⟩
    rw [State.store_bytes]
    by_cases e : j = n
    · subst e
      have same := u.bytes_setBytes_same (base + 640 * j) (s.packedElem samples (64 * t + j))
      rwa [length] at same
    · rw [State.bytes_setBytes_apart _ (by rw [length]; omega), packed j (by omega)]

/-- No tile still has to capture. -/
def State.capturesOver (s : State) : State := { s with front := { s.front with capTiles := 0 } }

/-- A tile whose samples are stored reports that it is done. -/
def State.captureStored (v : State) (t : Nat) : State :=
  (((v.set (R.TILE_CAP_STATUS_done t) 1).tileYarn t 5).fireTile t 7).capturesOver

theorem State.captureStored_spec (v : State) (t : Nat) :
    sameBytes v (v.captureStored t) ∧ (v.captureStored t).get (R.TILE_CAP_STATUS_done t) = 1 ∧ (v.captureStored t).front.capTiles = 0 ∧
      (v.captureStored t).clk = v.clk := by
  have yarn : Follows State.tileYarn_foot (v.set (R.TILE_CAP_STATUS_done t) 1) ((v.set (R.TILE_CAP_STATUS_done t) 1).tileYarn t 5) :=
    State.tileYarn_follows (Foot.le_refl _) (Follows.refl _ _)
  have fired := ((v.set (R.TILE_CAP_STATUS_done t) 1).tileYarn t 5).fireTile_is t 7
  exact ⟨fun a => (fired.bytes_eq rfl a).trans (yarn.bytes_eq rfl a), (fired.row 351).trans ((yarn.row 351).trans (State.get_set_same ..)), rfl,
    (fired.clk rfl).trans (yarn.clk rfl)⟩

section Tick

variable {s : State} {t : Nat} (only : s.front.capTiles = 2 ^ t) (ht : t < 8) (runs : s.tileRuns t = true) (samples : List (Nat × List Nat))
include only ht runs

/-- The hub's capture tick with one tile that still has to capture: it stores its samples, or fails. -/
theorem State.captureTick_only :
    s.captureTick samples =
      if (s.tile t).radio ≠ .rx then ((s.reach s.captureTime).captureFail t 1).capturesOver
      else ((s.reach s.captureTime).storeSamples samples t (s.captureBase t) 64).captureStored t := by
  have some_tile : s.front.capTiles ≠ 0 := by rw [only]; exact Nat.pos_iff_ne_zero.mp (Nat.two_pow_pos t)
  have reached : (s.reach s.captureTime).front.capTiles = 2 ^ t := only
  have up : ¬ (!(s.reach s.captureTime).tileRuns t) = true := by
    rw [show (s.reach s.captureTime).tileRuns t = s.tileRuns t from rfl, runs]
    exact Bool.false_ne_true
  unfold State.captureTick
  rw [if_neg some_tile]
  dsimp only
  rw [reached, forBits_two_pow ht, if_neg up]
  have base : (s.reach s.captureTime).captureBase t = s.captureBase t := rfl
  by_cases rx : (s.tile t).radio = .rx
  · have hears : ¬ ((s.tile t).radio != .rx) = true := by simpa using rx
    rw [if_neg (show ¬ (((s.reach s.captureTime).tile t).radio != .rx) = true from hears), if_neg (not_not.mpr rx), base]
    unfold State.storeSamples State.packedElem State.captureStored State.capturesOver
    with_reducible rfl
  · have deaf : ((s.tile t).radio != .rx) = true := by simpa using rx
    rw [if_pos (show (((s.reach s.captureTime).tile t).radio != .rx) = true from deaf), if_pos rx]
    rfl

/-- A tile in RX stores the samples of its elements, and is done. -/
theorem State.captureTick_rx (rx : (s.tile t).radio = .rx) :
    let u := s.captureTick samples
    (∀ j : Nat, j < 64 → u.bytes (s.captureBase t + 640 * j) 640 = s.packedElem samples (64 * t + j)) ∧
      u.get (R.TILE_CAP_STATUS_done t) = 1 ∧ u.front.capTiles = 0 ∧ u.clk.mesh = max s.clk.mesh s.captureTime := by
  rw [State.captureTick_only only ht runs, if_neg (not_not.mpr rx)]
  obtain ⟨stores, packed⟩ := (s.reach s.captureTime).storeSamples_spec samples t (s.captureBase t) 64
  obtain ⟨bytes, done, left, clk⟩ := ((s.reach s.captureTime).storeSamples samples t (s.captureBase t) 64).captureStored_spec t
  exact ⟨fun j hj => (bytes.bytes _ _).trans ((packed j hj).trans (s.packedElem_reach _ _ _)), done, left,
    congrArg Clk.mesh (clk.trans (stores.clk rfl))⟩

/-- A tile in another state fails (R106). -/
theorem State.captureTick_deaf (deaf : (s.tile t).radio ≠ .rx) :
    let u := s.captureTick samples
    u.get (R.TILE_CAP_STATUS_fail t) = 1 ∧ u.get (R.TILE_CAP_STATUS_reason t) = 1 ∧ u.front.capTiles = 0 ∧ sameBytes s u := by
  rw [State.captureTick_only only ht runs, if_pos deaf]
  unfold State.captureFail
  generalize hv : ((s.reach s.captureTime).set (R.TILE_CAP_STATUS_fail t) 1).set (R.TILE_CAP_STATUS_reason t) 1 = v
  have yarn : Follows State.tileYarn_foot v (v.tileYarn t 5) := State.tileYarn_follows (Foot.le_refl _) (Follows.refl _ _)
  have fired := (v.tileYarn t 5).fireTile_is t 7
  refine ⟨((fired.row 350).trans (yarn.row 350)).trans ?_, ((fired.row 349).trans (yarn.row 349)).trans ?_, rfl, fun a => ((fired.bytes_eq rfl a).trans (yarn.bytes_eq rfl a)).trans ?_⟩
  · rw [← hv, State.get_set_row _ _ _ _ (by simp), State.get_set_same]
    rfl
  · rw [← hv, State.get_set_same]
    rfl
  · rw [← hv]; rfl

end Tick

/-! ### The capture is done (R106) -/

/-- With no tile left the hub's capture is done, and its source fires. -/
theorem State.captureDone_spec {s : State} (armed : s.get R.BF_CAP_CTRL_arm = 1) (none_left : s.front.capTiles = 0) :
    s.captureDone.get R.BF_CAP_CTRL_arm = 0 ∧ s.captureDone.get R.BF_CAP_CTRL_done = 1 ∧ (s.hubUp = true → s.captureDone.pends 53 = true) ∧
      sameBytes s s.captureDone := by
  have on : s.on R.BF_CAP_CTRL_arm = true := by unfold State.on; rw [armed]; rfl
  have e : s.captureDone = (((s.set R.BF_CAP_CTRL_arm 0).set R.BF_CAP_CTRL_done 1).yarn 36).fire 53 := by
    unfold State.captureDone
    rw [if_neg (by simp [on, none_left])]
  have foot : Follows State.captureDone_foot s s.captureDone := State.captureDone_follows (Foot.le_refl _) (Follows.refl _ _)
  refine ⟨?_, ?_, fun up => ?_, foot.bytes_eq rfl⟩
  all_goals
    rw [e]
    generalize hu : (s.set R.BF_CAP_CTRL_arm 0).set R.BF_CAP_CTRL_done 1 = u
    have yarn : Follows State.yarn_foot u (u.yarn 36) := State.yarn_follows (Foot.le_refl _) (Follows.refl _ _)
  · rw [((u.yarn 36).fire_is 53).row 269, yarn.row 269, ← hu, State.get_set_row _ _ _ _ (by decide), State.get_set_same]
    rfl
  · rw [((u.yarn 36).fire_is 53).row 268, yarn.row 268, ← hu, State.get_set_same]
    rfl
  · refine State.fire_pends ((State.domUp_pwr yarn rfl 0).trans ?_) (.inl (by omega))
    rw [← hu]
    exact up

/-! ### The claim -/

theorem hubReg_capCtrl : hubReg 0x020A0200 := by unfold hubReg; omega

/-- Settles O26, by the arming of a capture, what its tick does on the tile that still has to capture, and its end on the hub. -/
theorem captures : Obligations.Captures := by
  unfold Obligations.Captures
  intro s ini data t samples
  refine ⟨fun opens free go ahead => ?_, fun only runs => ⟨fun rx => ⟨_, rfl, ?_⟩, fun deaf => ⟨_, rfl, ?_⟩⟩,
    fun armed none_left => ⟨_, rfl, State.captureDone_spec armed none_left⟩⟩
  · obtain ⟨u, e, arm, tiles, cap, bytes⟩ := State.capCtrlWrite_arms free go ahead
    exact answers_writeBf rfl hubReg_capCtrl (by decide) opens e ⟨arm, tiles, cap, bytes⟩
  · obtain ⟨packed, done, left, mesh⟩ := State.captureTick_rx only t.isLt runs samples rx
    refine ⟨fun j hj => (packed j hj).trans ?_, done, left, mesh⟩
    unfold State.packedElem State.masked State.on
    simp only [bne_iff_ne]
  · exact State.captureTick_deaf only t.isLt runs samples deaf

end Sys2Proof.Machine
end

section
/-! Swatches: the words of a fragment, and what a write of one opens. -/

namespace Sys2Proof.Machine

open Sys2Proof

/-! ### Slots, bits and lists -/

@[simp] theorem State.slot_updSlot (s : State) (n : Nat) (f : SlotSt → SlotSt) : (s.updSlot n f).slot n = f (s.slot n) := vget_vset_same _ _ _

@[simp] theorem State.slot_set (s : State) (f : Field) (v n : Nat) : (s.set f v).slot n = s.slot n := rfl

theorem State.slot_updSlot_ne (s : State) (n k : Nat) (f : SlotSt → SlotSt) (ne : k % 16 ≠ n % 16) : (s.updSlot n f).slot k = s.slot k :=
  vget_vset_ne _ _ _ _ ne

/-- A slot's number counts modulo 16. -/
theorem State.slot_mod (s : State) {n k : Nat} (e : n % 16 = k % 16) : s.slot n = s.slot k := by simp only [State.slot, vget, e]

/-- A cleared bit reads 0. -/
theorem State.bit_clrBit (s : State) (f : Field) (k : Nat) : (s.clrBit f k).bit f k = false := by
  unfold State.clrBit
  split
  next on =>
    have low : (s.get f - 2 ^ k).testBit k = false := by
      rw [testBit_sub_two_pow on]
      simp
    unfold State.bit
    rw [State.get_set_same, Nat.testBit_mod_two_pow, low, Bool.and_false]
  next off => exact Bool.eq_false_iff.mpr off

/-- A set bit reads 1. -/
theorem State.bit_setBit (s : State) {f : Field} {k : Nat} (hk : k < f.width) : (s.setBit f k).bit f k = true := by
  unfold State.setBit State.bit
  rw [State.get_set_same, Nat.testBit_mod_two_pow, Nat.testBit_or, Nat.testBit_two_pow_self, Bool.or_true, Bool.and_true]
  exact decide_eq_true hk

/-- It stays while others of its field are set. -/
theorem State.bit_setBit_keeps {s : State} {f : Field} {j : Nat} (hj : j < f.width) (h : s.bit f j = true) (k : Nat) :
    (s.setBit f k).bit f j = true := by
  unfold State.bit at h
  unfold State.setBit State.bit
  rw [State.get_set_same, Nat.testBit_mod_two_pow, Nat.testBit_or, h, Bool.true_or, Bool.and_true]
  exact decide_eq_true hj

theorem mem_insertRising (a : Nat) (l : List Nat) : a ∈ insertRising a l := by
  induction l with
  | nil => exact List.mem_cons_self
  | cons b l ih =>
    unfold insertRising
    split
    next e => exact e ▸ List.mem_cons_self
    next => split
            · exact List.mem_cons_self
            · exact List.mem_cons_of_mem _ ih

theorem RegFile.mem_of_find {r : RegFile} {k : RegKey} {v : Nat} (h : r.find k = some v) : (k, v) ∈ r := by
  induction r with
  | nil => exact absurd h nofun
  | cons c r ih =>
    obtain ⟨j, w⟩ := c
    unfold RegFile.find at h
    split at h
    next e => rw [e, Option.some.inj h]; exact List.mem_cons_self
    next => exact List.mem_cons_of_mem _ (ih h)

/-! ### A word of a fragment (R79, R82) -/

theorem State.setOpened_seals (s : State) (t k : Nat) (l : List Nat) :
    (s.setOpened t l).get (R.TILE_SEAL_MAP_sealed t k) = s.get (R.TILE_SEAL_MAP_sealed t k) := State.get_set_row _ _ _ _ (by simp)

theorem State.setOpened_opened (s : State) (t : Nat) (l : List Nat) : ((s.setOpened t l).tile t).opened = l := by
  unfold State.setOpened
  rw [State.tile_set, State.tile_updTile]

/-- A fragment that is written loses its seal and is open. -/
theorem State.fragTouched_spec (s : State) (t sw : Nat) :
    (s.fragTouched t sw).bit (R.TILE_SEAL_MAP_sealed t (sw / 32)) (sw % 32) = false ∧ sw ∈ ((s.fragTouched t sw).tile t).opened := by
  unfold State.fragTouched
  extract_lets cleared healed
  have copied : Follows State.copyOpened_foot (healed.setOpened t (insertRising sw (healed.tile t).opened)) _ :=
    State.copyOpened_follows (a1 := sw) (a2 := 2 ^ (t % 8)) (Foot.le_refl _) (Follows.refl _ _)
  constructor
  · have rest : healed.get (R.TILE_SEAL_MAP_sealed t (sw / 32)) = cleared.get (R.TILE_SEAL_MAP_sealed t (sw / 32)) := by
      unfold healed State.clrBit
      split
      · rfl
      · split
        · exact State.get_set_row _ _ _ _ (by simp)
        · rfl
    unfold State.bit
    rw [copied.row 357, State.setOpened_seals, rest]
    exact s.bit_clrBit _ _
  · rw [copied.tile_eq rfl, State.setOpened_opened]
    exact mem_insertRising _ _

theorem State.fragTouched_is (s : State) (t sw : Nat) : Follows State.fragTouched_foot s (s.fragTouched t sw) :=
  State.fragTouched_follows (Foot.le_refl _) (Follows.refl _ _)

section Word

variable {t sw k : Nat} (ht : t < 8) (hs : sw < 2048) (hk : k < 64)
include ht hs hk

/-- Where word k of a fragment stands: in the weight memory of its tile. -/
theorem fragWord_place :
    fragAddr t sw + 4 * k = 0x04000000 + t * 0x800000 + 0x100000 + sw * 0x100 + 4 * k ∧ 0x04000000 ≤ fragAddr t sw + 4 * k ∧
      fragAddr t sw + 4 * k + 4 ≤ 0x08000000 ∧ (fragAddr t sw + 4 * k - 0x04000000) % 0x800000 = 0x100000 + sw * 0x100 + 4 * k ∧
      (fragAddr t sw + 4 * k) % 4 = 0 := by
  unfold fragAddr tileBase
  omega

omit hk in
/-- Each byte of a fragment belongs to it. -/
theorem fragmentAt_fragByte {j : Nat} (hj : j < 256) : fragmentAt (fragAddr t sw + j) = some (t, sw) := by
  have place : fragAddr t sw + j = 0x04000000 + (0x800000 * t + (0x100000 + (sw * 0x100 + j))) := by unfold fragAddr tileBase; omega
  have inside : 0x100000 + (sw * 0x100 + j) < 0x800000 := by omega
  have frag : (0x100000 + (sw * 0x100 + j) - 0x100000) / 0x100 = sw := by omega
  rw [place]
  unfold fragmentAt
  rw [if_pos (by simp; omega), Nat.add_sub_cancel_left, Nat.mul_add_mod, Nat.mod_eq_of_lt inside, Nat.mul_add_div (by decide),
    Nat.div_eq_of_lt inside, Nat.add_zero]
  dsimp only
  rw [if_pos (by simp; omega), frag]

theorem regionOf_fragWord :
    regionOf (fragAddr t sw + 4 * k) = (.tileMem, (fragAddr t sw + 4 * k) / 0x800000 * 0x800000 + 0x180000) := by
  obtain ⟨-, lo, hi, off, -⟩ := fragWord_place ht hs hk
  rw [regionOf_tile lo (by omega), off]
  unfold tileRegion
  rw [if_neg (by omega), if_neg (by omega), if_pos (by simp; omega)]

/-- It ends within its region. -/
theorem fragWord_inside : fragAddr t sw + 4 * k + 4 ≤ (regionOf (fragAddr t sw + 4 * k)).2 := by
  rw [regionOf_fragWord ht hs hk]
  dsimp only
  rw [(fragWord_place ht hs hk).1]
  omega

end Word

/-- Bytes that no register shares an address with are stored as they come. -/
theorem foldl_putByte_own (a : Nat) (l : List Byte) (k : Nat) (s : State) (own : ∀ i : Nat, i < k + l.length → overlaid (a + i) = false) :
    (l.zipIdx k).foldl (fun s (x : Byte × Nat) => if ([] : List Nat).contains (eccBase (a + x.2)) then s else s.putByte (a + x.2) x.1) s =
      s.setBytes (a + k) l := by
  induction l generalizing k s with
  | nil => rfl
  | cons b l ih =>
    rw [List.length_cons] at own
    have put : s.putByte (a + k) b = s.setByte (a + k) b := by
      unfold State.putByte
      rw [own k (by omega), if_neg Bool.false_ne_true]
    rw [List.zipIdx_cons, List.foldl_cons, ih (k + 1) _ fun i hi => own i (by omega)]
    simp only [List.contains_nil, Bool.false_eq_true, if_false]
    rw [put]
    rfl

/-- The poison of the word at a is gone. -/
def State.wordHealed (s : State) (a : Nat) : State := { s with poison := s.poison.filter fun p => !covers a 4 p }

/-- A word of a fragment, with no poisoned word that reaches into it, is stored, and its fragment is touched. -/
theorem State.memWrite_fragment {s : State} {a t sw : Nat} (lo : 0x04000000 ≤ a) (size : eccSize a = 4)
    (first : fragmentAt a = some (t, sw)) (last : fragmentAt (a + 3) = some (t, sw))
    (alone : ∀ p : Nat, p ∈ s.poison → p = a ∨ p + 8 ≤ a ∨ a + 4 ≤ p) (v : Nat) :
    s.memWrite a (toBytes 4 v) = (((s.wordHealed a).setBytes a (toBytes 4 v)).fragTouched t sw, .ok) := by
  have small (p : Nat) : eccSize p ≤ 8 := by unfold eccSize; split <;> omega
  have stuck : (s.poison.filter fun p => p < a + 4 && a < p + eccSize p && !covers a 4 p) = [] := by
    rw [List.filter_eq_nil_iff]
    intro p hp
    rcases alone p hp with rfl | below | above
    · simp [covers, size]
    · have := small p
      simp; omega
    · simp; omega
  have own (i : Nat) (hi' : i < 0 + (toBytes 4 v).length) : overlaid (a + i) = false := by
    rw [toBytes_length] at hi'
    unfold overlaid
    simp; omega
  have len : (toBytes 4 v).length = 4 := toBytes_length _ _
  have back : a + 4 - 1 = a + 3 := by omega
  have one : sw + 1 - sw = 1 := by omega
  unfold State.memWrite
  dsimp only
  rw [len, stuck, foldl_putByte_own a _ 0 _ own]
  unfold State.touchFragments
  rw [back, first, last]
  dsimp only
  rw [one]
  unfold State.wordHealed
  rw [Nat.add_zero]
  simp only [List.range_one, List.foldl_cons, List.foldl_nil, Nat.add_zero, List.isEmpty_nil, if_true]

section Write

variable {s : State} {t sw k : Nat} (ht : t < 8) (hs : sw < 2048) (hk : k < 64)
include ht hs hk

theorem eccSize_fragWord : eccSize (fragAddr t sw + 4 * k) = 4 ∧ eccBase (fragAddr t sw + 4 * k) = fragAddr t sw + 4 * k := by
  obtain ⟨-, lo, -, -, aligned⟩ := fragWord_place ht hs hk
  unfold eccSize eccBase
  rw [if_neg (by simp; omega), if_neg (by simp; omega)]
  exact ⟨rfl, by omega⟩

theorem State.memWrite_fragWord
    (alone : ∀ p : Nat, p ∈ s.poison → p = fragAddr t sw + 4 * k ∨ p + 8 ≤ fragAddr t sw + 4 * k ∨ fragAddr t sw + 4 * k + 4 ≤ p) (v : Nat) :
    s.memWrite (fragAddr t sw + 4 * k) (toBytes 4 v) =
      (((s.wordHealed (fragAddr t sw + 4 * k)).setBytes (fragAddr t sw + 4 * k) (toBytes 4 v)).fragTouched t sw, .ok) := by
  obtain ⟨-, lo, -⟩ := fragWord_place ht hs hk
  obtain ⟨size, -⟩ := eccSize_fragWord ht hs hk
  exact State.memWrite_fragment lo size (fragmentAt_fragByte ht hs (by omega)) (fragmentAt_fragByte ht hs (j := 4 * k + 3) (by omega)) alone v

/-- What the write leaves: the word's bytes, no poison there, the fragment unsealed and open (R82). -/
theorem State.fragWord_written
    (alone : ∀ p : Nat, p ∈ s.poison → p = fragAddr t sw + 4 * k ∨ p + 8 ≤ fragAddr t sw + 4 * k ∨ fragAddr t sw + 4 * k + 4 ≤ p) (v : Nat) :
    ∃ u : State, s.memWrite (fragAddr t sw + 4 * k) (toBytes 4 v) = (u, .ok) ∧ wroteBytes s u (fragAddr t sw + 4 * k) (toBytes 4 v) ∧
      u.poisoned (fragAddr t sw + 4 * k) = false ∧ u.bit (R.TILE_SEAL_MAP_sealed t (sw / 32)) (sw % 32) = false ∧ sw ∈ (u.tile t).opened := by
  obtain ⟨size, base⟩ := eccSize_fragWord ht hs hk
  have stored : Follows ⟨4, 0⟩ (s.wordHealed (fragAddr t sw + 4 * k))
      ((s.wordHealed (fragAddr t sw + 4 * k)).setBytes (fragAddr t sw + 4 * k) (toBytes 4 v)) :=
    State.setBytes_follows (a := ⟨4, 0⟩) (Foot.le_refl _) (Follows.refl _ _)
  have touched := ((s.wordHealed (fragAddr t sw + 4 * k)).setBytes (fragAddr t sw + 4 * k) (toBytes 4 v)).fragTouched_is t sw
  have gone : fragAddr t sw + 4 * k ∉ (s.wordHealed (fragAddr t sw + 4 * k)).poison := by
    unfold State.wordHealed
    simp [covers, size]
  refine ⟨_, State.memWrite_fragWord ht hs hk alone v, fun b => (touched.bytes_eq rfl b).trans ((s.wordHealed _).setBytes_wrote _ _ b), ?_,
    State.fragTouched_spec _ t sw⟩
  unfold State.poisoned
  rw [touched.poison rfl, stored.poison rfl, base]
  simpa using gone

end Write

/-- A write of an open word of a tile's memory is a write of memory. -/
theorem State.perform_tileWord {s u : State} {a : Nat} (lo : 0x04000000 ≤ a) (hi : a + 4 ≤ 0x08000000) (aligned : a % 4 = 0)
    {data : List Byte} (len : data.length = 4) (ini : Initiator) (deck posted : Bool) (e : s.memWrite a data = (u, .ok)) :
    s.perform .tileMem ini deck true posted a data 4 [] = (u, .ok, []) := by
  have mac : ((List.range data.length).any fun i => macOwned (a + i)) = false := by
    rw [len, List.any_eq_false]
    intro i hi'
    rw [List.mem_range] at hi'
    unfold macOwned
    simp; omega
  have apart : meets a data.length 0x03010000 0x03012100 = false := by
    rw [len]
    unfold meets
    simp; omega
  unfold State.perform State.putMem
  rw [if_neg (by omega), if_neg (by decide), if_pos rfl, if_neg (by decide), mac, if_neg Bool.false_ne_true]
  rw [apart, if_neg Bool.false_ne_true, e]

/-- An initiator whose write is open at a word of a tile's memory has it written. -/
theorem State.regWriteBy_tileWord {s u : State} {a : Nat} (lo : 0x04000000 ≤ a) (hi : a + 4 ≤ 0x08000000) (aligned : a % 4 = 0)
    (kind : (regionOf a).1 = .tileMem) (inside : a + 4 ≤ (regionOf a).2) {ini : Initiator} {data : Word}
    (h : s.opens ini true a data.toNat) (e : s.memWrite a (toBytes 4 data.toNat) = (u, .ok)) :
    s.regWriteBy ini a data.toNat = u.reply .ok [] := by
  obtain ⟨up, keel, dom, go, back⟩ := h
  have word : ofBytes (toBytes 4 data.toNat) = data.toNat := by
    rw [ofBytes_toBytes]; exact Nat.mod_eq_of_lt data.isLt
  have open_ : (!isKeel ini && keelOwned true a 4 (ofBytes (toBytes 4 data.toNat))) = false := by
    rw [word]; rcases keel with k | k <;> rw [k] <;> simp
  have domain : windowDomain a = some ((a - 0x04000000) / 0x800000 + 1) := by
    unfold windowDomain
    rw [if_neg (by omega), if_pos (by simp; omega)]
  have whole : max 4 1 = 4 := by omega
  have fits : ¬((regionOf a).1 = .none ∨ ((regionOf a).1 != .reg && (decide ((regionOf a).2 < a + 4) || decide (4096 < 4))) = true) := by
    rw [kind]; simp; omega
  have own : s.accessOwn .direct ini (!isKeel ini) true a (toBytes 4 data.toNat) 4 [] = (u, some (.ok, [])) := by
    unfold State.accessOwn
    dsimp only
    rw [whole]
    rw [if_neg (by simpa using fits), open_, if_neg Bool.false_ne_true, kind, if_neg (by simp), domain]
    dsimp only
    rw [if_pos (dom _ domain), State.perform_tileWord lo hi aligned (toBytes_length _ _) _ _ _ e]
  unfold State.regWriteBy State.reachable State.device State.access
  rw [if_pos up, go, if_neg Bool.false_ne_true, kind]
  dsimp only
  rw [own]
  dsimp only
  rw [back]
  rfl

end Sys2Proof.Machine
end

section
/-! Swatches: what a write of a directory entry opens, and what the two commits seal and arm. -/

namespace Sys2Proof.Machine

open Sys2Proof

/-! ### A directory entry (R80, R82) -/

/-- A directory entry that is written loses its seal and is open. -/
theorem State.dirTouched_spec (s : State) (sw : Nat) :
    (s.dirTouched sw).get (R.DIR0_sealed sw) = 0 ∧ (s.dirTouched sw).get (R.DIR0_open sw) = 1 := by
  unfold State.dirTouched
  extract_lets copied
  have foot : Follows State.copyOpened_foot ((s.set (R.DIR0_sealed sw) 0).set (R.DIR0_open sw) 1) copied :=
    State.copyOpened_follows (Foot.le_refl _) (Follows.refl _ _)
  have both : copied.get (R.DIR0_sealed sw) = 0 ∧ copied.get (R.DIR0_open sw) = 1 := by
    rw [foot.row 281, foot.row 283, State.get_set_row _ (R.DIR0_open sw) (R.DIR0_sealed sw) _ (by simp), State.get_set_same, State.get_set_same]
    exact ⟨rfl, rfl⟩
  split
  · exact both
  · rw [State.get_set_row _ _ _ _ (by simp), State.get_set_row _ _ _ _ (by simp)]
    exact both

theorem State.writeBf_entry (s : State) {sw w : Nat} (hs : sw < 2048) (hw : w < 4) (v : Nat) :
    s.writeBf (0x020A8000 + 16 * sw + 4 * w) v =
      (((s.plainWrite (0x020A8000 + 16 * sw + 4 * w) v).clrPoison (0x020A8000 + 16 * sw + 4 * w)).dirTouched sw, .ok) := by
  unfold State.writeBf
  iterate 6 rw [if_neg (by omega)]
  rw [if_pos (by simp; omega), show (0x020A8000 + 16 * sw + 4 * w - 0x020A8000) / 16 = sw by omega]

/-- What a write of word w of entry sw leaves: the entry unsealed and open, and no byte changed. -/
theorem State.entry_written (s : State) {sw w : Nat} (hs : sw < 2048) (hw : w < 4) (v : Nat) :
    ∃ u : State, s.writeBf (0x020A8000 + 16 * sw + 4 * w) v = (u, .ok) ∧ u.get (R.DIR0_sealed sw) = 0 ∧ u.get (R.DIR0_open sw) = 1 ∧
      sameBytes s u := by
  have write := s.writeBf_entry hs hw v
  have bytes (b : Nat) : ((s.plainWrite (0x020A8000 + 16 * sw + 4 * w) v).clrPoison (0x020A8000 + 16 * sw + 4 * w)).byte b = s.byte b :=
    congrArg (Memory.read · b) (s.plainWrite_mem _ _)
  generalize (s.plainWrite (0x020A8000 + 16 * sw + 4 * w) v).clrPoison (0x020A8000 + 16 * sw + 4 * w) = x at write bytes
  have touched : Follows State.dirTouched_foot x (x.dirTouched sw) := State.dirTouched_follows (Foot.le_refl _) (Follows.refl _ _)
  obtain ⟨unsealed, open_⟩ := x.dirTouched_spec sw
  exact ⟨_, write, unsealed, open_, fun b => (touched.bytes_eq rfl b).trans (bytes b)⟩

/-! ### The commit of a tile (R39, R83) -/

theorem State.armTile_armed (s : State) {t j : Nat} (ht : t < 8) (hj : j < 64) : (s.armTile t).get (R.ELEM_STATUS_armed (64 * t + j)) = 1 := by
  unfold State.armTile
  rw [Nat.mod_eq_of_lt ht]
  refine forAll_sets (P := fun u : State => u.get (R.ELEM_STATUS_armed (64 * t + j)) = 1) hj (fun u => State.get_set_same _ _ _) fun i u h => ?_
  by_cases e : i = j
  · subst e; exact State.get_set_same _ _ _
  · rw [State.get_set_ne _ _ _ _ (by simp; omega), h]

theorem State.armTile_is (s : State) (t : Nat) : Follows State.armTile_foot s (s.armTile t) :=
  State.armTile_follows (Foot.le_refl _) (Follows.refl _ _)

/-- The seals of a tile's fragments. -/
def State.sealFragments (s : State) (t : Nat) (l : List Nat) : State :=
  l.foldl (fun s sw => s.setBit (R.TILE_SEAL_MAP_sealed t (sw / 32)) (sw % 32)) s

theorem State.sealFragments_sealed (s : State) (t : Nat) {l : List Nat} {sw : Nat} (h : sw ∈ l) :
    (s.sealFragments t l).bit (R.TILE_SEAL_MAP_sealed t (sw / 32)) (sw % 32) = true := by
  have low : sw % 32 < 32 := Nat.mod_lt _ (by decide)
  refine foldl_sets (I := fun _ => True) (P := fun u : State => u.bit (R.TILE_SEAL_MAP_sealed t (sw / 32)) (sw % 32) = true) h trivial
    (fun _ _ _ => trivial) (fun u _ => u.bit_setBit low) fun u y keeps => ?_
  by_cases e : y / 32 = sw / 32
  · rw [e]
    exact State.bit_setBit_keeps low keeps _
  · have other : (u.setBit (R.TILE_SEAL_MAP_sealed t (y / 32)) (y % 32)).get (R.TILE_SEAL_MAP_sealed t (sw / 32)) =
        u.get (R.TILE_SEAL_MAP_sealed t (sw / 32)) := State.get_set_ne _ _ _ _ (by simp; omega)
    unfold State.bit at keeps ⊢
    rw [other, keeps]

theorem State.sealFragments_tile (s : State) (t : Nat) (l : List Nat) (k : Nat) : (s.sealFragments t l).tile k = s.tile k :=
  List.foldlRecOn l _ (motive := fun u : State => u.tile k = s.tile k) rfl fun _ h _ _ => h

/-- TILE_COMMIT seals what is open without poison, keeps the rest open, and arms the elements' shadows. -/
theorem State.tileCommitNow_spec (s : State) {t : Nat} (ht : t < 8) :
    let u := s.tileCommitNow t
    (∀ sw : Nat, sw ∈ (s.tile t).opened → s.fragPoisoned t sw = false → u.bit (R.TILE_SEAL_MAP_sealed t (sw / 32)) (sw % 32) = true) ∧
      (∀ sw : Nat, sw ∈ (u.tile t).opened ↔ sw ∈ (s.tile t).opened ∧ s.fragPoisoned t sw = true) ∧
      (∀ j : Nat, j < 64 → u.get (R.ELEM_STATUS_armed (64 * t + j)) = 1) ∧ sameBytes s u := by
  have e : s.tileCommitNow t = ((s.sealFragments t ((s.tile t).opened.filter (not ∘ fun sw => s.fragPoisoned t sw))).setOpened t
      ((s.tile t).opened.filter fun sw => s.fragPoisoned t sw)).armTile t := by
    unfold State.tileCommitNow
    rw [List.partition_eq_filter_filter]
    rfl
  have foot : Follows State.tileCommitNow_foot s (s.tileCommitNow t) := State.tileCommitNow_follows (Foot.le_refl _) (Follows.refl _ _)
  refine ⟨fun sw open_ clean => ?_, fun sw => ?_, fun j hj => by rw [e]; exact State.armTile_armed _ ht hj, foot.bytes_eq rfl⟩
  · have sealed := s.sealFragments_sealed t (List.mem_filter.mpr ⟨open_, show (not ∘ fun sw => s.fragPoisoned t sw) sw = true by simp [clean]⟩)
    unfold State.bit at sealed ⊢
    rw [e, (State.armTile_is _ t).row 357, State.setOpened_seals]
    exact sealed
  · rw [e, (State.armTile_is _ t).tile_eq rfl, State.setOpened_opened]
    exact List.mem_filter

/-! ### The commit of the beamformer (R84) -/

/-- An open directory entry is found open. -/
theorem State.mem_openEntries {s : State} {sw : Nat} (h : s.get (R.DIR0_open sw) = 1) : sw ∈ s.openEntries := by
  have listed : s.regs.find (R.DIR0_open sw).key = some 1 := by
    unfold State.get RegFile.read at h
    cases f : s.regs.find (R.DIR0_open sw).key with
    | none => rw [f] at h; exact absurd h (by simp)
    | some v => rw [f] at h; exact congrArg some h
  exact List.mem_filterMap.mpr ⟨_, RegFile.mem_of_find listed, by simp⟩

/-- Entry sw is sealed and no longer open. -/
def State.entrySealed (s : State) (sw : Nat) : Prop := s.get (R.DIR0_sealed sw) = 1 ∧ s.get (R.DIR0_open sw) = 0

/-- An open entry without poison is sealed. -/
def State.sealEntry (s : State) (sw : Nat) : State :=
  if s.poisonedIn (dirAddr sw) 16 then s else (s.set (R.DIR0_sealed sw) 1).set (R.DIR0_open sw) 0

theorem State.sealEntry_poison (s : State) (sw : Nat) : (s.sealEntry sw).poison = s.poison := by
  unfold State.sealEntry; split <;> rfl

theorem State.sealEntry_sealed {s : State} {sw : Nat} (clean : s.poisonedIn (dirAddr sw) 16 = false) : (s.sealEntry sw).entrySealed sw := by
  unfold State.sealEntry State.entrySealed
  rw [if_neg (by rw [clean]; exact Bool.false_ne_true), State.get_set_row _ (R.DIR0_open sw) (R.DIR0_sealed sw) _ (by simp), State.get_set_same,
    State.get_set_same]
  exact ⟨rfl, rfl⟩

theorem State.sealEntry_keeps {s : State} {sw : Nat} (h : s.entrySealed sw) (k : Nat) : (s.sealEntry k).entrySealed sw := by
  by_cases e : k = sw
  · subst e
    by_cases clean : s.poisonedIn (dirAddr k) 16 = false
    · exact State.sealEntry_sealed clean
    · unfold State.sealEntry
      rwa [if_pos (Bool.of_not_eq_false clean)]
  · unfold State.sealEntry
    split
    · exact h
    · obtain ⟨sealed, closed⟩ := h
      have ne : sw ≠ k := Ne.symm e
      unfold State.entrySealed
      rw [State.get_set_row _ (R.DIR0_open k) (R.DIR0_sealed sw) _ (by simp), State.get_set_ne _ _ _ _ (by simp [ne]),
        State.get_set_ne _ (R.DIR0_open k) _ _ (by simp [ne]), State.get_set_row _ _ _ _ (by simp)]
      exact ⟨sealed, closed⟩

/-- Every slot's shadow waits for its window. -/
def State.slotsWait (s : State) : State := forAll 16 (fun n s => s.updSlot n fun x => { x with shadowWait := true }) s

theorem State.slotsWait_waits (s : State) (n : Nat) : (s.slotsWait.slot n).shadowWait = true := by
  have here (u : State) (f : SlotSt → SlotSt) : (u.updSlot (n % 16) f).slot n = f (u.slot (n % 16)) :=
    (State.slot_mod _ (Nat.mod_mod n 16).symm).trans (u.slot_updSlot _ _)
  refine forAll_sets (P := fun u : State => (u.slot n).shadowWait = true) (Nat.mod_lt n (by decide)) (fun u => by rw [here]) fun i u h => ?_
  by_cases e : n % 16 = i % 16
  · rw [State.slot_mod _ e, State.slot_updSlot]
  · rw [State.slot_updSlot_ne _ _ _ _ e, h]

theorem State.slotsWait_is (s : State) : Follows State.updSlot_foot s s.slotsWait :=
  Follows.forAll (fun _ _ h => State.updSlot_follows (Foot.le_refl _) h) (Follows.refl _ _)

/-- Every open entry without poison is sealed. -/
def State.sealEntries (s : State) : State := s.openEntries.foldl State.sealEntry s

theorem State.sealEntries_sealed {s : State} {sw : Nat} (open_ : s.get (R.DIR0_open sw) = 1) (clean : s.poisonedIn (dirAddr sw) 16 = false) :
    s.sealEntries.entrySealed sw :=
  foldl_sets (I := fun u : State => u.poison = s.poison) (P := fun u : State => u.entrySealed sw) (State.mem_openEntries open_) rfl
    (fun u y h => (u.sealEntry_poison y).trans h)
    (fun u h => State.sealEntry_sealed (by unfold State.poisonedIn at clean ⊢; rw [h]; exact clean)) fun u y h => State.sealEntry_keeps h y

theorem State.bfCommitNow_eq (s : State) : s.bfCommitNow = s.sealEntries.slotsWait.set R.BF_COMMIT_pending 1 := by
  unfold State.bfCommitNow State.slotsWait State.sealEntries State.sealEntry
  with_reducible rfl

/-- BF_COMMIT seals the open entries without poison, and lets the slots' shadows wait. -/
theorem State.bfCommitNow_spec (s : State) :
    let u := s.bfCommitNow
    (∀ sw : Nat, s.get (R.DIR0_open sw) = 1 → s.poisonedIn (dirAddr sw) 16 = false → u.entrySealed sw) ∧
      (∀ n : Nat, (u.slot n).shadowWait = true) ∧ u.get R.BF_COMMIT_pending = 1 ∧ sameBytes s u := by
  have foot : Follows State.bfCommitNow_foot s s.bfCommitNow := State.bfCommitNow_follows (Foot.le_refl _) (Follows.refl _ _)
  refine ⟨fun sw open_ clean => ?_, fun n => ?_, ?_, foot.bytes_eq rfl⟩
  · rw [State.bfCommitNow_eq]
    unfold State.entrySealed
    rw [State.get_set_row _ _ _ _ (by simp), State.get_set_row _ _ _ _ (by simp), (State.slotsWait_is _).row 281, (State.slotsWait_is _).row 283]
    exact State.sealEntries_sealed open_ clean
  · rw [State.bfCommitNow_eq, State.slot_set]
    exact State.slotsWait_waits _ n
  · rw [State.bfCommitNow_eq]
    exact State.get_set_same _ _ _

end Sys2Proof.Machine
end

section
/-! Swatches and commits: the claim. -/

namespace Sys2Proof.Machine

open Sys2Proof

/-! ### The claim -/

/-- With no global commit under way a commit register takes its commit. -/
theorem State.gcIncludes_free {s : State} (free : s.get R.HUB_GCOMMIT_busy = 0) (f : Field) (k : Nat) : s.gcIncludes f k = false := by
  unfold State.gcIncludes State.on
  rw [free]
  rfl

theorem hubReg_bfCommit : hubReg 0x020A0000 := by unfold hubReg; omega

theorem hubReg_entry {sw w : Nat} (hs : sw < 2048) (hw : w < 4) : hubReg (0x020A8000 + 16 * sw + 4 * w) := by unfold hubReg; omega

/-! TILE_COMMIT stands first in its tile's window. -/

theorem State.writeTileReg_first (s : State) {a t : Nat} (h : regPlace a = ⟨.tile, t, 0⟩) (v : Nat) : s.writeTileReg a v = s.tileCommitWrite t v := by
  unfold State.writeTileReg
  rw [h]
  exact if_pos rfl

section Place

variable {t : Nat} (ht : t < 8)
include ht

theorem tileBase_window : 0x04000000 ≤ tileBase t ∧ tileBase t < 0x08000000 ∧ tileBase t % 4 = 0 ∧ (tileBase t - 0x04000000) / 0x800000 = t ∧
    (tileBase t - 0x04000000) % 0x800000 = 0 ∧ tileBase t % 0x800000 = 0 := by
  unfold tileBase
  omega

theorem regionOf_tileBase : (regionOf (tileBase t)).1 = .reg := by
  obtain ⟨lo, hi, -, -, first, -⟩ := tileBase_window ht
  rw [regionOf_tile lo hi, first]
  unfold tileRegion
  rw [if_pos (by omega)]

theorem engPlace_tileBase : engPlace (tileBase t) = none := by
  obtain ⟨lo, hi, -, -, -, off⟩ := tileBase_window ht
  unfold engPlace
  rw [if_neg (by simp; omega), if_neg (by simp; omega)]

theorem regPlace_tileBase : regPlace (tileBase t) = ⟨.tile, t, 0⟩ := by
  obtain ⟨lo, hi, -, tile, -, off⟩ := tileBase_window ht
  unfold regPlace
  iterate 5 rw [if_neg (by simp; omega)]
  rw [if_pos (by simp; omega), tile, off]
  unfold tilePlace
  rw [if_neg (by omega), if_neg (by simp), if_neg (by simp)]

/-- A write of the register is a commit of the tile. -/
theorem State.regWrite_tileBase (s : State) (deck posted : Bool) (v : Nat) : s.regWrite deck posted (tileBase t) v = s.tileCommitWrite t v := by
  obtain ⟨lo, hi, -⟩ := tileBase_window ht
  unfold State.regWrite
  split
  case h_18 => rw [if_pos (by simp [lo, hi]), s.writeTileReg_first (regPlace_tileBase ht)]
  all_goals omega

theorem State.regWriteBy_tileBase {s u : State} {ini : Initiator} {data : Word} (h : s.opens ini true (tileBase t) data.toNat)
    (e : s.tileCommitWrite t data.toNat = (u, .ok)) : s.regWriteBy ini (tileBase t) data.toNat = u.reply .ok [] := by
  obtain ⟨lo, -, aligned, -⟩ := tileBase_window ht
  have word : data.toNat % 2 ^ 32 = data.toNat := Nat.mod_eq_of_lt data.isLt
  rw [State.regWriteBy_block (regionOf_tileBase ht) aligned (by omega) (engPlace_tileBase ht) (by rw [word]; exact h), State.regWrite_tileBase ht,
    word, e]

end Place

/-- With no global commit under way TILE_COMMIT.go commits the tile. -/
theorem State.tileCommitWrite_go {s : State} (free : s.get R.HUB_GCOMMIT_busy = 0) {v : Nat} (go : v.testBit 0 = true) (t : Nat) :
    s.tileCommitWrite t v = (s.tileCommitNow t, .ok) := by
  unfold State.tileCommitWrite
  rw [State.gcIncludes_free free, if_neg Bool.false_ne_true, if_pos go]

/-- With no global commit under way BF_COMMIT.go commits the beamformer. -/
theorem State.writeBf_commit {s : State} (free : s.get R.HUB_GCOMMIT_busy = 0) {v : Nat} (go : v.testBit 0 = true) :
    s.writeBf 0x020A0000 v = (s.bfCommitNow, .ok) := by
  unfold State.writeBf State.bfCommitWrite
  rw [if_pos rfl, State.gcIncludes_free free, if_neg Bool.false_ne_true, if_pos go]

/-- Settles O24, by what a write leaves of a fragment and of a directory entry, and by what the two commits seal. -/
theorem swatchesAndCommits : Obligations.SwatchesAndCommits := by
  unfold Obligations.SwatchesAndCommits
  refine ⟨fun s ini t sw k w data => ⟨fun opens alone => ?_, fun opens => ?_⟩, fun s ini t data free go => ⟨fun opens => ?_, fun opens => ?_⟩⟩
  · obtain ⟨place, lo, hi, -, aligned⟩ := fragWord_place t.isLt sw.isLt k.isLt
    rw [← place] at opens alone ⊢
    obtain ⟨u, write, stored⟩ := State.fragWord_written t.isLt sw.isLt k.isLt alone data.toNat
    have written := State.regWriteBy_tileWord lo hi aligned (congrArg Prod.fst (regionOf_fragWord t.isLt sw.isLt k.isLt))
      (fragWord_inside t.isLt sw.isLt k.isLt) opens write
    exact ⟨u.reply .ok [], next_congr written, rfl, stored⟩
  · obtain ⟨u, write, written⟩ := s.entry_written sw.isLt w.isLt data.toNat
    exact answers_writeBf rfl (hubReg_entry sw.isLt w.isLt) (by omega) opens write written
  · have place : 0x04000000 + t.val * 0x800000 = tileBase t.val := by unfold tileBase; omega
    rw [place] at opens
    have written := State.regWriteBy_tileBase t.isLt opens (State.tileCommitWrite_go free go t.val)
    have sealed := s.tileCommitNow_spec t.isLt
    generalize s.tileCommitNow t.val = u at written sealed
    exact ⟨u.reply .ok [], next_congr written, rfl, sealed⟩
  · have commits := State.writeBf_commit free go
    have sealed := s.bfCommitNow_spec
    generalize s.bfCommitNow = u at commits sealed
    exact answers_writeBf rfl hubReg_bfCommit (by decide) opens commits sealed

end Sys2Proof.Machine
end

section
/-! Preloads: what the hub takes or refuses, and what a tile's report leaves (R88). -/

namespace Sys2Proof.Machine

open Sys2Proof

/-! ### Loops and tiles -/

/-- A loop whose every step leaves a as it is leaves it so. -/
theorem forBits_still {α : Type} {n m : Nat} {f : Nat → α → α} {a : α} (still : ∀ i : Nat, i < n → f i a = a) : forBits n m f a = a := by
  induction n with
  | zero => rfl
  | succ n ih =>
    rw [forBits_succ, ih fun i hi => still i (by omega)]
    split
    · exact still n (by omega)
    · rfl

/-- A tile's logic runs as before where neither its domain nor its reset has changed. -/
theorem State.tileRuns_is {p : Foot} {s t : State} (h : Follows p s t)
    (quiet : (!p.comp 5 && !p.row R.PWR_FORCE_OFF_force.row && !p.row R.PWR_CLK_GATE_gate.row) = true) (faces : sameFaces s t) (k : Nat) :
    t.tileRuns k = s.tileRuns k := by
  have reset : (t.tile k).inReset = (s.tile k).inReset := congrArg TileFace.inReset (faces k)
  unfold State.tileRuns
  rw [State.domRuns_is h quiet, reset]

theorem Follows.slot_eq {p : Foot} {s t : State} (h : Follows p s t) (e : p.comp 11 = false) (n : Nat) : t.slot n = s.slot n := by
  unfold State.slot; rw [h.slots e]

@[simp] theorem State.bank_updBank (s : State) (t n : Nat) (f : BankPair → BankPair) : (s.updBank t n f).bank t n = f (s.bank t n) := by
  unfold State.updBank State.bank
  rw [State.tile_updTile]
  exact vget_vset_same _ _ _

@[simp] theorem State.bank_set (s : State) (f : Field) (v t n : Nat) : (s.set f v).bank t n = s.bank t n := rfl

@[simp] theorem State.bank_updSlot (s : State) (k t n : Nat) (f : SlotSt → SlotSt) : (s.updSlot k f).bank t n = s.bank t n := rfl

@[simp] theorem State.slot_updBank (s : State) (k t n : Nat) (f : BankPair → BankPair) : (s.updBank t k f).slot n = s.slot n := rfl

/-! ### The hub takes a preload, or does not -/

theorem State.preload_busy {s : State} {slot : Nat} (armed : s.get (R.BF_BANK_armed slot) ≠ 0) (sw dir : Nat) :
    s.preload slot sw dir = (s, .busy) := by
  have on : s.on (R.BF_BANK_armed slot) = true := bne_iff_ne.mpr armed
  unfold State.preload
  rw [if_pos on]

section Free

variable {s : State} {slot sw dir : Nat} (free : s.get (R.BF_BANK_armed slot) = 0)
include free

theorem State.bank_free : ¬s.on (R.BF_BANK_armed slot) = true := by
  unfold State.on
  rw [free]
  decide

/-- An entry that fails its own conditions fails the preload with their reason. -/
theorem State.preload_fails {r : Nat} (reason : s.dirReason sw dir = r) (bad : r ≠ 0) (small : r < 16) :
    ∃ u : State, s.preload slot sw dir = (u, .ok) ∧ u.get (R.BF_BANK_state slot) = 3 ∧ u.get (R.BF_BANK_reason slot) = r := by
  unfold State.preload
  extract_lets superseded cleared r' c wait copied emptied shown failed
  have own : r' = r := reason
  have fails : (r' != 0) = true := bne_iff_ne.mpr (own.trans_ne bad)
  rw [if_neg (State.bank_free free), if_pos fails, own]
  refine ⟨_, rfl, ?_, ?_⟩
  · rw [State.get_set_row _ _ _ _ (by simp), State.get_set_same]
    rfl
  · rw [State.get_set_same]
    exact Nat.mod_eq_of_lt small

/-- An entry that may be loaded is taken with its direction and its swatch, and every running tile is waited for. -/
theorem State.preload_taken (loads : s.dirReason sw dir = 0) (hs : sw < 2048) (runs : ∀ i : Nat, i < 8 → s.tileRuns i = true) :
    ∃ u : State, s.preload slot sw dir = (u, .ok) ∧ u.get (R.BF_BANK_state slot) = 1 ∧ u.get (R.BF_BANK_shadow_swatch slot) = sw ∧
      (u.slot slot).shadowDir = dir ∧ (∀ i : Nat, i < 8 → (u.slot slot).waiting.testBit i = true) ∧ sameBytes s u := by
  unfold State.preload
  extract_lets superseded cleared r c wait copied emptied shown failed
  have own : r = 0 := loads
  have passes : ¬(r != 0) = true := by rw [own]; decide
  have asked (i : Nat) (hi : i < 8) : wait.testBit i = true := by
    have run : cleared.tileRuns i = true := runs i hi
    unfold wait
    rw [maskOf_testBit, run, decide_eq_true hi]
    rfl
  have some_ : ¬(wait = 0 && c.tiles = 0) = true := by
    have : wait ≠ 0 := fun e => by simpa [e] using asked 0 (by decide)
    simp [this]
  have le : Foot.le State.preload_foot State.preload_foot := Foot.le_refl _
  have hcopied : Follows State.preload_foot s copied := State.updSlot_follows (le.sub rfl) (State.updSlot_follows (le.sub rfl) (Follows.refl _ _))
  have hemptied : Follows State.updBank_foot copied emptied :=
    Follows.forBits (fun _ _ h => State.updBank_follows (Foot.le_refl _) h) (Follows.refl _ _)
  have hshown : Follows State.preload_foot s shown := by
    refine State.set_follows 260 le ?_
    refine State.set_follows 256 le ?_
    refine State.set_follows 255 le ?_
    exact Follows.forBits (fun _ _ h => State.updBank_follows (le.sub rfl) h) hcopied
  have faces : sameFaces s shown := by
    have : sameFaces s emptied := forBits_keeps (fun _ => rfl) fun t u h => h.trans (sameFaces_updBank _ _ _ _)
    exact this.trans fun _ => rfl
  have all : failed = shown := forBits_still fun i hi => if_pos ((State.tileRuns_is hshown (by decide) faces i).trans (runs i hi))
  have slot_ : shown.slot slot = copied.slot slot := hemptied.slot_eq rfl slot
  rw [if_neg (State.bank_free free), if_neg passes, if_neg some_, all]
  refine ⟨shown, rfl, ?_, ?_, ?_, ?_, hshown.bytes_eq rfl⟩
  · unfold shown
    rw [State.get_set_row _ _ _ _ (by simp), State.get_set_row _ _ _ _ (by simp), State.get_set_same]
    rfl
  · unfold shown
    rw [State.get_set_same]
    exact Nat.mod_eq_of_lt hs
  · rw [slot_]
    unfold copied
    rw [State.slot_updSlot]
  · rw [slot_]
    unfold copied
    rw [State.slot_updSlot]
    exact asked

end Free
/-! ### The entry's own conditions (R81, R88) -/

theorem State.dirReason_poisoned {s : State} {sw dir : Nat} (hs : sw < 2048) (poisoned : s.get (R.DIR0_poisoned sw) ≠ 0) : s.dirReason sw dir = 2 := by
  unfold State.dirReason State.on
  rw [if_neg (by omega), if_pos (bne_iff_ne.mpr poisoned)]

theorem State.dirReason_unsealed {s : State} {sw dir : Nat} (hs : sw < 2048) (clean : s.get (R.DIR0_poisoned sw) = 0)
    (open_ : s.get (R.DIR0_sealed sw) = 0) : s.dirReason sw dir = 1 := by
  unfold State.dirReason State.on
  rw [if_neg (by omega), clean, if_neg (by decide), open_, if_pos (by decide)]

theorem State.dirReason_loads {s : State} {sw dir : Nat} (hs : sw < 2048) (clean : s.get (R.DIR0_poisoned sw) = 0)
    (sealed : s.get (R.DIR0_sealed sw) = 1) (use : (s.get (R.DIR0_use sw)).testBit dir = true) : s.dirReason sw dir = 0 := by
  unfold State.dirReason State.on
  rw [if_neg (by omega), clean, if_neg (by decide), sealed, if_neg (by decide), use, if_neg (by decide)]

/-! ### A tile reports (R88) -/

/-- Tile t has been heard on the preload of a slot. -/
def State.heard (s : State) (t slot : Nat) : State := s.updSlot slot fun x => { x with waiting := x.waiting - 2 ^ t }

/-- The hub's copy of the slot's entry has tile t in it. -/
def State.present (s : State) (t slot : Nat) : Bool := match (s.slot slot).shadow with | some c => c.tiles.testBit t | none => false

theorem State.present_copy {s : State} {slot : Nat} {c : HubCopy} (h : (s.slot slot).shadow = some c) (t : Nat) :
    s.present t slot = c.tiles.testBit t := by
  unfold State.present; rw [h]

/-- The reason that a tile's report gives: 0 where the entry leaves the tile out. -/
def State.reportReason (s : State) (t slot : Nat) : Nat :=
  if s.present t slot then s.fragReason t (s.get (R.BF_BANK_shadow_swatch slot)) ((s.slot slot).opened.testBit t) else 0

/-- The bank that a tile's report loads. -/
def State.reportBank (s : State) (t slot : Nat) : Bank :=
  s.loadedBank t (s.get (R.BF_BANK_shadow_swatch slot)) (s.slot slot).shadowDir (s.present t slot)

/-- The tile has been heard, and its shadow bank of the slot is loaded. -/
def State.reportLoaded (s : State) (t slot : Nat) : State := (s.heard t slot).updBank t slot fun p => { p with shadow := s.reportBank t slot }

/-- A report of a tile that is waited for, with no poison met. -/
theorem State.preloadReport_eq {s : State} {t slot : Nat} (asked : (s.slot slot).waiting.testBit t = true)
    (clean : s.present t slot = true → s.fragPoisoned t (s.get (R.BF_BANK_shadow_swatch slot)) = false) :
    s.preloadReport t slot [] =
      if s.reportReason t slot != 0 then (s.heard t slot).preloadFail slot t (s.reportReason t slot)
      else if ((s.reportLoaded t slot).slot slot).waiting = 0 && ((s.reportLoaded t slot).slot slot).failTile.isNone then
        ((s.reportLoaded t slot).set (R.BF_BANK_state slot) 2).set (R.BF_BANK_reason slot) 0
      else s.reportLoaded t slot := by
  unfold State.preloadReport
  extract_lets x sw present heard met seen reason b loaded
  have unmet : met = heard ∨ present = false := by
    by_cases here : present = true
    · exact .inl (if_neg (by rw [show heard.fragPoisoned t sw = false from clean here]; exact Bool.false_ne_true))
    · exact .inr (Bool.eq_false_iff.mpr here)
  have same : seen = s.heard t slot := by
    unfold seen
    rcases unmet with e | e
    · rw [e]
      split <;> rfl
    · rw [e]
      rfl
  have own : reason = s.reportReason t slot := by
    unfold reason
    rw [same]
    rfl
  have bank : loaded = s.reportLoaded t slot := by
    unfold loaded b
    rw [same]
    rfl
  rw [if_neg (by rw [asked]; decide), own, same, bank]

/-- The slot's last tile, with nothing failed, makes the shadow ready. -/
theorem State.preloadReport_ready {s : State} {t slot : Nat} (last : (s.slot slot).waiting = 2 ^ t) (good : (s.slot slot).failTile = none)
    (clean : s.present t slot = true → s.fragPoisoned t (s.get (R.BF_BANK_shadow_swatch slot)) = false) (loads : s.reportReason t slot = 0) :
    let u := s.preloadReport t slot []
    (u.bank t slot).shadow = s.reportBank t slot ∧ (u.slot slot).waiting = 0 ∧ u.get (R.BF_BANK_state slot) = 2 ∧ sameBytes s u := by
  have asked : (s.slot slot).waiting.testBit t = true := by rw [last]; exact Nat.testBit_two_pow_self
  have slot_ : (s.reportLoaded t slot).slot slot = { s.slot slot with waiting := 0 } := by
    unfold State.reportLoaded State.heard
    rw [State.slot_updBank, State.slot_updSlot, last, Nat.sub_self]
  rw [State.preloadReport_eq asked clean, loads, if_neg (by decide), slot_, good, if_pos (by rfl)]
  refine ⟨?_, ?_, ?_, fun _ => rfl⟩
  · unfold State.reportLoaded
    rw [State.bank_set, State.bank_set, State.bank_updBank]
  · rw [State.slot_set, State.slot_set, slot_]
  · rw [State.get_set_row _ _ _ _ (by simp), State.get_set_same]
    rfl

/-- A tile whose fragment fails makes the preload failed. -/
theorem State.preloadReport_fails {s : State} {t slot : Nat} (last : (s.slot slot).waiting = 2 ^ t) (good : (s.slot slot).failTile = none)
    (clean : s.present t slot = true → s.fragPoisoned t (s.get (R.BF_BANK_shadow_swatch slot)) = false) (bad : s.reportReason t slot ≠ 0)
    (small : s.reportReason t slot < 16) :
    let u := s.preloadReport t slot []
    u.get (R.BF_BANK_state slot) = 3 ∧ u.get (R.BF_BANK_reason slot) = s.reportReason t slot ∧ (u.slot slot).waiting = 0 ∧ sameBytes s u := by
  have asked : (s.slot slot).waiting.testBit t = true := by rw [last]; exact Nat.testBit_two_pow_self
  have slot_ : (s.heard t slot).slot slot = { s.slot slot with waiting := 0 } := by
    unfold State.heard
    rw [State.slot_updSlot, last, Nat.sub_self]
  rw [State.preloadReport_eq asked clean, if_pos (bne_iff_ne.mpr bad)]
  unfold State.preloadFail
  dsimp only
  rw [slot_, good]
  refine ⟨?_, ?_, ?_, fun _ => rfl⟩
  · rw [State.get_set_row _ _ _ _ (by simp), State.get_set_same]
    rfl
  · rw [State.get_set_same]
    exact Nat.mod_eq_of_lt small
  · rw [State.slot_set, State.slot_set, State.slot_updSlot, slot_]

theorem State.fragReason_small (s : State) (t sw : Nat) (opened : Bool) : s.fragReason t sw opened < 16 := by
  unfold State.fragReason
  repeat' split
  all_goals decide

/-- A fragment that gives no reason holds no poison. -/
theorem State.fragReason_clean {s : State} {t sw : Nat} {opened : Bool} (h : s.fragReason t sw opened = 0) : s.fragPoisoned t sw = false := by
  refine Bool.eq_false_iff.mpr fun poisoned => ?_
  unfold State.fragReason at h
  rw [if_pos poisoned] at h
  split at h <;> exact absurd h (by decide)

section Report

variable {s : State} {t slot : Nat} {c : HubCopy} (copy : (s.slot slot).shadow = some c)
include copy

theorem State.reportReason_present (inside : c.tiles.testBit t = true) :
    s.reportReason t slot = s.fragReason t (s.get (R.BF_BANK_shadow_swatch slot)) ((s.slot slot).opened.testBit t) := by
  unfold State.reportReason
  rw [State.present_copy copy, if_pos inside]

theorem State.reportReason_absent (outside : c.tiles.testBit t = false) : s.reportReason t slot = 0 := by
  unfold State.reportReason
  rw [State.present_copy copy, if_neg (by rw [outside]; exact Bool.false_ne_true)]

/-- What a tile in the entry loads: its fragment. -/
theorem State.reportBank_present (inside : c.tiles.testBit t = true) :
    (s.reportBank t slot).valid = true ∧ (s.reportBank t slot).swatch = s.get (R.BF_BANK_shadow_swatch slot) ∧
      (s.reportBank t slot).words = (List.range 64).map fun k => s.fragWord t (s.get (R.BF_BANK_shadow_swatch slot)) k % 2 ^ 24 := by
  unfold State.reportBank State.loadedBank
  rw [State.present_copy copy, if_pos inside]
  exact ⟨rfl, rfl, rfl⟩

/-- What a tile that the entry leaves out loads: zero weights. -/
theorem State.reportBank_absent (outside : c.tiles.testBit t = false) : (s.reportBank t slot).words = List.replicate 64 0 := by
  unfold State.reportBank State.loadedBank
  rw [State.present_copy copy, if_neg (by rw [outside]; exact Bool.false_ne_true)]

end Report

end Sys2Proof.Machine
end

section
/-! Swaps up to their cut-off: the requests of BF_SWAP, and what the cut-off arms or refuses (R90, R91). -/

namespace Sys2Proof.Machine

open Sys2Proof

/-! ### Requests (R90) -/

/-- A loop whose step i alone brings P about: before it Q stands, and every other step keeps what stands. -/
theorem forAll_once {α : Type} {P Q : α → Prop} {n i : Nat} {f : Nat → α → α} {a : α} (hi : i < n) (start : Q a) (set : ∀ b : α, Q b → P (f i b))
    (before : ∀ (j : Nat) (b : α), j < n → j ≠ i → Q b → Q (f j b)) (after : ∀ (j : Nat) (b : α), j < n → j ≠ i → P b → P (f j b)) :
    P (forAll n f a) := by
  have upTo : ∀ k : Nat, k ≤ n → (k ≤ i → Q (forAll k f a)) ∧ (i < k → P (forAll k f a)) := by
    intro k
    induction k with
    | zero => exact fun _ => ⟨fun _ => start, fun h => absurd h (by omega)⟩
    | succ k ih =>
      intro hk
      obtain ⟨early, late⟩ := ih (by omega)
      have last : forAll (k + 1) f a = f k (forAll k f a) := by
        unfold forAll
        rw [List.range_succ, List.foldl_append]
        rfl
      rw [last]
      refine ⟨fun h => before k _ (by omega) (by omega) (early (by omega)), fun h => ?_⟩
      by_cases e : k = i
      · rw [e]
        exact set _ (e ▸ early (by omega))
      · exact after k _ (by omega) e (late (by omega))
  exact (upTo n (Nat.le_refl n)).2 hi

/-- The same for a loop over set bits. -/
theorem forBits_once {α : Type} {P Q : α → Prop} {n m i : Nat} {f : Nat → α → α} {a : α} (hi : i < n) (bit : m.testBit i = true) (start : Q a)
    (set : ∀ b : α, Q b → P (f i b)) (before : ∀ (j : Nat) (b : α), j < n → j ≠ i → Q b → Q (f j b))
    (after : ∀ (j : Nat) (b : α), j < n → j ≠ i → P b → P (f j b)) : P (forBits n m f a) := by
  refine forAll_once (Q := Q) (f := fun j b => if m.testBit j then f j b else b) hi start (fun b h => ?_) (fun j b hj ne h => ?_) fun j b hj ne h => ?_
  · rw [if_pos bit]
    exact set b h
  · split
    · exact before j b hj ne h
    · exact h
  · split
    · exact after j b hj ne h
    · exact h

theorem State.swapEvent_is (s : State) (slot : Nat) : Follows State.swapEvent_foot s (s.swapEvent slot) :=
  State.swapEvent_follows (Foot.le_refl _) (Follows.refl _ _)

/-- Slot n and the time are as in s. -/
def sameSlot (s : State) (n : Nat) (u : State) : Prop := u.slot n = s.slot n ∧ u.now = s.now

theorem State.lateSwap_same (s : State) (k n : Nat) : sameSlot s n ((s.setBit R.BF_SWAP_UNREADY_late k).swapEvent k) := by
  have event := (s.setBit R.BF_SWAP_UNREADY_late k).swapEvent_is k
  refine ⟨event.slot_eq rfl n, ?_⟩
  unfold State.now
  rw [event.clk rfl]
  rfl

/-- A request on another slot. -/
theorem State.askSwap_other (s : State) {k n : Nat} (hk : k < 16) (hn : n < 16) (ne : k ≠ n) (r : SwapReq) : sameSlot s n (s.askSwap k r) := by
  unfold State.askSwap
  split
  · exact s.lateSwap_same k n
  · exact ⟨State.slot_updSlot_ne _ _ _ _ (by omega), rfl⟩

theorem sameSlot.trans {s u v : State} {n : Nat} (h : sameSlot s n u) (g : sameSlot u n v) : sameSlot s n v := by
  obtain ⟨slot, now⟩ := h
  obtain ⟨slot', now'⟩ := g
  exact ⟨slot'.trans slot, now'.trans now⟩

/-- The tick at which a request of BF_SWAP swaps depends on its slot alone. -/
theorem sameSlot.swapTick {s u : State} {n : Nat} (h : sameSlot s n u) (r : SwapReq) : u.swapTick n r = s.swapTick n r := by
  unfold State.swapTick; rw [h.1]

/-- A slot that is marked late stays so. -/
theorem State.askSwap_late {s : State} {n : Nat} (hn : n < 16) (late : s.bit R.BF_SWAP_UNREADY_late n = true) (k : Nat) (r : SwapReq) :
    (s.askSwap k r).bit R.BF_SWAP_UNREADY_late n = true := by
  unfold State.askSwap
  split
  · have kept : (s.setBit R.BF_SWAP_UNREADY_late k).bit R.BF_SWAP_UNREADY_late n = true := State.bit_setBit_keeps hn late k
    unfold State.bit at kept ⊢
    rw [(State.swapEvent_is _ k).row 241, kept]
  · exact late

/-- The request that BF_SWAP makes now. -/
def State.hostSwap (s : State) : SwapReq := ⟨s.swapAt.1, s.swapAt.2, none, false, false⟩

theorem State.hostSwap_tick (s : State) (n : Nat) :
    s.swapTick n s.hostSwap = if (s.slot n).shadowDir = 1 then s.swapAt.1 else s.swapAt.1 + s.swapAt.2 := by
  unfold State.swapTick State.hostSwap
  by_cases tx : (s.slot n).shadowDir = 1 <;> simp [tx]

section Request

variable {s : State} {n v : Nat} (hn : n < 16) (bit : v.testBit n = true)
include hn bit

/-- A request in time is queued on its slot. -/
theorem State.swapRequest_early (early : s.now + armLead ≤ s.swapTick n s.hostSwap) :
    ((s.swapRequest v).slot n).swaps = (s.slot n).swaps ++ [s.hostSwap] := by
  unfold State.swapRequest
  refine forBits_once (P := fun u : State => (u.slot n).swaps = (s.slot n).swaps ++ [s.hostSwap]) (Q := sameSlot s n) hn bit ⟨rfl, rfl⟩
    (fun u h => ?_) (fun k u hk ne h => h.trans (u.askSwap_other hk hn ne _)) fun k u hk ne h => ?_
  · have tick : u.swapTick n s.hostSwap = s.swapTick n s.hostSwap := h.swapTick _
    obtain ⟨slot, now⟩ := h
    unfold State.askSwap
    rw [if_neg (by rw [now, show (⟨s.swapAt.1, s.swapAt.2, none, false, false⟩ : SwapReq) = s.hostSwap from rfl, tick]; omega), State.slot_updSlot, slot]
    rfl
  · rw [(u.askSwap_other hk hn ne _).1, h]

/-- A request too late is dropped and its slot marked. -/
theorem State.swapRequest_late (late : s.swapTick n s.hostSwap < s.now + armLead) :
    ((s.swapRequest v).slot n).swaps = (s.slot n).swaps ∧ (s.swapRequest v).bit R.BF_SWAP_UNREADY_late n = true := by
  unfold State.swapRequest
  refine forBits_once (P := fun u : State => (u.slot n).swaps = (s.slot n).swaps ∧ u.bit R.BF_SWAP_UNREADY_late n = true) (Q := sameSlot s n) hn bit
    ⟨rfl, rfl⟩ (fun u h => ?_) (fun k u hk ne h => h.trans (u.askSwap_other hk hn ne _)) fun k u hk ne h => ?_
  · have tick : u.swapTick n s.hostSwap = s.swapTick n s.hostSwap := h.swapTick _
    obtain ⟨slot, now⟩ := h
    unfold State.askSwap
    rw [if_pos (by rw [now, show (⟨s.swapAt.1, s.swapAt.2, none, false, false⟩ : SwapReq) = s.hostSwap from rfl, tick]; exact late)]
    refine ⟨by rw [(u.lateSwap_same n n).1, slot], ?_⟩
    have marked : (u.setBit R.BF_SWAP_UNREADY_late n).bit R.BF_SWAP_UNREADY_late n = true := State.bit_setBit u hn
    unfold State.bit at marked ⊢
    rw [(State.swapEvent_is _ n).row 241, marked]
  · obtain ⟨swaps, marked⟩ := h
    exact ⟨by rw [(u.askSwap_other hk hn ne _).1, swaps], State.askSwap_late hn marked k _⟩

end Request

/-! ### The cut-off (R91) -/

/-- A slot's only swap is its first, where it is one of those asked about. -/
theorem State.firstSwap_only {s : State} {n : Nat} {r : SwapReq} (only : (s.slot n).swaps = [r]) {p : SwapReq → Bool} (h : p r = true) :
    s.firstSwap n p = some r := by
  unfold State.firstSwap
  rw [only, List.filter_cons_of_pos h]
  rfl

/-- A swap of BF_SWAP belongs to no crossing. -/
theorem State.swapCrossing_none (s : State) {r : SwapReq} (h : r.crossing = none) : s.swapCrossing r = none := by
  unfold State.swapCrossing
  rw [h]
  exact List.find?_eq_none.mpr fun _ _ => by simp

@[simp] theorem State.slot_setBit (s : State) (f : Field) (k n : Nat) : (s.setBit f k).slot n = s.slot n := rfl

/-- The slot's swap r is dropped. -/
def State.dropSwap (s : State) (slot : Nat) (r : SwapReq) : State :=
  s.updSlot slot fun x => { x with swaps := x.swaps.filter fun (y : SwapReq) => y != r }

theorem State.dropSwap_only {s : State} {n : Nat} {r : SwapReq} (only : (s.slot n).swaps = [r]) : ((s.dropSwap n r).slot n).swaps = [] := by
  unfold State.dropSwap
  rw [State.slot_updSlot]
  simp [only]

/-- Every tile whose shadow of the slot is not ready is marked. -/
def State.markUnready (s : State) (slot : Nat) : State :=
  forAll 8 (fun t s =>
    if s.tileRuns t && !s.tileReady t slot then (s.setBit (R.TILE_STATUS_swap_unready t) slot).fireTile t 6 else s) s

theorem State.markUnready_slot (s : State) (slot n : Nat) : (s.markUnready slot).slot n = s.slot n :=
  forAll_keeps (P := fun u : State => u.slot n = s.slot n) rfl fun t _ u h => by
    split
    · exact ((State.fireTile_is _ t 6).slot_eq rfl n).trans h
    · exact h

theorem State.refuseSwap_host (s : State) (n : Nat) {r : SwapReq} (host : r.crossing = none) :
    s.refuseSwap n r = (((s.dropSwap n r).markUnready n).setBit R.BF_SWAP_UNREADY_unready n).swapEvent n := by
  unfold State.refuseSwap
  dsimp only
  rw [State.swapCrossing_none _ host]
  rfl

/-- What a refused swap of BF_SWAP leaves: its slot without it, and marked. -/
theorem State.refuseSwap_spec {s : State} {n : Nat} (hn : n < 16) {r : SwapReq} (only : (s.slot n).swaps = [r]) (host : r.crossing = none) :
    ((s.refuseSwap n r).slot n).swaps = [] ∧ (s.refuseSwap n r).bit R.BF_SWAP_UNREADY_unready n = true := by
  rw [State.refuseSwap_host s n host]
  constructor
  · rw [(State.swapEvent_is _ n).slot_eq rfl, State.slot_setBit, State.markUnready_slot, State.dropSwap_only only]
  · have marked : (((s.dropSwap n r).markUnready n).setBit R.BF_SWAP_UNREADY_unready n).bit R.BF_SWAP_UNREADY_unready n = true :=
      State.bit_setBit _ hn
    unfold State.bit at marked ⊢
    rw [(State.swapEvent_is _ n).row 242, marked]

section CutOff

variable {s : State} {n : Nat} {r : SwapReq} (only : (s.slot n).swaps = [r]) (waits : r.armed = false) (first : r.sweepStep = false)
  (host : r.crossing = none)
include only waits first host

/-- The cut-off of a slot's only swap, one of BF_SWAP. -/
theorem State.armCutoff_host :
    s.armCutoff n =
      if s.get (R.BF_BANK_state n) = 2 ∧ s.loadable (s.get (R.BF_BANK_shadow_swatch n)) (s.slot n).shadowDir = true then
        ((s.reach (s.swapTick n r - armLead)).updSlot n fun x => { x with swaps := [⟨s.swapTick n r, 0, none, true, false⟩] }).set
          (R.BF_BANK_armed n) 1
      else (s.reach (s.swapTick n r - armLead)).refuseSwap n r := by
  have next : s.firstSwap n (fun r => !r.armed && !r.sweepStep) = some r := State.firstSwap_only only (by rw [waits, first]; rfl)
  have rest : ((s.slot n).swaps.filter fun y => y != r) = [] := by simp [only]
  unfold State.armCutoff
  rw [next]
  dsimp only
  have slot : (s.reach (s.swapTick n r - armLead)).slot n = s.slot n := rfl
  have tick : (s.reach (s.swapTick n r - armLead)).swapTick n r = s.swapTick n r := rfl
  have loads (sw dir : Nat) : (s.reach (s.swapTick n r - armLead)).loadable sw dir = s.loadable sw dir := rfl
  have get (f : Field) : (s.reach (s.swapTick n r - armLead)).get f = s.get f := rfl
  rw [State.swapCrossing_none _ host, slot, tick, get, get, loads, rest, host]
  by_cases ready : s.get (R.BF_BANK_state n) = 2 ∧ s.loadable (s.get (R.BF_BANK_shadow_swatch n)) (s.slot n).shadowDir = true
  · simp [ready]
  · simp [ready]

/-- A ready and loadable shadow is armed at the cut-off. -/
theorem State.armCutoff_arms (ready : s.get (R.BF_BANK_state n) = 2)
    (loads : s.loadable (s.get (R.BF_BANK_shadow_swatch n)) (s.slot n).shadowDir = true) :
    ((s.armCutoff n).slot n).swaps = [⟨s.swapTick n r, 0, none, true, false⟩] ∧ (s.armCutoff n).get (R.BF_BANK_armed n) = 1 ∧
      (s.armCutoff n).clk.mesh = max s.clk.mesh (s.swapTick n r - armLead) := by
  rw [State.armCutoff_host only waits first host, if_pos ⟨ready, loads⟩]
  refine ⟨?_, ?_, rfl⟩
  · rw [State.slot_set, State.slot_updSlot]
  · rw [State.get_set_same]
    rfl

/-- A shadow that is not ready has its swap refused. -/
theorem State.armCutoff_refuses (hn : n < 16) (unready : s.get (R.BF_BANK_state n) ≠ 2) :
    ((s.armCutoff n).slot n).swaps = [] ∧ (s.armCutoff n).bit R.BF_SWAP_UNREADY_unready n = true := by
  rw [State.armCutoff_host only waits first host, if_neg fun h => unready h.1]
  exact State.refuseSwap_spec (s := s.reach (s.swapTick n r - armLead)) hn only host

end CutOff

end Sys2Proof.Machine
end

section
/-! Bank swaps: the roles exchange, and what follows a swap leaves the banks as they are but for their sums (R92, R93). -/

namespace Sys2Proof.Machine

open Sys2Proof

/-! ### Weights and queues -/

/-- A bank without its sums. -/
def Bank.weights (b : Bank) : Bank := { b with sAll := 0, sLive := 0 }

/-- Both banks of a slot, without their sums. -/
def BankPair.weights (p : BankPair) : BankPair := ⟨p.active.weights, p.shadow.weights⟩

theorem BankPair.weights_eq {p q : BankPair} (h : p.weights = q.weights) :
    p.active.words = q.active.words ∧ p.active.dir = q.active.dir ∧ p.shadow.words = q.shadow.words := by
  have words := congrArg (fun x : BankPair => x.active.words) h
  have dir := congrArg (fun x : BankPair => x.active.dir) h
  have shadow := congrArg (fun x : BankPair => x.shadow.words) h
  exact ⟨words, dir, shadow⟩

/-- No weights of a bank and no queue of swaps have changed from s to t. -/
def sameBanks (s t : State) : Prop := (∀ k n : Nat, (t.bank k n).weights = (s.bank k n).weights) ∧ ∀ n : Nat, (t.slot n).swaps = (s.slot n).swaps

theorem sameBanks.refl (s : State) : sameBanks s s := ⟨fun _ _ => rfl, fun _ => rfl⟩

theorem sameBanks.trans {s t u : State} (h : sameBanks s t) (g : sameBanks t u) : sameBanks s u :=
  ⟨fun k n => (g.1 k n).trans (h.1 k n), fun n => (g.2 n).trans (h.2 n)⟩

theorem sameBanks.ite {c : Prop} [Decidable c] {s a b : State} (ha : sameBanks s a) (hb : sameBanks s b) : sameBanks s (if c then a else b) := by
  split
  · exact ha
  · exact hb

theorem sameBanks.of_eq {s t : State} (tiles : t.tiles = s.tiles) (slots : t.slots = s.slots) : sameBanks s t := by
  constructor
  · intro k n
    unfold State.bank State.tile
    rw [tiles]
  · intro n
    unfold State.slot
    rw [slots]

theorem sameBanks.of_follows {p : Foot} {s t : State} (h : Follows p s t) (tiles : p.comp 8 = false) (slots : p.comp 11 = false) : sameBanks s t :=
  .of_eq (h.tiles tiles) (h.slots slots)

/-- A change of a tile that is none of its banks' weights. -/
theorem sameBanks_updTile (s : State) (t : Nat) {f : TileSt → TileSt}
    (keep : ∀ (x : TileSt) (n : Nat), (vget (f x).banks n).weights = (vget x.banks n).weights) : sameBanks s (s.updTile t f) := by
  refine ⟨fun k n => ?_, fun _ => rfl⟩
  unfold State.bank
  by_cases e : k % 8 = t % 8
  · rw [State.tile_mod _ e, State.tile_mod s e, State.tile_updTile]
    exact keep _ n
  · rw [State.tile_updTile_ne _ _ _ _ e]

/-- A change of a slot that is none of its swaps'. -/
theorem sameBanks_updSlot (s : State) (n : Nat) {f : SlotSt → SlotSt} (keep : ∀ x : SlotSt, (f x).swaps = x.swaps) : sameBanks s (s.updSlot n f) := by
  refine ⟨fun _ _ => rfl, fun k => ?_⟩
  by_cases e : k % 16 = n % 16
  · rw [State.slot_mod _ e, State.slot_mod s e, State.slot_updSlot]
    exact keep _
  · rw [State.slot_updSlot_ne _ _ _ _ e]

theorem sameBanks_set (s : State) (f : Field) (v : Nat) : sameBanks s (s.set f v) := .of_eq rfl rfl

/-! ### What follows a swap leaves them (R47, R65, R95) -/

theorem sameBanks_recomputeLive (s : State) (t : Nat) : sameBanks s (s.recomputeLive t) :=
  sameBanks_updTile s t fun x n => by
    dsimp only
    rw [show vget (x.banks.map fun p => (⟨s.withSums t p.active, s.withSums t p.shadow⟩ : BankPair)) n = _ from Vector.getElem_map ..]
    rfl

theorem sameBanks_maskNow (s : State) (e : Nat) : sameBanks s (s.maskNow e) := by
  unfold State.maskNow
  exact .ite (.refl s) (.trans (.of_eq rfl rfl) (sameBanks_recomputeLive _ _))

theorem sameBanks_fireTile (s : State) (t k : Nat) : sameBanks s (s.fireTile t k) := by
  unfold State.fireTile
  exact .ite (sameBanks_updTile _ _ fun _ _ => rfl) (.of_follows (s.fire_is _) rfl rfl)

theorem sameBanks_dcCheck (s : State) (e : Nat) : sameBanks s (s.dcCheck e) := by
  unfold State.dcCheck
  refine .ite (.refl s) ?_
  extract_lets was railed fired
  have hfired : sameBanks s fired := .ite (sameBanks_set _ _ _) ((sameBanks_set _ _ _).trans (sameBanks_fireTile _ _ _))
  exact .ite (hfired.trans (sameBanks_maskNow _ _)) hfired

theorem sameBanks_restoreRx (s : State) (e : Nat) : sameBanks s (s.restoreRx e) := by
  unfold State.restoreRx
  exact .ite (.refl s) (.trans (.of_eq rfl rfl) (sameBanks_dcCheck _ _))

theorem sameBanks_restoreTile (s : State) (t : Nat) : sameBanks s (s.restoreTile t) := by
  unfold State.restoreTile
  split
  · exact forAll_keeps (.refl s) fun j _ u h => h.trans (sameBanks_restoreRx _ _)
  · exact forAll_keeps (.refl s) fun j _ u h =>
      h.trans (.of_follows (State.restoreTx_follows (Foot.le_refl _) (Follows.refl _ _)) rfl rfl)
  · exact .refl s

/-- What a back-off changes beside its slot. -/
def backoffFoot : Foot := ⟨0x4040000, 0xe8088000000000000000000000000000000000000000000000000000fc000001000000000000000000000000000000000000000000000000001000000000000000000⟩

theorem sameBanks_applyBackoff (s : State) (b : Beam) (back : Nat) (off : Bool) : sameBanks s (s.applyBackoff b back off) := by
  unfold State.applyBackoff
  extract_lets n prev hold muted clipped mute slots applied code
  have le : Foot.le backoffFoot backoffFoot := Foot.le_refl _
  have hclipped : Follows backoffFoot s clipped := by
    refine Follows.ite ?_ (Follows.refl _ _)
    refine State.pmc_follows (le.sub rfl) ?_
    refine State.fire_follows (le.sub rfl) ?_
    refine State.yarn_follows (le.sub rfl) ?_
    refine State.bump_follows 276 le ?_
    exact State.setBit_follows 303 le (Follows.refl _ _) (hr := by decide)
  have hmute : Follows backoffFoot s mute := by
    refine Follows.ite ?_ hclipped
    refine State.fire_follows (le.sub rfl) ?_
    exact State.setBit_follows 302 le hclipped (hr := by decide)
  have hslots : sameBanks s slots := .trans (.of_follows hmute rfl rfl) (sameBanks_updSlot _ _ fun _ => rfl)
  exact hslots.trans (.of_eq rfl rfl)

theorem sameBanks_govern (s : State) : sameBanks s s.govern := by
  unfold State.govern
  exact List.foldlRecOn _ _ (motive := fun u : State => sameBanks s u) (.refl s) fun u h b _ => h.trans (sameBanks_applyBackoff _ _ _ _)

theorem sameBanks_updatePoint (s : State) (t : Nat) : sameBanks s (s.updatePoint t) := by
  unfold State.updatePoint
  extract_lets may was updated freed
  have hupdated : sameBanks s updated :=
    .trans (forAll_keeps (.refl s) fun j _ u h => h.trans (.of_follows (State.elemUpdate_follows (Foot.le_refl _) (Follows.refl _ _)) rfl rfl))
      (sameBanks_recomputeLive _ _)
  exact .ite (hupdated.trans (sameBanks_govern _)) hupdated

theorem sameBanks_poisonMute (s : State) (n : Nat) : sameBanks s (s.poisonMute n) := by
  unfold State.poisonMute
  refine .trans (t := (s.setBit R.BF_MUTE_poison n).fire 48) ?_ (sameBanks_updSlot _ _ fun _ => rfl)
  exact (sameBanks_set s _ _).trans (.of_follows (State.fire_is _ _) rfl rfl)

theorem sameBanks_settleMute (s : State) (n : Nat) : sameBanks s (s.settleMute n) := by
  unfold State.settleMute
  refine .ite ?_ (.ite (sameBanks_poisonMute _ _) (.refl s))
  exact .trans (.of_follows (p := ⟨0, 2 ^ 240⟩) (State.clrBit_follows 240 (Foot.le_refl _) (Follows.refl _ _)) rfl rfl) (sameBanks_updSlot _ _ fun _ => rfl)

/-! ### The roles exchange (R92, R93) -/

theorem State.bank_updBank_ne (s : State) (i k t n : Nat) (f : BankPair → BankPair) (ne : t % 8 ≠ i % 8) : (s.updBank i k f).bank t n = s.bank t n := by
  unfold State.updBank State.bank
  rw [State.tile_updTile_ne _ _ _ _ ne]

theorem State.tileRuns_updBank (s : State) (i k t : Nat) (f : BankPair → BankPair) : (s.updBank i k f).tileRuns t = s.tileRuns t :=
  State.tileRuns_is (p := State.updBank_foot) (State.updBank_follows (Foot.le_refl _) (Follows.refl _ _)) (by decide) (sameFaces_updBank _ _ _ _) t

/-- The banks of a slot change places on every tile that runs. -/
def State.turnBanks (s : State) (n : Nat) : State :=
  forAll 8 (fun t s => if s.tileRuns t then s.updBank t n fun p => ⟨p.shadow, p.active⟩ else s) s

theorem State.turnBanks_is (s : State) (n : Nat) : Follows State.updBank_foot s (s.turnBanks n) :=
  Follows.forAll (fun _ _ h => Follows.ite (State.updBank_follows (Foot.le_refl _) h) h) (Follows.refl _ _)

theorem State.turnBanks_bank {s : State} {t : Nat} (ht : t < 8) (runs : s.tileRuns t = true) (n : Nat) :
    (s.turnBanks n).bank t n = ⟨(s.bank t n).shadow, (s.bank t n).active⟩ := by
  refine forAll_once (P := fun u : State => u.bank t n = ⟨(s.bank t n).shadow, (s.bank t n).active⟩)
    (Q := fun u : State => u.bank t n = s.bank t n ∧ u.tileRuns t = true) ht ⟨rfl, runs⟩ (fun u h => ?_) (fun i u hi ne h => ?_) fun i u hi ne h => ?_
  · obtain ⟨bank, run⟩ := h
    rw [if_pos run, State.bank_updBank, bank]
  · split
    · rw [State.bank_updBank_ne _ _ _ _ _ _ (by omega), State.tileRuns_updBank]
      exact h
    · exact h
  · split
    · rw [State.bank_updBank_ne _ _ _ _ _ _ (by omega)]
      exact h
    · exact h

@[simp] theorem State.get_updSlot (s : State) (n : Nat) (f : SlotSt → SlotSt) (g : Field) : (s.updSlot n f).get g = s.get g := rfl

/-- The roles of a slot's banks, its swatches and its direction exchange; its queue stays. -/
theorem State.exchange_spec (s : State) (n : Nat) :
    (∀ t : Nat, t < 8 → s.tileRuns t = true → (s.exchange n).bank t n = ⟨(s.bank t n).shadow, (s.bank t n).active⟩) ∧
      (s.exchange n).get (R.BF_BANK_active_swatch n) = s.get (R.BF_BANK_shadow_swatch n) % 2048 ∧
      (s.exchange n).get (R.BF_BANK_shadow_swatch n) = s.get (R.BF_BANK_active_swatch n) % 2048 ∧
      (s.exchange n).get (R.BF_BANK_dir n) = (s.slot n).shadowDir % 2 ∧ ((s.exchange n).slot n).swaps = (s.slot n).swaps := by
  have turned := s.turnBanks_is n
  unfold State.exchange
  dsimp only
  rw [show forAll 8 (fun t s => if s.tileRuns t then s.updBank t n fun p => ⟨p.shadow, p.active⟩ else s) s = s.turnBanks n from rfl,
    turned.row 260]
  refine ⟨fun t ht runs => ?_, ?_, ?_, ?_, ?_⟩
  · rw [State.bank_updSlot]
    iterate 6 rw [State.bank_set]
    rw [State.turnBanks_bank ht runs]
  · rw [State.get_updSlot]
    iterate 4 rw [State.get_set_row _ _ _ _ (by simp)]
    exact State.get_set_same _ _ _
  · rw [State.get_updSlot]
    iterate 2 rw [State.get_set_row _ _ _ _ (by simp)]
    exact State.get_set_same _ _ _
  · rw [State.get_updSlot]
    iterate 3 rw [State.get_set_row _ _ _ _ (by simp)]
    exact State.get_set_same _ _ _
  · rw [State.slot_updSlot]
    iterate 6 rw [State.slot_set]
    rw [turned.slot_eq rfl]

end Sys2Proof.Machine
end

section
/-! Preloads and swaps: the swap instant, and the claim. -/

namespace Sys2Proof.Machine

open Sys2Proof

/-! ### The swap instant (R92) -/

/-- The roles of a slot's banks have exchanged, its poison mute is settled, and with no armed swap left none is shown. -/
def State.swapRoles (s : State) (n : Nat) : State :=
  let u := (s.exchange n).settleMute n
  if (u.slot n).swaps.any (·.armed) then u else u.set (R.BF_BANK_armed n) 0

/-- What the elements, the yarns, the counters and the governor do after a swap. -/
def State.afterSwap (s : State) (n : Nat) : State :=
  let host := s.bit R.HUB_FUNC_MODE_bits 0
  let s := (s.updSlot n fun x => { x with weightsHost := host }).refreshFunc
  let s := forAll 8 (fun t s => if s.tileRuns t then ((s.updatePoint t).restoreTile t).tileYarn t 4 else s) s
  let s := s.pmc 0x042 n
  if s.txSlots.contains n then s.govern else s

/-- The swap instant of a slot whose only swap is armed and belongs to no crossing. -/
theorem State.bankSwap_host {s : State} {n : Nat} {r : SwapReq} (only : (s.slot n).swaps = [r]) (armed : r.armed = true) (host : r.crossing = none) :
    s.bankSwap n = ((((s.reach (s.swapTick n r)).dropSwap n r).swapRoles n).afterSwap n) := by
  have next : s.firstSwap n (·.armed) = some r := State.firstSwap_only only armed
  unfold State.bankSwap
  rw [next]
  dsimp only
  rw [State.swapCrossing_none _ host]
  rfl

/-- What the steps after a swap may change. -/
def afterFoot : Foot := ⟨0x4040b00, 0xe8088000000000000000000000000000000000000000000000001a30fc000001000000000000000000000000000000000000000000000000001000000000000000030⟩

theorem State.afterSwap_is (s : State) (n : Nat) : Follows afterFoot s (s.afterSwap n) := by
  unfold State.afterSwap
  extract_lets host sampled updated counted
  have le : Foot.le afterFoot afterFoot := Foot.le_refl _
  have hupdated : Follows afterFoot s updated := by
    refine Follows.forAll (fun t u h => Follows.ite ?_ h) (State.refreshFunc_follows (le.sub rfl) (State.updSlot_follows (le.sub rfl) (Follows.refl _ _)))
    exact State.tileYarn_follows (le.sub rfl) (State.restoreTile_follows (le.sub rfl) (State.updatePoint_follows (le.sub rfl) h))
  have hcounted : Follows afterFoot s counted := State.pmc_follows (le.sub rfl) hupdated
  exact Follows.ite (State.govern_follows (le.sub rfl) hcounted) hcounted

theorem sameBanks_afterSwap (s : State) (n : Nat) : sameBanks s (s.afterSwap n) := by
  unfold State.afterSwap
  extract_lets host sampled updated counted
  have hsampled : sameBanks s sampled :=
    (sameBanks_updSlot s n (f := fun x => { x with weightsHost := host }) fun _ => rfl).trans
      (.of_follows (State.refreshFunc_follows (Foot.le_refl _) (Follows.refl _ _)) rfl rfl)
  have hupdated : sameBanks s updated := forAll_keeps hsampled fun t _ u h => .ite
    (((h.trans (sameBanks_updatePoint _ _)).trans (sameBanks_restoreTile _ _)).trans
      (.of_follows (State.tileYarn_follows (Foot.le_refl _) (Follows.refl _ _)) rfl rfl)) h
  have hcounted : sameBanks s counted := hupdated.trans (.of_follows (State.pmc_follows (Foot.le_refl _) (Follows.refl _ _)) rfl rfl)
  exact .ite (hcounted.trans (sameBanks_govern _)) hcounted

/-- What a swap changes once the roles have exchanged, up to the weights mode. -/
def rolesFoot : Foot := ⟨0x800, 0x20001000000000000000000000000000000000000000001000000000000000000⟩

theorem State.swapRoles_is (s : State) (n : Nat) : Follows rolesFoot (s.exchange n) (s.swapRoles n) := by
  unfold State.swapRoles
  extract_lets settled
  have le : Foot.le rolesFoot rolesFoot := Foot.le_refl _
  have hsettled : Follows rolesFoot (s.exchange n) settled := State.settleMute_follows (le.sub rfl) (Follows.refl _ _)
  exact Follows.ite hsettled (State.set_follows 257 le hsettled)

/-- With its queue empty a slot keeps what the exchange has brought, and shows no armed swap. -/
theorem State.swapRoles_banks {s : State} {n : Nat} (empty : (s.slot n).swaps = []) :
    sameBanks (s.exchange n) (s.swapRoles n) ∧ (s.swapRoles n).get (R.BF_BANK_armed n) = 0 := by
  obtain ⟨-, -, -, -, queue⟩ := s.exchange_spec n
  have settled := sameBanks_settleMute (s.exchange n) n
  have none_ : (((s.exchange n).settleMute n).slot n).swaps = [] := (settled.2 n).trans (queue.trans empty)
  unfold State.swapRoles
  generalize (s.exchange n).settleMute n = u at settled none_
  dsimp only
  rw [none_, if_neg (by simp)]
  exact ⟨settled.trans (sameBanks_set _ _ _), State.get_set_same _ _ _⟩

/-- What the swap instant leaves of a slot whose queue is empty by then. -/
theorem State.swapped_spec {s : State} {n : Nat} (empty : (s.slot n).swaps = []) :
    let u := (s.swapRoles n).afterSwap n
    (∀ t : Nat, t < 8 → s.tileRuns t = true →
        (u.bank t n).active.words = (s.bank t n).shadow.words ∧ (u.bank t n).active.dir = (s.bank t n).shadow.dir ∧
          (u.bank t n).shadow.words = (s.bank t n).active.words) ∧
      u.get (R.BF_BANK_active_swatch n) = s.get (R.BF_BANK_shadow_swatch n) % 2048 ∧
      u.get (R.BF_BANK_shadow_swatch n) = s.get (R.BF_BANK_active_swatch n) % 2048 ∧
      u.get (R.BF_BANK_dir n) = (s.slot n).shadowDir % 2 ∧ u.get (R.BF_BANK_armed n) = 0 ∧ (u.slot n).swaps = [] := by
  intro u
  obtain ⟨turned, active, shadow, dir, queue⟩ := s.exchange_spec n
  obtain ⟨banks, unarmed⟩ := State.swapRoles_banks empty
  have kept : sameBanks (s.exchange n) u := banks.trans (sameBanks_afterSwap _ n)
  have roles := s.swapRoles_is n
  have after : Follows afterFoot (s.swapRoles n) u := State.afterSwap_is _ n
  refine ⟨fun t ht runs => ?_, ?_, ?_, ?_, ?_, (kept.2 n).trans (queue.trans empty)⟩
  · have weights : (u.bank t n).weights = BankPair.weights ⟨(s.bank t n).shadow, (s.bank t n).active⟩ :=
      (kept.1 t n).trans (congrArg BankPair.weights (turned t ht runs))
    exact BankPair.weights_eq weights
  · rw [after.row 261, roles.row 261, active]
  · rw [after.row 260, roles.row 260, shadow]
  · rw [after.row 258, roles.row 258, dir]
  · rw [after.row 257, unarmed]

theorem State.dropSwap_dir (s : State) (n : Nat) (r : SwapReq) : ((s.dropSwap n r).slot n).shadowDir = (s.slot n).shadowDir := by
  unfold State.dropSwap
  rw [State.slot_updSlot]

/-- The swap instant of a slot whose only swap is armed and belongs to no crossing: its banks have exchanged. -/
theorem State.bankSwap_spec {s : State} {n : Nat} {r : SwapReq} (only : (s.slot n).swaps = [r]) (armed : r.armed = true) (host : r.crossing = none) :
    let u := s.bankSwap n
    (∀ t : Nat, t < 8 → s.tileRuns t = true →
        (u.bank t n).active.words = (s.bank t n).shadow.words ∧ (u.bank t n).active.dir = (s.bank t n).shadow.dir ∧
          (u.bank t n).shadow.words = (s.bank t n).active.words) ∧
      u.get (R.BF_BANK_active_swatch n) = s.get (R.BF_BANK_shadow_swatch n) % 2048 ∧
      u.get (R.BF_BANK_shadow_swatch n) = s.get (R.BF_BANK_active_swatch n) % 2048 ∧
      u.get (R.BF_BANK_dir n) = (s.slot n).shadowDir % 2 ∧ u.get (R.BF_BANK_armed n) = 0 ∧ (u.slot n).swaps = [] := by
  have swapped := State.swapped_spec (s := (s.reach (s.swapTick n r)).dropSwap n r) (n := n) (State.dropSwap_only only)
  rw [← State.bankSwap_host only armed host, State.dropSwap_dir] at swapped
  exact swapped

/-! ### The claim -/

theorem hubReg_preload : hubReg 0x020A0010 := by unfold hubReg; omega

theorem hubReg_swap : hubReg 0x020A001C := by unfold hubReg; omega

/-- BF_PRELOAD.go is a preload. -/
theorem State.writeBf_preload (s : State) {v : Nat} (go : v.testBit 31 = true) :
    s.writeBf 0x020A0010 v = s.preload (v / 65536 % 16) (v % 2048) (v / 2 ^ 24 % 2) := by
  unfold State.writeBf
  rw [if_neg (by omega), if_pos rfl, if_pos go]
  simp [bits]

/-- BF_SWAP is a request. -/
theorem State.writeBf_swap (s : State) (v : Nat) : s.writeBf 0x020A001C v = (s.swapRequest (v % 65536), .ok) := by
  unfold State.writeBf
  rw [if_neg (by omega), if_neg (by omega), if_pos rfl]

/-- A slot's bit of BF_SWAP. -/
theorem testBit_slots {v n : Nat} (hn : n < 16) (bit : v.testBit n = true) : (v % 65536).testBit n = true := by
  rw [show 65536 = 2 ^ 16 from rfl, Nat.testBit_mod_two_pow, bit, decide_eq_true hn]
  rfl

/-- Settles O25, by what the hub takes as a preload and what a tile's report leaves, and by a swap's way from its request over its cut-off to its
instant. -/
theorem preloadsAndSwaps : Obligations.PreloadsAndSwaps := by
  unfold Obligations.PreloadsAndSwaps
  refine ⟨fun s ini data t n => ⟨fun opens go => ?_, fun last good c copy => ⟨fun inside loads => ?_, fun inside clean bad => ?_, fun outside => ?_⟩⟩,
    fun s ini data n r => ⟨fun opens bit => ?_, fun only waits first host => ⟨fun ready loads => ?_, fun unready => ?_⟩, fun only armed host => ?_⟩⟩
  · have write := s.writeBf_preload go
    have small : data.toNat % 2048 < 2048 := Nat.mod_lt _ (by decide)
    refine ⟨fun armed => ?_, fun free => ⟨fun poisoned => ?_, fun clean open_ => ?_, fun clean sealed use runs => ?_⟩⟩
    · exact answers_writeBf rfl hubReg_preload (by decide) opens (write.trans (State.preload_busy armed _ _)) fun _ _ => rfl
    · obtain ⟨u, e, failed⟩ := State.preload_fails free (State.dirReason_poisoned small poisoned) (by decide) (by decide)
      exact answers_writeBf rfl hubReg_preload (by decide) opens (write.trans e) failed
    · obtain ⟨u, e, failed⟩ := State.preload_fails free (State.dirReason_unsealed small clean open_) (by decide) (by decide)
      exact answers_writeBf rfl hubReg_preload (by decide) opens (write.trans e) failed
    · obtain ⟨u, e, taken⟩ := State.preload_taken free (State.dirReason_loads small clean sealed use) small runs
      exact answers_writeBf rfl hubReg_preload (by decide) opens (write.trans e) taken
  · have reason := (State.reportReason_present copy inside).trans loads
    obtain ⟨bank, heard, ready, bytes⟩ := State.preloadReport_ready last good (fun _ => State.fragReason_clean loads) reason
    obtain ⟨valid, swatch, words⟩ := State.reportBank_present copy inside
    refine ⟨_, rfl, ?_, ?_, ?_, heard, ready, bytes⟩
    · rw [bank, valid]
    · rw [bank, swatch]
    · rw [bank, words]
  · have reason := State.reportReason_present copy inside
    obtain ⟨failed, shown, heard, bytes⟩ := State.preloadReport_fails last good (fun _ => clean) (reason ▸ bad) (reason ▸ State.fragReason_small _ _ _ _)
    exact ⟨_, rfl, failed, shown.trans reason, heard, bytes⟩
  · have absent : s.present t.val n.val = false := (State.present_copy copy t.val).trans outside
    obtain ⟨bank, -, ready, bytes⟩ := State.preloadReport_ready last good (fun here => absurd (absent.symm.trans here) (by decide))
      (State.reportReason_absent copy outside)
    exact ⟨_, rfl, by rw [bank, State.reportBank_absent copy outside], ready, bytes⟩
  · have write := s.writeBf_swap data.toNat
    have marked := testBit_slots n.isLt bit
    have tick := s.hostSwap_tick n.val
    refine ⟨fun early => ?_, fun late => ?_⟩
    · exact answers_writeBf rfl hubReg_swap (by decide) opens write (State.swapRequest_early n.isLt marked (by rw [tick]; exact early))
    · exact answers_writeBf rfl hubReg_swap (by decide) opens write (State.swapRequest_late n.isLt marked (by rw [tick]; exact late))
  · exact ⟨_, rfl, State.armCutoff_arms only waits first host ready loads⟩
  · exact ⟨_, rfl, State.armCutoff_refuses only waits first host n.isLt unready⟩
  · have bytes : Follows State.bankSwap_foot s (s.bankSwap n.val) := State.bankSwap_follows (Foot.le_refl _) (Follows.refl _ _)
    obtain ⟨banks, active, shadow, dir, unarmed, queue⟩ := State.bankSwap_spec only armed host
    exact ⟨_, rfl, banks, active, shadow, dir, unarmed, queue, bytes.bytes_eq rfl⟩

end Sys2Proof.Machine
end

section
/-! Reports of the PHY and the receive frames of a slot: what a report counts, and what a change, an end and the codeword queue leave of a slot's only
receive frame. -/

namespace Sys2Proof.Machine

open Sys2Proof

/-! ### Reports (R138) -/

/-- What a report may change once its outcome is counted. -/
def reportRest : Foot := ⟨0x4040004, State.pmc_foot.rows ||| 2 ^ 193 ||| 2 ^ 195⟩

/-- A report counts its outcome. -/
theorem State.report_count (s : State) (slot : Nat) (r : Report) :
    (s.report slot r).get (R.PHY_CNT_count r.outcome) = min (s.get (R.PHY_CNT_count r.outcome) + 1) (2 ^ 32 - 1) := by
  have le : Foot.le reportRest reportRest := Foot.le_refl _
  unfold State.report
  extract_lets counted tallied wr noted
  have here : counted.get (R.PHY_CNT_count r.outcome) = min (s.get (R.PHY_CNT_count r.outcome) + 1) (2 ^ 32 - 1) :=
    (State.get_set_same _ _ _).trans (Nat.mod_eq_of_lt (show min (s.get (R.PHY_CNT_count r.outcome) + 1) (2 ^ 32 - 1) < 2 ^ 32 by omega))
  have tally : Follows reportRest counted tallied :=
    Follows.ite (State.pmc_follows (le.sub rfl) (Follows.refl _ _)) (Follows.ite (State.pmc_follows (le.sub rfl) (Follows.refl _ _)) (Follows.refl _ _))
  rw [← here]
  refine Follows.row (p := reportRest) (Follows.ite ?_ ?_) 196 rfl (by decide)
  · exact State.fire_follows (le.sub rfl) (State.set_follows 193 le tally rfl rfl)
  · exact State.fire_follows (le.sub rfl) (State.yarn_follows (le.sub rfl)
      (State.set_follows 195 le (State.setWords_follows (le.sub rfl) tally) rfl rfl))

theorem State.refreshFunc_is (s : State) : Follows State.refreshFunc_foot s s.refreshFunc := State.refreshFunc_follows (Foot.le_refl _) (Follows.refl _ _)

theorem State.nbrAbsent_is (s : State) (n : Nat) : Follows State.nbrAbsent_foot s (s.nbrAbsent n) := State.nbrAbsent_follows (Foot.le_refl _) (Follows.refl _ _)

theorem State.report_is (s : State) (slot : Nat) (r : Report) : Follows State.report_foot s (s.report slot r) :=
  State.report_follows (Foot.le_refl _) (Follows.refl _ _)

/-! ### The receive frames of a slot -/

/-- The one receive frame of a slot is replaced by a newer form of it. -/
theorem State.putRx_only {s : State} {n : Nat} {f g : PhyFrame} (only : (s.slot n).rx = [g]) (same : g.crossing = f.crossing) :
    ((s.putRx n f).slot n).rx = [f] := by
  unfold State.putRx
  rw [State.slot_updSlot, only]
  exact congrArg (fun x => [x]) (if_pos same)

/-- The one receive frame of a slot ends: the slot has none, and the outcome is counted. -/
theorem State.endRx_only {s : State} {n : Nat} {f g : PhyFrame} (only : (s.slot n).rx = [g]) (same : g.crossing = f.crossing) (outcome : Nat) :
    ((s.endRx n f outcome).slot n).rx = [] ∧
      (s.endRx n f outcome).get (R.PHY_CNT_count outcome) = min (s.get (R.PHY_CNT_count outcome) + 1) (2 ^ 32 - 1) := by
  have dropped : Follows State.dropCodewords_foot s (s.dropCodewords n f.crossing) := State.dropCodewords_follows (Foot.le_refl _) (Follows.refl _ _)
  have reported := (s.dropCodewords n f.crossing).report_is n (f.report outcome)
  constructor
  · unfold State.endRx State.dropRx
    rw [State.slot_updSlot, reported.slot_eq rfl, dropped.slot_eq rfl, only]
    simp [same]
  · have count := (s.dropCodewords n f.crossing).report_count n (f.report outcome)
    rw [show (f.report outcome).outcome = outcome from rfl, dropped.row 196 rfl (by decide)] at count
    exact count

/-- The one receive frame of a slot stays it as its codewords enter the queue. -/
theorem State.enqueueFrame_only {s : State} {n : Nat} {f : PhyFrame} (only : (s.slot n).rx = [f]) :
    ∃ q : Nat, ((s.enqueueFrame n f).slot n).rx = [{ f with queued := q }] := by
  unfold State.enqueueFrame
  extract_lets ready count words phy queued
  split
  · exact ⟨f.queued, only⟩
  · refine ⟨f.queued + count, ?_⟩
    have depth : Follows State.queueDepth_foot (queued.putRx n { f with queued := f.queued + count })
        (queued.putRx n { f with queued := f.queued + count }).queueDepth := State.queueDepth_follows (Foot.le_refl _) (Follows.refl _ _)
    rw [depth.slot_eq rfl]
    exact State.putRx_only (g := f) only rfl

end Sys2Proof.Machine
end

section
/-! Leads and headers: what a lead, found or missed, leaves of its crossing and its slot, what a header makes of a frame, and the claim. -/

namespace Sys2Proof.Machine

open Sys2Proof

/-! ### Leads (R120, R174) -/

/-- A lead that may start a frame: a correlation at the threshold, within the search span. -/
def State.audible (s : State) (n : Nat) (m : LeadMeas) (c : Crossing) : Prop :=
  (s.slot n).thresh ≤ m.corrUni ∧ ((m.start : Int) - s.expectedLead c.d c.b0).natAbs ≤ 16 * (s.slot n).search

/-- An audible lead marks its crossing, and a frame from its start on joins the slot's receive frames. -/
theorem State.leadDetect_audible {s : State} {n : Nat} {m : LeadMeas} {c : Crossing} (runs : s.running n = some c) (receives : c.d.dir ≠ 1)
    (unheard : c.leadHeard = false) (searches : c.searchEnded = false) (frame : c.d.sweep = false) (hears : s.audible n m c) :
    (∃ f : PhyFrame, ((s.leadDetect n m).slot n).rx = (s.slot n).rx ++ [f] ∧ f.lead = m.start ∧ f.nbr = c.d.nbr ∧ f.hdrDone = false ∧
        f.leadErr = (m.start : Int) - s.expectedLead c.d c.b0) ∧
      ∀ y : Crossing, y ∈ (s.leadDetect n m).xng.fetched → y.id = c.id → y.leadHeard = true := by
  obtain ⟨loud, near⟩ := hears
  unfold State.leadDetect
  split
  next no => rw [runs] at no; cases no
  next d it =>
    obtain rfl : d = c := Option.some.inj (it.symm.trans runs)
    extract_lets x e short src one corr marked noted soft bc code known seen f held
    have reaches : x.thresh ≤ corr := by
      unfold corr
      split
      · exact loud
      · exact loud.trans (le_max_left _ _)
    have taken : ¬ (decide (d.d.dir = 1) || d.leadHeard || d.searchEnded || decide (corr < x.thresh) ||
        decide (16 * x.search < ((m.start : Int) - e).natAbs)) = true := by
      simp [receives, unheard, searches, reaches, near, x, e]
    rw [if_neg taken]
    have froze : Follows State.dcFreeze_foot held (held.dcFreeze d.tiles (m.start / 16)) := State.dcFreeze_follows (Foot.le_refl _) (Follows.refl _ _)
    have tallied : Follows State.pmc_foot (s.updCrossing d.id fun y => { y with leadHeard := true, searchEnded := true }) marked :=
      State.pmc_follows (Foot.le_refl _) (Follows.refl _ _)
    have pair : Follows State.notePair_foot marked noted :=
      Follows.ite (State.notePair_follows (Foot.le_refl _) (Follows.refl _ _)) (Follows.refl _ _)
    have fetched : noted.xng.fetched = marked.xng.fetched := by
      unfold noted
      split <;> rfl
    constructor
    · refine ⟨f, ?_, rfl, rfl, rfl, rfl⟩
      rw [froze.slot_eq rfl, (State.refreshFunc_is _).slot_eq rfl, State.slot_updSlot, pair.slot_eq rfl, tallied.slot_eq rfl, frame]
      rfl
    · rw [froze.xng rfl, (State.refreshFunc_is _).xng rfl, State.updSlot_xng, fetched, tallied.xng rfl]
      exact fun y hy own => State.updCrossing_mark (p := fun y => y.leadHeard = true) (fun _ => rfl) hy own

/-- A missed lead is counted, ends its crossing's search, and leaves the slots. -/
theorem State.leadMissed_spec (s : State) (n : Nat) (c : Crossing) :
    (s.leadMissed n c).get (R.PHY_CNT_count 1) = min (s.get (R.PHY_CNT_count 1) + 1) (2 ^ 32 - 1) ∧
      (∀ y : Crossing, y ∈ (s.leadMissed n c).xng.fetched → y.id = c.id → y.searchEnded = true) ∧
      ∀ k : Nat, (s.leadMissed n c).slot k = s.slot k := by
  have foot : Follows State.leadMissed_foot s (s.leadMissed n c) := State.leadMissed_follows (Foot.le_refl _) (Follows.refl _ _)
  refine ⟨?_, ?_, foot.slot_eq rfl⟩ <;> unfold State.leadMissed <;> extract_lets e marked noted
  · have pair : Follows State.notePair_foot marked noted :=
      Follows.ite (State.notePair_follows (Foot.le_refl _) (Follows.refl _ _)) (Follows.refl _ _)
    rw [(State.nbrAbsent_is _ _).row 196 rfl (by decide), State.report_count, pair.row 196 rfl (by decide)]
    rfl
  · have fetched : noted.xng.fetched = marked.xng.fetched := by
      unfold noted
      split <;> rfl
    rw [(State.nbrAbsent_is _ _).xng rfl, (State.report_is _ _ _).xng rfl, fetched]
    exact fun y hy own => State.updCrossing_mark (p := fun y => y.searchEnded = true) (fun _ => rfl) hy own

/-- While a slot's crossing searches, the end of the search is a missed lead. -/
theorem State.leadMiss_searching {s : State} {n : Nat} {c : Crossing} (runs : s.running n = some c) (searches : c.searching = true) :
    ∃ tick : Nat, s.leadMiss n = (s.reach tick).leadMissed n c := by
  unfold State.leadMiss
  split
  next no => rw [runs] at no; cases no
  next d it =>
    obtain rfl : d = c := Option.some.inj (it.symm.trans runs)
    exact ⟨_, if_neg (by rw [searches]; exact Bool.false_ne_true)⟩

/-! ### Headers (R124, R133) -/

/-- A step that leaves the live channel leaves the blocks' length (R112, R113). -/
theorem Follows.blockTicks_eq {p : Foot} {s t : State} (h : Follows p s t) (sel : p.row R.RF_CHAN_STATUS_live_sel.row = false)
    (chanA : p.row R.RF_CHAN_ch_a.row = false) (chanB : p.row R.RF_CHAN_ch_b.row = false) : t.blockTicks = s.blockTicks := by
  have channel : t.liveChannel = s.liveChannel := by
    unfold State.liveChannel State.on
    rw [h.get _ sel, h.get _ chanA, h.get _ chanB]
  have bonds : t.bonded = s.bonded := by unfold State.bonded; rw [channel]
  unfold State.blockTicks
  rw [bonds]

/-- Frame f with the fields of its decoded header. -/
def PhyFrame.headed (f : PhyFrame) (h : List Byte) : PhyFrame :=
  { f with hdrDone := true, mcs := phyMcs h, ncw := phyNcw h, lastBytes := phyLast h, hdr := h }

/-- The assignment of a pipe leaves the header's fields and the lead. -/
theorem State.assignPipe_fields (s : State) (f : PhyFrame) : ∃ p : Option Nat, s.assignPipe f = { f with pipe := p } := by
  unfold State.assignPipe
  split
  · exact ⟨f.pipe, rfl⟩
  · exact ⟨_, rfl⟩

/-- A slot's only receive frame, its header still to come, is the one that a header belongs to. -/
theorem State.headerDecode_finds {s : State} {n : Nat} {f : PhyFrame} (only : (s.slot n).rx = [f]) (waits : f.hdrDone = false) :
    ((s.slot n).rx.find? fun f : PhyFrame => !f.hdrDone) = some f := by
  rw [only]
  simp [waits]

/-- A header whose check fails ends its frame. -/
theorem State.headerDecode_bad {s : State} {n : Nat} {h : List Byte} {f : PhyFrame} (only : (s.slot n).rx = [f]) (waits : f.hdrDone = false)
    (bad : headerCrcOk h = false) : s.headerDecode n h = s.endRx n f 2 := by
  unfold State.headerDecode
  rw [State.headerDecode_finds only waits]
  exact if_pos (by rw [bad]; rfl)

/-- A good header of a frame that fits its extent goes to the frame, the only one of its slot. -/
theorem State.headerDecode_good {s : State} {n : Nat} {h : List Byte} {f : PhyFrame} (only : (s.slot n).rx = [f]) (waits : f.hdrDone = false)
    (good : headerCrcOk h = true) (valid : headerValid f.heads h = true) (hard : f.soft = false) (whole : f.cut = none) (words : phyNcw h ≠ 0)
    (fits : frameLength (f.headed h) + 1 ≤ (16 * f.ends - f.lead) / (16 * s.blockTicks)) :
    ∃ g : PhyFrame, ((s.headerDecode n h).slot n).rx = [g] ∧ g.hdrDone = true ∧ g.mcs = phyMcs h ∧ g.ncw = phyNcw h ∧ g.lead = f.lead := by
  unfold State.headerDecode
  split
  next no => rw [State.headerDecode_finds only waits] at no; cases no
  next d it =>
    obtain rfl : d = f := Option.some.inj (it.symm.trans (State.headerDecode_finds only waits))
    rw [if_neg (by rw [good]; decide)]
    extract_lets g put heard alone sampled piped final
    have heard_is : Follows State.nbrHeard_foot put heard :=
      Follows.ite (State.nbrHeard_follows (Foot.le_refl _) (Follows.refl _ _)) (Follows.refl _ _)
    have sampled_is : Follows State.timeSample_foot heard sampled :=
      Follows.ite (State.timeSample_follows (Foot.le_refl _) (Follows.refl _ _)) (Follows.refl _ _)
    have ticks : heard.blockTicks = s.blockTicks := heard_is.blockTicks_eq (by decide) (by decide) (by decide)
    obtain ⟨p, hp⟩ : ∃ p : Option Nat, piped = { g with pipe := p } := sampled.assignPipe_fields g
    have here : (sampled.slot n).rx = [g] := by
      rw [sampled_is.slot_eq rfl, heard_is.slot_eq rfl]
      exact State.putRx_only only rfl
    have kept : (final.slot n).rx = [piped] := State.putRx_only here (by rw [hp])
    obtain ⟨q, queued⟩ := State.enqueueFrame_only kept
    have passes : ¬ (!headerValid g.heads h) = true := by rw [show headerValid g.heads h = true from valid]; decide
    have room : ¬ (16 * g.ends - g.lead) / (16 * heard.blockTicks) < frameLength g + 1 := by rw [ticks]; exact Nat.not_lt.mpr fits
    have uncut : g.cut = none := whole
    have plain : ¬ piped.soft = true := by rw [hp]; exact Bool.eq_false_iff.mp hard
    have worded : ¬ piped.ncw = 0 := by rw [hp]; exact words
    rw [if_neg passes, if_neg room, uncut, if_neg Bool.false_ne_true, if_neg plain, if_neg worded, queued, hp]
    exact ⟨_, rfl, rfl, rfl, rfl, rfl⟩

/-! ### The claim -/

/-- Settles O29, by what a found and a missed lead leave of the fetched crossings and the slot, and by the way of a slot's only receive frame through
its header. -/
theorem leadsAndHeaders : Obligations.LeadsAndHeaders := by
  unfold Obligations.LeadsAndHeaders
  refine ⟨fun s n m c runs receives unheard searches => ⟨fun frame loud near => ⟨_, rfl, ?_⟩, ⟨_, rfl, ?_⟩⟩,
    fun s n h f only waits => ⟨fun bad => ⟨_, rfl, ?_⟩, fun good valid hard whole words fits => ⟨_, rfl, ?_⟩⟩⟩
  · have foot : Follows State.leadDetect_foot s (s.leadDetect n m) := State.leadDetect_follows (Foot.le_refl _) (Follows.refl _ _)
    obtain ⟨joins, heard⟩ := State.leadDetect_audible runs receives unheard searches frame ⟨loud, near⟩
    exact ⟨joins, heard, foot.bytes_eq rfl⟩
  · have searching : c.searching = true := by simp [Crossing.searching, receives, unheard, searches]
    obtain ⟨tick, e⟩ := State.leadMiss_searching runs searching
    obtain ⟨count, ended, slots⟩ := (s.reach tick).leadMissed_spec n c
    rw [e]
    exact ⟨count, ended, congrArg SlotSt.rx (slots n)⟩
  · rw [State.headerDecode_bad only waits bad]
    exact State.endRx_only only rfl 2
  · exact State.headerDecode_good only waits good valid hard whole words fits

end Sys2Proof.Machine
end

section
/-! The start of a transmission: what the crossing's start leaves of the slot's transmit frame until it is built, the sequence that the frame takes, and
the claim, refuted by a sequence counter wider than its register. -/

namespace Sys2Proof.Machine

open Sys2Proof

/-! ### The transmit frame of a slot under the governor (R64, R65) -/

/-- A change of a slot that leaves its transmit frame leaves every slot's. -/
theorem State.tx_updSlot {s : State} {n : Nat} {f : SlotSt → SlotSt} (keeps : ∀ x : SlotSt, (f x).tx = x.tx) (k : Nat) :
    ((s.updSlot n f).slot k).tx = (s.slot k).tx := by
  by_cases e : k % 16 = n % 16
  · rw [State.slot_mod _ e, s.slot_mod e, State.slot_updSlot, keeps]
  · rw [State.slot_updSlot_ne _ _ _ _ e]

theorem State.applyBackoff_tx (s : State) (b : Beam) (back : Nat) (off : Bool) (k : Nat) :
    ((s.applyBackoff b back off).slot k).tx = (s.slot k).tx := by
  unfold State.applyBackoff
  extract_lets n prev hold muted clipped mute slots applied code
  have hclipped : clipped.slot k = s.slot k := by
    unfold clipped
    split
    · have yarned (u : State) : Follows State.yarn_foot u (u.yarn 34) := State.yarn_follows (Foot.le_refl _) (Follows.refl _ _)
      rw [State.pmc, (State.pmcAt_is _ _ _ _ _).slot_eq rfl, (State.fire_is _ _).slot_eq rfl, (yarned _).slot_eq rfl]
      rfl
    · rfl
  have hmute : mute.slot k = clipped.slot k := by
    unfold mute
    split
    · exact (State.fire_is _ _).slot_eq rfl k
    · rfl
  rw [← hclipped, ← hmute]
  exact State.tx_updSlot (s := mute) (n := n) (f := fun x => { x with back := hold, muted := muted }) (fun _ => rfl) k

/-- The governor leaves every slot's transmit frame. -/
theorem State.govern_tx (s : State) (k : Nat) : (s.govern.slot k).tx = (s.slot k).tx := by
  unfold State.govern
  exact List.foldlRecOn _ _ (motive := fun u : State => (u.slot k).tx = (s.slot k).tx) rfl fun u h b _ => (u.applyBackoff_tx b _ _ k).trans h

/-! ### A frame is built as its crossing starts (R134, R169) -/

/-- The transmit frame of slot n that a pipe holds. -/
def State.pipedFrame (s : State) (n : Nat) : Option PipeFrame :=
  (List.range 8).findSome? fun p => (s.pipe p).frames.find? fun x : PipeFrame => !x.rx && x.slot == n

/-- What a frame that starts for neighbour n takes: the next sequence, which rises, and the acknowledgement that is owed. -/
def TookSeq (s t : State) (n : Nat) : Prop :=
  t.get (R.NBR_TX_NEXT_seq n) = (s.get (R.NBR_TX_NEXT_seq n) + 1) % 2 ^ 32 ∧
    t.get (R.NBR_LAST_TX_SEQ_seq n) = s.get (R.NBR_TX_NEXT_seq n) % 2 ^ 32 ∧ t.get (R.NBR_LIVE_ack_owed n) = 0

theorem State.txBuild_tookSeq {s : State} {c : Crossing} {x : PhyFrame} {g : PipeFrame} (tx : (s.slot c.d.slot).tx = some x) (unbuilt : x.hdr = [])
    (piped : s.pipedFrame c.d.slot = some g) (ackOnly : c.txTag = none) (unicast : s.isBroadcast c.d.nbr = false) :
    TookSeq s (s.txBuild c) c.d.nbr := by
  unfold State.txBuild
  split
  next y h ty th =>
    obtain rfl : y = x := Option.some.inj (ty.symm.trans tx)
    rw [if_neg (by rw [unbuilt]; decide)]
    extract_lets n frame attempt q built tagged cleared last slot
    have noFrame : frame = none := by unfold frame State.chosenFrame; rw [ackOnly]
    have taken : q = (s.set (R.NBR_TX_NEXT_seq n) ((s.get (R.NBR_TX_NEXT_seq n) + 1) % 2 ^ 32), s.get (R.NBR_TX_NEXT_seq n)) := by
      unfold q
      rw [noFrame]
      rfl
    have untagged : tagged = q.1 := by unfold tagged; rw [ackOnly]
    have still : ¬ tagged.isBroadcast n = true := by
      rw [untagged, taken]
      unfold State.isBroadcast at unicast ⊢
      rw [State.get_set_row _ _ _ _ (show 365 ≠ 386 by decide), unicast]
      exact Bool.false_ne_true
    have clears : cleared = tagged.set (R.NBR_LIVE_ack_owed n) 0 := if_neg still
    have feed : Follows State.feedEncoders_foot slot slot.feedEncoders := State.feedEncoders_follows (Foot.le_refl _) (Follows.refl _ _)
    unfold TookSeq
    rw [feed.row 386 rfl (by decide), feed.row 389 rfl (by decide), feed.row 382 rfl (by decide)]
    simp [slot, last, State.set2, State.get_set_row, clears, untagged, taken, n]
  next no => exact absurd piped (no _ _ tx)

/-- The crossing of a slot that comes next is one of the slot's. -/
theorem State.nextOn_slot {s : State} {slot : Nat} {p : Crossing → Bool} {c : Crossing} (h : s.nextOn slot p = some c) : c.d.slot = slot := by
  unfold State.nextOn at h
  have mem := foldl_picks_mem (fun b x => ?_) h
  · have both := (List.mem_filter.mp mem).2
    rw [Bool.and_eq_true, beq_iff_eq] at both
    exact both.1
  · cases b with
    | none => exact .inr rfl
    | some b => exact (ite_eq_or_eq (x.b0 < b.b0) (some x) (some b)).symm

/-- What the mark of a crossing's start may change: mesh time, tiles, the fetched crossings, yarns and counters. -/
def startMark : Foot := ⟨0x4041110, State.pmc_foot.rows⟩

/-- A slot whose transmission begins: no backoff yet, and the lead code of this instant (R99, R119). -/
def SlotSt.begun (x : SlotSt) (code : Nat) : SlotSt := { x with back := 0, code := code }

/-- A transmit crossing that starts is marked, its slot begins, the governor evaluates, and its frame is built. -/
theorem State.crossingStart_transmit {s : State} {n : Nat} {c : Crossing} (next : s.nextOn n (fun y => y.checked && !y.started) = some c)
    (transmits : c.d.dir = 1) :
    ∃ (u : State) (code : Nat), Follows startMark s u ∧ s.crossingStart n = (u.updSlot n (·.begun code)).govern.txBuild c := by
  unfold State.crossingStart
  split
  next no => rw [next] at no; cases no
  next d it =>
    obtain rfl := State.nextOn_eq next it
    have le : Foot.le startMark startMark := Foot.le_refl _
    exact ⟨_, _, State.pmc_follows (le.sub rfl) (State.yarn_follows (le.sub rfl) (State.tensionTaken_follows (le.sub rfl)
      (State.updCrossing_follows (le.sub rfl) (State.reach_follows (le.sub rfl) (Follows.refl _ _))))), if_pos transmits⟩

/-- A transmit crossing that starts with an acknowledgement-only frame to one neighbour takes the next sequence for it, cut to the register that keeps
it, and the acknowledgement. -/
theorem State.crossingStart_tookSeq {s : State} {n : Nat} {c : Crossing} {x : PhyFrame} {g : PipeFrame}
    (next : s.nextOn n (fun y => y.checked && !y.started) = some c) (transmits : c.d.dir = 1) (ackOnly : c.txTag = none)
    (tx : (s.slot n).tx = some x) (unbuilt : x.hdr = []) (piped : s.pipedFrame n = some g) (unicast : s.isBroadcast c.d.nbr = false) :
    TookSeq s (s.crossingStart n) c.d.nbr := by
  obtain rfl : c.d.slot = n := State.nextOn_slot next
  obtain ⟨u, code, marked, e⟩ := State.crossingStart_transmit next transmits
  rw [e]
  have le : Foot.le State.govern_foot State.govern_foot := Foot.le_refl _
  have governed : Follows State.govern_foot u (u.updSlot c.d.slot (·.begun code)).govern :=
    State.govern_follows le (State.updSlot_follows (le.sub rfl) (Follows.refl _ _))
  have kept : ((u.updSlot c.d.slot (·.begun code)).govern.slot c.d.slot).tx = some x := by
    rw [State.govern_tx, State.slot_updSlot, marked.slot_eq rfl]
    exact tx
  generalize (u.updSlot c.d.slot (·.begun code)).govern = v at governed kept ⊢
  have pipe : v.pipedFrame c.d.slot = some g := by
    rw [← piped]
    unfold State.pipedFrame State.pipe
    rw [governed.pipes rfl, marked.pipes rfl]
  have one : v.isBroadcast c.d.nbr = false := by
    unfold State.isBroadcast at unicast ⊢
    rw [governed.row 365 rfl (by decide), marked.row 365 rfl (by decide), unicast]
  have took : TookSeq v (v.txBuild c) c.d.nbr := State.txBuild_tookSeq kept unbuilt pipe ackOnly one
  unfold TookSeq at took ⊢
  rwa [governed.row 386 rfl (by decide), marked.row 386 rfl (by decide)] at took

/-! ### The claim, refuted -/

/-- A checked transmit crossing to neighbour 0 on slot 0, for an acknowledgement-only frame. -/
def ackCrossing : Crossing :=
  { id := 0, src := .pushed 0, d := Desc.ofWords (2 ^ 26) 0 0 0, winStart := 0, b0 := 0, ends := 0, tiles := 0, swatch := 0, pushed := true,
    checked := true, started := false, txTag := none, ackOnly := true, leadHeard := false, searchEnded := false, coexAsked := false, coexHeld := false }

/-- Its frame in a pipe. -/
def ackPiped : PipeFrame :=
  { rx := false, nbr := 0, slot := 0, segs := 0, keySlot := none, hdr := [], body := [], lead := 0, snr := 0, xid := 0, timed := false, ok := none,
    pipe := none }

/-- Its frame in the PHY, still to be built. -/
def ackFrame : PhyFrame := State.reset.txFrameOf ackCrossing

/-- The acknowledgement-only frame is about to start, and the register file lists 2^32 for the neighbour's next sequence, which no 32-bit register
holds. -/
def wideSequence : State :=
  { State.reset.updSlot 0 fun x => { x with tx := some ackFrame } with
    regs := [((R.NBR_TX_NEXT_seq 0).key, 2 ^ 32)]
    xng := { Xng.initial with fetched := [ackCrossing] }
    pipes := .replicate 8 { frames := [ackPiped], lfsr := true, cmLevel := 3, inReset := false } }

/-- The state meets the claim's conditions for a crossing that starts. -/
theorem wideSequence_starts :
    wideSequence.nextOn 0 (fun y => y.checked && !y.started) = some ackCrossing ∧ (wideSequence.slot 0).tx = some ackFrame ∧
      wideSequence.pipedFrame 0 = some ackPiped ∧ wideSequence.isBroadcast 0 = false ∧ wideSequence.get (R.NBR_TX_NEXT_seq 0) = 2 ^ 32 :=
  ⟨rfl, rfl, rfl, rfl, rfl⟩

/-- Refutes O30: as a crossing starts, NBR_LAST_TX_SEQ takes the sequence of its frame cut to 32 bits, so in a state whose register file lists 2^32 for
NBR_TX_NEXT it reads 0, where the claim, which speaks of every state, has it equal to the value listed. No write lists such a value
(`RegFile.read_write_same`); the clause as it holds is `State.crossingStart_tookSeq`. -/
theorem not_codewordsAndTransmission : ¬ Obligations.CodewordsAndTransmission := by
  unfold Obligations.CodewordsAndTransmission
  rintro ⟨-, transmission⟩
  obtain ⟨next, tx, piped, unicast, wide⟩ := wideSequence_starts
  obtain ⟨-, starts, -⟩ := transmission wideSequence 0 0 ackCrossing ackPiped ackFrame 0 .bootRom 0
  obtain ⟨t, run, -, last, -⟩ := starts next rfl rfl tx rfl piped unicast
  obtain ⟨-, cut, -⟩ := State.crossingStart_tookSeq next rfl rfl tx rfl piped unicast
  rw [show wideSequence.crossingStart 0 = t from Host.Outcome.next.inj run, last] at cut
  rw [show wideSequence.get (R.NBR_TX_NEXT_seq ackCrossing.d.nbr) = 2 ^ 32 from wide] at cut
  exact absurd cut (by decide)

end Sys2Proof.Machine
end

section
/-! The timetable up to the fetch: the votes of standing crossings, the writes of block XNG, the push ring, the fetch, and the claim. -/

namespace Sys2Proof.Machine

open Sys2Proof

/-! ### What a footprint leaves -/

/-- The rows of a list, as bits. -/
def rowMask : List Nat → Nat
  | [] => 0
  | k :: l => 2 ^ k ||| rowMask l

theorem mem_of_testBit_rowMask {l : List Nat} {k : Nat} (h : (rowMask l).testBit k = true) : k ∈ l := by
  induction l with
  | nil => rw [rowMask, Nat.zero_testBit] at h; cases h
  | cons j l ih =>
    rw [rowMask, Nat.testBit_or, Nat.testBit_two_pow, Bool.or_eq_true, decide_eq_true_eq] at h
    exact List.mem_cons.mpr (h.imp Eq.symm ih)

/-- A footprint whose rows are all named leaves the other fields. -/
theorem Follows.sameFields {p : Foot} {l : List Nat} {s t : State} (h : Follows p s t) (h1 : p.comps.testBit 1 = false)
    (rows : p.rows ||| rowMask l = rowMask l) : sameFields l s t := by
  refine fun f out => h.get f ?_
  unfold Foot.row
  rw [h1, Bool.false_or]
  by_contra on
  refine out (mem_of_testBit_rowMask (k := f.row) ?_)
  rw [← rows, Nat.testBit_or, Bool.eq_true_of_not_eq_false on, Bool.true_or]

/-- A footprint without memory leaves every byte. -/
theorem Follows.sameBytes {p : Foot} {s t : State} (h : Follows p s t) (e : p.comp 2 = false) : sameBytes s t := fun a => h.bytes_eq e a

/-- A write of a field stays within a footprint that holds its row. -/
theorem Follows.set {p : Foot} {s t : State} {f : Field} {v : Nat} (h : Follows p s t) (k : Nat) (hk : f.row = k) (row : p.sets k = true) :
    Follows p s (t.set f v) :=
  State.set_follows k (Foot.le_refl p) h hk row

/-- And so does the setting of one of its bits. -/
theorem Follows.setBit {p : Foot} {s t : State} {f : Field} {b : Nat} (h : Follows p s t) (k : Nat) (hk : f.row = k) (row : p.sets k = true) :
    Follows p s (t.setBit f b) :=
  State.setBit_follows k (Foot.le_refl p) h hk ((Bool.and_eq_true _ _).mp row).1 (.inr row)

/-- Where no pending bit may be cleared, a pending source stays pending. -/
theorem Follows.pends {p : Foot} {s t : State} (h : Follows p s t) (e : p.comp 0 = false) {n : Nat} (on : s.pends n = true) : t.pends n = true :=
  h.pend e _ _ (Nat.mod_lt _ (by decide)) on

theorem State.off_of_zero {s : State} {f : Field} (h : s.get f = 0) : s.on f = false := congrArg (fun v : Nat => v != 0) h

theorem State.bit_of_get {s t : State} {f : Field} (h : t.get f = s.get f) (k : Nat) : t.bit f k = s.bit f k := congrArg (fun v : Nat => v.testBit k) h

theorem State.byte_of_mem {s t : State} (h : t.mem = s.mem) (a : Nat) : t.byte a = s.byte a := congrArg (Memory.read · a) h

/-! ### Votes on power domains (R155, R295) -/

theorem State.settleHub_regs (s : State) : s.settleHub.regs = s.regs := by
  unfold State.settleHub
  split <;> rfl

/-- As a domain settles, only votes on the hub core may change: those of the domains that depend on it (R295). -/
theorem State.refreshDep_votes (s : State) {e : Nat} (e0 : e ≠ 0) : s.refreshDep.get (R.PWR_VOTE_votes e) = s.get (R.PWR_VOTE_votes e) := by
  have key : (R.PWR_VOTE_votes e).key ≠ (R.PWR_VOTE_votes 0).key := by simpa using e0
  have put (b : Bool) : (s.putBit (R.PWR_VOTE_votes 0) 26 b).get (R.PWR_VOTE_votes e) = s.get (R.PWR_VOTE_votes e) := by
    unfold State.putBit State.setBit State.clrBit
    split
    · exact State.get_set_ne _ _ _ _ key
    · split
      · exact State.get_set_ne _ _ _ _ key
      · rfl
  exact (congrArg (fun r : RegFile => r.read (R.PWR_VOTE_votes e)) (State.settleHub_regs _)).trans (put _)

theorem State.riseDom_votes (s : State) (d : Nat) {e : Nat} (e0 : e ≠ 0) :
    (s.riseDom d).get (R.PWR_VOTE_votes e) = s.get (R.PWR_VOTE_votes e) := by
  have mode (u : State) : u.refreshMode.get (R.PWR_VOTE_votes e) = u.get (R.PWR_VOTE_votes e) :=
    (State.refreshMode_follows (Foot.le_refl _) (Follows.refl _ u)).row 26 (by rfl) (by decide)
  have rails (u : State) : u.raiseRf.get (R.PWR_VOTE_votes e) = u.get (R.PWR_VOTE_votes e) :=
    (State.raiseRf_follows (Foot.le_refl _) (Follows.refl _ u)).row 26 (by rfl) (by decide)
  have dep := (s.beginDom d .rising).refreshDep_votes e0
  unfold State.riseDom
  dsimp only
  rw [mode]
  split
  · exact (rails _).trans dep
  · exact dep

theorem State.settle_votes (s : State) (d : Nat) {e : Nat} (e0 : e ≠ 0) : (s.settle d).get (R.PWR_VOTE_votes e) = s.get (R.PWR_VOTE_votes e) := by
  unfold State.settle
  split
  · exact congrArg (fun r : RegFile => r.read (R.PWR_VOTE_votes e)) s.settleHub_regs
  · split
    · split
      · rfl
      · split
        · exact s.riseDom_votes d e0
        · rfl
    all_goals rfl

/-- A vote on one domain leaves the votes on another, the hub core apart. -/
theorem State.aimVote_votes (s : State) {d e : Nat} (e0 : e ≠ 0) (other : e ≠ d) (k : Nat) (b : Bool) :
    (s.aimVote d k b).get (R.PWR_VOTE_votes e) = s.get (R.PWR_VOTE_votes e) := by
  have key : (R.PWR_VOTE_votes e).key ≠ (R.PWR_VOTE_votes d).key := by simpa using other
  unfold State.aimVote State.putVote State.vote State.unvote
  split
  · rfl
  · split
    · rw [State.settle_votes _ _ e0]
      exact State.get_set_ne _ _ _ _ key
    · rw [State.settle_votes _ _ e0]
      unfold State.clrBit
      split
      · exact State.get_set_ne _ _ _ _ key
      · rfl

/-- A vote that is aimed high stands. -/
theorem State.aimVote_stands (s : State) {d k : Nat} (d0 : d ≠ 0) (hk : k < 32) : (s.aimVote d k true).bit (R.PWR_VOTE_votes d) k = true := by
  unfold State.aimVote State.putVote State.vote
  split
  next already => exact beq_iff_eq.mp already
  next =>
    rw [if_pos rfl]
    exact (State.bit_of_get (State.settle_votes _ _ d0) k).trans (s.bit_setBit hk)

theorem State.refreshVotes_is (s : State) : Follows State.refreshVotes_foot s s.refreshVotes :=
  State.refreshVotes_follows (Foot.le_refl _) (Follows.refl _ _)

/-- A standing crossing has the timetable's vote on each of its tiles (R155). -/
theorem State.refreshVotes_stands {s : State} {v : XVote} {k : Nat} (stands : v ∈ s.xng.votes) (hk : k < 8) (tile : v.tiles.testBit k = true) :
    s.refreshVotes.bit (R.PWR_VOTE_votes (k + 1)) 31 = true := by
  have asks : (s.xng.votes.any fun x => x.tiles.testBit k) = true := List.any_eq_true.mpr ⟨v, stands, tile⟩
  unfold State.refreshVotes
  extract_lets votes near hub tiles pool
  have onTiles : tiles.bit (R.PWR_VOTE_votes (k + 1)) 31 = true := by
    refine forAll_once (P := fun u : State => u.bit (R.PWR_VOTE_votes (k + 1)) 31 = true) (Q := fun _ => True) hk trivial
      (fun u _ => ?_) (fun _ _ _ _ _ => trivial) fun j u _ ne h => ?_
    · rw [asks]
      exact u.aimVote_stands (by omega) (by decide)
    · exact (State.bit_of_get (State.aimVote_votes _ (by omega) (by omega) _ _) _).trans h
  have keep (u : State) {d : Nat} (far : 8 < d) (b : Bool) (h : u.bit (R.PWR_VOTE_votes (k + 1)) 31 = true) :
      (u.aimVote d 30 b).bit (R.PWR_VOTE_votes (k + 1)) 31 = true :=
    (State.bit_of_get (State.aimVote_votes _ (by omega) (by omega) _ _) _).trans h
  exact keep _ (by decide) _ (keep _ (by decide) _ onTiles)

/-- A crossing without a vote gets one (R155, R159). -/
theorem State.voteFor_fresh {s : State} {v : XVote} (fresh : ∀ x : XVote, x ∈ s.xng.votes → x.src ≠ v.src) :
    s.voteFor v = { s with xng := { s.xng with votes := s.xng.votes ++ [v] } }.refreshVotes := by
  unfold State.voteFor
  refine if_neg fun any => ?_
  obtain ⟨x, hx, same⟩ := List.any_eq_true.mp any
  exact fresh x hx (beq_iff_eq.mp same)

/-- After the timetable votes for a crossing, a vote for it stands. -/
theorem State.voteFor_stands (s : State) (v : XVote) : ∃ x : XVote, x ∈ (s.voteFor v).xng.votes ∧ x.src = v.src := by
  unfold State.voteFor
  split
  next any =>
    obtain ⟨x, hx, same⟩ := List.any_eq_true.mp any
    exact ⟨x, hx, beq_iff_eq.mp same⟩
  next =>
    rw [(State.refreshVotes_is _).xng rfl]
    exact ⟨v, List.mem_append_right _ List.mem_cons_self, rfl⟩

/-- Votes change neither the fetched crossings nor the held ones. -/
theorem State.voteFor_held (s : State) (v : XVote) : (s.voteFor v).xng.held = s.xng.held := by
  unfold State.voteFor
  split
  · rfl
  · rw [(State.refreshVotes_is _).xng rfl]

theorem State.pruneVotes_xng (s : State) : ∃ votes : List XVote, s.pruneVotes.xng = { s.xng with votes := votes } :=
  ⟨_, (State.refreshVotes_is _).xng rfl⟩

theorem State.pruneVotes_is (s : State) : Follows State.pruneVotes_foot s s.pruneVotes := State.pruneVotes_follows (Foot.le_refl _) (Follows.refl _ _)

/-- Votes that go leave the committed images and the first window to fetch. -/
theorem State.pruneVotes_walk (s : State) : s.pruneVotes.xng.commit = s.xng.commit ∧ s.pruneVotes.xng.fetchFrom = s.xng.fetchFrom := by
  obtain ⟨votes, e⟩ := s.pruneVotes_xng
  rw [e]
  exact ⟨rfl, rfl⟩

/-! ### Writes of block XNG (R145, R147, R158) -/

/-- Blocks XNG and MAC stand among the hub's register blocks. -/
theorem hubReg_timetable {a : Nat} (first : 0x02080000 ≤ a) (last : a < 0x020A0000) (word : a % 4 = 0) : hubReg a := by
  unfold hubReg
  omega

/-- A command that is one write of an open register of the hub's blocks answers what the block does. -/
theorem answers_hubWrite {s u : State} {ini : Initiator} {c : Instr} {a : Nat} {data : Word} {st : Status} {p : State → Prop}
    (run : exec c s = .next (s.regWriteBy ini a data.toNat)) (ha : hubReg a) (h : s.opens ini true a data.toNat)
    (e : s.regWrite (!isKeel ini) false a data.toNat = (u, st)) (hp : p (u.reply st [])) : Answers s c st p := by
  refine ⟨u.reply st [], run.trans (next_congr ?_), rfl, hp⟩
  rw [State.regWriteBy_hubReg ha h, e]

/-- A commit is for a cycle boundary to come (R145). -/
theorem State.commitBoundary_spec (s : State) : s.commitBoundary % cycleTicks = 0 ∧ s.now < s.commitBoundary := by
  have split := Nat.div_add_mod s.now cycleTicks
  have below := Nat.mod_lt s.now (show 0 < cycleTicks by decide)
  unfold State.commitBoundary
  unfold cycleTicks at *
  dsimp only
  split
  · exact ⟨Nat.mul_mod_left _ _, by omega⟩
  · exact ⟨Nat.mul_mod_left _ _, by omega⟩

/-- A commit keeps what switches earlier, and waits (R145). -/
theorem State.xngCommit_spec (s : State) (image : Nat) :
    (s.xngCommit image).xng.commit = (s.xng.commit.filter fun x => x.2 < s.commitBoundary) ++ [(image % 2, s.commitBoundary)] ∧
      (s.xngCommit image).get R.XNG_COMMIT_pending = 1 := by
  unfold State.xngCommit
  exact ⟨(State.pruneVotes_walk _).1, ((State.pruneVotes_is _).row 200 (by rfl) (by decide)).trans (State.get_set_same _ _ _)⟩

/-- With no global commit waiting, XNG_COMMIT.go commits the image it names. -/
theorem State.xngCommitWrite_go {s : State} (free : s.get R.HUB_GCOMMIT_busy = 0) {v : Nat} (go : v.testBit 0 = true) :
    s.xngCommitWrite v = ((s.set R.XNG_COMMIT_image (bits v 8 8)).xngCommit (bits v 8 8), .ok) := by
  unfold State.xngCommitWrite
  rw [State.gcIncludes_free free, if_neg Bool.false_ne_true]
  dsimp only
  rw [if_pos go]

/-- What a write of XNG_CTRL may change. -/
def enableFoot : Foot := ⟨0x1020, State.xngEnable_foot.rows ||| 2 ^ 197 ||| 2 ^ 198⟩

/-- The other fields of XNG_CTRL, as a write gives them. -/
def State.ctrlFields (s : State) (v : Nat) : State := (s.set R.XNG_CTRL_vote_lead (bits v 25 16)).set R.XNG_CTRL_auto_preload (bits v 1 1)

theorem State.writeXng_enable {s : State} (posted : Bool) {v : Nat} (go : v.testBit 0 = true) (off : s.get R.XNG_CTRL_enable = 0) :
    s.writeXng posted 0x02080000 v = ((s.ctrlFields v).xngEnable true, .ok) := by
  have still : (s.ctrlFields v).on R.XNG_CTRL_enable = false := by
    unfold State.ctrlFields
    exact State.off_of_zero (by rw [State.get_set_row _ _ _ _ (by decide), State.get_set_row _ _ _ _ (by decide), off])
  unfold State.writeXng
  rw [if_pos rfl]
  dsimp only
  rw [go]
  refine congrArg (fun t => (t, Status.ok)) (if_neg ?_)
  rw [show ((s.set R.XNG_CTRL_vote_lead (bits v 25 16)).set R.XNG_CTRL_auto_preload (bits v 1 1)).on R.XNG_CTRL_enable = false from still]
  exact Bool.false_ne_true.symm ∘ beq_iff_eq.mp

/-- The walk begins with the first window at least 16 windows ahead (R147). -/
theorem State.xngEnable_spec {s : State} (off : s.get R.XNG_CTRL_enable = 0) :
    (s.xngEnable true).get R.XNG_CTRL_enable = 1 ∧ (s.xngEnable true).xng.fetchFrom = (s.now + fetchLead + windowTicks - 1) / windowTicks * windowTicks := by
  have was := State.off_of_zero off
  have clock : (s.set R.XNG_CTRL_enable true.toNat).now = s.now := rfl
  unfold State.xngEnable
  dsimp only
  rw [was, clock]
  generalize (s.now + fetchLead + windowTicks - 1) / windowTicks * windowTicks = first
  rw [if_pos (by decide)]
  exact ⟨((State.pruneVotes_is _).row 199 (by rfl) (by decide)).trans (State.get_set_same s R.XNG_CTRL_enable 1), (State.pruneVotes_walk _).2⟩

/-- How far a place of the push ring lies past the read pointer (R158). -/
def State.pushFar (s : State) (p : Nat) : Nat := (p % 256 + 256 - s.get R.XNG_PUSH_PTR_rd) % 256

theorem State.pushPtr_moves {s : State} {wr : Nat} (ahead : s.pushFar (s.get R.XNG_PUSH_PTR_wr) ≤ s.pushFar wr) (posted : Bool) :
    s.pushPtr wr posted = (s.set R.XNG_PUSH_PTR_wr wr, .ok) :=
  if_neg (Nat.not_lt.mpr ahead)

theorem State.pushPtr_refuses {s : State} {wr : Nat} (behind : s.pushFar wr < s.pushFar (s.get R.XNG_PUSH_PTR_wr)) :
    s.pushPtr wr false = (s, .busy) :=
  if_pos behind

/-- XNG_PUSH_PTR.refused clears where 1 is written to it. -/
def State.refusedClear (s : State) (v : Nat) : State := if v.testBit 31 then s.set R.XNG_PUSH_PTR_refused 0 else s

theorem State.writeXng_pushPtr (s : State) (posted : Bool) (v : Nat) :
    s.writeXng posted 0x02080024 v = (s.refusedClear v).pushPtr (v / 65536 % 256) posted := rfl

theorem State.refusedClear_fields (s : State) (v : Nat) : sameFields [R.XNG_PUSH_PTR_refused.row] s (s.refusedClear v) := by
  unfold State.refusedClear
  split
  · exact s.set_sameFields _ _
  · exact fun _ _ => rfl

theorem State.refusedClear_mem (s : State) (v : Nat) : (s.refusedClear v).mem = s.mem := by
  unfold State.refusedClear
  split <;> rfl

/-- Clearing the flag moves no pointer. -/
theorem State.refusedClear_far (s : State) (v p : Nat) :
    (s.refusedClear v).pushFar p = s.pushFar p ∧ (s.refusedClear v).get R.XNG_PUSH_PTR_wr = s.get R.XNG_PUSH_PTR_wr := by
  unfold State.pushFar
  rw [s.refusedClear_fields v _ (by decide)]
  exact ⟨rfl, s.refusedClear_fields v _ (by decide)⟩

/-! ### The push ring (R158, R159) -/

theorem State.descAt_mem {s t : State} (h : t.mem = s.mem) (a : Nat) : t.descAt a = s.descAt a := by
  unfold State.descAt State.word State.bytes State.byte
  rw [h]

/-- An entry's verdict hangs on mesh time, the scheduling mode and HUB_FUNC_MODE alone (R159). -/
theorem State.pushReason_is {p : Foot} {s t : State} (h : Follows p s t) (clk : p.comp 4 = false) (xng : p.comp 12 = false)
    (mode : p.row R.HUB_FUNC_MODE_bits.row = false) (d : Desc) (w : Nat) : t.pushReason d w = s.pushReason d w := by
  unfold State.pushReason State.hostJudged State.now State.bit
  rw [h.clk clk, h.xng xng, h.get _ mode]

/-- The entry at the read pointer is taken: the pointer moves on, and source 73 fires (R158). -/
def State.entryTaken (s : State) : State := (s.set R.XNG_PUSH_PTR_rd ((s.get R.XNG_PUSH_PTR_rd + 1) % 256)).fire 73

/-- The crossing of an entry is held, under the next running number (R158). -/
def State.holdPushed (s : State) (d : Desc) (w : Nat) : State :=
  { s with xng := { s.xng with nextId := s.xng.nextId + 1, held := s.xng.held ++ [⟨s.xng.nextId, d, w⟩] } }

/-- What the taking of an entry may change. -/
def entryFoot : Foot := ⟨0, 2 ^ 211 ||| State.fire_foot.rows⟩

theorem State.entryTaken_is (s : State) : Follows entryFoot s s.entryTaken :=
  have le : Foot.le entryFoot entryFoot := Foot.le_refl _
  State.fire_follows (le.sub rfl) ((Follows.refl _ _).set 211 rfl rfl)

theorem State.holdPushed_follows {p : Foot} {s0 s : State} {d : Desc} {w : Nat} (hp : Foot.le ⟨0x1000, 0⟩ p) (h : Follows p s0 s) :
    Follows p s0 (s.holdPushed d w) :=
  { h with xng := fun quiet => Bool.noConfusion (quiet.symm.trans (hp.comp (k := 12) rfl)) }

theorem State.entryTaken_rd (s : State) : s.entryTaken.get R.XNG_PUSH_PTR_rd = (s.get R.XNG_PUSH_PTR_rd + 1) % 256 := by
  unfold State.entryTaken
  rw [State.fire_get _ _ _ (by decide), State.get_set_same]
  exact Nat.mod_mod _ _

theorem State.entryTaken_pends {s : State} (up : s.hubUp = true) : s.entryTaken.pends 73 = true := State.fire_pends up (.inl (by decide))

theorem State.holdPushed_regs (s : State) (d : Desc) (w : Nat) : (s.holdPushed d w).regs = s.regs := by
  unfold State.holdPushed
  rfl

/-- What the read of an entry that is held may change. -/
def pushFoot : Foot := ⟨0x1020, entryFoot.rows ||| State.voteFor_foot.rows⟩

section Entry

variable {s : State} {a w : Nat} (up : s.hubUp = true) (more : s.get R.XNG_PUSH_PTR_rd ≠ s.get R.XNG_PUSH_PTR_wr) (room : s.xng.held.length < 256)
  (place : a = s.get R.XNG_PUSH_BASE_base * 32 + 32 * s.get R.XNG_PUSH_PTR_rd) (inside : inSram a 32 = true) (clean : s.poisonedIn a 32 = false)
  (valid : (s.descAt a).valid = true) (start : w = s.word (a + 16) + 2 ^ 32 * s.word (a + 20)) (taken : s.pushReason (s.descAt a) w = 0)
include up more room place inside clean valid start taken

/-- An entry that the hub can hold is held, and the timetable votes for it (R158, R159). -/
theorem State.pushRead_holds : ∃ v : XVote, v.src = .pushed s.xng.nextId ∧ s.pushRead = (s.entryTaken.holdPushed (s.descAt a) w).voteFor v := by
  unfold State.pushRead
  extract_lets rd b t d v r num xng counted xng' held
  have foot : Follows entryFoot s t := s.entryTaken_is
  rw [if_neg (by simp [rd, more, up]; omega)]
  have there : b = a := place.symm
  have same : d = s.descAt a := (State.descAt_mem (foot.mem rfl) b).trans (congrArg s.descAt there)
  have begins : v = w := by
    rw [start, ← there]
    unfold v State.word State.bytes State.byte
    rw [foot.mem rfl]
  have readable : inSram b 32 = true := there ▸ inside
  have clean' : t.poisonedIn b 32 = false := by
    rw [there, ← clean]
    unfold State.poisonedIn
    rw [foot.poison rfl]
  have taken' : r = 0 := by
    unfold r
    rw [same, begins]
    exact (State.pushReason_is foot rfl rfl rfl _ _).trans taken
  rw [if_neg (by simp [clean', readable]), if_neg (by simp [same, valid]), if_neg (by simp [taken']), ← same, ← begins]
  exact ⟨⟨.pushed num, held.descB0 d v, held.descTiles d, !d.sweep⟩, congrArg (fun x : Xng => XSrc.pushed x.nextId) (foot.xng rfl), rfl⟩

/-- After the read the pointer has moved on, source 73 is pending, and the crossing is held and voted for. -/
theorem State.pushRead_spec :
    s.pushRead.get R.XNG_PUSH_PTR_rd = (s.get R.XNG_PUSH_PTR_rd + 1) % 256 ∧ s.pushRead.xng.held = s.xng.held ++ [⟨s.xng.nextId, s.descAt a, w⟩] ∧
      s.pushRead.pends 73 = true ∧ (∃ v : XVote, v ∈ s.pushRead.xng.votes ∧ v.src = .pushed s.xng.nextId) ∧ Follows pushFoot s s.pushRead := by
  obtain ⟨v, own, e⟩ := State.pushRead_holds up more room place inside clean valid start taken
  have votes : Follows State.voteFor_foot (s.entryTaken.holdPushed (s.descAt a) w) s.pushRead := by
    rw [e]; exact State.voteFor_follows (Foot.le_refl _) (Follows.refl _ _)
  have le : Foot.le pushFoot pushFoot := Foot.le_refl _
  have held : (s.entryTaken.holdPushed (s.descAt a) w).xng.held = s.xng.held ++ [⟨s.xng.nextId, s.descAt a, w⟩] :=
    congrArg (fun x : Xng => x.held ++ [⟨x.nextId, s.descAt a, w⟩]) (s.entryTaken_is.xng rfl)
  have regs := s.entryTaken.holdPushed_regs (s.descAt a) w
  have pends : (s.entryTaken.holdPushed (s.descAt a) w).pends 73 = true := by
    unfold State.pends State.bit State.get
    rw [regs]
    exact State.entryTaken_pends up
  refine ⟨?_, ?_, votes.pends rfl pends, ?_, ?_⟩
  · rw [votes.row 211 (by rfl) (by decide), ← s.entryTaken_rd]
    exact congrArg (fun r : RegFile => r.read R.XNG_PUSH_PTR_rd) regs
  · rw [e, State.voteFor_held, held]
  · rw [e, ← own]
    exact State.voteFor_stands _ v
  · rw [e]
    exact State.voteFor_follows (le.sub rfl) (State.holdPushed_follows (le.sub rfl)
      (State.fire_follows (le.sub rfl) ((Follows.refl _ _).set 211 rfl rfl)))

end Entry

/-! ### The fetch (R150, R151) -/

theorem State.walkNext_is {s u : State} {n : Nat} {item : Option WalkItem} (walk : s.walkNext n = (u, item)) : Follows State.walkNext_foot s u :=
  (State.walkNext_follows (Foot.le_refl _) (Follows.refl _ s)).fst_eq walk

/-- While the sequencer runs and holds no pushed crossing, it fetches what the walk meets. -/
theorem State.fetchNext_walks {s u : State} {i : WalkItem} (up : s.hubUp = true) (on : s.get R.XNG_CTRL_enable = 1)
    (walk : s.walkNext walkFuel = (u, some i)) (none_ : u.firstHeld = none) : s.fetchNext = (u.fetchItem i).pruneVotes := by
  have enabled : s.on R.XNG_CTRL_enable = true := congrArg (fun v : Nat => v != 0) on
  have runs : ¬ (!s.on R.XNG_CTRL_enable || !s.hubUp) = true := by simp [up, enabled]
  unfold State.fetchNext
  rw [if_neg runs, walk]
  dsimp only
  rw [none_]

/-- The crossing joins the fetched ones with its vote. -/
def State.joined (s : State) (src : XSrc) (d : Desc) (w : Nat) : State :=
  { s with xng := { s.xng with
    nextId := s.xng.nextId + 1, fetched := s.xng.fetched ++ [s.crossingOf src d w],
    votes := (s.xng.votes.filter fun v => v.src != src) ++ [⟨src, (s.crossingOf src d w).b0, (s.crossingOf src d w).tiles, !d.sweep⟩] } }

/-- What comes after a crossing has joined the fetched ones, up to its message. -/
def joinFoot : Foot := ⟨0x1020, State.refreshVotes_foot.rows⟩

/-- A crossing that nothing speaks against is fetched, and its message goes to its slot's pilot engine (R150, R151). -/
theorem State.fetchDesc_joins {s : State} {src : XSrc} {d : Desc} {w : Nat} (clear : s.fetchReason d w = 0) :
    ∃ u : State, s.fetchDesc src d w = u.pilotMessage d.slot d.raw w ∧ Follows joinFoot (s.joined src d w) u ∧
      u.xng.fetched = s.xng.fetched ++ [s.crossingOf src d w] := by
  have le : Foot.le joinFoot joinFoot := Foot.le_refl _
  have votes : Follows joinFoot (s.joined src d w) (s.joined src d w).refreshVotes := State.refreshVotes_follows (le.sub rfl) (Follows.refl _ _)
  have fetched : (s.joined src d w).refreshVotes.xng.fetched = s.xng.fetched ++ [s.crossingOf src d w] :=
    congrArg Xng.fetched ((State.refreshVotes_is _).xng rfl)
  unfold State.fetchDesc
  dsimp only
  rw [if_neg (by simp [clear])]
  refine ⟨_, rfl, Follows.ite (State.notePair_follows (le.sub rfl) votes) votes, ?_⟩
  split
  · exact fetched
  · exact fetched

/-- The sequencer's message joins a mailbox with a free berth, whose engine waits for nothing. -/
theorem State.pilotMessage_delivered {s : State} {slot : Nat} (room : (s.eng slot).mbox.length < 16) (idle : (s.eng slot).wait = none)
    (raw : List Nat) (w : Nat) :
    (s.pilotMessage slot raw w).xng = s.xng ∧ (s.pilotMessage slot raw w).clk = s.clk ∧ sameBytes s (s.pilotMessage slot raw w) ∧
      ((s.pilotMessage slot raw w).eng slot).mbox = (s.eng slot).mbox ++ [(0x80, raw.map (BitVec.ofNat 32), w)] := by
  have e : s.pilotMessage slot raw w =
      (s.updEng slot fun x => { x with mbox := x.mbox ++ [(0x80, raw.map (BitVec.ofNat 32), w)] }).fire (224 + slot) := by
    unfold State.pilotMessage
    rw [if_neg (by unfold mboxBerths; omega)]
    exact State.mboxDeliver_idle _ idle
  rw [e]
  refine ⟨(State.fire_is _ _).xng rfl, (State.fire_is _ _).clk rfl, fun a => State.fire_byte _ _ a, ?_⟩
  rw [State.fire_eng, State.eng_updEng]

/-- What a fetched crossing is, told by its parts (Table 5.4). -/
theorem State.crossingOf_parts (s : State) (src : XSrc) (d : Desc) (w : Nat) :
    let c := s.crossingOf src d w
    c.id = s.xng.nextId ∧ c.src = src ∧ c.d = d ∧ c.winStart = w ∧ c.b0 = s.descB0 d w ∧ c.ends = s.extentEnd d (s.descB0 d w) ∧
      c.tiles = s.descTiles d ∧ c.checked = false ∧ c.started = false :=
  ⟨rfl, rfl, rfl, rfl, rfl, rfl, rfl, rfl, rfl⟩

/-- The walk's place has no say in whether a crossing is fetched, nor in what it is. -/
theorem State.walkPast_fetch (s : State) (k : Option (Nat × Nat × Nat)) (src : XSrc) (d : Desc) (w : Nat) :
    (s.walkPast k).fetchReason d w = s.fetchReason d w ∧ (s.walkPast k).crossingOf src d w = s.crossingOf src d w ∧
      (s.walkPast k).xng.fetched = s.xng.fetched := by
  cases s
  exact ⟨rfl, rfl, rfl⟩

section Fetch

variable {s u : State} {src : XSrc} {d : Desc} {w : Nat} (up : s.hubUp = true) (on : s.get R.XNG_CTRL_enable = 1)
  (walk : s.walkNext walkFuel = (u, some (.fetch src d w))) (none_ : u.firstHeld = none) (clear : (u.reach (w - 16 * 1280)).fetchReason d w = 0)
  (room : (s.eng d.slot).mbox.length < 16) (idle : (s.eng d.slot).wait = none)
include up on walk none_ clear room idle

/-- The next crossing is fetched at its time, and its descriptor goes to its pilot engine (R150, R151). -/
theorem State.fetchNext_spec :
    s.fetchNext.clk.mesh = max s.clk.mesh (w - 16 * 1280) ∧
      s.fetchNext.xng.fetched = u.xng.fetched ++ [(u.reach (w - 16 * 1280)).crossingOf src d w] ∧
      (s.fetchNext.eng d.slot).mbox = (s.eng d.slot).mbox ++ [(0x80, d.raw.map (BitVec.ofNat 32), w)] ∧ sameBytes s s.fetchNext := by
  have walked := State.walkNext_is walk
  have engs (g : Nat) : u.eng g = s.eng g := walked.engs_eq rfl g
  obtain ⟨reason, crossing, old⟩ := (u.reach (w - 16 * 1280)).walkPast_fetch (some d.key) src d w
  obtain ⟨v, e, joined, fetched⟩ := State.fetchDesc_joins (src := src) (reason.trans clear)
  rw [crossing, old] at fetched
  have same : v.eng d.slot = s.eng d.slot := (joined.engs_eq rfl _).trans (engs _)
  obtain ⟨xng, clk, bytes, mbox⟩ := State.pilotMessage_delivered (s := v) (by rw [same]; exact room) (by rw [same]; exact idle) d.raw w
  have all : s.fetchNext = (v.pilotMessage d.slot d.raw w).pruneVotes := (State.fetchNext_walks up on walk none_).trans (congrArg State.pruneVotes e)
  have votes : Follows State.pruneVotes_foot (v.pilotMessage d.slot d.raw w) s.fetchNext := by
    rw [all]; exact State.pruneVotes_follows (Foot.le_refl _) (Follows.refl _ _)
  obtain ⟨list, kept⟩ := (v.pilotMessage d.slot d.raw w).pruneVotes_xng
  refine ⟨?_, ?_, ?_, fun a => ?_⟩
  · rw [votes.clk rfl, clk, joined.clk rfl, ← walked.clk rfl]
    rfl
  · rw [all, kept]
    exact (congrArg Xng.fetched xng).trans fetched
  · rw [votes.engs_eq rfl, mbox, same]
  · rw [votes.bytes_eq rfl, bytes, joined.bytes_eq rfl]
    exact walked.bytes_eq rfl a

end Fetch

/-! ### The vote scan (R155) -/

/-- The scan of an image crossing without a vote raises its vote on its tiles, its lead ahead of it. -/
theorem State.voteScan_spec {s : State} {i w : Nat} {next : Bool} {src : XSrc} {d : Desc} (ahead : s.lookAhead (.image i next) = some (src, d, w))
    (fresh : ∀ v : XVote, v ∈ s.xng.votes → v.src ≠ src) :
    (s.voteScan (.image i next)).xng.votes = s.xng.votes ++ [⟨src, s.descB0 d w, s.descTiles d, !d.sweep⟩] ∧
      (s.voteScan (.image i next)).clk.mesh = max s.clk.mesh (s.descB0 d w - s.voteLead) ∧
      ∀ k : Nat, k < 8 → (s.descTiles d).testBit k = true → (s.voteScan (.image i next)).bit (R.PWR_VOTE_votes (k + 1)) 31 = true := by
  have e : s.voteScan (.image i next) =
      (s.reach (s.descB0 d w - s.voteLead)).voteFor ⟨src, s.descB0 d w, s.descTiles d, !d.sweep⟩ := by
    unfold State.voteScan
    rw [ahead]
  rw [e, State.voteFor_fresh fresh]
  refine ⟨congrArg Xng.votes ((State.refreshVotes_is _).xng rfl), congrArg Clk.mesh ((State.refreshVotes_is _).clk rfl), fun k hk tile => ?_⟩
  exact State.refreshVotes_stands (v := ⟨src, s.descB0 d w, s.descTiles d, !d.sweep⟩) (List.mem_append_right _ List.mem_cons_self) hk tile

/-! ### The claim -/

/-- Settles O31, by what each write of block XNG, the read of an entry, the fetch and the vote scan leave of the sequencer and the votes. -/
theorem crossingFetches : Obligations.CrossingFetches := by
  unfold Obligations.CrossingFetches
  intro s u ini data src d w x
  refine ⟨fun h free go => ?_, fun h go off => ?_, fun h => ⟨fun ahead => ?_, fun behind => ?_⟩,
    fun up more room inside clean valid taken => ⟨_, rfl, ?_⟩, fun up on walk none_ clear room idle => ⟨_, rfl, ?_⟩,
    fun i next named ahead fresh => ⟨_, rfl, ?_⟩⟩
  · have foot : Follows State.xngCommitWrite_foot s (s.xngCommitWrite data.toNat).1 := State.xngCommitWrite_follows (Foot.le_refl _) (Follows.refl _ _)
    have e := State.xngCommitWrite_go free go
    obtain ⟨commit, pending⟩ := (s.set R.XNG_COMMIT_image (bits data.toNat 8 8)).xngCommit_spec (bits data.toNat 8 8)
    obtain ⟨multiple, later⟩ := s.commitBoundary_spec
    rw [e] at foot
    generalize (s.set R.XNG_COMMIT_image (bits data.toNat 8 8)).xngCommit (bits data.toNat 8 8) = t at *
    refine answers_hubWrite rfl (hubReg_timetable (by decide) (by decide) (by decide)) h e ⟨⟨s.commitBoundary, ?_, multiple, later⟩, pending,
      foot.sameFields rfl (by decide), foot.sameBytes rfl⟩
    refine commit.trans ?_
    rw [show bits data.toNat 8 8 % 2 = data.toNat / 256 % 2 from Nat.mod_mod _ _]
    rfl
  · have le : Foot.le enableFoot enableFoot := Foot.le_refl _
    have foot : Follows enableFoot s ((s.ctrlFields data.toNat).xngEnable true) :=
      State.xngEnable_follows (le.sub rfl) (((Follows.refl _ _).set 197 rfl rfl).set 198 rfl rfl)
    have still : (s.ctrlFields data.toNat).get R.XNG_CTRL_enable = 0 := by
      unfold State.ctrlFields
      rw [State.get_set_row _ _ _ _ (by decide), State.get_set_row _ _ _ _ (by decide), off]
    obtain ⟨enabled, first⟩ := State.xngEnable_spec still
    have write := State.writeXng_enable false go off
    have now : (s.ctrlFields data.toNat).now = s.clk.mesh := rfl
    generalize (s.ctrlFields data.toNat).xngEnable true = t at *
    obtain ⟨multiple, lead, near⟩ :
        t.xng.fetchFrom % 1280 = 0 ∧ s.clk.mesh + 16 * 1280 ≤ t.xng.fetchFrom ∧ t.xng.fetchFrom < s.clk.mesh + 17 * 1280 := by
      rw [first, now]
      unfold fetchLead windowTicks
      omega
    exact answers_hubWrite rfl (hubReg_timetable (by decide) (by decide) (by decide)) h write ⟨enabled, multiple, lead, near,
      foot.sameFields rfl (by decide), foot.sameBytes rfl⟩
  · have same (p : Nat) := s.refusedClear_far data.toNat p
    have moves := State.pushPtr_moves (s := s.refusedClear data.toNat) (wr := data.toNat / 65536 % 256)
      (by rw [(same _).1, (same _).1, (same 0).2]; exact ahead) false
    refine answers_hubWrite rfl (hubReg_timetable (by decide) (by decide) (by decide)) h ((State.writeXng_pushPtr _ _ _).trans moves) ⟨?_, fun a => ?_⟩
    · exact (State.get_set_same _ _ _).trans (Nat.mod_mod _ _)
    · exact congrArg (Memory.read · a) (s.refusedClear_mem data.toNat)
  · have same (p : Nat) := s.refusedClear_far data.toNat p
    have refuses := State.pushPtr_refuses (s := s.refusedClear data.toNat) (wr := data.toNat / 65536 % 256)
      (by rw [(same _).1, (same _).1, (same 0).2]; exact behind)
    exact answers_hubWrite rfl (hubReg_timetable (by decide) (by decide) (by decide)) h ((State.writeXng_pushPtr _ _ _).trans refuses)
      ⟨s.refusedClear_fields _, fun a => congrArg (Memory.read · a) (s.refusedClear_mem data.toNat)⟩
  · obtain ⟨moved, held, pends, voted, foot⟩ := State.pushRead_spec up more room rfl inside clean valid rfl taken
    exact ⟨moved, held, pends, voted, foot.sameFields rfl (by decide), foot.sameBytes rfl⟩
  · obtain ⟨mesh, fetched, mbox, bytes⟩ := State.fetchNext_spec up on walk none_ clear room (Option.eq_none_iff_forall_ne_some.mpr idle)
    exact ⟨mesh, ⟨_, fetched, State.crossingOf_parts _ _ _ _⟩, mbox, bytes⟩
  · subst named
    have foot : Follows State.voteScan_foot s (s.voteScan (.image i next)) := State.voteScan_follows (Foot.le_refl _) (Follows.refl _ _)
    obtain ⟨votes, mesh, tiles⟩ := State.voteScan_spec ahead fresh
    exact ⟨votes, mesh, tiles, foot.sameFields rfl (by decide), foot.sameBytes rfl⟩

end Sys2Proof.Machine
end

section
/-! Mesh time and the neighbour configurations: a silent parent, a step of mesh time and what it passes over, commits and copies of the
neighbours' configurations, and the claim. -/

namespace Sys2Proof.Machine

open Sys2Proof

/-! ### A parent falls silent (R178) -/

/-- Without a parent, locked is 0, source 23 fires where it was not, and the slew holds. -/
theorem State.timeUnlock_spec {s : State} (up : s.hubUp = true) :
    s.timeUnlock.get R.MAC_TIME_STATUS_locked = 0 ∧ (s.get R.MAC_TIME_STATUS_locked ≠ 0 → s.timeUnlock.pends 23 = true) ∧
      s.timeUnlock.clk.slew = s.clk.slew := by
  unfold State.timeUnlock
  extract_lets clk run
  by_cases zero : s.get R.MAC_TIME_STATUS_locked = 0
  · have off : ¬ run.on R.MAC_TIME_STATUS_locked = true := by
      rw [show run.on R.MAC_TIME_STATUS_locked = (s.get R.MAC_TIME_STATUS_locked != 0) from rfl, zero]
      decide
    rw [if_neg off]
    exact ⟨zero, fun lock => absurd zero lock, rfl⟩
  · have on : run.on R.MAC_TIME_STATUS_locked = true := bne_iff_ne.mpr zero
    rw [if_pos on]
    refine ⟨(State.fire_get _ _ _ (by decide)).trans (State.get_set_same _ _ _), fun _ => State.fire_pends up (by decide), ?_⟩
    rw [(State.fire_is _ _).clk rfl]
    rfl

theorem State.parentSilent_eq {s : State} (up : s.hubUp = true) (hardware : s.xng.hostTime = false) :
    s.parentSilent = (s.reach (s.clk.lastParent + 2 * cycleTicks)).timeUnlock :=
  if_neg (by simp [up, hardware])

/-! ### What a step of mesh time passes over (R179) -/

theorem State.unvoteFor_xng (s : State) (src : XSrc) : ∃ votes : List XVote, (s.unvoteFor src).xng = { s.xng with votes := votes } :=
  ⟨_, (State.refreshVotes_is _).xng rfl⟩

/-- A skip takes the crossing out of the fetched ones, and touches no held one. -/
theorem State.skipCrossing_xng (s : State) (c : Crossing) (reason : Nat) :
    (s.skipCrossing c reason).xng.fetched = s.xng.fetched.filter (fun y => y.id != c.id) ∧ (s.skipCrossing c reason).xng.held = s.xng.held := by
  unfold State.skipCrossing
  extract_lets xng out swaps tx dropped noted
  have record : Follows State.skipRecord_foot out (out.skipRecord c.d c.winStart c.pushed reason) :=
    State.skipRecord_follows (Foot.le_refl _) (Follows.refl _ _)
  have le : Foot.le dropFoot dropFoot := Foot.le_refl _
  have hswaps : Follows dropFoot (out.skipRecord c.d c.winStart c.pushed reason) swaps :=
    State.refreshCx_follows (le.sub rfl) (State.dropSwaps_follows (le.sub rfl) (Follows.refl _ _))
  have hdropped : Follows dropFoot (out.skipRecord c.d c.winStart c.pushed reason) dropped :=
    Follows.ite (Follows.forAll (fun p u h => State.updPipe_follows (le.sub rfl) h) (State.updSlot_follows (le.sub rfl) hswaps)) hswaps
  have same : dropped.xng = out.xng := (hdropped.xng rfl).trans (record.xng rfl)
  obtain ⟨fetched, held⟩ : noted.xng.fetched = out.xng.fetched ∧ noted.xng.held = out.xng.held := by
    rw [← same]
    unfold noted
    split <;> exact ⟨rfl, rfl⟩
  obtain ⟨votes, unvoted⟩ := noted.unvoteFor_xng c.src
  rw [((noted.unvoteFor c.src).returned_is c.tiles c.d.ret c.d.nbr).xng rfl, unvoted]
  exact ⟨fetched, held⟩

/-- Crossings that are skipped one after another are all out of the fetched ones. -/
theorem skipCrossings_xng (l : List Crossing) (reason : Nat) (s : State) :
    (∀ y : Crossing, y ∈ (l.foldl (fun s c => s.skipCrossing c reason) s).xng.fetched →
        y ∈ s.xng.fetched ∧ ∀ c : Crossing, c ∈ l → y.id ≠ c.id) ∧
      (l.foldl (fun s c => s.skipCrossing c reason) s).xng.held = s.xng.held := by
  induction l generalizing s with
  | nil => exact ⟨fun y hy => ⟨hy, fun c hc => absurd hc List.not_mem_nil⟩, rfl⟩
  | cons c l ih =>
    obtain ⟨fetched, held⟩ := s.skipCrossing_xng c reason
    obtain ⟨left, same⟩ := ih (s.skipCrossing c reason)
    rw [List.foldl_cons]
    refine ⟨fun y hy => ?_, same.trans held⟩
    obtain ⟨mem, others⟩ := left y hy
    rw [fetched, List.mem_filter] at mem
    exact ⟨mem.1, fun x hx => (List.mem_cons.mp hx).elim (fun e => e ▸ bne_iff_ne.mp mem.2) (others x)⟩

/-- The skip of a held crossing, as its record, its vote and its tiles go. -/
def State.skipHeld (s : State) (h : Held) : State :=
  ((s.skipRecord h.d h.winStart true 15).unvoteFor (.pushed h.num)).returnTiles (s.descTiles h.d) h.d.ret

theorem State.skipHeld_xng (s : State) (h : Held) :
    (s.skipHeld h).xng.fetched = s.xng.fetched ∧ (s.skipHeld h).xng.held = s.xng.held := by
  have record : Follows State.skipRecord_foot s (s.skipRecord h.d h.winStart true 15) := State.skipRecord_follows (Foot.le_refl _) (Follows.refl _ _)
  obtain ⟨votes, unvoted⟩ := (s.skipRecord h.d h.winStart true 15).unvoteFor_xng (.pushed h.num)
  unfold State.skipHeld
  rw [(State.returnTiles_follows (Foot.le_refl _) (Follows.refl _ _)).xng rfl, unvoted, record.xng rfl]
  exact ⟨rfl, rfl⟩

theorem skipHelds_xng (l : List Held) (s : State) :
    (l.foldl State.skipHeld s).xng.fetched = s.xng.fetched ∧ (l.foldl State.skipHeld s).xng.held = s.xng.held := by
  refine List.foldlRecOn l _ (motive := fun t : State => t.xng.fetched = s.xng.fetched ∧ t.xng.held = s.xng.held) ⟨rfl, rfl⟩ fun t h x _ => ?_
  obtain ⟨fetched, held⟩ := t.skipHeld_xng x
  exact ⟨fetched.trans h.1, held.trans h.2⟩

/-- With no crossing in progress, none fetched or held is left in the windows that a step passes over. -/
theorem State.stepSkips_clears {s : State} (idle : s.inProgress = []) (old new : Nat) :
    (∀ c : Crossing, c ∈ (s.stepSkips old new).xng.fetched → ¬(old ≤ c.winStart ∧ c.winStart < new)) ∧
      ∀ h : Held, h ∈ (s.stepSkips old new).xng.held → ¬(old ≤ h.winStart ∧ h.winStart < new) := by
  unfold State.stepSkips
  extract_lets passed skipped gone xng left done last
  obtain ⟨fetched, held⟩ : (∀ y : Crossing, y ∈ skipped.xng.fetched → _) ∧ skipped.xng.held = s.xng.held := skipCrossings_xng _ 15 s
  obtain ⟨fetched', held'⟩ : done.xng.fetched = left.xng.fetched ∧ done.xng.held = left.xng.held := skipHelds_xng gone left
  have outside (w : Nat) (h : passed w = false) : ¬(old ≤ w ∧ w < new) := by
    simpa [passed] using h
  constructor
  · intro c hc inside
    have hc' : c ∈ skipped.xng.fetched := by rw [show last.fetched = skipped.xng.fetched from fetched'] at hc; exact hc
    obtain ⟨mem, others⟩ := fetched c hc'
    have waits : c.started = false := by
      by_contra started
      have run : c ∈ s.inProgress := List.mem_filter.mpr ⟨mem, by simpa using started⟩
      rw [idle] at run
      exact List.not_mem_nil run
    refine others c (List.mem_filter.mpr ⟨mem, ?_⟩) rfl
    simp [passed, inside, waits]
  · intro h hh
    rw [show last.held = skipped.xng.held.filter fun h => !passed h.winStart from held'] at hh
    exact outside _ (by simpa using (List.mem_filter.mp hh).2)

/-! ### The step (R179) -/

/-- Mesh time stands at its new value, and no step waits. -/
def State.stepped (s : State) (ticks : Nat) : State := { s with clk := { s.clk with stepWait := none, mesh := s.clk.mesh + ticks } }

/-- What a step does once mesh time is at its new value, up to its report. -/
def State.stepWork (s : State) (old ticks who : Nat) : State :=
  (((s.spansShift ticks).stepTaken who).stepSkips old (old + ticks)).pruneVotes.shiftOffsets (-(16 * (ticks : Int)))

/-- What that work and the report may change: neither mesh time nor an engine. -/
def stepFoot : Foot := ⟨0x6fcbba4, State.timeStep_foot.rows⟩

theorem State.stepWork_is (s : State) (old ticks who : Nat) : Follows stepFoot s (s.stepWork old ticks who) :=
  have le : Foot.le stepFoot stepFoot := Foot.le_refl _
  State.shiftOffsets_follows (le.sub rfl) (State.pruneVotes_follows (le.sub rfl) (State.stepSkips_follows (le.sub rfl)
    (State.stepTaken_follows (le.sub rfl) (State.spansShift_follows (le.sub rfl) (Follows.refl _ _)))))

/-- The first step that is not acknowledged is told (R179). -/
def State.tellStepped (s : State) : State := if s.on R.MAC_TIME_STATUS_stepped then s else (s.set R.MAC_TIME_STATUS_stepped 1).fire 22

theorem State.tellStepped_is (s : State) : Follows stepFoot s s.tellStepped :=
  have le : Foot.le stepFoot stepFoot := Foot.le_refl _
  Follows.ite (Follows.refl _ _) (State.fire_follows (le.sub rfl) ((Follows.refl _ _).set 234 rfl rfl))

theorem State.tellStepped_tells (s : State) : s.tellStepped.get R.MAC_TIME_STATUS_stepped ≠ 0 ∧ s.tellStepped.xng = s.xng := by
  unfold State.tellStepped
  split
  next on => exact ⟨bne_iff_ne.mp on, rfl⟩
  next =>
    refine ⟨?_, (State.fire_is _ _).xng rfl⟩
    rw [State.fire_get _ _ _ (by decide), State.get_set_same]
    decide

/-- A step of the ticks that wait is taken at a window boundary with no crossing in progress. -/
theorem State.timeStep_eq {s : State} {ticks who : Nat} (waits : s.clk.stepWait = some (ticks, who)) (up : s.hubUp = true)
    (idle : s.inProgress = []) (window : s.clk.mesh % 1280 = 0) :
    s.timeStep = ((s.stepped ticks).stepWork s.clk.mesh ticks who).tellStepped := by
  unfold State.timeStep
  rw [waits]
  refine if_neg ?_
  simp [up, idle, State.now, windowTicks, window]

/-- Taking a step ends its permission or its request; crossings stay as they are. -/
theorem State.stepTaken_xng (s : State) (who : Nat) :
    (s.stepTaken who).xng.fetched = s.xng.fetched ∧ (s.stepTaken who).xng.held = s.xng.held := by
  unfold State.stepTaken
  split
  · exact ⟨rfl, rfl⟩
  · split <;> exact ⟨rfl, rfl⟩

/-- No crossing fetched or held is left in the windows passed over. -/
theorem State.stepWork_clears {s : State} (idle : s.inProgress = []) (old ticks who : Nat) :
    (∀ c : Crossing, c ∈ (s.stepWork old ticks who).xng.fetched → ¬(old ≤ c.winStart ∧ c.winStart < old + ticks)) ∧
      ∀ h : Held, h ∈ (s.stepWork old ticks who).xng.held → ¬(old ≤ h.winStart ∧ h.winStart < old + ticks) := by
  have idle' : ((s.spansShift ticks).stepTaken who).inProgress = [] := by
    unfold State.inProgress
    rw [((s.spansShift ticks).stepTaken_xng who).1]
    exact idle
  have clears := State.stepSkips_clears idle' old (old + ticks)
  unfold State.stepWork
  obtain ⟨votes, e⟩ := (((s.spansShift ticks).stepTaken who).stepSkips old (old + ticks)).pruneVotes_xng
  rw [(State.shiftOffsets_follows (Foot.le_refl _) (Follows.refl _ _)).xng rfl, e]
  exact clears

/-! ### Commits of neighbour configurations (R182) -/

theorem State.nbr_updNbr_ne (s : State) (n k : Nat) (f : NbrSt → NbrSt) (ne : k % 64 ≠ n % 64) : (s.updNbr n f).nbr k = s.nbr k :=
  vget_vset_ne _ _ _ _ ne

/-- With nothing in the way, MAC_NBR_COMMIT.go commits from the next window boundary on. -/
theorem State.nbrCommitWrite_go {s : State} (idle : s.get R.MAC_NBR_COMMIT_pending = 0) (free : s.get R.HUB_GCOMMIT_busy = 0) {v : Nat}
    (go : v.testBit 0 = true) : s.nbrCommitWrite v = (s.nbrCommit ((s.now / windowTicks + 1) * windowTicks), .ok) := by
  have open_ : ¬ (s.on R.MAC_NBR_COMMIT_pending || s.gcIncludes R.HUB_GCOMMIT_mac_nbr 0) = true := by
    rw [State.off_of_zero idle, State.gcIncludes_free free]
    decide
  unfold State.nbrCommitWrite
  rw [if_neg open_, if_pos go]

/-- A commit marks every neighbour of MAC_NBR_SEL, and is pending. -/
theorem State.nbrCommit_spec {s : State} {n : Nat} (hn : n < 64) (sel : s.bit (R.MAC_NBR_SEL_nbrs (n / 32)) (n % 32) = true) (first : Nat) :
    ((s.nbrCommit first).nbr n).copyWait = true ∧ (s.nbrCommit first).get R.MAC_NBR_COMMIT_pending = 1 := by
  unfold State.nbrCommit
  extract_lets marked
  have some_ : (List.range 64).any marked = true := List.any_eq_true.mpr ⟨n, List.mem_range.mpr hn, sel⟩
  rw [some_, Bool.not_true, if_neg Bool.false_ne_true]
  refine ⟨?_, State.get_set_same _ _ _⟩
  rw [State.nbr_set]
  refine forAll_once (P := fun u : State => (u.nbr n).copyWait = true) (Q := fun _ => True) hn trivial (fun u _ => ?_) (fun _ _ _ _ _ => trivial)
    fun k u hk ne h => ?_
  · rw [if_pos sel, State.nbr_updNbr]
  · split
    · rw [State.nbr_updNbr_ne _ _ _ _ (by omega), h]
    · exact h

/-! ### The copy of a neighbour's configuration (R181, R182) -/

/-- From s to t the live configuration of the neighbours, mesh time, memory, the engines and neighbour n's mark stand as they did. -/
def EntryKept (n : Nat) (s t : State) : Prop :=
  t.clk = s.clk ∧ t.mem = s.mem ∧ t.engs = s.engs ∧ (t.nbr n).copyWait = (s.nbr n).copyWait ∧
    ∀ f : Field, 364 ≤ f.row → f.row < 378 → t.get f = s.get f

theorem EntryKept.refl (n : Nat) (s : State) : EntryKept n s s := ⟨rfl, rfl, rfl, rfl, fun _ _ _ => rfl⟩

theorem EntryKept.trans {n : Nat} {s t u : State} (h : EntryKept n s t) (k : EntryKept n t u) : EntryKept n s u := by
  obtain ⟨clk, mem, engs, wait, config⟩ := h
  obtain ⟨clk', mem', engs', wait', config'⟩ := k
  exact ⟨clk'.trans clk, mem'.trans mem, engs'.trans engs, wait'.trans wait, fun f lo hi => (config' f lo hi).trans (config f lo hi)⟩

/-- A footprint that leaves mesh time, memory, the engines and the live configurations. -/
def Foot.keepsEntry (p : Foot) : Bool :=
  !p.comp 4 && !p.comp 2 && !p.comp 17 && (List.range 14).all fun k => !p.row (364 + k)

theorem EntryKept.of_follows {p : Foot} {n : Nat} {s t : State} (h : Follows p s t) (quiet : p.keepsEntry = true)
    (wait : (t.nbr n).copyWait = (s.nbr n).copyWait) : EntryKept n s t := by
  simp only [Foot.keepsEntry, Bool.and_eq_true, Bool.not_eq_true'] at quiet
  obtain ⟨⟨⟨clk, mem⟩, engs⟩, rows⟩ := quiet
  refine ⟨h.clk clk, h.mem mem, h.engs engs, wait, fun f lo hi => h.get f ?_⟩
  have out := List.all_eq_true.mp rows (f.row - 364) (List.mem_range.mpr (by omega))
  rw [Nat.add_sub_cancel' lo] at out
  simpa using out

theorem EntryKept.set (n : Nat) (s : State) {f : Field} (away : f.row < 364 ∨ 378 ≤ f.row) (v : Nat) : EntryKept n s (s.set f v) :=
  ⟨rfl, rfl, rfl, rfl, fun _ lo hi => State.get_set_row _ _ _ _ (by omega)⟩

theorem EntryKept.of_quiet {p : Foot} {n : Nat} {s t : State} (h : Follows p s t) (quiet : (p.keepsEntry && !p.comp 13) = true) : EntryKept n s t := by
  simp only [Bool.and_eq_true, Bool.not_eq_true'] at quiet
  exact .of_follows h quiet.1 (by rw [State.nbr_is h quiet.2])

/-- A frame that ends leaves the mark of every neighbour. -/
theorem State.finishFrame_copyWait (s : State) (n tag : Nat) (st : Status) (reason : Nat) :
    ((s.finishFrame n tag st reason).nbr n).copyWait = (s.nbr n).copyWait := by
  have le : Foot.le tallyRest tallyRest := Foot.le_refl _
  unfold State.finishFrame
  split
  · rfl
  · extract_lets left held tallied
    have kept : tallied.nbrs = left.nbrs := by
      have foot : Follows tallyRest left tallied :=
        have counted : Follows tallyRest left held := (Follows.refl _ _).set 378 rfl rfl
        Follows.ite (State.pmc_follows (le.sub rfl) (State.nbrStat_follows (le.sub rfl) counted)) counted
      exact foot.nbrs rfl
    have posted (l : List Nat) (e : Nat → RingEntry) (u : State) : (l.foldl (fun u i => u.postEntry (e i)) u).nbrs = u.nbrs :=
      List.foldlRecOn l _ (motive := fun t : State => t.nbrs = u.nbrs) rfl fun t h i _ => h
    have marks : (left.nbr n).copyWait = (s.nbr n).copyWait := by
      unfold left
      rw [State.nbr_updNbr]
    refine Eq.trans ?_ marks
    unfold State.nbr
    rw [posted]
    exact congrArg (fun x => (vget x n).copyWait) kept

theorem EntryKept.nbrClear (s : State) (n : Nat) : EntryKept n s (s.nbrClear n) := by
  obtain ⟨clk, mem, engs⟩ : (s.nbrClear n).clk = s.clk ∧ (s.nbrClear n).mem = s.mem ∧ (s.nbrClear n).engs = s.engs := by
    cases s
    exact ⟨rfl, rfl, rfl⟩
  refine ⟨clk, mem, engs, ?_, fun f _ hi => s.nbrClear_get n f (.inl hi)⟩
  unfold State.nbrClear State.propFromSeed
  dsimp only
  iterate 4 rw [State.nbr_set]
  rw [State.nbr_updNbr]
  rfl

theorem EntryKept.nbrReinit (s : State) (n : Nat) : EntryKept n s (s.nbrReinit n) := by
  unfold State.nbrReinit
  refine .trans (List.foldlRecOn _ _ (motive := EntryKept n s) (.refl n s) fun t h f _ => h.trans ?_) (.nbrClear _ n)
  exact .of_follows (State.finishFrame_follows (Foot.le_refl _) (Follows.refl _ t)) (by decide) (t.finishFrame_copyWait _ _ _ _)

/-- The shadow configuration, as it is copied. -/
theorem State.copyShadow_get (s : State) (n : Nat) :
    (s.copyShadow n).get (R.NBR_ADDR_short n) = s.get (R.SH_ADDR_short n) % 65536 ∧
      (s.copyShadow n).get (R.NBR_NODE_LO_node_id_lo n) = s.get (R.SH_NODE_LO_node_id_lo n) % 2 ^ 32 ∧
      (s.copyShadow n).get (R.NBR_CFG_enabled n) = s.get (R.SH_CFG_enabled n) % 2 := by
  unfold State.copyShadow
  simp [State.get_set_row]

/-- The configuration of an entry changes in a way that reinitialises it (R181). -/
def State.entryChanges (s : State) (n : Nat) : Bool :=
  s.get (R.NBR_NODE_LO_node_id_lo n) != s.get (R.SH_NODE_LO_node_id_lo n)
    || s.get (R.NBR_ADDR_short n) != s.get (R.SH_ADDR_short n) || s.get (R.NBR_ADDR_node_id_hi n) != s.get (R.SH_ADDR_node_id_hi n)
    || (!s.on (R.NBR_CFG_enabled n) && s.on (R.SH_CFG_enabled n))

/-- What follows the copy itself: the live state starts over or not, and a disabled entry is told so. -/
def State.afterCopy (s : State) (n : Nat) (changed : Bool) : State :=
  let s := if changed then s.nbrReinit n else if (s.nbr n).propSampled then s else s.propFromSeed n
  let s := if s.on (R.NBR_CFG_enabled n) then s else s.set (R.NBR_LIVE_state n) 0
  (s.refreshSpent n true).refreshFunc

/-- The last copy of a commit ends it (R182). -/
def State.commitEnds (s : State) : State :=
  if (List.range 64).any fun k => (s.nbr k).copyWait then s else (s.set R.MAC_NBR_COMMIT_pending 0).fire 72

theorem EntryKept.afterCopy (s : State) (n : Nat) (changed : Bool) : EntryKept n s (s.afterCopy n changed) := by
  unfold State.afterCopy
  extract_lets fresh told
  have hfresh : EntryKept n s fresh := by
    unfold fresh
    split
    · exact .nbrReinit s n
    · split
      · exact .refl n s
      · exact .of_quiet (State.propFromSeed_follows (Foot.le_refl _) (Follows.refl _ _)) (by decide)
  have htold : EntryKept n fresh told := by
    unfold told
    split
    · exact .refl n fresh
    · exact .set n fresh (.inr (Nat.le_of_ble_eq_true rfl)) 0
  refine (hfresh.trans htold).trans (.trans (t := told.refreshSpent n true) ?_ ?_)
  · exact .of_quiet (State.refreshSpent_follows (Foot.le_refl _) (Follows.refl _ _)) (by decide)
  · exact .of_quiet (State.refreshFunc_is _) (by decide)

theorem EntryKept.commitEnds (s : State) (n : Nat) : EntryKept n s s.commitEnds := by
  unfold State.commitEnds
  split
  · exact .refl n s
  · exact .trans (.set n s (.inl (by decide)) 0) (.of_quiet (State.fire_is _ _) (by decide))

/-- Mesh time stands at a window boundary, not before the commit's first one, and neighbour n waits no more. -/
def State.copyTime (s : State) (n : Nat) : State := (s.reach (s.nbr n).copyFrom).toWindow.updNbr n fun x => { x with copyWait := false }

theorem State.copyTime_mesh (s : State) (n : Nat) :
    (s.copyTime n).clk.mesh % 1280 = 0 ∧ (s.nbr n).copyFrom ≤ (s.copyTime n).clk.mesh ∧ s.clk.mesh ≤ (s.copyTime n).clk.mesh := by
  have mesh : (s.copyTime n).clk.mesh =
      max (max s.clk.mesh (s.nbr n).copyFrom) ((max s.clk.mesh (s.nbr n).copyFrom + 1280 - 1) / 1280 * 1280) := rfl
  rw [mesh]
  omega

/-- An idle neighbour takes its shadow, which no poison spoils. -/
theorem State.neighbourCopy_eq {s : State} {n : Nat} (waits : (s.nbr n).copyWait = true) (idle : s.nbrIdle n = true) (up : s.hubUp = true)
    (clean : s.poisonedIn (shadowAddr n) 64 = false) :
    s.neighbourCopy n = (((s.copyTime n).copyShadow n).afterCopy n ((s.copyTime n).entryChanges n)).commitEnds := by
  have go : ¬ (!(s.nbr n).copyWait || !s.nbrIdle n || !s.hubUp) = true := by simp [waits, idle, up]
  have clean' : ¬ (s.copyTime n).poisonedIn (shadowAddr n) 64 = true := by
    rw [show (s.copyTime n).poisonedIn (shadowAddr n) 64 = s.poisonedIn (shadowAddr n) 64 from rfl, clean]
    exact Bool.false_ne_true
  unfold State.neighbourCopy
  rw [if_neg go]
  exact congrArg State.commitEnds (if_neg clean')

/-- What the copy leaves: a neighbour that waits no more, mesh time at a boundary, the shadow live, and the engines and memory as they were. -/
theorem State.neighbourCopy_spec {s : State} {n : Nat} (waits : (s.nbr n).copyWait = true) (idle : s.nbrIdle n = true) (up : s.hubUp = true)
    (clean : s.poisonedIn (shadowAddr n) 64 = false) :
    ((s.neighbourCopy n).nbr n).copyWait = false ∧
      ((s.neighbourCopy n).clk.mesh % 1280 = 0 ∧ (s.nbr n).copyFrom ≤ (s.neighbourCopy n).clk.mesh ∧ s.clk.mesh ≤ (s.neighbourCopy n).clk.mesh) ∧
      ((s.neighbourCopy n).get (R.NBR_ADDR_short n) = s.get (R.SH_ADDR_short n) % 65536 ∧
        (s.neighbourCopy n).get (R.NBR_NODE_LO_node_id_lo n) = s.get (R.SH_NODE_LO_node_id_lo n) % 2 ^ 32 ∧
        (s.neighbourCopy n).get (R.NBR_CFG_enabled n) = s.get (R.SH_CFG_enabled n) % 2) ∧
      (s.neighbourCopy n).engs = s.engs ∧ (s.neighbourCopy n).mem = s.mem := by
  have live := (s.copyTime n).copyShadow_get n
  have copied : Follows State.copyShadow_foot (s.copyTime n) ((s.copyTime n).copyShadow n) :=
    State.copyShadow_follows (Foot.le_refl _) (Follows.refl _ _)
  have kept := (EntryKept.afterCopy ((s.copyTime n).copyShadow n) n ((s.copyTime n).entryChanges n)).trans (.commitEnds _ _)
  rw [← State.neighbourCopy_eq waits idle up clean] at kept
  obtain ⟨clk, mem, engs, wait, config⟩ := kept
  refine ⟨?_, ?_, ?_, engs.trans (copied.engs rfl), mem.trans (copied.mem rfl)⟩
  · rw [wait, State.nbr_is copied rfl]
    exact congrArg NbrSt.copyWait (State.nbr_updNbr _ _ _)
  · rw [clk, copied.clk rfl]
    exact s.copyTime_mesh n
  · rw [config _ (Nat.le_of_ble_eq_true rfl) (Nat.le_of_ble_eq_true rfl), config _ (Nat.le_of_ble_eq_true rfl) (Nat.le_of_ble_eq_true rfl),
      config _ (Nat.le_of_ble_eq_true rfl) (Nat.le_of_ble_eq_true rfl)]
    exact live

/-! ### The claim -/

theorem State.regWrite_nbrCommit (s : State) (deck posted : Bool) (v : Nat) : s.regWrite deck posted 0x02090000 v = s.nbrCommitWrite v := rfl

/-- Settles O34, by what a step, a silent parent, a commit and a copy each leave of mesh time, the crossings and the neighbours. -/
theorem timeAndNeighbours : Obligations.TimeAndNeighbours := by
  unfold Obligations.TimeAndNeighbours
  intro s ini data n ticks who
  refine ⟨fun waits up idle window => ⟨_, rfl, ?_⟩, fun up hardware => ⟨_, rfl, ?_⟩, fun h pending free go sel => ?_,
    fun waits idle up clean => ⟨_, rfl, ?_⟩⟩
  · rw [State.timeStep_eq waits up idle window]
    generalize hu : (s.stepped ticks).stepWork s.clk.mesh ticks who = u
    have work : Follows stepFoot (s.stepped ticks) u := hu ▸ State.stepWork_is _ _ _ _
    have told := work.trans u.tellStepped_is
    have clears := State.stepWork_clears (s := s.stepped ticks) idle s.clk.mesh ticks who
    obtain ⟨tells, xng⟩ := u.tellStepped_tells
    rw [hu, ← xng] at clears
    rw [told.clk rfl]
    exact ⟨rfl, rfl, tells, clears.1, clears.2, fun g => told.engs_eq rfl g⟩
  · have foot : Follows State.parentSilent_foot s s.parentSilent := State.parentSilent_follows (Foot.le_refl _) (Follows.refl _ _)
    obtain ⟨locked, fires, slew⟩ := State.timeUnlock_spec (s := s.reach (s.clk.lastParent + 2 * cycleTicks)) up
    rw [← State.parentSilent_eq up hardware] at locked fires slew
    exact ⟨locked, fires, slew, foot.sameFields rfl (by decide), foot.sameBytes rfl⟩
  · have foot : Follows State.nbrCommitWrite_foot s (s.nbrCommitWrite data.toNat).1 := State.nbrCommitWrite_follows (Foot.le_refl _) (Follows.refl _ _)
    have e := State.nbrCommitWrite_go pending free go
    obtain ⟨marked, commits⟩ := State.nbrCommit_spec n.isLt sel ((s.now / windowTicks + 1) * windowTicks)
    rw [e] at foot
    generalize s.nbrCommit ((s.now / windowTicks + 1) * windowTicks) = u at *
    exact answers_hubWrite rfl (hubReg_timetable (by decide) (by decide) (by decide)) h ((s.regWrite_nbrCommit _ _ _).trans e)
      ⟨marked, commits, foot.sameFields rfl (by decide), foot.sameBytes rfl⟩
  · obtain ⟨copied, mesh, config, others⟩ := State.neighbourCopy_spec waits idle up clean
    obtain ⟨multiple, first, later⟩ := mesh
    obtain ⟨short, node, enabled⟩ := config
    obtain ⟨engs, mem⟩ := others
    exact ⟨copied, multiple, first, later, short, node, enabled, fun g => congrArg (vget · g) engs, State.byte_of_mem mem⟩

end Sys2Proof.Machine
end

section
/-! The cipher pipes: entry of frames to send and of received ones, the count of a key, the check value, the release of a verified frame and its
replay window, and the claim. -/

namespace Sys2Proof.Machine

open Sys2Proof

/-! ### Pipes (R232) -/

theorem State.pipe_updPipe (s : State) (p : Nat) (f : Pipe → Pipe) : (s.updPipe p f).pipe p = f (s.pipe p) := vget_vset_same _ _ _

theorem State.pipe_updPipe_ne (s : State) (f : Pipe → Pipe) {p q : Nat} (ne : q % 8 ≠ p % 8) : (s.updPipe p f).pipe q = s.pipe q :=
  vget_vset_ne _ _ _ _ ne

theorem State.pipe_is {p : Foot} {s t : State} (h : Follows p s t) (quiet : p.comp 15 = false) (q : Nat) : t.pipe q = s.pipe q :=
  congrArg (vget · q) (h.pipes quiet)

/-- A pipe that begins a frame keeps the ones it has, and the key store keeps its keys (R237, R247). -/
theorem State.pipeBegin_keeps (s : State) (p : Nat) (clear : Bool) :
    ((s.pipeBegin p clear).pipe p).frames = (s.pipe p).frames ∧ (s.pipeBegin p clear).sec.slots = s.sec.slots := by
  unfold State.pipeBegin State.refreshMasking
  extract_lets level armed drawn
  obtain ⟨pipes, slots⟩ : drawn.pipes = armed.pipes ∧ drawn.sec.slots = s.sec.slots := by
    unfold drawn
    split
    · exact ⟨rfl, rfl⟩
    · split <;> exact ⟨rfl, rfl⟩
  refine ⟨?_, slots⟩
  rw [show (drawn.set _ _).pipe p = armed.pipe p from congrArg (vget · p) pipes]
  unfold armed
  rw [State.pipe_updPipe]

theorem State.keySlot_pipeBegin (s : State) (p : Nat) (clear : Bool) (k : Nat) : (s.pipeBegin p clear).keySlot k = s.keySlot k := by
  unfold State.keySlot
  rw [(s.pipeBegin_keeps p clear).2]

/-- What an invocation may change once its count stands: the slot's state and its events. -/
def thresholdFoot : Foot := ⟨0, 0x160000000000000000000000001000000000000000000⟩

/-- An invocation counts, and at the limit the slot is SPENT (R241). -/
theorem State.invokeKey_spec {s : State} {k : Nat} {key : KeySlot} (slot : s.keySlot k = some key) :
    (s.invokeKey k).get (R.SEC_SLOT1_count k) = min (key.count + 1) (2 ^ 32 - 1) ∧
      (key.limit ≤ key.count + 1 → (s.invokeKey k).get (R.SEC_SLOT0_state k) = 3) := by
  unfold State.invokeKey
  split
  next none_ => cases none_.symm.trans slot
  next held =>
  obtain rfl := Option.some.inj (held.symm.trans slot)
  extract_lets c sec counted shown warned
  have le : Foot.le thresholdFoot thresholdFoot := Foot.le_refl _
  have warns : Follows thresholdFoot shown warned :=
    Follows.ite (State.fire_follows (le.sub rfl) (((Follows.refl _ _).set 176 rfl rfl).setBit 173 rfl rfl))
      (Follows.refl _ _)
  have count : shown.get (R.SEC_SLOT1_count k) = min c (2 ^ 32 - 1) :=
    (State.get_set_same _ _ _).trans (Nat.mod_eq_of_lt (Nat.lt_of_le_of_lt (Nat.min_le_right _ _) (show 2 ^ 32 - 1 < 2 ^ 32 by decide)))
  constructor
  · refine Eq.trans ?_ count
    refine Follows.row (p := thresholdFoot) ?_ 178 rfl (by decide)
    exact Follows.ite (State.fire_follows (le.sub rfl) ((warns.set 176 rfl rfl).setBit 174 rfl rfl)) warns
  · intro spent
    rw [if_pos spent, State.fire_get _ _ _ (Nat.ne_of_beq_eq_false rfl)]
    exact (((Follows.refl ⟨0, 2 ^ 174⟩ _).setBit 174 rfl rfl).row 176 rfl (by decide)).trans (State.get_set_same _ _ _)

/-! ### A frame enters a pipe (R232, R241) -/

/-- A frame stands behind the others of its pipe, and the reports of spent keys follow. -/
def State.joinPipe (s : State) (p n : Nat) (f : PipeFrame) : State := (s.updPipe p fun x => { x with frames := x.frames ++ [f] }).refreshSpent n false

theorem State.joinPipe_frames (s : State) (p n : Nat) (f : PipeFrame) : ((s.joinPipe p n f).pipe p).frames = (s.pipe p).frames ++ [f] := by
  unfold State.joinPipe
  rw [State.pipe_is (State.refreshSpent_follows (Foot.le_refl _) (Follows.refl _ _)) rfl, State.pipe_updPipe]

/-- The entry may change the pipes and the reports of spent keys. -/
def joinPipeFoot : Foot := ⟨0x8000, State.refreshSpent_foot.rows⟩

theorem State.joinPipe_is (s : State) (p n : Nat) (f : PipeFrame) : Follows joinPipeFoot s (s.joinPipe p n f) :=
  have le : Foot.le joinPipeFoot joinPipeFoot := Foot.le_refl _
  State.refreshSpent_follows (le.sub rfl) (State.updPipe_follows (le.sub rfl) (Follows.refl _ _))

/-- The frame of a transmit crossing as it enters a pipe: its contents are built at the lead (R134). -/
def sentFrame (c : Crossing) (slot : Nat) (key : Option Nat) : PipeFrame :=
  { rx := false, nbr := c.d.nbr, slot := slot, segs := 0, keySlot := key, hdr := [], body := [], lead := 16 * c.b0, snr := 0, xid := c.d.xid,
    timed := false, ok := none, pipe := none }

section Sent

variable {s : State} {slot p : Nat} {c : Crossing} (next : s.txCrossing slot = some c) (room : s.pipeFor 1 = some p)
  (chosen : (c.txTag.isSome || c.ackOnly) = true) (fresh : s.txPiped slot = false)
include next room chosen fresh

/-- A frame in cipher bypass enters without a key (R29, R232). -/
theorem State.txPipe_clear (clear : s.cipherBypass c.d.nbr = true) :
    s.txPipe slot = ((s.pipeBegin p true).joinPipe p c.d.nbr (sentFrame c slot none)).refreshVotes := by
  have enters : ¬ ((c.txTag.isNone && !c.ackOnly) || s.txPiped slot) = true := by
    rw [fresh]
    cases h : c.txTag <;> simp_all
  unfold State.txPipe
  rw [next, room]
  dsimp only
  rw [if_neg enters, clear, if_neg (by simp), if_pos rfl, if_pos rfl]
  rfl

/-- Any other enters under its neighbour's transmit slot, whose count rises (R232, R241). -/
theorem State.txPipe_keyed (keyed : s.cipherBypass c.d.nbr = false) (flows : s.cipherHold = false)
    (usable : s.slotUsable c.d.nbr (s.txKeySlot c.d.nbr) = true) :
    s.txPipe slot = (((s.pipeBegin p false).invokeKey (s.txKeySlot c.d.nbr)).joinPipe p c.d.nbr
      (sentFrame c slot (some (s.txKeySlot c.d.nbr)))).refreshVotes := by
  have enters : ¬ ((c.txTag.isNone && !c.ackOnly) || s.txPiped slot) = true := by
    rw [fresh]
    cases h : c.txTag <;> simp_all
  unfold State.txPipe
  rw [next, room]
  dsimp only
  rw [if_neg enters, keyed, usable, flows, if_neg (by simp), if_neg (by simp), if_neg (by simp)]
  rfl

end Sent

theorem State.invokeKey_frames (s : State) (k p : Nat) : ((s.invokeKey k).pipe p).frames = (s.pipe p).frames := by
  rw [State.pipe_is (State.invokeKey_follows (Foot.le_refl _) (Follows.refl _ s)) rfl]

/-- The key under which a received frame is opened, where a usable slot matches it. -/
def State.openKey (s : State) (f : PipeFrame) : Option Nat :=
  if (hdrFlags f.hdr).testBit 4 || s.cipherHold then none else (s.rxKeySlot f.nbr (hdrKey f.hdr)).filter fun k => s.slotUsable f.nbr k

/-- A received frame leaves those that wait, and its pipe begins. -/
def State.taken (s : State) (p : Nat) (f : PipeFrame) : State :=
  { s with phy := { s.phy with waiting := s.phy.waiting.erase f } }.pipeBegin p ((hdrFlags f.hdr).testBit 4)

/-- An invocation of a key, where there is one. -/
def State.invokeSome (s : State) : Option Nat → State
  | some k => s.invokeKey k
  | none => s

/-- What the entry of a received frame may change once its pipe has begun, its own pipe's list apart. -/
def openFoot : Foot := ⟨0x4004000, State.invokeKey_foot.rows ||| State.pmcAt_foot.rows⟩

theorem State.opened_is (s : State) (k : Option Nat) (p n : Nat) : Follows openFoot s ((s.invokeSome k).pmcAt 0x0A0 p n none) := by
  have le : Foot.le openFoot openFoot := Foot.le_refl _
  refine State.pmcAt_follows (le.sub rfl) ?_
  cases k with
  | none => exact Follows.refl _ _
  | some k => exact State.invokeKey_follows (le.sub rfl) (Follows.refl _ _)

/-- With no frame to send the oldest waiting frame of a slot enters the pipe it was given, or one with room (R232). -/
theorem State.rxPipe_eq {s : State} {slot p : Nat} {f : PipeFrame} (waits : s.phy.waiting.find? (fun f => f.slot == slot) = some f)
    (quiet : ∀ i : Nat, s.txCrossing i = none) (into : (f.pipe.filter fun p => s.domRuns 12 && !(s.pipe p).inReset).or (s.pipeFor f.segs) = some p) :
    s.rxPipe slot = ((((s.taken p f).invokeSome (s.openKey f)).pmcAt 0x0A0 p ((hdrLen f.hdr + 15) / 16) none).joinPipe p f.nbr
      { f with keySlot := s.openKey f, pipe := none }) := by
  unfold State.rxPipe
  rw [waits]
  dsimp only
  rw [into]
  simp only [quiet]
  rw [if_neg (by simp)]
  rfl

/-- The only waiting frame of a slot enters its pipe, and none waits any more. -/
theorem State.rxPipe_spec {s : State} {slot p : Nat} {f : PipeFrame} (only : s.phy.waiting = [f]) (own : f.slot = slot)
    (quiet : ∀ i : Nat, s.txCrossing i = none) (into : (f.pipe.filter fun p => s.domRuns 12 && !(s.pipe p).inReset).or (s.pipeFor f.segs) = some p) :
    (s.rxPipe slot).phy.waiting = [] ∧
      ((s.rxPipe slot).pipe p).frames = (s.pipe p).frames ++ [{ f with keySlot := s.openKey f, pipe := none }] := by
  have waits : s.phy.waiting.find? (fun f => f.slot == slot) = some f := by rw [only]; simp [own]
  have begun : Follows State.pipeBegin_foot { s with phy := { s.phy with waiting := s.phy.waiting.erase f } } (s.taken p f) :=
    State.pipeBegin_follows (Foot.le_refl _) (Follows.refl _ _)
  have opened := (s.taken p f).opened_is (s.openKey f) p ((hdrLen f.hdr + 15) / 16)
  rw [State.rxPipe_eq waits quiet into]
  constructor
  · rw [(State.joinPipe_is _ _ _ _).phy rfl, opened.phy rfl, begun.phy rfl]
    simp [only]
  · rw [State.joinPipe_frames, State.pipe_is opened rfl]
    unfold State.taken
    rw [(State.pipeBegin_keeps _ _ _).1]
    rfl

/-! ### The check value (R257) -/

theorem State.get_bump (s : State) (f : Field) : (s.bump f).get f = min (s.get f + 1) (2 ^ f.width - 1) := by
  have below : min (s.get f + 1) (2 ^ f.width - 1) < 2 ^ f.width := by
    have := Nat.two_pow_pos f.width
    omega
  exact (State.get_set_same _ _ _).trans (Nat.mod_eq_of_lt below)

/-- A verified frame stands with its outcome where it stood. -/
def State.markFrame (s : State) (p : Nat) (f g : PipeFrame) : State :=
  s.updPipe p fun x => { x with frames := x.frames.map fun y => if y == f then g else y }

/-- The check value that a frame in cipher bypass carries behind its contents, and the one that they give. -/
def heldCheck (f : PipeFrame) : Nat := ofBytes ((f.body.drop (hdrLen f.hdr)).take 4)
def rightCheck (f : PipeFrame) : Nat := frameCheck (hdrDst f.hdr) (hdrSrc f.hdr) (hdrSeq f.hdr) f.xid (f.body.take (hdrLen f.hdr))

/-- The plaintext of a frame in cipher bypass, verified. -/
def passed (f : PipeFrame) : PipeFrame := { f with ok := some true, body := f.body.take (hdrLen f.hdr) }

/-- A frame in cipher bypass that verified: its outcome, and its time sample (R175). -/
def State.clearPass (s : State) (p : Nat) (f : PipeFrame) : State :=
  let plain := (passed f).body
  let block := if (hdrFlags f.hdr).testBit 3 && 24 ≤ plain.length then plain.take 24 else []
  let s := s.markFrame p f (passed f)
  if f.timed then s.propSample f.nbr (hdrTime f.hdr) f.lead block else s.timeSample f.nbr (hdrTime f.hdr) f.lead block

/-- One whose check value is wrong: its outcome, its pipe's count, source 112 and its neighbour's statistic. -/
def State.clearFail (s : State) (p : Nat) (f : PipeFrame) : State :=
  (((((s.markFrame p f { f with ok := some false, body := [] }).pmc 0x0A1 p).bump (R.CRC_INL_FAIL_count p)).fire 112).nbrStat f.nbr 4)

/-- What comes after the outcome: the release, the votes and the neighbour's idle instant. -/
def State.afterTag (s : State) (n : Nat) : State := ((s.releaseFrames n 256).refreshVotes).nbrPoke n

section Clear

variable {s : State} {p : Nat} {f : PipeFrame} (runs : s.domRuns 12 = true) (oldest : (s.pipe p).frames.find? (fun x => x.rx && x.ok.isNone) = some f)
  (clear : (hdrFlags f.hdr).testBit 4 = true) (checked : (hdrFlags f.hdr).testBit 5 = false) (whole : hdrLen f.hdr + 4 ≤ f.body.length)
include runs oldest clear checked whole

theorem State.tagVerified_clear :
    s.tagVerified p = (if heldCheck f = rightCheck f then s.clearPass p f else s.clearFail p f).afterTag f.nbr := by
  have four : ((f.body.drop (hdrLen f.hdr)).take 4).length = 4 := by simp; omega
  unfold State.tagVerified heldCheck rightCheck
  simp only [runs, Bool.and_true, oldest, clear, checked, if_true, List.length_nil, Nat.add_zero, List.append_nil, Bool.true_or, Bool.false_or, four,
    beq_self_eq_true, Bool.true_and]
  by_cases right : ofBytes ((f.body.drop (hdrLen f.hdr)).take 4) =
      frameCheck (hdrDst f.hdr) (hdrSrc f.hdr) (hdrSeq f.hdr) f.xid (f.body.take (hdrLen f.hdr))
  · rw [if_pos right, if_pos (beq_iff_eq.mpr right)]
    rfl
  · have wrong := beq_eq_false_iff_ne.mpr right
    rw [if_neg right, wrong, if_neg Bool.false_ne_true, if_neg Bool.false_ne_true]
    rfl

end Clear

/-- After the release, the votes and the idle instant leave most registers. -/
theorem State.afterTag_get (s : State) (n k : Nat) {f : Field} (hk : f.row = k) (poke : State.nbrPoke_foot.row k = false)
    (votes : State.refreshVotes_foot.row k = false) : (s.afterTag n).get f = (s.releaseFrames n 256).get f :=
  ((State.nbrPoke_follows (Foot.le_refl _) (Follows.refl _ _)).row k hk poke).trans ((State.refreshVotes_is _).row k hk votes)

/-- What follows the outcome leaves the count of wrong check values. -/
theorem State.afterTag_count (s : State) (n p : Nat) : (s.afterTag n).get (R.CRC_INL_FAIL_count p) = s.get (R.CRC_INL_FAIL_count p) :=
  (s.afterTag_get n 145 rfl (by decide) (by decide)).trans
    ((State.releaseFrames_follows (Foot.le_refl _) (Follows.refl _ _)).row 145 rfl (by decide))

/-- A wrong check value counts against the pipe. -/
theorem State.clearFail_count (s : State) (p : Nat) (f : PipeFrame) :
    (s.clearFail p f).get (R.CRC_INL_FAIL_count p) = min (s.get (R.CRC_INL_FAIL_count p) + 1) (2 ^ 32 - 1) := by
  unfold State.clearFail
  rw [(State.nbrStat_follows (Foot.le_refl _) (Follows.refl _ _)).row 145 (by rfl) (by decide),
    (State.fire_is _ _).row 145 (by rfl) (by decide), State.get_bump,
    (State.pmc_follows (Foot.le_refl _) (Follows.refl _ _)).row 145 (by rfl) (by decide)]
  rfl

/-! ### A neighbour's received frames (R18, R232) -/

/-- The received frames of a neighbour in one pipe. -/
def State.rxIn (s : State) (n p : Nat) : List PipeFrame := (s.pipe p).frames.filter fun f => f.rx && f.nbr == n

theorem State.rxIn_of_pipe {s t : State} {n p : Nat} (h : t.pipe p = s.pipe p) : t.rxIn n p = s.rxIn n p :=
  congrArg (fun x : Pipe => x.frames.filter fun f : PipeFrame => f.rx && f.nbr == n) h

theorem State.rxIn_updPipe (s : State) (n p : Nat) (g : Pipe → Pipe) :
    (s.updPipe p g).rxIn n p = (g (s.pipe p)).frames.filter fun f => f.rx && f.nbr == n :=
  congrArg (fun x : Pipe => x.frames.filter fun f : PipeFrame => f.rx && f.nbr == n) (s.pipe_updPipe p g)

/-- Pipe p alone holds received frames of a neighbour, and none waits. -/
def State.rxOnlyIn (s : State) (n p : Nat) : Prop :=
  (s.phy.waiting.filter fun f => f.nbr == n) = [] ∧ ∀ q : Nat, q < 8 → q ≠ p → s.rxIn n q = []

/-- Of the values along a range, a list that is empty elsewhere gives its one part. -/
theorem flatMap_range_only {α : Type} {F : Nat → List α} {n p : Nat} (hp : p < n) (others : ∀ q : Nat, q < n → q ≠ p → F q = []) :
    (List.range n).flatMap F = F p := by
  induction n with
  | zero => exact absurd hp (Nat.not_lt_zero p)
  | succ n ih =>
    rw [List.range_succ, List.flatMap_append, List.flatMap_singleton]
    rcases Nat.lt_succ_iff_lt_or_eq.mp hp with lt | rfl
    · rw [ih lt fun q hq => others q (Nat.lt_succ_of_lt hq), others n (Nat.lt_succ_self n) (by omega), List.append_nil]
    · have none_ : (List.range p).flatMap F = [] :=
        List.flatMap_eq_nil_iff.mpr fun q hq => others q (Nat.lt_succ_of_lt (List.mem_range.mp hq)) (Nat.ne_of_lt (List.mem_range.mp hq))
      rw [none_, List.nil_append]

theorem State.rxFramesOf_in {s : State} {n p : Nat} (hp : p < 8) (only : s.rxOnlyIn n p) : s.rxFramesOf n = (s.rxIn n p).map fun f => (p, f) := by
  obtain ⟨waiting, others⟩ := only
  unfold State.rxFramesOf
  rw [waiting, List.map_nil, List.nil_append]
  exact flatMap_range_only hp fun q hq ne => List.map_eq_nil_iff.mpr (others q hq ne)

/-- Where a neighbour has one frame, its pipe alone holds frames of it, and holds that one. -/
theorem State.rxFramesOf_one {s : State} {n p : Nat} {f : PipeFrame} (hp : p < 8) (one : s.rxFramesOf n = [(p, f)]) :
    s.rxOnlyIn n p ∧ s.rxIn n p = [f] := by
  have only : s.rxOnlyIn n p := by
    constructor
    · refine List.eq_nil_iff_forall_not_mem.mpr fun g hg => ?_
      have waits : (8, g) ∈ s.rxFramesOf n := List.mem_append_left _ (List.mem_map_of_mem hg)
      rw [one, List.mem_singleton] at waits
      exact absurd (congrArg Prod.fst waits) (Nat.ne_of_gt hp)
    · refine fun q hq ne => List.eq_nil_iff_forall_not_mem.mpr fun g hg => ?_
      have there : (q, g) ∈ s.rxFramesOf n :=
        List.mem_append_right _ (List.mem_flatMap.mpr ⟨q, List.mem_range.mpr hq, List.mem_map_of_mem hg⟩)
      rw [one, List.mem_singleton] at there
      exact ne (congrArg Prod.fst there)
  refine ⟨only, ?_⟩
  have whole := (State.rxFramesOf_in hp only).symm.trans one
  obtain ⟨g, alone, same⟩ := List.map_eq_singleton_iff.mp whole
  rw [alone, (Prod.mk.inj same).2]

theorem State.rxOnlyIn_of {s t : State} {n p : Nat} (h : s.rxOnlyIn n p) (phy : t.phy = s.phy)
    (others : ∀ q : Nat, q < 8 → q ≠ p → t.pipe q = s.pipe q) : t.rxOnlyIn n p := by
  obtain ⟨waiting, empty⟩ := h
  exact ⟨phy ▸ waiting, fun q hq ne => (State.rxIn_of_pipe (others q hq ne)).trans (empty q hq ne)⟩

theorem State.rxOnlyIn_updPipe {s : State} {n p : Nat} (h : s.rxOnlyIn n p) (hp : p < 8) (g : Pipe → Pipe) : (s.updPipe p g).rxOnlyIn n p :=
  State.rxOnlyIn_of h rfl fun q hq ne => s.pipe_updPipe_ne g (by omega)

/-- A list of one member, marked, has the mark as its one member. -/
theorem filter_mark {l : List PipeFrame} {P : PipeFrame → Bool} {f g : PipeFrame} (one : l.filter P = [f]) (same : P g = P f) :
    (l.map fun y => if y == f then g else y).filter P = [g] := by
  rw [List.filter_map]
  have keeps : (P ∘ fun y => if y == f then g else y) = P := by
    funext y
    by_cases e : y = f
    · simp [e, same]
    · simp [e]
  rw [keeps, one]
  simp

/-- Without its one member a list has none. -/
theorem filter_erase_one {l : List PipeFrame} {P : PipeFrame → Bool} {g : PipeFrame} (one : l.filter P = [g]) : (l.erase g).filter P = [] := by
  rw [← List.erase_filter, one]
  simp

/-- The mark of a neighbour's one frame leaves the mark as its one frame. -/
theorem State.rxIn_markFrame {s : State} {n p : Nat} {f g : PipeFrame} (one : s.rxIn n p = [f]) (rx : g.rx = f.rx) (nbr : g.nbr = f.nbr) :
    (s.markFrame p f g).rxIn n p = [g] :=
  (s.rxIn_updPipe n p _).trans (filter_mark one (by rw [rx, nbr]))

/-! ### The release of a verified frame (R166, R167) -/

/-- A frame leaves its pipe. -/
def State.dropFrame (s : State) (p : Nat) (f : PipeFrame) : State := s.updPipe p fun x => { x with frames := x.frames.erase f }

/-- A neighbour's one frame, verified, with none of it ahead in the PHY, is released, and no other follows. -/
theorem State.releaseFrames_one {s : State} {n p : Nat} {g : PipeFrame} (hp : p < 8) (only : s.rxOnlyIn n p) (one : s.rxIn n p = [g])
    (first : s.aheadInPhy n g.lead = false) (good : g.ok = some true) (k : Nat) :
    s.releaseFrames n (k + 1) = (s.dropFrame p g).acceptFrame p g := by
  have foot : Follows State.acceptFrame_foot (s.dropFrame p g) ((s.dropFrame p g).acceptFrame p g) :=
    State.acceptFrame_follows (Foot.le_refl _) (Follows.refl _ _)
  have gone : ((s.dropFrame p g).acceptFrame p g).rxFramesOf n = [] := by
    rw [State.rxFramesOf_in hp (State.rxOnlyIn_of (State.rxOnlyIn_updPipe only hp _) (foot.phy rfl) fun q _ _ => State.pipe_is foot rfl q)]
    have left : (s.dropFrame p g).rxIn n p = [] := (s.rxIn_updPipe n p _).trans (filter_erase_one one)
    rw [State.rxIn_of_pipe (State.pipe_is foot rfl p), left, List.map_nil]
  have rest : ((s.dropFrame p g).acceptFrame p g).releaseFrames n k = (s.dropFrame p g).acceptFrame p g :=
    State.releaseFrames_idle (by rw [gone]; exact fun _ h => absurd h List.not_mem_nil) k
  refine Eq.trans ?_ rest
  rw [State.releaseFrames, State.rxFramesOf_in hp only, one]
  simp only [List.map_cons, List.map_nil, List.foldl_cons, List.foldl_nil]
  rw [first, if_neg Bool.false_ne_true, good]
  rfl

theorem ofBytes_lt (l : List Byte) : ofBytes l < 256 ^ l.length := by
  induction l with
  | nil => exact Nat.one_pos
  | cons b l ih =>
    have := b.isLt
    rw [ofBytes, List.length_cons, pow_succ]
    omega

theorem hdrSeq_lt (hdr : List Byte) : hdrSeq hdr < 2 ^ 32 := by
  refine (ofBytes_lt _).trans_le ?_
  exact Nat.pow_le_pow_right (show 0 < 256 by decide) (List.length_take_le 4 _)

/-- What an accepted frame may change once its window stands: statistics and counters. -/
def tellFoot : Foot := ⟨0x4002000, State.nbrStat_foot.rows ||| State.pmc_foot.rows⟩

/-- The first frame of a neighbour, one that only acknowledges and bears no block, sets the replay window (R167). -/
theorem State.acceptFrame_first {s : State} {p : Nat} {g : PipeFrame} (cast : hdrDst g.hdr ≠ 0xFFFF) (ack : hdrCtl g.hdr % 16 = 1)
    (bare : (hdrFlags g.hdr).testBit 3 = false) (new : s.get (R.NBR_LIVE_rx_any g.nbr) = 0) :
    (s.acceptFrame p g).get (R.NBR_RX_HIGH_h g.nbr) = hdrSeq g.hdr ∧ (s.acceptFrame p g).get (R.NBR_LIVE_rx_any g.nbr) = 1 := by
  have single : (hdrDst g.hdr == 0xFFFF) = false := beq_eq_false_iff_ne.mpr cast
  have unseen : s.on (R.NBR_LIVE_rx_any g.nbr) = false := State.off_of_zero new
  obtain ⟨u, e, follows⟩ : ∃ u : State,
      u = ((s.set (R.NBR_RX_HIGH_h g.nbr) (hdrSeq g.hdr)).set2 (R.NBR_RX_MAP_map g.nbr) 1).set (R.NBR_LIVE_rx_any g.nbr) 1 ∧
      Follows tellFoot u (s.acceptFrame p g) := by
    refine ⟨_, rfl, ?_⟩
    have le : Foot.le tellFoot tellFoot := Foot.le_refl _
    unfold State.acceptFrame replayCheck
    simp only [single, ack, bare, unseen]
    exact State.pmc_follows (le.sub rfl) (State.nbrStat_follows (le.sub rfl) (State.updNbr_follows (le.sub rfl) (Follows.refl _ _)))
  rw [follows.row 387 (by rfl) (by decide), follows.row 381 (by rfl) (by decide), e]
  unfold State.set2
  refine ⟨?_, State.get_set_same _ _ _⟩
  rw [State.get_set_row _ _ _ _ (by simp), State.get_set_row _ _ _ _ (by simp), State.get_set_row _ _ _ _ (by simp), State.get_set_same]
  exact Nat.mod_eq_of_lt (hdrSeq_lt _)

/-! ### A frame that verifies (R166, R175) -/

/-- What the time sample of a frame may change: neither frames, nor the PHY, nor the neighbour's window. -/
def sampleFoot : Foot := ⟨State.propSample_foot.comps ||| State.timeSample_foot.comps, State.propSample_foot.rows ||| State.timeSample_foot.rows⟩

theorem State.clearPass_is (s : State) (p : Nat) (f : PipeFrame) : Follows sampleFoot (s.markFrame p f (passed f)) (s.clearPass p f) :=
  have le : Foot.le sampleFoot sampleFoot := Foot.le_refl _
  Follows.ite (State.propSample_follows (le.sub rfl) (Follows.refl _ _)) (State.timeSample_follows (le.sub rfl) (Follows.refl _ _))

theorem State.aheadInPhy_is {p : Foot} {s t : State} (h : Follows p s t) (quiet : p.comp 11 = false) (n lead : Nat) :
    t.aheadInPhy n lead = s.aheadInPhy n lead := by
  unfold State.aheadInPhy State.slot
  rw [h.slots quiet]

/-- The first frame of a neighbour, with nothing ahead of it, sets the window as it verifies, and counts against nothing. -/
theorem State.clearPass_spec {s : State} {p : Nat} {f : PipeFrame} (hp : p < 8) (one : s.rxFramesOf f.nbr = [(p, f)])
    (first : s.aheadInPhy f.nbr f.lead = false) (cast : hdrDst f.hdr ≠ 0xFFFF) (ack : hdrCtl f.hdr % 16 = 1)
    (bare : (hdrFlags f.hdr).testBit 3 = false) (new : s.get (R.NBR_LIVE_rx_any f.nbr) = 0) :
    ((s.clearPass p f).afterTag f.nbr).get (R.NBR_RX_HIGH_h f.nbr) = hdrSeq f.hdr ∧
      ((s.clearPass p f).afterTag f.nbr).get (R.NBR_LIVE_rx_any f.nbr) = 1 ∧
      ((s.clearPass p f).afterTag f.nbr).get (R.CRC_INL_FAIL_count p) = s.get (R.CRC_INL_FAIL_count p) := by
  obtain ⟨only, held⟩ := State.rxFramesOf_one hp one
  have sampled := s.clearPass_is p f
  have only' : (s.clearPass p f).rxOnlyIn f.nbr p :=
    State.rxOnlyIn_of (State.rxOnlyIn_updPipe only hp _) (sampled.phy rfl) fun q _ _ => State.pipe_is sampled rfl q
  have held' : (s.clearPass p f).rxIn f.nbr p = [passed f] :=
    (State.rxIn_of_pipe (State.pipe_is sampled rfl p)).trans (State.rxIn_markFrame held rfl rfl)
  have first' : (s.clearPass p f).aheadInPhy f.nbr f.lead = false := (State.aheadInPhy_is sampled rfl _ _).trans first
  have new' : ((s.clearPass p f).dropFrame p (passed f)).get (R.NBR_LIVE_rx_any f.nbr) = 0 := (sampled.row 381 (by rfl) (by decide)).trans new
  obtain ⟨high, any⟩ := State.acceptFrame_first (s := (s.clearPass p f).dropFrame p (passed f)) (p := p) (g := passed f) cast ack bare new'
  have released := State.releaseFrames_one hp only' held' first' rfl 255
  rw [(s.clearPass p f).afterTag_get f.nbr 387 rfl (by decide) (by decide), (s.clearPass p f).afterTag_get f.nbr 381 rfl (by decide) (by decide),
    released]
  exact ⟨high, any, ((s.clearPass p f).afterTag_count f.nbr p).trans (sampled.row 145 rfl (by decide))⟩

/-! ### The claim -/

/-- Settles O35, by the frame that joins its pipe, the count of its key, and what follows a frame's check value. -/
theorem cipherPipes : Obligations.CipherPipes := by
  unfold Obligations.CipherPipes
  intro s n p c f k key
  refine ⟨fun next room chosen fresh => ⟨fun clear => ⟨s.txPipe n.val, rfl, ?_⟩, fun keyed flows usable slot => ⟨s.txPipe n.val, rfl, ?_⟩⟩,
    fun only own given quiet => ⟨s.rxPipe n.val, rfl, ?_⟩, fun runs oldest clear checked => ⟨fun whole wrong => ⟨s.tagVerified p.val, rfl, ?_⟩,
      fun whole right one first cast ack bare new => ⟨s.tagVerified p.val, rfl, ?_⟩⟩⟩
  · have foot : Follows State.txPipe_foot s (s.txPipe n.val) := State.txPipe_follows (Foot.le_refl _) (Follows.refl _ _)
    refine ⟨⟨sentFrame c n.val none, ?_, rfl, rfl, rfl, rfl⟩, foot.sameBytes rfl⟩
    rw [State.txPipe_clear next room chosen fresh clear, State.pipe_is (State.refreshVotes_is _) rfl, State.joinPipe_frames,
      (s.pipeBegin_keeps p.val true).1]
  · have foot : Follows State.txPipe_foot s (s.txPipe n.val) := State.txPipe_follows (Foot.le_refl _) (Follows.refl _ _)
    obtain ⟨count, spent⟩ := State.invokeKey_spec ((s.keySlot_pipeBegin p.val false key).trans slot)
    have e := State.txPipe_keyed next room chosen fresh keyed flows usable
    refine ⟨⟨sentFrame c n.val (some key), ?_, rfl, rfl, rfl, rfl⟩, ?_, fun limit => ?_, foot.sameBytes rfl⟩
    · rw [e, State.pipe_is (State.refreshVotes_is _) rfl, State.joinPipe_frames, State.invokeKey_frames, (s.pipeBegin_keeps p.val false).1]
    · rw [e, (State.refreshVotes_is _).row 178 (by rfl) (by decide), (State.joinPipe_is _ _ _ _).row 178 (by rfl) (by decide)]
      exact count
    · rw [e, (State.refreshVotes_is _).row 176 (by rfl) (by decide), (State.joinPipe_is _ _ _ _).row 176 (by rfl) (by decide)]
      exact spent limit
  · have foot : Follows State.rxPipe_foot s (s.rxPipe n.val) := State.rxPipe_follows (Foot.le_refl _) (Follows.refl _ _)
    have into : (f.pipe.filter fun p => s.domRuns 12 && !(s.pipe p).inReset).or (s.pipeFor f.segs) = some p.val := by
      rcases given with ⟨none_, room⟩ | ⟨kept, runs, free⟩
      · rw [none_, room]; rfl
      · rw [kept]; simp [runs, free]
    obtain ⟨waiting, frames⟩ := State.rxPipe_spec only own quiet into
    exact ⟨waiting, ⟨_, frames⟩, foot.sameBytes rfl⟩
  · have differ : heldCheck f ≠ rightCheck f := wrong
    rw [State.tagVerified_clear runs oldest clear checked whole, if_neg differ]
    exact (State.afterTag_count _ _ _).trans (s.clearFail_count p.val f)
  · have agree : heldCheck f = rightCheck f := right
    rw [State.tagVerified_clear runs oldest clear checked whole, if_pos agree]
    exact State.clearPass_spec p.isLt one first cast ack bare new

end Sys2Proof.Machine
end

section
/-! What every command keeps: the queue, and the canonical forms. One footprint, that of any component and any register, holds for all of them. -/

namespace Sys2Proof.Machine

open Sys2Proof

/-- New trims change the trims alone, or wait for a block boundary. -/
theorem State.trimsWritten_follows {p : Foot} {s0 s : State} (hp : Foot.le Foot.all p) (h : Follows p s0 s) (d : Drift) (factory : Nat × Nat) :
    Follows p s0 (s.applyDrift d factory) :=
  State.calWritten_follows (hp.sub rfl) (State.set_follows 326 hp (State.set_follows 325 hp (State.set_follows 324 hp (State.set_follows 323 hp h))))

theorem State.tensionComplete_follows {p : Foot} {s0 s : State} (hp : Foot.le Foot.all p) (h : Follows p s0 s) (t : Nat)
    (couplings : List (Nat × Nat × Int × Int)) :
    Follows p s0 (s.tensionComplete t couplings) := by
  unfold State.tensionComplete
  split
  next => exact h
  next c it =>
    refine Follows.ite h ?_
    extract_lets all own seam phase gain sumP shown fresh kept seams pairs offP offG drifts now temp front joined counted judged
    have hshown : Follows p s0 shown := State.set_follows 354 hp h
    have hfront : Follows p s0 joined := Follows.update hp hshown rfl rfl
    have hcounted : Follows p s0 counted := State.bumpWrap_follows 355 hp (State.updTile_follows (hp.sub rfl) hfront)
    have hjudged : Follows p s0 judged :=
      Follows.ite
        (Follows.foldl (fun u d hu => Follows.ite (State.setBit_follows 356 hp hu) (Follows.ite (State.trimsWritten_follows hp hu d _) hu)) hcounted)
        (State.set_follows 353 hp hshown)
    exact State.fireTile_follows (hp.sub rfl) (State.tileYarn_follows (hp.sub rfl) (State.tensionEnd_follows (hp.sub rfl) hjudged))

-- One proof at a time from here on, each after the kernel has what stands before it: elaborated side by side, these proofs take more
-- threads, and with them more memory, than a compile of the whole text may.
set_option Elab.async false

theorem execTensionComplete_follows {p : Foot} {s0 s : State} {t : Fin 8} {couplings seams : List (Nat × Nat × Int × Int)} (hp : Foot.le Foot.all p)
    (h : Follows p s0 s) : FollowsOut p s0 (execTensionComplete t couplings seams s) :=
  FollowsOut.next (State.tensionComplete_follows hp h _ _)

/-- Every command goes on from every state, with the queue as it was and every canonical form kept (log 13). -/
theorem exec_follows {p : Foot} {s0 s : State} (hp : Foot.le Foot.all p) (h : Follows p s0 s) (i : Instr) : FollowsOut p s0 (exec i s) := by
  cases i with
  | registerWrite => exact execRegisterWrite_follows (hp.sub rfl) h
  | laneFail => exact execLaneFail_follows (hp.sub rfl) h
  | rxFrameLanding => exact execRxFrameLanding_follows (hp.sub rfl) h
  | hlRefclkDetected => exact execHlRefclkDetected_follows (hp.sub rfl) h
  | keeperCalibration => exact execKeeperCalibration_follows (hp.sub rfl) h
  | windowBoundary => exact execWindowBoundary_follows (hp.sub rfl) h
  | cycleBoundary => exact execCycleBoundary_follows (hp.sub rfl) h
  | hubFuncModeWrite => exact execHubFuncModeWrite_follows (hp.sub rfl) h
  | hubGcommitWrite => exact execHubGcommitWrite_follows (hp.sub rfl) h
  | rxOvl => exact execRxOvl_follows (hp.sub rfl) h
  | adcSaturation => exact execAdcSaturation_follows (hp.sub rfl) h
  | loLock => exact execLoLock_follows (hp.sub rfl) h
  | rfChanWrite => exact execRfChanWrite_follows (hp.sub rfl) h
  | loUnlock => exact execLoUnlock_follows (hp.sub rfl) h
  | fragmentWrite => exact execFragmentWrite_follows (hp.sub rfl) h
  | directoryWrite => exact execDirectoryWrite_follows (hp.sub rfl) h
  | tileCommit => exact execTileCommit_follows (hp.sub rfl) h
  | bfCommit => exact execBfCommit_follows (hp.sub rfl) h
  | preload => exact execPreload_follows (hp.sub rfl) h
  | preloadReport => exact execPreloadReport_follows (hp.sub rfl) h
  | swapRequest => exact execSwapRequest_follows (hp.sub rfl) h
  | armCutoff => exact execArmCutoff_follows (hp.sub rfl) h
  | bankSwap => exact execBankSwap_follows (hp.sub rfl) h
  | captureArm => exact execCaptureArm_follows (hp.sub rfl) h
  | captureTick => exact execCaptureTick_follows (hp.sub rfl) h
  | captureDone => exact execCaptureDone_follows (hp.sub rfl) h
  | tensionTrigger => exact execTensionTrigger_follows (hp.sub rfl) h
  | tensionGo => exact execTensionGo_follows (hp.sub rfl) h
  | tensionComplete => exact execTensionComplete_follows (hp.sub rfl) h
  | tensionTimeout => exact execTensionTimeout_follows (hp.sub rfl) h
  | blockBoundary => exact execBlockBoundary_follows (hp.sub rfl) h
  | leadDetect => exact execLeadDetect_follows (hp.sub rfl) h
  | leadMiss => exact execLeadMiss_follows (hp.sub rfl) h
  | headerDecode => exact execHeaderDecode_follows (hp.sub rfl) h
  | decoderStart => exact execDecoderStart_follows (hp.sub rfl) h
  | codewordDecoded => exact execCodewordDecoded_follows (hp.sub rfl) h
  | txLeadStart => exact execTxLeadStart_follows (hp.sub rfl) h
  | codewordEncoded => exact execCodewordEncoded_follows (hp.sub rfl) h
  | txUnderrun => exact execTxUnderrun_follows (hp.sub rfl) h
  | blockEqualised => exact execBlockEqualised_follows (hp.sub rfl) h
  | phySoftBeamsWrite => exact execPhySoftBeamsWrite_follows (hp.sub rfl) h
  | xngCommit => exact execXngCommit_follows (hp.sub rfl) h
  | xngEnable => exact execXngEnable_follows (hp.sub rfl) h
  | crossingFetch => exact execCrossingFetch_follows (hp.sub rfl) h
  | tileWarmCommand => exact execTileWarmCommand_follows (hp.sub rfl) h
  | turnCommand => exact execTurnCommand_follows (hp.sub rfl) h
  | crossingStart => exact execCrossingStart_follows (hp.sub rfl) h
  | readinessCheck => exact execReadinessCheck_follows (hp.sub rfl) h
  | voteScan => exact execVoteScan_follows (hp.sub rfl) h
  | crossingEnd => exact execCrossingEnd_follows (hp.sub rfl) h
  | xngPushPtrWrite => exact execXngPushPtrWrite_follows (hp.sub rfl) h
  | pushEntryRead => exact execPushEntryRead_follows (hp.sub rfl) h
  | txDescriptorRead => exact execTxDescriptorRead_follows (hp.sub rfl) h
  | ackDeadline => exact execAckDeadline_follows (hp.sub rfl) h
  | horizonExpiry => exact execHorizonExpiry_follows (hp.sub rfl) h
  | condReplyDecision => exact execCondReplyDecision_follows (hp.sub rfl) h
  | parentSilent => exact execParentSilent_follows (hp.sub rfl) h
  | timeStep => exact execTimeStep_follows (hp.sub rfl) h
  | macNbrCommit => exact execMacNbrCommit_follows (hp.sub rfl) h
  | neighbourCopy => exact execNeighbourCopy_follows (hp.sub rfl) h
  | mfs g d a b arg => exact (execMfs_follows (hp.sub rfl) h : FollowsOut p s0 (execMfs g d a b arg s))
  | mts g d a b arg => exact (execMts_follows (hp.sub rfl) h : FollowsOut p s0 (execMts g d a b arg s))
  | add => exact execAdd_follows (hp.sub rfl) h
  | sub => exact execSub_follows (hp.sub rfl) h
  | and => exact execAnd_follows (hp.sub rfl) h
  | or => exact execOr_follows (hp.sub rfl) h
  | xor => exact execXor_follows (hp.sub rfl) h
  | shl => exact execShl_follows (hp.sub rfl) h
  | shr => exact execShr_follows (hp.sub rfl) h
  | sra => exact execSra_follows (hp.sub rfl) h
  | ror => exact execRor_follows (hp.sub rfl) h
  | mul => exact execMul_follows (hp.sub rfl) h
  | mulhu => exact execMulhu_follows (hp.sub rfl) h
  | mulhs => exact execMulhs_follows (hp.sub rfl) h
  | slt => exact execSlt_follows (hp.sub rfl) h
  | sltu => exact execSltu_follows (hp.sub rfl) h
  | min => exact execMin_follows (hp.sub rfl) h
  | max => exact execMax_follows (hp.sub rfl) h
  | par => exact execPar_follows (hp.sub rfl) h
  | parb => exact execParb_follows (hp.sub rfl) h
  | brev => exact execBrev_follows (hp.sub rfl) h
  | brevb => exact execBrevb_follows (hp.sub rfl) h
  | bswap => exact execBswap_follows (hp.sub rfl) h
  | clz => exact execClz_follows (hp.sub rfl) h
  | popc => exact execPopc_follows (hp.sub rfl) h
  | vmov g d a b u => exact (execVmov_follows (hp.sub rfl) h : FollowsOut p s0 (execVmov g d a b u s))
  | vsplat g d a b u => exact (execVsplat_follows (hp.sub rfl) h : FollowsOut p s0 (execVsplat g d a b u s))
  | vget => exact execVget_follows (hp.sub rfl) h
  | vput => exact execVput_follows (hp.sub rfl) h
  | addi => exact execAddi_follows (hp.sub rfl) h
  | slti => exact execSlti_follows (hp.sub rfl) h
  | andi => exact execAndi_follows (hp.sub rfl) h
  | ori => exact execOri_follows (hp.sub rfl) h
  | xori => exact execXori_follows (hp.sub rfl) h
  | shli => exact execShli_follows (hp.sub rfl) h
  | shri => exact execShri_follows (hp.sub rfl) h
  | srai => exact execSrai_follows (hp.sub rfl) h
  | lui => exact execLui_follows (hp.sub rfl) h
  | nop => exact execNop_follows (hp.sub rfl) h
  | sMov => exact execSMov_follows (hp.sub rfl) h
  | sMovImmZx => exact execSMovImmZx_follows (hp.sub rfl) h
  | sMovImmSx => exact execSMovImmSx_follows (hp.sub rfl) h
  | sAdd => exact execSAdd_follows (hp.sub rfl) h
  | sSub => exact execSSub_follows (hp.sub rfl) h
  | sAnd => exact execSAnd_follows (hp.sub rfl) h
  | sOr => exact execSOr_follows (hp.sub rfl) h
  | sXor => exact execSXor_follows (hp.sub rfl) h
  | sShl => exact execSShl_follows (hp.sub rfl) h
  | sShr => exact execSShr_follows (hp.sub rfl) h
  | sSra => exact execSSra_follows (hp.sub rfl) h
  | sAddImm4 => exact execSAddImm4_follows (hp.sub rfl) h
  | sSubImm4 => exact execSSubImm4_follows (hp.sub rfl) h
  | sShlImm4 => exact execSShlImm4_follows (hp.sub rfl) h
  | sShrImm4 => exact execSShrImm4_follows (hp.sub rfl) h
  | sSeq => exact execSSeq_follows (hp.sub rfl) h
  | sSne => exact execSSne_follows (hp.sub rfl) h
  | sSlt => exact execSSlt_follows (hp.sub rfl) h
  | sSltu => exact execSSltu_follows (hp.sub rfl) h
  | sMul => exact execSMul_follows (hp.sub rfl) h
  | sPar => exact execSPar_follows (hp.sub rfl) h
  | sParb => exact execSParb_follows (hp.sub rfl) h
  | sBrev => exact execSBrev_follows (hp.sub rfl) h
  | sBswap => exact execSBswap_follows (hp.sub rfl) h
  | sBrevb => exact execSBrevb_follows (hp.sub rfl) h
  | ldlB => exact execLdlB_follows (hp.sub rfl) h
  | ldlH => exact execLdlH_follows (hp.sub rfl) h
  | ldlW => exact execLdlW_follows (hp.sub rfl) h
  | stlB => exact execStlB_follows (hp.sub rfl) h
  | stlH => exact execStlH_follows (hp.sub rfl) h
  | stlW => exact execStlW_follows (hp.sub rfl) h
  | ld => exact execLd_follows (hp.sub rfl) h
  | lds => exact execLds_follows (hp.sub rfl) h
  | st => exact execSt_follows (hp.sub rfl) h
  | vld => exact execVld_follows (hp.sub rfl) h
  | vst => exact execVst_follows (hp.sub rfl) h
  | deviceCompletion => exact execDeviceCompletion_follows (hp.sub rfl) h
  | fence g d a b arg => exact (execFence_follows (hp.sub rfl) h : FollowsOut p s0 (execFence g d a b arg s))
  | stp => exact execStp_follows (hp.sub rfl) h
  | postedFault => exact execPostedFault_follows (hp.sub rfl) h
  | beq => exact execBeq_follows (hp.sub rfl) h
  | bne => exact execBne_follows (hp.sub rfl) h
  | blt => exact execBlt_follows (hp.sub rfl) h
  | bge => exact execBge_follows (hp.sub rfl) h
  | bltu => exact execBltu_follows (hp.sub rfl) h
  | bgeu => exact execBgeu_follows (hp.sub rfl) h
  | j g a b off => exact (execJ_follows (hp.sub rfl) h : FollowsOut p s0 (execJ g a b off s))
  | jr => exact execJr_follows (hp.sub rfl) h
  | rssave g d a b arg => exact (execRssave_follows (hp.sub rfl) h : FollowsOut p s0 (execRssave g d a b arg s))
  | rsload e d a b arg => exact (execRsload_follows (hp.sub rfl) h : FollowsOut p s0 (execRsload e d a b arg s))
  | call g a b off => exact (execCall_follows (hp.sub rfl) h : FollowsOut p s0 (execCall g a b off s))
  | callr => exact execCallr_follows (hp.sub rfl) h
  | ret g a b off => exact (execRet_follows (hp.sub rfl) h : FollowsOut p s0 (execRet g a b off s))
  | loop => exact execLoop_follows (hp.sub rfl) h
  | setmode g d a b arg => exact (execSetmode_follows (hp.sub rfl) h : FollowsOut p s0 (execSetmode g d a b arg s))
  | timedOverrun => exact execTimedOverrun_follows (hp.sub rfl) h
  | crcB => exact execCrcB_follows (hp.sub rfl) h
  | crcH => exact execCrcH_follows (hp.sub rfl) h
  | crcW => exact execCrcW_follows (hp.sub rfl) h
  | sCrcB => exact execSCrcB_follows (hp.sub rfl) h
  | sCrcH => exact execSCrcH_follows (hp.sub rfl) h
  | sCrcW => exact execSCrcW_follows (hp.sub rfl) h
  | hadd => exact execHadd_follows (hp.sub rfl) h
  | hsub => exact execHsub_follows (hp.sub rfl) h
  | hmul => exact execHmul_follows (hp.sub rfl) h
  | cmul => exact execCmul_follows (hp.sub rfl) h
  | cfma => exact execCfma_follows (hp.sub rfl) h
  | cvtq g d a b u => exact (execCvtq_follows (hp.sub rfl) h : FollowsOut p s0 (execCvtq g d a b u s))
  | cvth g d a b u => exact (execCvth_follows (hp.sub rfl) h : FollowsOut p s0 (execCvth g d a b u s))
  | gather => exact execGather_follows (hp.sub rfl) h
  | msend g d a b arg => exact (execMsend_follows (hp.sub rfl) h : FollowsOut p s0 (execMsend g d a b arg s))
  | mrecv g d a b arg => exact (execMrecv_follows (hp.sub rfl) h : FollowsOut p s0 (execMrecv g d a b arg s))
  | mtime g d a b arg => exact (execMtime_follows (hp.sub rfl) h : FollowsOut p s0 (execMtime g d a b arg s))
  | eret g d a b arg => exact (execEret_follows (hp.sub rfl) h : FollowsOut p s0 (execEret g d a b arg s))
  | brk g d a b arg => exact (execBrk_follows (hp.sub rfl) h : FollowsOut p s0 (execBrk g d a b arg s))
  | sysc g d a b arg => exact (execSysc_follows (hp.sub rfl) h : FollowsOut p s0 (execSysc g d a b arg s))
  | wfi g d a b arg => exact (execWfi_follows (hp.sub rfl) h : FollowsOut p s0 (execWfi g d a b arg s))
  | wfiWake => exact execWfiWake_follows (hp.sub rfl) h
  | interruptTaken => exact execInterruptTaken_follows (hp.sub rfl) h
  | engineRun => exact execEngineRun_follows (hp.sub rfl) h
  | engineHalt => exact execEngineHalt_follows (hp.sub rfl) h
  | engLmDataAccess => exact execEngLmDataAccess_follows (hp.sub rfl) h
  | keelVoteWrite => exact execKeelVoteWrite_follows (hp.sub rfl) h
  | vcoreLoss => exact execVcoreLoss_follows (hp.sub rfl) h
  | pipeEntry => exact execPipeEntry_follows (hp.sub rfl) h
  | tagVerified => exact execTagVerified_follows (hp.sub rfl) h
  | keySlotApply => exact execKeySlotApply_follows (hp.sub rfl) h
  | secKeyLoad => exact execSecKeyLoad_follows (hp.sub rfl) h
  | secKeyErase => exact execSecKeyErase_follows (hp.sub rfl) h
  | secKeyBadOp => exact execSecKeyBadOp_follows (hp.sub rfl) h
  | entropyBit => exact execEntropyBit_follows (hp.sub rfl) h
  | rngRestart => exact execRngRestart_follows (hp.sub rfl) h
  | rngDataRead => exact execRngDataRead_follows (hp.sub rfl) h
  | otpProgram => exact execOtpProgram_follows (hp.sub rfl) h
  | otpProgramDone => exact execOtpProgramDone_follows (hp.sub rfl) h
  | bellKeyWrite => exact execBellKeyWrite_follows (hp.sub rfl) h
  | crcFeedB => exact execCrcFeedB_follows (hp.sub rfl) h
  | crcFeedH => exact execCrcFeedH_follows (hp.sub rfl) h
  | crcFeedW => exact execCrcFeedW_follows (hp.sub rfl) h
  | crcStateWrite => exact execCrcStateWrite_follows (hp.sub rfl) h
  | crcCfgWrite => exact execCrcCfgWrite_follows (hp.sub rfl) h
  | yarnImportDelivery => exact execYarnImportDelivery_follows (hp.sub rfl) h
  | yrnFire => exact execYrnFire_follows (hp.sub rfl) h
  | stitchFilterSettle => exact execStitchFilterSettle_follows (hp.sub rfl) h
  | yrnCellCtrlWrite => exact execYrnCellCtrlWrite_follows (hp.sub rfl) h
  | gpInputEdge => exact execGpInputEdge_follows (hp.sub rfl) h
  | gpPulseEnd => exact execGpPulseEnd_follows (hp.sub rfl) h
  | timerNoclk => exact execTimerNoclk_follows (hp.sub rfl) h
  | timerEnable => exact execTimerEnable_follows (hp.sub rfl) h
  | timerWrap => exact execTimerWrap_follows (hp.sub rfl) h
  | timerMatch => exact execTimerMatch_follows (hp.sub rfl) h
  | timerCountedEdge => exact execTimerCountedEdge_follows (hp.sub rfl) h
  | timerTrigger => exact execTimerTrigger_follows (hp.sub rfl) h
  | timerCapture => exact execTimerCapture_follows (hp.sub rfl) h
  | timerCapRead => exact execTimerCapRead_follows (hp.sub rfl) h
  | timerDisable => exact execTimerDisable_follows (hp.sub rfl) h
  | wideAlarm => exact execWideAlarm_follows (hp.sub rfl) h
  | tsInEdge => exact execTsInEdge_follows (hp.sub rfl) h
  | tsiRead => exact execTsiRead_follows (hp.sub rfl) h
  | tsOutPulse => exact execTsOutPulse_follows (hp.sub rfl) h
  | tsOutPulseEnd => exact execTsOutPulseEnd_follows (hp.sub rfl) h
  | wakeNFall => exact execWakeNFall_follows (hp.sub rfl) h
  | pntSyncEdge => exact execPntSyncEdge_follows (hp.sub rfl) h
  | irqSet => exact execIrqSet_follows (hp.sub rfl) h
  | irqDelivery => exact execIrqDelivery_follows (hp.sub rfl) h
  | irqEoi => exact execIrqEoi_follows (hp.sub rfl) h
  | irqPendClear => exact execIrqPendClear_follows (hp.sub rfl) h
  | interrupt => exact execInterrupt_follows (hp.sub rfl) h
  | holdoffEnd => exact execHoldoffEnd_follows (hp.sub rfl) h
  | domainRiseComplete => exact execDomainRiseComplete_follows (hp.sub rfl) h
  | pwrVoteSet => exact execPwrVoteSet_follows (hp.sub rfl) h
  | pwrVoteClr => exact execPwrVoteClr_follows (hp.sub rfl) h
  | lingerEnd => exact execLingerEnd_follows (hp.sub rfl) h
  | rfRailOff => exact execRfRailOff_follows (hp.sub rfl) h
  | timetableWake => exact execTimetableWake_follows (hp.sub rfl) h
  | pwrForceOffWrite => exact execPwrForceOffWrite_follows (hp.sub rfl) h
  | pwrClkGateWrite => exact execPwrClkGateWrite_follows (hp.sub rfl) h
  | wotTimeout => exact execWotTimeout_follows (hp.sub rfl) h
  | wakeSourceEdge => exact execWakeSourceEdge_follows (hp.sub rfl) h
  | aonTimer => exact execAonTimer_follows (hp.sub rfl) h
  | enterOff => exact execEnterOff_follows (hp.sub rfl) h
  | wkRxEnable => exact execWkRxEnable_follows (hp.sub rfl) h
  | sniff => exact execSniff_follows (hp.sub rfl) h
  | detectTimeout => exact execDetectTimeout_follows (hp.sub rfl) h
  | bellReceived => exact execBellReceived_follows (hp.sub rfl) h
  | wakeNPulseEnd => exact execWakeNPulseEnd_follows (hp.sub rfl) h
  | keeperSlewEnd => exact execKeeperSlewEnd_follows (hp.sub rfl) h
  | bellRawRead => exact execBellRawRead_follows (hp.sub rfl) h
  | bellTxRequest => exact execBellTxRequest_follows (hp.sub rfl) h
  | bellTxStart => exact execBellTxStart_follows (hp.sub rfl) h
  | bellTxEnd => exact execBellTxEnd_follows (hp.sub rfl) h
  | coexRequest => exact execCoexRequest_follows (hp.sub rfl) h
  | cxiReqRise => exact execCxiReqRise_follows (hp.sub rfl) h
  | cxiReqFall => exact execCxiReqFall_follows (hp.sub rfl) h
  | tcxoReady => exact execTcxoReady_follows (hp.sub rfl) h
  | pllLock => exact execPllLock_follows (hp.sub rfl) h
  | crystalStable => exact execCrystalStable_follows (hp.sub rfl) h
  | crystalTimeout => exact execCrystalTimeout_follows (hp.sub rfl) h
  | pwrGoodDrop => exact execPwrGoodDrop_follows (hp.sub rfl) h
  | railFailure => exact execRailFailure_follows (hp.sub rfl) h
  | railRetry => exact execRailRetry_follows (hp.sub rfl) h
  | bootTimeout => exact execBootTimeout_follows (hp.sub rfl) h
  | por => exact execPor_follows (hp.sub rfl) h
  | pinReset => exact execPinReset_follows (hp.sub rfl) h
  | warmReset => exact execWarmReset_follows (hp.sub rfl) h
  | resetCmdNone => exact execResetCmdNone_follows (hp.sub rfl) h
  | wdogKick => exact execWdogKick_follows (hp.sub rfl) h
  | wdogWarning => exact execWdogWarning_follows (hp.sub rfl) h
  | wdogExpiry => exact execWdogExpiry_follows (hp.sub rfl) h
  | tileReset => exact execTileReset_follows (hp.sub rfl) h
  | tileResetRelease => exact execTileResetRelease_follows (hp.sub rfl) h
  | engineReset => exact execEngineReset_follows (hp.sub rfl) h
  | flitReceive => exact execFlitReceive_follows (hp.sub rfl) h
  | ack => exact execAck_follows (hp.sub rfl) h
  | nak => exact execNak_follows (hp.sub rfl) h
  | retrainStart => exact execRetrainStart_follows (hp.sub rfl) h
  | linkTrained => exact execLinkTrained_follows (hp.sub rfl) h
  | rd => exact execRd_follows (hp.sub rfl) h
  | wr => exact execWr_follows (hp.sub rfl) h
  | cpl => exact execCpl_follows (hp.sub rfl) h
  | cpld => exact execCpld_follows (hp.sub rfl) h
  | cancel => exact execCancel_follows (hp.sub rfl) h
  | wrp => exact execWrp_follows (hp.sub rfl) h
  | lateFault => exact execLateFault_follows (hp.sub rfl) h
  | redraFence => exact execRedraFence_follows (hp.sub rfl) h
  | hostLateFault => exact execHostLateFault_follows (hp.sub rfl) h
  | lnkLndTailWrite => exact execLnkLndTailWrite_follows (hp.sub rfl) h
  | lnkLndHeadWrite => exact execLnkLndHeadWrite_follows (hp.sub rfl) h
  | commandDescriptorRead => exact execCommandDescriptorRead_follows (hp.sub rfl) h
  | completionEntryWrite => exact execCompletionEntryWrite_follows (hp.sub rfl) h
  | standbyReq => exact execStandbyReq_follows (hp.sub rfl) h
  | standbyAck => exact execStandbyAck_follows (hp.sub rfl) h
  | linkIdle => exact execLinkIdle_follows (hp.sub rfl) h
  | wakeOrderedSet => exact execWakeOrderedSet_follows (hp.sub rfl) h
  | standbyExit => exact execStandbyExit_follows (hp.sub rfl) h
  | hostLaneSignal => exact execHostLaneSignal_follows (hp.sub rfl) h
  | beacon => exact execBeacon_follows (hp.sub rfl) h
  | primarySilent => exact execPrimarySilent_follows (hp.sub rfl) h
  | pontoonPeerLost => exact execPontoonPeerLost_follows (hp.sub rfl) h
  | flashRead => exact execFlashRead_follows (hp.sub rfl) h
  | flashUnlock1 => exact execFlashUnlock1_follows (hp.sub rfl) h
  | flashUnlock2 => exact execFlashUnlock2_follows (hp.sub rfl) h
  | sequenceTimeout => exact execSequenceTimeout_follows (hp.sub rfl) h
  | pageProgram => exact execPageProgram_follows (hp.sub rfl) h
  | blockErase => exact execBlockErase_follows (hp.sub rfl) h
  | flashStatus => exact execFlashStatus_follows (hp.sub rfl) h
  | flashExit => exact execFlashExit_follows (hp.sub rfl) h
  | flashReset => exact execFlashReset_follows (hp.sub rfl) h
  | pageBufferWrite => exact execPageBufferWrite_follows (hp.sub rfl) h
  | flashOpDone => exact execFlashOpDone_follows (hp.sub rfl) h
  | flashStrayWrite => exact execFlashStrayWrite_follows (hp.sub rfl) h
  | holdupCompare => exact execHoldupCompare_follows (hp.sub rfl) h
  | spareFill => exact execSpareFill_follows (hp.sub rfl) h
  | imageBegin => exact execImageBegin_follows (hp.sub rfl) h
  | imageBlock => exact execImageBlock_follows (hp.sub rfl) h
  | holdupRetry => exact execHoldupRetry_follows (hp.sub rfl) h
  | imageCommit => exact execImageCommit_follows (hp.sub rfl) h
  | imageStatus => exact execImageStatus_follows (hp.sub rfl) h
  | errUnitClear => exact execErrUnitClear_follows (hp.sub rfl) h
  | unitResetEnd => exact execUnitResetEnd_follows (hp.sub rfl) h
  | laneRetrained => exact execLaneRetrained_follows (hp.sub rfl) h
  | scrubWord => exact execScrubWord_follows (hp.sub rfl) h
  | flashScrub => exact execFlashScrub_follows (hp.sub rfl) h
  | blackBoxClear => exact execBlackBoxClear_follows (hp.sub rfl) h
  | pmcOverflow => exact execPmcOverflow_follows (hp.sub rfl) h
  | pmcSnapshot => exact execPmcSnapshot_follows (hp.sub rfl) h
  | markerSample => exact execMarkerSample_follows (hp.sub rfl) h
  | pwrGoodRise => exact execPwrGoodRise_follows (hp.sub rfl) h
  | domainFallComplete => exact execDomainFallComplete_follows (hp.sub rfl) h
  | enableLowHoldEnd => exact execEnableLowHoldEnd_follows (hp.sub rfl) h
  | tempSample => exact execTempSample_follows (hp.sub rfl) h
  | thermalRecovery => exact execThermalRecovery_follows (hp.sub rfl) h
  | thermNLow => exact execThermNLow_follows (hp.sub rfl) h
  | mgmtWrite => exact execMgmtWrite_follows (hp.sub rfl) h
  | mgmtRead => exact execMgmtRead_follows (hp.sub rfl) h
  | mgmtDone => exact execMgmtDone_follows (hp.sub rfl) h
  | mgmtTimeout => exact execMgmtTimeout_follows (hp.sub rfl) h
  | hubReady => exact execHubReady_follows (hp.sub rfl) h

end Sys2Proof.Machine
end

section
/-! Short operations of a pair word and the CRC words: the value that each gives, what their accesses to local memory do, and the claim. -/

set_option Elab.async false

namespace Sys2Proof.Machine

open Sys2Proof

/-! ### Values (Table 6.7, R209) -/

/-- A four-bit immediate, sign-extended. -/
theorem imm4_signExtend {n : Nat} (h : n < 16) :
    (BitVec.ofNat 4 n).signExtend 32 = BitVec.ofInt 32 (if n < 8 then (n : Int) else (n : Int) - 16) := by
  refine congrArg (BitVec.ofInt 32) ?_
  rw [BitVec.toInt_eq_toNat_cond, BitVec.toNat_ofNat, Nat.mod_eq_of_lt h]
  split <;> split <;> omega

theorem imm4_toNat {n : Nat} (h : n < 16) : (BitVec.ofNat 32 n).toNat % 32 = n := by
  rw [BitVec.toNat_ofNat]; omega

theorem wShl_imm4 (x : Word) {n : Nat} (h : n < 16) : wShl x (BitVec.ofNat 32 n) = x <<< n := by
  unfold wShl; rw [imm4_toNat h]

theorem wShr_imm4 (x : Word) {n : Nat} (h : n < 16) : wShr x (BitVec.ofNat 32 n) = x >>> n := by
  unfold wShr; rw [imm4_toNat h]

theorem wBool_beq (x y : Word) : wBool (x == y) = if x = y then 1 else 0 := by
  unfold wBool
  by_cases e : x = y <;> simp [e]

theorem wBool_bne (x y : Word) : wBool (x != y) = if x = y then 0 else 1 := by
  unfold wBool
  by_cases e : x = y <;> simp [e]

theorem mul_eq_ofNat (x y : Word) : x * y = BitVec.ofNat 32 (x.toNat * y.toNat) := by
  rw [BitVec.ofNat_mul, BitVec.ofNat_toNat, BitVec.ofNat_toNat, BitVec.setWidth_eq, BitVec.setWidth_eq]

/-- A check value takes of a number its low byte alone. -/
theorem crcByte_mod (poly poly8 reg v : Nat) : crcByte poly poly8 reg (v % 256) = crcByte poly poly8 reg v := by
  unfold crcByte
  rw [Nat.mod_mod]

/-- Feeding the low bytes of a number is feeding them as a byte string. -/
theorem crcFeed_eq_crcBytes (poly poly8 : Nat) : ∀ n v reg : Nat, crcFeed poly poly8 n v reg = crcBytes poly poly8 reg (toBytes n v)
  | 0, _, _ => rfl
  | n + 1, v, reg => by
    rw [crcFeed, crcFeed_eq_crcBytes poly poly8 n, ← crcByte_mod, toBytes]
    rfl

/-! ### Pair words without an access -/

/-- A short operation outside local memory, beside another: its value, and the frame. -/
theorem pairResult_of {s : State} {c : Instr} {g opc sub b : Nat} {d : Fin 16} {inB : Bool} {other : BitVec 15} {v : Word} (h : s.issues g .plain)
    (he : exec c s = .next (s.engShort g opc sub inB d b other false)) (legal : ShortOp.reserved ⟨opc, d, b, sub⟩ = false)
    (noAccess : ShortOp.isMem ⟨opc, d, b, sub⟩ = false) (hv : s.shortValue g ⟨opc, d, b, sub⟩ (s.eng g).r = v) :
    PairResult s c g inB ⟨opc, d, b, sub⟩ (ShortOp.ofBits other.toNat) v :=
  pair_result he h legal (by unfold State.shortFault; rw [noAccess, if_neg Bool.false_ne_true]) (.inr (.inr hv)) d.isLt

/-! ### Short loads and stores -/

section Local

variable {s : State} {g opc sub d b : Nat} {inB : Bool} {other : BitVec 15}

/-- The short load or store of a pair does not fault where its access does not. -/
theorem State.shortFault_none {o : ShortOp} {slotB : Bool} (h : s.localFault g (o.addr (s.eng g).r) o.bytes o.bytes (o.opc == 9) = none) :
    s.shortFault g o (s.eng g).r slotB = none := by
  unfold State.shortFault
  rw [h]
  exact ite_self none

theorem ShortOp.size_legal {opc : Nat} (mem : opc = 9 ∨ opc = 10) (small : sub < 3) : ShortOp.reserved ⟨opc, d, b, sub⟩ = false := by
  unfold ShortOp.reserved
  rcases mem with rfl | rfl <;> simp <;> omega

/-- Beside a short load or store the other slot stores nothing (R193). -/
theorem State.pairs_stores {o p : ShortOp} (mem : o.isMem = true) (h : s.pairs g inB o p) (r : EngRegs) : p.stores r = [] := by
  have alone : p.isMem = false := by
    obtain ⟨-, free, -⟩ := h
    by_contra both
    rw [Bool.not_eq_false] at both
    unfold pairConflict at free
    cases inB <;> simp [mem, both] at free
  unfold ShortOp.isMem at alone
  unfold ShortOp.stores
  rw [if_neg fun e => by simp [e] at alone]

/-- LDL reads its bytes, beside an operation of the other slot. -/
theorem shortLoad_writes {c : Instr} (he : exec c s = .next (s.engShort g 9 sub inB d b other false)) (h : s.issues g .plain) (hd : d < 16)
    (small : sub < 3) (room : s.pairs g inB ⟨9, d, b, sub⟩ (ShortOp.ofBits other.toNat))
    (ok : s.localFault g ((s.eng g).r.get b).toNat (2 ^ sub) (2 ^ sub) true = none) :
    PairWrites s c g ⟨9, d, b, sub⟩ (ShortOp.ofBits other.toNat) (BitVec.ofNat 32 (s.lmRead g ((s.eng g).r.get b).toNat (2 ^ sub))) :=
  pair_result he h (ShortOp.size_legal (.inl rfl) small) (State.shortFault_none (o := ⟨9, d, b, sub⟩) ok) (.inr (.inr rfl)) hd room

/-- STL writes no register, beside an operation of the other slot. -/
theorem shortStore_writes {c : Instr} (he : exec c s = .next (s.engShort g 10 sub inB d b other false)) (h : s.issues g .plain) (hd : d < 16)
    (small : sub < 3) (room : s.pairs g inB ⟨10, d, b, sub⟩ (ShortOp.ofBits other.toNat))
    (ok : s.localFault g ((s.eng g).r.get d).toNat (2 ^ sub) (2 ^ sub) false = none) :
    PairWrites s c g ⟨10, d, b, sub⟩ (ShortOp.ofBits other.toNat) 0 :=
  pair_result he h (ShortOp.size_legal (.inr rfl) small) (State.shortFault_none (o := ⟨10, d, b, sub⟩) ok) (.inr (.inl rfl)) hd room

/-- STL stores its bytes. -/
theorem shortStore_stores {c : Instr} (he : exec c s = .next (s.engShort g 10 sub inB d b other false)) (h : s.issues g .plain)
    (small : sub < 3) (room : s.pairs g inB ⟨10, d, b, sub⟩ (ShortOp.ofBits other.toNat)) (direct : s.direct g)
    (ok : s.localFault g ((s.eng g).r.get d).toNat (2 ^ sub) (2 ^ sub) false = none) :
    Leads s c fun t => storedAt s t g ((s.eng g).r.get d).toNat (toBytes (2 ^ sub) ((s.eng g).r.get b).toNat) := by
  refine ⟨_, he, fun a => ?_⟩
  have e := State.engShort_ok h (ShortOp.size_legal (.inr rfl) small) (State.shortFault_none (o := ⟨10, d, b, sub⟩) ok) room
  dsimp only at e
  rw [e, State.pairs_stores rfl room, List.nil_append, List.append_nil]
  have store : ShortOp.stores ⟨10, d, b, sub⟩ (s.eng g).r =
    [(((s.eng g).r.get d).toNat, toBytes (2 ^ sub) ((s.eng g).r.get b).toNat)] := rfl
  cases inB
  · rw [if_neg Bool.false_ne_true, State.engRetire_direct _ _ _ _ _ direct, store, State.lmStore_byte]
  · rw [if_pos rfl, State.engRetire_direct _ _ _ _ _ direct, store, State.lmStore_byte]

end Local

/-! ### The claim -/

/-- Settles O2, operation by operation: the operands are legal, the slot makes no access or one that does not fault, and the value is the table's. -/
theorem shortAndCrcWords : Obligations.ShortAndCrcWords := by
  unfold Obligations.ShortAndCrcWords
  refine ⟨fun s g inB d b other h => ?_, fun s g inB d b other h => ?_, fun s g inB d b other sub h small => ?_, fun s g d a b h => ?_⟩
  · refine ⟨pairResult_of h rfl rfl rfl rfl, pairResult_of h rfl rfl rfl rfl, pairResult_of h rfl rfl rfl (imm4_signExtend b.isLt), ?_⟩
    refine ⟨pairResult_of h rfl rfl rfl rfl, pairResult_of h rfl rfl rfl rfl, pairResult_of h rfl rfl rfl rfl, ?_⟩
    refine ⟨pairResult_of h rfl rfl rfl rfl, pairResult_of h rfl rfl rfl rfl, pairResult_of h rfl rfl rfl rfl, ?_⟩
    refine ⟨pairResult_of h rfl rfl rfl rfl, pairResult_of h rfl rfl rfl rfl, pairResult_of h rfl rfl rfl rfl, ?_⟩
    refine ⟨pairResult_of h rfl rfl rfl rfl, pairResult_of h rfl rfl rfl (wShl_imm4 _ b.isLt), pairResult_of h rfl rfl rfl (wShr_imm4 _ b.isLt), ?_⟩
    refine ⟨pairResult_of h rfl rfl rfl (wBool_beq _ _), pairResult_of h rfl rfl rfl (wBool_bne _ _), pairResult_of h rfl rfl rfl (wSlt_eq _ _), ?_⟩
    exact pairResult_of h rfl rfl rfl (wSltu_eq _ _)
  · refine ⟨pairResult_of h rfl rfl rfl (mul_eq_ofNat _ _), pairResult_of h rfl rfl rfl rfl, pairResult_of h rfl rfl rfl rfl, ?_⟩
    refine ⟨pairResult_of h rfl rfl rfl rfl, pairResult_of h rfl rfl rfl rfl, pairResult_of h rfl rfl rfl rfl, ?_⟩
    refine ⟨pairResult_of h rfl rfl rfl rfl, pairResult_of h rfl rfl rfl rfl, pairResult_of h rfl rfl rfl rfl, ?_⟩
    exact pairResult_of (d := 0) h rfl rfl rfl rfl
  · intro r p ldl stl load store
    have loads : exec ldl s = .next (s.engShort g 9 sub inB d b other false) := by
      rcases (by omega : sub = 0 ∨ sub = 1 ∨ sub = 2) with rfl | rfl | rfl <;> rfl
    have stores : exec stl s = .next (s.engShort g 10 sub inB d b other false) := by
      rcases (by omega : sub = 0 ∨ sub = 1 ∨ sub = 2) with rfl | rfl | rfl <;> rfl
    exact ⟨fun room ok => shortLoad_writes loads h d.isLt small room ok,
      fun room direct ok => shortStore_stores stores h small room direct ok, fun room ok => shortStore_writes stores h d.isLt small room ok⟩
  · intro r x feed
    have fed (n : Nat) {c : Instr} (he : exec c s = .next (s.engCrc g 0 n d a b)) : Writes s c g d (feed n) := by
      have v : feed n = r.crc n x (r.get b) := by unfold EngRegs.crc; rw [crcFeed_eq_crcBytes]
      rw [v]
      exact writes_of he h rfl d.isLt
    exact ⟨fed 1 rfl, fed 2 rfl, fed 4 rfl⟩

end Sys2Proof.Machine
end

section
/-! Vector words: the vector or the lane that each writes, the flags that the arithmetic words collect, and the claim. -/

set_option Elab.async false

namespace Sys2Proof.Machine

open Sys2Proof

/-! ### Operand fields (R192) -/

theorem badVec_eq_false {l : List Nat} (h : ∀ f ∈ l, f < 4) : badVec l = false := by
  unfold badVec
  rw [List.any_eq_false]
  intro f hf
  rw [decide_eq_true_eq, Nat.not_le]
  exact h f hf

/-- A vector word whose fields name vectors does what its operation says. -/
theorem vecWord_eq {vs : List Nat} (h : ∀ f ∈ vs, f < 4) (op : EngRegs → OpRes) (r : EngRegs) :
    (if (0 : BitVec 8) != 0 || badVec vs then OpRes.fault (EFault.plain exIllegal) r else op r) = op r := by
  rw [badVec_eq_false h]
  rfl

theorem writesVec_word {s : State} {c : Instr} {g d : Nat} {vs : List Nat} {op : EngRegs → OpRes} {v : Vector Word 16} (h : s.issues g .plain)
    (he : exec c s = .next (s.engVec g 0 vs op)) (fields : ∀ f ∈ vs, f < 4) (hd : d < 4)
    (hop : op (s.eng g).r = .ok ((s.eng g).r.putVec d v) []) : WritesVec s c g d v :=
  writesVec_of (r := (s.eng g).r) he h ((vecWord_eq fields op _).trans hop) ⟨_, _, rfl⟩ hd

/-! ### Lanes and flags (R211) -/

/-- With no enabled trap among the flags of its lanes an arithmetic word writes them all. -/
theorem vecResult_quiet {d : Nat} {lanes : Vector (Word × Nat) 16} {r : EngRegs}
    (quiet : ∀ i : Nat, i < 16 → (vget lanes i).2 &&& r.fpctrl / 256 % 16 = 0) :
    vecResult d lanes r =
      .ok (EngRegs.putVec { r with fpstat := r.fpstat ||| lanes.toList.foldl (fun m p => m ||| p.2) 0 } d (lanes.map fun p => p.1)) [] := by
  have noTrap : ((List.range 16).find? fun i => (vget lanes i).2 &&& r.fpctrl / 256 % 16 != 0) = none := by
    rw [List.find?_eq_none]
    intro i hi
    rw [quiet i (List.mem_range.mp hi), bne_self_eq_false]
    exact Bool.false_ne_true
  unfold vecResult
  dsimp only
  rw [noTrap]

theorem vget_fin {α : Type} (v : Vector α 16) (i : Fin 16) : vget v i.val = v[i] := by
  unfold vget
  simp only [Nat.mod_eq_of_lt i.isLt]
  rfl

/-- An arithmetic word on vectors. -/
theorem writesLanes_of {s : State} {c : Instr} {g d : Nat} {vs : List Nat} {op : EngRegs → OpRes} {lanes : Vector (Word × Nat) 16}
    (h : s.issues g .plain) (he : exec c s = .next (s.engVec g 0 vs op)) (fields : ∀ f ∈ vs, f < 4) (hd : d < 4)
    (hop : op (s.eng g).r = vecResult d lanes (s.eng g).r) : WritesLanes s c g d lanes := by
  intro quiet
  have result := (vecWord_eq fields op (s.eng g).r).trans (hop.trans (vecResult_quiet quiet))
  obtain ⟨t, ht, vec, regs, frame⟩ := writesVec_of he h result ⟨_, _, rfl⟩ hd
  refine ⟨t, ht, vec, regs, frame, ?_⟩
  have retired : t = s.engRetire g false _ [] := Host.Outcome.next.inj (ht.symm.trans (he.trans (next_congr (State.engIssue_ok h result))))
  rw [retired, (s.engRetire_wv g false _ []).2.2, Nat.or_comm]
  rfl

/-! ### The claim -/

/-- Settles O3: the fields of each word name vectors, and its operation writes what Table 6.6 says, lane by lane. -/
theorem vectorWords : Obligations.VectorWords := by
  unfold Obligations.VectorWords
  refine ⟨fun s g d a b h => ?_, fun s g d a b h hd ha => ?_⟩
  · refine ⟨fun hd ha => ?_, fun hd => ?_, fun ha => ?_, fun hd => ?_, fun hd ha => ?_⟩
    · exact writesVec_word h rfl (by simp [hd, ha]) hd rfl
    · exact writesVec_word h rfl (by simp [hd]) hd rfl
    · exact writes_of rfl h (if_neg (by rw [badVec_eq_false (by simp [ha])]; decide)) d.isLt
    · exact writesVec_word h rfl (by simp [hd]) hd rfl
    · exact writesVec_word h rfl (by simp [hd, ha]) hd rfl
  · have fields (hb : b.val < 4) : ∀ f ∈ [d.val, a.val, b.val], f < 4 := by simp [hd, ha, hb]
    refine ⟨fun hb => ?_, fun hb => ?_, fun hb => ?_, fun hb => ?_, fun hb => ?_, ?_⟩
    · exact writesLanes_of h rfl (fields hb) hd (by simp only [vget_fin]; rfl)
    · exact writesLanes_of h rfl (fields hb) hd (by simp only [vget_fin]; rfl)
    · exact writesLanes_of h rfl (fields hb) hd (by simp only [vget_fin]; rfl)
    · exact writesLanes_of h rfl (fields hb) hd (by simp only [vget_fin]; rfl)
    · exact writesLanes_of h rfl (fields hb) hd (by simp only [vget_fin]; rfl)
    · exact writesLanes_of h rfl (vs := [d, a]) (by simp [hd, ha]) hd rfl

end Sys2Proof.Machine
end

section
/-! The fragment components: CVTH gives each the binary16 code of its exact value, and CVTQ takes the component back from the code, and the claim. -/

set_option Elab.async false

namespace Sys2Proof.Machine

open Sys2Proof

/-! ### Exact values (R210, R212) -/

/-- An exact quotient is not rounded. -/
theorem roundEven_mul (n : Nat) {d : Nat} (hd : 0 < d) : roundEven (n * d) d = n := by
  unfold roundEven
  rw [Nat.mul_div_cancel _ hd, Nat.mul_mod_left, if_pos (by omega)]

/-- A significand of eleven bits, scaled. -/
theorem log2_significand {c : Nat} (lo : 1024 ≤ c) (hi : c < 2048) (k : Nat) : Nat.log2 (c * 2 ^ k) = k + 10 := by
  rw [Nat.log2_eq_iff (by positivity), show k + 10 + 1 = k + 11 by omega, pow_add, pow_add, Nat.mul_comm c]
  exact ⟨Nat.mul_le_mul_left _ lo, Nat.mul_lt_mul_of_pos_left hi (by positivity)⟩

/-- A magnitude whose significand has eleven bits, within the range of normal codes, is rounded to the code of exactly its value, without a flag. -/
theorem roundHalf_normal (ftz sat neg : Bool) {c k : Nat} (lo : 1024 ≤ c) (hi : c < 2048) (hk : 24 ≤ k) (top : k ≤ 53) :
    roundHalf ftz sat neg (c * 2 ^ k) = ((if neg then 0x8000 else 0) + (k - 23) * 1024 + (c - 1024), 0) := by
  have big : 2 ^ 34 ≤ c * 2 ^ k := calc
    2 ^ 34 = 1024 * 2 ^ 24 := by norm_num
    _ ≤ c * 2 ^ k := Nat.mul_le_mul lo (Nat.pow_le_pow_right (by decide) hk)
  have small : c * 2 ^ k < 2 ^ 64 := calc
    c * 2 ^ k < 2 ^ 11 * 2 ^ k := Nat.mul_lt_mul_of_pos_right hi (by positivity)
    _ ≤ 2 ^ 11 * 2 ^ 53 := Nat.mul_le_mul_left _ (Nat.pow_le_pow_right (by decide) top)
    _ = 2 ^ 64 := by norm_num
  have place : Nat.log2 (c * 2 ^ k) - 10 = k := by rw [log2_significand lo hi]; omega
  have value : roundEven (c * 2 ^ k) (2 ^ k) * 2 ^ k = c * 2 ^ k := by rw [roundEven_mul c (by positivity)]
  unfold roundHalf
  dsimp only
  rw [if_neg (by omega), if_neg (Nat.not_lt.mpr big), place, value, if_neg (Nat.not_lt.mpr big),
    if_neg (Nat.not_le.mpr small), place, Nat.mul_div_cancel _ (by positivity), log2_significand lo hi, bne_self_eq_false,
    if_neg Bool.false_ne_true, show k + 10 - 33 = k - 23 by omega]

/-- A number up to 2,048 has a significand of eleven bits. -/
theorem significand_exists {n : Nat} (pos : 0 < n) (le : n ≤ 2048) :
    ∃ c l : Nat, 1024 ≤ c ∧ c < 2048 ∧ l ≤ 11 ∧ n * 1024 = c * 2 ^ l := by
  rcases Nat.lt_or_eq_of_le le with lt | rfl
  · have bound : Nat.log2 n ≤ 10 := Nat.le_of_lt_succ ((Nat.log2_lt (by omega)).mpr lt)
    have split : (2 : Nat) ^ (10 - Nat.log2 n) * 2 ^ Nat.log2 n = 1024 := by rw [← pow_add, Nat.sub_add_cancel bound]; norm_num
    refine ⟨n * 2 ^ (10 - Nat.log2 n), Nat.log2 n, ?_, ?_, by omega, by rw [Nat.mul_assoc, split]⟩
    · calc 1024 = 2 ^ Nat.log2 n * 2 ^ (10 - Nat.log2 n) := by rw [Nat.mul_comm, split]
        _ ≤ n * 2 ^ (10 - Nat.log2 n) := Nat.mul_le_mul_right _ (Nat.log2_self_le (by omega))
    · calc n * 2 ^ (10 - Nat.log2 n) < 2 ^ (Nat.log2 n + 1) * 2 ^ (10 - Nat.log2 n) :=
            Nat.mul_lt_mul_of_pos_right Nat.lt_log2_self (by positivity)
        _ = 2048 := by rw [← pow_add, show Nat.log2 n + 1 + (10 - Nat.log2 n) = 11 by omega]; norm_num
  · exact ⟨1024, 11, by norm_num⟩

/-- The code of a component of magnitude n is finite, has the component's sign, and stands for n units of 2^-11. -/
theorem fragmentCode_spec (neg : Bool) {n : Nat} (pos : 0 < n) (le : n ≤ 2048) :
    halfKind (roundHalf false false neg (n * 2 ^ 37)).1 = .finite ∧ halfNeg (roundHalf false false neg (n * 2 ^ 37)).1 = neg ∧
      halfMag false (roundHalf false false neg (n * 2 ^ 37)).1 = n * 2 ^ 13 := by
  obtain ⟨c, l, lo, hi, hl, e⟩ := significand_exists pos le
  have mag : n * 2 ^ 37 = c * 2 ^ (l + 27) := calc
    n * 2 ^ 37 = n * 1024 * 2 ^ 27 := by ring
    _ = c * 2 ^ (l + 27) := by rw [e, pow_add]; ring
  have exponent : ((if neg then 0x8000 else 0) + (l + 27 - 23) * 1024 + (c - 1024)) / 1024 % 32 = l + 4 := by split <;> omega
  have fraction : ((if neg then 0x8000 else 0) + (l + 27 - 23) * 1024 + (c - 1024)) % 1024 = c - 1024 := by split <;> omega
  rw [mag, roundHalf_normal false false neg lo hi (by omega) (by omega)]
  refine ⟨?_, ?_, ?_⟩
  · unfold halfKind
    rw [exponent, if_pos (by simp; omega)]
  · unfold halfNeg
    rw [Nat.testBit_eq_decide_div_mod_eq]
    cases neg <;> simp <;> omega
  · unfold halfMag
    rw [exponent, fraction, if_neg (by omega), show 1024 + (c - 1024) = c by omega, show l + 4 - 1 = l + 3 by omega, pow_add, ← Nat.mul_assoc, ← e]
    ring

/-- CVTQ of a finite code that stands for n units of 2^-11 gives the component of that value, where the component can hold it. -/
theorem toQ_exact {h n : Nat} (kind : halfKind h = .finite) (mag : halfMag false h = n * 2 ^ 13) (x : Int)
    (hx : x = if halfNeg h then -(n : Int) else n) (lo : -2048 ≤ x) (hi : x ≤ 2047) : toQ false h = (unsigned 12 x, 0) := by
  unfold toQ
  rw [kind]
  dsimp only
  rw [mag, roundEven_mul n (by norm_num), ← hx, if_neg (by omega), if_neg (by omega), if_pos (Nat.mul_mod_left _ _)]

/-- A component is the twelve-bit code of its signed value. -/
theorem unsigned_signed {v : Nat} (hv : v < 4096) : unsigned 12 (signed 12 v) = v := by
  unfold unsigned signed
  split <;> omega

theorem signed_range (v : Nat) : -2048 ≤ signed 12 v ∧ signed 12 v ≤ 2047 := by
  unfold signed
  split <;> omega

/-- CVTH as a function: an equation of functions, since the kernel would compute with 2^37 to compare two of their values. -/
theorem fromQ_fun : fromQ = fun v => (roundHalf false false (decide (signed 12 v < 0)) ((signed 12 v).natAbs * 2 ^ 37)).1 := by
  delta fromQ; rfl

/-- A component keeps its value on the way to its code and back: nothing is rounded and nothing saturates. -/
theorem toQ_fragmentCode (x : Int) (lo : -2048 ≤ x) (hi : x ≤ 2047) :
    toQ false (roundHalf false false (decide (x < 0)) (x.natAbs * 2 ^ 37)).1 = (unsigned 12 x, 0) := by
  by_cases zero : x = 0
  · have code : roundHalf false false (decide (x < 0)) (x.natAbs * 2 ^ 37) = (0, 0) := by unfold roundHalf; simp [zero]
    rw [code]
    exact toQ_exact (n := 0) (by decide) (by unfold halfMag; simp) x (by simp [zero]) lo hi
  · obtain ⟨kind, neg, mag⟩ := fragmentCode_spec (decide (x < 0)) (n := x.natAbs) (by omega) (by omega)
    refine toQ_exact kind mag x ?_ lo hi
    rw [neg]
    by_cases sign : x < 0
    · rw [decide_eq_true sign, if_pos rfl]; omega
    · rw [decide_eq_false sign, if_neg Bool.false_ne_true]; omega

/-- Settles O4: the code of a component stands for exactly the component's value. -/
theorem fragmentRoundTrip : Obligations.FragmentRoundTrip := by
  unfold Obligations.FragmentRoundTrip
  intro v hv
  obtain ⟨lo, hi⟩ := signed_range v
  rw [fromQ_fun, toQ_fragmentCode _ lo hi, unsigned_signed hv]

end Sys2Proof.Machine
end

section
/-! Words of an engine as they retire: what is written, what is stored and what is left, said for any word; and words that read local memory. -/

set_option Elab.async false

namespace Sys2Proof.Machine

open Sys2Proof

/-! ### The registers and the memory after a retirement -/

theorem EngRegs.put_v (r : EngRegs) (d : Nat) (x : Word) : (r.put d x).v = r.v := by
  unfold EngRegs.put
  split <;> rfl

/-- Whatever state u the word retires in, its general registers are those that it computes. -/
theorem wroteReg_retired (s u : State) (g : Nat) (pair : Bool) {d : Nat} (hd : d < 16) (v : Word) (st : List (Nat × List Byte)) :
    wroteReg s (u.engRetire g pair ((s.eng g).r.put d v) st) g d v := by
  intro k hk
  rw [← EngRegs.get_put _ _ _ _ hd hk]
  unfold EngRegs.get
  rw [(u.engRetire_wv g pair _ st).1]

theorem sameRegs_retired (s u : State) (g : Nat) (pair : Bool) {r : EngRegs} (h : r.w = (s.eng g).r.w) (st : List (Nat × List Byte)) :
    sameRegs s (u.engRetire g pair r st) g := by
  intro k
  unfold EngRegs.get
  rw [(u.engRetire_wv g pair r st).1, h]

theorem sameVecs_retired (s u : State) (g : Nat) (pair : Bool) {r : EngRegs} (h : r.v = (s.eng g).r.v) (st : List (Nat × List Byte)) :
    sameVecs s (u.engRetire g pair r st) g := by
  intro k
  unfold EngRegs.vec
  rw [(u.engRetire_wv g pair r st).2.1, h]

theorem onlyEngine_retired (s : State) (g : Nat) (pair : Bool) (r : EngRegs) (st : List (Nat × List Byte)) : onlyEngine s (s.engRetire g pair r st) g :=
  ⟨fun _ ne => State.engRetire_ne _ _ _ _ _ _ ne, fun _ hf => State.engRetire_get _ _ _ _ _ _ hf⟩

/-- The one store of a word that no shadow holds back. -/
theorem storedAt_retired {s : State} {g : Nat} (direct : s.direct g) (pair : Bool) (r : EngRegs) (a : Nat) (l : List Byte) :
    storedAt s (s.engRetire g pair r [(a, l)]) g a l := by
  intro b
  rw [State.engRetire_direct _ _ _ _ _ direct, State.lmStore_byte]

/-- A word that stores the bytes of l and leaves its registers. -/
theorem stores_of {s : State} {c : Instr} {k : WordKind} {g a : Nat} {l : List Byte} {op : EngRegs → OpRes} {pair : Bool} {reads : EngRegs → List Nat}
    (he : exec c s = .next (s.engIssue g k pair op (reads := reads))) (h : s.issues g k) (direct : s.direct g)
    (hop : op (s.eng g).r = .ok (s.eng g).r [(a, l)]) : Stores s c g a l := by
  refine ⟨_, he, ?_⟩
  rw [State.engIssue_ok h hop]
  refine ⟨storedAt_retired direct _ _ _ _, sameRegs_retired s s g _ rfl _, sameVecs_retired s s g _ rfl _, onlyEngine_retired _ _ _ _ _, fun al => ?_⟩
  obtain ⟨-, -, -, mode, estat, epc, ecause, eaddr, ien, fpctrl, -, scr⟩ := s.engRetire_alone g pair (s.eng g).r [(a, l)] al
  exact ⟨mode, estat, epc, ecause, eaddr, ien, fpctrl, scr⟩

/-! ### Words that the decoders correct (R421) -/

/-- What logging a corrected word may change: memory, poison, the error log, the counters and registers, but no engine. -/
def correctedFoot : Foot := ⟨0x600000e, 0⟩

theorem State.corrected_is (s : State) (a line syn ini eng : Nat) : Follows correctedFoot s (s.corrected a line syn ini eng) :=
  State.logErr_mild (show severity 1 ≠ 3 by decide) rfl (State.pmc_follows rfl (Follows.refl _ _))

/-- The words that a word without a fault reads are corrected where the decoders say so, and no engine changes. -/
theorem State.engEcc_is (s : State) (g : Nat) (seen : LmSeen) (words : List Nat) : Follows correctedFoot s (s.engEcc g seen words none) := by
  unfold State.engEcc
  dsimp only
  refine Follows.foldl (fun t a ht => ?_) (Follows.refl _ _)
  split
  · exact Follows.trans ht (t.corrected_is _ _ _ _ _)
  · exact ht

/-- An engine that is ready runs and waits for nothing; one outside a branch or a shadow has its run bit set and is powered. -/
theorem State.engReady_parts {s : State} {g : Nat} (ready : s.engReady g = true) :
    (s.eng g).state = .running ∧ (s.eng g).wait = none ∧ (s.alone g → (s.eng g).run = true ∧ s.engPowered g = true) := by
  unfold State.engReady at ready
  simp only [Bool.and_eq_true, Bool.or_eq_true, beq_iff_eq, Option.isNone_iff_eq_none] at ready
  obtain ⟨⟨⟨running, noWait⟩, run⟩, powered⟩ := ready
  refine ⟨running, noWait, fun alone => ?_⟩
  unfold State.alone at alone
  rw [alone] at run powered
  exact ⟨by simpa using run, by simpa using powered⟩

/-- A word whose fetch the decoders let pass, and that does not fault, does what its operands say once what it reads has been corrected. -/
theorem State.engIssue_corrected {s : State} {g : Nat} {k : WordKind} {pair : Bool} {op : EngRegs → OpRes} {after : State → State}
    {reads : EngRegs → List Nat} {seen : LmSeen} {res : OpRes} (h : s.issues g k) (hop : op (s.eng g).r = res)
    (hf : ∀ f keep, res ≠ .fault f keep) (fetch : s.fetchFault g seen = none) :
    s.engIssue g k pair op after seen reads = after ((s.engEcc g seen (reads (s.eng g).r) none).engApply g pair res) := by
  obtain ⟨ready, due, place, -⟩ := h
  obtain ⟨run, -⟩ := State.engReady_parts ready
  have still : ((s.engEcc g seen (reads (s.eng g).r) none).eng g).state = .running := by
    rw [(s.engEcc_is g seen _).engs_eq rfl]; exact run
  have noCause : ¬ ((s.eng g).atBoundary && (s.boundaryCause g).isSome) = true := by
    intro c
    rw [Bool.and_eq_true] at c
    rw [due c.1] at c
    exact Bool.false_ne_true c.2
  unfold State.engIssue
  simp only [ready, Bool.not_true, Bool.false_eq_true, if_false, hop, fetch, place, worst, if_neg noCause, still, bne_self_eq_false]

/-- Where the decoders show no uncorrectable error, the checks of a local access are those of the access alone. -/
theorem State.localFault_seen {seen : LmSeen} (clean : ∀ a, seen.bad a = false) (s : State) (g a n al : Nat) (load : Bool) :
    s.localFault g a n al load seen = s.localFault g a n al load := by
  unfold State.localFault
  simp only [clean, show ∀ a, LmSeen.bad [] a = false from fun _ => rfl]

/-- The checks of an access to local memory, where the size is legal and the access does not fault. -/
theorem localChecks_none {s : State} {g a n al : Nat} {load illegal : Bool} {seen : LmSeen} {r : EngRegs} (legal : illegal = false)
    (ok : s.localFault g a n al load seen = none) :
    worst [illegalIf illegal, s.devPriv g false r, s.memFault g a n al false load seen] = none := by
  rw [legal, show s.memFault g a n al false load seen = s.localFault g a n al load seen from rfl, ok]
  rfl

/-! ### Sixteen words as a vector (R195) -/

/-- Lane i of sixty-four bytes, four bytes a lane. -/
theorem bytesVec_lane (f : Nat → Byte) {i : Nat} (hi : i < 16) :
    vget (bytesVec ((List.range 64).map f)) i = BitVec.ofNat 32 (ofBytes ((List.range 4).map fun j => f (4 * i + j))) := by
  have part : (((List.range 64).map f).drop (4 * i)).take 4 = (List.range 4).map fun j => f (4 * i + j) := by
    refine List.ext_getElem ?_ fun j h1 h2 => ?_
    · simp only [List.length_take, List.length_drop, List.length_map, List.length_range]; omega
    · simp only [List.getElem_take, List.getElem_drop, List.getElem_map, List.getElem_range]
  unfold bytesVec vget
  rw [Vector.getElem_ofFn]
  dsimp only
  rw [Nat.mod_eq_of_lt hi, part]

theorem State.lmRead_lane (s : State) (g a i : Nat) : s.lmRead g (a + 4 * i) 4 = ofBytes ((List.range 4).map fun j => s.lmByte g (a + (4 * i + j))) := by
  unfold State.lmRead
  simp only [Nat.add_assoc]

end Sys2Proof.Machine
end
section
/-! Loads, stores and gathers on local memory: their checks, the lanes of a GATHER one after another, and the claim. -/

namespace Sys2Proof.Machine

open Sys2Proof

/-! ### Loads and stores (R195) -/

theorem size_legal {size : Nat} (small : size < 3) : (size == 3) = false := by simp; omega

theorem vector_legal {d : Nat} (hd : d < 4) : ((0 : Nat) != 0 || badVec [d]) = false := by
  unfold badVec
  simp
  omega

section Load

variable {s : State} {g a size : Nat} {off : BitVec 14} (h : s.issues g .plain)
include h

theorem load_writes (small : size < 3) {d : Nat} {sx : Bool} {c : Instr} (he : exec c s = .next (s.engLoad g d a false sx size off [])) (hd : d < 16)
    (ok : s.localFault g (lmAddress (s.eng g).r a off) (2 ^ size) (2 ^ size) true = none) :
    Writes s c g d (loadValue (2 ^ size) sx (s.lmRead g (lmAddress (s.eng g).r a off) (2 ^ size))) :=
  writes_of he h (by dsimp only; rw [localChecks_none (size_legal small) ok]; rfl) hd

theorem store_stores (small : size < 3) {d : Nat} {c : Instr} (he : exec c s = .next (s.engStore g d a false size off)) (direct : s.direct g)
    (ok : s.localFault g (lmAddress (s.eng g).r a off) (2 ^ size) (2 ^ size) false = none) :
    Stores s c g (lmAddress (s.eng g).r a off) (toBytes (2 ^ size) ((s.eng g).r.get d).toNat) :=
  stores_of he h direct (by dsimp only; rw [localChecks_none (size_legal small) ok]; rfl)

/-- A load delivers a corrected word (R421). -/
theorem load_corrected (small : size < 3) {d : Nat} {c : Instr} {seen : LmSeen}
    (he : exec c s = .next (s.engLoad g d a false false size off seen)) (hd : d < 16)
    (clean : ∀ w, seen.bad w = false) (ok : s.localFault g (lmAddress (s.eng g).r a off) (2 ^ size) (2 ^ size) true = none) :
    Leads s c fun t => wroteReg s t g d (BitVec.ofNat 32 (s.lmRead g (lmAddress (s.eng g).r a off) (2 ^ size))) ∧ sameVecs s t g := by
  have ok' := (State.localFault_seen clean s g (lmAddress (s.eng g).r a off) (2 ^ size) (2 ^ size) true).trans ok
  have issued : s.engLoad g d a false false size off seen = State.engRetire _ g false
      ((s.eng g).r.put d (BitVec.ofNat 32 (s.lmRead g (lmAddress (s.eng g).r a off) (2 ^ size)))) [] :=
    State.engIssue_corrected (k := memKind false) (res := .ok _ []) h (by dsimp only; rw [localChecks_none (size_legal small) ok']; rfl) nofun
      (State.fetchFault_clean h.2.2.2 (clean _))
  refine ⟨_, he, ?_⟩
  rw [issued]
  exact ⟨wroteReg_retired _ _ _ _ hd _ _, sameVecs_retired _ _ _ _ (EngRegs.put_v _ _ _) _⟩

/-- A vector load: what each lane holds. -/
theorem vload_writes {d : Nat} {c : Instr} (he : exec c s = .next (s.engVmem g d a true false 0 off [])) (hd : d < 4)
    (ok : s.localFault g (lmAddress (s.eng g).r a off) 64 4 true = none) :
    WritesVec s c g d (bytesVec ((List.range 64).map fun i => s.lmByte g (lmAddress (s.eng g).r a off + i))) :=
  writesVec_of (r := (s.eng g).r) he h (by dsimp only; rw [localChecks_none (vector_legal hd) ok]; rfl) ⟨_, _, rfl⟩ hd

theorem vstore_stores {d : Nat} {c : Instr} (he : exec c s = .next (s.engVmem g d a false false 0 off [])) (hd : d < 4) (direct : s.direct g)
    (ok : s.localFault g (lmAddress (s.eng g).r a off) 64 4 false = none) :
    Stores s c g (lmAddress (s.eng g).r a off) (vecBytes ((s.eng g).r.vec d)) :=
  stores_of he h direct (by dsimp only; rw [localChecks_none (vector_legal hd) ok]; rfl)

end Load

/-! ### GATHER (R213, R214) -/

theorem vset_vget {α : Type} {n : Nat} [NeZero n] (v : Vector α n) (i : Nat) : vset v i (vget v i) = v := by
  unfold vget vset
  simp

theorem vset_vset {α : Type} {n : Nat} [NeZero n] (v : Vector α n) (i : Nat) (x y : α) : vset (vset v i x) i y = vset v i y := by
  unfold vset
  simp

theorem EngRegs.putVec_vec (r : EngRegs) (d : Nat) : r.putVec d (r.vec d) = r := by
  unfold EngRegs.putVec EngRegs.vec
  rw [vset_vget]

/-- The registers after lane i has its word x. -/
def EngRegs.laneDone (r : EngRegs) (d i : Nat) (x : Word) : EngRegs := { (r.putVec d (vset (r.vec d) i x)) with gdone := r.gdone ||| 2 ^ i }

/-- The registers after a GATHER that leaves the vector v. -/
def EngRegs.gatherDone (r : EngRegs) (d : Nat) (v : Vector Word 16) : EngRegs := { (r.putVec d v) with gdone := 0 }

theorem EngRegs.laneDone_gatherDone (r : EngRegs) (d i : Nat) (x : Word) (v : Vector Word 16) :
    (r.laneDone d i x).gatherDone d v = r.gatherDone d v := by
  unfold EngRegs.laneDone EngRegs.gatherDone EngRegs.putVec
  simp only [vset_vset]

theorem EngRegs.gatherDone_vec (r : EngRegs) {d k : Nat} (v : Vector Word 16) (hd : d < 4) (hk : k < 4) :
    (r.gatherDone d v).vec k = if k = d then v else r.vec k := EngRegs.vec_putVec r d k v hd hk

theorem EngRegs.laneDone_vec_same (r : EngRegs) (d i : Nat) (x : Word) : (r.laneDone d i x).vec d = vset (r.vec d) i x := vget_vset_same _ _ _

theorem EngRegs.laneDone_vec_ne (r : EngRegs) {d b : Nat} (i : Nat) (x : Word) (hd : d < 4) (hb : b < 4) (ne : d ≠ b) :
    (r.laneDone d i x).vec b = r.vec b :=
  vget_vset_ne _ _ _ _ (by rw [Nat.mod_eq_of_lt hd, Nat.mod_eq_of_lt hb]; exact ne.symm)

theorem EngRegs.laneDone_bit (r : EngRegs) (d : Nat) (x : Word) {i j : Nat} (ne : i ≠ j) : (r.laneDone d i x).gdone.testBit j = r.gdone.testBit j := by
  show (r.gdone ||| 2 ^ i).testBit j = _
  rw [Nat.testBit_or, Nat.testBit_two_pow_of_ne ne, Bool.or_false]

section Gather

variable {s : State} {g d base idx : Nat} {r : EngRegs} (hd : d < 4) (hidx : idx < 4) (ne : d ≠ idx)
include hd hidx ne

/-- Lane addresses do not change as lanes are written. -/
theorem gatherAddr_laneDone (i j : Nat) (x : Word) : gatherAddr (r.laneDone d i x) base idx j = gatherAddr r base idx j := by
  unfold gatherAddr
  rw [EngRegs.laneDone_vec_ne r i x hd hidx ne]
  rfl

/-- The vector that a GATHER ends with, seen from lane i on: the lanes before stay, and each later one that is not marked comes from memory. -/
def gathered (s : State) (g d base idx i : Nat) (r : EngRegs) (v : Vector Word 16) : Prop :=
  ∀ j : Nat, j < 16 → vget v j = if i ≤ j ∧ r.gdone.testBit j = false then BitVec.ofNat 32 (s.lmRead g (gatherAddr r base idx j) 4)
    else vget (r.vec d) j

/-- The lanes of a local GATHER from i on, none of which faults. -/
theorem State.gatherLocal_ok : ∀ (n i : Nat) (r : EngRegs), i + n = 16 →
    (∀ j : Nat, i ≤ j → j < 16 → r.gdone.testBit j = false → s.localFault g (gatherAddr r base idx j) 4 4 true = none) →
    ∃ v, s.gatherLocal g d base idx [] n i r = .ok (r.gatherDone d v) [] ∧ gathered s g d base idx i r v
  | 0, i, r, hi, _ => by
    refine ⟨r.vec d, ?_, fun j hj => by rw [if_neg fun c => by omega]⟩
    unfold EngRegs.gatherDone
    rw [EngRegs.putVec_vec]
    rfl
  | n + 1, i, r, hi, ok => by
    unfold State.gatherLocal
    by_cases done : r.gdone.testBit i = true
    · rw [if_pos done]
      obtain ⟨v, e, lanes⟩ := State.gatherLocal_ok n (i + 1) r (by omega) fun j hj => ok j (by omega)
      refine ⟨v, e, fun j hj => (lanes j hj).trans (if_congr ?_ rfl rfl)⟩
      by_cases same : j = i
      · subst same; simp [done]
      · exact and_congr_left fun _ => by omega
    · rw [if_neg done]
      dsimp only
      have todo := Bool.of_not_eq_true done
      rw [ok i (Nat.le_refl i) (by omega) todo]
      dsimp only
      set x := BitVec.ofNat 32 (s.lmRead g (gatherAddr r base idx i) 4)
      obtain ⟨v, e, lanes⟩ := State.gatherLocal_ok n (i + 1) (r.laneDone d i x) (by omega) fun j hj l b => by
        rw [gatherAddr_laneDone hd hidx ne]
        exact ok j (by omega) l (by rwa [EngRegs.laneDone_bit r d x (by omega)] at b)
      refine ⟨v, e.trans (by rw [EngRegs.laneDone_gatherDone]), fun j hj => (lanes j hj).trans ?_⟩
      rw [gatherAddr_laneDone hd hidx ne, EngRegs.laneDone_vec_same]
      by_cases same : j = i
      · subst same
        rw [if_neg fun c => by omega, if_pos ⟨Nat.le_refl j, todo⟩, vget_vset_same]
      · rw [EngRegs.laneDone_bit r d x (Ne.symm same), vget_vset_ne _ _ _ _ (by omega)]
        exact if_congr (and_congr_left fun _ => by omega) rfl rfl

end Gather

theorem EngRegs.retireAt_gdone (r : EngRegs) (a : Nat) : (r.retireAt a).gdone = r.gdone := by
  unfold EngRegs.retireAt EngRegs.outerEnd
  dsimp only
  repeat' split
  all_goals rfl

/-- The engine after a word that stands alone, where no write of another agent waits. -/
theorem State.engRetire_alone_r {s : State} {g : Nat} (pair : Bool) (r : EngRegs) (st : List (Nat × List Byte)) (alone : s.alone g)
    (quiet : (s.eng g).agentWrites = []) : ((s.engRetire g pair r st).eng g).r = r.retireAt (s.eng g).r.pc := by
  obtain ⟨out, e⟩ := s.engRetire_eng g pair r st
  have plain : ((s.eng g).retired r st).agentWrites = [] ∧ ((s.eng g).retired r st).r = r.retireAt (s.eng g).r.pc := by
    unfold Engine.retired
    rw [show (s.eng g).ctx = .plain from alone]
    exact ⟨quiet, rfl⟩
  rw [e, Engine.settled_r _ out plain.1, plain.2]

/-- A local GATHER none of whose lanes faults. -/
theorem gather_writes {s : State} {g d base idx : Nat} {func : BitVec 13} {c : Instr} (h : s.issues g .plain)
    (he : exec c s = .next (s.engGather g d base idx func [])) (near : func.getLsbD 0 = false) (hd : d < 4) (hidx : idx < 4) (ne : d ≠ idx)
    (ok : ∀ i : Nat, i < 16 → (s.eng g).r.gdone.testBit i = false → s.localFault g (gatherAddr (s.eng g).r base idx i) 4 4 true = none) :
    ∃ v, WritesVec s c g d v ∧ gathered s g d base idx 0 (s.eng g).r v ∧
      (s.alone g → (s.eng g).agentWrites = [] → Leads s c fun t => (t.eng g).r.gdone = 0) := by
  obtain ⟨v, e, lanes⟩ := State.gatherLocal_ok hd hidx ne 16 0 (s.eng g).r rfl fun j _ => ok j
  have issued : s.engGather g d base idx func = s.engRetire g false ((s.eng g).r.gatherDone d v) [] := by
    unfold State.engGather
    rw [near]
    refine State.engIssue_ok (k := memKind false) (after := id) h ?_
    rw [gather_legal hd hidx ne, ← e]
    rfl
  have next := he.trans (next_congr issued)
  refine ⟨v, ⟨_, next, fun k hk => ?_, sameRegs_retired s s g false (r := (s.eng g).r.gatherDone d v) rfl [],
    wordFrame_retire s g false _ ⟨rfl, rfl, rfl, rfl, rfl, rfl, rfl, rfl⟩⟩, lanes, fun alone quiet => ⟨_, next, ?_⟩⟩
  · rw [← EngRegs.gatherDone_vec _ _ hd hk]
    unfold EngRegs.vec
    rw [(s.engRetire_wv g false _ []).2.1]
  · show ((s.engRetire g false ((s.eng g).r.gatherDone d v) []).eng g).r.gdone = 0
    rw [State.engRetire_alone_r _ _ _ alone quiet, EngRegs.retireAt_gdone]
    rfl

theorem LmSeen.bad_corrected (a line syn : Nat) (gd : Bool) (w : Nat) : LmSeen.bad [(a, .corrected line syn gd)] w = false := by
  unfold LmSeen.bad
  cases e : a == w <;> simp [List.find?, e]

/-! ### The claim -/

/-- Settles O5: none of the accesses faults, so each word retires with what local memory holds or with its bytes stored. -/
theorem localMemoryWords : Obligations.LocalMemoryWords := by
  unfold Obligations.LocalMemoryWords
  refine ⟨fun s g d a size off line syn gd h => ⟨fun small ok => ⟨?_, ?_, ?_⟩, fun hd ok => ?_⟩,
    fun s g d a size off h direct => ⟨fun small ok => ?_, fun hd ok => ?_⟩, fun s g d a b func h hd hb ne near => ?_⟩
  · exact load_writes (sx := false) h small rfl d.isLt ok
  · exact load_writes (sx := true) h small rfl d.isLt ok
  · exact load_corrected h small rfl d.isLt (LmSeen.bad_corrected _ _ _ _) ok
  · refine ⟨_, vload_writes h rfl hd ok, fun i hi => ?_⟩
    rw [bytesVec_lane _ hi, State.lmRead_lane]
    rfl
  · exact store_stores h small rfl direct ok
  · exact vstore_stores h rfl hd direct ok
  · intro r addr ok
    obtain ⟨v, writes, lanes, done⟩ := gather_writes (c := .gather ⟨g, []⟩ d a b func) h rfl near hd hb (fun e => ne (Fin.ext e)) ok
    refine ⟨v, writes, fun i hi => ?_, done⟩
    rw [lanes i hi]
    by_cases marked : r.gdone.testBit i = true
    · rw [if_pos marked, if_neg fun c => Bool.false_ne_true (c.2.symm.trans marked)]
    · rw [if_neg marked, if_pos ⟨Nat.zero_le i, Bool.of_not_eq_true marked⟩]
      rfl

end Sys2Proof.Machine
end

section
/-! Branches, jumps, calls and returns: the delay slot that each opens, what its end leaves, and the claim. -/

set_option Elab.async false

namespace Sys2Proof.Machine

open Sys2Proof

/-! ### Opening a delay slot (R199, R200) -/

theorem State.engIssue_jump {s : State} {g : Nat} (h : s.issues g .branch) {op : EngRegs → OpRes} {target : Option Nat} {push pop leaves : Bool}
    (hop : op (s.eng g).r = .jump target push pop leaves) : s.engIssue g .branch false op = s.inSlot g target push pop leaves :=
  State.engIssue_apply (after := id) h hop nofun h.2.2.2 (s.engEcc_clean g _)

theorem targetFault_none {t : Int} (lo : 0 ≤ t) (hi : t < 65536) (al : t % 4 = 0) : targetFault t = none := by
  have inside : ¬ (t < 0 ∨ 65536 ≤ t) := by omega
  unfold targetFault faultIf
  simp [inside, al]

/-- A taken branch whose target is legal and whose other checks pass. -/
theorem branchRes_taken {checks : List (Option EFault)} {t : Int} {push pop leaves : Bool} {r : EngRegs} (clear : worst checks = none)
    (lo : 0 ≤ t) (hi : t < 65536) (al : t % 4 = 0) :
    branchRes checks (some t) push pop leaves r = .jump (some t.toNat) push pop leaves := by
  have all : worst (targetFault t :: checks) = none := by rw [targetFault_none lo hi al]; exact clear
  unfold branchRes
  dsimp only
  rw [all]
  rfl

/-- A conditional branch that goes to its target where the condition holds, and else to the word after its delay slot. -/
theorem branch_goes {s : State} {g a b : Nat} {off : BitVec 17} {p : Word → Word → Bool} {taken : Prop} {c : Instr} (h : s.issues g .branch)
    (he : exec c s = .next (s.engBranch g a b off p)) (cond : p ((s.eng g).r.get a) ((s.eng g).r.get b) = true ↔ taken) :
    (taken → 0 ≤ branchTarget (s.eng g).r off → branchTarget (s.eng g).r off < 65536 → branchTarget (s.eng g).r off % 4 = 0 →
      exec c s = .next (s.inSlot g (some (branchTarget (s.eng g).r off).toNat) false false true)) ∧
    (¬ taken → exec c s = .next (s.inSlot g none false false true)) := by
  refine ⟨fun yes lo hi al => he.trans (next_congr ?_), fun no => he.trans (next_congr ?_)⟩
  · exact State.engIssue_jump h (by rw [if_pos (cond.mpr yes)]; exact branchRes_taken rfl lo hi al)
  · exact State.engIssue_jump h (by rw [if_neg fun c => no (cond.mp c)]; rfl)

/-! ### Jumps, calls and returns (R199, R201) -/

theorem State.pushFault_none {s : State} {g : Nat} {r : EngRegs} (room : (s.eng g).rsMode = false ∨ r.rstack.length < 8) : s.pushFault g r = none := by
  have no : ((s.eng g).rsMode && decide (8 ≤ r.rstack.length)) = false := by
    rcases room with e | e
    · rw [e, Bool.false_and]
    · rw [decide_eq_false (Nat.not_le.mpr e), Bool.and_false]
  unfold State.pushFault
  rw [no]
  rfl

/-- The checks of a jump or a call with legal fields pass, where a call has room on the return stack. -/
theorem jumpChecks_none {s : State} {g : Nat} {r : EngRegs} {call : Bool} (room : call = true → (s.eng g).rsMode = false ∨ r.rstack.length < 8) :
    worst [illegalIf false, if call then s.pushFault g r else none] = none := by
  cases call
  · rfl
  · rw [if_pos rfl, State.pushFault_none (room rfl)]
    rfl

section Jump

variable {s : State} {g : Nat} {call : Bool} (h : s.issues g .branch)
  (room : call = true → (s.eng g).rsMode = false ∨ (s.eng g).r.rstack.length < 8)
include h room

theorem State.engJump_inSlot {off : BitVec 17} (lo : 0 ≤ branchTarget (s.eng g).r off) (hi : branchTarget (s.eng g).r off < 65536)
    (al : branchTarget (s.eng g).r off % 4 = 0) :
    s.engJump g 0 off call = s.inSlot g (some (branchTarget (s.eng g).r off).toNat) call false (!call) :=
  State.engIssue_jump h (branchRes_taken (jumpChecks_none room) lo hi al)

theorem State.engJumpReg_inSlot {a : Nat} (hi : ((s.eng g).r.get a).toNat < 65536) (al : ((s.eng g).r.get a).toNat % 4 = 0) :
    s.engJumpReg g a 0 0 call = s.inSlot g (some ((s.eng g).r.get a).toNat) call false (!call) :=
  State.engIssue_jump h (branchRes_taken (jumpChecks_none room) (by omega) (by omega) (by omega))

end Jump

theorem State.engRet_inSlot {s : State} {g top : Nat} (h : s.issues g .branch) (last : (s.eng g).r.rstack.getLast? = some top) (hi : top < 65536)
    (al : top % 4 = 0) : s.engRet g 0 = s.inSlot g (some top) false true false :=
  State.engIssue_jump h (by rw [last]; exact branchRes_taken rfl (by omega) (by omega) (by omega))

/-! ### The end of a delay slot (R200, R201, R204) -/

theorem EngRegs.leaveLoops_rstack (r : EngRegs) (t : Nat) : (r.leaveLoops t).rstack = r.rstack := by
  unfold EngRegs.leaveLoops
  dsimp only
  repeat' split
  all_goals rfl

theorem EngRegs.put_rest (r : EngRegs) (d : Nat) (x : Word) : ∃ w, r.put d x = { r with w := w } := by
  unfold EngRegs.put
  split
  · exact ⟨r.w, rfl⟩
  · exact ⟨_, rfl⟩

theorem Engine.branchDone_pc (x : Engine) (r : EngRegs) (b : Nat) (target : Option Nat) (push pop leaves : Bool) :
    (x.branchDone r b target push pop leaves).r.pc = target.getD ((b + 8) % 65536) := by
  cases target <;> rfl

/-- The return stack after a branch: popped, then pushed, the oldest entry of a full stack dropped. -/
theorem Engine.branchDone_rstack (x : Engine) (r : EngRegs) (b : Nat) (target : Option Nat) (push pop leaves : Bool) :
    (x.branchDone r b target push pop leaves).r.rstack =
      let old := if pop then r.rstack.dropLast else r.rstack
      if push then (if 8 ≤ old.length then old.drop 1 else old) ++ [(b + 8) % 65536] else old := by
  have stack (c : Bool) (x y : EngRegs) : (if c then x else y).rstack = if c then x.rstack else y.rstack := by cases c <;> rfl
  cases target with
  | none => unfold Engine.branchDone; simp only [stack]
  | some t => unfold Engine.branchDone; simp only [stack, EngRegs.leaveLoops_rstack, ite_self]

/-- A word that retires in a delay slot ends the branch. -/
theorem State.engRetire_slot {s : State} {g b : Nat} {target : Option Nat} {push pop leaves : Bool}
    (slot : (s.eng g).ctx = .delaySlot b target push pop leaves) (pair : Bool) (r : EngRegs) (st : List (Nat × List Byte)) :
    ((s.engRetire g pair r st).eng g).ctx = .plain ∧ ((s.engRetire g pair r st).eng g).r.pc = target.getD ((b + 8) % 65536) ∧
      ((s.engRetire g pair r st).eng g).r.rstack = ((s.eng g).branchDone r b target push pop leaves).r.rstack := by
  obtain ⟨out, e⟩ := s.engRetire_eng g pair r st
  obtain ⟨ctx, -, -, -, -, -, -, pc, rstack, -⟩ := Engine.settled_near ((s.eng g).retired r st) out
  have done : ((s.eng g).retired r st).ctx = .plain ∧ ((s.eng g).retired r st).r = ((s.eng g).branchDone r b target push pop leaves).r := by
    unfold Engine.retired
    rw [slot]
    exact ⟨rfl, rfl⟩
  rw [e, ctx, pc, rstack, done.1, done.2, Engine.branchDone_pc]
  exact ⟨rfl, rfl, rfl⟩

/-! ### The claim -/

/-- Settles O6, by the delay slot that each word opens and by the word that retires in one. -/
theorem branchesAndJumps : Obligations.BranchesAndJumps := by
  unfold Obligations.BranchesAndJumps
  refine ⟨fun s g a b off h => ?_, fun s g a b off h => ?_, fun s g d a c b target push pop leaves h slot => ?_⟩
  · refine ⟨branch_goes h rfl beq_iff_eq, branch_goes h rfl bne_iff_ne, branch_goes h rfl decide_eq_true_iff, branch_goes h rfl decide_eq_true_iff,
      branch_goes h rfl decide_eq_true_iff, branch_goes h rfl decide_eq_true_iff⟩
  · refine ⟨fun lo hi al => ⟨?_, fun room => ?_⟩, fun hi al => ⟨?_, fun room => ?_⟩, fun top last hi al => ?_⟩
    · exact next_congr (State.engJump_inSlot (call := false) h nofun lo hi al)
    · exact next_congr (State.engJump_inSlot (call := true) h (fun _ => room) lo hi al)
    · exact next_congr (State.engJumpReg_inSlot (call := false) h nofun hi al)
    · exact next_congr (State.engJumpReg_inSlot (call := true) h (fun _ => room) hi al)
    · exact next_congr (State.engRet_inSlot h last hi al)
  · intro old
    obtain ⟨w, value⟩ := (s.eng g.val).r.put_rest d.val ((s.eng g.val).r.get a.val + (s.eng g.val).r.get c.val)
    have retired : exec (.add g d a c 0) s = .next (s.engRetire g.val false { (s.eng g.val).r with w := w } []) :=
      next_congr (State.engIssue_ok (after := id) h (by rw [← value]; rfl))
    obtain ⟨ctx, pc, rstack⟩ := State.engRetire_slot slot false { (s.eng g.val).r with w := w } []
    rw [Engine.branchDone_rstack] at rstack
    refine ⟨_, retired, ctx, pc, fun noPush noPop => ?_, fun noPush pops => ?_, fun pushes noPop => ?_⟩
    · rw [rstack, noPush, noPop]; rfl
    · rw [rstack, noPush, pops]; rfl
    · rw [rstack, pushes, noPop]; rfl

end Sys2Proof.Machine
end

section
/-! Hardware loops and the saved return stack: what a retirement does to the loop levels, what LOOP opens, and the claim. -/

set_option Elab.async false

namespace Sys2Proof.Machine

open Sys2Proof

/-! ### What a word leaves outside its engine -/

/-- Every other engine, all memory and every register field but the counters' are as before. -/
def leavesRest (s t : State) (g : Nat) : Prop := onlyEngine s t g ∧ sameBytes s t

theorem leavesRest.refl (s : State) (g : Nat) : leavesRest s s g := ⟨⟨fun _ _ => rfl, fun _ _ => rfl⟩, fun _ => rfl⟩

section LeavesRest

variable {s t : State} {g : Nat} (h : leavesRest s t g)
include h

theorem leavesRest.updEng (f : Engine → Engine) : leavesRest s (t.updEng g f) g :=
  ⟨⟨fun k ne => (State.eng_updEng_ne _ _ _ _ ne).trans (h.1.1 k ne), h.1.2⟩, h.2⟩

theorem leavesRest.pmcAt (ev inst n : Nat) (pc : Option (Nat × Nat)) : leavesRest s (t.pmcAt ev inst n pc) g :=
  ⟨⟨fun k ne => (t.pmcAt_eng ev inst n pc k).trans (h.1.1 k ne), fun f hf => (t.pmcAt_get ev inst n pc f hf).trans (h.1.2 f hf)⟩,
    fun a => (t.pmcAt_byte ev inst n pc a).trans (h.2 a)⟩

theorem leavesRest.engBoundary : leavesRest s (t.engBoundary g) g :=
  ⟨⟨fun k ne => (t.engBoundary_ne g k ne).trans (h.1.1 k ne), fun f hf => (t.engBoundary_get g f).trans (h.1.2 f hf)⟩,
    fun a => (t.engBoundary_byte g a).trans (h.2 a)⟩

end LeavesRest

/-! ### Loop levels at a retirement (R190, R203) -/

theorem lcDec_of_pos {n : Nat} (pos : 0 < n) (small : n < 2 ^ 32) : lcDec n = n - 1 := by
  unfold lcDec; omega

section RetireAt

variable {r : EngRegs}

theorem EngRegs.retireAt_rstack (r : EngRegs) (a : Nat) : (r.retireAt a).rstack = r.rstack := by
  unfold EngRegs.retireAt EngRegs.outerEnd
  dsimp only
  repeat' split
  all_goals rfl

/-- The pc and the loop levels do not depend on the general registers. -/
theorem EngRegs.retireAt_put (r : EngRegs) (d : Nat) (x : Word) (a : Nat) :
    ((r.put d x).retireAt a).pc = (r.retireAt a).pc ∧ ((r.put d x).retireAt a).lc = (r.retireAt a).lc ∧
      ((r.put d x).retireAt a).ldepth = (r.retireAt a).ldepth := by
  obtain ⟨w, e⟩ := r.put_rest d x
  rw [e]
  unfold EngRegs.retireAt EngRegs.outerEnd
  dsimp only
  split_ifs <;> exact ⟨rfl, rfl, rfl⟩

/-- The words of the return stack, the pc and the loop levels after a word that stands alone. -/
theorem State.engRetire_alone_levels {s : State} {g : Nat} (pair : Bool) (r : EngRegs) (st : List (Nat × List Byte)) (alone : s.alone g) :
    let q := ((s.engRetire g pair r st).eng g).r
    let p := r.retireAt (s.eng g).r.pc
    q.pc = p.pc ∧ q.rstack = p.rstack ∧ q.ls = p.ls ∧ q.le = p.le ∧ q.lc = p.lc ∧ q.ldepth = p.ldepth := by
  obtain ⟨out, e⟩ := s.engRetire_eng g pair r st
  obtain ⟨-, -, -, -, -, -, -, near⟩ := Engine.settled_near ((s.eng g).retired r st) out
  have plain : ((s.eng g).retired r st).r = r.retireAt (s.eng g).r.pc := by
    unfold Engine.retired
    rw [show (s.eng g).ctx = .plain from alone]
  rw [plain, ← e] at near
  exact near

/-- No level is active. -/
theorem EngRegs.retireAt_none (a : Nat) (h : r.ldepth = 0) : r.retireAt a = { r with pc := pcNext a } := by
  unfold EngRegs.retireAt
  simp [h]

/-- One level is active, and the word is not at its end. -/
theorem EngRegs.retireAt_inside {a : Nat} (h : r.ldepth = 1) (ne : a ≠ r.le.1) : r.retireAt a = { r with pc := pcNext a } := by
  unfold EngRegs.retireAt
  simp [h, ne]

/-- The end of the outer level, with a count above one. -/
theorem EngRegs.retireAt_outer_back {a : Nat} (h : r.ldepth = 1) (at_end : a = r.le.1) (more : 1 < r.lc.1) (small : r.lc.1 < 2 ^ 32) :
    r.retireAt a = { r with lc := (r.lc.1 - 1, r.lc.2), pc := r.ls.1 } := by
  have left : r.lc.1 - 1 ≠ 0 := by omega
  unfold EngRegs.retireAt EngRegs.outerEnd
  simp [h, at_end, lcDec_of_pos (by omega : 0 < r.lc.1) small, left]

/-- The end of the outer level, with a count of one. -/
theorem EngRegs.retireAt_outer_close {a : Nat} (h : r.ldepth = 1) (at_end : a = r.le.1) (last : r.lc.1 = 1) :
    r.retireAt a = { r with lc := (0, r.lc.2), ldepth := 0, pc := pcNext a } := by
  unfold EngRegs.retireAt EngRegs.outerEnd lcDec
  simp [h, at_end, last]

/-- The end of the inner level, with a count above one. -/
theorem EngRegs.retireAt_inner_back {a : Nat} (h : r.ldepth = 2) (at_end : a = r.le.2) (more : 1 < r.lc.2) (small : r.lc.2 < 2 ^ 32) :
    r.retireAt a = { r with lc := (r.lc.1, r.lc.2 - 1), pc := r.ls.2 } := by
  have left : r.lc.2 - 1 ≠ 0 := by omega
  unfold EngRegs.retireAt
  simp [h, at_end, lcDec_of_pos (by omega : 0 < r.lc.2) small, left]

/-- The end of the inner level, with a count of one, away from the outer level's end. -/
theorem EngRegs.retireAt_inner_close {a : Nat} (h : r.ldepth = 2) (at_end : a = r.le.2) (last : r.lc.2 = 1) (ne : a ≠ r.le.1) :
    r.retireAt a = { r with lc := (r.lc.1, 0), ldepth := 1, pc := pcNext a } := by
  subst at_end
  unfold EngRegs.retireAt lcDec
  simp [h, last, ne]

end RetireAt

/-! ### LOOP (R202) -/

/-- The registers with the next level's start and end. -/
def EngRegs.levelAt (r : EngRegs) (first last : Nat) : EngRegs :=
  if r.ldepth = 0 then { r with ls := (first, r.ls.2), le := (last, r.le.2) } else { r with ls := (r.ls.1, first), le := (r.le.1, last) }

/-- The registers with the next level open and its count n. -/
def EngRegs.levelOpen (r : EngRegs) (first last n : Nat) : EngRegs :=
  { (r.levelAt first last) with lc := if r.ldepth = 0 then (n, r.lc.2) else (r.lc.1, n), ldepth := r.ldepth + 1 }

theorem EngRegs.levelAt_outer {r : EngRegs} (h : r.ldepth = 0) (first last : Nat) :
    r.levelAt first last = { r with ls := (first, r.ls.2), le := (last, r.le.2) } := if_pos h

theorem EngRegs.levelAt_inner {r : EngRegs} (h : r.ldepth = 1) (first last : Nat) :
    r.levelAt first last = { r with ls := (r.ls.1, first), le := (r.le.1, last) } := if_neg (by omega)

theorem loopChecks_none {r : EngRegs} {off : BitVec 17} (far : 1 ≤ off.toInt) (room : r.ldepth < 2) :
    worst [illegalIf ((0 : Nat) != 0 || decide (off.toInt < 1)), faultIf (r.ldepth == 2) (EFault.plain exLoopNest)] = none := by
  have legal : ((0 : Nat) != 0 || decide (off.toInt < 1)) = false := by simp; omega
  have free : (r.ldepth == 2) = false := by simp; omega
  rw [legal, free]
  rfl

section Loop

variable {s : State} {g a : Nat} {off : BitVec 17} (h : s.issues g .loop) (far : 1 ≤ off.toInt) (room : (s.eng g).r.ldepth < 2)
include h far room

/-- LOOP with a count of 0 skips the words of the loop. -/
theorem State.engLoop_skips (zero : ((s.eng g).r.get a).toNat = 0) :
    s.engLoop g a 0 off = s.engApply g false (.goto ((s.eng g).r.levelAt (pcNext (s.eng g).r.pc) (((s.eng g).r.pc + 4 * off.toNat) % 65536))
      (pcNext (((s.eng g).r.pc + 4 * off.toNat) % 65536))) :=
  State.engIssue_apply (after := id) h (by dsimp only; rw [loopChecks_none far room, zero]; rfl) nofun h.2.2.2 (s.engEcc_clean g _)

/-- LOOP with another count opens the level and goes on at its start. -/
theorem State.engLoop_opens (more : ((s.eng g).r.get a).toNat ≠ 0) :
    s.engLoop g a 0 off = s.engApply g false (.goto ((s.eng g).r.levelOpen (pcNext (s.eng g).r.pc) (((s.eng g).r.pc + 4 * off.toNat) % 65536)
      ((s.eng g).r.get a).toNat) (pcNext (s.eng g).r.pc)) :=
  State.engIssue_apply (after := id) h (by dsimp only; rw [loopChecks_none far room, if_neg more]; rfl) nofun h.2.2.2 (s.engEcc_clean g _)

end Loop

/-- The engine after a LOOP: its pc and the levels of r, its other registers and everything outside it as before. -/
theorem State.engGoto_spec (s : State) (g : Nat) {r : EngRegs} (pc : Nat) (hw : r.w = (s.eng g).r.w) (hv : r.v = (s.eng g).r.v) :
    let t := s.engApply g false (.goto r pc)
    let q := (t.eng g).r
    (q.pc = pc ∧ q.ls = r.ls ∧ q.le = r.le ∧ q.lc = r.lc ∧ q.ldepth = r.ldepth) ∧ sameRegs s t g ∧ sameVecs s t g ∧ leavesRest s t g := by
  intro t q
  obtain ⟨out, e⟩ : ∃ out, t.eng g = Engine.settled { s.eng g with r := { r with pc := pc } } out := by
    unfold t State.engApply
    rw [State.engBoundary_eng, State.pmcAt_eng, State.eng_updEng]
    exact ⟨_, rfl⟩
  obtain ⟨-, -, -, -, -, -, -, pc', -, ls, le, lc, depth⟩ := Engine.settled_near { s.eng g with r := { r with pc := pc } } out
  obtain ⟨w, v, -⟩ := Engine.settled_alike { s.eng g with r := { r with pc := pc } } out
  rw [← e] at pc' ls le lc depth w v
  refine ⟨⟨pc', ls, le, lc, depth⟩, fun k => ?_, fun k => ?_, (((leavesRest.refl s g).updEng _).pmcAt _ _ _ _).engBoundary⟩
  · unfold EngRegs.get; rw [w, hw]
  · unfold EngRegs.vec; rw [v, hv]

theorem EngRegs.levelAt_same (r : EngRegs) (first last : Nat) :
    (r.levelAt first last).w = r.w ∧ (r.levelAt first last).v = r.v ∧ (r.levelAt first last).ldepth = r.ldepth := by
  unfold EngRegs.levelAt
  split <;> exact ⟨rfl, rfl, rfl⟩

/-- What LOOP leaves. -/
theorem State.engLoop_spec {s : State} {g a : Nat} {off : BitVec 17} (h : s.issues g .loop) (far : 1 ≤ off.toInt) (room : (s.eng g).r.ldepth < 2) :
    let r := (s.eng g).r
    let first := pcNext r.pc
    let last := (r.pc + 4 * off.toNat) % 65536
    let n := (r.get a).toNat
    let t := s.engLoop g a 0 off
    let q := (t.eng g).r
    q.ls = (r.levelAt first last).ls ∧ q.le = (r.levelAt first last).le ∧
      (n ≠ 0 → q.lc = (if r.ldepth = 0 then (n, r.lc.2) else (r.lc.1, n)) ∧ q.ldepth = r.ldepth + 1 ∧ q.pc = first) ∧
      (n = 0 → q.ldepth = r.ldepth ∧ q.pc = pcNext last) ∧ sameRegs s t g ∧ sameVecs s t g ∧ leavesRest s t g := by
  intro r first last n t q
  obtain ⟨w, v, depth⟩ := r.levelAt_same first last
  by_cases zero : n = 0
  · obtain ⟨⟨pc, ls, le, lc, ldepth⟩, rest⟩ := s.engGoto_spec g (pcNext last) w v
    rw [← State.engLoop_skips h far room zero] at pc ls le ldepth rest
    exact ⟨ls, le, fun more => absurd zero more, fun _ => ⟨ldepth.trans depth, pc⟩, rest⟩
  · obtain ⟨⟨pc, ls, le, lc, ldepth⟩, rest⟩ := s.engGoto_spec g (r := r.levelOpen first last n) first w v
    rw [← State.engLoop_opens h far room zero] at pc ls le lc ldepth rest
    exact ⟨ls, le, fun _ => ⟨lc, ldepth, pc⟩, fun z => absurd z zero, rest⟩

/-! ### The claim -/

/-- Settles O7, by what LOOP opens, what a retirement does to the levels, and what is stored and read of the return stack. -/
theorem loopsAndReturnStack : Obligations.LoopsAndReturnStack := by
  unfold Obligations.LoopsAndReturnStack
  refine ⟨fun s g a off h far room => ?_, fun s g d a b h alone => ?_, fun s g d a b arg h direct => ⟨fun ok => ?_, fun ok => ?_⟩⟩
  · intro r first last n
    obtain ⟨ls, le, opens, skips, regs, vecs, only, bytes⟩ := State.engLoop_spec (a := a) h far room
    refine ⟨_, rfl, fun outer => ?_, fun inner => ?_, fun more => (opens more).2, skips, regs, vecs, only, bytes⟩
    · rw [EngRegs.levelAt_outer outer] at ls le
      exact ⟨congrArg Prod.fst ls, congrArg Prod.fst le, fun more => congrArg Prod.fst ((opens more).1.trans (if_pos outer))⟩
    · rw [EngRegs.levelAt_inner inner] at ls le
      have notOuter : r.ldepth ≠ 0 := by rw [inner]; decide
      exact ⟨ls, le, fun more => (opens more).1.trans (if_neg notOuter)⟩
  · intro r next
    have retired : exec (.add g d a b 0) s = .next (s.engRetire g.val false (r.put d.val (r.get a.val + r.get b.val)) []) :=
      next_congr (State.engIssue_ok (after := id) h rfl)
    obtain ⟨pc, -, -, -, lc, depth⟩ := State.engRetire_alone_levels false (r.put d.val (r.get a.val + r.get b.val)) [] alone
    obtain ⟨pc', lc', depth'⟩ := r.retireAt_put d.val (r.get a.val + r.get b.val) r.pc
    refine ⟨_, retired, ?_⟩
    dsimp only
    rw [pc.trans pc', lc.trans lc', depth.trans depth']
    refine ⟨fun none_ => ?_, fun one ne => ?_, fun one at_end more small => ?_, fun one at_end last => ?_, fun two at_end more small => ?_,
      fun two at_end last ne => ?_⟩
    · rw [EngRegs.retireAt_none _ none_]; exact ⟨rfl, none_⟩
    · rw [EngRegs.retireAt_inside one ne]; exact ⟨rfl, one, rfl⟩
    · rw [EngRegs.retireAt_outer_back one at_end more small]; exact ⟨rfl, rfl, one⟩
    · rw [EngRegs.retireAt_outer_close one at_end last]; exact ⟨rfl, rfl⟩
    · rw [EngRegs.retireAt_inner_back two at_end more small]; exact ⟨rfl, rfl, two⟩
    · rw [EngRegs.retireAt_inner_close two at_end last ne]; exact ⟨rfl, rfl, rfl⟩
  · let q : EngRegs := { (s.eng g.val).r with rstack := [] }
    have stores : exec (.rssave g d a b arg) s = .next (s.engRetire g.val false q _) :=
      next_congr (State.engIssue_ok (after := id) h (by dsimp only; rw [ok]))
    refine ⟨_, stores, storedAt_retired direct false q _ _, fun alone => ?_, sameRegs_retired s s g.val false (r := q) rfl _,
      sameVecs_retired s s g.val false (r := q) rfl _, onlyEngine_retired s g.val false q _⟩
    obtain ⟨-, rstack, -⟩ := State.engRetire_alone_levels false q _ alone
    exact rstack.trans (EngRegs.retireAt_rstack _ _)
  · let saved := (List.range (min (s.lmRead g ((s.eng g).r.get a).toNat 4) 8)).map fun i => s.lmRead g (((s.eng g).r.get a).toNat + 4 + 4 * i) 4 % 65536
    let q : EngRegs := { (s.eng g.val).r with rstack := saved }
    have loads : exec (.rsload ⟨g, []⟩ d a b arg) s = .next (s.engRetire g.val false q []) :=
      next_congr (State.engIssue_ok (after := id) h (by dsimp only; rw [ok]))
    refine ⟨_, loads, fun alone => ?_, sameRegs_retired s s g.val false (r := q) rfl _, sameVecs_retired s s g.val false (r := q) rfl _,
      wordFrame_retire s g.val false q ⟨rfl, rfl, rfl, rfl, rfl, rfl, rfl, rfl⟩⟩
    obtain ⟨-, rstack, -⟩ := State.engRetire_alone_levels false q [] alone
    rw [rstack, EngRegs.retireAt_rstack]

end Sys2Proof.Machine
end

section
/-! Exceptions of an engine: what entering one saves and where it goes on, how a word comes to it, the exceptions that are due at a word boundary, and
the claims. -/

set_option Elab.async false

namespace Sys2Proof.Machine

open Sys2Proof

/-! ### The engine as it enters an exception (R217) -/

/-- Engine g has entered the exception with the given code between s and t. -/
def entered (s t : State) (g code epc cause eaddr : Nat) : Prop :=
  let a := s.eng g
  let b := t.eng g
  b.r.estat = a.r.mode ∧ b.r.epc = epc ∧ b.r.ecause = cause ∧ b.r.eaddr = eaddr ∧ b.r.mode = 5 ∧
    b.r.pc = (a.vbase * 1024 + 16 * code) % 65536 ∧
    b.state = .running ∧ b.wait = none ∧ b.ctx = .plain ∧ sameRegs s t g ∧ sameVecs s t g ∧ onlyEngine s t g ∧ sameBytes s t

/-- An engine whose run bit is set is not halted at a boundary. -/
theorem Engine.settled_state {x : Engine} (out : Bool) (run : x.run = true) : (x.settled out).state = x.state := by
  have kept : ∀ (l : List (Nat × Nat)) (y : Engine), (l.foldl Engine.agentWrite y).state = y.state ∧ (l.foldl Engine.agentWrite y).run = y.run := by
    intro l
    induction l with
    | nil => exact fun y => ⟨rfl, rfl⟩
    | cons w rest ih =>
      intro y
      have one : (y.agentWrite w).state = y.state ∧ (y.agentWrite w).run = y.run := by
        unfold Engine.agentWrite
        split <;> exact ⟨rfl, rfl⟩
      exact ⟨(ih _).1.trans one.1, (ih _).2.trans one.2⟩
  unfold Engine.settled
  split
  · rfl
  · dsimp only
    rw [(kept x.agentWrites x).2, run]
    exact (kept x.agentWrites x).1

/-- What entering an exception saves and leaves, where u is what the word has made of s before. -/
theorem State.engEnter_entered {s u : State} {g : Nat} {r : EngRegs} {code epc cause eaddr : Nat} (exc : r.exc = false)
    (run : (u.eng g).run = true) (vbase : (u.eng g).vbase = (s.eng g).vbase) (alike : (s.eng g).r.alike r) (rest : leavesRest s u g) :
    entered s (u.engEnter g r code epc cause eaddr) g code epc cause eaddr := by
  let y : Engine := { u.eng g with
    r := { r with estat := r.mode, epc := epc, ecause := cause, eaddr := eaddr, mode := 5, pc := ((u.eng g).vbase * 1024 + 16 * code) % 65536 },
    wait := none, ctx := .plain, saved := none, state := .running }
  obtain ⟨out, e⟩ : ∃ out, (u.engEnter g r code epc cause eaddr).eng g = y.settled out := by
    unfold State.engEnter
    dsimp only
    rw [exc, if_neg Bool.false_ne_true, State.engBoundary_eng, State.eng_updEng, State.pmcAt_eng, State.eng_updEng]
    exact ⟨_, rfl⟩
  have left : leavesRest s (u.engEnter g r code epc cause eaddr) g := by
    unfold State.engEnter
    dsimp only
    rw [exc, if_neg Bool.false_ne_true]
    exact (((rest.updEng _).pmcAt _ _ _ _).updEng _).engBoundary
  obtain ⟨ctx, wait, -, -, -, -, -, pc, -⟩ := Engine.settled_near y out
  obtain ⟨w, v, mode, estat, epc', ecause, eaddr', -⟩ := Engine.settled_alike y out
  obtain ⟨sw, sv, smode, -⟩ := alike
  have state : (y.settled out).state = .running := Engine.settled_state out run
  refine ⟨?_, ?_, ?_, ?_, ?_, ?_, ?_, ?_, ?_, fun k => ?_, fun k => ?_, left.1, left.2⟩
  · rw [e, estat]; exact smode
  · rw [e, epc']
  · rw [e, ecause]
  · rw [e, eaddr']
  · rw [e, mode]
  · rw [e, pc, ← vbase]
  · rw [e, state]
  · rw [e, wait]
  · rw [e, ctx]
  · unfold EngRegs.get; rw [e, w, sw]
  · unfold EngRegs.vec; rw [e, v, sv]

/-! ### Words that raise an exception (R192, R195, R217, R218) -/

/-- A word that issues while it stands alone finds the run bit set. -/
theorem State.issues_run {s : State} {g : Nat} {k : WordKind} (h : s.issues g k) (alone : s.alone g) : (s.eng g).run = true := by
  obtain ⟨-, -, powers⟩ := State.engReady_parts h.1
  exact (powers alone).1

/-- Where the decoders show nothing, a fault that is neither poison nor a fetch's leaves the error log alone. -/
theorem State.engEcc_fault {s : State} {g : Nat} {words : List Nat} {f : EFault} (poison : f.code ≠ exPoison) (fetch : f.code ≠ exFetch) :
    s.engEcc g [] words (some f) = s := by
  unfold State.engEcc
  dsimp only
  rw [if_neg (by simp [poison, fetch])]
  exact List.foldlRecOn (motive := fun t => t = s) _ _ rfl fun t ht _ _ => ht

/-- A word that stands alone and faults with the registers as they were enters its exception with EPC at the word. -/
theorem enters_of_fault {s : State} {c : Instr} {g code addr : Nat} {k : WordKind} {op : EngRegs → OpRes} {pair : Bool} {reads : EngRegs → List Nat}
    (h : s.mayFault g k) (he : exec c s = .next (s.engIssue g k pair op (reads := reads))) (poison : code ≠ exPoison) (fetch : code ≠ exFetch)
    (hop : op (s.eng g).r = .fault (EFault.at_ code addr 0) (s.eng g).r) :
    Enters s c g code (s.eng g).r.pc (code + if (s.eng g).r.atLoopEnd (s.eng g).r.pc then 1024 else 0) addr := by
  obtain ⟨issues, alone, exc⟩ := h
  have plain : (s.eng g).ctx = .plain := alone
  have quiet := State.engEcc_fault (s := s) (g := g) (words := reads (s.eng g).r) (f := EFault.at_ code addr 0) poison fetch
  obtain ⟨running, -⟩ := State.engReady_parts issues.1
  have faulted : s.engIssue g k pair op (reads := reads) = s.engEnter g (s.eng g).r code (s.eng g).r.pc
      (code + if (s.eng g).r.atLoopEnd (s.eng g).r.pc then 1024 else 0) addr := by
    rw [State.engIssue_fault issues hop (by rw [quiet]; exact running), quiet]
    unfold State.engFault Engine.faultPlace EFault.at_
    simp only [plain, Bool.false_eq_true, if_false, Nat.zero_mul, Nat.add_zero]
  refine ⟨_, he.trans (next_congr faulted), ?_⟩
  exact State.engEnter_entered exc (State.issues_run issues alone) rfl (EngRegs.alike_refl _) (leavesRest.refl s g)

/-- BRK and SYSC: the exception comes after the word has retired. -/
theorem enters_of_trap {s : State} {c : Instr} {g code : Nat} (h : s.mayFault g .trap)
    (he : exec c s = .next (s.engIssue g .trap false fun _ => .trap code)) :
    Enters s c g code ((s.eng g).r.retireAt (s.eng g).r.pc).pc code 0 := by
  obtain ⟨issues, alone, exc⟩ := h
  have alike := (s.eng g).r.retireAt_alike (s.eng g).r.pc
  have trapped : s.engIssue g .trap false (fun _ => .trap code) = s.engApply g false (.trap code) :=
    State.engIssue_apply (after := id) issues rfl nofun issues.2.2.2 (s.engEcc_clean g _)
  refine ⟨_, he.trans (next_congr trapped), ?_⟩
  refine State.engEnter_entered ?_ ?_ ?_ alike ((leavesRest.refl s g).pmcAt _ _ _ _)
  · unfold EngRegs.exc; rw [alike.2.2.1]; exact exc
  · rw [State.pmcAt_eng]; exact State.issues_run issues alone
  · rw [State.pmcAt_eng]

/-- ERET takes MODE back and goes on at EPC. -/
theorem eret_returns {s : State} {g : Nat} (h : s.issues g .eret) (level : (s.eng g).r.mode.testBit 1 = false) :
    let t := s.engEret g
    (t.eng g).r.mode = (s.eng g).r.estat % 8 ∧ (t.eng g).r.pc = (s.eng g).r.epc % 65536 / 4 * 4 ∧ sameRegs s t g ∧ sameVecs s t g ∧
      onlyEngine s t g ∧ sameBytes s t := by
  let y : Engine := { s.eng g with r := { (s.eng g).r with mode := (s.eng g).r.estat % 8, pc := (s.eng g).r.epc % 65536 / 4 * 4 } }
  have returns : s.engEret g = s.engApply g false .eret :=
    State.engIssue_apply (after := id) h (if_neg (by unfold EngRegs.task; rw [level]; decide)) nofun h.2.2.2 (s.engEcc_clean g _)
  obtain ⟨out, e⟩ : ∃ out, (s.engApply g false .eret).eng g = y.settled out := by
    unfold State.engApply
    dsimp only
    rw [State.engBoundary_eng, State.pmcAt_eng, State.eng_updEng]
    exact ⟨_, rfl⟩
  have left : leavesRest s (s.engApply g false .eret) g := (((leavesRest.refl s g).updEng _).pmcAt _ _ _ _).engBoundary
  obtain ⟨-, -, -, -, -, -, -, pc, -⟩ := Engine.settled_near y out
  obtain ⟨w, v, mode, -⟩ := Engine.settled_alike y out
  intro t
  unfold t
  rw [returns]
  refine ⟨by rw [e, mode], by rw [e, pc], fun k => ?_, fun k => ?_, left.1, left.2⟩
  · unfold EngRegs.get; rw [e, w]
  · unfold EngRegs.vec; rw [e, v]

/-- Settles O10: each word's exception is entered with what R217 saves, and ERET takes the mode back. -/
theorem exceptionEntries : Obligations.ExceptionEntries := by
  unfold Obligations.ExceptionEntries
  refine ⟨fun s g d a b arg => ⟨fun h => ⟨enters_of_trap h rfl, enters_of_trap h rfl⟩, fun h level => ⟨_, rfl, eret_returns h level⟩⟩,
    fun s g d a b u arg size off => ⟨fun h used => ?_, fun h task => ?_, fun h small odd => ?_⟩⟩
  · exact enters_of_fault (code := 1) h rfl (by decide) (by decide) (if_pos (bne_iff_ne.mpr used))
  · exact enters_of_fault (code := 3) h rfl (by decide) (by decide) (if_pos task)
  · have misaligned : s.memFault g (lmAddress (s.eng g).r a off) (2 ^ size.val) (2 ^ size.val) false true [] =
        some (EFault.at_ exAlign (lmAddress (s.eng g).r a off) 0) := if_pos (bne_iff_ne.mpr odd)
    exact enters_of_fault (code := 5) h rfl (by decide) (by decide) (by dsimp only; rw [misaligned, size_legal small]; rfl)

/-- Mesh time as a register holds it: its value, or in DOZE the last one of its steps of four ticks (R216). -/
theorem State.meshRead_awake {s : State} (h : s.pwr.mode ≠ .doze) : s.meshRead = s.clk.mesh := by
  unfold State.meshRead State.now
  rw [if_neg (by simpa using h)]

theorem State.meshRead_doze {s : State} (h : s.pwr.mode = .doze) (since : s.pwr.dozeAt ≤ s.clk.mesh) :
    s.meshRead % 4 = s.pwr.dozeAt % 4 ∧ s.meshRead ≤ s.clk.mesh ∧ s.clk.mesh < s.meshRead + 4 := by
  unfold State.meshRead State.now
  rw [if_pos (by simpa using h)]
  omega

/-- A register pair after both writes. -/
theorem EngRegs.get_put_pair (r : EngRegs) {d k : Nat} (lo hi : Word) (pos : 2 ≤ d) (top : d + 1 < 16) (hk : k < 16) :
    ((r.put d lo).put (d + 1) hi).get k = if k = d then lo else if k = d + 1 then hi else r.get k := by
  rw [EngRegs.get_put _ _ _ _ top hk, EngRegs.get_put _ _ _ _ (by omega) hk]
  by_cases low : k = d
  · rw [if_neg (by omega), if_pos ⟨low, by omega⟩, if_pos low]
  · by_cases high : k = d + 1
    · rw [if_pos ⟨high, by omega⟩, if_neg low, if_pos high]
    · rw [if_neg (by omega), if_neg (by omega), if_neg low, if_neg high]

/-- Settles O9: the pair takes the two words of mesh time, and an odd or zero d is ILLEGAL. -/
theorem meshTimeWord : Obligations.MeshTimeWord := by
  unfold Obligations.MeshTimeWord
  refine fun s g d a b arg => ⟨fun h even pos => ?_, fun h odd => ?_⟩
  · let q := ((s.eng g).r.put d (BitVec.ofNat 32 s.meshRead)).put (d + 1) (BitVec.ofNat 32 (s.meshRead / 2 ^ 32))
    have legal : (d.val % 2 != 0 || decide (d.val < 2)) = false := by simp; omega
    have written : exec (.mtime g d a b arg) s = .next (s.engRetire g.val false q []) :=
      next_congr (State.engIssue_ok (after := id) h (if_neg (by rw [legal]; decide)))
    obtain ⟨w, rest⟩ : ∃ w, q = { (s.eng g).r with w := w } := by
      obtain ⟨w1, e1⟩ := (s.eng g).r.put_rest d (BitVec.ofNat 32 s.meshRead)
      obtain ⟨w2, e2⟩ := EngRegs.put_rest { (s.eng g).r with w := w1 } (d + 1) (BitVec.ofNat 32 (s.meshRead / 2 ^ 32))
      exact ⟨w2, by unfold q; rw [e1, e2]⟩
    refine ⟨_, written, fun k hk => ?_, State.meshRead_awake, State.meshRead_doze, ?_, ?_⟩
    · rw [← EngRegs.get_put_pair _ _ _ pos (by omega) hk]
      unfold EngRegs.get
      rw [(s.engRetire_wv g false q []).1]
    · exact sameVecs_retired s s g false (by rw [rest]) []
    · exact wordFrame_retire s g false q (by rw [rest]; exact ⟨rfl, rfl, rfl, rfl, rfl, rfl, rfl, rfl⟩)
  · have illegal : (d.val % 2 != 0 || decide (d.val < 2)) = true := by simp; omega
    exact enters_of_fault (code := 1) h rfl (by decide) (by decide) (if_pos illegal)

end Sys2Proof.Machine
end

section
/-! Exceptions at word boundaries, and the exception that stops an engine, and the claim. -/

set_option Elab.async false

namespace Sys2Proof.Machine

open Sys2Proof

/-! ### Exceptions at a boundary (R197, R208, R218, R220) -/

/-- The exception that is due at the boundary is entered with EPC at the next word, where u differs from s in what is due alone. -/
theorem State.takeBoundary_entered {s u : State} {g code cause addr : Nat} (boundary : (u.eng g).atBoundary = true)
    (running : (u.eng g).state = .running) (due : u.boundaryCause g = some (code, cause, addr)) (run : (u.eng g).run = true)
    (same : (u.eng g).r = (s.eng g).r) (vbase : (u.eng g).vbase = (s.eng g).vbase) (exc : (s.eng g).r.exc = false) (rest : leavesRest s u g) :
    entered s (u.takeBoundary g) g code (s.eng g).r.pc cause addr := by
  let f : Engine → Engine := fun x => if code = 15 then { x with postedFault := none } else if code = 14 then { x with timedOver := false } else x
  have kept : ∀ x : Engine, (f x).run = x.run ∧ (f x).vbase = x.vbase := by
    intro x
    unfold f
    split
    · exact ⟨rfl, rfl⟩
    · split <;> exact ⟨rfl, rfl⟩
  have taken : u.takeBoundary g = (if 24 ≤ code then (u.updEng g f).pmcAt 0x017 g 1 none else u.updEng g f).engEnter g (s.eng g).r code (s.eng g).r.pc
      cause addr := by
    unfold State.takeBoundary
    dsimp only
    rw [boundary, running, due, same]
    rfl
  have counted : ∀ b : Prop, [Decidable b] → ((if b then (u.updEng g f).pmcAt 0x017 g 1 none else u.updEng g f).eng g) = f (u.eng g) := by
    intro b _
    split
    · rw [State.pmcAt_eng, State.eng_updEng]
    · rw [State.eng_updEng]
  rw [taken]
  refine State.engEnter_entered exc ?_ ?_ (EngRegs.alike_refl _) ?_
  · rw [counted, (kept _).1]; exact run
  · rw [counted, (kept _).2]; exact vbase
  · split
    · exact (rest.updEng f).pmcAt _ _ _ _
    · exact rest.updEng f

theorem State.boundaryCause_posted {s : State} {g a st : Nat} (due : (s.eng g).postedFault = some (a, st)) :
    s.boundaryCause g = some (15, 15 + 2 ^ 16 + st * 2 ^ 20, a) := by
  unfold State.boundaryCause
  dsimp only
  rw [due]

theorem State.boundaryCause_timed {s : State} {g : Nat} (noPosted : (s.eng g).postedFault = none) (late : (s.eng g).timedOver = true) :
    s.boundaryCause g = some (14, 14, 0) := by
  unfold State.boundaryCause
  dsimp only
  rw [noPosted, late]
  rfl

/-- The lowest enabled line is due outside timed mode and handlers. -/
theorem State.boundaryCause_line {s : State} {g line : Nat} (noPosted : (s.eng g).postedFault = none) (notOver : (s.eng g).timedOver = false)
    (untimed : (s.eng g).r.timed = false) (exc : (s.eng g).r.exc = false) (small : line < 8)
    (on : ((s.eng g).r.ien &&& s.ipend g).testBit line = true) (lowest : ∀ l : Nat, l < line → ((s.eng g).r.ien &&& s.ipend g).testBit l = false) :
    s.boundaryCause g = some (24 + line, 24 + line, 0) := by
  have found : (List.range 8).find? (fun l => ((s.eng g).r.ien &&& s.ipend g).testBit l) = some line := by
    rw [List.find?_range_eq_some]
    exact ⟨on, List.mem_range.mpr small, fun l hl => by rw [lowest l hl]; rfl⟩
  unfold State.boundaryCause
  dsimp only
  rw [noPosted, notOver, untimed, exc, found]
  rfl

/-! ### An exception inside an exception (R221) -/

/-- An engine that enters an exception while it handles one stops, with the second cause; its source is pending while the hub is up. -/
theorem State.engEnter_stops {u : State} {g : Nat} {r : EngRegs} {code epc cause eaddr : Nat} (exc : r.exc = true) (hg : g < 192) :
    let t := u.engEnter g r code epc cause eaddr
    (t.eng g).state = .stopped ∧ (t.eng g).stopCause = code ∧ (t.eng g).r = r ∧ (u.hubUp = true → t.pends (128 + g) = true) := by
  intro t
  let v : State := (u.updEng g fun x => { x with r := r, wait := none, ctx := .plain, saved := none, state := .running }).pmcAt 0x016 g 1 none
  let w : State := v.updEng g fun x => { x with state := .stopped, stopCause := code, wait := none, ctx := .plain, saved := none }
  let e : ErrIn := { cls := 8, unit := g, addr := 0, detail := (v.eng g).r.ecause % 64 + code * 256, ini := 5, eng := g, key := g }
  have stops : t = (w.logErr e).fire (128 + g) := by
    unfold t State.engEnter
    dsimp only
    rw [exc, if_pos rfl]
    rfl
  have logged := w.logErr_is e (show severity 8 ≠ 3 by decide)
  have regs : (v.eng g).r = r := by
    unfold v
    rw [State.pmcAt_eng, State.eng_updEng]
  have eng : t.eng g = { v.eng g with state := .stopped, stopCause := code, wait := none, ctx := .plain, saved := none } := by
    rw [stops, State.fire_eng, logged.engs_eq rfl, State.eng_updEng]
  refine ⟨by rw [eng], by rw [eng], by rw [eng]; exact regs, fun up => ?_⟩
  rw [stops]
  refine State.fire_pends ?_ (.inl (by omega))
  calc (w.logErr e).hubUp = w.hubUp := State.domUp_pwr logged rfl 0
    _ = u.hubUp := State.domUp_pwr (State.pmcAt_is _ _ _ _ _) rfl 0
    _ = true := up

/-! ### The claim -/

/-- Settles O11: what is due at a boundary is entered in the order of R218, and an exception inside one stops the engine. -/
theorem boundaryExceptions : Obligations.BoundaryExceptions := by
  unfold Obligations.BoundaryExceptions
  refine ⟨fun s g => ?_, fun s g d a b arg h alone exc => ?_⟩
  · dsimp only
    intro power running plain noWait run exc
    have boundary : (s.eng g).atBoundary = true := by
      unfold Engine.atBoundary
      rw [plain, noWait]
      rfl
    refine ⟨fun addr status due => ⟨_, rfl, ?_⟩, fun noPosted limit timed => ⟨_, rfl, ?_⟩,
      fun line small noPosted notOver untimed on lowest => ⟨_, rfl, ?_⟩⟩
    · have taken : s.postedFaultTaken g = s.takeBoundary g := by
        unfold State.postedFaultTaken
        rw [power, due, noWait]
        rfl
      rw [taken]
      exact State.takeBoundary_entered boundary running (State.boundaryCause_posted due) run rfl rfl exc (leavesRest.refl s g)
    · let f : Engine → Engine := fun x => { x with timedOver := true, timedTicks := max x.timedTicks (1250 * (s.eng g).timedMax + 1) }
      have taken : s.timedOverrun g = (s.updEng g f).takeBoundary g := by
        unfold State.timedOverrun
        dsimp only
        rw [if_neg (by simp [limit, timed, exc, power, running])]
        rfl
      rw [taken]
      refine State.takeBoundary_entered ?_ ?_ (State.boundaryCause_timed ?_ ?_) ?_ ?_ ?_ exc ((leavesRest.refl s g).updEng f)
      all_goals rw [State.eng_updEng]
      · exact boundary
      · exact running
      · exact noPosted
      · exact run
    · rw [if_pos power]
      exact State.takeBoundary_entered boundary running (State.boundaryCause_line noPosted notOver untimed exc small on lowest) run rfl rfl exc
        (leavesRest.refl s g)
  · have alike := (s.eng g).r.retireAt_alike (s.eng g).r.pc
    have trapped : s.engIssue g .trap false (fun _ => .trap 17) = s.engApply g false (.trap 17) :=
      State.engIssue_apply (after := id) h rfl nofun h.2.2.2 (s.engEcc_clean g _)
    have still : ((s.eng g).r.retireAt (s.eng g).r.pc).exc = true := by
      unfold EngRegs.exc; rw [alike.2.2.1]; exact exc
    obtain ⟨state, cause, regs, pends⟩ := State.engEnter_stops (u := s.pmcAt 0x010 g 1 (some (g.val, (s.eng g).r.pc))) (g := g.val)
      (code := 17) (epc := ((s.eng g).r.retireAt (s.eng g).r.pc).pc) (cause := 17) (eaddr := 0) still (by omega)
    refine ⟨_, next_congr trapped, state, cause, fun up => pends ?_, fun k => ?_⟩
    · exact (State.domUp_pwr (State.pmcAt_is _ _ _ _ _) rfl 0).trans up
    · unfold EngRegs.get
      rw [show ((State.engApply s g false (.trap 17)).eng g).r = _ from regs, alike.1]

end Sys2Proof.Machine
end

section
/-! Posted stores, and the completions of device accesses on hub SRAM: what reaches memory and the engine, and the claim. -/

set_option Elab.async false

namespace Sys2Proof.Machine

open Sys2Proof

/-! ### A retirement without a store -/

/-- What a word that stores nothing may change: its engine and the counters. -/
def engineFoot : Foot := ⟨0x4020000, State.pmcAt_foot.rows⟩

/-- A word outside a mode-change shadow that stores nothing changes its engine and the counters alone. -/
theorem State.engRetire_nothing_is {s : State} {g : Nat} (direct : s.direct g) (pair : Bool) (r : EngRegs) :
    Follows engineFoot s (s.engRetire g pair r []) := by
  have eng (f : Engine → Engine) : Follows engineFoot s ((s.lmStore g []).updEng g f) := State.updEng_follows rfl (Follows.refl _ s)
  have counted (u : State) (n a : Nat) (hu : Follows engineFoot s u) : Follows engineFoot s
      (if pair = true then (u.pmcAt 0x010 g n (some (g, a))).pmcAt 0x011 g 1 (some (g, a)) else u.pmcAt 0x010 g n (some (g, a))) :=
    Follows.ite (State.pmcAt_follows rfl (State.pmcAt_follows rfl hu)) (State.pmcAt_follows rfl hu)
  unfold State.engRetire
  dsimp only
  split
  next => exact State.engBoundary_follows rfl (counted _ _ _ (eng _))
  next => exact State.engBoundary_follows rfl (counted _ _ _ (eng _))
  next shadow => exact absurd shadow (direct _ _ _ _)
  next shadow => exact absurd shadow (direct _ _ _ _)

/-- Outside a shadow no engine waits after its word has retired. -/
theorem State.engRetire_wait_direct {s : State} {g : Nat} (direct : s.direct g) (pair : Bool) (r : EngRegs) (st : List (Nat × List Byte)) :
    ((s.engRetire g pair r st).eng g).wait = none := by
  obtain ⟨out, e⟩ := s.engRetire_eng g pair r st
  rw [e, (Engine.settled_near _ out).2.1]
  unfold Engine.retired
  split
  next => rfl
  next => rfl
  next shadow => exact absurd shadow (direct _ _ _ _)
  next shadow => exact absurd shadow (direct _ _ _ _)

/-- A word that may not stand in a shadow stores directly (R207). -/
theorem State.device_direct {s : State} {g : Nat} (h : s.issues g .device) : s.direct g := by
  obtain ⟨-, -, place, -⟩ := h
  intro a m n held ctx
  unfold Engine.placeFault illegalIf faultIf at place
  simp [ctx] at place

/-- Control lanes carry an access as before where the domains, the tiles and the registers are. -/
theorem State.ctlBlocked_is {p : Foot} {s t : State} (h : Follows p s t)
    (quiet : (!p.comp 5 && !p.row R.PWR_FORCE_OFF_force.row && !p.row R.PWR_CLK_GATE_gate.row) = true) (tiles : p.comp 8 = false)
    (ini : Initiator) (a : Nat) (back : Bool) : t.ctlBlocked ini a back = s.ctlBlocked ini a back := by
  have runs (d : Nat) := State.domRuns_is h quiet d
  have down (k : Nat) (b : Bool) : t.ctlDown k b = s.ctlDown k b := by
    unfold State.ctlDown State.tile
    rw [h.tiles tiles]
  unfold State.ctlBlocked
  simp only [runs, down]

/-! ### Posted stores (R197) -/

/-- A posted store to plain hub SRAM puts its bytes there. -/
theorem State.device_posted {s : State} {g a : Nat} {data : List Byte} (h : s.plainSram a data.length) (go : s.ctlBlocked (engIni g) a false = false) :
    s.device (.store g) (engIni g) true a data data.length [] = s.setBytes a data := by
  unfold State.device
  rw [State.access_sram_write h go]
  dsimp only
  rw [show (s.ctlBlocked (engIni g) a true && !((AccSrc.store g).isPosted && Status.ok == Status.ok)) = false from Bool.and_false _]
  rfl

section Stp

variable {s : State} {g d a size : Nat} {off : BitVec 14} (h : s.issues g .device) (small : size < 3)
  (al : lmAddress (s.eng g).r a off % 2 ^ size = 0) (task : (s.eng g).r.mode.testBit 1 = true → (s.eng g).taskDev = true)
include h small al task

/-- STP retires at issue; its write goes out while the hub is up, and fails as DOZING while it is not. -/
theorem State.engStp_eq : s.engStp g d a true size off =
    if (s.engRetire g false (s.eng g).r []).hubUp
      then (s.engRetire g false (s.eng g).r []).device (.store g) (engIni g) true (lmAddress (s.eng g).r a off)
        (toBytes (2 ^ size) ((s.eng g).r.get d).toNat) (toBytes (2 ^ size) ((s.eng g).r.get d).toNat).length []
      else (s.engRetire g false (s.eng g).r []).storeFailed g .dozing (lmAddress (s.eng g).r a off) := by
  have legal : (size == 3 || !true) = false := by simp; omega
  have checks : worst [illegalIf (size == 3 || !true), s.devPriv g true (s.eng g).r,
      s.memFault g (lmAddress (s.eng g).r a off) (2 ^ size) (2 ^ size) true false] = none := by
    rw [legal, State.devPriv_none task, State.memFault_device al]; rfl
  unfold State.engStp
  dsimp only
  rw [State.engIssue_retire (r := (s.eng g).r) h h.2.2.2 rfl (by rw [checks])]
  rfl

theorem State.engStp_up (up : s.hubUp = true) (plain : s.plainSram (lmAddress (s.eng g).r a off) (2 ^ size))
    (open_ : s.lanesFree (engIni g) (lmAddress (s.eng g).r a off)) :
    s.engStp g d a true size off = (s.engRetire g false (s.eng g).r []).setBytes (lmAddress (s.eng g).r a off)
      (toBytes (2 ^ size) ((s.eng g).r.get d).toNat) := by
  have foot := State.engRetire_nothing_is (State.device_direct h) false (s.eng g).r
  rw [State.engStp_eq h small al task, if_pos (show State.hubUp _ = true from (State.domUp_pwr foot rfl 0).trans up)]
  refine State.device_posted ?_ ((State.ctlBlocked_is foot (by decide) rfl _ _ _).trans open_.1)
  rw [toBytes_length]
  unfold State.plainSram State.poisonedIn
  rw [foot.poison rfl]
  exact plain

end Stp

/-- A posted store that fails first is due at the next boundary. -/
theorem State.storeFailed_first {s : State} {g addr : Nat} {st : Status} (first : (s.eng g).postedFault = none) :
    (s.storeFailed g st addr).eng g = { s.eng g with postedFault := some (addr, postedCode st) } := by
  unfold State.storeFailed
  rw [State.eng_updEng, first]
  rfl

theorem Engine.retired_posted (x : Engine) (r : EngRegs) (st : List (Nat × List Byte)) : (x.retired r st).postedFault = x.postedFault := by
  unfold Engine.retired
  split <;> rfl

theorem State.engRetire_posted (s : State) (g : Nat) (pair : Bool) (r : EngRegs) (st : List (Nat × List Byte)) :
    ((s.engRetire g pair r st).eng g).postedFault = (s.eng g).postedFault := by
  obtain ⟨out, e⟩ := s.engRetire_eng g pair r st
  rw [e, (Engine.settled_near _ out).2.2.2.2.1, Engine.retired_posted]

/-! ### Completions (R195, R196) -/

/-- The registers with which a word retires that has waited for an access of one answer, the answer being data. -/
def EngWait.result (r : EngRegs) (data : List Byte) : EngWait → Option EngRegs
  | .load _ n d sx => some (r.put d (loadValue n sx (ofBytes data)))
  | .vload _ d => some (r.putVec d (bytesVec data))
  | .store .. => some r
  | .vstore .. => some r
  | _ => none

/-- An answered access brings its word to its retirement. -/
theorem State.engFinish_ok {s : State} {g : Nat} {w : EngWait} {r : EngRegs} {data : List Byte} (kept : (s.eng g).discard = none)
    (wait : (s.eng g).wait = some w) (result : w.result (s.eng g).r data = some r) : s.engFinish g .ok data = s.engRetire g false r [] := by
  unfold State.engFinish
  dsimp only
  rw [kept, wait]
  cases w <;> cases result <;> rfl

theorem State.setBytes_eng (s : State) (a : Nat) (l : List Byte) (g : Nat) : (s.setBytes a l).eng g = s.eng g := by
  unfold State.eng
  rw [State.setBytes_engs]

section Complete

variable {s : State} {g addr : Nat} (up : s.hubUp = true) (here : s.engAway g = false) (kept : (s.eng g).discard = none)
  (open_ : ∀ a : Nat, 0x1005000 ≤ a → a < 0x1C00000 → s.lanesFree (engIni g) a)
include up here kept

/-- The access of a waiting engine is carried out. -/
theorem State.engComplete_eq {w : EngWait} {isWrite : Bool} {data : List Byte} {len : Nat} (wait : (s.eng g).wait = some w)
    (access : (s.eng g).access w = some (isWrite, addr, data, len)) :
    s.engComplete g [] = s.device (.engine g) (engIni g) isWrite addr data len [] := by
  have notFence : (some w == some EngWait.fence) = false := by
    rw [beq_eq_false_iff_ne]
    rintro e
    cases e
    cases access
  unfold State.engComplete State.reachable
  dsimp only
  rw [kept, wait, notFence, here, up, if_neg Bool.false_ne_true, if_neg (by decide)]
  dsimp only [Option.bind]
  rw [access]

include open_

/-- A load of plain hub SRAM brings its bytes, and its word retires. -/
theorem State.engComplete_read {w : EngWait} {r : EngRegs} {len : Nat} (wait : (s.eng g).wait = some w)
    (access : (s.eng g).access w = some (false, addr, [], len)) (result : w.result (s.eng g).r (s.bytes addr len) = some r)
    (plain : s.plainSram addr len) : s.engComplete g [] = s.engRetire g false r [] := by
  have lanes := open_ addr plain.1 (by have := plain.2.1; have := plain.2.2.1; omega)
  rw [State.engComplete_eq up here kept wait access]
  unfold State.device
  rw [State.access_sram_read plain lanes.1, lanes.2]
  exact State.engFinish_ok kept wait result

/-- A store to plain hub SRAM puts its bytes there, and its word retires. -/
theorem State.engComplete_write {w : EngWait} {r : EngRegs} {data : List Byte} (wait : (s.eng g).wait = some w)
    (access : (s.eng g).access w = some (true, addr, data, data.length)) (result : w.result (s.eng g).r [] = some r)
    (plain : s.plainSram addr data.length) : s.engComplete g [] = (s.setBytes addr data).engRetire g false r [] := by
  have lanes := open_ addr plain.1 (by have := plain.2.1; have := plain.2.2.1; omega)
  rw [State.engComplete_eq up here kept wait access]
  unfold State.device
  rw [State.access_sram_write plain lanes.1, lanes.2]
  refine State.engFinish_ok ?_ ?_ ?_ (w := w) <;> rw [State.setBytes_eng]
  · exact kept
  · exact wait
  · exact result

end Complete

/-- Writing a general register leaves the special ones. -/
theorem EngRegs.put_special (r : EngRegs) (d : Nat) (x : Word) : r.mode = (r.put d x).mode ∧ r.estat = (r.put d x).estat ∧ r.epc = (r.put d x).epc ∧
    r.ecause = (r.put d x).ecause ∧ r.eaddr = (r.put d x).eaddr ∧ r.ien = (r.put d x).ien ∧ r.fpctrl = (r.put d x).fpctrl ∧
    r.scr = (r.put d x).scr := by
  unfold EngRegs.put
  split <;> exact ⟨rfl, rfl, rfl, rfl, rfl, rfl, rfl, rfl⟩

theorem State.bytes_lane (s : State) (a : Nat) {i : Nat} (hi : i < 16) : vget (bytesVec (s.bytes a 64)) i = BitVec.ofNat 32 (s.word (a + 4 * i)) := by
  unfold State.bytes State.word
  rw [bytesVec_lane _ hi]
  unfold State.bytes
  simp only [Nat.add_assoc]

/-- What a completed store leaves: the word has retired, its bytes stand in memory, and nothing else has changed. -/
theorem stored_retired {s : State} {g : Nat} (direct : s.direct g) (a : Nat) (l : List Byte) :
    let t := (s.setBytes a l).engRetire g false (s.eng g).r []
    (t.eng g).wait = none ∧ sameRegs s t g ∧ sameVecs s t g ∧ onlyEngine s t g ∧ wroteBytes s t a l := by
  have direct' : (s.setBytes a l).direct g := by
    unfold State.direct
    rw [State.setBytes_eng]
    exact direct
  refine ⟨State.engRetire_wait_direct direct' _ _ _, sameRegs_retired s _ g _ rfl _, sameVecs_retired s _ g _ rfl _,
    ⟨fun k ne => ?_, fun f hf => ?_⟩, fun b => ?_⟩
  · rw [State.engRetire_ne _ _ _ _ _ _ ne, State.setBytes_eng]
  · rw [State.engRetire_get _ _ _ _ _ _ hf, State.setBytes_get]
  · rw [State.engRetire_direct _ _ _ _ _ direct', State.lmStore_nil]
    exact s.setBytes_wrote a l b

/-! ### The claim -/

/-- Settles O13, by the write that a posted store sends out and by what each completion hands to the waiting word. -/
theorem storesAndCompletions : Obligations.StoresAndCompletions := by
  unfold Obligations.StoresAndCompletions
  refine ⟨fun s g d a size off h small => ?_, fun s g addr n dst v sx data => ?_⟩
  · intro x addr n al task
    have direct := State.device_direct h
    refine ⟨fun up plain open_ => ⟨_, next_congr (State.engStp_up h small al task up plain open_), fun b => ?_, ?_, fun k => ?_, fun k => ?_,
        fun k ne => ?_, fun f hf => ?_⟩,
      fun down first => ⟨_, next_congr ((State.engStp_eq h small al task).trans (if_neg ?_)), ?_, fun k => ?_, fun b => ?_⟩⟩
    · rw [State.setBytes_wrote _ _ _ b, State.engRetire_direct _ _ _ _ _ direct]
      rfl
    · rw [State.setBytes_eng]; exact State.engRetire_wait_direct direct _ _ _
    · rw [State.setBytes_eng]; exact sameRegs_retired s s g _ rfl _ k
    · rw [State.setBytes_eng]; exact sameVecs_retired s s g _ rfl _ k
    · rw [State.setBytes_eng]; exact State.engRetire_ne _ _ _ _ _ _ ne
    · rw [State.setBytes_get]; exact State.engRetire_get _ _ _ _ _ _ hf
    · rw [show State.hubUp _ = s.hubUp from State.domUp_pwr (State.engRetire_nothing_is direct false _) rfl 0, down]
      exact Bool.false_ne_true
    · rw [State.storeFailed_first ((State.engRetire_posted _ _ _ _ _).trans first)]
      rfl
    · rw [State.storeFailed_first ((State.engRetire_posted _ _ _ _ _).trans first)]
      exact sameRegs_retired s s g _ rfl _ k
    · exact State.engRetire_direct s g.val false _ [] direct b
  · intro x up here kept direct open_
    refine ⟨fun wait hd plain => ?_, fun wait hd plain => ?_, fun wait plain => ?_, fun wait plain => ?_⟩
    · exact ⟨_, next_congr (State.engComplete_read up here kept open_ wait rfl rfl plain), State.engRetire_wait_direct direct _ _ _,
        sameVecs_retired _ _ _ _ (EngRegs.put_v _ _ _) _, wordFrame_retire _ _ _ _ (EngRegs.put_special _ _ _), wroteReg_retired _ _ _ _ hd _ _⟩
    · refine ⟨_, next_congr (State.engComplete_read (len := 64) up here kept open_ wait rfl rfl plain), State.engRetire_wait_direct direct _ _ _, ?_,
        wordFrame_retire _ _ _ _ ⟨rfl, rfl, rfl, rfl, rfl, rfl, rfl, rfl⟩, fun i hi => ?_⟩
      · exact sameRegs_retired s s g.val false (r := (s.eng g.val).r.putVec dst (bytesVec (s.bytes addr 64))) rfl []
      · have held := wroteVec_engRetire s g.val hd (bytesVec (s.bytes addr 64)) dst hd
        rw [held, if_pos rfl, State.bytes_lane s addr hi]
    · have access : x.access (.store addr n v) = some (true, addr, toBytes n v, (toBytes n v).length) := by rw [toBytes_length]; rfl
      exact ⟨_, next_congr (State.engComplete_write up here kept open_ wait access rfl (by rw [toBytes_length]; exact plain)),
        stored_retired direct addr _⟩
    · exact ⟨_, next_congr (State.engComplete_write up here kept open_ wait rfl rfl plain), stored_retired direct addr _⟩

end Sys2Proof.Machine
end

section
/-! A step on an empty queue: what the engines do in one cycle of the hub, what the tick adds, and the claim. -/

set_option Elab.async false

namespace Sys2Proof.Machine

open Sys2Proof

/-! ### A cycle keeps the queue -/

theorem State.runWord_follows {p : Foot} {s0 s : State} (hp : Foot.le Foot.all p) (h : Follows p s0 s) (g : Fin 96) : Follows p s0 (s.runWord g) := by
  unfold State.runWord
  extract_lets seen u w illegal
  have counted : Follows p s0 u := State.tickFree_follows (hp.sub rfl) h
  have faulted : Follows p s0 illegal := State.engIssue_follows (hp.sub rfl) counted fun _ k => k
  refine Follows.ite faulted ?_
  split
  next => exact faulted
  next c _ =>
    have ran := exec_follows hp counted c
    split
    next t e => exact ran.of_eq e
    next => exact counted

theorem State.waitCount_follows {p : Foot} {s0 s : State} (hp : Foot.le State.pmc_foot p) (h : Follows p s0 s) (g : Nat) :
    Follows p s0 (s.waitCount g) := by
  unfold State.waitCount
  split
  next => exact State.pmc_follows hp h
  next => exact State.pmc_follows hp h
  next => exact State.pmc_follows hp h
  next => exact State.pmc_follows hp h
  next => exact h

/-- The state after the clocks of engine g have moved: its results and its timed-mode counter, before it looks at its word. -/
def State.aged (s : State) (g ticks : Nat) : State :=
  let t := (s.updEng g Engine.age).timedCount g ticks
  if (t.eng g).r.timed then t.pmc 0x018 g else t

theorem State.aged_follows {p : Foot} {s0 s : State} (hp : Foot.le engineFoot p) (h : Follows p s0 s) (g ticks : Nat) :
    Follows p s0 (s.aged g ticks) :=
  have timed := State.timedCount_follows (a1 := g) (a2 := ticks) (hp.sub rfl) (State.updEng_follows (a1 := g) (a2 := Engine.age) (hp.sub rfl) h)
  Follows.ite (State.pmc_follows (hp.sub rfl) timed) timed

theorem State.aged_ne (s : State) (g ticks : Nat) {k : Nat} (ne : k % 96 ≠ g % 96) : (s.aged g ticks).eng k = s.eng k := by
  unfold State.aged State.timedCount State.pmc
  dsimp only
  split
  · rw [State.pmcAt_eng, State.eng_updEng_ne _ _ _ _ ne, State.eng_updEng_ne _ _ _ _ ne]
  · rw [State.eng_updEng_ne _ _ _ _ ne, State.eng_updEng_ne _ _ _ _ ne]

/-- Out of timed mode, and at rest, the timed-mode counter stands. -/
theorem State.aged_eng {s : State} {g : Nat} (still : (s.eng g).r.timed = false ∨ (s.eng g).state = .halted) (ticks : Nat) :
    (s.aged g ticks).eng g = (s.eng g).age := by
  have off : (decide ((s.eng g).age.timedMax = 0) || !(s.eng g).age.r.timed || (s.eng g).age.r.exc || (s.eng g).age.state == .stopped ||
      (s.eng g).age.state == .halted) = true := by
    rcases still with e | e
    · simp [show (s.eng g).age.r.timed = false from e]
    · simp [show (s.eng g).age.state = .halted from e]
  have kept : (((s.updEng g Engine.age).timedCount g ticks).eng g) = (s.eng g).age := by
    unfold State.timedCount
    rw [State.eng_updEng, State.eng_updEng, if_pos off]
  unfold State.aged State.pmc
  dsimp only
  split
  · rw [State.pmcAt_eng, kept]
  · exact kept

theorem State.engCycle_follows {p : Foot} {s0 s : State} (hp : Foot.le Foot.all p) (h : Follows p s0 s) (ticks : Nat) (g : Fin 96) :
    Follows p s0 (s.engCycle ticks g) := by
  unfold State.engCycle
  extract_lets i t u b use w
  have aged : Follows p s0 u := State.aged_follows (hp.sub rfl) h i ticks
  have settled : Follows p s0 b := State.engBoundary_follows (hp.sub rfl) aged
  have ran : Follows p s0 w := State.runWord_follows hp settled g
  refine Follows.ite h ?_
  split
  next => exact State.waitCount_follows (hp.sub rfl) (State.mrecvWake_follows (hp.sub rfl) aged) i
  next => exact State.waitCount_follows (hp.sub rfl) (State.msendWake_follows (hp.sub rfl) aged) i
  next => exact State.waitCount_follows (hp.sub rfl) (State.wfiWake_follows (hp.sub rfl) aged) i
  next => exact State.waitCount_follows (hp.sub rfl) aged i
  next =>
    exact Follows.ite aged (Follows.ite settled (Follows.ite (State.takeBoundary_follows (hp.sub rfl) settled)
      (Follows.ite (State.pmc_follows (hp.sub rfl) settled) (Follows.ite settled (Follows.ite (State.updEng_follows (hp.sub rfl) ran) ran)))))

/-- The cycle of the engine of number g, where there is one. -/
def State.cycleAt (s : State) (ticks g : Nat) : State := if h : g < 96 then s.engCycle ticks ⟨g, h⟩ else s

theorem State.engines_hub {s : State} (hub : s.clk.holder = .hub) :
    s.engines = (List.range 96).foldl (fun t g => t.cycleAt s.cycleLength g) s := by
  unfold State.engines
  rw [if_pos hub]
  rfl

theorem State.engines_still {s : State} (off : s.clk.holder ≠ .hub) : s.engines = s := by
  unfold State.engines
  exact if_neg off

theorem State.engines_pending (s : State) : s.engines.pending = s.pending := by
  by_cases hub : s.clk.holder = .hub
  · have le : Foot.le Foot.all Foot.all := Foot.le_refl _
    rw [State.engines_hub hub]
    refine (Follows.foldl (p := Foot.all) (fun t g h => ?_) (Follows.refl _ s)).pending
    unfold State.cycleAt
    split
    next => exact State.engCycle_follows le h _ _
    next => exact h
  · rw [State.engines_still hub]

/-! ### Engines at rest -/

/-- A halted engine does nothing in a cycle but let its results go. -/
theorem State.cycleAt_halted {s : State} {g : Nat} (hg : g < 96) (halted : (s.eng g).state = .halted) (rest : (s.eng g).wait = none) (ticks : Nat) :
    Follows engineFoot s (s.cycleAt ticks g) ∧ ∀ k : Nat, k % 96 ≠ g → (s.cycleAt ticks g).eng k = s.eng k := by
  have aged := State.aged_eng (.inr halted) ticks
  have same : s.cycleAt ticks g = s ∨ s.cycleAt ticks g = s.aged g ticks := by
    unfold State.cycleAt
    rw [dif_pos hg]
    unfold State.engCycle
    extract_lets i t u b use w
    have hu : u.eng i = (s.eng g).age := aged
    have noWait : (u.eng i).wait = none := by rw [hu]; exact rest
    have notRunning : ((u.eng i).state != .running) = true := by rw [hu, show (s.eng g).age.state = .halted from halted]; rfl
    by_cases off : (!s.engPowered i) = true
    · exact .inl (if_pos off)
    · rw [if_neg off, noWait]
      exact .inr (if_pos notRunning)
  rcases same with e | e
  · rw [e]; exact ⟨Follows.refl _ _, fun _ _ => rfl⟩
  · rw [e]
    exact ⟨State.aged_follows (Foot.le_refl _) (Follows.refl _ _) g ticks, fun k ne => State.aged_ne s g ticks (by rw [Nat.mod_eq_of_lt hg]; exact ne)⟩

/-- The engines of a list at rest: none of the others is touched. -/
theorem State.cycles_halted {l : List Nat} (once : l.Nodup) {s : State}
    (rest : ∀ g ∈ l, g < 96 ∧ (s.eng g).state = .halted ∧ (s.eng g).wait = none) (ticks : Nat) :
    Follows engineFoot s (l.foldl (fun t g => t.cycleAt ticks g) s) ∧
      ∀ k : Nat, k < 96 → k ∉ l → (l.foldl (fun t g => t.cycleAt ticks g) s).eng k = s.eng k := by
  induction l generalizing s with
  | nil => exact ⟨Follows.refl _ _, fun _ _ _ => rfl⟩
  | cons g l ih =>
    obtain ⟨fresh, once⟩ := List.nodup_cons.1 once
    obtain ⟨hg, halted, noWait⟩ := rest g List.mem_cons_self
    obtain ⟨first, others⟩ := State.cycleAt_halted hg halted noWait ticks
    have other (k : Nat) (hk : k < 96) (ne : k ≠ g) : (s.cycleAt ticks g).eng k = s.eng k := others k (by rw [Nat.mod_eq_of_lt hk]; exact ne)
    obtain ⟨later, kept⟩ := ih once fun k mem => by
      obtain ⟨hk, h⟩ := rest k (List.mem_cons_of_mem _ mem)
      rw [other k hk fun e => fresh (e ▸ mem)]
      exact ⟨hk, h⟩
    rw [List.foldl_cons]
    refine ⟨first.trans later, fun k hk out => ?_⟩
    obtain ⟨ne, out⟩ := not_or.1 (mt List.mem_cons.2 out)
    rw [kept k hk out, other k hk ne]

/-! ### The word of ADD (Table 6.6) -/

/-- The word that spells ADD. -/
def addWord (d a b : Fin 16) : Nat := d.val * 2 ^ 21 + a.val * 2 ^ 17 + b.val * 2 ^ 13

theorem addWord_field (d a b : Fin 16) (lo n : Nat) :
    (BitVec.extractLsb' lo n (BitVec.ofNat 32 (addWord d a b))).toNat = addWord d a b / 2 ^ lo % 2 ^ n := by
  have small : addWord d a b < 2 ^ 32 := by unfold addWord; omega
  rw [BitVec.extractLsb'_toNat, BitVec.toNat_ofNat, Nat.mod_eq_of_lt small, Nat.shiftRight_eq_div_pow]

theorem addWord_bits (d a b : Fin 16) :
    addWord d a b / 2 ^ 25 = 0 ∧ addWord d a b / 2 ^ 21 % 2 ^ 4 = d.val ∧ addWord d a b / 2 ^ 17 % 2 ^ 4 = a.val ∧
    addWord d a b / 2 ^ 13 % 2 ^ 4 = b.val ∧ addWord d a b % 2 ^ 13 = 0 := by
  unfold addWord
  omega

theorem decode_addWord (g : Fin 96) (d a b : Fin 16) (seen : LmSeen) :
    decodeEngine g (BitVec.ofNat 32 (addWord d a b)) seen = some (.add g d a b 0) := by
  obtain ⟨top, hd, ha, hb, low⟩ := addWord_bits d a b
  have long : (BitVec.ofNat 32 (addWord d a b)).getLsbD 31 = false := by
    rw [BitVec.getLsbD_ofNat, Nat.testBit_eq_false_of_lt (by unfold addWord; omega), Bool.and_false]
  have opc : (BitVec.extractLsb' 25 6 (BitVec.ofNat 32 (addWord d a b))).toNat = 0 := by rw [addWord_field, top]; rfl
  have fn : (BitVec.extractLsb' 0 5 (BitVec.ofNat 32 (addWord d a b))).toNat = 0 := by rw [addWord_field]; omega
  have u : BitVec.extractLsb' 5 8 (BitVec.ofNat 32 (addWord d a b)) = 0 := BitVec.eq_of_toNat_eq (by rw [addWord_field]; show _ = 0; omega)
  have fd : wordField (BitVec.ofNat 32 (addWord d a b)) 21 = d := Fin.ext ((addWord_field d a b 21 4).trans hd)
  have fa : wordField (BitVec.ofNat 32 (addWord d a b)) 17 = a := Fin.ext ((addWord_field d a b 17 4).trans ha)
  have fb : wordField (BitVec.ofNat 32 (addWord d a b)) 13 = b := Fin.ext ((addWord_field d a b 13 4).trans hb)
  unfold decodeEngine
  rw [long]
  unfold decodeLong
  dsimp only
  rw [opc, fn, u, fd, fa, fb]
  rfl

theorem wordUse_long {w : Nat} (long : w.testBit 31 = false) : wordUse w = longUse w := by
  unfold wordUse
  rw [long]
  exact if_neg Bool.false_ne_true

/-- The words of opcode 0 do not occupy the CRC unit (Table 6.3). -/
theorem longUse_crc {w : Nat} (opc : bits w 30 25 = 0) : (longUse w).crc = 0 := by
  unfold longUse
  dsimp only
  rw [if_pos opc]

theorem addWord_crc (d a b : Fin 16) : (wordUse (addWord d a b)).crc = 0 := by
  obtain ⟨top, -⟩ := addWord_bits d a b
  rw [wordUse_long (Nat.testBit_eq_false_of_lt (by unfold addWord; omega))]
  exact longUse_crc (by unfold bits; rw [top, Nat.zero_mod])

/-! ### A running engine issues its word (R190) -/

/-- The engine with n more cycles of its CRC unit to go. -/
abbrev Engine.withCrc (x : Engine) (n : Nat) : Engine := { x with crcLeft := n }

/-- The engine is as before, but for the cycles that the CRC unit is still occupied. -/
def Engine.sameButCrc (x y : Engine) : Prop := ∃ n : Nat, y = x.withCrc n

section Transfer

variable {s t : State} {g : Nat} (h : Follows engineFoot s t) (same : (s.eng g).sameButCrc (t.eng g))
include h same

theorem State.engReady_is : t.engReady g = s.engReady g := by
  obtain ⟨n, e⟩ := same
  have runs (d : Nat) : t.domRuns d = s.domRuns d := State.domRuns_is h (by decide) d
  have powered : t.engPowered g = s.engPowered g := by
    unfold State.engPowered State.tileRuns
    rw [runs, runs, h.tile_eq rfl]
  have dom (d : Nat) : t.dom d = s.dom d := by unfold State.dom; rw [h.pwr rfl]
  unfold State.engReady
  dsimp only
  rw [e, powered, dom]

theorem State.boundaryCause_is : t.boundaryCause g = s.boundaryCause g := by
  obtain ⟨n, e⟩ := same
  unfold State.boundaryCause State.ipend
  rw [h.irq rfl]
  dsimp only
  rw [e]

theorem State.fetchFault_is : t.fetchFault g = s.fetchFault g := by
  obtain ⟨n, e⟩ := same
  unfold State.fetchFault State.poisoned
  dsimp only
  rw [e, h.poison rfl]

theorem State.lmRead_is (a n : Nat) : t.lmRead g a n = s.lmRead g a n := by
  obtain ⟨c, e⟩ := same
  have byte (i : Nat) : t.lmByte g i = s.lmByte g i := by
    unfold State.lmByte
    rw [e, h.bytes_eq rfl]
  unfold State.lmRead
  simp only [byte]

theorem State.issues_is {k : WordKind} (i : s.issues g k) : t.issues g k := by
  obtain ⟨ready, cause, place, fetch⟩ := i
  refine ⟨(State.engReady_is h same).trans ready, fun bound => (State.boundaryCause_is h same).trans (cause ?_), ?_,
    (State.fetchFault_is h same).trans fetch⟩
  · obtain ⟨n, e⟩ := same
    rw [e] at bound
    exact bound
  · obtain ⟨n, e⟩ := same
    rw [e]
    exact place

end Transfer

/-- With no agent's write waiting, and its run bit set, a boundary leaves the engine as it is. -/
theorem Engine.settled_quiet {x : Engine} (none_waits : x.agentWrites = []) (run : x.run = true) (out : Bool) : x.settled out = x := by
  cases x
  subst none_waits run
  unfold Engine.settled
  split <;> rfl

/-- The engine fetches an ADD whose local words show no uncorrectable error: it writes its sum. -/
theorem State.runWord_add {s : State} {g : Fin 96} {d a b : Fin 16} (h : s.issues g.val .plain) (word : s.fetched g.val = addWord d a b)
    (clean : LmSeen.bad (Config.lmSeen s.freeCtr) (s.eng g.val).r.pc = false) :
    wroteReg s (s.runWord g) g.val d.val ((s.eng g.val).r.get a.val + (s.eng g.val).r.get b.val) ∧
      ∀ k : Nat, k % 96 ≠ g.val → (s.runWord g).eng k = s.eng k := by
  have counted : s.tickFree.issues g.val .plain := h
  have fetch : s.tickFree.fetchFault g.val (Config.lmSeen s.freeCtr) = none := State.fetchFault_clean counted.2.2.2 clean
  obtain ⟨t, next, wrote, -, ⟨others, -⟩, -⟩ : Writes s.tickFree (.add g d a b 0) g.val d.val _ :=
    writes_of (v := (s.eng g.val).r.get a.val + (s.eng g.val).r.get b.val) rfl counted rfl d.isLt
  have ran : s.runWord g = t := by
    unfold State.runWord
    extract_lets seen u w illegal
    have hw : w = addWord d a b := word
    rw [if_neg (by rw [show u.fetchFault g.val seen = none from fetch]; exact Bool.false_ne_true), hw, decode_addWord]
    dsimp only
    rw [show exec (.add g d a b 0) u = .next t from next]
  rw [ran]
  exact ⟨wrote, fun k ne => others k (by rw [Nat.mod_eq_of_lt g.isLt]; exact ne)⟩

/-- An engine whose word stands alone and issues is powered, runs and waits for nothing. -/
theorem State.issues_ready {s : State} {g : Nat} {k : WordKind} (h : s.issues g k) (alone : s.alone g) :
    s.engPowered g = true ∧ (s.eng g).state = .running ∧ (s.eng g).wait = none := by
  obtain ⟨running, noWait, powers⟩ := State.engReady_parts h.1
  exact ⟨(powers alone).2, running, noWait⟩

/-- An issued word's results are kept beside the registers. -/
theorem Engine.issued_r (x : Engine) (u : WordUse) : (x.issued u).r = x.r := rfl

/-- Where no result is on its way, a cycle brings only the CRC unit nearer. -/
theorem Engine.age_ready {x : Engine} (ready : x.results = []) : x.age = x.withCrc (x.crcLeft - 1) := by
  cases x
  subst ready
  rfl

/-- No exception is due at the boundary before a word that issues. -/
theorem State.issues_cause {s : State} {g : Nat} {k : WordKind} (h : s.issues g k) :
    ((s.eng g).atBoundary && (s.boundaryCause g).isSome) = false := by
  obtain ⟨-, cause, -⟩ := h
  cases e : (s.eng g).atBoundary
  · rfl
  · rw [cause e]; rfl

/-- What a running engine that fetches an ADD, none of its results on their way, does in a cycle: the word is issued after the boundary. -/
theorem State.cycleAt_add {s : State} {g : Fin 96} {d a b : Fin 16} (h : s.issues g.val .plain) (alone : s.alone g.val)
    (none_waits : (s.eng g.val).agentWrites = []) (ready : (s.eng g.val).results = []) (untimed : (s.eng g.val).r.timed = false)
    (word : s.lmRead g.val (s.eng g.val).r.pc 4 = addWord d a b) (clean : LmSeen.bad (Config.lmSeen s.freeCtr) (s.eng g.val).r.pc = false) (ticks : Nat) :
    wroteReg s (s.cycleAt ticks g.val) g.val d.val ((s.eng g.val).r.get a.val + (s.eng g.val).r.get b.val) ∧
      ∀ k : Nat, k % 96 ≠ g.val → (s.cycleAt ticks g.val).eng k = s.eng k := by
  obtain ⟨powered, running, noWait⟩ := State.issues_ready h alone
  unfold State.cycleAt
  rw [dif_pos g.isLt]
  unfold State.engCycle
  extract_lets i t u bound use w
  have hu : u.eng i = (s.eng i).withCrc ((s.eng i).crcLeft - 1) := (State.aged_eng (.inl untimed) ticks).trans (Engine.age_ready ready)
  have hb : bound.eng i = (s.eng i).withCrc ((s.eng i).crcLeft - 1) := by
    rw [State.engBoundary_eng, hu]
    exact Engine.settled_quiet (x := (s.eng i).withCrc ((s.eng i).crcLeft - 1)) none_waits (State.issues_run h alone) _
  have foot : Follows engineFoot s bound := State.engBoundary_follows rfl (State.aged_follows (Foot.le_refl _) (Follows.refl _ s) i ticks)
  have same : (s.eng i).sameButCrc (bound.eng i) := ⟨_, hb⟩
  have issues : bound.issues i .plain := State.issues_is foot same h
  have fetched : bound.fetched i = addWord d a b := by
    unfold State.fetched
    rw [State.lmRead_is foot same, hb]
    exact word
  obtain ⟨wrote, others⟩ := State.runWord_add (g := g) issues fetched (by rw [foot.freeCtr rfl, hb]; exact clean)
  have other (k : Nat) (ne : k % 96 ≠ i) : w.eng k = s.eng k := by
    have ne' : k % 96 ≠ i % 96 := by rw [Nat.mod_eq_of_lt g.isLt]; exact ne
    rw [others k ne, State.engBoundary_ne _ _ _ ne']
    exact State.aged_ne s i ticks ne'
  have wait : (u.eng i).wait = none := by rw [hu]; exact noWait
  have runs : ¬ ((u.eng i).state != .running) = true := by rw [hu, running]; decide
  have free : ¬ ((bound.eng i).lacks use) = true := by rw [hb]; unfold Engine.lacks; simp [show (s.eng i).results = [] from ready]
  have crc : ¬ ((bound.eng i).crcHeld use) = true := by
    have none_used : use.crc = 0 := (congrArg (fun v => (wordUse v).crc) fetched).trans (addWord_crc d a b)
    unfold Engine.crcHeld
    simp [none_used]
  rw [if_neg (by rw [powered]; exact Bool.false_ne_true), wait]
  dsimp only
  rw [if_neg runs, if_neg (by rw [issues.1]; exact Bool.false_ne_true), if_neg (by rw [State.issues_cause issues]; exact Bool.false_ne_true), if_neg free,
    if_neg crc]
  have ends : wroteReg s w i d.val ((s.eng i).r.get a.val + (s.eng i).r.get b.val) := by
    unfold wroteReg at wrote ⊢
    rw [hb] at wrote
    exact wrote
  split
  · refine ⟨fun k hk => ?_, fun k ne => ?_⟩
    · rw [State.eng_updEng, Engine.issued_r]; exact ends k hk
    · rw [State.eng_updEng_ne _ _ _ _ (by rw [Nat.mod_eq_of_lt g.isLt]; exact ne)]; exact other k ne
  · exact ⟨ends, other⟩

/-! ### The tick -/

theorem State.tick_is (s : State) : Follows State.tick_foot s s.tick := State.tick_follows (Foot.le_refl _) (Follows.refl _ _)

/-- Without a slew, a cycle of the hub advances mesh time by its length. -/
theorem State.advance_mesh {s : State} (noSlew : s.clk.slew = 0) (settled : s.clk.slewAcc = 0) : s.advance.clk.mesh = s.clk.mesh + s.cycleLength := by
  unfold State.advance
  extract_lets n clk u
  have due : u.slewDue = 0 := by
    unfold State.slewDue
    rw [show u.clk.slewAcc = 0 by show s.clk.slewAcc + s.clk.slew * n = 0; rw [noSlew, settled]; simp]
    rfl
  rw [(State.slewSettle_clk _).1, due]
  show ((s.clk.mesh : Int) + n + 0).toNat = _
  omega

theorem State.hubCycle_mesh {s : State} (noSlew : s.clk.slew = 0) (settled : s.clk.slewAcc = 0) : s.hubCycle.clk.mesh = s.clk.mesh + s.cycleLength := by
  have fabrics : Follows State.fabricsCycle_foot s s.fabricsCycle := State.fabricsCycle_follows (Foot.le_refl _) (Follows.refl _ _)
  have counts : Follows State.cycleCounts_foot s.fabricsCycle s.fabricsCycle.cycleCounts := State.cycleCounts_follows (Foot.le_refl _) (Follows.refl _ _)
  have clk : s.fabricsCycle.cycleCounts.clk = s.clk := (counts.clk rfl).trans (fabrics.clk rfl)
  have pwr : s.fabricsCycle.cycleCounts.pwr = s.pwr := (counts.pwr rfl).trans (fabrics.pwr rfl)
  unfold State.hubCycle
  rw [State.advance_mesh (by rw [clk]; exact noSlew) (by rw [clk]; exact settled), clk]
  unfold State.cycleLength
  rw [pwr]

/-- An edge of the keeper leaves registers and memory, and never sets mesh time back. -/
theorem State.keeperEdge_keeps (s : State) : s.clk.mesh ≤ s.keeperEdge.clk.mesh ∧ s.keeperEdge.regs = s.regs ∧ s.keeperEdge.mem = s.mem :=
  ⟨Nat.le_add_right _ _, rfl, rfl⟩

/-! ### The claim -/

theorem step_empty {s : State} (empty : s.pending = []) : step s = .next s.engines.tick := by
  unfold step
  rw [empty]

/-- An idle step with every engine at rest: mesh time goes on by a cycle, and memory stays. -/
theorem State.idle_hub {s : State} (hub : s.clk.holder = .hub) (noSlew : s.clk.slew = 0) (settled : s.clk.slewAcc = 0)
    (rest : ∀ g : Nat, g < 96 → (s.eng g).state = .halted ∧ (s.eng g).wait = none) :
    s.engines.tick.clk.mesh = s.clk.mesh + (if s.pwr.mode = .doze then 4 else 1) ∧ s.engines.tick.mem = s.mem := by
  have cycled : Follows engineFoot s s.engines := by
    rw [State.engines_hub hub]
    exact (State.cycles_halted List.nodup_range (fun g hg => ⟨List.mem_range.1 hg, rest g (List.mem_range.1 hg)⟩) _).1
  have clk := cycled.clk rfl
  refine ⟨?_, (s.engines.tick_is.mem rfl).trans (cycled.mem rfl)⟩
  unfold State.tick
  rw [clk, hub]
  dsimp only
  rw [State.hubCycle_mesh (by rw [clk]; exact noSlew) (by rw [clk]; exact settled), clk]
  unfold State.cycleLength
  rw [cycled.pwr rfl]
  simp only [beq_iff_eq]

/-- The running engine's word is issued in its turn, the engines before and after it at rest. -/
theorem State.engines_add {s : State} {g : Fin 96} {d a b : Fin 16} (hub : s.clk.holder = .hub) (h : s.issues g.val .plain) (alone : s.alone g.val)
    (none_waits : (s.eng g.val).agentWrites = []) (ready : (s.eng g.val).results = []) (untimed : (s.eng g.val).r.timed = false)
    (rest : ∀ k : Nat, k < 96 → k ≠ g.val → (s.eng k).state = .halted ∧ (s.eng k).wait = none)
    (word : s.lmRead g.val (s.eng g.val).r.pc 4 = addWord d a b) (clean : LmSeen.bad (Config.lmSeen s.freeCtr) (s.eng g.val).r.pc = false) :
    wroteReg s s.engines g.val d.val ((s.eng g.val).r.get a.val + (s.eng g.val).r.get b.val) := by
  obtain ⟨before, after, turns⟩ := List.append_of_mem (List.mem_range.2 g.isLt)
  have once : (before ++ g.val :: after).Nodup := turns ▸ List.nodup_range
  obtain ⟨onceBefore, onceAfter, apart⟩ := List.nodup_append.1 once
  obtain ⟨notAfter, onceAfter⟩ := List.nodup_cons.1 onceAfter
  have notBefore : g.val ∉ before := fun mem => apart _ mem _ List.mem_cons_self rfl
  have small (k : Nat) (mem : k ∈ before ++ g.val :: after) : k < 96 := List.mem_range.1 (turns ▸ mem)
  rw [State.engines_hub hub, turns, List.foldl_append, List.foldl_cons]
  obtain ⟨foot, kept⟩ := State.cycles_halted onceBefore (s := s) (ticks := s.cycleLength) fun k mem =>
    ⟨small k (List.mem_append_left _ mem), rest k (small k (List.mem_append_left _ mem)) fun e => notBefore (e ▸ mem)⟩
  generalize before.foldl (fun t k => t.cycleAt s.cycleLength k) s = u at foot kept ⊢
  have same : u.eng g.val = s.eng g.val := kept g.val g.isLt notBefore
  have like : (s.eng g.val).sameButCrc (u.eng g.val) := ⟨_, same⟩
  have plain : u.alone g.val := by unfold State.alone; rw [same]; exact alone
  obtain ⟨wrote, others⟩ := State.cycleAt_add (State.issues_is foot like h) plain (by rw [same]; exact none_waits) (by rw [same]; exact ready)
    (by rw [same]; exact untimed) (by rw [State.lmRead_is foot like, same]; exact word) (by rw [foot.freeCtr rfl, same]; exact clean) s.cycleLength
  generalize u.cycleAt s.cycleLength g.val = v at wrote others ⊢
  obtain ⟨-, keptAfter⟩ := State.cycles_halted onceAfter (s := v) (ticks := s.cycleLength) fun k mem => by
    have hk : k < 96 := small k (List.mem_append_right _ (List.mem_cons_of_mem _ mem))
    have ne : k ≠ g.val := fun e => notAfter (e ▸ mem)
    rw [others k (by rw [Nat.mod_eq_of_lt hk]; exact ne), kept k hk fun early => apart _ early _ (List.mem_cons_of_mem _ mem) rfl]
    exact ⟨hk, rest k hk ne⟩
  intro k hk
  rw [keptAfter g.val g.isLt notAfter, wrote k hk, same]

/-- Settles O16, by the footprint of a tick, and by the cycles of the engines before, of and after the one that runs. -/
theorem idleTick : Obligations.IdleTick := by
  unfold Obligations.IdleTick
  refine ⟨fun s empty => ?_, fun s g d a b empty hub issues alone => ?_⟩
  · refine ⟨_, step_empty empty, ((s.engines.tick_is).pending.trans s.engines_pending).trans empty, State.idle_hub, fun off => ?_, fun keeper => ?_⟩
    · rw [State.engines_still (by rw [off]; decide)]
      unfold State.tick
      rw [off]
    · rw [State.engines_still (by rw [keeper]; decide)]
      unfold State.tick
      rw [keeper]
      exact s.keeperEdge_keeps
  · intro x none_waits ready untimed rest word
    refine ⟨_, step_empty empty, ?_⟩
    by_cases bad : LmSeen.bad (Config.lmSeen s.freeCtr) x.r.pc = true
    · exact .inl bad
    · refine .inr ?_
      have ends := State.engines_add hub issues alone none_waits ready untimed rest word (by simpa using bad)
      intro k hk
      rw [s.engines.tick_is.engs_eq rfl]
      exact ends k hk

end Sys2Proof.Machine
end
